-- ==== Sys2Proof/Word.lean ====
section
/-! DEFINITION. The word types of the switch: bytes, 32-bit registers, 64-bit counters and addresses,
and the 64-byte descriptor (00_scope R6, 12 R415, 18 R541). -/
namespace Sys2Proof

/-- One byte. -/
abbrev Byte := BitVec 8

/-- A 16-bit field. -/
abbrev Half := BitVec 16

/-- A 32-bit register or field (18 R541). -/
abbrev Word := BitVec 32

/-- A 64-bit counter, digest, identifier or address (00_scope R7). -/
abbrev Quad := BitVec 64

/-- A 64-byte descriptor, byte 0 in bits 7..0 (12 R415, 00_scope R6). -/
abbrev Desc := BitVec 512

/-- A finite map kept as plain data: pairs of key and value, keys strictly rising.
An absent key reads as the default that the reader names. -/
abbrev SMap (β : Type) := List (Nat × β)

end Sys2Proof
end

