-- ==== Sys2Proof/Syntax.lean ====
section
/-! DEFINITION. The commands of the switch: one constructor per row of the table of operations and events
(spec/opcode_table.json), in its order, and the data they carry. -/
namespace Sys2Proof

/-- A cell in FL3 form: 8 header bytes and a payload of 64 bytes, byte 0 in bits 7..0.
An FL1 cell keeps its own header and 56 payload bytes, bytes 56 to 63 zero (03 R98, R103, R104). -/
structure Cell where
  /-- Header. -/
  hdr : Quad
  /-- Payload. -/
  pay : BitVec 512
  deriving DecidableEq, Repr

/-- A link frame (03 R88, R89): header, four cell positions, trailer, and whether FEC could correct it. -/
structure Frame where
  /-- Link header. -/
  hdr : Quad
  /-- Cell positions 0 to 3. -/
  pos : List Cell
  /-- CRC-64 trailer, or the truncated GCM tag of R518. -/
  trailer : Quad
  /-- Every codeword of the frame was correctable. -/
  fecOk : Bool
  deriving DecidableEq, Repr

/-- A descriptor as the switch holds it when it acts on it: the submitting function and ring, the 64 bytes, and
what its host-memory reads returned (12 R404, R412, R413). -/
structure Sub where
  /-- Submitting function (12 R405). -/
  func : Nat
  /-- Ring number. -/
  ring : Nat
  /-- The descriptor. -/
  desc : Desc
  /-- Bytes that its host-memory reads returned, in the order of the addresses. -/
  host : List Byte
  /-- Address of a host-memory access that failed (12 R413). -/
  hostErr : Option Quad
  deriving DecidableEq, Repr

/-- Spaces a register write can reach (12 R400, R401, R406): BAR0, BAR2, BAR4 of the function, and the VF Enable and
NumVFs fields of the SR-IOV capability of the PF (offset 0). -/
inductive RegSpace where
  | bar0 | bar2 | bar4 | sriov
  deriving DecidableEq, Repr

/-- What stood at a tier-1 address that returned an uncorrectable error (11 R389). -/
inductive MemRegion where
  /-- A slot place of a grid cell. -/
  | slot (ctx opnum gcell : Nat)
  /-- The anchor table of a context; `both`: both copies. -/
  | anchorTable (ctx segment : Nat) (both : Bool)
  /-- The set-up image of a logical tile; `both`: both copies. -/
  | setupImage (quad : Nat) (both : Bool)
  /-- The digest set of an operation. -/
  | digestSet (ctx opnum : Nat)
  /-- The completion map of an operation. -/
  | completionMap (ctx opnum : Nat)
  /-- A retention record. -/
  | retention (ctx opnum gcell : Nat)
  /-- A spilled cell of a member port: its place in the queue. -/
  | spill (port index : Nat)
  /-- A store bank or tier-2 array of a shard whose current bank an update step reads. -/
  | store (ctx ugroup shard : Nat)
  /-- A commit record of a shard: place 0 or 1. -/
  | commitRecord (ctx shard place : Nat)
  /-- A gather-cache entry. -/
  | cache (ctx shard version : Nat)
  /-- The source of the migration on a grove. -/
  | migration (grove : Nat)
  /-- Nothing the switch uses. -/
  | unused
  deriving DecidableEq, Repr

/-- What a start-up stage found (14 R478; 11 R383, R384, R395; 01 R15). -/
structure StageResults where
  /-- Physical tiles whose self-test failed. -/
  tilesFailed : List Nat
  /-- Lane repairs made: stack, channel, lane, spare used (0, 1 data, 2 row, 3 column). -/
  repairs : List (Nat × Nat × Nat × Nat)
  /-- Channels that failed training: stack, channel. -/
  channelsFailed : List (Nat × Nat)
  /-- Stacks that failed to train. -/
  stacksFailed : List Nat
  /-- Tier-2 extents whose tag failed: root port, context, shard. -/
  tagsBad : List (Nat × Nat × Nat)
  deriving DecidableEq, Repr

/-- The measurements of one millisecond (15 R491, R496). -/
structure PowerSample where
  /-- 1 ms average of input power, W. -/
  pin : Nat
  /-- Input voltage, mV. -/
  vin : Nat
  /-- Input current, 10 mA. -/
  iin : Nat
  /-- Grove power, W. -/
  groves : List Nat
  /-- Optics and SerDes power, W. -/
  optics : Nat
  /-- Stack power, W. -/
  stackW : Nat
  /-- Regulator output power by regulator, 0.1 W. -/
  regs : List (Nat × Nat)
  deriving DecidableEq, Repr

/-- One sensor reading (15 R492): kind 0 tile junction, 1 stack, 2 engine, 3 regulator, 4 cold-plate inlet side,
5 outlet side; index; temperature in eighths of a degree C. -/
structure ThermalReading where
  /-- Sensor kind. -/
  kind : Nat
  /-- Sensor index. -/
  idx : Nat
  /-- Temperature, 0.125 C. -/
  temp : Int
  deriving DecidableEq, Repr

/-- One step of a PLDM firmware update (16 R509, DSP0267). -/
inductive PldmStep where
  /-- RequestUpdate: opens the session and erases the slot. -/
  | requestUpdate
  /-- Component data at an offset. -/
  | data (offset : Nat) (bytes : List Byte)
  /-- The transfer has ended: the slot is verified and the component applied. -/
  | verify
  /-- CancelUpdate. -/
  | cancel
  deriving DecidableEq, Repr

/-- The commands (one constructor per row of the table). -/
inductive Instr where
  /-- TILE_QUARANTINE (R528). Management command asks for a tile to be quarantined as a software request of R307. -/
  | tileQuarantine (via : Option Sub) (tile : Nat)
  /-- TAKE_OVER_COMPLETE (R21). The take-over ends, credit return resumes and re-injection for lost slots and records is raised. -/
  | takeOverComplete (quad : Nat)
  /-- PERIODIC_SELF_TEST (R15). Periodic self-test of a spare tile runs and a failure quarantines it. -/
  | periodicSelfTest (tile : Nat) (pass : Bool)
  /-- TILE_CLEAR (R15). Management clear command self-tests a quarantined tile and returns it to SPARE on pass. -/
  | tileClear (via : Option Sub) (tile : Nat) (pass : Bool)
  /-- FRAME_RECEIVE (R91). A link frame is received, checked by FEC and CRC or GCM tag, accepted or discarded with NAK, and its acknowledgement processed. -/
  | frameReceive (port : Nat) (frame : Frame) (codewords symbols uncorrectable : Nat)
  /-- REPLAY_TIMEOUT (R92). The oldest unacknowledged frame exceeds the replay timeout and is replayed. -/
  | replayTimeout (port : Nat)
  /-- CREDIT_RECEIVE (R96). A CREDIT cell adds the difference of FREED counts to the sender's credit per virtual channel. -/
  | creditReceive (port : Nat) (cell : Cell)
  /-- CREDIT_TIMER (R96). 128 ns after the first freed cell a CREDIT cell is sent. -/
  | creditTimer (port : Nat)
  /-- HEARTBEAT_PERIOD (R114). At the end of a heartbeat period with no other cell sent, a HEARTBEAT cell is sent. -/
  | heartbeatPeriod (port : Nat)
  /-- HEARTBEAT_MISS (R115). Four heartbeat periods without liveness take the port to LOST with reason HEARTBEAT. -/
  | heartbeatMiss (port : Nat)
  /-- LINK_ID_RECEIVE (R106). A LINK_ID is accepted, rejected or ignored by the identity tests; acceptance takes the port UP. -/
  | linkIdReceive (port : Nat) (cell : Cell)
  /-- LINK_ID_TIMER (R106). A port in IDENTIFY sends LINK_ID every 1 ms. -/
  | linkIdTimer (port : Nat)
  /-- IDENTIFY_TIMEOUT (R107). 10 ms without an accepted LINK_ID returns the port to SEARCH. -/
  | identifyTimeout (port : Nat)
  /-- SPLIT_DARK_TIMEOUT (R85). 100 ms after the first lane of a four-lane port is identified, unidentified lanes count as dark. -/
  | splitDarkTimeout (quad : Nat)
  /-- SPLIT_RETRY (R85). 10 ms after a failed split choice every lane returns to SEARCH and the trial restarts. -/
  | splitRetry (quad : Nat)
  /-- SEARCH_RATE_STEP (R105). A port in SEARCH steps its training rate down after 4 ms at each allowed rate. -/
  | searchRateStep (port : Nat)
  /-- LINK_DOWN_RECEIVE (R116). A received LINK_DOWN takes the UP port to LOST with reason PARTNER. -/
  | linkDownReceive (port : Nat) (cell : Cell)
  /-- LOST_RETRY_TIMER (R107). 1 ms after entering LOST with ADMIN_UP = 1 the port returns to SEARCH. -/
  | lostRetryTimer (port : Nat)
  /-- ADMIN_UP_WRITE_0 (R107). Writing ADMIN_UP = 0 takes the port to DISABLED, sending LINK_DOWN ADMIN if UP. -/
  | adminUpWrite0 (port : Nat)
  /-- ADMIN_UP_WRITE_1 (R107). Writing ADMIN_UP = 1 takes a DISABLED port to SEARCH and clears test fields. -/
  | adminUpWrite1 (port : Nat)
  /-- MEMBER_CELL_RECEIVE (R41). A COLL-UP cell from a member is checked, translated and staged until its grid cell is complete. -/
  | memberCellReceive (port : Nat) (cell : Cell)
  /-- STAGED_CONTRIBUTION_CONVERT (R51). A contribution waiting for an earlier operation's release or an anchor write is converted with the anchor then in force. -/
  | stagedContributionConvert (ctx opnum port gcell : Nat)
  /-- RECORD_RECEIVE (R65). A packed grid or float record arrives in parts, is checked for malformation and combined or forwarded. -/
  | recordReceive (port : Nat) (cell : Cell)
  /-- REPLAY_NOTICE_RECEIVE (R58). A replay notice updates the anchor entry, clears slots, forwards to children and asks members to resend. -/
  | replayNoticeReceive (port : Nat) (cell : Cell)
  /-- ANCHOR_NOTICE_RECEIVE (R61). An anchor notice writes the next anchor into the anchor table. -/
  | anchorNoticeReceive (port : Nat) (cell : Cell)
  /-- P2P_CELL_RECEIVE (R338). A REQ, RSP or FWD cell is routed by route version, ranked rule, multicast or adaptive choice, or discarded. -/
  | p2pCellReceive (port : Nat) (cell : Cell)
  /-- CONG_ECHO_RECEIVE (R354). A CONG_ECHO is routed and delivered, or applied by the port tile's pacer for an FL1 member. -/
  | congEchoReceive (port : Nat) (cell : Cell)
  /-- PACING_RAISE_TIMER (R356). Each RAISE_US without an echo raises a pacer entry's rate by 1/64 of the port rate. -/
  | pacingRaiseTimer (port cdst : Nat)
  /-- MEMBER_EGRESS_STALL (R358). A member port holding no credit for FWD_STALL_US has its queued cells discarded. -/
  | memberEgressStall (port tc : Nat)
  /-- EGRESS_SERVICE (R183). An egress port serves its next cell: port-layer and CTRL first, scheduled units by rank, then best effort. -/
  | egressService (port : Nat)
  /-- CTX_CREATE (R121). Creates a context at this switch from its canopy record. -/
  | ctxCreate (sub : Sub)
  /-- CTX_DESTROY (R122). Destroys a context, or begins closing it under FORCE. -/
  | ctxDestroy (sub : Sub)
  /-- CTX_RECANOPY (R130). Registers a new canopy taking effect from EFFECTIVE_OPNUM. -/
  | ctxRecanopy (sub : Sub)
  /-- PORT_BIND (R127). Binds or unbinds a member port to a job and rank. -/
  | portBind (sub : Sub)
  /-- OP_POST (R135). Registers an operation block at this switch. -/
  | opPost (sub : Sub)
  /-- OP_ABORT (R155). Requests the abort of an operation. -/
  | opAbort (sub : Sub)
  /-- JOIN_RECEIVE (R137). A JOIN opens or joins an operation, fails it, or is discarded; the last join sends JOIN upward or JOINED down. -/
  | joinReceive (port : Nat) (cell : Cell)
  /-- JOIN_STATUS_RECEIVE (R138). A JOIN_STATUS from a canopy neighbour (JOINED, GRANT, COMPLETE) advances the operation at this switch. -/
  | joinStatusReceive (port : Nat) (cell : Cell)
  /-- COUNTS_RECEIVE (R146). A COUNTS cell travels up or down and completes a leaf's counts exchange. -/
  | countsReceive (port : Nat) (cell : Cell)
  /-- EXCHANGE_CELL_RECEIVE (R147). An exchange FWD cell is counted against its block at the destination leaf. -/
  | exchangeCellReceive (port : Nat) (cell : Cell)
  /-- BARRIER_ARRIVE_RECEIVE (R148). A BARRIER_ARRIVE aggregates upward; at the root all arrivals send BARRIER_RELEASE. -/
  | barrierArriveReceive (port : Nat) (cell : Cell)
  /-- BARRIER_RELEASE_RECEIVE (R148). A BARRIER_RELEASE from the parent is forwarded to the children. -/
  | barrierReleaseReceive (port : Nat) (cell : Cell)
  /-- LATENESS_EXPIRY (R150). LATE_FRAMES ticks after the lateness start a member child is late and a backup copy may be taken. -/
  | latenessExpiry (ctx opnum gcell port : Nat)
  /-- STALL_TIMEOUT (R152). STALL_US passes without a join or contribution and a stall event is raised. -/
  | stallTimeout (ctx opnum port gcell : Nat) (contribution : Bool)
  /-- MEMBER_LOSS_TIMEOUT (R153). A member child or canopy path out of service for LOSS_MS fails open operations with MEMBER_LOST. -/
  | memberLossTimeout (port : Nat)
  /-- ABORT_NOTICE_RECEIVE (R154). An abort request reaches the commit tile and is decided, or a decision frees the operation's state. -/
  | abortNoticeReceive (port : Nat) (cell : Cell)
  /-- SEEDLING_REBOUND (R158). A pending member-port change of context 0 is applied once no operation is open. -/
  | seedlingRebound
  /-- SEEDLING_REBIND_TIMEOUT (R481). 500 ms after the first member port reached UP the first rebinding takes place. -/
  | seedlingRebindTimeout
  /-- FRAME_TICK (R177). A frame tick opens a frame; new quotas, grants and releases take effect. -/
  | frameTick
  /-- TIMING_MESSAGE_RECEIVE (R171). A timing-input message at its mark is checked and its offset measured. -/
  | timingMessageReceive (msg : BitVec 128) (mark : Quad) (frac : BitVec 4)
  /-- TIMING_INPUT_TIMEOUT (R171). 4 × 2^20 ns without a mark makes the timing input invalid. -/
  | timingInputTimeout
  /-- TIMING_OUTPUT_MARK (R172). At each mark the switch drives a timing message on its output. -/
  | timingOutputMark
  /-- SYNC_RECEIVE (R175). A SYNC from the time parent yields an offset for the servo and the synchronisation state. -/
  | syncReceive (port : Nat) (cell : Cell) (stamp : Quad) (frac : BitVec 4)
  /-- DELAY_REQ_RECEIVE (R175). A DELAY_REQ is answered with DELAY_RESP. -/
  | delayReqReceive (port : Nat) (cell : Cell) (stamp : Quad) (frac : BitVec 4)
  /-- DELAY_RESP_RECEIVE (R175). A DELAY_RESP completes a delay-measurement pair. -/
  | delayRespReceive (port : Nat) (cell : Cell) (stamp : Quad) (frac : BitVec 4)
  /-- ANNOUNCE_RECEIVE (R165). An ANNOUNCE updates the in-band candidates and may reselect the source. -/
  | announceReceive (port : Nat) (cell : Cell)
  /-- SYNC_INTERVAL (R175). At each SYNC interval tick SYNC, and every sixteenth ANNOUNCE, is sent. -/
  | syncInterval
  /-- DELAY_REQ_TIMER (R175). Half an interval after SYNC a follower sends DELAY_REQ. -/
  | delayReqTimer
  /-- DELAY_REQ_TIMEOUT (R175). A DELAY_REQ unanswered after 10 µs is dropped from the computation. -/
  | delayReqTimeout
  /-- ANNOUNCE_TIMEOUT (R166). Three ANNOUNCE intervals without ANNOUNCE lose the in-band source. -/
  | announceTimeout (port : Nat)
  /-- HOLDOVER_EXPIRED (R166). 10 s in HOLDOVER without a source goes to FREE_RUN. -/
  | holdoverExpired
  /-- SOURCE_WRITE (R166). Writing SOURCE restarts source selection from FREE_RUN. -/
  | sourceWrite (value : Nat)
  /-- PERIOD_LOG2_WRITE (R178). A frame-period write is judged against quotas and scheduled or discarded. -/
  | periodLog2Write (value : Nat)
  /-- FRAME_PERIOD_CHANGED (R178). At the next 16,384 ns tick the new frame period takes effect. -/
  | framePeriodChanged
  /-- FRAME_QUOTA (R181). Sets a context's frame plan at this switch. -/
  | frameQuota (sub : Sub)
  /-- LAUNCH_INSTANT (R186). At launch instant L staged cells of the operation are released for sending. -/
  | launchInstant (ctx opnum : Nat)
  /-- STORE_CREATE (R199). Creates or recovers a store and attaches it to a context. -/
  | storeCreate (sub : Sub)
  /-- STORE_DESTROY (R202). Detaches and frees a store. -/
  | storeDestroy (sub : Sub)
  /-- STORE_LOAD (R202). Writes an array into a shard's load bank, optionally committing it. -/
  | storeLoad (sub : Sub)
  /-- STORE_READ (R202). Reads an array of a shard version into host memory. -/
  | storeRead (sub : Sub)
  /-- STORE_GATHER (R212). Names and pins the versions a store gather serves. -/
  | storeGather (sub : Sub)
  /-- STORE_UNPIN (R202). Releases held pins of a version. -/
  | storeUnpin (sub : Sub)
  /-- STORE_RESHARD (R217). Begins a re-shard from EFFECTIVE_OPNUM. -/
  | storeReshard (sub : Sub)
  /-- STORE_LOG_READ (R202). Copies commit records into host memory. -/
  | storeLogRead (sub : Sub)
  /-- GRADIENT_AREA_FULL (R205). A held slot whose gradient cell was FULL is written once the update clears FULL. -/
  | gradientAreaFull (ctx opnum gcell : Nat)
  /-- MIRROR_RECORD_RECEIVE (R197). A mirror writes an owner's final grid record into its gradient area. -/
  | mirrorRecordReceive (port : Nat) (cell : Cell)
  /-- WAIT_PIN_RESUME (R209). A shard in WAIT_PIN moves to UPDATING when its other bank's pins reach 0 or a cache entry fits. -/
  | waitPinResume (ctx shard : Nat)
  /-- RESHARD_MOVE_START (R218). A draining re-shard with nothing outstanding sends its outgoing images. -/
  | reshardMoveStart (ctx : Nat)
  /-- RESHARD_DRAIN_TIMEOUT (R218). 10 ms in DRAINING raises event 0x0407. -/
  | reshardDrainTimeout (ctx : Nat)
  /-- MOVE_CELL_RECEIVE (R219). A DATA or acknowledgement move cell builds an image or commits a shard in or out. -/
  | moveCellReceive (port : Nat) (cell : Cell)
  /-- RESHARD_RESEND_TIMEOUT (R477). 100 ms without acknowledgement restarts an outgoing image from block 0. -/
  | reshardResendTimeout (ctx shard : Nat)
  /-- KERNEL_LOAD (R232). Loads a kernel into the kernel table. -/
  | kernelLoad (sub : Sub)
  /-- KERNEL_FREE (R233). Frees a kernel table entry. -/
  | kernelFree (sub : Sub)
  /-- LAYER_CONFIG (R235). Writes or clears a layer configuration. -/
  | layerConfig (sub : Sub)
  /-- UPDATE_START (R244). Starts or resumes an update step for an update group. -/
  | updateStart (sub : Sub)
  /-- UPDATE_ABORT (R252). Requests the abort of an update step. -/
  | updateAbort (sub : Sub)
  /-- NORM_RECEIVE (R246). A NORM CONTRIB is counted at the root or a RESULT starts the step running. -/
  | normReceive (port : Nat) (cell : Cell)
  /-- NORM_RESEND_TIMER (R246). An owner in NORM_WAIT resends its CONTRIB every 1 ms. -/
  | normResendTimer (ctx ugroup : Nat)
  /-- UPDATE_GRAD_WAIT (R251). 10 ms in GRAD_WAIT raises event 0x0421. -/
  | updateGradWait (ctx ugroup : Nat)
  /-- NORM_WAIT_TIMEOUT (R251). 10 ms in NORM_WAIT raises event 0x0422. -/
  | normWaitTimeout (ctx ugroup : Nat)
  /-- LAYER_PRE_COMPLETE (R249). A layer's factor passes and PRE sections complete and its MAIN passes may start. -/
  | layerPreComplete (ctx ugroup layer : Nat)
  /-- SHARD_COMMIT (R249). A shard's nest ends, its commit record is written and FULL cleared. -/
  | shardCommit (ctx ugroup shard : Nat)
  /-- IDLE_COMMIT (R271). An IDLE shard is committed without running its kernel. -/
  | idleCommit (ctx ugroup shard : Nat)
  /-- MIGRATION_START (R273). The shard at the head of a grove's migration queue begins copying when space is free. -/
  | migrationStart (grove : Nat)
  /-- MIGRATION_COPY_DONE (R273). A finished copy writes the placement word and frees the source. -/
  | migrationCopyDone (grove : Nat)
  /-- PRUNE_CELL_RECEIVE (R260). A prune cell advances the member's window cursor and completes grid cells. -/
  | pruneCellReceive (port : Nat) (cell : Cell)
  /-- ZERO_RUN_RECEIVE (R264). A zero-run cell stands for zero records over a run of grid cells. -/
  | zeroRunReceive (port : Nat) (cell : Cell)
  /-- PRUNE_CONFIG (R265). Sets the result form of PRUNE operations. -/
  | pruneConfig (sub : Sub)
  /-- ACT_CONFIG (R269). Sets the activation policy for a store. -/
  | actConfig (sub : Sub)
  /-- ACT_READ (R274). Writes activation records into host memory. -/
  | actRead (sub : Sub)
  /-- RESULT_ACK_RECEIVE (R286). A DELIVERED advances releasability at the root, or a RELEASE is forwarded to members. -/
  | resultAckReceive (port : Nat) (cell : Cell)
  /-- REINJECT_REQ_RECEIVE (R291). A CONTRIB request clears completion bits and is forwarded; a RESULT request resends retained records. -/
  | reinjectReqReceive (port : Nat) (cell : Cell)
  /-- DIGEST_RECEIVE (R299). A DIGEST REQUEST is answered or a digest is compared with its counterpart. -/
  | digestReceive (port : Nat) (cell : Cell)
  /-- DIGEST_COMPARE (R300). Sends digest requests on the named ports. -/
  | digestCompare (sub : Sub)
  /-- DIGEST_COMPARE_TIMEOUT (R300). 1 ms after requests the answers are compared and the descriptor completes. -/
  | digestCompareTimeout (ctx opnum : Nat)
  /-- REC_CONFIG (R325). Sets switch-wide recovery settings. -/
  | recConfig (sub : Sub)
  /-- REC_READ (R326). Copies digests, the shadow log or counters into host memory. -/
  | recRead (sub : Sub)
  /-- STEP_ACK (R327). Lets store reductions below RELEASE_BELOW be released at the root. -/
  | stepAck (sub : Sub)
  /-- ANCHOR_COPY (R310). Installs or saves a context's anchor table. -/
  | anchorCopy (sub : Sub)
  /-- GRAFT_TEST (R314). Starts self-test, link test and vectors for a grafted switch. -/
  | graftTest (sub : Sub)
  /-- GRAFT_SELF_TEST_DONE (R313). Built-in tests end and the graft moves to LINK_TEST or FAILED. -/
  | graftSelfTestDone
  /-- GRAFT_LINK_TEST_DONE (R313). LINK_MS elapses and the named ports pass or fail the link test. -/
  | graftLinkTestDone
  /-- GRAFT_VECTORS_DONE (R314). The vector set is reduced and its digest sent to the partner. -/
  | graftVectorsDone
  /-- GRAFT_VECTOR_TIMEOUT (R313). 10 ms without the partner's vector digest fails the graft with TIMEOUT. -/
  | graftVectorTimeout
  /-- GRAFT_COPY (R316). Requests anchors and shard images from the source port. -/
  | graftCopy (sub : Sub)
  /-- GRAFT_CELL_RECEIVE (R315). A GRAFT cell starts vectors, carries a digest, copy request, anchors, image, acknowledgement or STALE. -/
  | graftCellReceive (port : Nat) (cell : Cell)
  /-- GRAFT_COPY_TIMEOUT (R313). 100 ms without a copy cell returns the graft to TESTED. -/
  | graftCopyTimeout (ctx : Nat)
  /-- ROUTE_WRITE (R362). Writes route-table entries. -/
  | routeWrite (sub : Sub)
  /-- ROUTE_ARM (R345). Arms or disarms a route version. -/
  | routeArm (sub : Sub)
  /-- EPOCH_FLIP (R351). Requests a route flip now or at AT_GTC. -/
  | epochFlip (sub : Sub)
  /-- ROUTE_READ (R363). Writes a route table's valid entries into host memory. -/
  | routeRead (sub : Sub)
  /-- JOB_ROUTE (R343). Sets adaptive routing for a job. -/
  | jobRoute (sub : Sub)
  /-- FABRIC_CONFIG (R363). Sets congestion, stall, drain and spill settings. -/
  | fabricConfig (sub : Sub)
  /-- FLIP_TIMER (R346). At AT_GTC or FLIP_GTC an armed version flips. -/
  | flipTimer
  /-- EPOCH_CELL_RECEIVE (R347). An EPOCH FLIP flips, is ignored or raises 0x0722; an ANNOUNCE compares ranks. -/
  | epochCellReceive (port : Nat) (cell : Cell)
  /-- EPOCH_DRAINED (R345). DRAIN_US without a cell of its epoch returns a version to STANDBY. -/
  | epochDrained (version : Nat)
  /-- POOL_WAIT_SERVED (R373). A waiting run-time buffer request is served as buffers are freed. -/
  | poolWaitServed (cls place : Nat)
  /-- SRAM_SCRUB (R387). The scrubber reads and corrects every SRAM word once per second. -/
  | sramScrub (tile region word corrected : Nat) (uncorrectable : Bool)
  /-- PATROL_SCRUB (R388). The patrol scrub reads and corrects all of tier 1 every 24 hours. -/
  | patrolScrub (stack ta corrected : Nat) (uncorrectable : Option MemRegion)
  /-- CXL_ENABLE (R392). Writing ENABLE = 1 trains and enumerates a CXL root port. -/
  | cxlEnable (root : Nat)
  /-- CXL_LINK_UP (R392). The expander is enumerated and media ready. -/
  | cxlLinkUp (root width speed extents : Nat)
  /-- CXL_LINK_TIMEOUT (R392). No link within 1 s raises event 0x0811 and retries. -/
  | cxlLinkTimeout (root cause : Nat)
  /-- CXL_LINK_DOWN (R395). A CXL link goes down and accesses wait up to CXL_HOLD_MS. -/
  | cxlLinkDown (root cause : Nat)
  /-- CXL_HOLD_TIMEOUT (R395). After CXL_HOLD_MS waiting accesses fail as uncorrectable errors. -/
  | cxlHoldTimeout (root : Nat)
  /-- NOP (R404). Completes OK with no effect. -/
  | nop (sub : Sub)
  /-- SIGNAL (R429). Changes a device flag and releases waits it satisfies. -/
  | signal (sub : Sub)
  /-- WAIT (R429). Holds the ring until a flag condition holds. -/
  | wait (sub : Sub)
  /-- JOB_OPEN (R406). Opens a job and gives it to a function. -/
  | jobOpen (sub : Sub)
  /-- JOB_CLOSE (R407). Closes a job, beginning teardown. -/
  | jobClose (sub : Sub)
  /-- TEARDOWN_COMPLETE (R408). Teardown ends and the job becomes CLOSED. -/
  | teardownComplete (job : Nat)
  /-- CAPS_READ (R433). Writes the capability record. -/
  | capsRead (sub : Sub)
  /-- HOST_CONFIG (R427). Sets switch-wide host settings and releases deferred events. -/
  | hostConfig (sub : Sub)
  /-- RING_ENABLE (R411). Writing ENABLE = 1 starts a ring. -/
  | ringEnable (func ring : Nat)
  /-- RING_DISABLE (R411). Writing ENABLE = 0 stops a ring and discards undispatched descriptors. -/
  | ringDisable (func ring : Nat)
  /-- DESCRIPTOR_FETCH (R412). A running ring reads descriptors from host memory. -/
  | descriptorFetch (ring : Nat)
  /-- FETCH_COMPLETE (R411). A descriptor fetch completes, advancing HEAD, or fails and halts the ring. -/
  | fetchComplete (ring : Nat) (descs : List Desc) (error : Nat)
  /-- DESCRIPTOR_DISPATCH (R412). A fetched descriptor is checked and dispatched once fence, window and completion space allow. -/
  | descriptorDispatch (ring : Nat) (host : List Byte) (hostErr : Option Quad)
  /-- TAIL (R418). A ring doorbell TAIL write is accepted or discarded. -/
  | tail (func ring : Nat) (value : Word)
  /-- CANCEL_WAIT (R417). Cancels a pending WAIT with ABORTED. -/
  | cancelWait (func ring : Nat)
  /-- RESUME (R417). Resumes a HALTED ring. -/
  | resume (func ring : Nat)
  /-- EVQ_DOORBELL (R419). An event-queue HEAD and ARM write frees space and arms a wake. -/
  | evqDoorbell (func evq : Nat) (value : Word)
  /-- EVQ_ENABLE (R420). Writing ENABLE = 1 enables an event queue. -/
  | evqEnable (func evq : Nat)
  /-- EVQ_DISABLE (R420). Writing ENABLE = 0 disables an event queue. -/
  | evqDisable (func evq : Nat)
  /-- WAIT_STALL (R431). The flag watchdog expires with waiting rings and reports waits and edges. -/
  | waitStall (job : Nat) (hostEdges : List (Nat × Nat))
  /-- FLR (R403). A function level reset disables the function's rings and queues. -/
  | flr (func : Nat)
  /-- HOST_LINK_RESET (R472). PERST, hot reset, link down or refclk loss resets the PCIe endpoint. -/
  | hostLinkReset (cause : Nat)
  /-- REGISTER_WRITE (R11). A register write without a row of its own sets its fields or is discarded and recorded. -/
  | registerWrite (func : Nat) (space : RegSpace) (offset size : Nat) (value : Word)
  /-- LO_READ_LATCH (R543). A read of a LO register latches the high half for that requester. -/
  | loReadLatch (func : Nat) (bmc : Bool) (offset size : Nat)
  /-- LANE_LOCK (R443). A lane's receiver locks to training frames and enters TRAIN. -/
  | laneLock (lane rate : Nat)
  /-- TRAINING_FRAME_RECEIVE (R446). A training frame's control word is applied and echoed and RX_READY states advance the lane. -/
  | trainingFrameReceive (lane : Nat) (control status : Word) (ready : Bool) (snr : Half) (skewNs : Nat)
  /-- TRAIN_TIMEOUT (R443). TRAIN_MS in TRAIN or waiting in DATA returns the lanes to SEARCH. -/
  | trainTimeout (lane : Nat)
  /-- LANE_LOS (R447). A lane's received power falls below −16 dBm and the port goes to LOST. -/
  | laneLos (lane : Nat) (power : Half)
  /-- LANE_LOS_CLEAR (R447). 100 µs above −14 dBm clears loss of signal and leaves APR. -/
  | laneLosClear (lane : Nat) (power : Half)
  /-- LANE_LOL (R448). A lane loses frequency lock or alignment markers and the port goes to LOST. -/
  | laneLol (lane cause : Nat)
  /-- APR_ENTERED (R450). 200 µs of loss of signal enters automatic power reduction. -/
  | aprEntered (lane : Nat)
  /-- APR_RESTART_PULSE (R450). Every 100 ms in APR a 2 ms full-power pulse is sent. -/
  | aprRestartPulse (lane : Nat)
  /-- CLEAR (R455). Zeroes a lane checker's bit and error counters. -/
  | clear (lane : Nat)
  /-- INJECT_SINGLE (R456). LANE_INJECT mode 1 inverts one generator bit. -/
  | injectSingle (lane : Nat)
  /-- INJECT_PERIODIC (R456). LANE_INJECT mode 2 inverts one bit every 2^PERIOD_LOG2 bits. -/
  | injectPeriodic (lane periodLog2 : Nat)
  /-- INJECT_FEC_SYMBOLS (R456). LANE_INJECT mode 3 corrupts FEC symbols in COUNT codewords. -/
  | injectFecSymbols (lane syms count : Nat)
  /-- LANE_TEST_START (R454). Setting a test field on a DISABLED port starts the generator, checker or loopback. -/
  | laneTestStart (lane : Nat) (value : Word)
  /-- FEED_LOST (R458). A laser feed falls below +12 dBm, and an engine with both lost goes dark. -/
  | feedLost (engine : Nat) (feedB : Bool) (power : Half)
  /-- FEED_RESTORED (R458). A feed becomes OK again. -/
  | feedRestored (engine : Nat) (feedB : Bool) (power : Half)
  /-- LATCH_CLOSE (R459). A laser latch closes and the site goes to IDENTIFY or UNUSED. -/
  | latchClose (site : Nat)
  /-- LATCH_OPEN (R460). A laser latch opens and the site is muted within 100 µs. -/
  | latchOpen (site : Nat)
  /-- LASER_IDENTITY_READ (R459). A module identity is read and the site ramps, goes OFF or is refused. -/
  | laserIdentityRead (site : Nat) (serial : Quad) (unfit : Nat)
  /-- LASER_IDENTITY_TIMEOUT (R459). Identity unread after 500 ms refuses the site. -/
  | laserIdentityTimeout (site : Nat)
  /-- LASER_RAMP_DONE (R459). 20 ms of ramp ends and the site goes ON. -/
  | laserRampDone (site : Nat)
  /-- LASER_POLL (R459). Every 10 ms each module is polled; faults and low power are acted on. -/
  | laserPoll (site : Nat) (serial : Quad) (powers : List Half) (bias : Half) (temp : Byte) (fault : Bool)
  /-- PREP_REMOVE (R459). Writing PREP_REMOVE = 1 mutes an ON site if its partner feeds are OK. -/
  | prepRemove (site : Nat)
  /-- PREP_REMOVE_CANCEL (R459). Writing PREP_REMOVE = 0 returns a muting site to RAMP. -/
  | prepRemoveCancel (site : Nat)
  /-- MUTING_DONE (R459). 10 ms of muting ends in REMOVE_READY. -/
  | mutingDone (site : Nat)
  /-- LASER_ENABLE (R459). Writing ENABLE = 1 identifies an OFF, FAULT or REFUSED site again. -/
  | laserEnable (site : Nat)
  /-- LASER_DISABLE (R459). Writing ENABLE = 0 turns a site OFF at once. -/
  | laserDisable (site : Nat)
  /-- SITE_BUTTON (R533). A short press of a site button acts as a PREP_REMOVE write. -/
  | siteButton (site ms : Nat)
  /-- CLOCK_PROFILE_WRITE (R466). A GLB_CLOCK_CTRL PROFILE write schedules a profile change. -/
  | clockProfileWrite (value : Nat)
  /-- CLOCK_PROFILE_CHANGED (R466). At the qualifying tick the grove PLLs step to the new profile. -/
  | clockProfileChanged
  /-- CLOCK_UNLOCK (R467). A grove or TIME PLL loses lock and its grove stalls. -/
  | clockUnlock (domain : Nat)
  /-- PLL_RELOCK (R467). A PLL relocks and work resumes. -/
  | pllRelock (domain : Nat)
  /-- PLL_RELOCK_TIMEOUT (R467). 1 ms without relock causes a warm reset with cause CLOCK. -/
  | pllRelockTimeout (domain : Nat)
  /-- REFERENCE_LOST (R467). The module reference is lost; lanes lose lock and PLLs hold. -/
  | referenceLost
  /-- REFERENCE_RETURN (R467). REF_OK returns within 10 ms and ports search again. -/
  | referenceReturn
  /-- REFERENCE_HOLDOVER (R467). 10 ms without the reference causes a warm reset with cause REFERENCE. -/
  | referenceHoldover
  /-- ACCESS_TIMEOUT (R471). A register access unfinished after 2 µs ends with all ones or a discarded write. -/
  | accessTimeout (func offset : Nat) (read : Bool)
  /-- WARM (R483). GLB_RESET_CTRL CMD 1 requests a warm reset. -/
  | warm (cause : Nat)
  /-- COLD (R483). GLB_RESET_CTRL CMD 2 requests a cold reset. -/
  | cold (cause : Nat)
  /-- POWER_OFF (R483). GLB_RESET_CTRL CMD 3 requests power-off. -/
  | powerOff (cause : Nat)
  /-- MOD_RESET_N (R566). MOD_RESET_N low for 1 µs or more is a cold reset. -/
  | modResetN (lowNs : Nat)
  /-- GLB_TILE_RESET (R472). Resets a spare or quarantined physical tile. -/
  | glbTileReset (tile : Nat)
  /-- TILE_SELF_TEST_DONE (R472). 3 ms of self-test after a tile reset ends in pass or fail. -/
  | tileSelfTestDone (tile : Nat) (pass : Bool)
  /-- GLB_PORT_RESET (R472). Resets the port layer of a four-lane port. -/
  | glbPortReset (quad : Nat)
  /-- STARTUP_STAGE_DONE (R478). A start-up stage finishes and the next begins, up to SEEDLING. -/
  | startupStageDone (ms : Nat) (results : StageResults)
  /-- AUX_WATCHDOG (R508). The AUX watchdog expires and causes a cold reset. -/
  | auxWatchdog
  /-- INPUT_LOW (R485). VIN below PWR_VIN_WARN for 1 ms raises event 0x0B03. -/
  | inputLow (millivolts : Nat)
  /-- INPUT_POWER_LOSS (R485). VIN below 36 V for 50 µs turns the rails off. -/
  | inputPowerLoss (millivolts : Nat)
  /-- INPUT_OVERVOLTAGE (R485). VIN above 60 V for 1 ms or 64 V for 10 µs is a rail fault. -/
  | inputOvervoltage (millivolts : Nat)
  /-- INPUT_OVERCURRENT (R485). Input current above 85 A for 20 µs is a rail fault. -/
  | inputOvercurrent (current : Nat)
  /-- CONVERTER_LOST (R486). A faulty or hot converter is taken out of service and the profile ceiling set. -/
  | converterLost (converter cause : Nat)
  /-- PWR_PROFILE_WRITE (R489). A requested power-profile write changes the profile in force. -/
  | pwrProfileWrite (value : Nat)
  /-- PROFILE_LOWER_TICK (R489). A move to a lower-numbered profile takes effect at its 16,384 ns tick. -/
  | profileLowerTick
  /-- POWER_LIMIT_SAMPLE (R491). Each 1 ms power average is compared with the cap and moves the limiter step. -/
  | powerLimitSample (sample : PowerSample)
  /-- THERMAL_SAMPLE (R492). Every 100 µs each sensor is read and warnings, throttle steps and alarms applied. -/
  | thermalSample (sample : List ThermalReading)
  /-- WEAR_AF_UPDATE (R498). Every second each wear entry's acceleration factor and equivalent age advance. -/
  | wearAfUpdate
  /-- WEAR_DAILY_SAMPLE (R499). Every 24 power-on hours a sample is stored and end of life predicted. -/
  | wearDailySample (indicators : List (Nat × Int))
  /-- FW_LOAD (R509). Writes part of an image into the inactive slot. -/
  | fwLoad (sub : Sub)
  /-- FW_ACTIVATE (R510). Activates the inactive slot with a warm reset. -/
  | fwActivate (sub : Sub)
  /-- LINK_KEY (R521). Installs, activates or erases a link key slot. -/
  | linkKey (sub : Sub)
  /-- UPDATE_SESSION_TIMEOUT (R509). 60 s without a write ends an update session. -/
  | updateSessionTimeout
  /-- PLDM_FIRMWARE_UPDATE (R509). A PLDM firmware update message writes an image from the BMC. -/
  | pldmFirmwareUpdate (step : PldmStep)
  /-- ACTIVATE_FIRMWARE (R510). PLDM ActivateFirmware activates the inactive slot. -/
  | activateFirmware (selfContained : Bool)
  /-- RESET (R528). Management command resets, cold resets or powers off the switch. -/
  | reset (via : Option Sub) (kind : Nat)
  /-- PROFILE (R528). Management command sets BMC_PROFILE. -/
  | profile (via : Option Sub) (value : Nat)
  /-- CHANNEL_CLEAR (R528). Management command removes a recorded channel failure. -/
  | channelClear (via : Option Sub) (stack channel : Nat)
  /-- MGMT_FW_ACTIVATE (R528). Management command activates the inactive image. -/
  | mgmtFwActivate (via : Option Sub)
  /-- SVN_ADVANCE (R511). Raises the SVN floor and revokes keys. -/
  | svnAdvance (via : Option Sub)
  /-- LOCATE (R528). Management command sets LOCATE. -/
  | locate (via : Option Sub) (value : Nat)
  /-- DEBUG_UNLOCK (R524). Checks a debug token and opens debug after a cold reset. -/
  | debugUnlock (via : Option Sub) (token : List Byte)
  /-- LIFECYCLE_RETURN (R522). Moves the part to RETURNED and destroys the device secret. -/
  | lifecycleReturn (via : Option Sub) (token : List Byte)
  /-- REG_READ (R527). OEM command reads BAR0 registers for the BMC. -/
  | regRead (offset count : Nat)
  /-- GET_VERSION (R512). SPDM request for supported versions. -/
  | getVersion (i3c : Bool) (msg : List Byte)
  /-- GET_CAPABILITIES (R512). SPDM request for capabilities. -/
  | getCapabilities (i3c : Bool) (msg : List Byte)
  /-- NEGOTIATE_ALGORITHMS (R512). SPDM request negotiating algorithms. -/
  | negotiateAlgorithms (i3c : Bool) (msg : List Byte)
  /-- GET_DIGESTS (R512). SPDM request for certificate-chain digests. -/
  | getDigests (i3c : Bool) (msg : List Byte)
  /-- GET_CERTIFICATE (R513). SPDM request for the certificate chain of slot 0. -/
  | getCertificate (i3c : Bool) (msg : List Byte)
  /-- CHALLENGE (R513). SPDM challenge signed by the alias key. -/
  | challenge (i3c : Bool) (msg : List Byte)
  /-- GET_MEASUREMENTS (R514). SPDM request for measurement blocks. -/
  | getMeasurements (i3c : Bool) (msg : List Byte)
  /-- GET_SENSOR_READING (R526). PLDM request returns a sensor's latest register value. -/
  | getSensorReading (i3c : Bool) (sensor : Nat)
  /-- ENTDAA (R525). I3C dynamic address assignment of the management target. -/
  | entdaa (address : Nat)
  /-- ATTN_SHORT_PRESS (R534). A short press of ATTN_BTN_N toggles LOCATE. -/
  | attnShortPress
  /-- ATTN_LONG_PRESS (R534). A long press of ATTN_BTN_N requests power-off. -/
  | attnLongPress
  /-- POWER_ON_SEQUENCE (R567). VIN48 reaching 38 V brings up the rails in order and raises MOD_PWRGD. -/
  | powerOnSequence (railsGood : Bool)
  /-- RAIL_FAULT_RESTART (R568). 100 ms after a rail fault the sequence restarts. -/
  | railFaultRestart
  /-- INPUT_RESTORED (R568). VIN48 at or above 38 V for 10 ms restarts sequencing. -/
  | inputRestored
  /-- SHARD_ABANDONED (R251). An uncorrectable error reading a running shard's current bank abandons its write and leaves it at its old version with FULL set. -/
  | shardAbandoned (ctx ugroup shard stack ta : Nat)
  /-- MIGRATION_ERROR (R273). An uncorrectable error reading a migration source abandons the copy and frees the destination. -/
  | migrationError (grove unit address : Nat)
  /-- PCIE_PERST_N_DEASSERT (R480). Deassertion of PCIE_PERST_N lets the endpoint begin link training within 20 ms and become ready after a host-link reset. -/
  | pciePerstNDeassert
  /-- MOD_RESET_N_RELEASE (R568). MOD_RESET_N rising releases the logic held in reset, or restarts sequencing from OFF_HELD. -/
  | modResetNRelease
  /-- CHECKER_LOCKED (R455). A lane's pattern checker locks after 64 consecutive matching bits and starts counting bits and errors. -/
  | checkerLocked (lane : Nat) (bits : Quad)
  /-- CHECKER_LOCK_LOST (R455). The checker loses lock after more than 16 errors in 64 bits, stops counting and seeds itself again. -/
  | checkerLockLost (lane : Nat)
  /-- TAP_ECHO_TIMEOUT (R446). A tap request not echoed within 2 ms is treated as NOT_SUPPORTED and another request may be issued. -/
  | tapEchoTimeout (lane : Nat)
  /-- COMPLETION_TIMEOUT (R409). A host-memory read for a ring fetch or a descriptor that gets no completion within 50 ms halts the ring, or fails the descriptor with HOSTERR. -/
  | completionTimeout (ring : Nat)
  /-- REMOVE_BLOCKED_LED_TIMEOUT (R532). 10 s after REMOVE_BLOCKED is set, the site LED leaves fast amber for the pattern of the site state. -/
  | removeBlockedLedTimeout (site : Nat)
  deriving DecidableEq, Repr

end Sys2Proof
end

