-- ==== Sys2Proof/Decode.lean ====
section
/-! DEFINITION. Reading a command from a word of the table of operations. No row of spec/opcode_table.json gives bits
(every row's fields are empty), so no word spells a command. -/
namespace Sys2Proof

/-- The command that a word of `nbits` bits spells: none, for every word (log 1). -/
def decodeTableWord (_nbits _w : Nat) : Option Instr := none

end Sys2Proof
end

