-- ==== Sys2Proof/Machine/Maps.lean ====
section
/-! DEFINITION. Finite maps as sorted lists, and sets of small numbers as bits of a Nat. -/
namespace Sys2Proof

/-- The value stored under a key. -/
def SMap.find? {β : Type} (k : Nat) : SMap β → Option β
  | [] => none
  | (j, v) :: m => if j = k then some v else SMap.find? k m

/-- The value stored under a key, or a default. -/
def SMap.getD {β : Type} (m : SMap β) (k : Nat) (d : β) : β := (SMap.find? k m).getD d

/-- Store a value under a key, keeping keys strictly rising. -/
def SMap.set {β : Type} (k : Nat) (v : β) : SMap β → SMap β
  | [] => [(k, v)]
  | (j, w) :: m => if k < j then (k, v) :: (j, w) :: m else if k = j then (k, v) :: m else (j, w) :: SMap.set k v m

/-- Remove a key. -/
def SMap.erase {β : Type} (k : Nat) (m : SMap β) : SMap β := m.filter (fun e => e.1 != k)

/-- A key is present. -/
def SMap.mem {β : Type} (k : Nat) (m : SMap β) : Bool := (SMap.find? k m).isSome

/-- Change the value under a key that is present. -/
def SMap.adjust {β : Type} (k : Nat) (f : β → β) (m : SMap β) : SMap β :=
  m.map (fun e => if e.1 = k then (e.1, f e.2) else e)

/-- The keys. -/
def SMap.keys {β : Type} (m : SMap β) : List Nat := m.map Prod.fst

/-- The values. -/
def SMap.vals {β : Type} (m : SMap β) : List β := m.map Prod.snd

/-- Change every value. -/
def SMap.mapVals {β γ : Type} (f : β → γ) (m : SMap β) : SMap γ := m.map (fun e => (e.1, f e.2))

/-- Keep the entries whose key satisfies a test. -/
def SMap.keep {β : Type} (p : Nat → Bool) (m : SMap β) : SMap β := m.filter (fun e => p e.1)

/-- Keys strictly rising: the canonical form. -/
def SMap.wf {β : Type} : SMap β → Bool
  | [] => true
  | [_] => true
  | (j, _) :: (k, w) :: m => decide (j < k) && SMap.wf ((k, w) :: m)

/-- Element `i` of a list, or a default. -/
def nth {α : Type} (d : α) (l : List α) (i : Nat) : α := l.getD i d

/-- Replace element `i` of a list. -/
def setNth {α : Type} (l : List α) (i : Nat) (x : α) : List α := l.set i x

/-- The lowest number of a list. -/
def minOf : List Nat → Option Nat
  | [] => none
  | x :: xs => some (xs.foldl min x)

/-- The list without repeats, in order of first occurrence. -/
def dedup (l : List Nat) : List Nat := l.foldl (fun a x => if a.contains x then a else a ++ [x]) []

/-- Insert into a list of numbers sorted ascending. -/
def insSorted (x : Nat) : List Nat → List Nat
  | [] => [x]
  | y :: ys => if x ≤ y then x :: y :: ys else y :: insSorted x ys

/-- Sort ascending. -/
def sortAsc (l : List Nat) : List Nat := l.foldr insSorted []

/-- The numbers from `a` up, `n` of them. -/
def span (a n : Nat) : List Nat := (List.range n).map (a + ·)

/-- Bit `i` of a set kept in a Nat. -/
def inSet (s i : Nat) : Bool := s.testBit i

/-- Add `i` to a set kept in a Nat. -/
def addSet (s i : Nat) : Nat := s ||| (1 <<< i)

/-- The bits `a` to `a + n - 1` of a set. -/
def rangeSet (a n : Nat) : Nat := ((1 <<< n) - 1) <<< a

/-- Remove the bits of `t` from `s`. -/
def diffSet (s t : Nat) : Nat := s ^^^ (s &&& t)

/-- Set a bit of a bit vector. -/
def setBit {n : Nat} (v : BitVec n) (i : Nat) : BitVec n := v ||| BitVec.ofNat n (1 <<< i)

/-- Clear a bit of a bit vector. -/
def clrBit {n : Nat} (v : BitVec n) (i : Nat) : BitVec n := v &&& ~~~ (BitVec.ofNat n (1 <<< i))

/-- The positions of the bits of a vector that are 1, ascending. -/
def bitsOf {n : Nat} (v : BitVec n) : List Nat := (List.range n).filter (fun i => v.getLsbD i)

/-- The contiguous runs of a set within the first `n` numbers: first and last of each, ascending. -/
def runsOf (s n : Nat) : List (Nat × Nat) :=
  let go := (List.range n).foldl (fun (acc : List (Nat × Nat) × Option Nat) i =>
    match inSet s i, acc.2 with
    | true, some _ => acc
    | true, none => (acc.1, some i)
    | false, some a => (acc.1 ++ [(a, i - 1)], none)
    | false, none => acc) ([], none)
  match go.2 with
  | some a => go.1 ++ [(a, n - 1)]
  | none => go.1

end Sys2Proof
end

