-- ==== Sys2Proof/Machine/Bytes.lean ====
section
/-! DEFINITION. Byte order, bit fields, packing of event content and the cyclic redundancy checks
(00_scope R6; 03 R88; 05 R170; 12 R423; 13 R445). -/
namespace Sys2Proof

/-- Bits `lo` to `lo + w - 1` of a word, as a number. -/
def field {n : Nat} (v : BitVec n) (lo w : Nat) : Nat := (v.toNat >>> lo) % (2 ^ w)

/-- Bit `i` of a word. -/
def bit {n : Nat} (v : BitVec n) (i : Nat) : Bool := v.getLsbD i

/-- A number placed at bit `lo` of a word that is built up by addition of disjoint fields. -/
def place (x lo : Nat) : Nat := x <<< lo

/-- 1 for true. -/
def b2n (b : Bool) : Nat := if b then 1 else 0

/-- The low `n` bytes of a number, little-endian (R6). -/
def le (n x : Nat) : List Byte := (List.range n).map (fun i => BitVec.ofNat 8 (x >>> (8 * i)))

/-- A signed number in `n` bytes, little-endian. -/
def leInt (n : Nat) (x : Int) : List Byte := le n (x % (2 ^ (8 * n) : Int)).toNat

/-- The number that bytes hold, little-endian. -/
def ofLe : List Byte → Nat
  | [] => 0
  | b :: bs => b.toNat + 256 * ofLe bs

/-- Byte `i` of a list, 0 past its end. -/
def byteAt (l : List Byte) (i : Nat) : Nat := (l.getD i 0).toNat

/-- Bytes `i` to `i + n - 1` of a list as a number, 0 past its end. -/
def bytesAt (l : List Byte) (i n : Nat) : Nat := ofLe ((l.drop i).take n)

/-- A signed 16-bit value. -/
def toS16 (x : Nat) : Int := if x % 65536 < 32768 then (x % 65536 : Nat) else (x % 65536 : Nat) - (65536 : Int)

/-- A signed 32-bit value. -/
def toS32 (x : Nat) : Int := (BitVec.ofNat 32 x).toInt

/-- All bits of a list of bytes are 0. -/
def allZero (l : List Byte) : Bool := l.all (fun b => b == 0)

/-- Bytes of a 64-byte word, byte 0 first. -/
def bytes64 (v : BitVec 512) : List Byte := le 64 v.toNat

/-- The 64-byte word that bytes fill, zero past their end. -/
def word64 (l : List Byte) : BitVec 512 := BitVec.ofNat 512 (ofLe (l.take 64))

/-- Bytes `i` to `i + n - 1` of a descriptor or payload. -/
def dfield (v : BitVec 512) (i n : Nat) : Nat := field v (8 * i) (8 * n)

/-- A descriptor field of bits within byte `i`. -/
def dbits (v : BitVec 512) (i lo w : Nat) : Nat := field v (8 * i + lo) w

/-- The mask of bytes `i` to `i + n - 1`. -/
def dmask (i n : Nat) : BitVec 512 := BitVec.ofNat 512 (((1 <<< (8 * n)) - 1) <<< (8 * i))

/-- The mask of bits `lo` to `lo + w - 1` of byte `i` on. -/
def dmaskBits (i lo w : Nat) : BitVec 512 := BitVec.ofNat 512 (((1 <<< w) - 1) <<< (8 * i + lo))

/-- The bits of a word outside a mask are all 0. -/
def within (v mask : BitVec 512) : Bool := v &&& ~~~ mask == 0

/-- One bit of a most-significant-first CRC over `w` bits. -/
def crcBit (w poly : Nat) (crc : Nat) (b : Bool) : Nat :=
  let top := crc.testBit (w - 1) != b
  let sh := (crc <<< 1) % (2 ^ w)
  if top then sh ^^^ poly else sh

/-- The eight bits of a byte into a CRC, most significant first. -/
def crcByte (w poly : Nat) (crc : Nat) (b : Byte) : Nat :=
  [7, 6, 5, 4, 3, 2, 1, 0].foldl (fun c i => crcBit w poly c (b.getLsbD i)) crc

/-- CRC-64 of the ECMA-182 polynomial, non-reflected, initial value 0, final XOR 0 (03 R88). -/
def crc64 (l : List Byte) : Quad := BitVec.ofNat 64 (l.foldl (crcByte 64 0x42F0E1EBA9EA3693) 0)

/-- Bits of a number from the most significant of `n` down. -/
def bitsMsb (x n : Nat) : List Bool := (List.range n).map (fun i => x.testBit (n - 1 - i))

/-- CRC-32 of the timing message: polynomial 0x04C1_1DB7, initial value and final XOR all ones, bits in
transmission order (05 R170). -/
def crc32Bits (l : List Bool) : Nat := (l.foldl (crcBit 32 0x04C11DB7) 0xFFFFFFFF) ^^^ 0xFFFFFFFF

/-- CRC-8 of a training word: polynomial 0x07, initial value 0, over bits [23:0]. The spec names no bit order;
bit 0 comes first, as the words are sent (13 R445; DESIGN CHOICE). -/
def crc8Word (x : Nat) : Nat := ((List.range 24).map (fun i => x.testBit i)).foldl (crcBit 8 0x07) 0

/-- A list of entries in event content: a 2-byte count, then the entries (12 R423). -/
def cList (l : List (List Byte)) : List Byte := le 2 l.length ++ l.flatten

/-- Cut a list into pieces of `n`, the last possibly shorter. -/
def chunksGo {α : Type} (n : Nat) : Nat → List α → List (List α)
  | 0, _ => []
  | fuel + 1, l => if l.isEmpty then [] else l.take n :: chunksGo n fuel (l.drop n)

/-- Cut a list into pieces of `n`. -/
def chunks {α : Type} (n : Nat) (l : List α) : List (List α) := chunksGo n l.length l

/-- Pad a list of bytes with zeros to a length. -/
def padTo (n : Nat) (l : List Byte) : List Byte := l ++ List.replicate (n - l.length) 0

end Sys2Proof
end

