-- ==== Sys2Proof/Machine/Formats.lean ====
section
/-! DEFINITION. Number formats and their roundings (02 R35 to R42, R46, R67 to R72, R79 to R81). A finite value is
carried exactly, as a sign, a numerator, a denominator and a power of two; every conversion rounds once. -/
namespace Sys2Proof

/-- A floating-point value without its format: NaN, a signed infinity, or the exact finite value
`(-1)^neg * num / den * 2^exp`. -/
inductive Num where
  | nan
  | inf (neg : Bool)
  | fin (neg : Bool) (num den : Nat) (exp : Int)
  deriving DecidableEq, Repr

/-- A binary floating-point format. -/
structure FFmt where
  /-- Exponent field bits. -/
  ebits : Nat
  /-- Mantissa field bits. -/
  mbits : Nat
  /-- Bias. -/
  bias : Int
  /-- The exponent of all ones holds infinities and NaNs. -/
  ieee : Bool
  /-- Only S.1111.111 is NaN (E4M3). -/
  e4m3 : Bool
  deriving DecidableEq, Repr

/-- FP64. -/
def fp64 : FFmt := ⟨11, 52, 1023, true, false⟩
/-- FP32. -/
def fp32 : FFmt := ⟨8, 23, 127, true, false⟩
/-- FP16. -/
def fp16 : FFmt := ⟨5, 10, 15, true, false⟩
/-- BF16. -/
def bf16 : FFmt := ⟨8, 7, 127, true, false⟩
/-- FP8 E4M3. -/
def e4m3 : FFmt := ⟨4, 3, 7, false, true⟩
/-- FP8 E5M2. -/
def e5m2 : FFmt := ⟨5, 2, 15, true, false⟩
/-- MX element E2M3. -/
def e2m3 : FFmt := ⟨2, 3, 1, false, false⟩
/-- MX element E3M2. -/
def e3m2 : FFmt := ⟨3, 2, 3, false, false⟩
/-- MX element E2M1. -/
def e2m1 : FFmt := ⟨2, 1, 1, false, false⟩

/-- The element format of a format code (02 R35); integer codes answer FP64, which nothing reads. -/
def elemFmt (code : Nat) : FFmt :=
  match code with
  | 0 => fp64 | 1 => fp32 | 2 => fp16 | 3 => bf16 | 4 => e4m3 | 5 => e5m2
  | 6 => e4m3 | 7 => e5m2 | 8 => e2m3 | 9 => e3m2 | 10 => e2m1 | _ => fp64

/-- The format is an integer format. -/
def isIntFmt (code : Nat) : Bool := decide (11 ≤ code ∧ code ≤ 14)
/-- The format is an MX format. -/
def isMx (code : Nat) : Bool := decide (6 ≤ code ∧ code ≤ 10)
/-- Bits of one element (02 R39, R40). -/
def elemBits (code : Nat) : Nat :=
  match code with
  | 0 => 64 | 1 => 32 | 2 => 16 | 3 => 16 | 4 => 8 | 5 => 8 | 6 => 8 | 7 => 8 | 8 => 6 | 9 => 6 | 10 => 4
  | 11 => 8 | 12 => 16 | 13 => 32 | 14 => 64 | _ => 8

/-- Elements in one member cell of a payload of `pay` bytes (02 R39). -/
def elemsPerCell (code pay : Nat) : Nat := if isMx code then 32 else pay * 8 / elemBits code

/-- The format is carried by the personality (1 FL1, 2 FL2, 3 FL3) (02 R37). -/
def carried (personality code : Nat) : Bool :=
  match personality with
  | 1 => code == 1 || code == 2
  | 2 => code == 1 || code == 3
  | 3 => decide (code < 15)
  | _ => false

/-- Payload bytes of a personality's cell (03 R103). -/
def payBytes (personality : Nat) : Nat := if personality = 1 then 56 else 64

/-- The element emax of an MX format (02 R36). -/
def mxEmax (code : Nat) : Int :=
  match code with
  | 6 => 8 | 7 => 15 | 8 => 2 | 9 => 4 | 10 => 2 | _ => 0

/-- The value an encoding stands for. -/
def decodeNum (f : FFmt) (raw : Nat) : Num :=
  let m := raw % 2 ^ f.mbits
  let e := (raw >>> f.mbits) % 2 ^ f.ebits
  let neg := (raw >>> (f.mbits + f.ebits)) % 2 == 1
  if f.ieee && e == 2 ^ f.ebits - 1 then (if m = 0 then .inf neg else .nan)
  else if f.e4m3 && e == 15 && m == 7 then .nan
  else if e = 0 then .fin neg m 1 (1 - f.bias - f.mbits)
  else .fin neg (2 ^ f.mbits + m) 1 ((e : Int) - f.bias - f.mbits)

/-- floor(log2(num / den)) for nonzero num and den. -/
def log2Ratio (num den : Nat) : Int :=
  let k : Int := (Nat.log2 num : Int) - Nat.log2 den
  let ge := if 0 ≤ k then den <<< k.toNat ≤ num else den ≤ num <<< (-k).toNat
  if ge then k else k - 1

/-- floor(log2 |v|) of a finite nonzero value. -/
def numLog2 (num den : Nat) (exp : Int) : Int := log2Ratio num den + exp

/-- How a conversion rounds: to nearest with ties to even, or dithered by the 24-bit value D (02 R81). -/
inductive Rnd where
  | rne
  | dith (d : Nat)
  deriving DecidableEq, Repr

/-- Round num / den * 2^s to an integer. -/
def roundInt (r : Rnd) (num den : Nat) (s : Int) : Nat :=
  let n := if 0 ≤ s then num <<< s.toNat else num
  let d := if 0 ≤ s then den else den <<< (-s).toNat
  let q := n / d
  let rem := n % d
  match r with
  | .rne => if 2 * rem > d || (2 * rem == d && q % 2 == 1) then q + 1 else q
  | .dith x => if rem * 2 ^ 24 / d + x ≥ 2 ^ 24 then q + 1 else q

/-- Exponent of the smallest normal. -/
def FFmt.emin (f : FFmt) : Int := 1 - f.bias

/-- The magnitude part of the encoding of the largest finite value (02 R35). -/
def FFmt.maxRaw (f : FFmt) : Nat :=
  if f.ieee then (2 ^ f.ebits - 1) * 2 ^ f.mbits - 1
  else if f.e4m3 then 2 ^ (f.ebits + f.mbits) - 2
  else 2 ^ (f.ebits + f.mbits) - 1

/-- The magnitude part of the encoding nearest to a finite magnitude; it may exceed `maxRaw`. -/
def roundMag (f : FFmt) (r : Rnd) (num den : Nat) (exp : Int) : Nat :=
  if num = 0 then 0 else
  let e := max (numLog2 num den exp) f.emin
  let qe := e - f.mbits
  let k := roundInt r num den (exp - qe)
  ((e - f.emin).toNat <<< f.mbits) + k

/-- Put a sign on a magnitude encoding. -/
def withSign (f : FFmt) (neg : Bool) (mag : Nat) : Nat := mag + b2n neg * 2 ^ (f.ebits + f.mbits)

/-- The canonical quiet NaN of a format, or the encoding R68 gives where it has none (02 R68). -/
def qnan (f : FFmt) : Nat :=
  if f.ieee then (2 ^ f.ebits - 1) * 2 ^ f.mbits + 2 ^ (f.mbits - 1) else 2 ^ (f.ebits + f.mbits) - 1

/-- An infinity, or the encoding R68 gives where the format has none (02 R68). -/
def infRaw (f : FFmt) (neg : Bool) : Nat :=
  if f.ieee then withSign f neg ((2 ^ f.ebits - 1) * 2 ^ f.mbits)
  else withSign f neg (2 ^ (f.ebits + f.mbits) - 1)

/-- Conversion that saturates at the largest finite value (02 R67): encoding, and whether it saturated. -/
def encodeSat (f : FFmt) (r : Rnd) (v : Num) : Nat × Bool :=
  match v with
  | .nan => (qnan f, false)
  | .inf neg => (infRaw f neg, false)
  | .fin neg num den exp =>
    let mag := roundMag f r num den exp
    if mag > f.maxRaw then (withSign f neg f.maxRaw, true) else (withSign f neg mag, false)

/-- IEEE 754 conversion, to nearest with ties to even: overflow gives an infinity (02 R72, 07 R226). -/
def encodeIeee (f : FFmt) (v : Num) : Nat :=
  match v with
  | .nan => qnan f
  | .inf neg => infRaw f neg
  | .fin neg num den exp =>
    let mag := roundMag f .rne num den exp
    if mag > f.maxRaw then infRaw f neg else withSign f neg mag

/-- The value of an integer encoding of `w` bits, two's complement. -/
def decodeInt (w raw : Nat) : Int := (BitVec.ofNat w raw).toInt

/-- Saturate an integer to `w` bits (02 R70, R76): encoding, and whether it saturated. -/
def encodeIntSat (w : Nat) (x : Int) : Nat × Bool :=
  let hi : Int := 2 ^ (w - 1) - 1
  let lo : Int := -(2 ^ (w - 1) : Int)
  if x > hi then ((BitVec.ofInt w hi).toNat, true)
  else if x < lo then ((BitVec.ofInt w lo).toNat, true)
  else ((BitVec.ofInt w x).toNat, false)

/-- An exact integer multiple of a power of two as a value; zero is +0. -/
def numOfInt (q : Int) (exp : Int) : Num := .fin (decide (q < 0)) q.natAbs 1 exp

/-- Round num / den to the nearest integer with ties to even, keeping the sign. -/
def rneDiv (q : Int) (n : Nat) : Int :=
  let k := (roundInt .rne q.natAbs n 0 : Int)
  if q < 0 then -k else k

/-- The 64-bit dither hash z of R80, before its final shift. -/
def ditherZ (k : Quad) (t c f e : Nat) : Quad :=
  let x : Quad := BitVec.ofNat 64 (((t % 65536) <<< 48) ||| ((c % 2 ^ 24) <<< 24) ||| ((f % 16) <<< 20) ||| e)
  let z0 : Quad := k + (x + 1) * 0x9E3779B97F4A7C15
  let z1 : Quad := (z0 ^^^ (z0 >>> 30)) * 0xBF58476D1CE4E5B9
  let z2 : Quad := (z1 ^^^ (z1 >>> 27)) * 0x94D049BB133111EB
  z2 ^^^ (z2 >>> 31)

/-- The dither value D, 24 bits (02 R80). -/
def dither (k : Quad) (t c f e : Nat) : Nat := (ditherZ k t c f e >>> 40).toNat

/-- The raw element fields that a payload of whole member cell holds for a plain format: element `i` of the cell. -/
def plainElem (code : Nat) (pay : BitVec 512) (i : Nat) : Nat := field pay (elemBits code * i) (elemBits code)

/-- Scale byte of an MX block (02 R40). -/
def mxScale (pay : BitVec 512) : Nat := field pay 0 8

/-- Element field `i` of an MX block (02 R40). -/
def mxElem (code : Nat) (pay : BitVec 512) (i : Nat) : Nat := field pay (8 + elemBits code * i) (elemBits code)

/-- The value of element `i` of an MX block (02 R48, R49). -/
def mxNum (code : Nat) (pay : BitVec 512) (i : Nat) : Num :=
  if mxScale pay = 255 then .nan else
  match decodeNum (elemFmt code) (mxElem code pay i) with
  | .fin neg num den exp => .fin neg num den (exp + mxScale pay - 127)
  | v => v

/-- The value of element `i` of a member cell in a float format. -/
def cellNum (code : Nat) (pay : BitVec 512) (i : Nat) : Num :=
  if isMx code then mxNum code pay i else decodeNum (elemFmt code) (plainElem code pay i)

/-- The shared exponent X of an MX block of 32 values; none where R68 makes the scale byte 0xFF (02 R68, R69). -/
def mxExp (code : Nat) (vals : List Num) : Option Int :=
  let f := elemFmt code
  let noSpecials := !f.ieee && !f.e4m3
  let special := vals.any (fun v => match v with | .fin _ _ _ _ => false | _ => true)
  let logs := vals.filterMap (fun v => match v with
    | .fin _ num den exp => if num = 0 then none else some (numLog2 num den exp)
    | _ => none)
  if noSpecials && special then none
  else some (match logs with
    | [] => -127
    | l :: ls => max (-127) (min 127 (ls.foldl max l - mxEmax code)))
/-- The element fields of an MX block of shared exponent x, and which of them saturated (02 R69). -/
def mxElems (code : Nat) (vals : List Num) (d : Nat → Rnd) (x : Int) : List (Nat × Bool) :=
  (List.range 32).map (fun i => encodeSat (elemFmt code) (d i) (match nth Num.nan vals i with
    | .fin neg num den exp => Num.fin neg num den (exp - x)
    | o => o))
/-- One MX block from 32 values (02 R69, R70, R79); `d i` is the rounding of element `i`. -/
def encodeMx (code : Nat) (vals : List Num) (d : Nat → Rnd) : BitVec 512 :=
  match mxExp code vals with
  | none => BitVec.ofNat 512 255
  | some x =>
    let w := elemBits code
    let es := mxElems code vals d x
    BitVec.ofNat 512 ((x + 127).toNat ||| (es.zip (List.range 32)).foldl (fun acc e => acc ||| (e.1.1 <<< (8 + w * e.2))) 0)
/-- Elements of the block that saturate (02 R69, R82). -/
def mxSaturated (code : Nat) (vals : List Num) (d : Nat → Rnd) : Nat :=
  match mxExp code vals with
  | none => 0
  | some x => ((mxElems code vals d x).filter Prod.snd).length

end Sys2Proof
end

