-- ==== Sys2Proof/Machine/Cells.lean ====
section
/-! DEFINITION. Cell headers, link headers, virtual channels and the building of cells (03 R88, R89, R98 to R104; 10 R329,
R330). -/
namespace Sys2Proof

/-- TC of an FL3 header (03 R98). -/
def Cell.tc (c : Cell) : Nat := field c.hdr 61 3
/-- EP. -/
def Cell.ep (c : Cell) : Nat := field c.hdr 60 1
/-- CE. -/
def Cell.ce (c : Cell) : Bool := bit c.hdr 59
/-- LE of the collective layout. -/
def Cell.le (c : Cell) : Nat := field c.hdr 58 1
/-- CTX of the collective layout. -/
def Cell.cctx (c : Cell) : Nat := field c.hdr 46 12
/-- MEMBER of the collective layout. -/
def Cell.cmember (c : Cell) : Nat := field c.hdr 30 16
/-- OPSEQ of the collective layout. -/
def Cell.copseq (c : Cell) : Nat := field c.hdr 24 6
/-- CELL. -/
def Cell.idx (c : Cell) : Nat := field c.hdr 0 24
/-- MC of the point-to-point layout. -/
def Cell.mc (c : Cell) : Bool := bit c.hdr 58
/-- JOB. -/
def Cell.job (c : Cell) : Nat := field c.hdr 50 8
/-- DST. -/
def Cell.dst (c : Cell) : Nat := field c.hdr 34 16
/-- SRC. -/
def Cell.src (c : Cell) : Nat := field c.hdr 18 16
/-- TAG. -/
def Cell.tag (c : Cell) : Nat := field c.hdr 0 18
/-- CTYPE. -/
def Cell.ctype (c : Cell) : Nat := field c.hdr 52 7
/-- CTX of the CTRL layout. -/
def Cell.ctx (c : Cell) : Nat := field c.hdr 40 12
/-- MEMBER of the CTRL layout. -/
def Cell.member (c : Cell) : Nat := field c.hdr 24 16
/-- OPSEQ of the CTRL layout. -/
def Cell.opseq (c : Cell) : Nat := field c.hdr 18 6
/-- ARG. -/
def Cell.arg (c : Cell) : Nat := field c.hdr 0 18
/-- TTYPE. -/
def Cell.ttype (c : Cell) : Nat := field c.hdr 56 3
/-- DOMAIN. -/
def Cell.domain (c : Cell) : Nat := field c.hdr 48 8
/-- SEQID. -/
def Cell.seqid (c : Cell) : Nat := field c.hdr 32 16

/-- A payload field of `n` bytes at byte `i`. -/
def Cell.f (c : Cell) (i n : Nat) : Nat := dfield c.pay i n
/-- A payload field of 8 bytes. -/
def Cell.q (c : Cell) (i : Nat) : Quad := BitVec.ofNat 64 (dfield c.pay i 8)
/-- The first `n` payload bytes. -/
def Cell.bytes (c : Cell) (n : Nat) : List Byte := (bytes64 c.pay).take n

/-- A collective header (03 R98). -/
def collHdr (tc ep le ctx member opseq cell : Nat) : Quad :=
  BitVec.ofNat 64 (place tc 61 + place ep 60 + place le 58 + place (ctx % 4096) 46 + place (member % 65536) 30 +
    place (opseq % 64) 24 + cell % 2 ^ 24)
/-- A CTRL header (03 R98). -/
def ctrlHdr (ctype ep ctx member opseq arg : Nat) : Quad :=
  BitVec.ofNat 64 (place 5 61 + place ep 60 + place ctype 52 + place (ctx % 4096) 40 + place (member % 65536) 24 +
    place (opseq % 64) 18 + arg % 2 ^ 18)
/-- A TIME header (03 R98). -/
def timeHdr (ttype ep domain seqid : Nat) : Quad :=
  BitVec.ofNat 64 (place 6 61 + place ep 60 + place ttype 56 + place (domain % 256) 48 + place (seqid % 65536) 32)

/-- The MEMBER value between switches (03 R99). -/
def noMember : Nat := 0xFFFF

/-- CTRL types (03 R100). -/
def ctHeartbeat : Nat := 0x00
/-- LINK_ID. -/
def ctLinkId : Nat := 0x01
/-- LINK_DOWN. -/
def ctLinkDown : Nat := 0x02
/-- CREDIT. -/
def ctCredit : Nat := 0x03
/-- CONG_ECHO. -/
def ctEcho : Nat := 0x04
/-- EPOCH. -/
def ctEpoch : Nat := 0x05
/-- JOIN. -/
def ctJoin : Nat := 0x08
/-- JOIN_STATUS. -/
def ctStatus : Nat := 0x09
/-- ABORT_NOTICE. -/
def ctAbort : Nat := 0x0A
/-- BARRIER_ARRIVE. -/
def ctArrive : Nat := 0x0B
/-- BARRIER_RELEASE. -/
def ctRelease : Nat := 0x0C
/-- COUNTS. -/
def ctCounts : Nat := 0x0D
/-- REPLAY_NOTICE. -/
def ctReplay : Nat := 0x10
/-- ANCHOR_NOTICE. -/
def ctAnchor : Nat := 0x11
/-- NORM. -/
def ctNorm : Nat := 0x18
/-- RESULT_ACK. -/
def ctAck : Nat := 0x20
/-- REINJECT_REQ. -/
def ctReinject : Nat := 0x21
/-- DIGEST. -/
def ctDigest : Nat := 0x22
/-- GRAFT. -/
def ctGraft : Nat := 0x23

/-- CTRL types that R100 assigns. -/
def ctypes : List Nat := [0x00, 0x01, 0x02, 0x03, 0x04, 0x05, 0x08, 0x09, 0x0A, 0x0B, 0x0C, 0x0D, 0x10, 0x11, 0x18, 0x20,
  0x21, 0x22, 0x23]

/-- A cell that the port layer consumes (03 R97). -/
def Cell.portLayer (c : Cell) : Bool := c.tc == 5 && decide (c.ctype < 4)

/-- The first or single virtual channel of a traffic class (10 R329, R330). -/
def firstVc (tc : Nat) : Nat := match tc with | 0 => 0 | 1 => 2 | 2 => 4 | 3 => 6 | 4 => 7 | 5 => 8 | 6 => 10 | _ => 15
/-- The channels of a traffic class (10 R329). -/
def vcsOf (tc : Nat) : List Nat :=
  match tc with | 0 => [0, 1] | 1 => [2, 3] | 2 => [4, 5] | 3 => [6] | 4 => [7] | 5 => [8, 9] | 6 => [10] | _ => []
/-- A channel is the second of its pair. -/
def secondVc (vc : Nat) : Bool := vc == 1 || vc == 3 || vc == 5 || vc == 9
/-- A channel belongs to a pair. -/
def pairVc (vc : Nat) : Bool := decide (vc < 6) || vc == 8 || vc == 9

/-- A reserved bit or encoding in an FL3 header (03 R98, R100). -/
def Cell.badHeader (c : Cell) : Bool :=
  match c.tc with
  | 5 => bit c.hdr 59 || !ctypes.contains c.ctype
  | 6 => bit c.hdr 59 || decide (c.ttype > 3) || field c.hdr 0 32 != 0
  | 7 => true
  | 0 => c.mc
  | 1 => c.mc
  | _ => false

/-- KIND of an FL1 header (03 R104). -/
def Cell.kind (c : Cell) : Nat := field c.hdr 60 4

/-- A reserved bit or encoding in an FL1 header (03 R104). -/
def Cell.badFl1 (c : Cell) : Bool :=
  match c.kind with
  | 0 => field c.hdr 46 4 != 0 || field c.hdr 0 30 != 0
  | 1 => field c.hdr 46 4 != 0 || field c.hdr 0 30 != 0
  | 2 => field c.hdr 46 4 != 0 || field c.hdr 0 30 != 0
  | 3 => field c.hdr 46 4 != 0
  | 4 => field c.hdr 46 4 != 0
  | 5 => field c.hdr 46 4 != 0 || !ctypes.contains (field c.hdr 17 7)
  | 6 => bit c.hdr 59 || decide (field c.hdr 56 3 > 3) || field c.hdr 30 2 != 0 || field c.hdr 0 30 != 0
  | _ => true

/-- An FL1 header in FL3 form; what the binding and the context map supply is passed in (03 R104, R109). -/
def fl1ToFl3 (c : Cell) (job rank ctx le ep : Nat) : Cell :=
  let peer := field c.hdr 30 16
  let hdr := match c.kind with
    | 3 => collHdr 3 ep le ctx peer (field c.hdr 24 6) (field c.hdr 0 24)
    | 4 => collHdr 4 ep le ctx peer (field c.hdr 24 6) (field c.hdr 0 24)
    | 5 => ctrlHdr (field c.hdr 17 7) ep ctx peer (field c.hdr 24 6) (field c.hdr 0 17)
    | 6 => timeHdr (field c.hdr 56 3) ep (place (field c.hdr 50 6) 0 + place (field c.hdr 48 2) 6)
             (place (field c.hdr 46 2) 14 + field c.hdr 32 14)
    | k => BitVec.ofNat 64 (place k 61 + place ep 60 + place job 50 + place peer 34 + place rank 18 + field c.hdr 50 10)
  { hdr := hdr, pay := c.pay &&& BitVec.ofNat 512 (2 ^ 448 - 1) }

/-- An FL3 cell in FL1 form; `stream` is the member's number of the context (03 R104, R110). -/
def fl3ToFl1 (c : Cell) (stream : Nat) : Cell :=
  let hdr : Nat := match c.tc with
    | 3 => place 3 60 + place stream 50 + place c.cmember 30 + place c.copseq 24 + c.idx
    | 4 => place 4 60 + place stream 50 + place c.cmember 30 + place c.copseq 24 + c.idx
    | 5 => place 5 60 + place stream 50 + place c.member 30 + place c.opseq 24 + place c.ctype 17 + c.arg % 2 ^ 17
    | 6 => place 6 60 + place c.ttype 56 + place (c.domain % 64) 50 + place (c.domain / 64) 48 +
             place (c.seqid / 2 ^ 14) 46 + place (c.seqid % 2 ^ 14) 32
    | t => place t 60 + place (c.tag % 1024) 50 + place c.src 30
  { hdr := BitVec.ofNat 64 hdr, pay := c.pay &&& BitVec.ofNat 512 (2 ^ 448 - 1) }

/-- The cell names a context: collective cells, and the CTRL types that carry one. -/
def Cell.namesCtx (c : Cell) : Bool := c.tc == 3 || c.tc == 4 || (c.tc == 5 && decide (c.ctype ≥ 8))
/-- The context a cell names. -/
def Cell.anyCtx (c : Cell) : Nat := if c.tc = 5 then c.ctx else c.cctx

/-- Replace the context a cell names. -/
def Cell.setCtx (c : Cell) (x : Nat) : Cell :=
  let lo := if c.tc = 5 then 40 else 46
  { c with hdr := (c.hdr &&& ~~~ (BitVec.ofNat 64 (place 4095 lo))) ||| BitVec.ofNat 64 (place (x % 4096) lo) }
/-- Replace EP. -/
def Cell.setEp (c : Cell) (e : Nat) : Cell :=
  { c with hdr := (c.hdr &&& ~~~ (BitVec.ofNat 64 (place 1 60))) ||| BitVec.ofNat 64 (place (e % 2) 60) }
/-- Replace CE. -/
def Cell.setCe (c : Cell) (b : Bool) : Cell :=
  { c with hdr := (c.hdr &&& ~~~ (BitVec.ofNat 64 (place 1 59))) ||| BitVec.ofNat 64 (place (b2n b) 59) }
/-- Replace LE. -/
def Cell.setLe (c : Cell) (b : Nat) : Cell :=
  { c with hdr := (c.hdr &&& ~~~ (BitVec.ofNat 64 (place 1 58))) ||| BitVec.ofNat 64 (place (b % 2) 58) }

/-! ### Link frames (03 R88, R89) -/

/-- Bytes of a cell position: 72, or 64 on FL1 (03 R88). -/
def cellBytes (pers : Nat) (c : Cell) : List Byte := le 8 c.hdr.toNat ++ c.bytes (payBytes pers)

/-- The trailer of a frame (03 R88). -/
def frameCrc (pers : Nat) (f : Frame) : Quad :=
  crc64 (le 8 f.hdr.toNat ++ ((List.range 4).map (fun i => cellBytes pers (f.pos.getD i ⟨0, 0⟩))).flatten)

/-- FSEQ. -/
def Frame.fseq (f : Frame) : BitVec 12 := BitVec.ofNat 12 (field f.hdr 52 12)
/-- ACKSEQ. -/
def Frame.ackseq (f : Frame) : BitVec 12 := BitVec.ofNat 12 (field f.hdr 40 12)
/-- ACKV. -/
def Frame.ackv (f : Frame) : Bool := bit f.hdr 39
/-- NAK. -/
def Frame.nak (f : Frame) : Bool := bit f.hdr 38
/-- Position i holds a cell. -/
def Frame.valid (f : Frame) (i : Nat) : Bool := bit f.hdr (34 + i)
/-- Virtual channel of position i. -/
def Frame.vc (f : Frame) (i : Nat) : Nat := field f.hdr (16 + 4 * i) 4
/-- A frame without cells. -/
def Frame.idle (f : Frame) : Bool := field f.hdr 34 4 == 0

/-- A link header (03 R89). -/
def linkHdr (fseq ackseq : BitVec 12) (nak : Bool) (vcs : List Nat) : Quad :=
  let n := vcs.length
  BitVec.ofNat 64 (place fseq.toNat 52 + place ackseq.toNat 40 + place 1 39 + place (b2n nak) 38 + place (2 ^ n - 1) 34 +
    place ((List.range n).foldl (fun a i => a + place (vcs.getD i 0) (4 * i)) 0) 16)

end Sys2Proof
end

