-- ==== Sys2Proof/Machine/Crypto.lean ====
section
/-! DEFINITION. Link-frame protection by its standards: AES-256 (FIPS 197) and GCM
(SP 800-38D) (16 R518). -/
namespace Sys2Proof

/-! ### AES-256 (FIPS 197) -/

/-- Multiplication by x in GF(2^8). -/
def xtime (b : Nat) : Nat := if 128 ≤ b then (2 * b % 256) ^^^ 0x1B else 2 * b
/-- Multiplication in GF(2^8). -/
def gmul (a b : Nat) : Nat :=
  ((List.range 8).foldl (fun (acc : Nat × Nat) i => (if b.testBit i then acc.1 ^^^ acc.2 else acc.1, xtime acc.2)) (0, a)).1
/-- The inverse in GF(2^8): a^254, and 0 for 0. -/
def ginv (a : Nat) : Nat :=
  let a2 := gmul a a
  let a4 := gmul a2 a2
  let a8 := gmul a4 a4
  let a16 := gmul a8 a8
  let a32 := gmul a16 a16
  let a64 := gmul a32 a32
  let a128 := gmul a64 a64
  gmul a128 (gmul a64 (gmul a32 (gmul a16 (gmul a8 (gmul a4 a2)))))
/-- A byte rotated left. -/
def rotl8 (b n : Nat) : Nat := ((b <<< n) ||| (b >>> (8 - n))) % 256
/-- SubBytes of one byte. -/
def sbox (b : Nat) : Nat :=
  let i := ginv b
  i ^^^ rotl8 i 1 ^^^ rotl8 i 2 ^^^ rotl8 i 3 ^^^ rotl8 i 4 ^^^ 0x63
/-- The substitution table. -/
def sboxTable : List Nat := (List.range 256).map sbox
/-- A byte through the table. -/
def subByte (t : List Nat) (b : Nat) : Nat := t.getD b 0
/-- XOR of two lists of bytes. -/
def xorBytes (a b : List Nat) : List Nat := List.zipWith (· ^^^ ·) a b
/-- One more word of the key schedule; words newest first. -/
def keyWord (t : List Nat) (i rcon : Nat) (ws : List (List Nat)) : List (List Nat) :=
  let last := ws.getD 0 []
  let temp :=
    if i % 8 = 0 then
      let r := (last.drop 1 ++ last.take 1).map (subByte t)
      xorBytes r [rcon, 0, 0, 0]
    else if i % 8 = 4 then last.map (subByte t)
    else last
  xorBytes (ws.getD 7 []) temp :: ws
/-- The 60 words of the schedule, oldest first. -/
def keySchedule (t : List Nat) (key : List Nat) : List (List Nat) :=
  let first := ((List.range 8).map (fun i => (key.drop (4 * i)).take 4)).reverse
  (((List.range 52).foldl (fun (acc : List (List Nat) × Nat) j =>
    let i := j + 8
    (keyWord t i acc.2 acc.1, if i % 8 = 0 then xtime acc.2 else acc.2)) (first, 1)).1).reverse
/-- Round key r. -/
def roundKey (ws : List (List Nat)) (r : Nat) : List Nat := ((ws.drop (4 * r)).take 4).flatten
/-- ShiftRows. -/
def shiftRows (s : List Nat) : List Nat :=
  (List.range 16).map (fun i => s.getD (i % 4 + 4 * ((i / 4 + i % 4) % 4)) 0)
/-- MixColumns of one column. -/
def mixColumn (c : List Nat) : List Nat :=
  (List.range 4).map (fun i =>
    let b (k : Nat) : Nat := c.getD ((i + k) % 4) 0
    xtime (b 0) ^^^ (xtime (b 1) ^^^ b 1) ^^^ b 2 ^^^ b 3)
/-- MixColumns. -/
def mixColumns (s : List Nat) : List Nat := ((List.range 4).map (fun c => mixColumn ((s.drop (4 * c)).take 4))).flatten
/-- The cipher on one block of 16 bytes. -/
def aesBlock (t : List Nat) (ws : List (List Nat)) (inp : List Nat) : List Nat :=
  let s := (List.range 13).foldl (fun s i =>
    xorBytes (mixColumns (shiftRows (s.map (subByte t)))) (roundKey ws (i + 1))) (xorBytes inp (roundKey ws 0))
  xorBytes (shiftRows (s.map (subByte t))) (roundKey ws 14)

/-! ### GCM (SP 800-38D) -/

/-- The number that bytes hold, big-endian. -/
def ofBe (l : List Nat) : Nat := l.foldl (fun a b => a * 256 + b) 0
/-- A number in n bytes, big-endian. -/
def toBe (n x : Nat) : List Nat := (List.range n).map (fun i => (x >>> (8 * (n - 1 - i))) % 256)
/-- Multiplication of blocks. -/
def ghashMul (x y : Nat) : Nat :=
  ((List.range 128).foldl (fun (acc : Nat × Nat) i =>
    (if x.testBit (127 - i) then acc.1 ^^^ acc.2 else acc.1,
     if acc.2.testBit 0 then (acc.2 >>> 1) ^^^ (0xE1 <<< 120) else acc.2 >>> 1)) (0, y)).1
/-- Zeros up to a multiple of 16 bytes. -/
def pad16 (l : List Nat) : List Nat := l ++ List.replicate ((16 - l.length % 16) % 16) 0
/-- GHASH over additional data and ciphertext. -/
def ghash (h : Nat) (aad ct : List Nat) : Nat :=
  let blocks := chunks 16 (pad16 aad ++ pad16 ct ++ toBe 8 (8 * aad.length) ++ toBe 8 (8 * ct.length))
  blocks.foldl (fun y b => ghashMul (y ^^^ ofBe b) h) 0
/-- Counter mode over data from counter 2 on. -/
def gctr (t : List Nat) (ws : List (List Nat)) (iv data : List Nat) : List Nat :=
  let bs := chunks 16 data
  ((bs.zip (List.range bs.length)).map (fun e => xorBytes e.1 (aesBlock t ws (iv ++ toBe 4 (e.2 + 2))))).flatten
/-- The most significant 64 bits of the tag. -/
def gcmTag (t : List Nat) (ws : List (List Nat)) (iv aad ct : List Nat) : Quad :=
  let h := ofBe (aesBlock t ws (List.replicate 16 0))
  let tag := xorBytes (toBe 16 (ghash h aad ct)) (aesBlock t ws (iv ++ [0, 0, 0, 1]))
  BitVec.ofNat 64 (ofBe (tag.take 8))

/-! ### Protected link frames (16 R518) -/

/-- Bytes as numbers. -/
def natBytes (l : List Byte) : List Nat := l.map BitVec.toNat
/-- The IV: SALT, then TXCOUNT little-endian. -/
def linkIv (salt : Word) (count : Nat) : List Nat := natBytes (le 4 salt.toNat ++ le 8 count)
/-- Cell positions as bytes. -/
def framePlain (f : Frame) : List Byte := ((List.range 4).map (fun i => cellBytes 3 (f.pos.getD i ⟨0, 0⟩))).flatten
/-- Cell positions from bytes. -/
def framePos (l : List Nat) : List Cell :=
  (List.range 4).map (fun i =>
    let b := ((l.drop (72 * i)).take 72).map (BitVec.ofNat 8)
    { hdr := BitVec.ofNat 64 (bytesAt b 0 8), pay := word64 (b.drop 8) })
/-- The frame as it leaves under a key and TXCOUNT. -/
def protectFrame (key : BitVec 256) (salt : Word) (kp count : Nat) (f : Frame) : Frame :=
  let t := sboxTable
  let ws := keySchedule t (natBytes (le 32 key.toNat))
  let iv := linkIv salt count
  let hdr := f.hdr ||| BitVec.ofNat 64 (place 1 33 + place (kp % 2) 32 + count % 65536)
  let ct := gctr t ws iv (natBytes (framePlain f))
  { f with hdr := hdr, pos := framePos ct, trailer := gcmTag t ws iv (natBytes (le 8 hdr.toNat)) ct }
/-- The frame opened under a key and TXCOUNT; none when its tag does not verify. -/
def openFrame (key : BitVec 256) (salt : Word) (count : Nat) (f : Frame) : Option Frame :=
  let t := sboxTable
  let ws := keySchedule t (natBytes (le 32 key.toNat))
  let iv := linkIv salt count
  let ct := natBytes (framePlain f)
  if gcmTag t ws iv (natBytes (le 8 f.hdr.toNat)) ct == f.trailer then some { f with pos := framePos (gctr t ws iv ct) } else none

end Sys2Proof
end

