-- ==== Sys2Proof/Config.lean ====
section
/-! DEFINITION. What an implementation fixes and what the spec leaves open: constants without a body, so that nothing can
be proved of their values. -/
namespace Sys2Proof

/-- DEVICE_ID fused into the part (18 R547). -/
opaque Config.deviceId : Quad

/-- Values that the spec leaves to the part, drawn one after another: random numbers, nonces (03 R101, 16 R524).
The argument is the number of the draw, State's `freeCtr` (log 2). -/
opaque Config.freeQuad : Nat → Quad

/-- What an element of a store array holds that nothing has written: key of the bank's array, number of the shard's space,
element (06 R207; log 3). -/
opaque Config.storeElem : Nat → Nat → Nat → Quad

/-- Scale byte of an MX contribution of the graft vectors, which the spec does not state: VSEED, format, grid cell (09 R314;
log 41). -/
opaque Config.vectorScale : Quad → Nat → Nat → Byte

/-- Vendor public keys 0 to 3, whose hashes the fuses hold (16 R504, R506; log 54). -/
opaque Config.vendorKey : Nat → Nat × Nat

/-- The Yilganil debug public key (16 R524; log 54). -/
opaque Config.debugKey : Nat × Nat

/-- A token of LIFECYCLE_RETURN is valid: DEVICE_ID and the token; the spec does not say how it is formed (16 R522, R528; log 55). -/
opaque Config.returnToken : Quad → List Byte → Bool

/-- Bytes of the image that slot A holds as shipped, by offset (16 R504; log 54). -/
opaque Config.shippedByte : Nat → Byte

/-- Measurement 1, 48 bytes: revocation mask, SVN floor, lifecycle; the spec does not give the layout of what is digested (16 R514; log 56). -/
opaque Config.bootDigest : Nat → Nat → Nat → Nat → Byte

/-- The certificates of slot 0, given measurement 2 (16 R513; log 56). -/
opaque Config.certChain : List Byte → List Byte

/-- Byte of a signature under the alias key of an image: its measurement 2, the number of the draw, the message, the byte
(16 R513; log 56). -/
opaque Config.aliasSign : List Byte → Nat → List Byte → Nat → Byte

/-- Numbers that the SPDM messages carry and the spec does not give: 0 CTExponent, 1 DataTransferSize, 2 MaxSPDMmsgSize (16 R512; log 56). -/
opaque Config.spdmNumber : Nat → Nat

end Sys2Proof
end

