-- ==== Sys2Proof/Machine/State.lean ====
section
/-! DEFINITION. The state of the switch as plain data, the reasons a step could stop, and State.reset. In each field's
docstring the bars part its meaning, its width, the file and rule of spec/ that names it, and its reset value. -/
namespace Sys2Proof.Machine

/-! ### Host interface (12) -/

/-- States of a submission ring (12 R409, R411). -/
inductive RingSt where
  | disabled | running | waiting | halted | draining
  deriving DecidableEq, Repr

/-- A dispatched descriptor whose completion is owed: where its completion record goes (12 R402, R415, R424). -/
structure Tok where
  /-- Ring number. -/
  ring : Nat
  /-- Submitting function. -/
  func : Nat
  /-- Opcode of the header. -/
  opcode : Byte
  /-- HOST_TAG of the header. -/
  tag : Word
  /-- QUIET of the header. -/
  quiet : Bool
  /-- Completion records reserved for it (R424). -/
  k : Nat
  /-- Subjects of its completion event: context, then OPNUM, or UGROUP and STEP (R422, R423). -/
  subj : List Byte
  /-- The model's own number of the dispatched descriptor. -/
  id : Nat
  deriving DecidableEq, Repr

/-- A dispatched WAIT whose condition is false (12 R411, R429). -/
structure WaitRec where
  /-- FLAG. -/
  flag : Nat
  /-- WMODE is EQ (else GE). -/
  eq : Bool
  /-- VALUE. -/
  value : Word
  /-- Its completion. -/
  tok : Tok
  deriving DecidableEq, Repr

/-- Submission ring n: its registers and the descriptors it holds (12 R409 to R412). -/
structure Ring where
  /-- RING_BASE. | 64 | 12 R409 | 0 -/
  base : Quad := 0
  /-- RING_CTRL.ENABLE. | 1 | 12 R409 | 0 -/
  enable : Bool := false
  /-- RING_CTRL.SIZE_LOG2. | 5 | 12 R409 | 6 -/
  sizeLog2 : Nat := 6
  /-- RING_CTRL.CEVQ. | 8 | 12 R409 | 0 -/
  cevq : Nat := 0
  /-- RING_CTRL.FUNC. | 8 | 12 R409 | 0 -/
  func : Nat := 0
  /-- RING_CTRL.LSLOT. | 6 | 12 R409 | 0 -/
  lslot : Nat := 0
  /-- RING_STATUS.STATE. | 4 | 12 R409 | 0 DISABLED -/
  state : RingSt := .disabled
  /-- RING_STATUS.CAUSE. | 4 | 12 R409 | 0 -/
  cause : Nat := 0
  /-- RING_STATUS.HEAD: index of the next descriptor to fetch. | 20 | 12 R409, R410 | 0 -/
  head : BitVec 20 := 0
  /-- Last tail accepted. | 20 | 12 R410, R417 | 0 -/
  tail : BitVec 20 := 0
  /-- A fetch read is outstanding: how many descriptors it covers. | 4 | 12 R412 | 0 -/
  fetching : Nat := 0
  /-- Descriptors fetched and not dispatched, oldest first, at most 64. | list | 12 R412 | empty -/
  fetched : List Desc := []
  /-- Dispatched descriptors not yet complete, by the model's number. | list | 12 R412 | empty -/
  outst : List Nat := []
  /-- The pending WAIT. | option | 12 R411 | none -/
  wait : Option WaitRec := none
  /-- Elapsed time of the last event 0x0103 of this ring (once per ms). | option ns | 12 R435 | none -/
  last0103 : Option Nat := none
  deriving DecidableEq, Repr

/-- Event queue q (12 R420 to R426). -/
structure Evq where
  /-- EVQ_BASE. | 64 | 12 R420 | 0 -/
  base : Quad := 0
  /-- EVQ_CTRL.ENABLE and EVQ_STATUS.STATE = ACTIVE. | 1 | 12 R420 | 0 -/
  active : Bool := false
  /-- EVQ_CTRL.SIZE_LOG2. | 5 | 12 R420 | 6 -/
  sizeLog2 : Nat := 6
  /-- EVQ_CTRL.VECTOR. | 8 | 12 R420 | 0 -/
  vector : Nat := 0
  /-- EVQ_CTRL.FUNC. | 8 | 12 R420 | 0 -/
  func : Nat := 0
  /-- EVQ_CTRL.LSLOT. | 4 | 12 R420 | 0 -/
  lslot : Nat := 0
  /-- EVQ_STATUS.ARMED. | 1 | 12 R420, R426 | 0 -/
  armed : Bool := false
  /-- EVQ_STATUS.LOST, with the count of the events lost and the QSEQ of the first. | option | 12 R420, R424 | none -/
  lost : Option (Nat × Half) := none
  /-- Head last accepted. | 20 | 12 R419 | 0 -/
  head : BitVec 20 := 0
  /-- EVQ_STATUS.TAIL. | 20 | 12 R420 | 0 -/
  tail : BitVec 20 := 0
  /-- RES: completion records reserved. | count | 12 R424 | 0 -/
  res : Nat := 0
  /-- QSEQ of the next asynchronous event. | 16 | 12 R422 | 0 -/
  qseq : Half := 0
  /-- Elapsed time of the last event 0x0103 of this queue (once per ms). | option ns | 12 R435 | none -/
  last0103 : Option Nat := none
  deriving DecidableEq, Repr

/-- States of a job (12 R407). -/
inductive JobSt where
  | closed | seedling | opened | closing
  deriving DecidableEq, Repr

/-- Job j (12 R406 to R408, R431). -/
structure Job where
  /-- State. | 2 | 12 R407 | CLOSED; job 0 SEEDLING -/
  state : JobSt := .closed
  /-- Owning function. | 8 | 12 R405 | 0 -/
  owner : Nat := 0
  /-- FLAG_FIRST. | 12 | 12 R406 | 0 -/
  flagFirst : Nat := 0
  /-- FLAG_COUNT. | 13 | 12 R406 | 0 -/
  flagCount : Nat := 0
  /-- Port map named by JOB_OPEN. | 512 | 12 R406 | 0 -/
  portMap : BitVec 512 := 0
  /-- The map is the implicit map of job 0 (Seedling, KEEP). | 1 | 12 R406 | job 0: 1, else 0 -/
  implicitMap : Bool := false
  /-- JEVQ. | option 8 | 12 R406, R407 | none -/
  jevq : Option Nat := none
  /-- JOB_CLOSE waiting for the teardown. | option | 12 R407, R408 | none -/
  closing : Option Tok := none
  /-- Contexts and stores destroyed by the teardown so far. | counts | 12 R408, R435 | 0, 0 -/
  torn : Nat × Nat := (0, 0)
  /-- Elapsed time of the last restart of the flag watchdog. | ns | 12 R431, 05 R163 | 0 -/
  wdStart : Nat := 0
  /-- Elapsed time of WAIT_STALL while the stall lasts. | option ns | 12 R431 | none -/
  stalled : Option Nat := none
  deriving DecidableEq, Repr

/-- One MSI-X table entry (12 R399, R400; layout PRESUMED from PCIe). -/
structure MsixEntry where
  /-- Message address. | 64 | 12 R400 | 0 -/
  addr : Quad := 0
  /-- Message data. | 32 | 12 R400 | 0 -/
  data : Word := 0
  /-- Vector mask. | 1 | 12 R426 | 1 (PCIe) -/
  mask : Bool := true
  /-- Pending bit. | 1 | 12 R426 | 0 -/
  pending : Bool := false
  deriving DecidableEq, Repr

/-- Content of an event that waits until a system event queue is configured (14 R484, 16 R536). -/
structure HeldEvent where
  /-- Event code. -/
  code : Nat
  /-- Its content. -/
  content : List Byte
  deriving DecidableEq, Repr

/-- The host interface (12). -/
structure HostIf where
  /-- Submission rings 0 to 1,023. | map | 12 R409 | every ring at its reset -/
  rings : SMap Ring := []
  /-- Event queues 0 to 255. | map | 12 R420 | every queue at its reset -/
  evqs : SMap Evq := []
  /-- Jobs 0 to 255. | map | 12 R407 | job 0 SEEDLING, others CLOSED -/
  jobs : SMap Job := []
  /-- Device flags 0 to 4,095. | 4096 x 32 | 12 R428 | 0 -/
  flags : SMap Word := []
  /-- HOST_CONFIG.SYS_EVQ. | 8 | 12 R427 | 0 -/
  sysEvq : Nat := 0
  /-- HOST_CONFIG.SYS_VALID. | 1 | 12 R427 | 0 -/
  sysValid : Bool := false
  /-- HOST_CONFIG.WATCHDOG_MS. | 16 | 12 R427 | 10 -/
  watchdogMs : Nat := 10
  /-- HOST_CONFIG.AREA_MASK. | 16 | 12 R427 | 0 -/
  areaMask : Half := 0
  /-- SR-IOV VF Enable. | 1 | 12 R406 | 0 (DESIGN CHOICE) -/
  vfEnable : Bool := false
  /-- SR-IOV NumVFs. | 16 | 12 R406 | 0 (DESIGN CHOICE) -/
  numVfs : Nat := 0
  /-- MSI-X tables, key function * 256 + vector. | map | 12 R400 | masked, 0 -/
  msix : SMap MsixEntry := []
  /-- PCIE_PERST_N deasserted (high). | pin | 14 R472, R480; 19 R564 | 0 (DESIGN CHOICE) -/
  perstN : Bool := false
  /-- The PCIe link is out of PERST_N and its controller running. | 1 | 12 R399, 14 R472 | 0 (DESIGN CHOICE) -/
  linkUp : Bool := false
  /-- Events held until HOST_CONFIG sets SYS_VALID. | list | 14 R484, 16 R536 | empty -/
  held : List HeldEvent := []
  /-- Elapsed time of the last event 0x0106 per BAR0 offset (once per ms). | map ns | 12 R435 | empty -/
  last0106 : SMap Nat := []
  /-- The model's number of the next dispatched descriptor. | the model's | - | 0 (DESIGN CHOICE) -/
  nextTok : Nat := 0
  deriving DecidableEq, Repr

/-! ### Cells, frames and ports (03, 10, 16, 18) -/

/-- What becomes true when a queued cell leaves (04 R139, R149, R156; 09 R285; 11 R370). -/
inductive Mark where
  /-- Nothing hangs on it. -/
  | none
  /-- Last cell of the record of `count` grid cells from `cell` toward the parent: their slots are freed. -/
  | upRecord (ctx opnum cell count : Nat)
  /-- The result cells `first` on, `count` of them, of the numbering of child `port` have left. -/
  | result (ctx opnum port first count : Nat)
  /-- The COMPLETE of an operation toward child `port`. -/
  | complete (ctx opnum port : Nat)
  deriving DecidableEq, Repr

/-- Classes of egress service (05 R183, 10 R357). -/
inductive SvcClass where
  /-- Port-layer cells. -/
  | portLayer
  /-- Other CTRL and TIME cells. -/
  | ctrl
  /-- Scheduled units of a context: kind 0 COLL-UP, 1 COLL-DN, 2 exchange. -/
  | sched (ctx kind : Nat)
  /-- Best effort. -/
  | best
  deriving DecidableEq, Repr

/-- A cell waiting at an egress port (05 R184, 10 R357). -/
structure TxItem where
  /-- The cell in the form in which it leaves (03 R110). -/
  cell : Cell
  /-- Virtual channel. -/
  vc : Nat
  /-- Service class. -/
  cls : SvcClass
  /-- Cells of the unit it opens (0: it continues a unit). -/
  unitLen : Nat
  /-- Ingress port, 512 for the switch itself. -/
  src : Nat
  /-- Its unit has been moved to a later frame: the next frame tick places it again (05 R184). -/
  moved : Bool
  /-- Consequence of leaving. -/
  mark : Mark
  /-- EP of the cell as the switch routed it. -/
  ep : Nat := 0
  /-- A copy of a multicast cell: its ingress port and the number of the cell's buffer (10 R342). -/
  copy : Option (Nat × Nat) := none
  deriving DecidableEq, Repr

/-- A received cell held in the receive buffer (03 R95, R96). -/
structure RxItem where
  /-- The cell as received. -/
  cell : Cell
  /-- Its virtual channel. -/
  vc : Nat
  deriving DecidableEq, Repr

/-- A frame kept for replay, with the marks of its cells (03 R90, R92; 09 R285). -/
structure SentFrame where
  /-- The frame as first sent. -/
  frame : Frame
  /-- How often it has been sent again without being passed. -/
  replays : Nat
  /-- Elapsed time at its last sending. -/
  sentAt : Nat
  /-- Marks of its cells. -/
  marks : List Mark
  deriving DecidableEq, Repr

/-- States of a port (03 R107). -/
inductive PortSt where
  | disabled | search | identify | up | lost | outOfService | absent
  deriving DecidableEq, Repr

/-- The binding of a member port (03 R108, 18 R553). -/
structure Binding where
  /-- Bound job. -/
  job : Nat
  /-- Bound rank, or the rank backed. -/
  rank : Nat
  /-- A backup's binding. -/
  backup : Bool
  deriving DecidableEq, Repr

/-- Receive assembly of a packed record or float record (02 R64, R65). -/
structure RecAsm where
  /-- Context. -/
  ctx : Nat
  /-- OPSEQ. -/
  opseq : Nat
  /-- Grid cell. -/
  cell : Nat
  /-- Part count. -/
  count : Nat
  /-- Next part index. -/
  next : Nat
  /-- Bytes so far. -/
  bytes : List Byte
  /-- COLL-UP (else COLL-DN). -/
  up : Bool
  deriving DecidableEq, Repr

/-- Registers and link identity of port n (03 R86, 18 R552 to R554). -/
structure PortReg where
  /-- PORT_PERSONALITY.ALLOW. | 3 | 03 R86 | 0b111 -/
  allow : BitVec 3 := 7
  /-- PORT_PERSONALITY.ADMIN_UP. | 1 | 03 R86 | 1 -/
  adminUp : Bool := true
  /-- ALLOW taken at the last entry to SEARCH. | 3 | 03 R86 | 0b111 -/
  allowNow : BitVec 3 := 7
  /-- STATE. | 4 | 03 R86, R107 | SEARCH, or ABSENT -/
  state : PortSt := .search
  /-- PARTNER_ROLE. | 4 | 03 R86 | 0 -/
  partnerRole : Nat := 0
  /-- DETECTED: 1 FL1, 2 FL2, 3 FL3. | 2 | 03 R86, R105 | 0 -/
  detected : Nat := 0
  /-- LOST_REASON. | 4 | 18 R553 | 0 -/
  lostReason : Nat := 0
  /-- PARTNER_REASON. | 4 | 18 R553 | 0 -/
  partnerReason : Nat := 0
  /-- HB_LOG2. | 4 | 18 R553, 03 R114 | 0 -/
  hbLog2 : Nat := 0
  /-- PORT_PARTNER_ID. | 64 | 18 R552 | 0 -/
  partnerId : Quad := 0
  /-- DEVICE_ID of the partner of the last UP, for PARTNER_CHANGED. | option 64 | 03 R118 | none -/
  lastUpId : Option Quad := none
  /-- PORT_PARTNER_INFO.SENDER_PORT. | 16 | 18 R553 | 0 -/
  partnerPort : Nat := 0
  /-- PORT_PARTNER_INFO.LEVEL. | 4 | 18 R553 | 0 -/
  partnerLevel : Nat := 0
  /-- PORT_PARTNER_INFO.PERIOD_LOG2. | 4 | 18 R553 | 0 -/
  partnerPeriod : Nat := 0
  /-- PORT_PARTNER_INFO.CMINOR. | 8 | 18 R553 | 0 -/
  partnerCminor : Nat := 0
  /-- PORT_RTT, ns. | 24 | 18 R552 | 0 -/
  rtt : Nat := 0
  /-- PORT_TIME_ASYM, sixteenths of a ns, signed. | 32 | 05 R175, R190 | 0 -/
  timeAsym : Word := 0
  /-- PORT_BINDING. | 32 | 18 R553 | unbound -/
  binding : Option Binding := none
  /-- CREDIT units per virtual channel 0 to 10. | 11 x 11 | 18 R554 | the division of R331 -/
  vcCredit : List Nat := [64, 64, 64, 64, 160, 160, 208, 192, 23, 23, 2]
  /-- CREDIT units taken at the last IDENTIFY. | 11 x 11 | 18 R554 | the division of R331 -/
  vcNow : List Nat := [64, 64, 64, 64, 160, 160, 208, 192, 23, 23, 2]
  /-- Lanes of the port, as the split mode gives them: first lane j and count. | 2 + 3 | 03 R84 | one-lane trial -/
  lanes : Nat × Nat := (0, 1)
  /-- Context map of an FL1 or FL2 member port: member context to switch context. | 1024 x 13 | 03 R111 | no entry valid -/
  ctxMap : SMap Nat := []
  /-- SSC_DOWN in force for this port since its last IDENTIFY. | 4 | 13 R442 | 0 -/
  ssc : Nat := 0
  deriving DecidableEq, Repr

/-- Counters of port n (18 R552, 10 R364). All wrap. -/
structure PortCnt where
  /-- PORT_CRC_ERR. | 32 | 18 R552 | 0 -/
  crcErr : Word := 0
  /-- PORT_CREDIT_ERR. | 32 | 18 R552 | 0 -/
  creditErr : Word := 0
  /-- PORT_HDR_ERR. | 32 | 18 R552 | 0 -/
  hdrErr : Word := 0
  /-- PORT_ID_DISCARD. | 32 | 18 R552 | 0 -/
  idDiscard : Word := 0
  /-- PORT_P2P_TRUNC. | 32 | 18 R552 | 0 -/
  p2pTrunc : Word := 0
  /-- PORT_HB_MISS. | 32 | 18 R552 | 0 -/
  hbMiss : Word := 0
  /-- PORT_REPLAY. | 32 | 18 R552 | 0 -/
  replay : Word := 0
  /-- PORT_FEC_UNCORR. | 32 | 18 R552 | 0 -/
  fecUncorr : Word := 0
  /-- PORT_FEC_CW. | 64 | 18 R552 | 0 -/
  fecCw : Quad := 0
  /-- PORT_FEC_SYM. | 64 | 18 R552 | 0 -/
  fecSym : Quad := 0
  /-- PORT_FWD_IN. | 64 | 10 R364 | 0 -/
  fwdIn : Quad := 0
  /-- PORT_FWD_OUT. | 64 | 10 R364 | 0 -/
  fwdOut : Quad := 0
  /-- PORT_CE_MARK. | 32 | 10 R364 | 0 -/
  ceMark : Word := 0
  /-- PORT_ECHO_OUT. | 32 | 10 R364 | 0 -/
  echoOut : Word := 0
  /-- PORT_EP_REWRITE. | 32 | 10 R364 | 0 -/
  epRewrite : Word := 0
  /-- PORT_MC_SKIP. | 32 | 10 R364 | 0 -/
  mcSkip : Word := 0
  /-- PORT_DROP_ROUTE. | 32 | 10 R364 | 0 -/
  dropRoute : Word := 0
  /-- PORT_DROP_RANK. | 32 | 10 R364 | 0 -/
  dropRank : Word := 0
  /-- PORT_DROP_LOST. | 32 | 10 R364 | 0 -/
  dropLost : Word := 0
  /-- PORT_DROP_STALL. | 32 | 10 R364 | 0 -/
  dropStall : Word := 0
  /-- TIME cells discarded for their DOMAIN. | 32 | 05 R173 | 0 (DESIGN CHOICE: width) -/
  domainDrop : Word := 0
  deriving DecidableEq, Repr

/-- Link-layer state of port n (03 R90 to R97, R101, R114, R115). -/
structure PortLink where
  /-- FSEQ of the next data frame to send. | 12 | 03 R89 | 0 -/
  txSeq : BitVec 12 := 0
  /-- Frames kept until acknowledged, oldest first. | list | 03 R90 | empty -/
  replayBuf : List SentFrame := []
  /-- Frames of `replayBuf` still to be sent again. | count | 03 R92 | 0 -/
  resend : Nat := 0
  /-- FSEQ expected next. | 12 | 03 R91 | 0 -/
  rxExpect : BitVec 12 := 0
  /-- NAK is owed in the next outgoing frame. | 1 | 03 R91 | 0 -/
  nakDue : Bool := false
  /-- NAK has been set for the FSEQ now expected. | 1 | 03 R91 | 0 -/
  nakDone : Bool := false
  /-- Send credit per virtual channel. | 16 x 16 | 03 R95 | 0 -/
  txCredit : List Nat := List.replicate 16 0
  /-- Last FREED received per virtual channel. | 16 x 16 | 03 R96 | 0 -/
  freedSeen : List Half := List.replicate 16 0
  /-- Receive credit outstanding at the partner. | 16 x 16 | 03 R95 | 0 -/
  rxCredit : List Nat := List.replicate 16 0
  /-- FREED counts of this receiver. | 16 x 16 | 03 R96 | 0 -/
  freed : List Half := List.replicate 16 0
  /-- Cells freed since the last CREDIT cell. | 16 | 03 R96 | 0 -/
  freedNew : List Nat := List.replicate 16 0
  /-- Channels of freed cells whose credit pacing holds back, oldest first. | list | 10 R356 | empty -/
  paced : List Nat := []
  /-- Elapsed time up to which held-back credit has been returned. | the model's | 10 R356 | 0 -/
  pacedAt : Nat := 0
  /-- NONCEs sent, with the elapsed time of each. | list | 03 R101 | empty -/
  nonces : List (Half × Nat) := []
  /-- NONCE of the last LINK_ID received. | 16 | 03 R101 | 0 -/
  rxNonce : Half := 0
  /-- A data frame counted as liveness in the present heartbeat period. | 1 | 03 R115 | 0 -/
  alive : Bool := false
  /-- Consecutive heartbeat periods without liveness. | count | 03 R115 | 0 -/
  deadPeriods : Nat := 0
  /-- A valid cell was sent in the present heartbeat period. | 1 | 03 R114 | 0 -/
  sentCell : Bool := false
  /-- Frames with LINK_DOWN still to be sent before the transmitter stops, and the REASON. | 2 + 8 | 03 R116 | none -/
  linkDown : Option (Nat × Nat) := none
  /-- Elapsed time of the entry to the present STATE. | the model's | 03 R106, R107 | 0 -/
  since : Nat := 0
  /-- The transmitter is on. | 1 | 03 R107, 14 R475 | 1 -/
  txOn : Bool := true
  deriving DecidableEq, Repr

/-- A pacing limiter entry (10 R356). -/
structure Limiter where
  /-- CDST. -/
  cdst : Nat
  /-- Rate in sixty-fourths of the port rate. -/
  rate : Nat
  /-- GTC of the last halving. -/
  last : Quad
  deriving DecidableEq, Repr

/-- Queues and fabric state of port n (05 R184, 10 R352 to R358). -/
structure PortQ where
  /-- Cells received and not yet processed, oldest first. | list | 03 R331 | empty -/
  rxq : List RxItem := []
  /-- Cells waiting to leave, in order of arrival. | list | 10 R357 | empty -/
  txq : List TxItem := []
  /-- REQ and FWD cells spilled to tier 1, oldest first. | list | 10 R358 | empty -/
  spill : List TxItem := []
  /-- Classes (TC 0 REQ, 2 FWD) stalled, with the cells discarded so far. | map | 10 R358 | empty -/
  stalled : SMap Nat := []
  /-- Round-robin pointer of best effort: class served next. | 2 | 10 R357 | 0 -/
  rr : Nat := 0
  /-- Deficit of the class being served. | 8 | 10 R357 | 0 -/
  deficit : Nat := 0
  /-- Cells already drawn on each quota in this frame, key context * 4 + kind (0 up, 1 down, 2 exchange). | map | 05 R184 | empty -/
  drawn : SMap Nat := []
  /-- Cells placed in this frame. | count | 05 R184 | 0 -/
  placed : Nat := 0
  /-- Scaled scheduled capacity in force: the S to which quotas are scaled. | option | 05 R182 | none -/
  scaled : Option Nat := none
  /-- S of the port at the last tick. | count | 05 R182 | 0 -/
  lastS : Nat := 0
  /-- Personality and lanes of the port at the last tick. | 2 + 3 | 05 R182 | 0, 0 -/
  lastForm : Nat × Nat := (0, 0)
  /-- Cells sent in this frame, first sendings only. | count | 15 R488 | 0 -/
  sent : Nat := 0
  /-- Ingress last served, by virtual channel. | map | 10 R357 | 0 -/
  rrIn : SMap Nat := []
  /-- GTC of the last CONG_ECHO, by source rank. | map | 10 R353 | empty -/
  echoAt : SMap Quad := []
  /-- Marked cells delivered since the last echo, by source rank. | map | 10 R354 | empty -/
  marks : SMap Nat := []
  /-- Limiter entries, at most 16. | list | 10 R356 | empty -/
  limiters : List Limiter := []
  /-- Records being assembled from this port, one a context at most. | list | 02 R64 | empty -/
  asm : List RecAsm := []
  deriving DecidableEq, Repr

/-- One installed link key (16 R518 to R521). -/
structure LinkKey where
  /-- AES-256 key. -/
  key : BitVec 256
  /-- SALT. -/
  salt : Word
  /-- TXCOUNT: frames sent under the key. -/
  txCount : Nat
  /-- X: one more than the last TXCOUNT verified. -/
  x : Nat
  /-- Frames that failed under it as receive key. -/
  fails : Nat
  deriving DecidableEq, Repr

/-- Link encryption of port n (16 R517 to R521, R535). -/
structure PortSec where
  /-- SEC_LINK.MODE. | 1 | 16 R535 | 0 -/
  mode : Bool := false
  /-- MODE taken at the last SEARCH. | 1 | 16 R517 | 0 -/
  modeNow : Bool := false
  /-- Key of slot 0. | option 288 | 16 R521 | none -/
  key0 : Option LinkKey := none
  /-- Key of slot 1. | option 288 | 16 R521 | none -/
  key1 : Option LinkKey := none
  /-- TX_SLOT. | 1 | 16 R535 | 0 -/
  txSlot : Nat := 0
  /-- PARTNER_KP. | 1 | 16 R535 | 0 -/
  partnerKp : Nat := 0
  /-- ENGAGED. | 1 | 16 R535 | 0 -/
  engaged : Bool := false
  /-- TAG_FAIL. | 16 | 16 R535 | 0 -/
  tagFail : Half := 0
  /-- Consecutive failures with correctable FEC. | count | 16 R519 | 0 -/
  failRun : Nat := 0
  deriving DecidableEq, Repr

/-- Port n (03, 18). -/
structure Port where
  /-- Registers and identity. -/
  reg : PortReg := ({} : PortReg)
  /-- Counters. -/
  cnt : PortCnt := ({} : PortCnt)
  /-- Link layer. -/
  link : PortLink := ({} : PortLink)
  /-- Queues. -/
  q : PortQ := ({} : PortQ)
  /-- Link encryption. -/
  sec : PortSec := ({} : PortSec)
  deriving DecidableEq, Repr

/-- Four-lane port q (03 R84 to R86). -/
structure QuadPort where
  /-- SPLIT: 0 AUTO, 1 1x4, 2 2x2, 3 4x1. | 2 | 03 R86 | 0 -/
  split : Nat := 0
  /-- SPLIT taken at the last SEARCH. | 2 | 03 R86 | 0 -/
  splitNow : Nat := 0
  /-- SPLIT_ACTIVE. | 2 | 03 R86 | 0 -/
  splitActive : Nat := 0
  /-- Last mode other than 0 of SPLIT_ACTIVE, for the wear entries; 0 none yet. | the model's | 15 R501 | 0 -/
  lastMode : Nat := 0
  /-- Identity of each lane in the AUTO trial: partner DEVICE_ID and LANE_INDEX, by lane j. | map | 03 R85 | empty -/
  ident : SMap (Quad × Nat) := []
  /-- Lanes counted dark by the 100 ms rule. | 4 | 03 R85 | 0 -/
  darkSet : BitVec 4 := 0
  /-- A trial that found no passing mode waits 10 ms. | 1 | 03 R85 | 0 -/
  failedTrial : Bool := false
  /-- A GLB_PORT_RESET waits for a take-over to end. | 1 | 14 R476 | 0 -/
  resetWaits : Bool := false
  deriving DecidableEq, Repr

/-! ### Optics (13) -/

/-- States of a lane (13 R443). -/
inductive LaneSt where
  | idle | search | train | finish | data | test
  deriving DecidableEq, Repr

/-- Transmitter taps in steps (13 R446): c(-3), c(-2), c(-1), c(0), c(1). -/
structure Taps where
  /-- c(-3). -/
  cm3 : Int := 0
  /-- c(-2). -/
  cm2 : Int := 0
  /-- c(-1). -/
  cm1 : Int := 0
  /-- c(0). -/
  c0 : Int := 40
  /-- c(1). -/
  c1 : Int := 0
  deriving DecidableEq, Repr

/-- Test generator, checker and injection of a lane (13 R453 to R456, R462). -/
structure LaneTest where
  /-- TRATE. | 2 | 13 R462 | 3 -/
  trate : Nat := 3
  /-- LOOPBACK. | 2 | 13 R462 | 0 -/
  loopback : Nat := 0
  /-- CHK_EN. | 1 | 13 R462 | 0 -/
  chkEn : Bool := false
  /-- GEN_EN. | 1 | 13 R462 | 0 -/
  genEn : Bool := false
  /-- INVERT. | 1 | 13 R462 | 0 -/
  invert : Bool := false
  /-- PATTERN. | 3 | 13 R462 | 0 -/
  pattern : Nat := 0
  /-- LANE_INJECT.COUNT. | 8 | 13 R462 | 0 -/
  injCount : Nat := 0
  /-- LANE_INJECT.PERIOD_LOG2. | 5 | 13 R462 | 0 -/
  injPeriod : Nat := 0
  /-- LANE_INJECT.SYMS. | 5 | 13 R462 | 0 -/
  injSyms : Nat := 0
  /-- LANE_INJECT.MODE. | 2 | 13 R462 | 0 -/
  injMode : Nat := 0
  /-- Errors the generator or the link frames of this lane carry so far. | count | 13 R456 | 0 -/
  injected : Nat := 0
  /-- CHK_LOCKED. | 1 | 13 R462 | 0 -/
  chkLocked : Bool := false
  /-- LANE_PRBS_BITS. | 48 | 13 R455 | 0 -/
  bits : BitVec 48 := 0
  /-- LANE_PRBS_ERR. | 48 | 13 R455 | 0 -/
  errs : BitVec 48 := 0
  deriving DecidableEq, Repr

/-- Lane l (13 R443 to R452, R462). -/
structure Lane where
  /-- LSTATE. | 4 | 13 R462 | 0 IDLE -/
  state : LaneSt := .idle
  /-- RATE. | 2 | 13 R462 | 0 -/
  rate : Nat := 0
  /-- LOS. | 1 | 13 R462 | 1 -/
  los : Bool := true
  /-- LOL. | 1 | 13 R462 | 1 -/
  lol : Bool := true
  /-- APR. | 1 | 13 R462 | 0 -/
  apr : Bool := false
  /-- RX_READY. | 1 | 13 R462 | 0 -/
  rxReady : Bool := false
  /-- PARTNER_READY. | 1 | 13 R462 | 0 -/
  partnerReady : Bool := false
  /-- TX_INIT. | 2 | 13 R462 | 0 -/
  txInit : Nat := 0
  /-- NO_REQ. | 1 | 13 R462 | 0 -/
  noReq : Bool := false
  /-- IGNORE_REQ. | 1 | 13 R462 | 0 -/
  ignoreReq : Bool := false
  /-- TRAIN_MS. | 8 | 13 R462 | 0 -/
  trainMs : Nat := 0
  /-- LANE_TX_TAPS. | 5 x 8 | 13 R462 | c(0) = 40, others 0 -/
  taps : Taps := ({} : Taps)
  /-- Taps last converged, with the partner DEVICE_ID and the rate. | option | 13 R446, 14 R473 | none -/
  conv : Option (Quad × Nat × Taps) := none
  /-- SEQ of the last control word applied and the status it earned. | option | 13 R445, R446 | none -/
  applied : Option (Nat × Half) := none
  /-- SEQ of the last control word the lane issued, and whether its echo is awaited. | 8 + 1 | 13 R446 | 0, no -/
  reqSeq : Nat × Bool := (0, false)
  /-- Control word the lane sends. | 32 | 13 R445 | 0 -/
  ctl : Word := 0
  /-- Taps for which it asks. | the model's | 13 R446 | 0 -/
  asked : BitVec 5 := 0
  /-- Taps of the partner treated as NOT_SUPPORTED in this training. | 5 | 13 R446 | 0 -/
  notSup : BitVec 5 := 0
  /-- Frames sent and partner frames received in FINISH. | counts | 13 R443 | 0, 0 -/
  finish : Nat × Nat := (0, 0)
  /-- Rate being transmitted in SEARCH (1 to 3), and the last training rate. | 2 | 03 R105 | 3 -/
  txRate : Nat := 3
  /-- Elapsed time at which the last restart pulse began. | option | 13 R450 | none -/
  pulse : Option Nat := none
  /-- Launched power. | 16 | 13 R462 | 0 -/
  txPower : Half := 0
  /-- Received power. | 16 | 13 R462 | 0 -/
  rxPower : Half := 0
  /-- LANE_RX_QUALITY. | 16 | 13 R462 | 0 -/
  snr : Half := 0
  /-- LANE_LOS_COUNT. | 32 | 13 R462 | 0 -/
  losCount : Word := 0
  /-- LANE_LOL_COUNT. | 32 | 13 R462 | 0 -/
  lolCount : Word := 0
  /-- LANE_APR_COUNT. | 32 | 13 R462 | 0 -/
  aprCount : Word := 0
  /-- Trainings completed. | 16 | 13 R462 | 0 -/
  trainOk : Half := 0
  /-- Trainings failed. | 16 | 13 R462 | 0 -/
  trainBad : Half := 0
  /-- Elapsed time of the entry to TRAIN. | the model's | 13 R443 | 0 -/
  since : Nat := 0
  /-- Test state. -/
  test : LaneTest := ({} : LaneTest)
  deriving DecidableEq, Repr

/-- Optical engine e (13 R458, R463). -/
structure Engine where
  /-- FEED_A_OK. | 1 | 13 R463 | 0 (live) -/
  aOk : Bool := false
  /-- FEED_B_OK. | 1 | 13 R463 | 0 (live) -/
  bOk : Bool := false
  /-- DARK. | 1 | 13 R463 | 1 (live: no feed yet) -/
  dark : Bool := true
  /-- OPT_FEED_A_POWER. | 16 | 13 R463 | 0 -/
  aPower : Half := 0
  /-- OPT_FEED_B_POWER. | 16 | 13 R463 | 0 -/
  bPower : Half := 0
  /-- Engine temperature, signed C. | 8 | 13 R463 | 0 (DESIGN CHOICE, live) -/
  temp : Byte := 0
  deriving DecidableEq, Repr

/-- States of a laser site (13 R459). -/
inductive SiteSt where
  | absent | unused | identify | ramp | on | muting | removeReady | refused | fault | off
  deriving DecidableEq, Repr

/-- Laser site m (13 R459, R463). -/
structure Site where
  /-- LAS_CTRL.ENABLE. | 1 | 13 R463 | 1 -/
  enable : Bool := true
  /-- LAS_CTRL.PREP_REMOVE. | 1 | 13 R463 | 0 -/
  prepRemove : Bool := false
  /-- LSTATE. | 4 | 13 R463 | 0 ABSENT -/
  state : SiteSt := .absent
  /-- LATCHED. | 1 | 13 R463 | 0 -/
  latched : Bool := false
  /-- REMOVE_BLOCKED. | 1 | 13 R463 | 0 -/
  removeBlocked : Bool := false
  /-- Module temperature. | 8 | 13 R463 | 0 -/
  temp : Byte := 0
  /-- LAS_ID: module serial. | 64 | 13 R463 | 0 -/
  serial : Quad := 0
  /-- Serial of the module latched before, for the wear entry. | option 64 | 15 R501 | none -/
  lastSerial : Option Quad := none
  /-- LAS_OUT_POWER. | 4 x 16 | 13 R463 | 0 -/
  outPower : List Half := [0, 0, 0, 0]
  /-- LAS_BIAS. | 16 | 13 R463 | 0 -/
  bias : Half := 0
  /-- LAS_INSERT_COUNT. | 32 | 13 R463 | 0 -/
  inserts : Word := 0
  /-- LASnn_EN driven high. | pin | 13 R457 | 0 -/
  en : Bool := false
  /-- LASnn_MUTE_N driven high. | pin | 13 R457 | 0 -/
  muteN : Bool := false
  /-- Elapsed time when REMOVE_BLOCKED was last set, for the LED. | option | 16 R532 | none -/
  blockedAt : Option Nat := none
  /-- Elapsed time of the last event 0x0917. | option | 13 R459 | none -/
  lowAt : Option Nat := none
  deriving DecidableEq, Repr

/-! ### Tiles, stacks, CXL, pools (01, 11, 18) -/

/-- Roles of a physical tile (01 R13). -/
inductive Role where
  | fused | active | spare | quarantined
  deriving DecidableEq, Repr

/-- Physical tile p (01 R13 to R15, 18 R550, R551). -/
structure Tile where
  /-- ROLE. | 2 | 18 R551, 01 R14 | as shipped (DESIGN CHOICE: which sites) -/
  role : Role := .active
  /-- LOGICAL, with LOGV. | option 7 | 18 R551 | as shipped (DESIGN CHOICE) -/
  logical : Option Nat := none
  /-- QCAUSE, non-volatile. | 4 | 18 R551 | 0 -/
  qcause : Nat := 0
  /-- Anchor cache: the entries of each set, CTX * 2^32 + SEGMENT, most recently used first. | 1,024 x 4 x 16 B | 11 R366, R368 | empty -/
  anchorCache : SMap (List Nat) := []
  /-- Digest accumulators in use: CTX, OPNUM, kind * 65,536 + port or LAYER, most recently used first. | 2,048 x 16 B | 11 R366, R369 | empty -/
  accs : List (Nat × Nat × Nat) := []
  /-- Elapsed times of the outvotes counted in FAULTS. | list | 09 R304, 18 R551 | empty -/
  faults : List Nat := []
  /-- SELFTEST_PASS. | 1 | 18 R551 | 1 for a tile not FUSED (DESIGN CHOICE) -/
  selfTest : Bool := true
  /-- IN_RESET. | 1 | 18 R551 | 0 (DESIGN CHOICE, live) -/
  inReset : Bool := false
  /-- Trigger of the tile reset in progress: 1 leaving ACTIVE, 2 clear, 3 GLB_TILE_RESET. | the model's | 14 R472, R484 | 0 -/
  resetBy : Nat := 0
  /-- TILE_TEMP. | 16 | 18 R550 | 0 (DESIGN CHOICE, live) -/
  temp : Half := 0
  /-- TILE_SRAM_CE. | 32 | 18 R550 | 0 -/
  ce : Word := 0
  /-- TILE_SRAM_UE. | 32 | 18 R550 | 0 -/
  ue : Word := 0
  /-- TILE_SRAM_LAST_UE. | 32 | 18 R550 | 0 -/
  lastUe : Word := 0
  /-- Elapsed times of the errors in the quarantine window: uncorrectable, then corrected counts by time. | lists | 11 R390 | empty -/
  ueTimes : List Nat := []
  /-- Elapsed times and counts of corrected errors. | list | 11 R390 | empty -/
  ceTimes : List (Nat × Nat) := []
  /-- TILE_AG_OFFSET. | 32 | 18 R550 | 0 -/
  agOffset : Word := 0
  /-- TILE_AG_COUNT. | 6 x 32 | 18 R550 | 0 -/
  agCount : List Word := [0, 0, 0, 0, 0, 0]
  /-- TILE_AG_STRIDE. | 6 x 32 | 18 R550 | 0 -/
  agStride : List Word := [0, 0, 0, 0, 0, 0]
  /-- TILE_AG_STATUS.RUNNING. | 1 | 18 R550 | 0 -/
  agRunning : Bool := false
  /-- TILE_AG_STATUS.LEADER. | 1 | 18 R550 | 0 -/
  agLeader : Bool := false
  deriving DecidableEq, Repr

/-- States of a stack (11 R396). -/
inductive StackSt where
  | absent | training | ready | selfRefresh | failed
  deriving DecidableEq, Repr

/-- Tier-1 stack s (11 R383 to R390, R396). -/
structure Stack where
  /-- STATE. | 4 | 11 R396 | 1 TRAINING (0 when not populated) -/
  state : StackSt := .training
  /-- HBM_CHAN_MAPOUT, non-volatile. | 32 | 11 R396 | 0 -/
  mapout : Word := 0
  /-- HBM_CHAN_FAILED, non-volatile. | 32 | 11 R396 | 0 (DESIGN CHOICE) -/
  failed : Word := 0
  /-- HBM_CHAN_INSERVICE. | 32 | 11 R396 | 0 (live) -/
  inService : Word := 0
  /-- HBM_LANE_REPAIRED, non-volatile. | 16 | 11 R396 | 0 (DESIGN CHOICE) -/
  laneRepaired : Half := 0
  /-- HBM_CHAN_REPAIR by channel, non-volatile. | 32 x 4 | 11 R396 | 0 (DESIGN CHOICE) -/
  repair : SMap Nat := []
  /-- HBM_CE_COUNT. | 32 | 11 R396 | 0 -/
  ce : Word := 0
  /-- HBM_UE_COUNT. | 32 | 11 R396 | 0 -/
  ue : Word := 0
  /-- HBM_LAST_UE. | 42 | 11 R396 | 0 -/
  lastUe : Nat := 0
  /-- HBM_NM_OPS. | 64 | 11 R396 | 0 -/
  nmOps : Quad := 0
  /-- Corrections in the present hour: its first elapsed time, the count, the event raised. | the model's | 11 R390 | 0 -/
  hour : Nat × Nat × Bool := (0, 0, false)
  deriving DecidableEq, Repr

/-- CXL root port p (11 R391 to R397). -/
structure Cxl where
  /-- ENABLE. | 1 | 11 R397 | 0 -/
  enable : Bool := false
  /-- TIER2_USE. | 1 | 11 R397 | 0 -/
  use : Bool := false
  /-- SPEED. | 4 | 11 R397 | 0 -/
  speed : Nat := 0
  /-- WIDTH. | 5 | 11 R397 | 0 -/
  width : Nat := 0
  /-- TAGS_OK. | 1 | 11 R397 | 0 -/
  tagsOk : Bool := false
  /-- DEVICE_OK. | 1 | 11 R397 | 0 -/
  devOk : Bool := false
  /-- LINK_UP. | 1 | 11 R397 | 0 -/
  linkUp : Bool := false
  /-- CXL_EXTENTS_TOTAL. | 32 | 11 R397 | 0 -/
  total : Nat := 0
  /-- Extents in use. | count | 11 R393, R397 | 0 -/
  used : Nat := 0
  /-- CXL_POISON_COUNT. | 32 | 11 R397 | 0 -/
  poison : Word := 0
  /-- CXL_LINK_DOWN_COUNT. | 32 | 11 R397 | 0 -/
  downs : Word := 0
  /-- Accesses wait for the link (the hold of R395). | 1 | 11 R395 | 0 -/
  holding : Bool := false
  deriving DecidableEq, Repr

/-- Who owns a pool buffer (11 R372). -/
inductive Owner where
  | context (x : Nat) | operation (x opnum : Nat) | store (x : Nat) | port (n : Nat) | tile (q : Nat) | switch
  deriving DecidableEq, Repr

/-- An allocated pool buffer (11 R370 to R372). -/
structure PoolBuf where
  /-- Class 0 to 6. -/
  cls : Nat
  /-- Logical tile (classes 0 to 4) or grove (5, 6). -/
  place : Nat
  /-- Buffers or extents in the run. -/
  count : Nat
  /-- Job charged, none for the switch itself. -/
  job : Option Nat
  /-- Owning unit. -/
  owner : Owner
  /-- The model's number of the allocation. -/
  id : Nat
  deriving DecidableEq, Repr

/-- A run-time request that waits for a buffer (11 R373). -/
structure PoolWait where
  /-- Operation on whose behalf: CTX and OPNUM. -/
  op : Option (Nat × Nat) := none
  /-- Class asked. -/
  cls : Nat
  /-- Tile or grove. -/
  place : Nat
  /-- Buffers asked. -/
  count : Nat
  /-- Job. -/
  job : Option Nat
  /-- Owner waiting. -/
  owner : Owner
  deriving DecidableEq, Repr

/-- Buffer pools (11 R370 to R375). -/
structure Pool where
  /-- Buffers allocated. | list | 11 R372 | empty -/
  bufs : List PoolBuf := []
  /-- Requests waiting, oldest first. | list | 11 R373 | empty -/
  waits : List PoolWait := []
  /-- POOL_WARN by class. | 7 x 32 | 11 R375 | 0 -/
  warn : SMap Word := []
  /-- Classes whose POOL_LOW event has been raised and not re-armed. | 7 | 11 R373 | 0 -/
  warned : BitVec 7 := 0
  /-- POOL_REJECT_COUNT. | 32 | 11 R375 | 0 -/
  rejects : Word := 0
  /-- POOL_WAIT_COUNT. | 32 | 11 R375 | 0 -/
  waitCount : Word := 0
  /-- POOL_JOB_LIMIT by job. | 256 x 22 | 11 R375 | 0 -/
  jobLimit : SMap Nat := []
  /-- The model's number of the next allocation. | the model's | - | 0 (DESIGN CHOICE) -/
  next : Nat := 0
  deriving DecidableEq, Repr

/-! ### GLB, clocks, resets, power, wear (14, 15, 18, 19) -/

/-- GLB registers and the reset controller (14 R472 to R483, 18 R547). -/
structure Glb where
  /-- GLB_IDENT.VARIANT: 0 YP5-204C, 1 YP5-102C, fused. | 4 | 18 R547 | 0 (DESIGN CHOICE) -/
  variant : Nat := 0
  /-- GLB_LEVEL. | 3 | 18 R547 | 2 -/
  level : Nat := 2
  /-- GLB_SCRATCH. | 32 | 18 R547 | 0 -/
  scratch : Word := 0
  /-- GLB_REG_DISCARD_COUNT. | 32 | 18 R547 | 0 -/
  discards : Word := 0
  /-- GLB_REG_DISCARD_ADDR. | 27 | 18 R548 | 0 -/
  discardAddr : Word := 0
  /-- HI halves latched by the last LO read, key requester * 2^24 + offset of HI. | map 32 | 18 R543 | empty -/
  latches : SMap Word := []
  /-- GLB_RESET_STATUS.STAGE. | 4 | 14 R478, R483 | 1 ROOT_OF_TRUST (rails up; DESIGN CHOICE of the instant) -/
  stage : Nat := 1
  /-- GLB_RESET_STATUS.CAUSE. | 8 | 14 R483 | 0 POWER_ON -/
  cause : Nat := 0
  /-- GLB_RESET_STATUS.KIND. | 4 | 14 R483 | 0 power-on -/
  kind : Nat := 0
  /-- GLB_RESET_COUNT warm, non-volatile. | 16 | 14 R483 | 0 (DESIGN CHOICE) -/
  warms : Half := 0
  /-- GLB_RESET_COUNT cold, non-volatile. | 16 | 14 R483 | 0 (DESIGN CHOICE) -/
  colds : Half := 0
  /-- GLB_CLOCK_CTRL.PROFILE. | 2 | 14 R483 | 0 -/
  clockReq : Nat := 0
  /-- The request that has taken effect at its tick. | 2 | 14 R466 | 0 -/
  clockTaken : Nat := 0
  /-- GTC at the latest write of the request. | option | 14 R466 | none -/
  clockAt : Option Quad := none
  /-- GLB_CLOCK_STATUS.LIMIT. | 2 | 14 R483 | 0 -/
  clockLimit : Nat := 0
  /-- GLB_CLOCK_STATUS.ACTIVE. | 2 | 14 R483 | 0 -/
  clockActive : Nat := 0
  /-- GLB_CLOCK_STATUS.TIME_LOCK. | 1 | 14 R479, R483 | 0 (live: locks in SELF_TEST) -/
  timeLock : Bool := false
  /-- GLB_CLOCK_STATUS.CORE_LOCK. | 4 | 14 R483 | 0 (live: groves leave reset for SELF_TEST) -/
  coreLock : BitVec 4 := 0
  /-- GLB_ACCESS_TIMEOUT_COUNT. | 32 | 14 R483 | 0 -/
  timeouts : Word := 0
  /-- GLB_ACCESS_TIMEOUT_ADDR. | 32 | 14 R483 | 0 -/
  timeoutAddr : Word := 0
  /-- GLB_START_TIME, ms. | 16 | 14 R483 | 0 (DESIGN CHOICE) -/
  startTime : Half := 0
  /-- OPT_REFCLK.SSC_DOWN. | 4 | 13 R463 | 0 -/
  ssc : Nat := 0
  /-- OPT_REFCLK.REF_OK. | 1 | 13 R463 | 1 (DESIGN CHOICE, live) -/
  refOk : Bool := true
  /-- Elapsed time at which REF_OK cleared. | option | 14 R467 | none -/
  refLostAt : Option Nat := none
  /-- Elapsed time at which a PLL lost lock: grove 0 to 3, 4 the TIME PLL. | map | 14 R467 | empty -/
  unlockAt : SMap Nat := []
  /-- ms since time 0 of R478 at which the present stage began. | the model's | 14 R478 | 0 -/
  stageMs : Nat := 0
  /-- Elapsed time at which start-up began. | the model's | 14 R478 | 0 -/
  startAt : Nat := 0
  /-- GTC of the last event of each kind that is rate-limited, key code * 2^24 + subject. | map | 03 R118, 14 R471 and others | empty -/
  evTimes : SMap Nat := []
  /-- MOD_PWRGD. | pin | 14 R472, 19 R567 | 1 (DESIGN CHOICE) -/
  pwrgd : Bool := true
  /-- MOD_RESET_N high. | pin | 19 R566 | 1 (DESIGN CHOICE) -/
  modResetN : Bool := true
  /-- Seedling rebinding: first member reached UP at this elapsed time. | option | 14 R481 | none -/
  firstMemberUp : Option Nat := none
  /-- The first rebinding has happened. | 1 | 14 R481 | 0 -/
  rebound : Bool := false
  deriving DecidableEq, Repr

/-- Power states of the module (19 R568). -/
inductive ModSt where
  | sequencing | offInput | on | offHeld
  deriving DecidableEq, Repr

/-- Power, thermal and converters (15 R485 to R496). -/
structure Pwr where
  /-- PWR_PROFILE. | 2 | 15 R496 | 0 -/
  profile : Nat := 0
  /-- BMC_PROFILE (AUX). | 2 | 16 R529 | 0 -/
  bmcProfile : Nat := 0
  /-- PWR_STATUS.IN_FORCE. | 2 | 15 R496 | 0 -/
  inForce : Nat := 0
  /-- GTC at which the latest cause of the profile in force ended. | option | 15 R489 | none -/
  easedAt : Option Quad := none
  /-- PWR_STATUS.THERMAL_STEP. | 2 | 15 R496 | 0 -/
  thermal : Nat := 0
  /-- PWR_STATUS.LIMIT_STEP. | 2 | 15 R496 | 0 -/
  limit : Nat := 0
  /-- Converters out of service. | 8 | 15 R486, R496 | 0 -/
  ibcOut : BitVec 8 := 0
  /-- PWR_VIN, mV. | 16 | 15 R496 | 48,000 (DESIGN CHOICE, live) -/
  vin : Nat := 48000
  /-- PWR_IIN, 10 mA. | 16 | 15 R496 | 0 (DESIGN CHOICE, live) -/
  iin : Nat := 0
  /-- PWR_PIN, W. | 16 | 15 R496 | 0 (DESIGN CHOICE, live) -/
  pin : Nat := 0
  /-- PWR_GROVE power, W. | 4 x 16 | 15 R496 | 0 (DESIGN CHOICE, live) -/
  grove : List Nat := [0, 0, 0, 0]
  /-- PWR_OPTICS, W. | 16 | 15 R496 | 0 (DESIGN CHOICE, live) -/
  optics : Nat := 0
  /-- PWR_STACKS, W. | 16 | 15 R496 | 0 (DESIGN CHOICE, live) -/
  stackW : Nat := 0
  /-- PWR_COOLANT inlet side. | 8 | 15 R496 | 0 (DESIGN CHOICE, live) -/
  inlet : Byte := 0
  /-- PWR_COOLANT outlet side. | 8 | 15 R496 | 0 (DESIGN CHOICE, live) -/
  outlet : Byte := 0
  /-- PWR_ENERGY, mJ. | 64 | 15 R496 | 0 -/
  energy : Quad := 0
  /-- PWR_VIN_WARN. | 16 | 15 R496 | 42,000 -/
  vinWarn : Nat := 42000
  /-- PWR_STACK_TEMP. | 24 x 8 | 15 R496 | 0 (DESIGN CHOICE, live) -/
  stackTemp : SMap Byte := []
  /-- PWR_REG output power and temperature by regulator. | 25 x 24 | 15 R496 | 0 (DESIGN CHOICE, live) -/
  regs : SMap (Nat × Byte) := []
  /-- Consecutive ms above the cap. | count | 15 R491 | 0 -/
  overRun : Nat := 0
  /-- Consecutive ms at or below 90 % of the next cap. | count | 15 R491 | 0 -/
  underRun : Nat := 0
  /-- ms since the limiter step left 0. | count | 15 R503 | 0 -/
  limitedMs : Nat := 0
  /-- Readings (100 us) with some sensor above its throttle threshold within the ms. | count | 15 R493 | 0 -/
  hotRun : Nat := 0
  /-- Readings with every sensor 3 C below. | count | 15 R493 | 0 -/
  coolRun : Nat := 0
  /-- Readings since the thermal step left 0. | count | 15 R503 | 0 -/
  throttled : Nat := 0
  /-- Sensors at or above trip at the last reading, kind * 256 + index. | list | 15 R494 | empty -/
  tripping : List Nat := []
  /-- Trip recorded, non-volatile: sensor, temperature, GTC. | option | 15 R494 | none -/
  trip : Option (Nat × Byte × Quad) := none
  /-- CAUSE that the next start from rails off reports. | 8 | 14 R472, R483; 15 R494; 19 R568 | 0 -/
  nextCause : Nat := 0
  /-- After a rail fault the sequence waits 100 ms. | 1 | 19 R568 | 0 -/
  faultWait : Bool := false
  /-- In OFF_HELD the input has been below 36 V. | 1 | 19 R568 | 0 -/
  inputGone : Bool := false
  /-- Module state. | 2 | 19 R568 | ON (DESIGN CHOICE: State.reset has its rails up) -/
  mod : ModSt := .on
  /-- Elapsed times of the rail faults of the last 60 s. | list | 19 R568 | empty -/
  railFaults : List Nat := []
  deriving DecidableEq, Repr

/-- One stored wear sample (15 R498): mean indicator, equivalent age and mean AF (fixed point, 2^-20). -/
structure WearSample where
  /-- The day's mean indicator. -/
  ind : Int
  /-- Equivalent age, 2^-20 s. -/
  age : Nat
  /-- The day's mean AF, 2^-20. -/
  af : Nat
  deriving DecidableEq, Repr

/-- Wear entry i (15 R497 to R502). -/
structure Wear where
  /-- WEAR_STATE.STATE. | 3 | 15 R502 | 0 -/
  state : Nat := 0
  /-- Samples, newest first, at most 365, non-volatile. | list | 15 R498 | empty (DESIGN CHOICE) -/
  samples : List WearSample := []
  /-- WEAR_BASE. | 32 | 15 R502 | 0 -/
  base : Int := 0
  /-- A BASE has been taken. | 1 | 15 R497, R501 | 0 -/
  based : Bool := false
  /-- Equivalent age, 2^-20 s, non-volatile. | count | 15 R498 | 0 (DESIGN CHOICE) -/
  age : Nat := 0
  /-- Sum of AF (2^-20) over the seconds of the day, and the seconds. | sums | 15 R498 | 0, 0 -/
  afDay : Nat × Nat := (0, 0)
  /-- WEAR_EOL_MID, EARLY, LATE in 0.1 day; none is 0xFFFF_FFFF. | 3 x 32 | 15 R502 | none -/
  mid : Option Nat := none
  /-- WEAR_EOL_EARLY. | 32 | 15 R502 | none -/
  early : Option Nat := none
  /-- WEAR_EOL_LATE. | 32 | 15 R502 | none -/
  late : Option Nat := none
  /-- af30, 2^-20. | 32 | 15 R502 | 0 -/
  af30 : Nat := 0
  /-- Outvoted in the shadow log within the day (tiles). | 1 | 15 R500 | 0 -/
  outvoted : Bool := false
  deriving DecidableEq, Repr

/-- The WEAR block (15 R502). -/
structure WearBlk where
  /-- WEAR_POH, non-volatile. | 32 | 15 R502 | 0 (DESIGN CHOICE) -/
  poh : Word := 0
  /-- WEAR_UTC. | 64 | 15 R502 | 0 -/
  utc : Quad := 0
  /-- WEAR_UTC has been written. | 1 | 15 R502 | 0 -/
  utcSet : Bool := false
  /-- Seconds since the last daily sample. | count | 15 R498, R502 | 0 (DESIGN CHOICE) -/
  secs : Nat := 0
  /-- Entries 0 to 752. | map | 15 R497 | every entry INSUFFICIENT -/
  entries : SMap Wear := []
  deriving DecidableEq, Repr

/-! ### Security and management (16) -/

/-- One firmware image slot (16 R504, R505). -/
structure ImgSlot where
  /-- Bytes written since the last erasure, by offset; every other byte is erased (0xFF). | 32 MiB | 16 R504 | erased (DESIGN CHOICE) -/
  bytes : SMap Byte := []
  /-- The slot holds the image as shipped, whose bytes are the part's own (log 54). | the model's | 16 R504 | A: 1, B: 0 (DESIGN CHOICE) -/
  shipped : Bool := false
  /-- Verified valid at its last check. | 1 | 16 R535 | A: 1, B: 0 (DESIGN CHOICE) -/
  valid : Bool := false
  /-- Why it is not valid, as SEC_BOOT_STATUS numbers it. | 8 | 16 R506, R535 | 1 for an erased slot -/
  cause : Nat := 1
  /-- FW_VERSION, SVN, KEY_INDEX, CMINOR_MAX, REVOKE of the image, taken at its last check. | 5 fields | 16 R505 | 0 (DESIGN CHOICE) -/
  version : Nat := 0
  /-- SVN. -/
  svn : Nat := 0
  /-- KEY_INDEX. -/
  keyIndex : Nat := 0
  /-- CMINOR_MAX. -/
  cminor : Nat := 2
  /-- REVOKE. -/
  revoke : BitVec 4 := 0
  deriving DecidableEq, Repr

/-- State of one SPDM connection (16 R512): 0 none, 1 after VERSION, 2 after CAPABILITIES, 3 negotiated. -/
structure Spdm where
  /-- Connection step. | 2 | 16 R512 | 0 -/
  step : Nat := 0
  /-- Version in use: 0x11 or 0x12. | 8 | 16 R512 | 0 -/
  version : Nat := 0
  /-- Transcript bytes so far. | list | 16 R512 (DSP0274) | empty -/
  transcript : List Byte := []
  deriving DecidableEq, Repr

/-- What the root of trust locks when it starts an image, for the measurements (16 R507, R514). -/
structure Locked where
  /-- Slot started is B. | 1 | 16 R514 | 0 (DESIGN CHOICE) -/
  slotB : Bool := false
  /-- TRIAL at the start. | 1 | 16 R514 | 0 (DESIGN CHOICE) -/
  trial : Bool := false
  /-- SVN floor at the start. | 8 | 16 R514 | 1 (DESIGN CHOICE) -/
  svnFloor : Nat := 1
  /-- Revocation mask at the start. | 4 | 16 R514 | 0 (DESIGN CHOICE) -/
  revoked : BitVec 4 := 0
  /-- Lifecycle at the start. | 2 | 16 R514 | 1 (DESIGN CHOICE) -/
  lifecycle : Nat := 1
  deriving DecidableEq, Repr

/-- Root of trust and management (16). -/
structure Sec where
  /-- Slot A. -/
  slotA : ImgSlot := { shipped := true, valid := true, cause := 0, version := 1, svn := 1 }
  /-- Slot B. -/
  slotB : ImgSlot := ({} : ImgSlot)
  /-- Boot record ACTIVE is slot B. | 1 | 16 R507 | 0 (A) (DESIGN CHOICE) -/
  activeB : Bool := false
  /-- TRIAL. | 1 | 16 R507 | 0 (DESIGN CHOICE) -/
  trial : Bool := false
  /-- TRIES. | 2 | 16 R507 | 0 (DESIGN CHOICE) -/
  tries : Nat := 0
  /-- Last rejection. | 8 | 16 R535 | 0 -/
  rejection : Nat := 0
  /-- DEBUG_OPEN. | 1 | 16 R524 | 0 -/
  debugOpen : Bool := false
  /-- A valid debug token is recorded for the next cold reset. | 1 | 16 R524 | 0 -/
  unlockNext : Bool := false
  /-- Invalid tokens since cold reset. | 2 | 16 R535 | 0 -/
  badTokens : Nat := 0
  /-- SEC_DEBUG_NONCE. | 64 | 16 R524 | free value -/
  nonce : Quad := 0
  /-- LOCATE. | 1 | 16 R535 | 0 -/
  locate : Bool := false
  /-- BTN_ENABLE. | 1 | 16 R535 | 1 -/
  btnEnable : Bool := true
  /-- BTN_POWER. | 1 | 16 R535 | 1 -/
  btnPower : Bool := true
  /-- Update session: source BMC. | option 1 | 16 R509 | none -/
  session : Option Bool := none
  /-- Recovery (neither slot valid). | 1 | 16 R507 | 0 -/
  recovery : Bool := false
  /-- SPDM connection over I3C. -/
  spdmI3c : Spdm := ({} : Spdm)
  /-- SPDM connection over PCIe. -/
  spdmPcie : Spdm := ({} : Spdm)
  /-- What the measurements lock. -/
  locked : Locked := ({} : Locked)
  /-- FW_VERSION of the running image. | 32 | 16 R505, R514 | 1 (DESIGN CHOICE) -/
  runVersion : Nat := 1
  /-- SVN of the running image. | 7 | 16 R535 | 1 (DESIGN CHOICE) -/
  runSvn : Nat := 1
  /-- KEY_INDEX of the running image. | 2 | 16 R511 | 0 (DESIGN CHOICE) -/
  runKey : Nat := 0
  /-- REVOKE of the running image. | 4 | 16 R511 | 0 (DESIGN CHOICE) -/
  runRevoke : BitVec 4 := 0
  /-- CMINOR_MAX of the running image. | 8 | 12 R433 | 2 -/
  runMinor : Nat := 2
  /-- I3C dynamic address. | option 7 | 16 R525 | none -/
  i3cAddr : Option Nat := none
  deriving DecidableEq, Repr

/-- Fuses: one-way state of the root of trust (16 R504, R511, R522). -/
structure Fuses where
  /-- SVN floor. | 8 | 16 R535 | 1 (DESIGN CHOICE) -/
  svnFloor : Nat := 1
  /-- Key revocation mask. | 4 | 16 R535 | 0 (DESIGN CHOICE) -/
  revoked : BitVec 4 := 0
  /-- Lifecycle: 0 MANUFACTURE, 1 PRODUCTION, 2 RETURNED. | 2 | 16 R522, R535 | 1 (parts ship in PRODUCTION) -/
  lifecycle : Nat := 1
  deriving DecidableEq, Repr

/-! ### Collective contexts (02, 04, 08, 09) -/

/-- States of an operation (04 R156). -/
inductive OpSt where
  | opening | joined | committed | done | failed
  deriving DecidableEq, Repr

/-- One digest: value and cells covered (09 R297). -/
structure Digest where
  /-- XOR of the CRC-64 values. -/
  dig : Quad
  /-- Cells covered. -/
  cells : Nat
  /-- An uncorrectable error took it: it is answered as NOT_HELD (11 R389). -/
  lost : Bool := false
  deriving DecidableEq, Repr

/-- Prune result cells for one member under SPARSE (08 R266). -/
structure SparseOut where
  /-- Grid cells of the member's part whose result has come. -/
  have_ : Nat := 0
  /-- Included elements: element of the part to raw value. -/
  entries : SMap Nat := []
  /-- Next window to encode. -/
  next : Nat := 0
  /-- Cells of the last window with entries, held back until it is known whether it is the final one: window, payloads. -/
  held : Option (Nat × List (BitVec 512)) := none
  deriving DecidableEq, Repr

/-- A result record kept for re-delivery (09 R288). -/
structure Retained where
  /-- Record bytes (packed grid or float record). -/
  bytes : List Byte
  /-- A float record. -/
  float : Bool
  /-- Kept in the retention area (else sent unretained). -/
  kept : Bool
  deriving DecidableEq, Repr

/-- A member's cursor in a PRUNE operation (08 R260). -/
structure Cursor where
  /-- Next window expected. -/
  next : Nat
  /-- Cells of the window in progress so far. -/
  cells : Nat
  /-- Offset just after the last run of the window in progress, and whether the next cell may start there. -/
  tail : Nat × Bool
  /-- A cell with LAST has come. -/
  last : Bool
  /-- Entries of the window in progress: offset and raw value. -/
  entries : List (Nat × Nat)
  /-- Windows in progress outside a segment that was asked for again: cells, tail and entries by window. | map | 08 R260 | empty -/
  aside : SMap (Nat × (Nat × Bool) × List (Nat × Nat)) := []
  deriving DecidableEq, Repr

/-- Grid-cell arithmetic state with the tag part (02 R52, 04 R142). -/
structure Slot where
  /-- SSTATE: 0 FREE, 1 COLLECTING, 2 HELD, 3 SENT. | 3 | 04 R142 | 0 -/
  sst : Nat := 1
  /-- BACKUP_USED. | 1 | 04 R142 | 0 -/
  backupUsed : Bool := false
  /-- LSTART: low 32 bits of the frame of the lateness start. | 32 | 04 R142 | 0xFFFF_FFFF -/
  lstart : Word := BitVec.allOnes 32
  /-- Frame ticks counted since the lateness start. | the model's | 04 R150, 05 R163 | 0 -/
  late : Nat := 0
  /-- Member bitmap, bit n for port n. | 512 | 04 R143 | 0 -/
  bitmap : BitVec 512 := 0
  /-- Accumulators of the 32 elements. | 32 x 128 | 02 R52, R53 | 0 -/
  acc : List (BitVec 128) := List.replicate 32 0
  /-- NAN. | 32 | 02 R52 | 0 -/
  nan : Word := 0
  /-- PINF. | 32 | 02 R52 | 0 -/
  pinf : Word := 0
  /-- NINF. | 32 | 02 R52 | 0 -/
  ninf : Word := 0
  /-- EMAX. | 16 | 02 R52 | 0x8000 (-32,768) -/
  emax : Int := -32768
  /-- ASTATE.ATTEMPT. | 3 | 02 R52 | 0 -/
  attempt : Nat := 0
  /-- ASTATE.CLAMP. | 1 | 02 R52 | 0 -/
  clamp : Bool := false
  /-- Contributions staged by child port for DET-TREE, in the ACC format. | per child 32 x 64 | 02 R73 | none -/
  tree : SMap (List Quad) := []
  /-- The slot place lies in tier 1. | 1 | 11 R367 | 0 -/
  tier1 : Bool := false
  deriving DecidableEq, Repr

/-- Anchor-table entry (11 R368). -/
structure Anchor where
  /-- CUR. | 16 | 11 R368 | A0 -/
  cur : Int
  /-- PREV. | 16 | 11 R368 | 0 -/
  prev : Int := 0
  /-- SET_OPNUM. | 32 | 11 R368 | 0 -/
  setOp : Nat := 0
  /-- PREV_OPNUM. | 32 | 11 R368 | 0xFFFF_FFFF -/
  prevOp : Nat := 4294967295
  /-- ATTEMPT. | 3 | 11 R368 | 0 -/
  attempt : Nat := 0
  /-- SET. | 1 | 11 R368 | 0 -/
  isSet : Bool := false
  /-- Installed by ANCHOR_COPY: set by no operation of this context. | 1 | 09 R310 | 0 -/
  copied : Bool := false
  deriving DecidableEq, Repr

/-- A child entry of the canopy record (04 R124). -/
structure Child where
  /-- PORT. -/
  port : Nat
  /-- KIND is switch. -/
  isSwitch : Bool
  /-- RANK_FIRST. -/
  rankFirst : Nat
  /-- RANK_COUNT. -/
  rankCount : Nat
  /-- MCTX. -/
  mctx : Option Nat
  /-- BACKUP_PORT. -/
  backup : Option Nat
  deriving DecidableEq, Repr

/-- A shard entry of the canopy record (06 R193). -/
structure ShardEnt where
  /-- FIRST. -/
  first : Nat
  /-- COUNT. -/
  count : Nat
  /-- TOWARD_PORT. -/
  toward : Option Nat
  /-- MIRROR_PORT. -/
  mirror : Option Nat
  /-- SROLE: 0 TRANSIT, 1 OWNER, 2 MIRROR. -/
  srole : Nat
  /-- LAYER. -/
  layer : Nat
  /-- UGROUP. -/
  ugroup : Nat
  deriving DecidableEq, Repr

/-- A canopy record (04 R124, 06 R193). -/
structure Canopy where
  /-- ROLE: 0 LEAF, 1 INNER, 2 ROOT. -/
  role : Nat := 2
  /-- LEVEL. -/
  level : Nat := 2
  /-- PARENT_PORT. -/
  parent : Option Nat := none
  /-- MEMBERS. -/
  members : Nat := 0
  /-- MEPOCH. -/
  mepoch : Nat := 0
  /-- Child entries. -/
  children : List Child := []
  /-- Shard entries. -/
  shards : List ShardEnt := []
  deriving DecidableEq, Repr

/-- Exchange state of an ALL_TO_ALL or PERMUTE (04 R145 to R147, 08 R268). -/
structure Exch where
  /-- Element counts held, key source * 65,536 + destination. | map 32 | 04 R146 | empty -/
  counts : SMap Nat := []
  /-- COUNTS blocks received, key source * 4,096 + BLOCK. | map | 04 R146 | empty -/
  blocks : SMap Nat := []
  /-- Exchange cells received, key source * 65,536 + destination. | map | 04 R147 | empty -/
  cells : SMap Nat := []
  /-- The subtree's counts exchange is complete here. | 1 | 04 R146 | 0 -/
  countsDone : Bool := false
  /-- Children that sent COMPLETE. | 512 | 04 R147 | 0 -/
  completeFrom : BitVec 512 := 0
  /-- COMPLETE sent to the parent. | 1 | 04 R147 | 0 -/
  completeUp : Bool := false
  deriving DecidableEq, Repr

/-- A STORE_GATHER accepted or held for an operation (06 R211, R212). -/
structure GatherReq where
  /-- Versions resolved, by shard. -/
  resolved : SMap Nat
  /-- UNPIN. -/
  unpin : Bool
  /-- FIRST. -/
  first : Nat
  /-- COUNT. -/
  count : Nat
  /-- The STORE_GATHER completed with VERSION_GONE: the operation holds (06 R211). -/
  gone : Bool := false
  deriving DecidableEq, Repr

/-- Operation of a context (04 R132 to R156). -/
structure Op where
  /-- The 32-byte operation block. | 256 | 04 R132 | - -/
  blk : BitVec 256
  /-- State. | 3 | 04 R156 | OPENING -/
  st : OpSt := .opening
  /-- Status with which it ended. | 8 | 04 R157 | 0 -/
  status : Nat := 0
  /-- Children joined, by child port. | 512 | 04 R137 | 0 -/
  joined : BitVec 512 := 0
  /-- Ports that sent a valid JOIN, backups included. | 512 | 04 R128 | 0 -/
  valid : BitVec 512 := 0
  /-- Member formats by port. | map 4 | 04 R136 | empty -/
  formats : SMap Nat := []
  /-- Kinds of format below: [0] float, [1] integer. | 2 | 04 R137 | 0 -/
  sform : Nat := 0
  /-- PEER_RANK by source rank. | map 16 | 04 R136 | empty -/
  peers : SMap Nat := []
  /-- The OP_POSTs to complete. | list | 04 R135 | empty -/
  posts : List Tok := []
  /-- OP_ABORTs waiting for the decision. | list | 04 R155 | empty -/
  aborts : List Tok := []
  /-- The JOIN has been sent upward. | 1 | 04 R137 | 0 -/
  upJoin : Bool := false
  /-- A JOIN or OP_POST has opened it (a posted block alone has not). | 1 | 04 R137 | 0 -/
  opened : Bool := false
  /-- Grants sent, in the receiver's unit, by child port. | map 25 | 04 R140 | empty -/
  grants : SMap Nat := []
  /-- Grid cells of the stream for which slots are held (g). | 25 | 04 R140 | 0 -/
  g : Nat := 0
  /-- Elapsed time of the first JOIN. | the model's | 04 R152 | 0 -/
  firstJoin : Nat := 0
  /-- Launch instant L, once known. | option 64 | 05 R185 | none -/
  launchAt : Option Quad := none
  /-- c: GTC at which the last JOIN was accepted. | 64 | 05 R185 | 0 -/
  lastJoin : Quad := 0
  /-- GTC of the first cell of data that came before L was known. | option 64 | 05 R186 | none -/
  firstCell : Option Quad := none
  /-- Events raised once for this operation, as (code, port or 0). | list | 04 R151, R152 and others | empty -/
  once : List (Nat × Nat) := []
  /-- Staged member cells: port * 2^24 + member cell index to payload. | map 512 | 02 R41, 04 R141 | empty -/
  staging : SMap (BitVec 512) := []
  /-- Whole grid cells waiting in staging for R51, a launch or a layout epoch: (port, grid cell). | list | 02 R51, 05 R186 | empty -/
  waiting : List (Nat × Nat) := []
  /-- Prune cursors by port. | map | 08 R260 | empty -/
  cursors : SMap Cursor := []
  /-- Digest of the cells of each window accepted so far, by port * 2^24 + window. | map | 09 R296, R297 | empty -/
  winDig : SMap Digest := []
  /-- Entries of pruned grid cells that wait in staging: port * 2^24 + grid cell to (offset in the cell, raw value). | map | 08 R260 | empty -/
  pruned : SMap (List (Nat × Nat)) := []
  /-- Completion map, one bit a grid cell. | E/32 | 09 R281 | 0 -/
  cbits : Nat := 0
  /-- Grid cells whose result has been received or released here. | E/32 | 09 R290 | 0 -/
  rbits : Nat := 0
  /-- Segments whose results are released at this switch. | list | 02 R51, R56 | empty -/
  released : List Nat := []
  /-- Result records by grid cell. | map | 09 R288 | empty -/
  retained : SMap Retained := []
  /-- Result cells that have left toward each child, a set by port: member cells (windows when sparse) of a member, grid cells of a switch. | map of sets | 04 R149, R156 | empty -/
  sentTo : SMap Nat := []
  /-- Grid cells whose record has been formed toward the parent at least once. | E/32 | 09 R297 | 0 -/
  sentUp : Nat := 0
  /-- Member cells already folded into the contribution digest, a set by port. | map of sets | 09 R297 | empty -/
  folded : SMap Nat := []
  /-- Largest EMAX of the grid cells of each segment completed at the root. | map 16 | 02 R60 | empty -/
  segEmax : SMap Int := []
  /-- Switch children that sent DELIVERED. | 512 | 09 R285 | 0 -/
  deliveredFrom : BitVec 512 := 0
  /-- DELIVERED sent to the parent, or counted at the root. | 1 | 09 R285 | 0 -/
  delivered : Bool := false
  /-- Children that reported COMPLETE (store operations, exchanges). | 512 | 06 R206, R213 | 0 -/
  completeFrom : BitVec 512 := 0
  /-- COMPLETE sent toward the parent. | 1 | 06 R206 | 0 -/
  completeUp : Bool := false
  /-- Port on which this switch was asked to abort it, 0xFFFF for a descriptor of its own. | 16 | 04 R154, R159 | none -/
  askedBy : Option Nat := none
  /-- MIRROR_PORTs that left UP while it was open, or were not UP when it opened: it sends them nothing. | list | 06 R197 | empty -/
  unmirrored : List Nat := []
  /-- COMPLETE of the parent has come, for an operation that waits for it (log 10). | 1 | 04 R156; 09 R278 | 0 -/
  rootEnd : Bool := false
  /-- Chunks signalled to each member child, by port. | map | 04 R149 | empty -/
  chunkSent : SMap Nat := []
  /-- Chunks committed at the root, and chunks whose flag has been signalled. | counts | 04 R149, R154 | 0, 0 -/
  chunks : Nat × Nat := (0, 0)
  /-- Some result carried OVF or a narrowing saturated: ends with OVERFLOW. | 1 | 02 R59, R70, R76 | 0 -/
  overflow : Bool := false
  /-- Exchange state. | - | 04 R146 | empty -/
  exch : Exch := ({} : Exch)
  /-- Store gather request. | option | 06 R211 | none -/
  gather : Option GatherReq := none
  /-- SPARSE form taken when it opened. | 1 | 08 R265 | 0 -/
  sparse : Bool := false
  /-- The encoder of prune results toward each sparse member, by port. | map | 08 R266 | empty -/
  sparseOut : SMap SparseOut := []
  /-- Anchor with which each segment's results stand on the grid, by segment. | map 16 | 02 R44 | empty -/
  segAnchor : SMap Int := []
  /-- Grants received, in grid cells, by the port toward the root. | map 25 | 04 R140 | empty -/
  upGrants : SMap Nat := []
  deriving DecidableEq, Repr

/-! ### Parameter store and update engine (06, 07, 08) -/

/-- States of a shard (06 R209). -/
inductive ShardSt where
  | empty | ready | updating | waitPin
  deriving DecidableEq, Repr

/-- A bank of a shard (06 R207): its version and its arrays, master first, elements by index.
An element that nothing has written reads as a free value. -/
structure Bank where
  /-- Version held. | option 32 | 06 R207 | none -/
  ver : Option Nat := none
  /-- A second version with the same bits (idle commit, 08 R271). | option 32 | 08 R271 | none -/
  prevVer : Option Nat := none
  /-- Arrays: raw element words by index. | lists | 06 R207 | free values -/
  arrays : List (SMap Quad) := []
  deriving DecidableEq, Repr

/-- A commit record (06 R220). -/
structure CommitRec where
  /-- LSN. -/
  lsn : Nat
  /-- KIND: 1 LOAD, 2 UPDATE, 3 RESHARD_IN, 4 RESHARD_OUT. -/
  kind : Nat
  /-- BANK [0]. -/
  bank : Nat
  /-- BANK [1]. -/
  prevValid : Bool
  /-- VERSION. -/
  version : Nat
  /-- GTC. -/
  gtc : Quad
  /-- STEP. -/
  step : Nat
  /-- CLIP: factor and GNORM, FP64 each. -/
  clip : Quad × Quad
  deriving DecidableEq, Repr

/-- One grid cell of a gradient area with its side record (06 R204). -/
structure GradCell where
  /-- Values, G bits each, as exact integers. -/
  vals : List Int
  /-- NAN. -/
  nan : Word
  /-- PINF. -/
  pinf : Word
  /-- NINF. -/
  ninf : Word
  /-- FULL. -/
  full : Bool
  /-- OVF. -/
  ovf : Bool
  /-- AVG. -/
  avg : Bool
  /-- ATTEMPT. -/
  attempt : Nat
  /-- ANCHOR. -/
  anchor : Int
  /-- The store reduction that wrote it. -/
  opnum : Nat
  deriving DecidableEq, Repr

/-- Migration states (08 R273). -/
inductive MigSt where
  | still | queued | copying
  deriving DecidableEq, Repr

/-- Shard s at its owner or mirror (06 R207 to R209, 08 R270 to R273). -/
structure Shard where
  /-- State. | 2 | 06 R209 | EMPTY -/
  st : ShardSt := .empty
  /-- Bank 0. | bank | 06 R207 | empty -/
  bank0 : Bank := ({} : Bank)
  /-- Bank 1. | bank | 06 R207 | empty -/
  bank1 : Bank := ({} : Bank)
  /-- Current bank. | 1 | 06 R207 | 0 -/
  cur : Nat := 0
  /-- Pins by version: OPPINS, HELD. | map 2 x 16 | 06 R208 | empty -/
  pins : SMap (Nat × Nat) := []
  /-- Commit-record places 0 and 1. | 2 x 512 | 06 R220 | none -/
  recs : Option CommitRec × Option CommitRec := (none, none)
  /-- Gradient area by grid cell of the shard. | map | 06 R204 | FULL clear -/
  grad : SMap GradCell := []
  /-- Its tier-1 buffers in the pool: the run of R200, then extents of promoted AUTO arrays. | list | 06 R200, 08 R273 | - -/
  bufs : List Nat := []
  /-- Tier-2 extents on root ports 0 and 1. | counts | 11 R393 | 0, 0 -/
  t2 : Nat × Nat := (0, 0)
  /-- Tier-2 extents of the AUTO arrays while they are in tier 2. | counts | 08 R273 | 0, 0 -/
  autoT2 : Nat × Nat := (0, 0)
  /-- Tier-2 extents taken as the destination of a demotion. | counts | 08 R273 | 0, 0 -/
  migT2 : Nat × Nat := (0, 0)
  /-- Tier-1 buffer taken as the destination of a promotion. | option | 08 R273 | none -/
  migBuf : Option Nat := none
  /-- The model's number of its space, which tells its unwritten elements from another shard's. | the model's | 06 R200 | - -/
  alloc : Nat := 0
  /-- Grove of its tier-1 extents. | 2 | 06 R200 | - -/
  grove : Nat := 0
  /-- Activation history. | 64 | 08 R270 | 0 -/
  hist : Quad := 0
  /-- S. | 7 | 08 R270 | 0 -/
  steps : Nat := 0
  /-- AUTO arrays are in tier 2. | 1 | 08 R274 | 0 -/
  inTier2 : Bool := false
  /-- Migration state. | 2 | 08 R273 | STILL -/
  mig : MigSt := .still
  /-- The queued or running migration is a promotion. | 1 | 08 R273 | 0 -/
  promote : Bool := false
  /-- A write-bank request waits for a promotion to end. | 1 | 08 R273 | 0 -/
  migWait : Bool := false
  /-- Root port behind which tier-2 extents of some array of the shard are lost. | option 1 | 11 R395 | none -/
  lostTier2 : Option Nat := none
  deriving DecidableEq, Repr

/-- A gather-cache entry (06 R214). -/
structure CacheEnt where
  /-- Shard. -/
  shard : Nat
  /-- Version. -/
  version : Nat
  /-- The model's number of its pool extents. -/
  buf : Nat
  /-- Free-value key of the bank it was made from (log 3). -/
  key : Nat × Nat
  /-- Master array. -/
  master : SMap Quad
  /-- 16 MiB extents. -/
  extents : Nat
  /-- Pin counts of the entry: OPPINS, HELD. -/
  pins : Nat × Nat := (0, 0)
  deriving DecidableEq, Repr

/-- A layer record (07 R234). -/
structure LayerCfg where
  /-- KID. -/
  kid : Nat
  /-- LINEAR. -/
  linear : Bool
  /-- ROUND. -/
  round : Nat
  /-- FACT. -/
  fact : Nat
  /-- COLS. -/
  cols : Nat
  /-- F_BETA. -/
  beta : Quad
  /-- F_EPS. -/
  eps : Quad
  /-- OFFSET. -/
  offset : Nat
  /-- N0 to N5. -/
  counts : List Nat
  /-- STR0 to STR5. -/
  strides : List Int
  /-- C0 to C15. -/
  consts : List Quad
  deriving DecidableEq, Repr

/-- Update step states (07 R251). -/
inductive StepSt where
  | gradWait | normWait | running | done
  deriving DecidableEq, Repr

/-- What one grid cell of a gradient area gives to the sum of squares (02 R77). -/
structure SqCell where
  /-- The store reduction that wrote it. -/
  opnum : Nat
  /-- A + H of its segment. -/
  ah : Int
  /-- Some element has a special bit. -/
  special : Bool
  /-- Values and their unit's exponent. -/
  squares : List (Int × Int)
  deriving DecidableEq, Repr

/-- The sum-of-squares word of an update group (02 R77, 07 R245). -/
structure SumSq where
  /-- The 128-bit word. -/
  word : Nat := 0
  /-- A_N; none before any grid cell. -/
  an : Option Int := none
  /-- Grid cells whose values are not yet squared onto the grid, which the step's largest A + H fixes. -/
  cells : List SqCell := []
  /-- NONFINITE. -/
  nonfinite : Bool := false
  deriving DecidableEq, Repr

/-- The accepted step of an update group (07 R243, R250, R251). -/
structure Step where
  /-- State. | 2 | 07 R251 | GRAD_WAIT -/
  st : StepSt := .gradWait
  /-- STEP. | 32 | 07 R242 | - -/
  step : Nat
  /-- CLIPMODE GLOBAL. | 1 | 07 R242 | - -/
  global : Bool
  /-- RESUME. | 1 | 07 R242 | - -/
  resume : Bool
  /-- NF_POLICY. | 2 | 07 R242 | - -/
  policy : Nat
  /-- MAXNORM (FP32). | 32 | 07 R242 | - -/
  maxnorm : Word
  /-- HS0 to HS3 (FP32). | 4 x 32 | 07 R242 | - -/
  hs : List Word
  /-- CRC-64 of bytes 8 to 55 of its UPDATE_START. | 64 | 07 R246 | - -/
  sig : Quad
  /-- Latched layer configurations, by layer. | map | 07 R243 | - -/
  cfg : SMap LayerCfg
  /-- Shards of the step still to commit, ascending layer then shard. | list | 07 R249 | - -/
  left : List Nat
  /-- Shards committed, in the order of their commits. | list | 07 R250 | empty -/
  done : List Nat := []
  /-- Shards idle-committed. | count | 08 R271 | 0 -/
  idle : Nat := 0
  /-- A shard was abandoned. | 1 | 07 R251 | 0 -/
  abandoned : Bool := false
  /-- Accumulator sums of the layer in progress: FP64, ACC 0 to 3, and the layer. | 4 x 64 | 07 R231 | +0 -/
  acc : Option (Nat × List Quad) := none
  /-- Factors written by the factor pass, key shard * 8 + array: ROWF then COLF in the array's format, and MEANR. | map | 07 R240 | empty -/
  factors : SMap (List Quad × Quad) := []
  /-- Snapshot of the sum-of-squares word. | option | 07 R245 | none -/
  snap : Option SumSq := none
  /-- Factor and GNORM, FP64. | 2 x 64 | 07 R247 | 1.0, 0 -/
  factor : Quad × Quad := (0x3FF0000000000000, 0)
  /-- The RESULT said NONFINITE with SKIP. | 1 | 07 R248 | 0 -/
  skip : Bool := false
  /-- IDLE_SKIP when accepted. | 1 | 08 R269 | 0 -/
  idleSkip : Bool := false
  /-- Shards ACTIVE as the step entered RUNNING. | list | 08 R270 | empty -/
  active : List Nat := []
  /-- Events raised once. | list | 07 R251 | empty -/
  once : List (Nat × Nat) := []
  /-- Its UPDATE_START. | option | 07 R251 | none -/
  tok : Option Tok := none
  /-- Elapsed time of the entry to the present state. | the model's | 07 R251 | 0 -/
  since : Nat := 0
  deriving DecidableEq, Repr

/-- Norm collective of an update group at the canopy root (07 R246). -/
structure NormRoot where
  /-- CONTRIBs counted for the present STEP, by FIRST_SHARD: word, AN, NONFINITE, SHARDS, SIG. -/
  contribs : SMap (Nat × Int × Bool × Nat × Quad) := []
  /-- STEP being collected. -/
  step : Nat := 0
  /-- Last RESULT: STEP, word, AN, NONFINITE, MISMATCH. -/
  result : Option (Nat × Nat × Int × Bool × Bool) := none
  deriving DecidableEq, Repr

/-- A shard image arriving in a re-shard or a graft (06 R219, 09 R316). -/
structure ImgIn where
  /-- Bytes so far, block by block. -/
  bytes : List Byte := []
  /-- Next block. -/
  next : Nat := 0
  /-- Attempt. -/
  attempt : Nat := 1
  /-- Committed. -/
  done : Bool := false
  deriving DecidableEq, Repr

/-- A re-shard in progress (06 R217, R218). -/
structure Reshard where
  /-- In MOVING (else DRAINING). -/
  moving : Bool := false
  /-- EFFECTIVE_OPNUM. -/
  eff : Nat
  /-- New shard entries. -/
  shards : List ShardEnt
  /-- Outgoing shards not yet acknowledged OK. -/
  outgoing : List Nat
  /-- Outgoing shards acknowledged OK. -/
  moved : List Nat := []
  /-- Incoming images by shard. -/
  incoming : SMap ImgIn := []
  /-- Event 0x0407 raised. -/
  waited : Bool := false
  /-- Elapsed time of the entry to the state. -/
  since : Nat := 0
  deriving DecidableEq, Repr

/-- A parameter store attached to a context (06, 07, 08). -/
structure Store where
  /-- MFORMAT is FP64. | 1 | 06 R198 | - -/
  m64 : Bool
  /-- NSTATE. | 3 | 06 R198 | - -/
  nstate : Nat
  /-- SFMT by state array. | 4 x 4 | 06 R198 | - -/
  sfmt : List Nat
  /-- SPLACE by state array. | 4 x 2 | 06 R198 | - -/
  splace : List Nat
  /-- GPOST. | 1 | 06 R198 | - -/
  gpost : Bool
  /-- CACHE_MIB. | 32 | 06 R198 | - -/
  cacheMib : Nat
  /-- LSN of the next commit. | 64 | 06 R220 | 1 -/
  lsn : Nat := 1
  /-- Shards owned or mirrored. | map | 06 R199 | EMPTY -/
  shards : SMap Shard := []
  /-- Gather cache, oldest made first. | list | 06 R214 | empty -/
  cache : List CacheEnt := []
  /-- Layer configurations by LAYER. | map | 07 R233 | empty -/
  layers : SMap LayerCfg := []
  /-- Extent that holds the layer configurations, by the model's number. | - | 07 R233, 11 R370 | none -/
  layerBuf : Option Nat := none
  /-- Steps by UGROUP. | map | 07 R251 | empty -/
  steps : SMap Step := []
  /-- Sum-of-squares words by UGROUP. | map | 07 R245 | 0 -/
  words : SMap SumSq := []
  /-- Norm collectives by UGROUP, at the canopy root. | map | 07 R246 | empty -/
  norms : SMap NormRoot := []
  /-- IDLE_SKIP. | 1 | 08 R269 | 0 -/
  idleSkip : Bool := false
  /-- MIGRATE. | 1 | 08 R269 | 1 -/
  migrate : Bool := true
  /-- WINDOW. | 7 | 08 R269 | 64 -/
  window : Nat := 64
  /-- DEMOTE_MAX. | 7 | 08 R269 | 2 -/
  demoteMax : Nat := 2
  /-- PROMOTE_MIN. | 7 | 08 R269 | 8 -/
  promoteMin : Nat := 8
  /-- MIRROR_PORTs down: the owner continues alone until the next store reduction after their return. | list | 06 R197 | empty -/
  mirrorDown : List Nat := []
  /-- FIRST and COUNT of every shard, for RECOVER. | list | 06 R221 | - -/
  ranges : List (Nat × Nat) := []
  deriving DecidableEq, Repr

/-- Copy phase of a graft of one context (09 R313, R316). -/
inductive GraftCopySt where
  | idle | copying | ready | admitted
  deriving DecidableEq, Repr

/-- Graft copy of a context: at the admitted switch and at the source (09 R313 to R317). -/
structure GraftCtx where
  /-- State at the admitted switch. | 2 | 09 R313 | idle -/
  st : GraftCopySt := .idle
  /-- SOURCE_PORT. | 16 | 09 R316 | 0 -/
  src : Nat := 0
  /-- SCOPE. | 2 | 09 R316 | 0 -/
  scope : Nat := 0
  /-- FIRST_OPNUM. | 32 | 09 R316 | 0 -/
  firstOp : Nat := 0
  /-- Anchor run so far. | bytes | 09 R315 | empty -/
  anchorBytes : List Byte := []
  /-- Anchors installed. | 1 | 09 R316 | 0 -/
  anchorsDone : Bool := false
  /-- Shard images by shard. | map | 09 R316 | empty -/
  images : SMap ImgIn := []
  /-- STALE count. | count | 09 R328 | 0 -/
  stale : Nat := 0
  /-- Its GRAFT_COPY. | option | 09 R316 | none -/
  tok : Option Tok := none
  /-- At a source, by the requester's port: FIRST_OPNUM, the anchor table is owed, versions of shards held by a pin. | map | 09 R316 | empty -/
  serving : SMap (Nat × Bool × List (Nat × Nat)) := []
  /-- Elapsed time of the last cell. | the model's | 09 R313 | 0 -/
  last : Nat := 0
  deriving DecidableEq, Repr

/-- Arithmetic and static settings of a context (02 R43, 04 R120). -/
structure CtxCfg where
  /-- JOB. | 8 | 04 R120 | - -/
  job : Nat
  /-- CLASS: 0 DET-GRID, 1 DET-TREE, 2 FAST. | 2 | 04 R120 | - -/
  cls : Nat := 0
  /-- STREAMING. | 1 | 04 R120 | - -/
  streaming : Bool := false
  /-- OPEV. | 1 | 04 R120 | - -/
  opev : Bool := false
  /-- G in bits: 32, 64 or 128. | 2 | 04 R120 | - -/
  g : Nat := 64
  /-- OVF_POLICY is SATURATE. | 1 | 04 R120 | - -/
  saturate : Bool := false
  /-- ACC is FP64. | 1 | 04 R120 | - -/
  acc64 : Bool := false
  /-- DITHER. | 1 | 04 R120 | - -/
  dither : Bool := false
  /-- H. | 8 | 04 R120 | - -/
  h : Nat := 16
  /-- M. | 4 | 04 R120 | - -/
  m : Nat := 1
  /-- SEGLEN_LOG2. | 5 | 04 R120 | - -/
  seglenLog2 : Nat := 16
  /-- A0. | 16 | 04 R120 | - -/
  a0 : Int := 0
  /-- CHUNK_LOG2 in force. | 5 | 04 R120 | - -/
  chunkLog2 : Nat := 16
  /-- LATE_FRAMES in force. | 8 | 04 R120 | - -/
  lateFrames : Nat := 4
  /-- STALL_US in force. | 16 | 04 R120 | - -/
  stallUs : Nat := 1000
  /-- LOSS_MS in force. | 8 | 04 R120 | - -/
  lossMs : Nat := 10
  /-- EVQ. | 8 | 04 R120 | - -/
  evq : Nat := 0
  /-- DSEED. | 64 | 04 R120 | - -/
  dseed : Quad := 0
  /-- SLOTS. | 25 | 04 R120 | - -/
  slots : Nat := 65536
  /-- CHUNK_FLAG when enabled. | option 12 | 04 R120 | - -/
  chunkFlag : Option Nat := none
  /-- Contract minor version m of its CTX_CREATE. | 8 | 09 R280 | - -/
  minor : Nat := 2
  deriving DecidableEq, Repr

/-- Counters of R326 and R82, 64 bits each. -/
structure CtxCnt where
  /-- DUP. | 64 | 09 R326 | 0 -/
  dup : Quad := 0
  /-- REINJ_CELLS. | 64 | 09 R326 | 0 -/
  reinjCells : Quad := 0
  /-- RESULT_RESENT. | 64 | 09 R326 | 0 -/
  resultResent : Quad := 0
  /-- RET_UNRETAINED. | 64 | 09 R326 | 0 -/
  unretained : Quad := 0
  /-- SHADOW_CHECKS. | 64 | 09 R326 | 0 -/
  shadowChecks : Quad := 0
  /-- SHADOW_MISMATCH. | 64 | 09 R326 | 0 -/
  shadowMismatch : Quad := 0
  /-- BACKUP_DIVERGED. | 64 | 09 R326 | 0 -/
  backupDiverged : Quad := 0
  /-- PATH_DISTURB. | 64 | 09 R326 | 0 -/
  pathDisturb : Quad := 0
  /-- Saturated elements. | counter | 02 R82 | 0 (DESIGN CHOICE: 64 bits) -/
  saturated : Quad := 0
  deriving DecidableEq, Repr

/-- A CTX_RECANOPY not yet in effect (04 R130). -/
structure Recanopy where
  /-- EFFECTIVE_OPNUM. -/
  eff : Nat
  /-- New record. -/
  canopy : Canopy
  deriving DecidableEq, Repr

/-- Context x, ACTIVE or CLOSING (04 R122). A FREE context is absent. -/
structure Ctx where
  /-- Settings. -/
  cfg : CtxCfg
  /-- CLOSING (else ACTIVE). | 1 | 04 R122 | ACTIVE -/
  closing : Bool := false
  /-- CTX_DESTROYs that complete when the closing ends. | list | 04 R122 | empty -/
  destroys : List Tok := []
  /-- Canopy in force. | record | 04 R124 | - -/
  canopy : Canopy
  /-- CTX_RECANOPY pending. | option | 04 R130 | none -/
  recanopy : Option Recanopy := none
  /-- Next OPNUM not yet opened here. | 32 | 04 R133 | 0 -/
  nextOp : Nat := 0
  /-- Operations whose record is held, by OPNUM. | map | 04 R156 | empty -/
  ops : SMap Op := []
  /-- Slots in use, key OPNUM * 2^24 + grid cell. | map 640 B | 04 R142 | FREE -/
  slots : SMap Slot := []
  /-- Anchor table by segment. | map | 11 R368 | A0 -/
  anchors : SMap Anchor := []
  /-- Segments whose anchor entry both tier-1 copies have lost, with the OPNUM from which operations fail. | map 32 | 11 R389 | empty -/
  anchorLost : SMap Nat := []
  /-- Numbers of the anchor-table buffers drawn. | list | 11 R368 | empty -/
  anchorBufs : List Nat := []
  /-- STORE_GATHERs of operations not yet opened, by OPNUM. | map | 06 R212 | empty -/
  gathers : SMap GatherReq := []
  /-- JOINs held for a later epoch, canopy or graft: port and cell. | list | 04 R130, R131 | empty -/
  heldJoins : List (Nat × Cell) := []
  /-- Cells of operations from a re-shard's E onward, held in staging: port and cell. | list | 06 R218 | empty -/
  heldCells : List (Nat × Cell) := []
  /-- Shard entries of the last layout epoch, by which acknowledgements of moves travel. | list | 06 R219 | empty -/
  oldShards : List ShardEnt := []
  /-- LEPOCH and the EFFECTIVE_OPNUM at which each epoch began, newest first. | 32 + list | 06 R215 | 0 -/
  lepochs : List (Nat × Nat) := [(0, 0)]
  /-- Active tile list of the context, logical numbers. | list | 01 R22, R26 | as at creation -/
  tiles : List Nat := []
  /-- Logical tiles of the list that left service with no spare since the layout epoch began. | list | 01 R26 | empty -/
  lost : List Nat := []
  /-- Q_UP, Q_DN, Q_X as FRAME_QUOTA set them. | 3 x 16 | 05 R181 | 0 -/
  quota : Nat × Nat × Nat := (0, 0, 0)
  /-- Quotas that take effect at the next tick. | option | 05 R181 | none -/
  quotaNext : Option (Nat × (Nat × Nat × Nat)) := none
  /-- SRANK. | 8 | 05 R181 | 255 -/
  srank : Nat := 255
  /-- RFORM.SPARSE. | 1 | 08 R265 | 0 -/
  sparse : Bool := false
  /-- RELEASE_BELOW last sent by this root. | 32 | 09 R286 | 0 -/
  releaseBelow : Nat := 0
  /-- RELEASE_BELOW of the last accepted STEP_ACK. | 32 | 09 R327 | 0 -/
  stepAck : Nat := 0
  /-- RELEASE_BELOW has advanced since the last RELEASE. | 1 | 09 R286 | 0 -/
  releaseDue : Bool := false
  /-- Counters. -/
  cnt : CtxCnt := ({} : CtxCnt)
  /-- Digests of the last operations, by OPNUM; each key kind * 65,536 + port or LAYER. | map | 09 R297, R298 | empty -/
  digests : SMap (SMap Digest) := []
  /-- Parameter store. | option | 06 R192 | none -/
  store : Option Store := none
  /-- Re-shard in progress. | option | 06 R218 | none -/
  reshard : Option Reshard := none
  /-- Graft copy. | - | 09 R313 | idle -/
  graft : GraftCtx := ({} : GraftCtx)
  /-- Seedling: a member port entered or left UP and the rebinding is due. | 1 | 04 R158 | 0 -/
  changePending : Bool := false
  /-- Canopy ports whose path is disturbed, with the elapsed time of the disturbance. | map | 09 R293 | empty -/
  disturbed : SMap Nat := []
  /-- Canopy ports that have been out of UP, or whose path has been disturbed, for LOSS_MS (log 99). | list 9 | 04 R153, 09 R293 | empty -/
  gone : List Nat := []
  /-- Cells toward a canopy port whose path is disturbed: logical port and item, oldest first. | list | 10 R349, 09 R293 | empty -/
  waiting : List (Nat × TxItem) := []
  /-- Slot places reserved, by logical tile: SRAM places and tier-1 places. | map | 11 R367 | - -/
  places : SMap (Nat × Nat) := []
  deriving DecidableEq, Repr

/-! ### Time (05) -/

/-- Synchronisation states (05 R166). -/
inductive SyncSt where
  | freeRun | acquire | locked | holdover
  deriving DecidableEq, Repr

/-- An in-band candidate (05 R165). -/
structure Announce where
  /-- SOURCE_ID. -/
  sourceId : Quad
  /-- SOURCE_CLASS. -/
  cls : Nat
  /-- PRIORITY. -/
  prio : Nat
  /-- STEPS. -/
  steps : Nat
  /-- Elapsed time of its last ANNOUNCE. -/
  at_ : Nat
  deriving DecidableEq, Repr

/-- Where time is taken from (05 R164, R165). -/
inductive TimeSrc where
  | self | input | port (n : Nat)
  deriving DecidableEq, Repr

/-- Global time and frames (05). -/
structure Time where
  /-- GTC, ns. | 64 | 05 R160 | 0 (14 R479: starts at 0) -/
  gtc : Quad := 0
  /-- Fraction of the GTC in sixteenths. | 4 | 05 R160 | 0 -/
  frac : Nat := 0
  /-- Local elapsed-time counter, ns. | counter | 05 R163 | 0 (DESIGN CHOICE) -/
  elapsed : Nat := 0
  /-- Offset still to be slewed out, sixteenths of a ns. | signed | 05 R167 | 0 -/
  slew : Int := 0
  /-- PERIOD_LOG2. | 4 | 05 R190 | 11 -/
  period : Nat := 11
  /-- ACTIVE_LOG2. | 4 | 05 R190 | 11 -/
  active : Nat := 11
  /-- SYNC_LOG2. | 5 | 05 R190 | 16 -/
  syncLog2 : Nat := 16
  /-- PRIORITY. | 8 | 05 R190 | 128 -/
  prio : Nat := 128
  /-- DOMAIN. | 8 | 05 R190 | 0 -/
  domain : Nat := 0
  /-- OUT_ENABLE. | 1 | 05 R190 | 1 -/
  outEnable : Bool := true
  /-- SOURCE. | 2 | 05 R190 | 0 -/
  source : Nat := 0
  /-- TIME_IN_DELAY. | 24 | 05 R190 | 0 -/
  inDelay : Nat := 0
  /-- TIME_LAUNCH_LEAD. | 16 | 05 R190 | 1,000 -/
  lead : Nat := 1000
  /-- SCHED_MAX. | 7 | 05 R190 | 48 -/
  schedMax : Nat := 48
  /-- TIME_OVERRUN_COUNT. | 32 | 05 R190 | 0 -/
  overruns : Word := 0
  /-- TIME_DEFER_COUNT. | 32 | 05 R190 | 0 -/
  defers : Word := 0
  /-- TIME_LATE_LAUNCH_COUNT. | 32 | 05 R190 | 0 -/
  lateLaunches : Word := 0
  /-- TIME_STEP_COUNT. | 32 | 05 R190 | 0 -/
  steps : Word := 0
  /-- TIME_OFFSET, sixteenths. | 32 | 05 R190 | 0 -/
  offset : Int := 0
  /-- GTC of the last frame tick, or of a later step. | option 64 | 05 R167, R177 | none -/
  lastTick : Option Quad := none
  /-- The value to which the GTC was last stepped. | option 64 | 05 R167 | none -/
  stepTo : Option Quad := none
  /-- GTC of the last accepted write of PERIOD_LOG2. | option 64 | 05 R178 | none -/
  periodAt : Option Quad := none
  /-- Frequency correction of the servo, ppm, and the sixteenths of a nanosecond it has gathered, in millionths. | signed | 05 R160, R166 | 0, 0 -/
  freq : Int × Int := (0, 0)
  deriving DecidableEq, Repr

/-- Synchronisation (05 R164 to R175). -/
structure Sync where
  /-- TIME_SYNC_STATUS.STATE. | 2 | 05 R190 | 0 FREE_RUN -/
  state : SyncSt := .freeRun
  /-- SOURCE_KIND and SOURCE_PORT. | 2 + 12 | 05 R190 | self -/
  src : TimeSrc := .self
  /-- Consecutive offsets within 4 ns. | count | 05 R166 | 0 -/
  good : Nat := 0
  /-- Consecutive offsets beyond 1,000 ns in LOCKED. | count | 05 R166 | 0 -/
  bad : Nat := 0
  /-- Elapsed time of the entry to HOLDOVER. | the model's | 05 R166 | 0 -/
  holdAt : Nat := 0
  /-- Timing input valid. | 1 | 05 R171 | 0 -/
  inValid : Bool := false
  /-- Consecutive good messages. | count | 05 R171 | 0 -/
  inGood : Nat := 0
  /-- Consecutive messages not good. | count | 05 R171 | 0 -/
  inBad : Nat := 0
  /-- GTC_AT_MARK of the last good message. | option 64 | 05 R171 | none -/
  inLast : Option Quad := none
  /-- Candidates by port. | map | 05 R165 | empty -/
  ann : SMap Announce := []
  /-- Next SEQID of SYNC by port. | map 16 | 05 R174 | 0 -/
  syncSeq : SMap Nat := []
  /-- Next SEQID of ANNOUNCE by port. | map 16 | 05 R174 | 0 -/
  annSeq : SMap Nat := []
  /-- Next SEQID of DELAY_REQ by port. | map 16 | 05 R174 | 0 -/
  reqSeq : SMap Nat := []
  /-- SYNC intervals begun, for every sixteenth. | count | 05 R175 | 0 -/
  intervals : Nat := 0
  /-- t1 and t2 of the last SYNC, sixteenths. | option | 05 R175 | none -/
  t12 : Option (Int × Int) := none
  /-- DELAY_REQ outstanding: SEQID, t3 in sixteenths. | option | 05 R175 | none -/
  req : Option (Half × Int) := none
  /-- Twice the delay of the last complete pairs, sixteenths, newest first, at most 16. | list | 05 R175 | empty -/
  pairs : List Int := []
  deriving DecidableEq, Repr

/-! ### Fabric routing (10) -/

/-- A RANK entry (10 R335). -/
structure RankEnt where
  /-- JOB. -/
  job : Nat
  /-- RANK_FIRST. -/
  first : Nat
  /-- RANK_LAST. -/
  last : Nat
  /-- CAND0 to CAND3, none for 0xFFFF. -/
  cands : List (Option Nat)
  deriving DecidableEq, Repr

/-- An MCAST entry (10 R335). -/
structure McastEnt where
  /-- JOB. -/
  job : Nat
  /-- MASK. -/
  mask : BitVec 512
  deriving DecidableEq, Repr

/-- A TRANSIT entry (10 R335). -/
structure TransitEnt where
  /-- CTX. -/
  ctx : Nat
  /-- PORT_DN. -/
  dn : Nat
  /-- PORT_UP. -/
  up : Nat
  deriving DecidableEq, Repr

/-- An EDGE entry (10 R335). -/
structure EdgeEnt where
  /-- CTX. -/
  ctx : Nat
  /-- LPORT. -/
  lport : Nat
  /-- PPORT. -/
  pport : Nat
  deriving DecidableEq, Repr

/-- A PORT_RANK entry (10 R332, R335). -/
structure PortRank where
  /-- RANK_OUT. -/
  out : Nat := 1
  /-- RANK_IN. -/
  inn : Nat := 1
  /-- DL_OUT. -/
  dlOut : Bool := false
  /-- DL_IN. -/
  dlIn : Bool := false
  deriving DecidableEq, Repr

/-- States of a route version (10 R345). -/
inductive VerSt where
  | standby | armed | active | draining
  deriving DecidableEq, Repr

/-- One route version (10 R334, R345). -/
structure RouteVer where
  /-- State. | 2 | 10 R345, 18 R548 | version 0 ACTIVE, version 1 STANDBY -/
  st : VerSt := .standby
  /-- RANK, key JOB * 65,536 + RANK_FIRST. | 16,384 x 16 B | 10 R334 | empty -/
  rank : SMap RankEnt := []
  /-- MCAST by group. | 1,024 x 72 B | 10 R334 | empty -/
  mcast : SMap McastEnt := []
  /-- TRANSIT, key CTX * 65,536 + PORT_DN. | 16,384 x 8 B | 10 R334 | empty -/
  transit : SMap TransitEnt := []
  /-- EDGE, key CTX * 65,536 + LPORT. | 16,384 x 8 B | 10 R334 | empty -/
  edge : SMap EdgeEnt := []
  deriving DecidableEq, Repr

/-- An EPOCH_FLIP or EPOCH cell waiting for its instant (10 R346, R351). -/
structure PendingFlip where
  /-- GEN. -/
  gen : Nat
  /-- Instant. -/
  at_ : Quad
  /-- NOPROP. -/
  noprop : Bool
  /-- CAUSE LOSS. -/
  loss : Bool
  /-- LOST_ID. -/
  lostId : Quad
  /-- Port of the EPOCH cell, 0xFFFF for an EPOCH_FLIP. -/
  src : Nat
  /-- The EPOCH_FLIP to complete. -/
  tok : Option Tok
  deriving DecidableEq, Repr

/-- Fabric state (10). -/
structure Fabric where
  /-- Version 0. -/
  v0 : RouteVer := { st := .active }
  /-- Version 1. -/
  v1 : RouteVer := ({} : RouteVer)
  /-- Port rank table. | 512 x 8 B | 10 R332 | ranks 1, no dateline (DESIGN CHOICE) -/
  ranks : SMap PortRank := []
  /-- Current epoch. | 1 | 10 R345 | 0 -/
  epoch : Nat := 0
  /-- ROUTE_GEN. | 32 | 10 R345 | 0 -/
  gen : Nat := 0
  /-- GEN of the ARMED version. | 32 | 18 R547 | 0 -/
  armedGen : Nat := 0
  /-- Trigger mask. | 512 | 10 R345 | 0 -/
  trigger : BitVec 512 := 0
  /-- Flip waiting for its instant. | option | 10 R346 | none -/
  flip : Option PendingFlip := none
  /-- GENs adopted by a flip: version, CAUSE, LOST_ID, trigger port or source. | map | 10 R345, R351 | empty -/
  adopted : SMap (Nat × Nat × Quad × Nat) := []
  /-- Number of the next multicast cell's buffer. | the model's | 10 R342 | 0 -/
  fanNext : Nat := 0
  /-- Jobs with ADAPTIVE. | 256 | 10 R343 | 0 (DESIGN CHOICE) -/
  adaptive : BitVec 256 := 0
  /-- CE_THRESH. | 16 | 10 R363 | 256 -/
  ceThresh : Nat := 256
  /-- ECHO_GAP_NS. | 16 | 10 R363 | 1,024 -/
  echoGap : Nat := 1024
  /-- RAISE_US. | 16 | 10 R363 | 8 -/
  raiseUs : Nat := 8
  /-- FWD_STALL_US. | 16 | 10 R363 | 500 -/
  fwdStallUs : Nat := 500
  /-- DRAIN_US. | 16 | 10 R363 | 100 -/
  drainUs : Nat := 100
  /-- BE_QUANTUM. | 8 | 10 R363 | 64 -/
  beQuantum : Nat := 64
  /-- PACE_ALL. | 1 | 10 R363 | 0 -/
  paceAll : Bool := false
  /-- SPILL_MIB. | 32 | 10 R363 | 1,024 -/
  spillMib : Nat := 1024
  deriving DecidableEq, Repr

/-! ### Recovery (09), kernels (07), tiers (11) -/

/-- A shadow log entry (09 R305), 32 bytes. -/
structure ShadowEnt where
  /-- The 32 bytes. -/
  bytes : BitVec 256
  deriving DecidableEq, Repr

/-- States of the test part of a graft (09 R313). -/
inductive GraftSt where
  | new | selfTest | linkTest | vectors | tested | failed
  deriving DecidableEq, Repr

/-- Link counters of a tested port when LINK_TEST began (09 R314). -/
structure LinkBase where
  /-- CRC, uncorrectable, replay counts; codewords and corrected symbols. -/
  crc : Word
  /-- PORT_FEC_UNCORR. -/
  unc : Word
  /-- PORT_REPLAY. -/
  rep : Word
  /-- PORT_FEC_CW. -/
  cw : Quad
  /-- PORT_FEC_SYM. -/
  sym : Quad
  deriving DecidableEq, Repr

/-- Graft test of the switch (09 R313, R314). -/
structure Graft where
  /-- State. | 3 | 09 R313 | NEW -/
  st : GraftSt := .new
  /-- PARTNER_PORT. | 16 | 09 R314 | 0 -/
  partner : Nat := 0
  /-- LINK_MS in force. | 8 | 09 R314 | 0 -/
  linkMs : Nat := 0
  /-- VSEED. | 64 | 09 R314 | 0 -/
  vseed : Quad := 0
  /-- Ports to test. | 512 | 09 R314 | 0 -/
  mask : BitVec 512 := 0
  /-- Counters at the start of LINK_TEST. | map | 09 R314 | empty -/
  base : SMap LinkBase := []
  /-- Own vector digest. | option 64 | 09 R314 | none -/
  own : Option Quad := none
  /-- Partner's vector digest. | option 64 | 09 R314 | none -/
  peer : Option Quad := none
  /-- VSEEDs already run for a partner, by port. | map 64 | 09 R314 | empty -/
  ran : SMap Quad := []
  /-- Its GRAFT_TEST. | option | 09 R313 | none -/
  tok : Option Tok := none
  deriving DecidableEq, Repr

/-- A DIGEST_COMPARE in progress (09 R300). -/
structure Compare where
  /-- CTX. -/
  ctx : Nat
  /-- OPNUM. -/
  opnum : Nat
  /-- Ports asked. -/
  ports : List Nat
  /-- Answers: port * 16 + kind to (digest, cells, held). -/
  answers : SMap (Quad × Nat × Bool)
  /-- Its descriptor. -/
  tok : Tok
  deriving DecidableEq, Repr

/-- Recovery settings and logs (09). -/
structure Rec where
  /-- SHADOW_LOG2. | 8 | 09 R325 | 8 -/
  shadowLog2 : Nat := 8
  /-- QUAR_COUNT. | 8 | 09 R325 | 3 -/
  quarCount : Nat := 3
  /-- QUAR_WINDOW, s. | 16 | 09 R325 | 1,000 -/
  quarWindow : Nat := 1000
  /-- DIGEST_DEPTH. | 8 | 09 R325 | 16 -/
  digestDepth : Nat := 16
  /-- RETAIN. | 1 | 09 R325 | 1 -/
  retain : Bool := true
  /-- AUTO_QUARANTINE. | 1 | 09 R325 | 1 -/
  autoQuar : Bool := true
  /-- RET_MIB. | 32 | 09 R325 | 4,096 -/
  retMib : Nat := 4096
  /-- Shadow log, newest first, at most 4,096 entries. | 4096 x 256 | 09 R305 | empty -/
  log : List ShadowEnt := []
  /-- Physical tiles outvoted since the last frame tick. | list | 09 R304, R307 | empty -/
  outvoted : List Nat := []
  /-- Graft test. -/
  graft : Graft := ({} : Graft)
  /-- DIGEST_COMPAREs in progress. | list | 09 R300 | empty -/
  compares : List Compare := []
  /-- Stores recovered after a warm reset, by old context number. | map | 06 R221 | empty -/
  stores : SMap Store := []
  /-- Retained anchor tables, by old context number. | map | 09 R309 | empty -/
  anchors : SMap (SMap Anchor) := []
  deriving DecidableEq, Repr

/-- A kernel table entry (07 R227, R233). -/
structure Kernel where
  /-- Job it belongs to. -/
  job : Nat
  /-- PREC is FP64. -/
  fp64 : Bool
  /-- PRE section. -/
  pre : List Word
  /-- MAIN section. -/
  main : List Word
  deriving DecidableEq, Repr

/-- What the switch sends to the outside. -/
inductive Out where
  /-- A host-memory write with the requester ID of `func` (12 R402). -/
  | hostWrite (func : Nat) (addr : Quad) (bytes : List Byte)
  /-- An MSI-X message (12 R426). -/
  | msix (func vector : Nat)
  /-- A link frame (03 R88). -/
  | frame (port : Nat) (f : Frame)
  /-- A training frame's control and status words (13 R445). -/
  | training (lane : Nat) (control status : Word)
  /-- A timing message (05 R170). -/
  | timing (msg : BitVec 128)
  /-- A reply on a management path: `bmc` I3C, else PCIe (16 R525). -/
  | reply (bmc : Bool) (bytes : List Byte)
  /-- Completion of a register read: requester and the bytes from the offset on (18 R541). -/
  | regRead (requester : Nat) (offset : Nat) (bytes : List Byte)
  /-- FEC symbols corrupted on a lane in one codeword (13 R456). -/
  | corrupt (lane symbols : Nat)
  deriving DecidableEq, Repr

/-- The switch: everything but the fuses and the queue of commands. -/
structure Sw where
  /-- GLB registers, reset controller and pins. -/
  glb : Glb := ({} : Glb)
  /-- Power and thermal. -/
  pwr : Pwr := ({} : Pwr)
  /-- Wear. -/
  wear : WearBlk := ({} : WearBlk)
  /-- Root of trust and management. -/
  sec : Sec := ({} : Sec)
  /-- Time and frames. -/
  time : Time := ({} : Time)
  /-- Synchronisation. -/
  sync : Sync := ({} : Sync)
  /-- Host interface. -/
  host : HostIf := ({} : HostIf)
  /-- Ports 0 to 511. | map | 03 R83 | every port at its reset -/
  ports : SMap Port := []
  /-- Four-lane ports 0 to 127. | map | 03 R83 | every entry at its reset -/
  quads : SMap QuadPort := []
  /-- Lanes 0 to 511. | map | 13 R462 | every lane at its reset -/
  lanes : SMap Lane := []
  /-- Engines 0 to 31. | map | 13 R463 | every engine at its reset -/
  engines : SMap Engine := []
  /-- Laser sites 0 to 15. | map | 13 R463 | every site at its reset -/
  sites : SMap Site := []
  /-- Physical tiles 0 to 143. | map | 18 R550 | as shipped -/
  tiles : SMap Tile := []
  /-- Logical tiles being taken over, with the physical tile that takes each over. | map | 01 R21 | empty -/
  takeovers : SMap Nat := []
  /-- Stacks 0 to 23. | map | 11 R396 | every stack at its reset -/
  hbm : SMap Stack := []
  /-- CXL root ports 0 and 1. | map | 11 R397 | every port at its reset -/
  cxl : SMap Cxl := []
  /-- CXL_HOLD_MS. | 16 | 11 R397 | 100 -/
  cxlHoldMs : Nat := 100
  /-- Tier-2 generation, non-volatile. | 64 | 11 R393, R397 | 0 (DESIGN CHOICE) -/
  cxlGen : Quad := 0
  /-- Buffer pools. -/
  pool : Pool := ({} : Pool)
  /-- Channels C in the interleave of each grove. | 4 x 6 | 11 R377, R384 | 32 (DESIGN CHOICE, live) -/
  groveC : List Nat := [32, 32, 32, 32]
  /-- Contexts, ACTIVE or CLOSING. | map | 04 R122 | context 0 -/
  ctxs : SMap Ctx := []
  /-- Fabric routing. -/
  fab : Fabric := ({} : Fabric)
  /-- Recovery. -/
  rcv : Rec := ({} : Rec)
  /-- Kernel table 0 to 255. | map | 07 R233 | empty -/
  kernels : SMap Kernel := []
  /-- Migration queues by grove: (context, shard), head first. | lists | 08 R273 | empty -/
  migQueues : SMap (List (Nat × Nat)) := []
  /-- Outputs, newest last. | the model's | - | empty -/
  outs : List Out := []
  /-- Free values drawn so far. | the model's | - | 0 (DESIGN CHOICE) -/
  freeCtr : Nat := 0
  deriving DecidableEq, Repr


/-- The machine: the switch, its fuses, and the commands that wait, oldest first. -/
structure State where
  /-- The switch. -/
  sw : Sw := ({} : Sw)
  /-- Fuses of the root of trust: they change in one direction only (16 R504). -/
  fuses : Fuses := ({} : Fuses)
  /-- Commands waiting, first in, first out. | list | the block form of this model | empty -/
  pending : List Instr := []
  deriving DecidableEq, Repr

/-- The machine right after a cold reset, rails up, ROOT_OF_TRUST about to run (14 R478). Job 0 is SEEDLING (12 R407);
context 0 comes with the last start-up stage. Units absent from a map read as their own reset value. -/
def State.reset : State where
  sw :=
    { host := { jobs := [(0, { state := .seedling, implicitMap := true })] }
      sec := { nonce := Config.freeQuad 0 }
      freeCtr := 1 }
  fuses := ({} : Fuses)
  pending := []

/-- Reasons for a fault. No command of this block faults: the spec describes a response to each.
The one constructor names what a fault would mean. -/
inductive Fault where
  /-- Raised by no meaning (safe: a machine that never faults hides no stop). -/
  | impossible
  deriving DecidableEq, Repr

/-- Reasons for a refusal. -/
inductive Refusal where
  /-- A command whose meaning is not modelled yet (safe: the run ends). -/
  | notModelled (mnemonic : String)
  deriving DecidableEq, Repr

end Sys2Proof.Machine
end

