-- ==== Sys2Proof/Machine/Ops.lean ====
section
/-! DEFINITION. The named operations over the state: reading and changing ports, lanes, tiles, contexts, operations,
queues and rings, with the reset value of a unit that nothing has touched; the outcome of a command. -/
namespace Sys2Proof.Machine

/-- The outcome of a command. -/
abbrev Res := Host.Outcome State Fault Refusal

/-- The outcome of a command that acts on the switch: the fuses and the waiting commands stand. -/
def lift (f : Sw → Sw) (s : State) : Res := .next { s with sw := f s.sw }

/-- Apply a change when a condition holds. -/
def onlyIf (c : Bool) (f : Sw → Sw) (s : Sw) : Sw := if c then f s else s

/-- Apply one change after another over a list. -/
def each {α : Type} (l : List α) (f : α → Sw → Sw) (s : Sw) : Sw := l.foldl (fun a x => f x a) s

/-- The first check that holds decides (R416). -/
def firstFail : List (Bool × Nat) → Option Nat
  | [] => none
  | (b, st) :: rest => if b then some st else firstFail rest

/-! ### Status codes (12 R414) -/

/-- OK. -/
def stOk : Nat := 0x00
/-- ALREADY_DONE. -/
def stDone : Nat := 0x01
/-- ABORTED. -/
def stAborted : Nat := 0x02
/-- MISMATCH. -/
def stMismatch : Nat := 0x03
/-- VERSION_GONE. -/
def stGone : Nat := 0x04
/-- TIMEOUT. -/
def stTimeout : Nat := 0x05
/-- MEMBER_LOST. -/
def stLost : Nat := 0x06
/-- OVERFLOW. -/
def stOverflow : Nat := 0x07
/-- DENIED. -/
def stDenied : Nat := 0x08
/-- NO_RESOURCE. -/
def stNoRes : Nat := 0x09
/-- BAD_DESCRIPTOR. -/
def stBad : Nat := 0x0A
/-- EPOCH_STALE. -/
def stStale : Nat := 0x0B
/-- CONTRACT_VERSION. -/
def stContract : Nat := 0x0C

/-! ### Variant (00 R2 to R4; 01 R14) -/

/-- Four-lane port q is active on this variant (00 R3). -/
def Sw.quadActive (s : Sw) (q : Nat) : Bool := decide (q < 128) && (s.glb.variant == 0 || decide (q % 32 < 16))

/-- Port n belongs to an active four-lane port. -/
def Sw.portActive (s : Sw) (n : Nat) : Bool := decide (n < 512) && s.quadActive (n / 4)

/-- Active four-lane ports. -/
def Sw.ports4L (s : Sw) : Nat := if s.glb.variant = 0 then 128 else 64

/-- Children a context may name (00 R2). -/
def Sw.maxChildren (s : Sw) : Nat := if s.glb.variant = 0 then 512 else 256

/-- Stack k is populated: on the YP5-102C the first three of each grove (00 R3; which three: DESIGN CHOICE, log 8). -/
def Sw.stackPopulated (s : Sw) (k : Nat) : Bool := decide (k < 24) && (s.glb.variant == 0 || decide (k % 6 < 3))

/-- The role a physical tile ships with (01 R14; which sites: DESIGN CHOICE, log 7). -/
def shippedTile (variant p : Nat) : Tile :=
  let g := p / 36
  let site := p % 36
  let act := if variant = 0 then 32 else 16
  if site < act then { role := .active, logical := some (32 * g + site) }
  else if site < act + 4 then { role := .spare }
  else { role := .fused, selfTest := false }

/-! ### Units and their reset values -/

/-- Port n as reset leaves it (03 R86; 18 R555). -/
def portReset (active : Bool) (n : Nat) : Port :=
  if active then { reg := { lanes := (n % 4, 1) } }
  else { reg := { lanes := (n % 4, 1), state := .absent, allow := 7 }, link := { txOn := false } }

/-- Port n. -/
def Sw.port (s : Sw) (n : Nat) : Port := s.ports.getD n (portReset (s.portActive n) n)

/-- Change port n. An inactive port keeps its reset values (18 R555). -/
def Sw.modPort (n : Nat) (f : Port → Port) (s : Sw) : Sw :=
  if s.portActive n then { s with ports := s.ports.set n (f (s.port n)) } else s

/-- Change the registers of port n. -/
def Sw.modReg (n : Nat) (f : PortReg → PortReg) (s : Sw) : Sw := s.modPort n (fun p => { p with reg := f p.reg })
/-- Set the binding of port n. -/
def Sw.setBinding (n : Nat) (b : Option Binding) (s : Sw) : Sw := s.modReg n (fun r => { r with binding := b })
/-- Write member context m of port n into its context map: it stands for context x of the switch. -/
def Sw.mapEntry (n m x : Nat) (s : Sw) : Sw := s.modReg n (fun r => { r with ctxMap := r.ctxMap.set m x })
/-- Change the counters of port n. -/
def Sw.modCnt (n : Nat) (f : PortCnt → PortCnt) (s : Sw) : Sw := s.modPort n (fun p => { p with cnt := f p.cnt })
/-- Change the link layer of port n. -/
def Sw.modLink (n : Nat) (f : PortLink → PortLink) (s : Sw) : Sw := s.modPort n (fun p => { p with link := f p.link })
/-- Change the queues of port n. -/
def Sw.modQ (n : Nat) (f : PortQ → PortQ) (s : Sw) : Sw := s.modPort n (fun p => { p with q := f p.q })
/-- Change the link encryption of port n. -/
def Sw.modPSec (n : Nat) (f : PortSec → PortSec) (s : Sw) : Sw := s.modPort n (fun p => { p with sec := f p.sec })

/-- Four-lane port q. -/
def Sw.quad (s : Sw) (q : Nat) : QuadPort := s.quads.getD q {}
/-- Change four-lane port q. -/
def Sw.modQuad (q : Nat) (f : QuadPort → QuadPort) (s : Sw) : Sw := { s with quads := s.quads.set q (f (s.quad q)) }

/-- Lane l. -/
def Sw.lane (s : Sw) (l : Nat) : Lane := s.lanes.getD l {}
/-- Change lane l. -/
def Sw.modLane (l : Nat) (f : Lane → Lane) (s : Sw) : Sw := { s with lanes := s.lanes.set l (f (s.lane l)) }
/-- Change the test state of lane l. -/
def Sw.modTest (l : Nat) (f : LaneTest → LaneTest) (s : Sw) : Sw := s.modLane l (fun x => { x with test := f x.test })

/-- Engine e. -/
def Sw.engine (s : Sw) (e : Nat) : Engine := s.engines.getD e {}
/-- Change engine e. -/
def Sw.modEngine (e : Nat) (f : Engine → Engine) (s : Sw) : Sw := { s with engines := s.engines.set e (f (s.engine e)) }

/-- Laser site m. -/
def Sw.site (s : Sw) (m : Nat) : Site := s.sites.getD m {}
/-- Change laser site m. -/
def Sw.modSite (m : Nat) (f : Site → Site) (s : Sw) : Sw := { s with sites := s.sites.set m (f (s.site m)) }

/-- Physical tile p. -/
def Sw.tile (s : Sw) (p : Nat) : Tile := s.tiles.getD p (shippedTile s.glb.variant p)
/-- Change physical tile p. -/
def Sw.modTile (p : Nat) (f : Tile → Tile) (s : Sw) : Sw := { s with tiles := s.tiles.set p (f (s.tile p)) }

/-- Stack k as reset leaves it. -/
def stackReset (populated : Bool) : Stack := if populated then {} else { state := .absent }
/-- Stack k. -/
def Sw.stack (s : Sw) (k : Nat) : Stack := s.hbm.getD k (stackReset (s.stackPopulated k))
/-- Change stack k. -/
def Sw.modStack (k : Nat) (f : Stack → Stack) (s : Sw) : Sw := { s with hbm := s.hbm.set k (f (s.stack k)) }

/-- CXL root port p. -/
def Sw.root (s : Sw) (p : Nat) : Cxl := s.cxl.getD p {}
/-- Change CXL root port p. -/
def Sw.modRoot (p : Nat) (f : Cxl → Cxl) (s : Sw) : Sw := { s with cxl := s.cxl.set p (f (s.root p)) }

/-- Submission ring n. -/
def Sw.ring (s : Sw) (n : Nat) : Ring := s.host.rings.getD n {}
/-- Event queue q. -/
def Sw.evq (s : Sw) (q : Nat) : Evq := s.host.evqs.getD q {}
/-- Job j. -/
def Sw.job (s : Sw) (j : Nat) : Job := s.host.jobs.getD j {}
/-- Device flag f. -/
def Sw.flag (s : Sw) (f : Nat) : Word := s.host.flags.getD f 0

/-- Change the host interface. -/
def Sw.modHost (f : HostIf → HostIf) (s : Sw) : Sw := { s with host := f s.host }
/-- Change submission ring n. -/
def Sw.modRing (n : Nat) (f : Ring → Ring) (s : Sw) : Sw :=
  s.modHost (fun h => { h with rings := h.rings.set n (f (s.ring n)) })
/-- Change event queue q. -/
def Sw.modEvq (q : Nat) (f : Evq → Evq) (s : Sw) : Sw :=
  s.modHost (fun h => { h with evqs := h.evqs.set q (f (s.evq q)) })
/-- Change job j. -/
def Sw.modJob (j : Nat) (f : Job → Job) (s : Sw) : Sw :=
  s.modHost (fun h => { h with jobs := h.jobs.set j (f (s.job j)) })

/-- Change the GLB block and the reset controller. -/
def Sw.modGlb (f : Glb → Glb) (s : Sw) : Sw := { s with glb := f s.glb }
/-- Change the power block. -/
def Sw.modPwr (f : Pwr → Pwr) (s : Sw) : Sw := { s with pwr := f s.pwr }
/-- Change the security block. -/
def Sw.modSec (f : Sec → Sec) (s : Sw) : Sw := { s with sec := f s.sec }
/-- Change the time block. -/
def Sw.modTime (f : Time → Time) (s : Sw) : Sw := { s with time := f s.time }
/-- Change the synchronisation state. -/
def Sw.modSync (f : Sync → Sync) (s : Sw) : Sw := { s with sync := f s.sync }
/-- Change the fabric state. -/
def Sw.modFab (f : Fabric → Fabric) (s : Sw) : Sw := { s with fab := f s.fab }
/-- Change the recovery state. -/
def Sw.modRec (f : Rec → Rec) (s : Sw) : Sw := { s with rcv := f s.rcv }
/-- Change the pools. -/
def Sw.modPool (f : Pool → Pool) (s : Sw) : Sw := { s with pool := f s.pool }
/-- Change the wear block. -/
def Sw.modWear (f : WearBlk → WearBlk) (s : Sw) : Sw := { s with wear := f s.wear }

/-- Change the contexts held. -/
def Sw.modCtxs (f : SMap Ctx → SMap Ctx) (s : Sw) : Sw := { s with ctxs := f s.ctxs }
/-- Change the list of take-overs. -/
def Sw.modTakeovers (f : SMap Nat → SMap Nat) (s : Sw) : Sw := { s with takeovers := f s.takeovers }
/-- Replace the tiles. -/
def Sw.setTiles (t : SMap Tile) (s : Sw) : Sw := { s with tiles := t }
/-- Replace the channel counts of the groves. -/
def Sw.setGroveC (c : List Nat) (s : Sw) : Sw := { s with groveC := c }
/-- Change the kernel table. -/
def Sw.modKernels (f : SMap Kernel → SMap Kernel) (s : Sw) : Sw := { s with kernels := f s.kernels }
/-- Change the migration queues. -/
def Sw.modMigs (f : SMap (List (Nat × Nat)) → SMap (List (Nat × Nat))) (s : Sw) : Sw := { s with migQueues := f s.migQueues }
/-- Set CXL_HOLD_MS. -/
def Sw.setHoldMs (n : Nat) (s : Sw) : Sw := { s with cxlHoldMs := n }
/-- Change every port that has an entry. -/
def Sw.mapPorts (f : Port → Port) (s : Sw) : Sw := { s with ports := s.ports.mapVals f }
/-- Count n free values as drawn (log 2). -/
def Sw.drawn (n : Nat) (s : Sw) : Sw := { s with freeCtr := s.freeCtr + n }

/-- Context x, none when FREE (04 R122). -/
def Sw.ctx? (s : Sw) (x : Nat) : Option Ctx := SMap.find? x s.ctxs
/-- Store or replace context x. -/
def Sw.setCtx (x : Nat) (c : Ctx) (s : Sw) : Sw := { s with ctxs := s.ctxs.set x c }
/-- Change context x when it exists. -/
def Sw.modCtx (x : Nat) (f : Ctx → Ctx) (s : Sw) : Sw :=
  match s.ctx? x with
  | some c => s.setCtx x (f c)
  | none => s

/-- Operation o of context x. -/
def Sw.op? (s : Sw) (x o : Nat) : Option Op := (s.ctx? x).bind (fun c => SMap.find? o c.ops)
/-- Change operation o of context x when its record is held. -/
def Sw.modOp (x o : Nat) (f : Op → Op) (s : Sw) : Sw :=
  s.modCtx x (fun c => match SMap.find? o c.ops with
    | some p => { c with ops := c.ops.set o (f p) }
    | none => c)
/-- Store of context x. -/
def Sw.store? (s : Sw) (x : Nat) : Option Store := (s.ctx? x).bind (fun c => c.store)
/-- Change the store of context x when it has one. -/
def Sw.modStore (x : Nat) (f : Store → Store) (s : Sw) : Sw :=
  s.modCtx x (fun c => { c with store := c.store.map f })
/-- Shard k of the store of context x. -/
def Sw.shard? (s : Sw) (x k : Nat) : Option Shard := (s.store? x).bind (fun t => SMap.find? k t.shards)
/-- Change shard k of the store of context x when it is held. -/
def Sw.modShard (x k : Nat) (f : Shard → Shard) (s : Sw) : Sw :=
  s.modStore x (fun t => { t with shards := t.shards.adjust k f })
/-- The step of update group u of context x. -/
def Sw.step? (s : Sw) (x u : Nat) : Option Step := (s.store? x).bind (fun t => SMap.find? u t.steps)
/-- Change the step of update group u of context x when there is one. -/
def Sw.modStep (x u : Nat) (f : Step → Step) (s : Sw) : Sw :=
  s.modStore x (fun t => { t with steps := t.steps.adjust u f })

/-- Add an output. -/
def Sw.out (o : Out) (s : Sw) : Sw := { s with outs := s.outs ++ [o] }

/-- GTC now. -/
def Sw.gtc (s : Sw) : Quad := s.time.gtc
/-- Elapsed time now, ns (05 R163). -/
def Sw.now (s : Sw) : Nat := s.time.elapsed
/-- Frame number of the present instant (05 R177). -/
def Sw.frame (s : Sw) : Nat := s.time.gtc.toNat / 2 ^ s.time.active

/-- Draw a free value (log 2). -/
def Sw.draw (s : Sw) : Quad × Sw := (Config.freeQuad s.freeCtr, { s with freeCtr := s.freeCtr + 1 })

/-- The event `code` of `subject` may be raised: not raised in the last `gap` ns. The last instants are kept in
`evTimes` (03 R118, 12 R435, 10 R365 and others). -/
def Sw.limited (code subject gap : Nat) (f : Sw → Sw) (s : Sw) : Sw :=
  let key := code * 2 ^ 24 + subject
  let due := match SMap.find? key s.glb.evTimes with
    | some t => decide (gap ≤ s.now - t)
    | none => true
  if due then f (s.modGlb (fun g => { g with evTimes := g.evTimes.set key s.now })) else s

/-- A millisecond in ns. -/
def ms : Nat := 1000000

/-! ### Tiles and the active tile list (01 R12 to R26) -/

/-- The physical tile that carries logical tile q. -/
def Sw.physOf (s : Sw) (q : Nat) : Option Nat :=
  (List.range 144).find? (fun p => (s.tile p).role == .active && (s.tile p).logical == some q)

/-- The GTC value t is at or after the GTC value u, modulo 2^64 (05 R161). -/
def gtcReached (t u : Quad) : Bool := decide ((t - u).toNat < 2 ^ 63)
/-- The GTC value t lies more than n after the GTC value u (05 R161). -/
def gtcBeyond (t u : Quad) (n : Nat) : Bool := gtcReached t u && decide (n < (t - u).toNat)

/-- Logical tile q is in service: some physical tile carries it. -/
def Sw.inService (s : Sw) (q : Nat) : Bool := (s.physOf q).isSome

/-- Logical tiles in service, ascending: the active tile list of R22. -/
def Sw.activeTiles (s : Sw) : List Nat :=
  sortAsc ((List.range 144).filterMap (fun p => if (s.tile p).role == .active then (s.tile p).logical else none))

/-- Logical tiles the variant has. -/
def Sw.logicalTiles (s : Sw) : List Nat := (List.range 128).filter (fun q => s.quadActive q)

/-- The lowest-numbered SPARE tile of grove g. -/
def Sw.spareOf (s : Sw) (g : Nat) : Option Nat := (span (36 * g) 36).find? (fun p => (s.tile p).role == .spare)

/-- SPARE tiles of grove g. -/
def Sw.spareCount (s : Sw) (g : Nat) : Nat := ((span (36 * g) 36).filter (fun p => (s.tile p).role == .spare)).length

/-- The lowest-numbered logical tile of grove g that is out of service. -/
def Sw.outOfServiceOf (s : Sw) (g : Nat) : Option Nat :=
  (span (32 * g) 32).find? (fun q => s.quadActive q && !s.inService q)

/-- A take-over of logical tile q is in progress (01 R21). -/
def Sw.takingOver (s : Sw) (q : Nat) : Bool := s.takeovers.mem q

/-- Logical tile of the slot of grid cell c of context x: active index (x + c) mod N of the context's list (01 R22). -/
def slotTile (tiles : List Nat) (x c : Nat) : Nat := if tiles.isEmpty then 0 else tiles.getD ((x + c) % tiles.length) 0

/-- Home tile of context x (01 R23). -/
def homeTile (tiles : List Nat) (x : Nat) : Nat := slotTile tiles x 0

/-! ### Ports -/

/-- Port n is UP. -/
def Sw.up (s : Sw) (n : Nat) : Bool := (s.port n).reg.state == .up
/-- Port n's partner is a member. -/
def Sw.isMember (s : Sw) (n : Nat) : Bool := (s.port n).reg.partnerRole == 1
/-- Port n's partner is a switch. -/
def Sw.isSwitch (s : Sw) (n : Nat) : Bool := (s.port n).reg.partnerRole == 2 || (s.port n).reg.partnerRole == 3
/-- Personality of port n: 1 FL1, 2 FL2, 3 FL3 (03 R105). -/
def Sw.pers (s : Sw) (n : Nat) : Nat := (s.port n).reg.detected
/-- Binding of port n. -/
def Sw.binding (s : Sw) (n : Nat) : Option Binding := (s.port n).reg.binding
/-- Lanes (global numbers) of port n as the split mode gives them (03 R84). -/
def Sw.lanesOf (s : Sw) (n : Nat) : List Nat := span (4 * (n / 4) + (s.port n).reg.lanes.1) (s.port n).reg.lanes.2
/-- Ports that are UP, ascending. -/
def Sw.upPorts (s : Sw) : List Nat := (s.ports.filter (fun e => e.2.reg.state == .up)).map Prod.fst
/-- Switch ports that are UP, ascending. -/
def Sw.upSwitches (s : Sw) : List Nat := s.upPorts.filter s.isSwitch
/-- The port that uses lane l. -/
def Sw.portOfLane (s : Sw) (l : Nat) : Option Nat :=
  (span (4 * (l / 4)) 4).find? (fun n => (s.port n).reg.state != .absent && (s.lanesOf n).contains l)
/-- Ports present of four-lane port q. -/
def Sw.portsPresent (s : Sw) (q : Nat) : List Nat := (span (4 * q) 4).filter (fun n => (s.port n).reg.state != .absent)

end Sys2Proof.Machine
end

