-- ==== Sys2Proof/Machine/Events.lean ====
section
/-! DEFINITION. Event records, completion records, MSI-X messages and the course of a descriptor (12 R402, R411 to R416,
R420 to R426). -/
namespace Sys2Proof

/-! ### Fields of a descriptor (12 R415) -/

/-- OPCODE. -/
def Sub.opcode (b : Sub) : Nat := dfield b.desc 0 1
/-- CMINOR. -/
def Sub.cminor (b : Sub) : Nat := dfield b.desc 1 1
/-- DFLAGS. -/
def Sub.dflags (b : Sub) : Nat := dfield b.desc 2 2
/-- HOST_TAG. -/
def Sub.tag (b : Sub) : Word := BitVec.ofNat 32 (dfield b.desc 4 4)
/-- Field of `n` bytes at byte `i`. -/
def Sub.f (b : Sub) (i n : Nat) : Nat := dfield b.desc i n
/-- Bits within byte `i`. -/
def Sub.bits (b : Sub) (i lo w : Nat) : Nat := dbits b.desc i lo w
/-- Bit of byte `i`. -/
def Sub.flag (b : Sub) (i k : Nat) : Bool := b.desc.getLsbD (8 * i + k)
/-- A field of 8 bytes. -/
def Sub.q (b : Sub) (i : Nat) : Quad := BitVec.ofNat 64 (dfield b.desc i 8)

/-- Every bit of bytes 8 to 63 that the layout does not list is 0 (R10). -/
def Sub.only (b : Sub) (masks : List Desc) : Bool :=
  within b.desc (masks.foldl (· ||| ·) (dmask 0 8))

end Sys2Proof

namespace Sys2Proof.Machine

/-- The 20-bit index space of rings and queues (12 R410, R421). -/
def idxMod : Nat := 2 ^ 20

/-- F of R424: records of queue q not yet freed. -/
def Evq.fill (q : Evq) : Nat := (q.tail - q.head).toNat
/-- Q of R424. -/
def Evq.size (q : Evq) : Nat := 2 ^ q.sizeLog2
/-- Room for k more records: F + RES + k ≤ Q − 1 (12 R424). -/
def Evq.room (q : Evq) (k : Nat) : Bool := decide (q.fill + q.res + k ≤ q.size - 1)

/-- PHASE of record index i (12 R421). -/
def Evq.phase (q : Evq) (i : BitVec 20) : Nat := 1 - (i.toNat / q.size) % 2

/-- Host address of record index i (12 R421). -/
def Evq.addr (q : Evq) (i : BitVec 20) : Quad := q.base + BitVec.ofNat 64 (32 * (i.toNat % q.size))

/-- Send the MSI-X message of a function's vector; a masked vector sets its pending bit (12 R426). -/
def sendMsix (func vector : Nat) (s : Sw) : Sw :=
  let key := func * 256 + vector
  let e := s.host.msix.getD key {}
  if e.mask then s.modHost (fun h => { h with msix := h.msix.set key { e with pending := true } })
  else s.out (.msix func vector)

/-- A record before it is written: everything but EFLAGS.PHASE. -/
structure RawRec where
  /-- Bytes 0 and 1, CODE. -/
  code : Nat
  /-- EFLAGS without PHASE. -/
  eflags : Nat
  /-- Bytes 3 to 31. -/
  rest : List Byte
  deriving DecidableEq, Repr

/-- Write one record at TAIL and advance TAIL (12 R421, R422). -/
def putRecord (q : Nat) (r : RawRec) (s : Sw) : Sw :=
  let e := s.evq q
  let bytes := le 2 r.code ++ le 1 (r.eflags + e.phase e.tail) ++ padTo 29 r.rest
  (s.out (.hostWrite e.func (e.addr e.tail) bytes)).modEvq q (fun e => { e with tail := e.tail + 1 })

/-- Write the records of one event together, then wake an armed host (12 R422, R426). -/
def putRecords (q : Nat) (rs : List RawRec) (s : Sw) : Sw :=
  let s := each rs (putRecord q) s
  let e := s.evq q
  if e.armed && !rs.isEmpty then sendMsix e.func e.vector (s.modEvq q (fun e => { e with armed := false })) else s

/-- EFLAGS bit CMPL. -/
def efCmpl : Nat := 2
/-- EFLAGS bit CONT. -/
def efCont : Nat := 4
/-- EFLAGS bit HOSTERR. -/
def efHost : Nat := 8
/-- EFLAGS bit CONTD. -/
def efContd : Nat := 16

/-- Set CONT on every record but the last. -/
def markCont : List RawRec → List RawRec
  | [] => []
  | [r] => [r]
  | r :: rs => { r with eflags := r.eflags + efCont } :: markCont rs

/-- The records of an event: a first record with `head` (bytes 3 on), and continuation records with the rest of the
content, 28 bytes each (12 R422). -/
def recordsOf (code eflags : Nat) (head rest : List Byte) : List RawRec :=
  markCont ({ code := code, eflags := eflags, rest := head } ::
    (chunks 28 rest).map (fun c => { code := code, eflags := eflags % 4 + efContd, rest := le 1 0 ++ c }))

/-- Records an event with `n` bytes of content takes: 16 bytes in the first, 28 in each other (12 R422). -/
def recordCount (n : Nat) : Nat := 1 + (n - 16 + 27) / 28

/-- Records a completion whose event has `n` bytes of content takes (12 R422). -/
def completionCount (n : Nat) : Nat := 1 + (n + 27) / 28

/-- An asynchronous record set (12 R422): SUBJ carries the context or the job. -/
def asyncRecords (code : Nat) (ctx job : Option Nat) (qseq : Half) (gtc : Quad) (content : List Byte) : List RawRec :=
  let subj := (ctx.getD 0) % 4096 + place (b2n ctx.isSome) 12 + place (b2n job.isSome) 13
  recordsOf code 0 (le 1 (job.getD 0) ++ le 2 subj ++ le 2 qseq.toNat ++ le 8 gtc.toNat ++ padTo 16 (content.take 16))
    (content.drop 16)

/-- When events have been lost and F + RES < Q, write EVENTS_LOST and clear LOST (12 R424). -/
def writeLost (q : Nat) (s : Sw) : Sw :=
  let e := s.evq q
  match e.lost with
  | none => s
  | some (n, first) =>
    if e.active && decide (e.fill + e.res < e.size) then
      let s := s.modEvq q (fun e => { e with lost := none })
      putRecords q (asyncRecords 0x0104 none none e.qseq s.gtc (le 4 n ++ le 2 first.toNat)) s
    else s

/-- Route an event to queue q: written when it has room, else lost (12 R424, R425). -/
def postEvent (q code : Nat) (ctx job : Option Nat) (content : List Byte) (s : Sw) : Sw :=
  if !(s.evq q).active then s else
  let s := writeLost q s
  let e := s.evq q
  let k := recordCount content.length
  let s := s.modEvq q (fun e => { e with qseq := e.qseq + 1 })
  if e.room k then putRecords q (asyncRecords code ctx job e.qseq s.gtc content) s
  else writeLost q (s.modEvq q (fun e => { e with lost := match e.lost with
    | some (n, f) => some (n + 1, f)
    | none => some (1, e.qseq - 1) }))

/-- Queue of an event that names context x: its EVQ, or job 0's JEVQ for context 0 (12 R425). -/
def Sw.ctxQueue (s : Sw) (x : Nat) : Option Nat :=
  if x = 0 then (s.job 0).jevq else (s.ctx? x).map (fun c => c.cfg.evq)

/-- Raise an event that names a context. -/
def raiseCtx (x code : Nat) (content : List Byte) (s : Sw) : Sw :=
  match s.ctxQueue x with
  | some q => postEvent q code (some x) none content s
  | none => s

/-- Raise an event that names a job and no context. -/
def raiseJob (j code : Nat) (content : List Byte) (s : Sw) : Sw :=
  match (s.job j).jevq with
  | some q => postEvent q code none (some j) content s
  | none => s

/-- Raise an event that names neither: it goes to SYS_EVQ unless AREA_MASK suppresses its area (12 R425, R427). -/
def raiseSys (code : Nat) (content : List Byte) (s : Sw) : Sw :=
  if s.host.sysValid && !s.host.areaMask.getLsbD (code / 256) then postEvent s.host.sysEvq code none none content s else s

/-- Raise an event that waits until HOST_CONFIG sets SYS_VALID (14 R484, 16 R536). -/
def raiseHeld (code : Nat) (content : List Byte) (s : Sw) : Sw :=
  if s.host.sysValid then raiseSys code content s
  else s.modHost (fun h => { h with held := h.held ++ [{ code := code, content := content }] })

/-- An event that is raised when HOST_CONFIG next sets SYS_VALID (R484; 16 R536). -/
def holdEvent (code : Nat) (content : List Byte) (s : Sw) : Sw :=
  s.modHost (fun h => { h with held := h.held ++ [{ code := code, content := content }] })
/-! ### Completion (12 R411, R413, R422, R424) -/

/-- A completion record set: bytes 3 to 31, then the content of the event that completes the descriptor (12 R422). -/
def completionRecords (code : Nat) (t : Tok) (status : Nat) (hostErr : Bool) (head : BitVec 20) (gtc result : Quad)
    (content : List Byte) : List RawRec :=
  recordsOf code (efCmpl + b2n hostErr * efHost)
    (le 1 status ++ le 4 t.tag.toNat ++ le 8 gtc.toNat ++ le 2 t.ring ++ le 1 t.opcode.toNat ++ le 1 0 ++
      le 4 head.toNat ++ le 8 result.toNat) content

/-- A ring that drains becomes DISABLED once nothing is outstanding (12 R411). -/
def Ring.settle (r : Ring) : Ring :=
  if r.state == .draining && r.outst.isEmpty then { r with state := .disabled, enable := false } else r

/-- A descriptor completes: its reserved records are written, unless QUIET and OK, or its ring has been reset since
(12 R403, R411, R424). -/
def completeWith (t : Tok) (code status : Nat) (hostErr : Bool) (result : Quad) (content : List Byte) (s : Sw) : Sw :=
  let r := s.ring t.ring
  if !r.outst.contains t.id then s else
  let s := s.modRing t.ring (fun r => { r with outst := r.outst.filter (· != t.id) })
  let s := s.modEvq r.cevq (fun e => { e with res := e.res - t.k })
  let s := if (s.evq r.cevq).active && !(t.quiet && status == 0) then
      putRecords r.cevq (completionRecords code t status hostErr r.head s.gtc result content) s
    else s
  let s := writeLost r.cevq s
  s.modRing t.ring Ring.settle

/-- CODE and content of the completion of a descriptor that ends without its event's own work: OP_POST completes with event
0x0200, UPDATE_START with 0x0420 and DIGEST_COMPARE with 0x0610 also then, with nothing counted (12 R422; log 98). -/
def Tok.ending (t : Tok) (status : Nat) : Nat × List Byte :=
  if t.opcode = 0x24 then (0x0200, t.subj ++ le 1 status ++ le 4 t.tag.toNat)
  else if t.opcode = 0x43 then (0x0420, t.subj ++ le 1 status ++ le 4 0 ++ le 8 0 ++ le 8 0 ++ le 4 t.tag.toNat)
  else if t.opcode = 0x82 then (0x0610, t.subj ++ le 2 0)
  else (0x0100, [])
/-- Completion with record 0x0100, or with the event that completes the opcode. -/
def complete (t : Tok) (status : Nat) (s : Sw) : Sw :=
  completeWith t (t.ending status).1 status false 0 (t.ending status).2 s

/-- Completion with a RESULT. -/
def completeR (t : Tok) (status : Nat) (result : Quad) (s : Sw) : Sw := completeWith t 0x0100 status false result [] s

/-- Completion by an event of the owning chapter, its content in continuation records. -/
def completeE (t : Tok) (code status : Nat) (content : List Byte) (s : Sw) : Sw :=
  completeWith t code status false 0 content s

/-- A host access failed (12 R413). -/
def hostFail (t : Tok) (addr : Quad) (s : Sw) : Sw := completeWith t 0x0100 stBad true addr [] s

/-- Completion of an optional descriptor. -/
def completeOpt (t : Option Tok) (status : Nat) (s : Sw) : Sw :=
  match t with
  | some t => complete t status s
  | none => s

/-- The switch's host-memory writes for a descriptor, with the requester ID of its function (12 R402). -/
def hostWrite (t : Tok) (addr : Quad) (bytes : List Byte) (s : Sw) : Sw :=
  if bytes.isEmpty then s else s.out (.hostWrite t.func addr bytes)

/-! ### The course of a descriptor (12 R405, R412, R415, R416) -/

/-- Bytes `i` to `i + n - 1` in a layout's list. -/
def by_ (i n : Nat) : Desc := dmask i n
/-- Bits `lo` to `lo + w - 1` of byte `i` in a layout's list. -/
def bi_ (i lo w : Nat) : Desc := dmaskBits i lo w

/-- A descriptor of the switch: opcode, whether it is accepted from the PF only, and the minor version that
introduced it (12 R404, R432). -/
structure OpInfo where
  /-- OPCODE. -/
  code : Nat
  /-- PF only. -/
  pf : Bool
  /-- Minor version. -/
  minor : Nat
  deriving DecidableEq, Repr

/-- The opcodes that the chapters assign (04, 05 R181, 06, 07, 08 R265, R269, R274, 09 R324, 10 R361, 12 R404,
16 R509). -/
def opcodes : List OpInfo := [
  ⟨0x00, false, 0⟩, ⟨0x01, false, 0⟩, ⟨0x02, false, 0⟩, ⟨0x08, true, 0⟩, ⟨0x09, true, 0⟩, ⟨0x0A, false, 0⟩,
  ⟨0x0B, true, 0⟩, ⟨0x20, false, 0⟩, ⟨0x21, false, 0⟩, ⟨0x22, false, 0⟩, ⟨0x23, false, 0⟩, ⟨0x24, false, 0⟩,
  ⟨0x25, false, 0⟩, ⟨0x30, false, 0⟩, ⟨0x31, false, 0⟩, ⟨0x32, false, 0⟩, ⟨0x33, false, 0⟩, ⟨0x34, false, 0⟩,
  ⟨0x35, false, 0⟩, ⟨0x36, false, 0⟩, ⟨0x37, false, 0⟩, ⟨0x40, false, 0⟩, ⟨0x41, false, 0⟩, ⟨0x42, false, 0⟩,
  ⟨0x43, false, 0⟩, ⟨0x44, false, 0⟩, ⟨0x50, false, 1⟩, ⟨0x51, false, 1⟩, ⟨0x52, false, 1⟩, ⟨0x60, true, 0⟩,
  ⟨0x61, true, 0⟩, ⟨0x62, true, 0⟩, ⟨0x63, true, 0⟩, ⟨0x64, true, 0⟩, ⟨0x65, true, 0⟩, ⟨0x70, false, 0⟩,
  ⟨0x80, true, 0⟩, ⟨0x81, false, 0⟩, ⟨0x82, false, 0⟩, ⟨0x83, true, 0⟩, ⟨0x84, true, 0⟩, ⟨0x85, false, 0⟩,
  ⟨0x86, false, 2⟩, ⟨0x90, true, 0⟩, ⟨0x91, true, 0⟩, ⟨0x92, true, 0⟩, ⟨0x93, true, 0⟩]

/-- The minor version that introduced the field values a descriptor uses: HYBRID and PRUNE in the block of an OP_POST, KEEP in
STORE_GATHER (12 R432). -/
def featureMinor (b : Sub) (code : Nat) : Nat :=
  if code = 0x24 then (if b.bits 21 1 2 = 3 then 2 else if b.flag 21 3 then 1 else 0)
  else if code = 0x34 && b.flag 10 2 then 2
  else 0
/-- The minor version in force for a descriptor that names context x (12 R432). -/
def Sw.minorFor (s : Sw) (x : Nat) (b : Sub) : Nat := match s.ctx? x with | some c => min b.cminor c.cfg.minor | none => b.cminor
/-- Checks 1 to 5 of R416, for the descriptor of opcode `code`. Every opcode and field value introduced after 3.0 names its
context in bytes 8 and 9. -/
def headerStatus (s : Sw) (code : Nat) (b : Sub) : Option Nat :=
  let info := opcodes.find? (fun o => o.code == code)
  firstFail [
    (decide (b.cminor > s.sec.runMinor), stContract),
    (info.isNone, stBad),
    (match info with
     | some o => let v := max o.minor (featureMinor b code); decide (v > 0) && decide (v > s.minorFor (b.f 8 2 % 4096) b)
     | none => false, stContract),
    (decide (b.dflags ≥ 4), stBad),
    (match info with | some o => o.pf && b.func != 0 | none => false, stDenied)]

/-- Every port of the canopy record (10 R340). -/
def Canopy.ports (k : Canopy) : List Nat :=
  dedup ((match k.parent with | some p => [p] | none => []) ++ k.children.map (fun e => e.port) ++
    k.shards.filterMap (fun e => e.toward) ++ k.shards.filterMap (fun e => e.mirror))
/-- Canopy ports that a DIGEST_COMPARE names: the one in bytes 10 and 11, or all for 0xFFFF (09 R300). -/
def comparePorts (s : Sw) (b : Sub) : List Nat :=
  match s.ctx? (b.f 8 2 % 4096) with
  | some c => if b.f 10 2 = 0xFFFF then c.canopy.ports else [b.f 10 2]
  | none => []

/-- Completion records a descriptor reserves (12 R424): OP_POST, UPDATE_START and DIGEST_COMPARE complete with an
event that carries content, and EPOCH_FLIP may (10 R351). -/
def recordsFor (s : Sw) (code : Nat) (b : Sub) : Nat :=
  if code = 0x24 then completionCount 11
  else if code = 0x43 then completionCount 33
  else if code = 0x62 then completionCount 24
  else if code = 0x82 then completionCount (8 + 27 * (comparePorts s b).length)
  else 1

/-- Subjects of the completion event of a descriptor (12 R422, R423). -/
def subjOf (code : Nat) (b : Sub) : List Byte :=
  let x := le 2 (b.f 8 2 % 4096)
  if code = 0x24 then x ++ le 4 (b.f 16 4)
  else if code = 0x43 then x ++ le 2 (b.f 10 2) ++ le 4 (b.f 12 4)
  else if code = 0x82 then x ++ le 4 (b.f 12 4)
  else []

/-- Dispatch: the descriptor becomes outstanding and its completion records are reserved (12 R412, R424). -/
def dispatch (code : Nat) (b : Sub) (s : Sw) : Tok × Sw :=
  let t : Tok := { ring := b.ring, func := b.func, opcode := BitVec.ofNat 8 code, tag := b.tag,
                   quiet := b.flag 2 1, k := recordsFor s code b, subj := subjOf code b, id := s.host.nextTok }
  let s := s.modHost (fun h => { h with nextTok := h.nextTok + 1 })
  let s := s.modRing b.ring (fun r => { r with outst := r.outst ++ [t.id] })
  let s := s.modEvq (s.ring b.ring).cevq (fun e => { e with res := e.res + t.k })
  (t, s)

/-- A descriptor of opcode `code` is dispatched, checked and acted on by `op` (12 R412, R416). -/
def runDesc (code : Nat) (op : Sub → Tok → Sw → Sw) (b : Sub) (s : Sw) : Sw :=
  let (t, s) := dispatch code b s
  match headerStatus s code b with
  | some st => complete t st s
  | none => op b t s

/-- Check 6 of R416 for a named event queue: assigned to the submitting function and enabled (12 R405, R409). -/
def Sw.evqAssigned (s : Sw) (q func : Nat) : Bool := decide (q < 256) && (s.evq q).active && (s.evq q).func == func

/-- A function owns job j (12 R405). -/
def Sw.owns (s : Sw) (func j : Nat) : Bool :=
  let b := s.job j
  (b.state == .opened && b.owner == func) || (j == 0 && b.state == .seedling && func == 0)

/-- The job a flag belongs to (12 R428). -/
def Sw.jobOfFlag (s : Sw) (f : Nat) : Option Nat :=
  (List.range 256).find? (fun j =>
    let b := s.job j
    b.state != .closed && decide (b.flagFirst ≤ f) && decide (f < b.flagFirst + b.flagCount))

/-- A named flag lies in the range of a job that the function owns (12 R405). -/
def Sw.flagOwned (s : Sw) (func f : Nat) : Bool :=
  match s.jobOfFlag f with
  | some j => s.owns func j
  | none => false

/-- Port n lies in the port map of job j (12 R406). -/
def Sw.inMap (s : Sw) (j n : Nat) : Bool :=
  let b := s.job j
  if b.implicitMap then
    !(List.range 256).any (fun k => k != j && (s.job k).state != .closed && (s.job k).portMap.getLsbD n)
  else b.portMap.getLsbD n

/-- Act only when the descriptor's checks pass, else complete with the status of the first that fails (12 R416). -/
def guardDesc (t : Tok) (checks : List (Bool × Nat)) (f : Sw → Sw) (s : Sw) : Sw :=
  match firstFail checks with
  | some st => complete t st s
  | none => f s

/-- Go on with what the host-memory access returned, or end under R413. -/
def hostGuard (b : Sub) (t : Tok) (f : Sw → Sw) (s : Sw) : Sw :=
  match b.hostErr with
  | some a => hostFail t a s
  | none => f s

end Sys2Proof.Machine
end

