-- ==== Sys2Proof/Machine/Age.lean ====
section
/-! DEFINITION. Wear entries: their components and what starts one afresh (15 R497, R501, R502). -/
namespace Sys2Proof.Machine

/-- Wear entry i. -/
def Sw.wearOf (s : Sw) (i : Nat) : Wear := s.wear.entries.getD i {}
/-- Change wear entry i. -/
def Sw.modEntry (i : Nat) (f : Wear → Wear) (s : Sw) : Sw :=
  s.modWear (fun w => { w with entries := w.entries.set i (f (s.wearOf i)) })
/-- KIND of entry i (R497). -/
def wearKind (i : Nat) : Nat :=
  if i < 16 then 0 else if i < 48 then 1 else if i < 560 then 2 else if i < 584 then 3 else if i < 728 then 4 else 5
/-- The samples of an entry are discarded and BASE is taken again: cause 1 new module, 2 new partner, 3 split change. -/
def wearRestart (i cause : Nat) (s : Sw) : Sw :=
  raiseSys 0x0B23 (le 2 i ++ le 1 cause) (s.modEntry i (fun w => { w with
    state := 0, samples := [], based := false, mid := none, early := none, late := none, af30 := 0 }))

end Sys2Proof.Machine
end

