-- ==== Sys2Proof/Machine/Send.lean ====
section
/-! DEFINITION. Placing cells at the egress ports: the rate and capacity of a port, quotas, ranks, the form toward a
member, and the queues (03 R98 to R112; 05 R179 to R184; 10 R329 to R333, R341, R349, R358; 15 R488). -/
namespace Sys2Proof.Machine

/-! ### Capacity of a port (03 R89; 05 R180; 15 R488) -/

/-- Bits per ns of one lane (03 R87, R89). -/
def laneRate (pers : Nat) : Nat := match pers with | 1 => 100 | 2 => 200 | 3 => 400 | _ => 0
/-- Wire bytes of a cell (03 R89). -/
def wireBytes (pers : Nat) : Nat := if pers = 1 then 68 else 76
/-- Bits per ns of port n. -/
def Sw.portRate (s : Sw) (n : Nat) : Nat := laneRate (s.pers n) * (s.port n).reg.lanes.2
/-- Cell slots of port n in `dt` ns at its rate r, which the declared down-spread d = SSC_DOWN × 0.001 lowers to the nominal
rate × (1 − d / 2) (05 R180, R184; 13 R442). -/
def Sw.slotsIn (s : Sw) (n dt : Nat) : Nat :=
  dt * s.portRate n * (2000 - (s.port n).reg.ssc) / (2000 * (8 * wireBytes (s.pers n)))
/-- C: cells of port n in one frame of period 2^p (05 R180). -/
def Sw.capacity (s : Sw) (n p : Nat) : Nat := if s.up n then s.slotsIn n (2 ^ p) else 0
/-- PSHARE and ESHARE of a power profile (15 R488). -/
def shares (profile : Nat) : Nat × Nat :=
  match profile with | 0 => (64, 64) | 1 => (48, 52) | 2 => (32, 40) | _ => (20, 28)
/-- K: the control reserve (05 R180). -/
def ctrlReserve (c : Nat) : Nat := (c + 31) / 32
/-- S: the scheduled capacity of port n under period 2^p (05 R180). -/
def Sw.schedCap (s : Sw) (n p : Nat) : Nat :=
  let c := s.capacity n p
  (c - ctrlReserve c) * min s.time.schedMax (shares s.pwr.inForce).1 / 64
/-- Cells port n may send in one frame under ESHARE (15 R488). -/
def Sw.shareLimit (s : Sw) (n : Nat) : Nat := s.capacity n s.time.active * (shares s.pwr.inForce).2 / 64
/-- GTC of the tick that ends the present frame (05 R177). -/
def Sw.nextTick (s : Sw) : Nat := (s.frame + 1) * 2 ^ s.time.active

/-! ### Routes of canopy cells (10 R332 to R334, R341) -/

/-- Route version v. -/
def Sw.ver (s : Sw) (v : Nat) : RouteVer := if v = 0 then s.fab.v0 else s.fab.v1
/-- Change route version v. -/
def Sw.modVer (v : Nat) (f : RouteVer → RouteVer) (s : Sw) : Sw :=
  s.modFab (fun b => if v = 0 then { b with v0 := f b.v0 } else { b with v1 := f b.v1 })
/-- Key of TRANSIT by PORT_DN and of EDGE by LPORT. -/
def edgeKey (ctx port : Nat) : Nat := ctx * 65536 + port
/-- Physical port toward logical canopy port q of context x in version v (10 R341). -/
def Sw.physIn (s : Sw) (v x q : Nat) : Nat :=
  match SMap.find? (edgeKey x q) (s.ver v).edge with
  | some e => e.pport
  | none => q
/-- Physical port toward logical canopy port q of context x in the ACTIVE version (10 R341). -/
def Sw.physPort (s : Sw) (x q : Nat) : Nat := s.physIn s.fab.epoch x q
/-- Logical canopy port of context x for a cell that arrives on port p under version v (10 R340). -/
def Sw.logPort (s : Sw) (v x p : Nat) : Nat :=
  match ((s.ver v).edge.vals.find? (fun e => e.ctx == x && e.pport == p)) with
  | some e => e.lport
  | none => p
/-- Version by which a cell with this EP is routed (10 R337). -/
def Sw.verOf (s : Sw) (ep : Nat) : Nat := if (s.ver ep).st == .standby then s.fab.epoch else ep

/-- The ingress number of the switch itself. -/
def selfPort : Nat := 512
/-- RANK_IN and DL_IN of an ingress (10 R332, R333). -/
def Sw.rankIn (s : Sw) (i : Nat) : Nat × Bool :=
  if i ≥ selfPort || s.isMember i then (0, false) else
  let e := s.fab.ranks.getD i {}
  (e.inn, e.dlIn)
/-- The channel on which a cell of channel vc from ingress i leaves on port o; none when R333 refuses it. Toward a member
it is the first or single channel of the class (10 R330). -/
def Sw.permitted (s : Sw) (i vc o : Nat) : Option Nat :=
  if s.isMember o then some (if secondVc vc then vc - 1 else vc) else
  let e := s.fab.ranks.getD o {}
  let (rin, dlin) := s.rankIn i
  if pairVc vc then
    if !secondVc vc then (if e.dlOut then some (vc + 1) else if e.out > rin then some vc else none)
    else (if e.dlOut then none else if decide (e.out > rin) || dlin then some vc else none)
  else if e.dlOut then none else if e.out > rin then some vc else none

/-- A cell finds no permitted egress (10 R333). -/
def dropRank (i o vc : Nat) (s : Sw) : Sw :=
  let s := s.modCnt i (fun c => { c with dropRank := c.dropRank + 1 })
  s.limited 0x0724 i ms (raiseSys 0x0724 (le 2 i ++ le 2 o ++ le 1 vc))

/-- A cell finds no route (10 R338, R340). -/
def dropRoute (i : Nat) (c : Cell) (s : Sw) : Sw :=
  let s := s.modCnt i (fun k => { k with dropRoute := k.dropRoute + 1 })
  s.limited 0x0723 i ms (raiseSys 0x0723 (le 2 i ++ le 8 c.hdr.toNat))

/-! ### Quotas (05 R179 to R184) -/

/-- Quotas that load egress port o: context, kind (0 up, 1 down, 2 exchange), cells. -/
def Sw.quotasOn (s : Sw) (o : Nat) : List (Nat × Nat × Nat) :=
  (s.ctxs.map (fun e =>
    let x := e.1
    let c := e.2
    let (up, dn, ex) := c.quota
    let atParent := match c.canopy.parent with | some p => s.physPort x p == o | none => false
    let atChild := c.canopy.children.any (fun ch => s.physPort x ch.port == o)
    (if atParent then [(x, 0, up)] else []) ++ (if atChild then [(x, 1, dn)] else []) ++
      (if atParent || atChild then [(x, 2, ex)] else []))).flatten
/-- Sum of the quotas on a port. -/
def Sw.quotaSum (s : Sw) (o : Nat) : Nat := (s.quotasOn o).foldl (fun a e => a + e.2.2) 0
/-- The quota of a kind of a context on a port as it is in force: scaled when S fell below the sum (05 R182). -/
def Sw.quotaOf (s : Sw) (o x kind : Nat) : Nat :=
  let q := ((s.quotasOn o).find? (fun e => e.1 == x && e.2.1 == kind)).elim 0 (fun e => e.2.2)
  match (s.port o).q.scaled with
  | some cap => let sum := s.quotaSum o; if sum = 0 then 0 else q * cap / sum
  | none => q

/-- Raise event 0x0305 at most once per context and port per ms (05 R184). -/
def overrun (o x case : Nat) (s : Sw) : Sw :=
  let s := s.modTime (fun t => { t with overruns := t.overruns + 1 })
  s.limited 0x0305 (x * 512 + o) ms (raiseCtx x 0x0305 (le 1 case ++ le 2 o ++ le 8 s.frame))

/-- Place a scheduled unit of `len` cells in the present frame, or move it to the next: whether it was moved (05 R184). -/
def placeNow (o x kind len : Nat) (s : Sw) : Bool × Sw :=
  let key := x * 4 + kind
  let q := (s.port o).q
  if s.quotaOf o x kind < q.drawn.getD key 0 + len then
    (true, s.modTime (fun t => { t with defers := t.defers + 1 }))
  else if s.slotsIn o (s.nextTick - s.gtc.toNat) < q.placed + len then (true, overrun o x 1 s)
  else (false, s.modQ o (fun q => { q with drawn := q.drawn.set key (q.drawn.getD key 0 + len), placed := q.placed + len }))

/-- Scheduled items of context x. -/
def SvcClass.ofCtx (x : Nat) (k : SvcClass) : Bool := match k with | .sched y _ => y == x | _ => false
/-- Place a unit that becomes ready now: it goes behind every unit of its context on this port that has been moved on,
whatever the kind of either (05 R184). -/
def placeUnit (o x kind len : Nat) (s : Sw) : Bool × Sw :=
  if (s.port o).q.txq.any (fun i => i.cls.ofCtx x && i.moved) then (true, s) else placeNow o x kind len s

/-! ### The form of a cell toward a member (03 R110 to R112) -/

/-- Member context of switch context x in a port's map (03 R111). -/
def Sw.streamOf (s : Sw) (o x : Nat) : Option Nat :=
  (List.find? (fun (e : Nat × Nat) => e.2 == x) (s.port o).reg.ctxMap).map Prod.fst

/-- A cell in the form in which it leaves on port o; none when R110 discards it. -/
def Sw.wireForm (s : Sw) (o : Nat) (c : Cell) : Option Cell :=
  if !s.isMember o || s.pers o == 3 then some c
  else if s.pers o == 1 && decide (c.tc ≤ 2) && decide (c.tag > 1023) then none
  else if c.namesCtx then
    match s.streamOf o c.anyCtx with
    | none => none
    | some m => some (if s.pers o == 1 then fl3ToFl1 c m else
        let c := c.setCtx m
        if c.tc = 5 then c else c.setLe 0)
  else some (if s.pers o == 1 then fl3ToFl1 c 0 else c)

/-- A cell bound for a member cannot be carried (03 R110). -/
def dropTrunc (o : Nat) (c : Cell) (s : Sw) : Sw :=
  let s := s.modCnt o (fun k => { k with p2pTrunc := k.p2pTrunc + 1 })
  s.limited 0x0709 o ms (raiseSys 0x0709 (le 2 o ++ (if c.tc ≤ 2 then le 4 c.tag else le 2 c.anyCtx)))

/-- A cell for a port that is not UP (10 R349). -/
def dropLost (o : Nat) (s : Sw) : Sw := s.modCnt o (fun k => { k with dropLost := k.dropLost + 1 })

/-! ### Queues (10 R349, R357, R358) -/

/-- REQ or FWD by virtual channel: the classes of the member queue. -/
def memberVc (vc : Nat) : Bool := vc == 0 || vc == 1 || vc == 4 || vc == 5
/-- REQ and FWD cells in the on-chip queue of a member port. -/
def PortQ.held (q : PortQ) : Nat := (q.txq.filter (fun i => memberVc i.vc)).length
/-- Cells of the spill area: SPILL_MIB at 72 bytes a cell (10 R358; DESIGN CHOICE, log 13). -/
def Sw.spillRoom (s : Sw) : Nat := s.fab.spillMib * 2 ^ 20 / 72
/-- Cells spilled by all member ports. -/
def Sw.spilled (s : Sw) : Nat := s.ports.foldl (fun a e => a + e.2.q.spill.length) 0

/-- Add an item to the egress queue of port o. -/
def pushTx (o : Nat) (it : TxItem) (s : Sw) : Sw := s.modQ o (fun q => { q with txq := q.txq ++ [it] })

/-- A REQ or FWD cell is discarded at a member port (10 R358). -/
def dropStall (o : Nat) (s : Sw) : Sw := s.modCnt o (fun k => { k with dropStall := k.dropStall + 1 })

/-- Queue a REQ or FWD cell of class `tc` at a member port; whether it was discarded (10 R358). -/
def pushMember (o tc : Nat) (it : TxItem) (s : Sw) : Bool × Sw :=
  let q := (s.port o).q
  match SMap.find? tc q.stalled with
  | some n => (true, dropStall o (s.modQ o (fun q => { q with stalled := q.stalled.set tc (n + 1) })))
  | none =>
    if q.spill.isEmpty && decide (q.held < 1024) then (false, pushTx o it s)
    else if s.spilled < s.spillRoom then (false, s.modQ o (fun q => { q with spill := q.spill ++ [it] }))
    else (true, raiseSys 0x0728 (le 2 o ++ le 4 s.fab.spillMib) (dropStall o s))

/-- Place a cell at egress port o. Answers whether R358 discarded it. -/
def enqueue (o : Nat) (it : TxItem) (s : Sw) : Bool × Sw :=
  if !s.up o then (false, dropLost o s) else
  let c := it.cell
  match s.wireForm o c with
  | none => (false, dropTrunc o c s)
  | some w =>
    let s := if s.isMember o && s.pers o == 1 && decide (c.tc ≤ 2) && field c.pay 448 64 != 0 then
        s.modCnt o (fun k => { k with p2pTrunc := k.p2pTrunc + 1 }) else s
    let it := { it with cell := w, ep := c.ep }
    if s.isMember o && (c.tc == 0 || c.tc == 2) then pushMember o c.tc it s else (false, pushTx o it s)

/-- A CTRL or TIME cell of the switch's own toward a neighbour, consumed there. -/
def sendCtrl (o : Nat) (c : Cell) (s : Sw) : Sw :=
  (enqueue o { cell := c.setEp s.fab.epoch, vc := firstVc c.tc, cls := if c.portLayer then .portLayer else .ctrl,
               unitLen := 1, src := selfPort, moved := false, mark := .none } s).2

/-- A CTRL cell of the switch with a body. -/
def ctrlCell (ctype ctx member opseq arg : Nat) (body : List Byte) : Cell :=
  { hdr := ctrlHdr ctype 0 ctx member opseq arg, pay := word64 body }

/-! ### Cells of a context toward its canopy ports (10 R333, R341, R349; 09 R293) -/

/-- A logical canopy port leads to a switch: the parent, or a child of kind switch. -/
def Ctx.leadsToSwitch (c : Ctx) (q : Nat) : Bool :=
  c.canopy.parent == some q || c.canopy.children.any (fun ch => ch.port == q && ch.isSwitch) ||
    c.canopy.shards.any (fun e => e.toward == some q || e.mirror == some q)

/-- Class of a collective cell toward a port: scheduled when its quota there is not 0 (05 R179). -/
def Sw.collClass (s : Sw) (o x kind : Nat) : SvcClass := if s.quotaOf o x kind = 0 then .best else .sched x kind

/-- Send items of one unit of context x toward logical port q. While the path to a neighbour switch is disturbed they
wait in the context (10 R349). -/
def ctxSend (x q : Nat) (items : List TxItem) (s : Sw) : Sw :=
  match s.ctx? x with
  | none => s
  | some c =>
    if c.leadsToSwitch q && c.disturbed.mem q then
      s.setCtx x { c with waiting := c.waiting ++ items.map (fun i => (q, i)) }
    else
      let o := s.physPort x q
      match items with
      | [] => s
      | first :: _ =>
        match s.permitted selfPort first.vc o with
        | none => dropRank selfPort o first.vc s
        | some _ =>
          let kind := if first.cell.tc = 3 then 0 else 1
          let cls := if first.cell.tc = 5 then SvcClass.ctrl else s.collClass o x kind
          let (moved, s) := match cls with
            | .sched _ _ => if s.up o then placeUnit o x kind items.length s else (false, s)
            | _ => (false, s)
          each items (fun it s =>
            let vc := (s.permitted selfPort it.vc o).getD it.vc
            (enqueue o { it with cell := it.cell.setEp s.fab.epoch, vc := vc, cls := cls, moved := moved } s).2) s

/-- Item of a switch's own cell. -/
def ownItem (c : Cell) (len : Nat) (m : Mark) : TxItem :=
  { cell := c, vc := firstVc c.tc, cls := .best, unitLen := len, src := selfPort, moved := false, mark := m }

/-- Items of a unit: the marks hang on the cells in order. -/
def unitItems (cells : List (Cell × Mark)) : List TxItem :=
  match cells with
  | [] => []
  | (c, m) :: rest => ownItem c cells.length m :: rest.map (fun e => ownItem e.1 0 e.2)

/-- Send a CTRL cell of context x toward logical port q. -/
def ctxCtrl (x q : Nat) (m : Mark) (c : Cell) (s : Sw) : Sw := ctxSend x q [ownItem c 1 m] s

end Sys2Proof.Machine
end

