-- ==== Sys2Proof/Machine/Clock.lean ====
section
/-! DEFINITION. Sources of time, the synchronisation state, offsets, steps and slewing, register writes that are discarded
(00 R9, R11; 05 R164 to R175; 12 R435; 18 R548). -/
namespace Sys2Proof.Machine

/-! ### A register write that is discarded (00 R9, R11; 12 R435; 18 R548) -/

/-- Count and record a discarded register write: cause 0 RSV field, 1 other breach, 2 reserved offset, 3 size or alignment. -/
def countDiscard (offset cause : Nat) (s : Sw) : Sw :=
  s.modGlb (fun g => { g with discards := g.discards + 1, discardAddr := BitVec.ofNat 32 (offset % 2 ^ 24 + place cause 24) })
/-- A register write is discarded, with event 0x0106 at most once per register and ms. -/
def regDiscard (func offset value cause : Nat) (s : Sw) : Sw :=
  let s := countDiscard offset cause s
  let due := match SMap.find? offset s.host.last0106 with
    | some t => decide (ms ≤ s.now - t)
    | none => true
  if due then raiseSys 0x0106 (le 4 offset ++ le 4 value ++ le 1 func)
    (s.modHost (fun h => { h with last0106 := h.last0106.set offset s.now }))
  else s

/-! ### The GTC (05 R160, R167) -/

/-- The GTC in sixteenths of a nanosecond. -/
def Sw.gtc16 (s : Sw) : Int := 16 * (s.gtc.toNat : Int) + s.time.frac
/-- Set the GTC from sixteenths of a nanosecond. -/
def setGtc16 (v : Int) (s : Sw) : Sw :=
  let n := (v % 2 ^ 68).toNat
  s.modTime (fun t => { t with gtc := BitVec.ofNat 64 (n / 16), frac := n % 16 })
/-- Time has come to a tick: the GTC stands at a multiple of 2^k ns, or time passes to the next one. A multiple at which the
GTC stands is no tick when a step has just led there, or when it is the instant `past`, after which the tick comes
(05 R167, R177, R178; DESIGN CHOICE, log 24). -/
def toTick (k : Nat) (past : Option Quad) (s : Sw) : Sw :=
  let r := s.gtc.toNat % 2 ^ k
  if r = 0 && s.time.stepTo != some s.gtc && past != some s.gtc then s
  else s.modTime (fun u => { u with gtc := u.gtc + BitVec.ofNat 64 (2 ^ k - r), frac := 0, elapsed := u.elapsed + (2 ^ k - r) })

/-! ### Sources (05 R164, R165) -/

/-- Rank of a candidate: the lists compare element by element, the lower wins. -/
def rankLt : List Nat → List Nat → Bool
  | [], _ => false
  | _, [] => false
  | a :: as, b :: bs => decide (a < b) || (a == b && rankLt as bs)
/-- SOURCE_CLASS of the switch's own entry. -/
def Sw.ownClass (s : Sw) : Nat := if s.sync.state == .holdover then 1 else 2
/-- The best in-band candidate: none stands for the switch itself (05 R165). -/
def Sw.bestInband (s : Sw) : Option Nat :=
  let own : List Nat := [s.ownClass, s.time.prio, Config.deviceId.toNat, 0, 4096]
  let best : List Nat × Option Nat := (s.sync.ann.filter (fun e => s.up e.1 && decide (e.2.steps < 15))).foldl
    (fun (b : List Nat × Option Nat) (e : Nat × Announce) =>
      let r := [e.2.cls, e.2.prio, e.2.sourceId.toNat, e.2.steps, e.1]
      if rankLt r b.1 then (r, some e.1) else b) (own, none)
  best.2
/-- The source that SOURCE and the candidates select (05 R164). -/
def Sw.wantSrc (s : Sw) : TimeSrc :=
  let inband := match s.bestInband with | some p => TimeSrc.port p | none => TimeSrc.self
  match s.time.source with
  | 0 => if s.sync.inValid then .input else inband
  | 1 => if s.sync.inValid then .input else .self
  | 2 => inband
  | _ => .self
/-- SOURCE_KIND. -/
def TimeSrc.kind (t : TimeSrc) : Nat := match t with | .self => 0 | .input => 1 | .port _ => 2
/-- SOURCE_PORT. -/
def TimeSrc.portNo (t : TimeSrc) : Nat := match t with | .port p => p | _ => 0xFFF
/-- SOURCE_ID that the switch announces with this source. -/
def Sw.srcId (s : Sw) (t : TimeSrc) : Quad :=
  match t with
  | .port p => (match SMap.find? p s.sync.ann with | some a => a.sourceId | none => 0)
  | _ => Config.deviceId
/-- SOURCE_CLASS, PRIORITY and STEPS that the switch announces (05 R165). -/
def Sw.announced (s : Sw) : Nat × Nat × Nat :=
  match s.sync.src with
  | .self => (s.ownClass, s.time.prio, 0)
  | .input => (0, s.time.prio, 0)
  | .port p => (match SMap.find? p s.sync.ann with | some a => (a.cls, a.prio, a.steps + 1) | none => (2, s.time.prio, 0))
/-- A source as event content: kind, port and SOURCE_ID. -/
def Sw.srcContent (s : Sw) (t : TimeSrc) : List Byte := le 1 t.kind ++ le 2 t.portNo ++ le 8 (s.srcId t).toNat
/-- STATE of TIME_SYNC_STATUS. -/
def SyncSt.code (t : SyncSt) : Nat := match t with | .freeRun => 0 | .acquire => 1 | .locked => 2 | .holdover => 3

/-- Select the source again (05 R166). `cause` numbers the loss: 1 timing input invalid, 2 three ANNOUNCE intervals, 3 the
time parent left UP (12 R423). `old` is the content that described the source before. A source other than the present one
leads to ACQUIRE; none but the switch itself to HOLDOVER from LOCKED, to FREE_RUN from ACQUIRE (DEDUCED, log 22). HOLDOVER holds
the last frequency correction, a free value within 100 ppm: the spec gives no servo law (log 5). -/
def reselect (cause : Nat) (old : List Byte) (s : Sw) : Sw :=
  let new := s.wantSrc
  if new == s.sync.src then s
  else
    let was := s.sync.state
    let clear (y : Sync) : Sync := { y with src := new, good := 0, bad := 0, t12 := none, req := none, pairs := [] }
    if new != .self then
      raiseSys 0x0303 (old ++ s.srcContent new) (s.modSync (fun y => { clear y with state := .acquire }))
    else match was with
      | .locked =>
        let (v, s) := s.draw
        let s := s.modTime (fun t => { t with slew := 0, freq := ((v.toNat % 201 : Nat) - 100, 0) })
        raiseSys 0x0301 (le 1 cause ++ le 1 3) (s.modSync (fun y => { clear y with state := .holdover, holdAt := s.now }))
      | .acquire => raiseSys 0x0301 (le 1 cause ++ le 1 0) (s.modSync (fun y => { clear y with state := .freeRun }))
      | _ => s.modSync clear
/-- Select again after a change that is no loss. -/
def reselectNow (s : Sw) : Sw := reselect 0 (s.srcContent s.sync.src) s
/-- The announcer on port p is gone: `cause` 2 or 3. -/
def dropAnnounce (p cause : Nat) (s : Sw) : Sw :=
  let old := s.srcContent s.sync.src
  reselect cause old (s.modSync (fun y => { y with ann := y.ann.erase p }))

/-! ### Offsets (05 R166, R167) -/

/-- An offset is measured, in sixteenths of a nanosecond. -/
def offsetMeasured (off : Int) (s : Sw) : Sw :=
  let s := s.modTime (fun t => { t with offset := off })
  let a := off.natAbs
  match s.sync.state with
  | .acquire =>
    if 16000 < a then
      let old := s.gtc
      let s := setGtc16 (s.gtc16 - off) s
      let s := (s.modTime (fun t => { t with steps := t.steps + 1, slew := 0, stepTo := some t.gtc })).modSync (fun y => { y with good := 0 })
      raiseSys 0x0302 (le 8 old.toNat ++ le 8 s.gtc.toNat) s
    else
      let n := if a ≤ 64 then s.sync.good + 1 else 0
      let s := (s.modTime (fun t => { t with slew := off })).modSync (fun y => { y with good := n })
      if n = 16 then raiseSys 0x0300 (s.srcContent s.sync.src) (s.modSync (fun y => { y with state := .locked, bad := 0 }))
      else s
  | .locked =>
    if a ≤ 16000 then
      let s := (s.modTime (fun t => { t with slew := off })).modSync (fun y => { y with bad := 0 })
      if 64 < a then raiseSys 0x0309 (leInt 4 off) s else s
    else
      let n := s.sync.bad + 1
      let s := s.modSync (fun y => { y with bad := n })
      if n = 4 then raiseSys 0x0301 (le 1 4 ++ le 1 1) (s.modSync (fun y => { y with state := .acquire, good := 0, bad := 0 }))
      else s
  | _ => s

/-! ### The timing input and output (05 R170 to R172) -/

/-- A timing message with these FLAGS and GTC_AT_MARK. -/
def timingMessage (domain flags : Nat) (mark : Quad) : BitVec 128 :=
  let body := place 0xD5C3 80 + place (domain % 256) 72 + place flags 64 + mark.toNat
  BitVec.ofNat 128 (place body 32 + crc32Bits (bitsMsb body 96))
/-- VALID and HOLDOVER of the timing output (05 R172). -/
def Sw.timingFlags (s : Sw) : Nat :=
  match s.sync.state with
  | .locked => 1
  | .holdover => 3
  | .freeRun => if s.time.source = 3 || s.time.source = 0 then 1 else 0
  | .acquire => 0
/-- Event 0x0308: 1 valid, 2 invalid (12 R423). -/
def inputEvent (what bad : Nat) (s : Sw) : Sw := raiseSys 0x0308 (le 1 what ++ le 4 bad) s
/-- The timing input becomes invalid. -/
def inputInvalid (s : Sw) : Sw :=
  let old := s.srcContent s.sync.src
  if !s.sync.inValid then s
  else reselect 1 old (inputEvent 2 s.sync.inBad (s.modSync (fun y => { y with inValid := false, inGood := 0 })))

/-! ### TIME cells (03 R102; 05 R173 to R175) -/

/-- A TIME payload: the stamp is filled in as the frame leaves. -/
def timeCell (ttype domain seqid : Nat) (fields : List Byte) : Cell :=
  { hdr := timeHdr ttype 0 domain seqid, pay := word64 (le 9 0 ++ fields) }
/-- Put the egress stamp into a TIME cell (03 R102). -/
def stampCell (s : Sw) (c : Cell) : Cell :=
  if c.tc == 6 then { c with pay := (c.pay &&& ~~~ dmask 0 9) ||| word64 (le 8 s.gtc.toNat ++ le 1 s.time.frac) } else c
/-- A TIME cell that passed the way in: another DOMAIN discards it (05 R173). -/
def timeArrive (p : Nat) (f : Cell → Sw → Sw) (oc : Option Cell) (s : Sw) : Sw :=
  match oc with
  | none => s
  | some c =>
    if c.tc != 6 then s
    else if c.domain != s.time.domain then
      (s.modCnt p (fun k => { k with domainDrop := k.domainDrop + 1 })).limited 0x030B p (1000 * ms)
        (raiseSys 0x030B (le 2 p ++ le 1 c.domain))
    else f c s
/-- A difference of stamps in sixteenths of a nanosecond, modulo 2^64 ns. -/
def stampDiff (a b : Int) : Int :=
  let d := (a - b) % 2 ^ 68
  if d < 2 ^ 67 then d else d - 2 ^ 68
/-- A stamp field at byte i, with its fraction at byte j. -/
def stampAt (c : Cell) (i j : Nat) : Int := 16 * (c.f i 8 : Int) + (c.f j 1 % 16 : Nat)

end Sys2Proof.Machine
end

