-- ==== Sys2Proof/Machine/Float.lean ====
section
/-! DEFINITION. The arithmetic of the update lanes and of the IEEE accumulators (02 R72, R73, R75; 07 R226, R229):
every operation is exact and rounded once into its format, to nearest with ties to even. -/
namespace Sys2Proof

/-- Bring two exact finite values to one denominator and exponent: numerators, denominator, exponent. -/
def alignNum (n1 d1 : Nat) (e1 : Int) (n2 d2 : Nat) (e2 : Int) : Nat × Nat × Nat × Int :=
  let e := min e1 e2
  ((n1 * d2) <<< (e1 - e).toNat, (n2 * d1) <<< (e2 - e).toNat, d1 * d2, e)

/-- Exact sum. A zero sum of operands of unlike sign is +0. -/
def Num.add (a b : Num) : Num :=
  match a, b with
  | .nan, _ => .nan
  | _, .nan => .nan
  | .inf s, .inf t => if s == t then .inf s else .nan
  | .inf s, _ => .inf s
  | _, .inf t => .inf t
  | .fin s n1 d1 e1, .fin t n2 d2 e2 =>
    let (x, y, d, e) := alignNum n1 d1 e1 n2 d2 e2
    if s == t then .fin s (x + y) d e
    else if x = y then .fin false 0 1 0
    else if x > y then .fin s (x - y) d e
    else .fin t (y - x) d e

/-- Negation. -/
def Num.neg : Num → Num
  | .nan => .nan
  | .inf s => .inf (!s)
  | .fin s n d e => .fin (!s) n d e

/-- Magnitude. -/
def Num.abs : Num → Num
  | .nan => .nan
  | .inf _ => .inf false
  | .fin _ n d e => .fin false n d e

/-- Exact product. -/
def Num.mul (a b : Num) : Num :=
  match a, b with
  | .nan, _ => .nan
  | _, .nan => .nan
  | .inf s, .inf t => .inf (s != t)
  | .inf s, .fin t n _ _ => if n = 0 then .nan else .inf (s != t)
  | .fin s n _ _, .inf t => if n = 0 then .nan else .inf (s != t)
  | .fin s n1 d1 e1, .fin t n2 d2 e2 => .fin (s != t) (n1 * n2) (d1 * d2) (e1 + e2)

/-- Exact quotient. -/
def Num.div (a b : Num) : Num :=
  match a, b with
  | .nan, _ => .nan
  | _, .nan => .nan
  | .inf _, .inf _ => .nan
  | .inf s, .fin t _ _ _ => .inf (s != t)
  | .fin s _ _ _, .inf t => .fin (s != t) 0 1 0
  | .fin s n1 d1 e1, .fin t n2 d2 e2 =>
    if n2 = 0 then (if n1 = 0 then .nan else .inf (s != t))
    else .fin (s != t) (n1 * d2) (d1 * n2) (e1 - e2)

/-- The value is zero. -/
def Num.isZero : Num → Bool
  | .fin _ n _ _ => n == 0
  | _ => false

/-- Strictly greater (false with a NaN). -/
def Num.gt (a b : Num) : Bool :=
  match a, b with
  | .nan, _ => false
  | _, .nan => false
  | .inf s, .inf t => !s && t
  | .inf s, _ => !s
  | _, .inf t => t
  | .fin s n1 d1 e1, .fin t n2 d2 e2 =>
    let (x, y, _, _) := alignNum n1 d1 e1 n2 d2 e2
    if x = 0 && y = 0 then false
    else match s, t with
      | false, true => true
      | true, false => false
      | false, false => decide (x > y)
      | true, true => decide (x < y)

/-- The order of IEEE minimum: -0 below +0 (02 R76, 07 R229). -/
def Num.lt0 (a b : Num) : Bool :=
  if Num.gt b a then true else
  match a, b with
  | .fin true n _ _, .fin false m _ _ => n == 0 && m == 0
  | _, _ => false

/-- IEEE minimum: NaN if either operand is NaN. -/
def Num.min (a b : Num) : Num :=
  match a, b with
  | .nan, _ => .nan
  | _, .nan => .nan
  | _, _ => if Num.lt0 b a then b else a

/-- IEEE maximum: NaN if either operand is NaN. -/
def Num.max (a b : Num) : Num :=
  match a, b with
  | .nan, _ => .nan
  | _, .nan => .nan
  | _, _ => if Num.lt0 a b then b else a

/-- Newton steps for the integer square root. -/
def isqrtGo : Nat → Nat → Nat → Nat
  | 0, _, x => x
  | fuel + 1, n, x =>
    let y := (x + n / x) / 2
    if y < x then isqrtGo fuel n y else x

/-- floor(sqrt n). -/
def isqrt (n : Nat) : Nat :=
  if n = 0 then 0 else isqrtGo (Nat.log2 n + 2) n (2 ^ (Nat.log2 n / 2 + 1))

/-- A square root with its first 300 or so bits and a last bit that says whether more follow, so that one rounding
into any format gives the correctly rounded root. -/
def sqrtRatio (num den : Nat) (exp : Int) : Nat × Int :=
  let ex := if exp % 2 = 0 then exp else exp - 1
  let n := if exp % 2 = 0 then num else 2 * num
  let s := n <<< 600
  let r := isqrt (s / den)
  let exact := r * r * den == s
  (2 * r + b2n (!exact), ex / 2 - 300 - 1)

/-- Square root. -/
def Num.sqrt : Num → Num
  | .nan => .nan
  | .inf s => if s then .nan else .inf false
  | .fin s n d e =>
    if n = 0 then .fin s 0 1 0 else if s then .nan else
    let (r, x) := sqrtRatio n d e
    .fin false r 1 x

/-- Reciprocal square root. -/
def Num.rsqrt : Num → Num
  | .nan => .nan
  | .inf s => if s then .nan else .fin false 0 1 0
  | .fin s n d e =>
    if n = 0 then .inf s else if s then .nan else
    let (r, x) := sqrtRatio d n (-e)
    .fin false r 1 x

/-- Fixed-point bits of the exponential and logarithm. -/
def expPrec : Nat := 400

/-- 2^f for a fraction f of `k` bits, as a fixed-point number of `expPrec` bits: the product of the roots
2^(2^-i) over the bits of f. -/
def exp2Frac (f k : Nat) : Nat :=
  let one := 1 <<< expPrec
  ((List.range k).foldl (fun (acc : Nat × Nat) i =>
    let root := isqrt (acc.2 <<< expPrec)
    (if f.testBit (k - 1 - i) then (acc.1 * root) >>> expPrec else acc.1, root)) (one, 2 * one)).1

/-- 2^a. The result is irrational unless a is an integer; 400 bits stand for it (the rounding of a format of at most
53 bits could differ from the exact one only for a run of more than 250 equal bits: DEDUCED, log 12). -/
def Num.exp2 : Num → Num
  | .nan => .nan
  | .inf s => if s then .fin false 0 1 0 else .inf false
  | .fin s n d e =>
    if n = 0 then .fin false 1 1 0 else
    let l := numLog2 n d e
    if l ≥ 12 then (if s then .fin false 1 1 (-5000) else .fin false 1 1 5000)
    else if l < -120 then (if s then .fin false (2 ^ 200 - 1) 1 (-200) else .fin false (2 ^ 200 + 1) 1 (-200))
    else
      let k : Nat := 180
      let sh : Int := e + k
      let m := if 0 ≤ sh then (n <<< sh.toNat) / d else n / (d <<< (-sh).toNat)
      let v : Int := if s then -(m : Int) else m
      let i := v / (2 ^ k : Int)
      let f := (v % (2 ^ k : Int)).toNat
      if f = 0 then .fin false 1 1 i else .fin false (2 * exp2Frac f k + 1) 1 (i - expPrec - 1)

/-- The first `k` bits of log2 of a fixed-point number in [1, 2), by repeated squaring. -/
def log2Frac (x k : Nat) : Nat :=
  let p := 600
  ((List.range k).foldl (fun (acc : Nat × Nat) _ =>
    let y := (acc.2 * acc.2) >>> p
    if y ≥ 2 <<< p then (2 * acc.1 + 1, y / 2) else (2 * acc.1, y)) (0, x)).1

/-- log2 a, irrational unless a is a power of two (accuracy as `Num.exp2`). -/
def Num.log2 : Num → Num
  | .nan => .nan
  | .inf s => if s then .nan else .inf false
  | .fin s n d e =>
    if n = 0 then .inf true else if s then .nan else
    let l := log2Ratio n d
    let i : Int := l + e
    let x := if 0 ≤ l then (n <<< 600) / (d <<< l.toNat) else (n <<< (600 + (-l).toNat)) / d
    if x = 1 <<< 600 then numOfInt i 0 else
    let k := 220
    let v : Int := i * (2 ^ k : Int) + (log2Frac x k : Int)
    let w := 2 * v + 1
    .fin (decide (w < 0)) w.natAbs 1 (-(k : Int) - 1)

/-- Precision of a kernel. -/
def precFmt (fp64lane : Bool) : FFmt := if fp64lane then fp64 else fp32

/-- A unary lane operation on encodings. -/
def lane1 (f : FFmt) (op : Num → Num) (a : Nat) : Nat := encodeIeee f (op (decodeNum f a))

/-- A binary lane operation on encodings. -/
def lane2 (f : FFmt) (op : Num → Num → Num) (a b : Nat) : Nat := encodeIeee f (op (decodeNum f a) (decodeNum f b))

/-- a * b + c with one rounding. -/
def laneFma (f : FFmt) (negA negC : Bool) (a b c : Nat) : Nat :=
  let x := if negA then (decodeNum f a).neg else decodeNum f a
  let z := if negC then (decodeNum f c).neg else decodeNum f c
  encodeIeee f ((x.mul (decodeNum f b)).add z)

/-- Addition in a format. -/
def fadd (f : FFmt) (a b : Nat) : Nat := lane2 f Num.add a b

/-- Conversion between float formats with one rounding. -/
def fconv (src dst : FFmt) (a : Nat) : Nat := encodeIeee dst (decodeNum src a)

/-- 1.0. -/
def fone (f : FFmt) : Nat := encodeIeee f (numOfInt 1 0)

/-- POWT: a^t with every multiplication rounded in PREC (07 R229). -/
def powt (f : FFmt) (a t : Nat) : Nat :=
  (List.range 32).foldl (fun r i =>
    let r2 := lane2 f Num.mul r r
    if t.testBit (31 - i) then lane2 f Num.mul r2 a else r2) (fone f)

end Sys2Proof
end

