-- ==== Sys2Proof/Machine/Grid.lean ====
section
/-! DEFINITION. The grid: conversion onto it, slot arithmetic, overflow and anchors, packed grid and float records, and
conversion off it (02 R38 to R81). -/
namespace Sys2Proof

/-- One grid cell on its way: 32 values and what a record carries with them. On the grid and for integers a value is the
exact integer; in a float record it is the raw encoding in the record's format (02 R52, R62, R66). -/
structure Part where
  /-- Values. -/
  vals : List Int
  /-- NAN mask. -/
  nan : Word := 0
  /-- PINF mask. -/
  pinf : Word := 0
  /-- NINF mask. -/
  ninf : Word := 0
  /-- EMAX. -/
  emax : Int := -32768
  /-- CLAMP, or OVF of a record. -/
  clamp : Bool := false
  /-- ATTEMPT. -/
  attempt : Nat := 0
  /-- NEXT_ANCHOR. -/
  next : Option Int := none
  deriving DecidableEq, Repr

/-- EMAX of a grid cell without finite nonzero elements (02 R50). -/
def emaxNone : Int := -32768

/-- w: the grid unit is 2^w (02 R44). -/
def gridW (a : Int) (g h : Nat) : Int := a - g + 1 + h

/-- The contribution limit C_G (02 R47). -/
def gridLimit (g : Nat) : Nat := if g = 128 then 2 ^ 111 - 1 else 2 ^ (g - 1) - 1

/-- The final limit 2^(G−1) − 1 (02 R44, R55). -/
def gridMax (g : Nat) : Nat := 2 ^ (g - 1) - 1

/-- A finite magnitude on the grid: rounded to nearest, ties to even, and clamped; whether it was clamped (02 R46, R47). -/
def gridRound (g : Nat) (w : Int) (neg : Bool) (num den : Nat) (exp : Int) : Int × Bool :=
  let q := roundInt .rne num den (exp - w)
  let c := gridLimit g
  let m := if q > c then c else q
  (if neg then -(m : Int) else m, decide (q > c))

/-- Convert the 32 values of a contribution onto the grid (02 R46 to R50). -/
def toGrid (g h : Nat) (a : Int) (vs : List Num) : Part :=
  let w := gridW a g h
  (vs.zip (List.range 32)).foldl (fun p vi =>
    match vi.1 with
    | .nan => { p with vals := p.vals ++ [0], nan := setBit p.nan vi.2 }
    | .inf neg => if neg then { p with vals := p.vals ++ [0], ninf := setBit p.ninf vi.2 }
                  else { p with vals := p.vals ++ [0], pinf := setBit p.pinf vi.2 }
    | .fin neg num den exp =>
      let (q, c) := gridRound g w neg num den exp
      { p with vals := p.vals ++ [q], clamp := p.clamp || c,
               emax := if num = 0 then p.emax else max p.emax (numLog2 num den exp) })
    ({ vals := [] } : Part)

/-- 128-bit two's-complement words of values. -/
def wrap128 (x : Int) : BitVec 128 := BitVec.ofInt 128 x

/-- Element-wise combination of two lists of values. -/
def zipVals (f : Int → Int → Int) (a b : List Int) : List Int := List.zipWith f a b

/-- Slot addition on the grid (02 R53). -/
def Part.add (a b : Part) : Part :=
  { a with
    vals := zipVals (· + ·) a.vals b.vals
    nan := a.nan ||| b.nan
    pinf := a.pinf ||| b.pinf
    ninf := a.ninf ||| b.ninf
    emax := max a.emax b.emax
    clamp := a.clamp || b.clamp }

/-- Bitwise operation on sign-extended 128-bit values (02 R76). -/
def bitOp (f : BitVec 128 → BitVec 128 → BitVec 128) (x y : Int) : Int := (f (wrap128 x) (wrap128 y)).toInt

/-- IEEE minimum or maximum of two FP64 encodings (02 R76). -/
def fminmax (isMax : Bool) (x y : Int) : Int :=
  lane2 fp64 (if isMax then Num.max else Num.min) x.toNat y.toNat

/-- Combination of two contributions under REDOP (0 SUM, 1 AVG, 2 MIN, 3 MAX, 4 AND, 5 OR, 6 XOR); `float` for float
MIN and MAX (02 R53, R76). -/
def Part.combine (redop : Nat) (float : Bool) (a b : Part) : Part :=
  match redop with
  | 2 => { a with vals := zipVals (if float then fminmax false else min) a.vals b.vals }
  | 3 => { a with vals := zipVals (if float then fminmax true else max) a.vals b.vals }
  | 4 => { a with vals := zipVals (bitOp (· &&& ·)) a.vals b.vals }
  | 5 => { a with vals := zipVals (bitOp (· ||| ·)) a.vals b.vals }
  | 6 => { a with vals := zipVals (bitOp (· ^^^ ·)) a.vals b.vals }
  | _ => Part.add a b

/-- The ACC format of a context (02 R43). -/
def accFmt (acc64 : Bool) : FFmt := if acc64 then fp64 else fp32

/-- Addition of two float parts in the ACC format (02 R73, R75). -/
def Part.addAcc (acc64 : Bool) (a b : Part) : Part :=
  { a with vals := zipVals (fun x y => (fadd (accFmt acc64) x.toNat y.toNat : Int)) a.vals b.vals }

/-- Conversion of contribution values into a float format (02 R70, R72). -/
def toFloat (f : FFmt) (vs : List Num) : Part := { vals := vs.map (fun v => (encodeIeee f v : Int)) }

/-- Values of the result beyond the final limit: R55's test for one grid cell. -/
def Part.overflows (g : Nat) (p : Part) : Bool :=
  p.clamp || p.vals.any (fun v => decide (v.natAbs > gridMax g))

/-- Saturation of R59, and how many elements it changed. -/
def Part.saturate (g : Nat) (p : Part) : Part × Nat :=
  let hi : Int := gridMax g
  ({ p with vals := p.vals.map (fun v => if v > hi then hi else if v < -hi then -hi else v) },
   (p.vals.filter (fun v => decide (v.natAbs > gridMax g))).length)

/-- Bit length of |S|. -/
def bitLen (x : Int) : Nat := if x = 0 then 0 else Nat.log2 x.natAbs + 1

/-- Clamp an anchor to [−1,100, 1,100] (02 R57, R60). -/
def clampAnchor (a : Int) : Int := max (-1100) (min 1100 a)

/-- The raised anchor before its clamp (02 R57). -/
def raisedAnchor (a : Int) (g h m : Nat) (b : Nat) (emax : Int) : Int :=
  max (max (a + b - g + h) emax) (a + 1 - m) + m

/-- The next anchor of a released segment (02 R60). -/
def nextAnchor (a emax : Int) (m : Nat) : Int := if emax = emaxNone then a else clampAnchor (emax + m)

/-! ### Records (02 R62 to R66) -/

/-- Bytes a value needs: the smallest L whose 8L bits sign-extend to it (02 R63). -/
def needBytes (x : Int) : Nat :=
  ((List.range 17).find? (fun l => decide ((BitVec.ofInt (8 * l) x).toInt = x))).getD 16

/-- One group: length byte and 8 elements (02 R63). -/
def encodeGroup (vs : List Int) : List Byte :=
  let l := vs.foldl (fun a v => max a (needBytes v)) 0
  le 1 l ++ (vs.map (fun v => le l (wrap128 v).toNat)).flatten

/-- A packed grid record; `up` for COLL-UP (02 R62, R63). -/
def encodePacked (up : Bool) (p : Part) : List Byte :=
  let sp := !(p.nan == 0 && p.pinf == 0 && p.ninf == 0)
  let em := up && p.emax != emaxNone
  let na := !up && p.next.isSome
  le 1 (place (p.attempt % 8) 5 + place (b2n na) 3 + place (b2n sp) 2 + place (b2n em) 1 + b2n p.clamp) ++
    (if em then leInt 2 p.emax else []) ++ (if na then leInt 2 (p.next.getD 0) else []) ++
    (if sp then le 4 p.nan.toNat ++ le 4 p.pinf.toNat ++ le 4 p.ninf.toNat else []) ++
    ((chunks 8 p.vals).map encodeGroup).flatten

/-- A float record with elements of `b` bytes (02 R66). -/
def encodeFloatRec (b : Nat) (p : Part) : List Byte :=
  le 1 (place (p.attempt % 8) 5 + b2n p.clamp) ++ (p.vals.map (fun v => le b v.toNat)).flatten

/-- Decode `n` groups; the number of the first failed test, or the values (02 R63, R65). -/
def decodeGroups : Nat → List Byte → Except Nat (List Int)
  | 0, _ => .ok []
  | n + 1, bs =>
    match bs with
    | [] => .error 6
    | h :: t =>
      if h.toNat ≥ 32 then .error 1
      else
        let l := h.toNat
        if l > 16 then .error 3
        else if t.length < 8 * l then .error 6
        else
          let vs := (List.range 8).map (fun i => (BitVec.ofNat (8 * l) (bytesAt t (l * i) l)).toInt)
          match decodeGroups n (t.drop (8 * l)) with
          | .ok rest => .ok (vs ++ rest)
          | .error e => .error e

/-- Decode a packed grid record (02 R62, R63, R65). -/
def decodePacked (up : Bool) (bs : List Byte) : Except Nat Part :=
  let fl := byteAt bs 0
  let attempt := fl / 32
  let na := fl.testBit 3
  let sp := fl.testBit 2
  let em := fl.testBit 1
  let i := 1
  let emax := if em then toS16 (bytesAt bs i 2) else emaxNone
  let i := if em then i + 2 else i
  let next := if na then some (toS16 (bytesAt bs i 2)) else none
  let i := if na then i + 2 else i
  let m (k : Nat) : Word := if sp then BitVec.ofNat 32 (bytesAt bs (i + 4 * k) 4) else 0
  let j := if sp then i + 12 else i
  let groups := decodeGroups 4 (bs.drop j)
  let failed := (if fl.testBit 4 then [1] else []) ++ (if attempt > 4 then [2] else []) ++
    (if (up && na) || (!up && em) then [4] else []) ++ (match groups with | .error e => [e] | .ok _ => [])
  match minOf failed, groups with
  | some e, _ => .error e
  | none, .error e => .error e
  | none, .ok vs => .ok { vals := vs, nan := m 0, pinf := m 1, ninf := m 2, emax := emax, clamp := fl.testBit 0,
                          attempt := attempt, next := next }

/-- Decode a float record with elements of `b` bytes (02 R65, R66). -/
def decodeFloatRec (b : Nat) (bs : List Byte) : Except Nat Part :=
  let fl := byteAt bs 0
  if fl / 2 % 16 != 0 then .error 1
  else if fl / 32 > 4 then .error 2
  else if bs.length < 1 + 32 * b then .error 6
  else .ok { vals := (List.range 32).map (fun i => (bytesAt bs (1 + b * i) b : Int)), attempt := fl / 32,
             clamp := fl.testBit 0 }

/-- Cut a record into parts: payloads with the PART byte (02 R64). -/
def recordParts (bs : List Byte) : List (BitVec 512) :=
  let cs := chunks 63 bs
  (cs.zip (List.range cs.length)).map (fun ci => word64 (le 1 ((cs.length - 1) * 16 + ci.2) ++ ci.1))

/-! ### Conversion off the grid (02 R67 to R71, R76, R79 to R81) -/

/-- The value of element i of a grid result: special bits first, then q × u / n (02 R67, R68, R71). -/
def gridNum (p : Part) (w : Int) (n i : Nat) : Num :=
  if bit p.nan i || (bit p.pinf i && bit p.ninf i) then .nan
  else if bit p.pinf i then .inf false
  else if bit p.ninf i then .inf true
  else
    let q := p.vals.getD i 0
    .fin (decide (q < 0)) q.natAbs n w

/-- What a result's values are (02 R76): grid integers, integers, or encodings of a float record. -/
inductive ValKind where
  | grid | int | float (acc64 : Bool)
  deriving DecidableEq, Repr

/-- The value of element i of a float-format result; a float AVG divides in the ACC format (02 R67, R71). -/
def resultNum (k : ValKind) (p : Part) (w : Int) (n i : Nat) : Num :=
  match k with
  | .grid => gridNum p w n i
  | .int => numOfInt (p.vals.getD i 0) 0
  | .float acc64 =>
    let f := accFmt acc64
    let raw := (p.vals.getD i 0).toNat
    decodeNum f (if n = 1 then raw else lane2 f Num.div raw (encodeIeee f (numOfInt n 0)))

/-- Rounding used for element i (02 R79, R80). -/
def resultRnd (dith : Option (Quad × Nat × Nat)) (code i : Nat) : Rnd :=
  match dith with
  | none => .rne
  | some (seed, t, c) => .dith (dither seed t c code i)

/-- Raw elements of a result in a plain format, and how many saturated; `bits` for AND, OR and XOR, whose output is the
low bits (02 R67, R68, R71, R76). -/
def resultElems (k : ValKind) (p : Part) (w : Int) (n code : Nat) (bits : Bool) (dith : Option (Quad × Nat × Nat)) :
    List (Nat × Bool) :=
  (List.range 32).map (fun i =>
    if isIntFmt code then
      let v := p.vals.getD i 0
      if bits then ((BitVec.ofInt (elemBits code) v).toNat, false)
      else encodeIntSat (elemBits code) (rneDiv v n)
    else encodeSat (elemFmt code) (resultRnd dith code i) (resultNum k p w n i))

/-- An MX block of a result (02 R69). -/
def resultMx (k : ValKind) (p : Part) (w : Int) (n code : Nat) (dith : Option (Quad × Nat × Nat)) : BitVec 512 :=
  encodeMx code ((List.range 32).map (resultNum k p w n)) (resultRnd dith code)
/-- Elements of it that saturate (02 R69, R82). -/
def resultMxSat (k : ValKind) (p : Part) (w : Int) (n code : Nat) (dith : Option (Quad × Nat × Nat)) : Nat :=
  mxSaturated code ((List.range 32).map (resultNum k p w n)) (resultRnd dith code)

/-! ### Sum of squares (02 R77, R78) -/

/-- The square of q units of 2^w on the grid of unit 2^(2·A_N − 70). -/
def squareOn (an : Int) (q w : Int) : Nat := roundInt .rne (q * q).natAbs 1 (2 * w - (2 * an - 70))

/-- Align a word to a larger A_N (02 R78). -/
def alignWord (word : Nat) (an anMax : Int) : Nat := roundInt .rne word 1 (-(2 * (anMax - an)))

end Sys2Proof
end

