-- ==== Sys2Proof/Machine/Operands.lean ====
section
/-! DEFINITION. The operand forms: operation blocks, canopy records, the geometry of an operation over grid cells,
segments and ranks, and the way a received cell reaches its context (02 R39 to R45; 03 R109 to R111; 04 R124 to R126,
R132 to R134, R139, R143; 06 R193 to R195, R203, R210, R215; 10 R340). -/
namespace Sys2Proof.Machine

/-! ### Operation block (04 R132) -/

/-- Kind of operation. -/
def kAllReduce : Nat := 0
/-- REDUCE_SCATTER. -/
def kReduceScatter : Nat := 1
/-- ALL_GATHER. -/
def kAllGather : Nat := 2
/-- BROADCAST. -/
def kBroadcast : Nat := 3
/-- REDUCE. -/
def kReduce : Nat := 4
/-- BARRIER. -/
def kBarrier : Nat := 5
/-- ALL_TO_ALL. -/
def kAllToAll : Nat := 6
/-- PERMUTE. -/
def kPermute : Nat := 7

/-- OPNUM of a block. -/
def blkOpnum (b : BitVec 256) : Nat := field b 0 32
/-- OPKIND. -/
def blkKind (b : BitVec 256) : Nat := field b 32 4
/-- REDOP. -/
def blkRedop (b : BitVec 256) : Nat := field b 36 4
/-- LAUNCH. -/
def blkLaunch (b : BitVec 256) : Nat := field b 41 2
/-- PRUNE. -/
def blkPrune (b : BitVec 256) : Bool := bit b 43
/-- ROOT. -/
def blkRoot (b : BitVec 256) : Nat := field b 48 16
/-- ELEMENTS. -/
def blkE (b : BitVec 256) : Nat := field b 64 32
/-- ANCHOR_OFFSET. -/
def blkB (b : BitVec 256) : Nat := field b 96 32
/-- LAUNCH_GTC. -/
def blkGtc (b : BitVec 256) : Nat := field b 128 64
/-- A reserved bit of the block is 1 (04 R132). -/
def blkReserved (b : BitVec 256) : Bool := bit b 40 || field b 44 4 != 0 || field b 192 64 != 0
/-- SIGNATURE of a block (04 R136). -/
def blkSignature (b : BitVec 256) : Quad := crc64 (le 32 b.toNat)
/-- The operation is a reduction. -/
def blkReduces (b : BitVec 256) : Bool := blkKind b == 0 || blkKind b == 1 || blkKind b == 4
/-- The operation is an exchange. -/
def blkExchange (b : BitVec 256) : Bool := blkKind b == 6 || blkKind b == 7

/-- The operation is still open (09 R290). -/
def Op.isOpen (p : Op) : Bool := p.st != .done && p.st != .failed

/-- A store reduction: a REDUCE_SCATTER of a store context with SUM or AVG (06 R203). -/
def Ctx.storeReduction (c : Ctx) (b : BitVec 256) : Bool := c.store.isSome && blkKind b == 1 && decide (blkRedop b ≤ 1)
/-- A store gather: an ALL_GATHER of a store context (06 R210). -/
def Ctx.storeGather (c : Ctx) (b : BitVec 256) : Bool := c.store.isSome && blkKind b == 2

/-- Grid cells of an operation: ceil(E / 32); none for a barrier or exchange (02 R41). -/
def cellsOf (b : BitVec 256) : Nat := if blkKind b ≤ 4 then (blkE b + 31) / 32 else 0
/-- Segment of grid cell k (02 R45). -/
def segOf (c : Ctx) (b : BitVec 256) (k : Nat) : Nat := (blkB b + 32 * k) / 2 ^ c.cfg.seglenLog2
/-- First grid cell of segment g of an operation, and one past its last. -/
def segCells (c : Ctx) (b : BitVec 256) (g : Nat) : Nat × Nat :=
  let len := 2 ^ c.cfg.seglenLog2
  ((g * len - blkB b) / 32, min (cellsOf b) (((g + 1) * len - blkB b + 31) / 32))
/-- The last segment of an operation. -/
def lastSeg (c : Ctx) (b : BitVec 256) : Nat := segOf c b (cellsOf b - 1)
/-- The operation covers segment g. -/
def coversSeg (c : Ctx) (b : BitVec 256) (g : Nat) : Bool :=
  cellsOf b != 0 && decide (segOf c b 0 ≤ g) && decide (g ≤ lastSeg c b)

/-- Elements of one rank's part: E / n for REDUCE_SCATTER and ALL_GATHER (04 R132). -/
def partLen (b : BitVec 256) (n : Nat) : Nat := if n = 0 then 0 else blkE b / n
/-- The rank that owns grid cell k of a REDUCE_SCATTER or ALL_GATHER (04 R132, R143). -/
def ownerRank (b : BitVec 256) (n k : Nat) : Nat := if partLen b n = 0 then 0 else 32 * k / partLen b n

/-- First element and element count of rank r's contribution (04 R132). -/
def contribPart (c : Ctx) (b : BitVec 256) (r : Nat) : Nat × Nat :=
  if c.storeGather b then (0, 0)
  else match blkKind b with
    | 2 => (r * partLen b c.canopy.members, partLen b c.canopy.members)
    | 3 => if blkRoot b = r then (0, blkE b) else (0, 0)
    | _ => (0, blkE b)
/-- First element and element count of rank r's result (04 R132). -/
def resultPart (c : Ctx) (b : BitVec 256) (r : Nat) : Nat × Nat :=
  if c.storeReduction b then (0, 0)
  else match blkKind b with
    | 1 => (r * partLen b c.canopy.members, partLen b c.canopy.members)
    | 4 => if blkRoot b = r then (0, blkE b) else (0, 0)
    | _ => (0, blkE b)
/-- Member cells of `len` elements at `ec` per cell. -/
def memberCells (len ec : Nat) : Nat := (len + ec - 1) / ec

/-! ### Canopy and direction (04 R124, R143; 06 R195) -/

/-- The child entry of a logical port. -/
def Canopy.child (k : Canopy) (q : Nat) : Option Child := k.children.find? (fun e => e.port == q)
/-- The member child backed by this port. -/
def Canopy.primaryOf (k : Canopy) (q : Nat) : Option Child := k.children.find? (fun e => !e.isSwitch && e.backup == some q)
/-- The child whose ranks hold r. -/
def Canopy.childOfRank (k : Canopy) (r : Nat) : Option Child :=
  k.children.find? (fun e => decide (e.rankFirst ≤ r) && decide (r < e.rankFirst + e.rankCount))
/-- Switch ports of the canopy: the parent and the switch children. -/
def Canopy.switchPorts (k : Canopy) : List Nat :=
  (match k.parent with | some p => [p] | none => []) ++ (k.children.filter (fun e => e.isSwitch)).map (fun e => e.port)
/-- Member children. -/
def Canopy.memberChildren (k : Canopy) : List Child := k.children.filter (fun e => !e.isSwitch)
/-- Shard number and entry of a parameter. -/
def Canopy.shardAt (k : Canopy) (p : Nat) : Option (Nat × ShardEnt) :=
  ((List.range k.shards.length).zip k.shards).find? (fun e => decide (e.2.first ≤ p) && decide (p < e.2.first + e.2.count))
/-- Shard entry k. -/
def Canopy.shard (c : Canopy) (k : Nat) : Option ShardEnt := c.shards[k]?

/-- Shard of grid cell k of a store operation. -/
def cellShard (c : Ctx) (b : BitVec 256) (k : Nat) : Option (Nat × ShardEnt) := c.canopy.shardAt (blkB b + 32 * k)

/-- The port toward the root of grid cell k; none where this switch acts as root (06 R195). -/
def upPort (c : Ctx) (b : BitVec 256) (k : Nat) : Option Nat :=
  if c.storeReduction b || c.storeGather b then (match cellShard c b k with | some e => e.2.toward | none => none)
  else c.canopy.parent
/-- Ports whose bits complete grid cell k (04 R143; 06 R195). -/
def expected (c : Ctx) (b : BitVec 256) (k : Nat) : List Nat :=
  if c.storeReduction b then
    let up := upPort c b k
    (c.canopy.children.map (fun e => e.port) ++ (match c.canopy.parent with | some p => [p] | none => [])).filter
      (fun q => up != some q)
  else match blkKind b with
    | 2 => ((c.canopy.childOfRank (ownerRank b c.canopy.members k)).map (fun e => e.port)).toList
    | 3 => ((c.canopy.childOfRank (blkRoot b)).map (fun e => e.port)).toList
    | _ => c.canopy.children.map (fun e => e.port)
/-- Grid cell k passes this switch's collective path: some child contributes to it (04 R139). -/
def passes (c : Ctx) (b : BitVec 256) (k : Nat) : Bool := !c.storeGather b && !(expected c b k).isEmpty
/-- Ports to which the result of grid cell k goes (04 R144; 06 R210). -/
def targets (c : Ctx) (b : BitVec 256) (k : Nat) : List Nat :=
  if c.storeReduction b then []
  else if c.storeGather b then
    let up := upPort c b k
    (c.canopy.children.map (fun e => e.port) ++ c.canopy.parent.toList).filter (fun q => up != some q)
  else match blkKind b with
    | 1 => ((c.canopy.childOfRank (ownerRank b c.canopy.members k)).map (fun e => e.port)).toList
    | 4 => ((c.canopy.childOfRank (blkRoot b)).map (fun e => e.port)).toList
    | _ => c.canopy.children.map (fun e => e.port)
/-- Some result of the operation passes this switch (09 R285). -/
def hasResults (c : Ctx) (b : BitVec 256) : Bool :=
  !c.storeReduction b && decide (blkKind b ≤ 4) &&
    (List.range (cellsOf b)).any (fun k => !(targets c b k).isEmpty)
/-- This switch is the canopy root. -/
def Ctx.isRoot (c : Ctx) : Bool := c.canopy.role == 2

/-- Layout epoch of an operation (06 R215). -/
def Ctx.epochOf (c : Ctx) (o : Nat) : Nat :=
  match c.lepochs.find? (fun e => decide (e.2 ≤ o)) with
  | some e => e.1
  | none => 0
/-- LE of an operation. -/
def Ctx.leOf (c : Ctx) (o : Nat) : Nat := c.epochOf o % 2

/-- The operation record that OPSEQ names: among the records held it is one (04 R133, R156). -/
def Ctx.opOfSeq (c : Ctx) (seq : Nat) : Option (Nat × Op) := List.find? (fun (e : Nat × Op) => e.1 % 64 == seq) c.ops
/-- Window base (04 R133). An operation not yet opened below the oldest open one, which only an OP_POST ahead of the joins
can leave, keeps the base at itself (DEDUCED, log 15). -/
def Ctx.windowBase (c : Ctx) : Nat :=
  match List.find? (fun (e : Nat × Op) => e.2.isOpen) c.ops with
  | some e => min e.1 c.nextOp
  | none => c.nextOp
/-- Some operation is open. -/
def Ctx.anyOpen (c : Ctx) : Bool := c.ops.any (fun e => e.2.isOpen)

/-- How the values of an operation are reduced (02 R53, R66, R70, R72 to R76; 04 R144). -/
inductive Mode where
  /-- On the grid. -/
  | grid
  /-- Integers. -/
  | int
  /-- Float records of FP64: MIN, MAX, ALL_GATHER, BROADCAST. -/
  | f64
  /-- DET-TREE in the ACC format. -/
  | tree
  /-- FAST in the ACC format. -/
  | fast
  deriving DecidableEq, Repr

/-- The mode of an operation. -/
def Ctx.mode (c : Ctx) (p : Op) : Mode :=
  if c.storeGather p.blk then .f64
  else if p.sform = 2 then .int
  else if !blkReduces p.blk || blkRedop p.blk == 2 || blkRedop p.blk == 3 then .f64
  else match c.cfg.cls with | 0 => .grid | 1 => .tree | _ => .fast
/-- Value kind of the results of a mode. -/
def Ctx.valKind (c : Ctx) (p : Op) : ValKind :=
  if c.storeGather p.blk then .float (match c.store with | some t => t.m64 | none => false)
  else match c.mode p with | .grid => .grid | .int => .int | .f64 => .float true | _ => .float c.cfg.acc64
/-- Bytes of a float-record element; 0 for a packed grid record. -/
def Ctx.recBytes (c : Ctx) (p : Op) : Nat :=
  match c.valKind p with | .float w => (if w then 8 else 4) | _ => 0

/-- Slots one grid cell takes (04 R139). -/
def slotsPerCell (cfg : CtxCfg) (children : Nat) : Nat :=
  if cfg.cls = 1 then (if cfg.acc64 then (children + 1) / 2 else (children + 3) / 4) else 1

/-- The anchor entry of a segment (02 R45; 11 R368). -/
def Ctx.anchor (c : Ctx) (g : Nat) : Anchor := c.anchors.getD g { cur := c.cfg.a0 }
/-- Operation o of the context has written the entry (09 R308, R310). -/
def Anchor.setBy (e : Anchor) (o : Nat) : Bool := e.isSet && !e.copied && e.setOp == o
/-- Write an anchor for operation o (09 R308). -/
def Ctx.writeAnchor (c : Ctx) (g o : Nat) (a : Int) (attempt : Nat) : Ctx :=
  let e := c.anchor g
  let e := if e.setBy o then { e with cur := a, attempt := attempt }
           else { e with prev := e.cur, prevOp := if e.isSet then e.setOp else 4294967295, cur := a, setOp := o,
                         attempt := attempt, isSet := true, copied := false }
  { c with anchors := c.anchors.set g e }
/-- The anchor with which operation o converts in segment g: its own replays overwrite CUR; once it has released, PREV
or its last CUR before release is what it used (02 R51, R58; 09 R308). -/
def Ctx.convAnchor (c : Ctx) (p : Op) (o g : Nat) : Int :=
  let e := c.anchor g
  if e.setBy o && p.released.contains g then e.prev else e.cur
/-- The segment's current ATTEMPT for operation o (02 R58). -/
def Ctx.attemptOf (c : Ctx) (o g : Nat) : Nat :=
  let e := c.anchor g
  if e.setBy o then e.attempt else 0

/-- Key of a slot. -/
def slotKey (o k : Nat) : Nat := o * 2 ^ 24 + k
/-- Key of a staged member cell or of a result cell in the making. -/
def cellKey (q k : Nat) : Nat := q * 2 ^ 24 + k

/-! ### Canopy records from host memory (04 R124, R126; 06 R193, R194) -/

/-- 0xFFFF names no port. -/
def optPort (n : Nat) : Option Nat := if n = 0xFFFF then none else some n

/-- A child entry from its 16 bytes. -/
def parseChild (b : List Byte) : Child :=
  { port := bytesAt b 0 2, isSwitch := byteAt b 2 == 1, rankFirst := bytesAt b 4 2, rankCount := bytesAt b 8 4,
    mctx := optPort (bytesAt b 12 2), backup := optPort (bytesAt b 14 2) }
/-- A shard entry from its 32 bytes. -/
def parseShard (b : List Byte) : ShardEnt :=
  { first := bytesAt b 0 4, count := bytesAt b 4 4, toward := optPort (bytesAt b 8 2), mirror := optPort (bytesAt b 10 2),
    srole := byteAt b 12, layer := bytesAt b 14 2, ugroup := bytesAt b 16 2 }
/-- The canopy record in host bytes. -/
def parseCanopy (b : List Byte) : Canopy :=
  let nc := bytesAt b 4 2
  let ns := bytesAt b 6 2
  { role := byteAt b 0, level := byteAt b 1, parent := optPort (bytesAt b 2 2), members := bytesAt b 8 4,
    mepoch := bytesAt b 12 4,
    children := (List.range nc).map (fun i => parseChild ((b.drop (32 + 16 * i)).take 16)),
    shards := (List.range ns).map (fun i => parseShard ((b.drop (32 + 16 * nc + 32 * i)).take 32)) }
/-- Reserved bytes, bits and encodings of a canopy record are 0, and its length fits (04 R126; 06 R193). A LEVEL outside 2 to 5 is
no encoding of the field (DEDUCED, log 130). -/
def canopyForm (b : List Byte) (len : Nat) : Bool :=
  let nc := bytesAt b 4 2
  let ns := bytesAt b 6 2
  decide (b.length ≥ len) && decide (len = 32 + 16 * nc + 32 * ns) && decide (byteAt b 0 ≤ 2) && decide (1 ≤ nc) &&
    decide (nc ≤ 512) && allZero ((b.drop 16).take 16) && decide (2 ≤ byteAt b 1) && decide (byteAt b 1 ≤ 5) &&
    decide (1 ≤ bytesAt b 8 4) && decide (bytesAt b 8 4 ≤ 65536) &&
    (List.range nc).all (fun i =>
      let e := (b.drop (32 + 16 * i)).take 16
      decide (byteAt e 2 ≤ 1) && byteAt e 3 == 0 && bytesAt e 6 2 == 0) &&
    (List.range ns).all (fun i =>
      let e := (b.drop (32 + 16 * nc + 32 * i)).take 32
      decide (byteAt e 12 ≤ 2) && byteAt e 13 == 0 && allZero (e.drop 18))

/-- Pairwise distinct. -/
def distinct (l : List Nat) : Bool := l.length == (dedup l).length

/-- A port is an FL2 or FL1 member port. -/
def Sw.mappedPort (s : Sw) (p : Nat) : Bool := s.pers p == 1 || s.pers p == 2

/-- R126 for a canopy record of a context of job j; `own` is the context, whose own map entries do not count against it. -/
def canopyValid (s : Sw) (own j : Nat) (k : Canopy) : Bool :=
  let ports := k.children.map (fun e => e.port)
  distinct ports &&
    k.children.all (fun e =>
      s.up e.port && decide (1 ≤ e.rankCount) && decide (e.rankFirst + e.rankCount ≤ k.members) &&
        (if e.isSwitch then s.isSwitch e.port && e.mctx.isNone && e.backup.isNone
         else s.isMember e.port && e.rankCount == 1 && s.binding e.port == some ⟨j, e.rankFirst, false⟩ &&
           (match e.backup with
            | some bp => s.isMember bp && bp != e.port && !ports.contains bp &&
                s.binding bp == some ⟨j, e.rankFirst, true⟩
            | none => true) &&
           (let mapped := ([e.port] ++ e.backup.toList).filter s.mappedPort
            match e.mctx with
            | some m => decide (m < 1024) && !mapped.isEmpty && mapped.all (fun p =>
                match SMap.find? m (s.port p).reg.ctxMap with
                | some x => x == own
                | none => true)
            | none => mapped.isEmpty))) &&
    -- ranges are disjoint
    (k.children.all (fun e => k.children.all (fun f => e.port == f.port ||
      decide (e.rankFirst + e.rankCount ≤ f.rankFirst) || decide (f.rankFirst + f.rankCount ≤ e.rankFirst)))) &&
    distinct (k.children.filterMap (fun e => e.backup)) &&
    (match k.role with
     | 2 => k.parent.isNone && k.children.foldl (fun a e => a + e.rankCount) 0 == k.members
     | r => (if r = 0 then k.children.any (fun e => !e.isSwitch) else k.children.all (fun e => e.isSwitch)) &&
        (match k.parent with
         | some p => decide (p < 512) && (s.port p).reg.state != .absent && !ports.contains p &&
             !(k.children.filterMap (fun e => e.backup)).contains p
         | none => false))

/-- R194 for the shard entries of a canopy record of a context with this SEGLEN. -/
def shardsValid (s : Sw) (seglen : Nat) (k : Canopy) : Bool :=
  (k.shards.all (fun e =>
    decide (e.first % seglen = 0) && decide (e.count ≠ 0) && decide (e.count % 32 = 0) &&
      decide (e.first + e.count ≤ 2 ^ 32) && ((e.srole == 1) == e.toward.isNone) &&
      (match e.toward with
       | some p => k.switchPorts.contains p
       | none => true) &&
      (match e.mirror with
       | some p => s.up p && (s.port p).reg.partnerRole == 2 && decide (e.srole ≠ 0)
       | none => true))) &&
    ((k.shards.zip (k.shards.drop 1)).all (fun e => decide (e.1.first + e.1.count ≤ e.2.first)))

/-! ### A received cell (03 R98, R108, R109, R111; 10 R330, R340) -/

/-- Channel vc of a link counts k cells as freed. -/
def PortLink.free (vc k : Nat) (l : PortLink) : PortLink :=
  { l with
    freed := setNth l.freed vc (nth 0 l.freed vc + BitVec.ofNat 16 k)
    freedNew := setNth l.freedNew vc (nth 0 l.freedNew vc + k) }
/-- Free one cell of a channel (03 R96): the port owes a CREDIT cell after 32. While the port paces its member, credit of REQ-A and
FWD-A is held back first (10 R356). -/
def freeCredit (p vc : Nat) (s : Sw) : Sw :=
  if (vc == 0 || vc == 4) && !(s.port p).q.limiters.isEmpty then
    let now := s.now
    s.modLink p (fun l => { l with paced := l.paced ++ [vc], pacedAt := if l.paced.isEmpty then now else l.pacedAt })
  else s.modLink p (PortLink.free vc 1)
/-- Credit held back that is due: the lowest rate of the active limiters spaces it, in sixty-fourths of the port rate (10 R356). -/
def payPaced (p : Nat) (s : Sw) : Sw :=
  let l := (s.port p).link
  let now := s.now
  if l.paced.isEmpty then s else
  match (s.port p).q.limiters.map (fun e => e.rate) with
  | [] => s.modLink p (fun l => l.paced.foldl (fun l vc => l.free vc 1) { l with paced := [] })
  | r :: rs =>
    let due := s.slotsIn p ((now - l.pacedAt) * rs.foldl min r) / 64
    if due = 0 then s
    else s.modLink p (fun l => (l.paced.take due).foldl (fun l vc => l.free vc 1) { l with paced := l.paced.drop due, pacedAt := now })

/-- Body of a CREDIT cell (03 R96, R101). -/
def creditCell (l : PortLink) : Cell :=
  { hdr := ctrlHdr ctCredit 0 0 noMember 0 0, pay := word64 ((l.freed.map (fun f => le 2 f.toNat)).flatten) }

/-- Send a CREDIT cell unless a take-over of the port's tile withholds it: what it returns is outstanding again (01 R21; 03 R95,
R96). -/
def sendCredit (p : Nat) (s : Sw) : Sw :=
  if s.takingOver (p / 4) || !s.up p then s else
  let c := creditCell (s.port p).link
  sendCtrl p c (s.modLink p (fun l => { l with
    freedNew := List.replicate 16 0, rxCredit := (List.range 16).map (fun v => nth 0 l.rxCredit v + nth 0 l.freedNew v) }))

/-- A cell of channel vc is freed: credit that is due goes back with a CREDIT cell once 32 are freed (03 R96; 10 R356). -/
def creditBack (p vc : Nat) (s : Sw) : Sw :=
  let s := payPaced p (freeCredit p vc s)
  if (s.port p).link.freedNew.any (fun n => decide (n ≥ 32)) then sendCredit p s else s

/-- The cell leaves the receive buffer when it stands there: its credit is freed. -/
def consume (p : Nat) (c : Cell) (s : Sw) : Sw :=
  match (s.port p).q.rxq.find? (fun i => i.cell == c) with
  | none => s
  | some it => creditBack p it.vc (s.modQ p (fun q => { q with rxq := q.rxq.erase it }))

/-- The channel on which a cell stands in the receive buffer; the class's first for one that does not. -/
def Sw.rxVc (s : Sw) (p : Nat) (c : Cell) : Nat :=
  match (s.port p).q.rxq.find? (fun i => i.cell == c) with
  | some i => i.vc
  | none => firstVc c.tc

/-- A reserved header (03 R98, R100): counted and reported. -/
def badHeader (p : Nat) (c : Cell) (s : Sw) : Sw :=
  let s := s.modCnt p (fun k => { k with hdrErr := k.hdrErr + 1 })
  s.limited 0x0707 p ms (raiseSys 0x0707 (le 2 p ++ le 8 c.hdr.toNat))

/-- A member's cell is discarded at its port tile (03 R108, R109; 04 R140). -/
def idDiscard (p : Nat) (s : Sw) : Sw := s.modCnt p (fun k => { k with idDiscard := k.idDiscard + 1 })

/-- A cell fails R109: the field is 1 JOB, 2 SRC, 3 MEMBER or PEER. -/
def bindingDiscard (p fieldNo : Nat) (s : Sw) : Sw :=
  (idDiscard p s).limited 0x0705 p ms (raiseSys 0x0705 (le 2 p ++ le 1 fieldNo))

/-- A cell names an invalid entry of the context map (03 R111). -/
def unmapped (p m : Nat) (s : Sw) : Sw :=
  (idDiscard p s).limited 0x0706 p ms (raiseSys 0x0706 (le 2 p ++ le 2 m))

/-- The check and substitution of R109 for an FL3 or FL2 member's cell. Where no operation held here has the cell's OPSEQ, LE is the
low bits of the epoch of the next operation to open (DEDUCED, log 128). -/
def memberCheck (p : Nat) (bd : Binding) (c : Cell) (s : Sw) : Option Cell × Sw :=
  if c.tc ≤ 2 then
    if c.job != bd.job then (none, bindingDiscard p 1 s)
    else if c.src != bd.rank then (none, bindingDiscard p 2 s)
    else (some ((c.setEp s.fab.epoch).setCe false), s)
  else if c.tc = 6 then (some c, s)
  else if (if c.tc = 5 then c.member else c.cmember) != bd.rank then (none, bindingDiscard p 3 s)
  else
    let c := if c.tc = 5 then c.setEp s.fab.epoch else (c.setEp s.fab.epoch).setCe false
    if s.pers p = 2 && c.namesCtx then
      match SMap.find? c.anyCtx (s.port p).reg.ctxMap with
      | none => (none, unmapped p c.anyCtx s)
      | some x =>
        let c := c.setCtx x
        let seq := if c.tc = 5 then c.opseq else c.copseq
        let lep := match s.ctx? x with
          | some k => (match k.opOfSeq seq with | some e => k.leOf e.1 | none => k.leOf k.nextOp)
          | none => 0
        (some (if c.tc = 5 then c else c.setLe lep), s)
    else (some c, s)

/-- An FL1 member's cell in FL3 form (03 R104, R109). -/
def fl1Check (p : Nat) (bd : Binding) (c : Cell) (s : Sw) : Option Cell × Sw :=
  let ep := s.fab.epoch
  if c.kind = 6 then (some (fl1ToFl3 c 0 0 0 0 ep), s)
  else if c.kind ≤ 2 then (some (fl1ToFl3 c bd.job bd.rank 0 0 ep), s)
  else if field c.hdr 30 16 != bd.rank then (none, bindingDiscard p 3 s)
  else
    let m := field c.hdr 50 10
    match SMap.find? m (s.port p).reg.ctxMap with
    | none => (none, unmapped p m s)
    | some x =>
      let lep := match s.ctx? x with
        | some k => (match k.opOfSeq (field c.hdr 24 6) with | some e => k.leOf e.1 | none => k.leOf k.nextOp)
        | none => 0
      (some (fl1ToFl3 c 0 0 x lep ep), s)

/-- Traffic class of a cell as received: KIND of an FL1 cell numbers the classes as TC does (03 R98, R104). -/
def wireTc (pers : Nat) (c : Cell) : Nat := if pers = 1 then c.kind else c.tc
/-- A cell as received at port p has a reserved bit or encoding in its header (03 R98, R100, R104). -/
def Sw.headerBad (s : Sw) (p : Nat) (c : Cell) : Bool :=
  if s.isMember p then
    if s.pers p = 1 then c.badFl1 else c.badHeader || (s.pers p == 2 && c.namesCtx && (decide (c.anyCtx ≥ 1024) || (c.tc != 5 && c.le != 0)))
  else c.badHeader
/-- The way in of a cell at port p: it leaves the receive buffer, its header is checked, and a member's cell passes the
checks and substitutions of R108 to R111. none: discarded, or the port is not UP. -/
def ingress (p : Nat) (c : Cell) (s : Sw) : Option Cell × Sw :=
  let s := consume p c s
  if !s.up p then (none, s)
  else if s.isMember p then
    if s.headerBad p c then (none, badHeader p c s)
    else match s.binding p with
      | none => (none, idDiscard p s)
      | some bd => if s.pers p = 1 then fl1Check p bd c s else memberCheck p bd c s
  else if s.headerBad p c then (none, badHeader p c s)
  else (some c, s)

/-- The egress of a TRANSIT entry for context x that names port p in version v (10 R340). -/
def Sw.transitOf (s : Sw) (v x p : Nat) : Option Nat :=
  match (s.ver v).transit.vals.find? (fun e => e.ctx == x && (e.dn == p || e.up == p)) with
  | some e => some (if e.dn = p then e.up else e.dn)
  | none => none

/-- EP of a cell as it is routed, rewritten when its version is STANDBY (10 R337). -/
def routeEp (p : Nat) (c : Cell) (s : Sw) : Cell × Sw :=
  if (s.ver c.ep).st == .standby then
    (c.setEp s.fab.epoch, s.modCnt p (fun k => { k with epRewrite := k.epRewrite + 1 }))
  else (c, s)

/-- Event 0x0203: a join or a cell of a FREE context is rejected on port p (04 R159). -/
def joinReject (x p o cause : Nat) (s : Sw) : Sw :=
  s.limited 0x0203 p ms (raiseCtx x 0x0203 (le 4 o ++ le 2 p ++ le 1 cause))

/-- A JOIN of operation o on a port outside the canopy waits for a canopy to come: the pending one names the port and runs the
operation, or the JOIN carries a higher MEPOCH (04 R130, R131). -/
def Ctx.awaitsCanopy (c : Ctx) (q o mepoch : Nat) : Bool :=
  decide (c.canopy.mepoch < mepoch) || (match c.recanopy with
    | some r => decide (r.eff ≤ o) && ((r.canopy.child q).isSome || (r.canopy.primaryOf q).isSome)
    | none => false)
/-- A collective cell or a CTRL cell of a canopy type reaches its context, passes in transit, or is discarded
(10 R340). `f` takes the context, the logical port and the cell. -/
def toContext (p : Nat) (c0 : Cell) (f : Nat → Nat → Cell → Sw → Sw) (s : Sw) : Sw :=
  let rx := s.rxVc p c0
  let (oc, s) := ingress p c0 s
  match oc with
  | none => s
  | some c =>
    let x := c.anyCtx
    let (c, s) := routeEp p c s
    let lp := s.logPort c.ep x p
    let mine := match s.ctx? x with
      | some k => k.canopy.ports.contains lp || (k.canopy.primaryOf lp).isSome
      | none => false
    if mine then f x lp c s
    else match s.transitOf c.ep x p with
      | some o =>
        let vc := if s.isSwitch p then rx else firstVc c.tc
        (match s.permitted p vc o with
         | none => dropRank p o vc s
         | some w => (enqueue o { cell := c, vc := w, cls := if c.tc = 5 then .ctrl else .best, unitLen := 1, src := p,
                                  moved := false, mark := .none } s).2)
      | none =>
        let join := c.tc == 5 && (c.ctype == ctJoin || c.ctype == ctArrive)
        if join && (s.ctx? x).any (fun k => k.awaitsCanopy lp (c.f 0 4) (c.f 44 4)) then f x lp c s
        else
        let s := if (s.ctx? x).isSome then (if join then joinReject x p (c.f 0 4) 4 s else s)
                 else joinReject x p (if join then c.f 0 4 else if c.tc = 5 then c.opseq else c.copseq) 2 s
        dropRoute p c s

end Sys2Proof.Machine
end

