-- ==== Sys2Proof/Machine/Pool.lean ====
section
/-! DEFINITION. Buffer pools and slot places: classes, requests, owners and limits (11 R366, R367, R370 to R374, R377). -/
namespace Sys2Proof.Machine

/-! ### Tier 1 of a grove (11 R370, R377, R384, R386) -/

/-- The stack is in service: it is TRAINING, READY or in SELF_REFRESH, or it failed after a warm reset and keeps its share of the
interleave (11 R384, R386, R396). -/
def Stack.inServ (k : Stack) : Bool := k.state != .absent && (k.state != .failed || k.inService != 0)
/-- S of grove g (11 R377). -/
def Sw.stacksIn (s : Sw) (g : Nat) : Nat := ((span (6 * g) 6).filter (fun k => (s.stack k).inServ)).length
/-- Capacity of grove g in MiB: S × C × 4 GiB (11 R377). -/
def Sw.groveMib (s : Sw) (g : Nat) : Nat := s.stacksIn g * s.groveC.getD g 0 * 4096
/-- Class-6 extents of grove g: what the 4 GiB system region and the 8 GiB of class 5 leave (11 R370). -/
def Sw.extents (s : Sw) (g : Nat) : Nat := (s.groveMib g - 12 * 1024) / 16
/-- The grove that stands in for grove g: itself, or the lowest-numbered one with tier 1 (11 R386). -/
def Sw.homeGrove (s : Sw) (g : Nat) : Nat :=
  if s.stacksIn g = 0 then ((List.range 4).find? (fun h => s.stacksIn h != 0)).getD g else g
/-- Extents that RET_MIB or SPILL_MIB take on grove g (11 R370). -/
def Sw.shareOn (s : Sw) (mib g : Nat) : Nat :=
  let gs := (List.range 4).filter (fun h => s.stacksIn h != 0)
  let n := gs.length
  let e := (mib + 15) / 16
  if n = 0 || !gs.contains g then 0 else e / n + (if (gs.takeWhile (· != g)).length < e % n then 1 else 0)

/-! ### Addresses (11 R376 to R378) -/

/-- A tier-1 address decoded: grove, physical stack, channel, pseudo-channel, bank of 64, row of 32,768, byte in its 4 KiB unit. -/
structure TierAddr where
  /-- Grove g. -/
  grove : Nat
  /-- Physical stack, 0 to 23. -/
  stack : Nat
  /-- Channel of the stack, 0 to 31. -/
  channel : Nat
  /-- Pseudo-channel, 0 or 1. -/
  pc : Nat
  /-- Bank, 0 to 63. -/
  bank : Nat
  /-- Row of 1 KiB. -/
  row : Nat
  /-- Byte in the 4 KiB unit. -/
  byte : Nat
  deriving DecidableEq, Repr
/-- The decode of a grove offset o over the stacks in service, of which each has `chans`, its channels in service; c: C of the
grove (11 R378). -/
def decodeOffset (g : Nat) (ks : List Nat) (chans : Nat → List Nat) (c o : Nat) : TierAddr :=
  let k := o / 4096
  let w := o % 4096
  let stack := nth 0 ks (k % ks.length)
  let m := k / ks.length
  let r := m / (2 * c)
  let h := (r % 16) ^^^ (r / 16 % 16)
  { grove := g, stack := stack, channel := nth 0 (chans stack) (m % c), pc := m / c % 2, bank := 16 * (w / 1024) + h, row := r / 16, byte := w }
/-- TA [41:40] is the grove, TA [39:0] the offset, below the grove's capacity; none where it is not (11 R377). -/
def Sw.decodeTa (s : Sw) (ta : Nat) : Option TierAddr :=
  let g := ta / 2 ^ 40
  let o := ta % 2 ^ 40
  if 4 ≤ g || s.groveMib g * 2 ^ 20 ≤ o then none
  else some (decodeOffset g ((span (6 * g) 6).filter (fun k => (s.stack k).inServ)) (fun k => bitsOf (s.stack k).inService) (s.groveC.getD g 0) o)
/-- The stack that holds address ta; `k` for an address that is none of tier 1, and for a root port (24 + p). -/
def Sw.stackAt (s : Sw) (k ta : Nat) : Nat := if 24 ≤ k then k else match s.decodeTa ta with | some a => a.stack | none => k
/-- Near-memory operations on a tier-1 slot place of logical tile q (11 R379, R396). Which stack of the grove holds the place
is a free value: the spec gives places no addresses (log 97). -/
def nearMemory (q n : Nat) (s : Sw) : Sw :=
  let ks := (span (6 * s.homeGrove (q / 32)) 6).filter (fun k => (s.stack k).inServ)
  if ks.isEmpty || n = 0 then s
  else
    let (v, s) := s.draw
    s.modStack (nth 0 ks (v.toNat % ks.length)) (fun h => { h with nmOps := h.nmOps + BitVec.ofNat 64 n })

/-! ### Classes (11 R370, R371) -/

/-- Bytes of a buffer of class c. -/
def classBytes (c : Nat) : Nat :=
  match c with | 0 => 256 | 1 => 1024 | 2 => 4096 | 3 => 16384 | 4 => 65536 | 5 => 2 ^ 20 | _ => 2 ^ 24
/-- Buffers of class c at a place: a logical tile for classes 0 to 4, a grove for 5 and 6. -/
def Sw.classTotal (s : Sw) (c place : Nat) : Nat :=
  match c with
  | 0 => 128 | 1 => 64 | 2 => 16 | 3 => 4 | 4 => 1
  | 5 => if s.stacksIn place = 0 then 0 else 8192
  | _ => s.extents place
/-- SRAM buffers that the work in progress on logical tile q holds: one of class 1 for each record that is being assembled on its
ports, one of class 3 for each multicast cell of its ports with a copy still queued, and the one of class 4 while its grove runs a
shard, whose layer configuration it has latched (11 R370; 02 R62, R66; 07 R243; 10 R342; log 122). -/
def Sw.sramHeld (s : Sw) (c q : Nat) : Nat :=
  match c with
  | 1 => (span (4 * q) 4).foldl (fun a n => a + (s.port n).q.asm.length) 0
  | 3 => (dedup (s.ports.flatMap (fun (e : Nat × Port) => (e.2.q.txq ++ e.2.q.spill).filterMap (fun (i : TxItem) =>
      match i.copy with | some k => if k.1 / 4 = q then some (k.1 + 512 * k.2) else none | none => none)))).length
  | 4 => b2n (s.ctxs.any (fun (e : Nat × Ctx) => match e.2.store with
      | some t => t.shards.any (fun h => h.2.st == .updating && h.2.grove == q / 32)
      | none => false))
  | _ => 0
/-- Buffers of class c allocated at a place; what work in progress holds, and extents held for retention and spill, count. -/
def Sw.classUsed (s : Sw) (c place : Nat) : Nat :=
  (s.pool.bufs.filter (fun b => b.cls == c && b.place == place)).foldl (fun a b => a + b.count) 0 + s.sramHeld c place +
    (if c = 6 then s.shareOn s.rcv.retMib place + s.shareOn s.fab.spillMib place else 0)
/-- Free buffers of class c at a place. -/
def Sw.classFree (s : Sw) (c place : Nat) : Nat := s.classTotal c place - s.classUsed c place
/-- Places of class c. -/
def Sw.places (s : Sw) (c : Nat) : List Nat := if c < 5 then s.activeTiles else List.range 4
/-- POOL_FREE[c] (11 R375). -/
def Sw.poolFree (s : Sw) (c : Nat) : Nat := (s.places c).foldl (fun a p => a + s.classFree c p) 0
/-- POOL_TOTAL[c] (11 R375). -/
def Sw.poolTotal (s : Sw) (c : Nat) : Nat := (s.places c).foldl (fun a p => a + s.classTotal c p) 0
/-- MiB charged to job j: 1 for class 5, 16 for class 6 (11 R374). -/
def Sw.jobUsed (s : Sw) (j : Nat) : Nat :=
  (s.pool.bufs.filter (fun b => b.job == some j && decide (b.cls ≥ 5))).foldl
    (fun a b => a + b.count * (if b.cls = 6 then 16 else 1)) 0

/-- The warning of R373: raised when POOL_FREE falls below POOL_WARN, again only after it has been twice that. -/
def poolWarn (c at_ : Nat) (s : Sw) : Sw :=
  let w := (s.pool.warn.getD c 0).toNat
  let free := s.poolFree c
  if w = 0 then s
  else if decide (free < w) && !s.pool.warned.getLsbD c then
    raiseSys 0x0808 (le 2 c ++ le 2 at_ ++ le 4 free) (s.modPool (fun p => { p with warned := setBit p.warned c }))
  else if 2 * w ≤ free then s.modPool (fun p => { p with warned := clrBit p.warned c })
  else s

/-- The class that serves a request of class c or larger of the same medium at a place (11 R371). -/
def Sw.serveClass (s : Sw) (c place count : Nat) : Option Nat :=
  let larger := if c ≤ 4 then span c (5 - c) else span c (7 - c)
  larger.find? (fun k => decide (count ≤ s.classFree k place))

/-- MiB of a class that a job is charged for: 1 for class 5, 16 for class 6, none for SRAM (11 R374). -/
def mibOf (cls count : Nat) : Nat := if cls = 6 then 16 * count else if cls = 5 then count else 0
/-- The limit of job j refuses `count` buffers of the class that would serve a request of class c (11 R374). -/
def limitRefuses (s : Sw) (c at_ count j : Nat) : Bool :=
  let lim := s.pool.jobLimit.getD j 0
  let k := (s.serveClass c at_ count).getD c
  decide (lim ≠ 0) && decide (5 ≤ k) && decide (lim < s.jobUsed j + mibOf k count)
/-- Take buffers. none: no class can serve the request, or the job is at its limit (11 R371, R373, R374). -/
def poolTake (c at_ count : Nat) (job : Option Nat) (owner : Owner) (s : Sw) : Option Sw :=
  let limited := match job with | some j => limitRefuses s c at_ count j | none => false
  if count = 0 then some s
  else if limited then none
  else match s.serveClass c at_ count with
    | none => none
    | some k =>
      some (poolWarn k at_ (s.modPool (fun p =>
        { p with bufs := p.bufs ++ [({ cls := k, place := at_, count := count, job := job, owner := owner, id := p.next } : PoolBuf)], next := p.next + 1 })))

/-- Event 0x080B of a request that a limit refuses. -/
def limitEvent (c at_ count j : Nat) (s : Sw) : Sw :=
  if limitRefuses s c at_ count j then
    raiseJob j 0x080B (le 1 j ++ le 4 (mibOf ((s.serveClass c at_ count).getD c) count) ++ le 4 (s.pool.jobLimit.getD j 0)) s
  else s
/-- The warning of R373 for each class after its free count has changed otherwise than by a request or a free: the place named is
the first that has the class. -/
def poolWarnAll (s : Sw) : Sw := each (List.range 7) (fun c s => poolWarn c ((s.places c).headD 0) s) s

/-- Operation o of context x waits for a buffer. -/
def Sw.opWaits (s : Sw) (x o : Nat) : Bool := s.pool.waits.any (fun w => w.op == some (x, o))

/-- Requests at run time for operation o of context x: taken, or they wait behind the requests of their class and place; event 0x0809
once per waiting operation (11 R373). -/
def poolTakeOrWait (x o c at_ count job : Nat) (owner : Owner) (s : Sw) : Sw :=
  let behind := s.pool.waits.any (fun w => w.cls == c && w.place == at_)
  match (if behind then none else poolTake c at_ count (some job) owner s) with
  | some s => s
  | none =>
    let s := limitEvent c at_ count job s
    let told := s.opWaits x o
    let w : PoolWait := { op := some (x, o), cls := c, place := at_, count := count, job := some job, owner := owner }
    let s := s.modPool (fun p => { p with waitCount := p.waitCount + 1, waits := p.waits ++ [w] })
    if told then s else raiseCtx x 0x0809 (le 4 o ++ le 2 c) s

/-- Free every buffer whose owner satisfies a test (11 R372). -/
def poolFreeIf (f : PoolBuf → Bool) (s : Sw) : Sw :=
  let cls := (s.pool.bufs.filter f).map (fun b => (b.cls, b.place))
  let s := s.modPool (fun p => { p with bufs := p.bufs.filter (fun b => !f b) })
  each cls (fun e => poolWarn e.1 e.2) s

/-- An owner in event content: its kind, its number, its OPNUM (DESIGN CHOICE, log 123). -/
def Owner.bytes (w : Owner) : List Byte :=
  match w with
  | .context x => le 1 1 ++ le 2 x ++ le 4 0
  | .operation x o => le 1 2 ++ le 2 x ++ le 4 o
  | .store x => le 1 3 ++ le 2 x ++ le 4 0
  | .port n => le 1 4 ++ le 2 n ++ le 4 0
  | .tile q => le 1 5 ++ le 2 q ++ le 4 0
  | .switch => le 1 6 ++ le 2 0 ++ le 4 0
/-- A free of buffer `id` that is not the requester's, or is free already, is rejected (11 R372). -/
def poolReject (by_ : Owner) (id : Nat) (s : Sw) : Sw :=
  let b := s.pool.bufs.find? (fun b => b.id == id)
  raiseSys 0x080A (le 2 (b.elim 0 (fun b => b.cls)) ++ le 4 id ++ (b.elim (le 7 0) (fun b => b.owner.bytes)) ++ by_.bytes)
    (s.modPool (fun p => { p with rejects := p.rejects + 1 }))
/-- An owner frees buffers: only those whose tag names it last (11 R372). -/
def poolFreeBy (by_ : Owner) (ids : List Nat) (s : Sw) : Sw :=
  let mine (id : Nat) : Bool := s.pool.bufs.any (fun b => b.id == id && b.owner == by_)
  poolFreeIf (fun b => ids.contains b.id && b.owner == by_) (each (ids.filter (fun id => !mine id)) (poolReject by_) s)
/-- Buffers are handed to another owner, whose tag they carry from then on (11 R372). -/
def poolHand (ids : List Nat) (new : Owner) (job : Option Nat) (s : Sw) : Sw :=
  s.modPool (fun p => { p with bufs := p.bufs.map (fun (u : PoolBuf) => if ids.contains u.id then { u with owner := new, job := job } else u) })

/-- Free the buffers of an operation. -/
def poolFreeOp (x o : Nat) (s : Sw) : Sw :=
  let s := s.modPool (fun p => { p with waits := p.waits.filter (fun w => w.owner != .operation x o) })
  poolFreeIf (fun b => b.owner == .operation x o) s

/-- The owner belongs to context x. -/
def Owner.ofCtx (w : Owner) (x : Nat) : Bool :=
  match w with | .context y => x == y | .operation y _ => x == y | .store y => x == y | _ => false

/-- Free every buffer of a context, its operations and its store (11 R372). -/
def poolFreeCtx (x : Nat) (s : Sw) : Sw :=
  let s := s.modPool (fun p => { p with waits := p.waits.filter (fun w => !w.owner.ofCtx x) })
  poolFreeIf (fun b => b.owner.ofCtx x) s

/-! ### Slot places (11 R366, R367) -/

/-- SRAM slot places of one tile. -/
def sramPlaces : Nat := 4096
/-- SRAM places reserved on logical tile t. -/
def Sw.sramTaken (s : Sw) (t : Nat) : Nat := s.ctxs.foldl (fun a e => a + (e.2.places.getD t (0, 0)).1) 0
/-- Tier-1 places reserved by all contexts. -/
def Sw.tier1Taken (s : Sw) : Nat := s.ctxs.foldl (fun a e => a + e.2.places.foldl (fun b p => b + p.2.2) 0) 0
/-- The places that SLOTS slots take on every tile of the list (11 R367). -/
def Sw.reservePlaces (s : Sw) (slots : Nat) (tiles : List Nat) : SMap (Nat × Nat) :=
  let n := tiles.length
  let r := if n = 0 then 0 else (slots + n - 1) / n
  tiles.foldl (fun m t =>
    let sram := min r (sramPlaces - s.sramTaken t)
    m.set t (sram, r - sram)) []
/-- Extents that a reservation takes on grove g: 24,576 places each (11 R367). -/
def placeExtents (pl : SMap (Nat × Nat)) (g : Nat) : Nat :=
  let t := (pl.filter (fun e => e.1 / 32 == g)).foldl (fun a e => a + e.2.2) 0
  (t + 24575) / 24576

/-- Reserve slot places and their tier-1 extents for context x; none when the capacity of R121 is exceeded. -/
def takePlaces (x job slots : Nat) (tiles : List Nat) (s : Sw) : Option (SMap (Nat × Nat) × Sw) :=
  let pl := s.reservePlaces slots tiles
  let t1 := pl.foldl (fun a e => a + e.2.2) 0
  let sram := s.logicalTiles.length * sramPlaces
  if s.tier1Taken + t1 > 16777216 - sram then none
  else
    let taken := (List.range 4).foldl (fun (acc : Option Sw) g =>
      acc.bind (fun s => poolTake 6 (s.homeGrove g) (placeExtents pl g) (some job) (.context x) s)) (some s)
    taken.map (fun s => (pl, s))

end Sys2Proof.Machine
end

