-- ==== Sys2Proof/Machine/Banks.lean ====
section
/-! DEFINITION. Shards at their owner or mirror: banks and versions, pins, the gather cache, commit records and images
(06 R199, R200, R207 to R209, R214, R219, R220). -/
namespace Sys2Proof.Machine

/-! ### Banks (06 R198, R207) -/

/-- Bytes of an element of format `code`: FP64, FP32, FP16, BF16. -/
def fmtBytes (code : Nat) : Nat := match code with | 0 => 8 | 1 => 4 | _ => 2
/-- Format of array a of a store: 0 the master, i + 1 state array i. -/
def Store.fmt (t : Store) (a : Nat) : Nat := if a = 0 then (if t.m64 then 0 else 1) else t.sfmt.getD (a - 1) 0
/-- Arrays of a shard. -/
def Store.arrays (t : Store) : Nat := t.nstate + 1
/-- Bank i. -/
def Shard.bank (h : Shard) (i : Nat) : Bank := if i = 0 then h.bank0 else h.bank1
/-- Change bank i. -/
def Shard.setBank (h : Shard) (i : Nat) (f : Bank → Bank) : Shard :=
  if i = 0 then { h with bank0 := f h.bank0 } else { h with bank1 := f h.bank1 }
/-- The other bank's number. -/
def Shard.other (h : Shard) : Nat := 1 - h.cur
/-- Current version; none when EMPTY. -/
def Shard.version (h : Shard) : Option Nat := if h.st == .empty then none else (h.bank h.cur).ver
/-- The bank holds version v. -/
def Bank.holds (b : Bank) (v : Nat) : Bool := b.ver == some v || b.prevVer == some v
/-- The bank of a shard that holds version v. -/
def Shard.bankOf (h : Shard) (v : Nat) : Option Nat :=
  if h.st == .empty then none
  else if (h.bank h.cur).holds v then some h.cur
  else if (h.bank h.other).holds v then some h.other
  else none

/-- Free-value key of an array of a bank (log 3). -/
def elemKey (x k arr bank : Nat) : Nat := ((x * 65536 + k) * 8 + arr) * 2 + bank
/-- Element i of array a in bank b of shard k: what was written, else a free value (06 R207; log 3). -/
def Shard.elem (h : Shard) (x k b a i : Nat) : Quad :=
  ((h.bank b).arrays.getD a []).getD i (Config.storeElem (elemKey x k a b) h.alloc i)
/-- Write element i of array a in bank b. -/
def Shard.setElem (b a i : Nat) (v : Quad) (h : Shard) : Shard :=
  h.setBank b (fun w =>
    let arrays := w.arrays ++ List.replicate (a + 1 - w.arrays.length) []
    { w with arrays := setNth arrays a ((arrays.getD a []).set i v) })
/-- Raw element of a format from a stored word. -/
def rawElem (code : Nat) (v : Quad) : Nat := v.toNat % 2 ^ (8 * fmtBytes code)
/-- Bytes of elements a to a + n − 1 of an array, as host memory and images hold them. -/
def Shard.arrayBytes (h : Shard) (t : Store) (x k b arr first n : Nat) : List Byte :=
  ((span first n).map (fun i => le (fmtBytes (t.fmt arr)) (rawElem (t.fmt arr) (h.elem x k b arr i)))).flatten
/-- Write an array from bytes, element `first` on. -/
def Shard.loadBytes (t : Store) (b arr first : Nat) (bytes : List Byte) (h : Shard) : Shard :=
  let w := fmtBytes (t.fmt arr)
  (List.range (bytes.length / w)).foldl (fun h i => h.setElem b arr (first + i) (BitVec.ofNat 64 (bytesAt bytes (w * i) w))) h

/-! ### Pins (06 R208) -/

/-- OPPINS and HELD of a version in a bank; an entry of the gather cache carries its own (06 R208, R214). -/
def Shard.pin (h : Shard) (v : Nat) : Nat × Nat := h.pins.getD v (0, 0)
/-- The version is pinned. -/
def Shard.pinned (h : Shard) (v : Nat) : Bool := let p := h.pin v; decide (p.1 + p.2 ≠ 0)
/-- Set the counts of a version. -/
def Shard.setPin (v : Nat) (p : Nat × Nat) (h : Shard) : Shard :=
  { h with pins := if p == (0, 0) then h.pins.erase v else h.pins.set v p }
/-- A version of a bank is pinned. -/
def Shard.bankPinned (h : Shard) (b : Nat) : Bool :=
  (match (h.bank b).ver with | some v => h.pinned v | none => false) ||
    (match (h.bank b).prevVer with | some v => h.pinned v | none => false)
/-- Some version of the shard in a bank is pinned. -/
def Shard.anyPinned (h : Shard) : Bool := h.pins.any (fun e => decide (e.2.1 + e.2.2 ≠ 0))
/-- Change the pin counts of a cache entry. -/
def CacheEnt.setPins (p : Nat × Nat) (e : CacheEnt) : CacheEnt := { e with pins := p }
/-- An entry is held by its pins (06 R214). -/
def CacheEnt.pinned (e : CacheEnt) : Bool := decide (e.pins.1 + e.pins.2 ≠ 0)
/-- Some version of shard k is pinned, in a bank or in the gather cache. -/
def Store.anyPinned (t : Store) (k : Nat) : Bool :=
  (match SMap.find? k t.shards with | some h => h.anyPinned | none => false) || t.cache.any (fun e => e.shard == k && e.pinned)

/-! ### Gather cache (06 R214) -/

/-- Element i of an entry. -/
def CacheEnt.elem (e : CacheEnt) (i : Nat) : Quad := e.master.getD i (Config.storeElem e.key.1 e.key.2 i)
/-- The entry of a version of a shard. -/
def Store.entryOf (t : Store) (k v : Nat) : Option CacheEnt := t.cache.find? (fun e => e.shard == k && e.version == v)
/-- The version is held in a bank or an entry. -/
def Store.holdsVersion (t : Store) (k v : Nat) : Bool :=
  (match SMap.find? k t.shards with | some h => (h.bankOf v).isSome | none => false) || (t.entryOf k v).isSome
/-- Master element i of version v of shard k: from a bank before an entry. -/
def Store.masterElem (t : Store) (x k v i : Nat) : Quad :=
  match SMap.find? k t.shards with
  | none => 0
  | some h =>
    match h.bankOf v with
    | some b => h.elem x k b 0 i
    | none => (match t.entryOf k v with | some e => e.elem i | none => 0)
/-- 16 MiB extents of an entry of a shard of `count` parameters. -/
def Store.entryExtents (t : Store) (count : Nat) : Nat :=
  (count / 32 * (1 + 32 * fmtBytes (t.fmt 0)) + 2 ^ 24 - 1) / 2 ^ 24
/-- Extents in use, and extents that pinned entries use. -/
def Store.cacheUsed (t : Store) : Nat := t.cache.foldl (fun a e => a + e.extents) 0
/-- Extents of pinned entries. -/
def Store.cacheHeld (t : Store) : Nat := (t.cache.filter CacheEnt.pinned).foldl (fun a e => a + e.extents) 0
/-- Extents of the budget. -/
def Store.budget (t : Store) : Nat := t.cacheMib / 16

/-- Give back the extents of entries. -/
def freeEntries (x : Nat) (es : List CacheEnt) (s : Sw) : Sw := poolFreeBy (.store x) (es.map (fun e => e.buf)) s
/-- Evict unpinned entries, oldest first, until n extents fit in the budget and on grove g: where the grove alone is short, the
entries of its shards (06 R214). -/
def evictFor (x n g job : Nat) : Nat → Sw → Sw
  | 0, s => s
  | fuel + 1, s =>
    match s.store? x with
    | none => s
    | some t =>
      let within := decide (t.cacheUsed + n ≤ t.budget)
      let here (e : CacheEnt) : Bool := match SMap.find? e.shard t.shards with | some h => s.homeGrove h.grove == g | none => false
      if within && (poolTake 6 g n (some job) (.store x) s).isSome then s
      else match t.cache.find? (fun e => !e.pinned && (!within || here e)) with
        | none => s
        | some e => evictFor x n g job fuel (freeEntries x [e] (s.modStore x (fun t => { t with cache := t.cache.erase e })))

/-- The new cache entry of version v of shard k, taken from bank b, in the n extents the pool gives; false where it gives none. -/
def placeEntry (x k v n b job : Nat) (h : Shard) (s : Sw) : Bool × Sw :=
  let id := s.pool.next
  match poolTake 6 (s.homeGrove h.grove) n (some job) (.store x) s with
  | none => (false, s)
  | some s =>
    let ent : CacheEnt := { shard := k, version := v, master := (h.bank b).arrays.getD 0 [], extents := n, buf := id,
                            key := (elemKey x k 0 b, h.alloc) }
    (true, s.modStore x (fun t => { t with cache := t.cache ++ [ent] }))
/-- Place version v of shard k in the cache; whether it is there afterwards (06 R209, R214). -/
def makeEntry (x k v : Nat) (s : Sw) : Bool × Sw :=
  match s.ctx? x, s.store? x with
  | some c, some t =>
    (match SMap.find? k t.shards, c.canopy.shard k with
     | some h, some e =>
       if (t.entryOf k v).isSome then (true, s)
       else match h.bankOf v with
         | none => (false, s)
         | some b =>
           let n := t.entryExtents e.count
           if t.budget < t.cacheHeld + n then (false, s)
           else placeEntry x k v n b c.cfg.job h (evictFor x n (s.homeGrove h.grove) c.cfg.job (t.cache.length + 1) s)
     | _, _ => (false, s))
  | _, _ => (false, s)

/-- Drop every entry of a shard. -/
def dropEntries (x k : Nat) (s : Sw) : Sw :=
  match s.store? x with
  | some t =>
    freeEntries x (t.cache.filter (fun e => e.shard == k))
      (s.modStore x (fun t => { t with cache := t.cache.filter (fun e => e.shard != k) }))
  | none => s

/-! ### Commit records (06 R220) -/

/-- The record that stands: the valid one with the larger LSN. -/
def Shard.standing (h : Shard) : Option CommitRec :=
  match h.recs with
  | (some a, some b) => some (if a.lsn < b.lsn then b else a)
  | (some a, none) => some a
  | (none, b) => b
/-- Put a record into the place that does not hold the standing one. -/
def Shard.putRec (r : CommitRec) (h : Shard) : Shard :=
  match h.recs with
  | (some a, some b) => { h with recs := if a.lsn < b.lsn then (some r, some b) else (some a, some r) }
  | (some a, none) => { h with recs := (some a, some r) }
  | (none, b) => { h with recs := (some r, b) }
/-- The 64 bytes of a record. -/
def CommitRec.bytes (r : CommitRec) (k : Nat) : List Byte :=
  let b := le 8 r.lsn ++ le 4 k ++ le 1 r.kind ++ le 1 (r.bank + 2 * b2n r.prevValid) ++ le 2 0 ++ le 4 r.version ++ le 4 0 ++
    le 8 r.gtc.toNat ++ le 4 r.step ++ le 4 0 ++ le 8 r.clip.1.toNat ++ le 8 r.clip.2.toNat
  b ++ le 8 (crc64 b).toNat
/-- Write a commit record of shard k (06 R220). -/
def commitRecord (x k kind bank : Nat) (prevValid : Bool) (version step : Nat) (clip : Quad × Quad) (s : Sw) : Sw :=
  match s.store? x with
  | none => s
  | some t =>
    let r : CommitRec := { lsn := t.lsn, kind := kind, bank := bank, prevValid := prevValid, version := version, gtc := s.gtc,
                           step := step, clip := clip }
    (s.modStore x (fun t => { t with lsn := t.lsn + 1 })).modShard x k (fun h => h.putRec r)

/-! ### Images (06 R219) -/

/-- The image of a shard without its trailer: the current bank's arrays. -/
def Shard.imageBody (h : Shard) (t : Store) (x k count : Nat) : List Byte :=
  ((List.range t.arrays).map (fun a => h.arrayBytes t x k h.cur a 0 count)).flatten
/-- The image of a shard. -/
def Shard.image (h : Shard) (t : Store) (x k : Nat) (e : ShardEnt) : List Byte :=
  let body := h.imageBody t x k e.count
  let pre := body ++ le 4 (h.version.getD 0) ++ le 2 e.layer ++ List.replicate 50 0
  pre ++ le 8 (crc64 pre).toNat
/-- Length of an image in bytes. -/
def Store.imageLen (t : Store) (count : Nat) : Nat :=
  (List.range t.arrays).foldl (fun a i => a + count * fmtBytes (t.fmt i)) 0 + 64
/-- Blocks of an image of n bytes. -/
def imageBlocks (n : Nat) : Nat := (n + 55) / 56
/-- Block i of an image, padded. -/
def imageBlock (img : List Byte) (i : Nat) : List Byte := padTo 56 ((img.drop (56 * i)).take 56)
/-- An image is whole and its CRC is good. -/
def imageGood (img : List Byte) (len : Nat) : Bool :=
  let b := img.take len
  decide (len ≤ img.length) && bytesAt b (len - 8) 8 == (crc64 (b.take (len - 8))).toNat
/-- Put an image's arrays into bank b. -/
def Shard.install (t : Store) (b count : Nat) (img : List Byte) (h : Shard) : Shard :=
  ((List.range t.arrays).foldl (fun (acc : Shard × Nat) a =>
    let n := count * fmtBytes (t.fmt a)
    (acc.1.loadBytes t b a 0 ((img.drop acc.2).take n), acc.2 + n)) (h, 0)).1

/-! ### Space (06 R200) -/

/-- Tier-1 bytes of a shard: banks, gradient area, commit records. -/
def Store.shardBytes (t : Store) (g count : Nat) : Nat :=
  2 * count * (fmtBytes (t.fmt 0) + (List.range t.nstate).foldl (fun a i =>
    if t.splace.getD i 0 = 1 then a else a + fmtBytes (t.fmt (i + 1))) 0) + count * g / 8 + count / 2 + 128
/-- Tier-2 bytes of a shard. -/
def Store.shardTier2 (t : Store) (count : Nat) : Nat :=
  2 * count * (List.range t.nstate).foldl (fun a i => if t.splace.getD i 0 = 1 then a + fmtBytes (t.fmt (i + 1)) else a) 0
/-- 16 MiB extents of bytes. -/
def extentsOf (bytes : Nat) : Nat := (bytes + 2 ^ 24 - 1) / 2 ^ 24
/-- The grove with the most free extents, the lowest-numbered on a tie. -/
def Sw.roomiest (s : Sw) : Nat :=
  (List.range 4).foldl (fun best g => if s.classFree 6 best < s.classFree 6 g then g else best) 0

/-! ### Store operations over shards (06 R203, R210) -/

/-- Owned shards that a range of parameters meets. -/
def ownedIn (c : Ctx) (first count : Nat) : List (Nat × ShardEnt) :=
  ((List.range c.canopy.shards.length).zip c.canopy.shards).filter (fun e =>
    e.2.srole == 1 && decide (e.2.first < first + count) && decide (first < e.2.first + e.2.count))
/-- A range of parameters lies within shards. -/
def inShards : List ShardEnt → Nat → Nat → Bool
  | [], a, z => decide (z ≤ a)
  | e :: rest, a, z =>
    if z ≤ a then true
    else if decide (e.first ≤ a) && decide (a < e.first + e.count) then inShards rest (e.first + e.count) z
    else inShards rest a z

/-- A bank of shard k holds version v. -/
def Store.inBank (t : Store) (k v : Nat) : Bool := match SMap.find? k t.shards with | some h => (h.bankOf v).isSome | none => false
/-- Change shard k of a store. -/
def Store.modShard (k : Nat) (f : Shard → Shard) (t : Store) : Store := { t with shards := t.shards.adjust k f }
/-- Change the cache entry of version v of shard k. -/
def Store.modEntry (k v : Nat) (f : CacheEnt → CacheEnt) (t : Store) : Store :=
  { t with cache := t.cache.map (fun e => if e.shard == k && e.version == v then f e else e) }
/-- OPPINS and HELD of a version, in a bank and in the cache (06 R208). -/
def Store.pinOf (t : Store) (k v : Nat) : Nat × Nat :=
  let a := match SMap.find? k t.shards with | some h => h.pin v | none => (0, 0)
  let b := match t.entryOf k v with | some e => e.pins | none => (0, 0)
  (a.1 + b.1, a.2 + b.2)
/-- Add to the pins of a version where it is served: in its bank, else in its entry (06 R208, R214). -/
def Store.addPin (k v op held : Nat) (t : Store) : Store :=
  if t.inBank k v then t.modShard k (fun h => h.setPin v ((h.pin v).1 + op, (h.pin v).2 + held))
  else t.modEntry k v (fun e => e.setPins (e.pins.1 + op, e.pins.2 + held))
/-- Take pins of a version off: those of the bank first, then the entry's, to which R209 moves pins. -/
def Store.subPin (k v op held : Nat) (t : Store) : Store :=
  let p := match SMap.find? k t.shards with | some h => h.pin v | none => (0, 0)
  (t.modShard k (fun h => h.setPin v (p.1 - op, p.2 - held))).modEntry k v
    (fun e => e.setPins (e.pins.1 - (op - p.1), e.pins.2 - (held - p.2)))
/-- The pins of a version move from its bank to its entry (06 R209). -/
def Store.pinsMove (k v : Nat) (t : Store) : Store :=
  let p := match SMap.find? k t.shards with | some h => h.pin v | none => (0, 0)
  (t.modShard k (Shard.setPin v (0, 0))).modEntry k v (fun e => e.setPins (e.pins.1 + p.1, e.pins.2 + p.2))
/-- Take an operation pin, and a held pin when asked, on versions of shards. -/
def takePins (x : Nat) (held : Bool) (vs : SMap Nat) (s : Sw) : Sw :=
  each vs (fun e s => s.modStore x (Store.addPin e.1 e.2 1 (b2n held))) s
/-- The operation pins of a store gather are released, and UNPIN is applied (06 R208, R213). -/
def dropReq (x : Nat) (g : GatherReq) (s : Sw) : Sw :=
  each g.resolved (fun e s => s.modStore x (Store.subPin e.1 e.2 1 (b2n g.unpin))) s

end Sys2Proof.Machine
end

