-- ==== Sys2Proof/Machine/Ending.lean ====
section
/-! DEFINITION. How an operation ends: JOIN_STATUS bodies, upward JOINs, COMPLETE, failure, completion events, the
delivered and released reports, and digests (04 R136 to R138, R148, R153 to R157; 09 R284 to R288, R297, R298). -/
namespace Sys2Proof.Machine

/-! ### Digests (09 R297) -/

/-- The CRC-64 of one cell's index and payload. -/
def cellDigest (idx : Nat) (payload : List Byte) : Quad := crc64 (le 4 idx ++ payload)
/-- Fold a cell into a digest of operation o, while its digest set is held: kind and port or LAYER. -/
def foldDigest (o kind sub idx : Nat) (payload : List Byte) (c : Ctx) : Ctx :=
  match SMap.find? o c.digests with
  | none => c
  | some set =>
    let key := kind * 65536 + sub
    let d := set.getD key { dig := 0, cells := 0 }
    { c with digests := c.digests.set o (set.set key { d with dig := d.dig ^^^ cellDigest idx payload, cells := d.cells + 1 }) }
/-- Logical tile q uses the accumulator of a digest: the least recently used of the 2,048 is folded into its operation's set, by one
XOR64 and one INT_ADD64, when all are in use (11 R369, R379). -/
def accTouch (q x o key : Nat) (s : Sw) : Sw :=
  match s.physOf q with
  | none => s
  | some p =>
    let held (e : Nat × Nat × Nat) : Bool := match s.ctx? e.1 with | some c => c.digests.mem e.2.1 | none => false
    let l := (x, o, key) :: (s.tile p).accs.filter (fun e => e != (x, o, key) && held e)
    let s := if 2048 < l.length then nearMemory q 2 s else s
    s.modTile p (fun t => { t with accs := l.take 2048 })
/-- A cell is folded into a digest on the tile that handles it: the slot tile of a gradient cell, else the tile of its port (09 R297;
11 R369). -/
def foldCell (x o kind sub idx : Nat) (payload : List Byte) (s : Sw) : Sw :=
  match s.ctx? x with
  | none => s
  | some c =>
    if c.digests.mem o then
      accTouch (if kind = 4 then slotTile c.tiles x idx else sub / 4) x o (kind * 65536 + sub) (s.setCtx x (foldDigest o kind sub idx payload c))
    else s
/-- Every accumulator of an operation is folded into its set (11 R369). -/
def foldAccs (x o : Nat) (s : Sw) : Sw :=
  each s.activeTiles (fun q s => match s.physOf q with
    | none => s
    | some p =>
      let n := ((s.tile p).accs.filter (fun e => e.1 == x && e.2.1 == o)).length
      if n = 0 then s
      else nearMemory q (2 * n) (s.modTile p (fun t => { t with accs := t.accs.filter (fun e => !(e.1 == x && e.2.1 == o)) }))) s
/-- A digest that is held: none when the operation has left the depth, or an error took it. -/
def Ctx.digest? (c : Ctx) (o kind sub : Nat) : Option Digest :=
  ((SMap.find? o c.digests).map (fun set => set.getD (kind * 65536 + sub) { dig := 0, cells := 0 })).filter (fun d => !d.lost)

/-- A DIGEST cell (09 R299); none: NOT_HELD. -/
def digestCell (x o member kind layer : Nat) (d : Option Digest) : Cell :=
  let v := d.getD { dig := 0, cells := 0 }
  ctrlCell ctDigest x member o 0 (le 4 o ++ le 1 kind ++ le 1 0 ++ le 2 layer ++ le 8 v.dig.toNat ++ le 4 v.cells ++ le 1 (b2n d.isNone))

/-! ### JOIN_STATUS (04 R138; 05 R185) -/

/-- Phases. -/
def phGrant : Nat := 0
/-- JOINED. -/
def phJoined : Nat := 1
/-- CHUNK_DONE. -/
def phChunk : Nat := 2
/-- COMPLETE. -/
def phComplete : Nat := 3
/-- BOUND. -/
def phBound : Nat := 4

/-- The body of a JOIN_STATUS; `launch` fills bytes 16 to 23. -/
def statusBody (o phase status grant chunk : Nat) (launch : Nat) : List Byte :=
  le 4 o ++ le 1 phase ++ le 1 status ++ le 2 0 ++ le 4 grant ++ le 4 chunk ++ le 8 launch
/-- The body of BOUND. -/
def boundBody (rank members mepoch : Nat) : List Byte :=
  le 4 0 ++ le 1 phBound ++ le 11 0 ++ le 2 rank ++ le 2 0 ++ le 4 members ++ le 4 mepoch

/-- MEMBER of a CTRL cell toward a child: its rank, or none (03 R99). -/
def Child.member (h : Child) : Nat := if h.isSwitch then noMember else h.rankFirst

/-- Ports of a child that receive JOINED and COMPLETE: of a member and its backup, those that sent a valid JOIN; the member's
own where neither did, so that a failure reaches every member (04 R128, R137). -/
def Op.childPorts (p : Op) (h : Child) : List Nat :=
  match h.backup with
  | none => [h.port]
  | some b => match [h.port, b].filter (fun q => p.valid.getLsbD q) with | [] => [h.port] | l => l

/-- Send a JOIN_STATUS body to a child. -/
def sendStatus (x o : Nat) (h : Child) (m : Mark) (body : List Byte) (s : Sw) : Sw :=
  ctxCtrl x h.port m (ctrlCell ctStatus x h.member o 0 body) s

/-- Send BOUND to a member child and its backup (04 R129). -/
def sendBound (x : Nat) (h : Child) (s : Sw) : Sw :=
  match s.ctx? x with
  | none => s
  | some c =>
    if h.isSwitch then s else
    each ([h.port] ++ h.backup.toList) (fun q s =>
      ctxCtrl x q .none (ctrlCell ctStatus x h.rankFirst 0 0 (boundBody h.rankFirst c.canopy.members c.canopy.mepoch)) s) s

/-! ### The upward JOIN (04 R136, R137, R148) -/

/-- The common format of an exchange below this switch, else 0. -/
def Op.exchFormat (p : Op) : Nat := if blkExchange p.blk then (p.formats.vals.headD 0) else 0

/-- Body of a switch's JOIN. -/
def joinBody (p : Op) (mepoch : Nat) : List Byte :=
  le 32 p.blk.toNat ++ le 8 (blkSignature p.blk).toNat ++ le 1 p.exchFormat ++ le 1 p.sform ++ le 2 0 ++ le 4 mepoch

/-- Send the JOIN, or the BARRIER_ARRIVE, upward with a subtree status. -/
def sendUpJoin (x o status : Nat) (s : Sw) : Sw :=
  match s.ctx? x, s.op? x o with
  | some c, some p =>
    (match c.canopy.parent with
     | none => s
     | some up =>
       let ct := if blkKind p.blk = kBarrier then ctArrive else ctJoin
       ctxCtrl x up .none (ctrlCell ct x noMember o status (joinBody p c.canopy.mepoch))
         (s.modOp x o (fun p => { p with upJoin := true })))
  | _, _ => s

/-! ### Ending (04 R135, R153 to R157) -/

/-- COMPLETE, or BARRIER_RELEASE, to every child (04 R137, R148). -/
def sendComplete (x o status : Nat) (s : Sw) : Sw :=
  match s.ctx? x, s.op? x o with
  | some c, some p =>
    if p.once.contains (0, 0) then s else
    let bar := blkKind p.blk == kBarrier
    let launch := if bar && blkLaunch p.blk == 2 then (p.launchAt.getD 0).toNat else 0
    let body := statusBody o phComplete status 0 (if c.cfg.streaming then p.chunks.1 else 0) launch
    let s := s.modOp x o (fun p => { p with once := p.once ++ [(0, 0)] })
    each c.canopy.children (fun h s =>
      each (p.childPorts h) (fun q s =>
        ctxCtrl x q (.complete x o q) (ctrlCell (if bar then ctRelease else ctStatus) x h.member o 0 body) s) s) s
  | _, _ => s

/-- The completion event of an operation (04 R135, R159). -/
def opComplete (x o status : Nat) (s : Sw) : Sw :=
  match s.ctx? x, s.op? x o with
  | some c, some p =>
    let s := if p.posts.isEmpty && c.cfg.opev && p.opened then raiseCtx x 0x0200 (le 4 o ++ le 1 status ++ le 4 0) s else s
    each p.posts (fun t s => completeE t 0x0200 status (le 2 x ++ le 4 o ++ le 1 status ++ le 4 t.tag.toNat) s)
      (s.modOp x o (fun p => { p with posts := [] }))
  | _, _ => s

/-- Release the operation pins that a store gather holds, and apply UNPIN (06 R208, R213). -/
def releaseGather (x o : Nat) (s : Sw) : Sw :=
  match s.op? x o with
  | some p =>
    (match p.gather with
     | some g =>
       (dropReq x g s).modOp x o (fun p => { p with gather := none })
     | none => s)
  | none => s

/-- Drop the slots and staging of an operation (04 R137, R141, R154). -/
def dropWork (x o : Nat) (s : Sw) : Sw :=
  let s := s.modCtx x (fun c => { c with slots := c.slots.keep (fun k => k / 2 ^ 24 != o) })
  s.modOp x o (fun p => { p with staging := [], waiting := [], pruned := [], sparseOut := [] })

/-- Complete the OP_ABORTs that wait at this switch when the operation ends here first (04 R155). -/
def endAborts (x o status : Nat) (s : Sw) : Sw :=
  match s.op? x o with
  | some p => s.modOp x o (fun p => { p with aborts := [] }) |> fun s =>
      each p.aborts (fun t s => complete t (if status = stAborted then stAborted else stDone) s) s
  | none => s

/-- An ended operation asks for no more buffers; its buffers are freed with its record (09 R281; 11 R373). -/
def poolUnwait (x o : Nat) (s : Sw) : Sw :=
  s.modPool (fun p => { p with waits := p.waits.filter (fun w => w.owner != .operation x o) })

/-- The operation is DONE here (04 R156). -/
def finishOp (x o status : Nat) (s : Sw) : Sw :=
  let s := s.modOp x o (fun p => { p with st := .done, status := status })
  let s := sendComplete x o status s
  let s := opComplete x o status s
  let s := endAborts x o status s
  poolUnwait x o (releaseGather x o (dropWork x o s))

/-- The operation FAILED here: at the root, and where `down` says so, COMPLETE goes down; elsewhere a JOIN with the status
goes upward (04 R137, R153, R156; 09 R293). -/
def failOp (x o status : Nat) (down : Bool) (s : Sw) : Sw :=
  match s.ctx? x, s.op? x o with
  | some c, some p =>
    if !p.isOpen then s
    else if p.st == .committed && (c.isRoot || down) then finishOp x o status s
    else
      let s := s.modOp x o (fun p => { p with st := .failed, status := status })
      let s := if c.isRoot || down then sendComplete x o status s else s
      let s := if c.isRoot then s else sendUpJoin x o status s
      let s := opComplete x o status s
      let s := endAborts x o status s
      poolUnwait x o (releaseGather x o (dropWork x o s))
  | _, _ => s

/-- Fail an operation from this switch's own finding. -/
def failHere (x o status : Nat) (s : Sw) : Sw := failOp x o status false s

/-! ### DELIVERED and RELEASE (09 R284 to R286) -/

/-- A mark belongs to operation o of context x. -/
def Mark.of (m : Mark) (x o : Nat) : Bool :=
  match m with
  | .none => false
  | .upRecord _ _ _ _ => false
  | .result a b _ _ _ => a == x && b == o
  | .complete a b _ => a == x && b == o

/-- A cell of the operation toward this child has not been acknowledged, or not left (09 R285). -/
def Sw.outstanding (s : Sw) (x o q : Nat) : Bool :=
  let port := s.port (s.physPort x q)
  let mine (m : Mark) : Bool := m.of x o && (match m with | .result _ _ r _ _ => r == q | .complete _ _ r => r == q | _ => false)
  port.q.txq.any (fun i => mine i.mark) || port.link.replayBuf.any (fun f => f.marks.any mine)

/-- A RESULT_ACK cell (09 R284). -/
def ackCell (x o member dir below : Nat) : Cell :=
  ctrlCell ctAck x member o 0 (le 4 o ++ le 1 dir ++ le 3 0 ++ le 4 below)

/-- Child h has done its part of R285 for an ended operation: a switch has sent DELIVERED, a member has acknowledged every frame
that carried one of its result cells and its COMPLETE. -/
def childDelivered (s : Sw) (x o : Nat) (p : Op) (h : Child) : Bool :=
  if h.isSwitch then p.deliveredFrom.getLsbD h.port
  else p.once.contains (0, 0) && !s.outstanding x o h.port && !p.once.contains (1, h.port)
/-- Send DELIVERED upward, or count it at the root, once R285 holds; an operation without results through this switch needs no
more than its end, and at the root the DELIVERED of the switch children (R286). A retained copy is freed when every child it
went to has done its part (R288). -/
def deliveredCheck (x o : Nat) (s : Sw) : Sw :=
  match s.ctx? x, s.op? x o with
  | some c, some p =>
    if p.isOpen || p.delivered then s
    else
      let quiet := !hasResults c p.blk &&
        (!c.isRoot || (c.canopy.children.filter (fun h => h.isSwitch)).all (childDelivered s x o p))
      if quiet || c.canopy.children.all (childDelivered s x o p) then
        let s := s.modOp x o (fun p => { p with delivered := true, retained := [] })
        match c.canopy.parent with
        | some up => ctxCtrl x up .none (ackCell x o noMember 0 0) s
        | none => s
      else
        let kept (k : Nat) : Bool := !(targets c p.blk k).all (fun q => (c.canopy.child q).any (childDelivered s x o p))
        if p.retained.all (fun e => kept e.1) then s
        else s.modOp x o (fun p => { p with retained := p.retained.keep kept })
  | _, _ => s

/-- Operation o is releasable at the root (09 R286). -/
def Ctx.releasable (c : Ctx) (o : Nat) : Bool :=
  match SMap.find? o c.ops with
  | some p => if c.storeReduction p.blk then decide (o < c.stepAck) else !p.isOpen && p.delivered
  | none => decide (o < c.windowBase)

/-- The lowest OPNUM not yet releasable, from the last one sent, at most `fuel` further. -/
def Ctx.releaseGo (c : Ctx) : Nat → Nat → Nat
  | 0, o => o
  | fuel + 1, o => if decide (o < c.nextOp) && c.releasable o then c.releaseGo fuel (o + 1) else o

/-- Send RELEASE to every child (09 R286). -/
def sendRelease (x below : Nat) (s : Sw) : Sw :=
  match s.ctx? x with
  | none => s
  | some c => each c.canopy.children (fun h s =>
      each ([h.port] ++ h.backup.toList) (fun q s => ctxCtrl x q .none (ackCell x 0 h.member 1 below) s) s) s

/-- RELEASE_BELOW advances at the root: a RELEASE is due, which goes at the next frame tick, at most one in a frame
(09 R286; DEDUCED, log 23). -/
def releaseCheck (x : Nat) (s : Sw) : Sw :=
  match s.ctx? x with
  | none => s
  | some c =>
    if !c.isRoot then s else
    let below := c.releaseGo 256 c.releaseBelow
    if below = c.releaseBelow then s
    else s.setCtx x { c with releaseBelow := below, releaseDue := true }

end Sys2Proof.Machine
end

