-- ==== Sys2Proof/Machine/Flags.lean ====
section
/-! DEFINITION. Device flags, the waits they release and the flag watchdog (12 R411, R428 to R431). This block has no
arithmetic status flags; the conditions computed from values are the comparisons of R429. -/
namespace Sys2Proof.Machine

/-- The condition of a WAIT (12 R429). -/
def waitHolds (eq : Bool) (value flag : Word) : Bool := if eq then flag == value else !(flag - value).getLsbD 31

/-- Progress of a job restarts its watchdog, which runs on elapsed time; WAIT_RESUMED follows a stall (12 R431; 05 R163). -/
def flagProgress (j : Nat) (s : Sw) : Sw :=
  let b := s.job j
  let s := s.modJob j (fun b => { b with wdStart := s.now, stalled := none })
  match b.stalled with
  | some t => raiseJob j 0x0121 (le 1 j ++ le 4 ((s.now - t) / ms)) s
  | none => s

/-- The pending WAIT of ring n ends with a status; its RESULT is the flag's value (12 R411, R429). -/
def endWait (n status : Nat) (s : Sw) : Sw :=
  match (s.ring n).wait with
  | none => s
  | some w =>
    let s := s.modRing n (fun r => { r with wait := none, state := if r.state == .waiting then .running else r.state })
    let s := completeR w.tok status (BitVec.ofNat 64 (s.flag w.flag).toNat) s
    match s.jobOfFlag w.flag with
    | some j => flagProgress j s
    | none => s

/-- Release every wait on flag f whose condition holds (12 R430). -/
def wakeWaits (f : Nat) (s : Sw) : Sw :=
  each s.host.rings (fun e s =>
    match (s.ring e.1).wait with
    | some w => if w.flag = f && waitHolds w.eq w.value (s.flag f) then endWait e.1 stOk s else s
    | none => s) s

/-- Set flag f (12 R428). -/
def setFlag (f : Nat) (v : Word) (s : Sw) : Sw :=
  let s := s.modHost (fun h => { h with flags := if v = 0 then h.flags.erase f else h.flags.set f v })
  let s := match s.jobOfFlag f with
    | some j => flagProgress j s
    | none => s
  wakeWaits f s

/-- The per-chunk signal of a streaming context adds 1 (04 R149; 12 R428). -/
def signalChunk (f : Nat) (s : Sw) : Sw := setFlag f (s.flag f + 1) s

end Sys2Proof.Machine
end

