-- ==== Sys2Proof/Machine/Shadow.lean ====
section
/-! DEFINITION. Shadow checks: sampling, the vote on a mismatch, the shadow log and the fault counts of the tiles (09 R302 to
R307, R328; 15 R500). -/
namespace Sys2Proof.Machine

/-- Grid cell k of operation o, or block k of a step o, is sampled for shadow checking (09 R302). -/
def sampled (s : Sw) (x o k : Nat) : Bool :=
  s.rcv.shadowLog2 != 0xFF &&
    dither (Config.deviceId ^^^ BitVec.ofNat 64 (place x 52)) (o % 65536) k 15 0 % 2 ^ s.rcv.shadowLog2 == 0
/-- An elapsed time lies within QUAR_WINDOW (09 R325). -/
def Sw.inWindow (s : Sw) (t : Nat) : Bool := decide (s.now - t ≤ s.rcv.quarWindow * 1000 * ms)
/-- FAULTS: outvotes counted within QUAR_WINDOW (09 R304, R307; 18 R551). -/
def Sw.faultsOf (s : Sw) (p : Nat) : Nat := min 255 ((s.tile p).faults.filter s.inWindow).length
/-- Active tiles of the grove of logical tile q, ascending. -/
def Sw.groveTiles (s : Sw) (q : Nat) : List Nat := s.activeTiles.filter (fun t => t / 32 == q / 32)
/-- The next active tile on the grove of logical tile q, after the last one the first (09 R303, R304). -/
def Sw.tileAfter (s : Sw) (q : Nat) : Nat :=
  let l := s.groveTiles q
  (l.find? (fun t => decide (q < t))).getD (l.headD q)

/-- How a shadow check ends (09 R304). -/
inductive Vote where
  /-- The checking tile has the same result. -/
  | agree
  /-- The arbiter has the checking tile's result: the checked tile is outvoted. -/
  | checked
  /-- The arbiter has the checked tile's result: the checking tile is outvoted. -/
  | checking
  /-- All three differ. -/
  | none_
  deriving DecidableEq, Repr

/-- The vote that a free value stands for: whether a tile computes wrongly is no state of the switch (log 88). -/
def voteOf (v : Quad) : Vote := match v.toNat % 4 with | 0 => .agree | 1 => .checked | 2 => .checking | _ => .none_
/-- VOTE of the shadow log (09 R305). -/
def Vote.code (v : Vote) : Nat := match v with | .agree => 0 | .checked => 1 | .checking => 2 | .none_ => 8
/-- The logical tile outvoted in a check of tile q. -/
def Vote.out (s : Sw) (q : Nat) (v : Vote) : Option Nat :=
  match v with | .checked => some q | .checking => some (s.tileAfter q) | _ => none

/-- The 32 bytes of a shadow log entry. The core voltage and the two loads are no registers of this manual: `volt`, `mesh` and
`load` are free values (09 R305; log 88). -/
def shadowBytes (s : Sw) (kind x o cell q : Nat) (v : Vote) (volt mesh load : Nat) : List Byte :=
  let tile := (v.out s q).bind s.physOf
  let at_ := s.tile (tile.getD ((s.physOf q).getD 0))
  le 8 s.gtc.toNat ++ le 1 (tile.getD 0xFF) ++ le 1 kind ++ le 1 v.code ++ le 1 (s.glb.clockActive + 16 * s.pwr.inForce) ++
    le 2 at_.temp.toNat ++ le 2 volt ++ le 2 (s.pwr.grove.getD (q / 32) 0) ++ le 1 (mesh % 101) ++ le 1 (load % 101) ++
    le 2 x ++ le 2 0 ++ le 4 o ++ le 4 cell

/-- The fault count of an outvoted logical tile rises, and its wear entry has been outvoted within the day (09 R304; 15 R500). -/
def countFault (q : Option Nat) (s : Sw) : Sw :=
  match q.bind s.physOf with
  | none => s
  | some p =>
    let now := s.now
    ((s.modTile p (fun t => { t with faults := t.faults ++ [now] })).modRec (fun r =>
      { r with outvoted := dedup (r.outvoted ++ [p]) })).modWear (fun w =>
      { w with entries := w.entries.set (584 + p) { w.entries.getD (584 + p) {} with outvoted := true } })

/-- A mismatch: the vote, the log entry of the last 4,096 and event 0x0620, at most once per checked tile and ms (09 R304, R305,
R328). -/
def shadowMismatch (kind x o cell q : Nat) (v : Vote) (s : Sw) : Sw :=
  let (volt, s) := s.draw
  let (mesh, s) := s.draw
  let (load, s) := s.draw
  let bytes := shadowBytes s kind x o cell q v volt.toNat mesh.toNat load.toNat
  let s := countFault (v.out s q) s
  let s := s.modCtx x (fun c => { c with cnt := { c.cnt with shadowMismatch := c.cnt.shadowMismatch + 1 } })
  let s := s.modRec (fun r => { r with log := (({ bytes := BitVec.ofNat 256 (ofLe bytes) } : ShadowEnt) :: r.log).take 4096 })
  s.limited 0x0620 ((s.physOf q).getD 0) ms (raiseCtx x 0x0620 bytes)

/-- A shadow check of an item that logical tile q has computed: kind 0 INGRESS, 1 EGRESS, 2 UPDATE. Answers its vote (09 R303,
R304, R326). -/
def shadowCheck (kind x o cell q : Nat) (s : Sw) : Vote × Sw :=
  let s := s.modCtx x (fun c => { c with cnt := { c.cnt with shadowChecks := c.cnt.shadowChecks + 1 } })
  let (v, s) := s.draw
  match voteOf v with
  | .agree => (.agree, s)
  | w => (w, shadowMismatch kind x o cell q w s)

/-- A mismatch on cells that have left: they stand, and event 0x0621 names them, at most once per checked tile and ms (09 R306,
R328). -/
def shadowAfter (x o cell kind q : Nat) (s : Sw) : Sw :=
  s.limited 0x0621 ((s.physOf q).getD 0) ms (raiseCtx x 0x0621 (le 4 o ++ le 4 cell ++ le 1 kind))

end Sys2Proof.Machine
end

