-- ==== Sys2Proof/Machine/Deliver.lean ====
section
/-! DEFINITION. Results on their way to the children: records and zero runs, member cells, retention, chunks and the end
of an operation whose results have all left (02 R42, R64, R67 to R71; 04 R144, R149, R156; 08 R263, R266; 09 R288). -/
namespace Sys2Proof.Machine

/-! ### Units on a link: records and zero runs (02 R64; 08 R263) -/

/-- A grid cell that a zero run may stand for (08 R263). -/
def partZero (p : Part) : Bool :=
  p.vals.all (· == 0) && p.emax == emaxNone && p.nan == 0 && p.pinf == 0 && p.ninf == 0 && !p.clamp

/-- A unit: its first grid cell, how many it stands for, and its payloads. -/
structure RecUnit where
  /-- First grid cell. -/
  first : Nat
  /-- Grid cells. -/
  count : Nat
  /-- ATTEMPT. -/
  attempt : Nat
  /-- A zero run. -/
  zero : Bool
  /-- Payloads of its link cells. -/
  pays : List (BitVec 512)
  deriving DecidableEq, Repr

/-- Payload of a zero-run cell. -/
def zeroPay (count attempt : Nat) : BitVec 512 := word64 (le 1 0xF0 ++ le 2 (count - 1) ++ le 1 (attempt * 32))

/-- Bytes of the record of a grid cell; `b` bytes an element for a float record, 0 for a packed one. -/
def recordBytes (up : Bool) (b : Nat) (p : Part) : List Byte := if b = 0 then encodePacked up p else encodeFloatRec b p

/-- The units of grid cells in ascending order. Where `runs` holds, consecutive zero cells of one segment join into the
longest zero runs; toward members the last cell of a segment stays a record (08 R263). -/
def units (runs up : Bool) (b : Nat) (seg : Nat → Nat) (lastOfSeg : Nat → Bool) (cells : List (Nat × Part)) : List RecUnit :=
  (cells.foldl (fun acc e =>
    let (k, p) := e
    let z := runs && partZero p && p.next.isNone && (up || !lastOfSeg k)
    if !z then { first := k, count := 1, attempt := p.attempt, zero := false, pays := recordParts (recordBytes up b p) } :: acc
    else match acc with
      | u :: rest =>
        if u.zero && u.first + u.count == k && seg u.first == seg k && u.attempt == p.attempt && decide (u.count < 65536) then
          { u with count := u.count + 1, pays := [zeroPay (u.count + 1) p.attempt] } :: rest
        else { first := k, count := 1, attempt := p.attempt, zero := true, pays := [zeroPay 1 p.attempt] } :: acc
      | [] => [{ first := k, count := 1, attempt := p.attempt, zero := true, pays := [zeroPay 1 p.attempt] }])
    []).reverse

/-- The link cells of a unit, the mark on the last. -/
def unitCells (tc x le_ seq : Nat) (u : RecUnit) (m : Mark) : List (Cell × Mark) :=
  let n := u.pays.length
  (u.pays.zip (List.range n)).map (fun e =>
    ({ hdr := collHdr tc 0 le_ x noMember seq u.first, pay := e.1 }, if e.2 + 1 = n then m else Mark.none))

/-! ### What a child still lacks -/

/-- Format of the member on port q. -/
def Op.format (p : Op) (q : Nat) : Nat := p.formats.getD q 0
/-- Elements per member cell of the member on port q (02 R39). -/
def Sw.ecOf (s : Sw) (p : Op) (q : Nat) : Nat := max 1 (elemsPerCell (p.format q) (payBytes (s.pers q)))
/-- The member child on port q. -/
def Ctx.memberAt (c : Ctx) (q : Nat) : Option Child := (c.canopy.child q).bind (fun h => if h.isSwitch then none else some h)

/-- The result cells that the grid cells a to z − 1 of an operation make for port q, in its own numbering: member cells,
windows when sparse, or grid cells. -/
def resultRange (s : Sw) (c : Ctx) (p : Op) (q a z : Nat) : List Nat :=
  match c.memberAt q with
  | none => (span a (z - a)).filter (fun k => (targets c p.blk k).contains q)
  | some h =>
    let (first, len) := resultPart c p.blk h.rankFirst
    let lo := max (32 * a) first - first
    let hi := min (32 * z) (first + len) - first
    let ec := if p.sparse then 256 else s.ecOf p q
    if hi ≤ lo then [] else span (lo / ec) ((hi - 1) / ec + 1 - lo / ec)

/-- A backup stands in for the child on port q: its port is UP (04 R128, R153). -/
def backed (s : Sw) (c : Ctx) (q : Nat) : Bool :=
  match c.memberAt q with
  | some h => (match h.backup with | some b => s.up b | none => false)
  | none => false
/-- All of them have left (04 R149, R156). A child that is gone while its backup stands in is waited for no longer (log 99). -/
def leftAll (s : Sw) (c : Ctx) (p : Op) (q a z : Nat) : Bool :=
  let sent := p.sentTo.getD q 0
  (c.gone.contains q && backed s c q) || (resultRange s c p q a z).all (fun u => inSet sent u)

/-! ### Values for a member (02 R67 to R71, R79, R80) -/

/-- Anchor of an operation's values in a segment. -/
def usedAnchor (c : Ctx) (p : Op) (g : Nat) : Int := p.segAnchor.getD g (c.anchor g).cur
/-- The unit exponent of grid cell k. -/
def cellUnit (c : Ctx) (p : Op) (k : Nat) : Int := gridW (usedAnchor c p (segOf c p.blk k)) c.cfg.g c.cfg.h
/-- The divisor of the results: n under AVG (02 R71). -/
def resultDiv (c : Ctx) (p : Op) : Nat := if blkRedop p.blk = 1 && blkReduces p.blk then c.canopy.members else 1
/-- Step value of the dither: OPNUM, or the version a store gather serves (02 R80; 06 R210). No cell tells the version to a switch
that does not own the shard: there it is a free value, one for each shard of the operation (log 14). -/
def ditherStep (c : Ctx) (p : Op) (k : Nat) : Nat :=
  if c.storeGather p.blk then
    let shard := ((cellShard c p.blk k).map Prod.fst).getD 0
    match p.gather.bind (fun g => SMap.find? shard g.resolved) with
    | some v => v % 65536
    | none => (Config.freeQuad (blkOpnum p.blk * 65536 + shard)).toNat % 65536
  else blkOpnum p.blk % 65536
/-- Dither inputs of grid cell k. -/
def dithArg (c : Ctx) (p : Op) (k : Nat) : Option (Quad × Nat × Nat) :=
  if c.cfg.dither then some (c.cfg.dseed, ditherStep c p k, k) else none
/-- Raw elements of grid cell k for a member of format `code`, with saturation. -/
def memberElems (c : Ctx) (p : Op) (k : Nat) (part : Part) (code : Nat) : List (Nat × Bool) :=
  resultElems (c.valKind p) part (cellUnit c p k) (resultDiv c p) code (decide (4 ≤ blkRedop p.blk)) (dithArg c p k)

/-- The result record kept for grid cell k, as values. -/
def retainedPart (c : Ctx) (p : Op) (k : Nat) : Option Part :=
  match SMap.find? k p.retained with
  | none => none
  | some r => (if r.float then decodeFloatRec (c.recBytes p) r.bytes else decodePacked false r.bytes).toOption

/-- Payload of member cell j of port q, when every grid cell it draws on has its result here (02 R42). -/
def memberPay (s : Sw) (c : Ctx) (p : Op) (q : Nat) (h : Child) (j : Nat) : Option (BitVec 512) :=
  let code := p.format q
  let (first, len) := resultPart c p.blk h.rankFirst
  let ec := s.ecOf p q
  let lo := first + ec * j
  let n := min ec (len - ec * j)
  if isMx code then
    let k := lo / 32
    (retainedPart c p k).map (fun part =>
      resultMx (c.valKind p) part (cellUnit c p k) (resultDiv c p) code (dithArg c p k))
  else
    let ks := span (lo / 32) ((lo + n - 1) / 32 + 1 - lo / 32)
    let elems := ks.foldl (fun (acc : Option (List Nat)) k =>
      acc.bind (fun l => (retainedPart c p k).map (fun part => l ++ (memberElems c p k part code).map Prod.fst))) (some [])
    elems.map (fun l =>
      let mine := (l.drop (lo % 32)).take n
      let w := elemBits code
      BitVec.ofNat 512 ((mine.zip (List.range mine.length)).foldl (fun a e => a + place e.1 (w * e.2)) 0))

/-! ### Prune cells toward a member (08 R258, R259, R266) -/

/-- Maximal runs of entries in ascending offset: start and values. -/
def entryRuns (entries : List (Nat × Nat)) : List (Nat × List Nat) :=
  (entries.foldl (fun (acc : List (Nat × List Nat)) e =>
    match acc with
    | (a, vs) :: rest => if a + vs.length = e.1 then (a, vs ++ [e.2]) :: rest else (e.1, [e.2]) :: acc
    | [] => [(e.1, [e.2])]) []).reverse

/-- A prune cell being filled. -/
structure PruneCell where
  /-- Runs so far. -/
  nrun : Nat := 0
  /-- Bytes of the runs. -/
  bytes : List Byte := []
  deriving DecidableEq, Repr

/-- Put runs into cells of `room` bytes, splitting where the last whole value fits (08 R266). -/
def fillCells (b room : Nat) : Nat → List (Nat × List Nat) → PruneCell → List PruneCell → List PruneCell
  | 0, _, cur, done => done ++ [cur]
  | _, [], cur, done => done ++ [cur]
  | fuel + 1, (a, vs) :: rest, cur, done =>
    let space := room - cur.bytes.length
    let put (n : Nat) : PruneCell :=
      { nrun := cur.nrun + 1, bytes := cur.bytes ++ le 1 a ++ le 1 (n - 1) ++ ((vs.take n).map (fun v => le b v)).flatten }
    if 2 + b * vs.length ≤ space then fillCells b room fuel rest (put vs.length) done
    else if 2 + b ≤ space then
      let n := (space - 2) / b
      fillCells b room fuel ((a + n, vs.drop n) :: rest) {} (done ++ [put n])
    else fillCells b room fuel ((a, vs) :: rest) {} (done ++ [cur])

/-- The cells of one window: NRUN and runs; flags come with sending. -/
def windowCells (b pay : Nat) (entries : List (Nat × Nat)) : List (BitVec 512) :=
  (fillCells b (pay - 2) 1024 (entryRuns entries) {} []).map (fun c => word64 (le 1 0 ++ le 1 c.nrun ++ c.bytes))

/-- Put PFLAGS into a prune cell. -/
def withPflags (v : BitVec 512) (cont last : Bool) : BitVec 512 := v ||| BitVec.ofNat 512 (b2n cont + 2 * b2n last)

/-- A result cell toward member q. -/
def memberCell (c : Ctx) (x o idx : Nat) (h : Child) (pay : BitVec 512) : Cell :=
  { hdr := collHdr 4 0 (c.leOf o) x h.rankFirst o idx, pay := pay }

/-- Send the cells of a sparse window. -/
def sendWindow (x o q : Nat) (h : Child) (w : Nat) (cells : List (BitVec 512)) (final first_ : Bool) (s : Sw) : Sw :=
  match s.ctx? x with
  | none => s
  | some c =>
    let n := cells.length
    each (cells.zip (List.range n)) (fun e s =>
      let last := e.2 + 1 == n
      let pay := withPflags e.1 (!last) (last && final)
      let s := if first_ then foldCell x o 3 q w ((bytes64 pay).take (payBytes (s.pers q))) s else s
      ctxSend x q [ownItem (memberCell c x o w h pay) 1 (if last then .result x o q w 1 else .none)] s) s

/-- Encode the windows of member q that have become whole; the last one with entries waits until it is known whether it
is final (08 R266). -/
def sparseGo (x o q : Nat) (h : Child) : Nat → Sw → Sw
  | 0, s => s
  | fuel + 1, s =>
    match s.ctx? x, s.op? x o with
    | some c, some p =>
      let (first, len) := resultPart c p.blk h.rankFirst
      let total := (len + 255) / 256
      let t := p.sparseOut.getD q {}
      if t.next ≥ total then s
      else
        let w := t.next
        let k0 := (first + 256 * w) / 32
        let ks := span k0 ((min len (256 * (w + 1)) - 256 * w + 31) / 32)
        if !ks.all (fun k => inSet t.have_ k) then s
        else
          let ents := ((t.entries.filter (fun e => decide (256 * w ≤ e.1) && decide (e.1 < 256 * (w + 1)))).map
            (fun e => (e.1 - 256 * w, e.2)))
          let fin := decide (w + 1 = total)
          let cells := windowCells (elemBits (p.format q) / 8) (payBytes (s.pers q)) ents
          let skip (s : Sw) : Sw := s.modOp x o (fun p => { p with sentTo := p.sentTo.set q (addSet (p.sentTo.getD q 0) w) })
          let upd (held : Option (Nat × List (BitVec 512))) (s : Sw) : Sw := s.modOp x o (fun p =>
            { p with sparseOut := p.sparseOut.set q { t with next := w + 1, held := held } })
          let s :=
            if ents.isEmpty then
              if !fin then upd t.held (skip s)
              else match t.held with
                | some (hw, hc) => sendWindow x o q h hw hc true true (upd none (skip s))
                | none => sendWindow x o q h w [word64 [0, 0]] true true (upd none s)
            else
              let s := match t.held with
                | some (hw, hc) => sendWindow x o q h hw hc false true s
                | none => s
              if fin then sendWindow x o q h w cells true true (upd none s) else upd (some (w, cells)) s
          sparseGo x o q h fuel s
    | _, _ => s

/-- Result entries of grid cell k for a sparse member. -/
def sparseDeliver (x o q : Nat) (h : Child) (k : Nat) (part : Part) (s : Sw) : Sw :=
  match s.ctx? x, s.op? x o with
  | some c, some p =>
    let (first, len) := resultPart c p.blk h.rankFirst
    let el := memberElems c p k part (p.format q)
    let mine := (List.range 32).filterMap (fun i =>
      let e := 32 * k + i
      let inc := part.vals.getD i 0 != 0 || bit part.nan i || bit part.pinf i || bit part.ninf i
      if inc && decide (first ≤ e) && decide (e < first + len) then some (e - first, (el.getD i (0, false)).1) else none)
    let s := s.modOp x o (fun p =>
      let t := p.sparseOut.getD q {}
      { p with sparseOut := p.sparseOut.set q { t with have_ := addSet t.have_ k,
                                                        entries := mine.foldl (fun m e => m.set e.1 e.2) t.entries } })
    sparseGo x o q h (len / 256 + 2) s
  | _, _ => s

/-! ### Delivery (02 R42; 03 R113; 09 R288) -/

/-- Saturated elements of a grid cell for a member of format `code` (02 R82). -/
def saturatedIn (c : Ctx) (p : Op) (k : Nat) (part : Part) (code : Nat) : Nat :=
  if isMx code then resultMxSat (c.valKind p) part (cellUnit c p k) (resultDiv c p) code (dithArg c p k)
  else ((memberElems c p k part code).filter Prod.snd).length
/-- Count n saturated elements. In an integer format they make the operation end with OVERFLOW; in a float format that is no MX
format the first of an operation raises event 0x0682 (02 R67, R69, R70, R76, R82; DEDUCED, log 108). -/
def noteSaturation (x o k code n : Nat) (s : Sw) : Sw :=
  if n = 0 then s else
  let s := s.modCtx x (fun c => { c with cnt := { c.cnt with saturated := c.cnt.saturated + BitVec.ofNat 64 n } })
  if isIntFmt code then s.modOp x o (fun p => { p with overflow := true })
  else match s.op? x o with
  | some p =>
    if isMx code || p.once.contains (0x0682, 0) then s
    else raiseCtx x 0x0682 (le 4 (o % 64) ++ le 1 code ++ le 4 k) (s.modOp x o (fun p => { p with once := p.once ++ [(0x0682, 0)] }))
  | none => s

/-- The EGRESS checks of the sampled grid cells that member q receives, whose cells leave whatever they say (09 R303, R306; log 88). -/
def egressChecks (x o q : Nat) (cells : List Nat) (s : Sw) : Sw :=
  each (cells.filter (sampled s x o)) (fun k s =>
    match shadowCheck 1 x o k (s.physPort x q / 4) s with
    | (.agree, s) => s
    | (_, s) => shadowAfter x o k 1 (s.physPort x q / 4) s) s

/-- Deliver the results of grid cells to member q: every member cell that they make whole is sent once (02 R42). -/
def deliverMember (x o q : Nat) (h : Child) (mine : List (Nat × Part)) (first_ : Bool) (s : Sw) : Sw :=
  match s.ctx? x, s.op? x o with
  | some c, some p =>
    let code := p.format q
    let s := if first_ then
        egressChecks x o q (mine.map Prod.fst) (each mine (fun e => noteSaturation x o e.1 code (saturatedIn c p e.1 e.2 code)) s)
      else s
    if p.sparse then each mine (fun e s => sparseDeliver x o q h e.1 e.2 s) s
    else each (dedup (mine.map (fun e => resultRange s c p q e.1 (e.1 + 1))).flatten) (fun j s =>
      match memberPay s c p q h j with
      | none => s
      | some pay =>
        let s := if first_ then foldCell x o 3 q j ((bytes64 pay).take (payBytes (s.pers q))) s else s
        ctxSend x q [ownItem (memberCell c x o j h pay) 1 (.result x o q j 1)] s) s
  | _, _ => s

/-- Bytes of the retention area in use. -/
def Sw.retained (s : Sw) : Nat :=
  s.ctxs.foldl (fun a e => a + e.2.ops.foldl (fun b q =>
    b + q.2.retained.foldl (fun n r => if r.2.kept then n + r.2.bytes.length else n) 0) 0) 0

/-- Keep the result record of grid cell k (09 R288). -/
def retain (x o k : Nat) (float : Bool) (bytes : List Byte) (s : Sw) : Sw :=
  let fits := s.rcv.retain && decide (s.retained + bytes.length ≤ s.rcv.retMib * 2 ^ 20)
  let s := s.modOp x o (fun p => { p with retained := p.retained.set k { bytes := bytes, float := float, kept := fits },
                                          rbits := addSet p.rbits k })
  if fits then s
  else
    let s := s.modCtx x (fun c => { c with cnt := { c.cnt with unretained := c.cnt.unretained + 1 } })
    match s.op? x o with
    | some p =>
      if p.once.contains (0x0603, 0) then s
      else raiseCtx x 0x0603 (le 4 o ++ le 4 (s.retained / 2 ^ 20)) (s.modOp x o (fun p => { p with once := p.once ++ [(0x0603, 0)] }))
    | none => s

/-- Send the results of grid cells, ascending, to the ports they go to (04 R144; 09 R288). `only` restricts the ports;
`first_`: not a re-delivery from retention. -/
def emit (x o : Nat) (cells : List (Nat × Part)) (only : Option Nat) (first_ : Bool) (s : Sw) : Sw :=
  match s.ctx? x, s.op? x o with
  | some c, some p =>
    let b := c.recBytes p
    let s := if first_ then each cells (fun e s => retain x o e.1 (b != 0) (recordBytes false b e.2) s) s else s
    let s := s.modOp x o (fun p => { p with overflow := p.overflow || cells.any (fun e => e.2.clamp) })
    let ports := dedup ((cells.map (fun e => targets c p.blk e.1)).flatten)
    let ports := match only with | some q => ports.filter (· == q) | none => ports
    each ports (fun q s =>
      let mine := cells.filter (fun e => (targets c p.blk e.1).contains q)
      match c.memberAt q with
      | some h => deliverMember x o q h mine first_ s
      | none =>
        let us := units (blkPrune p.blk) false b (segOf c p.blk)
          (fun k => (segCells c p.blk (segOf c p.blk k)).2 == k + 1) mine
        each us (fun u s =>
          let s := if first_ then each u.pays (fun pay s => foldCell x o 3 q u.first (bytes64 pay) s) s else s
          ctxSend x q (unitItems (unitCells 4 x (c.leOf o) o u (.result x o q u.first u.count))) s) s) s
  | _, _ => s

/-! ### Chunks and the end (04 R149, R156; 06 R213) -/

/-- Chunks of an operation. -/
def chunkCount (c : Ctx) (b : BitVec 256) : Nat :=
  if c.cfg.streaming && blkKind b ≤ 4 then (blkE b + 2 ^ c.cfg.chunkLog2 - 1) / 2 ^ c.cfg.chunkLog2 else 0
/-- Grid cells of chunk j: first and one past the last. -/
def chunkCells (c : Ctx) (b : BitVec 256) (j : Nat) : Nat × Nat :=
  let n := 2 ^ (c.cfg.chunkLog2 - 5)
  (j * n, min (cellsOf b) ((j + 1) * n))

/-- Signal to member q the chunks it has been sent, in order (04 R149). -/
def chunkToMember (x o q : Nat) (h : Child) : Nat → Sw → Sw
  | 0, s => s
  | fuel + 1, s =>
    match s.ctx? x, s.op? x o with
    | some c, some p =>
      let j := p.chunkSent.getD q 0
      let (a, z) := chunkCells c p.blk j
      if j ≥ chunkCount c p.blk || !leftAll s c p q a z then s
      else
        let s := s.modOp x o (fun p => { p with chunkSent := p.chunkSent.set q (j + 1) })
        chunkToMember x o q h fuel (sendStatus x o h .none (statusBody o phChunk 0 0 j 0) s)
    | _, _ => s

/-- At the root, signal the chunk flag for each chunk complete at all children, in order (04 R149). -/
def chunkFlags (x o : Nat) : Nat → Sw → Sw
  | 0, s => s
  | fuel + 1, s =>
    match s.ctx? x, s.op? x o with
    | some c, some p =>
      let j := p.chunks.2
      let (a, z) := chunkCells c p.blk j
      if !c.isRoot || decide (j ≥ chunkCount c p.blk) || !c.canopy.children.all (fun h => leftAll s c p h.port a z) then s
      else
        let s := s.modOp x o (fun p => { p with chunks := (p.chunks.1, j + 1) })
        chunkFlags x o fuel (match c.cfg.chunkFlag with | some f => signalChunk f s | none => s)
    | _, _ => s

/-- Chunk consequences of results that have left (04 R149). -/
def chunkCheck (x o : Nat) (s : Sw) : Sw :=
  match s.ctx? x, s.op? x o with
  | some c, some p =>
    if !p.isOpen then s else
    let n := chunkCount c p.blk
    let s := each c.canopy.memberChildren (fun h s => chunkToMember x o h.port h (n + 1) s) s
    chunkFlags x o (n + 1) s
  | _, _ => s

/-- A COMPLETE that a store operation or an exchange owes upward, or the end at the root (04 R147; 06 R206, R213). -/
def storeComplete (x o : Nat) (here : Bool) (s : Sw) : Sw :=
  match s.ctx? x, s.op? x o with
  | some c, some p =>
    let below := (c.canopy.children.filter (fun h => h.isSwitch)).all (fun h => p.completeFrom.getLsbD h.port)
    if !here || !below || !p.isOpen || p.completeUp then s
    else match c.canopy.parent with
      | none => finishOp x o (if p.overflow then stOverflow else stOk) s
      | some up =>
        ctxCtrl x up .none (ctrlCell ctStatus x noMember o 0 (statusBody o phComplete (if p.overflow then stOverflow else stOk) 0 0 0))
          (s.modOp x o (fun p => { p with completeUp := true }))
  | _, _ => s

/-- The results of this operation that pass a switch below the root need not show whether it overflowed: the switch ends it with
the status that COMPLETE brings (02 R59; 09 R278; DEDUCED, log 10). -/
def endsByRoot (c : Ctx) (p : Op) : Bool := !c.isRoot && blkKind p.blk == 1 && c.mode p == .grid
/-- The operation ends here once all its results have left (04 R156). Store operations and exchanges end by the COMPLETE
of the root (06 R206, R213; 04 R147). -/
def endCheck (x o : Nat) (s : Sw) : Sw :=
  let s := chunkCheck x o s
  match s.ctx? x, s.op? x o with
  | some c, some p =>
    if p.st != .joined && p.st != .committed then s
    else
      let n := cellsOf p.blk
      let left := c.canopy.children.all (fun h => leftAll s c p h.port 0 n)
      if blkExchange p.blk || blkKind p.blk == kBarrier then s
      else if c.storeReduction p.blk then
        let mine := (List.range n).all (fun k => (upPort c p.blk k).isSome || inSet p.cbits k)
        storeComplete x o mine s
      else if c.storeGather p.blk then storeComplete x o left s
      else if n = 0 || (left && (c.isRoot || hasResults c p.blk) && (!endsByRoot c p || p.rootEnd)) then
        finishOp x o (if p.overflow then stOverflow else stOk) s
      else s
  | _, _ => s

end Sys2Proof.Machine
end

