-- ==== Sys2Proof/Machine/Gradient.lean ====
section
/-! DEFINITION. The gradient area at the owner and the mirror of a shard (06 R197, R204, R205; 09 R297). -/
namespace Sys2Proof.Machine

/-- GSTATE of a side record (06 R204). -/
def GradCell.gstate (g : GradCell) : Nat := b2n g.full + 2 * b2n g.ovf + 4 * b2n g.avg
/-- The side record (06 R204). -/
def GradCell.side (g : GradCell) : List Byte :=
  le 4 g.nan.toNat ++ le 4 g.pinf.toNat ++ le 4 g.ninf.toNat ++ le 1 g.gstate ++ le 1 g.attempt ++ leInt 2 g.anchor
/-- The payload of the layer digest: the values in G/8 bytes each, then the side record (09 R297). -/
def GradCell.digestBytes (g : GradCell) (width : Nat) : List Byte := (g.vals.map (leInt (width / 8))).flatten ++ g.side

/-- Grid cell of shard `e` that grid cell k of an operation stands for. -/
def shardCell (b : BitVec 256) (e : ShardEnt) (k : Nat) : Nat := (blkB b + 32 * k - e.first) / 32

/-- The gradient cell that a released grid cell makes (06 R204). -/
def gradCellOf (b : BitVec 256) (anchor : Int) (o : Nat) (p : Part) : GradCell :=
  { vals := p.vals, nan := p.nan, pinf := p.pinf, ninf := p.ninf, full := true, ovf := p.clamp,
    avg := blkRedop b == 1, attempt := p.attempt, anchor := anchor, opnum := o }

/-- What a grid cell gives to the sum of squares of its update group (02 R77; 06 R205). -/
def GradCell.square (cfg : CtxCfg) (g : GradCell) : SqCell :=
  let special := g.nan ||| g.pinf ||| g.ninf
  let u := gridW g.anchor cfg.g cfg.h
  { opnum := g.opnum, ah := g.anchor + cfg.h, special := special != 0
    squares := ((List.range 32).filter (fun i => !bit special i && g.vals.getD i 0 != 0)).map (fun i => (g.vals.getD i 0, u)) }
/-- Fold a grid cell into the sum of squares. The grid on which squares are rounded is fixed by the largest A + H of the step,
so they are kept exact until the snapshot. -/
def SumSq.fold (cfg : CtxCfg) (g : GradCell) (w : SumSq) : SumSq := { w with cells := w.cells ++ [g.square cfg] }
/-- The largest A + H so far. -/
def SumSq.top (w : SumSq) : Option Int :=
  w.cells.foldl (fun (a : Option Int) e => some (match a with | some b => max b e.ah | none => e.ah)) w.an
/-- The word at the step's A_N (02 R77, R78). -/
def SumSq.close (w : SumSq) : SumSq :=
  match w.top with
  | none => w
  | some a =>
    let base := match w.an with | some b => alignWord w.word b a | none => w.word
    { an := some a, cells := [], nonfinite := w.nonfinite || w.cells.any (fun e => e.special)
      word := w.cells.foldl (fun n e => e.squares.foldl (fun n v => n + squareOn a v.1 v.2) n) base }
/-- A snapshot goes back into the word (07 R251). -/
def SumSq.restore (snap w : SumSq) : SumSq :=
  match w.an, snap.an with
  | none, _ => { snap with cells := w.cells, nonfinite := w.nonfinite || snap.nonfinite }
  | some a, some b =>
    let m := max a b
    { word := alignWord w.word a m + alignWord snap.word b m, an := some m, nonfinite := w.nonfinite || snap.nonfinite,
      cells := w.cells }
  | some _, none => { w with nonfinite := w.nonfinite || snap.nonfinite }

/-- Send the final grid cell to the mirror of the shard (06 R197). -/
def toMirror (x o k : Nat) (e : ShardEnt) (p : Part) (s : Sw) : Sw :=
  match s.ctx? x, e.mirror with
  | some c, some q =>
    let down := match SMap.find? o c.ops with | some p => p.unmirrored.contains q | none => false
    if down || e.srole != 1 then s
    else
      let u : RecUnit := { first := k, count := 1, attempt := p.attempt, zero := false, pays := recordParts (encodePacked false p) }
      ctxSend x q (unitItems (unitCells 4 x (c.leOf o) o u .none)) s
  | _, _ => s

/-- Write grid cell k of store reduction o into the gradient area. Answers whether it was written: FULL already set keeps
the slot HELD (06 R205). -/
def gradWrite (x o k : Nat) (anchor : Int) (p : Part) (s : Sw) : Bool × Sw :=
  match s.ctx? x, s.op? x o with
  | some c, some op =>
    (match cellShard c op.blk k, c.store with
     | some (n, e), some t =>
       let i := shardCell op.blk e k
       let full := match (SMap.find? n t.shards).bind (fun h => SMap.find? i h.grad) with
         | some g => g.full
         | none => false
       if full then
         (false, if op.once.contains (0x040B, 0) then s
           else raiseCtx x 0x040B (le 4 n ++ le 4 o ++ le 4 k) (s.modOp x o (fun p => { p with once := p.once ++ [(0x040B, 0)] })))
       else
         let g := gradCellOf op.blk anchor o p
         let s := s.modShard x n (fun h => { h with grad := h.grad.set i g })
         let s := s.modStore x (fun t => { t with words := t.words.set e.ugroup ((t.words.getD e.ugroup {}).fold c.cfg g) })
         let s := foldCell x o 4 e.layer k (g.digestBytes c.cfg.g) s
         (true, toMirror x o k e p s)
     | _, _ => (true, s))
  | _, _ => (true, s)

/-- Clear FULL on every grid cell that operation o has written; what it gave to the sums of squares leaves them (06 R206; DEDUCED,
log 109). -/
def gradUndo (x o : Nat) (s : Sw) : Sw :=
  s.modStore x (fun t => { t with
    shards := t.shards.mapVals (fun h => { h with grad := h.grad.mapVals (fun g => if g.opnum = o then { g with full := false } else g) })
    words := t.words.mapVals (fun w => { w with cells := w.cells.filter (fun e => e.opnum != o) }) })

end Sys2Proof.Machine
end

