-- ==== Sys2Proof/Machine/Kernel.lean ====
section
/-! DEFINITION. The arithmetic of the update engine: kernel words, loop nests, the gradient stream, factor passes,
accumulators and the arrays that a shard's nest writes (07 R226 to R241, R254). -/
namespace Sys2Proof.Machine

/-! ### Kernel words (07 R227 to R230, R232) -/

/-- OPC. -/
def kOpc (w : Word) : Nat := field w 26 6
/-- DST. -/
def kDst (w : Word) : Nat := field w 20 6
/-- Source operand codes A, B, C that the opcode uses. -/
def kSrcs (w : Word) : List Nat :=
  let a := field w 14 6
  let b := field w 8 6
  let c := field w 2 6
  match kOpc w with
  | 0x00 => []
  | 0x01 => [a] | 0x0A => [a] | 0x0B => [a] | 0x11 => [a] | 0x12 => [a] | 0x13 => [a] | 0x14 => [a] | 0x15 => [a]
  | 0x16 => [a] | 0x18 => [a] | 0x19 => [a]
  | 0x05 => [a, b, c] | 0x06 => [a, b, c] | 0x07 => [a, b, c] | 0x0C => [a, b, c]
  | _ => [a, b]
/-- Opcodes of R229. -/
def kOpcodes : List Nat :=
  [0x00, 0x01, 0x02, 0x03, 0x04, 0x05, 0x06, 0x07, 0x08, 0x09, 0x0A, 0x0B, 0x0C, 0x0D, 0x10, 0x11, 0x12, 0x13, 0x14, 0x15,
   0x16, 0x18, 0x19]
/-- ACC or ACCSQ. -/
def kAcc (w : Word) : Bool := kOpc w == 0x18 || kOpc w == 0x19
/-- The operation writes a temporary. -/
def kTemp (w : Word) : Bool := kOpc w != 0 && !kAcc w && decide (kDst w < 16)
/-- The operation writes an output stream. -/
def kOut (w : Word) : Bool := kOpc w != 0 && !kAcc w && decide (0x10 ≤ kDst w)
/-- Array an output stream writes. -/
def kOutArray (w : Word) : Nat := if kDst w = 0x10 then 0 else kDst w - 0x11
/-- A source is scalar, given the scalar temporaries. -/
def scalarSrc (temps : List Nat) (code : Nat) : Bool := decide (0x20 ≤ code) || temps.contains code
/-- The operation is scalar (07 R230). -/
def kScalar (temps : List Nat) (w : Word) : Bool := kTemp w && (kSrcs w).all (scalarSrc temps)
/-- Scalar temporaries: those whose every write is scalar (07 R230). -/
def scalarGo (ws : List Word) : Nat → List Nat → List Nat
  | 0, t => t
  | fuel + 1, t => scalarGo ws fuel ((List.range 16).filter (fun r =>
      let writes := ws.filter (fun w => kTemp w && kDst w == r)
      !writes.isEmpty && writes.all (kScalar t)))
/-- Scalar temporaries of a kernel: the largest set that R230 allows, since the spec's AdamW kernel computes a scalar temporary
from itself (07 R230, R253). -/
def Kernel.scalars (k : Kernel) : List Nat := scalarGo (k.pre ++ k.main) 17 (List.range 16)
/-- The kernel accumulates. -/
def Kernel.accumulates (k : Kernel) : Bool := k.pre.any kAcc

/-- An operand code is defined for a source. -/
def srcDefined (code : Nat) : Bool := decide (code < 16) || (decide (0x10 ≤ code) && decide (code ≤ 0x15)) || decide (0x20 ≤ code)
/-- Every read of a temporary finds it written: by an earlier word of its section, or by a scalar operation that has been
evaluated by then, one of `avail`; a scalar operation reads only what earlier scalar operations wrote (07 R230, R232). -/
def readsOk (scal avail : List Nat) : List Word → List Nat → List Nat → Bool
  | [], _, _ => true
  | w :: rest, written, scalWritten =>
    let sc := kScalar scal w
    let ok := (kSrcs w).all (fun c => decide (16 ≤ c) || (if sc then scalWritten.contains c else written.contains c || avail.contains c))
    ok && readsOk scal avail rest (if kTemp w then kDst w :: written else written) (if sc then kDst w :: scalWritten else scalWritten)
/-- R232. -/
def Kernel.valid (k : Kernel) : Bool :=
  let all := k.pre ++ k.main
  let scal := k.scalars
  all.all (fun w => kOpcodes.contains (kOpc w) && field w 0 2 == 0 && (kSrcs w).all srcDefined &&
      (kOpc w == 0 || (if kAcc w then decide (kDst w < 4) else decide (kDst w < 16) || (kOpc w == 1 && decide (0x10 ≤ kDst w) &&
        decide (kDst w ≤ 0x15) && kDst w != 0x11))) &&
      (kOpc w != 0x16 || (kSrcs w).all (scalarSrc scal))) &&
    (List.range 16).all (fun r => !(all.any (fun w => kTemp w && kDst w == r && (kSrcs w).all (scalarSrc scal)) &&
      all.any (fun w => kTemp w && kDst w == r && !(kSrcs w).all (scalarSrc scal)))) &&
    distinct ((k.main.filter kOut).map kDst) &&
    k.pre.all (fun w => !kOut w && (kSrcs w).all (fun c => !(decide (0x34 ≤ c) && decide (c ≤ 0x37)))) &&
    k.main.all (fun w => !kAcc w) &&
    (let early := (k.pre.filter (kScalar scal)).map kDst
     readsOk scal early k.pre [] [] && readsOk scal scal k.main [] early)

/-! ### One operation (07 R226, R229) -/

/-- The result of an operation in PREC, from the encodings of its sources. -/
def laneOp (f : FFmt) (opc t : Nat) (srcs : List Nat) : Nat :=
  let a := srcs.getD 0 0
  let b := srcs.getD 1 0
  let c := srcs.getD 2 0
  match opc with
  | 0x01 => encodeIeee f (decodeNum f a)
  | 0x02 => fadd f a b
  | 0x03 => lane2 f (fun x y => x.add y.neg) a b
  | 0x04 => lane2 f Num.mul a b
  | 0x05 => laneFma f false false a b c
  | 0x06 => laneFma f false true a b c
  | 0x07 => laneFma f true false a b c
  | 0x08 => lane2 f Num.min a b
  | 0x09 => lane2 f Num.max a b
  | 0x0A => lane1 f Num.abs a
  | 0x0B => lane1 f Num.neg a
  | 0x0C => if (decodeNum f a).gt (numOfInt 0 0) then encodeIeee f (decodeNum f b) else encodeIeee f (decodeNum f c)
  | 0x0D => if (decodeNum f a).gt (decodeNum f b) then fone f else 0
  | 0x10 => lane2 f Num.div a b
  | 0x11 => lane1 f Num.sqrt a
  | 0x12 => lane1 f Num.rsqrt a
  | 0x13 => lane2 f Num.div (fone f) a
  | 0x14 => lane1 f Num.exp2 a
  | 0x15 => lane1 f Num.log2 a
  | 0x16 => powt f a t
  | _ => 0

/-- What the sources of one iteration read. -/
structure LaneEnv where
  /-- W, G and S0 to S3, operand codes 0x10 to 0x15, in PREC. -/
  streams : List Nat
  /-- C0 to C15 in PREC. -/
  consts : List Nat
  /-- Q0 to Q15 in PREC. -/
  scal : List Nat
  deriving DecidableEq, Repr

/-- A source operand. -/
def LaneEnv.src (e : LaneEnv) (temps : List Nat) (code : Nat) : Nat :=
  if code < 16 then temps.getD code 0
  else if code < 0x20 then e.streams.getD (code - 16) 0
  else if code < 0x30 then e.consts.getD (code - 0x20) 0
  else e.scal.getD (code - 0x30) 0
/-- The scalar operations of a section, in list order. -/
def runScalars (f : FFmt) (t : Nat) (e : LaneEnv) (scal : List Nat) (ws : List Word) (temps : List Nat) : List Nat :=
  ws.foldl (fun ts w => if kScalar scal w then setNth ts (kDst w) (laneOp f (kOpc w) t ((kSrcs w).map (e.src ts))) else ts) temps
/-- What an iteration leaves: outputs by array, and addends of accumulators in list order. -/
structure LaneOut where
  /-- Temporaries. -/
  temps : List Nat
  /-- Outputs in PREC, by array. -/
  outs : SMap Nat := []
  /-- Accumulator and FP64 addend. -/
  adds : List (Nat × Nat) := []
  deriving DecidableEq, Repr
/-- The per-element operations of one iteration. -/
def runIter (f : FFmt) (t : Nat) (e : LaneEnv) (scal : List Nat) (ws : List Word) (temps : List Nat) : LaneOut :=
  ws.foldl (fun o w =>
    if kOpc w = 0 || kScalar scal w then o
    else
      let v := (kSrcs w).map (e.src o.temps)
      if kAcc w then
        let a := fconv f fp64 (v.getD 0 0)
        { o with adds := o.adds ++ [(kDst w, if kOpc w = 0x19 then lane2 fp64 Num.mul a a else a)] }
      else
        let r := laneOp f (kOpc w) t v
        if kOut w then { o with outs := o.outs.set (kOutArray w) r } else { o with temps := setNth o.temps (kDst w) r })
    { temps := temps }

/-! ### Loop nest (07 R236, R237) -/

/-- Elements addressed by levels from the outermost, in loop order. -/
def nestGo : List (Nat × Int) → Int → List Int
  | [], a => [a]
  | (n, st) :: rest, a => (List.range n).flatMap (fun (i : Nat) => nestGo rest (a + st * (i : Int)))
/-- Elements that the iterations of a shard of `count` parameters address, in loop order. -/
def LayerCfg.addrs (l : LayerCfg) (count : Nat) : List Nat :=
  if l.linear then List.range count
  else (nestGo ((l.counts.zip l.strides).reverse) (l.offset : Int)).map Int.toNat
/-- The nest's least and greatest address lie within the shard, or some count is 0 (07 R244). -/
def LayerCfg.fits (l : LayerCfg) (count : Nat) : Bool :=
  l.linear || l.counts.contains 0 ||
    (let reach := (l.counts.zip l.strides).map (fun e => ((e.1 : Int) - 1) * e.2)
     let lo := (reach.filter (fun r => decide (r < 0))).foldl (· + ·) (l.offset : Int)
     let hi := (reach.filter (fun r => decide (r ≥ 0))).foldl (· + ·) (l.offset : Int)
     decide (0 ≤ lo) && decide (hi < count))

/-! ### Streams (07 R239, R240) -/

/-- A gradient cell that nothing has written: its values are free, its side record at reset (06 R204; log 3). -/
def gradReset (x k alloc i : Nat) : GradCell :=
  { vals := (List.range 32).map (fun e => (Config.storeElem (elemKey x k 7 0) alloc (32 * i + e)).toInt), nan := 0, pinf := 0,
    ninf := 0, full := false, ovf := false, avg := false, attempt := 0, anchor := 0, opnum := 0 }
/-- Gradient cell i of a shard. -/
def Shard.gradCell (h : Shard) (x k i : Nat) : GradCell := h.grad.getD i (gradReset x k h.alloc i)
/-- The value of G at an element, exact. -/
def gradNum (cfg : CtxCfg) (n : Nat) (g : GradCell) (i : Nat) : Num :=
  gridNum { vals := g.vals, nan := g.nan, pinf := g.pinf, ninf := g.ninf } (gridW g.anchor cfg.g cfg.h) (if g.avg then n else 1) i

/-- What a shard's passes need: context settings, n, store, shard number, entry, layer and kernel. -/
structure Pass where
  /-- Context. -/
  x : Nat
  /-- Settings. -/
  cfg : CtxCfg
  /-- MEMBERS. -/
  n : Nat
  /-- Store. -/
  t : Store
  /-- Shard number. -/
  k : Nat
  /-- Shard. -/
  h : Shard
  /-- Its entry. -/
  e : ShardEnt
  /-- Layer record. -/
  l : LayerCfg
  /-- Kernel. -/
  ker : Kernel
  /-- Step. -/
  st : Step
  deriving DecidableEq, Repr

/-- PREC. -/
def Pass.prec (p : Pass) : FFmt := precFmt p.ker.fp64
/-- Array i + 1 is factored. -/
def Pass.factored (p : Pass) (a : Nat) : Bool := decide (a ≠ 0) && p.l.fact.testBit (a - 1)
/-- G of element e in PREC. -/
def Pass.g (p : Pass) (e : Nat) : Nat := encodeIeee p.prec (gradNum p.cfg p.n (p.h.gradCell p.x p.k (e / 32)) (e % 32))
/-- Step scalars Q0 to Q15 in PREC; `acc` the layer's sums (07 R228). -/
def Pass.scal (p : Pass) (acc : List Quad) : List Nat :=
  let f := p.prec
  let c64 (v : Quad) : Nat := fconv fp64 f v.toNat
  [encodeIeee f (numOfInt p.st.step 0), c64 p.st.factor.1, c64 p.st.factor.2, encodeIeee f (numOfInt p.n 0)] ++
    (List.range 4).map (fun i => c64 (acc.getD i 0)) ++ (List.range 4).map (fun i => fconv fp32 f (p.st.hs.getD i 0).toNat) ++
    [0, fone f, encodeIeee f (numOfInt 1 (-1)), encodeIeee f (numOfInt 2 0)]

/-- The factors of a factored array that the factor pass writes: ROWF then COLF in the array's format, and MEANR
(07 R240). -/
def Pass.factorPass (p : Pass) (a : Nat) : List Quad × Quad :=
  let f := p.prec
  let fmt := elemFmt (p.t.fmt a)
  let nc := p.l.cols
  let nr := p.e.count / nc
  let q1 := fconv fp64 f p.st.factor.1.toNat
  let sq (e : Nat) : Nat :=
    let g := fconv f fp64 (lane2 f Num.mul (p.g e) q1)
    fadd fp64 (lane2 fp64 Num.mul g g) p.l.eps.toNat
  let row (r : Nat) : Nat := (List.range nc).foldl (fun s c => fadd fp64 s (sq (r * nc + c))) 0
  let col (c : Nat) : Nat := (List.range nr).foldl (fun s r => fadd fp64 s (sq (r * nc + c))) 0
  let num (n : Nat) : Nat := encodeIeee fp64 (numOfInt n 0)
  let old (i : Nat) : Nat := fconv fmt fp64 (rawElem (p.t.fmt a) (p.h.elem p.x p.k p.h.cur a i))
  let mix (o sum n : Nat) : Nat :=
    let one_ := lane2 fp64 (fun x y => x.add y.neg) (fone fp64) p.l.beta.toNat
    fadd fp64 (lane2 fp64 Num.mul p.l.beta.toNat o) (lane2 fp64 Num.div (lane2 fp64 Num.mul one_ sum) (num n))
  let put (v : Nat) : Nat := (encodeSat fmt .rne (decodeNum fp64 v)).1
  let rows := (List.range nr).map (fun r => put (mix (old r) (row r) nc))
  let cols := (List.range nc).map (fun c => put (mix (old (nr + c)) (col c) nr))
  let mean := lane2 fp64 Num.div (rows.foldl (fun s v => fadd fp64 s (fconv fmt fp64 v)) 0) (num nr)
  ((rows ++ cols).map (BitVec.ofNat 64), BitVec.ofNat 64 mean)

/-- The value that Si of element e reads, in PREC (07 R228, R240). -/
def Pass.state (p : Pass) (a e : Nat) : Nat :=
  let fmt := elemFmt (p.t.fmt a)
  if p.factored a then
    let (fs, mean) := p.st.factors.getD (p.k * 8 + a) ([], 0)
    let nc := p.l.cols
    let nr := p.e.count / nc
    let r := fconv fmt fp64 (fs.getD (e / nc) 0).toNat
    let c := fconv fmt fp64 (fs.getD (nr + e % nc) 0).toNat
    fconv fp64 p.prec (lane2 fp64 Num.div (lane2 fp64 Num.mul r c) mean.toNat)
  else fconv fmt p.prec (rawElem (p.t.fmt a) (p.h.elem p.x p.k p.h.cur a e))
/-- Environment of the iteration at element e. -/
def Pass.env (p : Pass) (acc : List Quad) (e : Nat) : LaneEnv :=
  { streams := [p.state 0 e, p.g e] ++ (List.range 4).map (fun i => if i < p.t.nstate then p.state (i + 1) e else 0),
    consts := p.l.consts.map (fun v => fconv fp64 p.prec v.toNat), scal := p.scal acc }

/-- Temporaries after the scalar operations of PRE. -/
def Pass.preTemps (p : Pass) : List Nat :=
  runScalars p.prec p.st.step (p.env [] 0) p.ker.scalars p.ker.pre (List.replicate 16 0)
/-- The shard's sums of the accumulators: blocks of 4,096 iterations, each from +0 in order, added in order (07 R231). -/
def Pass.sums (p : Pass) : List Nat :=
  let scal := p.ker.scalars
  let ts := p.preTemps
  let zero4 := [0, 0, 0, 0]
  let add (s : List Nat) (a : Nat × Nat) : List Nat := setNth s a.1 (fadd fp64 (s.getD a.1 0) a.2)
  let block (es : List Nat) : List Nat :=
    es.foldl (fun s e => (runIter p.prec p.st.step (p.env [] e) scal p.ker.pre ts).adds.foldl add s) zero4
  (chunks 4096 (p.l.addrs p.e.count)).foldl (fun s es => List.zipWith (fadd fp64) s (block es)) zero4

/-! ### Output (07 R238, R241) -/

/-- How array a of element e rounds (07 R241). -/
def Pass.rnd (p : Pass) (ver a e : Nat) : Rnd :=
  if p.l.round.testBit a then
    let idx := p.e.first + e
    let key := p.cfg.dseed ^^^ BitVec.ofNat 64 (place a 48) ^^^ BitVec.ofNat 64 (place (idx / 2 ^ 29) 56)
    let code := p.t.fmt a
    .dith (dither key (ver % 65536) (idx / 32 % 2 ^ 24) code (idx % 32))
  else .rne
/-- What the nest leaves in the write bank: arrays, and the first saturated write (array, parameter). -/
structure NestOut where
  /-- Arrays by number. -/
  arrays : List (SMap Quad)
  /-- First saturated write. -/
  sat : Option (Nat × Nat) := none
  deriving DecidableEq, Repr
/-- Copies of the current bank, and whole factored arrays (07 R238, R240). -/
def Pass.copies (p : Pass) : List (SMap Quad) :=
  (List.range p.t.arrays).map (fun a =>
    if p.factored a then
      let fs := (p.st.factors.getD (p.k * 8 + a) ([], 0)).1
      (List.range fs.length).zip fs
    else (List.range p.e.count).map (fun i =>
      (i, BitVec.ofNat 64 (rawElem (p.t.fmt a) (p.h.elem p.x p.k p.h.cur a i)))))
/-- Run MAIN over the nest and write the arrays of version `ver` (07 R236, R238, R241). -/
def Pass.main (p : Pass) (acc : List Quad) (ver : Nat) : NestOut :=
  let scal := p.ker.scalars
  let ts := runScalars p.prec p.st.step (p.env acc 0) scal p.ker.main p.preTemps
  (p.l.addrs p.e.count).foldl (fun o e =>
    let r := runIter p.prec p.st.step (p.env acc e) scal p.ker.main ts
    r.outs.foldl (fun o w =>
      let (a, v) := w
      let (raw, sat) := encodeSat (elemFmt (p.t.fmt a)) (p.rnd ver a e) (decodeNum p.prec v)
      { arrays := setNth o.arrays a ((o.arrays.getD a []).set e (BitVec.ofNat 64 raw)),
        sat := if sat && o.sat.isNone then some (a, p.e.first + e) else o.sat }) o)
    { arrays := p.copies }

/-- The layer needs a pass before MAIN: a PRE section or a factored array (07 R249). -/
def needsPre (l : LayerCfg) (ker : Kernel) : Bool := !ker.pre.isEmpty || l.fact != 0

end Sys2Proof.Machine
end

