-- ==== Sys2Proof/Machine/Engine.lean ====
section
/-! DEFINITION. The update engine's steps: write banks, migrations, the norm collective, running and ending a step
(06 R209; 07 R243 to R252, R254; 08 R270 to R273; 11 R392, R393). -/
namespace Sys2Proof.Machine

/-! ### Events of a step (07 R255) -/

/-- Raise an update event: UGROUP and STEP come first. -/
def stepEvent (x u step code : Nat) (content : List Byte) (s : Sw) : Sw :=
  raiseCtx x code (le 2 u ++ le 4 step ++ content) s
/-- Raise an update event once per step and key. -/
def stepOnce (x u code key : Nat) (content : List Byte) (s : Sw) : Sw :=
  match s.step? x u with
  | some st =>
    if st.once.contains (code, key) then s
    else stepEvent x u st.step code content (s.modStep x u (fun st => { st with once := st.once ++ [(code, key)] }))
  | none => s

/-! ### Tier-2 space (11 R392, R393) -/

/-- Free extents of root port p that tier 2 may use. -/
def Sw.t2Free (s : Sw) (p : Nat) : Nat := let r := s.root p; if r.use then r.total - r.used else 0
/-- Tier 2 is present. -/
def Sw.tier2 (s : Sw) : Bool := (s.root 0).use || (s.root 1).use
/-- Take n tier-2 extents, each on the port with more free extents; none when they do not fit. -/
def takeT2 : Nat → Nat × Nat → Sw → Option ((Nat × Nat) × Sw)
  | 0, got, s => some (got, s)
  | n + 1, got, s =>
    let p := if s.t2Free 0 < s.t2Free 1 then 1 else 0
    if s.t2Free p = 0 then none
    else takeT2 n (if p = 0 then (got.1 + 1, got.2) else (got.1, got.2 + 1)) (s.modRoot p (fun r => { r with used := r.used + 1 }))
/-- Give back tier-2 extents. -/
def freeT2 (n : Nat × Nat) (s : Sw) : Sw :=
  (s.modRoot 0 (fun r => { r with used := r.used - n.1 })).modRoot 1 (fun r => { r with used := r.used - n.2 })
/-- State arrays placed AUTO. -/
def Store.autos (t : Store) : List Nat := (List.range t.nstate).filter (fun i => t.splace.getD i 0 == 2)
/-- Bytes of the AUTO arrays of one bank. -/
def Store.autoBytes (t : Store) (count : Nat) : Nat := t.autos.foldl (fun a i => a + count * fmtBytes (t.fmt (i + 1))) 0
/-- Tier-2 extents of arrays: each array of each bank in whole extents, since the tag of an extent names both
(11 R393; DEDUCED, log 16). -/
def t2Extents (t : Store) (arrays : List Nat) (count : Nat) : Nat :=
  arrays.foldl (fun a i => a + 2 * extentsOf (count * fmtBytes (t.fmt (i + 1)))) 0

/-! ### Migration (08 R272, R273) -/

/-- Abandon the migration of a shard, queued or copying: the destination is freed. -/
def migStop (x k : Nat) (s : Sw) : Sw :=
  match s.shard? x k with
  | none => s
  | some h =>
    let s := s.modMigs (fun m => m.mapVals (fun q => q.filter (· != (x, k))))
    let s := freeT2 h.migT2 s
    let s := match h.migBuf with | some id => poolFreeBy (.store x) [id] s | none => s
    s.modShard x k (fun h => { h with mig := .still, migT2 := (0, 0), migBuf := none, migWait := false })
/-- The decision after a commit of a shard (R272). -/
def migDecide (x k : Nat) (s : Sw) : Sw :=
  match s.store? x, s.shard? x k with
  | some t, some h =>
    let a := (List.range t.window).foldl (fun n i => n + b2n (h.hist.getLsbD i)) 0
    let demote := !h.inTier2 && decide (t.window ≤ h.steps) && decide (a ≤ t.demoteMax)
    let promote := h.inTier2 && decide (t.promoteMin ≤ a)
    if !t.migrate || !s.tier2 || t.autos.isEmpty || h.mig != .still || !(demote || promote) then s
    else
      let s := s.modShard x k (fun h => { h with mig := .queued, promote := promote })
      s.modMigs (fun m => m.set h.grove (m.getD h.grove [] ++ [(x, k)]))
  | _, _ => s
/-- Active steps in the window. -/
def Store.activeIn (t : Store) (h : Shard) : Nat := (List.range t.window).foldl (fun n i => n + b2n (h.hist.getLsbD i)) 0

/-! ### Write bank (06 R209; 08 R271, R273) -/

/-- Event 0x0401. -/
def waitPinEvent (x k v : Nat) (h : Shard) (s : Sw) : Sw :=
  raiseCtx x 0x0401 (le 4 k ++ le 4 v ++ le 4 (h.pin v).1 ++ le 4 (h.pin v).2) s
/-- Versions of a bank. -/
def Bank.versions (b : Bank) : List Nat := b.ver.toList ++ b.prevVer.toList
/-- The write bank is taken: emptied, and the shard UPDATING. -/
def beginWrite (x k : Nat) (s : Sw) : Sw :=
  s.modShard x k (fun h => { h.setBank h.other (fun b => { b with ver := none, prevVer := none }) with st := .updating, migWait := false })
/-- Move the pins of the other bank's versions to cache entries; whether every one has its entry. -/
def pinsToCache (x k : Nat) (vs : List Nat) (s : Sw) : Bool × Sw :=
  vs.foldl (fun acc v =>
    if !acc.1 then acc
    else
      let (ok, s) := makeEntry x k v acc.2
      if !ok then (false, s)
      else
        let s := s.modStore x (Store.pinsMove k v)
        let free := match s.store? x with | some t => (t.budget - t.cacheUsed) * 2 ^ 24 | none => 0
        (true, raiseCtx x 0x0402 (le 4 k ++ le 4 v ++ le 8 free) s)) (true, s)
/-- The update engine requests the write bank of a shard (06 R209; 08 R273). -/
def requestBank (x k : Nat) (idle : Bool) (s : Sw) : Sw :=
  match s.shard? x k with
  | none => s
  | some h =>
    if h.st != .ready then s
    else if h.mig == .copying && !idle && h.promote then s.modShard x k (fun h => { h with migWait := true })
    else
      let s := if h.mig == .copying && !idle then raiseCtx x 0x0513 (le 4 k ++ le 1 1) (migStop x k s) else s
      let vs := (h.bank h.other).versions.filter h.pinned
      match vs with
      | [] => beginWrite x k s
      | v :: _ =>
        let (ok, s) := pinsToCache x k vs s
        if ok then beginWrite x k s
        else waitPinEvent x k v h (s.modShard x k (fun h => { h with st := .waitPin }))
/-- A write that is abandoned before its commit (06 R209). In WAIT_PIN the other bank still holds its pinned version. -/
def abandonWrite (x k : Nat) (s : Sw) : Sw :=
  s.modShard x k (fun h =>
    match h.st with
    | .updating => { h.setBank h.other (fun b => { b with ver := none, prevVer := none }) with st := .ready }
    | .waitPin => { h with st := .ready }
    | _ => { h with migWait := false })

/-! ### A step's shards (07 R243, R249; 08 R270, R271) -/

/-- Layer of shard k. -/
def Ctx.layerOf (c : Ctx) (k : Nat) : Nat := match c.canopy.shard k with | some e => e.layer | none => 0
/-- Shards of an update group that this switch owns or mirrors, ascending layer then shard. -/
def Ctx.groupShards (c : Ctx) (u : Nat) : List Nat :=
  let mine := (List.range c.canopy.shards.length).filter (fun k =>
    match c.canopy.shard k with | some e => e.ugroup == u && e.srole != 0 | none => false)
  (sortAsc (dedup (mine.map c.layerOf))).flatMap (fun l => mine.filter (fun k => c.layerOf k == l))
/-- This switch owns shard k. -/
def Ctx.ownsShard (c : Ctx) (k : Nat) : Bool := match c.canopy.shard k with | some e => e.srole == 1 | none => false
/-- The pass of shard k in the step of group u. -/
def Sw.pass (s : Sw) (x u k : Nat) : Option Pass :=
  match s.ctx? x, s.store? x, s.shard? x k, s.step? x u with
  | some c, some t, some h, some st =>
    (match c.canopy.shard k with
     | none => none
     | some e =>
       (SMap.find? e.layer st.cfg).bind (fun l =>
         (SMap.find? l.kid s.kernels).map (fun ker =>
           { x := x, cfg := c.cfg, n := c.canopy.members, t := t, k := k, h := h, e := e, l := l, ker := ker, st := st })))
  | _, _, _, _ => none
/-- Every grid cell of shard k is FULL. -/
def Shard.allFull (h : Shard) (count : Nat) : Bool :=
  (List.range (count / 32)).all (fun i => match SMap.find? i h.grad with | some g => g.full | none => false)
/-- A gradient cell has a nonzero value, a special bit or OVF. -/
def GradCell.active (g : GradCell) : Bool := g.vals.any (· != 0) || g.nan != 0 || g.pinf != 0 || g.ninf != 0 || g.ovf
/-- The shard is ACTIVE (08 R270). -/
def Shard.active (h : Shard) (x k count : Nat) : Bool := (List.range (count / 32)).any (fun i => (h.gradCell x k i).active)
/-- The layer in progress: that of the first shard left. -/
def Step.layer (st : Step) (c : Ctx) : Nat := c.layerOf (st.left.headD 0)
/-- Shards left of the layer in progress. -/
def Step.now (st : Step) (c : Ctx) : List Nat := st.left.filter (fun k => c.layerOf k == st.layer c)
/-- The shard is committed without running its kernel (08 R271). -/
def Sw.idles (s : Sw) (x u k : Nat) : Bool :=
  match s.ctx? x, s.step? x u, s.pass x u k with
  | some c, some st, some p =>
    st.idleSkip && !st.skip && !st.active.contains k &&
      (!p.ker.accumulates || (c.groupShards u).all (fun j => c.layerOf j != c.layerOf k || !st.active.contains j))
  | _, _, _ => false
/-- The layer in progress must run its factor passes and PRE first. -/
def Sw.layerWaits (s : Sw) (x u : Nat) : Bool :=
  match s.ctx? x, s.step? x u with
  | some c, some st =>
    !st.skip && st.acc.map Prod.fst != some (st.layer c) && (st.now c).any (fun k =>
      !s.idles x u k && (match s.pass x u k with | some p => needsPre p.l p.ker | none => false))
  | _, _ => false

/-- The active tiles (physical) of grove g, ascending. -/
def Sw.groveActive (s : Sw) (g : Nat) : List Nat := (span (36 * g) 36).filter (fun p => (s.tile p).role == .active)
/-- Write the address generators of a grove from a layer record; the lowest-numbered active tile leads (07 R237, R254). -/
def agStart (g count : Nat) (l : LayerCfg) (s : Sw) : Sw :=
  let ts := s.groveActive g
  let w (n : Nat) : Word := BitVec.ofNat 32 n
  each ts (fun p => Sw.modTile p (fun t => { t with
    agOffset := if l.linear then 0 else w l.offset
    agCount := if l.linear then [w count, 1, 1, 1, 1, 1] else l.counts.map w
    agStride := if l.linear then [1, 0, 0, 0, 0, 0] else l.strides.map (BitVec.ofInt 32)
    agRunning := true
    agLeader := ts.head? == some p })) s
/-- The nests of a grove have ended. -/
def agStop (g : Nat) (s : Sw) : Sw :=
  each (s.groveActive g) (fun p => Sw.modTile p (fun t => { t with agRunning := false, agLeader := false })) s

/-- The tiles of grove g run a nest. -/
def Sw.agBusy (s : Sw) (g : Nat) : Bool := (s.groveActive g).any (fun p => (s.tile p).agRunning)
/-- Let each grove begin its next shard of the layer in progress: its factor pass and PRE, or, where the layer needs none or has
them, its write bank is requested (07 R237, R249, R254). -/
def engineGo (x u : Nat) (s : Sw) : Sw :=
  match s.ctx? x, s.step? x u with
  | some c, some st =>
    if st.st != .running then s
    else
      let waits := s.layerWaits x u
      each (List.range 4) (fun g s =>
        match (st.now c).find? (fun k => match s.shard? x k with | some h => h.grove == g | none => false) with
        | none => s
        | some k =>
          let idle := s.idles x u k
          if waits && !idle then
            match s.pass x u k with
            | some p => if s.agBusy g then s else agStart g p.e.count p.l s
            | none => s
          else
            let s' := requestBank x k idle s
            match s.pass x u k, s'.shard? x k with
            | some p, some h => if h.st == .updating && p.h.st != .updating && !idle && !st.skip then agStart g p.e.count p.l s' else s'
            | _, _ => s') s
  | _, _ => s

/-! ### Ending a step (07 R251, R255; 08 R271) -/

/-- Content of UPDATE_DONE after UGROUP and STEP. -/
def stepDoneContent (st : Step) (status : Nat) (tag : Word) : List Byte :=
  le 1 status ++ le 4 st.done.length ++ le 8 st.factor.1.toNat ++ le 8 st.factor.2.toNat ++ le 4 tag.toNat
/-- The step is DONE: event 0x0420 completes its UPDATE_START. -/
def stepDone (x u status : Nat) (s : Sw) : Sw :=
  match s.step? x u with
  | none => s
  | some st =>
    let s := if st.idle ≠ 0 then stepEvent x u st.step 0x0515 (le 4 st.idle) s else s
    let s := s.modStep x u (fun st => { st with st := .done, tok := none, since := s.now })
    match st.tok with
    | some t => completeE t 0x0420 status (le 2 x ++ le 2 u ++ le 4 st.step ++ stepDoneContent st status t.tag) s
    | none => stepEvent x u st.step 0x0420 (stepDoneContent st status 0) s
/-- The step ends when no shard is left. -/
def stepCheck (x u : Nat) (s : Sw) : Sw :=
  match s.step? x u with
  | some st => if st.st == .running && st.left.isEmpty then stepDone x u (if st.abandoned then stAborted else stOk) s else s
  | none => s
/-- The snapshot goes back into the update group's word. -/
def restoreSnap (x u : Nat) (s : Sw) : Sw :=
  match s.step? x u with
  | some st =>
    (match st.snap with
     | some w => (s.modStore x (fun t => { t with words := t.words.set u (w.restore (t.words.getD u {})) })).modStep x u
         (fun st => { st with snap := none })
     | none => s)
  | none => s
/-- Clear FULL on every grid cell of a shard. -/
def clearFull (x k : Nat) (s : Sw) : Sw :=
  s.modShard x k (fun h => { h with grad := h.grad.mapVals (fun g => { g with full := false }) })

/-! ### Entering RUNNING (07 R247, R248, R251; 08 R270) -/

/-- The step enters RUNNING with a factor and GNORM. Of a shard that RESUME skips, the history says whether it was ACTIVE in the
step (08 R270, R271). -/
def enterRunning (x u : Nat) (factor gnorm : Quad) (skip : Bool) (s : Sw) : Sw :=
  match s.ctx? x, s.step? x u with
  | some c, some st =>
    let act := (c.groupShards u).filter (fun k => match s.shard? x k, c.canopy.shard k with
      | some h, some e => if st.left.contains k then h.active x k e.count else h.hist.getLsbD 0
      | _, _ => false)
    let s := s.modStep x u (fun st => { st with st := .running, factor := (factor, gnorm), skip := skip, active := act, since := s.now })
    stepCheck x u (engineGo x u s)
  | _, _ => s
/-- FP64 1.0. -/
def quadOne : Quad := 0x3FF0000000000000
/-- GNORM and the factor from a RESULT (07 R247). -/
def normResult (word : Nat) (an : Int) (nonfinite : Bool) (maxnorm : Word) : Quad × Quad :=
  if nonfinite then (BitVec.ofNat 64 (qnan fp64), quadOne)
  else
    let g := encodeIeee fp64 (Num.sqrt (.fin false word 1 (2 * an - 70)))
    let m := decodeNum fp32 maxnorm.toNat
    let off := m.isZero || (match m with | .inf false => true | _ => false)
    let le_ := !(decodeNum fp64 g).gt m && (match m with | .nan => false | _ => true)
    (BitVec.ofNat 64 g, if off || le_ then quadOne
      else BitVec.ofNat 64 (lane2 fp64 Num.div (encodeIeee fp64 m) g))

/-! ### Norm collective (07 R245, R246) -/

/-- Body of a NORM cell. -/
def normBody (step u kind : Nat) (nonfinite mismatch : Bool) (word : Nat) (an : Int) (first n : Nat) (sig : Quad) : List Byte :=
  le 4 step ++ le 2 u ++ le 1 kind ++ le 1 (b2n nonfinite + 2 * b2n mismatch) ++ le 16 word ++ leInt 2 an ++ le 2 first ++
    le 4 n ++ le 8 sig.toNat
/-- A NORM cell of context x. -/
def normCell (x : Nat) (body : List Byte) : Cell := ctrlCell ctNorm x noMember 0 0 body
/-- Switch children of the canopy. -/
def Canopy.switchChildren (k : Canopy) : List Nat := (k.children.filter (fun h => h.isSwitch)).map (fun h => h.port)

/-- A RESULT reaches the step (07 R247, R248, R251). -/
def stepResult (x u step word : Nat) (an : Int) (nonfinite mismatch : Bool) (differ : List Nat) (s : Sw) : Sw :=
  match s.step? x u with
  | none => s
  | some st =>
    if st.st != .normWait || st.step != step then s
    else if mismatch then
      stepDone x u stMismatch (stepEvent x u step 0x0423 (cList (differ.map (le 4))) (restoreSnap x u s))
    else
      let (gn, fac) := normResult word an nonfinite st.maxnorm
      if nonfinite && st.policy == 2 then
        let s := stepEvent x u step 0x0425 (le 1 2) (each st.left (clearFull x) s)
        stepDone x u stOverflow (s.modStep x u (fun st => { st with snap := none, factor := (fac, gn) }))
      else
        let s := if nonfinite && st.policy == 0 then stepEvent x u step 0x0425 (le 1 0) s else s
        enterRunning x u fac gn (nonfinite && st.policy == 0) s

/-- A counted CONTRIB: word, A_N, NONFINITE, SHARDS, SIG. -/
abbrev Contrib := Nat × Int × Bool × Nat × Quad
/-- The RESULT of the counted CONTRIBs: word, A_N, NONFINITE, MISMATCH, and the FIRST_SHARDs when SIGs differ (02 R78; 07 R246). -/
def combineNorm (cs : SMap Contrib) : Nat × Int × Bool × Bool × List Nat :=
  let vs : List Contrib := cs.vals
  let v0 : Contrib := vs.headD (0, 0, false, 0, 0)
  let m := vs.foldl (fun a e => max a e.2.1) v0.2.1
  let mm := vs.any (fun e => e.2.2.2.2 != v0.2.2.2.2)
  (vs.foldl (fun a e => a + alignWord e.1 e.2.1 m) 0, m, vs.any (fun e => e.2.2.1), mm, if mm then cs.keys else [])
/-- The last RESULT of a group when it is for this STEP. -/
def NormRoot.known (r : NormRoot) (step : Nat) : Option (Nat × Int × Bool × Bool) :=
  match r.result with
  | some (rs, rest) => if rs = step then some rest else none
  | none => none

/-- At the canopy root, a CONTRIB is counted; the last one makes the RESULT (07 R246). `back`: the port it came from, none
for this switch's own. -/
def normCount (x u step first : Nat) (v : Contrib) (back : Option Nat) (s : Sw) : Sw :=
  match s.ctx? x, s.store? x with
  | some c, some t =>
    let r : NormRoot := t.norms.getD u {}
    (match r.known step, back with
     | some (rw, ra, rn, rm), some q => ctxCtrl x q .none (normCell x (normBody step u 1 rn rm rw ra 0 0 0)) s
     | some (rw, ra, rn, rm), none => stepResult x u step rw ra rn rm [] s
     | none, _ =>
       let r : NormRoot := if r.step = step then r else { r with contribs := [], step := step }
       let r : NormRoot := if r.contribs.mem first then r else { r with contribs := r.contribs.set first v }
       let total := (c.canopy.shards.filter (fun e => e.ugroup == u)).length
       let counted := r.contribs.vals.foldl (fun a (e : Contrib) => a + e.2.2.2.1) 0
       if counted < total then s.modStore x (fun t => { t with norms := t.norms.set u r })
       else
         let (sum, m, nf, mm, differ) := combineNorm r.contribs
         let s := s.modStore x (fun t => { t with norms := t.norms.set u { contribs := [], step := step, result := some (step, sum, m, nf, mm) } })
         let s := each c.canopy.switchChildren (fun q => ctxCtrl x q .none (normCell x (normBody step u 1 nf mm sum m 0 0 0))) s
         stepResult x u step sum m nf mm differ s)
  | _, _ => s

/-- An owner in NORM_WAIT sends its CONTRIB: upward, or into its own count at the root (07 R246). -/
def sendContrib (x u : Nat) (s : Sw) : Sw :=
  match s.ctx? x, s.step? x u with
  | some c, some st =>
    let own := (c.groupShards u).filter c.ownsShard
    (match st.snap, minOf own with
     | some w, some first =>
       let an := w.an.getD 0
       (match c.canopy.parent with
        | some up => ctxCtrl x up .none (normCell x (normBody st.step u 0 w.nonfinite false w.word an first own.length st.sig)) s
        | none => normCount x u st.step first (w.word, an, w.nonfinite, own.length, st.sig) none s)
     | _, _ => s)
  | _, _ => s

/-- When every grid cell of the step is FULL, the snapshot is taken (07 R245, R251). A RESULT that came to a mirror before that is
acted on at once (DEDUCED, log 33). -/
def snapCheck (x u : Nat) (s : Sw) : Sw :=
  match s.ctx? x, s.store? x, s.step? x u with
  | some c, some t, some st =>
    let full := st.left.all (fun k => match SMap.find? k t.shards, c.canopy.shard k with
      | some h, some e => h.allFull e.count
      | _, _ => false)
    if st.st != .gradWait || !full then s
    else
      let w := (t.words.getD u {}).close
      let s := s.modStore x (fun t => { t with words := t.words.erase u })
      if st.global then
        let s := sendContrib x u (s.modStep x u (fun st => { st with st := .normWait, snap := some w, since := s.now }))
        (match (t.norms.getD u {}).known st.step with
         | some (rw, ra, rn, rm) => stepResult x u st.step rw ra rn rm [] s
         | none => s)
      else enterRunning x u quadOne 0 false s
  | _, _, _ => s
/-- Look at every step of a context that waits for gradients. -/
def snapCtx (x : Nat) (s : Sw) : Sw :=
  match s.store? x with
  | some t => each t.steps (fun e s => snapCheck x e.1 s) s
  | none => s

/-! ### After a commit (07 R249; 08 R270, R272) -/

/-- What every commit of a shard in a step leaves: FULL clear, the history, the shard off the step, a migration decision. -/
def afterCommit (x u k : Nat) (idle : Bool) (s : Sw) : Sw :=
  match s.step? x u, s.shard? x k with
  | some st, some h =>
    let bitv : Quad := if st.active.contains k then 1 else 0
    let s := clearFull x k s
    let s := s.modShard x k (fun h => { h with hist := h.hist <<< 1 ||| bitv, steps := min 64 (h.steps + 1) })
    let s := s.modStep x u (fun st => { st with left := st.left.filter (· != k), done := st.done ++ [k],
                                                idle := st.idle + b2n idle })
    stepCheck x u (engineGo x u (migDecide x k (agStop h.grove s)))
  | _, _ => s

end Sys2Proof.Machine
end

