-- ==== Sys2Proof/Machine/Move.lean ====
section
/-! DEFINITION. Space of shards and the images that a re-shard moves (06 R199, R200, R209, R217 to R219; 14 R477). -/
namespace Sys2Proof.Machine

/-! ### Space of a shard (06 R200) -/

/-- State arrays placed T2. -/
def Store.t2Arrays (t : Store) : List Nat := (List.range t.nstate).filter (fun i => t.splace.getD i 0 == 1)
/-- Take the space of shard e of a store of context x: an EMPTY shard; none when it does not fit. -/
def takeShard (x : Nat) (cfg : CtxCfg) (t : Store) (e : ShardEnt) (s : Sw) : Option (Shard × Sw) :=
  let g := s.roomiest
  let id := s.pool.next
  (poolTake 6 g (extentsOf (t.shardBytes cfg.g e.count)) (some cfg.job) (.store x) s).bind (fun s =>
    (takeT2 (t2Extents t t.t2Arrays e.count) (0, 0) s).map (fun r =>
      (({ bufs := [id], t2 := r.1, alloc := id, grove := g } : Shard), r.2)))
/-- Take the space of several shards in ascending number. -/
def takeShards (x : Nat) (cfg : CtxCfg) (t : Store) (es : List (Nat × ShardEnt)) (s : Sw) : Option (SMap Shard × Sw) :=
  es.foldl (fun (acc : Option (SMap Shard × Sw)) e =>
    acc.bind (fun a => (takeShard x cfg t e.2 a.2).map (fun r => (a.1.set e.1 r.1, r.2)))) (some ([], s))
/-- Shards of a record that this switch owns or mirrors, with their numbers. -/
def heldEntries (es : List ShardEnt) : List (Nat × ShardEnt) :=
  ((List.range es.length).zip es).filter (fun e => e.2.srole != 0)
/-- The event of a limit that refuses this space (11 R374). -/
def spaceLimit (cfg : CtxCfg) (t : Store) (es : List (Nat × ShardEnt)) (s : Sw) : Sw :=
  let n := es.foldl (fun a e => a + extentsOf (t.shardBytes cfg.g e.2.count)) 0
  if n = 0 then s else limitEvent 6 s.roomiest n cfg.job s
/-- Give back the space of a shard; its commit records stay (06 R209, R221). -/
def emptyShard (x k : Nat) (s : Sw) : Sw :=
  match s.shard? x k with
  | none => s
  | some h =>
    let s := dropEntries x k (migStop x k s)
    let s := freeT2 h.autoT2 (freeT2 h.t2 (poolFreeBy (.store x) h.bufs s))
    s.modShard x k (fun h => { ({} : Shard) with recs := h.recs, alloc := h.alloc, grove := h.grove })
/-- An EMPTY shard in the space of this one. -/
def Shard.fresh (h : Shard) : Shard :=
  { ({} : Shard) with recs := h.recs, bufs := h.bufs, t2 := h.t2, autoT2 := h.autoT2, inTier2 := h.inTier2, alloc := h.alloc, grove := h.grove }
/-- The content of a shard goes, its space stays: it is EMPTY as the mirror of its new owner. -/
def clearShard (x k : Nat) (s : Sw) : Sw :=
  (dropEntries x k (migStop x k s)).modShard x k (fun h => h.fresh)
/-- Shards that this switch mirrored and no longer does. -/
def mirrorsLeft (c : Ctx) (new : List ShardEnt) : List Nat :=
  (List.range c.canopy.shards.length).filter (fun k =>
    (match c.canopy.shard k with | some e => e.srole == 2 | none => false) && (match new[k]? with | some e => e.srole == 0 | none => false))

/-! ### Move cells (06 R219) -/

/-- MKIND DATA. -/
def mkData : Nat := 0
/-- MKIND ACK_OK. -/
def mkOk : Nat := 1
/-- MKIND ACK_BAD. -/
def mkBad : Nat := 2
/-- A move cell of a re-shard that takes effect at E and begins layout epoch `epoch`. -/
def moveCell (x e epoch k kind block : Nat) (data : List Byte) : Cell :=
  { hdr := collHdr 4 0 (epoch % 2) x noMember ((e - 1) % 64) 0, pay := word64 (le 2 k ++ le 1 kind ++ le 1 0 ++ le 4 block ++ data) }
/-- Send move cells toward logical port q as best effort; a port that is not UP sends none of them (R218, R219). -/
def sendMove (x q : Nat) (cells : List Cell) (s : Sw) : Sw :=
  let o := s.physPort x q
  if !s.up o then s
  else match s.permitted selfPort (firstVc 4) o with
    | none => dropRank selfPort o (firstVc 4) s
    | some vc => each cells (fun c s => (enqueue o { cell := c.setEp s.fab.epoch, vc := vc, cls := .best, unitLen := 1, src := selfPort,
                                                     moved := false, mark := .none } s).2) s
/-- The layout epoch that a re-shard of the context begins. -/
def Ctx.nextEpoch (c : Ctx) : Nat := (c.lepochs.headD (0, 0)).1 + 1
/-- Send the image of an outgoing shard from block 0 (R218, R219). -/
def moveImage (x k : Nat) (s : Sw) : Sw :=
  match s.ctx? x, s.shard? x k, s.store? x with
  | some c, some h, some t =>
    (match c.reshard, c.canopy.shard k with
     | some r, some e =>
       (match (r.shards[k]?).bind (fun n => n.toward) with
        | some q =>
          let img := h.image t x k e
          sendMove x q ((List.range (imageBlocks img.length)).map (fun i => moveCell x r.eff c.nextEpoch k mkData i (imageBlock img i))) s
        | none => s)
     | _, _ => s)
  | _, _, _ => s
/-- Outgoing shards of context x whose moves leave on port n (14 R477). -/
def movesOn (s : Sw) (x n : Nat) : List Nat :=
  match s.ctx? x with
  | none => []
  | some c => match c.reshard with
    | some r => if r.moving then r.outgoing.filter (fun k => match (r.shards[k]?).bind (fun e => e.toward) with
        | some q => s.physPort x q == n
        | none => false) else []
    | none => []
/-- Acknowledge an image toward the old owner of its shard. -/
def ackMove (x e epoch k kind : Nat) (q : Option Nat) (s : Sw) : Sw :=
  match q with
  | some q => sendMove x q [moveCell x e epoch k kind 0 []] s
  | none => s
/-- RESHARD_IN committed: the received bank is current at the image's VERSION, no previous version, history 0, the AUTO arrays in
tier 1 (R209; 08 R273). -/
def installImage (x k : Nat) (e : ShardEnt) (img : List Byte) (s : Sw) : Sw :=
  match s.store? x with
  | none => s
  | some t =>
    let len := t.imageLen e.count
    let v := bytesAt img (len - 64) 4
    let s := match s.shard? x k with | some h => freeT2 h.autoT2 s | none => s
    let s := s.modShard x k (fun h =>
      { (h.fresh.install t 0 e.count img).setBank 0 (fun b => { b with ver := some v }) with st := .ready, inTier2 := false, autoT2 := (0, 0) })
    commitRecord x k 3 0 false v 0 (0, 0) s
/-- An incoming image is complete: it is committed and acknowledged, or asked for again (R218). -/
def imageCheck (x k : Nat) (s : Sw) : Sw :=
  match s.ctx? x, s.store? x with
  | some c, some t =>
    (match c.reshard, c.canopy.shard k with
     | some r, some old =>
       (match SMap.find? k r.incoming, r.shards[k]? with
        | some im, some e =>
          let len := t.imageLen e.count
          let put (im : ImgIn) (s : Sw) : Sw := s.modCtx x (fun c =>
            { c with reshard := c.reshard.map (fun r => { r with incoming := r.incoming.set k im }) })
          if im.done || !r.moving || im.next < imageBlocks len then s
          else if imageGood im.bytes len then
            ackMove x r.eff c.nextEpoch k mkOk old.toward (put { im with bytes := [], done := true } (installImage x k e im.bytes s))
          else
            let s := raiseCtx x 0x040C (le 4 k ++ le 2 (old.toward.getD noMember) ++ le 1 im.attempt) s
            ackMove x r.eff c.nextEpoch k mkBad old.toward (put { im with bytes := [], next := 0, attempt := im.attempt + 1 } s)
        | _, _ => s)
     | _, _ => s)
  | _, _ => s

end Sys2Proof.Machine
end

