-- ==== Sys2Proof/Machine/Graft.lean ====
section
/-! DEFINITION. Graft: anchor runs, the cells between an admitted switch and its source, and the course of a copy (09 R308 to
R317). -/
namespace Sys2Proof.Machine

/-! ### Anchor runs (09 R311) -/

/-- PREV_OPNUM of an empty PREV. -/
def noOpnum : Nat := 0xFFFFFFFF
/-- The 16 bytes of segment g's entry. -/
def anchorBytes (g : Nat) (e : Anchor) : List Byte := le 4 g ++ leInt 2 e.cur ++ leInt 2 e.prev ++ le 4 e.setOp ++ le 4 e.prevOp
/-- The run of an anchor table. -/
def anchorRun (m : SMap Anchor) : List Byte := ((m.map (fun (e : Nat × Anchor) => anchorBytes e.1 e.2))).flatten
/-- The entries of a run. -/
def parseRun (bs : List Byte) : List (Nat × Anchor) :=
  (chunks 16 bs).map (fun b => (bytesAt b 0 4,
    ({ cur := toS16 (bytesAt b 4 2), prev := toS16 (bytesAt b 6 2), setOp := bytesAt b 8 4, prevOp := bytesAt b 12 4, isSet := true } : Anchor)))
/-- Segments strictly ascending. -/
def runAscends (es : List (Nat × Anchor)) : Bool :=
  ((es.zip (es.drop 1)).all (fun e => decide (e.1.1 < e.2.1)))

/-! ### Cells (09 R315) -/

/-- GKIND VSTART. -/
def gkVstart : Nat := 0
/-- GKIND VDIGEST. -/
def gkVdigest : Nat := 1
/-- GKIND COPY_REQ. -/
def gkCopyReq : Nat := 2
/-- GKIND ANCHORS. -/
def gkAnchors : Nat := 3
/-- GKIND IMAGE. -/
def gkImage : Nat := 4
/-- GKIND ACK_OK. -/
def gkOk : Nat := 5
/-- GKIND ACK_BAD. -/
def gkBad : Nat := 6
/-- GKIND STALE. -/
def gkStale : Nat := 7
/-- SHARD of a cell that names none. -/
def noShard : Nat := 0xFFFF
/-- A GRAFT cell. -/
def graftCell (x kind shard block : Nat) (data : List Byte) : Cell :=
  ctrlCell ctGraft x noMember 0 0 (le 1 kind ++ le 1 0 ++ le 2 shard ++ le 4 block ++ data)
/-- Send GRAFT cells on physical port o as best effort (09 R315). -/
def sendGraftOn (o : Nat) (cells : List Cell) (s : Sw) : Sw :=
  if !s.up o then s
  else match s.permitted selfPort (firstVc 5) o with
    | none => dropRank selfPort o (firstVc 5) s
    | some vc => each cells (fun c s => (enqueue o { cell := c.setEp s.fab.epoch, vc := vc, cls := .best, unitLen := 1, src := selfPort,
                                                     moved := false, mark := .none } s).2) s
/-- Send GRAFT cells toward logical port q of context x. -/
def sendGraft (x q : Nat) (cells : List Cell) (s : Sw) : Sw := sendGraftOn (s.physPort x q) cells s

/-! ### Events (09 R313, R328) -/

/-- Event 0x0640 (09 R313, R328): the states are numbered from 1 in the order of R313's state column, ADMITTED last
(12 R423; DEDUCED, log 19). -/
def graftStepEvent (x : Option Nat) (st : Nat) (s : Sw) : Sw :=
  match x with
  | some x => raiseCtx x 0x0640 (le 1 st) s
  | none => raiseSys 0x0640 (le 1 st) s

/-! ### At a source (09 R316, R317) -/

/-- Change the graft copy of context x. -/
def Sw.modGraft (x : Nat) (f : GraftCtx → GraftCtx) (s : Sw) : Sw := s.modCtx x (fun c => { c with graft := f c.graft })
/-- A source releases a held pin. -/
def graftUnpin (x k v : Nat) (s : Sw) : Sw := s.modStore x (Store.subPin k v 0 1)
/-- The anchor table goes to a requester once every operation below its FIRST_OPNUM has completed here. -/
def serveAnchors (x : Nat) (done : Nat → Bool) (s : Sw) : Sw :=
  match s.ctx? x with
  | none => s
  | some c => each (c.graft.serving.filter (fun (e : Nat × Nat × Bool × List (Nat × Nat)) => e.2.2.1 && done e.2.1)) (fun e s =>
      let run := anchorRun c.anchors
      let cs := chunks 48 run
      let cells := ((List.range cs.length).zip cs).map (fun b => graftCell x gkAnchors noShard b.1 b.2) ++
        [graftCell x gkAnchors noShard cs.length (le 48 0 ++ le 8 (crc64 run).toNat)]
      sendGraft x e.1 cells (s.modGraft x (fun g => { g with serving := g.serving.set e.1 (e.2.1, false, e.2.2.2) }))) s
/-- Send the image of a shard to the requester on port q under a held pin on its current version; a switch that is neither
OWNER nor MIRROR of the shard, or holds no version, answers ACK_BAD. -/
def serveShard (x q k : Nat) (s : Sw) : Sw :=
  match s.ctx? x, s.store? x, s.shard? x k with
  | some c, some t, some h =>
    (match c.canopy.shard k, h.version with
     | some e, some v =>
       if e.srole = 0 then sendGraft x q [graftCell x gkBad k 0 []] s
       else
         let (first, owed, pins) := c.graft.serving.getD q (0, false, [])
         let held := pins.any (fun p => p.1 == k && p.2 == v)
         let s := if held then s else s.modStore x (Store.addPin k v 0 1)
         let s := s.modGraft x (fun g => { g with serving := g.serving.set q (first, owed, if held then pins else pins ++ [(k, v)]) })
         let img := h.image t x k e
         sendGraft x q ((List.range (imageBlocks img.length)).map (fun i => graftCell x gkImage k i (imageBlock img i))) s
     | _, _ => sendGraft x q [graftCell x gkBad k 0 []] s)
  | _, _, _ => sendGraft x q [graftCell x gkBad k 0 []] s
/-- A COPY_REQ: of the anchors, SHARD 0xFFFF, or of one shard of the `count` to be sent; a count of 0 asks for none (DESIGN CHOICE,
log 39). -/
def serveCopy (x q shard first count : Nat) (s : Sw) : Sw :=
  match s.ctx? x with
  | none => s
  | some c =>
    let old := c.graft.serving.getD q (first, false, [])
    let s := if old.1 = first then s else each old.2.2 (fun p s => graftUnpin x p.1 p.2 s) s
    let now := if old.1 = first then old else (first, false, [])
    let s := s.modGraft x (fun g => { g with serving := g.serving.set q (first, now.2.1 || shard == noShard, now.2.2) })
    if shard = noShard || count = 0 then s else serveShard x q shard s
/-- A copied shard commits an update at its source before the admitted switch is in: STALE, and its pin goes (09 R317). -/
def staleTell (x k : Nat) (s : Sw) : Sw :=
  match s.ctx? x with
  | none => s
  | some c => each (c.graft.serving.filter (fun (e : Nat × Nat × Bool × List (Nat × Nat)) => e.2.2.2.any (fun p => p.1 == k))) (fun e s =>
      let s := each (e.2.2.2.filter (fun p => p.1 == k)) (fun p s => graftUnpin x p.1 p.2 s) s
      let s := s.modGraft x (fun g => { g with serving := g.serving.set e.1 (e.2.1, e.2.2.1, e.2.2.2.filter (fun p => p.1 != k)) })
      sendGraft x e.1 [graftCell x gkStale k 0 []] s) s

/-! ### At the admitted switch (09 R313, R316) -/

/-- Shards that the canopy record of context x names this switch OWNER or MIRROR of. -/
def Ctx.copyShards (c : Ctx) : List Nat := (heldEntries c.canopy.shards).map Prod.fst
/-- Ask the source for an item: the anchors, or a shard. -/
def askCopy (x shard n : Nat) (s : Sw) : Sw :=
  match s.ctx? x with
  | none => s
  | some c => sendGraft x c.graft.src [graftCell x gkCopyReq shard 0 (le 4 c.graft.firstOp ++ le 4 n)]
      (s.modGraft x (fun g => { g with last := s.now }))
/-- Items still to come: the anchors, and shards. -/
def Ctx.copyLeft (c : Ctx) : Bool × List Nat :=
  (c.graft.scope % 2 == 1 && !c.graft.anchorsDone,
   if c.graft.scope / 2 % 2 = 1 then c.copyShards.filter (fun k => match SMap.find? k c.graft.images with | some i => !i.done | none => true) else [])
/-- The copy ends without READY: GRAFT_COPY completes TIMEOUT, and what was copied stays (09 R313). -/
def copyTimeout (x : Nat) (s : Sw) : Sw :=
  match s.ctx? x with
  | none => s
  | some c =>
    if c.graft.st != .copying then s
    else
      let s := s.modGraft x (fun g => { g with st := .idle, tok := none, anchorBytes := [],
                                               images := g.images.filter (fun (e : Nat × ImgIn) => e.2.done) })
      graftStepEvent (some x) 5 (completeOpt c.graft.tok stTimeout s)
/-- Every item is committed: READY. The next OPNUM becomes FIRST_OPNUM, and operations below it count as completed (09 R313,
R316; 04 R133). -/
def copyDone (x : Nat) (s : Sw) : Sw :=
  match s.ctx? x with
  | none => s
  | some c =>
    let left := c.copyLeft
    if c.graft.st != .copying || left.1 || !left.2.isEmpty then s
    else
      let f := c.graft.firstOp
      let n := if c.graft.scope / 2 % 2 = 1 then c.copyShards.length else 0
      let s := s.setCtx x { c with nextOp := max c.nextOp f, releaseBelow := max c.releaseBelow f, graft := { c.graft with st := .ready, tok := none } }
      let s := completeOpt c.graft.tok stOk (graftStepEvent (some x) 7 s)
      raiseCtx x 0x0642 (le 4 n ++ le 4 c.anchors.length ++ le 4 c.graft.stale) s
/-- A cell of the anchor run. The last holds only the CRC-64 of the whole run (DEDUCED, log 40). -/
def takeAnchors (x block : Nat) (data : List Byte) (s : Sw) : Sw :=
  match s.ctx? x with
  | none => s
  | some c =>
    let bs := c.graft.anchorBytes
    let again (s : Sw) : Sw := askCopy x noShard 0 (s.modGraft x (fun g => { g with anchorBytes := [] }))
    if c.graft.st != .copying || c.graft.anchorsDone || c.graft.scope % 2 == 0 || block != (bs.length + 47) / 48 then s
    else if allZero (data.take 48) then
      let crc := bytesAt data 48 8
      -- the last cell of entries is padded with zeros
      match [0, 16, 32].find? (fun n => allZero (bs.drop (bs.length - n)) && decide (n ≤ bs.length) && (crc64 (bs.take (bs.length - n))).toNat == crc) with
      | some n =>
        let run := parseRun (bs.take (bs.length - n))
        let m : SMap Anchor := run.foldl (fun m e => SMap.set e.1 { e.2 with prev := 0, prevOp := noOpnum } m) c.anchors
        copyDone x (s.setCtx x { c with anchors := m, graft := { c.graft with anchorsDone := true, anchorBytes := [] } })
      | none => again s
    else s.modGraft x (fun g => { g with anchorBytes := g.anchorBytes ++ data.take 48 })
/-- LOAD committed: the received bank is current at the image's VERSION (09 R316; 06 R209, R220). -/
def installLoad (x k : Nat) (e : ShardEnt) (img : List Byte) (s : Sw) : Sw :=
  match s.store? x with
  | none => s
  | some t =>
    let v := bytesAt img (t.imageLen e.count - 64) 4
    let s := s.modShard x k (fun h =>
      { (h.fresh.install t 0 e.count img).setBank 0 (fun b => { b with ver := some v }) with st := .ready })
    commitRecord x k 1 0 false v 0 (0, 0) s
/-- A block of a shard's image: committed into the EMPTY shard when it is the last and the image is good; a bad image is asked
for again by ACK_BAD. -/
def takeImage (x k block : Nat) (data : List Byte) (s : Sw) : Sw :=
  match s.ctx? x, s.store? x, s.shard? x k with
  | some c, some t, some h =>
    (match c.canopy.shard k with
     | none => s
     | some e =>
       let im : ImgIn := c.graft.images.getD k {}
       let len := t.imageLen e.count
       if c.graft.st != .copying || !c.copyLeft.2.contains k || block != im.next || h.st != .empty then s
       else
         let im := { im with bytes := im.bytes ++ data, next := im.next + 1 }
         let put (im : ImgIn) (s : Sw) : Sw := s.modGraft x (fun g => { g with images := g.images.set k im })
         if im.next < imageBlocks len then put im s
         else if imageGood im.bytes len then
           copyDone x (sendGraft x c.graft.src [graftCell x gkOk k 0 []] (put { im with bytes := [], done := true } (installLoad x k e im.bytes s)))
         else sendGraft x c.graft.src [graftCell x gkBad k 0 []] (put { im with bytes := [], next := 0, attempt := im.attempt + 1 } s))
  | _, _, _ => s
/-- STALE: the shard is EMPTY again and asked for again; after a copy that ended without READY the next GRAFT_COPY asks (09 R313,
R317). -/
def takeStale (x k : Nat) (s : Sw) : Sw :=
  match s.ctx? x with
  | none => s
  | some c =>
    if c.graft.st == .admitted || !(c.graft.images.mem k) then s
    else
      let s := clearShard x k s
      if c.graft.st == .idle then s.modGraft x (fun g => { g with stale := g.stale + 1, images := g.images.erase k })
      else
      let s := if c.graft.st == .ready then graftStepEvent (some x) 6 s else s
      askCopy x k 1 (s.modGraft x (fun g => { g with st := .copying, stale := g.stale + 1, images := g.images.erase k }))
/-- A GRAFT cell of a copy of context x, from logical port q: requests and acknowledgements at the source, the rest at the
admitted switch. -/
def copyCell (x q : Nat) (c : Cell) (s : Sw) : Sw :=
  match s.ctx? x with
  | none => s
  | some k =>
    let kind := c.f 0 1
    let shard := c.f 2 2
    let block := c.f 4 4
    let data := (c.bytes 64).drop 8
    if c.tc != 5 || c.ctype != ctGraft || !k.leadsToSwitch q then s
    else if kind = gkCopyReq then serveCopy x q shard (bytesAt data 0 4) (bytesAt data 4 4) s
    else if kind = gkBad && k.graft.serving.mem q then serveShard x q shard s
    else if k.graft.src != q then s
    else
      let s := s.modGraft x (fun g => { g with last := s.now })
      if kind = gkAnchors then takeAnchors x block data s
      else if kind = gkImage then takeImage x shard block data s
      else if kind = gkStale then takeStale x shard s
      else s

end Sys2Proof.Machine
end

