-- ==== Sys2Proof/Machine/Reduce.lean ====
section
/-! DEFINITION. Reduction on its way up and its release: slots, grants, staging, conversion, segments, replay and anchors
(02 R41, R46 to R61, R72 to R76; 04 R139 to R144, R150; 08 R260, R262; 09 R281 to R283, R296, R302). -/
namespace Sys2Proof.Machine

/-! ### Slots (02 R52, R53; 04 R142) -/

/-- What a slot holds, as values. -/
def Slot.part (t : Slot) : Part :=
  { vals := t.acc.map BitVec.toInt, nan := t.nan, pinf := t.pinf, ninf := t.ninf, emax := t.emax, clamp := t.clamp,
    attempt := t.attempt }
/-- Put values into a slot. -/
def Slot.put (t : Slot) (p : Part) : Slot :=
  { t with acc := p.vals.map wrap128, nan := p.nan, pinf := p.pinf, ninf := p.ninf, emax := p.emax, clamp := p.clamp }

/-- Slot of grid cell k of operation o. -/
def Ctx.slot? (c : Ctx) (o k : Nat) : Option Slot := SMap.find? (slotKey o k) c.slots

/-- Combine a contribution of child port q with a slot (02 R53, R73, R75, R76). -/
def Slot.combine (t : Slot) (m : Mode) (redop : Nat) (acc64 : Bool) (q : Nat) (p : Part) : Slot :=
  let first := t.bitmap == 0
  let t' := match m with
    | .tree => { t with tree := t.tree.set q (p.vals.map (fun v => BitVec.ofInt 64 v)) }
    | .fast => t.put (Part.addAcc acc64 t.part p)
    | .f64 => t.put (if first then p else Part.combine redop true t.part p)
    | .int => t.put (if first then p else Part.combine redop false t.part p)
    | .grid => t.put (Part.add t.part p)
  { t' with bitmap := setBit t'.bitmap q }

/-- The value of a complete slot: a DET-TREE slot adds its children in ascending port order (02 R73). -/
def Slot.value (t : Slot) (m : Mode) (acc64 : Bool) : Part :=
  match m with
  | .tree =>
    (match t.tree.vals with
     | [] => t.part
     | v :: rest =>
       let p (l : List Quad) : Part := { vals := l.map (fun x => (x.toNat : Int)) }
       { rest.foldl (fun a w => Part.addAcc acc64 a (p w)) (p v) with attempt := t.attempt })
  | _ => t.part

/-! ### Grants (04 R139 to R141; 08 R262) -/

/-- Grid cell k has passed: its slot is free again (04 R139). -/
def cellFreed (c : Ctx) (o : Nat) (p : Op) (k : Nat) : Bool :=
  !p.isOpen || !passes c p.blk k || (inSet p.cbits k && (c.slot? o k).isNone)

/-- Cells of an operation in the stream of this context: every grid cell has its position, those to which no child of this switch
contributes too (04 R139; DEDUCED, log 129). -/
def streamCells (c : Ctx) (p : Op) : Nat := if c.storeGather p.blk then 0 else cellsOf p.blk

/-- First cell of an operation not freed. -/
def firstHeld (c : Ctx) (o : Nat) (p : Op) : Nat :=
  ((List.range (streamCells c p)).find? (fun k => !cellFreed c o p k)).getD (streamCells c p)

/-- Stream position of the first cell not freed, over the operations from the window base (04 R139). -/
def firstUnfreed : Ctx → List (Nat × Op) → Nat → Nat
  | _, [], pos => pos
  | c, (o, p) :: rest, pos =>
    let f := firstHeld c o p
    if f < streamCells c p then pos + f else firstUnfreed c rest (pos + streamCells c p)

/-- Operations from the window base on. -/
def Ctx.window (c : Ctx) : List (Nat × Op) := c.ops.filter (fun e => decide (c.windowBase ≤ e.1))

/-- g of operation o: grid cells for which slots are held; it only grows (04 R139, R140). -/
def grantOf (c : Ctx) (o : Nat) (p : Op) : Nat :=
  let w := c.window
  let start := (w.filter (fun e => decide (e.1 < o))).foldl (fun a e => a + streamCells c e.2) 0
  let opened := (List.range (o - c.windowBase)).all (fun i => c.ops.mem (c.windowBase + i))
  let cap := c.cfg.slots / max 1 (slotsPerCell c.cfg c.canopy.children.length)
  if !opened then p.g
  else max p.g (min (streamCells c p) (firstUnfreed c w 0 + cap - start))

/-- Grid cells [a, z) as member cells of port q's contribution. -/
def contribRange (s : Sw) (c : Ctx) (p : Op) (q rank a z : Nat) : List Nat :=
  let (first, len) := contribPart c p.blk rank
  let lo := max (32 * a) first - first
  let hi := min (32 * z) (first + len) - first
  let ec := s.ecOf p q
  if hi ≤ lo then [] else span (lo / ec) ((hi - 1) / ec + 1 - lo / ec)

/-- Grid cells of a rank's contribution: first and one past the last. -/
def contribCells (c : Ctx) (b : BitVec 256) (rank : Nat) : Nat × Nat :=
  let (first, len) := contribPart c b rank
  if len = 0 then (0, 0) else (first / 32, (first + len + 31) / 32)

/-- The contribution of child port q to grid cell k has been taken here. -/
def taken (c : Ctx) (o : Nat) (p : Op) (q k : Nat) : Bool :=
  inSet p.cbits k || p.released.contains (segOf c p.blk k) && (upPort c p.blk k).isNone ||
    (match c.slot? o k with | some t => t.bitmap.getLsbD q | none => false)

/-- First grid cell still missing from child port q. -/
def firstMissing (c : Ctx) (o : Nat) (p : Op) (q rank : Nat) : Nat :=
  let (a, z) := contribCells c p.blk rank
  ((span a (z - a)).find? (fun k => !taken c o p q k)).getD z

/-- Member cells of staging that a port may hold (04 R141). -/
def Sw.stagingShare (s : Sw) (q : Nat) : Nat := 2048 / max 1 (s.portsPresent (q / 4)).length
/-- SW: cells per window of a prune sender (08 R259). -/
def pruneSW (code pers : Nat) : Nat :=
  match elemBits code / 8 with | 1 => 7 | 2 => if pers = 1 then 11 else 10 | 4 => if pers = 1 then 22 else 19 | _ => 41

/-- A cursor that no cell has moved. -/
def Cursor.fresh : Cursor := { next := 0, cells := 0, tail := (0, false), last := false, entries := [] }
/-- Staging cells reserved for port q in operation o of context c: granted and not yet converted, SW cells a window in a PRUNE
operation (04 R141; 08 R262). -/
def stagedFor (s : Sw) (c : Ctx) (o : Nat) (p : Op) (q : Nat) : Nat :=
  match (c.canopy.children.find? (fun h => !h.isSwitch && (h.port == q || h.backup == some q))) with
  | none => 0
  | some h =>
    let g := p.grants.getD q 0
    if blkPrune p.blk then (g - (p.cursors.getD q Cursor.fresh).next) * pruneSW (p.format q) (s.pers q)
    else g - (contribRange s c p q h.rankFirst (contribCells c p.blk h.rankFirst).1 (firstMissing c o p h.port h.rankFirst)).length
/-- Staging cells of port q reserved for every other open operation, of every context the port serves (04 R141). -/
def stagedElse (s : Sw) (x o q : Nat) : Nat :=
  s.ctxs.foldl (fun a e => (e.2.ops.filter (fun r => r.2.isOpen && !(e.1 == x && r.1 == o))).foldl (fun a r =>
    a + stagedFor s e.2 r.1 r.2 q) a) 0

/-- The grant to a child port, in the unit it counts in (04 R140, R141; 08 R262). -/
def childGrant (s : Sw) (x : Nat) (c : Ctx) (o : Nat) (p : Op) (q : Nat) (h : Child) (g : Nat) : Nat :=
  if h.isSwitch then g
  else
    let whole := decide (streamCells c p ≤ g)
    let share := s.stagingShare q - stagedElse s x o q
    if blkPrune p.blk then
      let total := (blkE p.blk + 255) / 256
      min (if whole then total else min total (g / 8)) ((p.cursors.getD q Cursor.fresh).next + share / pruneSW (p.format q) (s.pers q))
    else
      let (a, _) := contribCells c p.blk h.rankFirst
      let len := (contribPart c p.blk h.rankFirst).2
      let all := memberCells len (s.ecOf p q)
      let done := (contribRange s c p q h.rankFirst a (firstMissing c o p h.port h.rankFirst)).length
      min (if whole then all else min all (32 * g / s.ecOf p q)) (done + share)

/-- Ports to which a grant of the operation goes: those that sent a valid JOIN, and switch children; in a store reduction,
the parent too once this switch has joined, for the shards owned on this side of it (06 R195). -/
def grantPorts (c : Ctx) (p : Op) : List (Nat × Child) :=
  (match c.canopy.parent with
   | some u => if c.storeReduction p.blk && p.upJoin then
       [(u, { port := u, isSwitch := true, rankFirst := 0, rankCount := 0, mctx := none, backup := none })] else []
   | none => []) ++
  (c.canopy.children.map (fun h =>
    if h.isSwitch then (if p.joined.getLsbD h.port then [(h.port, h)] else [])
    else ((p.childPorts h).filter (fun q => p.valid.getLsbD q)).map (fun q => (q, h)))).flatten

/-- Grid cells by which a grant to a child port advances (04 R140; DEDUCED, log 101). -/
def grantCells (s : Sw) (p : Op) (q : Nat) (h : Child) (n : Nat) : Nat :=
  if h.isSwitch then n else if blkPrune p.blk then 8 * n else n * s.ecOf p q / 32
/-- Recompute the grants of operation o; `now_`: a frame tick sends every advance, else only one of a quarter of
SLOTS (04 R140). -/
def grantOp (x o : Nat) (now_ : Bool) (s : Sw) : Sw :=
  match s.ctx? x, s.op? x o with
  | some c, some p =>
    if !p.isOpen || decide (blkKind p.blk > 4) then s
    else
      let g := grantOf c o p
      let s := s.modOp x o (fun p => { p with g := g })
      each (grantPorts c p) (fun e s =>
        let (q, h) := e
        let old := p.grants.getD q 0
        let v := childGrant s x c o { p with g := g } q h g
        if decide (v > old) && (now_ || decide (4 * grantCells s p q h (v - old) ≥ c.cfg.slots)) then
          ctxCtrl x q .none (ctrlCell ctStatus x h.member o 0 (statusBody o phGrant 0 v 0 0))
            (s.modOp x o (fun p => { p with grants := p.grants.set q v }))
        else s) s
  | _, _ => s

/-- Recompute the grants of every open operation of a context. -/
def grantCtx (x : Nat) (now_ : Bool) (s : Sw) : Sw :=
  match s.ctx? x with
  | some c => each (c.ops.filter (fun e => e.2.isOpen)) (fun e s => grantOp x e.1 now_ s) s
  | none => s

/-! ### Anchor writes and notices (02 R57, R58, R61; 03 R101) -/

/-- Body of REPLAY_NOTICE and ANCHOR_NOTICE. -/
def noticeBody (g attempt : Nat) (a : Int) : List Byte := le 4 g ++ le 1 attempt ++ le 1 0 ++ leInt 2 a

/-- Send a notice to the switch ports of the canopy but one. -/
def sendNotice (ct x o : Nat) (ports : List Nat) (body : List Byte) (s : Sw) : Sw :=
  each ports (fun q s => ctxCtrl x q .none (ctrlCell ct x noMember o 0 body) s) s

/-- Switch ports away from the root of grid cell k: the switch children, or for a store operation every canopy switch port
but the one toward the owner. -/
def downSwitches (c : Ctx) (b : BitVec 256) (k : Nat) : List Nat :=
  if c.storeReduction b || c.storeGather b then c.canopy.switchPorts.filter (fun q => upPort c b k != some q)
  else (c.canopy.children.filter (fun h => h.isSwitch)).map (fun h => h.port)

/-- Ask the member children to send grid cells a to z again (02 R58; 09 R289, R291). -/
def askMembers (x o a z cause : Nat) (s : Sw) : Sw :=
  match s.ctx? x, s.op? x o with
  | some c, some p =>
    each c.canopy.memberChildren (fun h s =>
      let (ca, cz) := contribCells c p.blk h.rankFirst
      let lo := max a ca
      let hi := min z cz
      if hi ≤ lo then s
      else each ((p.childPorts h).filter (fun q => p.valid.getLsbD q)) (fun q s =>
        ctxCtrl x q .none (ctrlCell ctReinject x h.rankFirst o 0 (le 4 o ++ le 4 lo ++ le 4 (hi - 1) ++ le 1 cause)) s) s) s
  | _, _ => s

/-- A cursor goes back to the first window of a segment, windows w to z - 1: what is staged of it is discarded, and a window of
another segment that is in progress is kept for its next cell (08 R260). -/
def Cursor.rewind (w z : Nat) (cu : Cursor) : Cursor :=
  if cu.next < w then cu
  else
    let outside (v : Nat) : Bool := !(decide (w ≤ v) && decide (v < z))
    let aside := cu.aside.keep outside
    { next := w, cells := 0, tail := (0, false), last := false, entries := []
      aside := if cu.cells != 0 && outside cu.next then aside.set cu.next (cu.cells, cu.tail, cu.entries) else aside }
/-- The cells, tail and entries of window w when it is in progress (08 R260). -/
def Cursor.prog (cu : Cursor) (w : Nat) : Option (Nat × (Nat × Bool) × List (Nat × Nat)) :=
  if cu.cells != 0 then (if w == cu.next then some (cu.cells, cu.tail, cu.entries) else none) else SMap.find? w cu.aside
/-- Clear a segment for another attempt: slots, completion bits, staged prune entries and cursors (02 R58; 08 R260). -/
def clearSegment (x o g : Nat) (s : Sw) : Sw :=
  s.modCtx x (fun c =>
    match SMap.find? o c.ops with
    | none => c
    | some p =>
      let (a, z) := segCells c p.blk g
      let bits := rangeSet a (z - a)
      let inSeg (k : Nat) : Bool := decide (a ≤ k) && decide (k < z)
      let p := { p with
        cbits := diffSet p.cbits bits
        sentUp := diffSet p.sentUp bits
        folded := []
        pruned := p.pruned.keep (fun key => !inSeg (key % 2 ^ 24))
        waiting := p.waiting.filter (fun e => !(blkPrune p.blk && inSeg e.2))
        cursors := p.cursors.mapVals (Cursor.rewind (a / 8) ((z + 7) / 8)) }
      { c with ops := c.ops.set o p, slots := c.slots.keep (fun key => !(key / 2 ^ 24 == o && inSeg (key % 2 ^ 24))) })

/-- Take a new attempt of a segment at this switch (02 R58). -/
def takeReplay (x o g attempt : Nat) (a : Int) (s : Sw) : Sw :=
  let s := s.modCtx x (fun c => c.writeAnchor g o a attempt)
  let s := clearSegment x o g s
  match s.ctx? x, s.op? x o with
  | some c, some p =>
    let (lo, hi) := segCells c p.blk g
    askMembers x o lo hi 0 (sendNotice ctReplay x o (downSwitches c p.blk lo) (noticeBody g attempt a) s)
  | _, _ => s

/-- The next anchor of a segment reaches this switch: it is written and the segment counts as released here (02 R61). -/
def takeAnchor (x o g attempt : Nat) (a : Int) (s : Sw) : Sw :=
  s.modCtx x (fun c =>
    let c := match SMap.find? o c.ops with
      | some p =>
        let p := { p with segAnchor := if p.segAnchor.mem g then p.segAnchor else p.segAnchor.set g (c.anchor g).cur,
                          released := if p.released.contains g then p.released else p.released ++ [g] }
        { c with ops := c.ops.set o p }
      | none => c
    c.writeAnchor g o a attempt)

/-! ### Release at the root of a grid cell (02 R55 to R60; 04 R154; 06 R205) -/

/-- Chunks that the first result cell of segment g commits: the segment is the last of its chunk (04 R154). -/
def chunkCommit (c : Ctx) (b : BitVec 256) (g : Nat) : Nat :=
  if !c.cfg.streaming then 0
  else
    let perChunk := 2 ^ (c.cfg.chunkLog2 - c.cfg.seglenLog2)
    if (g - segOf c b 0 + 1) % perChunk = 0 || g = lastSeg c b then 1 else 0

/-- A store reduction commits at the owner of its last segment with the first grid cell of that segment written (06 R206). -/
def commitStore (x o g : Nat) (s : Sw) : Sw :=
  s.modCtx x (fun c => match SMap.find? o c.ops with
    | none => c
    | some p =>
      let (a, z) := segCells c p.blk g
      if p.st == .joined && g == lastSeg c p.blk && (span a (z - a)).any (inSet p.cbits) then
        { c with ops := c.ops.set o { p with st := .committed } }
      else c)

/-- Release grid cells of segment g here, as the root of those cells: values go down, or into the gradient area; `fin`
holds when they complete the segment. -/
def releaseCells (x o g : Nat) (cells : List (Nat × Part)) (fin : Bool) (s : Sw) : Sw :=
  match s.ctx? x, s.op? x o with
  | some c, some p =>
    let grid := c.mode p == .grid
    let used := (c.anchor g).cur
    let emax := (cells.map (fun e => e.2.emax)).foldl max (p.segEmax.getD g emaxNone)
    let next := nextAnchor used emax c.cfg.m
    let attempt := c.attemptOf o g
    let lastK := (cells.getLast?.map Prod.fst).getD 0
    let cells := cells.map (fun e => (e.1, { e.2 with attempt := attempt, next := if grid && fin && e.1 == lastK then some next else none }))
    let s := s.modOp x o (fun p => { p with
      segEmax := p.segEmax.set g emax
      segAnchor := p.segAnchor.set g used
      released := if fin then p.released ++ [g] else p.released
      cbits := cells.foldl (fun b e => addSet b e.1) p.cbits
      chunks := (p.chunks.1 + (if p.segEmax.mem g then 0 else chunkCommit c p.blk g), p.chunks.2)
      overflow := p.overflow || cells.any (fun e => e.2.clamp)
      st := if p.st == .joined && !c.storeReduction p.blk && (if blkReduces p.blk || c.cfg.streaming then g == lastSeg c p.blk
              else (List.range (cellsOf p.blk)).all (fun k => inSet p.cbits k || cells.any (fun e => e.1 == k))) then .committed else p.st })
    let mark (sst : Nat) (k : Nat) (s : Sw) : Sw :=
      s.modCtx x (fun c => { c with slots := c.slots.adjust (slotKey o k) (fun t => { t with sst := sst }) })
    let free (k : Nat) (s : Sw) : Sw := s.modCtx x (fun c => { c with slots := c.slots.erase (slotKey o k) })
    let s :=
      if c.storeReduction p.blk then
        commitStore x o g (each cells (fun e s =>
          match gradWrite x o e.1 used e.2 s with
          | (true, s) => free e.1 s
          | (false, s) => mark 2 e.1 (s.modOp x o (fun p => { p with cbits := diffSet p.cbits (1 <<< e.1) }))) s)
      else emit x o cells none true (each cells (fun e s => mark 3 e.1 s) s)
    if !(grid && fin) then s
    else
      let told := if c.storeReduction p.blk then [] else targets c p.blk lastK
      let s := takeAnchor x o g attempt next s
      sendNotice ctAnchor x o ((downSwitches c p.blk lastK).filter (fun q => !told.contains q)) (noticeBody g attempt next) s
  | _, _ => s

/-- The segment overflows: another attempt with a raised anchor (02 R57, R58). -/
def replaySegment (x o g : Nat) (parts : List Part) (s : Sw) : Sw :=
  match s.ctx? x with
  | none => s
  | some c =>
    let a := (c.anchor g).cur
    let b := parts.foldl (fun m p => p.vals.foldl (fun m v => max m (bitLen v)) m) 0
    let emax := parts.foldl (fun m p => max m p.emax) emaxNone
    let raw := raisedAnchor a c.cfg.g c.cfg.h c.cfg.m b emax
    let a' := clampAnchor raw
    let attempt := c.attemptOf o g + 1
    let s := raiseCtx x 0x0680 (le 4 (o % 64) ++ le 4 g ++ le 1 attempt ++ leInt 2 a ++ leInt 2 a') s
    let s := if a' = raw then s else raiseCtx x 0x0684 (le 4 (o % 64) ++ le 4 g ++ leInt 2 raw) s
    takeReplay x o g attempt a' s

/-- Saturate the overflowed grid cells of a segment (02 R59); `final`: after the fourth replay, with event 0x0681 (02 R56). -/
def saturateCells (x o g : Nat) (cells : List (Nat × Part)) (final : Bool) (s : Sw) : List (Nat × Part) × Sw :=
  match s.ctx? x with
  | none => (cells, s)
  | some c =>
    let done := cells.map (fun e => if e.2.overflows c.cfg.g then
      let (q, n) := e.2.saturate c.cfg.g
      (e.1, { q with clamp := true }, n) else (e.1, e.2, 0))
    let n := done.foldl (fun a e => a + e.2.2) 0
    let clamps := cells.any (fun e => e.2.overflows c.cfg.g)
    let s := s.modCtx x (fun c => { c with cnt := { c.cnt with saturated := c.cnt.saturated + BitVec.ofNat 64 n } })
    let s := if clamps && final then raiseCtx x 0x0681 (le 4 (o % 64) ++ le 4 g ++ le 1 (c.attemptOf o g) ++ le 4 n) s else s
    (done.map (fun e => (e.1, e.2.1)), s)

/-- Judge segment g at the root once its cells allow: hold, release, replay or saturate (02 R56, R59). Only a DET-GRID context with policy
REPLAY holds its results (DEDUCED, log 115). -/
def judgeSegment (x o g : Nat) (s : Sw) : Sw :=
  match s.ctx? x, s.op? x o with
  | some c, some p =>
    let m := c.mode p
    let (a, z) := segCells c p.blk g
    let ks := (span a (z - a)).filter (fun k => !inSet p.cbits k)
    let held := ks.filterMap (fun k => match c.slot? o k with
      | some t => if t.sst = 2 then some (k, t.value m c.cfg.acc64) else none
      | none => none)
    let whole := held.length == ks.length
    let hold := c.cfg.cls == 0 && !c.cfg.saturate && blkReduces p.blk
    if p.released.contains g || held.isEmpty || (hold && !whole) then s
    else if m != .grid then releaseCells x o g held whole s
    else if !hold then
      let (cells, s) := saturateCells x o g held false s
      releaseCells x o g cells whole s
    else if !held.any (fun e => e.2.overflows c.cfg.g) then releaseCells x o g held true s
    else if c.attemptOf o g < 4 then replaySegment x o g (held.map Prod.snd) s
    else
      let (cells, s) := saturateCells x o g held true s
      releaseCells x o g cells true s
  | _, _ => s

/-! ### Records upward (02 R54, R64; 04 R139, R140) -/

/-- Send upward the records of complete slots that the grant covers (02 R54). -/
def sendUp (x o : Nat) (s : Sw) : Sw :=
  match s.ctx? x, s.op? x o with
  | some c, some p =>
    let ready := (List.range (cellsOf p.blk)).filterMap (fun k =>
      match upPort c p.blk k, c.slot? o k with
      | some u, some t => if t.sst = 2 && decide (k < p.upGrants.getD u 0) then
            some (u, k, { t.value (c.mode p) c.cfg.acc64 with attempt := c.attemptOf o (segOf c p.blk k) }) else none
      | _, _ => none)
    each (dedup (ready.map Prod.fst)) (fun u s =>
      let mine := (ready.filter (fun e => e.1 == u)).map Prod.snd
      let us := units (blkPrune p.blk) true (c.recBytes p) (segOf c p.blk) (fun _ => false) mine
      let s := each mine (fun e s => s.modCtx x (fun c =>
        { c with slots := c.slots.adjust (slotKey o e.1) (fun t => { t with sst := 3 }) })) s
      each us (fun un s =>
        let s := if inSet p.sentUp un.first then s
          else each un.pays (fun pay s => foldCell x o 2 u un.first (bytes64 pay) s) s
        let s := s.modOp x o (fun p => { p with sentUp := p.sentUp ||| rangeSet un.first un.count })
        ctxSend x u (unitItems (unitCells 3 x (c.leOf o) o un (.upRecord x o un.first un.count))) s) s) s
  | _, _ => s

/-- Go on with an operation whose slots, grants or state changed. -/
def progress (x o : Nat) (s : Sw) : Sw :=
  match s.ctx? x, s.op? x o with
  | some c, some p =>
    if !p.isOpen then s
    else
      let s := sendUp x o s
      if p.st == .opening then s
      else
        let segs := dedup ((List.range (cellsOf p.blk)).filterMap (fun k =>
          match upPort c p.blk k, c.slot? o k with
          | none, some t => if t.sst = 2 then some (segOf c p.blk k) else none
          | _, _ => none))
        endCheck x o (each segs (fun g s => judgeSegment x o g s) s)
  | _, _ => s

/-! ### Contributions into slots (02 R53; 04 R143, R150; 09 R282, R302) -/

/-- A duplicate is counted (09 R282). -/
def countDup (x : Nat) (s : Sw) : Sw := s.modCtx x (fun c => { c with cnt := { c.cnt with dup := c.cnt.dup + 1 } })

/-- Logical tile q converts with an anchor entry: it stands in set (SEGMENT + 97 × CTX) mod 1,024 of the tile's cache, which keeps
the four most recently used (11 R368). A write of an entry goes to every cached copy, so the cache holds which entries, not values. -/
def anchorTouch (q x g : Nat) (s : Sw) : Sw :=
  match s.physOf q with
  | none => s
  | some p =>
    let set := (g + 97 * x) % 1024
    let key := x * 2 ^ 32 + g
    s.modTile p (fun t => { t with anchorCache := t.anchorCache.set set ((key :: (t.anchorCache.getD set []).filter (· != key)).take 4) })
/-- A free SRAM place for each slot of a grid cell on its tile, else tier-1 places (04 R139; 11 R367). -/
def slotTier1 (c : Ctx) (x k : Nat) : Bool :=
  let t := slotTile c.tiles x k
  let each_ := slotsPerCell c.cfg c.canopy.children.length
  let used := each_ * (c.slots.filter (fun e => !e.2.tier1 && slotTile c.tiles x (e.1 % 2 ^ 24) == t)).length
  decide ((c.places.getD t (0, 0)).1 < used + each_)

/-- A contribution in this mode is added by the stack controller: sums on the grid and of integers, and FAST (11 R379). -/
def addsNearMemory (m : Mode) (redop : Nat) : Bool :=
  match m with | .grid => true | .fast => true | .int => decide (redop < 2) | _ => false

/-! ### Requests to send again (09 R283, R289, R290, R306) -/

/-- A REINJECT_REQ cell: kind 0 CONTRIB, 1 RESULT. -/
def reinjectCell (x o member kind first last cause : Nat) : Cell :=
  ctrlCell ctReinject x member o kind (le 4 o ++ le 4 first ++ le 4 last ++ le 1 cause)
/-- Event 0x0601, once per trigger, and at most once per port or tile and ms; subject: a port, or 1,024 and a tile (R328). -/
def reinjectEvent (x o cause kind first last subject : Nat) (s : Sw) : Sw :=
  s.limited 0x0601 subject ms (raiseCtx x 0x0601 (le 4 o ++ le 1 cause ++ le 1 kind ++ le 4 first ++ le 4 last))
/-- A member of a PRUNE operation is asked for grid cells a to z again: its cursor goes back to the first window of the segment
of a, and what it has staged for these segments is discarded (08 R260). -/
def rewindPrune (x o q a z : Nat) (s : Sw) : Sw :=
  s.modCtx x (fun c => match SMap.find? o c.ops with
    | none => c
    | some p =>
      if !blkPrune p.blk then c
      else
        let lo := (segCells c p.blk (segOf c p.blk a)).1
        let hi := (segCells c p.blk (segOf c p.blk z)).2
        let inSeg (k : Nat) : Bool := decide (lo ≤ k) && decide (k < hi)
        { c with ops := c.ops.set o { p with
            cursors := p.cursors.adjust q (Cursor.rewind (lo / 8) ((hi + 7) / 8))
            pruned := p.pruned.keep (fun key => !(key / 2 ^ 24 == q && inSeg (key % 2 ^ 24)))
            waiting := p.waiting.filter (fun e => !(e.1 == q && inSeg e.2)) } })
/-- Ask for contributions of the grid cells in a set again: one request per contiguous range to each child whose contribution
the range needs, their completion bits cleared first (09 R290). `only` restricts the ports. -/
def askContrib (x o set cause : Nat) (only : Option Nat) (s : Sw) : Sw :=
  match s.ctx? x, s.op? x o with
  | some c, some p =>
    let n := cellsOf p.blk
    let ks := (List.range n).filter (fun k => inSet set k)
    let s := s.modOp x o (fun p => { p with cbits := diffSet p.cbits set })
    let s := s.modCtx x (fun c => { c with cnt := { c.cnt with reinjCells := c.cnt.reinjCells + BitVec.ofNat 64 ks.length } })
    let ports := dedup ((ks.map (expected c p.blk)).flatten)
    let ports := match only with | some q => ports.filter (· == q) | none => ports
    each ports (fun q s =>
      let mine := (ks.filter (fun k => (expected c p.blk k).contains q)).foldl addSet 0
      each (runsOf mine n) (fun r s =>
        match c.memberAt q with
        | some h => each ((p.childPorts h).filter (fun b => p.valid.getLsbD b)) (fun b s =>
            ctxCtrl x b .none (reinjectCell x o h.rankFirst 0 r.1 r.2 cause) (rewindPrune x o b r.1 r.2 s)) s
        | none => ctxCtrl x q .none (reinjectCell x o noMember 0 r.1 r.2 cause) s) s) s
  | _, _ => s
/-- First and last member of a set of grid cells. -/
def setEnds (set n : Nat) : Option (Nat × Nat) :=
  match runsOf set n with
  | [] => none
  | r :: rest => some (r.1, (rest.getLastD r).2)
/-- A trigger over the open operations of a context: `pick` names the grid cells of each whose contributions are asked for
again. The sets are computed before any bit is cleared (09 R290). -/
def trigger (x cause subject : Nat) (only : Option Nat) (pick : Ctx → Nat → Op → Nat) (s : Sw) : Sw :=
  match s.ctx? x with
  | none => s
  | some c =>
    let sets := (c.ops.filter (fun e => e.2.isOpen)).map (fun e => (e.1, pick c e.1 e.2, cellsOf e.2.blk))
    let sets := sets.filter (fun e => e.2.1 != 0)
    let s := match sets with
      | (o, set, n) :: _ => (match setEnds set n with | some (a, z) => reinjectEvent x o cause 0 a z subject s | none => s)
      | [] => s
    each sets (fun e s => askContrib x e.1 e.2.1 cause only s) s

/-- Grid cells of an operation that pass a test, as a set. -/
def cellSet (p : Op) (f : Nat → Bool) : Nat := ((List.range (cellsOf p.blk)).filter f).foldl addSet 0

/-- A complete slot is checked on the next tile of its grove: outvoted, it is cleared and its cell collected again (09 R303 to
R306, CAUSE 3). -/
def slotCheck (x o k : Nat) (s : Sw) : Sw :=
  match s.ctx? x with
  | none => s
  | some c =>
    if !sampled s x o k then s
    else
      let q := slotTile c.tiles x k
      match shadowCheck 0 x o k q s with
      | (.checked, s) =>
        let s := s.modCtx x (fun c => { c with slots := c.slots.erase (slotKey o k) })
        trigger x 3 (1024 + (s.physOf q).getD 0) none (fun _ n _ => if n == o then 1 <<< k else 0) s
      | (_, s) => s

/-! ### Contributions (02 R53; 04 R139, R141, R151) -/

/-- Staged cells of port q none of whose grid cells is still needed leave staging (04 R141). -/
def unstage (x o q rank : Nat) (s : Sw) : Sw :=
  match s.ctx? x, s.op? x o with
  | some c, some p =>
    let (first, len) := contribPart c p.blk rank
    let ec := s.ecOf p q
    let prim := match c.canopy.primaryOf q with | some h => h.port | none => q
    s.modOp x o (fun p => { p with staging := p.staging.keep (fun key =>
      if key / 2 ^ 24 != q then true
      else
        let j := key % 2 ^ 24
        let lo := first + ec * j
        let hi := min (first + len) (lo + ec)
        (span (lo / 32) ((hi - 1) / 32 + 1 - lo / 32)).any (fun k => !taken c o p prim k)) })
  | _, _ => s

/-- The cells of backups that were not taken leave staging when grid cell k completes (04 R141, R151). -/
def unstageBackups (x o k : Nat) (s : Sw) : Sw :=
  match s.ctx? x with
  | none => s
  | some c => each c.canopy.memberChildren (fun h s => match h.backup with
      | some b => unstage x o b h.rankFirst (s.modOp x o (fun p => { p with pruned := p.pruned.erase (cellKey b k) }))
      | none => s) s
/-- Slots are lacking for these grid cells of operation o: cells that are collected again have taken the places, and the next to
be freed serves (04 R139; 09 R283). -/
def noSlot (c : Ctx) (o : Nat) (ks : List Nat) : Bool :=
  decide (c.cfg.slots / max 1 (slotsPerCell c.cfg c.canopy.children.length) <
    c.slots.length + (ks.filter (fun k => (c.slot? o k).isNone)).length)

/-- Combine the contribution of child port q to grid cell k (02 R53). It is a duplicate when it is taken already. A complete
DET-TREE slot holds its sum in its accumulators (02 R52, R73). -/
def contribute (x o q k : Nat) (part : Part) (s : Sw) : Sw :=
  match s.ctx? x, s.op? x o with
  | some c, some p =>
    if !p.isOpen then s
    else if taken c o p q k then countDup x s
    else
      let m := c.mode p
      let t := (c.slot? o k).getD { attempt := c.attemptOf o (segOf c p.blk k), tier1 := slotTier1 c x k }
      let t := if t.bitmap == 0 then { t with lstart := BitVec.allOnes 32, late := 0 } else t
      let t := t.combine m (blkRedop p.blk) c.cfg.acc64 q part
      let full := (expected c p.blk k).all (fun q => t.bitmap.getLsbD q)
      let t := if full then { (if m == .tree then { t.put (t.value m c.cfg.acc64) with tree := [] } else t) with sst := 2 } else t
      let s := s.setCtx x { c with slots := c.slots.set (slotKey o k) t }
      let s := if m == .grid then anchorTouch (slotTile c.tiles x k) x (segOf c p.blk k) s else s
      let s := if t.tier1 then nearMemory (slotTile c.tiles x k) (b2n (addsNearMemory m (blkRedop p.blk)) + b2n full) s else s
      if full then slotCheck x o k (unstageBackups x o k s) else s
  | _, _ => s

/-! ### A member's staged cells (02 R41, R51; 04 R141; 05 R186) -/

/-- The member cells of port q that grid cell k needs are all staged. -/
def wholeCell (s : Sw) (c : Ctx) (p : Op) (q rank k : Nat) : Bool :=
  let js := contribRange s c p q rank k (k + 1)
  !js.isEmpty && js.all (fun j => p.staging.mem (cellKey q j))

/-- The 32 values of grid cell k as staged by port q; elements past the part are zero. -/
def stagedNums (s : Sw) (c : Ctx) (p : Op) (q rank k : Nat) : List (Nat × Num) :=
  let (first, len) := contribPart c p.blk rank
  let code := p.format q
  let ec := s.ecOf p q
  (List.range 32).map (fun i =>
    let e := 32 * k + i
    if e < first || first + len ≤ e then (0, Num.fin false 0 1 0)
    else
      let l := e - first
      let pay := p.staging.getD (cellKey q (l / ec)) 0
      (plainElem code pay (l % ec), cellNum code pay (l % ec)))

/-- A contribution in the form its mode adds (02 R46 to R49, R72, R76; 04 R144). -/
def toMode (c : Ctx) (p : Op) (o k code : Nat) (vs : List (Nat × Num)) : Part :=
  match c.mode p with
  | .grid => toGrid c.cfg.g c.cfg.h (c.convAnchor p o (segOf c p.blk k)) (vs.map Prod.snd)
  | .int => { vals := vs.map (fun v => decodeInt (elemBits code) v.1) }
  | .f64 => toFloat fp64 (vs.map Prod.snd)
  | _ => toFloat (accFmt c.cfg.acc64) (vs.map Prod.snd)

/-- The results of segment g of an operation are released at this switch: by the switch itself, by the anchor of a result or a
notice, or because every result of the segment has come (02 R51, R61). -/
def segReleased (c : Ctx) (p : Op) (g : Nat) : Bool :=
  p.released.contains g || (let (a, z) := segCells c p.blk g; (span a (z - a)).all (inSet p.rbits))
/-- An earlier operation of the window that covers the segment has not released it here (02 R51). -/
def earlierHolds (c : Ctx) (o g : Nat) : Bool :=
  c.ops.any (fun e => decide (e.1 < o) && e.2.isOpen && decide (blkKind e.2.blk ≤ 4) && coversSeg c e.2.blk g && !segReleased c e.2 g)

/-- The launch instant of an operation has come, or it has none (05 R186). -/
def Sw.launched (s : Sw) (p : Op) : Bool :=
  match p.launchAt with
  | some l => gtcReached s.gtc l
  | none => blkLaunch p.blk == 0
/-- A staged contribution of operation o must wait: for its launch, for a slot, for an earlier operation when it is one on the
grid, which alone uses an anchor (DEDUCED, log 111), or for a layout epoch (02 R51; 05 R186; 09 R283). -/
def mustWait (s : Sw) (c : Ctx) (p : Op) (o k : Nat) : Bool :=
  !s.launched p || noSlot c o [k] || (c.mode p == .grid && earlierHolds c o (segOf c p.blk k)) ||
    (match c.reshard with | some r => decide (r.eff ≤ o) | none => false)

/-- Data of operation o came at GTC `g`, more than 32 ns before the launch instant l: event 0x0306 once (05 R186). -/
def earlyAt (x o : Nat) (l g : Quad) (s : Sw) : Sw :=
  match s.op? x o with
  | some p =>
    let d := (l - g).toNat
    if decide (32 < d) && decide (d < 2 ^ 63) && !p.once.contains (0x0306, 0) then
      raiseCtx x 0x0306 (le 2 x ++ le 4 o ++ le 8 l.toNat ++ le 8 g.toNat)
        (s.modOp x o (fun p => { p with once := p.once ++ [(0x0306, 0)] }))
    else s
  | none => s
/-- Data of operation o comes now. Where the launch instant is not known yet, the instant of the first cell is kept (05 R186). -/
def earlyCheck (x o : Nat) (s : Sw) : Sw :=
  match s.op? x o with
  | some p =>
    (match p.launchAt with
     | some l => earlyAt x o l s.gtc s
     | none => if blkLaunch p.blk = 0 || p.firstCell.isSome then s else let g := s.gtc; s.modOp x o (fun p => { p with firstCell := some g }))
  | none => s
/-- The launch instant is known now: a cell that came before is judged by it (05 R186). -/
def earlyKnown (x o : Nat) (s : Sw) : Sw :=
  match s.op? x o with
  | some p => (match p.launchAt, p.firstCell with | some l, some g => earlyAt x o l g s | _, _ => s)
  | none => s

/-- Fold the member cells of grid cell k into the contribution digest of their port, each once (09 R297). -/
def foldStaged (x o q prim rank k : Nat) (s : Sw) : Sw :=
  match s.ctx? x, s.op? x o with
  | some c, some p =>
    each (contribRange s c p q rank k (k + 1)) (fun j s =>
      match s.op? x o with
      | some p =>
        if inSet (p.folded.getD q 0) j then s
        else
          let pay := p.staging.getD (cellKey q j) 0
          let s := foldCell x o 0 prim j ((bytes64 pay).take (payBytes (s.pers q))) s
          s.modOp x o (fun p => { p with folded := p.folded.set q (addSet (p.folded.getD q 0) j) })
      | none => s) s
  | _, _ => s

/-- Fold the prune cells of the window of grid cell k into the contribution digest of their port, each window once (08 R257;
09 R297). -/
def foldWindow (x o q prim k : Nat) (s : Sw) : Sw :=
  s.modCtx x (fun c => match SMap.find? o c.ops with
    | none => c
    | some p =>
      let w := k / 8
      match SMap.find? (cellKey q w) p.winDig with
      | none => c
      | some d =>
        if inSet (p.folded.getD q 0) w then c
        else
          let ds := match SMap.find? o c.digests with
            | some set =>
              let old := set.getD prim ⟨0, 0, false⟩
              c.digests.set o (set.set prim { old with dig := old.dig ^^^ d.dig, cells := old.cells + d.cells })
            | none => c.digests
          { c with digests := ds
                   ops := c.ops.set o { p with folded := p.folded.set q (addSet (p.folded.getD q 0) w) } })

/-- Convert and add the staged grid cell k of port q for the child on `prim` (02 R51, R53). -/
def convertStaged (x o q prim rank k : Nat) (s : Sw) : Sw :=
  match s.ctx? x, s.op? x o with
  | some c, some p =>
    let s := s.modOp x o (fun p => { p with waiting := p.waiting.filter (fun e => e != (q, k)) })
    if taken c o p prim k then unstage x o q rank (countDup x s)
    else
      let part := if blkPrune p.blk then
          let ents := p.pruned.getD (cellKey q k) []
          toMode c p o k (p.format q) ((List.range 32).map (fun i =>
            match ents.find? (fun e => e.1 == i) with
            | some e => (e.2, decodeNum (elemFmt (p.format q)) e.2)
            | none => (0, Num.fin false 0 1 0)))
        else toMode c p o k (p.format q) (stagedNums s c p q rank k)
      let s := if blkPrune p.blk then foldWindow x o q prim k (s.modOp x o (fun p => { p with pruned := p.pruned.erase (cellKey q k) }))
               else foldStaged x o q prim rank k s
      unstage x o q rank (contribute x o prim k part s)
  | _, _ => s

/-- A frame tick, or `n` ticks that pass, with the low frame number `now` at the first: it is the lateness start of a slot that
has its first contribution, and counts for a slot that has started (04 R142, R150; 05 R163, R167: ticks are counted, whatever
the frame numbers do). -/
def Slot.ticks (now : Word) (n : Nat) (t : Slot) : Slot :=
  if t.sst != 1 || t.bitmap == 0 then t
  else if t.lstart == BitVec.allOnes 32 then { t with lstart := now, late := n - 1 } else { t with late := t.late + n }
/-- Frame ticks pass for the slots of context x, when the switch is a leaf of it (04 R150). -/
def lateTicks (now : Word) (n x : Nat) (s : Sw) : Sw :=
  s.modCtx x (fun c => if (c.canopy.memberChildren).isEmpty then c else { c with slots := c.slots.map (fun e => (e.1, e.2.ticks now n)) })

/-- A member child is late for a grid cell, or out of UP: its backup's copy may be taken (04 R151). -/
def backupMay (s : Sw) (c : Ctx) (o : Nat) (h : Child) (k : Nat) : Bool :=
  !s.up h.port || (match c.slot? o k with
    | some t => t.lstart != BitVec.allOnes 32 && decide (c.cfg.lateFrames ≤ t.late)
    | none => false)

/-- The backup's copy is taken: BACKUP_USED and event 0x0204 once per operation and port (04 R151). -/
def markBackup (x o k : Nat) (h : Child) (b : Nat) (s : Sw) : Sw :=
  let s := s.modCtx x (fun c => { c with slots := c.slots.adjust (slotKey o k) (fun t => { t with backupUsed := true }) })
  match s.op? x o with
  | some p =>
    if p.once.contains (0x0204, h.port) then s
    else raiseCtx x 0x0204 (le 4 o ++ le 2 h.port ++ le 2 b ++ le 4 k)
      (s.modOp x o (fun p => { p with once := p.once ++ [(0x0204, h.port)] }))
  | none => s

/-- Compare the two copies of a grid cell that a leaf holds (09 R296). -/
def compareBackup (x o k : Nat) (h : Child) (b : Nat) (s : Sw) : Sw :=
  match s.ctx? x, s.op? x o with
  | some c, some p =>
    let whole (q : Nat) : Bool := if blkPrune p.blk then p.pruned.mem (cellKey q k) else wholeCell s c p q h.rankFirst k
    if whole h.port && whole b then
      let dig (q : Nat) : Quad := if blkPrune p.blk then (p.winDig.getD (cellKey q (k / 8)) ⟨0, 0, false⟩).dig else (contribRange s c p q h.rankFirst k (k + 1)).foldl (fun d j =>
        d ^^^ cellDigest j ((bytes64 (p.staging.getD (cellKey q j) 0)).take (payBytes (s.pers q)))) 0
      if dig h.port == dig b then s
      else raiseCtx x 0x0605 (le 2 h.port ++ le 2 b ++ le 4 k)
        (s.modCtx x (fun c => { c with cnt := { c.cnt with backupDiverged := c.cnt.backupDiverged + 1 } }))
    else s
  | _, _ => s

/-- A grid cell of port q stands whole in staging: it waits, or it is converted; a backup's copy waits until it may be
taken (02 R41, R51; 04 R151). -/
def gridCellWhole (x o q k : Nat) (s : Sw) : Sw :=
  match s.ctx? x, s.op? x o with
  | some c, some p =>
    (match c.memberAt q with
     | some h =>
       let s := match h.backup with | some b => compareBackup x o k h b s | none => s
       if taken c o p q k then unstage x o q h.rankFirst (countDup x s)
       else if mustWait s c p o k then
         s.modOp x o (fun p => { p with waiting := if p.waiting.contains (q, k) then p.waiting else p.waiting ++ [(q, k)] })
       else convertStaged x o q q h.rankFirst k s
     | none =>
       match c.canopy.primaryOf q with
       | none => s
       | some h =>
         let s := compareBackup x o k h q s
         if taken c o p h.port k then unstage x o q h.rankFirst (countDup x s)
         else if backupMay s c o h k && !mustWait s c p o k then
           markBackup x o k h q (convertStaged x o q h.port h.rankFirst k s)
         else s)
  | _, _ => s

/-- Take the backup's staged copy of grid cell k for a late or lost primary, when it stands whole (04 R151). -/
def takeBackup (x o k : Nat) (h : Child) (s : Sw) : Sw :=
  match s.ctx? x, s.op? x o, h.backup with
  | some c, some p, some b =>
    let ready := if blkPrune p.blk then p.pruned.mem (cellKey b k) else wholeCell s c p b h.rankFirst k
    if taken c o p h.port k || !ready || mustWait s c p o k then s
    else markBackup x o k h b (convertStaged x o b h.port h.rankFirst k s)
  | _, _, _ => s

/-- Stalls of a child end when its cell arrives (04 R152). -/
def clearStall (x o port : Nat) (s : Sw) : Sw :=
  match s.op? x o with
  | some p =>
    (match p.once.find? (fun e => e.1 / 2 ^ 64 == 0x0205 && e.2 == port) with
     | some e =>
       let since := e.1 % 2 ^ 64
       raiseCtx x 0x0206 (le 4 o ++ le 2 port ++ le 4 ((s.now - since) / 1000))
         (s.modOp x o (fun p => { p with once := (p.once.filter (· != e)) ++ [(0x0206, port)] }))
     | none => s)
  | none => s

end Sys2Proof.Machine
end

