-- ==== Sys2Proof/Machine/Joins.lean ====
section
/-! DEFINITION. How operations open, join and start: the checks of a JOIN, resources, launches, COUNTS, resolution of store
gathers, JOINED, barriers and exchanges (04 R128 to R138, R145 to R148; 05 R185 to R188; 06 R203, R210 to R213; 08 R256, R268;
09 R313; 11 R368 to R371). -/
namespace Sys2Proof.Machine

/-! ### Launch instants (05 R185, R187) -/

/-- The first tick strictly after t. -/
def Sw.tickAfter (s : Sw) (t : Nat) : Nat := (t / 2 ^ s.time.active + 1) * 2 ^ s.time.active
/-- The first tick at or after t. -/
def Sw.tickAt (s : Sw) (t : Nat) : Nat := (t + 2 ^ s.time.active - 1) / 2 ^ s.time.active * 2 ^ s.time.active
/-- The BARRIER instant for a last JOIN accepted at GTC c. -/
def Sw.barrierTick (s : Sw) (c : Nat) : Nat :=
  let t := s.tickAfter c
  if t - c < s.time.lead then s.tickAfter t else t
/-- A launch is late: counted, with event 0x0306 (05 R187). -/
def lateLaunch (x o : Nat) (l : Quad) (s : Sw) : Sw :=
  raiseCtx x 0x0306 (le 2 x ++ le 4 o ++ le 8 l.toNat ++ le 8 s.gtc.toNat)
    (s.modTime (fun t => { t with lateLaunches := t.lateLaunches + 1 }))

/-! ### The body of a JOIN (04 R132, R136) -/

/-- The body of a JOIN. -/
structure JoinBody where
  /-- BLOCK. -/
  blk : BitVec 256
  /-- SIGNATURE. -/
  sig : Quad
  /-- FORMAT. -/
  fmt : Nat
  /-- SFORM. -/
  sform : Nat
  /-- PEER_RANK. -/
  peer : Nat
  /-- MEPOCH. -/
  mepoch : Nat
  /-- Reserved bytes and bits of the body are 0. -/
  clean : Bool
  deriving DecidableEq, Repr

/-- The body a JOIN cell carries. -/
def joinOf (c : Cell) : JoinBody :=
  { blk := BitVec.ofNat 256 (c.f 0 32), sig := c.q 32, fmt := dbits c.pay 40 0 4, sform := dbits c.pay 41 0 2, peer := c.f 42 2,
    mepoch := c.f 44 4, clean := within c.pay (dmask 0 48 &&& ~~~ dmaskBits 40 4 4 &&& ~~~ dmaskBits 41 2 6) }

/-- The block breaks a limit that does not depend on formats (04 R132, R134, R148, R158; 05 R187, R188; 06 R203, R210;
08 R256). -/
def blockBad (s : Sw) (x : Nat) (c : Ctx) (b : BitVec 256) (barrier : Bool) : Bool :=
  let kind := blkKind b
  let n := c.canopy.members
  let storeOp := c.storeReduction b || c.storeGather b
  let lau := blkLaunch b
  blkReserved b || decide (7 < kind) || decide (6 < blkRedop b) || (!blkReduces b && blkRedop b != 0) ||
    (barrier != (kind == kBarrier)) || (kind == kBarrier && (blkE b != 0 || lau == 1 || lau == 3)) ||
    decide (n ≤ blkRoot b) || (kind != 3 && kind != 4 && blkRoot b != 0) || blkB b % 32 != 0 ||
    ((kind == 1 || kind == 2) && !storeOp && (blkE b % n != 0 || blkE b / n % 32 != 0)) ||
    (storeOp && (blkE b % 32 != 0 || !inShards c.canopy.shards (blkB b) (blkB b + blkE b))) ||
    (c.cfg.streaming && blkB b % 2 ^ c.cfg.seglenLog2 != 0) ||
    ((lau == 0 || lau == 2) && blkGtc b != 0) || gtcBeyond (BitVec.ofNat 64 (blkGtc b)) s.gtc (2 ^ 36) ||
    (blkPrune b && (!blkReduces b || decide (1 < blkRedop b) || c.cfg.cls != 0 || x == 0 || blkB b % 256 != 0)) ||
    (x == 0 && !((kind == kAllReduce && blkRedop b == 0) || kind == kBarrier)) ||
    (blkPrune b && c.cfg.minor == 0) || (lau == 3 && decide (c.cfg.minor < 2)) || (blkExchange b && s.fab.adaptive.getLsbD (c.cfg.job % 256))

/-- Kinds of format: 1 float, 2 integer. -/
def kindBit (fmt : Nat) : Nat := if isIntFmt fmt then 2 else 1
/-- REDOP is not allowed for these kinds of format, or both kinds are used (02 R76; 04 R137). -/
def kindsBad (b : BitVec 256) (sform : Nat) : Bool :=
  sform == 3 || (sform == 1 && blkReduces b && decide (4 ≤ blkRedop b))
/-- A member's part of the checks: its format and PEER_RANK (02 R37; 04 R134; 08 R256). -/
def memberBad (s : Sw) (c : Ctx) (q : Nat) (j : JoinBody) : Bool :=
  let b := j.blk
  if blkKind b = kBarrier then false
  else
    !carried (s.pers q) j.fmt || j.sform != 0 ||
      decide (2 ^ 24 * min 32 (elemsPerCell j.fmt (payBytes (s.pers q))) < blkE b) ||
      decide (c.canopy.members ≤ j.peer) || (blkKind b != kPermute && j.peer != 0) ||
      (blkExchange b && (isMx j.fmt || s.pers q == 1)) || (blkPrune b && isMx j.fmt)

/-! ### Status cells to one port -/

/-- COMPLETE, or BARRIER_RELEASE, with a status to one port. -/
def tellEnd (x o q member status : Nat) (barrier : Bool) (s : Sw) : Sw :=
  ctxCtrl x q .none (ctrlCell (if barrier then ctRelease else ctStatus) x member o 0 (statusBody o phComplete status 0 0 0)) s
/-- JOINED to one port, with its grant and the launch instant (04 R138; 05 R185). -/
def tellJoined (x o q : Nat) (h : Child) (s : Sw) : Sw :=
  match s.ctx? x, s.op? x o with
  | some c, some p =>
    let l := if blkLaunch p.blk = 0 then 0 else (p.launchAt.getD 0).toNat
    let v := max (p.grants.getD q 0) (if blkKind p.blk ≤ 4 then childGrant s x c o p q h (grantOf c o p) else 0)
    ctxCtrl x q .none (ctrlCell ctStatus x h.member o 0 (statusBody o phJoined 0 v 0 l))
      (s.modOp x o (fun p => { p with grants := p.grants.set q v }))
  | _, _ => s

/-! ### Opening (04 R137, R156; 05 R185, R187; 09 R281, R313; 11 R368 to R371) -/

/-- Class that a tier-1 request of `bytes` takes, and how many (11 R371). -/
def tier1Class (bytes : Nat) : Nat × Nat := if bytes ≤ 2 ^ 20 then (5, if bytes = 0 then 0 else 1) else (6, extentsOf bytes)
/-- The grove of a context's home tile, or its stand-in. -/
def Sw.homeOf (s : Sw) (x : Nat) (c : Ctx) : Nat := s.homeGrove (homeTile c.tiles x / 32)

/-- Buffers drawn when an operation opens: its record, completion map, digest set, COUNTS tables, and anchor buffers of the
context not yet drawn (11 R368 to R370). -/
def drawBuffers (x o : Nat) (s : Sw) : Sw :=
  match s.ctx? x, s.op? x o with
  | some c, some p =>
    let g := s.homeOf x c
    let own := Owner.operation x o
    let cells := cellsOf p.blk
    let (mc, mn) := tier1Class ((cells + 7) / 8)
    let s := poolTakeOrWait x o 0 (homeTile c.tiles x) 1 c.cfg.job own s
    let s := poolTakeOrWait x o mc g mn c.cfg.job own s
    let s := poolTakeOrWait x o 5 g 1 c.cfg.job own s
    let s := if blkExchange p.blk then
        each c.canopy.memberChildren (fun _ s =>
          if c.canopy.members ≤ 1024 then poolTakeOrWait x o 2 (homeTile c.tiles x) 1 c.cfg.job own s
          else poolTakeOrWait x o 5 g 1 c.cfg.job own s) s
      else s
    if cells = 0 then s
    else
      let a := segOf c p.blk 0 / 65536
      let z := lastSeg c p.blk / 65536
      let new := (span a (z + 1 - a)).filter (fun d => !c.anchorBufs.contains d)
      let s := each new (fun _ s => poolTakeOrWait x o 5 (s.homeGrove ((g + 1) % 4)) 1 c.cfg.job (.context x)
        (poolTakeOrWait x o 5 g 1 c.cfg.job (.context x) s)) s
      s.modCtx x (fun c => { c with anchorBufs := c.anchorBufs ++ new })
  | _, _ => s

/-- The next OPNUM not opened, from o on. -/
def nextUnopened (ops : SMap Op) : Nat → Nat → Nat
  | 0, o => o
  | fuel + 1, o => if ops.mem o then nextUnopened ops fuel (o + 1) else o

/-- Operation o has joined at a source: every switch whose FIRST_OPNUM is not above it has joined it and is ADMITTED, so the pins
held for it go (09 R313, R316, R317; DEDUCED, log 121). -/
def graftRelease (x o : Nat) (s : Sw) : Sw :=
  match s.ctx? x with
  | none => s
  | some c =>
    let due := c.graft.serving.filter (fun (e : Nat × Nat × Bool × List (Nat × Nat)) => decide (e.2.1 ≤ o))
    let s := each due (fun e s => each e.2.2.2 (fun h s => graftUnpin x h.1 h.2 s) s) s
    if due.isEmpty then s
    else s.modCtx x (fun c => { c with graft := { c.graft with serving := c.graft.serving.keep (fun q => !due.any (fun e => e.1 == q)) } })
/-- Operation o opens at a switch whose graft is READY: it is ADMITTED (09 R313). -/
def graftAdmit (x o : Nat) (s : Sw) : Sw :=
  match s.ctx? x with
  | none => s
  | some c =>
    if c.graft.st == .ready && decide (c.graft.firstOp ≤ o) then
      graftStepEvent (some x) 9
        (s.modCtx x (fun c => { c with graft := { c.graft with st := .admitted } }))
    else s

/-- Open operation o with a block; `byJoin`: a JOIN opens it, else an OP_POST (04 R156). -/
def openOp (x o : Nat) (b : BitVec 256) (byJoin : Bool) (s : Sw) : Sw :=
  match s.ctx? x with
  | none => s
  | some c =>
    let count := blkLaunch b == 1
    let at_ := s.tickAt (blkGtc b)
    let late := count && gtcReached s.gtc (BitVec.ofNat 64 at_)
    let l : Option Quad := if count then some (BitVec.ofNat 64 (if late then s.tickAfter s.gtc.toNat else at_)) else none
    let p : Op := { blk := b, opened := byJoin, firstJoin := s.now, launchAt := l,
                    sparse := c.sparse && blkPrune b, gather := SMap.find? o c.gathers,
                    unmirrored := (c.canopy.shards.filterMap (fun e => e.mirror)).filter (fun q => !s.up q) }
    let ops := c.ops.set o p
    let digests := c.digests.set o []
    let c := { c with ops := ops, nextOp := nextUnopened ops 64 c.nextOp, gathers := c.gathers.erase o
                      digests := digests.drop (digests.length - s.rcv.digestDepth) }
    let c := if c.storeReduction b then { c with store := c.store.map (fun t => { t with mirrorDown := t.mirrorDown.filter (fun q => !s.up q) }) } else c
    let s := drawBuffers x o (s.setCtx x c)
    let s := if late then lateLaunch x o (l.getD 0) s else s
    graftAdmit x o s

/-! ### Resolution of a store gather (06 R211) -/

/-- Resolve the versions that this switch's owned shards serve; whether the operation may go on. -/
def resolveGather (x o : Nat) (s : Sw) : Bool × Sw :=
  match s.ctx? x, s.store? x, s.op? x o with
  | some c, some t, some p =>
    let owned := ownedIn c (blkB p.blk) (blkE p.blk)
    (match p.gather with
     | some g => (!g.gone, s)
     | none =>
       if owned.isEmpty then (true, s)
       else if t.gpost then (false, s)
       else
         let vs := owned.filterMap (fun e => ((SMap.find? e.1 t.shards).bind Shard.version).map (fun v => (e.1, v)))
         if vs.length != owned.length then (false, s)
         else (true, takePins x false vs (s.modOp x o (fun p =>
           { p with gather := some { resolved := vs, unpin := false, first := blkB p.blk, count := blkE p.blk } }))))
  | _, _, _ => (true, s)

/-- Each owner emits every grid cell of its shards in the range, at the launch instant or after it, once (06 R210;
05 R186). -/
def gatherEmit (x o : Nat) (s : Sw) : Sw :=
  match s.ctx? x, s.store? x, s.op? x o with
  | some c, some t, some p =>
    if !s.launched p || p.once.contains (2, 0) || !c.storeGather p.blk || p.st != .committed then s else
    let s := s.modOp x o (fun p => { p with once := p.once ++ [(2, 0)] })
    (match p.gather with
     | none => s
     | some g =>
       let cells := (List.range (cellsOf p.blk)).filterMap (fun k =>
         match cellShard c p.blk k with
         | some (n, e) =>
           if e.srole != 1 then none
           else
             let v := g.resolved.getD n 0
             let first := blkB p.blk + 32 * k - e.first
             some (k, ({ vals := (List.range 32).map (fun i =>
               (rawElem (t.fmt 0) (t.masterElem x n v (first + i)) : Int)) } : Part))
         | none => none)
       emit x o cells none true s)
  | _, _, _ => s

/-! ### COUNTS (04 R145, R146; 08 R268) -/

/-- A COUNTS cell of operation o. -/
def countsCell (x o member blk dir : Nat) (counts : List Nat) : Cell :=
  ctrlCell ctCounts x member o (blk % 4096 + place dir 12) ((counts.map (le 4)).flatten)

/-- Hold counts of a source at the members of this switch that the block covers (04 R146). -/
def takeCounts (x o src blk : Nat) (counts : List Nat) (s : Sw) : Sw :=
  match s.ctx? x, s.op? x o with
  | some c, some p =>
    let perm := blkKind p.blk == kPermute
    let mine := c.canopy.memberChildren.filter (fun h => h.rankFirst / 16 == blk)
    let twice := perm && mine.any (fun h =>
      counts.getD (h.rankFirst % 16) 0 != 0 && p.exch.counts.any (fun e => e.1 % 65536 == h.rankFirst && e.1 / 65536 != src))
    let s := s.modOp x o (fun p =>
      let cs := mine.foldl (fun m h =>
        let v := counts.getD (h.rankFirst % 16) 0
        if v = 0 then m else m.set (src * 65536 + h.rankFirst) v) p.exch.counts
      { p with exch := { p.exch with counts := cs, blocks := p.exch.blocks.set (src * 4096 + blk) 1 } })
    if twice then failHere x o stMismatch s else s
  | _, _ => s

/-- A COUNTS block turns down at this switch: it came from the parent, or the ranks below cover its ranks (04 R146). -/
def countsTurn (c : Ctx) (blk : Nat) (fromAbove : Bool) : Bool :=
  let lo := 16 * blk
  fromAbove || c.isRoot || (span lo (min (lo + 16) c.canopy.members - lo)).all (fun r => (c.canopy.childOfRank r).isSome)
/-- Send a DIR 0 COUNTS cell on: up to the lowest switch whose ranges cover its ranks, down to the leaves of those ranks. Its way
needs the canopy alone, so it goes on before the operation opens here (04 R146). MEMBER carries the source rank (DEDUCED, log 17). -/
def forwardCounts (x o src blk : Nat) (counts : List Nat) (fromAbove : Bool) (s : Sw) : Sw :=
  match s.ctx? x with
  | none => s
  | some c =>
    let cell := countsCell x o src blk 0 counts
    if !countsTurn c blk fromAbove then
      match c.canopy.parent with
      | some up => ctxCtrl x up .none cell s
      | none => s
    else
      let lo := 16 * blk
      each (c.canopy.children.filter (fun h => h.isSwitch && decide (h.rankFirst < lo + 16) && decide (lo < h.rankFirst + h.rankCount)))
        (fun h => ctxCtrl x h.port .none cell) s
/-- Send a DIR 0 COUNTS cell on, and hold its counts at the members of this switch (04 R146). -/
def routeCounts (x o src blk : Nat) (counts : List Nat) (fromAbove : Bool) (s : Sw) : Sw :=
  match s.ctx? x with
  | none => s
  | some c =>
    let s := forwardCounts x o src blk counts fromAbove s
    if countsTurn c blk fromAbove then takeCounts x o src blk counts s else s

/-- The counts exchange of this leaf is complete: each member receives its DIR 1 cells (04 R146). -/
def countsCheck (x o : Nat) (s : Sw) : Sw :=
  match s.ctx? x, s.op? x o with
  | some c, some p =>
    let n := c.canopy.members
    let ms := c.canopy.memberChildren
    let perm := blkKind p.blk == kPermute
    let sources (d : Nat) : List Nat := (p.exch.counts.filter (fun e => e.1 % 65536 == d)).map (fun e => e.1 / 65536)
    let whole := if perm then blkE p.blk = 0 || ms.all (fun h => (sources h.rankFirst).length == 1)
      else ms.all (fun h => (List.range n).all (fun r => p.exch.blocks.mem (r * 4096 + h.rankFirst / 16)))
    if !blkExchange p.blk || p.exch.countsDone || !p.isOpen || ms.isEmpty || !whole then s
    else
      let s := s.modOp x o (fun p => { p with exch := { p.exch with countsDone := true } })
      each ms (fun h s =>
        let blks := if perm then dedup ((sources h.rankFirst).map (· / 16)) else List.range ((n + 15) / 16)
        each blks (fun b s => ctxCtrl x h.port .none (countsCell x o h.rankFirst b 1
          ((List.range 16).map (fun i => p.exch.counts.getD ((16 * b + i) * 65536 + h.rankFirst) 0))) s) s) s
  | _, _ => s

/-- All blocks for all members of this leaf have arrived (04 R147). -/
def exchHere (s : Sw) (c : Ctx) (p : Op) : Bool :=
  c.canopy.memberChildren.all (fun h =>
    (p.exch.counts.filter (fun e => e.1 % 65536 == h.rankFirst)).all (fun e =>
      decide (memberCells e.2 (s.ecOf p h.port) ≤ p.exch.cells.getD e.1 0)))
/-- An exchange reports COMPLETE upward, or ends at the root. -/
def exchCheck (x o : Nat) (s : Sw) : Sw :=
  match s.ctx? x, s.op? x o with
  | some c, some p =>
    if blkExchange p.blk && (p.st == .joined || p.st == .committed) then storeComplete x o (exchHere s c p) s else s
  | _, _ => s

/-! ### All children joined (04 R137, R148, R156) -/

/-- The operation is JOINED here: JOINED goes to the children, and results may flow (04 R137, R156). -/
def enterJoined (x o : Nat) (s : Sw) : Sw :=
  match s.ctx? x, s.op? x o with
  | some c, some p =>
    let committed := cellsOf p.blk == 0 || c.storeGather p.blk
    let s := graftRelease x o (earlyKnown x o (s.modOp x o (fun p => { p with st := if committed then .committed else .joined })))
    let late := match p.launchAt with | some l => !c.canopy.memberChildren.isEmpty && gtcReached s.gtc l | none => false
    let s := if late then lateLaunch x o (p.launchAt.getD 0) s else s
    let s := each c.canopy.children (fun h s => each (p.childPorts h) (fun q s => tellJoined x o q h s) s) s
    let s := gatherEmit x o s
    exchCheck x o (endCheck x o (progress x o s))
  | _, _ => s

/-- The root holds every join (04 R137, R148; 05 R185, R188). -/
def rootJoined (x o : Nat) (s : Sw) : Sw :=
  match s.op? x o with
  | none => s
  | some p =>
    let bt := s.barrierTick p.lastJoin.toNat
    let l := match blkLaunch p.blk with
      | 2 => some (BitVec.ofNat 64 bt)
      | 3 => let t := s.tickAt (blkGtc p.blk); some (BitVec.ofNat 64 (if gtcReached (BitVec.ofNat 64 bt) (BitVec.ofNat 64 t) then bt else t))
      | _ => p.launchAt
    let s := s.modOp x o (fun p => { p with launchAt := l })
    if blkKind p.blk = kBarrier then finishOp x o stOk s else enterJoined x o s

/-- Go on when every child has joined and what the operation waits for has come (04 R137, R146; 06 R211; 11 R373). -/
def joinGo (x o : Nat) (s : Sw) : Sw :=
  let s := countsCheck x o s
  match s.ctx? x, s.op? x o with
  | some c, some p =>
    let counted := !blkExchange p.blk || c.canopy.memberChildren.isEmpty || p.exch.countsDone
    if p.st != .opening || p.upJoin || !p.opened || !c.canopy.children.all (fun h => p.joined.getLsbD h.port) || s.opWaits x o || !counted then s
    else
      let (ok, s) := if c.storeGather p.blk then resolveGather x o s else (true, s)
      if !ok then s
      else if c.isRoot then rootJoined x o s
      else grantOp x o true (sendUpJoin x o stOk s)
  | _, _ => s

/-- An exchange FWD or COUNTS cell names an operation not yet open here: the OPNUM of the window with this OPSEQ. -/
def Ctx.opnumOf (c : Ctx) (seq : Nat) : Nat := c.windowBase + (seq + 64 - c.windowBase % 64) % 64

/-- The sixteen counts of a COUNTS cell. -/
def countsOf (c : Cell) : List Nat := (List.range 16).map (fun i => c.f (4 * i) 4)
/-- A DIR 0 COUNTS cell reaches this switch. One of an operation not yet open here goes on, and is kept for the members of this
switch until it opens (log 17). -/
def countsArrive (x q : Nat) (c : Cell) (fromAbove : Bool) (s : Sw) : Sw :=
  match s.ctx? x with
  | none => s
  | some k =>
    let blk := c.arg % 4096
    match k.opOfSeq c.opseq with
    | some (o, p) => if p.isOpen && !(blkKind p.blk == kPermute && (k.memberAt q).isSome) then joinGo x o (routeCounts x o c.member blk (countsOf c) fromAbove s) else s
    | none =>
      forwardCounts x (k.opnumOf c.opseq) c.member blk (countsOf c) fromAbove
        (if countsTurn k blk fromAbove then s.setCtx x { k with heldCells := k.heldCells ++ [(q, c)] } else s)
/-- COUNTS cells that came before operation o opened are held at its members; those of a member count in no PERMUTE. -/
def replayCounts (x o : Nat) (s : Sw) : Sw :=
  match s.ctx? x with
  | none => s
  | some k =>
    let mine (e : Nat × Cell) : Bool := e.2.tc == 5 && e.2.ctype == ctCounts && e.2.opseq == o % 64
    let s := s.setCtx x { k with heldCells := k.heldCells.filter (fun e => !mine e) }
    let perm := match s.op? x o with | some p => blkKind p.blk == kPermute | none => false
    joinGo x o (each ((k.heldCells.filter mine).filter (fun e => !(perm && (k.memberAt e.1).isSome)))
      (fun e s => takeCounts x o e.2.member (e.2.arg % 4096) (countsOf e.2) s) s)

/-! ### One JOIN (04 R128, R131, R133, R137; 05 R187) -/

/-- The format of a JOIN does not go with the formats below: no REDOP of its kinds, or not the exchange's one format (02 R76;
04 R134, R137). -/
def formatOff (p : Op) (h : Child) (j : JoinBody) : Bool :=
  let own := if h.isSwitch then j.sform else if blkKind p.blk == kBarrier then 0 else kindBit j.fmt
  kindsBad p.blk (p.sform ||| own) || (blkExchange p.blk && p.formats.any (fun e => e.2 != j.fmt))
/-- The JOIN stands: the child is joined, its format is noted, and a member receives a GRANT (04 R137). -/
def acceptJoin (x o q : Nat) (h : Child) (j : JoinBody) (s : Sw) : Sw :=
  match s.ctx? x, s.op? x o with
  | some c, some p =>
    let bar := blkKind p.blk == kBarrier
    let own := if h.isSwitch then j.sform else if bar then 0 else kindBit j.fmt
    let s := clearStall x o h.port s
    let first := p.valid == 0
    let s := s.modOp x o (fun p => { p with
      joined := setBit p.joined h.port
      valid := setBit p.valid q
      opened := true
      lastJoin := if p.joined.getLsbD h.port then p.lastJoin else s.gtc
      firstJoin := if first then s.now else p.firstJoin
      formats := if (h.isSwitch && !blkExchange p.blk) || bar then p.formats else p.formats.set q j.fmt
      sform := p.sform ||| own
      peers := if blkKind p.blk == kPermute && !h.isSwitch && !p.joined.getLsbD h.port then p.peers.set h.rankFirst j.peer else p.peers })
    if formatOff p h j then failHere x o stBad s
    else
      let s := if h.isSwitch || bar then s
        else
          let g := grantOf c o p
          let s := s.modOp x o (fun p => { p with g := g })
          match s.op? x o with
          | some p =>
            let v := max (p.grants.getD q 0) (if blkKind p.blk ≤ 4 then childGrant s x c o p q h g else 0)
            ctxCtrl x q .none (ctrlCell ctStatus x h.member o 0 (statusBody o phGrant 0 v 0 0))
              (s.modOp x o (fun p => { p with grants := p.grants.set q v }))
          | none => s
      let s := if h.isSwitch then grantOp x o false s else s
      let s := if blkKind p.blk == kPermute && !h.isSwitch && !p.joined.getLsbD h.port && blkE p.blk != 0 then
          routeCounts x o h.rankFirst (j.peer / 16) ((List.range 16).map (fun i => if i = j.peer % 16 then blkE p.blk else 0)) false s
        else s
      let s := if p.st == .joined || p.st == .committed then tellJoined x o q h s else s
      joinGo x o s
  | _, _ => s

/-- The verdict on a JOIN against the fixed block: 0, or the status with which the operation fails (04 R137). -/
def joinVerdict (s : Sw) (x : Nat) (c : Ctx) (b : BitVec 256) (q : Nat) (h : Child) (j : JoinBody) (arg : Nat) (barrier : Bool) : Nat :=
  (firstFail [
    (j.sig != blkSignature j.blk || !j.clean || blockBad s x c j.blk barrier || (!h.isSwitch && memberBad s c q j), stBad),
    (j.sig != blkSignature b, stMismatch),
    (h.isSwitch && arg % 256 != 0, arg % 256)]).getD 0

/-- Judge a JOIN of operation o from child h on port q; `backup`: the port is the child's backup. -/
def judgeJoin (x o q : Nat) (h : Child) (backup : Bool) (c0 : Cell) (s : Sw) : Sw :=
  let j := joinOf c0
  let barrier := c0.ctype == ctArrive
  match s.ctx? x with
  | none => s
  | some c =>
    let fixed := match SMap.find? o c.ops with | some p => p.blk | none => j.blk
    let v := if j.mepoch < c.canopy.mepoch then stStale else joinVerdict s x c fixed q h j c0.arg barrier
    if backup && (v != 0 || (SMap.find? o c.ops).any (fun p => formatOff p h j)) then joinReject x q o 3 s
    else
      let fresh := !c.ops.mem o
      let s := if fresh then openOp x o j.blk true s else s
      let s := if v = stMismatch && j.sig != blkSignature fixed then raiseCtx x 0x0201 (le 4 o ++ le 8 j.sig.toNat ++ cList [le 2 q]) s else s
      if v != 0 then failHere x o v s
      else
        let gatherOff := match s.op? x o with
          | some p => (match p.gather with | some g => g.first != blkB p.blk || g.count != blkE p.blk || !c.storeGather p.blk | none => false)
          | none => false
        if fresh && gatherOff then failHere x o stMismatch s
        else
          let s := acceptJoin x o q h j s
          if fresh then replayCounts x o s else s

/-- Graft holds the JOINs of a context that is to be joined, which a GRAFT_COPY has named, and is not yet READY (09 R313; DEDUCED,
log 18). -/
def Ctx.graftHolds (c : Ctx) : Bool := c.graft.scope != 0 && (c.graft.st == .copying || c.graft.st == .idle)

/-- A JOIN or BARRIER_ARRIVE reaches its context on logical port q (04 R122, R130, R131, R133, R137, R158; 06 R218). -/
def joinArrive (x q : Nat) (c0 : Cell) (s : Sw) : Sw :=
  match s.ctx? x with
  | none => s
  | some c =>
    let j := joinOf c0
    let o := blkOpnum j.blk
    let barrier := c0.ctype == ctArrive
    let hold (s : Sw) : Sw := s.modCtx x (fun c => { c with heldJoins := c.heldJoins ++ [(q, c0)] })
    match (match c.canopy.child q with | some h => some (h, false) | none => (c.canopy.primaryOf q).map (fun h => (h, true))) with
    | none => if c.awaitsCanopy q o j.mepoch then hold s else joinReject x q o 4 s
    | some (h, backup) =>
      if x == 0 && c.changePending then s
      else if c.closing then tellEnd x o q h.member stAborted barrier s
      else if c.graftHolds then hold s
      else if (match c.recanopy with | some r => decide (r.eff ≤ o) | none => false) then hold s
      else if c.canopy.mepoch < j.mepoch then hold s
      else if (match c.reshard with | some r => decide (r.eff ≤ o) | none => false) then
        s.modCtx x (fun c => { c with heldCells := c.heldCells ++ [(q, c0)] })
      else if c.windowBase + 32 ≤ o then joinReject x q o 1 (tellEnd x o q h.member stNoRes barrier s)
      else match SMap.find? o c.ops with
        | some p => if p.st == .opening || p.st == .joined || (p.isOpen && !p.valid.getLsbD q) then judgeJoin x o q h backup c0 s else s
        | none => if o < c.windowBase then joinReject x q o 1 s else judgeJoin x o q h backup c0 s

end Sys2Proof.Machine
end

