-- ==== Sys2Proof/Machine/Settle.lean ====
section
/-! DEFINITION. What follows in a context from a change in it: operations that go on, end or are freed, a pending canopy or
layout epoch that takes effect, a closing that ends (04 R122, R130, R133, R156, R158; 06 R215, R218; 09 R281, R285, R286;
01 R26; 11 R367, R372). -/
namespace Sys2Proof.Machine

/-! ### Context map entries (03 R111; 04 R121, R130, R158) -/

/-- Remove the map entries that point to context x. -/
def unmapCtx (x : Nat) (s : Sw) : Sw :=
  s.mapPorts (fun p => if p.reg.ctxMap.any (fun e => e.2 == x) then
      { p with reg := { p.reg with ctxMap := p.reg.ctxMap.filter (fun e => e.2 != x) } } else p)
/-- Write the map entries of a canopy record of context x: at each member child's MCTX, on its port and its backup's. -/
def mapCtx (x : Nat) (k : Canopy) (s : Sw) : Sw :=
  each k.memberChildren (fun h s =>
    match h.mctx with
    | some m => each (([h.port] ++ h.backup.toList).filter s.mappedPort) (fun q s => s.mapEntry q m x) s
    | none => s) s

/-! ### FREE (04 R122, R123, R158; 11 R372) -/

/-- Unbind every member port bound to job 0: the Seedling bindings end (04 R123). -/
def unbindSeedling (s : Sw) : Sw :=
  s.mapPorts (fun p => match p.reg.binding with
      | some b => if b.job = 0 then { p with reg := { p.reg with binding := none } } else p
      | none => p)

/-- The context becomes FREE: slots, anchor table, map entries and buffers are released (04 R122). -/
def freeCtx (x : Nat) (s : Sw) : Sw :=
  let s := match s.ctx? x with
    | some c => each c.destroys (fun t s => complete t stOk s) (completeOpt c.graft.tok stAborted s)
    | none => s
  let s := poolFreeCtx x (unmapCtx x s)
  let s := s.modCtxs (SMap.erase x)
  if x = 0 then (unbindSeedling s).modJob 0 (fun j => { j with implicitMap := false }) else s

/-- A CLOSING context whose last operation has ended, with its COMPLETE sent to the members here, is FREE; its CTX_DESTROYs
complete OK (04 R122, R157; DEDUCED, log 30). -/
def closeCheck (x : Nat) (s : Sw) : Sw :=
  match s.ctx? x with
  | some c => if c.closing && c.ops.all (fun e => !e.2.isOpen && e.2.once.contains (0, 0)) && c.store.isNone then freeCtx x s else s
  | none => s

/-! ### Layout epochs and canopies (01 R26; 04 R130; 06 R215, R218; 11 R367) -/

/-- The active tile list and the slot places of a context are taken anew; where the extents for its tier-1 places cannot be had, it
has SRAM places alone (01 R26; 11 R367; log 123). -/
def retile (x : Nat) (s : Sw) : Sw :=
  match s.ctx? x with
  | none => s
  | some c =>
    let tiles := s.activeTiles
    let s := poolFreeIf (fun b => b.owner == .context x && b.cls == 6) (s.setCtx x { c with tiles := tiles, lost := [], places := [] })
    match takePlaces x c.cfg.job c.cfg.slots tiles s with
    | some (pl, s) => s.modCtx x (fun c => { c with places := pl })
    | none => s.modCtx x (fun c => { c with places := (s.reservePlaces c.cfg.slots tiles).mapVals (fun p => (p.1, 0)) })

/-- Judge again the JOINs that were held (04 R130, R131; 09 R313). -/
def rejoin (x : Nat) (s : Sw) : Sw :=
  match s.ctx? x with
  | none => s
  | some c => each c.heldJoins (fun e s => joinArrive x e.1 e.2 s) (s.setCtx x { c with heldJoins := [] })

/-! ### Paths (09 R293, R294) -/

/-- Event 0x0630: 1 begin, 2 end; an alternate is in use when the path leads through another port. -/
def pathEvent (x q what : Nat) (s : Sw) : Sw :=
  raiseCtx x 0x0630 (le 2 q ++ le 1 what ++ le 1 (b2n (s.physPort x q != q))) s
/-- The path of context x to the neighbour on logical port q is disturbed: open exchanges fail (09 R293, R294). -/
def pathDisturbed (x q : Nat) (s : Sw) : Sw :=
  match s.ctx? x with
  | none => s
  | some c =>
    if c.disturbed.mem q then s
    else
      let s := s.setCtx x { c with disturbed := c.disturbed.set q s.now, cnt := { c.cnt with pathDisturb := c.cnt.pathDisturb + 1 } }
      let s := pathEvent x q 1 s
      each (c.ops.filter (fun e => e.2.isOpen && blkExchange e.2.blk)) (fun e s => failHere x e.1 stLost s) s
/-- Logical switch neighbours of context x. -/
def Ctx.neighbours (c : Ctx) : List Nat := c.canopy.ports.filter c.leadsToSwitch
/-- A parent whose port is not UP is a disturbed path from the start (04 R126). -/
def parentCheck (x : Nat) (s : Sw) : Sw :=
  match s.ctx? x with
  | none => s
  | some c => (match c.canopy.parent with
      | some q => if s.up (s.physPort x q) then s else pathDisturbed x q s
      | none => s)

/-- A pending canopy takes effect once every operation below EFFECTIVE_OPNUM has completed (04 R130). -/
def recanopyCheck (x : Nat) (s : Sw) : Sw :=
  match s.ctx? x with
  | none => s
  | some c =>
    match c.recanopy with
    | none => s
    | some r =>
      if c.windowBase < r.eff then s
      else
        let old := c.canopy.mepoch
        let s := unmapCtx x s
        let s := s.modCtx x (fun c =>
          let c := { c with canopy := r.canopy, recanopy := none }
          { c with disturbed := c.disturbed.keep c.neighbours.contains, waiting := c.waiting.filter (fun e => c.neighbours.contains e.1) })
        let s := parentCheck x (mapCtx x r.canopy s)
        let s := each r.canopy.memberChildren (sendBound x) s
        rejoin x (raiseCtx x 0x0208 (le 4 old ++ le 4 r.canopy.mepoch) s)

/-- A re-shard with every image moved is done: the new layout epoch begins (06 R215, R218). -/
def reshardCheck (x : Nat) (s : Sw) : Sw :=
  match s.ctx? x with
  | none => s
  | some c =>
    match c.reshard with
    | none => s
    | some r =>
      if !r.moving || !r.outgoing.isEmpty || !r.incoming.vals.all (fun i => i.done) then s
      else
        let e := (c.lepochs.headD (0, 0)).1 + 1
        let held := c.heldCells.filter (fun e => e.2.tc == 5 && e.2.ctype != ctCounts)
        let s := each (mirrorsLeft c r.shards) (emptyShard x) s
        let rest := c.heldCells.filter (fun e => !(e.2.tc == 5 && e.2.ctype != ctCounts))
        let s := s.modCtx x (fun c =>
          let k := { c.canopy with shards := r.shards }
          { c with reshard := none, lepochs := (e, r.eff) :: c.lepochs, oldShards := c.canopy.shards, heldCells := rest, canopy := k })
        let s := retile x s
        let s := raiseCtx x 0x0406 (le 4 e ++ le 4 r.incoming.length ++ le 4 r.moved.length) s
        each held (fun h s => joinArrive x h.1 h.2 s) s

/-! ### Operations -/

/-- Free the records of ended operations that the window has left, and their buffers (04 R156; 09 R281). -/
def freeRecords (x : Nat) (s : Sw) : Sw :=
  match s.ctx? x with
  | none => s
  | some c =>
    let gone := (c.ops.filter (fun e => decide (e.1 + 31 < c.windowBase) && !e.2.isOpen)).map Prod.fst
    if gone.isEmpty then s
    else each gone (fun o s => poolFreeOp x o s) (s.setCtx x { c with ops := c.ops.keep (fun o => !gone.contains o) })

/-- An open operation needs the child on port q: its JOIN, a contribution, or to send it a result (04 R153). -/
def needsChild (s : Sw) (c : Ctx) (o : Nat) (p : Op) (q : Nat) : Bool :=
  !p.joined.getLsbD q || p.st == .opening || blkExchange p.blk ||
    (List.range (cellsOf p.blk)).any (fun k =>
      ((expected c p.blk k).contains q && !inSet p.cbits k && !taken c o p q k) ||
        ((targets c p.blk k).contains q && !leftAll s c p q k (k + 1)))
/-- Some grid cell of an open operation goes up on port q. -/
def risesOn (c : Ctx) (p : Op) (q : Nat) : Bool := (List.range (cellsOf p.blk)).any (fun k => upPort c p.blk k == some q)
/-- An open operation still needs the path to the parent. -/
def needsParent (c : Ctx) (p : Op) : Bool :=
  p.st != .committed || c.storeReduction p.blk || c.storeGather p.blk || blkExchange p.blk ||
    (List.range (cellsOf p.blk)).any (fun k => !(targets c p.blk k).isEmpty && !inSet p.rbits k)
/-- The neighbour that an open operation needs and that has been gone for LOSS_MS with no backup standing in: its port, its
rank, and whether this switch itself tells its children the end (04 R153; 09 R293). -/
def needsGone (s : Sw) (c : Ctx) (o : Nat) (p : Op) : Option (Nat × Nat × Bool) :=
  if c.gone.isEmpty then none
  else match c.canopy.children.find? (fun h => c.gone.contains h.port && !backed s c h.port &&
      (needsChild s c o p h.port || (h.isSwitch && risesOn c p h.port))) with
    | some h => some (h.port, h.rankFirst, p.st == .committed)
    | none => match c.canopy.parent with
      | some u => if c.gone.contains u && needsParent c p then some (u, noMember, true) else none
      | none => none
/-- An open operation depends on a logical tile that left service with no spare: a port of the tile that leads to a child it
needs, its home tile, or the slot of a grid cell not yet complete. Answers what event 0x0207 names: the child's port and rank, or
the first port of the tile and no rank (01 R26; 04 R153; DESIGN CHOICE, log 112). -/
def onLostTile (s : Sw) (x : Nat) (c : Ctx) (o : Nat) (p : Op) : Option (Nat × Nat) :=
  if c.lost.isEmpty then none
  else match c.canopy.children.find? (fun h => c.lost.contains (h.port / 4) && !s.inService (h.port / 4) && needsChild s c o p h.port) with
  | some h => some (h.port, h.rankFirst)
  | none =>
    let home := homeTile c.tiles x
    if c.lost.contains home then some (4 * home, noMember)
    else ((List.range (cellsOf p.blk)).find? (fun k =>
        !inSet p.cbits k && passes c p.blk k && c.lost.contains (slotTile c.tiles x k))).map
      (fun k => (4 * slotTile c.tiles x k, noMember))
/-- An operation on the grid needs an anchor entry that both tier-1 copies have lost (11 R389). -/
def needsLostAnchor (c : Ctx) (o : Nat) (p : Op) : Bool :=
  c.mode p == .grid && c.anchorLost.any (fun e => decide (e.2 ≤ o) && coversSeg c p.blk e.1)
/-- Each open operation goes on as far as it can; an ended one reports DELIVERED when it may. -/
def settleOps (x : Nat) (s : Sw) : Sw :=
  match s.ctx? x with
  | none => s
  | some c => each c.ops.keys (fun o s =>
      match s.op? x o with
      | none => s
      | some p =>
        if !p.isOpen then deliveredCheck x o s
        else if blkExchange p.blk && !c.disturbed.isEmpty then failOp x o stLost (p.st == .committed) s
        else if needsLostAnchor c o p then failOp x o stLost (p.st == .committed) s
        else match onLostTile s x c o p with
        | some (q, rank) => failOp x o stLost (p.st == .committed) (raiseCtx x 0x0207 (le 4 o ++ le 2 q ++ le 2 rank) s)
        | none =>
          match needsGone s c o p with
          | some (q, rank, down) => failOp x o stLost down (raiseCtx x 0x0207 (le 4 o ++ le 2 q ++ le 2 rank) s)
          | none =>
            if p.st == .opening then joinGo x o (progress x o s)
            else deliveredCheck x o (exchCheck x o (progress x o s))) s

/-- A source sends the anchor tables it owes (09 R316). -/
def graftServe (x : Nat) (s : Sw) : Sw :=
  match s.ctx? x with
  | some c => if c.graft.serving.isEmpty then s else serveAnchors x (fun f => decide (f ≤ c.windowBase)) s
  | none => s

/-- What follows in context x from a change in it. -/
def settle (x : Nat) (s : Sw) : Sw :=
  let s := settleOps x s
  let s := reshardCheck x (recanopyCheck x s)
  let s := settleOps x s
  let s := graftServe x (releaseCheck x s)
  let s := snapCtx x (grantCtx x false s)
  closeCheck x (freeRecords x s)

/-- The same for every context. -/
def settleAll (s : Sw) : Sw := each s.ctxs.keys settle s

end Sys2Proof.Machine
end

