-- ==== Sys2Proof/Machine/Recover.lean ====
section
/-! DEFINITION. Re-injection, delivery again from retention, and paths that are disturbed and return (04 R128, R129, R151,
R153, R158; 06 R197; 09 R283, R288 to R295; 10 R349). -/
namespace Sys2Proof.Machine

/-! ### Delivery again from retention (09 R288, R290, R292) -/

/-- Windows of a sparse member that grid cells of a set touch, sent again (08 R266; 09 R288). -/
def sparseResend (x o q : Nat) (h : Child) (set : Nat) (s : Sw) : Sw :=
  match s.ctx? x, s.op? x o with
  | some c, some p =>
    let (first, len) := resultPart c p.blk h.rankFirst
    let t := p.sparseOut.getD q {}
    let total := (len + 255) / 256
    let ents (w : Nat) : List (Nat × Nat) := (t.entries.filter (fun e => decide (256 * w ≤ e.1) && decide (e.1 < 256 * (w + 1)))).map
      (fun e => (e.1 - 256 * w, e.2))
    let touched (w : Nat) : Bool := (span ((first + 256 * w) / 32) 8).any (fun k => inSet set k)
    let sent := p.sentTo.getD q 0
    let held := match t.held with | some (w, _) => [w] | none => []
    let lastW := if t.next < total then total
      else ((List.range total).filter (fun w => !(ents w).isEmpty)).getLastD (total - 1)
    let ws := (List.range total).filter (fun w => touched w && decide (w < t.next) && !held.contains w && inSet sent w &&
      (!(ents w).isEmpty || w == lastW))
    each ws (fun w s =>
      let cells := if (ents w).isEmpty then [word64 [0, 0]] else windowCells (elemBits (p.format q) / 8) (payBytes (s.pers q)) (ents w)
      sendWindow x o q h w cells (w == lastW) false s) s
  | _, _ => s
/-- Send the kept records of a set of grid cells again toward port q (09 R290, R292). -/
def resend (x o q set : Nat) (s : Sw) : Sw :=
  match s.ctx? x, s.op? x o with
  | some c, some p =>
    let ks := ((p.retained.filter (fun e => e.2.kept)).map Prod.fst).filter (fun k => inSet set k && (targets c p.blk k).contains q)
    let cells := ks.filterMap (fun k => (retainedPart c p k).map (fun part => (k, part)))
    let s := s.modCtx x (fun c => { c with cnt := { c.cnt with resultResent := c.cnt.resultResent + BitVec.ofNat 64 cells.length } })
    (match c.memberAt q with
     | some h => if p.sparse then sparseResend x o q h set s else emit x o cells (some q) false s
     | none => emit x o cells (some q) false s)
  | _, _ => s
/-- A retained record none of whose cells is still owed is delivered: the result cells it makes for member q have left, and
none of them is unacknowledged (09 R285). -/
def undelivered (s : Sw) (c : Ctx) (x o : Nat) (p : Op) (q k : Nat) : Bool :=
  let pt := s.port (s.physPort x q)
  let us := resultRange s c p q k (k + 1)
  let owed (m : Mark) : Bool := match m with
    | .result a b r first count => a == x && b == o && r == q && us.any (fun u => decide (first ≤ u) && decide (u < first + count))
    | _ => false
  !us.isEmpty && (!us.all (fun u => inSet (p.sentTo.getD q 0) u) || pt.q.txq.any (fun i => owed i.mark) ||
    pt.link.replayBuf.any (fun f => f.marks.any owed))

/-! ### Paths of a context (09 R290, R293, R294; 10 R349) -/

/-- The path is back in service: the cells that waited go, and what the disturbance may have lost is asked for again
(09 R290, R293). -/
def pathReturns (x q : Nat) (s : Sw) : Sw :=
  match s.ctx? x with
  | none => s
  | some c =>
    if !c.disturbed.mem q then s
    else
      let s := s.setCtx x { c with disturbed := c.disturbed.erase q, gone := c.gone.filter (· != q), waiting := c.waiting.filter (fun e => e.1 != q) }
      let s := pathEvent x q 2 s
      let s := each (c.waiting.filter (fun e => e.1 == q)) (fun e s => ctxSend x q [e.2] s) s
      let lost (c : Ctx) (p : Op) (k : Nat) : Bool :=
        inSet p.cbits k && upPort c p.blk k == some q && ((targets c p.blk k).isEmpty || !inSet p.rbits k)
      let results := (c.ops.filter (fun e => e.2.isOpen)).map (fun e =>
        (e.1, cellSet e.2 (fun k => lost c e.2 k && !(targets c e.2.blk k).isEmpty), cellsOf e.2.blk))
      let s := trigger x 0 q none (fun c _ p => cellSet p (lost c p)) s
      each results (fun e s => each (runsOf e.2.1 e.2.2) (fun r s =>
        ctxCtrl x q .none (reinjectCell x e.1 noMember 1 r.1 r.2 0) s) s) s

/-- Look at every path of context x: one whose port is UP again, or has an alternate that is UP, returns (09 R293). -/
def pathCheck (x : Nat) (s : Sw) : Sw :=
  match s.ctx? x with
  | none => s
  | some c => each c.disturbed.keys (fun q s => if s.up (s.physPort x q) then pathReturns x q s else s) s

/-! ### A port leaves UP, or enters it (04 R129, R151, R158; 06 R197; 09 R290, R293) -/

/-- What a context feels when port n leaves UP. -/
def ctxPortDown (n x : Nat) (s : Sw) : Sw :=
  match s.ctx? x with
  | none => s
  | some c =>
    let s := each (c.neighbours.filter (fun q => s.physPort x q == n)) (pathDisturbed x) s
    -- the backup's copies may be taken from now on (04 R151)
    let s := match c.memberAt n with
      | some h => each (c.ops.filter (fun e => e.2.isOpen)) (fun e s =>
          each (List.range (cellsOf e.2.blk)) (fun k s => takeBackup x e.1 k h s) (s)) s
      | none => s
    -- a mirror port down: the owner goes on alone (06 R197)
    let s := match c.store with
      | some t =>
        let mine := (List.range c.canopy.shards.length).filter (fun k => match c.canopy.shard k with
          | some e => e.srole == 1 && e.mirror == some n
          | none => false)
        let s := if mine.isEmpty then s else s.modCtx x (fun c => { c with
          ops := c.ops.mapVals (fun p => if p.isOpen then { p with unmirrored := dedup (p.unmirrored ++ [n]) } else p) })
        if mine.isEmpty || t.mirrorDown.contains n then s
        else each mine (fun k => raiseCtx x 0x040A (le 4 k ++ le 2 n)) (s.modStore x (fun t => { t with mirrorDown := t.mirrorDown ++ [n] }))
      | none => s
    let s := if x = 0 && s.isMember n then s.modCtx 0 (fun c => { c with changePending := true }) else s
    -- the source of a copy is gone (09 R313)
    let s := if s.physPort x c.graft.src == n then copyTimeout x s else s
    settle x s
/-- What a context feels when port n enters UP. -/
def ctxPortUp (n x : Nat) (s : Sw) : Sw :=
  let s := pathCheck x s
  let s := s.modCtx x (fun c => if (c.memberAt n).isSome then { c with gone := c.gone.filter (· != n) } else c)
  match s.ctx? x with
  | none => s
  | some c =>
    let s := each (movesOn s x n) (moveImage x) s
    let child := match c.memberAt n with | some h => some h | none => c.canopy.primaryOf n
    let s := match child with | some h => sendBound x h s | none => s
    let s := match c.memberAt n with
      | some _ =>
        let s := trigger x 4 n (some n) (fun c o p => cellSet p (fun k =>
          !inSet p.cbits k && (expected c p.blk k).contains n && !taken c o p n k)) s
        each (c.ops.filter (fun e => e.2.isOpen)) (fun e s =>
          resend x e.1 n (cellSet e.2 (fun k => undelivered s c x e.1 e.2 n k)) s) s
      | none => s
    settle x s
/-- Every context, when port n leaves UP. -/
def portDownCtxs (n : Nat) (s : Sw) : Sw := each s.ctxs.keys (ctxPortDown n) s
/-- Every context, when port n enters UP; a member port is a change for context 0 (04 R158). -/
def portUpCtxs (n : Nat) (s : Sw) : Sw :=
  let s := each s.ctxs.keys (ctxPortUp n) s
  if s.isMember n then s.modCtx 0 (fun c => { c with changePending := true }) else s

/-- COMPLETE with MEMBER_LOST toward the members below child h (09 R292, R293). -/
def tellLost (x o : Nat) (h : Child) (s : Sw) : Sw :=
  tellEnd x o h.port h.member stLost (match s.op? x o with | some p => blkKind p.blk == kBarrier | none => false) s

end Sys2Proof.Machine
end

