-- ==== Sys2Proof/Machine/Flip.lean ====
section
/-! DEFINITION. Route epochs: EPOCH cells, flips and what they do to canopy paths (10 R332, R345 to R351). -/
namespace Sys2Proof.Machine

/-- An EPOCH cell (10 R348): kind 0 FLIP, 1 ANNOUNCE. -/
def epochCell (gen kind cause version : Nat) (fgtc lostId : Quad) (rank lflags : Nat) : Cell :=
  ctrlCell ctEpoch 0 noMember 0 0 (le 4 gen ++ le 1 kind ++ le 1 cause ++ le 2 version ++ le 8 fgtc.toNat ++ le 8 lostId.toNat ++
    le 2 rank ++ le 1 lflags)
/-- ANNOUNCE on switch port n (10 R348). -/
def announceOn (n : Nat) (s : Sw) : Sw :=
  let e := s.fab.ranks.getD n {}
  if s.up n && s.isSwitch n then sendCtrl n (epochCell s.fab.gen 1 0 0 0 0 e.out (b2n e.dlOut)) s else s
/-- ANNOUNCE on every UP switch port. -/
def announceAll (s : Sw) : Sw := each s.upSwitches announceOn s
/-- The version that is ARMED. -/
def Sw.armed (s : Sw) : Option Nat := if s.fab.v0.st == .armed then some 0 else if s.fab.v1.st == .armed then some 1 else none
/-- Content of event 0x0720 (10 R365): the trigger port or source is a port, or 0xFFFF for a descriptor. -/
def flipContent (old new gen cause : Nat) (lostId : Quad) (src : Nat) (adopted : Bool) : List Byte :=
  le 4 old ++ le 4 new ++ le 4 gen ++ le 1 cause ++ le 8 lostId.toNat ++ le 2 src ++ le 1 (b2n adopted)

/-- Open exchanges of context x fail at a flip (10 R350). -/
def flipExchanges (x : Nat) (s : Sw) : Sw :=
  match s.ctx? x with
  | none => s
  | some c => each (c.ops.filter (fun e => e.2.isOpen && blkExchange e.2.blk)) (fun e s => failHere x e.1 stLost s) s
/-- What a flip does to context x: a flip for a loss disturbs every canopy path (10 R350). -/
def flipCtx (loss : Bool) (x : Nat) (s : Sw) : Sw :=
  match s.ctx? x with
  | none => s
  | some c =>
    let s := if loss && !c.closing then each c.neighbours (pathDisturbed x) s else s
    settle x (pathCheck x (flipExchanges x s))

/-- The ARMED version becomes ACTIVE (10 R345, R346). `src`: the trigger port or the port of the EPOCH cell, 0xFFFF for a
descriptor. -/
def flip (src cause : Nat) (lostId fgtc : Quad) (noprop : Bool) (s : Sw) : Sw :=
  match s.armed with
  | none => s
  | some v =>
    let gen := s.fab.armedGen
    let old := s.fab.epoch
    let s := (s.modVer v (fun r => { r with st := .active })).modVer (1 - v) (fun r =>
      { r with st := if r.st == .active then .draining else r.st })
    let waits := s.fab.flip
    let s := s.modFab (fun f => { f with epoch := v, gen := gen, armedGen := 0, trigger := 0, flip := none, adopted := f.adopted.set gen (v, cause, lostId, src) })
    let s := raiseSys 0x0720 (flipContent old v gen cause lostId src false) s
    let s := if noprop then s else each s.upSwitches (fun n s =>
        let e := s.fab.ranks.getD n {}
        sendCtrl n (epochCell gen 0 cause v fgtc lostId e.out (b2n e.dlOut)) s) s
    let s := announceAll s
    let s := match waits with | some w => completeOpt w.tok stOk s | none => s
    each s.ctxs.keys (flipCtx (cause == 1)) s
/-- A port of the trigger mask has left UP (10 R346). -/
def flipOnLoss (n : Nat) (s : Sw) : Sw :=
  if s.armed.isSome && s.fab.trigger.getLsbD n then flip n 1 (s.port n).reg.partnerId 0 false s else s

end Sys2Proof.Machine
end

