-- ==== Sys2Proof/Machine/Link.lean ====
section
/-! DEFINITION. The port layer: states of a port and what their changes entail, credits, identity, splits (03 R83 to R97, R101,
R105 to R107, R114 to R118; 05 R166; 10 R331, R349; 13 R443, R450; 14 R475; 16 R517 to R520; 18 R553, R554). -/
namespace Sys2Proof.Machine

/-! ### Lanes of a port -/

/-- Change every lane of port n. -/
def modLanes (n : Nat) (f : Lane → Lane) (s : Sw) : Sw := each (s.lanesOf n) (fun l => Sw.modLane l f) s
/-- The engine of lane l is dark (13 R458). Engine e serves four four-lane ports, 16 lanes. -/
def Sw.laneDark (s : Sw) (l : Nat) : Bool := (s.engine (l / 16)).dark
/-- A lane goes IDLE: its transmitter stops (13 R443). -/
def Lane.idle (l : Lane) : Lane :=
  { l with state := if l.state == .test then .test else .idle, rate := 0, rxReady := false, partnerReady := false, finish := (0, 0), pulse := none }
/-- The test fields GEN_EN, CHK_EN and LOOPBACK are cleared (13 R443, R454). -/
def LaneTest.clear (t : LaneTest) : LaneTest := { t with genEn := false, chkEn := false, loopback := 0, chkLocked := false }
/-- A lane leaves TEST with its test fields cleared (13 R443, R454). -/
def Lane.testOver (l : Lane) : Lane := { l with state := if l.state == .test then .idle else l.state, test := l.test.clear }
/-- A lane searches (13 R443). -/
def Lane.toSearch (rate : Nat) (l : Lane) : Lane :=
  { l with state := .search, txRate := rate, rate := 0, rxReady := false, partnerReady := false, finish := (0, 0), test := l.test.clear }

/-! ### Allowed rates (03 R86, R105) -/

/-- The rates that ALLOW permits, highest first: 3 FL3, 2 FL2, 1 FL1. -/
def allowedRates (a : BitVec 3) : List Nat := [3, 2, 1].filter (fun r => a.getLsbD (r - 1))

/-! ### Credits (03 R95; 10 R331; 18 R554) -/

/-- Receive cells of a port of k lanes on each channel. -/
def creditCells (units : List Nat) (k : Nat) : List Nat := (units.map (fun u => u * 16 * k / 4)) ++ List.replicate (16 - units.length) 0
/-- Turnaround of both port layers, ns (03 R94). -/
def turnaround (pers : Nat) : Nat := match pers with | 3 => 161 | 2 => 226 | _ => 341
/-- The replay timeout, ns (03 R92). -/
def replayTimeoutNs (rtt : Nat) : Nat := max 2000 (2 * rtt + 1000)
/-- Frames of the replay buffer of a port (03 R90). -/
def Sw.replayCap (s : Sw) (n : Nat) : Nat := 2048 / max 1 (s.portsPresent (n / 4)).length

/-! ### LINK_ID and LINK_DOWN (03 R101, R116; 16 R517) -/

/-- LANE_INDEX of the LINK_ID that port n sends, by its first lane: in the AUTO trial the lane's position in the four-lane port,
else in the port itself (03 R85, R101; DEDUCED, log 125). -/
def Sw.laneIndex (s : Sw) (n : Nat) : Nat :=
  let d := s.quad (n / 4)
  if d.splitNow = 0 && d.splitActive = 0 then n % 4 else 0
/-- The LINK_ID of port n with a fresh NONCE. -/
def linkIdCell (s : Sw) (n : Nat) (nonce : Half) : Cell :=
  let r := (s.port n).reg
  let fields := le 8 Config.deviceId.toNat ++ le 1 2 ++ le 1 r.detected ++ le 1 (s.laneIndex n) ++ le 1 r.lanes.2 ++ le 1 s.glb.level ++
    le 1 3 ++ le 1 2 ++ le 1 s.time.active ++ le 2 n ++ le 2 nonce.toNat ++ le 2 (s.port n).link.rxNonce.toNat ++
    le 2 (b2n (s.port n).sec.modeNow) ++ ((creditCells r.vcNow r.lanes.2).map (le 2)).flatten
  { hdr := ctrlHdr ctLinkId 0 0 noMember 0 0, pay := word64 fields }
/-- A port-layer cell of a port that is not UP: it is sent in a frame of its own at once. -/
def pushPortLayer (n : Nat) (c : Cell) (s : Sw) : Sw :=
  pushTx n { cell := c, vc := 8, cls := .portLayer, unitLen := 1, src := selfPort, moved := false, mark := .none } s
/-- A NONCE drawn as v, moved on past 0 and past every NONCE still kept: 0 echoes none (03 R101, R106). -/
def freshNonce (v : Half) (kept : List (Half × Nat)) : Half :=
  ((List.range (kept.length + 2)).map (fun k => v + BitVec.ofNat 16 k)).find? (fun w => w != 0 && !kept.any (fun e => e.1 == w)) |>.getD v
/-- Send a LINK_ID on port n; its NONCE is a fresh free value, remembered 10 ms (03 R101). -/
def sendLinkId (n : Nat) (s : Sw) : Sw :=
  let (v, s) := s.draw
  let nonce := freshNonce (v.setWidth 16) (s.port n).link.nonces
  let c := linkIdCell s n nonce
  let c := if s.pers n = 1 then fl3ToFl1 c 0 else c
  let now := s.now
  pushPortLayer n c (s.modLink n (fun l => { l with nonces := (l.nonces.filter (fun e => decide (now - e.2 ≤ 10 * ms))) ++ [(nonce, now)] }))
/-- LINK_DOWN with a reason is owed in the next three frames (03 R116). -/
def owesLinkDown (n reason : Nat) (s : Sw) : Sw := s.modLink n (fun l => { l with linkDown := some (3, reason) })

/-! ### Leaving UP (03 R107; 09 R285; 10 R349) -/

/-- The result cells that a mark stands for have not reached child: they count as not sent, and for an ended operation they
stay unacknowledged (09 R285). `sent`: the cell had left. -/
def lostMark (sent : Bool) (m : Mark) (s : Sw) : Sw :=
  let never (x o q : Nat) (s : Sw) : Sw := s.modOp x o (fun p =>
    if p.isOpen then p else { p with once := if p.once.contains (1, q) then p.once else p.once ++ [(1, q)] })
  match m with
  | .none => s
  | .upRecord x o k n =>
    if sent then s
    else s.modCtx x (fun c => (span k n).foldl (fun c k => { c with slots := c.slots.adjust (slotKey o k) (fun t => { t with sst := 2 }) }) c)
  | .result x o q a n => never x o q (s.modOp x o (fun p => { p with sentTo := p.sentTo.set q (diffSet (p.sentTo.getD q 0) (rangeSet a n)) }))
  | .complete x o q => never x o q s

/-- Cells and frames of port n are lost as it leaves UP (03 R107; 10 R349). Answers how many frames were unacknowledged. -/
def dropQueues (n : Nat) (s : Sw) : Nat × Sw :=
  let q := (s.port n).q
  let l := (s.port n).link
  let items := (q.txq ++ q.spill).filter (fun i => i.cls != .portLayer)
  let s := s.modQ n (fun q => { q with txq := [], spill := [], stalled := [], limiters := [], asm := [], drawn := [], placed := 0, scaled := none })
  let s := s.modLink n (fun l => { l with replayBuf := [], resend := 0, txCredit := List.replicate 16 0, nakDue := false, nakDone := false })
  let s := s.modCnt n (fun k => { k with dropLost := k.dropLost + BitVec.ofNat 32 items.length })
  let s := each items (fun i => lostMark false i.mark) s
  let s := each l.replayBuf (fun f s => each f.marks (lostMark true) s) s
  (l.replayBuf.length, raiseSys 0x0729 (le 2 n ++ le 4 items.length) s)

/-- Port n leaves UP: the consequences that do not depend on the state it goes to. Answers the frames dropped. -/
def leaveUp (n : Nat) (s : Sw) : Nat × Sw :=
  let (frames, s) := dropQueues n s
  let s := s.modReg n (fun r => { r with hbLog2 := 0 })
  let s := s.modPSec n (fun p => { p with engaged := false })
  let s := flipOnLoss n s
  let s := dropAnnounce n 3 s
  (frames, portDownCtxs n s)

/-- Entry to a state of port n at this instant. -/
def setPortSt (n : Nat) (st : PortSt) (s : Sw) : Sw :=
  let now := s.now
  (s.modReg n (fun r => { r with state := st })).modLink n (fun l => { l with since := now })

/-- Port n goes to SEARCH: SPLIT and ALLOW written meanwhile take effect. With ADMIN_UP 0, or with an ALLOW of 0 that counts as
that, it is DISABLED instead (03 R86, R107; 16 R517). -/
def toSearch (n : Nat) (s : Sw) : Sw :=
  let s := s.modReg n (fun r => { r with allowNow := r.allow })
  let s := s.modPSec n (fun p => { p with modeNow := p.mode })
  if (s.port n).reg.allow = 0 || !(s.port n).reg.adminUp then
    modLanes n Lane.idle ((setPortSt n .disabled s).modLink n (fun l => { l with txOn := l.linkDown.isSome }))
  else
    let s := (setPortSt n .search s).modLink n (fun l => { l with txOn := true })
    let rate := (allowedRates (s.port n).reg.allow).headD 3
    each (s.lanesOf n) (fun l s => s.modLane l (fun x => if s.laneDark l then x.testOver.idle else x.toSearch rate)) s

/-- Under AUTO the choice of a split ends when no port of the four-lane port is in IDENTIFY or UP: its lanes are one-lane ports
again. A port in LOST stays there for its 1 ms; a port of a logical tile out of service is out of service (03 R85, R107; log 116). -/
def splitClear (q : Nat) (s : Sw) : Sw :=
  let d := s.quad q
  if d.splitNow != 0 || d.splitActive = 0 || (s.portsPresent q).any (fun n => (s.port n).reg.state == .identify || (s.port n).reg.state == .up) then s
  else
    let s := s.modQuad q (fun d => { d with splitActive := 0, ident := [], darkSet := 0, failedTrial := false })
    each (span (4 * q) 4) (fun n s =>
      let st := (s.port n).reg.state
      let s := s.modReg n (fun r => { r with lanes := (n % 4, 1) })
      if st == .disabled || st == .outOfService || st == .lost then s
      else if !s.inService q then setPortSt n .outOfService ((modLanes n Lane.idle s).modLink n (fun l => { l with txOn := false }))
      else toSearch n s) s

/-- Port n goes from UP to LOST (03 R107): `down` is the reason of a LINK_DOWN it sends. -/
def toLost (n reason : Nat) (partner : Option Nat) (down : Option Nat) (s : Sw) : Sw :=
  if !s.up n then s
  else
    let s := setPortSt n .lost s
    let s := s.modReg n (fun r => { r with lostReason := reason, partnerReason := partner.getD r.partnerReason })
    let (frames, s) := leaveUp n s
    let s := match down with | some d => owesLinkDown n d s | none => s
    let s := raiseSys 0x0701 (le 2 n ++ le 1 reason ++ le 1 (partner.getD 0) ++ le 4 frames) s
    splitClear (n / 4) s

/-- Port n becomes DISABLED, ABSENT or OUT_OF_SERVICE; when it was UP it sends LINK_DOWN first and loses what LOST loses.
`lost`: the reason of an entry to LOST, 0 where the table names none (03 R107). -/
def toDark (n : Nat) (st : PortSt) (reason : Nat) (lost : Nat) (s : Sw) : Sw :=
  let was := s.up n
  let s := setPortSt n st s
  let s := if was then
      let (frames, s) := leaveUp n s
      let s := owesLinkDown n reason s
      if lost = 0 then s
      else raiseSys 0x0701 (le 2 n ++ le 1 lost ++ le 1 0 ++ le 4 frames) (s.modReg n (fun r => { r with lostReason := lost }))
    else s
  let s := modLanes n Lane.idle s
  let s := s.modLink n (fun l => { l with txOn := was })
  splitClear (n / 4) s

/-! ### Entering UP (03 R106, R107; 16 R517) -/

/-- Port n enters UP on an accepted LINK_ID. -/
def toUp (n : Nat) (c : Cell) (rtt : Nat) (s : Sw) : Sw :=
  let id := c.q 0
  let role := c.f 8 1
  let old := (s.port n).reg.lastUpId
  let s := setPortSt n .up s
  let s := s.modReg n (fun r => { r with
    partnerRole := role, partnerId := id, lastUpId := some id, partnerPort := c.f 16 2, partnerLevel := c.f 12 1 % 16,
    partnerPeriod := c.f 15 1 % 16, partnerCminor := c.f 14 1, rtt := rtt % 2 ^ 24, hbLog2 := max (c.f 15 1) s.time.active })
  let units := (s.port n).reg.vcNow
  let k := (s.port n).reg.lanes.2
  let s := s.modLink n (fun l => { l with
    txSeq := 0, rxExpect := 0, nakDue := false, nakDone := false, replayBuf := [], resend := 0
    txCredit := (List.range 16).map (fun v => c.f (24 + 2 * v) 2), freedSeen := List.replicate 16 0
    rxCredit := creditCells units k, freed := List.replicate 16 0, freedNew := List.replicate 16 0, paced := []
    alive := true, deadPeriods := 0, sentCell := false, linkDown := none })
  let s := s.modPSec n (fun p => { p with engaged := p.modeNow, failRun := 0 })
  let s := s.modQ n (fun q => { q with rxq := [], txq := q.txq.filter (fun i => i.cls == .portLayer) })
  let s := if (s.port n).sec.engaged then raiseHeld 0x0C10 (le 2 n ++ le 1 (s.port n).sec.txSlot) s else s
  let s := raiseSys 0x0700 (le 2 n ++ le 1 (s.pers n) ++ le 1 role ++ le 8 id.toNat ++ le 8 rtt) s
  let s := modLanes n (fun l => { l with conv := some (id, l.rate, l.taps) }) s
  let s := match old with
    | some o =>
      if o != id then
        each (s.lanesOf n) (fun l s => wearRestart (48 + l) 2 s) (raiseSys 0x0704 (le 2 n ++ le 8 o.toNat ++ le 8 id.toNat) s)
      else s
    | none => s
  let s := sendLinkId n s
  let s := announceOn n s
  let s := if role = 1 && s.glb.firstMemberUp.isNone then s.modGlb (fun g => { g with firstMemberUp := some s.now }) else s
  portUpCtxs n s

/-- Port n enters IDENTIFY: its credit division and the declared spread are taken and a LINK_ID is sent (03 R107; 13 R442; 18 R554). -/
def toIdentify (n : Nat) (s : Sw) : Sw :=
  let d := s.glb.ssc
  sendLinkId n ((setPortSt n .identify s).modReg n (fun r => { r with vcNow := r.vcCredit, ssc := d }))

/-! ### Splits (03 R84, R85) -/

/-- Ports of four-lane port q under a mode, with their lanes. -/
def splitPorts (q mode : Nat) : List (Nat × Nat × Nat) :=
  match mode with
  | 1 => [(4 * q, 0, 4)]
  | 2 => [(4 * q, 0, 2), (4 * q + 2, 2, 2)]
  | _ => (List.range 4).map (fun j => (4 * q + j, j, 1))
/-- Every port of q takes the form of a mode, the ports it removes first (03 R84, R107): `identify` holds the lanes whose ports
identify at once, each lane staying in DATA (13 R444). -/
def applySplit (q mode : Nat) (identify : List Nat) (s : Sw) : Sw :=
  let ps := splitPorts q mode
  let s := each (span (4 * q) 4) (fun n s =>
    if ps.any (fun e => e.1 == n) || (s.port n).reg.state == .absent then s
    else if (s.port n).reg.state == .up then toDark n .absent 0 5 s
    else (setPortSt n .absent s).modLink n (fun l => { l with txOn := false })) s
  let s := each ps (fun e s =>
    let n := e.1
    let st := (s.port n).reg.state
    let s := if st == .up then (toDark n .search 0 5 s) else s
    let s := s.modReg n (fun r => { r with lanes := e.2 })
    if st == .disabled || st == .outOfService then modLanes n Lane.idle s
    else if identify.any (fun l => decide (e.2.1 ≤ l) && decide (l < e.2.1 + e.2.2)) then toIdentify n s
    else toSearch n s) s
  let s := if (s.quad q).lastMode != 0 && (s.quad q).lastMode != mode then
      each (span (4 * q) 4) (fun l s => wearRestart (48 + l) 3 s) s
    else s
  s.modQuad q (fun d => { d with splitActive := mode, lastMode := mode, darkSet := 0, failedTrial := false })
/-- Event 0x0708: the port 4q, the four-lane port, and its lanes' DEVICE_ID and LANE_INDEX, at most once per second (03 R85, R118). -/
def splitEvent (q : Nat) (s : Sw) : Sw :=
  let lanes := (List.range 4).map (fun j =>
    let e := (s.quad q).ident.getD j (0, 0)
    le 8 e.1.toNat ++ le 1 e.2)
  s.limited 0x0708 q (1000 * ms) (raiseSys 0x0708 (le 2 (4 * q) ++ le 2 q ++ cList lanes))
/-- A lane of q counts as dark (03 R85). -/
def Sw.splitDark (s : Sw) (q j : Nat) : Bool := !(s.quad q).ident.mem j && ((s.lane (4 * q + j)).los || (s.quad q).darkSet.getLsbD j)
/-- The group of lanes a to a + k − 1 passes, given that it is not all dark (03 R85). -/
def Sw.groupPasses (s : Sw) (q a k : Nat) : Bool :=
  let d := (s.quad q).ident
  let js := span a k
  js.all (fun j => s.splitDark q j) ||
    (js.all (fun j => d.mem j) && js.all (fun j => (d.getD j (0, 0)).1 == (d.getD a (0, 0)).1 && (d.getD j (0, 0)).2 == j - a))
/-- The choice of the AUTO trial, once it can be made (03 R85). -/
def splitChoose (q : Nat) (s : Sw) : Sw :=
  let d := s.quad q
  if d.splitNow != 0 || d.splitActive != 0 || d.failedTrial || d.ident.isEmpty ||
      !(List.range 4).all (fun j => d.ident.mem j || s.splitDark q j) then s
  else
    match [1, 2, 3].find? (fun m => (splitPorts q m).all (fun e => s.groupPasses q e.2.1 e.2.2)) with
    | some m => applySplit q m d.ident.keys s
    | none => splitEvent q (s.modQuad q (fun d => { d with failedTrial := true }))

/-- Every lane of q begins the AUTO trial (03 R85, R86). -/
def splitTrial (q : Nat) (s : Sw) : Sw :=
  let s := s.modQuad q (fun d => { d with splitActive := 0, ident := [], darkSet := 0, failedTrial := false })
  each (span (4 * q) 4) (fun n s =>
    let st := (s.port n).reg.state
    let s := if st == .up then toDark n .search 0 5 s else s
    let s := s.modReg n (fun r => { r with lanes := (n % 4, 1) })
    if st == .disabled || st == .outOfService then s else toSearch n s) s
/-- Port n enters SEARCH: a SPLIT written since takes effect with port 4q (03 R85, R86). -/
def enterSearch (n : Nat) (s : Sw) : Sw :=
  let q := n / 4
  let d := s.quad q
  if n % 4 = 0 && d.split != d.splitNow then
    let s := toSearch n (s.modQuad q (fun d => { d with splitNow := d.split }))
    if d.split = 0 then splitTrial q s else applySplit q d.split [] s
  else splitClear q (toSearch n s)

end Sys2Proof.Machine
end

