-- ==== Sys2Proof/Machine/Wire.lean ====
section
/-! DEFINITION. Frames on the wire: their headers and trailers, link protection, and LINK_DOWN (03 R88 to R91, R101, R116; 14 R475;
16 R518, R520). -/
namespace Sys2Proof.Machine

/-- The key in a slot. -/
def PortSec.key? (p : PortSec) (slot : Nat) : Option LinkKey := if slot = 0 then p.key0 else p.key1
/-- Put a key into a slot. -/
def PortSec.setKey (slot : Nat) (k : Option LinkKey) (p : PortSec) : PortSec := if slot = 0 then { p with key0 := k } else { p with key1 := k }
/-- A frame of port n in the clear, without trailer: it carries the latest ACKSEQ, and NAK when one is owed (03 R89, R91). -/
def frameOf (s : Sw) (n : Nat) (fseq : BitVec 12) (cells : List (Cell × Nat)) : Frame :=
  let l := (s.port n).link
  { hdr := linkHdr fseq (l.rxExpect - 1) l.nakDue (cells.map Prod.snd)
    pos := cells.map Prod.fst ++ List.replicate (4 - cells.length) { hdr := 0, pay := 0 }, trailer := 0, fecOk := true }
/-- The key under which port n protects the frames it sends. A LINK_DOWN that follows UP is protected as the frames before it
were, while its key has frames left (DEDUCED, log 29). -/
def Sw.sendKey (s : Sw) (n : Nat) : Option LinkKey :=
  let sec := (s.port n).sec
  if sec.engaged || (sec.modeNow && (s.port n).link.linkDown.isSome) then
    (sec.key? sec.txSlot).bind (fun k => if k.txCount < 2 ^ 48 then some k else none)
  else none
/-- A frame goes out with its trailer: a CRC, or under link protection encrypted with its tag. -/
def transmit (n : Nat) (f : Frame) (s : Sw) : Sw :=
  let s' := s.modLink n (fun l => { l with nakDue := false })
  match s.sendKey n with
  | none => if (s.port n).sec.engaged then s else s'.out (.frame n { f with trailer := frameCrc (s.pers n) f })
  | some k =>
    let slot := (s.port n).sec.txSlot
    let count := k.txCount + 1
    let s' := (s'.out (.frame n (protectFrame k.key k.salt slot k.txCount f))).modPSec n (fun p => p.setKey slot (some { k with txCount := count }))
    if count = 2 ^ 47 then raiseHeld 0x0C14 (le 2 n ++ le 1 slot ++ le 8 count) s'
    else if count = 2 ^ 48 then toLost n 6 none (some 5) s' else s'
/-- One LINK_DOWN frame of port n: REASON and the sender's GTC. The three frames carry the FSEQ that the next data frame would have and
are not kept for replay (03 R101, R116; log 119). -/
def downFrame (n reason : Nat) (s : Sw) : Sw :=
  let c : Cell := { hdr := ctrlHdr ctLinkDown 0 0 noMember 0 0, pay := word64 (le 8 reason ++ le 8 s.gtc.toNat) }
  let c := if s.pers n = 1 then fl3ToFl1 c 0 else c
  transmit n (frameOf s n (s.port n).link.txSeq [(c, 8)]) s
/-- The three LINK_DOWN frames of port n at once, before a reset takes hold (03 R116; 14 R475). -/
def downFrames (n reason : Nat) (s : Sw) : Sw := downFrame n reason (downFrame n reason (downFrame n reason s))

end Sys2Proof.Machine
end

