-- ==== Sys2Proof/Machine/Ports.lean ====
section
/-! DEFINITION. The commands of the Ports family: frames, replay, credits, heartbeats, identity, splits and the states of a
port (03 R84 to R97, R101, R105 to R107, R114 to R116; 16 R517 to R520). -/
namespace Sys2Proof.Machine

/-! ### Acknowledgement and replay (03 R91 to R93) -/

/-- The context of a mark. -/
def Mark.ctx? (m : Mark) : Option Nat :=
  match m with
  | .none => Option.none
  | .upRecord x _ _ _ => some x
  | .result x _ _ _ _ => some x
  | .complete x _ _ => some x
/-- Every buffered frame up to and including ACKSEQ is freed; what waited for the acknowledgement goes on (03 R92; 09 R285). -/
def ackFrames (n : Nat) (seq : BitVec 12) (s : Sw) : Sw :=
  let buf := (s.port n).link.replayBuf
  match (List.range buf.length).find? (fun i => match buf[i]? with | some f => f.frame.fseq == seq | none => false) with
  | none => s
  | some i =>
    let marks := ((buf.take (i + 1)).map (fun f => f.marks)).flatten
    let s := s.modLink n (fun l => { l with replayBuf := l.replayBuf.drop (i + 1), resend := min l.resend (l.replayBuf.length - (i + 1)) })
    each (dedup (marks.filterMap Mark.ctx?)) settle s
/-- A replay starts at the oldest unacknowledged frame; one that has been replayed 8 times takes the port down (03 R92, R93). -/
def startReplay (n : Nat) (s : Sw) : Sw :=
  match (s.port n).link.replayBuf.head? with
  | none => s
  | some f =>
    if 8 ≤ f.replays then toLost n 4 none (some 4) s
    else
      let s := s.modCnt n (fun c => { c with replay := c.replay + 1 })
      s.modLink n (fun l => { l with resend := l.replayBuf.length })
/-- The NAK of a frame that failed is owed once per expected FSEQ (03 R91). -/
def oweNak (n : Nat) (s : Sw) : Sw :=
  s.modLink n (fun l => if l.nakDone then l else { l with nakDue := true, nakDone := true })

/-! ### Checking a frame (03 R91; 16 R518 to R520) -/

/-- A key has reached its limit as transmit key, or some key as receive key (16 R520). -/
def PortSec.exhausted (p : PortSec) : Bool :=
  (match p.key? p.txSlot with | some k => decide (2 ^ 48 ≤ k.txCount) | none => false) ||
    (match p.key0 with | some k => decide (2 ^ 20 ≤ k.fails) | none => false) ||
    (match p.key1 with | some k => decide (2 ^ 20 ≤ k.fails) | none => false)
/-- Open a protected frame: TXCOUNT is recovered from TCLO and X (16 R518, R519). -/
def gcmOpen (n : Nat) (f : Frame) (s : Sw) : Option Frame × Sw :=
  let kp := field f.hdr 32 1
  match (if bit f.hdr 33 then (s.port n).sec.key? kp else none) with
  | none => (none, s)
  | some k =>
    let base : Int := (k.x : Int) - 32768
    let t : Int := base + ((field f.hdr 0 16 : Int) - base) % 65536
    if t < 0 then (none, s)
    else match openFrame k.key k.salt t.toNat f with
      | none => (none, s)
      | some g => (some g, s.modPSec n (fun p => { p.setKey kp (some { k with x := t.toNat + 1 }) with partnerKp := kp, failRun := 0 }))
/-- A frame fails on an ENGAGED port although FEC could correct it (16 R519, R520). -/
def tagFailure (n : Nat) (f : Frame) (s : Sw) : Sw :=
  let kp := field f.hdr 32 1
  let named := bit f.hdr 33
  let s := s.modPSec n (fun p =>
    let p := { p with tagFail := p.tagFail + 1, failRun := p.failRun + 1 }
    match (if named then p.key? kp else none) with
    | some k => p.setKey kp (some { k with fails := k.fails + 1 })
    | none => p)
  let sec := (s.port n).sec
  if 64 ≤ sec.failRun then
    let s := toLost n 6 none (some 5) s
    s.limited 0x0C12 n ms (raiseHeld 0x0C12 (le 2 n ++ le 1 kp ++ le 2 sec.tagFail.toNat ++ le 1 1))
  else if sec.exhausted then toLost n 6 none (some 5) s
  else s
/-- The frame in the clear, when it passes FEC and its CRC or tag. A port in IDENTIFY opens a frame of a partner that is
already UP under link protection (DEDUCED, log 25). -/
def checkFrame (n : Nat) (f : Frame) (s : Sw) : Option Frame × Sw :=
  let sec := (s.port n).sec
  if !f.fecOk then (none, s)
  else if sec.engaged || (sec.modeNow && !s.up n && bit f.hdr 33) then
    match gcmOpen n f s with
    | (some g, s) => (some g, s)
    | (none, s) => (none, if sec.engaged then tagFailure n f s else s)
  else if frameCrc (s.pers n) f == f.trailer then (some f, s)
  else (none, s)

/-! ### Cells of a frame (03 R91, R95, R97; 10 R330) -/

/-- A cell as received is one that the port layer consumes. -/
def wirePortLayer (pers : Nat) (c : Cell) : Bool := if pers = 1 then c.kind == 5 && decide (field c.hdr 17 7 < 4) else c.portLayer
/-- CTYPE of a CTRL cell as received. -/
def wireCtype (pers : Nat) (c : Cell) : Nat := if pers = 1 then field c.hdr 17 7 else c.ctype
/-- A cell of an accepted frame goes into the receive buffer when credit stood for it and neither its header nor its channel is
reserved; HEARTBEAT ends here (03 R95, R98; 10 R329, R330). Port-layer cells use no credit: they are held on a channel number that has
none. -/
def takeCell (n vc : Nat) (c : Cell) (s : Sw) : Sw :=
  if wirePortLayer (s.pers n) c then
    if wireCtype (s.pers n) c = ctHeartbeat then s else s.modQ n (fun q => { q with rxq := q.rxq ++ [{ cell := c, vc := 16 }] })
  else if nth 0 (s.port n).link.rxCredit vc = 0 then
    (s.modCnt n (fun k => { k with creditErr := k.creditErr + 1 })).limited 0x070A n ms (raiseSys 0x070A (le 2 n ++ le 1 vc))
  else
    let s := s.modLink n (fun l => { l with rxCredit := setNth l.rxCredit vc (nth 0 l.rxCredit vc - 1) })
    if s.headerBad n c || !(vcsOf (wireTc (s.pers n) c)).contains vc || (s.isMember n && secondVc vc) then badHeader n c (creditBack n vc s)
    else s.modQ n (fun q => { q with rxq := q.rxq ++ [{ cell := c, vc := vc }] })
/-- The cells of a frame in their order. -/
def takeCells (n : Nat) (f : Frame) (s : Sw) : Sw :=
  each ((List.range 4).filter f.valid) (fun i s => takeCell n (f.vc i) (f.pos.getD i ⟨0, 0⟩) s) s

/-- A frame that passed its checks on an UP port (03 R91, R92, R115). -/
def goodFrame (n : Nat) (f : Frame) (s : Sw) : Sw :=
  let s := if f.idle then s else s.modLink n (fun l => { l with alive := true })
  let s := if f.ackv then ackFrames n f.ackseq s else s
  let s := if f.nak then startReplay n s else s
  if f.idle || f.fseq != (s.port n).link.rxExpect || !s.up n then s
  else takeCells n f (s.modLink n (fun l => { l with rxExpect := l.rxExpect + 1, nakDone := false, nakDue := false }))
/-- A frame that failed: the header of a failed frame tells nothing, so idle frames are not told apart (DEDUCED, log 26). -/
def failedFrame (n : Nat) (s : Sw) : Sw :=
  oweNak n (s.modCnt n (fun k => { k with crcErr := k.crcErr + 1 }))
/-- A link frame. In IDENTIFY, before FSEQ starts at 0, only LINK_ID cells are taken, under any FSEQ, and a frame that fails is
counted (03 R91, R106; log 117). -/
def frameOp (n : Nat) (f : Frame) (cw sym unc : Nat) (s : Sw) : Sw :=
  let s := s.modCnt n (fun k => { k with
    fecCw := k.fecCw + BitVec.ofNat 64 cw, fecSym := k.fecSym + BitVec.ofNat 64 sym, fecUncorr := k.fecUncorr + BitVec.ofNat 32 unc })
  if s.up n then
    match checkFrame n f s with
    | (some g, s) => goodFrame n g s
    | (none, s) => if s.up n then failedFrame n s else s.modCnt n (fun k => { k with crcErr := k.crcErr + 1 })
  else if (s.port n).reg.state == .identify then
    match checkFrame n f s with
    | (some g, s) =>
      each ((List.range 4).filter (fun i => g.valid i && wirePortLayer (s.pers n) (g.pos.getD i ⟨0, 0⟩) &&
          wireCtype (s.pers n) (g.pos.getD i ⟨0, 0⟩) == ctLinkId)) (fun i s => takeCell n (g.vc i) (g.pos.getD i ⟨0, 0⟩) s) s
    | (none, s) => s.modCnt n (fun k => { k with crcErr := k.crcErr + 1 })
  else s
/-- FRAME_RECEIVE (03 R91). -/
def execFrameReceive (port : Nat) (frame : Frame) (codewords symbols uncorrectable : Nat) (s : State) : Res :=
  lift (frameOp port frame codewords symbols uncorrectable) s
/-- REPLAY_TIMEOUT (03 R92). -/
def execReplayTimeout (port : Nat) (s : State) : Res := lift (fun w => if w.up port then startReplay port w else w) s

/-! ### Credits and heartbeats (03 R96, R114, R115) -/

/-- A port-layer cell in FL3 form. -/
def portLayerForm (pers : Nat) (c : Cell) : Cell := if pers = 1 then fl1ToFl3 c 0 0 0 0 0 else c
/-- A port-layer cell of type `ct` reaches port n: what follows it. -/
def portCell (n ct : Nat) (c : Cell) (f : Cell → Sw → Sw) (s : Sw) : Sw :=
  let s := consume n c s
  if wirePortLayer (s.pers n) c && wireCtype (s.pers n) c == ct then f (portLayerForm (s.pers n) c) s else s
/-- Event 0x0727 of a class of port n: 1 begin, 2 end (10 R358). -/
def stallEvent (n tc what cells : Nat) (s : Sw) : Sw := raiseSys 0x0727 (le 2 n ++ le 1 tc ++ le 1 what ++ le 4 cells) s
/-- A class of a member port that has credit again is stalled no longer (10 R358). -/
def stallEnds (n : Nat) (s : Sw) : Sw :=
  each (s.port n).q.stalled (fun e s =>
    if nth 0 (s.port n).link.txCredit (firstVc e.1) = 0 then s
    else stallEvent n e.1 2 e.2 (s.modQ n (fun q => { q with stalled := q.stalled.erase e.1 }))) s
/-- A CREDIT cell (03 R96). -/
def creditOp (n : Nat) (c : Cell) (s : Sw) : Sw :=
  if !s.up n then s
  else stallEnds n <| s.modLink n (fun l =>
    let freed : List Half := (List.range 16).map (fun v => BitVec.ofNat 16 (c.f (2 * v) 2))
    { l with
      txCredit := (List.range 16).map (fun v => nth 0 l.txCredit v + (nth 0 freed v - nth 0 l.freedSeen v).toNat)
      freedSeen := freed })
/-- CREDIT_RECEIVE (03 R96). -/
def execCreditReceive (port : Nat) (cell : Cell) (s : State) : Res := lift (portCell port ctCredit cell (creditOp port)) s
/-- CREDIT_TIMER (03 R96). -/
def execCreditTimer (port : Nat) (s : State) : Res :=
  lift (fun w => let w := payPaced port w; if (w.port port).link.freedNew.any (fun k => k != 0) then sendCredit port w else w) s
/-- A HEARTBEAT cell (03 R101). -/
def heartbeatCell (s : Sw) (n : Nat) : Cell :=
  { hdr := ctrlHdr ctHeartbeat 0 0 noMember 0 0, pay := word64 (le 8 s.gtc.toNat ++ le 1 (b2n (s.takingOver (n / 4)))) }
/-- The end of a heartbeat period: a HEARTBEAT when nothing else was sent, and the receiver's count of periods without
liveness (03 R114, R115). -/
def heartbeatOp (n : Nat) (s : Sw) : Sw :=
  if !s.up n then s
  else
    let s := toTick (s.port n).reg.hbLog2 none s
    let s := if (s.port n).link.sentCell then s else sendCtrl n (heartbeatCell s n) s
    s.modLink n (fun l => { l with sentCell := false, alive := false, deadPeriods := if l.alive then 0 else l.deadPeriods + 1 })
/-- HEARTBEAT_PERIOD (03 R114). -/
def execHeartbeatPeriod (port : Nat) (s : State) : Res := lift (heartbeatOp port) s
/-- Four heartbeat periods have passed without liveness: three counted and the one that ends with this command, or four (03 R115). -/
def heartbeatMissOp (n : Nat) (s : Sw) : Sw :=
  if s.up n && !(s.port n).link.alive && decide (3 ≤ (s.port n).link.deadPeriods) then toLost n 1 none none (s.modCnt n (fun k => { k with hbMiss := k.hbMiss + 1 })) else s
/-- HEARTBEAT_MISS (03 R115). -/
def execHeartbeatMiss (port : Nat) (s : State) : Res := lift (heartbeatMissOp port) s

/-! ### Identity (03 R101, R106; 16 R517, R520) -/

/-- The test of R106 that a LINK_ID fails first, numbered 1 to 6; `trial`: a lane of the AUTO trial, or a port that the choice
of R85 made, whose LANE_COUNT is judged there. -/
def linkIdTest (s : Sw) (n : Nat) (c : Cell) (rtt : Nat) (auto : Bool) : Option Nat :=
  let role := c.f 8 1
  firstFail [
    (c.f 9 1 != s.pers n, 1), ((role == 2 || role == 3) && s.pers n != 3, 2), (role == 0 || decide (3 < role), 3),
    (!auto && c.f 11 1 != (s.port n).reg.lanes.2, 4), (c.f 13 1 != 3, 5), (decide (20000 + turnaround (s.pers n) < rtt), 6)]
/-- The test of R517 that a LINK_ID fails first: 1 CAPS, 2 ROLE, 3 no transmit key, 4 debug open (12 R423). -/
def linkSecTest (s : Sw) (n : Nat) (c : Cell) : Option Nat :=
  let sec := (s.port n).sec
  let on := sec.modeNow
  firstFail [
    ((c.f 22 2 % 2 == 1) != on, 1), (on && c.f 8 1 != 2, 2), (on && (sec.key? sec.txSlot).isNone, 3), (on && s.sec.debugOpen, 4)]
/-- A LINK_ID in IDENTIFY. -/
def linkIdOp (n : Nat) (c : Cell) (s : Sw) : Sw :=
  if (s.port n).reg.state != .identify then s
  else
    let s := s.modLink n (fun l => { l with rxNonce := BitVec.ofNat 16 (c.f 18 2) })
    let now := s.now
    match (s.port n).link.nonces.reverse.find? (fun e => c.f 20 2 != 0 && e.1.toNat == c.f 20 2 && decide (now - e.2 ≤ 10 * ms)) with
    | none => s
    | some (_, at_) =>
      let rtt := now - at_
      let d := s.quad (n / 4)
      match linkIdTest s n c rtt (d.splitNow = 0) with
      | some t => raiseSys 0x0703 (le 2 n ++ le 1 t) s
      | none =>
        match linkSecTest s n c with
        | some t => raiseHeld 0x0C13 (le 2 n ++ le 1 t) s
        | none =>
          if (s.port n).sec.modeNow && (s.port n).sec.exhausted then s
          else if d.splitNow = 0 && d.splitActive = 0 then
            splitChoose (n / 4) (s.modQuad (n / 4) (fun d => { d with ident := d.ident.set (n % 4) (c.q 0, c.f 10 1) }))
          else if d.splitNow = 0 && c.f 11 1 != (s.port n).reg.lanes.2 then
            splitEvent (n / 4) (s.modQuad (n / 4) (fun d => { d with ident := d.ident.set ((s.port n).reg.lanes.1) (c.q 0, c.f 10 1) }))
          else toUp n c rtt s
/-- LINK_ID_RECEIVE (03 R106). -/
def execLinkIdReceive (port : Nat) (cell : Cell) (s : State) : Res := lift (portCell port ctLinkId cell (linkIdOp port)) s
/-- LINK_ID_TIMER (03 R106). -/
def execLinkIdTimer (port : Nat) (s : State) : Res :=
  lift (fun w => if (w.port port).reg.state == .identify then sendLinkId port w else w) s
/-- 10 ms in IDENTIFY without an accepted LINK_ID (03 R106; 16 R520). A lane that the AUTO trial has identified stays; a port whose
partner reports another LANE_COUNT (R85) goes too (log 118). -/
def identifyTimeoutOp (n : Nat) (s : Sw) : Sw :=
  let d := s.quad (n / 4)
  let identified := d.splitNow = 0 && d.splitActive = 0 && d.ident.mem (n % 4)
  if (s.port n).reg.state != .identify || identified || ((s.port n).sec.modeNow && (s.port n).sec.exhausted) then s else enterSearch n s
/-- IDENTIFY_TIMEOUT (03 R107). -/
def execIdentifyTimeout (port : Nat) (s : State) : Res := lift (identifyTimeoutOp port) s

/-! ### Splits (03 R85) -/

/-- 100 ms after the first lane was identified. -/
def splitDarkOp (q : Nat) (s : Sw) : Sw :=
  let d := s.quad q
  if d.splitNow != 0 || d.splitActive != 0 || d.ident.isEmpty then s
  else
    let dark := (List.range 4).foldl (fun (v : BitVec 4) j => if d.ident.mem j then v else setBit v j) 0
    splitChoose q (s.modQuad q (fun d => { d with darkSet := dark }))
/-- SPLIT_DARK_TIMEOUT (03 R85). -/
def execSplitDarkTimeout (quad : Nat) (s : State) : Res := lift (splitDarkOp quad) s
/-- SPLIT_RETRY (03 R85). -/
def execSplitRetry (quad : Nat) (s : State) : Res := lift (fun w => if (w.quad quad).failedTrial then splitTrial quad w else w) s

/-! ### States (03 R105, R107) -/

/-- A lane in SEARCH transmits at the next allowed rate. -/
def Lane.nextRate (allow : BitVec 3) (l : Lane) : Lane :=
  let rs := allowedRates allow
  if l.state != .search then l
  else { l with txRate := (rs.find? (fun r => decide (r < l.txRate))).getD (rs.headD l.txRate) }
/-- SEARCH_RATE_STEP (03 R105). -/
def execSearchRateStep (port : Nat) (s : State) : Res :=
  lift (fun w => if (w.port port).reg.state == .search then modLanes port (Lane.nextRate (w.port port).reg.allowNow) w else w) s
/-- A LINK_DOWN from the partner. -/
def linkDownOp (n : Nat) (c : Cell) (s : Sw) : Sw := toLost n 3 (some (c.f 0 1 % 16)) none s
/-- LINK_DOWN_RECEIVE (03 R107, R116). -/
def execLinkDownReceive (port : Nat) (cell : Cell) (s : State) : Res := lift (portCell port ctLinkDown cell (linkDownOp port)) s
/-- 1 ms after the entry to LOST (03 R107). -/
def lostRetryOp (n : Nat) (s : Sw) : Sw :=
  if (s.port n).reg.state != .lost || !(s.port n).reg.adminUp then s else enterSearch n s
/-- LOST_RETRY_TIMER (03 R107). -/
def execLostRetryTimer (port : Nat) (s : State) : Res := lift (lostRetryOp port) s
/-- ADMIN_UP = 0. -/
def adminDown (n : Nat) (s : Sw) : Sw :=
  let s := s.modReg n (fun r => { r with adminUp := false })
  let st := (s.port n).reg.state
  if st == .search || st == .identify || st == .lost || st == .up then toDark n .disabled 0 5 s else s
/-- ADMIN_UP_WRITE_0 (03 R107). -/
def execAdminUpWrite0 (port : Nat) (s : State) : Res := lift (adminDown port) s
/-- ADMIN_UP = 1: it also clears the test fields of the port's lanes (13 R454). -/
def adminUpOp (n : Nat) (s : Sw) : Sw :=
  let s := if (s.port n).reg.state == .absent then s else modLanes n Lane.testOver s
  let s := s.modReg n (fun r => { r with adminUp := true })
  if (s.port n).reg.state == .disabled && (s.port n).reg.allow != 0 then enterSearch n s else s
/-- ADMIN_UP_WRITE_1 (03 R107). -/
def execAdminUpWrite1 (port : Nat) (s : State) : Res := lift (adminUpOp port) s

end Sys2Proof.Machine
end

