-- ==== Sys2Proof/Machine/Intake.lean ====
section
/-! DEFINITION. Collective cells on their way in: member cells, prune cells, records, zero runs, mirror records and notices
(02 R41, R51, R58, R61, R64, R65; 04 R140; 05 R186; 06 R195, R197, R216; 08 R257 to R264; 09 R282, R290). -/
namespace Sys2Proof.Machine

/-! ### Discards (04 R140; 06 R216) -/

/-- Event 0x0209: a cell at or above the grant in force, or of an operation that is not open (04 R140). -/
def grantViolation (x q num cell grant : Nat) (s : Sw) : Sw :=
  (idDiscard (s.physPort x q) s).limited 0x0209 q ms (raiseCtx x 0x0209 (le 4 num ++ le 2 q ++ le 4 cell ++ le 4 grant))
/-- Event 0x0408: a cell of another layout epoch (06 R216). -/
def layoutDiscard (x q : Nat) (member : Bool) (c : Cell) (s : Sw) : Sw :=
  (onlyIf member (idDiscard q) s).limited 0x0408 q ms (raiseCtx x 0x0408 (le 2 q ++ le 1 c.le ++ le 4 c.copseq))

/-! ### A member's cells (02 R41; 04 R140; 05 R186) -/

/-- The member child that port q serves: as its primary, or as its backup. -/
def Ctx.memberOf (c : Ctx) (q : Nat) : Option Child := (c.memberAt q).or (c.canopy.primaryOf q)
/-- A plain member cell is staged; each grid cell that it makes whole goes on (02 R41). -/
def plainCell (x o q : Nat) (h : Child) (c : Cell) (s : Sw) : Sw :=
  match s.ctx? x, s.op? x o with
  | some k, some p =>
    let (first, len) := contribPart k p.blk h.rankFirst
    let ec := s.ecOf p q
    let lo := first + ec * c.idx
    let hi := min (first + len) (lo + ec)
    let ks := if hi ≤ lo then [] else span (lo / 32) ((hi - 1) / 32 + 1 - lo / 32)
    if ks.isEmpty then s
    else if p.staging.mem (cellKey q c.idx) || ks.all (fun g => taken k o p h.port g) then countDup x s
    else
      let s := s.modOp x o (fun p => { p with staging := p.staging.set (cellKey q c.idx) c.pay })
      each ks (fun g s => match s.ctx? x, s.op? x o with
        | some k, some p => if wholeCell s k p q h.rankFirst g then gridCellWhole x o q g s else s
        | _, _ => s) s
  | _, _ => s

/-! ### Prune cells (08 R257 to R262) -/

/-- The runs of a prune cell from byte i of `room` payload bytes: start and values, and where they end; none when they
overrun. -/
def parseRuns (b room : Nat) (pay : List Byte) : Nat → Nat → Option (List (Nat × List Nat) × Nat)
  | 0, i => some ([], i)
  | n + 1, i =>
    let len := byteAt pay (i + 1) + 1
    let z := i + 2 + len * b
    if room < z then none
    else (parseRuns b room pay n z).map (fun r => ((byteAt pay i, (List.range len).map (fun j => bytesAt pay (i + 2 + b * j) b)) :: r.1, r.2))
/-- Runs in order: each starts past the end of the one before, the first of a cell also just at it where `abut` holds. -/
def runsOrdered (limit : Nat) : Bool → Nat → List (Nat × List Nat) → Bool
  | _, _, [] => true
  | abut, e, (a, vs) :: rest =>
    (decide (e < a) || (abut && e == a)) && decide (a + vs.length ≤ limit) && runsOrdered limit false (a + vs.length) rest
/-- The first failed test of R261 for a cell of window w, numbered 1 to 6. -/
def pruneTest (b room sw len w : Nat) (cu : Cursor) (pay : List Byte) : Option Nat :=
  let runs := parseRuns b room pay (byteAt pay 1) 2
  let same := (cu.prog w).isSome
  let (cells, tail, _) := (cu.prog w).getD (0, (0, false), [])
  firstFail [
    (decide (3 < byteAt pay 0), 1),
    (decide (20 < byteAt pay 1) || (match runs with | some r => !allZero ((pay.take room).drop r.2) | none => true), 2),
    (match runs with
     | some r => !(if same then runsOrdered (min 256 (len - 256 * w)) tail.2 tail.1 r.1
                   else runsOrdered (min 256 (len - 256 * w)) true 0 r.1)
     | none => false, 3),
    ((decide (cu.cells ≠ 0) && w != cu.next) || (cu.cells = 0 && cu.tail.1 = 257 && w + 1 = cu.next), 4),
    (decide (sw < cells + 1), 5),
    (cu.last, 6)]
/-- Grid cell k is complete for port q with these entries: offset in the cell and raw value. -/
def pruneWhole (x o q : Nat) (h : Child) (k : Nat) (ents : List (Nat × Nat)) (s : Sw) : Sw :=
  match s.ctx? x, s.op? x o with
  | some c, some p =>
    if taken c o p h.port k then (if ents.isEmpty then s else countDup x s)
    else gridCellWhole x o q k (s.modOp x o (fun p => { p with pruned := p.pruned.set (cellKey q k) ents }))
  | _, _ => s
/-- A prune cell that stands moves the cursor and completes grid cells (08 R260). -/
def pruneTake (x o q : Nat) (h : Child) (b room len w : Nat) (c : Cell) (s : Sw) : Sw :=
  match s.op? x o with
  | none => s
  | some p =>
    let cu := p.cursors.getD q Cursor.fresh
    let pay := bytes64 c.pay
    let (runs, e) := (parseRuns b room pay (byteAt pay 1) 2).getD ([], 2)
    let cont := (byteAt pay 0).testBit 0
    let last := (byteAt pay 0).testBit 1
    let new := (runs.map (fun r => (List.range r.2.length).map (fun i => (r.1 + i, r.2.getD i 0)))).flatten
    let same := (cu.prog w).isSome
    let (had, was, before) := (cu.prog w).getD (0, (0, true), [])
    let ents := before ++ new
    let tail := match runs.getLast? with
      | some r => (r.1 + r.2.length, decide (room - e < b))
      | none => was
    let key := cellKey q w
    let d := if same then p.winDig.getD key ⟨0, 0, false⟩ else ⟨0, 0, false⟩
    let d : Digest := ⟨d.dig ^^^ cellDigest w (pay.take room), d.cells + 1, false⟩
    let cells := (len + 31) / 32
    let done := if last then cells else if cont then 8 * w else min cells (8 * (w + 1))
    let aside := cu.aside.keep (fun v => decide (w < v))
    let cu' : Cursor := if cont && !last then { next := w, cells := had + 1, tail := tail, last := false, entries := ents, aside := aside }
      else { next := w + 1, cells := 0, tail := (257, false), last := last, entries := [], aside := aside }
    let s := s.modOp x o (fun p => { p with cursors := p.cursors.set q cu', winDig := p.winDig.set key d })
    each (span (8 * cu.next) (done - 8 * cu.next)) (fun k s =>
      pruneWhole x o q h k (if k / 8 = w then (ents.filter (fun e => e.1 / 32 == k % 8)).map (fun e => (e.1 % 32, e.2)) else []) s) s
/-- A cell of a PRUNE operation. -/
def pruneCell (x o q : Nat) (h : Child) (c : Cell) (s : Sw) : Sw :=
  match s.ctx? x, s.op? x o with
  | some k, some p =>
    let b := elemBits (p.format q) / 8
    let room := payBytes (s.pers q)
    let len := (contribPart k p.blk h.rankFirst).2
    let cu := p.cursors.getD q Cursor.fresh
    let w := c.idx
    (match pruneTest b room (pruneSW (p.format q) (s.pers q)) len w cu (bytes64 c.pay) with
     | some t => failHere x o stBad (raiseCtx x 0x0500 (le 4 o ++ le 2 q ++ le 4 w ++ le 1 t) s)
     | none =>
       if w < cu.next then
         let s := idDiscard q s
         if p.once.contains (0x0502, q) then s
         else raiseCtx x 0x0502 (le 4 o ++ le 2 q ++ le 4 w) (s.modOp x o (fun p => { p with once := p.once ++ [(0x0502, q)] }))
       else pruneTake x o q h b room len w c s)
  | _, _ => s

/-- A COLL-UP cell of a member reaches its context on port q. -/
def memberCellOp (x q : Nat) (c : Cell) (s : Sw) : Sw :=
  match s.ctx? x with
  | none => s
  | some k =>
    match k.memberOf q with
    | none => s
    | some h =>
      if c.tc != 3 then s
      else match k.opOfSeq c.copseq with
        | none => grantViolation x q (k.opnumOf c.copseq) c.idx 0 s
        | some (o, p) =>
          if c.le != k.leOf o then layoutDiscard x q true c s
          else if !p.isOpen then s
          else if p.grants.getD q 0 ≤ c.idx then grantViolation x q o c.idx (p.grants.getD q 0) s
          else
            let s := clearStall x o h.port (earlyCheck x o s)
            settle x (if blkPrune p.blk then pruneCell x o q h c s else plainCell x o q h c s)

/-! ### Records in parts (02 R64, R65) -/

/-- A record or a zero run is discarded: event 0x0683 for a record, and the sending child is asked again (02 R65; 09 R290). -/
def malformed (x q o k count test : Nat) (up : Bool) (s : Sw) : Sw :=
  let s := if test = 0 then s.limited 0x0501 q ms (raiseCtx x 0x0501 (le 4 o ++ le 2 q ++ le 4 k))
    else raiseCtx x 0x0683 (le 4 (o % 64) ++ le 2 q ++ le 4 k ++ le 1 test) s
  if !up || count = 0 then s
  else askContrib x o (rangeSet k count) 2 (some q) (reinjectEvent x o 2 0 k (k + count - 1) q s)
/-- Drop the record being assembled for context x on port n. -/
def dropAsm (n x : Nat) (s : Sw) : Sw := s.modQ n (fun q => { q with asm := q.asm.filter (fun a => a.ctx != x) })
/-- A part arrives: the record's bytes when it is the last, in 63 bytes a part. A part that breaks order or count discards the
record in progress, and begins a new one when its index is 0. The record in progress of an operation that is no longer held here
is reported too; no child is asked again (DESIGN CHOICE, log 113). -/
def takePart (x q o : Nat) (up : Bool) (c : Cell) (s : Sw) : Option (List Byte) × Sw :=
  let n := s.physPort x q
  let pay := bytes64 c.pay
  let count := byteAt pay 0 / 16 + 1
  let i := byteAt pay 0 % 16
  let cur := (s.port n).q.asm.find? (fun a => a.ctx == x)
  let goesOn := match cur with
    | some a => a.opseq == c.copseq && a.cell == c.idx && a.up == up && a.count == count && a.next == i
    | none => i == 0
  let broken (s : Sw) : Sw := match cur with
    | some a => (match (s.ctx? x).bind (fun k => k.opOfSeq a.opseq) with
        | some (ao, _) => malformed x q ao a.cell 1 5 a.up (dropAsm n x s)
        | none => raiseCtx x 0x0683 (le 4 a.opseq ++ le 2 q ++ le 4 a.cell ++ le 1 5) (dropAsm n x s))
    | none => malformed x q o c.idx 1 5 up s
  let s := if goesOn then s else broken s
  if !goesOn && i != 0 then (none, s)
  else
    let bytes := (if goesOn then (match cur with | some a => a.bytes | none => []) else []) ++ pay.drop 1
    let s := dropAsm n x s
    if i + 1 = count then (some bytes, s)
    else (none, s.modQ n (fun b => { b with asm := b.asm ++ [({ ctx := x, opseq := c.copseq, cell := c.idx, count := count, next := i + 1, bytes := bytes, up := up } : RecAsm)] }))
/-- Decode a record of operation p. -/
def decodeRecord (c : Ctx) (p : Op) (up : Bool) (bytes : List Byte) : Except Nat Part :=
  let b := c.recBytes p
  if b = 0 then decodePacked up bytes else decodeFloatRec b bytes

/-! ### Contributions and results from switches (02 R53, R58, R61; 04 R139, R144; 06 R195) -/

/-- A contribution of child q stands for these grid cells: duplicates are counted, the cells it came in are folded, and each
enters its slot (02 R53; 09 R282, R297). -/
def takeContribution (x o q first : Nat) (ks : List Nat) (part : Part) (pays : List (BitVec 512)) (s : Sw) : Sw :=
  match s.ctx? x, s.op? x o with
  | some c, some p =>
    let fresh := ks.any (fun k => !taken c o p q k)
    let s := if fresh then each pays (fun pay s => foldCell x o 0 q first (bytes64 pay) s) s else s
    each ks (fun k s => contribute x o q k part s) s
  | _, _ => s
/-- Results for these grid cells come from the port toward their root: those not yet received go on. The next anchor in a last
record is told by notice to the switch children that no such record reaches (04 R144; 02 R61). -/
def takeResult (x o q first : Nat) (ks : List Nat) (part : Part) (pays : List (BitVec 512)) (s : Sw) : Sw :=
  match s.ctx? x, s.op? x o with
  | some c, some p =>
    let new := ks.filter (fun k => !inSet p.rbits k)
    if new.isEmpty then s
    else
      let s := each pays (fun pay s => foldCell x o 1 q first (bytes64 pay) s) s
      let s := s.modOp x o (fun p => { p with st := if p.st == .joined then .committed else p.st })
      let s := emit x o (new.map (fun k => (k, part))) none true s
      (match part.next with
       | some a =>
         let g := segOf c p.blk first
         let told := targets c p.blk first
         sendNotice ctAnchor x o ((downSwitches c p.blk first).filter (fun q => !told.contains q)) (noticeBody g part.attempt a)
           (takeAnchor x o g part.attempt a s)
       | none => s)
  | _, _ => s
/-- ATTEMPT is the segment's: of a result, the one that a later operation's anchor has left behind is not told (02 R58). -/
def attemptStands (c : Ctx) (o g attempt : Nat) (up : Bool) : Bool :=
  let e := c.anchor g
  attempt == c.attemptOf o g || (!up && e.isSet && !e.copied && decide (o < e.setOp))

/-- A mirror writes an owner's final grid cell into its own gradient area (06 R197). -/
def mirrorWrite (x o k : Nat) (part : Part) (s : Sw) : Sw :=
  match s.ctx? x, s.op? x o with
  | some c, some p =>
    (match cellShard c p.blk k with
     | some (n, e) =>
       let g := gradCellOf p.blk (usedAnchor c p (segOf c p.blk k)) o part
       foldCell x o 4 e.layer k (g.digestBytes c.cfg.g) (s.modShard x n (fun h => { h with grad := h.grad.set (shardCell p.blk e k) g }))
     | none => s)
  | _, _ => s
/-- Once every grid cell of operation o in the shards of a layer mirrored for the owner on port q has come, the mirror sends the
owner its digest of the layer (09 R301; DEDUCED, log 38). -/
def mirrorDigest (x o q k : Nat) (s : Sw) : Sw :=
  match s.ctx? x, s.op? x o with
  | some c, some p =>
    (match cellShard c p.blk k with
     | some (_, e) =>
       let shared (e' : ShardEnt) : Bool := e'.srole == 2 && e'.mirror == some q && e'.layer == e.layer
       let whole := (List.range (cellsOf p.blk)).all (fun j => match cellShard c p.blk j with
         | some (n, e') => !shared e' || (match (s.shard? x n).bind (fun h => SMap.find? (shardCell p.blk e' j) h.grad) with
             | some g => g.opnum == o
             | none => false)
         | none => true)
       if whole then foldAccs x o (ctxCtrl x q .none (digestCell x o noMember 4 e.layer (c.digest? o 4 e.layer)) s) else s
     | none => s)
  | _, _ => s
/-- The gradient cell of grid cell k is FULL here. -/
def Sw.gradFull (s : Sw) (x : Nat) (c : Ctx) (b : BitVec 256) (k : Nat) : Bool :=
  match cellShard c b k with
  | some (n, e) => (match (s.shard? x n).bind (fun h => SMap.find? (shardCell b e k) h.grad) with | some g => g.full | none => false)
  | none => false
/-- Grid cells of a zero run; none when it breaks R263. -/
def zeroRun (c : Ctx) (p : Op) (first limit : Nat) (up : Bool) (pay : List Byte) : Option (Nat × Nat) :=
  let n := bytesAt pay 1 2 + 1
  let z := first + n
  let inSeg := decide (z ≤ cellsOf p.blk) && segOf c p.blk first == segOf c p.blk (z - 1)
  let ends := !up && (segCells c p.blk (segOf c p.blk first)).2 == z
  if byteAt pay 3 % 32 != 0 || !allZero (pay.drop 4) || !inSeg || decide (limit < z) || ends then none
  else some (n, byteAt pay 3 / 32)
/-- A zero-run cell of a PRUNE operation (08 R263). -/
def isZeroRun (p : Op) (pay : List Byte) : Bool := blkPrune p.blk && byteAt pay 0 == 0xF0
/-- Grid cells that a cell names: those of a zero run, else its own. -/
def runCells (p : Op) (c : Cell) : List Nat :=
  let pay := bytes64 c.pay
  if isZeroRun p pay then span c.idx (min (bytesAt pay 1 2 + 1) (cellsOf p.blk - c.idx)) else [c.idx]
/-- A zero run cuts a record that is being assembled for the context (02 R65). -/
def cutAsm (x q o : Nat) (up : Bool) (s : Sw) : Sw :=
  let n := s.physPort x q
  match (s.port n).q.asm.find? (fun a => a.ctx == x) with
  | some a => malformed x q o a.cell 1 5 up (dropAsm n x s)
  | none => s
/-- A TC 4 cell of a store reduction on the MIRROR_PORT of a shard that this switch mirrors: a part of a record, or a zero run.
While a gradient cell of it is FULL the cells wait, as the slot does at the owner (06 R197, R205; 08 R264; DEDUCED, log 27). -/
def mirrorOp (x q o : Nat) (c : Cell) (s : Sw) : Sw :=
  match s.ctx? x, s.op? x o with
  | some k, some p =>
    let pay := bytes64 c.pay
    let ks := (runCells p c).filter (fun j => match cellShard k p.blk j with | some (_, e) => e.srole == 2 && e.mirror == some q | none => false)
    let write (part : Part) (s : Sw) : Sw := each ks (fun j s => mirrorDigest x o q j (mirrorWrite x o j part s)) s
    if ks.isEmpty then s
    else if ks.any (s.gradFull x k p.blk) || k.heldCells.any (fun e => e.2.tc == 4 && e.2.copseq == c.copseq && e.2.idx == c.idx) then
      s.setCtx x { k with heldCells := k.heldCells ++ [(q, c)] }
    else if isZeroRun p pay then
      let s := cutAsm x q o false s
      match zeroRun k p c.idx (cellsOf p.blk) false pay with
      | none => malformed x q o c.idx 1 0 false s
      | some (_, attempt) => write { vals := List.replicate 32 0, attempt := attempt } s
    else
      let (bytes, s) := takePart x q o false c s
      (match bytes with
       | none => s
       | some b =>
         match decodePacked false b with
         | .error t => malformed x q o c.idx 1 t false s
         | .ok part => write part s)
  | _, _ => s
/-- Mirror cells that waited for grid cell k of operation o. -/
def mirrorResume (x o k : Nat) (s : Sw) : Sw :=
  match s.ctx? x, s.op? x o with
  | some c, some p =>
    let mine (e : Nat × Cell) : Bool := e.2.tc == 4 && e.2.copseq == o % 64 && (runCells p e.2).contains k
    let s := s.setCtx x { c with heldCells := c.heldCells.filter (fun e => !mine e) }
    each (c.heldCells.filter mine) (fun e s => mirrorOp x e.1 o e.2 s) s
  | _, _ => s

/-- A collective cell from a switch: a part of a record, or a zero run of a PRUNE operation. -/
def switchCell (x q o : Nat) (up : Bool) (c : Cell) (s : Sw) : Sw :=
  match s.ctx? x, s.op? x o with
  | some k, some p =>
    let pay := bytes64 c.pay
    let g := segOf k p.blk c.idx
    let take (ks : List Nat) (part : Part) (pays : List (BitVec 512)) (s : Sw) : Sw :=
      if !attemptStands k o g part.attempt up then s
      else if up then takeContribution x o q c.idx ks part pays s else takeResult x o q c.idx ks part pays s
    if isZeroRun p pay then
      let s := cutAsm x q o up s
      match zeroRun k p c.idx (if up then p.grants.getD q 0 else cellsOf p.blk) up pay with
      | none => malformed x q o c.idx (min (bytesAt pay 1 2 + 1) (cellsOf p.blk - c.idx)) 0 up s
      | some (n, attempt) => take (span c.idx n) { vals := List.replicate 32 0, attempt := attempt } [c.pay] s
    else
      let (bytes, s) := takePart x q o up c s
      match bytes with
      | none => s
      | some b =>
        match decodeRecord k p up b with
        | .error t => malformed x q o c.idx 1 t up s
        | .ok part => take [c.idx] part (recordParts b) s
  | _, _ => s

/-- A switch child's cell waits: for the launch instant, for a slot, or behind an earlier part of its record that waits (05 R186;
09 R283). -/
def recordWaits (s : Sw) (k : Ctx) (o : Nat) (p : Op) (q : Nat) (c : Cell) : Bool :=
  !s.launched p || noSlot k o ((runCells p c).filter (fun j => !taken k o p q j)) ||
    k.heldCells.any (fun e => e.1 == q && e.2.tc == 3 && e.2.copseq == c.copseq && e.2.idx == c.idx)
/-- A COLL-UP cell of a switch child that stands goes on, or waits. -/
def upRecord (x q o : Nat) (c : Cell) (s : Sw) : Sw :=
  match s.ctx? x, s.op? x o with
  | some k, some p =>
    if recordWaits s k o p q c then s.setCtx x { k with heldCells := k.heldCells ++ [(q, c)] } else switchCell x q o true c s
  | _, _ => s
/-- COLL-UP cells of switch children that wait are tried again: those of operation o that pass a test (05 R186; 09 R283). -/
def recordResume (x o : Nat) (pick : Nat → Cell → Bool) (s : Sw) : Sw :=
  match s.ctx? x with
  | none => s
  | some k =>
    let mine (e : Nat × Cell) : Bool := e.2.tc == 3 && e.2.copseq == o % 64 && pick e.1 e.2
    let s := s.setCtx x { k with heldCells := k.heldCells.filter (fun e => !mine e) }
    each (k.heldCells.filter mine) (fun e s => upRecord x e.1 o e.2 s) s

/-- A collective cell of context x from canopy switch port q. -/
def recordOp (x q : Nat) (c : Cell) (s : Sw) : Sw :=
  match s.ctx? x with
  | none => s
  | some k =>
    let up := c.tc == 3
    if (k.memberOf q).isSome || !(up || c.tc == 4) then s
    else match k.opOfSeq c.copseq with
      | none => if up then grantViolation x q (k.opnumOf c.copseq) c.idx 0 s else s
      | some (o, p) =>
        if c.le != k.leOf o then (if c.tc == 4 && c.cmember == noMember then s else layoutDiscard x q false c s)
        else if !p.isOpen || cellsOf p.blk ≤ c.idx then s
        else if up then
          if k.storeReduction p.blk && upPort k p.blk c.idx == some q then
            s.limited 0x040D q ms (raiseCtx x 0x040D (le 4 (match cellShard k p.blk c.idx with | some e => e.1 | none => 0) ++ le 2 q ++ le 4 c.idx))
          else if p.grants.getD q 0 ≤ c.idx then grantViolation x q o c.idx (p.grants.getD q 0) s
          else if !(expected k p.blk c.idx).contains q then s
          else settle x (upRecord x q o c (clearStall x o q (earlyCheck x o s)))
        else if k.storeReduction p.blk then settle x (mirrorOp x q o c s)
        else if upPort k p.blk c.idx != some q || p.st == .opening then s
        else settle x (switchCell x q o false c s)

/-! ### Notices (02 R58, R61) -/

/-- A notice from the port toward the root of segment g of an operation. -/
def noticeOp (replay : Bool) (x q : Nat) (c : Cell) (s : Sw) : Sw :=
  match s.ctx? x with
  | none => s
  | some k =>
    let g := c.f 0 4
    let attempt := c.f 4 1
    let a := toS16 (c.f 6 2)
    if c.tc != 5 || c.ctype != (if replay then ctReplay else ctAnchor) then s
    else match k.opOfSeq c.opseq with
      | none => s
      | some (o, p) =>
        let lo := (segCells k p.blk g).1
        if !coversSeg k p.blk g || upPort k p.blk lo != some q then s
        else if replay then (if p.isOpen then settle x (takeReplay x o g attempt a s) else s)
        else
          let lastK := (segCells k p.blk g).2 - 1
          let told := if k.storeReduction p.blk then [] else targets k p.blk lastK
          let s := sendNotice ctAnchor x o ((downSwitches k p.blk lastK).filter (fun q => !told.contains q)) (noticeBody g attempt a) s
          settle x (takeAnchor x o g attempt a s)

end Sys2Proof.Machine
end

