-- ==== Sys2Proof/Machine/Routing.lean ====
section
/-! DEFINITION. Where a point-to-point cell goes: ranks, multicast, exchanges, congestion echoes and pacing (04 R147; 10 R337 to
R344, R352 to R358). -/
namespace Sys2Proof.Machine

/-! ### Places (10 R338, R339) -/

/-- The member port bound to a job and rank, not as a backup. -/
def Sw.memberPort (s : Sw) (j d : Nat) : Option Nat :=
  (List.find? (fun (e : Nat × Port) => e.2.reg.binding == some ⟨j, d, false⟩) s.ports).map Prod.fst
/-- The RANK entry of version v that covers rank d of job j. -/
def Sw.rankEntry (s : Sw) (v j d : Nat) : Option RankEnt :=
  (s.ver v).rank.vals.find? (fun e => e.job == j && decide (e.first ≤ d) && decide (d ≤ e.last))
/-- Where R338 sends a cell of job j for rank d. -/
inductive Place where
  /-- A member port. -/
  | member (o : Nat)
  /-- The candidates of a RANK entry. -/
  | cands (l : List Nat)
  /-- Nowhere. -/
  | nowhere
  deriving DecidableEq, Repr
/-- R338. -/
def Sw.find (s : Sw) (v j d : Nat) : Place :=
  if j = 0 && !(s.ver v).rank.vals.any (fun e => e.job == 0) then
    (match s.binding d with
     | some b => if s.up d && b.job == 0 && !b.backup then .member d else .nowhere
     | none => .nowhere)
  else match s.memberPort j d with
    | some o => .member o
    | none => match s.rankEntry v j d with
      | some e => .cands (e.cands.filterMap id)
      | none => .nowhere
/-- Candidates that are UP and permitted for a cell of channel vc from ingress i, with the channel on which it leaves. -/
def Sw.qualify (s : Sw) (i vc : Nat) (l : List Nat) : List (Nat × Nat) :=
  l.filterMap (fun o => if s.up o then (s.permitted i vc o).map (fun w => (o, w)) else none)
/-- FWD cells queued for port o. -/
def Sw.fwdQueued (s : Sw) (o : Nat) : Nat := (((s.port o).q.txq ++ (s.port o).q.spill).filter (fun t => t.vc == 4 || t.vc == 5)).length
/-- The candidate with the fewest FWD cells queued, the lower index on a tie (10 R343). -/
def Sw.leastQueued (s : Sw) (l : List (Nat × Nat)) : Option (Nat × Nat) :=
  l.foldl (fun (b : Option (Nat × Nat)) e => match b with
    | some best => if s.fwdQueued e.1 < s.fwdQueued best.1 then some e else some best
    | none => some e) none

/-! ### Pacing and echoes (10 R352 to R356) -/

/-- An echo for CDST paces the member on port n (10 R355, R356). A rate is kept in whole sixty-fourths (log 28). -/
def pace (n cdst : Nat) (s : Sw) : Sw :=
  let q := (s.port n).q
  match q.limiters.find? (fun l => l.cdst == cdst) with
  | some l =>
    if (s.gtc - l.last).toNat < s.fab.echoGap then s
    else s.modQ n (fun q => { q with limiters := q.limiters.map (fun e => if e.cdst = cdst then { e with rate := max 1 (e.rate / 2), last := s.gtc } else e) })
  | none =>
    let new : Limiter := { cdst := cdst, rate := 32, last := s.gtc }
    if q.limiters.length < 16 then s.modQ n (fun q => { q with limiters := q.limiters ++ [new] })
    else
      let out := q.limiters.foldl (fun (b : Option Limiter) l => match b with
        | some m => if decide (m.rate < l.rate) || (m.rate == l.rate && decide (l.cdst < m.cdst)) then some l else some m
        | none => some l) none
      match out with
      | some v => s.modQ n (fun q => { q with limiters := (q.limiters.erase v) ++ [new] })
      | none => s
/-- A CONG_ECHO reaches the source's leaf on port o (10 R354, R356). -/
def echoDeliver (o : Nat) (c : Cell) (s : Sw) : Sw :=
  let s := if s.pers o = 1 || s.fab.paceAll then pace o (c.f 0 2) s else s
  if s.pers o = 1 then s
  else (enqueue o { cell := c, vc := 8, cls := .ctrl, unitLen := 1, src := selfPort, moved := false, mark := .none } s).2
/-- Send a cell on the first candidate that qualifies; a DRAINING version is left for the ACTIVE one (10 R339). -/
def byRank (i vc : Nat) (c : Cell) (l : List Nat) (again : Cell → Sw → Sw) (f : Nat → Nat → Cell → Sw → Sw) (s : Sw) : Sw :=
  match s.qualify i vc l with
  | (o, w) :: _ => f o w c s
  | [] =>
    if (s.ver c.ep).st == .draining then
      again (c.setEp s.fab.epoch) (s.modCnt i (fun k => { k with epRewrite := k.epRewrite + 1 }))
    else dropRank i (l.headD 0xFFFF) vc s
/-- Route a CONG_ECHO under R338, with MEMBER as the rank it goes to (10 R354). -/
def routeEcho (i vc : Nat) : Nat → Cell → Sw → Sw
  | 0, _, s => dropRank i 0xFFFF vc s
  | fuel + 1, c, s =>
    match s.find c.ep (c.arg % 256) c.member with
    | .member o => echoDeliver o c s
    | .nowhere => dropRoute i c s
    | .cands l => byRank i vc c l (routeEcho i vc fuel) (fun o w c s =>
        (enqueue o { cell := c, vc := w, cls := .ctrl, unitLen := 1, src := i, moved := false, mark := .none } s).2) s
/-- Cells queued for a port. -/
def PortQ.depth (q : PortQ) : Nat := q.txq.length + q.spill.length
/-- A marked cell has been delivered on member port o: a CONG_ECHO goes to its source, at most one in ECHO_GAP_NS (10 R353). -/
def sendEcho (o : Nat) (c : Cell) (s : Sw) : Sw :=
  let n := min 65535 ((s.port o).q.marks.getD c.src 0 + 1)
  let due := match SMap.find? c.src (s.port o).q.echoAt with
    | some t => decide (s.fab.echoGap ≤ (s.gtc - t).toNat)
    | none => true
  if !due then s.modQ o (fun q => { q with marks := q.marks.set c.src n })
  else
    let s := (s.modCnt o (fun k => { k with echoOut := k.echoOut + 1 })).modQ o (fun q =>
      { q with marks := q.marks.erase c.src, echoAt := q.echoAt.set c.src s.gtc })
    let body := le 2 c.dst ++ le 1 c.tc ++ le 1 0 ++ le 2 n ++ le 2 ((s.port o).q.depth / 16) ++ le 8 s.gtc.toNat
    routeEcho selfPort 8 2 ({ hdr := ctrlHdr ctEcho s.fab.epoch 0 c.src 0 (c.job % 256), pay := word64 body }) s

/-! ### Placing a REQ, RSP or FWD cell (10 R352, R353, R358) -/

/-- Place a point-to-point cell in the egress queue of port o: CE is set past CE_THRESH, and a marked delivery is echoed.
A cell that is discarded instead (R110, R349, R358) is not placed: it is neither counted as marked nor echoed. Answers whether
R358 discarded it. -/
def placeCopy (copy : Option (Nat × Nat)) (i o w : Nat) (cls : SvcClass) (moved : Bool) (c : Cell) (s : Sw) : Bool × Sw :=
  let q := (s.port o).q
  let n := ((q.txq ++ q.spill).filter (fun t => (vcsOf c.tc).contains t.vc)).length
  let mark := decide (s.fab.ceThresh ≤ n) && s.up o
  let c := if mark then c.setCe true else c
  let form := (s.wireForm o c).isSome
  let (gone, s) := enqueue o { cell := c, vc := w, cls := cls, unitLen := 1, src := i, moved := moved, mark := .none, copy := copy } s
  let placed := s.up o && form && !gone
  let s := if mark && placed then s.modCnt o (fun k => { k with ceMark := k.ceMark + 1 }) else s
  (gone, if s.isMember o && placed && c.ce && !c.mc then sendEcho o c s else s)
/-- Place a point-to-point cell that is no copy. -/
def placeP2p (i o w : Nat) (cls : SvcClass) (moved : Bool) (c : Cell) (s : Sw) : Bool × Sw := placeCopy none i o w cls moved c s

/-! ### Exchanges (04 R147; 05 R186; 09 R294; 10 R358) -/

/-- The open exchange that a FWD cell names: context and OPNUM. -/
def Sw.exchangeOf (s : Sw) (c : Cell) : Option (Nat × Nat) :=
  if c.tc != 2 || c.mc then none
  else
    let x := c.tag % 4096
    (s.ctx? x).bind (fun k =>
      if k.cfg.job != c.job then none
      else (k.opOfSeq (c.tag / 4096)).bind (fun e => if e.2.isOpen && blkExchange e.2.blk then some (x, e.1) else none))
/-- Event 0x020A: an exchange cell that is not expected. -/
def unexpected (x o p : Nat) (c : Cell) (s : Sw) : Sw :=
  s.limited 0x020A p ms (raiseCtx x 0x020A (le 4 o ++ le 2 c.src ++ le 2 c.dst))
/-- An exchange cell is placed on port o; one that R358 discards fails its operation. -/
def placeExchange (i o w x op : Nat) (c : Cell) (s : Sw) : Sw :=
  let cls := s.collClass o x 2
  let (moved, s) := match cls with
    | .sched _ _ => if s.up o then placeUnit o x 2 1 s else (false, s)
    | _ => (false, s)
  let (gone, s) := placeP2p i o w cls moved c s
  settle x (if gone then failHere x op stLost s else s)
/-- An exchange cell at its destination leaf is counted against its block (04 R147). -/
def exchangeHere (i p o x op : Nat) (c : Cell) (s : Sw) : Sw :=
  match s.op? x op with
  | none => s
  | some e =>
    let key := c.src * 65536 + c.dst
    let have_ := e.exch.cells.getD key 0
    if e.st == .opening || memberCells (e.exch.counts.getD key 0) (s.ecOf e o) ≤ have_ then unexpected x op p c s
    else
      placeExchange i o (firstVc 2) x op c (s.modOp x op (fun e => { e with exch := { e.exch with cells := e.exch.cells.set key (have_ + 1) } }))

/-! ### The way of a point-to-point cell (10 R337 to R343) -/

/-- A multicast cell that arrived on port i. Its copies share one buffer, a fan-out list on the port's tile, which is held while one
of them is queued (10 R342; 11 R370; log 122). -/
def multicast (i vc : Nat) (c : Cell) (s : Sw) : Sw :=
  match SMap.find? c.dst (s.ver c.ep).mcast with
  | some e =>
    if e.job != c.job then
      (s.modCnt i (fun k => { k with dropRoute := k.dropRoute + 1 })).limited 0x0726 i ms (raiseSys 0x0726 (le 2 i ++ le 2 c.dst ++ le 1 c.job))
    else
      let fan := some (i, s.fab.fanNext)
      each ((bitsOf e.mask).filter (· != i)) (fun o s =>
      let member := s.isMember o && (match s.binding o with | some b => b.job == c.job && !b.backup | none => false)
      match (if !s.up o then none else if s.isMember o then (if member then some (firstVc c.tc) else none) else s.permitted i vc o) with
      | none => s.modCnt o (fun k => { k with mcSkip := k.mcSkip + 1 })
      | some w => (placeCopy fan selfPort o w .best false c s).2) (s.modFab (fun f => { f with fanNext := f.fanNext + 1 }))
  | none => (s.modCnt i (fun k => { k with dropRoute := k.dropRoute + 1 })).limited 0x0726 i ms (raiseSys 0x0726 (le 2 i ++ le 2 c.dst ++ le 1 c.job))

/-- Route a REQ, RSP or FWD cell from ingress i; p is the port it came in on. -/
def routeP2p (i p vc : Nat) : Nat → Cell → Sw → Sw
  | 0, _, s => dropRank i 0xFFFF vc s
  | fuel + 1, c, s =>
    let ex := s.exchangeOf c
    match s.find c.ep c.job c.dst with
    | .member o =>
      (match ex with
       | some (x, op) =>
         let leaf := match s.ctx? x with | some k => (k.memberAt o).isSome | none => false
         if leaf then exchangeHere i p o x op c s else placeExchange i o (firstVc c.tc) x op c s
       | none => (placeP2p i o (firstVc c.tc) .best false c s).2)
    | .nowhere => dropRoute i c s
    | .cands l =>
      let q := s.qualify i vc l
      let adapt := c.tc == 2 && ex.isNone && s.fab.adaptive.getLsbD (c.job % 256)
      (match (if adapt then s.leastQueued q else none) with
       | some (o, w) => (placeP2p i o w .best false c s).2
       | none => byRank i vc c l (routeP2p i p vc fuel) (fun o w c s =>
           match ex with
           | some (x, op) => placeExchange i o w x op c s
           | none => (placeP2p i o w .best false c s).2) s)

/-- A REQ, RSP or FWD cell that has come in on port p. Exchange data waits for the launch, with its channel beside its port; that
of a member is discarded before JOINED (04 R147; 05 R186). -/
def p2pCell (p vc : Nat) (c : Cell) (s : Sw) : Sw :=
  if 2 < c.tc then s
  else
    let (c, s) := routeEp p c s
    if c.mc then multicast p vc c s
    else
      match s.exchangeOf c with
      | some (x, o) =>
        (match s.ctx? x, s.op? x o with
         | some k, some e =>
           if e.st == .opening then (if s.isMember p then unexpected x o p c s else routeP2p p p vc 2 c s)
           else if !s.launched e then
             earlyCheck x o (s.setCtx x { k with heldCells := k.heldCells ++ [(p + 1024 * vc, c)] })
           else routeP2p p p vc 2 c s
         | _, _ => s)
      | none => routeP2p p p vc 2 c s
/-- A cell in its wire form is a REQ, RSP or FWD cell. -/
def wireP2p (pers : Nat) (c : Cell) : Bool := decide ((if pers = 1 then c.kind else c.tc) ≤ 2)
/-- A multicast cell that finds no fan-out buffer on the tile of port p stays in the receive buffer (11 R373; log 122). -/
def Sw.fanFull (s : Sw) (p : Nat) (c : Cell) : Bool := s.pers p != 1 && c.tc == 2 && c.mc && (s.serveClass 3 (p / 4) 1).isNone
/-- A REQ, RSP or FWD cell arrives on port p. -/
def p2pArrive (p : Nat) (c : Cell) (s : Sw) : Sw :=
  if s.up p && s.fanFull p c then s else
  let s := if s.up p && wireP2p (s.pers p) c then s.modCnt p (fun k => { k with fwdIn := k.fwdIn + 1 }) else s
  let vc := if s.isMember p then firstVc (if s.pers p = 1 then c.kind else c.tc) else s.rxVc p c
  let (oc, s) := ingress p c s
  match oc with
  | some c => p2pCell p vc c s
  | none => s
/-- Exchange data that waited for the launch of operation o goes on (05 R186). -/
def releaseExchange (x o : Nat) (s : Sw) : Sw :=
  match s.ctx? x with
  | none => s
  | some k =>
    let mine (e : Nat × Cell) : Bool := e.2.tc == 2 && e.2.tag / 4096 == o % 64
    let s := s.setCtx x { k with heldCells := k.heldCells.filter (fun e => !mine e) }
    each (k.heldCells.filter mine) (fun e s => p2pCell (e.1 % 1024) (e.1 / 1024) e.2 s) s

end Sys2Proof.Machine
end

