-- ==== Sys2Proof/Machine/Fabric.lean ====
section
/-! DEFINITION. The commands of the Fabric family: point-to-point cells, echoes, pacing, member stalls and the service of an egress
port (03 R88 to R93; 04 R139, R149, R156; 05 R183; 10 R338, R354 to R358; 15 R488; 16 R518, R520). -/
namespace Sys2Proof.Machine

/-- P2P_CELL_RECEIVE (10 R338). -/
def execP2pCellReceive (port : Nat) (cell : Cell) (s : State) : Res := lift (p2pArrive port cell) s
/-- A CONG_ECHO arrives: from a member it is discarded (10 R353, R354). -/
def echoArrive (p : Nat) (c : Cell) (s : Sw) : Sw :=
  let vc := s.rxVc p c
  if s.up p && s.isMember p then idDiscard p (consume p c s)
  else
    let (oc, s) := ingress p c s
    match oc with
    | none => s
    | some c =>
      if c.tc != 5 || c.ctype != ctEcho then s
      else let (c, s) := routeEp p c s; routeEcho p vc 2 c s
/-- CONG_ECHO_RECEIVE (10 R354). -/
def execCongEchoReceive (port : Nat) (cell : Cell) (s : State) : Res := lift (echoArrive port cell) s
/-- A limiter entry rises by a sixty-fourth of the port rate; at the full rate it lapses (10 R355). -/
def paceRaise (n cdst : Nat) (s : Sw) : Sw :=
  let up (l : Limiter) : Limiter := if l.cdst = cdst then { l with rate := l.rate + 1 } else l
  s.modQ n (fun q => { q with limiters := (q.limiters.map up).filter (fun l => decide (l.rate < 64)) })
/-- PACING_RAISE_TIMER (10 R356). -/
def execPacingRaiseTimer (port cdst : Nat) (s : State) : Res := lift (paceRaise port cdst) s

/-- A member port has held no credit of a class for FWD_STALL_US: its cells of the class are discarded (10 R358). -/
def memberStallOp (n tc : Nat) (s : Sw) : Sw :=
  if !s.up n || !s.isMember n || (tc != 0 && tc != 2) || (s.port n).q.stalled.mem tc || nth 0 (s.port n).link.txCredit (firstVc tc) != 0 then s
  else
    let mine (i : TxItem) : Bool := (vcsOf tc).contains i.vc
    let q := (s.port n).q
    let gone := (q.txq ++ q.spill).filter mine
    let s := s.modQ n (fun q => { q with txq := q.txq.filter (fun i => !mine i), spill := q.spill.filter (fun i => !mine i),
                                         stalled := q.stalled.set tc gone.length })
    let s := s.modCnt n (fun k => { k with dropStall := k.dropStall + BitVec.ofNat 32 gone.length })
    let s := stallEvent n tc 1 gone.length s
    each (gone.filterMap (fun i => s.exchangeOf i.cell)) (fun e s => settle e.1 (failHere e.1 e.2 stLost s)) s
/-- MEMBER_EGRESS_STALL (10 R358). -/
def execMemberEgressStall (port tc : Nat) (s : State) : Res := lift (memberStallOp port tc) s

/-! ### Frames leave (03 R88 to R92; 16 R518, R520) -/

/-- The stamp of a TIME cell is filled in as its frame leaves; for the DELAY_REQ of the time parent it is t3 (03 R102; 05 R175). -/
def stampOut (n : Nat) (it : TxItem) (s : Sw) : Cell × Sw :=
  if it.vc != 10 then (it.cell, s)
  else
    let c := it.cell
    let ttype := field c.hdr 56 3
    let seq := if s.pers n = 1 then place (field c.hdr 46 2) 14 + field c.hdr 32 14 else c.seqid
    let c := { c with pay := (c.pay &&& ~~~ dmask 0 9) ||| word64 (le 8 s.gtc.toNat ++ le 1 s.time.frac) }
    match s.sync.req with
    | some (r, _) => (c, if ttype = 1 && r.toNat = seq && s.sync.src == .port n then s.modSync (fun y => { y with req := some (r, s.gtc16) }) else s)
    | none => (c, s)

/-! ### Consequences of cells that leave (04 R139, R149, R156; 09 R281) -/

/-- At the root of a grid cell, a slot is freed when the last result cell drawn from it has been sent (04 R139). -/
def freeSent (x o : Nat) (s : Sw) : Sw :=
  match s.ctx? x, s.op? x o with
  | some c, some p =>
    s.setCtx x { c with slots := c.slots.filter (fun e =>
      let k := e.1 % 2 ^ 24
      !(e.1 / 2 ^ 24 == o && e.2.sst == 3 && (upPort c p.blk k).isNone && (targets c p.blk k).all (fun q => leftAll s c p q k (k + 1)))) }
  | _, _ => s
/-- What becomes true when the cell with this mark has left. -/
def applyMark (m : Mark) (s : Sw) : Sw :=
  match m with
  | .none => s
  | .upRecord x o k n =>
    let s := s.modOp x o (fun p => { p with cbits := p.cbits ||| rangeSet k n })
    settle x (s.modCtx x (fun c => { c with slots := c.slots.filter (fun e =>
      !(e.1 / 2 ^ 24 == o && e.2.sst == 3 && decide (k ≤ e.1 % 2 ^ 24) && decide (e.1 % 2 ^ 24 < k + n))) }))
  | .result x o q a n =>
    settle x (freeSent x o (s.modOp x o (fun p => { p with sentTo := p.sentTo.set q (p.sentTo.getD q 0 ||| rangeSet a n) })))
  | .complete x _ _ => settle x s

/-! ### The next cell (05 R183; 10 R357; 15 R488) -/

/-- An item may leave port n now: its channel has credit and its unit has not been moved to a later frame. -/
def Sw.ready (s : Sw) (n : Nat) (i : TxItem) : Bool :=
  !i.moved && decide (nth 0 (s.port n).link.txCredit i.vc ≠ 0)
/-- A collective cell, by its channel. -/
def TxItem.coll (i : TxItem) : Bool := i.vc == 6 || i.vc == 7
/-- Items of one order: one service class, channel and ingress. -/
def TxItem.along (i j : TxItem) : Bool := i.cls == j.cls && i.vc == j.vc && i.src == j.src
/-- The next part of a record of which parts have left (02 R64). -/
def begun (l : List TxItem) (i : TxItem) : Bool := i.unitLen == 0 && l.find? i.along == some i
/-- A collective cell that would part the cells of a record: while a record is under way on the port every other collective
cell of its context waits, and collective cells in transit keep the order in which they came (02 R64; 10 R357; log 110). -/
def heldBack (l : List TxItem) (i : TxItem) : Bool :=
  i.coll &&
    (l.any (fun j => j.coll && j.cell.anyCtx == i.cell.anyCtx && begun l j && !(j == i)) ||
     (decide (i.src < selfPort) && l.find? (fun j => j.coll && j.cell.anyCtx == i.cell.anyCtx && j.src == i.src) != some i))
/-- The scheduled item whose turn it is: contexts in ascending (SRANK, CTX), the units of each in their order. -/
def pickSched (s : Sw) (n : Nat) (l : List TxItem) : Option TxItem :=
  let xs := dedup (l.filterMap (fun i => match i.cls with | .sched x _ => some x | _ => none))
  let key (x : Nat) : Nat := (match s.ctx? x with | some c => c.srank | none => 255) * 4096 + x
  let order := sortAsc (xs.map key)
  order.findSome? (fun k => (l.find? (fun i => i.cls.ofCtx (k % 4096))).bind
    (fun i => if s.ready n i && !heldBack l i then some i else none))
/-- The item of channel vc whose ingress has its turn. -/
def pickIngress (s : Sw) (n vc : Nat) (l : List TxItem) : Option TxItem :=
  let mine := l.filter (fun i => i.cls == .best && i.vc == vc)
  let srcs := sortAsc (dedup (mine.map (fun i => i.src)))
  let last := (s.port n).q.rrIn.getD vc 0
  let turn := srcs.filter (fun i => decide (last < i)) ++ srcs.filter (fun i => decide (i ≤ last))
  turn.findSome? (fun src => (mine.find? (fun i => i.src == src)).bind
    (fun i => if s.ready n i && !heldBack l i then some i else none))
/-- Channels of the best-effort classes in their order: the second channel before the first. -/
def bestVcs (cls : Nat) : List Nat := match cls with | 0 => [1, 0] | 1 => [5, 4] | 2 => [6] | _ => [7]
/-- A best-effort class offers this item. -/
def pickClass (s : Sw) (n : Nat) (l : List TxItem) (vcs : List Nat) : Option TxItem := vcs.findSome? (fun v => pickIngress s n v l)
/-- The best-effort item: RSP first, then the classes by deficit round robin. Answers the class served and its deficit. -/
def pickBest (s : Sw) (n : Nat) (l : List TxItem) : Option (TxItem × Option (Nat × Nat)) :=
  match pickClass s n l [3, 2] with
  | some i => some (i, none)
  | none =>
    let q := (s.port n).q
    let here := if q.deficit = 0 then none else (pickClass s n l (bestVcs q.rr)).map (fun i => (i, some (q.rr, q.deficit - 1)))
    here.or ((List.range 4).findSome? (fun d =>
      let c := (q.rr + 1 + d) % 4
      (pickClass s n l (bestVcs c)).map (fun i => (i, some (c, s.fab.beQuantum - 1)))))
/-- Cells that best effort may still send in this frame under ESHARE: scheduled cells of the frame count first (15 R488). -/
def Sw.bestRoom (s : Sw) (n : Nat) : Bool :=
  let q := (s.port n).q
  let due := (q.txq.filter (fun i => (match i.cls with | .sched _ _ => true | _ => false) && !i.moved)).length
  decide (q.sent + due < s.shareLimit n)
/-- The cell that port n serves next, with the state of the round robin. -/
def pickItem (s : Sw) (n : Nat) : Option (TxItem × Option (Nat × Nat)) :=
  let l := (s.port n).q.txq
  match l.find? (fun i => i.cls == .portLayer) with
  | some i => some (i, none)
  | none => match l.find? (fun i => i.cls == .ctrl && s.ready n i) with
    | some i => some (i, none)
    | none => match pickSched s n l with
      | some i => some (i, none)
      | none => if s.bestRoom n then pickBest s n l else none

/-! ### Service of an UP port -/

/-- Cells spilled for a member port move into its queue in order (10 R358). -/
def refill (n : Nat) (s : Sw) : Sw :=
  s.modQ n (fun q =>
    let k := 1024 - q.held
    { q with txq := q.txq ++ q.spill.take k, spill := q.spill.drop k })
/-- An item leaves port n in a data frame. -/
def sendItem (n : Nat) (it : TxItem) (rr : Option (Nat × Nat)) (s : Sw) : Sw :=
  let (c, s) := stampOut n it s
  let port := it.cls == .portLayer
  let beat := port && wireCtype (s.pers n) c == ctHeartbeat
  let s := s.modQ n (fun q => { q with
    txq := q.txq.erase it
    sent := q.sent + 1
    rrIn := if it.cls == .best then q.rrIn.set it.vc it.src else q.rrIn
    rr := match rr with | some (c, _) => c | none => q.rr
    deficit := match rr with | some (_, d) => d | none => q.deficit })
  let s := refill n s
  let s := if !port && decide (it.vc < 6) then s.modCnt n (fun k => { k with fwdOut := k.fwdOut + 1 }) else s
  let seq := (s.port n).link.txSeq
  let f := frameOf s n seq [(c, if port then 8 else it.vc)]
  let now := s.now
  let s := s.modLink n (fun l => { l with
    txSeq := l.txSeq + 1
    replayBuf := l.replayBuf ++ [({ frame := f, replays := 0, sentAt := now, marks := [it.mark] } : SentFrame)]
    sentCell := l.sentCell || !beat
    txCredit := if port then l.txCredit else setNth l.txCredit it.vc (nth 0 l.txCredit it.vc - 1) })
  applyMark it.mark (transmit n f s)
/-- The next frame of the replay goes again, with the acknowledgement of this moment (03 R91, R92). -/
def sendAgain (n : Nat) (s : Sw) : Sw :=
  let l := (s.port n).link
  let i := l.replayBuf.length - l.resend
  match l.replayBuf[i]? with
  | none => s.modLink n (fun l => { l with resend := 0 })
  | some f =>
    let cells := ((List.range 4).filter f.frame.valid).map (fun j => (f.frame.pos.getD j { hdr := 0, pay := 0 }, f.frame.vc j))
    let g := frameOf s n f.frame.fseq cells
    let now := s.now
    transmit n g (s.modLink n (fun l => { l with resend := l.resend - 1,
                                                 replayBuf := setNth l.replayBuf i { f with replays := f.replays + 1, sentAt := now } }))
/-- An idle frame (03 R89). -/
def sendIdle (n : Nat) (s : Sw) : Sw := transmit n (frameOf s n (s.port n).link.txSeq []) s
/-- One frame of a port that is not UP: LINK_ID in IDENTIFY, or LINK_DOWN after UP, whose third frame stops the transmitter unless the
port searches again (03 R106, R116). -/
def serveDown (n : Nat) (s : Sw) : Sw :=
  let p := s.port n
  if p.reg.state == .identify then
    match p.q.txq.find? (fun i => i.cls == .portLayer) with
    | some it => transmit n (frameOf s n p.link.txSeq [(it.cell, 8)]) (s.modQ n (fun q => { q with txq := q.txq.erase it }))
    | none => s
  else match p.link.linkDown with
    | none => s
    | some (k, reason) =>
      (downFrame n reason s).modLink n (fun l => { l with
        linkDown := if k ≤ 1 then none else some (k - 1, reason), txOn := l.txOn && (p.reg.state == .search || decide (1 < k)) })
/-- Port n sends its next frame. -/
def serveOp (n : Nat) (s : Sw) : Sw :=
  let l := (s.port n).link
  if !l.txOn then s
  else if !s.up n then serveDown n s
  else if l.resend ≠ 0 then sendAgain n s
  else if s.replayCap n ≤ l.replayBuf.length then sendIdle n s
  else match pickItem s n with
    | some (it, rr) => sendItem n it rr s
    | none => sendIdle n s
/-- EGRESS_SERVICE (05 R183; 10 R357). -/
def execEgressService (port : Nat) (s : State) : Res := lift (serveOp port) s

end Sys2Proof.Machine
end

