-- ==== Sys2Proof/Machine/Lanes.lean ====
section
/-! DEFINITION. The commands of the optical lanes: lock, training, loss of signal and of lock, automatic power reduction, test
generator, checker and error injection (13 R443 to R456, R462, R464). -/
namespace Sys2Proof.Machine

/-! ### Training (R443 to R446) -/

/-- Presets 1 to 3 of the transmitter taps (R446). -/
def preset (k : Nat) : Taps :=
  match k with
  | 2 => { cm1 := -6, c0 := 34 }
  | 3 => { cm1 := -4, c0 := 32, c1 := -4 }
  | _ => {}
/-- Every tap in its range and the sum of the absolute values at most 40 (R446). -/
def Taps.fits (t : Taps) : Bool :=
  decide (-2 ≤ t.cm3) && decide (t.cm3 ≤ 0) && decide (0 ≤ t.cm2) && decide (t.cm2 ≤ 4) && decide (-12 ≤ t.cm1) && decide (t.cm1 ≤ 0) &&
    decide (20 ≤ t.c0) && decide (t.c0 ≤ 40) && decide (-8 ≤ t.c1) && decide (t.c1 ≤ 0) &&
    decide (t.cm3.natAbs + t.cm2.natAbs + t.cm1.natAbs + t.c0.natAbs + t.c1.natAbs ≤ 40)
/-- Taps with which a lane starts TRAIN at a rate (R446). The partner's DEVICE_ID is the one of the port's last UP. -/
def startTaps (s : Sw) (n rate : Nat) (l : Lane) : Taps :=
  if l.txInit != 0 then preset l.txInit
  else match l.conv with
    | some (id, r, t) => if r = rate && id == (s.port n).reg.partnerId then t else preset 1
    | none => preset 1
/-- TRAIN_MS in force (R462). -/
def Lane.trainLimit (l : Lane) : Nat := if l.trainMs = 0 then 100 else l.trainMs
/-- The receiver of lane l locks to training frames at a rate. -/
def laneLockOp (l rate : Nat) (s : Sw) : Sw :=
  match s.portOfLane l with
  | none => s
  | some n =>
    let others := (s.lanesOf n).filter (fun k => k != l)
    let elsewhere := others.any (fun k => (s.lane k).rate != 0 && (s.lane k).rate != rate && (s.lane k).state != .search && (s.lane k).state != .idle)
    if (s.lane l).state != .search || !(allowedRates (s.port n).reg.allowNow).contains rate || elsewhere then s
    else
      let taps := startTaps s n rate (s.lane l)
      let now := s.now
      s.modLane l (fun x => { x with
        state := .train, rate := rate, txRate := rate, lol := false, taps := taps, since := now, rxReady := false
        partnerReady := false, notSup := 0, applied := none, reqSeq := (0, false), ctl := 0, asked := 0, finish := (0, 0) })
/-- LANE_LOCK (R443). -/
def execLaneLock (lane rate : Nat) (s : State) : Res := lift (laneLockOp lane rate) s

/-- A word with its CRC-8 in bits 31 to 24 (R445). -/
def crcWord (x : Nat) : Word := BitVec.ofNat 32 (x % 2 ^ 24 + place (crc8Word (x % 2 ^ 24)) 24)
/-- The CRC-8 of a control or status word holds. -/
def crcGood (w : Word) : Bool := crc8Word (w.toNat % 2 ^ 24) == w.toNat / 2 ^ 24
/-- One step of a tap: request 1 INCREMENT, 2 DECREMENT. -/
def tapStep (req : Nat) (x : Int) : Int := if req = 1 then x + 1 else if req = 2 then x - 1 else x
/-- The taps after each requested step. -/
def Taps.ask (w : Nat) (i : Nat) (t : Taps) : Taps :=
  let req := w / 4 ^ i % 4
  match i with
  | 0 => { t with cm3 := tapStep req t.cm3 }
  | 1 => { t with cm2 := tapStep req t.cm2 }
  | 2 => { t with cm1 := tapStep req t.cm1 }
  | 3 => { t with c0 := tapStep req t.c0 }
  | _ => { t with c1 := tapStep req t.c1 }
/-- The five statuses that answer a control word, and the taps after it (R446). A step that does not fit is answered AT_LIMIT
and leaves every tap unchanged. -/
def answer (ignore : Bool) (w : Nat) (t : Taps) : Nat × Taps :=
  let pre := w / 2 ^ 13 % 8
  let asked (i : Nat) : Bool := w / 4 ^ i % 4 == 1 || w / 4 ^ i % 4 == 2
  let all (st : Nat) : Nat := ((List.range 5).map (fun i => if asked i then st * 4 ^ i else 0)).foldl (· + ·) 0
  if ignore then ((if pre = 0 then all 3 else 1023), t)
  else if 1 ≤ pre && pre ≤ 3 then (341, preset pre)
  else
    let one := (List.range 5).filter (fun i => asked i && !(t.ask w i).fits)
    let new := (List.range 5).foldl (fun t i => t.ask w i) t
    if one.isEmpty && new.fits then (all 1, new)
    else
      let bad := if one.isEmpty then (List.range 5).filter asked else one
      ((bad.map (fun i => 2 * 4 ^ i)).foldl (· + ·) 0, t)
/-- The partner's control word is applied once per new SEQ. -/
def applyControl (w : Word) (l : Lane) : Lane :=
  let seq := field w 16 8
  let known := match l.applied with | some (q, _) => q == seq | none => false
  if !crcGood w || known then l
  else
    let (st, taps) := answer l.ignoreReq w.toNat l.taps
    { l with taps := taps, applied := some (seq, BitVec.ofNat 16 st) }
/-- The partner's status word: RX_READY, and the echo that ends an exchange. A tap answered NOT_SUPPORTED is asked for no more. -/
def applyStatus (w : Word) (l : Lane) : Lane :=
  if !crcGood w then l
  else
    let l := { l with partnerReady := bit w 12 }
    if l.reqSeq.2 && field w 16 8 == l.reqSeq.1 then
      let no := (List.range 5).foldl (fun (v : BitVec 5) i => if field w (2 * i) 2 = 3 then setBit v i else v) l.notSup
      { l with reqSeq := (l.reqSeq.1, false), notSup := no }
    else l
/-- The control word for the next frame: the receiver's wishes are free values; none while an echo is awaited, under NO_REQ
or once RX_READY is set (R446). -/
def nextControl (l : Nat) (s : Sw) : Sw :=
  let x := s.lane l
  if x.reqSeq.2 || x.noReq || x.rxReady then s
  else
    let (v, s) := s.draw
    let reqs := (List.range 5).map (fun i => let r := field v (2 * i) 2; if r = 3 || x.notSup.getLsbD i then 0 else r)
    let pre := field v 10 2
    let w := ((List.range 5).map (fun i => nth 0 reqs i * 4 ^ i)).foldl (· + ·) 0 + place pre 13
    if w = 0 then s
    else
      let seq := (x.reqSeq.1 + 1) % 256
      let asked := (List.range 5).foldl (fun (v : BitVec 5) i => if pre != 0 || nth 0 reqs i != 0 then setBit v i else v) 0
      s.modLane l (fun x => { x with reqSeq := (seq, true), ctl := crcWord (w + place seq 16), asked := asked })
/-- The status word of the next frame. -/
def Lane.status (l : Lane) : Word :=
  let (seq, st) := l.applied.getD (0, 0)
  crcWord (st.toNat % 1024 + place (b2n l.rxReady) 12 + place seq 16)
/-- A signed byte for each tap. -/
def Taps.content (t : Taps) : List Byte := leInt 1 t.cm3 ++ leInt 1 t.cm2 ++ leInt 1 t.cm1 ++ leInt 1 t.c0 ++ leInt 1 t.c1
/-- Every lane of port n goes to SEARCH. -/
def lanesSearch (n : Nat) (s : Sw) : Sw :=
  modLanes n (fun x => x.toSearch ((allowedRates (s.port n).reg.allowNow).headD 3)) s
/-- The lane states of R443 after a frame, told the skew between the lanes of the port. -/
def trainAdvance (l skew : Nat) (s : Sw) : Sw :=
  let x := s.lane l
  if !x.rxReady then s.modLane l (fun x => { x with state := .train, finish := (0, 0) })
  else if x.state == .train then
    if x.partnerReady then s.modLane l (fun x => { x with state := .finish, finish := (0, 0) }) else s
  else
    let got := if x.partnerReady then x.finish.2 + 1 else 0
    let s := s.modLane l (fun x => { x with finish := (min 32 (x.finish.1 + 1), min 32 got) })
    if (s.lane l).finish != (32, 32) then s
    else
      let s := s.modLane l (fun x => { x with state := .data, trainOk := x.trainOk + 1 })
      let s := raiseSys 0x0900 (le 2 l ++ le 1 x.rate ++ x.taps.content ++ le 2 x.snr.toNat) s
      match s.portOfLane l with
      | none => s
      | some n =>
        if (s.port n).reg.state != .search || (s.lanesOf n).any (fun k => (s.lane k).state != .data) then s
        else if skew ≤ 40 then toIdentify n (s.modReg n (fun r => { r with detected := x.rate }))
        else raiseSys 0x0906 (le 2 n ++ le 8 skew) (lanesSearch n s)
/-- A training frame of the partner: its words, and the receiver's own RX_READY and SNR. -/
def trainingFrame (l : Nat) (control status : Word) (ready : Bool) (snr : Half) (skew : Nat) (s : Sw) : Sw :=
  if (s.lane l).state != .train && (s.lane l).state != .finish then s
  else
    let s := s.modLane l (fun x => applyStatus status (applyControl control { x with rxReady := ready, snr := snr }))
    let s := nextControl l s
    let s := s.out (.training l (s.lane l).ctl (s.lane l).status)
    trainAdvance l skew s
/-- TRAINING_FRAME_RECEIVE (R446). -/
def execTrainingFrameReceive (lane : Nat) (control status : Word) (ready : Bool) (snr : Half) (skewNs : Nat) (s : State) : Res :=
  lift (trainingFrame lane control status ready snr skewNs) s
/-- 2 ms without the echo: the taps asked for count as NOT_SUPPORTED (R446). -/
def echoTimeout (l : Nat) (s : Sw) : Sw :=
  s.modLane l (fun x => if x.reqSeq.2 then { x with reqSeq := (x.reqSeq.1, false), notSup := x.notSup ||| x.asked } else x)
/-- TAP_ECHO_TIMEOUT (R446). -/
def execTapEchoTimeout (lane : Nat) (s : State) : Res := lift (echoTimeout lane) s
/-- LSTATE (R462). -/
def LaneSt.code (t : LaneSt) : Nat := match t with | .idle => 0 | .search => 1 | .train => 2 | .finish => 3 | .data => 4 | .test => 5
/-- TRAIN_MS has passed in TRAIN or FINISH, or waiting in DATA for another lane of the port (R443, R444). -/
def trainTimeoutOp (l : Nat) (s : Sw) : Sw :=
  let x := s.lane l
  let failed (s : Sw) : Sw :=
    raiseSys 0x0901 (le 2 l ++ le 1 x.state.code ++ le 4 ((s.now - x.since) / ms)) (s.modLane l (fun x => { x with trainBad := x.trainBad + 1 }))
  match s.portOfLane l with
  | none => s
  | some n =>
    if x.state == .train || x.state == .finish then
      failed (s.modLane l (fun x => x.toSearch ((allowedRates (s.port n).reg.allowNow).headD 3)))
    else if x.state == .data && (s.port n).reg.state == .search then failed (lanesSearch n s)
    else s
/-- TRAIN_TIMEOUT (R443). -/
def execTrainTimeout (lane : Nat) (s : State) : Res := lift (trainTimeoutOp lane) s

/-! ### Loss of signal and of lock, APR (R447 to R451) -/

/-- What a lost lane does to its port (R443, R449): an UP port goes to LOST, a lane of another port that is not in LOST searches at
its last rate. -/
def laneFailed (l : Nat) (s : Sw) : Sw :=
  let s := s.modLane l (fun x => { x with rxReady := false })
  let s := match s.portOfLane l with
    | none => s
    | some n =>
      let st := (s.port n).reg.state
      if st == .up then toLost n 2 none none s
      else if st == .lost then s
      else
        let x := s.lane l
        if x.state == .train || x.state == .finish || x.state == .data then s.modLane l (fun x => x.toSearch x.rate) else s
  splitChoose (l / 4) s
/-- Loss of signal is asserted on lane l at this power. The receivers of inactive four-lane ports are ignored (R440). -/
def laneLosOp (l : Nat) (power : Half) (s : Sw) : Sw :=
  if !s.quadActive (l / 4) then s
  else
  let s := s.modLane l (fun x => { x with rxPower := power })
  if (s.lane l).los then s
  else
    let s := s.modLane l (fun x => { x with los := true, losCount := x.losCount + 1 })
    laneFailed l (s.limited 0x0902 l ms (raiseSys 0x0902 (le 2 l ++ le 2 power.toNat)))
/-- LANE_LOS (R447). -/
def execLaneLos (lane : Nat) (power : Half) (s : State) : Res := lift (laneLosOp lane power) s
/-- LANE_LOS_CLEAR (R447, R450): the lane also leaves APR. -/
def execLaneLosClear (lane : Nat) (power : Half) (s : State) : Res :=
  lift (fun w => onlyIf (w.quadActive (lane / 4)) (Sw.modLane lane (fun x => { x with los := false, apr := false, pulse := none, rxPower := power })) w) s
/-- Loss of lock is asserted on lane l: cause 1 frequency, 2 alignment markers. -/
def laneLolOp (l cause : Nat) (s : Sw) : Sw :=
  if !s.quadActive (l / 4) || (s.lane l).lol then s
  else
    let s := s.modLane l (fun x => { x with lol := true, lolCount := x.lolCount + 1 })
    laneFailed l (s.limited 0x0903 l ms (raiseSys 0x0903 (le 2 l ++ le 1 cause)))
/-- LANE_LOL (R448). -/
def execLaneLol (lane cause : Nat) (s : State) : Res := lift (laneLolOp lane cause) s
/-- Loss of signal has held for 200 us (R450). -/
def aprEnter (l : Nat) (s : Sw) : Sw :=
  if !s.quadActive (l / 4) || !(s.lane l).los || (s.lane l).apr then s
  else
    let s := s.modLane l (fun x => { x with apr := true, aprCount := x.aprCount + 1 })
    match s.portOfLane l with
    | none => s
    | some n => s.limited 0x0904 n (1000 * ms) (fun s =>
        raiseSys 0x0904 (le 2 n ++ cList (((s.lanesOf n).filter (fun k => (s.lane k).apr)).map (le 2))) s)
/-- APR_ENTERED (R450). -/
def execAprEntered (lane : Nat) (s : State) : Res := lift (aprEnter lane) s
/-- The lane emits light in a restart pulse: in SEARCH, TRAIN or TEST, and not in near-end loopback (R450, R452). -/
def Lane.lit (l : Lane) : Bool := l.state != .idle && l.test.loopback != 1
/-- APR_RESTART_PULSE (R450). -/
def execAprRestartPulse (lane : Nat) (s : State) : Res :=
  lift (fun w => w.modLane lane (fun x => if x.apr && x.lit && !w.laneDark lane then { x with pulse := some w.now } else x)) s

/-! ### Tests (R453 to R456, R462) -/

/-- Offset of a register of the LANE entry of lane l. -/
def laneOffset (l off : Nat) : Nat := 0x40000 + 0x100 * l + off
/-- CLEAR (R455). -/
def execClear (lane : Nat) (s : State) : Res := lift (Sw.modTest lane (fun t => { t with bits := 0, errs := 0 })) s
/-- LANE_INJECT as the fields give it. -/
def injectValue (count period syms mode : Nat) : Nat := place (count % 256) 24 + place (period % 32) 16 + place (syms % 32) 8 + mode
/-- A write of LANE_INJECT with a mode other than 0 (R456). A field outside its range breaks the register's rule. -/
def injectWrite (func l count period syms mode : Nat) (s : Sw) : Sw :=
  let ok := match mode with
    | 1 => (s.lane l).test.genEn
    | 2 => (s.lane l).test.genEn && decide (10 ≤ period)
    | _ => (match s.portOfLane l with | some n => s.up n | none => false) && decide (1 ≤ syms) && decide (syms ≤ 16) && decide (1 ≤ count)
  if !ok then regDiscard func (laneOffset l 0x1C) (injectValue count period syms mode) 1 s
  else
    let s := s.modTest l (fun t => { t with injCount := count, injPeriod := period, injSyms := syms, injMode := if mode = 2 then 2 else 0 })
    match mode with
    | 1 => s.modTest l (fun t => { t with injected := t.injected + 1 })
    | 2 => s
    | _ => each (List.range count) (fun _ s => s.out (.corrupt l syms)) s
/-- INJECT_SINGLE (R456). -/
def execInjectSingle (lane : Nat) (s : State) : Res :=
  lift (fun w => injectWrite 0 lane (w.lane lane).test.injCount (w.lane lane).test.injPeriod (w.lane lane).test.injSyms 1 w) s
/-- INJECT_PERIODIC (R456). -/
def execInjectPeriodic (lane periodLog2 : Nat) (s : State) : Res :=
  lift (fun w => injectWrite 0 lane (w.lane lane).test.injCount (periodLog2 % 32) (w.lane lane).test.injSyms 2 w) s
/-- INJECT_FEC_SYMBOLS (R456). -/
def execInjectFecSymbols (lane syms count : Nat) (s : State) : Res :=
  lift (fun w => injectWrite 0 lane (count % 256) (w.lane lane).test.injPeriod (syms % 32) 3 w) s
/-- A write of LANE_TEST_CTRL[l] (R443, R454, R462). -/
def testWrite (func l : Nat) (value : Word) (s : Sw) : Sw :=
  let disabled := match s.portOfLane l with | some n => (s.port n).reg.state == .disabled | none => false
  let gen := bit value 4
  let chk := bit value 5
  let lb := field value 6 2
  if bit value 10 || field value 12 20 != 0 then regDiscard func (laneOffset l 0x18) value.toNat 0 s
  else if field value 8 2 = 0 || 1 < lb || 5 < field value 0 3 || ((gen || chk || lb != 0) && !disabled) then
    regDiscard func (laneOffset l 0x18) value.toNat 1 s
  else
    s.modLane l (fun x =>
      let t := { x.test with
        trate := field value 8 2, loopback := lb, chkEn := chk, genEn := gen, invert := bit value 3, pattern := field value 0 3
        chkLocked := x.test.chkLocked && chk, bits := if bit value 11 then 0 else x.test.bits, errs := if bit value 11 then 0 else x.test.errs }
      { x with test := t, state := if gen || chk || lb != 0 then .test else if x.state == .test then .idle else x.state })
/-- LANE_TEST_START (R454). -/
def execLaneTestStart (lane : Nat) (value : Word) (s : State) : Res := lift (testWrite 0 lane value) s
/-- CHECKER_LOCKED (R455): `bits` bits have been checked since. -/
def execCheckerLocked (lane : Nat) (bits : Quad) (s : State) : Res :=
  lift (Sw.modTest lane (fun t => if t.chkEn then { t with chkLocked := true, bits := t.bits + bits.setWidth 48 } else t)) s
/-- CHECKER_LOCK_LOST (R455): the seventeenth error within 64 bits has been counted. -/
def execCheckerLockLost (lane : Nat) (s : State) : Res :=
  lift (Sw.modTest lane (fun t => if t.chkLocked then { t with chkLocked := false, errs := t.errs + 17 } else t)) s

end Sys2Proof.Machine
end

