-- ==== Sys2Proof/Machine/Lasers.lean ====
section
/-! DEFINITION. The commands of the engines' feeds and of the laser sites, and the site buttons (13 R457 to R461, R463, R464;
15 R501; 16 R530, R532, R533). -/
namespace Sys2Proof.Machine

/-! ### Engines and their feeds (R457, R458) -/

/-- Engine fed by output o of site m. -/
def engineOf (m o : Nat) : Nat := 8 * (m / 4) + 4 * (m % 4 / 2) + o
/-- The site of feed A or B of engine e. -/
def siteOf (e : Nat) (feedB : Bool) : Nat := 4 * (e / 8) + 2 * (e % 8 / 4) + b2n feedB
/-- Site m is used on this variant. -/
def Sw.siteUsed (s : Sw) (m : Nat) : Bool := s.glb.variant == 0 || decide (m % 4 < 2)
/-- The ports of engine e: four four-lane ports. -/
def enginePorts (e : Nat) : List Nat := span (16 * e) 16
/-- The module of site m is RAMP or ON. -/
def Site.lit (x : Site) : Bool := x.state == .ramp || x.state == .on
/-- Feed B or A of engine e is OK. -/
def Engine.ok (e : Engine) (feedB : Bool) : Bool := if feedB then e.bOk else e.aOk
/-- Set a feed. -/
def Engine.setFeed (feedB ok : Bool) (power : Half) (e : Engine) : Engine :=
  if feedB then { e with bOk := ok, bPower := power } else { e with aOk := ok, aPower := power }
/-- Event 0x0918: 1 ready, 2 blocked, 3 resumed; the engine that lacks a feed, 0xFF none. -/
def removeEvent (m what : Nat) (e : Option Nat) (s : Sw) : Sw := raiseSys 0x0918 (le 1 m ++ le 1 what ++ le 1 (e.getD 0xFF)) s
/-- EN and MUTE_N of site m as a state wants them. -/
def Site.drive (on : Bool) (x : Site) : Site := { x with en := on, muteN := on }
/-- The engine has become dark: its lanes emit nothing and its UP ports go to LOST (R458). -/
def engineDark (e : Nat) (s : Sw) : Sw :=
  let lost := (enginePorts e).filter s.up
  let s := s.modEngine e (fun x => { x with dark := true })
  let s := each lost (toLost · 2 none none) s
  let s := each (span (16 * e) 16) (fun l s => s.modLane l (fun x => if x.state == .test then x else x.idle)) s
  raiseSys 0x0912 (le 1 e ++ cList (lost.map (le 2))) s
/-- The engine has light again: the lanes of ports in SEARCH search. -/
def engineLit (e : Nat) (s : Sw) : Sw :=
  let s := s.modEngine e (fun x => { x with dark := false })
  each (span (16 * e) 16) (fun l s =>
    match s.portOfLane l with
    | some n =>
      if (s.port n).reg.state == .search && (s.lane l).state == .idle then
        s.modLane l (fun x => x.toSearch ((allowedRates (s.port n).reg.allowNow).headD 3))
      else s
    | none => s) s
/-- A site whose removal was being prepared takes up its load again, as another feed of its engine e is lost (R459). -/
def siteResumes (m e : Nat) (s : Sw) : Sw :=
  if (s.site m).state != .muting && (s.site m).state != .removeReady then s
  else
    let now := s.now
    removeEvent m 3 (some e) (s.modSite m (fun x => { (x.drive true) with state := .ramp, prepRemove := false, removeBlocked := true, blockedAt := some now }))
/-- A feed of engine e is lost. -/
def feedLostOp (e : Nat) (feedB : Bool) (power : Half) (s : Sw) : Sw :=
  if !(s.engine e).ok feedB then s.modEngine e (Engine.setFeed feedB false power)
  else
    let s := s.modEngine e (Engine.setFeed feedB false power)
    let s := raiseSys 0x0910 (le 1 e ++ le 1 (if feedB then 2 else 1) ++ le 1 (siteOf e feedB)) s
    let s := siteResumes (siteOf e (!feedB)) e s
    if !(s.engine e).ok (!feedB) && !(s.engine e).dark then engineDark e s else s
/-- FEED_LOST (R458). -/
def execFeedLost (engine : Nat) (feedB : Bool) (power : Half) (s : State) : Res := lift (feedLostOp engine feedB power) s
/-- A feed of engine e is OK: every wavelength at +14 dBm or more and its module RAMP or ON. -/
def feedRestoredOp (e : Nat) (feedB : Bool) (power : Half) (s : Sw) : Sw :=
  if !(s.site (siteOf e feedB)).lit || power.toInt < 1400 || (s.engine e).ok feedB then s
  else
    let s := s.modEngine e (Engine.setFeed feedB true power)
    let s := raiseSys 0x0911 (le 1 e ++ le 1 (if feedB then 2 else 1) ++ le 1 (siteOf e feedB)) s
    if (s.engine e).dark then engineLit e s else s
/-- FEED_RESTORED (R458). -/
def execFeedRestored (engine : Nat) (feedB : Bool) (power : Half) (s : State) : Res := lift (feedRestoredOp engine feedB power) s
/-- The module of site m no longer feeds its engines (R458). -/
def siteFeedsLost (m : Nat) (s : Sw) : Sw :=
  each (List.range 4) (fun o s =>
    let e := engineOf m o
    feedLostOp e (m % 2 == 1) (if m % 2 = 1 then (s.engine e).bPower else (s.engine e).aPower) s) s

/-! ### Site states (R459 to R461) -/

/-- LSTATE of LAS_STATUS (R463). -/
def SiteSt.code (t : SiteSt) : Nat :=
  match t with
  | .absent => 0 | .unused => 1 | .identify => 2 | .ramp => 3 | .on => 4 | .muting => 5 | .removeReady => 6 | .refused => 7
  | .fault => 8 | .off => 9
/-- Site m turns its module dark and goes to a state. -/
def siteDark (m : Nat) (st : SiteSt) (s : Sw) : Sw := siteFeedsLost m (s.modSite m (fun x => { (x.drive false) with state := st }))
/-- The latch of site m closes. -/
def latchCloseOp (m : Nat) (s : Sw) : Sw :=
  if (s.site m).state != .absent then s
  else
    let st := if s.siteUsed m then SiteSt.identify else SiteSt.unused
    s.modSite m (fun x => { (x.drive false) with state := st, latched := true, inserts := x.inserts + 1 })
/-- LATCH_CLOSE (R459). -/
def execLatchClose (site : Nat) (s : State) : Res := lift (latchCloseOp site) s
/-- The latch of site m opens (R459, R460). -/
def latchOpenOp (m : Nat) (s : Sw) : Sw :=
  let was := (s.site m).state
  if was == .absent then s
  else
    let s := s.modSite m (fun x => { x with latched := false, prepRemove := false, removeBlocked := false, blockedAt := none })
    let s := siteDark m .absent s
    raiseSys 0x0914 (le 1 m ++ le 1 was.code) s
/-- LATCH_OPEN (R460). -/
def execLatchOpen (site : Nat) (s : State) : Res := lift (latchOpenOp site) s
/-- Site m is refused: 1 identity, 2 wavelength, 3 class (R464). -/
def siteRefused (m cause : Nat) (s : Sw) : Sw :=
  raiseSys 0x0915 (le 1 m ++ le 1 cause) (s.modSite m (fun x => { x with state := .refused }))
/-- The identity of the module at site m has been read; `unfit` is 0 when it fits. A serial other than the previous module's
restarts the wear entry of the site (15 R501). -/
def identityRead (m : Nat) (serial : Quad) (unfit : Nat) (s : Sw) : Sw :=
  if (s.site m).state != .identify then s
  else
    let old := (s.site m).lastSerial
    let s := s.modSite m (fun x => { x with serial := serial, lastSerial := some serial })
    let s := match old with
      | some k => if k != serial then wearRestart m 1 s else s
      | none => s
    if unfit != 0 then siteRefused m unfit s
    else if (s.site m).enable then s.modSite m (fun x => { (x.drive true) with state := .ramp })
    else s.modSite m (fun x => { x with state := .off })
/-- LASER_IDENTITY_READ (R459). -/
def execLaserIdentityRead (site : Nat) (serial : Quad) (unfit : Nat) (s : State) : Res := lift (identityRead site serial unfit) s
/-- LASER_IDENTITY_TIMEOUT (R459). -/
def execLaserIdentityTimeout (site : Nat) (s : State) : Res :=
  lift (fun w => if (w.site site).state == .identify then siteRefused site 1 w else w) s
/-- 20 ms of ramp have passed. -/
def rampDone (m : Nat) (s : Sw) : Sw :=
  if (s.site m).state != .ramp || !(s.site m).outPower.all (fun p => decide (1500 ≤ p.toInt)) then s
  else raiseSys 0x0913 (le 1 m ++ le 8 (s.site m).serial.toNat) (s.modSite m (fun x => { x with state := .on }))
/-- LASER_RAMP_DONE (R459). -/
def execLaserRampDone (site : Nat) (s : State) : Res := lift (rampDone site) s
/-- A poll of the module at site m. -/
def laserPollOp (m : Nat) (serial : Quad) (powers : List Half) (bias : Half) (temp : Byte) (fault : Bool) (s : Sw) : Sw :=
  let st := (s.site m).state
  if st == .absent || st == .unused then s
  else
    let powers := (List.range 4).map (fun i => nth 0 powers i)
    let s := s.modSite m (fun x => { x with
      serial := if st == .identify then x.serial else serial, outPower := powers, bias := bias, temp := temp })
    let low := powers.any (fun p => decide (p.toInt < 1200))
    if (s.site m).lit && (fault || low) then
      let s := siteDark m .fault s
      raiseSys 0x0916 (le 1 m ++ le 1 (if fault then 1 else 2) ++ (powers.map (fun p => le 2 p.toNat)).flatten) s
    else if st == .on then
      match (List.range 4).find? (fun i => decide ((nth 0 powers i).toInt < 1500)) with
      | none => s
      | some o =>
        let due := match (s.site m).lowAt with | some t => decide (3600000 * ms ≤ s.now - t) | none => true
        let now := s.now
        if due then raiseSys 0x0917 (le 1 m ++ le 1 o ++ le 2 (nth 0 powers o).toNat) (s.modSite m (fun x => { x with lowAt := some now }))
        else s
    else s
/-- LASER_POLL (R459). -/
def execLaserPoll (site : Nat) (serial : Quad) (powers : List Half) (bias : Half) (temp : Byte) (fault : Bool) (s : State) : Res :=
  lift (laserPollOp site serial powers bias temp fault) s
/-- The first engine of site m that lacks an OK other feed; a feed from a site in MUTING or REMOVE_READY is not OK (R459). -/
def Sw.lacking (s : Sw) (m : Nat) : Option Nat :=
  ((List.range 4).map (engineOf m)).find? (fun e =>
    let o := m % 2 == 0
    let st := (s.site (siteOf e o)).state
    !(s.engine e).ok o || st == .muting || st == .removeReady)
/-- PREP_REMOVE written 1 at site m. -/
def prepRemoveOp (m : Nat) (s : Sw) : Sw :=
  if (s.site m).state != .on then s.modSite m (fun x => { x with prepRemove := true })
  else match s.lacking m with
    | none => s.modSite m (fun x => { x with prepRemove := true, state := .muting })
    | some e =>
      let now := s.now
      removeEvent m 2 (some e) (s.modSite m (fun x => { x with prepRemove := false, removeBlocked := true, blockedAt := some now }))
/-- PREP_REMOVE (R459). -/
def execPrepRemove (site : Nat) (s : State) : Res := lift (prepRemoveOp site) s
/-- PREP_REMOVE written 0 at site m. -/
def prepCancel (m : Nat) (s : Sw) : Sw :=
  s.modSite m (fun x =>
    if x.state == .muting || x.state == .removeReady then { (x.drive true) with prepRemove := false, state := .ramp }
    else { x with prepRemove := false })
/-- PREP_REMOVE_CANCEL (R459). -/
def execPrepRemoveCancel (site : Nat) (s : State) : Res := lift (prepCancel site) s
/-- 10 ms of muting have passed. -/
def mutingDoneOp (m : Nat) (s : Sw) : Sw :=
  if (s.site m).state != .muting then s else removeEvent m 1 none (siteDark m .removeReady s)
/-- MUTING_DONE (R459). -/
def execMutingDone (site : Nat) (s : State) : Res := lift (mutingDoneOp site) s
/-- ENABLE written 1 at site m: it acts when ENABLE was 0 after the previous write. -/
def laserOn (m : Nat) (s : Sw) : Sw :=
  s.modSite m (fun x =>
    let again := !x.enable && (x.state == .off || x.state == .fault || x.state == .refused)
    { x with enable := true, state := if again then .identify else x.state })
/-- LASER_ENABLE (R459). -/
def execLaserEnable (site : Nat) (s : State) : Res := lift (laserOn site) s
/-- ENABLE written 0 at site m. -/
def laserOff (m : Nat) (s : Sw) : Sw :=
  let s := s.modSite m (fun x => { x with enable := false })
  let st := (s.site m).state
  if st == .ramp || st == .on || st == .muting then siteDark m .off s else s
/-- LASER_DISABLE (R459). -/
def execLaserDisable (site : Nat) (s : State) : Res := lift (laserOff site) s

/-! ### Site buttons and LEDs (16 R530, R532, R533) -/

/-- Event 0x0C31: the site, or 0xFF for ATTN; 1 short, 2 long. -/
def buttonEvent (which kind : Nat) (s : Sw) : Sw := raiseHeld 0x0C31 (le 1 which ++ le 1 kind) s
/-- A press of the button of site m: short from 50 ms to 2 s, long from 5 s (R530); others count as neither. -/
def siteButtonOp (m pressMs : Nat) (s : Sw) : Sw :=
  if 50 ≤ pressMs && pressMs ≤ 2000 then
    let s := buttonEvent m 1 s
    let st := (s.site m).state
    if !s.sec.btnEnable then s
    else if st == .on then prepRemoveOp m s
    else if st == .muting || st == .removeReady then prepCancel m s
    else s
  else if 5000 ≤ pressMs then buttonEvent m 2 s
  else s
/-- SITE_BUTTON (R533). -/
def execSiteButton (site ms : Nat) (s : State) : Res := lift (siteButtonOp site ms) s
/-- REMOVE_BLOCKED_LED_TIMEOUT (R532). -/
def execRemoveBlockedLedTimeout (site : Nat) (s : State) : Res := lift (Sw.modSite site (fun x => { x with blockedAt := none })) s

/-- Patterns of an LED (R530 to R532). -/
inductive Led where
  | off | green | greenSlow | amber | amberSlow | amberFast | alternating
  deriving DecidableEq, Repr
/-- LED of site m (R532). -/
def Sw.siteLed (s : Sw) (m : Nat) : Led :=
  let x := s.site m
  if x.blockedAt.isSome then .amberFast
  else match x.state with
    | .absent | .unused | .off => .off
    | .identify | .ramp => .greenSlow
    | .on => if (s.wearOf m).state = 3 || (s.wearOf m).state = 4 then .alternating else .green
    | .muting => .amberSlow
    | .removeReady => .amber
    | .fault | .refused => .amberFast
/-- STATUS LED: the first row of R531 that holds. -/
def Sw.statusLed (s : Sw) : Led :=
  if s.pwr.mod != .on then .off
  else if s.sec.recovery then .amberFast
  else if s.glb.stage != 5 then .amber
  else if s.sec.debugOpen then .alternating
  else if s.wear.entries.any (fun e => e.2.state == 3 || e.2.state == 4) || s.pwr.ibcOut != 0 ||
      (List.range 32).any (fun e => s.quadActive (4 * e) && (s.engine e).dark) then .amberSlow
  else if (s.job 0).state == .seedling && !(s.host.jobs.any (fun e => e.2.state == .opened)) then .greenSlow
  else .green

end Sys2Proof.Machine
end

