-- ==== Sys2Proof/Machine/Profile.lean ====
section
/-! DEFINITION. Power profiles and clock profiles: the profile in force, its causes, the clock limit that follows it
(14 R466; 15 R486 to R491; 16 R529). -/
namespace Sys2Proof.Machine

/-- The lowest profile that the converters in service allow (15 R486). -/
def ibcFloor (out : BitVec 8) : Nat :=
  let n := (bitsOf out).length
  if n ≤ 1 then 0 else min 3 (n - 1)
/-- Clock ceiling of a power profile (15 R488). -/
def clockCeiling (w : Nat) : Nat := if w ≤ 1 then 0 else w - 1
/-- Cap of a profile, W (15 R488). -/
def profileCap (variant w : Nat) : Nat :=
  if variant = 0 then (match w with | 0 => 3000 | 1 => 2500 | 2 => 2000 | _ => 1500)
  else (match w with | 0 => 1800 | 1 => 1500 | 2 => 1250 | _ => 1000)
/-- The requested profile: the higher-numbered of PWR_PROFILE and BMC_PROFILE (16 R529). -/
def Pwr.requested (p : Pwr) : Nat := max p.profile p.bmcProfile
/-- The profile that the four candidates ask for (15 R489). -/
def Pwr.want (p : Pwr) : Nat := max (max p.requested p.thermal) (max p.limit (ibcFloor p.ibcOut))
/-- Causes in force at profile w: bit 0 request, 1 thermal step, 2 limiter step, 3 converters; a step of 0 or a full set of
converters asks for nothing (15 R489). -/
def Pwr.causes (p : Pwr) (w : Nat) : Nat :=
  let held (c : Nat) : Nat := b2n (c == w && c != 0)
  b2n (p.requested == w) + 2 * held p.thermal + 4 * held p.limit + 8 * held (ibcFloor p.ibcOut)
/-- The clock profile in force is the slower of the request taken and the limit (14 R466): cause 1 request, 2 limit. -/
def setClock (taken limit cause : Nat) (s : Sw) : Sw :=
  let old := s.glb.clockActive
  let new := max taken limit
  let s := s.modGlb (fun g => { g with clockTaken := taken, clockLimit := limit, clockActive := new })
  if old = new then s else raiseSys 0x0A11 (le 1 old ++ le 1 new ++ le 8 s.gtc.toNat ++ le 1 cause) s
/-- The profile in force changes; the clock limit follows it (15 R489). -/
def setProfile (w : Nat) (s : Sw) : Sw :=
  let old := s.pwr.inForce
  let s := s.modPwr (fun p => { p with inForce := w })
  let s := setClock s.glb.clockTaken (clockCeiling w) 2 s
  raiseSys 0x0B00 (le 1 old ++ le 1 w ++ le 1 (s.pwr.causes w) ++ le 8 s.gtc.toNat) s
/-- A move to a higher-numbered profile takes effect at once (15 R489). -/
def profileRise (s : Sw) : Sw := if s.pwr.inForce < s.pwr.want then setProfile s.pwr.want s else s
/-- A cause has ended: where that leaves a lower-numbered profile to be taken, the instant counts (15 R489). -/
def profileEase (s : Sw) : Sw :=
  if s.pwr.want < s.pwr.inForce then
    let at_ := s.gtc
    s.modPwr (fun p => { p with easedAt := some at_ })
  else s
/-- A request has changed: a rise is taken at once, a fall waits for its tick (15 R489). -/
def profileAdjust (s : Sw) : Sw := profileEase (profileRise s)
/-- At the first tick after the cause has ended that is a multiple of 16,384 ns a pending move to a lower-numbered profile takes effect (15 R489). -/
def profileLower (s : Sw) : Sw :=
  if s.pwr.want < s.pwr.inForce then
    let s := toTick 14 s.pwr.easedAt s
    setProfile s.pwr.want s
  else s

end Sys2Proof.Machine
end

