-- ==== Sys2Proof/Machine/Mgmt.lean ====
section
/-! DEFINITION. The course of a management command from the BMC or in a MGMT descriptor (16 R509, R525, R528, R536). -/
namespace Sys2Proof.Machine

/-- Event 0x0C30: source (1 BMC, 2 PF), CODE and status (R528, R536). -/
def mgmtEvent (pf : Bool) (code status : Nat) (s : Sw) : Sw :=
  raiseHeld 0x0C30 (le 1 (if pf then 2 else 1) ++ le 1 code ++ le 1 status) s

/-- What a management command does: told its source, it answers its status and the state it leaves. -/
abbrev MgmtAct := Bool → State → Nat × State

/-- What follows the completion of a command that ended OK: nothing, or a reset (R510, R524, R528). -/
abbrev MgmtAfter := Bool → State → State
/-- Nothing follows. -/
def noAfter : MgmtAfter := fun _ s => s

/-- The root of trust serves I3C: the AUX rail is up and ROOT_OF_TRUST has begun (R525). -/
def Sw.i3cServed (s : Sw) : Bool := s.pwr.mod == .on && s.glb.stage != 0
/-- A management command of the BMC: its answer holds CODE and the status (DESIGN CHOICE, log 50). In recovery I3C serves none (R507). -/
def mgmtBmc (code : Nat) (act : MgmtAct) (after : MgmtAfter) (s : State) : State :=
  if !s.sw.i3cServed || s.sw.sec.recovery then s
  else
    let (st, s) := act false s
    let s := { s with sw := (mgmtEvent false code st s.sw).out (.reply true (le 1 code ++ le 1 st)) }
    if st = stOk then after false s else s

/-- A MGMT descriptor that names `code`, with `n` bytes of arguments from byte 9 on, and HOST_ADDR when it needs a token. -/
def mgmtDesc (code n : Nat) (token : Bool) (act : MgmtAct) (after : MgmtAfter) (b : Sub) (s : State) : State :=
  let (t, w) := dispatch 0x93 b s.sw
  match headerStatus w 0x93 b with
  | some st => { s with sw := complete t st w }
  | none =>
    match (if token then b.hostErr else none) with
    | some a => { s with sw := hostFail t a w }
    | none =>
      let good := b.f 8 1 == code && b.only ([by_ 8 (1 + n)] ++ (if token then [by_ 24 8] else []))
      let (st, s) := if good then act true { s with sw := w } else (stBad, { s with sw := w })
      let s := { s with sw := complete t st (mgmtEvent true (b.f 8 1) st s.sw) }
      if st = stOk then after true s else s

/-- A management command with one argument `arg`, which a descriptor carries in byte 9 on (DESIGN CHOICE, log 50), and what
follows it. -/
def mgmtThen (via : Option Sub) (code n arg : Nat) (act : Nat → MgmtAct) (after : Nat → MgmtAfter) (s : State) : State :=
  match via with
  | some b => mgmtDesc code n false (act (b.f 9 (max 1 n))) (after (b.f 9 (max 1 n))) b s
  | none => mgmtBmc code (act arg) (after arg) s

/-- A management command with one argument, which nothing follows. -/
def mgmt (via : Option Sub) (code n arg : Nat) (act : Nat → MgmtAct) (s : State) : State :=
  mgmtThen via code n arg act (fun _ => noAfter) s

/-- A management command with a token, which a descriptor's HOST_ADDR names. -/
def mgmtToken (via : Option Sub) (code : Nat) (token : List Byte) (act : List Byte → MgmtAct) (after : MgmtAfter) (s : State) : State :=
  match via with
  | some b => mgmtDesc code 0 true (act b.host) after b s
  | none => mgmtBmc code (act token) after s

/-- A command that acts on the switch alone: its checks, then its effect. -/
def mgmtSw (checks : Sw → List (Bool × Nat)) (f : Sw → Sw) (s : State) : Nat × State :=
  match firstFail (checks s.sw) with
  | some st => (st, s)
  | none => (stOk, { s with sw := f s.sw })

end Sys2Proof.Machine
end

