-- ==== Sys2Proof/Machine/Abort.lean ====
section
/-! DEFINITION. Aborts: the request, the decision at the commit tile, and what it frees (04 R122, R153 to R157; 06 R206), and
operations that lose a member or a path (04 R153; 09 R293). -/
namespace Sys2Proof.Machine

/-- An ABORT_NOTICE: dir 0 request, 1 decision (04 R155). -/
def abortCell (x o dir status chunks : Nat) : Cell :=
  ctrlCell ctAbort x noMember o 0 (le 4 o ++ le 1 dir ++ le 1 status ++ le 2 0 ++ le 4 chunks)
/-- The decision goes to every switch child (04 R154). -/
def tellDecision (x o status chunks : Nat) (s : Sw) : Sw :=
  match s.ctx? x with
  | none => s
  | some c => each (c.canopy.children.filter (fun h => h.isSwitch)) (fun h => ctxCtrl x h.port .none (abortCell x o 1 status chunks)) s
/-- An operation that is open ends here with a status that comes from the root: COMPLETE to the children, and its slots and
staging freed; an abort clears FULL on what it has written (04 R154, R156; 06 R206). -/
def endFromRoot (x o status chunks : Nat) (s : Sw) : Sw :=
  let s := s.modOp x o (fun p => { p with st := .failed, status := status, chunks := (chunks, p.chunks.2) })
  let s := opComplete x o status (sendComplete x o status s)
  let s := endAborts x o status s
  let undo := match s.ctx? x, s.op? x o with | some c, some p => status == stAborted && c.storeReduction p.blk | _, _ => false
  let s := poolUnwait x o (releaseGather x o (dropWork x o s))
  if undo then gradUndo x o s else s
/-- An operation that ends for all members before it has opened here: its number is taken by a record that has failed, and
COMPLETE goes to the children; a STORE_GATHER noted for it ends with it (04 R137, R154; 06 R213; DEDUCED, log 31). -/
def endUnopened (x o status : Nat) (s : Sw) : Sw :=
  match s.ctx? x with
  | none => s
  | some c =>
    if c.ops.mem o || o < c.windowBase || c.windowBase + 32 ≤ o then s
    else
      let p : Op := { blk := BitVec.ofNat 256 o, st := .failed, status := status }
      let ops := c.ops.set o p
      let s := s.setCtx x { c with ops := ops, nextOp := nextUnopened ops 64 c.nextOp, gathers := c.gathers.erase o }
      sendComplete x o status (match SMap.find? o c.gathers with | some g => dropReq x g s | none => s)
/-- The operation is aborted here by a decision. The requester is the port on which this switch was asked, 0xFFFF for a descriptor
of its own; a switch that was not asked names the port on which the decision came (04 R154, R159; DEDUCED, log 120). -/
def abortedHere (x o requester chunks : Nat) (s : Sw) : Sw :=
  let requester := ((s.op? x o).bind (fun p => p.askedBy)).getD requester
  let s := raiseCtx x 0x0202 (le 4 o ++ le 2 requester ++ le 4 chunks) s
  match s.op? x o with
  | some p => if p.isOpen then endFromRoot x o stAborted chunks s else s
  | none => endUnopened x o stAborted s
/-- The port toward the commit tile of operation o; none where it is here (04 R154; 06 R206). -/
def commitPort (c : Ctx) (p : Op) : Option Nat :=
  if c.storeReduction p.blk && cellsOf p.blk != 0 then upPort c p.blk (segCells c p.blk (lastSeg c p.blk)).1 else none
/-- The answer to a request goes back on the port it came from, when that leads to a switch child. -/
def answerAbort (x o requester status : Nat) (s : Sw) : Sw :=
  match (s.ctx? x).bind (fun c => c.canopy.child requester) with
  | some h => if h.isSwitch then ctxCtrl x requester .none (abortCell x o 1 status 0) s else s
  | none => s
/-- The status that answers an abort of an ended operation. -/
def Op.abortAnswer (p : Op) : Nat := if p.status = stAborted then stAborted else stDone
/-- The root carries out a decision. -/
def rootDecides (x o requester status chunks : Nat) (s : Sw) : Sw :=
  if status = stAborted then abortedHere x o requester chunks (tellDecision x o stAborted chunks s)
  else endAborts x o stDone (answerAbort x o requester stDone s)
/-- A request reaches the commit tile: it comes before the commit or after it (04 R154). `down`: it came from the root, to which
the decision returns. -/
def commitTile (x o requester : Nat) (down : Bool) (s : Sw) : Sw :=
  match s.ctx? x, s.op? x o with
  | some c, some p =>
    let status := if p.isOpen then (if p.st == .committed then stDone else stAborted) else p.abortAnswer
    let s := if down then
        (match c.canopy.parent with
         | some q => ctxCtrl x q .none (abortCell x o 1 status p.chunks.1) s
         | none => s)
      else s
    if !down then (if p.isOpen then rootDecides x o requester status p.chunks.1 s else answerAbort x o requester status s)
    else if p.isOpen && status == stAborted then abortedHere x o requester p.chunks.1 s
    else s
  | _, _ => s
/-- A request reaches the root's home tile (04 R154; 06 R206). An operation that has not opened at the root has not committed. -/
def rootRequest (x o requester : Nat) (s : Sw) : Sw :=
  match s.ctx? x with
  | none => s
  | some c =>
    match SMap.find? o c.ops with
    | some p =>
      (match (if p.isOpen then commitPort c p else none) with
       | some q => ctxCtrl x q .none (abortCell x o 0 0 0) s
       | none => commitTile x o requester false s)
    | none =>
      if o < c.windowBase then answerAbort x o requester stDone s
      else if c.windowBase + 32 ≤ o then s
      else rootDecides x o requester stAborted 0 s
/-- An abort of operation o is requested at this switch: the request travels to the root (04 R154). -/
def requestAbort (x o requester : Nat) (s : Sw) : Sw :=
  let s := s.modOp x o (fun p => { p with askedBy := p.askedBy.or (some requester) })
  match s.ctx? x with
  | none => s
  | some c => (match c.canopy.parent with
      | some up => ctxCtrl x up .none (abortCell x o 0 0 0) s
      | none => rootRequest x o requester s)
/-- Abort requested for every open operation of context x (04 R122). -/
def abortAll (x : Nat) (s : Sw) : Sw :=
  match s.ctx? x with
  | none => s
  | some c => each ((c.ops.filter (fun e => e.2.isOpen)).map Prod.fst) (fun o => requestAbort x o 0xFFFF) s
/-- An ABORT_NOTICE reaches context x on port q (04 R154, R155; 06 R206). -/
def abortArrive (x q : Nat) (c : Cell) (s : Sw) : Sw :=
  match s.ctx? x with
  | none => s
  | some k =>
    let o := c.f 0 4
    let dir := c.f 4 1
    let status := c.f 5 1
    let chunks := c.f 8 4
    let fromParent := k.canopy.parent == some q
    let child := (k.canopy.child q).isSome || (k.canopy.primaryOf q).isSome
    if c.tc != 5 || c.ctype != ctAbort then s
    else if dir = 0 then
      if fromParent then
        match SMap.find? o k.ops with
        | some p => (match (if p.isOpen then commitPort k p else none) with
            | some n => if n = q then s else ctxCtrl x n .none (abortCell x o 0 0 0) s
            | none => settle x (commitTile x o q true s))
        | none => s
      else if !child then s
      else match SMap.find? o k.ops with
        | some p => if p.isOpen || k.isRoot then settle x (requestAbort x o q s) else answerAbort x o q p.abortAnswer s
        | none => settle x (requestAbort x o q s)
    else if dir = 1 && (status == stAborted || status == stDone) then
      if fromParent then
        let s := tellDecision x o status chunks s
        settle x (if status = stAborted then abortedHere x o q chunks s else endAborts x o stDone s)
      else match k.canopy.child q with
        | some h =>
          if !h.isSwitch then s
          else (match k.canopy.parent with
            | some up => ctxCtrl x up .none (abortCell x o 1 status chunks) s
            | none => settle x (if status = stAborted then rootDecides x o q stAborted chunks s
                else endAborts x o stDone (tellDecision x o stDone 0 s)))
        | none => s
    else s

/-! ### A member or a path is lost for good (04 R153; 09 R293) -/

/-- Port n has been out of UP for LOSS_MS: what context x loses. A switch's path counts while it is disturbed. -/
def lossOf (n x : Nat) (s : Sw) : Sw :=
  match s.ctx? x with
  | none => s
  | some c =>
    let out (q : Nat) : Bool := s.physPort x q == n && c.disturbed.mem q
    let now := (c.canopy.children.filter (fun h => if h.isSwitch then out h.port else h.port == n && !s.up n)).map (fun h => h.port) ++
      c.canopy.parent.toList.filter out
    settle x (s.modCtx x (fun c => { c with gone := dedup (c.gone ++ now) }))

end Sys2Proof.Machine
end

