-- ==== Sys2Proof/Machine/Contexts.lean ====
section
/-! DEFINITION. The commands of the Contexts family: contexts and their canopies, bindings, operations, joins, counts, barriers,
lateness, stalls, losses, aborts and the Seedling context (04 R119 to R159; 09 R280; 14 R481). -/
namespace Sys2Proof

/-- CTX of bytes 8 and 9. -/
def Sub.ctx (b : Sub) : Nat := b.f 8 2 % 4096

end Sys2Proof

namespace Sys2Proof.Machine

/-! ### Descriptors that name a context (12 R405, R432) -/

/-- The bits of CTX in a layout. -/
def lctx : Desc := by_ 8 2 &&& ~~~ bi_ 9 4 4
/-- Context x is ACTIVE. -/
def Sw.active (s : Sw) (x : Nat) : Bool := match s.ctx? x with | some c => !c.closing | none => false
/-- Context x exists and its job is not the submitting function's (12 R405; 16 R515; DEDUCED, log 32). -/
def Sw.notOwner (s : Sw) (b : Sub) (x : Nat) : Bool := match s.ctx? x with | some c => !s.owns b.func c.cfg.job | none => false
/-- Member ports that a canopy record names. -/
def Canopy.memberPorts (k : Canopy) : List Nat := (k.memberChildren.map (fun h => [h.port] ++ h.backup.toList)).flatten
/-- A member port of a record lies outside the job's port map (12 R405). -/
def outsideMap (s : Sw) (j : Nat) (k : Canopy) : Bool := k.memberPorts.any (fun n => !s.inMap j n)

/-! ### CTX_CREATE (04 R120, R121, R139; 09 R280) -/

/-- Settings that a CTX_CREATE asks for; 0 selects the default of the timeouts. -/
def createCfg (b : Sub) : CtxCfg :=
  let dflt (v d : Nat) : Nat := if v = 0 then d else v
  { job := b.f 10 1, cls := b.bits 11 0 2, streaming := b.flag 11 2, opev := b.flag 11 3
    g := (match b.bits 12 0 2 with | 0 => 32 | 1 => 64 | _ => 128)
    saturate := b.flag 12 2, acc64 := b.flag 12 3, dither := b.flag 12 4, h := b.f 13 1, m := b.bits 14 0 4
    seglenLog2 := b.bits 15 0 5, a0 := toS16 (b.f 16 2), chunkLog2 := dflt (b.bits 18 0 5) 16, lateFrames := dflt (b.f 19 1) 4
    stallUs := dflt (b.f 20 2) 1000, lossMs := dflt (b.f 22 1) 10, evq := b.f 23 1, dseed := b.q 24, slots := b.f 44 4
    chunkFlag := if b.flag 49 7 then some (b.bits 48 0 12) else none, minor := b.cminor }
/-- A setting lies outside R43, or a reserved field or encoding of the layout is not 0 (04 R120, R121). The range of CHUNK_LOG2
holds whatever STREAMING is (DEDUCED, log 131). -/
def createBad (b : Sub) : Bool :=
  let k := createCfg b
  !b.only [lctx, by_ 10 1, bi_ 11 0 4, bi_ 12 0 5, by_ 13 1, bi_ 14 0 4, bi_ 15 0 5, by_ 16 2, bi_ 18 0 5, by_ 19 13, by_ 32 8, by_ 40 4,
      by_ 44 4, bi_ 48 0 12, bi_ 49 7 1] ||
    k.cls == 3 || b.bits 12 0 2 == 3 || (if k.g = 128 then decide (k.h < 16) || decide (120 < k.h) else decide (k.h < 4) || decide (k.g - 8 < k.h)) ||
    decide (k.seglenLog2 < 8) || decide (20 < k.seglenLog2) || decide (k.a0 < -1100) || decide (1100 < k.a0) ||
    decide (k.chunkLog2 < 12) || decide (24 < k.chunkLog2) || b.f 32 8 % 64 != 0 || decide (2 ^ 24 < k.slots)
/-- SLOTS is below the minimum of R139. -/
def slotsBelow (k : CtxCfg) (children : Nat) : Bool :=
  decide (k.slots < 64 * slotsPerCell k children) || (k.cls == 0 && !k.saturate && decide (32 * k.slots < 2 ^ k.seglenLog2))
/-- A switch that the record names has advertised a lower minor version (09 R280); a parent's port never yet UP has advertised none. -/
def partnerBelow (s : Sw) (k : Canopy) (minor : Nat) : Bool :=
  (k.switchPorts ++ k.shards.filterMap (fun e => e.mirror)).any (fun q => (s.port q).reg.partnerRole != 0 && decide ((s.port q).reg.partnerCminor < minor))
/-- The limit of the job refuses slot places in tier 1 (11 R374). -/
def placesLimit (x job slots : Nat) (s : Sw) : Sw :=
  let pl := s.reservePlaces slots s.activeTiles
  match (List.range 4).find? (fun g => limitRefuses s 6 (s.homeGrove g) (placeExtents pl g) job && placeExtents pl g != 0) with
  | some g => if (s.ctx? x).isSome then s else limitEvent 6 (s.homeGrove g) (placeExtents pl g) job s
  | none => s
/-- The context is created: slots reserved, map entries written, BOUND sent (04 R121, R122). -/
def createCtx (x : Nat) (k : CtxCfg) (r : Canopy) (s : Sw) : Option Sw :=
  (takePlaces x k.job k.slots s.activeTiles s).map (fun (pl, s) =>
    let s := s.setCtx x { cfg := k, canopy := r, tiles := s.activeTiles, places := pl }
    parentCheck x (each r.memberChildren (sendBound x) (mapCtx x r s)))
/-- CTX_CREATE. -/
def ctxCreateOp (b : Sub) (t : Tok) (s : Sw) : Sw :=
  let x := b.ctx
  let k := createCfg b
  let len := b.f 40 4
  let r := parseCanopy (b.host.take len)
  guardDesc t [(!s.evqAssigned k.evq b.func, stDenied), (match k.chunkFlag with | some f => !s.flagOwned b.func f | none => false, stDenied)]
    (hostGuard b t (guardDesc t [
      (canopyForm b.host len && outsideMap s k.job r, stDenied),
      (createBad b || !canopyForm b.host len || !canopyValid s x k.job r || !shardsValid s (2 ^ k.seglenLog2) r, stBad),
      (k.streaming && decide (k.chunkLog2 < k.seglenLog2), stBad),
      (slotsBelow k r.children.length, stBad),
      ((s.ctx? x).isSome || !s.owns b.func k.job, stDenied),
      (k.streaming && decide (256 ≤ (s.ctxs.filter (fun e => e.2.cfg.streaming)).length), stNoRes),
      (decide (s.maxChildren < r.children.length), stNoRes)]
      (fun s => guardDesc t [((createCtx x k r s).isNone, stNoRes), (partnerBelow s r b.cminor, stContract)]
        (fun s => match createCtx x k r s with
          | some s => complete t stOk s
          | none => complete t stNoRes s)
        (placesLimit x k.job k.slots s)))) s
/-- CTX_CREATE (04 R121). -/
def execCtxCreate (sub : Sub) (s : State) : Res := lift (runDesc 0x20 ctxCreateOp sub) s

/-! ### CTX_DESTROY, CTX_RECANOPY, PORT_BIND (04 R122, R123, R127, R130) -/

/-- CTX_DESTROY. -/
def ctxDestroyOp (b : Sub) (t : Tok) (s : Sw) : Sw :=
  let x := b.ctx
  let force := b.flag 10 0
  guardDesc t [(!b.only [lctx, bi_ 10 0 1] || (s.ctx? x).isNone, stBad), (s.notOwner b x, stDenied)]
    (fun s => match s.ctx? x with
      | none => s
      | some c =>
        if c.closing then s.setCtx x { c with destroys := c.destroys ++ [t] }
        else if c.store.isSome || (c.anyOpen && !force) then complete t stDenied s
        else if c.anyOpen then settle x (abortAll x (s.setCtx x { c with closing := true, destroys := [t] }))
        else complete t stOk (freeCtx x s)) s
/-- CTX_DESTROY (04 R122). -/
def execCtxDestroy (sub : Sub) (s : State) : Res := lift (runDesc 0x21 ctxDestroyOp sub) s
/-- Some operation numbered `from_` or above has opened here (04 R130). -/
def Ctx.openedFrom (c : Ctx) (from_ : Nat) : Bool := decide (from_ < c.nextOp) || c.ops.any (fun e => decide (from_ ≤ e.1))
/-- CTX_RECANOPY. -/
def ctxRecanopyOp (b : Sub) (t : Tok) (s : Sw) : Sw :=
  let x := b.ctx
  let len := b.f 40 4
  let r := parseCanopy (b.host.take len)
  let eff := b.f 12 4
  let jobOf := match s.ctx? x with | some c => c.cfg.job | none => 0
  hostGuard b t (guardDesc t [
    (canopyForm b.host len && s.active x && outsideMap s jobOf r, stDenied),
    (!b.only [lctx, by_ 12 8, by_ 32 12] || !s.active x || !canopyForm b.host len || !canopyValid s x jobOf r ||
      (match s.ctx? x with | some c => !shardsValid s (2 ^ c.cfg.seglenLog2) r || decide (b.f 16 4 ≤ c.canopy.mepoch) | none => true) ||
      r.mepoch != b.f 16 4, stBad),
    (match s.ctx? x with | some c => c.openedFrom eff || c.recanopy.isSome | none => false, stDenied),
    (s.notOwner b x, stDenied)]
    (fun s => settle x (complete t stOk (s.modCtx x (fun c => { c with recanopy := some { eff := eff, canopy := r } }))))) s
/-- CTX_RECANOPY (04 R130). -/
def execCtxRecanopy (sub : Sub) (s : State) : Res := lift (runDesc 0x22 ctxRecanopyOp sub) s
/-- PORT_BIND. -/
def portBindOp (b : Sub) (t : Tok) (s : Sw) : Sw :=
  let n := b.f 8 2
  let j := b.f 10 1
  let bind : Option Binding := if b.flag 11 0 then none else some { job := j, rank := b.f 12 2, backup := b.flag 11 1 }
  guardDesc t [
    (!s.inMap j n, stDenied),
    (!b.only [by_ 8 3, bi_ 11 0 2, by_ 12 2] || !s.up n || !s.isMember n, stBad),
    (s.ctxs.any (fun e => e.2.canopy.memberPorts.contains n), stDenied),
    (!s.owns b.func j, stDenied)]
    (fun s => complete t stOk (s.setBinding n bind)) s
/-- PORT_BIND (04 R127). -/
def execPortBind (sub : Sub) (s : State) : Res := lift (runDesc 0x23 portBindOp sub) s

/-! ### OP_POST and OP_ABORT (04 R135, R154, R155) -/

/-- A posted block meets an operation that has opened: it is the same, or the operation fails (04 R135). -/
def postOpened (x o : Nat) (p : Op) (blk : BitVec 256) (t : Tok) (s : Sw) : Sw :=
  let s := s.modOp x o (fun p => { p with posts := p.posts ++ [t] })
  if p.blk != blk then
    let s := raiseCtx x 0x0201 (le 4 o ++ le 8 (blkSignature blk).toNat ++ cList []) s
    if p.isOpen then failHere x o stMismatch s else opComplete x o stMismatch s
  else if p.isOpen then s
  else opComplete x o p.status s
/-- A posted block opens its operation: it fails at once when it breaks R134 or a STORE_GATHER named another range. -/
def postFresh (x o : Nat) (blk : BitVec 256) (t : Tok) (s : Sw) : Sw :=
  let s := openOp x o blk false s
  let s := s.modOp x o (fun p => { p with posts := [t] })
  match s.ctx? x, s.op? x o with
  | some c, some p =>
    let c := match c.recanopy with | some r => if r.eff ≤ o then { c with canopy := r.canopy } else c | none => c
    if blockBad s x c blk (blkKind blk == kBarrier) then failHere x o stBad s
    else if (match p.gather with | some g => g.first != blkB blk || g.count != blkE blk || !c.storeGather blk | none => false) then
      failHere x o stMismatch s
    else replayCounts x o s
  | _, _ => s
/-- OP_POST. -/
def opPostOp (b : Sub) (t : Tok) (s : Sw) : Sw :=
  let x := b.ctx
  let blk := BitVec.ofNat 256 (b.f 16 32)
  let o := blkOpnum blk
  guardDesc t [
    (!b.only [lctx, by_ 16 32] || blkReserved blk || decide (7 < blkKind blk) || decide (6 < blkRedop blk) || (s.ctx? x).isNone, stBad),
    (s.notOwner b x, stDenied),
    (!s.active x, stAborted),
    (match s.ctx? x with | some c => decide (o < c.windowBase) || decide (c.windowBase + 32 ≤ o) | none => false, stNoRes)]
    (fun s => settle x (match s.op? x o with
      | some p => postOpened x o p blk t s
      | none => postFresh x o blk t s)) s
/-- OP_POST (04 R135). -/
def execOpPost (sub : Sub) (s : State) : Res := lift (runDesc 0x24 opPostOp sub) s
/-- OP_ABORT. -/
def opAbortOp (b : Sub) (t : Tok) (s : Sw) : Sw :=
  let x := b.ctx
  let o := b.f 12 4
  guardDesc t [(!b.only [lctx, by_ 12 4] || (s.ctx? x).isNone, stBad), (s.notOwner b x, stDenied),
    (match s.ctx? x with | some c => !c.ops.mem o && decide (c.nextOp ≤ o) | none => false, stBad)]
    (fun s => match s.op? x o with
      | none => complete t stDone s
      | some p =>
        if !p.isOpen then complete t p.abortAnswer s
        else settle x (requestAbort x o 0xFFFF (s.modOp x o (fun p => { p with aborts := p.aborts ++ [t] })))) s
/-- OP_ABORT (04 R155). -/
def execOpAbort (sub : Sub) (s : State) : Res := lift (runDesc 0x25 opAbortOp sub) s

/-! ### Joins, statuses, counts, exchanges and barriers (04 R137, R138, R146 to R148) -/

/-- A JOIN or BARRIER_ARRIVE of the type expected reaches its context. -/
def joinCell (ct x q : Nat) (c : Cell) (s : Sw) : Sw := if c.tc == 5 && c.ctype == ct then settle x (joinArrive x q c s) else s
/-- JOIN_RECEIVE (04 R137). -/
def execJoinReceive (port : Nat) (cell : Cell) (s : State) : Res := lift (toContext port cell (joinCell ctJoin)) s
/-- BARRIER_ARRIVE_RECEIVE (04 R148). -/
def execBarrierArriveReceive (port : Nat) (cell : Cell) (s : State) : Res := lift (toContext port cell (joinCell ctArrive)) s
/-- COMPLETE or BARRIER_RELEASE from the parent (04 R137, R147, R148, R156; 06 R206, R213). -/
def completeArrive (x o status chunks : Nat) (s : Sw) : Sw :=
  match s.ctx? x with
  | none => s
  | some k =>
    match SMap.find? o k.ops with
    | none => if status = stOk || status = stOverflow then s else endUnopened x o status s
    | some p =>
      if !p.isOpen then (if p.once.contains (0, 0) then s else deliveredCheck x o (sendComplete x o status s))
      else if status = stOk || status = stOverflow then
        let byRoot := k.storeReduction p.blk || k.storeGather p.blk || blkExchange p.blk || cellsOf p.blk == 0 || !hasResults k p.blk
        if byRoot then finishOp x o status s
        else s.modOp x o (fun p => { p with overflow := p.overflow || status == stOverflow, rootEnd := true })
      else if p.st == .committed then finishOp x o status s
      else endFromRoot x o status chunks s
/-- A JOIN_STATUS of a canopy neighbour switch. -/
def statusArrive (x q : Nat) (c : Cell) (s : Sw) : Sw :=
  match s.ctx? x with
  | none => s
  | some k =>
    let o := c.f 0 4
    let phase := c.f 4 1
    let grant := c.f 8 4 % 2 ^ 25
    let fromParent := k.canopy.parent == some q
    let grants (p : Op) : Op := { p with upGrants := p.upGrants.set q (max grant (p.upGrants.getD q 0)) }
    if c.tc != 5 || c.ctype != ctStatus || !(k.leadsToSwitch q) then s
    else if phase = phGrant then settle x (s.modOp x o grants)
    else if phase = phJoined then
      match SMap.find? o k.ops with
      | some p =>
        if !fromParent || p.st != .opening || !p.upJoin then s
        else
          let l := if decide (2 ≤ blkLaunch p.blk) then some (BitVec.ofNat 64 (c.f 16 8)) else p.launchAt
          settle x (enterJoined x o (s.modOp x o (fun p => { grants p with launchAt := l })))
      | none => s
    else if phase = phComplete then
      if fromParent then settle x (completeArrive x o (c.f 5 1) (c.f 12 4) s)
      else settle x (s.modOp x o (fun p => { p with completeFrom := setBit p.completeFrom q,
                                                    overflow := p.overflow || c.f 5 1 == stOverflow }))
    else s
/-- JOIN_STATUS_RECEIVE (04 R138). -/
def execJoinStatusReceive (port : Nat) (cell : Cell) (s : State) : Res := lift (toContext port cell statusArrive) s
/-- A BARRIER_RELEASE from the parent is forwarded to the children, with its release GTC (04 R148; 05 R188). -/
def releaseArrive (x q : Nat) (c : Cell) (s : Sw) : Sw :=
  match s.ctx? x with
  | none => s
  | some k =>
    let o := c.f 0 4
    let status := c.f 5 1
    if c.tc != 5 || c.ctype != ctRelease || k.canopy.parent != some q || c.f 4 1 != phComplete then s
    else match SMap.find? o k.ops with
      | none => if status = stOk then s else settle x (endUnopened x o status s)
      | some p =>
        let s := s.modOp x o (fun p => { p with launchAt := some (BitVec.ofNat 64 (c.f 16 8)) })
        settle x (if !p.isOpen then (if p.once.contains (0, 0) then s else deliveredCheck x o (sendComplete x o status s))
          else if status = stOk then finishOp x o stOk s else endFromRoot x o status 0 s)
/-- BARRIER_RELEASE_RECEIVE (04 R148). -/
def execBarrierReleaseReceive (port : Nat) (cell : Cell) (s : State) : Res := lift (toContext port cell releaseArrive) s
/-- A COUNTS cell under DIR 0 (04 R145, R146; 08 R268). -/
def countsCellArrive (x q : Nat) (c : Cell) (s : Sw) : Sw :=
  match s.ctx? x with
  | none => s
  | some k =>
    if c.tc != 5 || c.ctype != ctCounts || c.arg / 4096 % 2 != 0 || k.closing then s
    else settle x (countsArrive x q c (k.canopy.parent == some q) s)
/-- COUNTS_RECEIVE (04 R146). -/
def execCountsReceive (port : Nat) (cell : Cell) (s : State) : Res := lift (toContext port cell countsCellArrive) s
/-- EXCHANGE_CELL_RECEIVE (04 R147). -/
def execExchangeCellReceive (port : Nat) (cell : Cell) (s : State) : Res := lift (p2pArrive port cell) s

/-! ### Lateness, stalls, losses (04 R150 to R153) -/

/-- Time passes by `n` frame ticks, which count for the lateness of every slot (DESIGN CHOICE, log 24). -/
def passTicks (n : Nat) (s : Sw) : Sw :=
  if n = 0 then s
  else
    let s := toTick s.time.active s.time.lastTick s
    let first := BitVec.ofNat 32 s.frame
    let d := (n - 1) * 2 ^ s.time.active
    let s := s.modTime (fun u => { u with gtc := u.gtc + BitVec.ofNat 64 d, elapsed := u.elapsed + d,
                                          lastTick := some (u.gtc + BitVec.ofNat 64 d) })
    each s.ctxs.keys (lateTicks first n) s
/-- LATE_FRAMES ticks have passed since the lateness start of a slot: time stands at that tick or later (log 24). -/
def latenessOp (x o k q : Nat) (s : Sw) : Sw :=
  match s.ctx? x with
  | none => s
  | some c =>
    match c.slot? o k, c.memberAt q with
    | some t, some h =>
      if t.lstart == BitVec.allOnes 32 then s
      else
        settle x (takeBackup x o k h (passTicks (c.cfg.lateFrames - t.late) s))
    | _, _ => s
/-- LATENESS_EXPIRY (04 R150, R151). -/
def execLatenessExpiry (ctx opnum gcell port : Nat) (s : State) : Res := lift (latenessOp ctx opnum gcell port) s
/-- First grid cell of operation o that has begun and waits for child q. -/
def firstWaiting (c : Ctx) (o : Nat) (p : Op) (q : Nat) : Option Nat :=
  (List.range (cellsOf p.blk)).find? (fun k => (expected c p.blk k).contains q && !taken c o p q k &&
    (match c.slot? o k with | some t => t.sst == 1 && t.lstart != BitVec.allOnes 32 | none => false))
/-- STALL_US has passed without the JOIN, or the contribution, of member child q: event 0x0205 once per operation and port; the
instant of the stall is kept for its end (04 R152). -/
def stallOp (x o q gcell : Nat) (contribution : Bool) (s : Sw) : Sw :=
  match s.ctx? x, s.op? x o with
  | some c, some p =>
    let told := p.once.any (fun e => (e.1 / 2 ^ 64 == 0x0205 || e.1 == 0x0206) && e.2 == q)
    (match c.memberAt q with
     | none => s
     | some h =>
       let backupHas (k : Nat) : Bool := match h.backup with
         | some b => if blkPrune p.blk then p.pruned.mem (cellKey b k) else wholeCell s c p b h.rankFirst k
         | none => false
       let waits := if contribution then
           (match c.slot? o gcell with
            | some t => t.lstart != BitVec.allOnes 32 && (expected c p.blk gcell).contains q && !taken c o p q gcell && !backupHas gcell
            | none => false)
         else p.opened && !p.joined.getLsbD q
       if !p.isOpen || told || !waits then s
       else
         let k := if contribution then (firstWaiting c o p q).getD gcell else 0
         raiseCtx x 0x0205 (le 4 o ++ le 2 q ++ le 1 (if contribution then 2 else 1) ++ le 4 k)
           (s.modOp x o (fun p => { p with once := p.once ++ [(0x0205 * 2 ^ 64 + s.now, q)] })))
  | _, _ => s
/-- STALL_TIMEOUT (04 R152). -/
def execStallTimeout (ctx opnum port gcell : Nat) (contribution : Bool) (s : State) : Res :=
  lift (stallOp ctx opnum port gcell contribution) s
/-- MEMBER_LOSS_TIMEOUT: what every context that names the port loses (04 R153; 09 R293). -/
def execMemberLossTimeout (port : Nat) (s : State) : Res := lift (fun w => each w.ctxs.keys (lossOf port) w) s
/-- ABORT_NOTICE_RECEIVE (04 R154). -/
def execAbortNoticeReceive (port : Nat) (cell : Cell) (s : State) : Res := lift (toContext port cell abortArrive) s

/-! ### The Seedling context (04 R158; 14 R481) -/

/-- Context 0 as start-up creates it, before its contract version. -/
def seedCfg : CtxCfg := { job := 0, slots := 65536 }
/-- Create context 0 with no children, at the highest minor version that the firmware implements. -/
def seedCtx (s : Sw) : Sw := (createCtx 0 { seedCfg with minor := s.sec.runMinor } {} s).getD s
/-- Member ports that the next renumbering takes, at most 512. -/
def Sw.seedPorts (s : Sw) : List Nat := (s.upPorts.filter (fun n => s.isMember n && s.inMap 0 n)).take 512
/-- The change is applied: ranks, bindings, map entries, MEPOCH, BOUND and event 0x020B. -/
def rebind (s : Sw) : Sw :=
  match s.ctx? 0 with
  | none => s
  | some c =>
    let ps := s.seedPorts
    let kids : List Child := ((List.range ps.length).zip ps).map (fun e =>
      { port := e.2, isSwitch := false, rankFirst := e.1, rankCount := 1, mctx := if s.mappedPort e.2 then some 0 else none, backup := none })
    let r : Canopy := { c.canopy with members := ps.length, mepoch := c.canopy.mepoch + 1, children := kids }
    let s := unbindSeedling (unmapCtx 0 s)
    let s := each kids (fun h s => s.setBinding h.port (some { job := 0, rank := h.rankFirst, backup := false })) s
    let s := (s.setCtx 0 { c with canopy := r, changePending := false }).modGlb (fun g => { g with rebound := true })
    let s := each kids (sendBound 0) (mapCtx 0 r s)
    settle 0 (rejoin 0 (raiseCtx 0 0x020B (le 4 ps.length) s))
/-- Context 0 may be rebound: it has no open operation. -/
def Sw.seedIdle (s : Sw) : Bool := match s.ctx? 0 with | some c => !c.closing && !c.anyOpen | none => false
/-- Every present port whose lanes show no loss of signal is UP (14 R481). -/
def Sw.litUp (s : Sw) : Bool :=
  (List.range 512).all (fun n => (s.port n).reg.state == .absent || s.up n || (s.lanesOf n).any (fun l => (s.lane l).los))
/-- A pending change; the first one waits for R481. -/
def reboundOp (s : Sw) : Sw :=
  let pending := match s.ctx? 0 with | some c => c.changePending | none => false
  if s.seedIdle && pending && (s.glb.rebound || (s.glb.firstMemberUp.isSome && s.litUp)) then rebind s else s
/-- SEEDLING_REBOUND (04 R158). -/
def execSeedlingRebound (s : State) : Res := lift reboundOp s
/-- SEEDLING_REBIND_TIMEOUT (14 R481). -/
def execSeedlingRebindTimeout (s : State) : Res :=
  lift (fun w => if w.seedIdle && !w.glb.rebound && w.glb.firstMemberUp.isSome then rebind w else w) s

end Sys2Proof.Machine
end

