-- ==== Sys2Proof/Machine/Store.lean ====
section
/-! DEFINITION. The commands of the Store family: stores, loads and reads of shards, store gathers and pins, re-shards, gradient
areas and mirrors (06 R192 to R224; 14 R477). -/
namespace Sys2Proof.Machine

/-! ### STORE_CREATE and STORE_DESTROY (06 R198 to R202, R221) -/

/-- The store that a STORE_CREATE asks for. -/
def createStore (b : Sub) (k : Canopy) : Store :=
  let n := b.bits 11 0 3
  { m64 := b.bits 10 0 4 == 0, nstate := n
    sfmt := (List.range n).map (fun i => (b.f 12 2 / 2 ^ (4 * i)) % 16)
    splace := (List.range n).map (fun i => (b.f 14 1 / 2 ^ (2 * i)) % 4)
    gpost := b.flag 15 0, cacheMib := b.f 16 4, ranges := k.shards.map (fun e => (e.first, e.count)) }
/-- A format or placement outside the table, or a reserved bit or unused field that is not 0 (R198). -/
def storeBad (b : Sub) : Bool :=
  let n := b.bits 11 0 3
  let t := createStore b {}
  !b.only [lctx, bi_ 10 0 4, bi_ 11 0 3, by_ 12 3, bi_ 15 0 2, by_ 16 4] || decide (1 < b.bits 10 0 4) || decide (4 < n) ||
    t.sfmt.any (fun f => decide (3 < f)) || t.splace.any (fun p => p == 3) || b.f 12 2 / 2 ^ (4 * n) != 0 || b.f 14 1 / 2 ^ (2 * n) != 0 ||
    t.cacheMib % 16 != 0
/-- A recovered store equals the descriptor and the context's shard entries (R221). -/
def Store.matches (t r : Store) : Bool :=
  t.m64 == r.m64 && t.nstate == r.nstate && t.sfmt == r.sfmt && t.splace == r.splace && t.gpost == r.gpost && t.cacheMib == r.cacheMib &&
    t.ranges == r.ranges
/-- Attach a store with the shards that it already has; every other one that the canopy gives this switch is EMPTY and takes its
space (R199). none: the space does not fit. -/
def attachStore (x : Nat) (c : Ctx) (old : Bool) (t : Store) (s : Sw) : Option Sw :=
  let new := (heldEntries c.canopy.shards).filter (fun e => !t.shards.mem e.1 ||
    (match SMap.find? e.1 t.shards with | some h => h.st == .empty && h.bufs.isEmpty | none => false))
  (takeShards x c.cfg t new s).map (fun r =>
    let t := { t with shards := r.1.foldl (fun m e =>
      m.set e.1 (match SMap.find? e.1 t.shards with | some h => { e.2 with recs := h.recs } | none => e.2)) t.shards }
    let owned := (c.canopy.shards.filter (fun e => e.srole == 1)).length
    let mirrored := (c.canopy.shards.filter (fun e => e.srole == 2)).length
    let ready := (t.shards.vals.filter (fun h => h.st != .empty)).length
    let s := r.2.modCtx x (fun c => { c with store := some t })
    let s := raiseCtx x 0x0400 (le 1 (if old then 2 else 1) ++ le 4 owned ++ le 4 mirrored) s
    if old then raiseCtx x 0x0409 (le 4 ready ++ le 4 (t.shards.length - ready) ++ le 8 (t.lsn - 1)) s else s)
/-- The recovered store of a context number becomes its own again: its buffers are the store's. -/
def reclaim (x job : Nat) (t : Store) (s : Sw) : Sw :=
  let ids := t.shards.vals.flatMap (fun h => h.bufs) ++ t.cache.map (fun e => e.buf)
  (poolHand ids (.store x) (some job) s).modRec (fun r => { r with stores := r.stores.erase x })
/-- STORE_CREATE. -/
def storeCreateOp (b : Sub) (t : Tok) (s : Sw) : Sw :=
  let x := b.ctx
  let rec_ := b.flag 15 1
  match s.ctx? x with
  | none => complete t stBad s
  | some c =>
    let d := createStore b c.canopy
    let old := SMap.find? x s.rcv.stores
    let fits := match old with | some r => d.matches r | none => false
    let base := match old with | some r => if rec_ then r else d | none => d
    let own (s : Sw) : Sw := if rec_ && fits then reclaim x c.cfg.job base s else s
    guardDesc t [
      (storeBad b || c.closing || c.canopy.shards.isEmpty || c.cfg.cls != 0 || (rec_ && !fits), stBad),
      (c.store.isSome || s.notOwner b x, stDenied)]
      (fun s => guardDesc t [((d.splace.any (fun p => p == 1) && !s.tier2) || (attachStore x c rec_ base (own s)).isNone, stNoRes)]
        (fun s => match attachStore x c rec_ base (own s) with
          | some s => settle x (complete t stOk s)
          | none => complete t stNoRes s)
        (if rec_ then s else spaceLimit c.cfg d (heldEntries c.canopy.shards) s)) s
/-- STORE_CREATE (06 R199). -/
def execStoreCreate (sub : Sub) (s : State) : Res := lift (runDesc 0x30 storeCreateOp sub) s

/-- Detach and free the store of context x: its steps end ABORTED, its space is given back (R202; 12 R408). -/
def destroyStore (x : Nat) (s : Sw) : Sw :=
  match s.store? x with
  | none => s
  | some t =>
    let s := each t.steps.keys (fun u s => match s.step? x u with
      | some st => if st.st == .done then s else stepDone x u stAborted s
      | none => s) s
    let s := each t.shards.keys (emptyShard x) s
    let s := poolFreeBy (.store x) t.layerBuf.toList (freeEntries x t.cache s)
    s.modCtx x (fun c => { c with store := none, gathers := [] })
/-- STORE_DESTROY. -/
def storeDestroyOp (b : Sub) (t : Tok) (s : Sw) : Sw :=
  let x := b.ctx
  match s.ctx? x, s.store? x with
  | some c, some d =>
    guardDesc t [
      (!b.only [lctx], stBad),
      (s.notOwner b x || c.ops.any (fun e => e.2.isOpen && (c.storeReduction e.2.blk || c.storeGather e.2.blk)) ||
        d.shards.any (fun e => d.anyPinned e.1 || e.2.st == .updating || e.2.st == .waitPin) || c.reshard.isSome, stDenied)]
      (fun s => settle x (complete t stOk (destroyStore x s))) s
  | _, _ => complete t stBad s
/-- STORE_DESTROY (06 R202). -/
def execStoreDestroy (sub : Sub) (s : State) : Res := lift (runDesc 0x31 storeDestroyOp sub) s

/-! ### STORE_LOAD, STORE_READ, STORE_UNPIN, STORE_LOG_READ (06 R202) -/

/-- OFFSET and LEN are multiples of 64 and lie within array `arr` of shard e. -/
def rangeBad (t : Store) (e : ShardEnt) (arr offset len : Nat) : Bool :=
  decide (t.nstate < arr) || offset % 64 != 0 || len % 64 != 0 || decide (e.count * fmtBytes (t.fmt arr) < offset + len)
/-- The load bank of a shard. -/
def Shard.loadBank (h : Shard) : Nat := if h.st == .empty then 0 else h.other
/-- The loaded bank becomes current at version v, which also restores arrays that tier 2 lost (R202, R207, R209; 11 R395). -/
def Shard.loadCommit (v : Nat) (h : Shard) : Shard :=
  let b := h.loadBank
  let was := h.st
  let h := h.setBank b (fun w => { w with ver := some v, prevVer := none })
  { h with cur := b, st := if was == .empty then .ready else h.st, lostTier2 := none }
/-- STORE_LOAD. -/
def storeLoadOp (b : Sub) (t : Tok) (s : Sw) : Sw :=
  let x := b.ctx
  let arr := b.f 10 1
  let k := b.f 12 4
  let commit := b.flag 11 0
  let v := b.f 16 4
  let off := b.f 32 8
  let len := b.f 40 4
  match s.ctx? x, s.store? x with
  | some c, some d =>
    (match c.canopy.shard k with
     | none => guardDesc t [(!b.only [lctx, by_ 10 1, bi_ 11 0 1, by_ 12 8, by_ 24 16, by_ 40 4], stBad)] (complete t stDenied) s
     | some e =>
       let h : Shard := (SMap.find? k d.shards).getD {}
       guardDesc t [
         (!b.only [lctx, by_ 10 1, bi_ 11 0 1, by_ 12 8, by_ 24 16, by_ 40 4] || rangeBad d e arr off len || (commit && v == 0), stBad),
         (s.notOwner b x || e.srole == 0 || !d.shards.mem k || (h.st == .ready && h.bankPinned h.other) || h.st == .updating ||
           h.st == .waitPin, stDenied)]
         (hostGuard b t (fun s =>
           let bank := h.loadBank
           let s := s.modShard x k (fun h =>
             (h.setBank bank (fun w => { w with ver := none, prevVer := none })).loadBytes d bank arr (off / fmtBytes (d.fmt arr)) (b.host.take len))
           let s := if !commit then s
             else migDecide x k (commitRecord x k 1 bank (h.st != .empty) v 0 (0, 0) (s.modShard x k (Shard.loadCommit v)))
           settle x (complete t stOk s))) s)
  | _, _ => complete t stBad s
/-- STORE_LOAD (06 R202). -/
def execStoreLoad (sub : Sub) (s : State) : Res := lift (runDesc 0x32 storeLoadOp sub) s

/-- Element i of array `arr` of version v: a master element from a bank or the cache, a state element from a bank. -/
def readElem (d : Store) (h : Shard) (x k v arr i : Nat) : Quad :=
  if arr = 0 then d.masterElem x k v i else h.elem x k ((h.bankOf v).getD 0) arr i
/-- Event 0x0404 of shard k. -/
def goneEvent (x k named v : Nat) (s : Sw) : Sw := raiseCtx x 0x0404 (le 4 k ++ le 4 named ++ le 4 v) s
/-- STORE_READ. -/
def storeReadOp (b : Sub) (t : Tok) (s : Sw) : Sw :=
  let x := b.ctx
  let arr := b.f 10 1
  let k := b.f 12 4
  let off := b.f 32 8
  let len := b.f 40 4
  match s.ctx? x, s.store? x with
  | some c, some d =>
    (match c.canopy.shard k with
     | none => complete t stBad s
     | some e =>
       let h : Shard := (SMap.find? k d.shards).getD {}
       let v := if b.f 16 4 = 0 then h.version else some (b.f 16 4)
       let held (v : Nat) : Bool := if arr = 0 then d.holdsVersion k v else (h.bankOf v).isSome
       guardDesc t [
         (!b.only [lctx, by_ 10 1, by_ 12 8, by_ 24 16, by_ 40 4] || rangeBad d e arr off len, stBad),
         (s.notOwner b x, stDenied)]
         (fun s => match v.filter held with
           | none => complete t stGone (goneEvent x k t.tag.toNat (b.f 16 4) s)
           | some v => hostGuard b t (fun s =>
               let w := fmtBytes (d.fmt arr)
               let bytes := ((span (off / w) (len / w)).map (fun i => le w (rawElem (d.fmt arr) (readElem d h x k v arr i)))).flatten
               complete t stOk (hostWrite t (b.q 24) bytes s)) s) s)
  | _, _ => complete t stBad s
/-- STORE_READ (06 R202). -/
def execStoreRead (sub : Sub) (s : State) : Res := lift (runDesc 0x33 storeReadOp sub) s

/-- STORE_UNPIN. -/
def storeUnpinOp (b : Sub) (t : Tok) (s : Sw) : Sw :=
  let x := b.ctx
  let first := b.f 12 4
  let count := b.f 20 4
  match s.ctx? x, s.store? x with
  | some c, some d =>
    guardDesc t [(!b.only [lctx, by_ 12 12], stBad), (s.notOwner b x, stDenied)]
      (fun s =>
        let s := each d.shards.keys (fun k s => match c.canopy.shard k with
          | some e => if decide (e.first < first + count) && decide (first < e.first + e.count) then
              s.modStore x (Store.subPin k (b.f 16 4) 0 1) else s
          | none => s) s
        settle x (complete t stOk s)) s
  | _, _ => complete t stBad s
/-- STORE_UNPIN (06 R202). -/
def execStoreUnpin (sub : Sub) (s : State) : Res := lift (runDesc 0x35 storeUnpinOp sub) s

/-- A commit-record place; one that was never written holds free bytes (log 3). -/
def recPlace (r : Option CommitRec) (k : Nat) (s : Sw) : List Byte × Sw :=
  match r with
  | some r => (r.bytes k, s)
  | none => (List.range 8).foldl (fun acc _ => let (q, s) := acc.2.draw; (acc.1 ++ le 8 q.toNat, s)) (([] : List Byte), s)
/-- STORE_LOG_READ. -/
def storeLogReadOp (b : Sub) (t : Tok) (s : Sw) : Sw :=
  let x := b.ctx
  match s.ctx? x, s.store? x with
  | some c, some d =>
    let mine := heldEntries c.canopy.shards
    guardDesc t [(!b.only [lctx, by_ 24 8, by_ 40 4], stBad), (s.notOwner b x, stDenied), (decide (b.f 40 4 < 128 * mine.length), stNoRes)]
      (hostGuard b t (fun s =>
        let (bytes, s) := mine.foldl (fun acc e =>
          let h : Shard := (SMap.find? e.1 d.shards).getD {}
          let (a, s) := recPlace h.recs.1 e.1 acc.2
          let (z, s) := recPlace h.recs.2 e.1 s
          (acc.1 ++ a ++ z, s)) (([] : List Byte), s)
        complete t stOk (hostWrite t (b.q 24) bytes s))) s
  | _, _ => complete t stBad s
/-- STORE_LOG_READ (06 R202). -/
def execStoreLogRead (sub : Sub) (s : State) : Res := lift (runDesc 0x37 storeLogReadOp sub) s

/-! ### STORE_GATHER (06 R211, R212, R214) -/

/-- The version a STORE_GATHER names for an owned shard; none when the shard does not hold it. -/
def gatherVersion (d : Store) (k v : Nat) : Option Nat :=
  if v = 0 then (SMap.find? k d.shards).bind Shard.version else if d.holdsVersion k v then some v else none
/-- Place the resolved versions in the gather cache; event 0x0403 for one that does not fit. -/
def keepVersions (x : Nat) (vs : SMap Nat) (s : Sw) : Sw :=
  each vs (fun e s =>
    let (ok, s) := makeEntry x e.1 e.2 s
    if ok then s
    else raiseCtx x 0x0403 (le 4 e.1 ++ le 4 e.2 ++ le 4 (match s.store? x with | some t => 16 * t.cacheUsed | none => 0)) s) s
/-- Note a STORE_GATHER with its operation, or for it when it has not opened; a block of another range fails (R212). -/
def noteGather (x o : Nat) (g : GatherReq) (s : Sw) : Sw :=
  match s.op? x o with
  | some p =>
    let s := s.modOp x o (fun p => { p with gather := some g })
    if p.isOpen && (g.first != blkB p.blk || g.count != blkE p.blk) then failHere x o stMismatch s else s
  | none => s.modCtx x (fun c => { c with gathers := c.gathers.set o g })
/-- A STORE_GATHER that meets no shard owned here has no effect, but for a range that differs from the open operation's block
(R212). -/
def rangeCheck (x o first count : Nat) (s : Sw) : Sw :=
  match s.op? x o with
  | some p => if p.isOpen && (first != blkB p.blk || count != blkE p.blk) then failHere x o stMismatch s else s
  | none => s
/-- STORE_GATHER. -/
def storeGatherOp (b : Sub) (t : Tok) (s : Sw) : Sw :=
  let x := b.ctx
  let o := b.f 12 4
  let first := b.f 20 4
  let count := b.f 24 4
  let pin := b.flag 10 0
  let keep := b.flag 10 2
  match s.ctx? x, s.store? x with
  | some c, some d =>
    let owned := ownedIn c first count
    let had : Option GatherReq := match SMap.find? o c.ops with | some p => p.gather | none => SMap.find? o c.gathers
    let ended := match SMap.find? o c.ops with | some p => !p.isOpen | none => false
    let resolved := !owned.isEmpty && (ended || (match had with | some g => !g.gone | none => false))
    let picks := owned.map (fun e => (e.1, gatherVersion d e.1 (b.f 16 4)))
    let vs : SMap Nat := picks.filterMap (fun e => e.2.map (fun v => (e.1, v)))
    let full := vs.any (fun e => decide (65535 < (d.pinOf e.1 e.2).1 + 1) || (pin && decide (65535 < (d.pinOf e.1 e.2).2 + 1)))
    guardDesc t [
      (!b.only [lctx, bi_ 10 0 3, by_ 12 16] || decide (o < c.windowBase) || decide (c.windowBase + 32 ≤ o) ||
        (match SMap.find? o c.ops with | some p => p.isOpen && blkKind p.blk != kAllGather | none => false), stBad),
      (resolved || s.notOwner b x, stDenied)]
      (fun s =>
        match picks.find? (fun e => e.2.isNone) with
        | some e =>
          let s := noteGather x o { resolved := [], unpin := false, first := first, count := count, gone := true } s
          settle x (complete t stGone (goneEvent x e.1 o (b.f 16 4) s))
        | none =>
          if full then complete t stNoRes s
          else if owned.isEmpty then settle x (completeR t stOk 0 (rangeCheck x o first count s))
          else
            let s := takePins x pin vs s
            let s := if keep then keepVersions x vs s else s
            let s := noteGather x o { resolved := vs, unpin := b.flag 10 1, first := first, count := count } s
            let lo := (minOf vs.vals).getD 0
            let hi := vs.vals.foldl max 0
            settle x (completeR t stOk (BitVec.ofNat 64 (lo + hi * 2 ^ 32)) s)) s
  | _, _ => complete t stBad s
/-- STORE_GATHER (06 R212). -/
def execStoreGather (sub : Sub) (s : State) : Res := lift (runDesc 0x34 storeGatherOp sub) s

/-! ### Re-shards (06 R215 to R219; 14 R477) -/

/-- Two shard entries differ only in TOWARD_PORT, MIRROR_PORT and SROLE. -/
def sameShard (a b : ShardEnt) : Bool :=
  a.first == b.first && a.count == b.count && a.layer == b.layer && a.ugroup == b.ugroup
/-- The new record of a STORE_RESHARD differs from the canopy beyond what R217 allows. -/
def reshardDiffers (k r : Canopy) : Bool :=
  k.role != r.role || k.level != r.level || k.parent != r.parent || k.members != r.members || k.mepoch != r.mepoch ||
    k.children != r.children || k.shards.length != r.shards.length || !(k.shards.zip r.shards).all (fun e => sameShard e.1 e.2)
/-- Shards that this switch owns under one table and not under another. -/
def ownedOnly (a b : List ShardEnt) : List Nat :=
  (List.range a.length).filter (fun k => (match a[k]? with | some e => e.srole == 1 | none => false) &&
    !(match b[k]? with | some e => e.srole == 1 | none => false))
/-- Shards of a new table that take space at this switch. -/
def needsSpace (t : Store) (new : List ShardEnt) : List (Nat × ShardEnt) :=
  (heldEntries new).filter (fun e => match SMap.find? e.1 t.shards with | some h => h.bufs.isEmpty | none => true)
/-- Tier-1 extents for the AUTO arrays of a mirrored shard in tier 2 that comes in as this switch's own: a received shard starts
with them in tier 1 (08 R273). -/
def takeAuto (x : Nat) (cfg : CtxCfg) (t : Store) (e : Nat × ShardEnt) (s : Sw) : Option Sw :=
  match SMap.find? e.1 t.shards with
  | none => some s
  | some h =>
    if !h.inTier2 then some s
    else
      let id := s.pool.next
      (poolTake 6 h.grove (extentsOf (2 * t.autoBytes e.2.count)) (some cfg.job) (.store x) s).map
        (fun s => s.modShard x e.1 (fun h => { h with bufs := h.bufs ++ [id] }))
/-- Take the space of incoming shards. -/
def takeIncoming (x : Nat) (c : Ctx) (new : List ShardEnt) (s : Sw) : Option Sw :=
  match c.store with
  | none => some s
  | some t =>
    let own := (ownedOnly new c.canopy.shards).filterMap (fun k => (new[k]?).map (fun e => (k, e)))
    (takeShards x c.cfg t (needsSpace t new) s).bind (fun r =>
      own.foldl (fun (a : Option Sw) e => a.bind (takeAuto x c.cfg t e))
        (some (r.2.modStore x (fun t => { t with shards := r.1.foldl (fun m e =>
          m.set e.1 (match SMap.find? e.1 m with | some h => { e.2 with recs := h.recs } | none => e.2)) t.shards }))))
/-- STORE_RESHARD. -/
def storeReshardOp (b : Sub) (t : Tok) (s : Sw) : Sw :=
  let x := b.ctx
  let e := b.f 12 4
  let len := b.f 40 4
  let r := parseCanopy (b.host.take len)
  match s.ctx? x with
  | none => complete t stBad s
  | some c =>
    hostGuard b t (guardDesc t [
      (!b.only [lctx, by_ 12 4, by_ 32 12] || c.closing || e == 0 || !canopyForm b.host len || !canopyValid s x c.cfg.job r ||
        !shardsValid s (2 ^ c.cfg.seglenLog2) r || reshardDiffers c.canopy r || (c.store.isNone && !r.shards.isEmpty), stBad),
      (c.reshard.isSome || c.openedFrom e || s.notOwner b x, stDenied)]
      (fun s => guardDesc t [((takeIncoming x c r.shards s).isNone, stNoRes)]
        (fun s => match takeIncoming x c r.shards s with
          | none => complete t stNoRes s
          | some s =>
            let inc : SMap ImgIn := (ownedOnly r.shards c.canopy.shards).map (fun k => (k, ({} : ImgIn)))
            let rs : Reshard := { eff := e, shards := r.shards, outgoing := ownedOnly c.canopy.shards r.shards, incoming := inc, since := s.now }
            let s := raiseCtx x 0x0405 (le 4 e) (s.modCtx x (fun c => { c with reshard := some rs }))
            settle x (complete t stOk s))
        (match c.store with | some d => spaceLimit c.cfg d (needsSpace d r.shards) s | none => s))) s
/-- STORE_RESHARD (06 R217). -/
def execStoreReshard (sub : Sub) (s : State) : Res := lift (runDesc 0x36 storeReshardOp sub) s

/-- Outgoing shard k still keeps a re-shard in DRAINING (R218). -/
def Store.keepsDraining (t : Store) (k : Nat) : Bool :=
  match SMap.find? k t.shards with
  | some h => h.st == .updating || h.st == .waitPin || t.anyPinned k || h.grad.vals.any (fun g => g.full)
  | none => false
/-- Operations below E that are not complete here. -/
def Ctx.openBelow (c : Ctx) (e : Nat) : List Nat := (c.ops.filter (fun p => p.2.isOpen && decide (p.1 < e))).map Prod.fst
/-- Outgoing shards of a re-shard that are pinned, busy or hold FULL cells. -/
def Ctx.waitingShards (c : Ctx) (r : Reshard) : List Nat :=
  r.outgoing.filter (fun k => c.store.any (fun t => t.keepsDraining k))
/-- A draining re-shard with nothing outstanding sends its outgoing images. -/
def moveStart (x : Nat) (s : Sw) : Sw :=
  match s.ctx? x with
  | none => s
  | some c =>
    match c.reshard with
    | none => s
    | some r =>
      if r.moving || decide (c.windowBase < r.eff) || !(c.waitingShards r).isEmpty then s
      else
        let s := s.setCtx x { c with reshard := some { r with moving := true, since := s.now } }
        let s := each r.outgoing (moveImage x) s
        settle x (each r.incoming.keys (imageCheck x) s)
/-- RESHARD_MOVE_START (06 R218). -/
def execReshardMoveStart (ctx : Nat) (s : State) : Res := lift (moveStart ctx) s

/-- 10 ms in DRAINING: event 0x0407, once, naming what waits. -/
def drainTimeout (x : Nat) (s : Sw) : Sw :=
  match s.ctx? x with
  | none => s
  | some c =>
    match c.reshard with
    | none => s
    | some r =>
      if r.moving || r.waited then s
      else
        let s := s.setCtx x { c with reshard := some { r with waited := true } }
        raiseCtx x 0x0407 (cList ((c.openBelow r.eff).map (le 4)) ++ cList ((c.waitingShards r).map (le 4))) s
/-- RESHARD_DRAIN_TIMEOUT (06 R218). -/
def execReshardDrainTimeout (ctx : Nat) (s : State) : Res := lift (drainTimeout ctx) s

/-- The re-shard a move cell belongs to: E, its layout epoch, the shard tables before and after, and whether it is in progress. -/
def Ctx.moveOf (c : Ctx) (m : Cell) : Option (Nat × Nat × List ShardEnt × List ShardEnt × Bool) :=
  let fits (e epoch : Nat) : Bool := m.copseq == (e - 1) % 64 && m.le == epoch % 2
  match c.reshard with
  | some r => if fits r.eff c.nextEpoch then some (r.eff, c.nextEpoch, c.canopy.shards, r.shards, true) else none
  | none =>
    match c.lepochs with
    | (n, e) :: _ => if n != 0 && fits e n then some (e, n, c.oldShards, c.canopy.shards, false) else none
    | [] => none
/-- A DATA cell reaches the new owner of its shard (R218, R219, R221). -/
def moveData (x k block : Nat) (data : List Byte) (e epoch : Nat) (old : List ShardEnt) (s : Sw) : Sw :=
  let back := (old[k]?).bind (fun o => o.toward)
  let pendingIn := (s.ctx? x).bind (fun c => c.reshard.bind (fun r => (SMap.find? k r.incoming).filter (fun i => !i.done)))
  let role := match old[k]? with | some o => o.srole | none => 0
  let ready := match s.shard? x k with | some h => h.st == .ready | none => false
  let put (im : ImgIn) (s : Sw) : Sw := s.modCtx x (fun c => { c with reshard := c.reshard.map (fun r => { r with incoming := r.incoming.set k im }) })
  match pendingIn with
  | some im =>
    if ready && role == 0 then ackMove x e epoch k mkOk back (put { im with done := true } s)
    else if block = 0 then imageCheck x k (put { im with bytes := data, next := 1 } s)
    else if block = im.next then imageCheck x k (put { im with bytes := im.bytes ++ data, next := block + 1 } s)
    else s
  | none => if ready && block == 0 then ackMove x e epoch k mkOk back s else s
/-- An acknowledgement reaches the old owner of its shard (R218). -/
def moveAck (x k : Nat) (good : Bool) (new : List ShardEnt) (s : Sw) : Sw :=
  match (s.ctx? x).bind (fun c => c.reshard) with
  | none => s
  | some r =>
    if !r.moving || !r.outgoing.contains k then s
    else if !good then moveImage x k s
    else
      let cur := match s.shard? x k with | some h => h.cur | none => 0
      let s := commitRecord x k 4 cur false 0 0 (0, 0) s
      let stays := match new[k]? with | some e => e.srole == 2 | none => false
      let s := if stays then clearShard x k s else emptyShard x k s
      s.modCtx x (fun c => { c with reshard := some { r with outgoing := r.outgoing.filter (· != k), moved := r.moved ++ [k] } })
/-- A move cell on canopy port q: it goes on toward its owner, or is taken there (R219). -/
def moveOp (x q : Nat) (m : Cell) (s : Sw) : Sw :=
  match s.ctx? x with
  | none => s
  | some c =>
    let pay := bytes64 m.pay
    let k := bytesAt pay 0 2
    let kind := byteAt pay 2
    if m.tc != 4 || m.cmember != noMember || (c.memberOf q).isSome || decide (2 < kind) || byteAt pay 3 != 0 then s
    else match c.moveOf m with
      | none => s
      | some (e, epoch, old, new, _) =>
        let table := if kind = mkData then new else old
        match table[k]? with
        | none => s
        | some ent =>
          match ent.toward with
          | some up => sendMove x up [m] s
          | none =>
            settle x (if kind = mkData then moveData x k (bytesAt pay 4 4) (pay.drop 8) e epoch old s
              else moveAck x k (kind == mkOk) new s)
/-- MOVE_CELL_RECEIVE (06 R219). -/
def execMoveCellReceive (port : Nat) (cell : Cell) (s : State) : Res := lift (toContext port cell moveOp) s

/-- RESHARD_RESEND_TIMEOUT (14 R477). -/
def resendImage (x k : Nat) (s : Sw) : Sw :=
  match (s.ctx? x).bind (fun c => c.reshard) with
  | some r => if r.moving && r.outgoing.contains k then moveImage x k s else s
  | none => s
/-- RESHARD_RESEND_TIMEOUT (14 R477). -/
def execReshardResendTimeout (ctx shard : Nat) (s : State) : Res := lift (resendImage ctx shard) s

/-! ### Gradient areas, mirrors, WAIT_PIN (06 R197, R205, R209) -/

/-- A slot that a FULL gradient cell kept HELD is written once FULL is clear (R205). At a mirror the cells that waited are taken. -/
def areaWrite (x o k : Nat) (s : Sw) : Sw :=
  match s.ctx? x, s.op? x o with
  | some c, some p =>
    let g := segOf c p.blk k
    if !c.storeReduction p.blk || s.gradFull x c p.blk k then s
    else match c.slot? o k with
      | some t =>
        if t.sst != 2 || (upPort c p.blk k).isSome || !p.isOpen || !p.segAnchor.mem g then mirrorResume x o k s
        else
          let v := t.value (c.mode p) c.cfg.acc64
          let v := if v.overflows c.cfg.g then { (v.saturate c.cfg.g).1 with clamp := true } else v
          let (ok, s) := gradWrite x o k (usedAnchor c p g) { v with attempt := c.attemptOf o g } s
          if !ok then s
          else
            let s := s.modCtx x (fun c => { c with slots := c.slots.erase (slotKey o k) })
            settle x (commitStore x o g (s.modOp x o (fun p => { p with cbits := addSet p.cbits k })))
      | none => settle x (mirrorResume x o k s)
  | _, _ => s
/-- GRADIENT_AREA_FULL (06 R205). -/
def execGradientAreaFull (ctx opnum gcell : Nat) (s : State) : Res := lift (areaWrite ctx opnum gcell) s

/-- MIRROR_RECORD_RECEIVE (06 R197). -/
def execMirrorRecordReceive (port : Nat) (cell : Cell) (s : State) : Res := lift (toContext port cell recordOp) s

/-- A shard in WAIT_PIN goes on when its other bank's pins have reached 0 or an entry has become possible (R209). -/
def pinResume (x k : Nat) (s : Sw) : Sw :=
  match s.ctx? x, s.shard? x k with
  | some c, some h =>
    if h.st != .waitPin then s
    else
      let vs := (h.bank h.other).versions.filter h.pinned
      let (ok, s) := if vs.isEmpty then (true, s) else pinsToCache x k vs s
      if !ok then s
      else
        let s := beginWrite x k s
        (match c.canopy.shard k with
         | some e =>
           (match s.pass x e.ugroup k, s.step? x e.ugroup with
            | some p, some st => if st.skip || s.idles x e.ugroup k then s else agStart h.grove e.count p.l s
            | _, _ => s)
         | none => s)
  | _, _ => s
/-- WAIT_PIN_RESUME (06 R209). -/
def execWaitPinResume (ctx shard : Nat) (s : State) : Res := lift (pinResume ctx shard) s

end Sys2Proof.Machine
end

