-- ==== Sys2Proof/Machine/Update.lean ====
section
/-! DEFINITION. The commands of the Update family: kernels, layer records, update steps, the norm collective, commits and
migrations, with the two errors that stop them (07 R225 to R255; 08 R270 to R273). -/
namespace Sys2Proof.Machine

/-! ### Kernels (07 R232, R233) -/

/-- The job of a function: the lowest-numbered one it owns (DEDUCED, log 34). -/
def Sw.jobOfFunc (s : Sw) (func : Nat) : Option Nat := (List.range 256).find? (fun j => s.owns func j)
/-- An accepted step latched a configuration with this kernel. -/
def Sw.stepUses (s : Sw) (kid : Nat) : Bool :=
  s.ctxs.any (fun e => match e.2.store with
    | some t => t.steps.vals.any (fun st => st.st != .done && st.cfg.vals.any (fun l => l.kid == kid))
    | none => false)
/-- A layer configuration names this kernel. -/
def Sw.layerUses (s : Sw) (kid : Nat) : Bool :=
  s.ctxs.any (fun e => match e.2.store with | some t => t.layers.vals.any (fun l => l.kid == kid) | none => false)
/-- A loaded entry belongs to a job that the function does not own. -/
def Sw.kernelForeign (s : Sw) (func kid : Nat) : Bool :=
  match SMap.find? kid s.kernels with | some k => !s.owns func k.job | none => false
/-- The kernel that a KERNEL_LOAD brings. -/
def loadKernel (b : Sub) (job : Nat) : Kernel :=
  let ws : List Word := (List.range (b.f 11 1 + b.f 12 1)).map (fun i => BitVec.ofNat 32 (bytesAt b.host (4 * i) 4))
  { job := job, fp64 := b.flag 10 0, pre := ws.take (b.f 11 1), main := ws.drop (b.f 11 1) }
/-- KERNEL_LOAD. -/
def kernelLoadOp (b : Sub) (t : Tok) (s : Sw) : Sw :=
  let kid := b.f 8 1
  let job := s.jobOfFunc b.func
  let k := loadKernel b (job.getD 0)
  guardDesc t [
    (!b.only [by_ 8 1, bi_ 10 0 1, by_ 11 2, by_ 24 8] || decide (64 < b.f 11 1) || b.f 12 1 == 0 || decide (128 < b.f 11 1 + b.f 12 1) ||
      b.f 24 8 % 64 != 0, stBad)]
    (hostGuard b t (guardDesc t [
      (!k.valid, stBad),
      (job.isNone || s.kernelForeign b.func kid || s.stepUses kid, stDenied)]
      (fun s => complete t stOk (s.modKernels (SMap.set kid k))))) s
/-- KERNEL_LOAD (07 R232). -/
def execKernelLoad (sub : Sub) (s : State) : Res := lift (runDesc 0x40 kernelLoadOp sub) s
/-- KERNEL_FREE. Freeing a free entry changes nothing (DEDUCED, log 34). -/
def kernelFreeOp (b : Sub) (t : Tok) (s : Sw) : Sw :=
  let kid := b.f 8 1
  guardDesc t [(!b.only [by_ 8 1], stBad), (s.kernelForeign b.func kid || s.layerUses kid || s.stepUses kid, stDenied)]
    (fun s => complete t stOk (s.modKernels (SMap.erase kid))) s
/-- KERNEL_FREE (07 R233). -/
def execKernelFree (sub : Sub) (s : State) : Res := lift (runDesc 0x41 kernelFreeOp sub) s

/-! ### Layer records (07 R234, R235) -/

/-- Bytes as a signed 32-bit number. -/
def toS32 (n : Nat) : Int := (BitVec.ofNat 32 n).toInt
/-- A layer record from its 256 bytes. -/
def parseLayer (b : List Byte) : LayerCfg :=
  { kid := byteAt b 0, linear := (byteAt b 1).testBit 0, round := byteAt b 2, fact := byteAt b 3, cols := bytesAt b 4 4
    beta := BitVec.ofNat 64 (bytesAt b 8 8), eps := BitVec.ofNat 64 (bytesAt b 16 8), offset := bytesAt b 24 4
    counts := (List.range 6).map (fun i => bytesAt b (32 + 4 * i) 4)
    strides := (List.range 6).map (fun i => toS32 (bytesAt b (56 + 4 * i) 4))
    consts := (List.range 16).map (fun i => BitVec.ofNat 64 (bytesAt b (80 + 8 * i) 8)) }
/-- A layer record breaks R235 for a store of job j. -/
def layerBad (s : Sw) (j : Nat) (t : Store) (b : List Byte) : Bool :=
  let l := parseLayer b
  decide (1 < byteAt b 1) || decide (32 ≤ byteAt b 2) || decide (16 ≤ byteAt b 3) || bytesAt b 28 4 != 0 || !allZero ((b.drop 208).take 48) ||
    (match SMap.find? l.kid s.kernels with | some k => (s.job k.job).owner != (s.job j).owner | none => true) ||
    decide (2 ^ t.nstate ≤ l.fact) || (l.cols != 0) != (l.fact != 0)
/-- Layer configurations stand in one extent of the home grove, drawn with the store's first: 65,536 records of 256 bytes
(07 R233; 11 R370; DEDUCED, log 126). none: no extent is free. -/
def layerSpace (x : Nat) (s : Sw) : Option Sw :=
  match s.ctx? x, s.store? x with
  | some c, some d =>
    if d.layerBuf.isSome then some s
    else (poolTake 6 (s.homeOf x c) 1 (some c.cfg.job) (.store x) s).map (fun r =>
      r.modStore x (fun d => { d with layerBuf := some s.pool.next }))
  | _, _ => none
/-- Layer k has no configuration any more; the extent is free once none is left. -/
def layerClear (x k : Nat) (s : Sw) : Sw :=
  let s := s.modStore x (fun d => { d with layers := d.layers.erase k })
  match s.store? x with
  | none => s
  | some d =>
    if d.layers.isEmpty then poolFreeBy (.store x) d.layerBuf.toList (s.modStore x (fun d => { d with layerBuf := none })) else s
/-- A limit or a lack of extents refuses a layer configuration: event 0x080B of a limit (11 R374). -/
def layerLimit (x : Nat) (s : Sw) : Sw :=
  match s.ctx? x with
  | some c => if (layerSpace x s).isSome then s else limitEvent 6 (s.homeOf x c) 1 c.cfg.job s
  | none => s
/-- LAYER_CONFIG. -/
def layerConfigOp (b : Sub) (t : Tok) (s : Sw) : Sw :=
  let x := b.ctx
  let clear := b.flag 12 0
  match s.ctx? x, s.store? x with
  | some c, some d =>
    guardDesc t [(!b.only [lctx, by_ 10 2, bi_ 12 0 1, by_ 24 8] || b.f 24 8 % 64 != 0, stBad), (s.notOwner b x, stDenied)]
      (fun s =>
        if clear then complete t stOk (layerClear x (b.f 10 2) s)
        else hostGuard b t (guardDesc t [(layerBad s c.cfg.job d b.host, stBad)]
          (fun s => match layerSpace x s with
            | some s => complete t stOk (s.modStore x (fun d => { d with layers := d.layers.set (b.f 10 2) (parseLayer b.host) }))
            | none => complete t stNoRes (layerLimit x s))) s) s
  | _, _ => complete t stBad s
/-- LAYER_CONFIG (07 R235). -/
def execLayerConfig (sub : Sub) (s : State) : Res := lift (runDesc 0x42 layerConfigOp sub) s

/-! ### UPDATE_START and UPDATE_ABORT (07 R242 to R244, R251, R252) -/

/-- A shard of the group fails R244 under its layer's configuration. -/
def shardRefused (s : Sw) (c : Ctx) (t : Store) (k : Nat) : Bool :=
  match c.canopy.shard k with
  | none => true
  | some e =>
    match SMap.find? e.layer t.layers with
    | none => true
    | some l =>
      match SMap.find? l.kid s.kernels with
      | none => true
      | some ker =>
        let ws := ker.pre ++ ker.main
        let beyond := ws.any (fun w => (kSrcs w).any (fun a => decide (0x12 + t.nstate ≤ a) && decide (a ≤ 0x15)) ||
          (kOut w && decide (t.nstate < kOutArray w)))
        let factored := ws.any (fun w => kOut w && kOutArray w != 0 && l.fact.testBit (kOutArray w - 1))
        let shape := l.fact != 0 && (l.cols == 0 || e.count % l.cols != 0 || decide (e.count < e.count / l.cols + l.cols))
        let other := ker.accumulates && c.canopy.shards.any (fun f => f.layer == e.layer && f.srole != 1)
        beyond || factored || shape || !l.fits e.count || other
/-- The step that an UPDATE_START asks for. -/
def startStep (s : Sw) (c : Ctx) (t : Store) (b : Sub) (tok : Tok) : Step :=
  let shards := c.groupShards (b.f 10 2)
  { step := b.f 12 4, global := b.flag 16 0, resume := b.flag 16 1, policy := b.bits 16 2 2, maxnorm := BitVec.ofNat 32 (b.f 20 4)
    hs := (List.range 4).map (fun i => BitVec.ofNat 32 (b.f (24 + 4 * i) 4)), sig := crc64 (le 48 (b.f 8 48))
    cfg := t.layers.keep (fun l => shards.any (fun k => c.layerOf k == l)), left := shards, idleSkip := t.idleSkip, tok := some tok, since := s.now }
/-- The shard has committed this step already (R251). -/
def Shard.didStep (h : Shard) (step : Nat) : Bool :=
  match h.standing with | some r => r.kind == 2 && r.step == step | none => false
/-- FP64 bits are finite and positive. -/
def quadPositive (q : Quad) : Bool := q.toNat != 0 && decide (q.toNat < 0x7FF0000000000000)
/-- A step resumes: the shards already committed are skipped, the word is reset (R251). -/
def resumeStep (x u : Nat) (factor gnorm : Quad) (s : Sw) : Sw :=
  match s.store? x, s.step? x u with
  | some t, some st =>
    let done := st.left.filter (fun k => match SMap.find? k t.shards with | some h => h.didStep st.step | none => false)
    let s := each done (clearFull x) s
    let s := s.modStore x (fun t => { t with words := t.words.erase u })
    enterRunning x u factor gnorm false (s.modStep x u (fun st => { st with left := st.left.filter (fun k => !done.contains k) }))
  | _, _ => s
/-- UPDATE_START. -/
def updateStartOp (b : Sub) (t : Tok) (s : Sw) : Sw :=
  let x := b.ctx
  let u := b.f 10 2
  let resume := b.flag 16 1
  match s.ctx? x, s.store? x with
  | some c, some d =>
    let shards := c.groupShards u
    guardDesc t [
      (!b.only [lctx, by_ 10 6, bi_ 16 0 4, by_ 20 36] || b.bits 16 2 2 == 3 || b.f 12 4 == 0 || (!resume && b.f 40 16 != 0) ||
        shards.any (shardRefused s c d) || (resume && !quadPositive (b.q 40)), stBad),
      (s.notOwner b x || (match SMap.find? u d.steps with | some st => st.st != .done | none => false), stDenied)]
      (fun s =>
        if shards.isEmpty then complete t stOk s
        else
          let s := s.modStore x (fun d => { d with steps := d.steps.set u (startStep s c d b t) })
          settle x (if resume then resumeStep x u (b.q 40) (b.q 48) s else s)) s
  | _, _ => complete t stBad s
/-- UPDATE_START (07 R244). -/
def execUpdateStart (sub : Sub) (s : State) : Res := lift (runDesc 0x43 updateStartOp sub) s

/-- The writes of a step that have not committed are abandoned (R209, R251). -/
def abandonStep (x u : Nat) (s : Sw) : Sw :=
  match s.step? x u with
  | none => s
  | some st => each st.left (fun k s => match s.shard? x k with
      | some h => agStop h.grove (abandonWrite x k s)
      | none => s) s
/-- UPDATE_ABORT ends a step that is not DONE (R251). -/
def abortStep (x u : Nat) (s : Sw) : Sw :=
  match s.step? x u with
  | none => s
  | some st =>
    let s := if st.st == .running then abandonStep x u s else s
    stepDone x u stAborted (if st.done.isEmpty then restoreSnap x u s else s)
/-- UPDATE_ABORT. A step that is DONE is answered ALREADY_DONE (DEDUCED, log 35). -/
def updateAbortOp (b : Sub) (t : Tok) (s : Sw) : Sw :=
  let x := b.ctx
  let u := b.f 10 2
  guardDesc t [
    (!b.only [lctx, by_ 10 6] || (match s.step? x u with | some st => st.step != b.f 12 4 | none => true), stBad),
    (s.notOwner b x, stDenied)]
    (fun s => match s.step? x u with
      | some st => if st.st == .done then complete t stDone s else settle x (complete t stAborted (abortStep x u s))
      | none => s) s
/-- UPDATE_ABORT (07 R252). -/
def execUpdateAbort (sub : Sub) (s : State) : Res := lift (runDesc 0x44 updateAbortOp sub) s

/-! ### Norm collective and waits (07 R246, R251) -/

/-- A RESULT from the parent: it goes on to the switch children, is kept for its STEP, and is acted on (R246). -/
def normResultArrive (x u step word : Nat) (an : Int) (nonfinite mismatch : Bool) (m : Cell) (s : Sw) : Sw :=
  match s.ctx? x with
  | none => s
  | some c =>
    let s := each c.canopy.switchChildren (fun q => ctxCtrl x q .none m) s
    let known := match s.store? x with | some t => ((t.norms.getD u {}).known step).isSome | none => true
    if known then s
    else
      let s := s.modStore x (fun t => { t with norms := t.norms.set u { step := step, result := some (step, word, an, nonfinite, mismatch) } })
      stepResult x u step word an nonfinite mismatch [] s
/-- A NORM cell on canopy port q. -/
def normOp (x q : Nat) (m : Cell) (s : Sw) : Sw :=
  match s.ctx? x with
  | none => s
  | some c =>
    let step := m.f 0 4
    let u := m.f 4 2
    let kind := m.f 6 1
    let nf := (m.f 7 1).testBit 0
    let mm := (m.f 7 1).testBit 1
    let word := m.f 8 16
    let an := toS16 (m.f 24 2)
    if m.tc != 5 || m.ctype != ctNorm || !(c.canopy.switchPorts.contains q) then s
    else if kind = 0 && c.canopy.parent != some q then
      match c.canopy.parent with
      | some up => ctxCtrl x up .none m s
      | none => settle x (normCount x u step (m.f 26 2) (word, an, nf, m.f 28 4, BitVec.ofNat 64 (m.f 32 8)) (some q) s)
    else if kind = 1 && c.canopy.parent == some q then settle x (normResultArrive x u step word an nf mm m s)
    else s
/-- NORM_RECEIVE (07 R246). -/
def execNormReceive (port : Nat) (cell : Cell) (s : State) : Res := lift (toContext port cell normOp) s
/-- An owner in NORM_WAIT sends its CONTRIB again. -/
def normResend (x u : Nat) (s : Sw) : Sw :=
  match s.step? x u with
  | some st => if st.st == .normWait then settle x (sendContrib x u s) else s
  | none => s
/-- NORM_RESEND_TIMER (07 R246). -/
def execNormResendTimer (ctx ugroup : Nat) (s : State) : Res := lift (normResend ctx ugroup) s

/-- 10 ms in GRAD_WAIT. -/
def gradWaitEvent (x u : Nat) (s : Sw) : Sw :=
  match s.ctx? x, s.store? x, s.step? x u with
  | some c, some t, some st =>
    let short := st.left.filter (fun k => match SMap.find? k t.shards, c.canopy.shard k with
      | some h, some e => !h.allFull e.count
      | _, _ => true)
    if st.st == .gradWait then stepOnce x u 0x0421 0 (cList (short.map (le 4))) s else s
  | _, _, _ => s
/-- UPDATE_GRAD_WAIT (07 R251). -/
def execUpdateGradWait (ctx ugroup : Nat) (s : State) : Res := lift (gradWaitEvent ctx ugroup) s
/-- 10 ms in NORM_WAIT: at the root the shards counted and expected, elsewhere the time waiting in ms. -/
def normWaitEvent (x u : Nat) (s : Sw) : Sw :=
  match s.ctx? x, s.store? x, s.step? x u with
  | some c, some t, some st =>
    let r := t.norms.getD u {}
    let counted := if r.step = st.step then r.contribs.vals.foldl (fun a (e : Contrib) => a + e.2.2.2.1) 0 else 0
    let expect := (c.canopy.shards.filter (fun e => e.ugroup == u)).length
    if st.st == .normWait then stepOnce x u 0x0422 0 (if c.isRoot then le 4 counted ++ le 4 expect else le 4 10) s else s
  | _, _, _ => s
/-- NORM_WAIT_TIMEOUT (07 R251). -/
def execNormWaitTimeout (ctx ugroup : Nat) (s : State) : Res := lift (normWaitEvent ctx ugroup) s

/-! ### Running a step (07 R231, R240, R249; 08 R271) -/

/-- A shard that its grove is working on in the layer in progress of a running step. -/
def Sw.workingOn (s : Sw) (x u k : Nat) : Bool :=
  match s.ctx? x, s.step? x u, s.shard? x k with
  | some c, some st, some h =>
    st.st == .running && (st.now c).find? (fun j => match s.shard? x j with | some o => o.grove == h.grove | none => false) == some k
  | _, _, _ => false
/-- The factors that the factor pass of shard k writes, by array. -/
def Pass.allFactors (p : Pass) : SMap (List Quad × Quad) :=
  ((span 1 p.t.nstate).filter p.factored).map (fun a => (p.k * 8 + a, p.factorPass a))
/-- The factor passes and PRE sections of a layer complete: factors and sums stand (R231, R240, R249). -/
def layerPre (x u layer : Nat) (s : Sw) : Sw :=
  match s.ctx? x, s.step? x u with
  | some c, some st =>
    if st.st != .running || st.layer c != layer || !s.layerWaits x u then s
    else
      let mine := sortAsc ((st.now c).filter (fun k => !s.idles x u k))
      let s := each mine (fun k s => match s.pass x u k with
        | some p => s.modStep x u (fun st => { st with factors := p.allFactors.foldl (fun m e => m.set e.1 e.2) st.factors })
        | none => s) s
      let sums := mine.foldl (fun a k => match s.pass x u k with
        | some p => List.zipWith (fadd fp64) a p.sums
        | none => a) [0, 0, 0, 0]
      let s := each (dedup (mine.filterMap (fun k => (s.shard? x k).map (fun h => h.grove)))) agStop s
      settle x (engineGo x u (s.modStep x u (fun st => { st with acc := some (layer, sums.map (BitVec.ofNat 64)) })))
  | _, _ => s
/-- LAYER_PRE_COMPLETE (07 R249). -/
def execLayerPreComplete (ctx ugroup layer : Nat) (s : State) : Res := lift (layerPre ctx ugroup layer) s

/-- An exact copy of the current bank's arrays (R248). -/
def Pass.exactCopy (p : Pass) : List (SMap Quad) :=
  (List.range p.t.arrays).map (fun a => (List.range p.e.count).map (fun i =>
    (i, BitVec.ofNat 64 (rawElem (p.t.fmt a) (p.h.elem p.x p.k p.h.cur a i)))))
/-- The first grid cell with OVF that the kernel of a pass consumes (R239). -/
def Pass.ovfCell (p : Pass) : Option Nat :=
  let reads := p.l.fact != 0 || (p.ker.pre ++ p.ker.main).any (fun w => (kSrcs w).contains 0x11)
  let cells := if p.l.fact != 0 then List.range (p.e.count / 32) else dedup (sortAsc ((p.l.addrs p.e.count).map (· / 32)))
  if reads then cells.find? (fun i => (p.h.gradCell p.x p.k i).ovf) else none
/-- Shard k reads its current bank in a running step: its grove runs its nest, or its layer runs the factor passes and PRE. -/
def Sw.readsBank (s : Sw) (x u k : Nat) : Bool :=
  s.workingOn x u k || (s.layerWaits x u && !s.idles x u k && (match s.ctx? x, s.step? x u with
    | some c, some st => st.st == .running && (st.now c).contains k
    | _, _ => false))
/-- The unit of an error as events number it: a stack, or the root port that 24 + p names (log 73). -/
def unitNo (unit : Nat) : Nat := if unit = 24 ∨ unit = 25 then unit - 24 else unit
/-- An error on root port p (unit 24 + p; DESIGN CHOICE, log 74) is poison: it is counted, and event 0x0812 names the tier-2 address
(11 R395, R397). -/
def poisoned (unit addr : Nat) (s : Sw) : Sw :=
  if unit = 24 ∨ unit = 25 then
    raiseSys 0x0812 (le 2 (unit - 24) ++ le 8 addr) (s.modRoot (unit - 24) (fun r => { r with poison := r.poison + 1 }))
  else s
/-- An uncorrectable error on the current bank of a running shard: its write is abandoned, it keeps its version and FULL (R251). -/
def abandonShard (x u k stack ta : Nat) (s : Sw) : Sw :=
  match s.step? x u, s.shard? x k with
  | some st, some h =>
    if !s.readsBank x u k then s
    else
      let s := agStop h.grove (abandonWrite x k s)
      let s := stepEvent x u st.step 0x0427 (le 4 k ++ le 2 (unitNo stack) ++ le 8 ta) (poisoned stack ta s)
      let s := s.modStep x u (fun st => { st with left := st.left.filter (· != k), abandoned := true })
      settle x (stepCheck x u (engineGo x u s))
  | _, _ => s
/-- The shard has arrays in tier 2 behind root port p. -/
def Shard.usesRoot (h : Shard) (p : Nat) : Bool :=
  let on (n : Nat × Nat) : Bool := (if p = 0 then n.1 else n.2) != 0
  on h.t2 || (h.inTier2 && on h.autoT2)
/-- A demotion of the shard writes behind root port p. -/
def Shard.migUses (h : Shard) (p : Nat) : Bool := (if p = 0 then h.migT2.1 else h.migT2.2) != 0
/-- A root port that a shard's accesses need and whose link is down (11 R395). -/
def Sw.rootDown (s : Sw) (h : Shard) : Option Nat := (List.range 2).find? (fun p => (h.usesRoot p || h.migUses p) && !(s.root p).linkUp)
/-- The shadow checks of a shard's sampled blocks, each on the tile that computed it (07 R254; 09 R302, R303): whether an update
slice was outvoted. -/
def blockChecks (x step k g : Nat) (blocks : List Nat) (s : Sw) : Bool × Sw :=
  let ts := s.groveTiles (32 * g)
  (blocks.filter (fun b => sampled s x step (k * 4096 + b))).foldl (fun (acc : Bool × Sw) b =>
    match shadowCheck 2 x step (k * 4096 + b) (ts.getD (b % max 1 ts.length) (32 * g)) acc.2 with
    | (.checked, s) => (true, s)
    | (_, s) => (acc.1, s)) (false, s)
/-- A shard's nest ends: its arrays, its commit record, its version (R209, R220, R238, R249). Where a shadow check outvotes an
update slice the nest restarts instead, as for a take-over (R251; 09 R306). A shard whose tier-2 arrays cannot be read is
abandoned (R251; 11 R395). -/
def commitShard (x u k : Nat) (s : Sw) : Sw :=
  match s.ctx? x, s.pass x u k with
  | some c, some p =>
    let st := p.st
    if !s.workingOn x u k || p.h.st != .updating || s.idles x u k || s.layerWaits x u then s
    else match s.rootDown p.h with
    | some r => if (s.root r).holding then s else abandonShard x u k r (r * 2 ^ 42) s
    | none =>
    match p.h.lostTier2 with
    | some r => abandonShard x u k r (r * 2 ^ 42) s
    | none =>
      let v := (p.h.version.getD 0 + 1) % 2 ^ 32
      let acc := match st.acc with | some (l, a) => if l = st.layer c then a else [] | none => []
      let out : NestOut := if st.skip then { arrays := p.exactCopy } else p.main acc v
      let blocks := if st.skip then 0 else ((p.l.addrs p.e.count).length + 4095) / 4096
      match blockChecks x st.step k p.h.grove (List.range blocks) s with
      | (true, s) =>
        stepEvent x u st.step 0x0426 (le 4 k ++ le 1 2 ++ le 2 0xFFFF) (agStart p.h.grove p.e.count p.l (agStop p.h.grove s))
      | (false, s) =>
      let s := s.modShard x k (fun h =>
        { (h.setBank h.other (fun b => { b with ver := some v, prevVer := none, arrays := out.arrays })) with cur := h.other, st := .ready })
      let s := match out.sat with
        | some (a, i) => stepOnce x u 0x0424 (st.layer c) (le 2 (st.layer c) ++ le 1 a ++ le 4 i) s
        | none => s
      let s := match (if st.skip then none else p.ovfCell) with
        | some i => stepOnce x u 0x0428 0 (le 4 k ++ le 4 i) s
        | none => s
      settle x (afterCommit x u k false (staleTell x k <| commitRecord x k 2 p.h.other true v st.step st.factor s))
  | _, _ => s
/-- SHARD_COMMIT (07 R249). -/
def execShardCommit (ctx ugroup shard : Nat) (s : State) : Res := lift (commitShard ctx ugroup shard) s
/-- An IDLE shard is committed without its kernel: versions v and v + 1 share the current bank (08 R271). -/
def commitIdle (x u k : Nat) (s : Sw) : Sw :=
  match s.step? x u, s.shard? x k with
  | some st, some h =>
    if !s.workingOn x u k || h.st != .updating || !s.idles x u k then s
    else
      let v := h.version.getD 0
      let v' := (v + 1) % 2 ^ 32
      let s := s.modShard x k (fun h => { (h.setBank h.cur (fun b => { b with ver := some v', prevVer := some v })) with st := .ready })
      settle x (afterCommit x u k true (staleTell x k <| commitRecord x k 2 h.cur true v' st.step st.factor s))
  | _, _ => s
/-- IDLE_COMMIT (08 R271). -/
def execIdleCommit (ctx ugroup shard : Nat) (s : State) : Res := lift (commitIdle ctx ugroup shard) s
/-- SHARD_ABANDONED (07 R251): the error is on the stack that its address decodes to (11 R378), or is poison of a root port (11 R395). -/
def execShardAbandoned (ctx ugroup shard stack ta : Nat) (s : State) : Res :=
  lift (fun w => abandonShard ctx ugroup shard (w.stackAt stack ta) ta w) s

/-! ### Migrations (08 R273; 11 R392, R393) -/

/-- 16 MiB extents that a promotion takes for the AUTO arrays of both banks. -/
def Store.autoExtents (t : Store) (count : Nat) : Nat := extentsOf (2 * t.autoBytes count)
/-- Bytes that a migration moves: the AUTO arrays of each bank that holds a version. -/
def movedBytes (t : Store) (h : Shard) (count : Nat) : Nat :=
  t.autoBytes count * (b2n h.bank0.ver.isSome + b2n h.bank1.ver.isSome)
/-- No space for the migration at the head: the shard is STILL, with event 0x0512 naming the tier that lacks space. -/
def noSpace (x k tier : Nat) (s : Sw) : Sw := raiseCtx x 0x0512 (le 4 k ++ le 1 tier) (migStop x k s)
/-- The shard at the head of a grove's queue begins copying when it is READY and its destination has space. -/
def migStart (g : Nat) (s : Sw) : Sw :=
  match s.migQueues.getD g [] with
  | [] => s
  | (x, k) :: _ =>
    match s.ctx? x, s.store? x, s.shard? x k with
    | some c, some t, some h =>
      (match c.canopy.shard k with
       | none => s
       | some e =>
         if h.mig != .queued || h.st != .ready then s
         else if h.promote then
           let id := s.pool.next
           match poolTake 6 g (t.autoExtents e.count) (some c.cfg.job) (.store x) s with
           | some s => s.modShard x k (fun h => { h with mig := .copying, migBuf := some id })
           | none => noSpace x k 1 (limitEvent 6 g (t.autoExtents e.count) c.cfg.job s)
         else
           match takeT2 (t2Extents t t.autos e.count) (0, 0) s with
           | some (n, s) => s.modShard x k (fun h => { h with mig := .copying, migT2 := n })
           | none => noSpace x k 2 s)
    | _, _, _ => s.modMigs (fun m => m.set g ((m.getD g []).drop 1))
/-- MIGRATION_START (08 R273). -/
def execMigrationStart (grove : Nat) (s : State) : Res := lift (migStart grove) s
/-- Give back the tier-1 extents of a shard's AUTO arrays after a demotion: those taken by a promotion, or the part of its run
beyond what the other arrays need (DEDUCED, log 36). -/
def freeAuto (x : Nat) (t : Store) (cfg : CtxCfg) (h : Shard) (count : Nat) (s : Sw) : Sw :=
  match h.bufs with
  | [] => s
  | first :: [] =>
    let keep := extentsOf (t.shardBytes cfg.g count - 2 * t.autoBytes count)
    s.modPool (fun p => { p with bufs := p.bufs.map (fun (b : PoolBuf) => if b.id == first then { b with count := keep } else b) })
  | _ :: rest => poolFreeBy (.store x) rest s
/-- An uncorrectable error on the source of a copy: it is abandoned and the destination freed. -/
def migError (g unit address : Nat) (s : Sw) : Sw :=
  match s.migQueues.getD g [] with
  | [] => s
  | (x, k) :: _ =>
    match s.shard? x k with
    | some h =>
      if h.mig != .copying then s
      else
        let s := raiseCtx x 0x0514 (le 4 k ++ le 2 (unitNo unit) ++ le 8 address) (migStop x k (poisoned unit address s))
        (match s.ctx? x with
         | some c => settle x (if h.migWait then engineGo x (match c.canopy.shard k with | some e => e.ugroup | none => 0) s else s)
         | none => s)
    | none => s
/-- The copy at the head of a grove's queue ends: the placement word is written, the source freed, S = 0. A write-bank request that
waited for a promotion goes on. -/
def migDone (g : Nat) (s : Sw) : Sw :=
  match s.migQueues.getD g [] with
  | [] => s
  | (x, k) :: rest =>
    match s.ctx? x, s.store? x, s.shard? x k with
    | some c, some t, some h =>
      (match c.canopy.shard k with
       | none => s
       | some e =>
         if h.mig != .copying then s
         else match s.rootDown h with
         | some r => if (s.root r).holding then s else migError g r (r * 2 ^ 42) s
         | none =>
           let s := s.modMigs (SMap.set g rest)
           let s := if h.promote then freeT2 h.autoT2 s else freeAuto x t c.cfg h e.count s
           let s := s.modShard x k (fun h => { h with
             mig := .still, steps := 0, inTier2 := !h.promote, migT2 := (0, 0), migBuf := none, migWait := false
             autoT2 := if h.promote then (0, 0) else h.migT2
             bufs := if h.promote then h.bufs ++ h.migBuf.toList else h.bufs.take 1 })
           let s := raiseCtx x (if h.promote then 0x0511 else 0x0510) (le 4 k ++ le 8 (movedBytes t h e.count) ++ le 4 (t.activeIn h)) s
           settle x (if h.migWait then engineGo x e.ugroup s else s))
    | _, _, _ => s
/-- MIGRATION_COPY_DONE (08 R273). -/
def execMigrationCopyDone (grove : Nat) (s : State) : Res := lift (migDone grove) s
/-- MIGRATION_ERROR (08 R273): the unit is a stack, or 24 + p for root port p (11 R395). -/
def execMigrationError (grove unit address : Nat) (s : State) : Res := lift (migError grove unit address) s

end Sys2Proof.Machine
end

