-- ==== Sys2Proof/Machine/Tiles.lean ====
section
/-! DEFINITION. Tiles: quarantine, take-over by a spare, a logical tile that leaves or returns to service, self-tests, the clear
command, and the reset of a four-lane port that may wait for a take-over (01 R13 to R21, R26; 03 R107; 09 R290, R307; 14 R472, R473,
R475, R476; 16 R528; 18 R551). -/
namespace Sys2Proof.Machine

/-! ### What a take-over loses and restarts (01 R21; 07 R251; 09 R290) -/

/-- The port of a staging key (port * 2^24 + index) is served by logical tile q. -/
def keyOnTile (q key : Nat) : Bool := key / 2 ^ 24 / 4 == q
/-- The slots on logical tile q, and what its ports have staged, are lost in context c of number x (01 R21). -/
def loseOnTile (q x : Nat) (c : Ctx) : Ctx :=
  { c with
    slots := c.slots.filter (fun e => slotTile c.tiles x (e.1 % 2 ^ 24) != q)
    ops := c.ops.mapVals (fun p => { p with
      staging := p.staging.keep (fun k => !keyOnTile q k)
      pruned := p.pruned.keep (fun k => !keyOnTile q k)
      waiting := p.waiting.filter (fun e => e.1 / 4 != q) }) }
/-- One digest of an operation is lost: it is answered as NOT_HELD (11 R389). -/
def digestError (x o key : Nat) (s : Sw) : Sw :=
  s.modCtx x (fun c => { c with digests := c.digests.adjust o (fun set => set.adjust key (fun d => { d with lost := true })) })
/-- What was inside the tile that served q is lost, the digests in its accumulators too (01 R21; DEDUCED, log 124). -/
def loseTile (q : Nat) (s : Sw) : Sw :=
  let s := each (s.tiles.vals.flatMap (fun t => if t.logical == some q then t.accs else [])) (fun e => digestError e.1 e.2.1 e.2.2) s
  let s := s.modCtxs (fun m => m.map (fun e => (e.1, loseOnTile q e.1 e.2)))
  each (s.portsPresent q) (fun n => Sw.modQ n (fun x => { x with asm := [] })) s
/-- The shards that grove g works on start their pass again: 1 the factor pass and PRE, 2 the nest (07 R251). -/
def restartShards (g tile : Nat) (s : Sw) : Sw :=
  each s.ctxs.keys (fun x s =>
    match s.store? x with
    | none => s
    | some t => each t.steps.keys (fun u s =>
        each t.shards.keys (fun k s =>
          match s.step? x u, s.shard? x k, s.pass x u k with
          | some st, some h, some p =>
            if h.grove = g && s.workingOn x u k then
              let pre := s.layerWaits x u
              let s := if h.st == .updating || pre then agStart g p.e.count p.l (agStop g s) else s
              stepEvent x u st.step 0x0426 (le 4 k ++ le 1 (if pre then 1 else 2) ++ le 2 tile) s
            else s
          | _, _, _ => s) s) s) s

/-! ### Roles (01 R15, R16, R21) -/

/-- Event 0x0622: physical tile, logical tile, cause, and 0 nothing, 1 spare taken, 2 port lost (09 R307). -/
def quarantineEvent (p : Nat) (q : Option Nat) (cause what : Nat) (s : Sw) : Sw :=
  raiseSys 0x0622 (le 2 p ++ le 2 (q.getD 0xFFFF) ++ le 1 cause ++ le 1 what) s
/-- The tile resets: its tile-local registers, and its self-test runs. `trig`: 1 leaving ACTIVE, 2 clear, 3 GLB_TILE_RESET
(14 R472, R473, R484). -/
def tileReset (p trig : Nat) (s : Sw) : Sw :=
  s.modTile p (fun t => { t with
    inReset := true, resetBy := trig, agOffset := 0, agCount := List.replicate 6 0, agStride := List.replicate 6 0
    agRunning := false, agLeader := false })
/-- The self-test of a tile in reset ends, with event 0x0A02: trigger, 1 passed or 2 failed (14 R472, R484). -/
def selfTested (p : Nat) (pass : Bool) (s : Sw) : Sw :=
  let trig := (s.tile p).resetBy
  raiseSys 0x0A02 (le 2 p ++ le 1 trig ++ le 1 (if pass then 1 else 2)) (s.modTile p (fun t => { t with inReset := false, selfTest := pass }))
/-- Physical tile p carries logical tile q from now on. -/
def carry (p q : Nat) (s : Sw) : Sw := s.modTile p (fun t => { t with role := .active, logical := some q })
/-- Logical tile q leaves service: its ports go out of service, and the contexts that hold it fail what depends on it
(01 R16, R26; 03 R107). -/
def tileOut (q : Nat) (s : Sw) : Sw :=
  let s := loseTile q (s.modTakeovers (SMap.erase q))
  let s := each (s.portsPresent q) (fun n s => raiseSys 0x0702 (le 2 n ++ le 2 q) (toDark n .outOfService 1 0 s)) s
  let s := s.modCtxs (fun m => m.mapVals (fun c => if c.tiles.contains q || c.canopy.children.any (fun h => h.port / 4 == q) then { c with lost := dedup (c.lost ++ [q]) } else c))
  settleAll (poolWarnAll s)
/-- The decision to quarantine physical tile p (01 R15; 09 R307). -/
def quarantine (p cause : Nat) (s : Sw) : Sw :=
  let t := s.tile p
  let gone (s : Sw) : Sw := s.modTile p (fun t => { t with role := .quarantined, logical := none, qcause := cause })
  match t.role, t.logical with
  | .spare, _ => quarantineEvent p none cause 0 (gone s)
  | .active, some q =>
    let s := tileReset p 1 (gone s)
    (match s.spareOf (p / 36) with
     | some sp =>
       let s := loseTile q (carry sp q (s.modTakeovers (SMap.set q sp)))
       quarantineEvent p (some q) cause 1 (restartShards (p / 36) p s)
     | none => tileOut q (quarantineEvent p (some q) cause 2 s))
  | _, _ => s
/-- A spare of grove g takes the lowest-numbered logical tile that is out of service: its ports search again (01 R15; 03 R107). -/
def tileReturn (g : Nat) (s : Sw) : Sw :=
  match s.spareOf g, s.outOfServiceOf g with
  | some p, some q =>
    let s := poolWarnAll (carry p q s)
    each ((span (4 * q) 4).filter (fun n => (s.port n).reg.state == .outOfService)) (fun n s =>
      raiseSys 0x070B (le 2 n ++ le 2 q ++ le 2 p) (enterSearch n s)) s
  | _, _ => s

/-! ### Port reset (14 R472, R473, R475, R476) -/

/-- The port layer of four-lane port q and its split ports resets: an UP port sends LINK_DOWN ADMIN, and each goes to SEARCH, its
counters kept, DETECTED and PARTNER_ROLE back at 0 (14 R475; DEDUCED, log 100). -/
def portReset4 (q : Nat) (s : Sw) : Sw :=
  let were := (s.portsPresent q).filter s.up
  raiseSys 0x0A03 (le 2 q ++ cList (were.map (le 2))) <|
  let s := s.modQuad q (fun d => { d with resetWaits := false })
  each (s.portsPresent q) (fun n s =>
    let st := (s.port n).reg.state
    if st == .disabled || st == .outOfService then s
    else
      let s := if st == .up then toDark n .search 0 5 (downFrames n 0 s) else s
      let s := s.modLink n (fun _ => {})
      let s := s.modQ n (fun x => { x with rxq := [], asm := [] })
      let s := s.modReg n (fun r => { r with detected := 0, partnerRole := 0 })
      enterSearch n s) s

/-! ### Rows -/

/-- TILE_QUARANTINE (16 R528): a software request, cause 4. -/
def tileQuarantineAct (tile : Nat) : MgmtAct := fun _ s =>
  mgmtSw (fun w => [(decide (144 ≤ tile), stBad), ((w.tile tile).role != .active && (w.tile tile).role != .spare, stDenied)])
    (quarantine tile 4) s
/-- TILE_QUARANTINE. -/
def execTileQuarantine (via : Option Sub) (tile : Nat) (s : State) : Res := .next (mgmt via 0x03 1 tile tileQuarantineAct s)

/-- The take-over ends: credit returns, lost grid cells are asked for again, retained records of the tile go again, and a port
reset that waited runs (01 R21; 09 R290; 14 R476). -/
def takeOverDone (q : Nat) (s : Sw) : Sw :=
  if !s.takingOver q then s
  else
    let s := s.modTakeovers (SMap.erase q)
    let s := each s.ctxs.keys (fun x s =>
      let onTile (c : Ctx) (k : Nat) : Bool := slotTile c.tiles x k == q
      let s := trigger x 1 q none (fun c _ p => cellSet p (fun k => !inSet p.cbits k && passes c p.blk k &&
        (onTile c k || (expected c p.blk k).any (fun n => n / 4 == q)))) s
      match s.ctx? x with
      | none => s
      | some c =>
        let s := each (c.ops.filter (fun e => e.2.isOpen)) (fun e s =>
          each c.canopy.children (fun h => resend x e.1 h.port (cellSet e.2 (onTile c))) s) s
        settle x s) s
    let s := each (s.portsPresent q) sendCredit s
    if (s.quad q).resetWaits then portReset4 q s else s
/-- TAKE_OVER_COMPLETE (01 R21). -/
def execTakeOverComplete (quad : Nat) (s : State) : Res := lift (takeOverDone quad) s

/-- The self-test of a spare: one that fails is quarantined (01 R15). -/
def selfTestSpare (p : Nat) (pass : Bool) (s : Sw) : Sw :=
  if (s.tile p).role != .spare then s
  else
    let s := s.modTile p (fun t => { t with selfTest := pass })
    if pass then s else quarantine p 2 s
/-- PERIODIC_SELF_TEST (01 R15). -/
def execPeriodicSelfTest (tile : Nat) (pass : Bool) (s : State) : Res := lift (selfTestSpare tile pass) s

/-- The clear command: the tile resets and tests itself; a pass makes it a spare, which serves a lost logical tile at once (01 R15). -/
def clearTile (p : Nat) (pass : Bool) (s : Sw) : Sw :=
  let s := selfTested p pass (tileReset p 2 s)
  if pass then tileReturn (p / 36) (s.modTile p (fun t => { t with role := .spare, qcause := 0 })) else s
/-- TILE_CLEAR (16 R528). -/
def tileClearAct (pass : Bool) (tile : Nat) : MgmtAct := fun _ s =>
  mgmtSw (fun w => [(decide (144 ≤ tile), stBad), ((w.tile tile).role != .quarantined, stDenied)]) (clearTile tile pass) s
/-- TILE_CLEAR. -/
def execTileClear (via : Option Sub) (tile : Nat) (pass : Bool) (s : State) : Res := .next (mgmt via 0x04 1 tile (tileClearAct pass) s)

end Sys2Proof.Machine
end

