-- ==== Sys2Proof/Machine/Resets.lean ====
section
/-! DEFINITION. What each reset of the switch keeps and loses: cold and warm reset, rails off, rail faults (06 R221, R222; 09 R309;
10 R345; 14 R472 to R476, R478, R479; 16 R507, R521, R524, R529, R535; 18 R544, R551; 19 R567, R568). -/
namespace Sys2Proof.Machine

/-! ### What every reset keeps (14 R473) -/

/-- A tile after a reset: its role stands in the non-volatile record, its registers are at their reset values (18 R551). -/
def Tile.afterReset (t : Tile) : Tile := { role := t.role, logical := t.logical, qcause := t.qcause, selfTest := t.selfTest, temp := t.temp }
/-- The non-volatile records of a stack. -/
def Stack.records (t : Stack) (st : StackSt) : Stack :=
  { state := st, mapout := t.mapout, failed := t.failed, laneRepaired := t.laneRepaired, repair := t.repair }
/-- A wear entry after a reset: samples, BASE and age stand; its registers start again (15 R498; 18 R544). -/
def Wear.afterReset (w : Wear) : Wear := { w with state := 0, mid := none, early := none, late := none, af30 := 0 }
/-- The WEAR block after a reset. -/
def WearBlk.afterReset (w : WearBlk) : WearBlk := { poh := w.poh, secs := w.secs, entries := w.entries.mapVals Wear.afterReset }
/-- The power block after a reset: live measurements and the reset controller's records stand. -/
def Pwr.afterReset (p : Pwr) : Pwr :=
  { vin := p.vin, iin := p.iin, pin := p.pin, grove := p.grove, optics := p.optics, stackW := p.stackW, inlet := p.inlet, outlet := p.outlet
    stackTemp := p.stackTemp, regs := p.regs, trip := p.trip, nextCause := p.nextCause, mod := p.mod, railFaults := p.railFaults }
/-- Stages begin at ROOT_OF_TRUST once MOD_PWRGD and MOD_RESET_N are high (14 R478; 19 R568). -/
def Glb.firstStage (g : Glb) : Nat := if g.pwrgd && g.modResetN then 1 else 0
/-- Job 0 is SEEDLING after every reset (12 R407). -/
def seedJobs : SMap Job := [(0, { state := .seedling, implicitMap := true })]
/-- Start-up is in progress: SEEDLING has not been reached (14 R476, R478). -/
def Sw.starting (s : Sw) : Bool := s.glb.stage != 5

/-! ### Cold reset (14 R472, R473, R479; 16 R524, R529) -/

/-- A laser site after a cold reset: EN and MUTE_N are low until start-up identifies the module. -/
def Site.afterCold (x : Site) : Site := { latched := x.latched, lastSerial := x.lastSerial }
/-- The root of trust after a cold reset: the images and the boot record stand; a recorded unlock opens debug; a fresh nonce. -/
def Sec.afterCold (c : Sec) (nonce : Quad) : Sec :=
  { c with
    debugOpen := c.unlockNext, unlockNext := false, badTokens := 0, nonce := nonce, locate := false, btnEnable := true, btnPower := true
    session := none, recovery := false, spdmI3c := {}, spdmPcie := {}, i3cAddr := none }
/-- A cold reset with a cause: only non-volatile records and what lies outside the module stand. `cause` 0 is POWER_ON. -/
def coldReset (cause : Nat) (s : Sw) : Sw :=
  let (nonce, s) := s.draw
  let opened := s.sec.unlockNext
  let glb : Glb := {
    variant := s.glb.variant, stage := s.glb.firstStage, cause := cause, kind := if cause = 0 then 0 else 1
    warms := s.glb.warms, colds := s.glb.colds + 1, startAt := s.now, pwrgd := s.glb.pwrgd, modResetN := s.glb.modResetN, refOk := s.glb.refOk }
  let held : List HeldEvent := if opened then [{ code := 0x0C20, content := le 8 s.sec.nonce.toNat }] else []
  { glb := glb
    pwr := s.pwr.afterReset
    wear := s.wear.afterReset
    sec := s.sec.afterCold nonce
    time := { elapsed := s.time.elapsed }
    host := { jobs := seedJobs, perstN := s.host.perstN, held := held, nextTok := s.host.nextTok }
    quads := s.quads.mapVals (fun d => { lastMode := d.lastMode })
    sites := s.sites.mapVals Site.afterCold
    tiles := s.tiles.mapVals Tile.afterReset
    hbm := s.hbm.mapVals (fun t => t.records (if t.state == .absent then .absent else .training))
    cxlGen := s.cxlGen + 1
    outs := s.outs
    freeCtr := s.freeCtr }

/-! ### Warm reset (06 R221; 09 R309; 14 R473 to R475, R479) -/

/-- FULL is clear. -/
def GradCell.unfull (g : GradCell) : GradCell := { g with full := false }
/-- A shard as the standing commit record leaves it; its history and placement are kept (06 R220, R221; 08 R273). -/
def Shard.afterWarm (h : Shard) : Shard :=
  let h := { h with pins := [], grad := h.grad.mapVals GradCell.unfull }
  match h.standing with
  | none => h.fresh
  | some r =>
    if r.kind = 4 then h.fresh
    else
      let h := { h.setBank r.bank (fun b => { b with ver := some r.version }) with cur := r.bank, st := .ready }
      if r.prevValid then h else h.setBank h.other (fun b => { b with ver := none, prevVer := none })
/-- A store as a warm reset leaves it: banks, arrays, commit records and cache entries are kept (06 R221). -/
def Store.afterWarm (t : Store) : Store :=
  { m64 := t.m64, nstate := t.nstate, sfmt := t.sfmt, splace := t.splace, gpost := t.gpost, cacheMib := t.cacheMib, lsn := t.lsn
    shards := t.shards.mapVals Shard.afterWarm, cache := t.cache.map (CacheEnt.setPins (0, 0)), ranges := t.ranges }
/-- The pool extents of a store. -/
def Store.extentIds (t : Store) : List Nat := t.shards.vals.flatMap (fun h => h.bufs) ++ t.cache.map (fun e => e.buf)
/-- LINK_DOWN with a reason goes out on every UP port in three frames; each transmitter then stops (03 R116; 14 R474, R475). -/
def linkDownAll (reason : Nat) (s : Sw) : Sw :=
  each s.upPorts (fun n s =>
    (downFrames n reason s).modReg n (fun r => { r with state := .lost })) s
/-- Unwritten versions and running migrations are given up. -/
def dropWrites (s : Sw) : Sw :=
  each s.ctxs.keys (fun x s => match s.store? x with
    | none => s
    | some t => each t.shards.keys (fun k s => abandonWrite x k (migStop x k s)) s) s
/-- The port registers that describe the integration (14 R474). -/
def Port.afterWarm (n : Nat) (active : Bool) (p : Port) : Port :=
  let q := portReset active n
  { q with reg := { q.reg with allow := p.reg.allow, timeAsym := p.reg.timeAsym, lastUpId := p.reg.lastUpId } }
/-- The lane settings and converged taps that stand (14 R473, R474). -/
def Lane.afterWarm (l : Lane) : Lane :=
  { txInit := l.txInit, noReq := l.noReq, ignoreReq := l.ignoreReq, trainMs := l.trainMs, conv := l.conv }
/-- Everything but AUX, TIME, tier 1, the expanders and the laser sites is reset. -/
def warmState (cause : Nat) (s : Sw) : Sw :=
  let stores := s.ctxs.filterMap (fun e => e.2.store.map (fun t => (e.1, t.afterWarm)))
  let stores := stores.foldl (fun m e => m.set e.1 e.2) s.rcv.stores
  let anchors := (s.ctxs.map (fun e => (e.1, e.2.anchors.keep (fun k => !e.2.anchorLost.mem k)))).foldl (fun m e => m.set e.1 e.2) s.rcv.anchors
  let ids := stores.vals.flatMap Store.extentIds
  let locked := s.sync.state == .locked
  let low := max s.pwr.bmcProfile (ibcFloor s.pwr.ibcOut)
  { glb := {
      variant := s.glb.variant, stage := s.glb.firstStage, cause := cause, kind := 2, warms := s.glb.warms + 1, colds := s.glb.colds
      clockReq := s.glb.clockReq, clockLimit := clockCeiling low, clockActive := clockCeiling low, ssc := s.glb.ssc, refOk := s.glb.refOk
      timeLock := s.glb.timeLock, startAt := s.now, pwrgd := s.glb.pwrgd, modResetN := s.glb.modResetN
      latches := s.glb.latches.keep (fun k => decide (0x2000 ≤ k % 2 ^ 24) && decide (k % 2 ^ 24 < 0x3000)) }
    pwr := { s.pwr.afterReset with bmcProfile := s.pwr.bmcProfile, ibcOut := s.pwr.ibcOut, energy := s.pwr.energy, inForce := low }
    wear := s.wear.afterReset
    sec := { s.sec with locate := false, btnEnable := true, btnPower := true, session := none, recovery := false, spdmPcie := {} }
    time := { gtc := s.time.gtc, frac := s.time.frac, elapsed := s.time.elapsed, period := s.time.period, active := s.time.active
              syncLog2 := s.time.syncLog2, prio := s.time.prio, domain := s.time.domain, outEnable := s.time.outEnable
              source := s.time.source, inDelay := s.time.inDelay, freq := s.time.freq, lastTick := s.time.lastTick
              stepTo := s.time.stepTo, periodAt := s.time.periodAt }
    sync := { state := if locked then .holdover else .freeRun, holdAt := s.now }
    host := { jobs := seedJobs, perstN := s.host.perstN, held := s.host.held, nextTok := s.host.nextTok }
    ports := s.ports.map (fun e => (e.1, e.2.afterWarm e.1 (s.portActive e.1)))
    quads := s.quads.mapVals (fun d => { split := d.split, splitNow := d.split, lastMode := d.lastMode })
    lanes := s.lanes.mapVals Lane.afterWarm
    engines := s.engines
    sites := s.sites
    tiles := s.tiles.mapVals Tile.afterReset
    hbm := (List.range 24).map (fun k => (k, { (s.stack k).records (if (s.stack k).inServ then .selfRefresh else (s.stack k).state) with inService := (s.stack k).inService }))
    cxl := s.cxl.mapVals (fun r => { enable := r.enable, use := r.use, total := r.total, used := r.used })
    cxlHoldMs := s.cxlHoldMs
    cxlGen := s.cxlGen
    pool := { bufs := (s.pool.bufs.filter (fun b => ids.contains b.id)).map (fun b => { b with owner := .switch, job := none }), next := s.pool.next }
    groveC := s.groveC
    rcv := { stores := stores, anchors := anchors }
    outs := s.outs
    freeCtr := s.freeCtr }
/-- A locked TIME domain holds its last frequency correction through a warm reset, a free value within 100 ppm (14 R479; log 5). -/
def holdFreq (s : Sw) : Sw :=
  if s.sync.state == .locked then
    let (v, s) := s.draw
    s.modTime (fun t => { t with freq := ((v.toNat % 201 : Nat) - 100, 0) })
  else s
/-- A warm reset with a cause: dispatch stops, LINK_DOWN goes out, tier 1 goes into self-refresh, the domains are reset (14 R474). -/
def warmReset (cause : Nat) (s : Sw) : Sw := warmState cause (holdFreq (dropWrites (linkDownAll 2 s)))

/-! ### Rails off (14 R472; 15 R485, R494; 19 R567, R568) -/

/-- The rails go off: MOD_PWRGD falls, and everything a cold reset loses is lost. `next`: the cause that the next start reports. -/
def railsOff (st : ModSt) (next : Nat) (s : Sw) : Sw :=
  let s := s.modGlb (fun g => { g with pwrgd := false })
  let colds := s.glb.colds
  let s := coldReset next s
  (s.modGlb (fun g => { g with colds := colds, stage := 0 })).modPwr (fun p => { p with mod := st, nextCause := next, faultWait := false, inputGone := false })
/-- Power-off: the links are taken down with POWER_DOWN first (14 R472, R475). -/
def powerOff (s : Sw) : Sw := railsOff .offHeld 0 (linkDownAll 3 s)
/-- A rail fault: the third within 60 s turns the module off, an earlier one starts the sequence again after 100 ms (19 R568). -/
def railFault (s : Sw) : Sw :=
  let recent := (s.pwr.railFaults.filter (fun t => decide (s.now - t ≤ 60000 * ms))) ++ [s.now]
  let s := s.modPwr (fun p => { p with railFaults := recent })
  if 3 ≤ recent.length then railsOff .offHeld 7 s
  else (railsOff .sequencing 7 s).modPwr (fun p => { p with faultWait := true })

end Sys2Proof.Machine
end

