-- ==== Sys2Proof/Machine/Clocks.lean ====
section
/-! DEFINITION. The commands of clocks, resets and start-up, and of the module's power sequence (14 R465 to R481; 16 R507, R508;
19 R566 to R568). -/
namespace Sys2Proof.Machine

/-! ### Clock profiles and clock faults (14 R466, R467) -/

/-- A write of GLB_CLOCK_CTRL (R483). -/
def clockWrite (func value : Nat) (s : Sw) : Sw :=
  if 4 ≤ value then regDiscard func 0x214 value 0 s
  else if value = 3 then regDiscard func 0x214 value 1 s
  else
    let at_ := s.gtc
    s.modGlb (fun g => { g with clockReq := value, clockAt := some at_ })
/-- CLOCK_PROFILE_WRITE (R466). -/
def execClockProfileWrite (value : Nat) (s : State) : Res := lift (clockWrite 0 value) s
/-- At the first tick after the write that is a multiple of 16,384 ns the requested profile takes effect. -/
def clockChange (s : Sw) : Sw :=
  if s.glb.clockReq = s.glb.clockTaken then s
  else
    let s := toTick 14 s.glb.clockAt s
    setClock s.glb.clockReq s.glb.clockLimit 1 s
/-- CLOCK_PROFILE_CHANGED (R466). -/
def execClockProfileChanged (s : State) : Res := lift clockChange s

/-- The PLL of domain d is locked: grove 0 to 3, 4 the TIME PLL. -/
def Glb.locked (g : Glb) (d : Nat) : Bool := if d = 4 then g.timeLock else g.coreLock.getLsbD d
/-- Set the lock of a domain. -/
def Glb.setLock (d : Nat) (on : Bool) (g : Glb) : Glb :=
  if d = 4 then { g with timeLock := on } else { g with coreLock := if on then setBit g.coreLock d else clrBit g.coreLock d }
/-- A PLL loses lock. -/
def unlockOp (d : Nat) (s : Sw) : Sw :=
  if 4 < d || !s.glb.locked d then s
  else
    let now := s.now
    s.modGlb (fun g => { g.setLock d false with unlockAt := g.unlockAt.set d now })
/-- CLOCK_UNLOCK (R467). -/
def execClockUnlock (domain : Nat) (s : State) : Res := lift (unlockOp domain) s
/-- A PLL relocks: event 0x0A12 with the time to relock in us. -/
def relockOp (d : Nat) (s : Sw) : Sw :=
  match SMap.find? d s.glb.unlockAt with
  | none => s
  | some t =>
    raiseSys 0x0A12 (le 1 d ++ le 4 ((s.now - t) / 1000)) (s.modGlb (fun g => { g.setLock d true with unlockAt := g.unlockAt.erase d }))
/-- PLL_RELOCK (R467). -/
def execPllRelock (domain : Nat) (s : State) : Res := lift (relockOp domain) s
/-- A warm reset that is requested during start-up is discarded (R476). -/
def warmUnlessStarting (cause : Nat) (s : Sw) : Sw := if s.starting then s else warmReset cause s
/-- 1 ms without relock: a warm reset with cause CLOCK. -/
def relockTimeout (d : Nat) (s : Sw) : Sw :=
  if s.glb.unlockAt.mem d then warmUnlessStarting 5 (raiseSys 0x0A12 (le 1 d ++ le 4 0) s) else s
/-- PLL_RELOCK_TIMEOUT (R467). -/
def execPllRelockTimeout (domain : Nat) (s : State) : Res := lift (relockTimeout domain) s
/-- The module reference is lost: every lane loses lock (R467; 13 R464). -/
def refLost (s : Sw) : Sw :=
  if !s.glb.refOk then s
  else
    let now := s.now
    let s := raiseSys 0x0920 (le 1 0) (s.modGlb (fun g => { g with refOk := false, refLostAt := some now }))
    each ((List.range 512).filter (fun l => s.quadActive (l / 4))) (fun l s => laneLolOp l 1 s) s
/-- REFERENCE_LOST (R467). -/
def execReferenceLost (s : State) : Res := lift refLost s
/-- SELF_TEST begins: the PLLs lock, and at a cold start the GTC begins at 0 (R478, R479). -/
def enterSelfTest (s : Sw) : Sw :=
  let s := s.modGlb (fun g => { g with stage := 2, timeLock := true, coreLock := BitVec.allOnes 4, unlockAt := [] })
  if s.glb.kind = 2 then s else s.modTime (fun t => { t with gtc := 0, frac := 0, slew := 0 })
/-- The module reference returns. -/
def refBack (s : Sw) : Sw :=
  if s.glb.refOk then s
  else
    let s := raiseSys 0x0920 (le 1 1) s
    let s := match s.glb.refLostAt with
      | some t => raiseSys 0x0A13 (le 4 ((s.now - t) / 1000) ++ le 1 1) s
      | none => s
    let s := s.modGlb (fun g => { g with refOk := true, refLostAt := none })
    if s.glb.stage = 6 then enterSelfTest s else s
/-- REFERENCE_RETURN (R467). -/
def execReferenceReturn (s : State) : Res := lift refBack s
/-- 10 ms without the reference: a warm reset with cause REFERENCE. -/
def refHoldover (s : Sw) : Sw :=
  match s.glb.refLostAt with
  | none => s
  | some t => warmUnlessStarting 6 (raiseSys 0x0A13 (le 4 ((s.now - t) / 1000) ++ le 1 2) s)
/-- REFERENCE_HOLDOVER (R467). -/
def execReferenceHoldover (s : State) : Res := lift refHoldover s

/-! ### Accesses that end (14 R471) -/

/-- Clock domain of a BAR0 offset, numbered from 1 in the order of R465 (18 R546, R550). -/
def domainOf (offset : Nat) : Nat :=
  if (0x200 ≤ offset && offset ≤ 0x20B) || offset / 4 = 0x89 then 1
  else if 0x2000 ≤ offset && offset < 0x3000 then 2
  else if 0x4000 ≤ offset && offset < 0x9000 then 7
  else if 0x10000 ≤ offset && offset < 0x19000 && 0x40 ≤ offset % 0x100 then 4
  else 3
/-- An access that its domain did not finish within 2 us; requester 0xFF is the BMC. -/
def accessEnds (func offset : Nat) (read : Bool) (s : Sw) : Sw :=
  let s := s.modGlb (fun g => { g with
    timeouts := g.timeouts + 1, timeoutAddr := BitVec.ofNat 32 (offset % 2 ^ 24 + place (func % 256) 24) })
  let s := s.limited 0x0A10 (offset / 4096 % 2 ^ 12) ms (raiseSys 0x0A10 (le 4 offset ++ le 1 func ++ le 1 (domainOf offset)))
  if read then s.out (.regRead func offset (le 4 0xFFFFFFFF)) else s
/-- ACCESS_TIMEOUT (R471). -/
def execAccessTimeout (func offset : Nat) (read : Bool) (s : State) : Res := lift (accessEnds func offset read) s

/-! ### Reset requests (14 R472, R474 to R476) -/

/-- GLB_RESET_CTRL with its KEY and a command (R483). -/
def resetCtrl (cmd : Nat) : Nat := place 0x5A 24 + cmd
/-- WARM (R483): during start-up the write is discarded (R476). -/
def execWarm (cause : Nat) (s : State) : Res :=
  lift (fun w => if w.starting then regDiscard 0 0x200 (resetCtrl 1) 1 w else warmReset cause w) s
/-- COLD (R483): it takes effect at once, whatever is in progress (R476). -/
def execCold (cause : Nat) (s : State) : Res := lift (fun w => onlyIf (w.pwr.mod == .on) (coldReset cause) w) s
/-- POWER_OFF (R483). -/
def execPowerOff (_cause : Nat) (s : State) : Res := lift (fun w => onlyIf (w.pwr.mod == .on) powerOff w) s
/-- MOD_RESET_N is low for a time (19 R566): below 0.5 us it is ignored, from 1 us on it acts, between the two it may act (a free
value decides). A cold reset holds the logic until the line rises. -/
def modResetOp (lowNs : Nat) (s : Sw) : Sw :=
  let (v, s) := if 500 ≤ lowNs && lowNs < 1000 then s.draw else (0, s)
  if lowNs < 500 || (lowNs < 1000 && !bit v 0) then s
  else
    let s := s.modGlb (fun g => { g with modResetN := false })
    if s.pwr.mod == .on then coldReset 1 s else s
/-- MOD_RESET_N (19 R566). -/
def execModResetN (lowNs : Nat) (s : State) : Res := lift (modResetOp lowNs) s
/-- MOD_RESET_N rises: start-up begins, or a module in OFF_HELD sequences its rails when the input stands (19 R568). -/
def modResetRelease (s : Sw) : Sw :=
  if s.glb.modResetN then s
  else
    let now := s.now
    let s := s.modGlb (fun g => { g with modResetN := true })
    match s.pwr.mod with
    | .on => if s.glb.stage = 0 then s.modGlb (fun g => { g with stage := 1, startAt := now }) else s
    | .offHeld => if 38000 ≤ s.pwr.vin then s.modPwr (fun p => { p with mod := .sequencing, inputGone := false }) else s
    | _ => s
/-- MOD_RESET_N_RELEASE (19 R568). -/
def execModResetNRelease (s : State) : Res := lift modResetRelease s
/-- A write of GLB_TILE_RESET (R476, R483). -/
def tileResetWrite (func value : Nat) (s : Sw) : Sw :=
  if 256 ≤ value then regDiscard func 0x20C value 0 s
  else
    let role := (s.tile value).role
    if 144 ≤ value || (role != .spare && role != .quarantined) then regDiscard func 0x20C value 1 s else tileReset value 3 s
/-- GLB_TILE_RESET (R472). -/
def execGlbTileReset (tile : Nat) (s : State) : Res := lift (tileResetWrite 0 tile) s
/-- The self-test after a tile reset ends. A spare that fails is quarantined; one that passes serves a lost logical tile (01 R15). -/
def tileTestDone (p : Nat) (pass : Bool) (s : Sw) : Sw :=
  if !(s.tile p).inReset then s
  else
    let s := selfTested p pass s
    if (s.tile p).role != .spare then s
    else if pass then tileReturn (p / 36) s
    else quarantine p 2 s
/-- TILE_SELF_TEST_DONE (R472). -/
def execTileSelfTestDone (tile : Nat) (pass : Bool) (s : State) : Res := lift (tileTestDone tile pass) s
/-- A write of GLB_PORT_RESET: during a take-over of the logical tile it waits (R476, R483). -/
def portResetWrite (func value : Nat) (s : Sw) : Sw :=
  if 128 ≤ value then regDiscard func 0x210 value 0 s
  else if !s.quadActive value then regDiscard func 0x210 value 1 s
  else if s.takingOver value then s.modQuad value (fun d => { d with resetWaits := true })
  else portReset4 value s
/-- GLB_PORT_RESET (R472). -/
def execGlbPortReset (quad : Nat) (s : State) : Res := lift (portResetWrite 0 quad) s
/-- AUX_WATCHDOG (16 R508): a cold reset with cause 9. -/
def execAuxWatchdog (s : State) : Res := lift (fun w => onlyIf (w.pwr.mod == .on) (coldReset 9) w) s
/-- PCIE_PERST_N_DEASSERT (R480): the endpoint trains its link and becomes ready. -/
def execPciePerstNDeassert (s : State) : Res :=
  lift (fun w => w.modHost (fun h => { h with perstN := true, linkUp := w.glb.pwrgd && !w.sec.recovery })) s

/-! ### Start-up (14 R478 to R481; 16 R507) -/

/-- The other slot, or the ACTIVE one. -/
def Sec.slot (c : Sec) (b : Bool) : ImgSlot := if b then c.slotB else c.slotA
/-- An image is valid: its content was found so, its SVN is at the floor or above, and its key is not revoked (16 R506). -/
def ImgSlot.ok (f : Fuses) (i : ImgSlot) : Bool := i.valid && decide (f.svnFloor ≤ i.svn) && !f.revoked.getLsbD i.keyIndex
/-- Why an image is rejected (16 R535). -/
def ImgSlot.why (f : Fuses) (i : ImgSlot) : Nat := if !i.valid then i.cause else if f.revoked.getLsbD i.keyIndex then 2 else 5
/-- The ACTIVE image starts: TRIES counts a trial, what the image states holds from now on, and the measurements are locked
(16 R507, R514). -/
def startImage (f : Fuses) (s : Sw) : Sw :=
  let c := s.sec
  let i := c.slot c.activeB
  let s := s.modSec (fun c => { c with
    tries := if c.trial then c.tries + 1 else c.tries, recovery := false, runVersion := i.version, runSvn := i.svn, runKey := i.keyIndex
    runRevoke := i.revoke, runMinor := i.cminor
    locked := { slotB := c.activeB, trial := c.trial, svnFloor := f.svnFloor, revoked := f.revoked, lifecycle := f.lifecycle } })
  holdEvent 0x0C00 (le 1 (b2n c.activeB) ++ le 4 i.version ++ le 4 i.svn ++ le 1 (b2n c.trial)) s
/-- Image selection at ROOT_OF_TRUST (16 R507). -/
def selectImage (f : Fuses) (s : Sw) : Sw :=
  let c := s.sec
  let s := if c.trial && c.tries = 2 then
      holdEvent 0x0C02 (le 1 (b2n c.activeB) ++ le 1 (b2n (!c.activeB)))
        (s.modSec (fun c => { c with activeB := !c.activeB, trial := false, tries := 0 }))
    else s
  let c := s.sec
  if (c.slot c.activeB).ok f then startImage f s
  else
    let why := (c.slot c.activeB).why f
    if (c.slot (!c.activeB)).ok f then
      startImage f (holdEvent 0x0C01 (le 1 (b2n c.activeB) ++ le 1 why)
        (s.modSec (fun c => { c with activeB := !c.activeB, trial := false, rejection := why })))
    else s.modSec (fun c => { c with recovery := true, rejection := why })
/-- ROOT_OF_TRUST ends: recovery keeps the stage; else WAIT_REF without the reference, or SELF_TEST (R478). -/
def afterRoot (f : Fuses) (s : Sw) : Sw :=
  let s := selectImage f s
  if s.sec.recovery then s
  else if s.glb.refOk then enterSelfTest s
  else s.modGlb (fun g => { g with stage := 6 })
/-- SELF_TEST ends: a tile that failed is quarantined, and spares serve the logical tiles that need them (01 R15; 09 R307). -/
def afterSelfTest (r : StageResults) (s : Sw) : Sw :=
  let s := s.setTiles ((List.range 144).map (fun p => (p, { s.tile p with
    selfTest := (s.tile p).role != .fused && !r.tilesFailed.contains p })))
  let s := each r.tilesFailed (fun p s => quarantine p 2 s) s
  let s := each (List.range 4) (fun g s => each (List.range 4) (fun _ s => tileReturn g s) s) s
  s.modGlb (fun g => { g with stage := 3 })
/-- A lane repair is recorded (11 R383, R396). -/
def recordRepair (e : Nat × Nat × Nat × Nat) (s : Sw) : Sw :=
  let (k, c, lane, spare) := e
  let bits (v : Nat) : Nat :=
    if spare < 2 then v - v % 4 + min 2 (v % 4 + 1) else if 3 < spare || v.testBit spare then v else v + 2 ^ spare
  raiseSys 0x0804 (le 2 k ++ le 2 c ++ le 2 lane ++ le 1 spare)
    (s.modStack k (fun t => { t with laneRepaired := t.laneRepaired + 1, repair := t.repair.set c (bits (t.repair.getD c 0)) }))
/-- Channels of stack k that failed training. -/
def badChannels (r : StageResults) (k : Nat) : Word :=
  (r.channelsFailed.filter (fun e => e.1 == k)).foldl (fun (v : Word) e => if e.2 < 32 then setBit v e.2 else v) 0
/-- Channels that HBM_CHAN_MAPOUT alone keeps out of service: stack and channel (11 R384, R385). -/
def Sw.mappedOut (s : Sw) : List (Nat × Nat) :=
  ((List.range 24).filter s.stackPopulated).flatMap (fun k => (bitsOf ((s.stack k).mapout &&& ~~~(s.stack k).failed)).map (fun c => (k, c)))
/-- Tier 1 starts: at a cold start the channels in service and C are fixed anew; after a warm reset a failure is recorded only
(11 R383 to R386). -/
def startTier1 (r : StageResults) (s : Sw) : Sw :=
  let cold := s.glb.kind != 2
  let s := each r.repairs recordRepair s
  let s := each ((List.range 24).filter s.stackPopulated) (fun k s =>
    let bad := badChannels r k
    let down := r.stacksFailed.contains k
    let s := s.modStack k (fun t =>
      let failed := t.failed ||| bad
      let ins := if cold then ~~~failed &&& ~~~t.mapout else t.inService
      let dead := down || ins == 0
      { t with failed := failed, inService := if cold && dead then 0 else ins, state := if dead then .failed else .ready })
    if (s.stack k).state == .failed then raiseSys 0x0807 (le 2 k ++ le 1 4) s else s) s
  let count (s : Sw) (k : Nat) : Nat := (bitsOf (s.stack k).inService).length
  let s := if cold then s.setGroveC ((List.range 4).map (fun g =>
      (minOf (((span (6 * g) 6).filter (fun k => (s.stack k).inServ)).map (count s))).getD 32)) else s
  if cold then
    each (r.channelsFailed.map (fun e => (e.1, e.2, 1)) ++ s.mappedOut.map (fun e => (e.1, e.2, 2))) (fun e s =>
      raiseSys 0x0806 (le 2 e.1 ++ le 2 e.2.1 ++ le 1 e.2.2 ++ le 4 (s.groveC.getD (e.1 / 6) 0)) s) s
  else each r.channelsFailed (fun e s => raiseSys 0x0805 (le 2 e.1 ++ le 2 e.2) s) s
/-- Tier-2 extents of root port p whose tag failed are freed, and the arrays in them are lost (11 R395). -/
def lostExtents (r : StageResults) (p : Nat) (s : Sw) : Sw :=
  let bad := r.tagsBad.filter (fun e => e.1 == p)
  if bad.isEmpty then s
  else
    let less (n : Nat × Nat) (k : Nat) : Nat × Nat := if p = 0 then (n.1 - k, n.2) else (n.1, n.2 - k)
    let s := each bad (fun e s =>
      (s.modRec (fun v => { v with stores := v.stores.adjust e.2.1 (fun t => { t with shards := t.shards.adjust e.2.2 (fun h =>
        { h with lostTier2 := some p, t2 := less h.t2 1 }) }) })).modRoot p (fun c => { c with used := c.used - 1 })) s
    raiseSys 0x0813 (le 2 p ++ le 4 bad.length ++ cList ((dedup (bad.map (fun e => e.2.2))).map (le 4))) s
/-- PORTS begins: sites that are not ON are identified, every present port with ADMIN_UP = 1 searches, and the ports of a logical
tile without a physical one are out of service (R478; 01 R16; 13 R459). -/
def enterPorts (s : Sw) : Sw :=
  let s := each (List.range 16) (fun m s => s.modSite m (fun x =>
    if x.latched && x.state == .absent then { x with state := if s.siteUsed m then .identify else .unused } else x)) s
  let s := each ((List.range 128).filter s.quadActive) (fun q s =>
    let split := (s.quad q).split
    let s := s.modQuad q (fun d => { d with splitNow := split })
    let s := each (s.portsPresent q) (fun n s => if (s.port n).reg.allow = 0 || !(s.port n).reg.adminUp then setPortSt n .disabled s else s) s
    if !s.inService q then each (s.portsPresent q) (fun n s => setPortSt n .outOfService s) s
    else if split = 0 then splitTrial q s
    else applySplit q split [] s) s
  s.modGlb (fun g => { g with stage := 4 })
/-- MEMORY ends. -/
def afterMemory (r : StageResults) (s : Sw) : Sw := enterPorts (lostExtents r 1 (lostExtents r 0 (startTier1 r s)))
/-- PORTS ends: SEEDLING is reached at once. Job 0 is SEEDLING, context 0 is created, a trial image is committed (R478, R484;
04 R158; 16 R507). `t`: ms from MOD_PWRGD, or from the warm request. -/
def afterPorts (t : Nat) (s : Sw) : Sw :=
  let s := seedCtx (s.modGlb (fun g => { g with stage := 5, startTime := BitVec.ofNat 16 t }))
  let s := s.modHost (fun h => { h with linkUp := h.perstN })
  let s := holdEvent 0x0A00 (le 1 s.glb.kind ++ le 1 s.glb.cause ++ le 4 t ++ le 4 s.sec.runVersion) s
  let s := if s.sec.trial then
      holdEvent 0x0C04 (le 1 (b2n s.sec.activeB) ++ le 4 s.sec.runVersion) (s.modSec (fun c => { c with trial := false, tries := 0 }))
    else s
  match s.pwr.trip with
  | some (k, v, g) =>
    if s.glb.cause = 8 then
      holdEvent 0x0B14 (le 1 (k / 256) ++ le 2 (k % 256) ++ le 1 v.toNat ++ le 8 g.toNat) (s.modPwr (fun p => { p with trip := none }))
    else s
  | none => s
/-- ms from time 0 by which a stage ends (R478). -/
def stageLimit (k : Nat) : Nat := match k with | 1 => 300 | 2 => 500 | 3 => 800 | _ => 900
/-- A stage ends at `t` ms from time 0, with what it found. -/
def stageDone (f : Fuses) (t : Nat) (r : StageResults) (s : Sw) : Sw :=
  let k := s.glb.stage
  let late (s : Sw) : Sw := if stageLimit k < t then holdEvent 0x0A01 (le 1 k ++ le 4 (t - s.glb.stageMs)) s else s
  let timed (s : Sw) : Sw := s.modGlb (fun g => { g with stageMs := t })
  match k with
  | 1 => timed (afterRoot f (late s))
  | 2 => timed (afterSelfTest r (late s))
  | 3 => timed (afterMemory r (late s))
  | 4 => timed (afterPorts t (late s))
  | 6 => if s.glb.refOk then timed (enterSelfTest s) else s
  | _ => s
/-- STARTUP_STAGE_DONE (R478). -/
def execStartupStageDone (ms : Nat) (results : StageResults) (s : State) : Res := lift (stageDone s.fuses ms results) s

/-! ### Power sequence (19 R567, R568; 15 R485) -/

/-- The rails are up: MOD_PWRGD rises and start-up begins, unless MOD_RESET_N holds the logic (R567, R568). -/
def railsUp (s : Sw) : Sw :=
  let c := s.pwr.nextCause
  let now := s.now
  let s := s.modPwr (fun p => { p with mod := .on, nextCause := 0 })
  s.modGlb (fun g => { g with
    pwrgd := true, stage := if g.modResetN then 1 else 0, cause := c, kind := if c = 0 then 0 else 1, colds := g.colds + 1, startAt := now, stageMs := 0 })
/-- The sequence of rails runs: all come up in order, or one is not in regulation by its time. -/
def powerOn (railsGood : Bool) (s : Sw) : Sw :=
  if s.pwr.mod != .sequencing || s.pwr.faultWait then s
  else if railsGood then railsUp s
  else railFault s
/-- POWER_ON_SEQUENCE (R567). -/
def execPowerOnSequence (railsGood : Bool) (s : State) : Res := lift (powerOn railsGood) s
/-- RAIL_FAULT_RESTART (R568): the sequence may run again. -/
def execRailFaultRestart (s : State) : Res := lift (Sw.modPwr (fun p => { p with faultWait := false })) s
/-- VIN48 has been at or above 38 V for 10 ms (R568). -/
def inputBack (s : Sw) : Sw :=
  s.modPwr (fun p =>
    let p := { p with vin := max p.vin 38000 }
    match p.mod with
    | .offInput => { p with mod := .sequencing }
    | .offHeld => if p.inputGone then { p with mod := .sequencing, inputGone := false } else p
    | _ => p)
/-- INPUT_RESTORED (R568). -/
def execInputRestored (s : State) : Res := lift inputBack s
/-- VIN48 below 36 V for 50 us: the rails go off (15 R485; 19 R568). -/
def inputLoss (millivolts : Nat) (s : Sw) : Sw :=
  let s := s.modPwr (fun p => { p with vin := millivolts })
  match s.pwr.mod with
  | .on => railsOff .offInput 0 s
  | .sequencing => s.modPwr (fun p => { p with mod := .offInput, faultWait := false })
  | .offHeld => s.modPwr (fun p => { p with inputGone := true })
  | .offInput => s
/-- INPUT_POWER_LOSS (15 R485). -/
def execInputPowerLoss (millivolts : Nat) (s : State) : Res := lift (inputLoss millivolts) s
/-- A rail fault of a module that is ON or brings its rails up. -/
def faultIfPowered (s : Sw) : Sw := if s.pwr.mod == .on || s.pwr.mod == .sequencing then railFault s else s
/-- INPUT_OVERVOLTAGE (15 R485). -/
def execInputOvervoltage (millivolts : Nat) (s : State) : Res :=
  lift (fun w => faultIfPowered (w.modPwr (fun p => { p with vin := millivolts }))) s
/-- INPUT_OVERCURRENT (15 R485). -/
def execInputOvercurrent (current : Nat) (s : State) : Res :=
  lift (fun w => faultIfPowered (w.modPwr (fun p => { p with iin := current }))) s

end Sys2Proof.Machine
end

