-- ==== Sys2Proof/Machine/Collective.lean ====
section
/-! DEFINITION. The commands of the Collective family: member cells, staged contributions, records and notices (02 R41, R51, R58,
R61, R65). -/
namespace Sys2Proof.Machine

/-- MEMBER_CELL_RECEIVE (02 R41; 04 R140). -/
def execMemberCellReceive (port : Nat) (cell : Cell) (s : State) : Res := lift (toContext port cell memberCellOp) s
/-- A staged contribution goes on once what it waits for has come; of a switch child, the cells that wait for a slot (02 R51;
09 R283). -/
def convertOp (x o q k : Nat) (s : Sw) : Sw :=
  match s.ctx? x, s.op? x o with
  | some c, some p =>
    if p.waiting.contains (q, k) then (if mustWait s c p o k then s else settle x (gridCellWhole x o q k s))
    else if c.heldCells.any (fun e => e.1 == q && e.2.tc == 3 && e.2.copseq == o % 64 && e.2.idx == k) then
      settle x (recordResume x o (fun r e => r == q && e.idx == k) s)
    else s
  | _, _ => s
/-- STAGED_CONTRIBUTION_CONVERT (02 R51). -/
def execStagedContributionConvert (ctx opnum port gcell : Nat) (s : State) : Res := lift (convertOp ctx opnum port gcell) s
/-- RECORD_RECEIVE (02 R65). -/
def execRecordReceive (port : Nat) (cell : Cell) (s : State) : Res := lift (toContext port cell recordOp) s
/-- REPLAY_NOTICE_RECEIVE (02 R58). -/
def execReplayNoticeReceive (port : Nat) (cell : Cell) (s : State) : Res := lift (toContext port cell (noticeOp true)) s
/-- ANCHOR_NOTICE_RECEIVE (02 R61). -/
def execAnchorNoticeReceive (port : Nat) (cell : Cell) (s : State) : Res := lift (toContext port cell (noticeOp false)) s

end Sys2Proof.Machine
end

