-- ==== Sys2Proof/Machine/Host.lean ====
section
/-! DEFINITION. Commands of the host interface: flags and waits, jobs and their teardown, capabilities, host settings, rings,
doorbells, event queues, the flag watchdog and resets of functions (12 R399 to R433; 14 R472). -/
namespace Sys2Proof.Machine

/-! ### NOP, SIGNAL, WAIT (R404, R429) -/

/-- NOP. -/
def nopOp (b : Sub) (t : Tok) (s : Sw) : Sw := guardDesc t [(!b.only [], stBad)] (complete t stOk) s
/-- NOP (R404). -/
def execNop (sub : Sub) (s : State) : Res := lift (runDesc 0x00 nopOp sub) s

/-- FLAG of SIGNAL and WAIT. -/
def Sub.flagNo (b : Sub) : Nat := b.f 8 2 % 4096
/-- Fields of SIGNAL and WAIT. -/
def lflag : List Desc := [bi_ 8 0 8, bi_ 9 0 4, by_ 10 1, by_ 12 4]
/-- The checks that SIGNAL and WAIT share (R405, R429). -/
def flagChecks (s : Sw) (b : Sub) : List (Bool × Nat) :=
  [(!s.flagOwned b.func (Sub.flagNo b), stDenied), (!b.only lflag || decide (1 < b.f 10 1), stBad)]
/-- VALUE of SIGNAL and WAIT. -/
def Sub.value (b : Sub) : Word := BitVec.ofNat 32 (b.f 12 4)

/-- SIGNAL: its RESULT is the new value. -/
def signalOp (b : Sub) (t : Tok) (s : Sw) : Sw :=
  let f := Sub.flagNo b
  let v := if b.f 10 1 = 0 then s.flag f + Sub.value b else Sub.value b
  guardDesc t (flagChecks s b) (fun s => completeR t stOk (BitVec.ofNat 64 v.toNat) (setFlag f v s)) s
/-- SIGNAL (R429). -/
def execSignal (sub : Sub) (s : State) : Res := lift (runDesc 0x01 signalOp sub) s

/-- WAIT: it completes at once when its condition holds, else its ring is WAITING (R411). A HALTED ring's WAIT leaves it HALTED. -/
def waitOp (b : Sub) (t : Tok) (s : Sw) : Sw :=
  let f := Sub.flagNo b
  let eq := b.f 10 1 == 1
  guardDesc t (flagChecks s b) (fun s =>
    let job := s.jobOfFlag f
    if waitHolds eq (Sub.value b) (s.flag f) then
      let s := completeR t stOk (BitVec.ofNat 64 (s.flag f).toNat) s
      match job with | some j => flagProgress j s | none => s
    else
      let s := s.modRing b.ring (fun r => { r with
        wait := some { flag := f, eq := eq, value := Sub.value b, tok := t }
        state := if r.state == .running then .waiting else r.state })
      match job with | some j => s.modJob j (fun k => { k with wdStart := s.now }) | none => s) s
/-- WAIT (R429). While a WAIT of the ring is pending no descriptor of it is dispatched (R412). -/
def execWait (sub : Sub) (s : State) : Res :=
  lift (fun w => if (w.ring sub.ring).wait.isSome then w else runDesc 0x02 waitOp sub w) s

/-! ### Jobs (R406 to R408) -/

/-- VF k is enabled (R406). -/
def Sw.vfEnabled (s : Sw) (k : Nat) : Bool := s.host.vfEnable && decide (1 ≤ k) && decide (k ≤ s.host.numVfs)
/-- The module is on and its PCIe link is up: without it rings and events are idle (01 R33; 14 R571). -/
def Sw.linked (s : Sw) : Bool := s.pwr.mod == .on && s.host.linkUp
/-- An access of a function reaches the switch: the link carries it, and a VF is enabled (14 R571; 12 R406). -/
def Sw.hostReach (s : Sw) (func : Nat) : Bool := s.linked && (func == 0 || s.vfEnabled func)
/-- Jobs other than j that are not CLOSED. -/
def Sw.otherJobs (s : Sw) (j : Nat) : List Nat := (s.host.jobs.filter (fun e => e.1 != j && e.2.state != .closed)).map Prod.fst
/-- Two flag ranges overlap. -/
def rangesMeet (a n b m : Nat) : Bool := decide (n ≠ 0) && decide (m ≠ 0) && decide (a < b + m) && decide (b < a + n)
/-- The map names a port of another job: one in its map, or one bound to it (R406). -/
def Sw.mapTaken (s : Sw) (j : Nat) (map : BitVec 512) : Bool :=
  (bitsOf map).any (fun n =>
    (s.otherJobs j).any (fun k => s.inMap k n && (!(s.job k).implicitMap || s.isMember n)) ||
    (match s.binding n with | some b => b.job != j | none => false))
/-- JOB_OPEN. -/
def jobOpenOp (b : Sub) (t : Tok) (s : Sw) : Sw :=
  let j := b.f 8 1
  let keep := b.flag 9 0
  let func := b.f 10 1
  let q := b.f 11 1
  let first := b.f 12 2
  let count := b.f 14 2
  let mapped := b.f 24 8 != 0
  let seed := (s.job j).state == .seedling
  guardDesc t [
    (!b.only [by_ 8 1, bi_ 9 0 1, by_ 10 6, by_ 24 8] || (func != 0 && !s.vfEnabled func) || decide (4096 < first + count) ||
      (keep && (j != 0 || mapped)), stBad),
    (!((s.job j).state == .closed || (keep && seed)) ||
      (s.otherJobs j).any (fun k => rangesMeet first count (s.job k).flagFirst (s.job k).flagCount) || !s.evqAssigned q func, stDenied)]
    (fun s => (if mapped then hostGuard b t else id) (fun s =>
      let map : BitVec 512 := if mapped then BitVec.ofNat 512 (bytesAt b.host 0 64) else 0
      guardDesc t [(s.mapTaken j map, stDenied)] (fun s =>
        let s := s.modJob j (fun k => { k with
          state := .opened, owner := func, flagFirst := first, flagCount := count, jevq := some q, wdStart := s.now, stalled := none
          portMap := if seed then k.portMap else map })
        let s := s.modHost (fun h => { h with flags := h.flags.keep (fun f => !(decide (first ≤ f) && decide (f < first + count))) })
        let s := complete t stOk s
        raiseJob j 0x0110 (le 1 j ++ le 1 func ++ le 2 first ++ le 2 count ++ le 1 (b2n (keep && seed))) s) s) s) s
/-- JOB_OPEN (R406). -/
def execJobOpen (sub : Sub) (s : State) : Res := lift (runDesc 0x08 jobOpenOp sub) s

/-- Contexts of job j. -/
def Sw.ctxsOf (s : Sw) (j : Nat) : List Nat := (s.ctxs.filter (fun e => e.2.cfg.job == j)).map Prod.fst
/-- JOB_CLOSE: the job is CLOSING, and every open operation of its contexts is aborted (R407, R408 step 1). -/
def jobCloseOp (b : Sub) (t : Tok) (s : Sw) : Sw :=
  let j := b.f 8 1
  let xs := s.ctxsOf j
  let st := (s.job j).state
  guardDesc t [
    (!b.only [by_ 8 1, bi_ 9 0 1], stBad),
    (st == .closed || st == .closing || (!xs.isEmpty && !b.flag 9 0), stDenied)]
    (fun s =>
      let stores := (xs.filter (fun x => (s.store? x).isSome)).length
      let s := s.modJob j (fun k => { k with state := .closing, closing := some t, torn := (xs.length, stores) })
      each xs (fun x s => settle x (abortAll x (s.modCtx x (fun c => { c with closing := true })))) s) s
/-- JOB_CLOSE (R407). -/
def execJobClose (sub : Sub) (s : State) : Res := lift (runDesc 0x09 jobCloseOp sub) s

/-- Unbind every member port bound to job j. -/
def unbindJob (j : Nat) (s : Sw) : Sw :=
  s.mapPorts (fun p => match p.reg.binding with
      | some b => if b.job = j then { p with reg := { p.reg with binding := none } } else p
      | none => p)
/-- Steps 2 to 6 of R408, once every operation of the job's contexts has ended. -/
def teardown (j : Nat) (s : Sw) : Sw :=
  let b := s.job j
  if b.state != .closing || (s.ctxsOf j).any (fun x => match s.ctx? x with | some c => c.anyOpen | none => false) then s
  else
    let s := each (s.ctxsOf j) destroyStore s
    let s := each (s.ctxsOf j) freeCtx s
    let s := unbindJob j s
    let s := each s.host.rings (fun e s => match (s.ring e.1).wait with
      | some w => if s.jobOfFlag w.flag == some j then endWait e.1 stAborted s else s
      | none => s) s
    let s := s.modHost (fun h => { h with flags := h.flags.keep (fun f => !(decide (b.flagFirst ≤ f) && decide (f < b.flagFirst + b.flagCount))) })
    let s := s.modKernels (fun m => m.filter (fun e => e.2.job != j))
    let s := s.modPool (fun p => { p with waits := p.waits.filter (fun w => w.job != some j) })
    let s := poolFreeIf (fun k => k.job == some j) s
    let s := completeOpt b.closing stOk s
    let s := raiseJob j 0x0111 (le 1 j ++ le 4 b.torn.1 ++ le 4 b.torn.2) s
    s.modJob j (fun _ => {})
/-- TEARDOWN_COMPLETE (R408). -/
def execTeardownComplete (job : Nat) (s : State) : Res := lift (teardown job) s

/-! ### CAPS_READ and HOST_CONFIG (R427, R432, R433) -/

/-- Bit k of FEATURES (R432). -/
def Sw.feature (s : Sw) (k : Nat) : Bool :=
  if k ≤ 1 then decide (1 ≤ s.sec.runMinor)
  else if k ≤ 4 then decide (2 ≤ s.sec.runMinor)
  else if k = 5 then (s.root 0).use || (s.root 1).use
  else k == 6 && !s.sec.debugOpen
/-- The capability record (R433). -/
def capsRecord (s : Sw) (func : Nat) : List Byte :=
  let m := s.sec.runMinor
  let used := (List.range 2).filter (fun p => (s.root p).use)
  let gs := List.range 4
  padTo 128 (le 1 3 ++ le 1 m ++ le 1 (2 ^ (m + 1) - 1) ++ le 1 2 ++ le 1 s.glb.variant ++ le 1 0xB0 ++
    le 2 (((List.range 7).filter s.feature).foldl (fun a k => a + 2 ^ k) 0) ++ le 8 Config.deviceId.toNat ++ le 4 s.sec.runVersion ++
    le 2 s.ports4L ++ le 2 s.activeTiles.length ++ le 1 (gs.foldl (fun a g => a + s.stacksIn g) 0) ++ le 1 used.length ++
    le 2 s.maxChildren ++ le 4 (s.activeTiles.length * sramPlaces) ++ le 4 16777216 ++ le 2 1024 ++ le 2 256 ++
    le 2 256 ++ le 2 4096 ++ le 2 256 ++ le 2 4096 ++ le 2 1024 ++ le 2 256 ++ le 4 65536 ++
    le 8 (gs.foldl (fun a g => a + s.groveMib g) 0 * 2 ^ 20) ++ le 8 (used.foldl (fun a p => a + (s.root p).total) 0 * 2 ^ 24) ++
    le 1 func ++ le 1 s.glb.clockActive ++ le 1 s.pwr.inForce ++ le 1 s.time.active)
/-- CAPS_READ. -/
def capsReadOp (b : Sub) (t : Tok) (s : Sw) : Sw :=
  guardDesc t [(!b.only [by_ 24 8, by_ 40 4], stBad), (decide (b.f 40 4 < 128), stNoRes)]
    (hostGuard b t (fun s => complete t stOk (hostWrite t (b.q 24) (capsRecord s b.func) s))) s
/-- CAPS_READ (R433). -/
def execCapsRead (sub : Sub) (s : State) : Res := lift (runDesc 0x0A capsReadOp sub) s

/-- HOST_CONFIG: settings take effect, and events held until SYS_VALID is set are raised (R427; 14 R484; 16 R536). -/
def hostConfigOp (b : Sub) (t : Tok) (s : Sw) : Sw :=
  let valid := b.flag 9 0
  let wd := b.f 10 2
  guardDesc t [
    (valid && !s.evqAssigned (b.f 8 1) b.func, stDenied),
    (!b.only [by_ 8 1, bi_ 9 0 1, by_ 10 2, bi_ 12 1 7, bi_ 13 0 5], stBad)]
    (fun s =>
      let held := s.host.held
      let s := s.modHost (fun h => { h with
        sysEvq := b.f 8 1, sysValid := valid, watchdogMs := if wd = 0 then 10 else wd, areaMask := BitVec.ofNat 16 (b.f 12 2)
        held := if valid then [] else h.held })
      let s := complete t stOk s
      if valid then each held (fun e => raiseSys e.code e.content) s else s) s
/-- HOST_CONFIG (R427). -/
def execHostConfig (sub : Sub) (s : State) : Res := lift (runDesc 0x0B hostConfigOp sub) s

/-! ### Rings (R409 to R413, R417, R418) -/

/-- Offset of register `reg` of ring n in PF BAR0 (R409). -/
def ringOffset (n reg : Nat) : Nat := 0x4000 + 0x10 * n + reg
/-- RING_CTRL of a ring, with a value of ENABLE (R409). -/
def Ring.ctrl (r : Ring) (enable : Bool) : Nat :=
  place (b2n enable) 31 + place r.sizeLog2 24 + place r.cevq 16 + place r.func 8 + place r.lslot 2
/-- A function reaches ring n: the PF all, a VF its own through a window (R401). -/
def Sw.ringReach (s : Sw) (func n : Nat) : Bool := s.hostReach func && decide (n < 1024) && (func == 0 || ((s.ring n).func == func && decide (func < 256)))
/-- The conditions on a write of ENABLE = 1 (R409). -/
def Sw.ringReady (s : Sw) (n : Nat) : Bool :=
  let r := s.ring n
  let q := s.evq r.cevq
  decide (6 ≤ r.sizeLog2) && decide (r.sizeLog2 ≤ 16) && q.active && q.func == r.func &&
    (r.func == 0 || s.host.rings.all (fun e => e.1 == n || e.2.func != r.func || e.2.lslot != r.lslot))
/-- ENABLE is written 1: the ring starts, or the write is discarded (R409 to R411). -/
def ringStart (func n : Nat) (s : Sw) : Sw :=
  let r := s.ring n
  match r.state with
  | .disabled =>
    if s.ringReady n then s.modRing n (fun r => { r with enable := true, state := .running, cause := 0, head := 0, tail := 0, fetching := 0, fetched := [], wait := none })
    else regDiscard func (ringOffset n 8) (r.ctrl true) 1 s
  | .draining => regDiscard func (ringOffset n 8) (r.ctrl true) 1 s
  | _ => s
/-- RING_ENABLE (R411). -/
def execRingEnable (func ring : Nat) (s : State) : Res := lift (fun w => onlyIf (w.ringReach func ring) (ringStart func ring) w) s
/-- ENABLE is written 0: undispatched descriptors are discarded, a pending WAIT is aborted, and the ring drains (R411). -/
def ringStop (n : Nat) (s : Sw) : Sw :=
  let r := s.ring n
  match r.state with
  | .disabled => s
  | .draining => s
  | _ =>
    let s := s.modRing n (fun r => { r with state := .draining, enable := false, cause := 0, fetching := 0, fetched := [] })
    let s := raiseSys 0x0102 (le 2 n ++ le 4 r.fetched.length ++ le 1 (b2n r.wait.isSome)) (endWait n stAborted s)
    s.modRing n Ring.settle
/-- RING_DISABLE (R411). -/
def execRingDisable (func ring : Nat) (s : State) : Res := lift (fun w => onlyIf (w.ringReach func ring) (ringStop ring) w) s

/-- Descriptors that the next read of ring n takes: up to 512 B, up to the ring's end, 64 held at most (R412). -/
def Ring.readable (r : Ring) : Nat :=
  let n := 2 ^ r.sizeLog2
  min (min (r.tail - r.head).toNat 8) (min (n - r.head.toNat % n) (64 - r.fetched.length))
/-- DESCRIPTOR_FETCH (R412): one read at a time is outstanding (DESIGN CHOICE, log 52). A WAITING ring fetches too: R411 has its
fetch resume at HEAD and fail (DEDUCED, log 52). -/
def execDescriptorFetch (ring : Nat) (s : State) : Res :=
  lift (fun w => let r := w.ring ring
    onlyIf (w.linked && (r.state == .running || r.state == .waiting) && r.fetching == 0) (Sw.modRing ring (fun r => { r with fetching := r.readable })) w) s
/-- A fetch read ends: HEAD advances, or the ring halts with a cause (R411, R412). -/
def fetchEnds (n : Nat) (descs : List Desc) (error : Nat) (s : Sw) : Sw :=
  let r := s.ring n
  if r.fetching = 0 then s
  else
    let s := s.modRing n (fun r => { r with fetching := 0 })
    if error = 0 then
      let ds := descs.take r.fetching
      s.modRing n (fun r => { r with head := r.head + BitVec.ofNat 20 ds.length, fetched := r.fetched ++ ds })
    else if r.state == .running || r.state == .waiting then
      let at_ := r.base + BitVec.ofNat 64 (64 * (r.head.toNat % 2 ^ r.sizeLog2))
      raiseSys 0x0101 (le 2 n ++ le 1 error ++ le 4 r.head.toNat ++ le 8 at_.toNat)
        (s.modRing n (fun r => { r with state := .halted, cause := error }))
    else s
/-- FETCH_COMPLETE (R411). -/
def execFetchComplete (ring : Nat) (descs : List Desc) (error : Nat) (s : State) : Res := lift (fetchEnds ring descs error) s

/-- The event 0x0103 of a page is due: once in each ms (R435). -/
def due0103 (s : Sw) (t : Option Nat) : Bool := match t with | some t => decide (ms ≤ s.now - t) | none => true
/-- Event 0x0103 of ring n: cause 0 range, 1 state, 2 size or alignment, 3 reserved bit. -/
def ringDoorbellBad (n cause : Nat) (v : Word) (s : Sw) : Sw :=
  if due0103 s (s.ring n).last0103 then
    raiseSys 0x0103 (le 2 n ++ le 4 v.toNat ++ le 1 cause) (s.modRing n (fun r => { r with last0103 := some s.now }))
  else s
/-- A TAIL write (R417, R418). -/
def tailWrite (n : Nat) (v : Word) (s : Sw) : Sw :=
  let r := s.ring n
  let t : BitVec 20 := v.setWidth 20
  if 2 ^ 20 ≤ v.toNat then ringDoorbellBad n 3 v s
  else if r.state == .disabled || r.state == .draining then ringDoorbellBad n 1 v s
  else if 2 ^ r.sizeLog2 < (t - r.head).toNat || 2 ^ r.sizeLog2 < (t - r.tail).toNat then ringDoorbellBad n 0 v s
  else s.modRing n (fun r => { r with tail := t })
/-- A write to the doorbell page of ring n by a function: a ring of a VF is rung through the VF's page only (18 R557). -/
def ringBell (func n : Nat) (v : Word) (f : Sw → Sw) (s : Sw) : Sw :=
  if !s.ringReach func n then s
  else if (s.ring n).func != func then ringDoorbellBad n 1 v s
  else f s
/-- TAIL (R418). -/
def execTail (func ring : Nat) (value : Word) (s : State) : Res := lift (ringBell func ring value (tailWrite ring value)) s
/-- CANCEL_WAIT (R417, R430). -/
def execCancelWait (func ring : Nat) (s : State) : Res := lift (ringBell func ring 1 (endWait ring stAborted)) s
/-- A HALTED ring resumes, WAITING when its WAIT is pending (R411). -/
def resumeRing (r : Ring) : Ring :=
  if r.state == .halted then { r with state := if r.wait.isSome then .waiting else .running, cause := 0 } else r
/-- RESUME (R417). -/
def execResume (func ring : Nat) (s : State) : Res := lift (ringBell func ring 2 (Sw.modRing ring resumeRing)) s

/-! ### Event queues (R419, R420, R424, R426) -/

/-- Offset of register `reg` of event queue q in PF BAR0 (R420). -/
def evqOffset (q reg : Nat) : Nat := 0x8000 + 0x10 * q + reg
/-- EVQ_CTRL of a queue, with a value of ENABLE (R420). -/
def Evq.ctrl (e : Evq) (enable : Bool) : Nat :=
  place (b2n enable) 31 + place e.sizeLog2 24 + place e.vector 16 + place e.func 8 + e.lslot
/-- A function reaches event queue q (R401). -/
def Sw.evqReach (s : Sw) (func q : Nat) : Bool := s.hostReach func && decide (q < 256) && (func == 0 || ((s.evq q).func == func && decide (func < 256)))
/-- Event 0x0103 of queue q. -/
def evqDoorbellBad (q cause : Nat) (v : Word) (s : Sw) : Sw :=
  if due0103 s (s.evq q).last0103 then
    raiseSys 0x0103 (le 2 q ++ le 4 v.toNat ++ le 1 cause) (s.modEvq q (fun e => { e with last0103 := some s.now }))
  else s
/-- An accepted HEAD and ARM (R419, R424, R426). -/
def evqHead (q : Nat) (h : BitVec 20) (arm : Bool) (s : Sw) : Sw :=
  let s := writeLost q (s.modEvq q (fun e => { e with head := h }))
  let e := s.evq q
  if !arm then s
  else if e.head != e.tail then sendMsix e.func e.vector (s.modEvq q (fun e => { e with armed := false }))
  else s.modEvq q (fun e => { e with armed := true })
/-- A write to the page of queue q (R419). -/
def evqDoorbellWrite (q : Nat) (v : Word) (s : Sw) : Sw :=
  let e := s.evq q
  let h : BitVec 20 := v.setWidth 20
  if v.toNat / 2 ^ 20 % 2 ^ 11 != 0 then evqDoorbellBad q 3 v s
  else if !e.active then evqDoorbellBad q 1 v s
  else if (e.tail - e.head).toNat < (h - e.head).toNat then evqDoorbellBad q 0 v s
  else evqHead q h (v.getLsbD 31) s
/-- A write to the doorbell page of queue q by a function (18 R557). -/
def evqBell (func q : Nat) (v : Word) (s : Sw) : Sw :=
  if !s.evqReach func q then s
  else if (s.evq q).func != func then evqDoorbellBad q 1 v s
  else evqDoorbellWrite q v s
/-- EVQ_DOORBELL (R419). -/
def execEvqDoorbell (func evq : Nat) (value : Word) (s : State) : Res := lift (evqBell func evq value) s
/-- The conditions on a write of ENABLE = 1 (R420). -/
def Sw.evqReady (s : Sw) (q : Nat) : Bool :=
  let e := s.evq q
  decide (6 ≤ e.sizeLog2) && decide (e.sizeLog2 ≤ 16) && (e.func == 0 || decide (e.vector < 32)) &&
    (e.func == 0 || s.host.evqs.all (fun o => o.1 == q || o.2.func != e.func || o.2.lslot != e.lslot))
/-- ENABLE is written 1 to queue q. -/
def evqStart (func q : Nat) (s : Sw) : Sw :=
  if (s.evq q).active then s
  else if s.evqReady q then
    s.modEvq q (fun e => { e with active := true, head := 0, tail := 0, armed := false, lost := none, res := 0 })
  else regDiscard func (evqOffset q 8) ((s.evq q).ctrl true) 1 s
/-- EVQ_ENABLE (R420). -/
def execEvqEnable (func evq : Nat) (s : State) : Res := lift (fun w => onlyIf (w.evqReach func evq) (evqStart func evq) w) s
/-- Queue q is named as the CEVQ of a ring not DISABLED or the JEVQ of a job not CLOSED (R420). -/
def Sw.evqNamed (s : Sw) (q : Nat) : Bool :=
  s.host.rings.any (fun e => e.2.state != .disabled && e.2.cevq == q) || s.host.jobs.any (fun e => e.2.state != .closed && e.2.jevq == some q)
/-- ENABLE is written 0 to queue q. -/
def evqStop (func q : Nat) (s : Sw) : Sw :=
  if s.evqNamed q then regDiscard func (evqOffset q 8) ((s.evq q).ctrl false) 1 s
  else s.modEvq q (fun e => { e with active := false, armed := false, lost := none, res := 0 })
/-- EVQ_DISABLE (R420). -/
def execEvqDisable (func evq : Nat) (s : State) : Res := lift (fun w => onlyIf (w.evqReach func evq) (evqStop func evq) w) s

/-! ### The flag watchdog (R431) -/

/-- Rings with a pending WAIT on a flag of job j. -/
def Sw.waiters (s : Sw) (j : Nat) : List (Nat × WaitRec) :=
  s.host.rings.filterMap (fun e => match e.2.wait with
    | some w => if s.jobOfFlag w.flag == some j then some (e.1, w) else none
    | none => none)
/-- Flags that the SIGNALs among a ring's next 256 descriptors change. -/
def Ring.signals (r : Ring) : List Nat :=
  (r.fetched.take 256).filterMap (fun d => if dfield d 0 1 = 1 then some (dfield d 8 2 % 4096) else none)
/-- The edges of WAIT_STALL: (SOURCE, FLAG), rings first; `host`: SIGNALs still in host memory, as (ring, flag). -/
def Sw.stallEdges (s : Sw) (j : Nat) (host : List (Nat × Nat)) : List (Nat × Nat) :=
  let ws := s.waiters j
  let flags := ws.map (fun w => w.2.flag)
  let own := ws.flatMap (fun w => (dedup ((s.ring w.1).signals ++ (host.filter (fun e => e.1 == w.1)).map Prod.snd)).map (fun f => (w.1, f)))
  let ctxs := s.ctxs.filterMap (fun e => match e.2.cfg.chunkFlag with
    | some f => if e.2.cfg.job = j && e.2.cfg.streaming then some (0x8000 + e.1, f) else none
    | none => none)
  (own ++ ctxs).filter (fun e => flags.contains e.2)
/-- The waits and the edges from WAITING rings form a cycle: rings remain after those that wait for none that remains are taken
away, again and again. -/
def stallCycle (ws : List (Nat × WaitRec)) (edges : List (Nat × Nat)) : Bool :=
  let peel (rem : List (Nat × WaitRec)) : List (Nat × WaitRec) :=
    rem.filter (fun w => edges.any (fun e => e.2 == w.2.flag && rem.any (fun v => v.1 == e.1)))
  !((List.range ws.length).foldl (fun rem _ => peel rem) ws).isEmpty
/-- The watchdog of job j expires while rings wait: WAIT_STALL, once until the next progress. -/
def waitStall (j : Nat) (host : List (Nat × Nat)) (s : Sw) : Sw :=
  let ws := s.waiters j
  if ws.isEmpty || (s.job j).stalled.isSome then s
  else
    let edges := s.stallEdges j host
    let trunc := decide (256 < ws.length) || decide (1024 < edges.length)
    let ws' := ws.take 256
    let es := edges.take 1024
    let content := le 2 ws'.length ++ le 2 es.length ++ le 1 (b2n (stallCycle ws edges) + 2 * b2n trunc) ++
      (ws'.map (fun w => le 2 w.1 ++ le 2 w.2.flag ++ le 4 w.2.value.toNat ++ le 4 (s.flag w.2.flag).toNat)).flatten ++
      (es.map (fun e => le 2 e.1 ++ le 2 e.2)).flatten
    raiseJob j 0x0120 content (s.modJob j (fun b => { b with stalled := some s.now }))
/-- WAIT_STALL (R431). -/
def execWaitStall (job : Nat) (hostEdges : List (Nat × Nat)) (s : State) : Res := lift (waitStall job hostEdges) s

/-! ### FLR and host-link reset (R403; 14 R472) -/

/-- A ring of a function that is reset. -/
def Ring.flr (r : Ring) : Ring :=
  { r with state := .disabled, enable := false, cause := 0, fetching := 0, fetched := [], outst := [], wait := none }
/-- A queue of a function that is reset. -/
def Evq.flr (e : Evq) : Evq := { e with active := false, armed := false, lost := none, res := 0 }
/-- FLR of a function: of the PF, of every function (R403). -/
def flrOf (func : Nat) (s : Sw) : Sw :=
  let mine (g : Nat) : Bool := func == 0 || g == func
  s.modHost (fun h => { h with
    rings := h.rings.mapVals (fun r => if mine r.func then r.flr else r)
    evqs := h.evqs.mapVals (fun e => if mine e.func then e.flr else e)
    msix := h.msix.keep (fun k => !mine (k / 256)) })
/-- FLR (R403). -/
def execFlr (func : Nat) (s : State) : Res := lift (flrOf func) s
/-- HOST_LINK_RESET (14 R472, R484): configuration space returns to its reset state as well. The cause is 1 PERST, 2 hot reset, 3 link
down, 4 loss of the reference; after 2 to 4 the link retrains at once (DESIGN CHOICE, log 104). -/
def execHostLinkReset (cause : Nat) (s : State) : Res :=
  lift (fun w => holdEvent 0x0A04 (le 1 cause) ((flrOf 0 w).modHost (fun h => { h with
    vfEnable := false, numVfs := 0, linkUp := h.linkUp && cause != 1, perstN := h.perstN && cause != 1 }))) s

end Sys2Proof.Machine
end

