-- ==== Sys2Proof/Machine/Memory.lean ====
section
/-! DEFINITION. Commands of the on-module memory and the far tier: waiting buffer requests, scrubs and the response to
uncorrectable errors, the CXL root ports (11 R366, R373, R387 to R395, R398). -/
namespace Sys2Proof.Machine

/-! ### Waiting requests (R373) -/

/-- The first waiting request of a class and place is served when a class can serve it. -/
def poolServe (c at_ : Nat) (s : Sw) : Sw :=
  match s.pool.waits.find? (fun w => w.cls == c && w.place == at_) with
  | none => s
  | some w =>
    match poolTake c at_ w.count w.job w.owner s with
    | none => s
    | some s =>
      let s := s.modPool (fun p => { p with waits := p.waits.erase w })
      (match w.owner with
       | .operation x _ => settle x s
       | .context x => settle x s
       | _ => s)
/-- POOL_WAIT_SERVED (R373). -/
def execPoolWaitServed (cls place : Nat) (s : State) : Res := lift (poolServe cls place) s

/-! ### Uncorrectable errors (R389) -/

/-- The place of a slot is cleared and the grid cell collected again from every child, while its record has not left. -/
def slotError (x o k subject : Nat) (s : Sw) : Sw :=
  match (s.ctx? x).bind (fun c => c.slot? o k) with
  | some t =>
    if t.sst = 3 then s
    else
      let s := s.modCtx x (fun c => { c with slots := c.slots.erase (slotKey o k) })
      settle x (trigger x 1 subject none (fun _ j _ => if j = o then addSet 0 k else 0) s)
  | none => s
/-- The staged cells of port n are discarded and asked for again. -/
def stagingError (n : Nat) (s : Sw) : Sw :=
  let hit (p : Op) : Bool := p.staging.any (fun e => e.1 / 2 ^ 24 == n) || p.pruned.any (fun e => e.1 / 2 ^ 24 == n)
  each s.ctxs.keys (fun x s =>
    match s.ctx? x with
    | none => s
    | some c =>
      let ops := (c.ops.filter (fun e => e.2.isOpen && hit e.2)).map Prod.fst
      if ops.isEmpty then s
      else
        let s := s.setCtx x { c with ops := c.ops.mapVals (fun p => { p with
          staging := p.staging.keep (fun k => k / 2 ^ 24 != n)
          pruned := p.pruned.keep (fun k => k / 2 ^ 24 != n)
          waiting := p.waiting.filter (fun e => e.1 != n) }) }
        trigger x 1 n (some n) (fun c o p => if !ops.contains o then 0 else
          cellSet p (fun k => !inSet p.cbits k && (expected c p.blk k).contains n && !taken c o p n k)) s) s
/-- Event 0x080C: 1 anchor table, 2 set-up image; the grove repaired. -/
def copyRepaired (kind grove : Nat) (s : Sw) : Sw := raiseSys 0x080C (le 1 kind ++ le 1 grove) s
/-- A cache entry is discarded, and the gathers committed from it fail for all members. -/
def cacheError (x k v : Nat) (s : Sw) : Sw :=
  match s.store? x, s.ctx? x with
  | some t, some c =>
    (match t.entryOf k v with
     | none => s
     | some e =>
       let inBank := match SMap.find? k t.shards with | some h => (h.bankOf v).isSome | none => false
       let s := freeEntries x [e] (s.modStore x (fun t => { t with cache := t.cache.erase e }))
       if inBank then s
       else
         let uses (p : Op) : Bool := p.isOpen && p.st == .committed && (match p.gather with
           | some g => SMap.find? k g.resolved == some v
           | none => false)
         settle x (each ((c.ops.filter (fun e => uses e.2)).map Prod.fst) (fun o s => failOp x o stLost true s) s))
  | _, _ => s

/-- The region of R389, numbered from 1 in its table's order. -/
def regionNo : MemRegion → Nat
  | .slot _ _ _ => 1
  | .anchorTable _ _ both => if both then 5 else 4
  | .setupImage _ both => if both then 6 else 4
  | .digestSet _ _ => 7
  | .completionMap _ _ => 8
  | .retention _ _ _ => 9
  | .spill _ _ => 10
  | .store _ _ _ => 11
  | .commitRecord _ _ _ => 12
  | .cache _ _ _ => 13
  | .migration _ => 14
  | .unused => 0

/-- The response of R389 to an uncorrectable error at tier-1 address `ta` of stack `k`. -/
def tier1Error (k ta : Nat) (r : MemRegion) (s : Sw) : Sw :=
  match r with
  | .slot x o gcell => slotError x o gcell k s
  | .anchorTable x seg both =>
    if both then
      let s := s.modCtx x (fun c => { c with anchorLost := c.anchorLost.set seg c.nextOp })
      settle x (raiseCtx x 0x080D (le 1 1 ++ le 2 x) s)
    else copyRepaired 1 (k / 6) s
  | .setupImage q both => if both then raiseSys 0x080D (le 1 2 ++ le 2 q) s else copyRepaired 2 (k / 6) s
  | .digestSet x o => s.modCtx x (fun c => { c with digests := c.digests.erase o })
  | .completionMap x o =>
    (match s.op? x o with
     | some p => if p.isOpen then settle x (failOp x o stLost true s) else s
     | none => s)
  | .retention x o gcell => s.modOp x o (fun p => { p with retained := p.retained.adjust gcell (fun e => { e with kept := false }) })
  | .spill n i =>
    (match (s.port n).q.spill[i]? with
     | some it => raiseSys 0x0728 (le 2 n ++ le 4 s.fab.spillMib) (dropStall n (s.modQ n (fun q => { q with spill := q.spill.erase it })))
     | none => s)
  | .store x u h => abandonShard x u h k ta s
  | .commitRecord x h place => s.modShard x h (fun e => { e with recs := if place = 0 then (none, e.recs.2) else (e.recs.1, none) })
  | .cache x h v => cacheError x h v s
  | .migration g => migError g k ta s
  | .unused => s

/-! ### SRAM (R366, R387, R389, R390) -/

/-- The SRAM slots of logical tile q in the order of their places (DESIGN CHOICE, log 51): context, OPNUM, grid cell. -/
def Sw.sramSlots (s : Sw) (q : Nat) : List (Nat × Nat) :=
  s.ctxs.flatMap (fun e => (e.2.slots.filter (fun t => !t.2.tier1 && slotTile e.2.tiles e.1 (t.1 % 2 ^ 24) == q)).map (fun t => (e.1, t.1)))
/-- The response of R389 to an uncorrectable error at 128-bit word `word` of region `region` of an active tile (R366). -/
def sramError (p region word : Nat) (s : Sw) : Sw :=
  match (s.tile p).logical with
  | none => s
  | some q =>
    match region with
    | 0 =>
      (match (s.sramSlots q)[word / 40]? with
       | some (x, key) => slotError x (key / 2 ^ 24) (key % 2 ^ 24) p s
       | none => s)
    | 1 =>
      let ps := s.portsPresent q
      (match ps[(word - 163840) * ps.length / 8192]? with
       | some n => stagingError n s
       | none => s)
    | 3 =>
      (match (s.tile p).accs[word - 176128]? with
       | some (x, o, key) => digestError x o key s
       | none => s)
    -- an anchor entry is fetched again from tier 1; what a pool buffer held is not said
    | _ => s
/-- One scrub of a tile: corrected errors counted, an uncorrectable one answered, the limit of R390 judged. -/
def sramScrub (p region word corrected : Nat) (ue : Bool) (s : Sw) : Sw :=
  if (s.tile p).role != .active then s
  else
    let now := s.now
    let win := s.inWindow
    let s := s.modTile p (fun t => { t with
      ce := t.ce + BitVec.ofNat 32 corrected
      ceTimes := (t.ceTimes.filter (fun e => win e.1)) ++ (if corrected = 0 then [] else [(now, corrected)])
      ueTimes := (t.ueTimes.filter win) ++ (if ue then [now] else [])
      ue := if ue then t.ue + 1 else t.ue
      lastUe := if ue then BitVec.ofNat 32 (place (region % 8) 18 + word % 2 ^ 18) else t.lastUe })
    let s := if ue then
        sramError p region word (s.limited 0x0800 p ms (raiseSys 0x0800 (le 2 p ++ le 1 (region + 1) ++ le 8 word)))
      else s
    let t := s.tile p
    let n := t.ueTimes.length
    let c := t.ceTimes.foldl (fun a e => a + e.2) 0
    if t.role == .active && (decide (2 ≤ n) || decide (4096 ≤ c)) then
      quarantine p 3 (raiseSys 0x0801 (le 2 p ++ le 4 n ++ le 4 c) s)
    else s
/-- SRAM_SCRUB (R387). -/
def execSramScrub (tile region word corrected : Nat) (uncorrectable : Bool) (s : State) : Res :=
  lift (sramScrub tile region word corrected uncorrectable) s

/-! ### Tier 1 (R388 to R390) -/

/-- One hour. -/
def hourNs : Nat := 3600000 * ms
/-- Corrections in the hour; event 0x0803 once when they exceed 1,024 (R390). -/
def hourCount (k corrected : Nat) (s : Sw) : Sw :=
  let (start, n, told) := (s.stack k).hour
  let fresh := decide (hourNs ≤ s.now - start)
  let n := (if fresh then 0 else n) + corrected
  let told := told && !fresh
  let start := if fresh then s.now - (s.now - start) % hourNs else start
  let exceeds := decide (1024 < n) && !told
  let s := s.modStack k (fun t => { t with hour := (start, n, told || exceeds) })
  if exceeds then raiseSys 0x0803 (le 2 k ++ le 4 n) s else s
/-- A patrol scrub of a stack. -/
def patrolScrub (k ta corrected : Nat) (ue : Option MemRegion) (s : Sw) : Sw :=
  if !(s.stack k).inServ then s
  else
    let s := hourCount k corrected (s.modStack k (fun t => { t with ce := t.ce + BitVec.ofNat 32 corrected }))
    match ue with
    | none => s
    | some r =>
      let s := s.modStack k (fun t => { t with ue := t.ue + 1, lastUe := ta % 2 ^ 42 })
      tier1Error k ta r (s.limited 0x0802 k ms (raiseSys 0x0802 (le 2 k ++ le 8 ta ++ le 1 (regionNo r))))
/-- PATROL_SCRUB (R388): an uncorrectable error is on the stack that its address decodes to (R378). -/
def execPatrolScrub (stack ta corrected : Nat) (uncorrectable : Option MemRegion) (s : State) : Res :=
  lift (fun w => patrolScrub (if uncorrectable.isSome then w.stackAt stack ta else stack) ta corrected uncorrectable w) s

/-! ### CXL root ports (R391 to R395) -/

/-- CXL_ENABLE (R392): the switch begins to train the link. -/
def execCxlEnable (root : Nat) (s : State) : Res :=
  lift (onlyIf (decide (root < 2)) (Sw.modRoot root (fun r => { r with enable := true }))) s
/-- The expander is up: its extents, at most 4 TiB less the tag area, and every allocated extent's tag is verified (R391 to R393). -/
def cxlUp (p width speed extents : Nat) (s : Sw) : Sw :=
  if !decide (p < 2) || !(s.root p).enable || (s.root p).linkUp then s
  else
    let s := s.modRoot p (fun r => { r with
      linkUp := true, devOk := true, tagsOk := true, holding := false, width := min width 16, speed := min speed 6, total := min extents 262143 })
    raiseSys 0x0810 (le 2 p ++ le 1 (min width 16) ++ le 1 (min speed 6) ++ le 4 (min extents 262143)) s
/-- CXL_LINK_UP (R392). -/
def execCxlLinkUp (root width speed extents : Nat) (s : State) : Res := lift (cxlUp root width speed extents) s
/-- CXL_LINK_TIMEOUT (R392): the switch keeps retrying. -/
def execCxlLinkTimeout (root cause : Nat) (s : State) : Res :=
  lift (fun w => onlyIf (decide (root < 2) && (w.root root).enable && !(w.root root).linkUp) (raiseSys 0x0811 (le 2 root ++ le 1 cause)) w) s
/-- The link of a root port goes down: accesses to its extents wait (R395). -/
def cxlDown (p cause : Nat) (s : Sw) : Sw :=
  if !decide (p < 2) || !(s.root p).linkUp then s
  else raiseSys 0x0811 (le 2 p ++ le 1 cause) (s.modRoot p (fun r => { r with
    linkUp := false, devOk := false, tagsOk := false, width := 0, speed := 0, downs := r.downs + 1, holding := true }))
/-- CXL_LINK_DOWN (R395). -/
def execCxlLinkDown (root cause : Nat) (s : State) : Res := lift (cxlDown root cause) s
/-- The hold ends with the link still down: waiting accesses fail as uncorrectable errors (R395; 07 R251; 08 R273). -/
def cxlHoldEnds (p : Nat) (s : Sw) : Sw :=
  if !decide (p < 2) || !(s.root p).holding then s
  else
    let s := s.modRoot p (fun r => { r with holding := false })
    let s := each s.ctxs.keys (fun x s =>
      match s.store? x with
      | none => s
      | some t => each t.steps.keys (fun u s => each t.shards.keys (fun k s =>
          match s.shard? x k with
          | some h => if h.usesRoot p && s.workingOn x u k then abandonShard x u k p (p * 2 ^ 42) s else s
          | none => s) s) s) s
    each (List.range 4) (fun g s =>
      match s.migQueues.getD g [] with
      | (x, k) :: _ => (match s.shard? x k with
          | some h => if h.mig == .copying && (h.usesRoot p || h.migUses p) then migError g p (p * 2 ^ 42) s else s
          | none => s)
      | [] => s) s
/-- CXL_HOLD_TIMEOUT (R395). -/
def execCxlHoldTimeout (root : Nat) (s : State) : Res := lift (cxlHoldEnds root) s

end Sys2Proof.Machine
end

