-- ==== Sys2Proof/Machine/Power.lean ====
section
/-! DEFINITION. The commands of input, converters, power profiles, limiter, thermal limits and wear (15 R485 to R503). -/
namespace Sys2Proof

/-! ### Sensor readings (R492) -/

/-- Warning, throttle and trip of a sensor, C (R492); none for a converter, whose limit is R486's, and the outlet side. -/
def thresholds (kind idx : Nat) : Option (Int × Int × Int) :=
  match kind with
  | 0 => some (95, 100, 115)
  | 1 => some (85, 95, 105)
  | 2 => some (75, 80, 90)
  | 3 => if idx < 8 then none else some (110, 115, 125)
  | 4 => some (40, 45, 55)
  | _ => none
/-- A reading against a threshold in C, by eighths: at or above it; `strict`: above it. -/
def ThermalReading.reaches (r : ThermalReading) (strict : Bool) (f : Int × Int × Int → Int) : Bool :=
  match thresholds r.kind r.idx with
  | some t => if strict then decide (8 * f t < r.temp) else decide (8 * f t ≤ r.temp)
  | none => false
/-- At least 3 C below the throttle threshold. -/
def ThermalReading.cool (r : ThermalReading) : Bool :=
  match thresholds r.kind r.idx with
  | some t => decide (r.temp ≤ 8 * (t.2.1 - 3))
  | none => true
/-- A reading in whole C, signed. -/
def ThermalReading.deg (r : ThermalReading) : Byte := BitVec.ofInt 8 (r.temp / 8)
/-- Sensor kind and index. -/
def ThermalReading.key (r : ThermalReading) : Nat := r.kind * 256 + r.idx
/-- Content: sensor kind and index, temperature. -/
def ThermalReading.content (r : ThermalReading) : List Byte := le 1 r.kind ++ le 2 r.idx ++ le 1 r.deg.toNat
end Sys2Proof

namespace Sys2Proof.Machine

/-! ### Input, converters, profiles (R485, R486, R489, R491) -/

/-- VIN below PWR_VIN_WARN for 1 ms: event 0x0B03 at most once per second. -/
def inputLow (mv : Nat) (s : Sw) : Sw :=
  let s := s.modPwr (fun p => { p with vin := mv })
  if mv < s.pwr.vinWarn then s.limited 0x0B03 0 (1000 * ms) (raiseSys 0x0B03 (le 2 mv)) else s
/-- INPUT_LOW (R485). -/
def execInputLow (millivolts : Nat) (s : State) : Res := lift (inputLow millivolts) s
/-- A converter goes out of service; with three or fewer left that is a rail fault (R486). -/
def converterLost (c cause : Nat) (s : Sw) : Sw :=
  if 8 ≤ c || s.pwr.ibcOut.getLsbD c || s.pwr.mod != .on then s
  else
    let s := s.modPwr (fun p => { p with ibcOut := setBit p.ibcOut c })
    let k := 8 - (bitsOf s.pwr.ibcOut).length
    let s := raiseSys 0x0B04 (le 1 c ++ le 1 cause ++ le 4 k) s
    if k ≤ 3 then railFault s else profileRise s
/-- CONVERTER_LOST (R486). -/
def execConverterLost (converter cause : Nat) (s : State) : Res := lift (converterLost converter cause) s
/-- A write of PWR_PROFILE (R489, R496). -/
def profileWrite (func value : Nat) (s : Sw) : Sw :=
  if 4 ≤ value then regDiscard func 0x1000 value 0 s else profileAdjust (s.modPwr (fun p => { p with profile := value }))
/-- PWR_PROFILE_WRITE (R489). -/
def execPwrProfileWrite (value : Nat) (s : State) : Res := lift (profileWrite 0 value) s
/-- PROFILE_LOWER_TICK (R489). -/
def execProfileLowerTick (s : State) : Res := lift profileLower s

/-- The measurements of a millisecond (R496). -/
def takeSample (m : PowerSample) (p : Pwr) : Pwr :=
  { p with
    pin := m.pin, vin := m.vin, iin := m.iin, grove := (List.range 4).map (fun g => nth 0 m.groves g), optics := m.optics
    stackW := m.stackW, energy := p.energy + BitVec.ofNat 64 m.pin
    regs := m.regs.foldl (fun r e => r.set e.1 (e.2, (r.getD e.1 (0, 0)).2)) p.regs }
/-- The limiter's step rises (R491). -/
def limitRise (cap : Nat) (s : Sw) : Sw :=
  let p := s.pwr
  let content (s : Sw) : List Byte := le 2 s.pwr.pin ++ le 2 cap ++ le 1 s.pwr.limit
  if p.limit = 3 then s.limited 0x0B01 0 (1000 * ms) (fun s => raiseSys 0x0B01 (content s) s)
  else
    let s := s.modPwr (fun p => { p with limit := p.limit + 1, overRun := 0, underRun := 0, limitedMs := if p.limit = 0 then 0 else p.limitedMs })
    let now := s.now
    let s := s.modGlb (fun g => { g with evTimes := g.evTimes.set (0x0B01 * 2 ^ 24) now })
    profileRise (raiseSys 0x0B01 (content s) s)
/-- The limiter's step falls (R491). -/
def limitFall (s : Sw) : Sw :=
  let s := profileEase (s.modPwr (fun p => { p with limit := p.limit - 1, underRun := 0 }))
  if s.pwr.limit = 0 then raiseSys 0x0B02 (le 4 s.pwr.limitedMs) s else s
/-- A 1 ms average of input power is compared with the cap in force (R491). -/
def limitSample (m : PowerSample) (s : Sw) : Sw :=
  let s := s.modPwr (takeSample m)
  let w := s.pwr.inForce
  let cap := profileCap s.glb.variant w
  let above := decide (cap < m.pin)
  let under := decide (0 < s.pwr.limit) && decide (10 * m.pin ≤ 9 * profileCap s.glb.variant (w - 1))
  let s := s.modPwr (fun p => { p with
    overRun := if above then p.overRun + 1 else 0, underRun := if under then p.underRun + 1 else 0
    limitedMs := if p.limit = 0 then p.limitedMs else p.limitedMs + 1 })
  if above && 2 ≤ s.pwr.overRun then limitRise cap s
  else if 100 ≤ s.pwr.underRun then limitFall s
  else s
/-- POWER_LIMIT_SAMPLE (R491). -/
def execPowerLimitSample (sample : PowerSample) (s : State) : Res := lift (limitSample sample) s

/-! ### Thermal limits (R492 to R495) -/

/-- A reading reaches its register (R496). -/
def putReading (r : ThermalReading) (s : Sw) : Sw :=
  match r.kind with
  | 0 => s.modTile r.idx (fun t => { t with temp := BitVec.ofInt 16 r.temp })
  | 1 => s.modPwr (fun p => { p with stackTemp := p.stackTemp.set r.idx r.deg })
  | 2 => s.modEngine r.idx (fun e => { e with temp := r.deg })
  | 3 => s.modPwr (fun p => { p with regs := p.regs.set r.idx ((p.regs.getD r.idx (0, 0)).1, r.deg) })
  | 4 => s.modPwr (fun p => { p with inlet := r.deg })
  | _ => s.modPwr (fun p => { p with outlet := r.deg })
/-- Warnings, at most one per sensor and minute (R492). -/
def warn (r : ThermalReading) (s : Sw) : Sw :=
  if r.reaches false (fun t => t.1) then s.limited 0x0B10 r.key (60000 * ms) (raiseSys 0x0B10 r.content) else s
/-- The coolant alarm: the plate rises by more than P_in / 314 K (R495). -/
def coolantAlarm (s : Sw) : Sw :=
  let p := s.pwr
  if (p.pin : Int) < 314 * (p.outlet.toInt - p.inlet.toInt) then
    s.limited 0x0B13 0 (60000 * ms) (raiseSys 0x0B13 (le 1 p.inlet.toNat ++ le 1 p.outlet.toNat ++ le 2 p.pin))
  else s
/-- The thermal step after a reading of every 100 us: ten hot readings are a millisecond (R493). -/
def thermalStep (l : List ThermalReading) (s : Sw) : Sw :=
  let hot := l.find? (fun r => r.reaches true (fun t => t.2.1))
  let cool := l.all ThermalReading.cool
  let s := s.modPwr (fun p => { p with
    hotRun := if hot.isSome then p.hotRun + 1 else 0, coolRun := if cool && decide (0 < p.thermal) then p.coolRun + 1 else 0
    throttled := if p.thermal = 0 then 0 else p.throttled + 1 })
  match hot with
  | some r =>
    if 10 ≤ s.pwr.hotRun && s.pwr.thermal < 3 then
      let s := s.modPwr (fun p => { p with thermal := p.thermal + 1, hotRun := 0 })
      profileRise (raiseSys 0x0B11 (r.content ++ le 1 s.pwr.thermal) s)
    else s
  | none =>
    if 1000 ≤ s.pwr.coolRun then
      let s := profileEase (s.modPwr (fun p => { p with thermal := p.thermal - 1, coolRun := 0 }))
      if s.pwr.thermal = 0 then raiseSys 0x0B12 (le 4 (s.pwr.throttled / 10)) s else s
    else s
/-- Two consecutive readings at or above trip turn the module off (R494). -/
def tripCheck (l : List ThermalReading) (s : Sw) : Sw :=
  let up := l.filter (fun r => r.reaches false (fun t => t.2.2))
  let s' := s.modPwr (fun p => { p with tripping := up.map ThermalReading.key })
  match up.find? (fun r => s.pwr.tripping.contains r.key) with
  | some r => railsOff .offHeld 8 (s'.modPwr (fun p => { p with trip := some (r.key, r.deg, s.gtc) }))
  | none => s'
/-- One reading of every sensor. -/
def thermalOp (l : List ThermalReading) (s : Sw) : Sw :=
  if s.pwr.mod != .on then s
  else tripCheck l (thermalStep l (coolantAlarm (each l warn (each l putReading s))))
/-- THERMAL_SAMPLE (R492). -/
def execThermalSample (sample : List ThermalReading) (s : State) : Res := lift (thermalOp sample) s

/-! ### Wear (R497 to R502) -/

/-- Activation energy of a kind, 0.1 eV (R497). -/
def wearEa (kind : Nat) : Nat := match kind with | 0 => 5 | 3 => 6 | _ => 7
/-- The component of entry i is present (R497). -/
def Sw.wearPresent (s : Sw) (i : Nat) : Bool :=
  match wearKind i with
  | 0 => s.siteUsed i
  | 1 => s.quadActive (4 * (i - 16))
  | 2 => s.quadActive ((i - 48) / 4)
  | 3 => s.stackPopulated (i - 560)
  | 4 => (s.tile (i - 584)).role != .fused
  | _ => decide (i < 753)
/-- Temperature of the component of entry i, eighths of a degree C (R497). -/
def Sw.wearTemp (s : Sw) (i : Nat) : Int :=
  match wearKind i with
  | 0 => 8 * (s.site i).temp.toInt
  | 1 => 8 * (s.engine (i - 16)).temp.toInt
  | 2 => 8 * (s.engine ((i - 48) / 16)).temp.toInt
  | 3 => 8 * (s.pwr.stackTemp.getD (i - 560) 0).toInt
  | 4 => (s.tile (i - 584)).temp.toInt
  | _ => 8 * (s.pwr.regs.getD (i - 728) (0, 0)).2.toInt
/-- exp(num / den) in units of 2^-20 (DESIGN CHOICE: precision of AF, log 53): a Taylor sum at 1/1024 of the exponent, in units of
2^-60, squared ten times. -/
def expFixed (num den : Int) : Nat :=
  let one : Int := 2 ^ 60
  let y := num * one / (den * 1024)
  let sum := one + y + y * y / one / 2 + y * y / one * y / one / 6 + y * y / one * y / one * y / one / 24
  let r := (List.range 10).foldl (fun (v : Int) _ => v * v / one) sum
  (r / 2 ^ 40).toNat
/-- The acceleration factor of a kind at a temperature in eighths of a degree C, units of 2^-20 (R498). With T in units of 1/200 K:
x = (Ea / k) * 200 * (1 / 65630 - 1 / T). -/
def accel (kind : Nat) (temp : Int) : Nat :=
  let t := 25 * temp + 54630
  if t ≤ 0 then 0 else expFixed ((wearEa kind : Int) * 2000000000 * (t - 65630)) (8617 * 65630 * t)
/-- A second of ageing of an entry. -/
def Wear.second (af : Nat) (w : Wear) : Wear := { w with age := w.age + af, afDay := (w.afDay.1 + af, w.afDay.2 + 1) }
/-- One second: every entry ages, UTC and the power-on time go on (R498, R502). -/
def wearSecond (s : Sw) : Sw :=
  let s := each ((List.range 753).filter s.wearPresent) (fun i s => s.modEntry i (Wear.second (accel (wearKind i) (s.wearTemp i)))) s
  s.modWear (fun w => { w with
    secs := w.secs + 1, utc := if w.utcSet then w.utc + 1 else w.utc, poh := if (w.secs + 1) % 3600 = 0 then w.poh + 1 else w.poh })
/-- WEAR_AF_UPDATE (R498). -/
def execWearAfUpdate (s : State) : Res := lift wearSecond s

/-- LIMIT of entry i (R497). -/
def wearLimit (i : Nat) (base : Int) : Int :=
  match wearKind i with
  | 0 => base * 3 / 2
  | 1 => base + 400
  | 2 => -500
  | 3 => 1024
  | 4 => 15
  | _ => 300
/-- Mean AF of the latest samples, at most 30, units of 2^-20 (R499). -/
def afMean (l : List WearSample) : Nat :=
  let m := l.take 30
  if m.isEmpty then 0 else m.foldl (fun a e => a + e.af) 0 / m.length
/-- MID, EARLY and LATE in 0.1 day, by least squares over the latest samples, at most 90 (R499). In integers: with n samples of
indicator x at age t, A = n sum t^2 - (sum t)^2 and so on, b = B / A and (n - 2) A^2 sb^2 = C A - B^2. -/
def predict (l : List WearSample) (limit base : Int) : Option Nat × Option Nat × Option Nat :=
  let m := l.take 90
  let n : Int := m.length
  let sum (f : WearSample → Int) : Int := m.foldl (fun a e => a + f e) 0
  let st := sum (fun e => (e.age : Int))
  let sx := sum (fun e => e.ind)
  let a := n * sum (fun e => (e.age : Int) * e.age) - st * st
  let b := n * sum (fun e => (e.age : Int) * e.ind) - st * sx
  let c := n * sum (fun e => e.ind * e.ind) - sx * sx
  let d := if base < limit then 1 else if limit < base then -1 else 0
  let now : Int := match m with | e :: _ => (e.age : Int) | [] => 0
  let gap := d * (limit * n * a - sx * a - b * (n * now - st))
  let root : Int := Nat.sqrt (((c * a - b * b) * 2 ^ 40 / (n - 2)).toNat)
  let af : Int := afMean l
  let eol (slope : Int) : Option Nat :=
    if slope ≤ 0 || af = 0 then none else some (min 4294967294 (gap * 2 ^ 20 / (n * slope * af * 8640)).toNat)
  if m.length < 14 || a ≤ 0 then (none, none, none)
  else (eol (d * b * 2 ^ 20), eol (d * b * 2 ^ 20 + 2 * root), eol (d * b * 2 ^ 20 - 2 * root))
/-- The state of an entry: the first row of R500 that applies. -/
def wearState (i : Nat) (w : Wear) : Nat :=
  let limit := wearLimit i w.base
  let d : Int := if w.base < limit then 1 else if limit < w.base then -1 else 0
  match w.samples with
  | [] => if w.outvoted then 2 else 0
  | e :: _ =>
    if 0 ≤ d * (e.ind - limit) then 4
    else if (match w.early with | some v => decide (v ≤ 300) | none => false) then 3
    else if (match w.early with | some v => decide (v ≤ 1800) | none => false) || w.outvoted then 2
    else if w.samples.length < 14 then 0
    else 1
/-- A daily sample of entry i (R497 to R499). -/
def Wear.sample (i : Nat) (ind : Int) (w : Wear) : Wear :=
  let af := if w.afDay.2 = 0 then 0 else w.afDay.1 / w.afDay.2
  let base := if w.based then w.base else ind
  let l := (({ ind := ind, age := w.age, af := af } : WearSample) :: w.samples).take 365
  let (mid, early, late) := predict l (wearLimit i base) base
  let w := { w with samples := l, base := base, based := true, mid := mid, early := early, late := late, af30 := afMean l, afDay := (0, 0) }
  { w with state := wearState i w, outvoted := false }
/-- A prediction in 0.1 day as event content. -/
def eolContent (v : Option Nat) : List Byte := le 4 (v.getD 0xFFFFFFFF)
/-- The UTC date of a prediction, seconds (R502). -/
def eolDate (utc : Quad) (v : Option Nat) : List Byte := le 8 (match v with | some d => utc.toNat + d * 8640 | none => 2 ^ 64 - 1)
/-- The event of an entry that has entered a state (R500, R503). -/
def wearEvent (i : Nat) (w : Wear) (s : Sw) : Sw :=
  let ind := match w.samples with | e :: _ => e.ind | [] => 0
  let head := le 2 i ++ le 1 (wearKind i) ++ leInt 4 ind
  let dates := if s.wear.utc = 0 then [] else eolDate s.wear.utc w.mid ++ eolDate s.wear.utc w.early ++ eolDate s.wear.utc w.late
  let eols := eolContent w.mid ++ eolContent w.early ++ eolContent w.late
  match w.state with
  | 2 => raiseSys 0x0B20 (head ++ eols ++ dates) s
  | 3 => raiseSys 0x0B21 (head ++ eols ++ dates) s
  | 4 => raiseSys 0x0B22 (head ++ leInt 4 (wearLimit i w.base) ++ dates) s
  | _ => s
/-- 24 power-on hours have passed: each entry with an indicator stores a sample and takes its state (R498 to R500). -/
def wearDaily (l : List (Nat × Int)) (s : Sw) : Sw :=
  let s := each (l.filter (fun e => s.wearPresent e.1)) (fun e s =>
    let old := (s.wearOf e.1).state
    let s := s.modEntry e.1 (Wear.sample e.1 e.2)
    let w := s.wearOf e.1
    if w.state = old then s else wearEvent e.1 w s) s
  s.modWear (fun w => { w with secs := 0 })
/-- WEAR_DAILY_SAMPLE (R499). -/
def execWearDailySample (indicators : List (Nat × Int)) (s : State) : Res := lift (wearDaily indicators) s

end Sys2Proof.Machine
end

