-- ==== Sys2Proof/Machine/Prune.lean ====
section
/-! DEFINITION. The commands of the Prune family: prune cells, zero runs, the result form of prune operations and the activation
policy of a store (08 R256 to R275). -/
namespace Sys2Proof.Machine

/-! ### Prune cells and zero runs (08 R257 to R264) -/

/-- A cell of an operation that is open here, or of none known here. -/
def pruneOf (x : Nat) (c : Cell) (s : Sw) : Bool :=
  match s.ctx? x with
  | some k => (match k.opOfSeq c.copseq with | some (_, p) => blkPrune p.blk | none => true)
  | none => false
/-- PRUNE_CELL_RECEIVE (08 R260). -/
def execPruneCellReceive (port : Nat) (cell : Cell) (s : State) : Res :=
  lift (toContext port cell (fun x q c s => if pruneOf x c s then memberCellOp x q c s else s)) s
/-- ZERO_RUN_RECEIVE (08 R264). -/
def execZeroRunReceive (port : Nat) (cell : Cell) (s : State) : Res :=
  lift (toContext port cell (fun x q c s =>
    if pruneOf x c s && byteAt (bytes64 c.pay) 0 == 0xF0 then recordOp x q c s else s)) s

/-! ### PRUNE_CONFIG, ACT_CONFIG, ACT_READ (08 R265, R269, R274) -/

/-- PRUNE_CONFIG. -/
def pruneConfigOp (b : Sub) (t : Tok) (s : Sw) : Sw :=
  let x := b.ctx
  guardDesc t [
    (!b.only [lctx, bi_ 10 0 1] || !s.active x, stBad),
    (s.notOwner b x, stDenied)]
    (fun s => complete t stOk (s.modCtx x (fun c => { c with sparse := b.flag 10 0 }))) s
/-- PRUNE_CONFIG (08 R265). -/
def execPruneConfig (sub : Sub) (s : State) : Res := lift (runDesc 0x50 pruneConfigOp sub) s
/-- ACT_CONFIG. -/
def actConfigOp (b : Sub) (t : Tok) (s : Sw) : Sw :=
  let x := b.ctx
  let w := b.f 11 1
  let d := b.f 12 1
  let p := b.f 13 1
  guardDesc t [
    (!b.only [lctx, bi_ 10 0 2, by_ 11 3] || (s.store? x).isNone || decide (w < 8) || decide (64 < w) || decide (w ≤ d) || decide (p ≤ d) ||
      decide (w < p), stBad),
    (s.notOwner b x, stDenied)]
    (fun s =>
      let s := s.modStore x (fun t => { t with idleSkip := b.flag 10 0, migrate := b.flag 10 1, window := w, demoteMax := d, promoteMin := p })
      let waited := match s.store? x with
        | some t => if b.flag 10 1 then [] else (t.shards.filter (fun (e : Nat × Shard) => e.2.migWait)).map Prod.fst
        | none => []
      let s := match s.store? x with
        | some t => if b.flag 10 1 then s else each t.shards.keys (migStop x) s
        | none => s
      let us := match s.ctx? x with
        | some c => dedup (waited.filterMap (fun k => (c.canopy.shard k).map (fun (e : ShardEnt) => e.ugroup)))
        | none => []
      settle x (complete t stOk (each us (engineGo x) s))) s
/-- ACT_CONFIG (08 R269). -/
def execActConfig (sub : Sub) (s : State) : Res := lift (runDesc 0x51 actConfigOp sub) s
/-- The activation record of shard k (08 R274). -/
def actRecord (t : Store) (k : Nat) (h : Shard) : List Byte :=
  let mig := match h.mig with | .still => 0 | .queued => 1 | .copying => 2
  le 4 k ++ le 1 (b2n h.inTier2 + 2 * mig) ++ le 1 (t.activeIn h) ++ le 1 h.steps ++ le 1 0 ++ le 8 h.hist.toNat
/-- ACT_READ. -/
def actReadOp (b : Sub) (t : Tok) (s : Sw) : Sw :=
  let x := b.ctx
  match s.ctx? x, s.store? x with
  | some c, some d =>
    let mine := heldEntries c.canopy.shards
    guardDesc t [
      (!b.only [lctx, by_ 24 8, by_ 40 4], stBad),
      (s.notOwner b x, stDenied),
      (decide (b.f 40 4 < 16 * mine.length), stNoRes)]
      (hostGuard b t (fun s => complete t stOk (hostWrite t (b.q 24)
        ((mine.map (fun e => actRecord d e.1 ((SMap.find? e.1 d.shards).getD {}))).flatten) s))) s
  | _, _ => complete t stBad s
/-- ACT_READ (08 R274). -/
def execActRead (sub : Sub) (s : State) : Res := lift (runDesc 0x52 actReadOp sub) s

end Sys2Proof.Machine
end

