-- ==== Sys2Proof/Machine/Vectors.lean ====
section
/-! DEFINITION. The vector set of a graft test and its digest (09 R314). -/
namespace Sys2Proof.Machine

/-- Grid cells of the vector set. -/
def vectorCells : Nat := 4096
/-- G, H, M, SEGLEN and A0 of the vector set. -/
def vecG : Nat := 64
/-- H. -/
def vecH : Nat := 16
/-- M. -/
def vecM : Nat := 1
/-- Grid cells of one segment: SEGLEN 2^16. -/
def vecSeg : Nat := 2048
/-- A0. -/
def vecA0 : Int := 8

/-- Raw element e of cell c in format f: the low bits of z (02 R80). -/
def vecRaw (seed : Quad) (f c e : Nat) : Nat := (ditherZ seed f c f e).toNat % 2 ^ elemBits f
/-- The contribution of a float format to cell c. -/
def vecNums (seed : Quad) (f c : Nat) : List Num :=
  (List.range 32).map (fun e =>
    let v := decodeNum (elemFmt f) (vecRaw seed f c e)
    if !isMx f then v
    else
      let scale := (Config.vectorScale seed f c).toNat
      if scale = 255 then .nan
      else match v with
        | .fin neg num den exp => .fin neg num den (exp + scale - 127)
        | v => v)
/-- The sum of the float contributions to cell c on the grid of anchor a. -/
def vecFloat (seed : Quad) (a : Int) (c : Nat) : Part :=
  (List.range 11).foldl (fun p f => p.add (toGrid vecG vecH a (vecNums seed f c))) { vals := List.replicate 32 0 }
/-- The sum of the integer contributions to cell c. -/
def vecInt (seed : Quad) (c : Nat) : Part :=
  (span 11 4).foldl (fun p f => p.add { vals := (List.range 32).map (fun e => decodeInt (elemBits f) (vecRaw seed f c e)) })
    { vals := List.replicate 32 0 }
/-- The released results of one segment from `attempt` on: replay while it overflows, then saturation (02 R55 to R60). -/
def vecSegment (seed : Quad) (cells : List Nat) : Nat → Nat → Int → List (Nat × Part) × Int
  | 0, _, a => ([], a)
  | fuel + 1, attempt, a =>
    let parts := cells.map (fun c => (c, vecFloat seed a c))
    let clamps := parts.any (fun e => e.2.overflows vecG)
    let emax := parts.foldl (fun m e => max m e.2.emax) emaxNone
    if clamps && decide (attempt < 4) then
      let b := parts.foldl (fun m e => e.2.vals.foldl (fun m v => max m (bitLen v)) m) 0
      vecSegment seed cells fuel (attempt + 1) (clampAnchor (raisedAnchor a vecG vecH vecM b emax))
    else
      let last := cells.getLastD 0
      let next := nextAnchor a emax vecM
      (parts.map (fun e =>
        let q := if e.2.overflows vecG then { (e.2.saturate vecG).1 with clamp := true } else e.2
        (e.1, { q with attempt := attempt, next := if e.1 = last then some next else none })), a)
/-- Member cells of 64 payload bytes that hold raw elements. -/
def vecPack (code : Nat) (raw : List Nat) : List (BitVec 512) :=
  (chunks (elemsPerCell code 64) raw).map (fun l =>
    BitVec.ofNat 512 ((l.zip (List.range l.length)).foldl (fun a e => a + place e.1 (elemBits code * e.2)) 0))
/-- The digest of the packed record of a result and of its conversions into the given formats. -/
def vecDigest (kind : ValKind) (formats : List Nat) (w : Int) (c : Nat) (p : Part) : Quad :=
  let pays := recordParts (encodePacked false p) ++ (formats.map (fun f =>
    if isMx f then [resultMx kind p w 1 f none]
    else vecPack f ((resultElems kind p w 1 f false none).map Prod.fst))).flatten
  pays.foldl (fun d pay => d ^^^ cellDigest c (bytes64 pay)) 0
/-- The vector digest of a VSEED. -/
def vectorDigest (seed : Quad) : Quad :=
  let floats := (List.range (vectorCells / vecSeg)).foldl (fun d g =>
    let (rs, a) := vecSegment seed (span (vecSeg * g) vecSeg) 5 0 vecA0
    rs.foldl (fun d r => d ^^^ vecDigest .grid (List.range 11) (gridW a vecG vecH) r.1 r.2) d) 0
  (List.range vectorCells).foldl (fun d c => d ^^^ vecDigest .int (span 11 4) 0 c (vecInt seed c)) floats

end Sys2Proof.Machine
end

