-- ==== Sys2Proof/Machine/Recovery.lean ====
section
/-! DEFINITION. The commands of the Recovery family: acknowledgements, re-injection, digests, recovery settings, anchor copies
and grafts (09 R284 to R328). -/
namespace Sys2Proof.Machine

/-! ### RESULT_ACK and REINJECT_REQ (09 R284 to R292, R295) -/

/-- A RESULT_ACK: DELIVERED from a switch child, or RELEASE from the parent, which goes on unchanged. -/
def ackArrive (x q : Nat) (c : Cell) (s : Sw) : Sw :=
  match s.ctx? x with
  | none => s
  | some k =>
    let dir := c.f 4 1
    let o := c.f 0 4
    if c.tc != 5 || c.ctype != ctAck then s
    else if dir = 0 then
      if (k.canopy.child q).any (fun h => h.isSwitch) then settle x (s.modOp x o (fun p => { p with deliveredFrom := setBit p.deliveredFrom q })) else s
    else if dir = 1 && k.canopy.parent == some q then sendRelease x (c.f 8 4) s
    else s
/-- RESULT_ACK_RECEIVE (09 R286). -/
def execResultAckReceive (port : Nat) (cell : Cell) (s : State) : Res := lift (toContext port cell ackArrive) s

/-- A RESULT request: records already sent toward the child go again from retention; one that was not retained ends the operation
for the members below (09 R292). -/
def resultRequest (x o q first last : Nat) (s : Sw) : Sw :=
  match s.ctx? x, s.op? x o with
  | some c, some p =>
    let sent := p.sentTo.getD q 0
    let set := cellSet p (fun k => decide (first ≤ k) && decide (k ≤ last) && inSet sent k && (targets c p.blk k).contains q)
    let gone := (List.range (cellsOf p.blk)).filter (fun k => inSet set k && (match SMap.find? k p.retained with | some r => !r.kept | none => true))
    let n := ((List.range (cellsOf p.blk)).filter (inSet set)).length
    let s := resend x o q set s
    let s := raiseCtx x 0x0602 (le 4 o ++ le 2 q ++ le 4 (n - gone.length)) s
    (match gone, c.canopy.child q with
     | k :: _, some h => raiseCtx x 0x0604 (le 4 o ++ le 2 q ++ le 4 k) (tellLost x o h s)
     | _, _ => s)
  | _, _ => s
/-- A CONTRIB request: the grid cells of the range whose root lies toward port q are asked for again (09 R291). -/
def contribRequest (x o q first last cause : Nat) (s : Sw) : Sw :=
  match s.ctx? x, s.op? x o with
  | some c, some p =>
    let set := cellSet p (fun k => decide (first ≤ k) && decide (k ≤ last) && upPort c p.blk k == some q)
    settle x (askContrib x o set cause none s)
  | _, _ => s
/-- A REINJECT_REQ of a canopy neighbour switch. -/
def reinjectArrive (x q : Nat) (c : Cell) (s : Sw) : Sw :=
  match s.ctx? x with
  | none => s
  | some k =>
    let kind := c.arg % 4
    let o := c.f 0 4
    if c.tc != 5 || c.ctype != ctReinject || !k.leadsToSwitch q then s
    else match SMap.find? o k.ops with
      | some p =>
        if !p.isOpen then s
        else if kind = 0 then contribRequest x o q (c.f 4 4) (c.f 8 4) (c.f 12 1) s
        else if kind = 1 then resultRequest x o q (c.f 4 4) (c.f 8 4) s
        else s
      | none =>
        (match k.canopy.parent with
         | some up => if kind = 1 && up != q then ctxCtrl x up .none (reinjectCell x o noMember 1 (c.f 4 4) (c.f 8 4) (c.f 12 1)) s else s
         | none => s)
/-- REINJECT_REQ_RECEIVE (09 R291). -/
def execReinjectReqReceive (port : Nat) (cell : Cell) (s : State) : Res := lift (toContext port cell reinjectArrive) s

/-! ### Digests (09 R299 to R301) -/

/-- The kind of a switch's own digest that a partner's kind is compared with on the same link. -/
def counterpart (kind : Nat) : Nat := match kind with | 0 => 2 | 1 => 3 | 2 => 0 | _ => 1
/-- Two digests agree. -/
def Digest.agrees (a b : Digest) : Bool := a.dig == b.dig && a.cells == b.cells
/-- The kinds that a REQUEST on port q asks for: the one received and the one sent on that link. -/
def Ctx.linkKinds (c : Ctx) (q : Nat) : Nat × Nat := if (c.canopy.child q).isSome || (c.canopy.primaryOf q).isSome then (0, 3) else (1, 2)
/-- MEMBER of a CTRL cell on canopy port q (03 R99). -/
def Ctx.memberField (c : Ctx) (q : Nat) : Nat :=
  match c.canopy.child q with | some h => h.member | none => (match c.canopy.primaryOf q with | some h => h.rankFirst | none => noMember)
/-- A partner's digest is compared with its counterpart, and kept for the DIGEST_COMPAREs that asked for it. -/
def digestTake (x q o kind : Nat) (held : Bool) (d : Digest) (s : Sw) : Sw :=
  match s.ctx? x with
  | none => s
  | some c =>
    let s := s.modRec (fun r => { r with compares := r.compares.map (fun e =>
      if e.ctx == x && e.opnum == o && e.ports.contains q then { e with answers := e.answers.set (q * 16 + kind) (d.dig, d.cells, held) } else e) })
    let mine := counterpart kind
    match c.digest? o mine q with
    | some own =>
      if !held || own.agrees d then s
      else raiseCtx x 0x0611 (le 4 o ++ le 2 q ++ le 1 mine ++ le 1 kind ++ le 8 own.dig.toNat ++ le 8 d.dig.toNat ++ le 4 own.cells ++ le 4 d.cells) s
    | none => s
/-- The mirror's digest of a layer is compared with the owner's (09 R301). -/
def digestLayer (x q o layer : Nat) (d : Digest) (s : Sw) : Sw :=
  match s.ctx? x with
  | none => s
  | some c =>
    let shared := c.canopy.shards.find? (fun e => e.srole == 1 && e.mirror == some q && e.layer == layer)
    match shared, c.digest? o 4 layer with
    | some e, some own =>
      if own.agrees d then s
      else raiseCtx x 0x0612 (le 4 ((s.step? x e.ugroup).elim 0 (fun st => st.step)) ++ le 2 layer ++ le 2 q) s
    | _, _ => s
/-- A DIGEST cell. -/
def digestArrive (x q : Nat) (c : Cell) (s : Sw) : Sw :=
  match s.ctx? x with
  | none => s
  | some k =>
    let o := c.f 0 4
    let kind := c.f 4 1
    let held := c.f 20 1 == 0
    let d : Digest := ⟨c.q 8, c.f 16 4, false⟩
    if c.tc != 5 || c.ctype != ctDigest then s
    else if kind = 8 then
      let (a, b) := k.linkKinds q
      let send (kind : Nat) (s : Sw) : Sw := ctxCtrl x q .none (digestCell x o (k.memberField q) kind 0 (k.digest? o kind q)) s
      foldAccs x o (send b (send a s))
    else if kind = 4 then (if held then digestLayer x q o (c.f 6 2) d s else s)
    else if kind < 4 then digestTake x q o kind held d s
    else s
/-- DIGEST_RECEIVE (09 R299). -/
def execDigestReceive (port : Nat) (cell : Cell) (s : State) : Res := lift (toContext port cell digestArrive) s

/-- DIGEST_COMPARE. -/
def digestCompareOp (b : Sub) (t : Tok) (s : Sw) : Sw :=
  let x := b.ctx
  let o := b.f 12 4
  let ports := comparePorts s b
  guardDesc t [
    (!b.only [lctx, by_ 10 6] || !s.active x ||
      (match s.ctx? x with | some c => !ports.all (fun q => c.canopy.ports.contains q) | none => true), stBad),
    (s.notOwner b x, stDenied)]
    (fun s => match s.ctx? x with
      | none => s
      | some c =>
        let s := s.modRec (fun r => { r with compares := r.compares ++ [{ ctx := x, opnum := o, ports := ports, answers := [], tok := t }] })
        each ports (fun q => ctxCtrl x q .none (ctrlCell ctDigest x (c.memberField q) o 0 (le 4 o ++ le 1 8))) s) s
/-- DIGEST_COMPARE (09 R300). -/
def execDigestCompare (sub : Sub) (s : State) : Res := lift (runDesc 0x82 digestCompareOp sub) s
/-- Outcome of one port: 1 MATCH, 2 MISMATCH with both digests and cell counts, 3 NO_ANSWER, 4 NOT_HELD (09 R300; 12 R423). -/
def compareOutcome (c : Option Ctx) (e : Compare) (q : Nat) : List Byte :=
  let pairs := match c with
    | some c => let (a, b) := c.linkKinds q; [(c.digest? e.opnum a q, SMap.find? (q * 16 + counterpart a) e.answers),
                                               (c.digest? e.opnum b q, SMap.find? (q * 16 + counterpart b) e.answers)]
    | none => [(none, none)]
  let entry (out : Nat) (own : Digest) (dig : Quad) (cells : Nat) : List Byte :=
    le 2 q ++ le 1 out ++ le 8 own.dig.toNat ++ le 8 dig.toNat ++ le 4 own.cells ++ le 4 cells
  let none_ : Digest := ⟨0, 0, false⟩
  if pairs.any (fun p => p.2.isNone) then entry 3 none_ 0 0
  else if pairs.any (fun p => p.1.isNone || (match p.2 with | some a => !a.2.2 | none => false)) then entry 4 none_ 0 0
  else match pairs.findSome? (fun p => match p with
      | (some own, some a) => if own.agrees ⟨a.1, a.2.1, false⟩ then none else some (own, a)
      | _ => none) with
    | some (own, a) => entry 2 own a.1 a.2.1
    | none => entry 1 none_ 0 0
/-- 1 ms has passed since the requests of DIGEST_COMPAREs of an operation: they complete. -/
def digestCompareEnd (x o : Nat) (s : Sw) : Sw :=
  let mine (e : Compare) : Bool := e.ctx == x && e.opnum == o
  let due := s.rcv.compares.filter mine
  let s := s.modRec (fun r => { r with compares := r.compares.filter (fun e => !mine e) })
  each due (fun e s => foldAccs x o <| completeE e.tok 0x0610 stOk (le 2 x ++ le 4 o ++ cList (e.ports.map (compareOutcome (s.ctx? x) e))) s) s
/-- DIGEST_COMPARE_TIMEOUT (09 R300). -/
def execDigestCompareTimeout (ctx opnum : Nat) (s : State) : Res := lift (digestCompareEnd ctx opnum) s

/-! ### REC_CONFIG and REC_READ (09 R325, R326) -/

/-- REC_CONFIG. -/
def recConfigOp (b : Sub) (t : Tok) (s : Sw) : Sw :=
  let log2 := b.f 8 1
  let depth := b.f 12 1
  guardDesc t [(!b.only [by_ 8 5, bi_ 13 0 2, by_ 16 4] || (decide (16 < log2) && log2 != 0xFF) || b.f 9 1 == 0 || b.f 10 2 == 0 || depth == 0 ||
      b.f 16 4 % 16 != 0 || decide (65536 < b.f 16 4), stBad)]
    (fun s =>
      let s := s.modRec (fun r => { r with shadowLog2 := log2, quarCount := b.f 9 1, quarWindow := b.f 10 2, digestDepth := depth,
                                           retain := b.flag 13 0, autoQuar := b.flag 13 1, retMib := b.f 16 4 })
      let s := s.modCtxs (fun m => m.mapVals (fun c => { c with digests := c.digests.drop (c.digests.length - depth) }))
      complete t stOk (poolWarnAll s)) s
/-- REC_CONFIG (09 R325). -/
def execRecConfig (sub : Sub) (s : State) : Res := lift (runDesc 0x80 recConfigOp sub) s
/-- Digest records of one operation: ascending port, then kind and layer; kind 4 stands on port 0xFFFF. -/
def digestRecords (o : Nat) (set : SMap Digest) : List Byte :=
  let portOf (key : Nat) : Nat := if key / 65536 = 4 then 0xFFFF else key % 65536
  let keys := sortAsc ((SMap.keys (set.filter (fun (e : Nat × Digest) => !e.2.lost))).map (fun k => portOf k * 2 ^ 20 + k))
  (keys.map (fun e =>
    let key := e % 2 ^ 20
    let d := set.getD key ⟨0, 0, false⟩
    let layer := if key / 65536 = 4 then key % 65536 else 0
    le 4 o ++ le 2 (portOf key) ++ le 1 (key / 65536) ++ le 1 0 ++ le 8 d.dig.toNat ++ le 4 d.cells ++ le 2 layer ++ le 10 0)).flatten
/-- The counter record of a context. -/
def counterRecord (k : CtxCnt) : List Byte :=
  ([k.dup, k.reinjCells, k.resultResent, k.unretained, k.shadowChecks, k.shadowMismatch, k.backupDiverged, k.pathDisturb].map
    (fun v => le 8 v.toNat)).flatten
/-- What REC_READ writes. -/
def recReadBytes (c : Ctx) (select first : Nat) (s : Sw) : List Byte :=
  match select with
  | 0 => ((c.digests.filter (fun (e : Nat × SMap Digest) => decide (first ≤ e.1))).map (fun e => digestRecords e.1 e.2)).flatten
  | 1 => (s.rcv.log.reverse.map (fun e => le 32 e.bytes.toNat)).flatten
  | _ => counterRecord c.cnt
/-- REC_READ. -/
def recReadOp (b : Sub) (t : Tok) (s : Sw) : Sw :=
  let x := b.ctx
  match s.ctx? x with
  | none => complete t stBad s
  | some c =>
    let bytes := recReadBytes c (b.f 10 1) (b.f 12 4) s
    guardDesc t [(!b.only [lctx, by_ 10 1, by_ 12 4, by_ 24 8, by_ 40 4] || decide (2 < b.f 10 1), stBad), (s.notOwner b x, stDenied),
      (decide (b.f 40 4 < bytes.length), stNoRes)]
      (hostGuard b t (fun s => complete t stOk (hostWrite t (b.q 24) bytes (each c.digests.keys (foldAccs x) s)))) s
/-- REC_READ (09 R326). -/
def execRecRead (sub : Sub) (s : State) : Res := lift (runDesc 0x81 recReadOp sub) s

/-! ### STEP_ACK and ANCHOR_COPY (09 R310, R327) -/

/-- STEP_ACK. -/
def stepAckOp (b : Sub) (t : Tok) (s : Sw) : Sw :=
  let x := b.ctx
  let v := b.f 12 4
  guardDesc t [(!b.only [lctx, by_ 12 4] || (match s.ctx? x with | some c => !c.isRoot || decide (v < c.stepAck) || decide (c.nextOp < v) | none => true), stBad),
      (s.notOwner b x, stDenied)]
    (fun s => settle x (complete t stOk (s.modCtx x (fun c => { c with stepAck := v })))) s
/-- STEP_ACK (09 R327). -/
def execStepAck (sub : Sub) (s : State) : Res := lift (runDesc 0x85 stepAckOp sub) s

/-- What R310 installs of an entry as of an operation; none: neither CUR nor PREV lies below it. -/
def Anchor.asOf (e : Anchor) (o : Nat) : Option Int :=
  if e.setOp < o then some e.cur else if e.prevOp != noOpnum && decide (e.prevOp < o) then some e.prev else none
/-- The table that R310 installs; none: some segment cannot be installed. -/
def anchorsAsOf (es : List (Nat × Anchor)) (o : Nat) : Option (SMap Anchor) :=
  es.foldl (fun (m : Option (SMap Anchor)) e => m.bind (fun m => (e.2.asOf o).map (fun a =>
    m.set e.1 ({ cur := a, isSet := true, copied := true } : Anchor)))) (some [])
/-- Install entries in a context and complete. -/
def anchorInstall (x dir o : Nat) (es : List (Nat × Anchor)) (t : Tok) (after : Sw → Sw) (s : Sw) : Sw :=
  match anchorsAsOf es o with
  | none => complete t stGone s
  | some m =>
    let s := s.modCtx x (fun c => { c with anchors := m.foldl (fun a e => a.set e.1 e.2) c.anchors })
    raiseCtx x 0x0660 (le 1 dir ++ le 4 o ++ le 4 m.length) (complete t stOk (after s))
/-- ANCHOR_COPY. -/
def anchorCopyOp (b : Sub) (t : Tok) (s : Sw) : Sw :=
  let x := b.ctx
  let dir := b.f 10 1
  let old := b.f 12 2
  let asOf := b.f 16 4
  let len := b.f 40 4
  match s.ctx? x with
  | none => complete t stBad s
  | some c =>
    let run := anchorRun c.anchors
    let es := parseRun (b.host.take len)
    let kept := SMap.find? old s.rcv.anchors
    guardDesc t [
      (!b.only [lctx, by_ 10 1, bi_ 11 0 1, by_ 12 2 &&& ~~~ bi_ 13 4 4, by_ 16 4, by_ 24 8, by_ 40 4] || decide (2 < dir), stBad),
      (s.notOwner b x || (decide (dir < 2) && c.openedFrom 0), stDenied),
      (decide (dir < 2) && c.closing, stBad),
      (dir == 0 && kept.isNone, stBad),
      (dir == 1 && len % 16 != 0, stBad),
      (dir == 2 && decide (len < run.length), stNoRes)]
      (fun s =>
        if dir = 0 then
          anchorInstall x dir asOf (kept.getD []) t (fun s => if b.flag 11 0 then s.modRec (fun r => { r with anchors := r.anchors.erase old }) else s) s
        else hostGuard b t (fun s =>
          if dir = 2 then complete t stOk (hostWrite t (b.q 24) run s)
          else if !runAscends es then complete t stBad s
          else anchorInstall x dir asOf es t id s) s) s
/-- ANCHOR_COPY (09 R310). -/
def execAnchorCopy (sub : Sub) (s : State) : Res := lift (runDesc 0x86 anchorCopyOp sub) s

/-! ### GRAFT_TEST (09 R313, R314) -/

/-- Change the graft test. -/
def Sw.modTestGraft (f : Graft → Graft) (s : Sw) : Sw := s.modRec (fun r => { r with graft := f r.graft })
/-- The test enters a state. -/
def graftEnter (st : GraftSt) (s : Sw) : Sw :=
  let n := match st with | .new => 1 | .selfTest => 2 | .linkTest => 3 | .vectors => 4 | .tested => 5 | .failed => 8
  graftStepEvent none n (s.modTestGraft (fun g => { g with st := st }))
/-- The test fails in a step, for a port or unit; its GRAFT_TEST completes. -/
def graftFail (step unit status : Nat) (s : Sw) : Sw :=
  let t := s.rcv.graft.tok
  let s := graftEnter .failed (s.modTestGraft (fun g => { g with tok := none }))
  completeOpt t status (raiseSys 0x0641 (le 1 step ++ le 2 unit) s)
/-- A test runs. -/
def Graft.running (g : Graft) : Bool := g.st == .selfTest || g.st == .linkTest || g.st == .vectors
/-- GRAFT_TEST: also in TESTED, for a later member's port (09 R313, R319; DEDUCED, log 18). -/
def graftTestOp (b : Sub) (t : Tok) (s : Sw) : Sw :=
  let partner := b.f 8 2
  let ms := if b.f 10 1 = 0 then 100 else b.f 10 1
  guardDesc t [(!b.only [by_ 8 3, by_ 16 16] || !s.portActive partner, stBad),
      (s.rcv.graft.running, stDenied)]
    (hostGuard b t (fun s => graftEnter .selfTest (s.modTestGraft (fun g =>
      { ({} : Graft) with partner := partner, linkMs := ms, vseed := b.q 16, mask := BitVec.ofNat 512 (ofLe (b.host.take 64)), ran := g.ran, tok := some t })))) s
/-- GRAFT_TEST (09 R314). -/
def execGraftTest (sub : Sub) (s : State) : Res := lift (runDesc 0x83 graftTestOp sub) s
/-- A port that is not in service. -/
def Sw.portOut (s : Sw) (n : Nat) : Bool := let st := (s.port n).reg.state; st == .outOfService || st == .absent
/-- Link counters of a port as LINK_TEST begins. -/
def linkBase (k : PortCnt) : LinkBase := { crc := k.crcErr, unc := k.fecUncorr, rep := k.replay, cw := k.fecCw, sym := k.fecSym }
/-- The built-in tests have ended: what they found stands in the tiles, stacks and ports. -/
def graftSelfTest (s : Sw) : Sw :=
  let g := s.rcv.graft
  if g.st != .selfTest then s
  else
    let ports := bitsOf g.mask
    match ports.find? s.portOut, (List.range 24).find? (fun k => s.stackPopulated k && (s.stack k).state == .failed),
        s.logicalTiles.find? (fun q => !s.inService q) with
    | some n, _, _ => graftFail 2 n stLost s
    | none, some k, _ => graftFail 2 k stLost s
    | none, none, some q => graftFail 2 q stLost s
    | none, none, none =>
      graftEnter .linkTest (s.modTestGraft (fun g => { g with base := ports.map (fun n => (n, linkBase (s.port n).cnt)) }))
/-- GRAFT_SELF_TEST_DONE (09 R313). -/
def execGraftSelfTestDone (s : State) : Res := lift graftSelfTest s
/-- A port passes the link test: UP, no new CRC error, uncorrectable codeword or replay, and corrected symbols below 10^-5 of the
symbols of its codewords, 544 each (09 R314; 13 R451). -/
def linkPass (s : Sw) (n : Nat) (b : LinkBase) : Bool :=
  let k := (s.port n).cnt
  let sym := (k.fecSym - b.sym).toNat
  s.up n && k.crcErr == b.crc && k.fecUncorr == b.unc && k.replay == b.rep &&
    (sym == 0 || decide (sym * 100000 < (k.fecCw - b.cw).toNat * 544))
/-- LINK_MS has elapsed: every named port passes, or the test fails with the first that does not. -/
def graftLinkTest (s : Sw) : Sw :=
  let g := s.rcv.graft
  if g.st != .linkTest then s
  else match List.find? (fun (e : Nat × LinkBase) => !linkPass s e.1 e.2) g.base with
    | some e => graftFail 3 e.1 stLost s
    | none => sendGraftOn g.partner [graftCell 0 gkVstart noShard 0 (le 8 g.vseed.toNat)] (graftEnter .vectors s)
/-- GRAFT_LINK_TEST_DONE (09 R313). -/
def execGraftLinkTestDone (s : State) : Res := lift graftLinkTest s
/-- Both vector digests are held: equal, TESTED; unequal, FAILED (09 R313). -/
def graftJudge (s : Sw) : Sw :=
  let g := s.rcv.graft
  if g.st != .vectors then s
  else match g.own, g.peer with
    | some a, some b =>
      if a == b then completeOpt g.tok stOk (graftEnter .tested (s.modTestGraft (fun g => { g with tok := none })))
      else graftFail 4 g.partner stMismatch s
    | _, _ => s
/-- The vector set has been reduced: the digest goes to the partner. -/
def graftVectors (s : Sw) : Sw :=
  let g := s.rcv.graft
  if g.st != .vectors || g.own.isSome then s
  else
    let d := vectorDigest g.vseed
    graftJudge (sendGraftOn g.partner [graftCell 0 gkVdigest noShard 0 (le 8 d.toNat)] (s.modTestGraft (fun g => { g with own := some d })))
/-- GRAFT_VECTORS_DONE (09 R314). -/
def execGraftVectorsDone (s : State) : Res := lift graftVectors s
/-- 10 ms without the partner's digest. -/
def graftVectorEnd (s : Sw) : Sw :=
  let g := s.rcv.graft
  if g.st == .vectors && g.peer.isNone then graftFail 4 g.partner stTimeout s else s
/-- GRAFT_VECTOR_TIMEOUT (09 R313). -/
def execGraftVectorTimeout (s : State) : Res := lift graftVectorEnd s

/-! ### GRAFT_COPY and GRAFT cells (09 R313 to R317) -/

/-- GRAFT_COPY. -/
def graftCopyOp (b : Sub) (t : Tok) (s : Sw) : Sw :=
  let x := b.ctx
  let src := b.f 10 2
  let scope := b.bits 12 0 2
  let first := b.f 16 4
  guardDesc t [
    (!b.only [lctx, by_ 10 2, bi_ 12 0 2, by_ 16 4] || !s.active x ||
      (match s.ctx? x with | some c => !c.leadsToSwitch src || (decide (2 ≤ scope) && c.store.isNone) | none => true), stBad),
    (s.rcv.graft.st != .tested || (match s.ctx? x with | some c => c.graft.st != .idle | none => true), stDenied)]
    (fun s =>
      let s := s.modGraft x (fun g =>
        let keep := g.src == src && g.firstOp == first
        { g with st := .copying, src := src, scope := scope, firstOp := first, anchorBytes := [], anchorsDone := keep && g.anchorsDone,
                 images := if keep then g.images else [], stale := if keep then g.stale else 0, tok := some t, last := s.now })
      let s := graftStepEvent (some x) 6 s
      let left := match s.ctx? x with | some c => c.copyLeft | none => (false, [])
      let s := if left.1 then askCopy x noShard 0 s else s
      let s := each left.2 (fun k => askCopy x k left.2.length) s
      settle x (rejoin x (copyDone x s))) s
/-- GRAFT_COPY (09 R316). -/
def execGraftCopy (sub : Sub) (s : State) : Res := lift (runDesc 0x84 graftCopyOp sub) s
/-- A vector cell of a neighbour switch: VSTART runs the vectors of a VSEED once, VDIGEST brings the partner's digest. -/
def vectorCell (p : Nat) (c : Cell) (s : Sw) : Sw :=
  let v := c.q 8
  if c.f 0 1 = gkVstart then
    if SMap.find? p s.rcv.graft.ran == some v then s
    else sendGraftOn p [graftCell 0 gkVdigest noShard 0 (le 8 (vectorDigest v).toNat)] (s.modTestGraft (fun g => { g with ran := g.ran.set p v }))
  else if s.rcv.graft.st == .vectors && s.rcv.graft.partner == p then graftJudge (s.modTestGraft (fun g => { g with peer := some v }))
  else s
/-- A GRAFT cell arrives on port p: vectors belong to the switch, the rest to a context. They travel only between switches. -/
def graftCellIn (p : Nat) (c : Cell) (s : Sw) : Sw :=
  if c.tc == 5 && c.ctype == ctGraft && decide (c.f 0 1 ≤ 1) then
    let (oc, s) := ingress p c s
    match oc with
    | some c => if s.isSwitch p then vectorCell p c s else s
    | none => s
  else toContext p c (fun x q c s => settle x (rejoin x (copyCell x q c s))) s
/-- GRAFT_CELL_RECEIVE (09 R315). -/
def execGraftCellReceive (port : Nat) (cell : Cell) (s : State) : Res := lift (graftCellIn port cell) s
/-- GRAFT_COPY_TIMEOUT (09 R313). -/
def execGraftCopyTimeout (ctx : Nat) (s : State) : Res := lift (copyTimeout ctx) s

end Sys2Proof.Machine
end

