-- ==== Sys2Proof/Machine/Sha.lean ====
section
/-! DEFINITION. SHA-384 and the verification of ECDSA signatures over P-384 (16 R504, which names FIPS 186-5; 16 R506, R524). -/
namespace Sys2Proof.Machine

/-! ### SHA-384 -/

/-- The first 80 primes. -/
def primes80 : List Nat := (List.range 410).filter (fun n => decide (2 ≤ n) && (List.range n).all (fun d => decide (d < 2) || n % d != 0))
/-- The largest r below 2^72 with r^k at most x. -/
def rootFloor (k x : Nat) : Nat := (List.range 72).foldl (fun r i => if (r + 2 ^ (71 - i)) ^ k ≤ x then r + 2 ^ (71 - i) else r) 0
/-- Round constants: fractions of the cube roots of the first 80 primes. -/
def shaK : List Quad := primes80.map (fun p => BitVec.ofNat 64 (rootFloor 3 (p * 2 ^ 192)))
/-- Initial values: fractions of the square roots of the ninth to sixteenth primes. -/
def shaInit : List Quad := ((primes80.drop 8).take 8).map (fun p => BitVec.ofNat 64 (rootFloor 2 (p * 2 ^ 128)))
/-- A 64-bit word from 8 bytes, the first highest. -/
def beWord (l : List Byte) : Quad := BitVec.ofNat 64 (ofLe (l.take 8).reverse)
/-- Bytes of a number, highest first. -/
def beBytes (n x : Nat) : List Byte := (le n x).reverse
/-- The message schedule of a block: words W(t - 16) to W(t - 1), then each next one. -/
def shaSchedule (block : List Byte) : List Quad :=
  let w0 := (List.range 16).map (fun i => beWord (block.drop (8 * i)))
  (List.range 64).foldl (fun (w : List Quad) t =>
    let a := nth 0 w (t + 14)
    let b := nth 0 w (t + 1)
    let s1 := a.rotateRight 19 ^^^ a.rotateRight 61 ^^^ (a >>> 6)
    let s0 := b.rotateRight 1 ^^^ b.rotateRight 8 ^^^ (b >>> 7)
    w ++ [s1 + nth 0 w (t + 9) + s0 + nth 0 w t]) w0
/-- One round on the eight working words. -/
def shaRound (v : List Quad) (kw : Quad) : List Quad :=
  let a := nth 0 v 0
  let b := nth 0 v 1
  let c := nth 0 v 2
  let e := nth 0 v 4
  let f := nth 0 v 5
  let g := nth 0 v 6
  let t1 := nth 0 v 7 + (e.rotateRight 14 ^^^ e.rotateRight 18 ^^^ e.rotateRight 41) + ((e &&& f) ^^^ (~~~e &&& g)) + kw
  let t2 := (a.rotateRight 28 ^^^ a.rotateRight 34 ^^^ a.rotateRight 39) + ((a &&& b) ^^^ (a &&& c) ^^^ (b &&& c))
  [t1 + t2, a, b, c, nth 0 v 3 + t1, e, f, g]
/-- One block of 128 bytes. -/
def shaBlock (h : List Quad) (block : List Byte) : List Quad :=
  let kws := (shaK.zip (shaSchedule block)).map (fun e => e.1 + e.2)
  (h.zip (kws.foldl shaRound h)).map (fun e => e.1 + e.2)
/-- A message with its padding. -/
def shaPad (m : List Byte) : List Byte :=
  m ++ [0x80] ++ List.replicate ((239 - m.length % 128) % 128) 0 ++ beBytes 16 (8 * m.length)
/-- SHA-384 of a message, 48 bytes. -/
def sha384 (m : List Byte) : List Byte :=
  (((chunks 128 (shaPad m)).foldl shaBlock shaInit).take 6).flatMap (fun w => beBytes 8 w.toNat)

/-! ### ECDSA over P-384 -/

/-- The field prime. -/
def p384 : Nat := 2 ^ 384 - 2 ^ 128 - 2 ^ 96 + 2 ^ 32 - 1
/-- The order of the base point. -/
def n384 : Nat := 0xFFFFFFFFFFFFFFFFFFFFFFFFFFFFFFFFFFFFFFFFFFFFFFFFC7634D81F4372DDF581A0DB248B0A77AECEC196ACCC52973
/-- The base point. -/
def g384 : Nat × Nat :=
  (0xAA87CA22BE8B05378EB1C71EF320AD746E1D3B628BA79B9859F741E082542A385502F25DBF55296C3A545E3872760AB7,
   0x3617DE4A96262C6F5D9E98BF9292DC29F8F41DBD289A147CE9DA3113B5F0B8C00A60B1CE1D7E819D7A431D7C90EA0E5F)
/-- x^e modulo m, over the low 384 bits of e. -/
def powMod (m x e : Nat) : Nat := (List.range 384).foldl (fun r i => let r2 := r * r % m; if e.testBit (383 - i) then r2 * x % m else r2) 1
/-- The inverse modulo a prime. -/
def invMod (m x : Nat) : Nat := powMod m (x % m) (m - 2)
/-- The sum of two points; none is the point at infinity. -/
def addPoint (a b : Option (Nat × Nat)) : Option (Nat × Nat) :=
  match a, b with
  | none, _ => b
  | _, none => a
  | some (x1, y1), some (x2, y2) =>
    if x1 = x2 && (y1 + y2) % p384 = 0 then none
    else
      let k := if x1 = x2 then (3 * x1 * x1 + p384 - 3) * invMod p384 (2 * y1) % p384
        else (y2 + p384 - y1) * invMod p384 (x2 + p384 - x1) % p384
      let x := (k * k + 2 * p384 - x1 - x2) % p384
      some (x, (k * (x1 + p384 - x) + p384 - y1) % p384)
/-- A multiple of a point. -/
def mulPoint (k : Nat) (a : Nat × Nat) : Option (Nat × Nat) :=
  (List.range 384).foldl (fun r i => let r2 := addPoint r r; if k.testBit (383 - i) then addPoint r2 (some a) else r2) none
/-- A number from its bytes, highest first. -/
def ofBe (l : List Byte) : Nat := ofLe l.reverse
/-- The signature r, s (48 bytes each, highest first) over a message verifies under a public key. -/
def ecdsaOk (key : Nat × Nat) (m sig : List Byte) : Bool :=
  let r := ofBe (sig.take 48)
  let t := ofBe ((sig.drop 48).take 48)
  if sig.length != 96 || r = 0 || n384 ≤ r || t = 0 || n384 ≤ t then false
  else
    let w := invMod n384 t
    match addPoint (mulPoint (ofBe (sha384 m) * w % n384) g384) (mulPoint (r * w % n384) key) with
    | some (x, _) => x % n384 == r
    | none => false

end Sys2Proof.Machine
end

