-- ==== Sys2Proof/Machine/Security.lean ====
section
/-! DEFINITION. Firmware images, link keys, the management commands that act on the root of trust, and the buttons
(16 R504 to R511, R517 to R529, R533, R534). -/
namespace Sys2Proof.Machine

/-! ### Image slots (16 R504 to R506) -/

/-- Bytes of a slot. -/
def slotSize : Nat := 2 ^ 25
/-- What a byte of a slot reads as that nothing has written: erased, or as shipped (log 54). -/
def ImgSlot.blank (i : ImgSlot) (a : Nat) : Byte := if i.shipped then Config.shippedByte a else 0xFF
/-- Byte a of a slot. -/
def ImgSlot.byte (i : ImgSlot) (a : Nat) : Byte := i.bytes.getD a (i.blank a)
/-- Bytes a to a + n - 1 of a slot. -/
def ImgSlot.read (i : ImgSlot) (a n : Nat) : List Byte := (span a n).map i.byte
/-- A field of a slot's header. -/
def ImgSlot.num (i : ImgSlot) (a n : Nat) : Nat := ofLe (i.read a n)
/-- One byte written to an erased slot: a byte that reads as erased is not listed. -/
def putByte (a : Nat) (b : Byte) (m : SMap Byte) : SMap Byte := if b = 0xFF then m.erase a else m.set a b
/-- Bytes written at consecutive offsets. -/
def putBytes : Nat → List Byte → SMap Byte → SMap Byte
  | _, [], m => m
  | a, b :: l, m => putBytes (a + 1) l (putByte a b m)
/-- The canonical form of a slot's bytes: offsets strictly rising, no byte listed that reads as erased. -/
def Memory.wf (m : SMap Byte) : Bool := m.wf && m.all (fun e => e.2 != 0xFF)
/-- An erased slot. -/
def erasedSlot : ImgSlot := {}
/-- A slot with bytes written; it is not valid until it is verified. -/
def ImgSlot.write (a : Nat) (l : List Byte) (i : ImgSlot) : ImgSlot := { i with bytes := putBytes a l i.bytes, valid := false }
/-- Bytes of header and body. -/
def ImgSlot.extent (i : ImgSlot) : Nat := 256 + i.num 16 4
/-- The first test of R506 that the image fails, as SEC_BOOT_STATUS numbers it (R535). -/
def imageCause (f : Fuses) (i : ImgSlot) : Option Nat :=
  let key := i.num 12 1
  firstFail [
    (i.num 0 4 != 0x35545059, 1),
    (i.num 13 1 != 0xB0, 6),
    (decide (3 < key) || f.revoked.getLsbD key, 2),
    (!ecdsaOk (Config.vendorKey key) (i.read 0 112) (i.read 112 96), 3),
    (decide (slotSize < i.extent) || sha384 (i.read 256 (i.num 16 4)) != i.read 64 48, 4),
    (decide (i.num 8 4 < f.svnFloor) || decide (64 < i.num 8 4), 5),
    (i.num 15 1 / 16 != 0 || !allZero (i.read 20 44) || !allZero (i.read 208 48), 7)]
/-- A slot with the verdict of R506 and what its header states. -/
def verifySlot (f : Fuses) (i : ImgSlot) : ImgSlot :=
  let c := imageCause f i
  { i with
    valid := c.isNone, cause := c.getD 0, version := i.num 4 4, svn := i.num 8 4, keyIndex := i.num 12 1 % 4
    revoke := BitVec.ofNat 4 (i.num 15 1), cminor := i.num 14 1 }
/-- Change one slot. -/
def Sec.modSlot (b : Bool) (g : ImgSlot → ImgSlot) (c : Sec) : Sec := if b then { c with slotB := g c.slotB } else { c with slotA := g c.slotA }
/-- The inactive slot. -/
def Sec.other (c : Sec) : ImgSlot := c.slot (!c.activeB)

/-! ### Update sessions (16 R509) -/

/-- A session opens: the inactive slot is erased. -/
def openSession (bmc : Bool) (s : Sw) : Sw :=
  s.modSec (fun c => { c.modSlot (!c.activeB) (fun _ => erasedSlot) with session := some bmc })
/-- Bytes go into the inactive slot. -/
def writeImage (a : Nat) (l : List Byte) (s : Sw) : Sw := s.modSec (fun c => c.modSlot (!c.activeB) (ImgSlot.write a l))
/-- The inactive slot is verified and the session closes; event 0x0C03 (source as SEC_UPDATE numbers it: 0 PF, 1 BMC) or
0x0C01 follows. -/
def closeSession (f : Fuses) (bmc : Bool) (s : Sw) : Sw :=
  let s := s.modSec (fun c => { c.modSlot (!c.activeB) (verifySlot f) with session := none })
  let i := s.sec.other
  let slot := b2n (!s.sec.activeB)
  if i.ok f then raiseHeld 0x0C03 (le 1 slot ++ le 4 i.version ++ le 1 (b2n bmc)) s
  else raiseHeld 0x0C01 (le 1 slot ++ le 1 (i.why f)) (s.modSec (fun c => { c with rejection := i.why f }))
/-- FW_LOAD. -/
def fwLoadOp (f : Fuses) (b : Sub) (t : Tok) (s : Sw) : Sw :=
  let first := b.flag 8 0
  let off := b.f 12 4
  let len := b.f 40 4
  guardDesc t [
    (!b.only [bi_ 8 0 2, by_ 12 4, by_ 24 8, by_ 40 4] || off % 4096 != 0 || decide (slotSize < off + len), stBad),
    (if first then s.sec.session.isSome else s.sec.session != some false, stDenied)]
    (fun s => (if len = 0 then id else hostGuard b t) (fun s =>
      let s := onlyIf first (openSession false) s
      let s := writeImage off (padTo len (b.host.take len)) s
      if b.flag 8 1 then
        let s := closeSession f false s
        complete t (if s.sec.other.ok f then stOk else stBad) s
      else complete t stOk s) s) s
/-- FW_LOAD (R509). -/
def execFwLoad (sub : Sub) (s : State) : Res := lift (runDesc 0x90 (fwLoadOp s.fuses) sub) s
/-- UPDATE_SESSION_TIMEOUT (R509): 60 s have passed without a write. -/
def execUpdateSessionTimeout (s : State) : Res := lift (Sw.modSec (fun c => { c with session := none })) s

/-- A PLDM message of the BMC, with its PLDM completion code: 0x81 is ALREADY_IN_UPDATE_MODE, 0x80 NOT_IN_UPDATE_MODE, 0x82
DATA_OUT_OF_RANGE, 0x01 a failed verification (R509, DSP0267; log 57). In recovery a verified image starts selection again (R507). -/
def pldmOp (f : Fuses) (p : PldmStep) (s : Sw) : Sw :=
  let answer (code : Nat) (s : Sw) : Sw := s.out (.reply true (le 1 code))
  match p with
  | .requestUpdate => if s.sec.session.isSome then answer 0x81 s else answer 0 (openSession true s)
  | .data offset bytes =>
    if s.sec.session != some true then answer 0x80 s
    else if slotSize < offset + bytes.length then answer 0x82 s
    else answer 0 (writeImage offset bytes s)
  | .verify =>
    if s.sec.session != some true then answer 0x80 s
    else
      let s := closeSession f true s
      if s.sec.other.ok f then (if s.sec.recovery then afterRoot f (answer 0 s) else answer 0 s) else answer 1 s
  | .cancel => if s.sec.session != some true then answer 0x80 s else answer 0 (s.modSec (fun c => { c with session := none }))
/-- PLDM_FIRMWARE_UPDATE (R509). -/
def execPldmFirmwareUpdate (step : PldmStep) (s : State) : Res := lift (fun w => onlyIf w.i3cServed (pldmOp s.fuses step) w) s

/-! ### Activation (16 R510) -/

/-- Why an activation is refused: one that meets a start-up is discarded (R476), an open session, an inactive slot that is not
valid. -/
def activateChecks (f : Fuses) (s : Sw) : List (Bool × Nat) :=
  [(s.starting || s.sec.session.isSome, stDenied), (!s.sec.other.ok f, stBad)]
/-- ACTIVE becomes the other slot, on trial. -/
def activate (s : Sw) : Sw := s.modSec (fun c => { c with activeB := !c.activeB, trial := true, tries := 0 })
/-- FW_ACTIVATE: the warm reset begins at the completion. -/
def fwActivateOp (f : Fuses) (b : Sub) (t : Tok) (s : Sw) : Sw :=
  guardDesc t ((!b.only [], stBad) :: activateChecks f s) (fun s => warmReset 4 (complete t stOk (activate s))) s
/-- FW_ACTIVATE (R510). -/
def execFwActivate (sub : Sub) (s : State) : Res := lift (runDesc 0x91 (fwActivateOp s.fuses) sub) s
/-- PLDM ActivateFirmware acts when it asks for self-contained activation; its answer is the status (log 57). -/
def activateFirmwareOp (f : Fuses) (selfContained : Bool) (s : Sw) : Sw :=
  let answer (st : Nat) (s : Sw) : Sw := s.out (.reply true (le 1 st))
  if !selfContained then answer stOk s
  else
    match firstFail (activateChecks f s) with
    | some st => answer st s
    | none => warmReset 4 (answer stOk (activate s))
/-- ACTIVATE_FIRMWARE (R510). -/
def execActivateFirmware (selfContained : Bool) (s : State) : Res :=
  lift (fun w => onlyIf w.i3cServed (activateFirmwareOp s.fuses selfContained) w) s
/-- The management command FW_ACTIVATE. -/
def fwActivateAct : MgmtAct := fun _ s => mgmtSw (activateChecks s.fuses) activate s
/-- MGMT_FW_ACTIVATE (R510, R528). -/
def execMgmtFwActivate (via : Option Sub) (s : State) : Res :=
  .next (mgmtThen via 0x06 0 0 (fun _ => fwActivateAct) (fun _ _ s => { s with sw := warmReset 4 s.sw }) s)

/-! ### Link keys (16 R521) -/

/-- INSTALL or ERASE meets the transmit slot or the slot of PARTNER_KP of an ENGAGED port, or debug is open. -/
def keyDenied (s : Sw) (n slot action : Nat) : Bool :=
  let p := (s.port n).sec
  s.sec.debugOpen || (p.engaged && action != 1 && (p.txSlot == slot || p.partnerKp == slot))
/-- The action, and its event. -/
def keyAct (n slot action : Nat) (rec : List Byte) (s : Sw) : Sw :=
  let s := s.modPSec n (fun p => match action with
    | 0 => p.setKey slot (some { key := BitVec.ofNat 256 (bytesAt rec 0 32), salt := BitVec.ofNat 32 (bytesAt rec 32 4), txCount := 0, x := 0, fails := 0 })
    | 1 => { p with txSlot := slot }
    | _ => p.setKey slot none)
  raiseHeld 0x0C11 (le 2 n ++ le 1 slot ++ le 1 action) s
/-- LINK_KEY. Every port of the variant is FL3-capable. -/
def linkKeyOp (b : Sub) (t : Tok) (s : Sw) : Sw :=
  let n := b.f 8 2
  let slot := b.bits 10 0 1
  let action := b.f 11 1
  let install := action == 0
  guardDesc t [
    (!b.only ([by_ 8 2, bi_ 10 0 1, by_ 11 1] ++ (if install then [by_ 24 8] else [])) || !s.portActive n || decide (2 < action) ||
      (action == 1 && ((s.port n).sec.key? slot).isNone), stBad)]
    (fun s => (if install then hostGuard b t else id) (fun s =>
      guardDesc t [
        (install && !allZero ((b.host.drop 36).take 28), stBad),
        (keyDenied s n slot action, stDenied)]
        (fun s => complete t stOk (keyAct n slot action b.host s)) s) s) s
/-- LINK_KEY (R521). -/
def execLinkKey (sub : Sub) (s : State) : Res := lift (runDesc 0x92 linkKeyOp sub) s

/-! ### Management commands (16 R511, R522, R524, R528) -/

/-- RESET: 1 WARM, 2 COLD, 3 POWER_OFF; a warm request during start-up is denied (R476). -/
def resetAct (kind : Nat) : MgmtAct := fun _ s =>
  mgmtSw (fun w => [(kind = 0 || decide (3 < kind), stBad), (kind == 1 && w.starting, stDenied)]) id s
/-- The reset of a RESET command, cause 2 from the PF, 3 from the BMC. -/
def resetAfter (kind : Nat) : MgmtAfter := fun pf s =>
  let cause := if pf then 2 else 3
  { s with sw := match kind with
    | 1 => warmReset cause s.sw
    | 2 => coldReset cause s.sw
    | _ => powerOff s.sw }
/-- RESET (R528). -/
def execReset (via : Option Sub) (kind : Nat) (s : State) : Res := .next (mgmtThen via 0x01 1 kind resetAct resetAfter s)

/-- PROFILE: BMC only. -/
def profileAct (v : Nat) : MgmtAct := fun pf s =>
  mgmtSw (fun _ => [(decide (3 < v), stBad), (pf, stDenied)]) (fun w => profileAdjust (w.modPwr (fun p => { p with bmcProfile := v }))) s
/-- PROFILE (R528, R529). -/
def execProfile (via : Option Sub) (value : Nat) (s : State) : Res := .next (mgmt via 0x02 1 value profileAct s)

/-- CHANNEL_CLEAR: the recorded failure of a channel is removed (11 R384). -/
def channelClearAct (stack channel : Nat) : MgmtAct := fun _ s =>
  mgmtSw (fun w => [(!w.stackPopulated stack || decide (31 < channel), stBad)])
    (Sw.modStack stack (fun t => { t with failed := clrBit t.failed channel })) s
/-- CHANNEL_CLEAR (R528): the stack in the first byte, the channel in the second (log 50). -/
def execChannelClear (via : Option Sub) (stack channel : Nat) (s : State) : Res :=
  .next (mgmt via 0x05 2 (stack % 256 + 256 * channel) (fun v => channelClearAct (v % 256) (v / 256)) s)

/-- SVN_ADVANCE: the floor rises to the running image's SVN, and the keys that the image names are revoked (R511). -/
def svnAdvanceAct : MgmtAct := fun _ s =>
  let c := s.sw.sec
  match firstFail [(c.trial || c.runRevoke.getLsbD c.runKey || s.fuses.svnFloor == c.runSvn, stDenied)] with
  | some st => (st, s)
  | none =>
    let f := { s.fuses with svnFloor := max s.fuses.svnFloor c.runSvn, revoked := s.fuses.revoked ||| c.runRevoke }
    (stOk, { s with fuses := f, sw := raiseHeld 0x0C05 (le 4 f.svnFloor ++ le 1 c.runRevoke.toNat) s.sw })
/-- SVN_ADVANCE (R511). -/
def execSvnAdvance (via : Option Sub) (s : State) : Res := .next (mgmt via 0x07 0 0 (fun _ => svnAdvanceAct) s)

/-- LOCATE: 0 off, 1 on. -/
def locateAct (v : Nat) : MgmtAct := fun _ s =>
  mgmtSw (fun _ => [(decide (1 < v), stBad)]) (Sw.modSec (fun c => { c with locate := v == 1 })) s
/-- LOCATE (R528). -/
def execLocate (via : Option Sub) (value : Nat) (s : State) : Res := .next (mgmt via 0x08 1 value locateAct s)

/-- What the debug port can offer (R523). -/
inductive DebugAccess where
  | boundaryScan | pipCore | scan | memory
  deriving DecidableEq, Repr
/-- The debug port offers an access: core debug, scan and memory only while DEBUG_OPEN is set; in PRODUCTION the boundary-scan
instructions only while MOD_RESET_N is held low (R523; other lifecycle states: DESIGN CHOICE, log 127). -/
def debugOffers (a : DebugAccess) (s : State) : Bool :=
  match a with
  | .boundaryScan => s.fuses.lifecycle != 1 || !s.sw.glb.modResetN
  | _ => s.sw.sec.debugOpen

/-- What a debug token signs: DEVICE_ID, then the nonce, 8 bytes each (R524; byte order R6). -/
def debugMessage (s : Sw) : List Byte := le 8 Config.deviceId.toNat ++ le 8 s.sec.nonce.toNat
/-- DEBUG_UNLOCK: after three invalid tokens every further one is refused until the next cold reset (R524). -/
def debugUnlockAct (token : List Byte) : MgmtAct := fun _ s =>
  if 3 ≤ s.sw.sec.badTokens then (stDenied, s)
  else if ecdsaOk Config.debugKey (debugMessage s.sw) token then (stOk, { s with sw := s.sw.modSec (fun c => { c with unlockNext := true }) })
  else
    let w := s.sw.modSec (fun c => { c with badTokens := c.badTokens + 1 })
    (stDenied, { s with sw := raiseHeld 0x0C21 (le 4 w.sec.badTokens) w })
/-- A valid token is followed by a cold reset (R524). -/
def debugUnlockAfter : MgmtAfter := fun pf s => { s with sw := coldReset (if pf then 2 else 3) s.sw }
/-- DEBUG_UNLOCK (R524). -/
def execDebugUnlock (via : Option Sub) (token : List Byte) (s : State) : Res := .next (mgmtToken via 0x09 token debugUnlockAct debugUnlockAfter s)

/-- LIFECYCLE_RETURN: a valid token moves the part to RETURNED (R522); the status of an invalid one is DENIED (log 55). -/
def lifecycleReturnAct (token : List Byte) : MgmtAct := fun _ s =>
  if Config.returnToken Config.deviceId token then (stOk, { s with fuses := { s.fuses with lifecycle := 2 } }) else (stDenied, s)
/-- LIFECYCLE_RETURN (R522). -/
def execLifecycleReturn (via : Option Sub) (token : List Byte) (s : State) : Res :=
  .next (mgmtToken via 0x0A token lifecycleReturnAct noAfter s)

/-! ### I3C address and the attention button (16 R525, R534) -/

/-- ENTDAA (R525): the target takes a dynamic address of 7 bits. -/
def execEntdaa (address : Nat) (s : State) : Res :=
  lift (fun w => onlyIf w.i3cServed (Sw.modSec (fun c => { c with i3cAddr := some (address % 128) })) w) s
/-- A short press of ATTN_BTN_N toggles LOCATE (R534). -/
def attnShortOp (s : Sw) : Sw := onlyIf s.i3cServed (fun s => buttonEvent 0xFF 1 (s.modSec (fun c => { c with locate := !c.locate }))) s
/-- ATTN_SHORT_PRESS (R534). -/
def execAttnShortPress (s : State) : Res := lift attnShortOp s
/-- A long press of ATTN_BTN_N: a request of power-off while BTN_ENABLE and BTN_POWER are 1; in recovery it does not act (R534). -/
def attnLongOp (s : Sw) : Sw :=
  if s.sec.recovery || !s.i3cServed then s
  else
    let s := buttonEvent 0xFF 2 s
    onlyIf (s.sec.btnEnable && s.sec.btnPower) powerOff s
/-- ATTN_LONG_PRESS (R534). -/
def execAttnLongPress (s : State) : Res := lift attnLongOp s

end Sys2Proof.Machine
end

