-- ==== Sys2Proof/Machine/Spdm.lean ====
section
/-! DEFINITION. The SPDM responder (16 R512 to R514): one connection a transport, in the message layouts of DMTF DSP0274 versions
1.1 and 1.2 (PRESUMED, log 56). A message is the SPDM message without its MCTP header. -/
namespace Sys2Proof.Machine

/-! ### Measurements and certificates (16 R513, R514) -/

/-- Measurement 2: the digest of the running image, header and body. -/
def measure2 (s : Sw) : List Byte :=
  let i := s.sec.slot s.sec.locked.slotB
  sha384 (i.read 0 (min slotSize i.extent))
/-- Measurement 1. -/
def measure1 (s : Sw) : List Byte :=
  let l := s.sec.locked
  (List.range 48).map (Config.bootDigest l.revoked.toNat l.svnFloor l.lifecycle)
/-- Measurement 3: FW_VERSION, SVN, slot, TRIAL, 12 bytes (field sizes and order of bytes: log 56). -/
def measure3 (s : Sw) : List Byte :=
  le 4 s.sec.runVersion ++ le 4 s.sec.runSvn ++ le 1 (b2n s.sec.locked.slotB) ++ le 1 (b2n s.sec.locked.trial) ++ le 2 0
/-- Measurement 4: lifecycle, DEBUG_OPEN, invalid-token count, 4 bytes (log 56). -/
def measure4 (f : Fuses) (s : Sw) : List Byte := le 1 f.lifecycle ++ le 1 (b2n s.sec.debugOpen) ++ le 1 s.sec.badTokens ++ le 1 0
/-- A measurement block: index, DMTF specification, size, value type (bit 7: raw), value size, value. -/
def measureBlock (index kind : Nat) (v : List Byte) : List Byte :=
  le 1 index ++ le 1 1 ++ le 2 (3 + v.length) ++ le 1 kind ++ le 2 v.length ++ v
/-- The measurement block of an index. -/
def measureOf (f : Fuses) (s : Sw) (k : Nat) : List Byte :=
  match k with
  | 1 => measureBlock 1 0x00 (measure1 s)
  | 2 => measureBlock 2 0x01 (measure2 s)
  | 3 => measureBlock 3 0x83 (measure3 s)
  | _ => measureBlock 4 0x82 (measure4 f s)
/-- Slot 0 holds the chain, but for a RETURNED part. -/
def chainHeld (f : Fuses) : Bool := f.lifecycle != 2
/-- The chain of slot 0. -/
def certChain (s : Sw) : List Byte := Config.certChain (measure2 s)
/-- A signature of 96 bytes by the alias key. -/
def aliasSign (s : Sw) (msg : List Byte) : List Byte := (List.range 96).map (Config.aliasSign (measure2 s) s.freeCtr msg)

/-! ### Connections (16 R512) -/

/-- The connection of a transport. -/
def Sec.spdm (c : Sec) (i3c : Bool) : Spdm := if i3c then c.spdmI3c else c.spdmPcie
/-- Change the connection of a transport. -/
def modSpdm (i3c : Bool) (g : Spdm → Spdm) (s : Sw) : Sw :=
  s.modSec (fun c => if i3c then { c with spdmI3c := g c.spdmI3c } else { c with spdmPcie := g c.spdmPcie })
/-- A transport is served: I3C from ROOT_OF_TRUST on but for recovery, PCIe from PORTS (R507, R525). -/
def spdmServed (i3c : Bool) (s : Sw) : Bool :=
  if i3c then s.i3cServed && !s.sec.recovery else s.host.linkUp && (s.glb.stage == 4 || s.glb.stage == 5)
/-- The version of a request or answer: 1.1 stands for a connection that has none. -/
def Spdm.ver (c : Spdm) : Nat := if c.version = 0 then 0x11 else c.version
/-- Answer a request, and add both to the transcript. -/
def spdmAnswer (i3c : Bool) (req resp : List Byte) (g : Spdm → Spdm) (s : Sw) : Sw :=
  (modSpdm i3c (fun c => { g c with transcript := (g c).transcript ++ req ++ resp }) s).out (.reply i3c resp)
/-- An ERROR answer: 1 invalid request, 4 unexpected request, 0x41 version mismatch. -/
def spdmError (i3c : Bool) (code : Nat) (s : Sw) : Sw := s.out (.reply i3c (le 1 (s.sec.spdm i3c).ver ++ le 1 0x7F ++ le 1 code ++ le 1 0))
/-- The error that a request of a negotiated connection meets before its own checks: order, version, slot, length. -/
def spdmCheck (i3c : Bool) (step len : Nat) (msg : List Byte) (s : Sw) : Option Nat :=
  let c := s.sec.spdm i3c
  firstFail [
    (decide (msg.length < len), 0x01),
    (c.step != step, 0x04),
    (if step = 1 then byteAt msg 0 != 0x11 && byteAt msg 0 != 0x12 else byteAt msg 0 != c.version, 0x41)]
/-- A request that is served, with its checks. -/
def spdmDo (i3c : Bool) (step len : Nat) (msg : List Byte) (bad : Bool) (g : Sw → Sw) (s : Sw) : Sw :=
  if !spdmServed i3c s then s
  else
    match spdmCheck i3c step len msg s with
    | some e => spdmError i3c e s
    | none => if bad then spdmError i3c 0x01 s else g s
/-- The header of an answer. -/
def spdmHead (v code p1 p2 : Nat) : List Byte := le 1 v ++ le 1 code ++ le 1 p1 ++ le 1 p2

/-! ### Requests (16 R512 to R514) -/

/-- GET_VERSION: a new connection begins. -/
def getVersionOp (i3c : Bool) (msg : List Byte) (s : Sw) : Sw :=
  if !spdmServed i3c s then s
  else if byteAt msg 0 != 0x10 then spdmError i3c 0x41 s
  else spdmAnswer i3c msg (spdmHead 0x10 0x04 0 0 ++ le 1 0 ++ le 1 2 ++ le 2 0x1100 ++ le 2 0x1200) (fun _ => { step := 1 }) s
/-- GET_VERSION (R512). -/
def execGetVersion (i3c : Bool) (msg : List Byte) (s : State) : Res := lift (getVersionOp i3c msg) s

/-- GET_CAPABILITIES: CERT, CHAL, and MEAS with signature. -/
def getCapabilitiesOp (i3c : Bool) (msg : List Byte) (s : Sw) : Sw :=
  let v := byteAt msg 0
  spdmDo i3c 1 4 msg false (spdmAnswer i3c msg
    (spdmHead v 0x61 0 0 ++ le 1 0 ++ le 1 (Config.spdmNumber 0) ++ le 2 0 ++ le 4 0x16 ++
      (if v = 0x12 then le 4 (Config.spdmNumber 1) ++ le 4 (Config.spdmNumber 2) else []))
    (fun c => { c with step := 2, version := v })) s
/-- GET_CAPABILITIES (R512). -/
def execGetCapabilities (i3c : Bool) (msg : List Byte) (s : State) : Res := lift (getCapabilitiesOp i3c msg) s

/-- NEGOTIATE_ALGORITHMS: ECDSA P-384, SHA-384, and SHA-384 for measurements; a requester that offers another set alone is
refused. -/
def negotiateOp (i3c : Bool) (msg : List Byte) (s : Sw) : Sw :=
  spdmDo i3c 2 16 msg (!(bytesAt msg 8 4).testBit 7 || !(bytesAt msg 12 4).testBit 1) (spdmAnswer i3c msg
    (spdmHead (byteAt msg 0) 0x63 0 0 ++ le 2 36 ++ le 1 1 ++ le 1 0 ++ le 4 0x4 ++ le 4 0x80 ++ le 4 0x2 ++ le 12 0 ++ le 1 0 ++ le 1 0 ++ le 2 0)
    (fun c => { c with step := 3 })) s
/-- NEGOTIATE_ALGORITHMS (R512). -/
def execNegotiateAlgorithms (i3c : Bool) (msg : List Byte) (s : State) : Res := lift (negotiateOp i3c msg) s

/-- GET_DIGESTS: the digest of the chain in slot 0; none in a RETURNED part. -/
def getDigestsOp (f : Fuses) (i3c : Bool) (msg : List Byte) (s : Sw) : Sw :=
  spdmDo i3c 3 4 msg false (spdmAnswer i3c msg
    (spdmHead (byteAt msg 0) 0x01 0 (b2n (chainHeld f)) ++ (if chainHeld f then sha384 (certChain s) else [])) id) s
/-- GET_DIGESTS (R512). -/
def execGetDigests (i3c : Bool) (msg : List Byte) (s : State) : Res := lift (getDigestsOp s.fuses i3c msg) s

/-- GET_CERTIFICATE: a portion of the chain of slot 0; slots 1 to 7 are empty. -/
def getCertificateOp (f : Fuses) (i3c : Bool) (msg : List Byte) (s : Sw) : Sw :=
  let chain := certChain s
  let off := bytesAt msg 4 2
  let part := (chain.drop off).take (bytesAt msg 6 2)
  spdmDo i3c 3 8 msg (byteAt msg 2 != 0 || !chainHeld f || decide (chain.length ≤ off)) (spdmAnswer i3c msg
    (spdmHead (byteAt msg 0) 0x02 0 0 ++ le 2 part.length ++ le 2 (chain.length - off - part.length) ++ part) id) s
/-- GET_CERTIFICATE (R513). -/
def execGetCertificate (i3c : Bool) (msg : List Byte) (s : State) : Res := lift (getCertificateOp s.fuses i3c msg) s

/-- 32 bytes drawn for a nonce. -/
def drawNonce (s : Sw) : List Byte × Sw :=
  let (a, s) := s.draw
  let (b, s) := s.draw
  let (c, s) := s.draw
  let (d, s) := s.draw
  (le 8 a.toNat ++ le 8 b.toNat ++ le 8 c.toNat ++ le 8 d.toNat, s)
/-- The digest of the measurements that a CHALLENGE asks for: every block for 0xFF, measurements 1 and 2 as those of the trusted
computing base for 1 (log 56), nothing for 0. -/
def summaryHash (f : Fuses) (s : Sw) (kind : Nat) : List Byte :=
  if kind = 0 then []
  else sha384 ((if kind = 1 then [1, 2] else [1, 2, 3, 4]).flatMap (measureOf f s))
/-- CHALLENGE: an answer signed by the alias key. -/
def challengeOp (f : Fuses) (i3c : Bool) (msg : List Byte) (s : Sw) : Sw :=
  let kind := byteAt msg 3
  spdmDo i3c 3 36 msg (byteAt msg 2 != 0 || !chainHeld f || (kind != 0 && kind != 1 && kind != 0xFF)) (fun s =>
    let (nonce, s) := drawNonce s
    let body := spdmHead (byteAt msg 0) 0x03 0 1 ++ sha384 (certChain s) ++ nonce ++ summaryHash f s kind ++ le 2 0
    let sig := aliasSign s ((s.sec.spdm i3c).transcript ++ msg ++ body)
    spdmAnswer i3c msg (body ++ sig) id (s.drawn 1)) s
/-- CHALLENGE (R513). -/
def execChallenge (i3c : Bool) (msg : List Byte) (s : State) : Res := lift (challengeOp s.fuses i3c msg) s

/-- Indexes that GET_MEASUREMENTS asks for: none for 0, all for 0xFF, else one. -/
def measureIndexes (op : Nat) : List Nat := if op = 0 then [] else if op = 0xFF then [1, 2, 3, 4] else [op]
/-- GET_MEASUREMENTS: the blocks asked for, signed when the request asks so. -/
def getMeasurementsOp (f : Fuses) (i3c : Bool) (msg : List Byte) (s : Sw) : Sw :=
  let signed := byteAt msg 2 % 2 == 1
  let op := byteAt msg 3
  spdmDo i3c 3 (if signed then 37 else 4) msg
    ((op != 0xFF && decide (4 < op)) || (signed && (byteAt msg 36 % 16 != 0 || !chainHeld f))) (fun s =>
    let blocks := (measureIndexes op).map (measureOf f s)
    let rec_ := blocks.flatten
    let (nonce, s) := drawNonce s
    let body := spdmHead (byteAt msg 0) 0x60 (if op = 0 then 4 else 0) 0 ++ le 1 blocks.length ++ le 3 rec_.length ++ rec_ ++ nonce ++ le 2 0
    let sig := if signed then aliasSign s ((s.sec.spdm i3c).transcript ++ msg ++ body) else []
    spdmAnswer i3c msg (body ++ sig) id (s.drawn (b2n signed))) s
/-- GET_MEASUREMENTS (R514). -/
def execGetMeasurements (i3c : Bool) (msg : List Byte) (s : State) : Res := lift (getMeasurementsOp s.fuses i3c msg) s

end Sys2Proof.Machine
end

