-- ==== Sys2Proof/Machine/RegRead.lean ====
section
/-! DEFINITION. What a read of each register of BAR0 and of a VF's identity page returns, the halves that LO reads latch, REG_READ
and the sensors (00 R8; 03 R86; 05 R190; 11 R375, R396, R397; 12 R409, R420; 13 R462, R463; 14 R471, R483; 15 R496, R502; 16 R526,
R527, R535; 18 R541 to R556). -/
namespace Sys2Proof.Machine

/-- A register: what it reads, its RSV bits, the high half that a read of it latches, and whether it reads a latched half. -/
structure RegView where
  /-- Value. -/
  val : Nat
  /-- RSV bits. -/
  rsv : Nat := 0
  /-- High half latched by a read of this LO register. -/
  hi : Option Nat := none
  /-- A HI register: it reads the latched half. -/
  latched : Bool := false
  deriving DecidableEq, Repr

/-- Bits of fields, each a lowest bit and a width. -/
def fieldBits (fs : List (Nat × Nat)) : Nat := fs.foldl (fun a f => a + place (2 ^ f.2 - 1) f.1) 0
/-- A register whose fields are listed; every other bit is RSV. -/
def view (v : Nat) (fs : List (Nat × Nat)) : Option RegView := some { val := v % 2 ^ 32 &&& fieldBits fs, rsv := 2 ^ 32 - 1 - fieldBits fs }
/-- A register of 32 bits. -/
def full (v : Nat) : Option RegView := some { val := v % 2 ^ 32 }
/-- The LO register of a value. -/
def loView (v : Nat) : Option RegView := some { val := v % 2 ^ 32, hi := some (v / 2 ^ 32) }
/-- The HI register of a value with `w` bits above 31. -/
def hiView (w : Nat) : Option RegView := some { val := 0, rsv := 2 ^ 32 - 2 ^ w, latched := true }
/-- A signed value of `n` bits as the register holds it. -/
def bitsOfInt (n : Nat) (x : Int) : Nat := (x % (2 ^ n : Int)).toNat

/-! ### GLB (14 R483; 18 R547 to R549) -/

/-- FEATURES. -/
def Sw.features (s : Sw) : Nat := ((List.range 7).filter s.feature).foldl (fun a k => a + 2 ^ k) 0
/-- GLB_CONTRACT. -/
def Sw.contract (s : Sw) : Nat := place 2 24 + place (2 ^ (s.sec.runMinor + 1) - 1) 16 + place s.sec.runMinor 8 + 3
/-- State of a route version. -/
def VerSt.code (v : VerSt) : Nat := match v with | .standby => 0 | .armed => 1 | .active => 2 | .draining => 3
/-- GLB_RESOURCES. -/
def Sw.resources (s : Sw) : Nat :=
  place ((List.range 2).filter (fun p => (s.root p).use)).length 24 + place ((List.range 4).foldl (fun a g => a + s.stacksIn g) 0) 16 +
    place s.activeTiles.length 8 + s.ports4L
/-- GLB block. -/
def glbView (s : Sw) (off : Nat) : Option RegView :=
  let g := s.glb
  match off with
  | 0x00 => view (0x0005B000 + g.variant) [(16, 16), (8, 8), (0, 4)]
  | 0x04 => loView Config.deviceId.toNat
  | 0x08 => hiView 32
  | 0x0C => full s.sec.runVersion
  | 0x10 => full s.contract
  | 0x14 => view s.resources [(24, 2), (16, 5), (8, 8), (0, 8)]
  | 0x18 => view s.features [(0, 16)]
  | 0x1C => view ((List.range 4).foldl (fun a k => a + place (s.spareCount k) (8 * k)) 0) [(0, 3), (8, 3), (16, 3), (24, 3)]
  | 0x20 => view g.level [(0, 3)]
  | 0x24 => view (place s.fab.epoch 4 + place s.fab.v1.st.code 2 + s.fab.v0.st.code) [(0, 5)]
  | 0x28 => full s.fab.gen
  | 0x2C => full (if s.fab.v0.st == .armed || s.fab.v1.st == .armed then s.fab.armedGen else 0)
  | 0x30 => full g.discards.toNat
  | 0x34 => view g.discardAddr.toNat [(0, 27)]
  | 0x38 => view 0 []
  | 0x3C => full g.scratch.toNat
  | 0x200 => view 0 [(24, 8), (0, 2)]
  | 0x204 => view (place g.stage 20 + place g.cause 8 + g.kind) [(20, 4), (8, 8), (0, 4)]
  | 0x208 => full (place g.colds.toNat 16 + g.warms.toNat)
  | 0x20C => view 0 [(0, 8)]
  | 0x210 => view 0 [(0, 7)]
  | 0x214 => view g.clockReq [(0, 2)]
  | 0x218 => view (place (b2n (g.clockReq != g.clockTaken)) 31 + place (b2n g.timeLock) 12 + place g.coreLock.toNat 8 + place g.clockLimit 4 +
      g.clockActive) [(31, 1), (12, 1), (8, 4), (4, 2), (0, 2)]
  | 0x21C => full g.timeouts.toNat
  | 0x220 => full g.timeoutAddr.toNat
  | 0x224 => view g.startTime.toNat [(0, 16)]
  | _ => none

/-! ### PWR, TIME, SEC (05 R190; 15 R496; 16 R535) -/

/-- The hottest tile of grove g, whole degrees. -/
def Sw.hottest (s : Sw) (g : Nat) : Int :=
  ((span (36 * g) 36).filter (fun p => (s.tile p).role != .fused)).foldl (fun a p => max a ((s.tile p).temp.toInt / 8)) (-128)
/-- PWR block, offset within it. -/
def pwrView (s : Sw) (off : Nat) : Option RegView :=
  let p := s.pwr
  if off = 0 then view p.profile [(0, 2)]
  else if off = 4 then view (place (bitsOf p.ibcOut).length 9 + place (b2n (decide (p.want < p.inForce))) 8 + place (ibcFloor p.ibcOut) 6 +
    place p.limit 4 + place p.thermal 2 + p.inForce) [(0, 13)]
  else if off = 8 then view (min p.vin 65535) [(0, 16)]
  else if off = 0xC then view (min p.iin 65535) [(0, 16)]
  else if off = 0x10 then view (min p.pin 65535) [(0, 16)]
  else if off < 0x24 then
    let g := (off - 0x14) / 4
    view (min (p.grove.getD g 0) 65535 + place (bitsOfInt 8 (s.hottest g)) 16) [(0, 24)]
  else if off = 0x24 then view (min p.optics 65535) [(0, 16)]
  else if off = 0x28 then view (min p.stackW 65535) [(0, 16)]
  else if off = 0x2C then view (p.inlet.toNat + place p.outlet.toNat 8) [(0, 16)]
  else if off = 0x30 then loView p.energy.toNat
  else if off = 0x34 then hiView 32
  else if off = 0x38 then view p.vinWarn [(0, 16)]
  else if off < 0x40 then none
  else if off < 0x40 + 4 * 24 then view (p.stackTemp.getD ((off - 0x40) / 4) 0).toNat [(0, 8)]
  else if off < 0x100 then none
  else if off < 0x100 + 4 * 25 then
    let r := (off - 0x100) / 4
    let e := p.regs.getD r (0, 0)
    view (e.1 % 65536 + place e.2.toNat 16 + place (b2n (!(decide (r < 8) && p.ibcOut.getLsbD r))) 24) [(0, 25)]
  else none
/-- TIME block. -/
def timeView (s : Sw) (off : Nat) : Option RegView :=
  let t := s.time
  match off with
  | 0x00 => loView t.gtc.toNat
  | 0x04 => hiView 32
  | 0x08 => view (place t.active 16 + t.period) [(16, 4), (0, 4)]
  | 0x0C => view (place t.syncLog2 24 + place t.prio 16 + place t.domain 8 + place (b2n t.outEnable) 2 + t.source) [(24, 5), (8, 16), (0, 3)]
  | 0x10 => view (place (s.announced.2.2 % 256) 16 + place s.sync.src.portNo 4 + place s.sync.src.kind 2 + s.sync.state.code) [(0, 24)]
  | 0x14 => full (bitsOfInt 32 t.offset)
  | 0x18 => view t.inDelay [(0, 24)]
  | 0x1C => view t.lead [(0, 16)]
  | 0x20 => view t.schedMax [(0, 7)]
  | 0x24 => full t.overruns.toNat
  | 0x28 => full t.defers.toNat
  | 0x2C => full t.lateLaunches.toNat
  | 0x30 => full t.steps.toNat
  | _ => none
/-- SEC block. -/
def secView (f : Fuses) (s : Sw) (off : Nat) : Option RegView :=
  let c := s.sec
  if off = 0 then view (b2n c.activeB + place (b2n c.trial) 1 + place c.tries 2 + place (b2n (c.slotA.ok f)) 4 + place (b2n (c.slotB.ok f)) 5 +
    place c.rejection 8) [(0, 6), (8, 8)]
  else if off = 4 then full (if c.other.ok f then c.other.version else 0)
  else if off = 8 then view (f.svnFloor % 256 + place (c.runSvn % 256) 8 + place f.revoked.toNat 16) [(0, 20)]
  else if off = 0xC then view (f.lifecycle + place (b2n c.debugOpen) 2 + place c.badTokens 3) [(0, 5)]
  else if off = 0x10 then loView c.nonce.toNat
  else if off = 0x14 then hiView 32
  else if off = 0x18 then view (b2n c.locate + place (b2n c.btnEnable) 1 + place (b2n c.btnPower) 2 + place s.pwr.bmcProfile 4) [(0, 3), (4, 2)]
  else if off = 0x1C then view (b2n c.session.isSome + place (b2n (c.session == some true)) 1) [(0, 2)]
  else if 0x800 ≤ off then
    let p := (s.port ((off - 0x800) / 4)).sec
    view (b2n p.mode + place (b2n p.key0.isSome) 1 + place (b2n p.key1.isSome) 2 + place p.txSlot 3 + place p.partnerKp 4 + place (b2n p.engaged) 5 +
      place p.tagFail.toNat 16) [(0, 6), (16, 16)]
  else none

/-! ### RING and EVQ (12 R409, R420) -/

/-- STATE of RING_STATUS. -/
def RingSt.code (t : RingSt) : Nat := match t with | .disabled => 0 | .running => 1 | .waiting => 2 | .halted => 3 | .draining => 4
/-- Register of a ring entry. -/
def Ring.view (r : Ring) (reg : Nat) : Option RegView :=
  match reg with
  | 0 => Machine.view (r.base.toNat % 2 ^ 32) [(12, 20)]
  | 4 => full (r.base.toNat / 2 ^ 32)
  | 8 => Machine.view (r.ctrl r.enable) [(31, 1), (24, 5), (2, 22)]
  | 12 => Machine.view (place r.state.code 28 + place r.cause 24 + r.head.toNat) [(24, 8), (0, 20)]
  | _ => none
/-- Register of an event-queue entry. -/
def Evq.view (e : Evq) (reg : Nat) : Option RegView :=
  match reg with
  | 0 => Machine.view (e.base.toNat % 2 ^ 32) [(12, 20)]
  | 4 => full (e.base.toNat / 2 ^ 32)
  | 8 => Machine.view (e.ctrl e.active) [(31, 1), (24, 5), (8, 16), (0, 4)]
  | 12 => Machine.view (place (b2n e.active) 28 + place (b2n e.armed) 27 + place (b2n e.lost.isSome) 26 + e.tail.toNat) [(26, 6), (0, 20)]
  | _ => none

/-! ### TILE and PORT (03 R86; 18 R550 to R555) -/

/-- ROLE of TILE_STATUS. -/
def Role.code (r : Role) : Nat := match r with | .fused => 0 | .active => 1 | .spare => 2 | .quarantined => 3
/-- TILE entry. -/
def tileView (s : Sw) (p off : Nat) : Option RegView :=
  let t := s.tile p
  if off = 0 then view (place t.qcause 24 + place (s.faultsOf p) 16 + place (b2n t.logical.isSome) 15 + place (t.logical.getD 0) 8 +
    place (b2n t.selfTest) 5 + place (b2n t.inReset) 4 + t.role.code) [(8, 20), (4, 2), (0, 2)]
  else if off = 4 then view t.temp.toNat [(0, 16)]
  else if off = 8 then full t.ce.toNat
  else if off = 0xC then full t.ue.toNat
  else if off = 0x10 then view t.lastUe.toNat [(0, 21)]
  else if off = 0x40 then full t.agOffset.toNat
  else if 0x44 ≤ off && off < 0x5C then full (t.agCount.getD ((off - 0x44) / 4) 0).toNat
  else if 0x5C ≤ off && off < 0x74 then full (t.agStride.getD ((off - 0x5C) / 4) 0).toNat
  else if off = 0x74 then view (b2n t.agRunning + place (b2n t.agLeader) 1) [(0, 2)]
  else none
/-- STATE of PORT_PERSONALITY (03 R107). -/
def PortSt.code (t : PortSt) : Nat :=
  match t with | .disabled => 0 | .search => 1 | .identify => 2 | .up => 3 | .lost => 4 | .outOfService => 5 | .absent => 6
/-- Lanes of port n in DATA. -/
def Sw.lanesInData (s : Sw) (n : Nat) : Nat :=
  if (s.port n).reg.state == .absent then 0 else ((s.lanesOf n).filter (fun l => (s.lane l).state == .data)).length
/-- PORT entry. -/
def portView (s : Sw) (n off : Nat) : Option RegView :=
  let r := (s.port n).reg
  let c := (s.port n).cnt
  let d := s.quad (n / 4)
  match off with
  | 0x00 => view (place r.partnerRole 20 + place r.detected 18 + place r.allow.toNat 12 + place d.split 8 + place d.splitActive 6 +
      place (b2n r.adminUp) 5 + r.state.code) [(18, 6), (12, 3), (8, 2), (5, 3), (0, 4)]
  | 0x04 => view (place r.lostReason 28 + place r.partnerReason 24 + place (s.lanesInData n) 16 + place r.hbLog2 8 +
      b2n (s.takingOver (n / 4))) [(24, 8), (16, 4), (8, 4), (0, 1)]
  | 0x08 => loView r.partnerId.toNat
  | 0x0C => hiView 32
  | 0x10 => full (place r.partnerPort 16 + place r.partnerLevel 12 + place r.partnerPeriod 8 + r.partnerCminor)
  | 0x14 => view r.rtt [(0, 24)]
  | 0x18 => full r.timeAsym.toNat
  | 0x1C => view (match r.binding with
      | some b => place 1 31 + place (b2n b.backup) 30 + place b.job 16 + b.rank
      | none => 0) [(30, 2), (0, 24)]
  | 0x20 => view (r.vcCredit.getD 0 0 + place (r.vcCredit.getD 1 0) 16) [(0, 11), (16, 11)]
  | 0x24 => view (r.vcCredit.getD 2 0 + place (r.vcCredit.getD 3 0) 16) [(0, 11), (16, 11)]
  | 0x28 => view (r.vcCredit.getD 4 0 + place (r.vcCredit.getD 5 0) 16) [(0, 11), (16, 11)]
  | 0x2C => view (r.vcCredit.getD 6 0 + place (r.vcCredit.getD 7 0) 16) [(0, 11), (16, 11)]
  | 0x30 => view (r.vcCredit.getD 8 0 + place (r.vcCredit.getD 9 0) 16) [(0, 11), (16, 11)]
  | 0x34 => view (r.vcCredit.getD 10 0) [(0, 11)]
  | 0x40 => full c.crcErr.toNat
  | 0x44 => full c.creditErr.toNat
  | 0x48 => full c.hdrErr.toNat
  | 0x4C => full c.idDiscard.toNat
  | 0x50 => full c.p2pTrunc.toNat
  | 0x54 => full c.hbMiss.toNat
  | 0x58 => full c.replay.toNat
  | 0x5C => full c.fecUncorr.toNat
  | 0x60 => loView c.fecCw.toNat
  | 0x64 => hiView 32
  | 0x68 => loView c.fecSym.toNat
  | 0x6C => hiView 32
  | 0x70 => loView c.fwdIn.toNat
  | 0x74 => hiView 32
  | 0x78 => loView c.fwdOut.toNat
  | 0x7C => hiView 32
  | 0x80 => full c.ceMark.toNat
  | 0x84 => full c.echoOut.toNat
  | 0x88 => full c.epRewrite.toNat
  | 0x8C => full c.mcSkip.toNat
  | 0x90 => full c.dropRoute.toNat
  | 0x94 => full c.dropRank.toNat
  | 0x98 => full c.dropLost.toNat
  | 0x9C => full c.dropStall.toNat
  | _ => none

/-! ### LANE, OPT, LAS (13 R462, R463) -/

/-- LANE entry. -/
def laneView (s : Sw) (l off : Nat) : Option RegView :=
  let x := s.lane l
  let t := x.test
  match off with
  | 0x00 => view (place x.state.code 24 + place x.rate 22 + place (b2n x.los) 15 + place (b2n x.lol) 14 + place (b2n x.apr) 13 +
      place (b2n x.rxReady) 12 + place (b2n x.partnerReady) 11 + place (b2n t.chkLocked) 10) [(22, 6), (10, 6)]
  | 0x04 => view (x.txInit + place (b2n x.noReq) 2 + place (b2n x.ignoreReq) 3 + place x.trainMs 8) [(0, 4), (8, 8)]
  | 0x08 => loView (place (bitsOfInt 8 x.taps.c1) 32 + place (bitsOfInt 8 x.taps.c0) 24 + place (bitsOfInt 8 x.taps.cm1) 16 +
      place (bitsOfInt 8 x.taps.cm2) 8 + bitsOfInt 8 x.taps.cm3)
  | 0x0C => hiView 8
  | 0x10 => full (place x.txPower.toNat 16 + x.rxPower.toNat)
  | 0x14 => view x.snr.toNat [(0, 16)]
  | 0x18 => view (place t.trate 8 + place t.loopback 6 + place (b2n t.chkEn) 5 + place (b2n t.genEn) 4 + place (b2n t.invert) 3 + t.pattern)
      [(11, 1), (0, 10)]
  | 0x1C => view (place t.injCount 24 + place t.injPeriod 16 + place t.injSyms 8 + t.injMode) [(24, 8), (16, 5), (8, 5), (0, 2)]
  | 0x20 => loView t.bits.toNat
  | 0x24 => hiView 16
  | 0x28 => loView t.errs.toNat
  | 0x2C => hiView 16
  | 0x30 => full x.losCount.toNat
  | 0x34 => full x.lolCount.toNat
  | 0x38 => full x.aprCount.toNat
  | 0x3C => full (place x.trainBad.toNat 16 + x.trainOk.toNat)
  | _ => none
/-- A bit for each of the 16 lanes of engine e. -/
def Sw.engineBits (s : Sw) (e : Nat) (f : Lane → Bool) : Nat :=
  (List.range 16).foldl (fun a k => a + place (b2n (f (s.lane (16 * e + k)))) k) 0
/-- Engine entry. -/
def engineView (s : Sw) (e off : Nat) : Option RegView :=
  let x := s.engine e
  match off with
  | 0x00 => view (b2n (s.quadActive (4 * e)) + place (b2n x.aOk) 1 + place (b2n x.bOk) 2 + place (b2n x.dark) 3 + place x.temp.toNat 16)
      [(0, 4), (16, 8)]
  | 0x04 => view x.aPower.toNat [(0, 16)]
  | 0x08 => view x.bPower.toNat [(0, 16)]
  | 0x0C => view (s.engineBits e (fun l => l.apr)) [(0, 16)]
  | 0x10 => view (s.engineBits e (fun l => l.los)) [(0, 16)]
  | _ => none
/-- Laser-site entry. -/
def siteView (s : Sw) (m off : Nat) : Option RegView :=
  let x := s.site m
  match off with
  | 0x00 => view (b2n x.enable + place (b2n x.prepRemove) 1) [(0, 2)]
  | 0x04 => view (x.state.code + place (b2n x.latched) 4 + place (b2n x.removeBlocked) 5 + place x.temp.toNat 8) [(0, 6), (8, 8)]
  | 0x08 => loView x.serial.toNat
  | 0x0C => hiView 32
  | 0x10 => view (x.outPower.getD 0 0).toNat [(0, 16)]
  | 0x14 => view (x.outPower.getD 1 0).toNat [(0, 16)]
  | 0x18 => view (x.outPower.getD 2 0).toNat [(0, 16)]
  | 0x1C => view (x.outPower.getD 3 0).toNat [(0, 16)]
  | 0x20 => view x.bias.toNat [(0, 16)]
  | 0x24 => full x.inserts.toNat
  | _ => none

/-! ### HBM, CXL, WEAR, POOL (11 R375, R396, R397; 15 R502) -/

/-- STATE of HBM_STATUS. -/
def StackSt.code (t : StackSt) : Nat := match t with | .absent => 0 | .training => 1 | .ready => 2 | .selfRefresh => 3 | .failed => 4
/-- HBM registers of stack k. -/
def hbmView (s : Sw) (k off : Nat) : Option RegView :=
  let t := s.stack k
  if off = 0 then view (place (bitsOf t.inService).length 16 + place (b2n (s.stackPopulated k)) 7 + t.state.code) [(16, 6), (7, 1), (0, 4)]
  else if off = 4 then full t.mapout.toNat
  else if off = 8 then full t.failed.toNat
  else if off = 0xC then full t.inService.toNat
  else if off = 0x10 then view t.laneRepaired.toNat [(0, 16)]
  else if off = 0x14 then full t.ce.toNat
  else if off = 0x18 then full t.ue.toNat
  else if off = 0x20 then loView t.lastUe
  else if off = 0x24 then hiView 10
  else if off = 0x28 then loView t.nmOps.toNat
  else if off = 0x2C then hiView 32
  else if 0x40 ≤ off && off < 0xC0 then view (t.repair.getD ((off - 0x40) / 4) 0) [(0, 4)]
  else none
/-- CXL block, offset within it. -/
def cxlView (s : Sw) (off : Nat) : Option RegView :=
  if off = 0x200 then view s.cxlHoldMs [(0, 16)]
  else if off = 0x208 then loView s.cxlGen.toNat
  else if off = 0x20C then hiView 32
  else if 0x200 ≤ off then none
  else
    let c := s.root (off / 0x100)
    match off % 0x100 with
    | 0x00 => view (b2n c.enable + place (b2n c.use) 1) [(0, 2)]
    | 0x04 => view (place c.speed 16 + place c.width 8 + place (b2n c.tagsOk) 2 + place (b2n c.devOk) 1 + b2n c.linkUp) [(16, 4), (8, 5), (0, 3)]
    | 0x08 => full c.total
    | 0x0C => full (c.total - c.used)
    | 0x10 => full c.poison.toNat
    | 0x14 => full c.downs.toNat
    | _ => none
/-- Wear entries in a state. -/
def Sw.wearIn (s : Sw) (st : Nat) : Nat := (s.wear.entries.filter (fun e => e.2.state == st)).length
/-- WEAR block, offset within it. -/
def wearView (s : Sw) (off : Nat) : Option RegView :=
  let w := s.wear
  if off = 0 then full w.poh.toNat
  else if off = 4 then loView w.utc.toNat
  else if off = 8 then hiView 32
  else if off = 0xC then view (s.wearIn 2 + place (s.wearIn 3) 10 + place (s.wearIn 4) 20) [(0, 30)]
  else if off = 0x10 then view ((86400 - w.secs) / 60) [(0, 11)]
  else if off < 0x1000 || 0x1000 + 0x20 * 753 ≤ off then none
  else
    let i := (off - 0x1000) / 0x20
    let e := s.wearOf i
    let eol (v : Option Nat) : Option RegView := full (v.getD 0xFFFFFFFF)
    match (off - 0x1000) % 0x20 with
    | 0x00 => view (e.state + place (wearKind i) 4 + place e.samples.length 16) [(0, 3), (4, 4), (16, 9)]
    | 0x04 => full (bitsOfInt 32 (match e.samples with | x :: _ => x.ind | [] => 0))
    | 0x08 => full (bitsOfInt 32 e.base)
    | 0x0C => full (bitsOfInt 32 (if e.based then wearLimit i e.base else 0))
    | 0x10 => eol e.mid
    | 0x14 => eol e.early
    | 0x18 => eol e.late
    | 0x1C => full (e.af30 / 1024)
    | _ => none
/-- POOL block, offset within it. -/
def poolView (s : Sw) (off : Nat) : Option RegView :=
  if off < 0x70 then
    let c := off / 0x10
    match off % 0x10 with
    | 0 => full (s.poolTotal c)
    | 4 => full (s.poolFree c)
    | 12 => full (s.pool.warn.getD c 0).toNat
    | _ => none
  else if off = 0x80 then full s.pool.rejects.toNat
  else if off = 0x84 then full s.pool.waitCount.toNat
  else if 0x90 ≤ off && off < 0xA0 then
    let g := (off - 0x90) / 4
    full (s.classTotal 6 g % 65536 + place (s.classFree 6 g % 65536) 16)
  else if 0x100 ≤ off && off < 0x500 then view (s.pool.jobLimit.getD ((off - 0x100) / 4) 0) [(0, 22)]
  else if 0x500 ≤ off && off < 0x900 then view (s.jobUsed ((off - 0x500) / 4)) [(0, 22)]
  else none

/-! ### BAR0 of the PF (18 R546) -/

/-- The register at an aligned offset of BAR0; none at an offset that the spec does not assign. -/
def regAt (f : Fuses) (s : Sw) (off : Nat) : Option RegView :=
  if off % 4 != 0 then none
  else if off < 0x1000 then glbView s off
  else if off < 0x2000 then pwrView s (off - 0x1000)
  else if off < 0x3000 then timeView s (off - 0x2000)
  else if off < 0x4000 then secView f s (off - 0x3000)
  else if off < 0x8000 then (s.ring ((off - 0x4000) / 0x10)).view (off % 0x10)
  else if off < 0x9000 then (s.evq ((off - 0x8000) / 0x10)).view (off % 0x10)
  else if 0x10000 ≤ off && off < 0x19000 then tileView s ((off - 0x10000) / 0x100) (off % 0x100)
  else if 0x20000 ≤ off && off < 0x40000 then portView s ((off - 0x20000) / 0x100) (off % 0x100)
  else if 0x40000 ≤ off && off < 0x60000 then laneView s ((off - 0x40000) / 0x100) (off % 0x100)
  else if 0x60000 ≤ off && off < 0x62000 then engineView s ((off - 0x60000) / 0x100) (off % 0x100)
  else if off = 0x67F00 then view (s.glb.ssc + place (b2n s.glb.refOk) 4) [(0, 5)]
  else if 0x68000 ≤ off && off < 0x69000 then siteView s ((off - 0x68000) / 0x100) (off % 0x100)
  else if 0x70000 ≤ off && off < 0x76000 then hbmView s ((off - 0x70000) / 0x400) (off % 0x400)
  else if 0x80000 ≤ off && off < 0x80210 then cxlView s (off - 0x80000)
  else if 0x90000 ≤ off && off < 0xA0000 then wearView s (off - 0x90000)
  else if 0xA0000 ≤ off && off < 0xA0900 then poolView s (off - 0xA0000)
  else none
/-- Grove whose CORE clock a register needs (18 R546); none: another domain, or reserved space. -/
def coreOf (off : Nat) : Option Nat :=
  if off < 0x1000 then (if domainOf off = 1 then none else some 0)
  else if off < 0x2000 then some 0
  else if 0x3000 ≤ off && off < 0x4000 then some 0
  else if 0x10000 ≤ off && off < 0x19000 then some ((off - 0x10000) / 0x100 / 36)
  else if 0x20000 ≤ off && off < 0x40000 then some ((off - 0x20000) / 0x100 / 128)
  else if 0x40000 ≤ off && off < 0x60000 then some ((off - 0x40000) / 0x100 / 128)
  else if 0x60000 ≤ off && off < 0x62000 then some ((off - 0x60000) / 0x100 / 8)
  else if 0x62000 ≤ off && off < 0x69000 then some 2
  else if 0x70000 ≤ off && off < 0x76000 then some ((off - 0x70000) / 0x400 / 6)
  else if 0x80000 ≤ off && off < 0x80210 then (if 0x80100 ≤ off && off < 0x80200 then some 3 else some 1)
  else if 0x90000 ≤ off && off < 0xA0900 then some 0
  else none
/-- An access ends under R471: its domain is stopped or in reset, or the switch is in recovery and the register is none of the AUX
domain (16 R507). The TIME block stops with its PLL; the PCIE domain is taken to run
(log 58). -/
def stopped (s : Sw) (off : Nat) : Bool :=
  (s.sec.recovery && domainOf off != 1) || (match coreOf off with | some g => !s.glb.coreLock.getLsbD g | none => false) ||
    (decide (0x2000 ≤ off) && decide (off < 0x3000) && !s.glb.timeLock) ||
    (domainOf off == 4 &&
      (let t := s.tile ((off - 0x10000) / 0x100)
       decide (off % 0x100 < 0x80) && (t.role == .fused || t.role == .quarantined || t.inReset)))
/-- Number of a requester: function 0 to 255, 256 the BMC. -/
def reqCode (bmc : Bool) (func : Nat) : Nat := if bmc then 256 else func
/-- Key of the latch of a HI register for a requester. -/
def latchKey (req off : Nat) : Nat := req * 2 ^ 24 + off
/-- What a register reads for a requester, and the latch that a LO read sets (R543). -/
def readView (req off : Nat) (v : RegView) (s : Sw) : Word × Sw :=
  if v.latched then (s.glb.latches.getD (latchKey req off) 0, s)
  else
    match v.hi with
    | some h => (BitVec.ofNat 32 v.val, s.modGlb (fun g => { g with latches := g.latches.set (latchKey req (off + 4)) (BitVec.ofNat 32 h) }))
    | none => (BitVec.ofNat 32 v.val, s)
/-- A read of the aligned word at an offset of BAR0: an access that ends under R471 returns all ones, a reserved offset 0. -/
def readWord (f : Fuses) (bmc : Bool) (off : Nat) (s : Sw) : Word × Sw :=
  if stopped s off then (BitVec.allOnes 32, accessEnds (if bmc then 0xFF else 0) off false s)
  else
    match regAt f s off with
    | some v => readView (reqCode bmc 0) off v s
    | none => (0, s)

/-! ### A VF's BAR0 (12 R400, R401; 18 R556) -/

/-- The ring in window i of VF k. -/
def Sw.ringIn (s : Sw) (k i : Nat) : Option Nat := (List.find? (fun (e : Nat × Ring) => e.2.func == k && e.2.lslot == i) s.host.rings).map Prod.fst
/-- The event queue in window i of VF k. -/
def Sw.evqIn (s : Sw) (k i : Nat) : Option Nat := (List.find? (fun (e : Nat × Evq) => e.2.func == k && e.2.lslot == i) s.host.evqs).map Prod.fst
/-- A bit for each number from a to a + 31 that passes a test. -/
def bits32 (a : Nat) (p : Nat → Bool) : Nat := (List.range 32).foldl (fun v b => v + place (b2n (p (a + b))) b) 0
/-- Register of the BAR0 of VF k. -/
def vfView (s : Sw) (k off : Nat) : Option RegView :=
  if off = 0 then view (k + place ((List.range 64).filter (fun i => (s.ringIn k i).isSome)).length 8 +
    place ((List.range 16).filter (fun i => (s.evqIn k i).isSome)).length 16) [(0, 24)]
  else if off = 4 then view (bits32 0 (fun i => decide (i < 16) && (s.evqIn k i).isSome)) [(0, 16)]
  else if off = 8 then full (bits32 0 (fun i => (s.ringIn k i).isSome))
  else if off = 0xC then full (bits32 32 (fun i => (s.ringIn k i).isSome))
  else if off = 0x10 then full s.contract
  else if off = 0x14 then loView Config.deviceId.toNat
  else if off = 0x18 then hiView 32
  else if 0x20 ≤ off && off < 0x40 then
    full (bits32 (8 * (off - 0x20)) (fun j => (s.job j).state == .opened && (s.job j).owner == k))
  else if 0x70 ≤ off && off < 0x80 then
    full ((List.range 4).foldl (fun v b => v + place ((s.evqIn k (off - 0x70 + b)).getD 0) (8 * b)) 0)
  else if 0x80 ≤ off && off < 0x100 then
    view ((List.range 2).foldl (fun v h => v + place ((s.ringIn k ((off - 0x80) / 2 + h)).getD 0) (16 * h)) 0) [(0, 10), (16, 10)]
  else if 0x400 ≤ off && off < 0x800 then
    (match s.ringIn k ((off - 0x400) / 0x10) with | some n => (s.ring n).view (off % 0x10) | none => none)
  else if 0x800 ≤ off && off < 0x900 then
    (match s.evqIn k ((off - 0x800) / 0x10) with | some q => (s.evq q).view (off % 0x10) | none => none)
  else none

/-! ### BAR2 and BAR4 (12 R400, R417, R419; 18 R557; layout of MSI-X PRESUMED, log 60) -/

/-- What a register reads, 0 where there is none. -/
def viewVal (v : Option RegView) : Nat := match v with | some r => r.val | none => 0
/-- A word of a ring's doorbell page: RING_STATUS, and the last tail accepted. -/
def Ring.page (r : Ring) (off : Nat) : Nat := if off = 0 then viewVal (r.view 12) else if off = 4 then r.tail.toNat else 0
/-- A word of an event queue's doorbell page: EVQ_STATUS. -/
def Evq.page (e : Evq) (off : Nat) : Nat := if off = 0 then viewVal (e.view 12) else 0
/-- A word of BAR2 of a function. -/
def bar2Read (s : Sw) (func off : Nat) : Nat :=
  let page := off / 4096
  let at_ := off % 4096
  if func = 0 then
    if page < 1024 then (s.ring page).page at_ else if page < 1280 then (s.evq (page - 1024)).page at_ else 0
  else if page < 64 then (match s.ringIn func page with | some n => (s.ring n).page at_ | none => 0)
  else if page < 80 then (match s.evqIn func (page - 64) with | some q => (s.evq q).page at_ | none => 0)
  else 0
/-- A word of BAR4 of a function: the MSI-X table and the pending-bit array. -/
def bar4Read (s : Sw) (func off : Nat) : Nat :=
  let vectors := if func = 0 then 256 else 32
  let pba := if func = 0 then 0x8000 else 0x800
  let entry (v : Nat) : MsixEntry := s.host.msix.getD (func * 256 + v) {}
  if off < 16 * vectors then
    let e := entry (off / 16)
    match off % 16 / 4 with
    | 0 => e.addr.toNat % 2 ^ 32
    | 1 => e.addr.toNat / 2 ^ 32
    | 2 => e.data.toNat
    | _ => b2n e.mask
  else if pba ≤ off && off < pba + vectors / 8 then bits32 (8 * (off - pba)) (fun v => (entry v).pending)
  else 0
/-- The word at an aligned offset, as its requester reads it: the PF and the BMC in BAR0 of the PF, a VF in its own. Offsets of a
function from 2^24 on are those of its BAR2, from 2^25 on those of its BAR4 (DESIGN CHOICE, log 60). -/
def readAligned (f : Fuses) (bmc : Bool) (func off : Nat) (s : Sw) : Word × Sw :=
  if bmc then readWord f bmc (off % 2 ^ 24) s
  else if 2 ^ 24 ≤ off then
    (BitVec.ofNat 32 (if off < 2 ^ 25 then bar2Read s func (off - 2 ^ 24) else bar4Read s func (off - 2 ^ 25)), s)
  else if func = 0 then readWord f bmc off s
  else match vfView s func (off % 4096) with
    | some v => readView func (off % 4096) v s
    | none => (0, s)
/-- n words from an aligned offset on, read in ascending order. -/
def readSpan (f : Fuses) (bmc : Bool) (func off : Nat) : Nat → Sw → List Byte × Sw
  | 0, s => ([], s)
  | n + 1, s =>
    let (v, s) := readAligned f bmc func off s
    let (l, s) := readSpan f bmc func (off + 4) n s
    (le 4 v.toNat ++ l, s)
/-- A read of registers by the PF, an enabled VF or the BMC, and its completion: the bytes asked for, from the aligned words that
enclose them (R541, R543, R556). A read that cannot reach the switch gets no completion (14 R571). -/
def readOp (f : Fuses) (bmc : Bool) (func offset size : Nat) (s : Sw) : Sw :=
  if !(if bmc then s.i3cServed else s.hostReach func) then s
  else
    let a := offset / 4
    let (l, s) := readSpan f bmc func (4 * a) ((offset + size + 3) / 4 - a) s
    s.out (.regRead (if bmc then 0xFF else func) offset ((l.drop (offset % 4)).take size))
/-- LO_READ_LATCH (R543). -/
def execLoReadLatch (func : Nat) (bmc : Bool) (offset size : Nat) (s : State) : Res := lift (readOp s.fuses bmc func offset size) s

/-! ### REG_READ and the sensors (16 R526, R527) -/

/-- Consecutive words, each read in turn. -/
def readWords (f : Fuses) (off : Nat) : Nat → Sw → List Word × Sw
  | 0, s => ([], s)
  | n + 1, s =>
    let (v, s) := readWord f true off s
    let (l, s) := readWords f (off + 4) n s
    (v :: l, s)
/-- REG_READ: up to 64 words from an offset. A count or offset out of range is answered with completion code 2 (log 57). -/
def regReadOp (f : Fuses) (offset count : Nat) (s : Sw) : Sw :=
  if !s.i3cServed then s
  else if count = 0 || 64 < count || 2 ^ 24 < offset / 4 * 4 + 4 * count then s.out (.reply true (le 1 2))
  else
    let (l, s) := readWords f (offset / 4 * 4) count s
    s.out (.regRead 0xFF (offset / 4 * 4) (l.flatMap (fun v => le 4 v.toNat)))
/-- REG_READ (R527). -/
def execRegRead (offset count : Nat) (s : State) : Res := lift (regReadOp s.fuses offset count) s

/-- The latest register value of a sensor (R526): numeric sensors 1 to 87, state sensors 100 to 118. -/
def sensorValue (s : Sw) (id : Nat) : Option Int :=
  let p := s.pwr
  if id = 1 then some p.pin
  else if id = 2 then some p.vin
  else if id = 3 then some p.iin
  else if 4 ≤ id && id ≤ 7 then some (p.grove.getD (id - 4) 0 : Nat)
  else if id = 8 then some p.optics
  else if id = 9 then some p.stackW
  else if id = 10 then some p.inlet.toInt
  else if id = 11 then some p.outlet.toInt
  else if 12 ≤ id && id ≤ 15 then some (s.hottest (id - 12))
  else if 16 ≤ id && id ≤ 39 then some (p.stackTemp.getD (id - 16) 0).toInt
  else if 40 ≤ id && id ≤ 71 then some (s.engine (id - 40)).temp.toInt
  else if 72 ≤ id && id ≤ 87 then some (s.site (id - 72)).temp.toInt
  else if id = 100 then some p.inForce
  else if id = 101 then some s.glb.stage
  else if id = 102 then some (s.wear.entries.foldl (fun a e => max a e.2.state) 0 : Nat)
  else if 103 ≤ id && id ≤ 118 then some (s.site (id - 103)).state.code
  else none
/-- The answer: completion code 0 and the value in 4 bytes, or 0x80 for a sensor that does not exist (log 57). -/
def sensorOp (i3c : Bool) (id : Nat) (s : Sw) : Sw :=
  if !spdmServed i3c s then s
  else match sensorValue s id with
    | some v => s.out (.reply i3c (le 1 0 ++ leInt 4 v))
    | none => s.out (.reply i3c (le 1 0x80))
/-- GET_SENSOR_READING (R526). -/
def execGetSensorReading (i3c : Bool) (sensor : Nat) (s : State) : Res := lift (sensorOp i3c sensor) s

end Sys2Proof.Machine
end

