-- ==== Sys2Proof/Machine/Time.lean ====
section
/-! DEFINITION. The commands of the Time family: frame ticks, the timing input and output, TIME cells, sources, the frame period,
quotas and launches (05; 04 R140; 09 R286). -/
namespace Sys2Proof.Machine

/-! ### Frame ticks (05 R177 to R184) -/

/-- S of port n is compared with its quotas: scaled when they do not fit, restored when they do (05 R182). The cause is 2 when
the lanes of the port have changed since the last tick, 1 when its personality has, else 3. -/
def scaleCheck (n : Nat) (s : Sw) : Sw :=
  let cap := s.schedCap n s.time.active
  let q := (s.port n).q
  let form := (s.pers n, (s.port n).reg.lanes.2)
  let scaled := if cap < s.quotaSum n then some cap else none
  let cause := if q.lastForm.2 != form.2 then 2 else if q.lastForm.1 != form.1 then 1 else 3
  let s := s.modQ n (fun q => { q with scaled := scaled, lastS := cap, lastForm := form })
  if scaled.isSome && scaled != q.scaled then raiseSys 0x0307 (le 2 n ++ le 4 q.lastS ++ le 4 cap ++ le 1 cause) s else s

/-- One item of the queue of port n at a tick: whether the last unit of each context was moved on again, the contexts whose
started unit has been counted, the items so far. A unit stays behind an earlier one of its context that is moved on. -/
def tickItem (n : Nat) (acc : SMap Bool × List Nat × List TxItem × Sw) (it : TxItem) : SMap Bool × List Nat × List TxItem × Sw :=
  let (heads, told, items, s) := acc
  match it.cls with
  | .sched x kind =>
    let key := x * 4 + kind
    if it.unitLen = 0 then
      match SMap.find? x heads with
      | some m => (heads, told, items ++ [{ it with moved := m }], s)
      | none =>
        let s := s.modQ n (fun q => { q with drawn := q.drawn.set key (q.drawn.getD key 0 + 1), placed := q.placed + 1 })
        let s := if told.contains x then s else overrun n x 2 s
        (heads, x :: told, items ++ [{ it with moved := false }], s)
    else
      let (m, s) := if heads.getD x false then (true, s) else placeNow n x kind it.unitLen s
      (heads.set x m, told, items ++ [{ it with moved := m }], s)
  | _ => (heads, told, items ++ [it], s)

/-- A frame opens on port n: quotas are afresh, a unit already started draws on them, and the units that wait are placed in
their order (05 R182, R184). -/
def tickPort (n : Nat) (s : Sw) : Sw :=
  let s := scaleCheck n s
  let s := s.modQ n (fun q => { q with drawn := [], placed := 0, sent := 0 })
  let (_, _, items, s) := (s.port n).q.txq.foldl (tickItem n) ([], [], [], s)
  s.modQ n (fun q => { q with txq := items })

/-- The plan of context x that FRAME_QUOTA left takes effect (05 R181). -/
def takeQuota (x : Nat) (s : Sw) : Sw :=
  s.modCtx x (fun c => match c.quotaNext with
    | some (r, q) => { c with srank := r, quota := q, quotaNext := none }
    | none => c)
/-- At a tick context x sends its grants, and the root its RELEASE when one is due (04 R140; 09 R286). -/
def tickCtx (x : Nat) (s : Sw) : Sw :=
  let s := grantCtx x true s
  let s := match s.ctx? x with
    | some c => if c.releaseDue then sendRelease x c.releaseBelow (s.modCtx x (fun c => { c with releaseDue := false })) else s
    | none => s
  settle x s

/-- The tiles outvoted since the last tick whose fault count has reached QUAR_COUNT within QUAR_WINDOW are quarantined
(09 R304, R307; the instant, log 114). -/
def quarantineDue (s : Sw) : Sw :=
  let due := s.rcv.outvoted.filter (fun p => s.rcv.autoQuar && decide (s.rcv.quarCount ≤ s.faultsOf p))
  each due (fun p => quarantine p 1) (s.modRec (fun r => { r with outvoted := [] }))
/-- A frame tick. -/
def frameTickOp (s : Sw) : Sw :=
  let s := toTick s.time.active s.time.lastTick s
  let s := s.modTime (fun t => { t with lastTick := some t.gtc })
  let s := quarantineDue s
  let s := each s.ctxs.keys takeQuota s
  let s := each s.ctxs.keys (lateTicks (BitVec.ofNat 32 s.frame) 1) s
  let s := each s.upPorts tickPort s
  each s.ctxs.keys tickCtx s
/-- FRAME_TICK (05 R177). -/
def execFrameTick (s : State) : Res := lift frameTickOp s

/-! ### The timing input and output (05 R170 to R172) -/

/-- A timing message is good (05 R171). The first one has no earlier GTC_AT_MARK to exceed. -/
def timingGood (s : Sw) (msg : BitVec 128) : Bool :=
  let mark : Quad := msg.extractLsb' 32 64
  let rises := match s.sync.inLast with
    | none => true
    | some l => let d := (mark - l).toNat; decide (d ≠ 0) && decide (d < 2 ^ 63) && d % 2 ^ 20 == 0
  field msg 0 32 == crc32Bits (bitsMsb (field msg 32 96) 96) && field msg 112 16 == 0xD5C3 &&
    field msg 104 8 == s.time.domain && bit msg 96 && rises
/-- A timing message at its mark, with the local GTC there. -/
def timingMessageOp (msg : BitVec 128) (mark : Quad) (frac : BitVec 4) (s : Sw) : Sw :=
  if timingGood s msg then
    let m : Quad := msg.extractLsb' 32 64
    let bad := s.sync.inBad
    let s := s.modSync (fun y => { y with inGood := y.inGood + 1, inBad := 0, inLast := some m })
    let s := if !s.sync.inValid && 2 ≤ s.sync.inGood then
        reselectNow (inputEvent 1 bad (s.modSync (fun y => { y with inValid := true }))) else s
    if s.sync.src == .input then
      offsetMeasured (stampDiff (16 * (mark.toNat : Int) + (frac.toNat : Int)) (16 * (m.toNat : Int)) - (s.time.inDelay : Int)) s
    else s
  else
    let s := s.modSync (fun y => { y with inGood := 0, inBad := y.inBad + 1 })
    if 3 ≤ s.sync.inBad then inputInvalid s else s
/-- TIMING_MESSAGE_RECEIVE (05 R171). -/
def execTimingMessageReceive (msg : BitVec 128) (mark : Quad) (frac : BitVec 4) (s : State) : Res :=
  lift (timingMessageOp msg mark frac) s
/-- TIMING_INPUT_TIMEOUT: 4 × 2^20 ns without a mark (05 R171). -/
def execTimingInputTimeout (s : State) : Res := lift inputInvalid s
/-- The timing output at a mark. -/
def timingOutOp (s : Sw) : Sw :=
  let s := toTick 20 none s
  if s.time.outEnable then s.out (.timing (timingMessage s.time.domain s.timingFlags s.gtc)) else s
/-- TIMING_OUTPUT_MARK (05 R172). -/
def execTimingOutputMark (s : State) : Res := lift timingOutOp s

/-! ### TIME cells (05 R173 to R175) -/

/-- The port this switch follows. -/
def Sw.timeParent (s : Sw) : Option Nat := match s.sync.src with | .port p => some p | _ => none
/-- A quotient in whole sixteenths of a nanosecond: where it is not exact, the lower or the upper neighbour, a free value
(05 R175 names no rounding; log 2). -/
def freeRound (num : Int) (den : Nat) (s : Sw) : Int × Sw :=
  let q := num / (den : Int)
  if num % (den : Int) = 0 then (q, s) else let (v, s) := s.draw; (q + (b2n (bit v 0) : Int), s)
/-- A SYNC from the time parent, taken at an ingress stamp (05 R175). -/
def syncOp (p : Nat) (stamp : Int) (c : Cell) (s : Sw) : Sw :=
  if c.ttype != 0 || s.timeParent != some p then s
  else
    let t1 := stampAt c 0 8
    let s := s.modSync (fun y => { y with t12 := some (t1, stamp) })
    let n := s.sync.pairs.length
    if n = 0 then s
    else
      let sum := s.sync.pairs.foldl (· + ·) 0
      let a := (s.port p).reg.timeAsym.toInt
      let (off, s) := freeRound (2 * n * stampDiff stamp t1 - sum - n * a) (2 * n) s
      offsetMeasured off s
/-- SYNC_RECEIVE (05 R175). -/
def execSyncReceive (port : Nat) (cell : Cell) (stamp : Quad) (frac : BitVec 4) (s : State) : Res :=
  lift (fun w => let (oc, w) := ingress port cell w
    timeArrive port (syncOp port (16 * (stamp.toNat : Int) + (frac.toNat : Int))) oc w) s
/-- A DELAY_REQ is answered with the stamp at which it came (05 R174, R175). -/
def delayReqOp (p : Nat) (stamp : Quad) (frac : BitVec 4) (c : Cell) (s : Sw) : Sw :=
  if c.ttype != 1 then s
  else sendCtrl p (timeCell 2 s.time.domain c.seqid (List.replicate 7 0 ++ le 8 stamp.toNat ++ le 1 frac.toNat)) s
/-- DELAY_REQ_RECEIVE (05 R175). -/
def execDelayReqReceive (port : Nat) (cell : Cell) (stamp : Quad) (frac : BitVec 4) (s : State) : Res :=
  lift (fun w => let (oc, w) := ingress port cell w; timeArrive port (delayReqOp port stamp frac) oc w) s
/-- A DELAY_RESP completes a pair: its own stamps are not used (05 R175). -/
def delayRespOp (p : Nat) (c : Cell) (s : Sw) : Sw :=
  match s.sync.req, s.sync.t12 with
  | some (seq, t3), some (t1, t2) =>
    if c.ttype != 2 || s.timeParent != some p || c.seqid != seq.toNat then s
    else s.modSync (fun y => { y with req := none, pairs := ((stampDiff t2 t1 + stampDiff (stampAt c 16 24) t3) :: y.pairs).take 16 })
  | _, _ => s
/-- DELAY_RESP_RECEIVE (05 R175). -/
def execDelayRespReceive (port : Nat) (cell : Cell) (_stamp : Quad) (_frac : BitVec 4) (s : State) : Res :=
  lift (fun w => let (oc, w) := ingress port cell w; timeArrive port (delayRespOp port) oc w) s
/-- An ANNOUNCE from a neighbour switch updates its candidate (05 R165). -/
def announceOp (p : Nat) (c : Cell) (s : Sw) : Sw :=
  if c.ttype != 3 || !s.isSwitch p then s
  else
    let old := s.srcContent s.sync.src
    let a : Announce := { sourceId := c.q 16, cls := c.f 24 1, prio := c.f 25 1, steps := c.f 26 1, at_ := s.now }
    reselect 2 old (s.modSync (fun y => { y with ann := if a.steps < 15 then y.ann.set p a else y.ann.erase p }))
/-- ANNOUNCE_RECEIVE (05 R165). -/
def execAnnounceReceive (port : Nat) (cell : Cell) (s : State) : Res :=
  lift (fun w => let (oc, w) := ingress port cell w; timeArrive port (announceOp port) oc w) s

/-! ### Timers (05 R165, R166, R175) -/

/-- SYNC on port n, and ANNOUNCE when it is due. -/
def syncOn (withAnn : Bool) (n : Nat) (s : Sw) : Sw :=
  let seq := s.sync.syncSeq.getD n 0
  let s := s.modSync (fun y => { y with syncSeq := y.syncSeq.set n ((seq + 1) % 65536) })
  let s := sendCtrl n (timeCell 0 s.time.domain seq (le 1 s.sync.state.code ++ List.replicate 6 0 ++ le 8 (s.srcId s.sync.src).toNat)) s
  let (cls, prio, steps) := s.announced
  if !withAnn || 15 ≤ steps then s
  else
    let aseq := s.sync.annSeq.getD n 0
    let s := s.modSync (fun y => { y with annSeq := y.annSeq.set n ((aseq + 1) % 65536) })
    sendCtrl n (timeCell 3 s.time.domain aseq (List.replicate 7 0 ++ le 8 (s.srcId s.sync.src).toNat ++ le 1 cls ++ le 1 prio ++ le 1 steps ++
      le 1 s.time.active)) s
/-- The tick of a SYNC interval. -/
def syncIntervalOp (s : Sw) : Sw :=
  let s := toTick s.time.syncLog2 none s
  let due := s.sync.intervals % 16 == 0
  let s := s.modSync (fun y => { y with intervals := y.intervals + 1 })
  each (s.upPorts.filter (fun n => s.timeParent != some n)) (syncOn due) s
/-- SYNC_INTERVAL (05 R175). -/
def execSyncInterval (s : State) : Res := lift syncIntervalOp s
/-- A follower sends its DELAY_REQ. -/
def delayReqTimerOp (s : Sw) : Sw :=
  match s.timeParent with
  | none => s
  | some p =>
    let seq := s.sync.reqSeq.getD p 0
    let s := s.modSync (fun y => { y with reqSeq := y.reqSeq.set p ((seq + 1) % 65536), req := some (BitVec.ofNat 16 seq, s.gtc16) })
    sendCtrl p (timeCell 1 s.time.domain seq []) s
/-- DELAY_REQ_TIMER (05 R175). -/
def execDelayReqTimer (s : State) : Res := lift delayReqTimerOp s
/-- DELAY_REQ_TIMEOUT: the request is dropped from the computation (05 R175). -/
def execDelayReqTimeout (s : State) : Res := lift (fun w => w.modSync (fun y => { y with req := none })) s
/-- ANNOUNCE_TIMEOUT: the port is no candidate any more (05 R165, R166). -/
def execAnnounceTimeout (port : Nat) (s : State) : Res :=
  lift (fun w => if w.sync.ann.mem port then dropAnnounce port 2 w else w) s
/-- HOLDOVER ends: the frequency correction with it, and the switch, now of class 2, selects again (05 R165, R166). -/
def holdoverOp (s : Sw) : Sw :=
  if s.sync.state == .holdover then
    reselectNow (raiseSys 0x030A (le 4 10000)
      ((s.modSync (fun y => { y with state := .freeRun })).modTime (fun t => { t with freq := (0, 0) })))
  else s
/-- HOLDOVER_EXPIRED: 10 s without a source (05 R166). -/
def execHoldoverExpired (s : State) : Res := lift holdoverOp s

/-! ### Register fields with an action (05 R166, R178) -/

/-- SOURCE is written: selection starts again from FREE_RUN (05 R166). -/
def writeSource (value : Nat) (s : Sw) : Sw :=
  let old := s.srcContent s.sync.src
  let s := s.modTime (fun t => { t with source := value % 4 })
  reselect 0 old (s.modSync (fun y => { y with state := .freeRun, src := .self, good := 0, bad := 0, t12 := none, req := none, pairs := [] }))
/-- SOURCE_WRITE (05 R166). -/
def execSourceWrite (value : Nat) (s : State) : Res := lift (writeSource value) s
/-- The quotas in force on port n, scaled where R182 scaled them (05 R178, R182). -/
def Sw.quotaInForce (s : Sw) (n : Nat) : Nat := (s.quotasOn n).foldl (fun a e => a + s.quotaOf n e.1 e.2.1) 0
/-- The lowest-numbered UP port on which the quotas in force do not fit under period 2^p. -/
def periodMisfit (s : Sw) (p : Nat) : Option Nat := s.upPorts.find? (fun n => decide (s.schedCap n p < s.quotaInForce n))
/-- PERIOD_LOG2 is written by function `func`; `raw` is the value of the whole write, which event 0x0106 records
(05 R178, R190; 12 R435). -/
def writePeriod (func raw : Nat) (s : Sw) : Sw :=
  let value := raw % 16
  if value < 9 || 14 < value then regDiscard func 0x2008 raw 1 s
  else match periodMisfit s value with
    | some n => raiseSys 0x0305 (le 1 3 ++ le 2 n ++ le 8 s.frame ++ le 1 value) (countDiscard 0x2008 1 s)
    | none => s.modTime (fun t => { t with period := value, periodAt := some t.gtc })
/-- PERIOD_LOG2_WRITE (05 R178). -/
def execPeriodLog2Write (value : Nat) (s : State) : Res := lift (writePeriod 0 value) s
/-- The tick at which a new period takes effect: the first multiple of 16,384 ns after the write. -/
def periodChangedOp (s : Sw) : Sw :=
  let old := s.time.active
  if s.time.period = old then s
  else
    let s := toTick 14 s.time.periodAt s
    let s := s.modTime (fun t => { t with active := t.period })
    raiseSys 0x0304 (le 1 old ++ le 1 s.time.active ++ le 8 s.gtc.toNat) s
/-- FRAME_PERIOD_CHANGED (05 R178). -/
def execFramePeriodChanged (s : State) : Res := lift periodChangedOp s

/-! ### Quotas and launches (05 R181, R186) -/

/-- The switch with every pending plan in effect, and this one of context x. -/
def withPlan (x rank : Nat) (q : Nat × Nat × Nat) (s : Sw) : Sw :=
  each s.ctxs.keys takeQuota (s.modCtx x (fun c => { c with quotaNext := some (rank, q) }))
/-- The quotas exceed S on some canopy port of context x that is UP, under period 2^p (05 R181). -/
def planMisfit (s : Sw) (x p : Nat) : Bool :=
  match s.ctx? x with
  | none => false
  | some c => (dedup (c.canopy.ports.map (s.physPort x))).any (fun o => s.up o && decide (s.schedCap o p < s.quotaSum o))
/-- FRAME_QUOTA. -/
def frameQuotaOp (b : Sub) (t : Tok) (s : Sw) : Sw :=
  let x := b.f 8 2 % 4096
  let clear := b.flag 11 0
  let q := (b.f 12 2, b.f 14 2, b.f 16 2)
  let rank := b.f 10 1
  let planned := withPlan x rank q s
  guardDesc t [
    (!b.only [by_ 8 2 &&& ~~~ bi_ 9 4 4, by_ 10 1, bi_ 11 0 1, by_ 12 6], stBad),
    (match s.ctx? x with | some c => c.closing | none => true, stBad),
    (clear && q != (0, 0, 0), stBad),
    (match s.ctx? x with | some c => !s.owns b.func c.cfg.job | none => false, stDenied),
    (planMisfit planned x s.time.active || (s.time.period != s.time.active && planMisfit planned x s.time.period), stNoRes)]
    (fun s => complete t stOk (s.modCtx x (fun c => { c with quotaNext := some (rank, q) }))) s
/-- FRAME_QUOTA (05 R181). -/
def execFrameQuota (sub : Sub) (s : State) : Res := lift (runDesc 0x70 frameQuotaOp sub) s

/-- The launch instant of an operation has come: what waited in staging goes on (05 R186). -/
def launchOp (x o : Nat) (s : Sw) : Sw :=
  match s.op? x o with
  | none => s
  | some p =>
    match p.launchAt with
    | none => s
    | some l =>
      let s := if s.launched p then s
        else s.modTime (fun t => { t with gtc := l, frac := 0, elapsed := t.elapsed + (l - t.gtc).toNat })
      let s := each p.waiting (fun e s => gridCellWhole x o e.1 e.2 s) s
      settle x (gatherEmit x o (releaseExchange x o (recordResume x o (fun _ _ => true) s)))
/-- LAUNCH_INSTANT (05 R186). -/
def execLaunchInstant (ctx opnum : Nat) (s : State) : Res := lift (launchOp ctx opnum) s

end Sys2Proof.Machine
end

