-- ==== Sys2Proof/Machine/Registers.lean ====
section
/-! DEFINITION. Writes of registers: the checks of R9, R11, R541 and R542, and the effect of each writable field (00 R8 to R11; 03 R86;
05 R190; 11 R375, R396, R397; 12 R400, R401, R406, R409, R417 to R420, R426; 13 R462, R463; 14 R471, R483; 15 R496, R502; 16 R535;
18 R541, R542, R545 to R557). -/
namespace Sys2Proof.Machine

/-! ### Writable registers of BAR0 -/

/-- GLB: LEVEL, SCRATCH, and the reset and clock registers (14 R472, R476, R483; 18 R547). -/
def setGlb (func off : Nat) (v : Word) (s : Sw) : Sw :=
  let n := v.toNat
  match off with
  | 0x20 => if n < 2 || 5 < n then regDiscard func off n 1 s else s.modGlb (fun g => { g with level := n })
  | 0x3C => s.modGlb (fun g => { g with scratch := v })
  | 0x200 =>
    if n / 2 ^ 24 != 0x5A then regDiscard func off n 1 s
    else (match n % 4 with
      | 0 => s
      | 1 => if s.starting then regDiscard func off n 1 s else warmReset 2 s
      | 2 => coldReset 2 s
      | _ => powerOff s)
  | 0x20C => tileResetWrite func n s
  | 0x210 => portResetWrite func n s
  | 0x214 => clockWrite func n s
  | _ => s
/-- PWR. -/
def setPwr (func off : Nat) (v : Word) (s : Sw) : Sw :=
  match off with
  | 0x1000 => profileWrite func v.toNat s
  | 0x1038 => s.modPwr (fun p => { p with vinWarn := v.toNat })
  | _ => s
/-- TIME. A write of TIME_SYNC_CTRL writes SOURCE, whatever its value (log 59). -/
def setTime (func off : Nat) (v : Word) (s : Sw) : Sw :=
  let n := v.toNat
  match off with
  | 0x2008 => writePeriod func n s
  | 0x200C =>
    let k := field v 24 5
    if k < 14 || 20 < k then regDiscard func off n 1 s
    else writeSource (n % 4) (s.modTime (fun t => { t with syncLog2 := k, prio := field v 16 8, domain := field v 8 8, outEnable := bit v 2 }))
  | 0x2018 => s.modTime (fun t => { t with inDelay := n })
  | 0x201C => s.modTime (fun t => { t with lead := n })
  | 0x2020 => if 64 < n then regDiscard func off n 1 s else s.modTime (fun t => { t with schedMax := n })
  | _ => s
/-- SEC: SEC_MGMT_CTRL and SEC_LINK[n].MODE. -/
def setSec (off : Nat) (v : Word) (s : Sw) : Sw :=
  if off = 0x3018 then s.modSec (fun c => { c with locate := bit v 0, btnEnable := bit v 1, btnPower := bit v 2 })
  else if 0x3800 ≤ off then s.modPSec ((off - 0x3800) / 4) (fun p => { p with mode := bit v 0 })
  else s
/-- A base with its low or high half written. -/
def setHalf (high : Bool) (v : Word) (b : Quad) : Quad :=
  BitVec.ofNat 64 (if high then v.toNat * 2 ^ 32 + b.toNat % 2 ^ 32 else b.toNat / 2 ^ 32 * 2 ^ 32 + v.toNat)
/-- A write to a ring entry; a VF window leaves FUNC and LSLOT (12 R401, R409, R411). `off`: the PF's offset, for a discard. -/
def setRing (func n reg : Nat) (v : Word) (s : Sw) : Sw :=
  let r := s.ring n
  let w (r' : Ring) : Sw :=
    if r.state == .disabled then s.modRing n (fun _ => r') else if r' = r then s else regDiscard func (ringOffset n reg) v.toNat 1 s
  match reg with
  | 0 => w { r with base := setHalf false v r.base }
  | 4 => w { r with base := setHalf true v r.base }
  | 8 =>
    let r' := { r with
      sizeLog2 := field v 24 5, cevq := field v 16 8, func := if func = 0 then field v 8 8 else r.func
      lslot := if func = 0 then field v 2 6 else r.lslot }
    if r.state != .disabled then
      if r' != r then regDiscard func (ringOffset n 8) v.toNat 1 s
      else if bit v 31 then ringStart func n s
      else ringStop n s
    else
      let t := s.modRing n (fun _ => r')
      if !bit v 31 then t
      else if t.ringReady n then ringStart func n t
      else regDiscard func (ringOffset n 8) v.toNat 1 s
  | _ => s
/-- A write to an event-queue entry (12 R401, R420). -/
def setEvq (func q reg : Nat) (v : Word) (s : Sw) : Sw :=
  let e := s.evq q
  let w (e' : Evq) : Sw :=
    if !e.active then s.modEvq q (fun _ => e') else if e' = e then s else regDiscard func (evqOffset q reg) v.toNat 1 s
  match reg with
  | 0 => w { e with base := setHalf false v e.base }
  | 4 => w { e with base := setHalf true v e.base }
  | 8 =>
    let e' := { e with
      sizeLog2 := field v 24 5, vector := field v 16 8, func := if func = 0 then field v 8 8 else e.func
      lslot := if func = 0 then field v 0 4 else e.lslot }
    if e.active then
      if e' != e then regDiscard func (evqOffset q 8) v.toNat 1 s
      else if bit v 31 then s
      else evqStop func q s
    else
      let t := s.modEvq q (fun _ => e')
      if !bit v 31 then t
      else if t.evqReady q then evqStart func q t
      else regDiscard func (evqOffset q 8) v.toNat 1 s
  | _ => s
/-- A write of PORT_PERSONALITY[n]: SPLIT at n = 4q and ALLOW are set, then ADMIN_UP acts (03 R86, R107). -/
def setPersonality (n : Nat) (v : Word) (s : Sw) : Sw :=
  let s := if n % 4 = 0 then s.modQuad (n / 4) (fun d => { d with split := field v 8 2 }) else s
  let s := s.modReg n (fun r => { r with allow := BitVec.ofNat 3 (field v 12 3) })
  if bit v 5 then adminUpOp n s else adminDown n s
/-- PORT_VC_CREDIT[n] word w: no channel may be left with 0, nor the sum exceed 1,024 (18 R554). -/
def setCredit (func n w : Nat) (v : Word) (s : Sw) : Sw :=
  let l := ((s.port n).reg.vcCredit.set (2 * w) (field v 0 11)).set (2 * w + 1) (field v 16 11)
  if l.contains 0 || 1024 < l.foldl (· + ·) 0 then regDiscard func (0x20000 + 0x100 * n + 0x20 + 4 * w) v.toNat 1 s
  else s.modReg n (fun r => { r with vcCredit := l })
/-- A write to the entry of port n; of a port inactive on the variant it is discarded (18 R552 to R555). -/
def setPort (func n reg : Nat) (v : Word) (s : Sw) : Sw :=
  if !s.portActive n then regDiscard func (0x20000 + 0x100 * n + reg) v.toNat 1 s
  else if reg = 0 then setPersonality n v s
  else if reg = 0x18 then s.modReg n (fun r => { r with timeAsym := v })
  else if 0x20 ≤ reg && reg < 0x38 then setCredit func n ((reg - 0x20) / 4) v s
  else s
/-- A write to the entry of lane l (13 R454 to R456, R462). -/
def setLane (func l reg : Nat) (v : Word) (s : Sw) : Sw :=
  match reg with
  | 0x04 => s.modLane l (fun x => { x with txInit := field v 0 2, noReq := bit v 2, ignoreReq := bit v 3, trainMs := field v 8 8 })
  | 0x18 => testWrite func l v s
  | 0x1C =>
    if field v 0 2 = 0 then
      s.modTest l (fun t => { t with injCount := field v 24 8, injPeriod := field v 16 5, injSyms := field v 8 5, injMode := 0 })
    else injectWrite func l (field v 24 8) (field v 16 5) (field v 8 5) (field v 0 2) s
  | _ => s
/-- LAS_CTRL[m] (13 R459, R463). -/
def setSite (m reg : Nat) (v : Word) (s : Sw) : Sw :=
  if reg != 0 then s
  else
    let s := if bit v 0 then laserOn m s else laserOff m s
    if bit v 1 then prepRemoveOp m s else prepCancel m s
/-- CXL block (11 R392, R397). -/
def setCxl (func off : Nat) (v : Word) (s : Sw) : Sw :=
  if off = 0x80200 then (if v = 0 then regDiscard func off 0 1 s else s.setHoldMs v.toNat)
  else if 0x80200 ≤ off || off % 0x100 != 0 then s
  else s.modRoot ((off - 0x80000) / 0x100) (fun c => { c with enable := bit v 0, use := bit v 1 })
/-- WEAR_UTC (15 R502). -/
def setWear (off : Nat) (v : Word) (s : Sw) : Sw :=
  if off = 0x90004 || off = 0x90008 then s.modWear (fun w => { w with utc := setHalf (off == 0x90008) v w.utc, utcSet := true }) else s
/-- POOL_WARN and POOL_JOB_LIMIT (11 R375). -/
def setPool (off : Nat) (v : Word) (s : Sw) : Sw :=
  if off < 0xA0070 then (if off % 0x10 = 0xC then s.modPool (fun p => { p with warn := p.warn.set ((off - 0xA0000) / 0x10) v }) else s)
  else if 0xA0100 ≤ off && off < 0xA0500 then s.modPool (fun p => { p with jobLimit := p.jobLimit.set ((off - 0xA0100) / 4) v.toNat })
  else s
/-- The effect of a write that R9 lets through. RO fields take none (R8). -/
def setReg (func off : Nat) (v : Word) (s : Sw) : Sw :=
  if off < 0x1000 then setGlb func off v s
  else if off < 0x2000 then setPwr func off v s
  else if off < 0x3000 then setTime func off v s
  else if off < 0x4000 then setSec off v s
  else if off < 0x8000 then setRing func ((off - 0x4000) / 0x10) (off % 0x10) v s
  else if off < 0x9000 then setEvq func ((off - 0x8000) / 0x10) (off % 0x10) v s
  else if off < 0x20000 then s
  else if off < 0x40000 then setPort func ((off - 0x20000) / 0x100) (off % 0x100) v s
  else if off < 0x60000 then setLane func ((off - 0x40000) / 0x100) (off % 0x100) v s
  else if off = 0x67F00 then
    (if 5 < v.toNat % 16 then regDiscard func off v.toNat 1 s else s.modGlb (fun g => { g with ssc := v.toNat % 16 }))
  else if off < 0x68000 then s
  else if off < 0x69000 then setSite ((off - 0x68000) / 0x100) (off % 0x100) v s
  else if off < 0x76000 then (if off % 0x400 = 4 then s.modStack ((off - 0x70000) / 0x400) (fun t => { t with mapout := v }) else s)
  else if off < 0x80210 then setCxl func off v s
  else if off < 0xA0000 then setWear off v s
  else setPool off v s
/-- A write to BAR0 of the PF: size and alignment, a stopped domain, a reserved offset, RSV bits, then the effect (R9, R471, R541,
R542). -/
def bar0Write (f : Fuses) (off size : Nat) (v : Word) (s : Sw) : Sw :=
  if 2 ^ 24 ≤ off then s
  else if size != 4 || off % 4 != 0 then regDiscard 0 off v.toNat 3 s
  else if stopped s off then accessEnds 0 off false s
  else
    match regAt f s off with
    | none => regDiscard 0 off v.toNat 2 s
    | some r => if v &&& BitVec.ofNat 32 r.rsv != 0 then regDiscard 0 off v.toNat 0 s else setReg 0 off v s

/-! ### BAR0 of a VF (12 R401; 18 R556) -/

/-- A write to BAR0 of VF k: its ring and queue windows, without FUNC and LSLOT; the identity page is RO. -/
def vfWrite (k off size : Nat) (v : Word) (s : Sw) : Sw :=
  if 4096 ≤ off then s
  else if size != 4 || off % 4 != 0 then regDiscard k off v.toNat 3 s
  else
    match vfView s k off with
    | none => if 0x400 ≤ off && off < 0x900 then s else regDiscard k off v.toNat 2 s
    | some r =>
      if v &&& BitVec.ofNat 32 r.rsv != 0 then regDiscard k off v.toNat 0 s
      else if off < 0x400 then s
      else if off < 0x800 then (match s.ringIn k ((off - 0x400) / 0x10) with | some n => setRing k n (off % 0x10) v s | none => s)
      else (match s.evqIn k ((off - 0x800) / 0x10) with | some q => setEvq k q (off % 0x10) v s | none => s)

/-! ### BAR2: doorbell pages (12 R417 to R419; 18 R557) -/

/-- A write of CMD: CANCEL_WAIT, then RESUME (R417). -/
def cmdWrite (n : Nat) (v : Word) (s : Sw) : Sw :=
  if 4 ≤ v.toNat then ringDoorbellBad n 3 v s
  else onlyIf (bit v 1) (Sw.modRing n resumeRing) (onlyIf (bit v 0) (endWait n stAborted) s)
/-- A write to the page of ring n. -/
def ringPage (func n off size : Nat) (v : Word) (s : Sw) : Sw :=
  if size != 4 || (off != 0 && off != 4) then ringBell func n v (ringDoorbellBad n 2 v) s
  else ringBell func n v (if off = 0 then tailWrite n v else cmdWrite n v) s
/-- A write to the page of event queue q. -/
def evqPage (func q off size : Nat) (v : Word) (s : Sw) : Sw :=
  if size = 4 && off = 0 then evqBell func q v s
  else if (s.evq q).func != func then evqBell func q v s
  else evqDoorbellBad q 2 v s
/-- A write to BAR2 of a function; reserved space discards it. -/
def bar2Write (func off size : Nat) (v : Word) (s : Sw) : Sw :=
  let page := off / 4096
  let at_ := off % 4096
  if func = 0 then
    if page < 1024 then ringPage 0 page at_ size v s
    else if page < 1280 then evqPage 0 (page - 1024) at_ size v s
    else s
  else if page < 64 then (match s.ringIn func page with | some n => ringPage func n at_ size v s | none => s)
  else if page < 80 then (match s.evqIn func (page - 64) with | some q => evqPage func q at_ size v s | none => s)
  else s

/-! ### BAR4: MSI-X (12 R400, R426; layout PRESUMED from PCIe, log 60) -/

/-- A word of the MSI-X table entry of a vector; a pending vector that is unmasked sends its message. -/
def msixWrite (func vec word : Nat) (v : Word) (s : Sw) : Sw :=
  let key := func * 256 + vec
  let e := s.host.msix.getD key {}
  let put (e : MsixEntry) (s : Sw) : Sw := s.modHost (fun h => { h with msix := h.msix.set key e })
  match word with
  | 0 => put { e with addr := setHalf false (v &&& 0xFFFFFFFC) e.addr } s
  | 1 => put { e with addr := setHalf true v e.addr } s
  | 2 => put { e with data := v } s
  | _ =>
    let s := put { e with mask := bit v 0, pending := e.pending && bit v 0 } s
    if e.pending && !bit v 0 then sendMsix func vec s else s
/-- A write to BAR4 of a function: the table takes aligned words; everything else discards it. -/
def bar4Write (func off size : Nat) (v : Word) (s : Sw) : Sw :=
  let vectors := if func = 0 then 256 else 32
  if size != 4 || off % 4 != 0 || 16 * vectors ≤ off then s else msixWrite func (off / 16) (off % 16 / 4) v s

/-! ### REGISTER_WRITE (00 R11) -/

/-- VF Enable (bit 0) and NumVFs (bits 31 to 16) of the SR-IOV capability; NumVFs changes while VF Enable is 0 (12 R406; layout
PRESUMED, log 60). -/
def sriovWrite (v : Word) (s : Sw) : Sw :=
  s.modHost (fun h => { h with vfEnable := bit v 0, numVfs := if h.vfEnable then h.numVfs else min 255 (field v 16 16) })
/-- A register write of a function that reaches the switch (14 R571). -/
def writeOp (f : Fuses) (func : Nat) (space : RegSpace) (off size : Nat) (v : Word) (s : Sw) : Sw :=
  if !s.hostReach func then s
  else
    match space with
    | .bar0 => if func = 0 then bar0Write f off size v s else vfWrite func off size v s
    | .bar2 => bar2Write func off size v s
    | .bar4 => bar4Write func off size v s
    | .sriov => if func = 0 then sriovWrite v s else s
/-- REGISTER_WRITE (00 R11). -/
def execRegisterWrite (func : Nat) (space : RegSpace) (offset size : Nat) (value : Word) (s : State) : Res :=
  lift (writeOp s.fuses func space offset size value) s

end Sys2Proof.Machine
end

