-- ==== Sys2Proof/Machine/Routes.lean ====
section
/-! DEFINITION. The commands of the Routes family: route tables, route versions and epochs, and fabric settings (10 R332 to R351,
R361 to R363). -/
namespace Sys2Proof.Machine

/-! ### Entries (10 R335, R336) -/

/-- Bytes of an entry of a table. -/
def routeBytes (table : Nat) : Nat := match table with | 0 => 16 | 1 => 72 | _ => 8
/-- An entry keeps every RSV field 0, its key lies in the table's range, and ranks run from 1 (10 R332, R335). -/
def routeForm (table : Nat) (e : List Byte) : Bool :=
  match table with
  | 0 => decide (byteAt e 1 < 2) && bytesAt e 14 2 == 0
  | 1 => decide (bytesAt e 0 2 < 1024) && decide (byteAt e 3 < 2) && bytesAt e 4 4 == 0
  | 2 => decide (bytesAt e 0 2 < 4096) && decide (byteAt e 6 < 2) && byteAt e 7 == 0
  | 3 => decide (bytesAt e 0 2 < 4096) && decide (byteAt e 6 < 2) && byteAt e 7 == 0
  | _ => decide (bytesAt e 0 2 < 512) && bytesAt e 2 2 != 0 && bytesAt e 4 2 != 0 && decide (byteAt e 6 < 4) && byteAt e 7 == 0
/-- Store or remove an entry of one version. RANK entries are kept in the order of writing until R336 has been judged. -/
def RouteVer.write (table : Nat) (v : RouteVer) (e : List Byte) : RouteVer :=
  match table with
  | 1 =>
    let g := bytesAt e 0 2
    if byteAt e 3 = 1 then { v with mcast := v.mcast.set g { job := byteAt e 2, mask := BitVec.ofNat 512 (bytesAt e 8 64) } }
    else { v with mcast := v.mcast.erase g }
  | 2 =>
    let k := edgeKey (bytesAt e 0 2) (bytesAt e 2 2)
    if byteAt e 6 = 1 then { v with transit := v.transit.set k { ctx := bytesAt e 0 2, dn := bytesAt e 2 2, up := bytesAt e 4 2 } }
    else { v with transit := v.transit.erase k }
  | 3 =>
    let k := edgeKey (bytesAt e 0 2) (bytesAt e 2 2)
    if byteAt e 6 = 1 then { v with edge := v.edge.set k { ctx := bytesAt e 0 2, lport := bytesAt e 2 2, pport := bytesAt e 4 2 } }
    else { v with edge := v.edge.erase k }
  | _ => v
/-- A RANK entry in bytes. -/
def parseRank (e : List Byte) : RankEnt :=
  { job := byteAt e 0, first := bytesAt e 2 2, last := bytesAt e 4 2, cands := (List.range 4).map (fun i => optPort (bytesAt e (6 + 2 * i) 2)) }
/-- Store or remove a RANK entry; its key is the job and the range. -/
def writeRank (l : List RankEnt) (e : List Byte) : List RankEnt :=
  let r := parseRank e
  let l := l.filter (fun o => !(o.job == r.job && o.first == r.first && o.last == r.last))
  if byteAt e 1 = 1 then l ++ [r] else l
/-- R336 for RANK entries. -/
def ranksGood (l : List RankEnt) : Bool :=
  l.all (fun r => decide (r.first ≤ r.last) && distinct (r.cands.filterMap id) && (r.cands.filterMap id).all (fun p => decide (p < 512))) &&
    (List.range l.length).all (fun i => (l.drop (i + 1)).all (fun b => match l[i]? with
      | some a => a.job != b.job || decide (a.last < b.first) || decide (b.last < a.first)
      | none => true))
/-- R336 for TRANSIT and EDGE entries. -/
def pathsGood (v : RouteVer) : Bool :=
  let uses := v.transit.vals.map (fun e => (e.ctx, e.dn)) ++ v.transit.vals.map (fun e => (e.ctx, e.up)) ++
    v.edge.vals.map (fun e => (e.ctx, e.pport))
  distinct (uses.map (fun u => edgeKey u.1 u.2)) && v.edge.vals.all (fun e => e.lport != e.pport)
/-- Entries a version may hold in a table (10 R334). -/
def routeCapacity (table : Nat) : Nat := if table = 1 then 1024 else 16384
/-- Entries of a table of a version. -/
def RouteVer.count (v : RouteVer) (table : Nat) : Nat :=
  match table with | 0 => v.rank.length | 1 => v.mcast.length | 2 => v.transit.length | _ => v.edge.length
/-- A version with one table emptied. -/
def RouteVer.clear (v : RouteVer) (table : Nat) : RouteVer :=
  match table with | 0 => { v with rank := [] } | 1 => { v with mcast := [] } | 2 => { v with transit := [] } | _ => { v with edge := [] }
/-- What writing entries to a table of a version leaves; none when R336 is broken. -/
def RouteVer.written (v : RouteVer) (table : Nat) (es : List (List Byte)) : Option RouteVer :=
  if table = 0 then
    let l := es.foldl writeRank v.rank.vals
    if ranksGood l then some { v with rank := l.foldl (fun m r => SMap.set (r.job * 65536 + r.first) r m) [] } else none
  else
    let v := es.foldl (RouteVer.write table) v
    if pathsGood v then some v else none

/-! ### ROUTE_WRITE and ROUTE_READ (10 R362, R363) -/

/-- Write PORT_RANK entries; every switch port is told (10 R348). -/
def writePortRanks (clear : Bool) (es : List (List Byte)) (s : Sw) : Sw :=
  let s := if clear then s.modFab (fun f => { f with ranks := [] }) else s
  let s := s.modFab (fun f => { f with ranks := es.foldl (fun m e =>
    SMap.set (bytesAt e 0 2) { out := bytesAt e 2 2, inn := bytesAt e 4 2, dlOut := (byteAt e 6).testBit 0, dlIn := (byteAt e 6).testBit 1 } m) f.ranks })
  announceAll s
/-- ROUTE_WRITE. -/
def routeWriteOp (b : Sub) (t : Tok) (s : Sw) : Sw :=
  let v := b.bits 8 0 1
  let table := b.f 9 1
  let size := routeBytes table
  let n := b.f 12 4
  let clear := b.flag 10 0
  let es := chunks size (b.host.take (n * size))
  let ver := s.ver v
  let base := if clear then ver.clear table else ver
  let out := base.written table es
  guardDesc t [
    (!b.only [bi_ 8 0 1, by_ 9 1, bi_ 10 0 1, by_ 12 4, by_ 24 8, by_ 40 4] || decide (4 < table) || (table == 4 && v != 0), stBad),
    (decide (table < 4) && ver.st != .standby, stDenied),
    (b.f 40 4 != n * size, stBad)]
    (hostGuard b t (guardDesc t [
      (table == 4 && es.any (fun e => decide (bytesAt e 0 2 < 512) && s.up (bytesAt e 0 2)), stDenied),
      (es.length != n || !es.all (routeForm table) || (decide (table < 4) && out.isNone), stBad),
      (match out with | some r => decide (table < 4) && decide (routeCapacity table < r.count table) | none => false, stNoRes)]
      (fun s =>
        if table = 4 then complete t stOk (writePortRanks clear es s)
        else match out with
          | some r => complete t stOk (s.modVer v (fun _ => r))
          | none => s))) s
/-- ROUTE_WRITE (10 R362). -/
def execRouteWrite (sub : Sub) (s : State) : Res := lift (runDesc 0x60 routeWriteOp sub) s
/-- A candidate or other port in bytes. -/
def portBytes (p : Option Nat) : List Byte := le 2 (p.getD 0xFFFF)
/-- The valid entries of a table in ascending key; the port rank table has one for every port (DEDUCED, log 42). -/
def routeTable (s : Sw) (v table : Nat) : List Byte :=
  let r := s.ver v
  match table with
  | 0 => (r.rank.vals.map (fun e => le 1 e.job ++ le 1 1 ++ le 2 e.first ++ le 2 e.last ++ (e.cands.map portBytes).flatten ++ le 2 0)).flatten
  | 1 => (r.mcast.map (fun (e : Nat × McastEnt) => le 2 e.1 ++ le 1 e.2.job ++ le 1 1 ++ le 4 0 ++ le 64 e.2.mask.toNat)).flatten
  | 2 => (r.transit.vals.map (fun e => le 2 e.ctx ++ le 2 e.dn ++ le 2 e.up ++ le 1 1 ++ le 1 0)).flatten
  | 3 => (r.edge.vals.map (fun e => le 2 e.ctx ++ le 2 e.lport ++ le 2 e.pport ++ le 1 1 ++ le 1 0)).flatten
  | _ => ((List.range 512).map (fun n =>
      let e := s.fab.ranks.getD n {}
      let (inn, dlIn) := s.rankIn n
      le 2 n ++ le 2 e.out ++ le 2 inn ++ le 1 (b2n e.dlOut + 2 * b2n dlIn) ++ le 1 0)).flatten
/-- ROUTE_READ. -/
def routeReadOp (b : Sub) (t : Tok) (s : Sw) : Sw :=
  let table := b.f 9 1
  let bytes := routeTable s (b.bits 8 0 1) table
  guardDesc t [(!b.only [bi_ 8 0 1, by_ 9 1, by_ 24 8, by_ 40 4] || decide (4 < table) || (table == 4 && b.bits 8 0 1 != 0), stBad),
      (decide (b.f 40 4 < bytes.length), stNoRes)]
    (hostGuard b t (fun s => complete t stOk (hostWrite t (b.q 24) bytes s))) s
/-- ROUTE_READ (10 R363). -/
def execRouteRead (sub : Sub) (s : State) : Res := lift (runDesc 0x63 routeReadOp sub) s

/-! ### ROUTE_ARM and EPOCH_FLIP (10 R345, R346, R351) -/

/-- Disarm a version: an EPOCH_FLIP that waited for its instant finds its GEN neither ARMED nor adopted (10 R345, R351;
DEDUCED, log 43). -/
def disarm (v : Nat) (t : Tok) (s : Sw) : Sw :=
  let waits := s.fab.flip.bind (fun w => w.tok)
  let s := (s.modVer v (fun r => { r with st := .standby })).modFab (fun f => { f with armedGen := 0, trigger := 0, flip := none })
  announceAll (complete t stOk (completeOpt waits stStale s))
/-- ROUTE_ARM. -/
def routeArmOp (b : Sub) (t : Tok) (s : Sw) : Sw :=
  let v := b.bits 8 0 1
  let off := b.flag 9 0
  let gen := b.f 12 4
  guardDesc t [
    (!b.only [bi_ 8 0 1, bi_ 9 0 1, by_ 12 4, by_ 24 8], stBad),
    (off && (s.ver v).st != .armed, stDenied),
    (!off && decide (gen ≤ s.fab.gen), stBad),
    (!off && ((s.ver v).st != .standby || (s.ver (1 - v)).st != .active), stDenied)]
    (fun s =>
      if off then disarm v t s
      else hostGuard b t (fun s =>
        let mask := if b.f 24 8 = 0 then 0 else BitVec.ofNat 512 (ofLe (b.host.take 64))
        let s := (s.modVer v (fun r => { r with st := .armed })).modFab (fun f => { f with armedGen := gen, trigger := mask })
        announceAll (complete t stOk s)) s) s
/-- ROUTE_ARM (10 R345). -/
def execRouteArm (sub : Sub) (s : State) : Res := lift (runDesc 0x61 routeArmOp sub) s
/-- An instant of a flip has come; 0 is at once (10 R346). -/
def Sw.flipDue (s : Sw) (at_ : Quad) : Bool := at_ == 0 || gtcReached s.gtc at_
/-- Take a flip that waits, now. -/
def flipNow (w : PendingFlip) (s : Sw) : Sw :=
  flip w.src (b2n w.loss) w.lostId w.at_ w.noprop (s.modFab (fun f => { f with flip := some w }))
/-- A flip of the ARMED generation is asked for: at once, or at its instant; of two that wait, the earlier stands, and the
descriptor completes with it (10 R346, R351). -/
def askFlip (w : PendingFlip) (s : Sw) : Sw :=
  let w := match s.fab.flip with
    | some o => { (if w.at_ != 0 && gtcReached w.at_ o.at_ then o else w) with tok := o.tok.or w.tok }
    | none => w
  if s.flipDue w.at_ then flipNow w s else s.modFab (fun f => { f with flip := some w })
/-- EPOCH_FLIP. For a GEN already adopted its completion record is event 0x0720 with the already-adopted flag (10 R351; 12 R422;
DEDUCED, log 20). -/
def epochFlipOp (b : Sub) (t : Tok) (s : Sw) : Sw :=
  let gen := b.f 12 4
  let at_ := b.q 16
  let armed := s.armed.isSome && s.fab.armedGen == gen
  guardDesc t [
    (!b.only [bi_ 8 0 1, bi_ 9 0 1, by_ 12 12] || (at_ != 0 && gtcBeyond at_ s.gtc (2 ^ 36)) || (armed && s.armed != some (b.bits 8 0 1)), stBad),
    (armed && (s.fab.flip.bind (fun w => w.tok)).isSome, stDenied),
    (!armed && !s.fab.adopted.mem gen, stStale)]
    (fun s =>
      if armed then askFlip { gen := gen, at_ := at_, noprop := b.flag 9 0, loss := false, lostId := 0, src := 0xFFFF, tok := some t } s
      else match SMap.find? gen s.fab.adopted with
        | some (v, cause, lostId, src) => completeE t 0x0720 stOk (flipContent (1 - v) v gen cause lostId src true) s
        | none => s) s
/-- EPOCH_FLIP (10 R351). -/
def execEpochFlip (sub : Sub) (s : State) : Res := lift (runDesc 0x62 epochFlipOp sub) s
/-- The instant of the flip that waits has come: the GTC stands at it at least (log 24). -/
def flipTimerOp (s : Sw) : Sw :=
  match s.fab.flip with
  | none => s
  | some w =>
    let s := if s.flipDue w.at_ then s
      else s.modTime (fun u => { u with gtc := w.at_, frac := 0, elapsed := u.elapsed + (w.at_ - u.gtc).toNat })
    flipNow w s
/-- FLIP_TIMER (10 R346). -/
def execFlipTimer (s : State) : Res := lift flipTimerOp s

/-! ### EPOCH cells and draining (10 R345 to R348) -/

/-- An ANNOUNCE compares the ranks of a link (10 R332). -/
def announceTake (p : Nat) (c : Cell) (s : Sw) : Sw :=
  let e := s.fab.ranks.getD p {}
  let out := c.f 24 2
  let dl := c.f 26 1 % 2
  if e.inn = out && b2n e.dlIn = dl then s
  else raiseSys 0x0725 (le 2 p ++ le 2 e.inn ++ le 1 (b2n e.dlIn) ++ le 2 out ++ le 1 dl) s
/-- An EPOCH cell from the neighbour switch on port p. -/
def epochTake (p : Nat) (c : Cell) (s : Sw) : Sw :=
  let gen := c.f 0 4
  if c.tc != 5 || c.ctype != ctEpoch then s
  else if c.f 4 1 = 1 then announceTake p c s
  else if c.f 4 1 != 0 || gen ≤ s.fab.gen then s
  else if s.armed.isSome && s.fab.armedGen == gen then
    askFlip { gen := gen, at_ := c.q 8, noprop := false, loss := c.f 5 1 == 1, lostId := c.q 16, src := p, tok := none } s
  else raiseSys 0x0722 (le 2 p ++ le 4 gen ++ le 4 (if s.armed.isSome then s.fab.armedGen else 0)) s
/-- An EPOCH cell arrives: EPOCH cells travel only between switches. -/
def epochIn (p : Nat) (c : Cell) (s : Sw) : Sw :=
  let (oc, s) := ingress p c s
  match oc with
  | some c => if s.isSwitch p then epochTake p c s else s
  | none => s
/-- EPOCH_CELL_RECEIVE (10 R347). -/
def execEpochCellReceive (port : Nat) (cell : Cell) (s : State) : Res := lift (epochIn port cell) s
/-- Some cell of epoch v is held in the switch: received from a switch, queued, spilled, or waiting in a context for its launch. What
waits for a path gets its epoch when it is sent. -/
def Sw.holdsEpoch (s : Sw) (v : Nat) : Bool :=
  s.ports.any (fun (e : Nat × Port) =>
    (!s.isMember e.1 && e.2.q.rxq.any (fun i => i.cell.ep == v)) || (e.2.q.txq ++ e.2.q.spill).any (fun i => i.ep == v)) ||
  s.ctxs.any (fun (e : Nat × Ctx) => e.2.heldCells.any (fun w => w.2.tc == 2 && w.2.ep == v))
/-- DRAIN_US has passed without a cell of the DRAINING version. -/
def drained (v : Nat) (s : Sw) : Sw :=
  if decide (1 < v) || (s.ver v).st != .draining || s.holdsEpoch v then s
  else announceAll (raiseSys 0x0721 (le 4 v) (s.modVer v (fun r => { r with st := .standby })))
/-- EPOCH_DRAINED (10 R345). -/
def execEpochDrained (version : Nat) (s : State) : Res := lift (drained version) s

/-! ### JOB_ROUTE and FABRIC_CONFIG (10 R343, R363) -/

/-- JOB_ROUTE. -/
def jobRouteOp (b : Sub) (t : Tok) (s : Sw) : Sw :=
  let j := b.f 8 1
  guardDesc t [(!b.only [by_ 8 1, bi_ 9 0 1], stBad)]
    (fun s => complete t stOk (s.modFab (fun f => { f with adaptive := if b.flag 9 0 then setBit f.adaptive j else clrBit f.adaptive j }))) s
/-- JOB_ROUTE (10 R343). -/
def execJobRoute (sub : Sub) (s : State) : Res := lift (runDesc 0x64 jobRouteOp sub) s
/-- A field lies outside its range. -/
def outside (v lo hi : Nat) : Bool := decide (v < lo) || decide (hi < v)
/-- FABRIC_CONFIG. -/
def fabricConfigOp (b : Sub) (t : Tok) (s : Sw) : Sw :=
  let spill := b.f 20 4
  let fits := (spill == 0 || (List.range 4).any (fun g => s.stacksIn g != 0)) && (List.range 4).all (fun g => decide (s.shareOn spill g ≤ s.classFree 6 g + s.shareOn s.fab.spillMib g))
  guardDesc t [
    (!b.only [by_ 8 11, bi_ 19 0 1, by_ 20 4] || outside (b.f 8 2) 16 4096 || outside (b.f 10 2) 64 65535 || outside (b.f 12 2) 1 1000 ||
      outside (b.f 14 2) 10 65535 || outside (b.f 16 2) 1 65535 || outside (b.f 18 1) 1 255 || spill % 16 != 0 || decide (65536 < spill), stBad),
    (!fits, stNoRes)]
    (fun s => complete t stOk (poolWarnAll <| s.modFab (fun f => { f with
      ceThresh := b.f 8 2, echoGap := b.f 10 2, raiseUs := b.f 12 2, fwdStallUs := b.f 14 2, drainUs := b.f 16 2, beQuantum := b.f 18 1,
      paceAll := b.flag 19 0, spillMib := spill }))) s
/-- FABRIC_CONFIG (10 R363). -/
def execFabricConfig (sub : Sub) (s : State) : Res := lift (runDesc 0x65 fabricConfigOp sub) s

end Sys2Proof.Machine
end

