-- ==== Sys2Proof/Machine/Rings.lean ====
section
/-! DEFINITION. Dispatch of the descriptors that a ring holds, and completion timeouts (12 R404, R409, R412, R413, R416, R424; 16 R509,
R528). -/
namespace Sys2Proof.Machine

/-- What a dispatched descriptor does, by opcode; MGMT (0x93) apart. -/
def descOp (f : Fuses) (code : Nat) : Sub → Tok → Sw → Sw :=
  match code with
  | 0x00 => nopOp
  | 0x01 => signalOp
  | 0x02 => waitOp
  | 0x08 => jobOpenOp
  | 0x09 => jobCloseOp
  | 0x0A => capsReadOp
  | 0x0B => hostConfigOp
  | 0x20 => ctxCreateOp
  | 0x21 => ctxDestroyOp
  | 0x22 => ctxRecanopyOp
  | 0x23 => portBindOp
  | 0x24 => opPostOp
  | 0x25 => opAbortOp
  | 0x30 => storeCreateOp
  | 0x31 => storeDestroyOp
  | 0x32 => storeLoadOp
  | 0x33 => storeReadOp
  | 0x34 => storeGatherOp
  | 0x35 => storeUnpinOp
  | 0x36 => storeReshardOp
  | 0x37 => storeLogReadOp
  | 0x40 => kernelLoadOp
  | 0x41 => kernelFreeOp
  | 0x42 => layerConfigOp
  | 0x43 => updateStartOp
  | 0x44 => updateAbortOp
  | 0x50 => pruneConfigOp
  | 0x51 => actConfigOp
  | 0x52 => actReadOp
  | 0x60 => routeWriteOp
  | 0x61 => routeArmOp
  | 0x62 => epochFlipOp
  | 0x63 => routeReadOp
  | 0x64 => jobRouteOp
  | 0x65 => fabricConfigOp
  | 0x70 => frameQuotaOp
  | 0x80 => recConfigOp
  | 0x81 => recReadOp
  | 0x82 => digestCompareOp
  | 0x83 => graftTestOp
  | 0x84 => graftCopyOp
  | 0x85 => stepAckOp
  | 0x86 => anchorCopyOp
  | 0x90 => fwLoadOp f
  | 0x91 => fwActivateOp f
  | 0x92 => linkKeyOp
  | _ => fun _ t s => complete t stBad s
/-- A MGMT descriptor, by its CODE; the result of the self-test of TILE_CLEAR is a free value here (log 61). -/
def mgmtByCode (b : Sub) (s : State) : State :=
  match b.f 8 1 with
  | 0x01 => mgmtThen (some b) 0x01 1 0 resetAct resetAfter s
  | 0x02 => mgmt (some b) 0x02 1 0 profileAct s
  | 0x03 => mgmt (some b) 0x03 1 0 tileQuarantineAct s
  | 0x04 => mgmt (some b) 0x04 1 0 (tileClearAct (bit s.sw.draw.1 0)) { s with sw := s.sw.draw.2 }
  | 0x05 => mgmt (some b) 0x05 2 0 (fun v => channelClearAct (v % 256) (v / 256)) s
  | 0x06 => mgmtThen (some b) 0x06 0 0 (fun _ => fwActivateAct) (fun _ _ s => { s with sw := warmReset 4 s.sw }) s
  | 0x07 => mgmt (some b) 0x07 0 0 (fun _ => svnAdvanceAct) s
  | 0x08 => mgmt (some b) 0x08 1 0 locateAct s
  | 0x09 => mgmtToken (some b) 0x09 [] debugUnlockAct debugUnlockAfter s
  | 0x0A => mgmtToken (some b) 0x0A [] lifecycleReturnAct noAfter s
  | _ => mgmtDesc 256 0 false (fun _ s => (stBad, s)) noAfter b s
/-- The oldest fetched descriptor of ring n may be dispatched (R412, R424). -/
def mayDispatch (n : Nat) (b : Sub) (s : Sw) : Bool :=
  let r := s.ring n
  s.linked && r.state == .running && (!b.flag 2 0 || r.outst.isEmpty) && decide (r.outst.length < 1024) &&
    (s.evq r.cevq).room (recordsFor s (b.f 0 1) b)
/-- It is taken from the ring and dispatched; `host` and `hostErr`: what its host-memory reads return. -/
def dispatchNext (n : Nat) (host : List Byte) (hostErr : Option Quad) (s : State) : State :=
  let r := s.sw.ring n
  match r.fetched with
  | [] => s
  | d :: ds =>
    let b : Sub := { func := r.func, ring := n, desc := d, host := host, hostErr := hostErr }
    if !mayDispatch n b s.sw then s
    else
      let w := s.sw.modRing n (fun r => { r with fetched := ds })
      let code := b.f 0 1
      if code = 0x93 then mgmtByCode b { s with sw := w }
      else { s with sw := runDesc code (descOp s.fuses code) b w }
/-- DESCRIPTOR_DISPATCH (R412). -/
def execDescriptorDispatch (ring : Nat) (host : List Byte) (hostErr : Option Quad) (s : State) : Res := .next (dispatchNext ring host hostErr s)
/-- A host-memory read of ring n gets no completion within 50 ms: a fetch halts the ring with CAUSE 3; without one, the read was of
the descriptor that is due, which fails with HOSTERR at its HOST_ADDR (R409, R413). -/
def hostTimeout (n : Nat) (s : State) : State :=
  if (s.sw.ring n).fetching != 0 then { s with sw := fetchEnds n [] 3 s.sw }
  else
    match (s.sw.ring n).fetched with
    | [] => s
    | d :: _ => dispatchNext n [] (some (BitVec.ofNat 64 (dfield d 24 8))) s
/-- COMPLETION_TIMEOUT (R409). -/
def execCompletionTimeout (ring : Nat) (s : State) : Res := .next (hostTimeout ring s)

end Sys2Proof.Machine
end

