-- ==== Sys2Proof/Machine/Dispatch.lean ====
section
/-! DEFINITION. The meaning of every command: one arm per row of the table. -/
namespace Sys2Proof.Machine

/-- The effect of a command on everything but the queue. -/
def exec (i : Instr) (s : State) : Host.Outcome State Fault Refusal :=
  match i with
  | .tileQuarantine via tile => Sys2Proof.Machine.execTileQuarantine via tile s
  | .takeOverComplete quad => Sys2Proof.Machine.execTakeOverComplete quad s
  | .periodicSelfTest tile pass => Sys2Proof.Machine.execPeriodicSelfTest tile pass s
  | .tileClear via tile pass => Sys2Proof.Machine.execTileClear via tile pass s
  | .frameReceive port frame codewords symbols uncorrectable => Sys2Proof.Machine.execFrameReceive port frame codewords symbols uncorrectable s
  | .replayTimeout port => Sys2Proof.Machine.execReplayTimeout port s
  | .creditReceive port cell => Sys2Proof.Machine.execCreditReceive port cell s
  | .creditTimer port => Sys2Proof.Machine.execCreditTimer port s
  | .heartbeatPeriod port => Sys2Proof.Machine.execHeartbeatPeriod port s
  | .heartbeatMiss port => Sys2Proof.Machine.execHeartbeatMiss port s
  | .linkIdReceive port cell => Sys2Proof.Machine.execLinkIdReceive port cell s
  | .linkIdTimer port => Sys2Proof.Machine.execLinkIdTimer port s
  | .identifyTimeout port => Sys2Proof.Machine.execIdentifyTimeout port s
  | .splitDarkTimeout quad => Sys2Proof.Machine.execSplitDarkTimeout quad s
  | .splitRetry quad => Sys2Proof.Machine.execSplitRetry quad s
  | .searchRateStep port => Sys2Proof.Machine.execSearchRateStep port s
  | .linkDownReceive port cell => Sys2Proof.Machine.execLinkDownReceive port cell s
  | .lostRetryTimer port => Sys2Proof.Machine.execLostRetryTimer port s
  | .adminUpWrite0 port => Sys2Proof.Machine.execAdminUpWrite0 port s
  | .adminUpWrite1 port => Sys2Proof.Machine.execAdminUpWrite1 port s
  | .memberCellReceive port cell => Sys2Proof.Machine.execMemberCellReceive port cell s
  | .stagedContributionConvert ctx opnum port gcell => Sys2Proof.Machine.execStagedContributionConvert ctx opnum port gcell s
  | .recordReceive port cell => Sys2Proof.Machine.execRecordReceive port cell s
  | .replayNoticeReceive port cell => Sys2Proof.Machine.execReplayNoticeReceive port cell s
  | .anchorNoticeReceive port cell => Sys2Proof.Machine.execAnchorNoticeReceive port cell s
  | .p2pCellReceive port cell => Sys2Proof.Machine.execP2pCellReceive port cell s
  | .congEchoReceive port cell => Sys2Proof.Machine.execCongEchoReceive port cell s
  | .pacingRaiseTimer port cdst => Sys2Proof.Machine.execPacingRaiseTimer port cdst s
  | .memberEgressStall port tc => Sys2Proof.Machine.execMemberEgressStall port tc s
  | .egressService port => Sys2Proof.Machine.execEgressService port s
  | .ctxCreate sub => Sys2Proof.Machine.execCtxCreate sub s
  | .ctxDestroy sub => Sys2Proof.Machine.execCtxDestroy sub s
  | .ctxRecanopy sub => Sys2Proof.Machine.execCtxRecanopy sub s
  | .portBind sub => Sys2Proof.Machine.execPortBind sub s
  | .opPost sub => Sys2Proof.Machine.execOpPost sub s
  | .opAbort sub => Sys2Proof.Machine.execOpAbort sub s
  | .joinReceive port cell => Sys2Proof.Machine.execJoinReceive port cell s
  | .joinStatusReceive port cell => Sys2Proof.Machine.execJoinStatusReceive port cell s
  | .countsReceive port cell => Sys2Proof.Machine.execCountsReceive port cell s
  | .exchangeCellReceive port cell => Sys2Proof.Machine.execExchangeCellReceive port cell s
  | .barrierArriveReceive port cell => Sys2Proof.Machine.execBarrierArriveReceive port cell s
  | .barrierReleaseReceive port cell => Sys2Proof.Machine.execBarrierReleaseReceive port cell s
  | .latenessExpiry ctx opnum gcell port => Sys2Proof.Machine.execLatenessExpiry ctx opnum gcell port s
  | .stallTimeout ctx opnum port gcell contribution => Sys2Proof.Machine.execStallTimeout ctx opnum port gcell contribution s
  | .memberLossTimeout port => Sys2Proof.Machine.execMemberLossTimeout port s
  | .abortNoticeReceive port cell => Sys2Proof.Machine.execAbortNoticeReceive port cell s
  | .seedlingRebound => Sys2Proof.Machine.execSeedlingRebound s
  | .seedlingRebindTimeout => Sys2Proof.Machine.execSeedlingRebindTimeout s
  | .frameTick => Sys2Proof.Machine.execFrameTick s
  | .timingMessageReceive msg mark frac => Sys2Proof.Machine.execTimingMessageReceive msg mark frac s
  | .timingInputTimeout => Sys2Proof.Machine.execTimingInputTimeout s
  | .timingOutputMark => Sys2Proof.Machine.execTimingOutputMark s
  | .syncReceive port cell stamp frac => Sys2Proof.Machine.execSyncReceive port cell stamp frac s
  | .delayReqReceive port cell stamp frac => Sys2Proof.Machine.execDelayReqReceive port cell stamp frac s
  | .delayRespReceive port cell stamp frac => Sys2Proof.Machine.execDelayRespReceive port cell stamp frac s
  | .announceReceive port cell => Sys2Proof.Machine.execAnnounceReceive port cell s
  | .syncInterval => Sys2Proof.Machine.execSyncInterval s
  | .delayReqTimer => Sys2Proof.Machine.execDelayReqTimer s
  | .delayReqTimeout => Sys2Proof.Machine.execDelayReqTimeout s
  | .announceTimeout port => Sys2Proof.Machine.execAnnounceTimeout port s
  | .holdoverExpired => Sys2Proof.Machine.execHoldoverExpired s
  | .sourceWrite value => Sys2Proof.Machine.execSourceWrite value s
  | .periodLog2Write value => Sys2Proof.Machine.execPeriodLog2Write value s
  | .framePeriodChanged => Sys2Proof.Machine.execFramePeriodChanged s
  | .frameQuota sub => Sys2Proof.Machine.execFrameQuota sub s
  | .launchInstant ctx opnum => Sys2Proof.Machine.execLaunchInstant ctx opnum s
  | .storeCreate sub => Sys2Proof.Machine.execStoreCreate sub s
  | .storeDestroy sub => Sys2Proof.Machine.execStoreDestroy sub s
  | .storeLoad sub => Sys2Proof.Machine.execStoreLoad sub s
  | .storeRead sub => Sys2Proof.Machine.execStoreRead sub s
  | .storeGather sub => Sys2Proof.Machine.execStoreGather sub s
  | .storeUnpin sub => Sys2Proof.Machine.execStoreUnpin sub s
  | .storeReshard sub => Sys2Proof.Machine.execStoreReshard sub s
  | .storeLogRead sub => Sys2Proof.Machine.execStoreLogRead sub s
  | .gradientAreaFull ctx opnum gcell => Sys2Proof.Machine.execGradientAreaFull ctx opnum gcell s
  | .mirrorRecordReceive port cell => Sys2Proof.Machine.execMirrorRecordReceive port cell s
  | .waitPinResume ctx shard => Sys2Proof.Machine.execWaitPinResume ctx shard s
  | .reshardMoveStart ctx => Sys2Proof.Machine.execReshardMoveStart ctx s
  | .reshardDrainTimeout ctx => Sys2Proof.Machine.execReshardDrainTimeout ctx s
  | .moveCellReceive port cell => Sys2Proof.Machine.execMoveCellReceive port cell s
  | .reshardResendTimeout ctx shard => Sys2Proof.Machine.execReshardResendTimeout ctx shard s
  | .kernelLoad sub => Sys2Proof.Machine.execKernelLoad sub s
  | .kernelFree sub => Sys2Proof.Machine.execKernelFree sub s
  | .layerConfig sub => Sys2Proof.Machine.execLayerConfig sub s
  | .updateStart sub => Sys2Proof.Machine.execUpdateStart sub s
  | .updateAbort sub => Sys2Proof.Machine.execUpdateAbort sub s
  | .normReceive port cell => Sys2Proof.Machine.execNormReceive port cell s
  | .normResendTimer ctx ugroup => Sys2Proof.Machine.execNormResendTimer ctx ugroup s
  | .updateGradWait ctx ugroup => Sys2Proof.Machine.execUpdateGradWait ctx ugroup s
  | .normWaitTimeout ctx ugroup => Sys2Proof.Machine.execNormWaitTimeout ctx ugroup s
  | .layerPreComplete ctx ugroup layer => Sys2Proof.Machine.execLayerPreComplete ctx ugroup layer s
  | .shardCommit ctx ugroup shard => Sys2Proof.Machine.execShardCommit ctx ugroup shard s
  | .idleCommit ctx ugroup shard => Sys2Proof.Machine.execIdleCommit ctx ugroup shard s
  | .migrationStart grove => Sys2Proof.Machine.execMigrationStart grove s
  | .migrationCopyDone grove => Sys2Proof.Machine.execMigrationCopyDone grove s
  | .pruneCellReceive port cell => Sys2Proof.Machine.execPruneCellReceive port cell s
  | .zeroRunReceive port cell => Sys2Proof.Machine.execZeroRunReceive port cell s
  | .pruneConfig sub => Sys2Proof.Machine.execPruneConfig sub s
  | .actConfig sub => Sys2Proof.Machine.execActConfig sub s
  | .actRead sub => Sys2Proof.Machine.execActRead sub s
  | .resultAckReceive port cell => Sys2Proof.Machine.execResultAckReceive port cell s
  | .reinjectReqReceive port cell => Sys2Proof.Machine.execReinjectReqReceive port cell s
  | .digestReceive port cell => Sys2Proof.Machine.execDigestReceive port cell s
  | .digestCompare sub => Sys2Proof.Machine.execDigestCompare sub s
  | .digestCompareTimeout ctx opnum => Sys2Proof.Machine.execDigestCompareTimeout ctx opnum s
  | .recConfig sub => Sys2Proof.Machine.execRecConfig sub s
  | .recRead sub => Sys2Proof.Machine.execRecRead sub s
  | .stepAck sub => Sys2Proof.Machine.execStepAck sub s
  | .anchorCopy sub => Sys2Proof.Machine.execAnchorCopy sub s
  | .graftTest sub => Sys2Proof.Machine.execGraftTest sub s
  | .graftSelfTestDone => Sys2Proof.Machine.execGraftSelfTestDone s
  | .graftLinkTestDone => Sys2Proof.Machine.execGraftLinkTestDone s
  | .graftVectorsDone => Sys2Proof.Machine.execGraftVectorsDone s
  | .graftVectorTimeout => Sys2Proof.Machine.execGraftVectorTimeout s
  | .graftCopy sub => Sys2Proof.Machine.execGraftCopy sub s
  | .graftCellReceive port cell => Sys2Proof.Machine.execGraftCellReceive port cell s
  | .graftCopyTimeout ctx => Sys2Proof.Machine.execGraftCopyTimeout ctx s
  | .routeWrite sub => Sys2Proof.Machine.execRouteWrite sub s
  | .routeArm sub => Sys2Proof.Machine.execRouteArm sub s
  | .epochFlip sub => Sys2Proof.Machine.execEpochFlip sub s
  | .routeRead sub => Sys2Proof.Machine.execRouteRead sub s
  | .jobRoute sub => Sys2Proof.Machine.execJobRoute sub s
  | .fabricConfig sub => Sys2Proof.Machine.execFabricConfig sub s
  | .flipTimer => Sys2Proof.Machine.execFlipTimer s
  | .epochCellReceive port cell => Sys2Proof.Machine.execEpochCellReceive port cell s
  | .epochDrained version => Sys2Proof.Machine.execEpochDrained version s
  | .poolWaitServed cls place => Sys2Proof.Machine.execPoolWaitServed cls place s
  | .sramScrub tile region word corrected uncorrectable => Sys2Proof.Machine.execSramScrub tile region word corrected uncorrectable s
  | .patrolScrub stack ta corrected uncorrectable => Sys2Proof.Machine.execPatrolScrub stack ta corrected uncorrectable s
  | .cxlEnable root => Sys2Proof.Machine.execCxlEnable root s
  | .cxlLinkUp root width speed extents => Sys2Proof.Machine.execCxlLinkUp root width speed extents s
  | .cxlLinkTimeout root cause => Sys2Proof.Machine.execCxlLinkTimeout root cause s
  | .cxlLinkDown root cause => Sys2Proof.Machine.execCxlLinkDown root cause s
  | .cxlHoldTimeout root => Sys2Proof.Machine.execCxlHoldTimeout root s
  | .nop sub => Sys2Proof.Machine.execNop sub s
  | .signal sub => Sys2Proof.Machine.execSignal sub s
  | .wait sub => Sys2Proof.Machine.execWait sub s
  | .jobOpen sub => Sys2Proof.Machine.execJobOpen sub s
  | .jobClose sub => Sys2Proof.Machine.execJobClose sub s
  | .teardownComplete job => Sys2Proof.Machine.execTeardownComplete job s
  | .capsRead sub => Sys2Proof.Machine.execCapsRead sub s
  | .hostConfig sub => Sys2Proof.Machine.execHostConfig sub s
  | .ringEnable func ring => Sys2Proof.Machine.execRingEnable func ring s
  | .ringDisable func ring => Sys2Proof.Machine.execRingDisable func ring s
  | .descriptorFetch ring => Sys2Proof.Machine.execDescriptorFetch ring s
  | .fetchComplete ring descs error => Sys2Proof.Machine.execFetchComplete ring descs error s
  | .descriptorDispatch ring host hostErr => Sys2Proof.Machine.execDescriptorDispatch ring host hostErr s
  | .tail func ring value => Sys2Proof.Machine.execTail func ring value s
  | .cancelWait func ring => Sys2Proof.Machine.execCancelWait func ring s
  | .resume func ring => Sys2Proof.Machine.execResume func ring s
  | .evqDoorbell func evq value => Sys2Proof.Machine.execEvqDoorbell func evq value s
  | .evqEnable func evq => Sys2Proof.Machine.execEvqEnable func evq s
  | .evqDisable func evq => Sys2Proof.Machine.execEvqDisable func evq s
  | .waitStall job hostEdges => Sys2Proof.Machine.execWaitStall job hostEdges s
  | .flr func => Sys2Proof.Machine.execFlr func s
  | .hostLinkReset cause => Sys2Proof.Machine.execHostLinkReset cause s
  | .registerWrite func space offset size value => Sys2Proof.Machine.execRegisterWrite func space offset size value s
  | .loReadLatch func bmc offset size => Sys2Proof.Machine.execLoReadLatch func bmc offset size s
  | .laneLock lane rate => Sys2Proof.Machine.execLaneLock lane rate s
  | .trainingFrameReceive lane control status ready snr skewNs => Sys2Proof.Machine.execTrainingFrameReceive lane control status ready snr skewNs s
  | .trainTimeout lane => Sys2Proof.Machine.execTrainTimeout lane s
  | .laneLos lane power => Sys2Proof.Machine.execLaneLos lane power s
  | .laneLosClear lane power => Sys2Proof.Machine.execLaneLosClear lane power s
  | .laneLol lane cause => Sys2Proof.Machine.execLaneLol lane cause s
  | .aprEntered lane => Sys2Proof.Machine.execAprEntered lane s
  | .aprRestartPulse lane => Sys2Proof.Machine.execAprRestartPulse lane s
  | .clear lane => Sys2Proof.Machine.execClear lane s
  | .injectSingle lane => Sys2Proof.Machine.execInjectSingle lane s
  | .injectPeriodic lane periodLog2 => Sys2Proof.Machine.execInjectPeriodic lane periodLog2 s
  | .injectFecSymbols lane syms count => Sys2Proof.Machine.execInjectFecSymbols lane syms count s
  | .laneTestStart lane value => Sys2Proof.Machine.execLaneTestStart lane value s
  | .feedLost engine feedB power => Sys2Proof.Machine.execFeedLost engine feedB power s
  | .feedRestored engine feedB power => Sys2Proof.Machine.execFeedRestored engine feedB power s
  | .latchClose site => Sys2Proof.Machine.execLatchClose site s
  | .latchOpen site => Sys2Proof.Machine.execLatchOpen site s
  | .laserIdentityRead site serial unfit => Sys2Proof.Machine.execLaserIdentityRead site serial unfit s
  | .laserIdentityTimeout site => Sys2Proof.Machine.execLaserIdentityTimeout site s
  | .laserRampDone site => Sys2Proof.Machine.execLaserRampDone site s
  | .laserPoll site serial powers bias temp fault => Sys2Proof.Machine.execLaserPoll site serial powers bias temp fault s
  | .prepRemove site => Sys2Proof.Machine.execPrepRemove site s
  | .prepRemoveCancel site => Sys2Proof.Machine.execPrepRemoveCancel site s
  | .mutingDone site => Sys2Proof.Machine.execMutingDone site s
  | .laserEnable site => Sys2Proof.Machine.execLaserEnable site s
  | .laserDisable site => Sys2Proof.Machine.execLaserDisable site s
  | .siteButton site ms => Sys2Proof.Machine.execSiteButton site ms s
  | .clockProfileWrite value => Sys2Proof.Machine.execClockProfileWrite value s
  | .clockProfileChanged => Sys2Proof.Machine.execClockProfileChanged s
  | .clockUnlock domain => Sys2Proof.Machine.execClockUnlock domain s
  | .pllRelock domain => Sys2Proof.Machine.execPllRelock domain s
  | .pllRelockTimeout domain => Sys2Proof.Machine.execPllRelockTimeout domain s
  | .referenceLost => Sys2Proof.Machine.execReferenceLost s
  | .referenceReturn => Sys2Proof.Machine.execReferenceReturn s
  | .referenceHoldover => Sys2Proof.Machine.execReferenceHoldover s
  | .accessTimeout func offset read => Sys2Proof.Machine.execAccessTimeout func offset read s
  | .warm cause => Sys2Proof.Machine.execWarm cause s
  | .cold cause => Sys2Proof.Machine.execCold cause s
  | .powerOff cause => Sys2Proof.Machine.execPowerOff cause s
  | .modResetN lowNs => Sys2Proof.Machine.execModResetN lowNs s
  | .glbTileReset tile => Sys2Proof.Machine.execGlbTileReset tile s
  | .tileSelfTestDone tile pass => Sys2Proof.Machine.execTileSelfTestDone tile pass s
  | .glbPortReset quad => Sys2Proof.Machine.execGlbPortReset quad s
  | .startupStageDone ms results => Sys2Proof.Machine.execStartupStageDone ms results s
  | .auxWatchdog => Sys2Proof.Machine.execAuxWatchdog s
  | .inputLow millivolts => Sys2Proof.Machine.execInputLow millivolts s
  | .inputPowerLoss millivolts => Sys2Proof.Machine.execInputPowerLoss millivolts s
  | .inputOvervoltage millivolts => Sys2Proof.Machine.execInputOvervoltage millivolts s
  | .inputOvercurrent current => Sys2Proof.Machine.execInputOvercurrent current s
  | .converterLost converter cause => Sys2Proof.Machine.execConverterLost converter cause s
  | .pwrProfileWrite value => Sys2Proof.Machine.execPwrProfileWrite value s
  | .profileLowerTick => Sys2Proof.Machine.execProfileLowerTick s
  | .powerLimitSample sample => Sys2Proof.Machine.execPowerLimitSample sample s
  | .thermalSample sample => Sys2Proof.Machine.execThermalSample sample s
  | .wearAfUpdate => Sys2Proof.Machine.execWearAfUpdate s
  | .wearDailySample indicators => Sys2Proof.Machine.execWearDailySample indicators s
  | .fwLoad sub => Sys2Proof.Machine.execFwLoad sub s
  | .fwActivate sub => Sys2Proof.Machine.execFwActivate sub s
  | .linkKey sub => Sys2Proof.Machine.execLinkKey sub s
  | .updateSessionTimeout => Sys2Proof.Machine.execUpdateSessionTimeout s
  | .pldmFirmwareUpdate step => Sys2Proof.Machine.execPldmFirmwareUpdate step s
  | .activateFirmware selfContained => Sys2Proof.Machine.execActivateFirmware selfContained s
  | .reset via kind => Sys2Proof.Machine.execReset via kind s
  | .profile via value => Sys2Proof.Machine.execProfile via value s
  | .channelClear via stack channel => Sys2Proof.Machine.execChannelClear via stack channel s
  | .mgmtFwActivate via => Sys2Proof.Machine.execMgmtFwActivate via s
  | .svnAdvance via => Sys2Proof.Machine.execSvnAdvance via s
  | .locate via value => Sys2Proof.Machine.execLocate via value s
  | .debugUnlock via token => Sys2Proof.Machine.execDebugUnlock via token s
  | .lifecycleReturn via token => Sys2Proof.Machine.execLifecycleReturn via token s
  | .regRead offset count => Sys2Proof.Machine.execRegRead offset count s
  | .getVersion i3c msg => Sys2Proof.Machine.execGetVersion i3c msg s
  | .getCapabilities i3c msg => Sys2Proof.Machine.execGetCapabilities i3c msg s
  | .negotiateAlgorithms i3c msg => Sys2Proof.Machine.execNegotiateAlgorithms i3c msg s
  | .getDigests i3c msg => Sys2Proof.Machine.execGetDigests i3c msg s
  | .getCertificate i3c msg => Sys2Proof.Machine.execGetCertificate i3c msg s
  | .challenge i3c msg => Sys2Proof.Machine.execChallenge i3c msg s
  | .getMeasurements i3c msg => Sys2Proof.Machine.execGetMeasurements i3c msg s
  | .getSensorReading i3c sensor => Sys2Proof.Machine.execGetSensorReading i3c sensor s
  | .entdaa address => Sys2Proof.Machine.execEntdaa address s
  | .attnShortPress => Sys2Proof.Machine.execAttnShortPress s
  | .attnLongPress => Sys2Proof.Machine.execAttnLongPress s
  | .powerOnSequence railsGood => Sys2Proof.Machine.execPowerOnSequence railsGood s
  | .railFaultRestart => Sys2Proof.Machine.execRailFaultRestart s
  | .inputRestored => Sys2Proof.Machine.execInputRestored s
  | .shardAbandoned ctx ugroup shard stack ta => Sys2Proof.Machine.execShardAbandoned ctx ugroup shard stack ta s
  | .migrationError grove unit address => Sys2Proof.Machine.execMigrationError grove unit address s
  | .pciePerstNDeassert => Sys2Proof.Machine.execPciePerstNDeassert s
  | .modResetNRelease => Sys2Proof.Machine.execModResetNRelease s
  | .checkerLocked lane bits => Sys2Proof.Machine.execCheckerLocked lane bits s
  | .checkerLockLost lane => Sys2Proof.Machine.execCheckerLockLost lane s
  | .tapEchoTimeout lane => Sys2Proof.Machine.execTapEchoTimeout lane s
  | .completionTimeout ring => Sys2Proof.Machine.execCompletionTimeout ring s
  | .removeBlockedLedTimeout site => Sys2Proof.Machine.execRemoveBlockedLedTimeout site s

end Sys2Proof.Machine
end

