-- ==== Sys2Proof/Machine/Idle.lean ====
section
/-! DEFINITION. One nanosecond in which no command acts: the counters of time advance (05 R160, R163, R167). -/
namespace Sys2Proof.Machine

/-- One nanosecond passes: the elapsed-time counter and the GTC advance by one. At every 625th nanosecond the servo
takes a sixteenth of a nanosecond off the offset that is left: 100 ppm, the most R167 allows. In HOLDOVER no offset is left, and
the frequency correction that is held acts (05 R160, R163, R166, R167; log 5). -/
def idleTick (s : Sw) : Sw :=
  let t := s.time
  let total : Int := 16 * (t.gtc.toNat : Int) + t.frac + 16
  let slewNow := decide (t.elapsed % 625 = 624)
  let d : Int := if slewNow then (if t.slew > 0 then 1 else if t.slew < 0 then -1 else 0) else 0
  let g : Int := if s.sync.state == .holdover then t.freq.2 + 16 * t.freq.1 else t.freq.2
  let e : Int := if 1000000 ≤ g then 1 else if g ≤ -1000000 then -1 else 0
  let v := (total - d + e).toNat
  s.modTime (fun t => { t with elapsed := t.elapsed + 1, gtc := BitVec.ofNat 64 (v / 16), frac := v % 16, slew := t.slew - d,
                               freq := (t.freq.1, g - 1000000 * e) })

end Sys2Proof.Machine
end

