-- ==== Sys2Proof/Safety.lean ====
section
/-! DEFINITION. The terms the statements use: the parts of the state and what a step keeps of them, a command that completes, fuses
that move one way only (16 R504, R511, R522), and image slots in canonical form. -/
namespace Sys2Proof.Machine

/-! ### Parts of the state -/

/-- The parts of the state that a frame names. `hostSet` are the settings of HOST_CONFIG and SR-IOV, `hostLink` the state of the
host link, `held` the events that wait for SYS_VALID; a port has six parts, `portMap` its binding and context map; `variant` is fused and changes under nothing. -/
inductive Piece where
  | variant | glb | evTimes | pwr | wear | sec | time | sync
  | rings | evqs | jobs | flags | hostSet | hostLink | msix | held | last0106 | nextTok
  | portReg | portMap | portCnt | portLink | portQ | portSec
  | quads | lanes | engines | sites | tiles | takeovers | hbm | cxl | cxlHoldMs | cxlGen | pool | groveC
  | ctxs | fab | rcv | kernels | migQueues | outs | freeCtr
  deriving DecidableEq, Repr

/-- The registers of a port but its binding and context map. -/
def PortReg.rest (r : PortReg) : PortReg := { r with binding := none, ctxMap := [] }
/-- Binding and context map of a port. -/
def PortReg.maps (r : PortReg) : Option Binding × SMap Nat := (r.binding, r.ctxMap)

/-- Piece p holds the same in both. -/
def Piece.same (p : Piece) (a b : Sw) : Prop :=
  match p with
  | .variant => a.glb.variant = b.glb.variant
  | .glb => { a.glb with evTimes := [] } = { b.glb with evTimes := [] }
  | .evTimes => a.glb.evTimes = b.glb.evTimes
  | .pwr => a.pwr = b.pwr
  | .wear => a.wear = b.wear
  | .sec => a.sec = b.sec
  | .time => a.time = b.time
  | .sync => a.sync = b.sync
  | .rings => a.host.rings = b.host.rings
  | .evqs => a.host.evqs = b.host.evqs
  | .jobs => a.host.jobs = b.host.jobs
  | .flags => a.host.flags = b.host.flags
  | .hostSet => (a.host.sysEvq, a.host.sysValid, a.host.watchdogMs, a.host.areaMask, a.host.vfEnable, a.host.numVfs) =
      (b.host.sysEvq, b.host.sysValid, b.host.watchdogMs, b.host.areaMask, b.host.vfEnable, b.host.numVfs)
  | .hostLink => (a.host.perstN, a.host.linkUp) = (b.host.perstN, b.host.linkUp)
  | .msix => a.host.msix = b.host.msix
  | .held => a.host.held = b.host.held
  | .last0106 => a.host.last0106 = b.host.last0106
  | .nextTok => a.host.nextTok = b.host.nextTok
  | .portReg => ∀ n, (a.port n).reg.rest = (b.port n).reg.rest
  | .portMap => ∀ n, (a.port n).reg.maps = (b.port n).reg.maps
  | .portCnt => ∀ n, (a.port n).cnt = (b.port n).cnt
  | .portLink => ∀ n, (a.port n).link = (b.port n).link
  | .portQ => ∀ n, (a.port n).q = (b.port n).q
  | .portSec => ∀ n, (a.port n).sec = (b.port n).sec
  | .quads => a.quads = b.quads
  | .lanes => a.lanes = b.lanes
  | .engines => a.engines = b.engines
  | .sites => a.sites = b.sites
  | .tiles => a.tiles = b.tiles
  | .takeovers => a.takeovers = b.takeovers
  | .hbm => a.hbm = b.hbm
  | .cxl => a.cxl = b.cxl
  | .cxlHoldMs => a.cxlHoldMs = b.cxlHoldMs
  | .cxlGen => a.cxlGen = b.cxlGen
  | .pool => a.pool = b.pool
  | .groveC => a.groveC = b.groveC
  | .ctxs => a.ctxs = b.ctxs
  | .fab => a.fab = b.fab
  | .rcv => a.rcv = b.rcv
  | .kernels => a.kernels = b.kernels
  | .migQueues => a.migQueues = b.migQueues
  | .outs => a.outs = b.outs
  | .freeCtr => a.freeCtr = b.freeCtr

/-- Every part but those listed holds the same in both. -/
def Sw.keeps (but : List Piece) (a b : Sw) : Prop := ∀ p : Piece, p ∉ but → p.same a b

/-- The parts that raising an event can change (12 R420 to R426): queues, pending vectors, what leaves for the host. -/
def evParts : List Piece := [.evqs, .msix, .outs]
/-- The parts that running a descriptor without an effect of its own can change (12 R411, R412, R424). -/
def descParts : List Piece := [.rings, .nextTok, .evqs, .msix, .outs]

/-- Command c completes in s: the fuses and the waiting commands stand, every part of the switch but those listed stands, and what
the switch is afterwards meets P. -/
def runsTo (c : Instr) (s : State) (but : List Piece) (P : Sw → Prop) : Prop :=
  ∃ t : Sw, exec c s = .next { s with sw := t } ∧ Sw.keeps but s.sw t ∧ P t
/-- Command c completes in s with the switch as t, the fuses and the waiting commands as they were. -/
def becomes (c : Instr) (s : State) (t : Sw) : Prop := exec c s = .next { s with sw := t }
/-- Command c completes in s and changes nothing. -/
def stays (c : Instr) (s : State) : Prop := exec c s = .next s
/-- Every unit of a kind but number n is the same in both. -/
def othersSame {α : Type} (unit : Sw → Nat → α) (n : Nat) (a b : Sw) : Prop := ∀ k, k ≠ n → unit a k = unit b k

/-- A step that neither faults nor refuses. -/
def goesOn (r : Res) : Prop := ∃ t, r = .next t

/-! ### Ports -/

/-- The parts that the work of the contexts can change: what `settle` carries forward (04, 05, 06, 09). -/
def settleParts : List Piece :=
  [.ctxs, .cxl, .evTimes, .evqs, .flags, .freeCtr, .hbm, .jobs, .migQueues, .msix, .outs, .pool, .portCnt, .portMap, .portQ,
   .rcv, .rings, .tiles, .time, .wear]
/-- The parts that a port's leaving UP can change (03 R107; 10 R349). -/
def lossParts : List Piece := settleParts ++ [.fab, .lanes, .portLink, .portReg, .portSec, .quads, .sync]
/-- The parts that taking a cell out of the receive buffer can change, a CREDIT cell sent for it (03 R96). -/
def consumeParts : List Piece := [.evTimes, .evqs, .msix, .outs, .portCnt, .portLink, .portQ]
/-- The choice of AUTO for the four-lane port of port n ends when n leaves UP: no other port of it identifies or is UP (03 R85). -/
def Sw.autoEnds (s : Sw) (n : Nat) : Bool :=
  (s.quad (n / 4)).splitNow == 0 && (s.quad (n / 4)).splitActive != 0 &&
    (span (4 * (n / 4)) 4).all (fun k => k == n || ((s.port k).reg.state != .identify && (s.port k).reg.state != .up))
/-- Port n has gone from UP to LOST for a reason, with the partner's reason as given: nothing it kept for replay is left, and no
other port changes its registers unless the choice of AUTO ends with it (03 R85, R107). -/
def wentLost (n reason partner : Nat) (a b : Sw) : Prop :=
  (b.port n).reg.state = .lost ∧ (b.port n).reg.lostReason = reason ∧
  (b.port n).reg.partnerReason = partner ∧ (b.port n).reg.hbLog2 = 0 ∧ (b.port n).sec.engaged = false ∧
  (b.port n).link.replayBuf = [] ∧ (a.autoEnds n = false → othersSame (fun s k => (s.port k).reg.rest) n a b)
/-- Cell c as received on port n is a port-layer cell of a type (03 R97). -/
def Sw.portLayerOf (s : Sw) (n ct : Nat) (c : Cell) : Prop := wirePortLayer (s.pers n) c = true ∧ wireCtype (s.pers n) c = ct
/-- Frame f passes its checks on port n, which no key protects (03 R91). -/
def Sw.plainGood (s : Sw) (n : Nat) (f : Frame) : Prop :=
  f.fecOk = true ∧ (s.port n).sec.engaged = false ∧ frameCrc (s.pers n) f = f.trailer
/-- Frame f fails its checks on port n, which no key protects (03 R91). -/
def Sw.plainBad (s : Sw) (n : Nat) (f : Frame) : Prop :=
  f.fecOk = false ∨ ((s.port n).sec.engaged = false ∧ frameCrc (s.pers n) f ≠ f.trailer)
/-- The counters of port n with those of one frame added (03 R91). -/
def PortCnt.plusFec (k : PortCnt) (cw sym unc : Nat) : PortCnt :=
  { k with fecCw := k.fecCw + BitVec.ofNat 64 cw, fecSym := k.fecSym + BitVec.ofNat 64 sym, fecUncorr := k.fecUncorr + BitVec.ofNat 32 unc }
/-- When port n sent the LINK_ID that LINK_ID c echoes, if within the last 10 ms (03 R101, R106). -/
def Sw.echoedAt (s : Sw) (n : Nat) (c : Cell) : Option Nat :=
  ((s.port n).link.nonces.reverse.find? (fun e => c.f 20 2 != 0 && e.1.toNat == c.f 20 2 && decide (s.now - e.2 ≤ 10 * ms))).map Prod.snd
/-- A SPLIT written for the four-lane port of port n does not wait for its next SEARCH (03 R85, R86). -/
def Sw.splitStands (s : Sw) (n : Nat) : Prop := n % 4 ≠ 0 ∨ (s.quad (n / 4)).split = (s.quad (n / 4)).splitNow
/-! ### Cells of contexts -/

/-- Rows that bring a cell of a context, or one that is to be of a context, in on a port (10 R340). -/
def contextRows : List (Nat → Cell → Instr) :=
  [.memberCellReceive, .recordReceive, .replayNoticeReceive, .anchorNoticeReceive, .joinReceive, .joinStatusReceive, .countsReceive,
   .barrierArriveReceive, .barrierReleaseReceive, .abortNoticeReceive, .mirrorRecordReceive, .moveCellReceive, .normReceive,
   .pruneCellReceive, .zeroRunReceive, .resultAckReceive, .reinjectReqReceive, .digestReceive]
/-- Where cell c that comes in on port p arrives: context, canopy port, the cell as it is then, the switch then, and the context as
held; none where it is discarded, passes in transit, or its context does not name the port (03 R97, R109; 10 R337, R340). -/
def Sw.arrival (s : Sw) (p : Nat) (c : Cell) : Option (Nat × Nat × Cell × Sw × Ctx) :=
  match ingress p c s with
  | (none, _) => none
  | (some c₁, s₁) =>
    let (c', w) := routeEp p c₁ s₁
    let q := w.logPort c'.ep c₁.anyCtx p
    (w.ctx? c₁.anyCtx).bind (fun k =>
      if k.canopy.ports.contains q || (k.canopy.primaryOf q).isSome then some (c₁.anyCtx, q, c', w, k) else none)
/-- Grid cells that member cell i of the child on port q touches (02 R41). -/
def Ctx.gridsOf (k : Ctx) (s : Sw) (p : Op) (h : Child) (q i : Nat) : List Nat :=
  let (first, len) := contribPart k p.blk h.rankFirst
  let ec := s.ecOf p q
  let lo := first + ec * i
  let hi := min (first + len) (lo + ec)
  if hi ≤ lo then [] else span (lo / 32) ((hi - 1) / 32 + 1 - lo / 32)
/-- A cell names operation o of a context, held as p, of its layout epoch (04 R133; 06 R216). -/
def Ctx.names (k : Ctx) (c : Cell) (o : Nat) (p : Op) : Prop :=
  k.opOfSeq c.copseq = some (o, p) ∧ SMap.find? o k.ops = some p ∧ c.le = k.leOf o
/-- Nothing is owed for operation p beside its cells: no launch, no event told. -/
def Op.quiet (p : Op) : Prop := p.launchAt = none ∧ p.once = [] ∧ blkLaunch p.blk = 0
/-- Cell c is a CTRL cell of a type (03 R100). -/
def isCtrl (c : Cell) (ct : Nat) : Prop := c.tc = 5 ∧ c.ctype = ct

/-! ### Descriptors and management commands -/

/-- The handle of a descriptor of opcode `code` once it is dispatched. -/
def descTok (code : Nat) (b : Sub) (s : Sw) : Tok := (dispatch code b s).1
/-- The switch once a descriptor of opcode `code` is dispatched: its completion records are reserved (12 R412, R424). -/
def descSw (code : Nat) (b : Sub) (s : Sw) : Sw := (dispatch code b s).2
/-- A descriptor passes checks 1 to 5 of R416. -/
def headerGood (code : Nat) (b : Sub) (s : State) : Prop := headerStatus (descSw code b s.sw) code b = none
/-- Command c, a descriptor of opcode `code`, does f after its dispatch and completes with a status. -/
def endsWith (c : Instr) (s : State) (code : Nat) (b : Sub) (status : Nat) (f : Sw → Sw) : Prop :=
  becomes c s (complete (descTok code b s.sw) status (f (descSw code b s.sw)))
/-- The descriptors of a ring by opcode, MGMT (0x93) apart (12 R404). -/
def descRows : List (Nat × (Sub → Instr)) :=
  [(0x00, .nop), (0x01, .signal), (0x02, .wait), (0x08, .jobOpen), (0x09, .jobClose), (0x0A, .capsRead), (0x0B, .hostConfig),
   (0x20, .ctxCreate), (0x21, .ctxDestroy), (0x22, .ctxRecanopy), (0x23, .portBind), (0x24, .opPost), (0x25, .opAbort),
   (0x30, .storeCreate), (0x31, .storeDestroy), (0x32, .storeLoad), (0x33, .storeRead), (0x34, .storeGather), (0x35, .storeUnpin),
   (0x36, .storeReshard), (0x37, .storeLogRead), (0x40, .kernelLoad), (0x41, .kernelFree), (0x42, .layerConfig),
   (0x43, .updateStart), (0x44, .updateAbort), (0x50, .pruneConfig), (0x51, .actConfig), (0x52, .actRead), (0x60, .routeWrite),
   (0x61, .routeArm), (0x62, .epochFlip), (0x63, .routeRead), (0x64, .jobRoute), (0x65, .fabricConfig), (0x70, .frameQuota),
   (0x80, .recConfig), (0x81, .recRead), (0x82, .digestCompare), (0x83, .graftTest), (0x84, .graftCopy), (0x85, .stepAck),
   (0x86, .anchorCopy), (0x90, .fwLoad), (0x91, .fwActivate), (0x92, .linkKey)]
/-- I3C serves management commands: from ROOT_OF_TRUST on, but not in recovery (16 R507, R525). -/
def Sw.served (s : Sw) : Bool := s.i3cServed && !s.sec.recovery
/-- A management command CODE, of n bytes of arguments that spell `arg`, does f and ends with a status: from the BMC, which gets
an answer, and in a MGMT descriptor, which completes; event 0x0C30 records it (16 R528). -/
def mgmtEnds (c : Option Sub → Instr) (code n arg status : Nat) (s : State) (f : Sw → Sw) : Prop :=
  (s.sw.served = true →
    becomes (c none) s ((mgmtEvent false code status (f s.sw)).out (.reply true (le 1 code ++ le 1 status)))) ∧
  (∀ b : Sub, headerGood 0x93 b s → b.f 8 1 = code → (0 < n → b.f 9 n = arg) → b.only [by_ 8 (1 + n)] = true →
    endsWith (c (some b)) s 0x93 b status (fun w => mgmtEvent true code status (f w)))

/-! ### What a command may change -/

/-- The parts that a warm reset can change (14 R472). -/
def warmParts : List Piece := lossParts ++ [.glb, .pwr, .sec, .hostSet, .hostLink, .held, .last0106, .takeovers, .kernels]
/-- The parts that a cold reset or the loss of power can change (14 R472). -/
def coldParts : List Piece := warmParts ++ [.engines, .sites, .cxlHoldMs, .cxlGen, .groveC]
/-- The parts of the state that each command may change. -/
def mayChange : Instr → List Piece
  | .cxlEnable .. => [.cxl]
  | .clockUnlock .. => [.glb]
  | .railFaultRestart .. | .inputRestored .. => [.pwr]
  | .updateSessionTimeout .. | .entdaa .. => [.sec]
  | .getSensorReading .. => [.outs]
  | .delayReqTimeout .. => [.sync]
  | .wearAfUpdate .. => [.wear]
  | .cxlLinkTimeout .. | .evqDoorbell .. => evParts
  | .searchRateStep .. | .laneLock .. | .laneLosClear .. | .aprRestartPulse .. | .clear .. | .checkerLocked ..
    | .checkerLockLost .. | .tapEchoTimeout .. => [.lanes]
  | .pacingRaiseTimer .. => [.portQ]
  | .descriptorFetch .. => [.rings]
  | .latchClose .. | .prepRemoveCancel .. | .laserEnable .. | .removeBlockedLedTimeout .. => [.sites]
  | .registerWrite .. | .powerOff .. | .converterLost .. | .thermalSample .. | .attnLongPress .. => coldParts
  | .storeRead .. | .actRead .. | .routeRead .. | .nop .. | .capsRead .. => descParts
  | .replayTimeout .. | .heartbeatMiss .. | .identifyTimeout .. | .splitDarkTimeout .. | .splitRetry .. | .linkDownReceive ..
    | .lostRetryTimer .. | .adminUpWrite0 .. | .adminUpWrite1 .. | .laneLos .. | .laneLol .. => lossParts
  | .pllRelockTimeout .. | .referenceHoldover .. | .warm .. | .activateFirmware .. => warmParts
  | .pciePerstNDeassert .. => [.hostLink]
  | .stagedContributionConvert .. | .memberEgressStall .. | .latenessExpiry .. | .memberLossTimeout .. | .gradientAreaFull ..
    | .reshardMoveStart .. | .normResendTimer .. | .layerPreComplete .. | .shardCommit .. | .idleCommit ..
    | .migrationCopyDone .. | .poolWaitServed .. | .patrolScrub .. | .cxlHoldTimeout .. | .shardAbandoned ..
    | .migrationError .. => settleParts
  | .modResetNRelease .. => [.glb, .pwr]
  | .creditReceive .. | .creditTimer .. => consumeParts
  | .getVersion .. | .getCapabilities .. | .negotiateAlgorithms .. | .getDigests .. | .getCertificate .. => [.sec, .outs]
  | .timingOutputMark .. => [.time, .outs]
  | .cxlLinkUp .. | .cxlLinkDown .. => evParts ++ [.cxl]
  | .pllRelock .. => evParts ++ [.glb]
  | .stallTimeout .. | .reshardDrainTimeout .. | .updateGradWait .. | .normWaitTimeout .. => evParts ++ [.ctxs]
  | .waitStall .. => evParts ++ [.jobs]
  | .framePeriodChanged .. => evParts ++ [.time]
  | .wearDailySample .. => evParts ++ [.wear]
  | .jobRoute .. => descParts ++ [.fab]
  | .graftTest .. => descParts ++ [.rcv]
  | .trainTimeout .. => evParts ++ [.lanes]
  | .fetchComplete .. | .tail .. | .resume .. => evParts ++ [.rings]
  | .laserIdentityTimeout .. | .laserRampDone .. | .prepRemove .. => evParts ++ [.sites]
  | .referenceLost .. => lossParts ++ [.glb]
  | .frameQuota .. | .pruneConfig .. => descParts ++ [.ctxs]
  | .svnAdvance .. | .lifecycleReturn .. => descParts ++ [.held]
  | .wait .. => descParts ++ [.jobs]
  | .frameReceive .. | .egressService .. => lossParts ++ [.held]
  | .launchInstant .. | .flipTimer .. => settleParts ++ [.fab]
  | .seedlingRebound .. | .seedlingRebindTimeout .. => settleParts ++ [.glb]
  | .flr .. => [.rings, .evqs, .msix]
  | .challenge .. | .getMeasurements .. => [.sec, .outs, .freeCtr]
  | .descriptorDispatch .. | .reset .. | .debugUnlock .. | .completionTimeout .. => coldParts ++ [.nextTok]
  | .congEchoReceive .. | .delayReqReceive .. => consumeParts ++ [.ctxs]
  | .heartbeatPeriod .. => consumeParts ++ [.time]
  | .storeLogRead .. => descParts ++ [.freeCtr]
  | .kernelLoad .. | .kernelFree .. => descParts ++ [.kernels]
  | .portBind .. => descParts ++ [.portMap]
  | .fwActivate .. | .mgmtFwActivate .. => warmParts ++ [.nextTok]
  | .clockProfileChanged .. | .referenceReturn .. => evParts ++ [.glb, .time]
  | .attnShortPress .. => evParts ++ [.sec, .held]
  | .graftSelfTestDone .. | .graftVectorTimeout .. => evParts ++ [.rings, .rcv]
  | .periodicSelfTest .. | .frameTick .. | .sramScrub .. | .tileSelfTestDone .. => lossParts ++ [.takeovers]
  | .ctxDestroy .. | .ctxRecanopy .. | .opPost .. | .opAbort .. | .storeCreate .. | .storeDestroy .. | .storeLoad ..
    | .storeGather .. | .storeUnpin .. | .storeReshard .. | .updateStart .. | .updateAbort .. | .actConfig .. | .stepAck ..
    | .graftCopy .. | .jobClose .. => settleParts ++ [.nextTok]
  | .anchorCopy .. => descParts ++ [.ctxs, .rcv]
  | .channelClear .. => descParts ++ [.held, .hbm]
  | .fabricConfig .. => descParts ++ [.pool, .fab]
  | .fwLoad .. | .locate .. => descParts ++ [.sec, .held]
  | .siteButton .. => evParts ++ [.held, .sites]
  | .graftCopyTimeout .. => evParts ++ [.rings, .ctxs]
  | .ringDisable .. | .cancelWait .. => evParts ++ [.rings, .jobs]
  | .laserIdentityRead .. => evParts ++ [.wear, .sites]
  | .linkIdReceive .. => lossParts ++ [.glb, .held]
  | .memberCellReceive .. | .recordReceive .. | .replayNoticeReceive .. | .anchorNoticeReceive .. | .joinReceive ..
    | .joinStatusReceive .. | .countsReceive .. | .barrierArriveReceive .. | .barrierReleaseReceive ..
    | .abortNoticeReceive .. | .mirrorRecordReceive .. | .moveCellReceive .. | .normReceive .. | .pruneCellReceive ..
    | .zeroRunReceive .. | .resultAckReceive .. | .reinjectReqReceive .. | .graftCellReceive .. => settleParts ++ [.portLink]
  | .inputLow .. => evParts ++ [.evTimes, .pwr]
  | .loReadLatch .. | .accessTimeout .. | .regRead .. => evParts ++ [.glb, .evTimes]
  | .signal .. | .jobOpen .. => descParts ++ [.jobs, .flags]
  | .evqEnable .. | .evqDisable .. | .clockProfileWrite .. => evParts ++ [.glb, .last0106]
  | .linkIdTimer .. => [.portLink, .portQ, .freeCtr]
  | .aprEntered .. => evParts ++ [.evTimes, .lanes]
  | .feedRestored .. => evParts ++ [.lanes, .engines]
  | .delayRespReceive .. => consumeParts ++ [.sync, .ctxs]
  | .linkKey .. => descParts ++ [.held, .portSec]
  | .hostConfig .. => descParts ++ [.hostSet, .held]
  | .profileLowerTick .. => evParts ++ [.glb, .pwr, .time]
  | .tileClear .. => lossParts ++ [.held, .nextTok]
  | .feedLost .. | .latchOpen .. | .laserPoll .. | .mutingDone .. | .laserDisable .. => lossParts ++ [.engines, .sites]
  | .routeArm .. | .epochFlip .. => settleParts ++ [.nextTok, .fab]
  | .profile .. => descParts ++ [.glb, .pwr, .held]
  | .takeOverComplete .. => lossParts ++ [.held, .takeovers]
  | .p2pCellReceive .. | .exchangeCellReceive .. | .epochCellReceive .. => settleParts ++ [.portLink, .fab]
  | .recConfig .. => descParts ++ [.pool, .ctxs, .rcv]
  | .powerLimitSample .. => evParts ++ [.glb, .evTimes, .pwr]
  | .pwrProfileWrite .. => evParts ++ [.glb, .pwr, .last0106]
  | .periodLog2Write .. => evParts ++ [.glb, .time, .last0106]
  | .timingMessageReceive .. | .timingInputTimeout .. | .announceTimeout .. | .holdoverExpired .. | .sourceWrite .. =>
    evParts ++ [.time, .sync, .freeCtr]
  | .injectSingle .. | .injectPeriodic .. | .injectFecSymbols .. | .laneTestStart .. => evParts ++ [.glb, .last0106, .lanes]
  | .glbTileReset .. => evParts ++ [.glb, .last0106, .tiles]
  | .ringEnable .. => evParts ++ [.glb, .rings, .last0106]
  | .layerConfig .. => descParts ++ [.evTimes, .pool, .ctxs]
  | .recRead .. => descParts ++ [.tiles, .hbm, .freeCtr]
  | .pldmFirmwareUpdate .. => evParts ++ [.glb, .sec, .time, .held]
  | .glbPortReset .. => lossParts ++ [.glb, .held, .last0106]
  | .reshardResendTimeout .. => evParts ++ [.evTimes, .portCnt, .portQ]
  | .tileQuarantine .. => lossParts ++ [.held, .nextTok, .takeovers]
  | .waitPinResume .. => evParts ++ [.evTimes, .tiles, .pool, .ctxs]
  | .epochDrained .. => evParts ++ [.evTimes, .portCnt, .portQ, .fab]
  | .delayReqTimer .. => evParts ++ [.evTimes, .sync, .portCnt, .portQ]
  | .syncReceive .. | .announceReceive .. => consumeParts ++ [.time, .sync, .ctxs, .freeCtr]
  | .routeWrite .. => descParts ++ [.evTimes, .portCnt, .portQ, .fab]
  | .digestCompareTimeout .. => evParts ++ [.rings, .tiles, .hbm, .rcv, .freeCtr]
  | .hostLinkReset .. => [.rings, .evqs, .hostSet, .hostLink, .msix, .held]
  | .migrationStart .. => evParts ++ [.evTimes, .cxl, .pool, .ctxs, .migQueues]
  | .graftLinkTestDone .. | .graftVectorsDone .. => evParts ++ [.evTimes, .rings, .portCnt, .portQ, .rcv]
  | .syncInterval .. => evParts ++ [.evTimes, .time, .sync, .portCnt, .portQ]
  | .trainingFrameReceive .. => evParts ++ [.portReg, .portLink, .portQ, .lanes, .freeCtr]
  | .digestReceive .. => consumeParts ++ [.time, .tiles, .hbm, .ctxs, .rcv, .freeCtr]
  | .digestCompare .. => descParts ++ [.evTimes, .time, .portCnt, .portQ, .ctxs, .rcv, .freeCtr]
  | .startupStageDone .. => lossParts ++ [.glb, .pwr, .sec, .hostLink, .held, .sites, .takeovers, .groveC]
  | .ctxCreate .. => descParts ++ [.evTimes, .time, .portMap, .portCnt, .portQ, .pool, .ctxs, .freeCtr]
  | .teardownComplete .. => evParts ++ [.rings, .jobs, .flags, .portMap, .cxl, .pool, .ctxs, .kernels, .migQueues]
  | .cold .. | .modResetN .. | .auxWatchdog .. | .inputPowerLoss .. | .inputOvervoltage .. | .inputOvercurrent ..
    | .powerOnSequence .. =>
    [.glb, .evTimes, .pwr, .wear, .sec, .time, .sync, .rings, .evqs, .jobs, .flags, .hostSet, .hostLink, .msix, .held, .last0106, .portReg, .portMap, .portCnt, .portLink, .portQ, .portSec, .quads, .lanes, .engines, .sites, .tiles, .takeovers, .hbm, .cxl, .cxlHoldMs, .cxlGen, .pool, .groveC, .ctxs, .fab, .rcv, .kernels, .migQueues, .freeCtr]
/-- The commands that may burn fuses: SVN_ADVANCE and LIFECYCLE_RETURN, and the dispatch of a descriptor, which may be either
(16 R511, R522). -/
def mayBurn : Instr → Bool
  | .svnAdvance .. | .lifecycleReturn .. | .descriptorDispatch .. | .completionTimeout .. => true
  | _ => false

/-! ### Fuses and images -/

/-- Fuses `b` can follow fuses `a`: the SVN floor does not fall, no revocation is undone, a RETURNED part stays RETURNED
(16 R504, R511, R522). -/
def Fuses.le (a b : Fuses) : Prop :=
  a.svnFloor ≤ b.svnFloor ∧ a.revoked &&& b.revoked = a.revoked ∧ (a.lifecycle = 2 → b.lifecycle = 2)

/-- Both image slots are in canonical form (16 R504). -/
def Sw.imagesWf (s : Sw) : Bool := Memory.wf s.sec.slotA.bytes && Memory.wf s.sec.slotB.bytes

end Sys2Proof.Machine
end

