-- ==== Sys2Proof/Certificates/Slice0/Obligations.lean ====
section
/-! DEFINITION. The statements about the model, one definition each. -/
open Sys2Proof Sys2Proof.Machine

/-- On an active port n that no key protects. Up or not, a frame adds its codewords, corrected symbols and uncorrectable codewords
to the counters; on a port neither UP nor in IDENTIFY that is all. On an UP port a frame that FEC or CRC fails also counts one
CRC error and owes a NAK once per expected FSEQ, and delivers nothing. A good data frame with the expected FSEQ advances it by
one, ends the NAK and counts as liveness; one with another FSEQ is liveness only and delivers nothing. A single cell from a
switch enters the receive buffer and takes one credit where its header and channel are good and credit stands for it; without
credit it counts a credit error, with a reserved header a header error, and does not enter. A port in IDENTIFY counts a frame
that FEC fails. An idle frame with ACKV frees the replay buffer up to and including ACKSEQ. An idle frame with NAK, or
REPLAY_TIMEOUT, starts a replay of every frame kept and counts it, unless the oldest has been replayed 8 times: then the port
goes to LOST with reason 4. REPLAY_TIMEOUT with nothing kept, or on a port not UP, changes nothing. (R90, R91, R92, R93) -/
def Obligations.FrameRule : Prop :=
  (∀ (s : State) (n : Nat) (f : Frame) (cw sym unc : Nat), s.sw.portActive n = true →
    (s.sw.port n).reg.state ≠ .up → (s.sw.port n).reg.state ≠ .identify →
    runsTo (.frameReceive n f cw sym unc) s [.portCnt] fun t => (t.port n).cnt = (s.sw.port n).cnt.plusFec cw sym unc) ∧
  (∀ (s : State) (n : Nat) (f : Frame) (cw sym unc : Nat), s.sw.portActive n = true → (s.sw.port n).reg.state = .identify →
    f.fecOk = false → runsTo (.frameReceive n f cw sym unc) s [.portCnt] fun t =>
      (t.port n).cnt = { (s.sw.port n).cnt.plusFec cw sym unc with crcErr := (s.sw.port n).cnt.crcErr + 1 }) ∧
  (∀ (s : State) (n : Nat) (f : Frame) (cw sym unc : Nat), s.sw.portActive n = true → s.sw.up n = true → s.sw.plainBad n f →
    (s.sw.port n).sec.engaged = false →
    runsTo (.frameReceive n f cw sym unc) s [.portCnt, .portLink] fun t =>
      (t.port n).cnt = { (s.sw.port n).cnt.plusFec cw sym unc with crcErr := (s.sw.port n).cnt.crcErr + 1 } ∧
      (t.port n).link.nakDone = true ∧ (t.port n).link.rxExpect = (s.sw.port n).link.rxExpect ∧
      ((s.sw.port n).link.nakDone = false → (t.port n).link.nakDue = true)) ∧
  (∀ (s : State) (n : Nat) (f : Frame) (cw sym unc : Nat), s.sw.portActive n = true → s.sw.up n = true → s.sw.plainGood n f →
    f.idle = false → f.ackv = false → f.nak = false → f.fseq = (s.sw.port n).link.rxExpect →
    runsTo (.frameReceive n f cw sym unc) s consumeParts fun t =>
      (t.port n).link.rxExpect = (s.sw.port n).link.rxExpect + 1 ∧ (t.port n).link.alive = true ∧
      (t.port n).link.nakDone = false ∧ (t.port n).link.nakDue = false ∧
      (f.valid 0 = true → (∀ i, 0 < i → i < 4 → f.valid i = false) → s.sw.isMember n = false →
        wirePortLayer (s.sw.pers n) (f.pos.getD 0 ⟨0, 0⟩) = false →
        (nth 0 (s.sw.port n).link.rxCredit (f.vc 0) = 0 → (t.port n).q.rxq = (s.sw.port n).q.rxq ∧
          (t.port n).cnt.creditErr = (s.sw.port n).cnt.creditErr + 1) ∧
        (nth 0 (s.sw.port n).link.rxCredit (f.vc 0) ≠ 0 → s.sw.headerBad n (f.pos.getD 0 ⟨0, 0⟩) = true →
          (t.port n).q.rxq = (s.sw.port n).q.rxq ∧ (t.port n).cnt.hdrErr = (s.sw.port n).cnt.hdrErr + 1) ∧
        (nth 0 (s.sw.port n).link.rxCredit (f.vc 0) ≠ 0 → s.sw.headerBad n (f.pos.getD 0 ⟨0, 0⟩) = false →
          f.vc 0 ∈ vcsOf (wireTc (s.sw.pers n) (f.pos.getD 0 ⟨0, 0⟩)) →
          (t.port n).q.rxq = (s.sw.port n).q.rxq ++ [{ cell := f.pos.getD 0 ⟨0, 0⟩, vc := f.vc 0 }] ∧
          (t.port n).link.rxCredit =
            setNth (s.sw.port n).link.rxCredit (f.vc 0) (nth 0 (s.sw.port n).link.rxCredit (f.vc 0) - 1)))) ∧
  (∀ (s : State) (n : Nat) (f : Frame) (cw sym unc : Nat), s.sw.portActive n = true → s.sw.up n = true → s.sw.plainGood n f →
    f.idle = false → f.ackv = false → f.nak = false → f.fseq ≠ (s.sw.port n).link.rxExpect →
    runsTo (.frameReceive n f cw sym unc) s [.portCnt, .portLink] fun t =>
      (t.port n).link = { (s.sw.port n).link with alive := true }) ∧
  (∀ (s : State) (n : Nat) (f : Frame) (cw sym unc : Nat) (l r : List SentFrame) (g : SentFrame), s.sw.portActive n = true →
    s.sw.up n = true → s.sw.plainGood n f → f.idle = true → f.ackv = true → f.nak = false →
    (s.sw.port n).link.replayBuf = l ++ g :: r → g.frame.fseq = f.ackseq → (∀ h ∈ l, h.frame.fseq ≠ f.ackseq) →
    runsTo (.frameReceive n f cw sym unc) s (.portLink :: settleParts) fun t =>
      (t.port n).link.replayBuf = r ∧ (t.port n).link.rxExpect = (s.sw.port n).link.rxExpect) ∧
  (∀ (s : State) (n : Nat) (f : Frame) (cw sym unc : Nat) (g : SentFrame) (r : List SentFrame), s.sw.portActive n = true →
    s.sw.up n = true → s.sw.plainGood n f → f.idle = true → f.ackv = false → f.nak = true →
    (s.sw.port n).link.replayBuf = g :: r →
    (g.replays < 8 → runsTo (.frameReceive n f cw sym unc) s [.portCnt, .portLink] fun t =>
      (t.port n).link = { (s.sw.port n).link with resend := r.length + 1 } ∧
      (t.port n).cnt.replay = (s.sw.port n).cnt.replay + 1) ∧
    (8 ≤ g.replays → runsTo (.frameReceive n f cw sym unc) s lossParts
      (wentLost n 4 (s.sw.port n).reg.partnerReason s.sw))) ∧
  (∀ (s : State) (n : Nat) (g : SentFrame) (r : List SentFrame), s.sw.portActive n = true → s.sw.up n = true →
    (s.sw.port n).link.replayBuf = g :: r →
    (g.replays < 8 → runsTo (.replayTimeout n) s [.portCnt, .portLink] fun t =>
      (t.port n).link = { (s.sw.port n).link with resend := r.length + 1 } ∧
      (t.port n).cnt = { (s.sw.port n).cnt with replay := (s.sw.port n).cnt.replay + 1 }) ∧
    (8 ≤ g.replays → runsTo (.replayTimeout n) s lossParts (wentLost n 4 (s.sw.port n).reg.partnerReason s.sw))) ∧
  (∀ (s : State) (n : Nat), s.sw.up n = false ∨ (s.sw.port n).link.replayBuf = [] → stays (.replayTimeout n) s)

/-- On an active port n: HEARTBEAT_MISS takes an UP port that has counted three heartbeat periods without liveness, and had none
since, to LOST with reason 1 and counts it; otherwise it changes nothing. LINK_DOWN_RECEIVE of a LINK_DOWN cell takes an UP port
to LOST with reason 3 and the partner's REASON; on a port not UP it only takes the cell. LOST_RETRY_TIMER on a LOST port with
ADMIN_UP goes to SEARCH under the ALLOW written, or to DISABLED at ALLOW 0, where it transmits only a LINK_DOWN still owed; in
another state, or with ADMIN_UP clear, nothing changes. ADMIN_UP = 0 takes SEARCH, IDENTIFY and LOST to DISABLED with the
transmitter off; from UP to DISABLED with reason 5, the transmitter on and three frames of LINK_DOWN with reason 0 owed; in
other states only ADMIN_UP changes. ADMIN_UP = 1 sets the bit, ends the lane tests and takes a DISABLED port with ALLOW not 0 to
SEARCH; in every other state the state stands. (R85, R86, R107, R115, R116, R454) -/
def Obligations.LinkLossRule : Prop :=
  (∀ (s : State) (n : Nat), s.sw.portActive n = true → s.sw.up n = true → (s.sw.port n).link.alive = false →
    3 ≤ (s.sw.port n).link.deadPeriods → runsTo (.heartbeatMiss n) s lossParts fun t =>
      wentLost n 1 (s.sw.port n).reg.partnerReason s.sw t ∧ (t.port n).cnt.hbMiss = (s.sw.port n).cnt.hbMiss + 1) ∧
  (∀ (s : State) (n : Nat), s.sw.up n = false ∨ (s.sw.port n).link.alive = true ∨ (s.sw.port n).link.deadPeriods < 3 →
    stays (.heartbeatMiss n) s) ∧
  (∀ (s : State) (n : Nat) (c : Cell), s.sw.portActive n = true → s.sw.up n = true → s.sw.portLayerOf n ctLinkDown c →
    runsTo (.linkDownReceive n c) s lossParts
      (wentLost n 3 ((portLayerForm (s.sw.pers n) c).f 0 1 % 16) s.sw)) ∧
  (∀ (s : State) (n : Nat) (c : Cell), s.sw.up n = false ∨ ¬ s.sw.portLayerOf n ctLinkDown c →
    becomes (.linkDownReceive n c) s (consume n c s.sw)) ∧
  (∀ (s : State) (n : Nat), s.sw.portActive n = true → (s.sw.port n).reg.state = .lost → (s.sw.port n).reg.adminUp = true →
    ((s.sw.port n).reg.allow ≠ 0 → s.sw.splitStands n → s.sw.inService (n / 4) = true →
      runsTo (.lostRetryTimer n) s [.lanes, .portLink, .portReg, .portSec, .quads] fun t =>
        (t.port n).reg.state = .search ∧ (t.port n).reg.allowNow = (s.sw.port n).reg.allow) ∧
    ((s.sw.port n).reg.allow = 0 → s.sw.splitStands n → runsTo (.lostRetryTimer n) s [.lanes, .portLink, .portReg, .portSec, .quads] fun t =>
        (t.port n).reg.state = .disabled ∧ (t.port n).link.txOn = (s.sw.port n).link.linkDown.isSome)) ∧
  (∀ (s : State) (n : Nat), (s.sw.port n).reg.state ≠ .lost ∨ (s.sw.port n).reg.adminUp = false →
    stays (.lostRetryTimer n) s) ∧
  (∀ (s : State) (n : Nat), s.sw.portActive n = true →
    ((s.sw.port n).reg.state = .search ∨ (s.sw.port n).reg.state = .identify ∨ (s.sw.port n).reg.state = .lost →
      runsTo (.adminUpWrite0 n) s [.lanes, .portLink, .portReg, .portSec, .quads] fun t =>
        (t.port n).reg.state = .disabled ∧ (t.port n).reg.adminUp = false ∧ (t.port n).link.txOn = false) ∧
    ((s.sw.port n).reg.state = .up → runsTo (.adminUpWrite0 n) s lossParts fun t =>
        (t.port n).reg.state = .disabled ∧ (t.port n).reg.adminUp = false ∧ (t.port n).reg.lostReason = 5 ∧
        (t.port n).link.txOn = true ∧ (t.port n).link.linkDown = some (3, 0) ∧ (t.port n).link.replayBuf = []) ∧
    ((s.sw.port n).reg.state = .disabled ∨ (s.sw.port n).reg.state = .outOfService ∨ (s.sw.port n).reg.state = .absent →
      runsTo (.adminUpWrite0 n) s [.portReg] fun t =>
        (t.port n).reg = { (s.sw.port n).reg with adminUp := false } ∧ othersSame Sw.port n s.sw t)) ∧
  (∀ (s : State) (n : Nat), s.sw.portActive n = true →
    ((s.sw.port n).reg.state = .disabled → (s.sw.port n).reg.allow ≠ 0 → s.sw.splitStands n → s.sw.inService (n / 4) = true →
      runsTo (.adminUpWrite1 n) s [.lanes, .portLink, .portReg, .portSec, .quads] fun t =>
        (t.port n).reg.state = .search ∧ (t.port n).reg.adminUp = true) ∧
    ((s.sw.port n).reg.state ≠ .disabled ∨ (s.sw.port n).reg.allow = 0 → runsTo (.adminUpWrite1 n) s [.lanes, .portReg] fun t =>
        (t.port n).reg = { (s.sw.port n).reg with adminUp := true } ∧ othersSame Sw.port n s.sw t))

/-- On an active port n: CREDIT_RECEIVE of a CREDIT cell on an UP port adds to the send credit of each virtual channel the
difference, modulo 2^16, between the FREED count received and the last one, which it replaces; on a port not UP, or for another
cell, it only takes the cell out of the receive buffer. CREDIT_TIMER with cells freed since the last CREDIT cell and none held
back by pacing, on an UP port whose tile is in no take-over, clears those counts, makes that credit outstanding again and queues
one port-layer cell behind the others; with none freed, on a port not UP or during a take-over nothing changes. HEARTBEAT_PERIOD
on an UP port counts the period as dead when no data frame came, as the first live one otherwise, forgets what was sent and
received in it, and queues one port-layer cell when no valid cell was sent, none when one was; on a port not UP nothing changes. (R96, R97, R114, R115, R331) -/
def Obligations.CreditRule : Prop :=
  (∀ (s : State) (n : Nat) (c : Cell), s.sw.portActive n = true → s.sw.up n = true → s.sw.portLayerOf n ctCredit c →
    runsTo (.creditReceive n c) s consumeParts fun t => ∀ v, v < 16 →
      nth 0 (t.port n).link.freedSeen v = BitVec.ofNat 16 ((portLayerForm (s.sw.pers n) c).f (2 * v) 2) ∧
      nth 0 (t.port n).link.txCredit v = nth 0 (s.sw.port n).link.txCredit v +
        (BitVec.ofNat 16 ((portLayerForm (s.sw.pers n) c).f (2 * v) 2) - nth 0 (s.sw.port n).link.freedSeen v).toNat) ∧
  (∀ (s : State) (n : Nat) (c : Cell), s.sw.up n = false ∨ ¬ s.sw.portLayerOf n ctCredit c →
    becomes (.creditReceive n c) s (consume n c s.sw)) ∧
  (∀ (s : State) (n : Nat), s.sw.portActive n = true → s.sw.up n = true → s.sw.takingOver (n / 4) = false →
    (s.sw.port n).link.freedNew.any (fun k => k != 0) = true → (s.sw.port n).link.paced = [] →
    runsTo (.creditTimer n) s consumeParts fun t =>
      (t.port n).link = { (s.sw.port n).link with freedNew := List.replicate 16 0
                                                  rxCredit := (List.range 16).map fun v =>
                                                    nth 0 (s.sw.port n).link.rxCredit v + nth 0 (s.sw.port n).link.freedNew v } ∧
      ∃ i, (t.port n).q.txq = (s.sw.port n).q.txq ++ [i] ∧ i.cls = .portLayer) ∧
  (∀ (s : State) (n : Nat), (s.sw.port n).link.paced = [] → (s.sw.port n).link.freedNew.any (fun k => k != 0) = false ∨
    s.sw.up n = false ∨ s.sw.takingOver (n / 4) = true → stays (.creditTimer n) s) ∧
  (∀ (s : State) (n : Nat), s.sw.portActive n = true → s.sw.up n = true →
    runsTo (.heartbeatPeriod n) s (.time :: consumeParts) fun t =>
      (t.port n).link.alive = false ∧ (t.port n).link.sentCell = false ∧
      (t.port n).link.deadPeriods = (if (s.sw.port n).link.alive then 0 else (s.sw.port n).link.deadPeriods + 1) ∧
      ((s.sw.port n).link.sentCell = true → (t.port n).q = (s.sw.port n).q) ∧
      ((s.sw.port n).link.sentCell = false →
        ∃ i, (t.port n).q.txq = (s.sw.port n).q.txq ++ [i] ∧ i.cls = .portLayer)) ∧
  (∀ (s : State) (n : Nat), s.sw.up n = false → stays (.heartbeatPeriod n) s)

/-- On an active port n. LINK_ID_RECEIVE outside IDENTIFY, or of another cell, only takes the cell. In IDENTIFY the partner's NONCE
is kept; without an echo of a LINK_ID sent in the last 10 ms nothing else happens; one that fails a test of R106 raises its
event and the port stays in IDENTIFY; one that passes all, on a port outside the AUTO trial with link protection off, takes the
port UP with the partner's DEVICE_ID, role and port, the round trip, and the longer of the two heartbeat periods. In the AUTO
trial the lane is identified, and while another lane is neither identified nor dark no port changes. LINK_ID_TIMER in IDENTIFY
queues one LINK_ID and remembers its NONCE; otherwise nothing changes. IDENTIFY_TIMEOUT in IDENTIFY, outside the trial, with
ADMIN_UP, an ALLOW that is not 0 and link protection off, returns to SEARCH; in another state nothing changes.
SPLIT_DARK_TIMEOUT in a trial with a lane identified counts the others as dark and takes the choice then due, and otherwise
changes nothing; a choice takes the first mode whose groups pass, or marks the trial failed. SPLIT_RETRY after a failed trial
restarts it: every port neither DISABLED nor OUT_OF_SERVICE, with ADMIN_UP and an ALLOW that is not 0, searches; otherwise
nothing changes. (R85, R101, R105, R106, R107, R517) -/
def Obligations.IdentityRule : Prop :=
  (∀ (s : State) (n : Nat) (c : Cell), (s.sw.port n).reg.state ≠ .identify ∨ ¬ s.sw.portLayerOf n ctLinkId c →
    becomes (.linkIdReceive n c) s (consume n c s.sw)) ∧
  (∀ (s : State) (n : Nat) (c c' : Cell), s.sw.portActive n = true → (s.sw.port n).reg.state = .identify →
    s.sw.portLayerOf n ctLinkId c → c' = portLayerForm (s.sw.pers n) c →
    (s.sw.echoedAt n c' = none → runsTo (.linkIdReceive n c) s consumeParts fun t =>
      (t.port n).link.rxNonce = BitVec.ofNat 16 (c'.f 18 2)) ∧
    (∀ t₀ k, s.sw.echoedAt n c' = some t₀ →
      linkIdTest s.sw n c' (s.sw.now - t₀) ((s.sw.quad (n / 4)).splitNow = 0) = some k →
      runsTo (.linkIdReceive n c) s consumeParts fun t => (t.port n).link.rxNonce = BitVec.ofNat 16 (c'.f 18 2)) ∧
    (∀ t₀, s.sw.echoedAt n c' = some t₀ → (s.sw.port n).sec.modeNow = false → c'.f 22 2 % 2 ≠ 1 →
      (s.sw.quad (n / 4)).splitNow ≠ 0 → linkIdTest s.sw n c' (s.sw.now - t₀) false = none →
      runsTo (.linkIdReceive n c) s (settleParts ++ [.glb, .held, .lanes, .portLink, .portReg, .portSec, .wear]) fun t =>
        (t.port n).reg.state = .up ∧ (t.port n).reg.partnerId = c'.q 0 ∧ (t.port n).reg.partnerRole = c'.f 8 1 ∧
        (t.port n).reg.partnerPort = c'.f 16 2 ∧ (t.port n).reg.rtt = (s.sw.now - t₀) % 2 ^ 24 ∧
        (t.port n).reg.hbLog2 = max (c'.f 15 1) s.sw.time.active) ∧
    (∀ t₀ j, s.sw.echoedAt n c' = some t₀ → (s.sw.port n).sec.modeNow = false → c'.f 22 2 % 2 ≠ 1 →
      (s.sw.quad (n / 4)).splitNow = 0 → (s.sw.quad (n / 4)).splitActive = 0 → linkIdTest s.sw n c' (s.sw.now - t₀) true = none →
      j < 4 → j ≠ n % 4 → (s.sw.quad (n / 4)).ident.mem j = false → s.sw.splitDark (n / 4) j = false →
      runsTo (.linkIdReceive n c) s (.quads :: consumeParts) fun t =>
        (t.quad (n / 4)).ident = (s.sw.quad (n / 4)).ident.set (n % 4) (c'.q 0, c'.f 10 1))) ∧
  (∀ (s : State) (n : Nat), s.sw.portActive n = true → (s.sw.port n).reg.state = .identify →
    runsTo (.linkIdTimer n) s [.freeCtr, .portLink, .portQ] fun t =>
      ∃ v i, (t.port n).link.nonces.getLast? = some (v, s.sw.now) ∧ (t.port n).q.txq = (s.sw.port n).q.txq ++ [i] ∧
        i.cls = .portLayer) ∧
  (∀ (s : State) (n : Nat), (s.sw.port n).reg.state ≠ .identify → stays (.linkIdTimer n) s ∧ stays (.identifyTimeout n) s) ∧
  (∀ (s : State) (n : Nat), s.sw.portActive n = true → (s.sw.port n).reg.state = .identify →
    (s.sw.quad (n / 4)).splitNow ≠ 0 → (s.sw.port n).sec.modeNow = false → s.sw.splitStands n → (s.sw.port n).reg.adminUp = true →
    (s.sw.port n).reg.allow ≠ 0 → runsTo (.identifyTimeout n) s [.lanes, .portLink, .portReg, .portSec] fun t => (t.port n).reg.state = .search) ∧
  (∀ (s : State) (q : Nat), (s.sw.quad q).splitNow ≠ 0 ∨ (s.sw.quad q).splitActive ≠ 0 ∨ (s.sw.quad q).ident = [] →
    stays (.splitDarkTimeout q) s) ∧
  (∀ (s : State) (q : Nat), (s.sw.quad q).splitNow = 0 → (s.sw.quad q).splitActive = 0 → (s.sw.quad q).ident ≠ [] → ∃ d : BitVec 4,
    (∀ j, j < 4 → (d.getLsbD j = true ↔ (s.sw.quad q).ident.mem j = false)) ∧
    becomes (.splitDarkTimeout q) s (splitChoose q (s.sw.modQuad q fun e => { e with darkSet := d }))) ∧
  (∀ (s : Sw) (q : Nat), (s.quad q).splitNow = 0 → (s.quad q).splitActive = 0 → (s.quad q).failedTrial = false →
    (s.quad q).ident ≠ [] → (∀ j, j < 4 → (s.quad q).ident.mem j = true ∨ s.splitDark q j = true) →
    (∀ m, [1, 2, 3].find? (fun m => (splitPorts q m).all (fun e => s.groupPasses q e.2.1 e.2.2)) = some m →
      ((splitChoose q s).quad q).splitActive = m) ∧
    ([1, 2, 3].find? (fun m => (splitPorts q m).all (fun e => s.groupPasses q e.2.1 e.2.2)) = none →
      ((splitChoose q s).quad q).splitActive = 0 ∧ ((splitChoose q s).quad q).failedTrial = true)) ∧
  (∀ (s : State) (q : Nat), (s.sw.quad q).failedTrial = false → stays (.splitRetry q) s) ∧
  (∀ (s : State) (q : Nat), s.sw.quadActive q = true → (s.sw.quad q).failedTrial = true →
    runsTo (.splitRetry q) s lossParts fun t =>
      (t.quad q).failedTrial = false ∧ (t.quad q).ident = [] ∧ (t.quad q).splitActive = 0 ∧
      ∀ n, n / 4 = q → (s.sw.port n).reg.state ≠ .disabled → (s.sw.port n).reg.state ≠ .outOfService →
        (s.sw.port n).reg.adminUp = true → (s.sw.port n).reg.allow ≠ 0 →
        (t.port n).reg.state = .search)

/-- On a port n that no key protects, EGRESS_SERVICE does this. With the transmitter off nothing changes. On an UP port: with frames
to send again the next one goes and one fewer is left; with the replay buffer full, or with no cell that may leave, an idle
frame with the last FSEQ received goes; otherwise the cell served goes in a data frame with the next FSEQ, is kept for replay
and uses one credit of its channel. A port-layer cell is served before all others, and without one the first CTRL or TIME cell
that may leave. In IDENTIFY its first port-layer cell goes; in any other state one of the LINK_DOWN frames owed goes, or
nothing; after the last the transmitter stops, but in SEARCH. PACING_RAISE_TIMER raises the limiter of its CDST by one sixty-
fourth and drops limiters at the full rate. MEMBER_EGRESS_STALL of REQ or FWD on an UP member port without credit of the class,
not stalled yet, discards and counts every cell of the class, waiting or spilled, when none belongs to an exchange, and marks
the class; on another port, class or credit, or a class already stalled, nothing changes. (R89, R90, R91, R92, R106, R116, R183, R357, R358) -/
def Obligations.EgressRule : Prop :=
  (∀ (s : State) (n : Nat), (s.sw.port n).link.txOn = false → stays (.egressService n) s) ∧
  (∀ (s : State) (n : Nat), s.sw.portActive n = true → (s.sw.port n).link.txOn = true → s.sw.up n = true →
    (s.sw.port n).sec.modeNow = false → (s.sw.port n).sec.engaged = false → (s.sw.port n).link.resend = 0 →
    (s.sw.replayCap n ≤ (s.sw.port n).link.replayBuf.length ∨ pickItem s.sw n = none →
      runsTo (.egressService n) s [.portLink, .outs] fun t =>
        (t.port n).link = { (s.sw.port n).link with nakDue := false } ∧
        t.outs = s.sw.outs ++ [.frame n { frameOf s.sw n (s.sw.port n).link.txSeq [] with
          trailer := frameCrc (s.sw.pers n) (frameOf s.sw n (s.sw.port n).link.txSeq []) }]) ∧
    (∀ it rr, (s.sw.port n).link.replayBuf.length < s.sw.replayCap n → pickItem s.sw n = some (it, rr) → it.vc ≠ 10 →
      runsTo (.egressService n) s (.portLink :: settleParts) fun t =>
        (t.port n).link.txSeq = (s.sw.port n).link.txSeq + 1 ∧
        (t.port n).link.replayBuf = (s.sw.port n).link.replayBuf ++
          [{ frame := frameOf s.sw n (s.sw.port n).link.txSeq [(it.cell, if it.cls == .portLayer then 8 else it.vc)],
             replays := 0, sentAt := s.sw.now, marks := [it.mark] }] ∧
        (it.cls ≠ .portLayer → (t.port n).link.txCredit =
          setNth (s.sw.port n).link.txCredit it.vc (nth 0 (s.sw.port n).link.txCredit it.vc - 1)) ∧
        (it.mark = .none → (s.sw.port n).q.spill = [] → (t.port n).q.txq = (s.sw.port n).q.txq.erase it))) ∧
  (∀ (s : Sw) (n : Nat),
    (∀ it, (s.port n).q.txq.find? (fun i => i.cls == .portLayer) = some it → pickItem s n = some (it, none)) ∧
    (∀ it, (s.port n).q.txq.find? (fun i => i.cls == .portLayer) = none →
      (s.port n).q.txq.find? (fun i => i.cls == .ctrl && s.ready n i) = some it → pickItem s n = some (it, none))) ∧
  (∀ (s : State) (n : Nat), s.sw.portActive n = true → (s.sw.port n).link.txOn = true → s.sw.up n = true →
    (s.sw.port n).sec.modeNow = false → (s.sw.port n).sec.engaged = false → (s.sw.port n).link.resend ≠ 0 →
    (s.sw.port n).link.resend ≤ (s.sw.port n).link.replayBuf.length →
    runsTo (.egressService n) s [.portLink, .outs] fun t =>
      (t.port n).link.resend = (s.sw.port n).link.resend - 1 ∧ (t.port n).link.txSeq = (s.sw.port n).link.txSeq ∧
      (t.port n).link.replayBuf.length = (s.sw.port n).link.replayBuf.length ∧
      ∃ g, t.outs = s.sw.outs ++ [.frame n g]) ∧
  (∀ (s : State) (n : Nat) (it : TxItem), s.sw.portActive n = true → (s.sw.port n).link.txOn = true →
    (s.sw.port n).reg.state = .identify → (s.sw.port n).sec.modeNow = false → (s.sw.port n).sec.engaged = false →
    (s.sw.port n).q.txq.find? (fun i => i.cls == .portLayer) = some it →
    runsTo (.egressService n) s [.portLink, .portQ, .outs] fun t =>
      (t.port n).q.txq = (s.sw.port n).q.txq.erase it ∧ ∃ f, t.outs = s.sw.outs ++ [.frame n f]) ∧
  (∀ (s : State) (n : Nat), s.sw.portActive n = true → (s.sw.port n).link.txOn = true → s.sw.up n = false →
    (s.sw.port n).reg.state ≠ .identify →
    ((s.sw.port n).link.linkDown = none → stays (.egressService n) s) ∧
    (∀ k r, (s.sw.port n).link.linkDown = some (k, r) → (s.sw.port n).sec.modeNow = false → (s.sw.port n).sec.engaged = false →
      runsTo (.egressService n) s [.portLink, .outs] fun t =>
        (t.port n).link.linkDown = (if k ≤ 1 then none else some (k - 1, r)) ∧
        (t.port n).link.txOn = ((s.sw.port n).reg.state == .search || decide (1 < k)) ∧
        ∃ f, t.outs = s.sw.outs ++ [.frame n f])) ∧
  (∀ (s : State) (n d : Nat), s.sw.portActive n = true → runsTo (.pacingRaiseTimer n d) s [.portQ] fun t =>
    (t.port n).q.txq = (s.sw.port n).q.txq ∧ (t.port n).q.limiters =
      ((s.sw.port n).q.limiters.map (fun l => if l.cdst = d then { l with rate := l.rate + 1 } else l)).filter
        (fun l => decide (l.rate < 64))) ∧
  (∀ (s : State) (n tc : Nat), s.sw.portActive n = true → s.sw.up n = true → s.sw.isMember n = true → tc = 0 ∨ tc = 2 →
    (s.sw.port n).q.stalled.mem tc = false → nth 0 (s.sw.port n).link.txCredit (firstVc tc) = 0 →
    (∀ i ∈ (s.sw.port n).q.txq ++ (s.sw.port n).q.spill, s.sw.exchangeOf i.cell = none) →
    runsTo (.memberEgressStall n tc) s [.portQ, .portCnt, .evqs, .msix, .outs] fun t =>
      (t.port n).q.txq = (s.sw.port n).q.txq.filter (fun i => !(vcsOf tc).contains i.vc) ∧
      (t.port n).q.spill = (s.sw.port n).q.spill.filter (fun i => !(vcsOf tc).contains i.vc) ∧
      (t.port n).q.stalled.mem tc = true ∧
      (t.port n).cnt.dropStall = (s.sw.port n).cnt.dropStall +
        BitVec.ofNat 32 (((s.sw.port n).q.txq ++ (s.sw.port n).q.spill).filter (fun i => (vcsOf tc).contains i.vc)).length) ∧
  (∀ (s : State) (n tc : Nat), s.sw.up n = false ∨ s.sw.isMember n = false ∨ (tc ≠ 0 ∧ tc ≠ 2) ∨
    (s.sw.port n).q.stalled.mem tc = true ∨ nth 0 (s.sw.port n).link.txCredit (firstVc tc) ≠ 0 →
    stays (.memberEgressStall n tc) s)

/-- A REQ, RSP or FWD cell with a good header, no multicast and no open exchange, on UP switch port p under a version that routes:
P2P_CELL_RECEIVE counts it in; where R338 names an UP member port o of FL3 with room below CE_THRESH, the cell, its CE clear,
joins o's best-effort queue on the first channel of its class; where it names candidates, of a job without adaptive routing, the
first that is UP and permitted and below CE_THRESH gets it on the channel permitted; where no candidate qualifies and the
version is not DRAINING it is counted in PORT_DROP_RANK, and where R338 names nothing in PORT_DROP_ROUTE, as is a multicast cell
with no entry for its group and job; a multicast cell that finds no fan-out buffer stays where it is. On a port not UP the cell
only leaves the receive buffer. CONG_ECHO_RECEIVE from a member discards and counts the echo; from a switch, an echo for a rank
bound to an UP FL1 member port o without a limiter for its CDST and fewer than 16 adds one at half rate, and one whose last
halving is ECHO_GAP_NS ago is halved. (R333, R338, R339, R340, R342, R352, R353, R354, R355, R356, R364) -/
def Obligations.P2pRule : Prop :=
  (∀ (s : State) (p : Nat) (c : Cell), s.sw.up p = false → becomes (.p2pCellReceive p c) s (consume p c s.sw)) ∧
  (∀ (s : State) (p : Nat) (c : Cell), s.sw.portActive p = true → s.sw.up p = true → s.sw.isMember p = false → c.badHeader = false →
    c.tc ≤ 2 → s.sw.pers p ≠ 1 → (s.sw.ver c.ep).st ≠ .standby → c.mc = false → s.sw.exchangeOf c = none →
    (∀ o, s.sw.find c.ep c.job c.dst = .member o → o ≠ p → s.sw.portActive o = true → s.sw.up o = true → s.sw.isMember o = true →
      s.sw.pers o = 3 → c.ce = false → (s.sw.port o).q.spill = [] → (s.sw.port o).q.held < 1024 → (s.sw.port o).q.stalled = [] →
      ((s.sw.port o).q.txq.filter (fun i => (vcsOf c.tc).contains i.vc)).length < s.sw.fab.ceThresh →
      runsTo (.p2pCellReceive p c) s consumeParts fun t =>
        (t.port p).cnt.fwdIn = (s.sw.port p).cnt.fwdIn + 1 ∧ (t.port o).q.txq = (s.sw.port o).q.txq ++
          [{ cell := c, vc := firstVc c.tc, cls := .best, unitLen := 1, src := p, moved := false, mark := .none, ep := c.ep }]) ∧
    (∀ l o w r, s.sw.find c.ep c.job c.dst = .cands l → s.sw.qualify p (s.sw.rxVc p c) l = (o, w) :: r → o ≠ p →
      s.sw.portActive o = true → s.sw.isMember o = false → s.sw.fab.adaptive.getLsbD (c.job % 256) = false →
      (((s.sw.port o).q.txq ++ (s.sw.port o).q.spill).filter (fun i => (vcsOf c.tc).contains i.vc)).length < s.sw.fab.ceThresh →
      runsTo (.p2pCellReceive p c) s consumeParts fun t => (t.port o).q.txq = (s.sw.port o).q.txq ++
          [{ cell := c, vc := w, cls := .best, unitLen := 1, src := p, moved := false, mark := .none, ep := c.ep }]) ∧
    (∀ l, s.sw.find c.ep c.job c.dst = .cands l → s.sw.qualify p (s.sw.rxVc p c) l = [] → (s.sw.ver c.ep).st ≠ .draining →
      runsTo (.p2pCellReceive p c) s consumeParts fun t =>
        (t.port p).cnt.dropRank = (s.sw.port p).cnt.dropRank + 1 ∧ othersSame (fun s k => (s.port k).q) p s.sw t) ∧
    (s.sw.find c.ep c.job c.dst = .nowhere → runsTo (.p2pCellReceive p c) s consumeParts fun t =>
        (t.port p).cnt.dropRoute = (s.sw.port p).cnt.dropRoute + 1 ∧ othersSame (fun s k => (s.port k).q) p s.sw t)) ∧
  (∀ (s : State) (p : Nat) (c : Cell), s.sw.portActive p = true → s.sw.up p = true → s.sw.isMember p = false → c.badHeader = false →
    c.tc = 2 → s.sw.pers p ≠ 1 → (s.sw.ver c.ep).st ≠ .standby → c.mc = true → s.sw.fanFull p c = false →
    (∀ e, SMap.find? c.dst (s.sw.ver c.ep).mcast = some e → e.job ≠ c.job) →
    runsTo (.p2pCellReceive p c) s consumeParts fun t => (t.port p).cnt.dropRoute = (s.sw.port p).cnt.dropRoute + 1) ∧
  (∀ (s : State) (p : Nat) (c : Cell), s.sw.up p = true → s.sw.fanFull p c = true → stays (.p2pCellReceive p c) s) ∧
  (∀ (s : State) (p : Nat) (c : Cell), s.sw.up p = true → s.sw.isMember p = true →
    becomes (.congEchoReceive p c) s (idDiscard p (consume p c s.sw))) ∧
  (∀ (s : State) (p o : Nat) (c : Cell), s.sw.up p = true → s.sw.isMember p = false → c.badHeader = false →
    c.tc = 5 → c.ctype = ctEcho → (s.sw.ver c.ep).st ≠ .standby → s.sw.find c.ep (c.arg % 256) c.member = .member o → o ≠ p →
    s.sw.portActive o = true → s.sw.pers o = 1 →
    ((s.sw.port o).q.limiters.find? (fun l => l.cdst == c.f 0 2) = none → (s.sw.port o).q.limiters.length < 16 →
      runsTo (.congEchoReceive p c) s consumeParts fun t => (t.port o).q.limiters =
        (s.sw.port o).q.limiters ++ [{ cdst := c.f 0 2, rate := 32, last := s.sw.gtc }]) ∧
    (∀ l, (s.sw.port o).q.limiters.find? (fun l => l.cdst == c.f 0 2) = some l → s.sw.fab.echoGap ≤ (s.sw.gtc - l.last).toNat →
      runsTo (.congEchoReceive p c) s consumeParts fun t => (t.port o).q.limiters =
        (s.sw.port o).q.limiters.map fun e =>
          if e.cdst = c.f 0 2 then { e with rate := max 1 (e.rate / 2), last := s.sw.gtc } else e))

/-- For each of the eighteen commands that bring a context's cell in on a port. On a port not UP the cell only leaves the receive
buffer. On an active switch port a cell with a reserved header adds one to PORT_HDR_ERR. On an active FL3 member port with a
good header an unbound member's cell, and a collective or CTRL cell whose MEMBER is not the bound rank, adds one to
PORT_ID_DISCARD; one of the bound rank goes on with EP of the ACTIVE version and, outside CTRL, CE clear. A good cell from a
switch under a version that routes, whose context is FREE here and has no TRANSIT entry, adds one to PORT_DROP_ROUTE; one with a
TRANSIT entry to another UP switch port that R333 permits joins that port's queue unchanged, on the channel permitted. (R97, R108, R109, R111, R159, R338, R340) -/
def Obligations.CellIntakeRule : Prop :=
  (∀ row ∈ contextRows, ∀ (s : State) (p : Nat) (c : Cell), s.sw.up p = false → becomes (row p c) s (consume p c s.sw)) ∧
  (∀ row ∈ contextRows, ∀ (s : State) (p : Nat) (c : Cell), s.sw.portActive p = true → s.sw.up p = true →
    s.sw.isMember p = false → c.badHeader = true →
    runsTo (row p c) s consumeParts fun t => (t.port p).cnt.hdrErr = (s.sw.port p).cnt.hdrErr + 1) ∧
  (∀ row ∈ contextRows, ∀ (s : State) (p : Nat) (c : Cell), s.sw.portActive p = true → s.sw.up p = true →
    s.sw.isMember p = true → s.sw.pers p = 3 → c.badHeader = false →
    (s.sw.binding p = none → runsTo (row p c) s consumeParts fun t =>
      (t.port p).cnt.idDiscard = (s.sw.port p).cnt.idDiscard + 1) ∧
    (∀ b, s.sw.binding p = some b → 2 < c.tc → c.tc ≠ 6 → (if c.tc = 5 then c.member else c.cmember) ≠ b.rank →
      runsTo (row p c) s consumeParts fun t => (t.port p).cnt.idDiscard = (s.sw.port p).cnt.idDiscard + 1)) ∧
  (∀ (s : Sw) (p : Nat) (c : Cell) (b : Binding), s.up p = true → s.isMember p = true → s.pers p = 3 → c.badHeader = false →
    s.binding p = some b → c.tc = 3 ∨ c.tc = 4 → c.cmember = b.rank →
    (ingress p c s).1 = some ((c.setEp s.fab.epoch).setCe false)) ∧
  (∀ (s : Sw) (p : Nat) (c : Cell) (b : Binding), s.up p = true → s.isMember p = true → s.pers p = 3 → c.badHeader = false →
    s.binding p = some b → c.tc = 5 → c.member = b.rank → (ingress p c s).1 = some (c.setEp s.fab.epoch)) ∧
  (∀ row ∈ contextRows, ∀ (s : State) (p : Nat) (c : Cell), s.sw.portActive p = true → s.sw.up p = true →
    s.sw.isMember p = false → c.badHeader = false → (s.sw.ver c.ep).st ≠ .standby → s.sw.ctx? c.anyCtx = none →
    (s.sw.transitOf c.ep c.anyCtx p = none → runsTo (row p c) s consumeParts fun t =>
      (t.port p).cnt.dropRoute = (s.sw.port p).cnt.dropRoute + 1) ∧
    (∀ o v, s.sw.transitOf c.ep c.anyCtx p = some o → s.sw.isSwitch p = true → o ≠ p → s.sw.portActive o = true → s.sw.up o = true →
      s.sw.isMember o = false → s.sw.permitted p (s.sw.rxVc p c) o = some v →
      runsTo (row p c) s consumeParts fun t => (t.port o).q.txq = (s.sw.port o).q.txq ++
        [{ cell := c, vc := v, cls := if c.tc = 5 then .ctrl else .best, unitLen := 1, src := p, moved := false, mark := .none, ep := c.ep }]))

/-- A cell that has reached its context on canopy port q: MEMBER_CELL_RECEIVE does nothing more with it where q serves no member
child or the cell is not COLL-UP, or where an operation of its layout epoch has ended; it is counted as discarded at the port,
with its event, where no operation has its OPSEQ, or its index is at or above the grant; a cell of another layout epoch is
discarded with event 0x0408. Within the grant, of an operation without PRUNE, a member cell already staged counts as a
duplicate, and one that is new is staged; where that makes no grid cell whole the context only goes on. PRUNE_CELL_RECEIVE does
the same for an operation with PRUNE, and nothing more for one without; a prune cell that breaks the window rules fails the
operation with BAD_DESCRIPTOR and raises 0x0500. STAGED_CONTRIBUTION_CONVERT converts a grid cell that waits and need wait no
longer, takes up the cells of a switch child that wait for that slot, and changes nothing otherwise. A contribution from child
port q to a grid cell that no shadow check samples enters its slot once: the slot's BITMAP gains bit q and the slot is complete
when every expected child is in it; a second one only counts as a duplicate. (R41, R51, R53, R73, R140, R216, R257, R260, R282) -/
def Obligations.MemberCellRule : Prop :=
  (∀ (s : State) (p x q : Nat) (c c' : Cell) (w : Sw) (k : Ctx), s.sw.arrival p c = some (x, q, c', w, k) →
    (k.memberOf q = none ∨ c'.tc ≠ 3 → becomes (.memberCellReceive p c) s w) ∧
    (∀ h, k.memberOf q = some h → c'.tc = 3 →
      (k.opOfSeq c'.copseq = none → becomes (.memberCellReceive p c) s (grantViolation x q (k.opnumOf c'.copseq) c'.idx 0 w)) ∧
      (∀ o r, k.opOfSeq c'.copseq = some (o, r) →
        (r.isOpen = false → c'.le = k.leOf o → becomes (.memberCellReceive p c) s w) ∧
        (c'.le ≠ k.leOf o → becomes (.memberCellReceive p c) s (layoutDiscard x q true c' w)) ∧
        (r.isOpen = true → c'.le = k.leOf o → r.grants.getD q 0 ≤ c'.idx →
          becomes (.memberCellReceive p c) s (grantViolation x q o c'.idx (r.grants.getD q 0) w))) ∧
      (∀ o r, k.names c' o r → r.isOpen = true → c'.idx < r.grants.getD q 0 → r.quiet → blkPrune r.blk = false →
        k.gridsOf w r h q c'.idx ≠ [] →
        (r.staging.mem (cellKey q c'.idx) = true → becomes (.memberCellReceive p c) s (settle x (countDup x w))) ∧
        (∀ u, r.staging.mem (cellKey q c'.idx) = false → (∃ g ∈ k.gridsOf w r h q c'.idx, taken k o r h.port g = false) →
          u = w.modOp x o (fun e => { e with staging := e.staging.set (cellKey q c'.idx) c'.pay }) →
          (∀ k₁ r₁ g, u.ctx? x = some k₁ → u.op? x o = some r₁ → wholeCell u k₁ r₁ q h.rankFirst g = false) →
          becomes (.memberCellReceive p c) s (settle x u))) ∧
      (∀ o r t, k.names c' o r → r.isOpen = true → c'.idx < r.grants.getD q 0 → r.quiet → blkPrune r.blk = true →
        pruneTest (elemBits (r.format q) / 8) (payBytes (w.pers q)) (pruneSW (r.format q) (w.pers q))
          (contribPart k r.blk h.rankFirst).2 c'.idx (r.cursors.getD q Cursor.fresh) (bytes64 c'.pay) = some t →
        becomes (.pruneCellReceive p c) s (settle x
          (failHere x o stBad (raiseCtx x 0x0500 (le 4 o ++ le 2 q ++ le 4 c'.idx ++ le 1 t) w))))) ∧
    (pruneOf x c' w = true → exec (.pruneCellReceive p c) s = exec (.memberCellReceive p c) s) ∧
    (pruneOf x c' w = false → becomes (.pruneCellReceive p c) s w)) ∧
  (∀ (w : Sw) (x q n i g : Nat), w.portActive (w.physPort x q) = true →
    ((grantViolation x q n i g w).port (w.physPort x q)).cnt.idDiscard = (w.port (w.physPort x q)).cnt.idDiscard + 1) ∧
  (∀ (s : State) (x o q g : Nat) (k : Ctx) (r : Op), s.sw.ctx? x = some k → s.sw.op? x o = some r →
    (r.waiting.contains (q, g) = true → mustWait s.sw k r o g = false →
      becomes (.stagedContributionConvert x o q g) s (settle x (gridCellWhole x o q g s.sw))) ∧
    (r.waiting.contains (q, g) = true → mustWait s.sw k r o g = true → stays (.stagedContributionConvert x o q g) s) ∧
    (∀ b, b = k.heldCells.any (fun e => e.1 == q && e.2.tc == 3 && e.2.copseq == o % 64 && e.2.idx == g) →
      r.waiting.contains (q, g) = false →
      (b = true → becomes (.stagedContributionConvert x o q g) s
        (settle x (recordResume x o (fun n e => n == q && e.idx == g) s.sw))) ∧
      (b = false → stays (.stagedContributionConvert x o q g) s))) ∧
  (∀ (s : State) (x o q g : Nat), s.sw.op? x o = none → stays (.stagedContributionConvert x o q g) s) ∧
  (∀ (s : Sw) (x o q g : Nat) (part : Part) (k : Ctx) (r : Op), s.ctx? x = some k → s.op? x o = some r → r.isOpen = true → q < 512 →
    (taken k o r q g = false → sampled s x o g = false → ∃ k' t, (contribute x o q g part s).ctx? x = some k' ∧ k'.slot? o g = some t ∧
      t.bitmap = setBit ((k.slot? o g).elim 0 Slot.bitmap) q ∧
      ((expected k r.blk g).all (fun q => t.bitmap.getLsbD q) = true → t.sst = 2)) ∧
    (taken k o r q g = true → contribute x o q g part s = countDup x s))

/-- A cell that has reached its context on canopy port q. RECORD_RECEIVE does nothing more where q serves a member, the cell is
neither COLL-UP nor COLL-DN, its operation has ended, or, coming up, q is not expected; a COLL-UP cell of no operation or at or
above the grant is counted as discarded, one of another layout epoch is discarded with event 0x0408. Where it need not wait, the
first of several parts begins the record on its port; a record in one part whose ATTEMPT is the segment's goes on as a
contribution of q, and one that breaks a test of R65 is discarded with event 0x0683 and asked for again. MIRROR_RECORD_RECEIVE
acts as RECORD_RECEIVE; ZERO_RUN_RECEIVE does so for a zero run of a PRUNE operation and does nothing more otherwise. A notice
of the right type from the port toward the root of a segment its operation covers is carried out: ANCHOR_NOTICE goes to the
switch children not told yet and writes the anchor, REPLAY_NOTICE takes the segment back; any other notice does nothing more.
Writing an anchor moves CUR to PREV, unless the same operation wrote CUR, and records value, attempt and operation. (R58, R61, R64, R65, R144, R195, R197, R205, R216, R263, R264, R308) -/
def Obligations.RecordRule : Prop :=
  (∀ (s : State) (p x q : Nat) (c c' : Cell) (w : Sw) (k : Ctx), s.sw.arrival p c = some (x, q, c', w, k) →
    (k.memberOf q ≠ none ∨ (c'.tc ≠ 3 ∧ c'.tc ≠ 4) → becomes (.recordReceive p c) s w) ∧
    (k.memberOf q = none → c'.tc = 3 →
      (k.opOfSeq c'.copseq = none → becomes (.recordReceive p c) s (grantViolation x q (k.opnumOf c'.copseq) c'.idx 0 w)) ∧
      (∀ o r, k.opOfSeq c'.copseq = some (o, r) → c'.le ≠ k.leOf o → becomes (.recordReceive p c) s (layoutDiscard x q false c' w)) ∧
      (∀ o r, k.names c' o r →
        (r.isOpen = false ∨ cellsOf r.blk ≤ c'.idx → becomes (.recordReceive p c) s w) ∧
        (r.isOpen = true → c'.idx < cellsOf r.blk → k.storeReduction r.blk = false →
          (r.grants.getD q 0 ≤ c'.idx → becomes (.recordReceive p c) s (grantViolation x q o c'.idx (r.grants.getD q 0) w)) ∧
          (c'.idx < r.grants.getD q 0 → (expected k r.blk c'.idx).contains q = false → becomes (.recordReceive p c) s w) ∧
          (c'.idx < r.grants.getD q 0 → (expected k r.blk c'.idx).contains q = true → r.quiet → blkPrune r.blk = false →
            recordWaits w k o r q c' = false → (w.port (w.physPort x q)).q.asm = [] → byteAt (bytes64 c'.pay) 0 % 16 = 0 →
            (∀ n, byteAt (bytes64 c'.pay) 0 / 16 = n + 1 → becomes (.recordReceive p c) s (settle x
              (w.modQ (w.physPort x q) (fun b =>
                { b with asm := [⟨x, c'.copseq, c'.idx, n + 2, 1, (bytes64 c'.pay).drop 1, true⟩] })))) ∧
            (byteAt (bytes64 c'.pay) 0 / 16 = 0 → w.portActive (w.physPort x q) = true → ∃ u, Sw.keeps [.portQ] w u ∧
              (u.port (w.physPort x q)).q.asm = [] ∧
              (∀ t, decodeRecord k r true ((bytes64 c'.pay).drop 1) = .error t →
                becomes (.recordReceive p c) s (settle x (malformed x q o c'.idx 1 t true u))) ∧
              (∀ part, decodeRecord k r true ((bytes64 c'.pay).drop 1) = .ok part →
                attemptStands k o (segOf k r.blk c'.idx) part.attempt true = true →
                becomes (.recordReceive p c) s (settle x
                  (takeContribution x o q c'.idx [c'.idx] part (recordParts ((bytes64 c'.pay).drop 1)) u)))))))) ∧
    exec (.mirrorRecordReceive p c) s = exec (.recordReceive p c) s ∧
    (pruneOf x c' w = true → byteAt (bytes64 c'.pay) 0 = 0xF0 → exec (.zeroRunReceive p c) s = exec (.recordReceive p c) s) ∧
    (pruneOf x c' w = false ∨ byteAt (bytes64 c'.pay) 0 ≠ 0xF0 → becomes (.zeroRunReceive p c) s w) ∧
    (∀ o r, k.opOfSeq c'.opseq = some (o, r) → coversSeg k r.blk (c'.f 0 4) = true →
      upPort k r.blk (segCells k r.blk (c'.f 0 4)).1 = some q →
      (isCtrl c' ctReplay → r.isOpen = true → becomes (.replayNoticeReceive p c) s
        (settle x (takeReplay x o (c'.f 0 4) (c'.f 4 1) (toS16 (c'.f 6 2)) w))) ∧
      (isCtrl c' ctReplay → r.isOpen = false → becomes (.replayNoticeReceive p c) s w) ∧
      (∀ last told, isCtrl c' ctAnchor → last = (segCells k r.blk (c'.f 0 4)).2 - 1 →
        told = (if k.storeReduction r.blk then [] else targets k r.blk last) → becomes (.anchorNoticeReceive p c) s
        (settle x (takeAnchor x o (c'.f 0 4) (c'.f 4 1) (toS16 (c'.f 6 2))
          (sendNotice ctAnchor x o ((downSwitches k r.blk last).filter fun n => !told.contains n)
            (noticeBody (c'.f 0 4) (c'.f 4 1) (toS16 (c'.f 6 2))) w)))) ∧
      (¬ isCtrl c' ctReplay → becomes (.replayNoticeReceive p c) s w) ∧
      (¬ isCtrl c' ctAnchor → becomes (.anchorNoticeReceive p c) s w)) ∧
    (k.opOfSeq c'.opseq = none → becomes (.replayNoticeReceive p c) s w ∧ becomes (.anchorNoticeReceive p c) s w)) ∧
  (∀ (k : Ctx) (g o attempt : Nat) (a : Int),
    ((k.writeAnchor g o a attempt).anchor g).cur = a ∧ ((k.writeAnchor g o a attempt).anchor g).attempt = attempt ∧
    ((k.writeAnchor g o a attempt).anchor g).setOp = o ∧ ((k.writeAnchor g o a attempt).anchor g).isSet = true ∧
    ((k.anchor g).setBy o = false → ((k.writeAnchor g o a attempt).anchor g).prev = (k.anchor g).cur) ∧
    ((k.anchor g).setBy o = true → ((k.writeAnchor g o a attempt).anchor g).prev = (k.anchor g).prev) ∧
    (∀ j, j ≠ g → (k.writeAnchor g o a attempt).anchor j = k.anchor j))

/-- For JOIN_RECEIVE with JOIN and BARRIER_ARRIVE_RECEIVE with BARRIER_ARRIVE, once the cell has reached its context on canopy port
q: a cell of another type does nothing more, and each of the following is followed by the context's going on. From a port that
is no child's and no backup's the join is rejected with cause 4, or held where a canopy to come makes it one. In a CLOSING
context ABORTED is told to the child. While a graft copies, from the EFFECTIVE_OPNUM of a pending canopy on, or with an MEPOCH
above the canopy's, the cell is held. 32 or more above the window base it is rejected with cause 1 and NO_RESOURCE is told;
below the base without a record it is rejected with cause 1. Against a record that has ended, or has committed with this port's
join, it does nothing. Against another, an MEPOCH below the canopy's fails the operation with EPOCH_STALE, another signature
with MISMATCH and event 0x0201; a join that stands is accepted. The first join of an operation number in the window with no
gather named opens the operation with its block: its record is OPENING and opened by a join. (R122, R130, R131, R133, R137, R148, R157, R158, R159, R185) -/
def Obligations.JoinRule : Prop :=
  (∀ e ∈ ([(.joinReceive, ctJoin), (.barrierArriveReceive, ctArrive)] : List ((Nat → Cell → Instr) × Nat)),
    ∀ (s : State) (p x q o : Nat) (c c' : Cell) (w : Sw) (k : Ctx), s.sw.arrival p c = some (x, q, c', w, k) →
    o = blkOpnum (joinOf c').blk →
    (¬ isCtrl c' e.2 → becomes (e.1 p c) s w) ∧
    (isCtrl c' e.2 → k.canopy.child q = none → k.canopy.primaryOf q = none →
      (k.awaitsCanopy q o (joinOf c').mepoch = false → becomes (e.1 p c) s (settle x (joinReject x q o 4 w))) ∧
      (k.awaitsCanopy q o (joinOf c').mepoch = true →
        becomes (e.1 p c) s (settle x (w.modCtx x fun k => { k with heldJoins := k.heldJoins ++ [(q, c')] })))) ∧
    (∀ h, isCtrl c' e.2 → k.canopy.child q = some h →
      (x = 0 → k.changePending = true → becomes (e.1 p c) s (settle x w)) ∧
      (x ≠ 0 ∨ k.changePending = false →
        (k.closing = true → becomes (e.1 p c) s (settle x (tellEnd x o q h.member stAborted (e.2 == ctArrive) w))) ∧
        (k.closing = false →
          (k.graftHolds = true ∨ (∃ r, k.recanopy = some r ∧ r.eff ≤ o) ∨ k.canopy.mepoch < (joinOf c').mepoch →
            becomes (e.1 p c) s (settle x (w.modCtx x fun k => { k with heldJoins := k.heldJoins ++ [(q, c')] }))) ∧
          (k.graftHolds = false → (∀ r, k.recanopy = some r → o < r.eff) → (joinOf c').mepoch ≤ k.canopy.mepoch →
            (∀ r, k.reshard = some r → o < r.eff) →
            (k.windowBase + 32 ≤ o → becomes (e.1 p c) s
              (settle x (joinReject x q o 1 (tellEnd x o q h.member stNoRes (e.2 == ctArrive) w)))) ∧
            (o < k.windowBase → SMap.find? o k.ops = none → becomes (e.1 p c) s (settle x (joinReject x q o 1 w))) ∧
            (∀ r, o < k.windowBase + 32 → SMap.find? o k.ops = some r →
              (r.isOpen = false ∨ (r.st = .committed ∧ r.valid.getLsbD q = true) → becomes (e.1 p c) s (settle x w)) ∧
              (r.st = .opening ∨ r.st = .joined ∨ (r.isOpen = true ∧ r.valid.getLsbD q = false) →
                ((joinOf c').mepoch < k.canopy.mepoch → becomes (e.1 p c) s (settle x (failHere x o stStale w))) ∧
                ((joinOf c').mepoch = k.canopy.mepoch → joinVerdict w x k r.blk q h (joinOf c') c'.arg (e.2 == ctArrive) = stMismatch →
                  (joinOf c').sig ≠ blkSignature r.blk → becomes (e.1 p c) s (settle x (failHere x o stMismatch
                    (raiseCtx x 0x0201 (le 4 o ++ le 8 (joinOf c').sig.toNat ++ cList [le 2 q]) w)))) ∧
                ((joinOf c').mepoch = k.canopy.mepoch → joinVerdict w x k r.blk q h (joinOf c') c'.arg (e.2 == ctArrive) = 0 →
                  becomes (e.1 p c) s (settle x (acceptJoin x o q h (joinOf c') w))))) ∧
            (k.windowBase ≤ o → o < k.windowBase + 32 → SMap.find? o k.ops = none → (joinOf c').mepoch = k.canopy.mepoch →
              joinVerdict w x k (joinOf c').blk q h (joinOf c') c'.arg (e.2 == ctArrive) = 0 → SMap.find? o k.gathers = none →
              becomes (e.1 p c) s
                (settle x (replayCounts x o (acceptJoin x o q h (joinOf c') (openOp x o (joinOf c').blk true w)))))))))) ∧
  (∀ (s : Sw) (x o : Nat) (b : BitVec 256) (k : Ctx), s.ctx? x = some k → ∃ r, (openOp x o b true s).op? x o = some r ∧
    r.blk = b ∧ r.st = .opening ∧ r.opened = true ∧ r.firstJoin = s.now ∧ r.joined = 0 ∧ r.gather = SMap.find? o k.gathers)

/-- Once the cell has reached its context on canopy port q, and each followed by the context's going on. JOIN_STATUS_RECEIVE: a cell
of another type, or on a port that leads to no switch, does nothing more. GRANT raises the grant held for q to the one received.
JOINED from the parent, for an OPENING operation that has sent its JOIN upward, makes it JOINED, with the launch instant
received for LAUNCH 2 and 3; any other JOINED does nothing. COMPLETE from a child notes that child and an OVERFLOW it tells.
COMPLETE from the parent with another status than OK and OVERFLOW ends an operation unknown here as failed, ends a committed
one, and fails an open uncommitted one; with OK it ends an open operation that carries no results down; with OK or OVERFLOW it
is kept for one that does. BARRIER_RELEASE_RECEIVE from the parent notes the release instant and ends an open barrier, with OK
finished; on another port nothing. COUNTS_RECEIVE under DIR 0 of an open operation that is no PERMUTE is routed and judged
again; of one not open here it goes on, and is held where it turns down; under DIR 1, or in a CLOSING context, nothing.
EXCHANGE_CELL_RECEIVE takes a cell exactly as P2P_CELL_RECEIVE; at its destination leaf a cell beyond the count, or before the
operation is joined, raises event 0x020A and goes no further, and one within it is counted. (R138, R140, R145, R146, R147, R148, R154, R156, R185, R206, R213) -/
def Obligations.StatusRule : Prop :=
  (∀ (s : State) (p x q o : Nat) (c c' : Cell) (w : Sw) (k : Ctx), s.sw.arrival p c = some (x, q, c', w, k) → o = c'.f 0 4 →
    (¬ isCtrl c' ctStatus ∨ k.leadsToSwitch q = false → becomes (.joinStatusReceive p c) s w) ∧
    (isCtrl c' ctStatus → k.leadsToSwitch q = true →
      (c'.f 4 1 = phGrant → becomes (.joinStatusReceive p c) s (settle x (w.modOp x o fun r =>
        { r with upGrants := r.upGrants.set q (max (c'.f 8 4 % 2 ^ 25) (r.upGrants.getD q 0)) }))) ∧
      (∀ r, c'.f 4 1 = phJoined → SMap.find? o k.ops = some r → k.canopy.parent = some q → r.st = .opening → r.upJoin = true →
        becomes (.joinStatusReceive p c) s (settle x (enterJoined x o (w.modOp x o fun r' =>
          { r' with upGrants := r'.upGrants.set q (max (c'.f 8 4 % 2 ^ 25) (r'.upGrants.getD q 0)),
                    launchAt := if 2 ≤ blkLaunch r.blk then some (BitVec.ofNat 64 (c'.f 16 8)) else r.launchAt })))) ∧
      (∀ r, c'.f 4 1 = phJoined → SMap.find? o k.ops = some r → k.canopy.parent ≠ some q ∨ r.st ≠ .opening ∨ r.upJoin = false →
        becomes (.joinStatusReceive p c) s w) ∧
      (c'.f 4 1 = phComplete → k.canopy.parent ≠ some q → becomes (.joinStatusReceive p c) s (settle x (w.modOp x o fun r =>
        { r with completeFrom := setBit r.completeFrom q, overflow := r.overflow || c'.f 5 1 == stOverflow }))) ∧
      (∀ st, c'.f 4 1 = phComplete → k.canopy.parent = some q → c'.f 5 1 = st →
        (SMap.find? o k.ops = none → st ≠ stOk → st ≠ stOverflow →
          becomes (.joinStatusReceive p c) s (settle x (endUnopened x o st w))) ∧
        (∀ r, SMap.find? o k.ops = some r → r.isOpen = true → st ≠ stOk → st ≠ stOverflow →
          (r.st = .committed → becomes (.joinStatusReceive p c) s (settle x (finishOp x o st w))) ∧
          (r.st ≠ .committed → becomes (.joinStatusReceive p c) s (settle x (endFromRoot x o st (c'.f 12 4) w)))) ∧
        (∀ r, SMap.find? o k.ops = some r → r.isOpen = true → st = stOk → cellsOf r.blk = 0 →
          becomes (.joinStatusReceive p c) s (settle x (finishOp x o stOk w))) ∧
        (∀ r, SMap.find? o k.ops = some r → r.isOpen = true → st = stOk ∨ st = stOverflow → cellsOf r.blk ≠ 0 →
          k.storeReduction r.blk = false → k.storeGather r.blk = false → blkExchange r.blk = false → hasResults k r.blk = true →
          becomes (.joinStatusReceive p c) s (settle x (w.modOp x o fun r =>
            { r with overflow := r.overflow || st == stOverflow, rootEnd := true }))))) ∧
    (¬ isCtrl c' ctRelease ∨ k.canopy.parent ≠ some q → becomes (.barrierReleaseReceive p c) s w) ∧
    (∀ r st, isCtrl c' ctRelease → k.canopy.parent = some q → c'.f 4 1 = phComplete → SMap.find? o k.ops = some r →
      r.isOpen = true → c'.f 5 1 = st →
      ∀ u, u = w.modOp x o (fun r => { r with launchAt := some (BitVec.ofNat 64 (c'.f 16 8)) }) →
      (st = stOk → becomes (.barrierReleaseReceive p c) s (settle x (finishOp x o stOk u))) ∧
      (st ≠ stOk → becomes (.barrierReleaseReceive p c) s (settle x (endFromRoot x o st 0 u)))) ∧
    (¬ isCtrl c' ctCounts ∨ c'.arg / 4096 % 2 ≠ 0 ∨ k.closing = true → becomes (.countsReceive p c) s w) ∧
    (isCtrl c' ctCounts → c'.arg / 4096 % 2 = 0 → k.closing = false →
      (k.opOfSeq c'.opseq = none → becomes (.countsReceive p c) s
        (settle x (forwardCounts x (k.opnumOf c'.opseq) c'.member (c'.arg % 4096) (countsOf c') (k.canopy.parent == some q)
          (if countsTurn k (c'.arg % 4096) (k.canopy.parent == some q) = true then w.setCtx x { k with heldCells := k.heldCells ++ [(q, c')] } else w)))) ∧
      (∀ n r, k.opOfSeq c'.opseq = some (n, r) → r.isOpen = true → blkKind r.blk ≠ kPermute → becomes (.countsReceive p c) s
        (settle x (joinGo x n (routeCounts x n c'.member (c'.arg % 4096) ((List.range 16).map fun i => c'.f (4 * i) 4)
          (k.canopy.parent == some q) w)))))) ∧
  (∀ (s : State) (p : Nat) (c : Cell), exec (.exchangeCellReceive p c) s = exec (.p2pCellReceive p c) s) ∧
  (∀ (s : Sw) (i p o x op : Nat) (c : Cell) (r : Op), s.op? x op = some r →
    (r.st = .opening ∨ memberCells (r.exch.counts.getD (c.src * 65536 + c.dst) 0) (s.ecOf r o) ≤
        r.exch.cells.getD (c.src * 65536 + c.dst) 0 → exchangeHere i p o x op c s = unexpected x op p c s) ∧
    (r.st ≠ .opening → r.exch.cells.getD (c.src * 65536 + c.dst) 0 <
        memberCells (r.exch.counts.getD (c.src * 65536 + c.dst) 0) (s.ecOf r o) →
      exchangeHere i p o x op c s = placeExchange i o (firstVc 2) x op c (s.modOp x op fun r =>
        { r with exch := { r.exch with
            cells := r.exch.cells.set (c.src * 65536 + c.dst) (r.exch.cells.getD (c.src * 65536 + c.dst) 0 + 1) } })))

/-- An ABORT_NOTICE that reaches its context on canopy port q: a cell of another type does nothing more. A request from a child is
noted and, for an open operation, goes up to the parent; for an ended one it is answered with how it ended. At the root, where
the operation's commit tile is, an uncommitted operation is aborted: the decision goes to every switch child and the operation
is aborted here; a committed one is answered DONE. A decision from the parent goes on to the switch children and is carried out.
An aborted open operation is FAILED with status ABORTED. LATENESS_EXPIRY, time standing at the tick of LATE_FRAMES or brought
there, takes the backup's copy in: not without a backup, or for a contribution taken; a slot without a lateness start stands.
STALL_TIMEOUT raises event 0x0205 once per operation and port, of kind 1 for a JOIN and 2 for a contribution with the first grid
cell that waits, and does nothing for a child that has joined or an ended operation. MEMBER_LOSS_TIMEOUT of a port not UP notes
its member children as gone; without a context it changes nothing. SEEDLING_REBOUND, with a change pending in an idle context 0
once rebound before, and SEEDLING_REBIND_TIMEOUT, for the first one, renumber: ranks follow the member ports that are UP in job
0's map, each is bound to its rank, MEPOCH grows by 1 and event 0x020B is raised. (R150, R151, R152, R153, R154, R155, R158, R206; 14 R481) -/
def Obligations.AbortRule : Prop :=
  (∀ (s : State) (p x q o : Nat) (c c' : Cell) (w : Sw) (k : Ctx) (h : Child), s.sw.arrival p c = some (x, q, c', w, k) → o = c'.f 0 4 →
    (¬ isCtrl c' ctAbort → becomes (.abortNoticeReceive p c) s w) ∧
    (isCtrl c' ctAbort → c'.f 4 1 = 0 → k.canopy.parent ≠ some q → k.canopy.child q = some h →
      (∀ up r, k.canopy.parent = some up → SMap.find? o k.ops = some r →
        (r.isOpen = true → becomes (.abortNoticeReceive p c) s (settle x (ctxCtrl x up .none (abortCell x o 0 0 0)
          (w.modOp x o fun e => { e with askedBy := e.askedBy.or (some q) })))) ∧
        (r.isOpen = false → k.isRoot = false → becomes (.abortNoticeReceive p c) s
          (answerAbort x o q (if r.status = stAborted then stAborted else stDone) w))) ∧
      (∀ r u, k.canopy.parent = none → SMap.find? o k.ops = some r → r.isOpen = true → k.storeReduction r.blk = false →
        u = w.modOp x o (fun e => { e with askedBy := e.askedBy.or (some q) }) →
        (r.st ≠ .committed → becomes (.abortNoticeReceive p c) s
          (settle x (abortedHere x o q r.chunks.1 (tellDecision x o stAborted r.chunks.1 u)))) ∧
        (r.st = .committed → becomes (.abortNoticeReceive p c) s (settle x (endAborts x o stDone (answerAbort x o q stDone u)))))) ∧
    (isCtrl c' ctAbort → c'.f 4 1 = 1 → k.canopy.parent = some q →
      (c'.f 5 1 = stAborted → becomes (.abortNoticeReceive p c) s
        (settle x (abortedHere x o q (c'.f 8 4) (tellDecision x o stAborted (c'.f 8 4) w)))) ∧
      (c'.f 5 1 = stDone → becomes (.abortNoticeReceive p c) s
        (settle x (endAborts x o stDone (tellDecision x o stDone (c'.f 8 4) w)))))) ∧
  (∀ (w : Sw) (x o rq n : Nat) (r : Op), w.op? x o = some r → r.isOpen = true →
    ∃ r', (abortedHere x o rq n w).op? x o = some r' ∧ r'.st = .failed ∧ r'.status = stAborted) ∧
  (∀ (s : State) (x o g q : Nat) (c : Ctx) (t : Slot) (h : Child), s.sw.ctx? x = some c → c.slot? o g = some t → c.memberAt q = some h →
    (t.lstart = BitVec.allOnes 32 → stays (.latenessExpiry x o g q) s) ∧
    (t.lstart ≠ BitVec.allOnes 32 → becomes (.latenessExpiry x o g q) s
      (settle x (takeBackup x o g h (passTicks (c.cfg.lateFrames - t.late) s.sw))))) ∧
  (∀ w : Sw, passTicks 0 w = w) ∧
  (∀ (w : Sw) (x o g : Nat) (h : Child) (c : Ctx) (r : Op), w.ctx? x = some c → w.op? x o = some r →
    (h.backup = none ∨ taken c o r h.port g = true → takeBackup x o g h w = w) ∧
    (∀ b, h.backup = some b → taken c o r h.port g = false → blkPrune r.blk = false → wholeCell w c r b h.rankFirst g = true →
      mustWait w c r o g = false → takeBackup x o g h w = markBackup x o g h b (convertStaged x o b h.port h.rankFirst g w))) ∧
  (∀ (s : State) (x o q g : Nat) (c : Ctx) (r : Op) (h : Child), s.sw.ctx? x = some c → s.sw.op? x o = some r → c.memberAt q = some h →
    (r.isOpen = false ∨ (∃ e ∈ r.once, (e.1 / 2 ^ 64 = 0x0205 ∨ e.1 = 0x0206) ∧ e.2 = q) → ∀ b, stays (.stallTimeout x o q g b) s) ∧
    (r.joined.getLsbD q = true → stays (.stallTimeout x o q g false) s) ∧
    (r.isOpen = true → (∀ e ∈ r.once, (e.1 / 2 ^ 64 ≠ 0x0205 ∧ e.1 ≠ 0x0206) ∨ e.2 ≠ q) →
      ∀ u, u = (s.sw.modOp x o fun e => { e with once := e.once ++ [(0x0205 * 2 ^ 64 + s.sw.now, q)] }) →
      (r.opened = true → r.joined.getLsbD q = false → becomes (.stallTimeout x o q g false) s
        (raiseCtx x 0x0205 (le 4 o ++ le 2 q ++ le 1 1 ++ le 4 0) u)) ∧
      (∀ t n, c.slot? o g = some t → t.lstart ≠ BitVec.allOnes 32 → (expected c r.blk g).contains q = true → taken c o r q g = false →
        h.backup = none → firstWaiting c o r q = some n → becomes (.stallTimeout x o q g true) s
          (raiseCtx x 0x0205 (le 4 o ++ le 2 q ++ le 1 2 ++ le 4 n) u)))) ∧
  (∀ (s : State) (n x : Nat) (c : Ctx), s.sw.ctxs.keys = [x] → s.sw.ctx? x = some c → s.sw.up n = false → c.disturbed = [] →
    becomes (.memberLossTimeout n) s (settle x (s.sw.modCtx x fun e =>
      { e with gone := dedup (e.gone ++ ((c.canopy.children.filter fun h => !h.isSwitch && h.port == n).map fun h => h.port)) }))) ∧
  (∀ (s : State) (n : Nat), s.sw.ctxs = [] → stays (.memberLossTimeout n) s) ∧
  (∀ s : State, (s.sw.seedIdle = false → stays .seedlingRebound s ∧ stays .seedlingRebindTimeout s) ∧
    (∀ c, s.sw.ctx? 0 = some c → c.changePending = false → stays .seedlingRebound s) ∧
    (∀ c, s.sw.seedIdle = true → s.sw.ctx? 0 = some c → c.changePending = true → s.sw.glb.rebound = true →
      becomes .seedlingRebound s (rebind s.sw)) ∧
    (s.sw.seedIdle = true → s.sw.glb.rebound = false → s.sw.glb.firstMemberUp.isSome = true →
      becomes .seedlingRebindTimeout s (rebind s.sw))) ∧
  (∀ (w : Sw) (c : Ctx) (ps : List Nat), w.ctx? 0 = some c → w.seedPorts = ps → ∃ u k,
    rebind w = settle 0 (rejoin 0 (raiseCtx 0 0x020B (le 4 ps.length) u)) ∧ u.ctx? 0 = some k ∧ u.glb.rebound = true ∧
    k.changePending = false ∧ k.canopy.mepoch = c.canopy.mepoch + 1 ∧ k.canopy.members = ps.length ∧
    (k.canopy.children.map fun h => (h.port, h.rankFirst)) = ps.zip (List.range ps.length) ∧
    ∀ i (hi : i < ps.length), u.binding ps[i] = some { job := 0, rank := i, backup := false })

/-- For descriptors that pass the header checks. CTX_CREATE whose settings, canopy record, owner, queue and capacities stand
completes OK with the context as reserved, holding the settings and canopy asked for and no operation; over an existing context
it does not. CTX_DESTROY of a FREE context ends BAD_DESCRIPTOR, of another function's job DENIED, with operations open and no
FORCE or with a store DENIED, with none open OK and the context is FREE; with FORCE it is CLOSING and every open operation's
abort is requested; of a CLOSING one it waits with the first. CTX_RECANOPY with a good record, a higher MEPOCH and no operation
opened from EFFECTIVE_OPNUM on is pending and completes OK; with one opened, or a change pending, DENIED. PORT_BIND of an UP
member port in the job's map that no canopy names binds it, or unbinds it with bit 0 of byte 11, and completes OK; a port that
is not UP ends BAD_DESCRIPTOR. OP_POST below the window base or 32 or more above it ends NO_RESOURCE, in a CLOSING context
ABORTED; one that meets its open operation with the same block waits with it, with another block the operation fails with
MISMATCH and event 0x0201. A first good block opens the operation, not by a join. OP_ABORT of an operation long gone ends DONE,
of an ended one with how it ended, of one never opened BAD_DESCRIPTOR; of an open one the abort is requested. (R120, R121, R122, R123, R127, R130, R133, R134, R135, R155; 12 R405, R416) -/
def Obligations.ContextRule : Prop :=
  (∀ (s : State) (b : Sub) (w u : Sw) (r : Canopy), headerGood 0x20 b s → b.hostErr = none → w = descSw 0x20 b s.sw → r = parseCanopy (b.host.take (b.f 40 4)) →
    w.evqAssigned (createCfg b).evq b.func = true → (createCfg b).chunkFlag = none → (createCfg b).streaming = false → createBad b = false →
    canopyForm b.host (b.f 40 4) = true → canopyValid w b.ctx (createCfg b).job r = true → shardsValid w (2 ^ (createCfg b).seglenLog2) r = true →
    outsideMap w (createCfg b).job r = false → slotsBelow (createCfg b) r.children.length = false → w.owns b.func (createCfg b).job = true →
    r.children.length ≤ w.maxChildren → partnerBelow w r b.cminor = false →
    (∀ g < 4, limitRefuses w 6 (w.homeGrove g) (placeExtents (w.reservePlaces (createCfg b).slots w.activeTiles) g) (createCfg b).job = false) →
    (w.ctx? b.ctx = none → createCtx b.ctx (createCfg b) r w = some u → becomes (.ctxCreate b) s (complete (descTok 0x20 b s.sw) stOk u)) ∧
    (w.ctx? b.ctx ≠ none → becomes (.ctxCreate b) s (complete (descTok 0x20 b s.sw) stDenied w))) ∧
  (∀ (w u : Sw) (x : Nat) (k : CtxCfg) (r : Canopy), createCtx x k r w = some u →
    ∃ c, u.ctx? x = some c ∧ c.cfg = k ∧ c.canopy = r ∧ c.closing = false ∧ c.ops = [] ∧ c.nextOp = 0) ∧
  (∀ (s : State) (b : Sub) (x : Nat), headerGood 0x21 b s → x = b.ctx → b.only [lctx, bi_ 10 0 1] = true →
    (s.sw.ctx? x = none → endsWith (.ctxDestroy b) s 0x21 b stBad id) ∧
    (∀ c, s.sw.ctx? x = some c → s.sw.owns b.func c.cfg.job = false → endsWith (.ctxDestroy b) s 0x21 b stDenied id) ∧
    (∀ c, s.sw.ctx? x = some c → s.sw.owns b.func c.cfg.job = true →
      (c.closing = true → becomes (.ctxDestroy b) s
        ((descSw 0x21 b s.sw).setCtx x { c with destroys := c.destroys ++ [descTok 0x21 b s.sw] })) ∧
      (c.closing = false → c.store.isSome = true ∨ (c.anyOpen = true ∧ b.flag 10 0 = false) → endsWith (.ctxDestroy b) s 0x21 b stDenied id) ∧
      (c.closing = false → c.store = none → c.anyOpen = false → endsWith (.ctxDestroy b) s 0x21 b stOk (freeCtx x)) ∧
      (c.closing = false → c.store = none → c.anyOpen = true → b.flag 10 0 = true → becomes (.ctxDestroy b) s
        (settle x (abortAll x ((descSw 0x21 b s.sw).setCtx x { c with closing := true, destroys := [descTok 0x21 b s.sw] })))))) ∧
  (∀ (w : Sw) (x : Nat), (freeCtx x w).ctx? x = none) ∧
  (∀ (s : State) (b : Sub) (x : Nat) (c : Ctx) (r : Canopy) (w : Sw), headerGood 0x22 b s → x = b.ctx → s.sw.ctx? x = some c →
    w = descSw 0x22 b s.sw → r = parseCanopy (b.host.take (b.f 40 4)) → b.hostErr = none → c.closing = false → canopyForm b.host (b.f 40 4) = true →
    b.only [lctx, by_ 12 8, by_ 32 12] = true → outsideMap w c.cfg.job r = false → canopyValid w x c.cfg.job r = true →
    shardsValid w (2 ^ c.cfg.seglenLog2) r = true → c.canopy.mepoch < b.f 16 4 → r.mepoch = b.f 16 4 → s.sw.owns b.func c.cfg.job = true →
    (c.openedFrom (b.f 12 4) = false → c.recanopy = none → becomes (.ctxRecanopy b) s (settle x (complete (descTok 0x22 b s.sw) stOk
      (w.modCtx x fun c => { c with recanopy := some { eff := b.f 12 4, canopy := r } })))) ∧
    (c.openedFrom (b.f 12 4) = true ∨ c.recanopy ≠ none → endsWith (.ctxRecanopy b) s 0x22 b stDenied id)) ∧
  (∀ (s : State) (b : Sub) (n : Nat), headerGood 0x23 b s → n = b.f 8 2 → s.sw.inMap (b.f 10 1) n = true →
    (s.sw.up n = false → endsWith (.portBind b) s 0x23 b stBad id) ∧
    (b.only [by_ 8 3, bi_ 11 0 2, by_ 12 2] = true → s.sw.portActive n = true → s.sw.up n = true → s.sw.isMember n = true →
      (∀ e ∈ s.sw.ctxs, e.2.canopy.memberPorts.contains n = false) → s.sw.owns b.func (b.f 10 1) = true →
      runsTo (.portBind b) s (.portMap :: descParts) fun t => t.binding n =
        (if b.flag 11 0 = true then none else some { job := b.f 10 1, rank := b.f 12 2, backup := b.flag 11 1 }) ∧
        othersSame Sw.port n s.sw t)) ∧
  (∀ (s : State) (b : Sub) (x o : Nat) (c : Ctx) (blk : BitVec 256) (w : Sw) (t : Tok), headerGood 0x24 b s → x = b.ctx → s.sw.ctx? x = some c →
    w = descSw 0x24 b s.sw → t = descTok 0x24 b s.sw → s.sw.owns b.func c.cfg.job = true → blk = BitVec.ofNat 256 (b.f 16 32) → o = blkOpnum blk →
    b.only [lctx, by_ 16 32] = true → blkReserved blk = false → blkKind blk ≤ 7 → blkRedop blk ≤ 6 →
    (c.closing = true → endsWith (.opPost b) s 0x24 b stAborted id) ∧
    (c.closing = false → o < c.windowBase ∨ c.windowBase + 32 ≤ o → endsWith (.opPost b) s 0x24 b stNoRes id) ∧
    (∀ p, c.closing = false → c.windowBase ≤ o → o < c.windowBase + 32 → SMap.find? o c.ops = some p →
      ∀ u, u = w.modOp x o (fun p => { p with posts := p.posts ++ [t] }) →
      (p.blk = blk → p.isOpen = true → becomes (.opPost b) s (settle x u)) ∧
      (p.blk = blk → p.isOpen = false → becomes (.opPost b) s (settle x (opComplete x o p.status u))) ∧
      (p.blk ≠ blk → p.isOpen = true → becomes (.opPost b) s
        (settle x (failHere x o stMismatch (raiseCtx x 0x0201 (le 4 o ++ le 8 (blkSignature blk).toNat ++ cList []) u))))) ∧
    (c.closing = false → c.windowBase ≤ o → o < c.windowBase + 32 → SMap.find? o c.ops = none → SMap.find? o c.gathers = none → c.recanopy = none →
      ∀ u, u = (openOp x o blk false w).modOp x o (fun p => { p with posts := [t] }) →
      (∀ c', u.ctx? x = some c' → c'.recanopy = none → blockBad u x c' blk (blkKind blk == kBarrier) = false →
        (∀ p, u.op? x o = some p → p.gather = none → becomes (.opPost b) s (settle x (replayCounts x o u)))))) ∧
  (∀ (s : State) (b : Sub) (x o : Nat) (c : Ctx), headerGood 0x25 b s → x = b.ctx → o = b.f 12 4 → s.sw.ctx? x = some c →
    s.sw.owns b.func c.cfg.job = true → b.only [lctx, by_ 12 4] = true →
    (SMap.find? o c.ops = none → c.ops.mem o = false → c.nextOp ≤ o → endsWith (.opAbort b) s 0x25 b stBad id) ∧
    (SMap.find? o c.ops = none → o < c.nextOp → endsWith (.opAbort b) s 0x25 b stDone id) ∧
    (∀ p, SMap.find? o c.ops = some p → c.ops.mem o = true →
      (p.isOpen = false → endsWith (.opAbort b) s 0x25 b (if p.status = stAborted then stAborted else stDone) id) ∧
      (p.isOpen = true → becomes (.opAbort b) s (settle x (requestAbort x o 0xFFFF
        ((descSw 0x25 b s.sw).modOp x o fun p => { p with aborts := p.aborts ++ [descTok 0x25 b s.sw] }))))))

/-- A good TIMING_MESSAGE_RECEIVE counts itself, ends the bad ones and keeps its mark; the second good one in a row makes the input
valid; a bad one ends the good ones, and the third in a row makes the input invalid, as TIMING_INPUT_TIMEOUT does. A TIME cell
of another DOMAIN adds one to the port's counter. SYNC from the time parent keeps its stamps t1 and t2, and with delays measured
gives an offset, their mean and the asymmetry taken off; from another port it does nothing more. DELAY_REQ is answered with the
stamp it came at; DELAY_RESP for the request pending adds a delay, of which 16 are kept, and ends the request; another does
nothing more. ANNOUNCE from a switch port sets the candidate, or removes it at 15 steps, and selection follows; ANNOUNCE_TIMEOUT
removes it. Selection changes nothing while the source stands; another source leads to ACQUIRE, the switch itself from LOCKED to
HOLDOVER and from ACQUIRE to FREE_RUN. SOURCE_WRITE starts again from FREE_RUN; HOLDOVER_EXPIRED ends HOLDOVER, with the
frequency held, and selection follows. DELAY_REQ_TIMER sends a request to the time parent and notes it, DELAY_REQ_TIMEOUT drops
it. In ACQUIRE an offset above 1,000 ns steps the GTC by it, the 16th in a row of at most 4 ns locks; in LOCKED one of at most
1,000 ns is slewed, the fourth in a row above it goes back to ACQUIRE. (R164, R165, R166, R167, R171, R173, R174, R175) -/
def Obligations.TimeSyncRule : Prop :=
  (∀ (s : State) (m : BitVec 128) (g : Quad) (fr : BitVec 4),
    (timingGood s.sw m = true → s.sw.sync.inValid = true → s.sw.sync.src ≠ .input → runsTo (.timingMessageReceive m g fr) s [.sync] fun t =>
      t.sync = { s.sw.sync with inGood := s.sw.sync.inGood + 1, inBad := 0, inLast := some (m.extractLsb' 32 64) }) ∧
    (timingGood s.sw m = true → s.sw.sync.inValid = false → runsTo (.timingMessageReceive m g fr) s (.sync :: .time :: .freeCtr :: evParts) fun t =>
      t.sync.inLast = some (m.extractLsb' 32 64) ∧ t.sync.inValid = decide (1 ≤ s.sw.sync.inGood)) ∧
    (timingGood s.sw m = false → s.sw.sync.inBad < 2 → runsTo (.timingMessageReceive m g fr) s [.sync] fun t =>
      t.sync = { s.sw.sync with inGood := 0, inBad := s.sw.sync.inBad + 1 }) ∧
    (timingGood s.sw m = false → 2 ≤ s.sw.sync.inBad → runsTo (.timingMessageReceive m g fr) s (.sync :: .time :: .freeCtr :: evParts) fun t => t.sync.inValid = false) ∧
    (s.sw.sync.inValid = true → runsTo .timingInputTimeout s (.sync :: .time :: .freeCtr :: evParts) fun t => t.sync.inValid = false ∧ t.sync.inGood = 0) ∧
    (s.sw.sync.inValid = false → stays .timingInputTimeout s)) ∧
  (∀ (s : State) (p : Nat) (c c' : Cell) (g : Quad) (fr : BitVec 4) (w : Sw), ingress p c s.sw = (some c', w) → c'.tc = 6 →
    (∀ row ∈ [Instr.syncReceive p c g fr, .delayReqReceive p c g fr, .delayRespReceive p c g fr, .announceReceive p c],
      c'.domain ≠ w.time.domain → w.portActive p = true → runsTo row s (.ctxs :: consumeParts) fun t =>
        (t.port p).cnt.domainDrop = (w.port p).cnt.domainDrop + 1) ∧
    (c'.domain = w.time.domain →
      (w.timeParent ≠ some p → becomes (.syncReceive p c g fr) s w ∧ becomes (.delayRespReceive p c g fr) s w) ∧
      (∀ u, c'.ttype = 0 → w.timeParent = some p →
        u = w.modSync (fun y => { y with t12 := some (stampAt c' 0 8, 16 * (g.toNat : Int) + (fr.toNat : Int)) }) →
        (w.sync.pairs = [] → becomes (.syncReceive p c g fr) s u) ∧
        (∀ v : Int, w.sync.pairs ≠ [] → 2 * w.sync.pairs.length * v = 2 * w.sync.pairs.length * stampDiff (16 * (g.toNat : Int) + (fr.toNat : Int)) (stampAt c' 0 8) -
          w.sync.pairs.foldl (· + ·) 0 - w.sync.pairs.length * (w.port p).reg.timeAsym.toInt → becomes (.syncReceive p c g fr) s (offsetMeasured v u))) ∧
      (c'.ttype = 1 → becomes (.delayReqReceive p c g fr) s
        (sendCtrl p (timeCell 2 w.time.domain c'.seqid (List.replicate 7 0 ++ le 8 g.toNat ++ le 1 fr.toNat)) w)) ∧
      (∀ q t3 t1 t2, c'.ttype = 2 → w.timeParent = some p → w.sync.req = some (q, t3) → w.sync.t12 = some (t1, t2) →
        (c'.seqid = q.toNat → becomes (.delayRespReceive p c g fr) s (w.modSync fun y =>
          { y with req := none, pairs := ((stampDiff t2 t1 + stampDiff (stampAt c' 16 24) t3) :: y.pairs).take 16 })) ∧
        (c'.seqid ≠ q.toNat → becomes (.delayRespReceive p c g fr) s w)) ∧
      (c'.ttype = 3 → w.isSwitch p = false → becomes (.announceReceive p c) s w) ∧
      (c'.ttype = 3 → w.isSwitch p = true → becomes (.announceReceive p c) s (reselect 2 (w.srcContent w.sync.src) (w.modSync fun y => { y with
        ann := if c'.f 26 1 < 15 then y.ann.set p { sourceId := c'.q 16, cls := c'.f 24 1, prio := c'.f 25 1, steps := c'.f 26 1, at_ := w.now }
          else y.ann.erase p }))))) ∧
  (∀ (w : Sw) (k : Nat) (old : List Byte), (w.wantSrc = w.sync.src → reselect k old w = w) ∧
    (w.wantSrc ≠ w.sync.src → (reselect k old w).sync.src = w.wantSrc ∧ Sw.keeps (.sync :: .time :: .freeCtr :: evParts) w (reselect k old w) ∧
      (w.wantSrc ≠ .self → (reselect k old w).sync.state = .acquire) ∧
      (w.wantSrc = .self → w.sync.state = .locked → (reselect k old w).sync.state = .holdover) ∧
      (w.wantSrc = .self → w.sync.state = .acquire → (reselect k old w).sync.state = .freeRun))) ∧
  (∀ (s : State) (p v : Nat), (s.sw.sync.ann.mem p = false → stays (.announceTimeout p) s) ∧
    (s.sw.sync.ann.mem p = true → becomes (.announceTimeout p) s
      (reselect 2 (s.sw.srcContent s.sw.sync.src) (s.sw.modSync fun y => { y with ann := y.ann.erase p }))) ∧
    (runsTo (.sourceWrite v) s (.sync :: .time :: evParts) fun t => t.time = { s.sw.time with source := v % 4 } ∧ t.sync.src = t.wantSrc ∧
      t.sync.state = (if t.wantSrc = .self then .freeRun else .acquire) ∧ t.sync.pairs = [] ∧ t.sync.good = 0) ∧
    (s.sw.timeParent = none → stays .delayReqTimer s) ∧
    (s.sw.timeParent = some p → becomes .delayReqTimer s (sendCtrl p (timeCell 1 s.sw.time.domain (s.sw.sync.reqSeq.getD p 0) [])
      (s.sw.modSync fun y => { y with reqSeq := y.reqSeq.set p ((s.sw.sync.reqSeq.getD p 0 + 1) % 65536)
                                      req := some (BitVec.ofNat 16 (s.sw.sync.reqSeq.getD p 0), s.sw.gtc16) }))) ∧
    (runsTo .delayReqTimeout s [.sync] fun t => t.sync = { s.sw.sync with req := none }) ∧
    (s.sw.sync.state = .holdover → becomes .holdoverExpired s (reselectNow (raiseSys 0x030A (le 4 10000)
      ((s.sw.modSync fun y => { y with state := .freeRun }).modTime fun t => { t with freq := (0, 0) })))) ∧
    (s.sw.sync.state ≠ .holdover → stays .holdoverExpired s)) ∧
  (∀ (w t : Sw) (v : Int), t = offsetMeasured v w → t.time.offset = v ∧ Sw.keeps (.sync :: .time :: evParts) w t ∧
    (w.sync.state = .acquire → 16000 < v.natAbs → t.gtc16 = (w.gtc16 - v) % 2 ^ 68 ∧ t.sync.good = 0 ∧ t.time.steps = w.time.steps + 1) ∧
    (w.sync.state = .acquire → v.natAbs ≤ 64 → t.time.slew = v ∧ t.sync.good = w.sync.good + 1 ∧
      (w.sync.good = 15 → t.sync.state = .locked) ∧ (w.sync.good ≠ 15 → t.sync.state = .acquire)) ∧
    (w.sync.state = .locked → v.natAbs ≤ 16000 → t.time.slew = v ∧ t.sync = { w.sync with bad := 0 }) ∧
    (w.sync.state = .locked → 16000 < v.natAbs → t.time.slew = w.time.slew ∧
      (w.sync.bad = 3 → t.sync.state = .acquire) ∧ (w.sync.bad ≠ 3 → t.sync = { w.sync with bad := w.sync.bad + 1 })))

/-- FRAME_TICK comes at a multiple of the frame period, the one at which the GTC stands or the next, and so do TIMING_OUTPUT_MARK,
at 2^20 ns, and SYNC_INTERVAL, at its own; a multiple that a step led to, or an instant already past, is no tick. At a frame
tick a context's pending plan takes effect and its grants go; a port's quotas are afresh, with nothing drawn, placed or sent,
and scaled when its cells of a frame are fewer than their sum. A mark sends the timing message when the output is enabled. A
SYNC interval sends SYNC on every UP port but the parent's and counts. PERIOD_LOG2_WRITE of 9 to 14 that the quotas in force on
every UP port fit is kept for the next change; outside 9 to 14 it is discarded, and one that does not fit raises event 0x0305
and is discarded, the period standing. FRAME_PERIOD_CHANGED puts the period written in force, with event 0x0304, and does
nothing when it is in force. FRAME_QUOTA of an ACTIVE context of its own job whose plan fits every UP port of its canopy is kept
for the next tick and ends OK; one that does not fit ends NO_RESOURCE, of another job DENIED, of no or a CLOSING context, or
CLEAR with quotas, BAD_DESCRIPTOR. LAUNCH_INSTANT of an operation whose instant has come converts what waited and goes on;
without an operation, or without an instant, it changes nothing. (R172, R177, R178, R181, R182, R184, R186, R188, R190) -/
def Obligations.TimeFrameRule : Prop :=
  (∀ (w t : Sw) (k : Nat) (past : Option Quad), t = toTick k past w → k ≤ 64 → Sw.keeps [.time] w t ∧ t.gtc.toNat % 2 ^ k = 0 ∧
    (w.gtc.toNat % 2 ^ k = 0 → w.time.stepTo ≠ some w.gtc → past ≠ some w.gtc → t = w) ∧
    (w.gtc.toNat % 2 ^ k ≠ 0 → t.gtc = w.gtc + BitVec.ofNat 64 (2 ^ k - w.gtc.toNat % 2 ^ k) ∧ t.time.frac = 0) ∧
    (w.gtc.toNat % 2 ^ k = 0 → w.time.stepTo = some w.gtc ∨ past = some w.gtc → t.gtc = w.gtc + BitVec.ofNat 64 (2 ^ k) ∧ t.time.frac = 0)) ∧
  (∀ (s : State) (u : Sw), s.sw.rcv.outvoted = [] → s.sw.upPorts = [] →
    u = (toTick s.sw.time.active s.sw.time.lastTick s.sw).modTime (fun t => { t with lastTick := some t.gtc }) →
    (s.sw.ctxs = [] → becomes .frameTick s u) ∧
    (∀ (x : Nat) (c : Ctx) (r : Nat) (q : Nat × Nat × Nat), s.sw.ctxs = [(x, c)] → c.quotaNext = some (r, q) →
      becomes .frameTick s (tickCtx x (lateTicks (BitVec.ofNat 32 u.frame) 1 x
        (u.setCtx x { c with srank := r, quota := q, quotaNext := none }))))) ∧
  (∀ (w : Sw) (n : Nat), w.portActive n = true → (w.port n).q.txq = [] →
    ((tickPort n w).port n).q.drawn = [] ∧ ((tickPort n w).port n).q.placed = 0 ∧ ((tickPort n w).port n).q.sent = 0 ∧
    ((tickPort n w).port n).q.scaled = (if w.schedCap n w.time.active < w.quotaSum n then some (w.schedCap n w.time.active) else none) ∧
    othersSame Sw.port n w (tickPort n w)) ∧
  (∀ s : State, (s.sw.time.outEnable = false → becomes .timingOutputMark s (toTick 20 none s.sw)) ∧
    (s.sw.time.outEnable = true → becomes .timingOutputMark s ((toTick 20 none s.sw).out (.timing
      (timingMessage s.sw.time.domain s.sw.timingFlags (toTick 20 none s.sw).gtc)))) ∧
    (s.sw.upPorts = [] → becomes .syncInterval s ((toTick s.sw.time.syncLog2 none s.sw).modSync fun y => { y with intervals := y.intervals + 1 })) ∧
    (∀ n, s.sw.upPorts = [n] → s.sw.timeParent ≠ some n → s.sw.sync.intervals % 16 ≠ 0 →
      becomes .syncInterval s (sendCtrl n (timeCell 0 s.sw.time.domain (s.sw.sync.syncSeq.getD n 0)
        (le 1 s.sw.sync.state.code ++ List.replicate 6 0 ++ le 8 (s.sw.srcId s.sw.sync.src).toNat))
        ((toTick s.sw.time.syncLog2 none s.sw).modSync fun y => { y with intervals := y.intervals + 1, syncSeq := y.syncSeq.set n ((y.syncSeq.getD n 0 + 1) % 65536) })))) ∧
  (∀ (s : State) (v : Nat),
    (v % 16 < 9 ∨ 14 < v % 16 → runsTo (.periodLog2Write v) s (.glb :: .last0106 :: evParts) fun t => t.glb.discards = s.sw.glb.discards + 1) ∧
    (9 ≤ v % 16 → v % 16 ≤ 14 → (∀ n ∈ s.sw.upPorts, s.sw.quotaInForce n ≤ s.sw.schedCap n (v % 16)) → runsTo (.periodLog2Write v) s [.time] fun t =>
      t.time = { s.sw.time with period := v % 16, periodAt := some s.sw.gtc }) ∧
    (9 ≤ v % 16 → v % 16 ≤ 14 → (∃ n ∈ s.sw.upPorts, s.sw.schedCap n (v % 16) < s.sw.quotaInForce n) → runsTo (.periodLog2Write v) s (.glb :: evParts) fun t =>
      t.glb.discards = s.sw.glb.discards + 1) ∧
    (s.sw.time.period = s.sw.time.active → stays .framePeriodChanged s) ∧
    (runsTo .framePeriodChanged s (.time :: .portQ :: evParts) fun t => t.time.active = s.sw.time.period ∧ t.time.period = s.sw.time.period)) ∧
  (∀ (s : State) (b : Sub) (x : Nat) (w : Sw), headerGood 0x70 b s → x = b.f 8 2 % 4096 → w = withPlan x (b.f 10 1) (b.f 12 2, b.f 14 2, b.f 16 2) (descSw 0x70 b s.sw) →
    b.only [by_ 8 2 &&& ~~~ bi_ 9 4 4, by_ 10 1, bi_ 11 0 1, by_ 12 6] = true →
    ((∀ c, s.sw.ctx? x = some c → c.closing = true) → endsWith (.frameQuota b) s 0x70 b stBad id) ∧
    (b.flag 11 0 = true → (b.f 12 2, b.f 14 2, b.f 16 2) ≠ (0, 0, 0) → endsWith (.frameQuota b) s 0x70 b stBad id) ∧
    (∀ c, s.sw.ctx? x = some c → c.closing = false → b.flag 11 0 = false →
      (s.sw.owns b.func c.cfg.job = false → endsWith (.frameQuota b) s 0x70 b stDenied id) ∧
      (s.sw.owns b.func c.cfg.job = true → planMisfit w x s.sw.time.active = true → endsWith (.frameQuota b) s 0x70 b stNoRes id) ∧
      (s.sw.owns b.func c.cfg.job = true → planMisfit w x s.sw.time.active = false → s.sw.time.period = s.sw.time.active ∨ planMisfit w x s.sw.time.period = false →
        endsWith (.frameQuota b) s 0x70 b stOk (Sw.modCtx x fun c => { c with quotaNext := some (b.f 10 1, (b.f 12 2, b.f 14 2, b.f 16 2)) })))) ∧
  (∀ (s : State) (x o : Nat), (s.sw.op? x o = none → stays (.launchInstant x o) s) ∧
    (∀ p, s.sw.op? x o = some p → (p.launchAt = none → stays (.launchInstant x o) s) ∧
      (∀ l, p.launchAt = some l → p.waiting = [] →
        (s.sw.launched p = true → becomes (.launchInstant x o) s (settle x (gatherEmit x o (releaseExchange x o (recordResume x o (fun _ _ => true) s.sw))))) ∧
        (s.sw.launched p = false → becomes (.launchInstant x o) s (settle x (gatherEmit x o (releaseExchange x o
          (recordResume x o (fun _ _ => true) (s.sw.modTime fun t => { t with gtc := l, frac := 0, elapsed := t.elapsed + (l - t.gtc).toNat })))))))))

/-- For descriptors that pass the header checks, of the function whose job owns the context. STORE_CREATE of an ACTIVE class 0
context with shards, whose parameters stand and whose space fits, attaches the store and ends OK; where the space does not fit
it ends NO_RESOURCE; over a store, DENIED. STORE_DESTROY without a store ends BAD_DESCRIPTOR; with a pinned or updating shard,
or a re-shard, DENIED; else the store is gone and it ends OK. STORE_LOAD into a shard that is READY without a pin on the other
bank, or EMPTY, writes the bytes to the load bank, whose versions end, and ends OK; into an UPDATING or WAIT_PIN shard, or one
not held, it ends DENIED; a commit makes that bank current at the version with a commit record. STORE_READ of a held version
writes the elements of the range, least significant byte first, to the host and ends OK; of a version not held GONE, with event
0x0404. STORE_GATHER outside the operation window ends BAD_DESCRIPTOR; of a version that an owned shard does not hold GONE, with
event 0x0404; else it takes an operation pin, and with PIN a held pin, on the version of each owned shard and ends OK with the
lowest and highest version; with none owned it has no effect and both are 0. STORE_UNPIN takes one held pin off the version in
every shard of the range. STORE_LOG_READ writes the two commit records of each shard held; with too short a buffer it ends
NO_RESOURCE. (R198, R199, R202, R207, R208, R209, R211, R212) -/
def Obligations.StoreRule : Prop :=
  (∀ (s : State) (b : Sub) (x : Nat) (c : Ctx) (d : Store) (w : Sw), headerGood 0x30 b s → x = b.ctx → s.sw.ctx? x = some c → w = descSw 0x30 b s.sw →
    d = createStore b c.canopy → storeBad b = false → b.flag 15 1 = false → c.closing = false → c.canopy.shards ≠ [] → c.cfg.cls = 0 →
    s.sw.owns b.func c.cfg.job = true → s.sw.pool.jobLimit.getD c.cfg.job 0 = 0 → d.splace.any (fun p => p == 1) = false →
    (c.store ≠ none → endsWith (.storeCreate b) s 0x30 b stDenied id) ∧
    (c.store = none → attachStore x c false d w = none → endsWith (.storeCreate b) s 0x30 b stNoRes id) ∧
    (∀ u, c.store = none → attachStore x c false d w = some u → becomes (.storeCreate b) s (settle x (complete (descTok 0x30 b s.sw) stOk u)))) ∧
  (∀ (w u : Sw) (x : Nat) (c : Ctx) (t : Store), w.ctx? x = some c → attachStore x c false t w = some u →
    ∃ t', u.store? x = some t' ∧ t'.m64 = t.m64 ∧ t'.sfmt = t.sfmt ∧ t'.splace = t.splace ∧ t'.ranges = t.ranges ∧ t'.lsn = t.lsn) ∧
  (∀ (s : State) (b : Sub) (x : Nat), headerGood 0x31 b s → x = b.ctx → b.only [lctx] = true →
    (s.sw.store? x = none → endsWith (.storeDestroy b) s 0x31 b stBad id) ∧
    (∀ c d, s.sw.ctx? x = some c → c.store = some d →
      ((d.shards.any fun e => d.anyPinned e.1 || e.2.st == .updating || e.2.st == .waitPin) = true ∨ c.reshard ≠ none → endsWith (.storeDestroy b) s 0x31 b stDenied id) ∧
      (s.sw.owns b.func c.cfg.job = true → (d.shards.any fun e => d.anyPinned e.1 || e.2.st == .updating || e.2.st == .waitPin) = false → c.reshard = none →
        c.anyOpen = false → becomes (.storeDestroy b) s (settle x (complete (descTok 0x31 b s.sw) stOk (destroyStore x (descSw 0x31 b s.sw))))))) ∧
  (∀ (w : Sw) (x : Nat), (destroyStore x w).store? x = none) ∧
  (∀ (s : State) (b : Sub) (x k : Nat) (c : Ctx) (d : Store) (e : ShardEnt) (h : Shard) (w : Sw), headerGood 0x32 b s → x = b.ctx → k = b.f 12 4 →
    s.sw.ctx? x = some c → c.store = some d → c.canopy.shard k = some e → SMap.find? k d.shards = some h → d.shards.mem k = true → w = descSw 0x32 b s.sw →
    b.only [lctx, by_ 10 1, bi_ 11 0 1, by_ 12 8, by_ 24 16, by_ 40 4] = true → rangeBad d e (b.f 10 1) (b.f 32 8) (b.f 40 4) = false → b.hostErr = none →
    s.sw.owns b.func c.cfg.job = true →
    (b.flag 11 0 = false → h.st = .updating ∨ h.st = .waitPin → endsWith (.storeLoad b) s 0x32 b stDenied id) ∧
    (∀ u, e.srole ≠ 0 → (h.st = .ready ∧ h.bankPinned h.other = false) ∨ h.st = .empty →
      u = w.modShard x k (fun h' => (h'.setBank h.loadBank fun b => { b with ver := none, prevVer := none }).loadBytes d h.loadBank (b.f 10 1)
        (b.f 32 8 / fmtBytes (d.fmt (b.f 10 1))) (b.host.take (b.f 40 4))) →
      (b.flag 11 0 = false → becomes (.storeLoad b) s (settle x (complete (descTok 0x32 b s.sw) stOk u))) ∧
      (b.flag 11 0 = true → b.f 16 4 ≠ 0 → becomes (.storeLoad b) s (settle x (complete (descTok 0x32 b s.sw) stOk
        (migDecide x k (commitRecord x k 1 h.loadBank (h.st != .empty) (b.f 16 4) 0 (0, 0) (u.modShard x k (Shard.loadCommit (b.f 16 4)))))))))) ∧
  (∀ (s : State) (b : Sub) (x k v : Nat) (c : Ctx) (d : Store) (e : ShardEnt) (h : Shard) (w : Sw) (t : Tok), headerGood 0x33 b s → x = b.ctx → k = b.f 12 4 →
    s.sw.ctx? x = some c → c.store = some d → c.canopy.shard k = some e → SMap.find? k d.shards = some h → w = descSw 0x33 b s.sw → t = descTok 0x33 b s.sw →
    b.only [lctx, by_ 10 1, by_ 12 8, by_ 24 16, by_ 40 4] = true → rangeBad d e (b.f 10 1) (b.f 32 8) (b.f 40 4) = false → s.sw.owns b.func c.cfg.job = true →
    (if b.f 16 4 = 0 then h.version = some v else b.f 16 4 = v) →
    ((h.bankOf v).isSome = true → b.hostErr = none → becomes (.storeRead b) s (complete t stOk (hostWrite t (b.q 24)
      ((span (b.f 32 8 / fmtBytes (d.fmt (b.f 10 1))) (b.f 40 4 / fmtBytes (d.fmt (b.f 10 1)))).map fun i =>
        le (fmtBytes (d.fmt (b.f 10 1))) (rawElem (d.fmt (b.f 10 1)) (readElem d h x k v (b.f 10 1) i))).flatten w))) ∧
    (b.f 10 1 = 0 → d.holdsVersion k v = false → becomes (.storeRead b) s (complete t stGone (goneEvent x k t.tag.toNat (b.f 16 4) w)))) ∧
  (∀ (s : State) (b : Sub) (x o : Nat) (c : Ctx) (d : Store) (w : Sw) (t : Tok), headerGood 0x34 b s → x = b.ctx → o = b.f 12 4 → w = descSw 0x34 b s.sw →
    t = descTok 0x34 b s.sw → s.sw.ctx? x = some c → c.store = some d → b.only [lctx, bi_ 10 0 3, by_ 12 16] = true →
    (o < c.windowBase ∨ c.windowBase + 32 ≤ o → endsWith (.storeGather b) s 0x34 b stBad id) ∧
    (∀ g : Nat → Option Nat, g = (fun k => gatherVersion d k (b.f 16 4)) → c.windowBase ≤ o → o < c.windowBase + 32 → SMap.find? o c.ops = none →
      SMap.find? o c.gathers = none → s.sw.owns b.func c.cfg.job = true →
      (ownedIn c (b.f 20 4) (b.f 24 4) = [] → becomes (.storeGather b) s (settle x (completeR t stOk 0 w))) ∧
      (∀ k e, ownedIn c (b.f 20 4) (b.f 24 4) = [(k, e)] → g k = none → becomes (.storeGather b) s (settle x (complete t stGone (goneEvent x k o (b.f 16 4)
        (noteGather x o { resolved := [], unpin := false, first := b.f 20 4, count := b.f 24 4, gone := true } w))))) ∧
      (∀ k e v, ownedIn c (b.f 20 4) (b.f 24 4) = [(k, e)] → g k = some v → (d.pinOf k v).1 < 65535 → (d.pinOf k v).2 < 65535 →
        b.flag 10 2 = false → becomes (.storeGather b) s (settle x (completeR t stOk (BitVec.ofNat 64 (v + v * 2 ^ 32))
          (noteGather x o { resolved := [(k, v)], unpin := b.flag 10 1, first := b.f 20 4, count := b.f 24 4 } (w.modStore x
            (Store.addPin k v 1 (b2n (b.flag 10 0)))))))))) ∧
  (∀ (d : Store) (k v op held : Nat) (h : Shard), SMap.find? k d.shards = some h → (h.bankOf v).isSome = true →
    (d.addPin k v op held).pinOf k v = ((d.pinOf k v).1 + op, (d.pinOf k v).2 + held)) ∧
  (∀ (s : State) (b : Sub) (x : Nat) (c : Ctx) (d : Store), x = b.ctx → s.sw.ctx? x = some c → c.store = some d → s.sw.owns b.func c.cfg.job = true →
    (∀ k e, headerGood 0x35 b s → b.only [lctx, by_ 12 12] = true → d.shards.keys = [k] → c.canopy.shard k = some e →
      e.first < b.f 12 4 + b.f 20 4 → b.f 12 4 < e.first + e.count → becomes (.storeUnpin b) s (settle x (complete (descTok 0x35 b s.sw) stOk
        ((descSw 0x35 b s.sw).modStore x (Store.subPin k (b.f 16 4) 0 1))))) ∧
    (headerGood 0x37 b s → b.only [lctx, by_ 24 8, by_ 40 4] = true →
      (b.f 40 4 < 128 * (heldEntries c.canopy.shards).length → endsWith (.storeLogRead b) s 0x37 b stNoRes id) ∧
      (∀ k e h r1 r2, heldEntries c.canopy.shards = [(k, e)] → SMap.find? k d.shards = some h → h.recs = (some r1, some r2) → 128 ≤ b.f 40 4 → b.hostErr = none →
        endsWith (.storeLogRead b) s 0x37 b stOk (hostWrite (descTok 0x37 b s.sw) (b.q 24) (r1.bytes k ++ r2.bytes k)))))

/-- STORE_RESHARD of an ACTIVE context whose new record changes shards only, with E not 0, no operation opened from E on and space
for what comes in, begins a re-shard in DRAINING, raises 0x0405 and ends OK; with one in progress it ends DENIED, with a record
that differs otherwise or with E = 0 BAD_DESCRIPTOR. RESHARD_MOVE_START with every operation below E complete and no outgoing
shard held up sends the outgoing images; else, or once moving, it changes nothing. RESHARD_DRAIN_TIMEOUT names, once, what is
waited for, with event 0x0407; once moving it changes nothing. A MOVE_CELL_RECEIVE cell that is no move cell, or of no re-shard,
does nothing more; one whose shard lies further on goes on unchanged; ACK_BAD, and RESHARD_RESEND_TIMEOUT, of a shard still
outgoing sends its image again, and of another change nothing; ACK_OK of a shard that this switch keeps nothing of makes it
EMPTY with a commit record and ends its move. GRADIENT_AREA_FULL changes nothing while the cell is FULL or for an operation that
is no open store reduction; once it is free, a slot HELD at its owner is written, freed and its cell complete. WAIT_PIN_RESUME
of a shard in WAIT_PIN whose other bank has no pin makes it UPDATING with that bank's versions ended; of a shard in another
state it changes nothing. (R197, R205, R209, R215, R217, R218, R219; 14 R477) -/
def Obligations.MoveRule : Prop :=
  (∀ (s : State) (b : Sub) (x : Nat) (c : Ctx) (r : Canopy) (w : Sw), headerGood 0x36 b s → b.hostErr = none → x = b.ctx → s.sw.ctx? x = some c → c.closing = false →
    w = descSw 0x36 b s.sw → r = parseCanopy (b.host.take (b.f 40 4)) → b.only [lctx, by_ 12 4, by_ 32 12] = true → s.sw.pool.jobLimit.getD c.cfg.job 0 = 0 →
    (b.f 12 4 = 0 ∨ reshardDiffers c.canopy r = true → endsWith (.storeReshard b) s 0x36 b stBad id) ∧
    (b.f 12 4 ≠ 0 → canopyForm b.host (b.f 40 4) = true → canopyValid w x c.cfg.job r = true → shardsValid w (2 ^ c.cfg.seglenLog2) r = true →
      reshardDiffers c.canopy r = false → c.store ≠ none →
      (c.reshard ≠ none ∨ c.openedFrom (b.f 12 4) = true → endsWith (.storeReshard b) s 0x36 b stDenied id) ∧
      (∀ u, c.reshard = none → c.openedFrom (b.f 12 4) = false → s.sw.owns b.func c.cfg.job = true → takeIncoming x c r.shards w = some u →
        becomes (.storeReshard b) s (settle x (complete (descTok 0x36 b s.sw) stOk (raiseCtx x 0x0405 (le 4 (b.f 12 4)) (u.modCtx x fun c' => { c' with
          reshard := some { eff := b.f 12 4, shards := r.shards, outgoing := ownedOnly c.canopy.shards r.shards,
                            incoming := (ownedOnly r.shards c.canopy.shards).map (fun k => (k, ({} : ImgIn))), since := u.now } }))))))) ∧
  (∀ (s : State) (x : Nat) (c : Ctx), s.sw.ctx? x = some c →
    (c.reshard = none → stays (.reshardMoveStart x) s ∧ stays (.reshardDrainTimeout x) s ∧ ∀ k, stays (.reshardResendTimeout x k) s) ∧
    (∀ r, c.reshard = some r →
      (r.moving = true ∨ c.windowBase < r.eff ∨ c.waitingShards r ≠ [] → stays (.reshardMoveStart x) s) ∧
      (∀ k, r.moving = false → r.eff ≤ c.windowBase → c.waitingShards r = [] → r.outgoing = [k] → r.incoming = [] →
        becomes (.reshardMoveStart x) s (settle x (moveImage x k (s.sw.setCtx x { c with reshard := some { r with moving := true, since := s.sw.now } })))) ∧
      (r.moving = true ∨ r.waited = true → stays (.reshardDrainTimeout x) s) ∧
      (r.moving = false → r.waited = false → becomes (.reshardDrainTimeout x) s
        (raiseCtx x 0x0407 (cList ((c.openBelow r.eff).map (le 4)) ++ cList ((c.waitingShards r).map (le 4)))
          (s.sw.setCtx x { c with reshard := some { r with waited := true } }))) ∧
      (∀ k, (r.moving = true → k ∈ r.outgoing → becomes (.reshardResendTimeout x k) s (moveImage x k s.sw)) ∧
        (r.moving = false ∨ k ∉ r.outgoing → stays (.reshardResendTimeout x k) s)))) ∧
  (∀ (s : State) (p x q : Nat) (c m : Cell) (w : Sw) (k : Ctx), s.sw.arrival p c = some (x, q, m, w, k) →
    (m.tc ≠ 4 ∨ k.moveOf m = none → becomes (.moveCellReceive p c) s w) ∧
    (∀ e epoch old new b j kind ent, m.tc = 4 → m.cmember = noMember → k.memberOf q = none → k.moveOf m = some (e, epoch, old, new, b) →
      j = bytesAt (bytes64 m.pay) 0 2 → kind = byteAt (bytes64 m.pay) 2 → byteAt (bytes64 m.pay) 3 = 0 →
      (kind = 0 → new[j]? = some ent → ∀ up, ent.toward = some up → becomes (.moveCellReceive p c) s (sendMove x up [m] w)) ∧
      (kind = 1 ∨ kind = 2 → old[j]? = some ent → (∀ up, ent.toward = some up → becomes (.moveCellReceive p c) s (sendMove x up [m] w)) ∧
        (∀ r, ent.toward = none → k.reshard = some r → r.moving = true →
          (j ∉ r.outgoing → becomes (.moveCellReceive p c) s (settle x w)) ∧
          (j ∈ r.outgoing → kind = 2 → becomes (.moveCellReceive p c) s (settle x (moveImage x j w))) ∧
          (∀ h, j ∈ r.outgoing → kind = 1 → w.shard? x j = some h → (∀ n, new[j]? = some n → n.srole ≠ 2) → becomes (.moveCellReceive p c) s (settle x
            ((emptyShard x j (commitRecord x j 4 h.cur false 0 0 (0, 0) w)).modCtx x fun c' => { c' with
              reshard := some { r with outgoing := r.outgoing.filter (· != j), moved := r.moved ++ [j] } }))))))) ∧
  (∀ (s : State) (x o g : Nat), (s.sw.op? x o = none → stays (.gradientAreaFull x o g) s) ∧
    (∀ c p, s.sw.ctx? x = some c → s.sw.op? x o = some p →
      (c.storeReduction p.blk = false ∨ s.sw.gradFull x c p.blk g = true → stays (.gradientAreaFull x o g) s) ∧
      (∀ t u v, c.storeReduction p.blk = true → s.sw.gradFull x c p.blk g = false → c.slot? o g = some t → t.sst = 2 → upPort c p.blk g = none → p.isOpen = true →
        p.segAnchor.mem (segOf c p.blk g) = true → v = t.value (c.mode p) c.cfg.acc64 → v.overflows c.cfg.g = false →
        gradWrite x o g (usedAnchor c p (segOf c p.blk g)) { v with attempt := c.attemptOf o (segOf c p.blk g) } s.sw = (true, u) →
        becomes (.gradientAreaFull x o g) s (settle x (commitStore x o (segOf c p.blk g)
          ((u.modCtx x fun c => { c with slots := c.slots.erase (slotKey o g) }).modOp x o fun p => { p with cbits := addSet p.cbits g })))))) ∧
  (∀ (s : State) (x k : Nat) (c : Ctx) (h : Shard), s.sw.ctx? x = some c → s.sw.shard? x k = some h →
    (h.st ≠ .waitPin → stays (.waitPinResume x k) s) ∧
    (h.st = .waitPin → h.bankPinned h.other = false → c.canopy.shard k = none → becomes (.waitPinResume x k) s (beginWrite x k s.sw)) ∧
    (∀ e, h.st = .waitPin → h.bankPinned h.other = false → c.canopy.shard k = some e → ∃ u, becomes (.waitPinResume x k) s u ∧ u.ctxs = (beginWrite x k s.sw).ctxs)) ∧
  (∀ (w : Sw) (x k : Nat) (h : Shard), w.shard? x k = some h → ∃ h', (beginWrite x k w).shard? x k = some h' ∧ h'.st = .updating ∧
    (h'.bank h.other).ver = none ∧ (h'.bank h.other).prevVer = none ∧ h'.cur = h.cur)

/-- For descriptors that pass the header checks, of the function whose job owns the context. KERNEL_LOAD of a valid kernel into an
entry that no step uses stores it and ends OK; an invalid one ends BAD_DESCRIPTOR, one in use DENIED, a failed host read under
R413. KERNEL_FREE of an entry that a layer or step uses ends DENIED, else the entry is free and it ends OK. LAYER_CONFIG with a
good record sets the layer's record in the store's extent for them, drawn with the first (without room NO_RESOURCE), with CLEAR
removes it, and the extent with the last, and ends OK; a bad record ends BAD_DESCRIPTOR. UPDATE_START for a group with no shard
here ends OK; while a step of the group is not DONE, DENIED; with a shard that R244 refuses, BAD_DESCRIPTOR; else the step
begins in GRAD_WAIT with the group's shards left and its configuration latched. UPDATE_ABORT of another STEP ends
BAD_DESCRIPTOR, of a step DONE ALREADY_DONE, else the step ends ABORTED and it completes ABORTED; an ended step is DONE without
its descriptor. PRUNE_CONFIG sets the result form of an ACTIVE context; of a CLOSING or FREE one it ends BAD_DESCRIPTOR.
ACT_CONFIG sets the policy of a store, and ends BAD_DESCRIPTOR without a store, with a window outside 8 to 64 or thresholds out
of order. ACT_READ writes a record per shard held, and with too short a buffer ends NO_RESOURCE. (R232, R233, R235, R243, R244, R251, R252; 08 R265, R269, R274) -/
def Obligations.UpdateRule : Prop :=
  (∀ (s : State) (b : Sub) (j : Nat), headerGood 0x40 b s → b.only [by_ 8 1, bi_ 10 0 1, by_ 11 2, by_ 24 8] = true → b.f 11 1 ≤ 64 → b.f 12 1 ≠ 0 →
    b.f 11 1 + b.f 12 1 ≤ 128 → b.f 24 8 % 64 = 0 → s.sw.jobOfFunc b.func = some j →
    (∀ a, b.hostErr = some a → becomes (.kernelLoad b) s (hostFail (descTok 0x40 b s.sw) a (descSw 0x40 b s.sw))) ∧
    (b.hostErr = none → (loadKernel b j).valid = false → endsWith (.kernelLoad b) s 0x40 b stBad id) ∧
    (b.hostErr = none → (loadKernel b j).valid = true → s.sw.stepUses (b.f 8 1) = true → endsWith (.kernelLoad b) s 0x40 b stDenied id) ∧
    (b.hostErr = none → (loadKernel b j).valid = true → s.sw.stepUses (b.f 8 1) = false → s.sw.kernelForeign b.func (b.f 8 1) = false →
      endsWith (.kernelLoad b) s 0x40 b stOk (Sw.modKernels (SMap.set (b.f 8 1) (loadKernel b j))))) ∧
  (∀ (s : State) (b : Sub), headerGood 0x41 b s → b.only [by_ 8 1] = true →
    (s.sw.layerUses (b.f 8 1) = true ∨ s.sw.stepUses (b.f 8 1) = true ∨ s.sw.kernelForeign b.func (b.f 8 1) = true → endsWith (.kernelFree b) s 0x41 b stDenied id) ∧
    (s.sw.layerUses (b.f 8 1) = false → s.sw.stepUses (b.f 8 1) = false → s.sw.kernelForeign b.func (b.f 8 1) = false →
      endsWith (.kernelFree b) s 0x41 b stOk (Sw.modKernels (SMap.erase (b.f 8 1))))) ∧
  (∀ (s : State) (b : Sub) (x : Nat) (c : Ctx) (d : Store), headerGood 0x42 b s → x = b.ctx → s.sw.ctx? x = some c → c.store = some d → s.sw.owns b.func c.cfg.job = true →
    b.only [lctx, by_ 10 2, bi_ 12 0 1, by_ 24 8] = true → b.f 24 8 % 64 = 0 →
    (b.flag 12 0 = true → endsWith (.layerConfig b) s 0x42 b stOk (layerClear x (b.f 10 2))) ∧
    (b.flag 12 0 = false → b.hostErr = none → layerBad s.sw c.cfg.job d b.host = true → endsWith (.layerConfig b) s 0x42 b stBad id) ∧
    (b.flag 12 0 = false → b.hostErr = none → layerBad s.sw c.cfg.job d b.host = false →
      (∀ u, layerSpace x (descSw 0x42 b s.sw) = some u → becomes (.layerConfig b) s (complete (descTok 0x42 b s.sw) stOk
        (u.modStore x fun d => { d with layers := d.layers.set (b.f 10 2) (parseLayer b.host) }))) ∧
      (layerSpace x (descSw 0x42 b s.sw) = none → endsWith (.layerConfig b) s 0x42 b stNoRes (layerLimit x)))) ∧
  (∀ (w : Sw) (x k : Nat) (d : Store), w.store? x = some d →
    (d.layers.erase k ≠ [] → layerClear x k w = w.modStore x fun d => { d with layers := d.layers.erase k }) ∧
    (d.layers.erase k = [] → layerClear x k w = poolFreeBy (.store x) d.layerBuf.toList
      ((w.modStore x fun d => { d with layers := d.layers.erase k }).modStore x fun d => { d with layerBuf := none }))) ∧
  (∀ (s : State) (b : Sub) (x u : Nat) (c : Ctx) (d : Store), headerGood 0x43 b s → x = b.ctx → u = b.f 10 2 → s.sw.ctx? x = some c → c.store = some d → s.sw.owns b.func c.cfg.job = true →
    b.only [lctx, by_ 10 6, bi_ 16 0 4, by_ 20 36] = true → b.bits 16 2 2 ≠ 3 → b.f 12 4 ≠ 0 → b.flag 16 1 = false → b.f 40 16 = 0 →
    ((∃ k ∈ c.groupShards u, shardRefused s.sw c d k = true) → endsWith (.updateStart b) s 0x43 b stBad id) ∧
    ((∀ k ∈ c.groupShards u, shardRefused s.sw c d k = false) →
      (∀ st, SMap.find? u d.steps = some st → st.st ≠ .done → endsWith (.updateStart b) s 0x43 b stDenied id) ∧
      ((∀ st, SMap.find? u d.steps = some st → st.st = .done) →
        (c.groupShards u = [] → endsWith (.updateStart b) s 0x43 b stOk id) ∧
        (∀ st w, c.groupShards u ≠ [] → w = descSw 0x43 b s.sw → st = startStep w c d b (descTok 0x43 b s.sw) →
          becomes (.updateStart b) s (settle x (w.modStore x fun d => { d with steps := d.steps.set u st })) ∧ st.st = .gradWait ∧ st.step = b.f 12 4 ∧
          st.left = c.groupShards u ∧ st.done = [] ∧ st.cfg = d.layers.keep fun l => (c.groupShards u).any fun k => c.layerOf k == l)))) ∧
  (∀ (s : State) (b : Sub) (x u : Nat) (st : Step) (c : Ctx), headerGood 0x44 b s → x = b.ctx → u = b.f 10 2 → s.sw.ctx? x = some c → s.sw.owns b.func c.cfg.job = true →
    b.only [lctx, by_ 10 6] = true → s.sw.step? x u = some st →
    (st.step ≠ b.f 12 4 → endsWith (.updateAbort b) s 0x44 b stBad id) ∧
    (st.step = b.f 12 4 → st.st = .done → endsWith (.updateAbort b) s 0x44 b stDone id) ∧
    (st.step = b.f 12 4 → st.st ≠ .done → becomes (.updateAbort b) s
      (settle x (complete (descTok 0x44 b s.sw) stAborted (abortStep x u (descSw 0x44 b s.sw)))))) ∧
  (∀ (w : Sw) (x u status : Nat) (st : Step), w.step? x u = some st → ∃ st', (stepDone x u status w).step? x u = some st' ∧ st'.st = .done ∧ st'.tok = none ∧
    st'.step = st.step ∧ st'.done = st.done) ∧
  (∀ (s : State) (b : Sub) (x : Nat) (c : Ctx), x = b.ctx → s.sw.ctx? x = some c → s.sw.owns b.func c.cfg.job = true →
    (headerGood 0x50 b s → b.only [lctx, bi_ 10 0 1] = true →
      (c.closing = true → endsWith (.pruneConfig b) s 0x50 b stBad id) ∧
      (c.closing = false → endsWith (.pruneConfig b) s 0x50 b stOk (Sw.modCtx x fun c => { c with sparse := b.flag 10 0 }))) ∧
    (headerGood 0x51 b s → b.only [lctx, bi_ 10 0 2, by_ 11 3] = true →
      (c.store = none ∨ b.f 11 1 < 8 ∨ 64 < b.f 11 1 ∨ b.f 11 1 ≤ b.f 12 1 ∨ b.f 13 1 ≤ b.f 12 1 ∨ b.f 11 1 < b.f 13 1 → endsWith (.actConfig b) s 0x51 b stBad id) ∧
      (∀ d, c.store = some d → 8 ≤ b.f 11 1 → b.f 11 1 ≤ 64 → b.f 12 1 < b.f 11 1 → b.f 12 1 < b.f 13 1 → b.f 13 1 ≤ b.f 11 1 → b.flag 10 1 = true ∨ d.shards = [] →
        becomes (.actConfig b) s (settle x (complete (descTok 0x51 b s.sw) stOk ((descSw 0x51 b s.sw).modStore x fun t => { t with
          idleSkip := b.flag 10 0, migrate := b.flag 10 1, window := b.f 11 1, demoteMax := b.f 12 1, promoteMin := b.f 13 1 }))))) ∧
    (∀ d, headerGood 0x52 b s → b.only [lctx, by_ 24 8, by_ 40 4] = true → c.store = some d →
      (b.f 40 4 < 16 * (heldEntries c.canopy.shards).length → endsWith (.actRead b) s 0x52 b stNoRes id) ∧
      (16 * (heldEntries c.canopy.shards).length ≤ b.f 40 4 → b.hostErr = none → endsWith (.actRead b) s 0x52 b stOk (hostWrite (descTok 0x52 b s.sw) (b.q 24)
        ((heldEntries c.canopy.shards).map fun e => actRecord d e.1 ((SMap.find? e.1 d.shards).getD {})).flatten))))

/-- NORM_RECEIVE of a cell that is no NORM, or not of the canopy's switches, does nothing more; a CONTRIB goes up, and at the root
is counted once per FIRST_SHARD while shards are missing; a RESULT from the parent new to the group is kept and acted on.
NORM_RESEND_TIMER sends the CONTRIB of a step in NORM_WAIT again. UPDATE_GRAD_WAIT names the shards short of gradients with
event 0x0421, NORM_WAIT_TIMEOUT below the root raises 0x0422 with 10 ms; in other states the timers change nothing.
LAYER_PRE_COMPLETE of a layer of one shard records its factors and sums and the step goes on; of another layer, or one that does
not wait, nothing. SHARD_COMMIT of a shard worked on makes the other bank current at the next version with a commit record:
under SKIP an exact copy, else the kernel's output; where a shadow check outvotes a block of it, its nest starts again with
event 0x0426. IDLE_COMMIT makes the current bank hold both versions. A shard not worked on, or not UPDATING, stands.
SHARD_ABANDONED of a shard whose current bank a nest or pass reads ends the write, raises 0x0427 and takes the shard off the
step. MIGRATION_START of the READY shard at the head of a grove's queue begins its copy in the space taken; MIGRATION_COPY_DONE
ends a promotion with event 0x0511 and no history; MIGRATION_ERROR stops a copy with event 0x0514. An error of a root port
counts as poison. An empty queue, or a head not copying, changes nothing. (R246, R248, R249, R251; 08 R271, R272, R273; 11 R395) -/
def Obligations.UpdateWorkRule : Prop :=
  (∀ (s : State) (p x q : Nat) (c m : Cell) (w : Sw) (k : Ctx) (t : Store), s.sw.arrival p c = some (x, q, m, w, k) → k.store = some t →
    (¬ isCtrl m ctNorm ∨ k.canopy.switchPorts.contains q = false → becomes (.normReceive p c) s w) ∧
    (isCtrl m ctNorm → k.canopy.switchPorts.contains q = true → m.f 6 1 = 0 → k.canopy.parent ≠ some q →
      (∀ up, k.canopy.parent = some up → becomes (.normReceive p c) s (ctxCtrl x up .none m w)) ∧
      (∀ r, k.canopy.parent = none → r = t.norms.getD (m.f 4 2) {} → r.known (m.f 0 4) = none → r.step = m.f 0 4 → r.contribs.mem (m.f 26 2) = false →
        ∀ r', r' = { r with contribs := r.contribs.set (m.f 26 2) (m.f 8 16, toS16 (m.f 24 2), (m.f 7 1).testBit 0, m.f 28 4, BitVec.ofNat 64 (m.f 32 8)) } →
        r'.contribs.vals.foldl (fun a (e : Contrib) => a + e.2.2.2.1) 0 < (k.canopy.shards.filter fun e => e.ugroup == m.f 4 2).length →
        becomes (.normReceive p c) s (settle x (w.modStore x fun t => { t with norms := t.norms.set (m.f 4 2) r' })))) ∧
    (isCtrl m ctNorm → k.canopy.parent = some q → m.f 6 1 = 1 → k.canopy.switchChildren = [] → (t.norms.getD (m.f 4 2) {}).known (m.f 0 4) = none →
      becomes (.normReceive p c) s (settle x (stepResult x (m.f 4 2) (m.f 0 4) (m.f 8 16) (toS16 (m.f 24 2)) ((m.f 7 1).testBit 0) ((m.f 7 1).testBit 1) []
        (w.modStore x fun t => { t with
          norms := t.norms.set (m.f 4 2) ⟨[], m.f 0 4, some (m.f 0 4, m.f 8 16, toS16 (m.f 24 2), (m.f 7 1).testBit 0, (m.f 7 1).testBit 1)⟩ }))))) ∧
  (∀ (s : State) (x u : Nat) (c : Ctx) (t : Store) (st : Step), s.sw.ctx? x = some c → c.store = some t → s.sw.step? x u = some st →
    (st.st ≠ .normWait → stays (.normResendTimer x u) s ∧ stays (.normWaitTimeout x u) s) ∧
    (∀ up n i, st.st = .normWait → c.canopy.parent = some up → st.snap = some n → minOf ((c.groupShards u).filter c.ownsShard) = some i → becomes (.normResendTimer x u) s
      (settle x (ctxCtrl x up .none (normCell x (normBody st.step u 0 n.nonfinite false n.word (n.an.getD 0) i ((c.groupShards u).filter c.ownsShard).length st.sig)) s.sw))) ∧
    (st.st = .normWait → c.isRoot = false → becomes (.normWaitTimeout x u) s (stepOnce x u 0x0422 0 (le 4 10) s.sw)) ∧
    (st.st ≠ .gradWait → stays (.updateGradWait x u) s) ∧
    (st.st = .gradWait → (∀ k ∈ st.left, ∃ h e, SMap.find? k t.shards = some h ∧ c.canopy.shard k = some e ∧ h.allFull e.count = false) →
      becomes (.updateGradWait x u) s (stepOnce x u 0x0421 0 (cList (st.left.map (le 4))) s.sw)) ∧
    (∀ l, st.st ≠ .running ∨ st.layer c ≠ l ∨ s.sw.layerWaits x u = false → stays (.layerPreComplete x u l) s) ∧
    (∀ l k h p p' w, s.sw.shard? x k = some h → st.st = .running → st.layer c = l → s.sw.layerWaits x u = true → (st.now c).filter (fun k => !s.sw.idles x u k) = [k] → s.sw.pass x u k = some p →
      w = (s.sw.modStep x u fun st => { st with factors := p.allFactors.foldl (fun m e => m.set e.1 e.2) st.factors }) → w.pass x u k = some p' →
      becomes (.layerPreComplete x u l) s (settle x (engineGo x u ((agStop h.grove w).modStep x u
        fun st => { st with acc := some (l, (List.zipWith (fadd fp64) [0, 0, 0, 0] p'.sums).map (BitVec.ofNat 64)) })))) ∧
    (∀ k, s.sw.workingOn x u k = false → stays (.shardCommit x u k) s ∧ stays (.idleCommit x u k) s) ∧
    (∀ k i a, s.sw.readsBank x u k = false → stays (.shardAbandoned x u k i a) s) ∧
    (∀ k h i a, s.sw.shard? x k = some h → s.sw.readsBank x u k = true → becomes (.shardAbandoned x u k i a) s (settle x (stepCheck x u (engineGo x u
      ((stepEvent x u st.step 0x0427 (le 4 k ++ le 2 (unitNo (s.sw.stackAt i a)) ++ le 8 a) (poisoned (s.sw.stackAt i a) a (agStop h.grove (abandonWrite x k s.sw)))).modStep x u
        fun st => { st with left := st.left.filter (· != k), abandoned := true }))))) ∧
    (∀ k h v, s.sw.shard? x k = some h → s.sw.workingOn x u k = true → h.st = .updating → s.sw.idles x u k = true → v = h.version.getD 0 →
      becomes (.idleCommit x u k) s (settle x (afterCommit x u k true (staleTell x k (commitRecord x k 2 h.cur true ((v + 1) % 2 ^ 32) st.step st.factor
        (s.sw.modShard x k fun h => { (h.setBank h.cur fun b => { b with ver := some ((v + 1) % 2 ^ 32), prevVer := some v }) with st := .ready })))))) ∧
    (∀ k p v o r, s.sw.pass x u k = some p → s.sw.workingOn x u k = true → p.h.st = .updating → s.sw.idles x u k = false → s.sw.layerWaits x u = false → s.sw.rootDown p.h = none →
      p.h.lostTier2 = none → v = (p.h.version.getD 0 + 1) % 2 ^ 32 →
      (st.skip = true ∧ o = p.exactCopy ∨ st.skip = false ∧ st.acc = none ∧ o = (p.main [] v).arrays ∧ (p.main [] v).sat = none ∧ p.ovfCell = none) →
      r = blockChecks x st.step k p.h.grove (List.range (if st.skip then 0 else ((p.l.addrs p.e.count).length + 4095) / 4096)) s.sw →
      becomes (.shardCommit x u k) s (if r.1 = true then stepEvent x u st.step 0x0426 (le 4 k ++ le 1 2 ++ le 2 0xFFFF) (agStart p.h.grove p.e.count p.l (agStop p.h.grove r.2))
        else settle x (afterCommit x u k false (staleTell x k (commitRecord x k 2 p.h.other true v st.step st.factor (r.2.modShard x k fun h =>
          { (h.setBank h.other fun b => { b with ver := some v, prevVer := none, arrays := o }) with cur := h.other, st := .ready }))))))) ∧
  (∀ (s : State) (g : Nat), s.sw.migQueues.getD g [] = [] → stays (.migrationStart g) s ∧ stays (.migrationCopyDone g) s ∧ ∀ i a, stays (.migrationError g i a) s) ∧
  (∀ (s : State) (g x k : Nat) (rest : List (Nat × Nat)) (c : Ctx) (t : Store) (h : Shard) (e : ShardEnt), s.sw.migQueues.getD g [] = (x, k) :: rest → s.sw.ctx? x = some c →
    c.store = some t → s.sw.shard? x k = some h → c.canopy.shard k = some e →
    (h.st ≠ .ready ∨ h.mig ≠ .queued → stays (.migrationStart g) s) ∧
    (∀ u, h.mig = .queued → h.st = .ready → h.promote = true → poolTake 6 g (t.autoExtents e.count) (some c.cfg.job) (.store x) s.sw = some u →
      becomes (.migrationStart g) s (u.modShard x k fun h => { h with mig := .copying, migBuf := some s.sw.pool.next })) ∧
    (∀ u n, h.mig = .queued → h.st = .ready → h.promote = false → takeT2 (t2Extents t t.autos e.count) (0, 0) s.sw = some (n, u) →
      becomes (.migrationStart g) s (u.modShard x k fun h => { h with mig := .copying, migT2 := n })) ∧
    (h.mig ≠ .copying → stays (.migrationCopyDone g) s ∧ ∀ i a, stays (.migrationError g i a) s) ∧
    (∀ i a, h.mig = .copying → h.migWait = false → becomes (.migrationError g i a) s (settle x (raiseCtx x 0x0514 (le 4 k ++ le 2 (unitNo i) ++ le 8 a) (migStop x k (poisoned i a s.sw))))) ∧
    (h.mig = .copying → h.migWait = false → h.promote = true → s.sw.rootDown h = none → becomes (.migrationCopyDone g) s (settle x
      (raiseCtx x 0x0511 (le 4 k ++ le 8 (movedBytes t h e.count) ++ le 4 (t.activeIn h)) ((freeT2 h.autoT2 (s.sw.modMigs (SMap.set g rest))).modShard x k fun h' => { h' with
        mig := .still, steps := 0, inTier2 := !h'.promote, migT2 := (0, 0), migBuf := none, migWait := false
        autoT2 := if h'.promote then (0, 0) else h'.migT2, bufs := if h'.promote then h'.bufs ++ h'.migBuf.toList else h'.bufs.take 1 })))))

/-- A cell of its type that reaches its context on canopy port q, else nothing more. RESULT_ACK: DELIVERED of a switch child is
noted; RELEASE from the parent goes on. REINJECT_REQ for an open operation: CONTRIB asks again for the cells of the range rooted
toward q; RESULT, with all of them retained, sends them again and raises 0x0602; of an operation not open here a RESULT goes to
the parent. DIGEST: a REQUEST is answered with both digests of the link; a partner's digest that differs from its counterpart
raises 0x0611, one that agrees nothing; a DIGEST_COMPARE that asked keeps it. DIGEST_COMPARE sends a REQUEST on each port named,
or with a port outside the canopy ends BAD_DESCRIPTOR; DIGEST_COMPARE_TIMEOUT completes it with event 0x0610 and changes nothing
without one. REC_CONFIG sets the settings, and every context keeps at most DIGEST_DEPTH digest sets; a SHADOW_LOG2 of 17 to 254
ends BAD_DESCRIPTOR. REC_READ writes what SELECT names; of 3 or above BAD_DESCRIPTOR, into too short a buffer NO_RESOURCE.
STEP_ACK at a root, neither below the last nor above the next operation, is kept; else BAD_DESCRIPTOR. ANCHOR_COPY of a kept
table installs it as of the operation named, with event 0x0660, or ends GONE; DIR 2 writes the table to the host. (R286, R291, R292, R299, R300, R310, R311, R325, R326, R327) -/
def Obligations.RepairRule : Prop :=
  (∀ (s : State) (p x q o : Nat) (c m : Cell) (w : Sw) (k : Ctx), s.sw.arrival p c = some (x, q, m, w, k) → o = m.f 0 4 →
    (¬ isCtrl m ctAck → becomes (.resultAckReceive p c) s w) ∧ (¬ isCtrl m ctReinject ∨ k.leadsToSwitch q = false → becomes (.reinjectReqReceive p c) s w) ∧
    (¬ isCtrl m ctDigest → becomes (.digestReceive p c) s w) ∧
    (∀ h, isCtrl m ctAck → m.f 4 1 = 0 → k.canopy.child q = some h → (h.isSwitch = false → becomes (.resultAckReceive p c) s w) ∧
      (h.isSwitch = true → becomes (.resultAckReceive p c) s (settle x (w.modOp x o fun r => { r with deliveredFrom := setBit r.deliveredFrom q })))) ∧
    (isCtrl m ctAck → m.f 4 1 = 1 → k.canopy.parent = some q → becomes (.resultAckReceive p c) s (sendRelease x (m.f 8 4) w)) ∧
    (∀ r, isCtrl m ctReinject → k.leadsToSwitch q = true → SMap.find? o k.ops = some r →
      (r.isOpen = false → becomes (.reinjectReqReceive p c) s w) ∧
      (r.isOpen = true → m.arg % 4 = 0 → becomes (.reinjectReqReceive p c) s (settle x (askContrib x o
        (cellSet r fun i => decide (m.f 4 4 ≤ i) && decide (i ≤ m.f 8 4) && upPort k r.blk i == some q) (m.f 12 1) none w))) ∧
      (∀ a n, r.isOpen = true → m.arg % 4 = 1 → a = cellSet r (fun i => decide (m.f 4 4 ≤ i) && decide (i ≤ m.f 8 4) && inSet (r.sentTo.getD q 0) i && (targets k r.blk i).contains q) →
        n = ((List.range (cellsOf r.blk)).filter (inSet a)).length →
        (∀ i < cellsOf r.blk, inSet a i = true → ∃ e, SMap.find? i r.retained = some e ∧ e.kept = true) →
        becomes (.reinjectReqReceive p c) s (raiseCtx x 0x0602 (le 4 o ++ le 2 q ++ le 4 n) (resend x o q a w)))) ∧
    (∀ up, isCtrl m ctReinject → k.leadsToSwitch q = true → SMap.find? o k.ops = none → m.arg % 4 = 1 → k.canopy.parent = some up → up ≠ q →
      becomes (.reinjectReqReceive p c) s (ctxCtrl x up .none (reinjectCell x o noMember 1 (m.f 4 4) (m.f 8 4) (m.f 12 1)) w)) ∧
    (isCtrl m ctDigest → m.f 4 1 = 8 → becomes (.digestReceive p c) s
      (foldAccs x o <| ctxCtrl x q .none (digestCell x o (k.memberField q) (k.linkKinds q).2 0 (k.digest? o (k.linkKinds q).2 q))
        (ctxCtrl x q .none (digestCell x o (k.memberField q) (k.linkKinds q).1 0 (k.digest? o (k.linkKinds q).1 q)) w))) ∧
    (∀ d own, isCtrl m ctDigest → m.f 4 1 < 4 → m.f 20 1 = 0 → w.rcv.compares = [] → k.digest? o (counterpart (m.f 4 1)) q = some own → d = (⟨m.q 8, m.f 16 4, false⟩ : Digest) →
      (own.agrees d = true → becomes (.digestReceive p c) s w) ∧
      (own.agrees d = false → becomes (.digestReceive p c) s (raiseCtx x 0x0611 (le 4 o ++ le 2 q ++ le 1 (counterpart (m.f 4 1)) ++ le 1 (m.f 4 1) ++
        le 8 own.dig.toNat ++ le 8 d.dig.toNat ++ le 4 own.cells ++ le 4 d.cells) w))) ∧
    (∀ e, isCtrl m ctDigest → m.f 4 1 < 4 → w.rcv.compares = [e] → e.ctx = x → e.opnum = o → e.ports.contains q = true → k.digest? o (counterpart (m.f 4 1)) q = none →
      becomes (.digestReceive p c) s (w.modRec fun r => { r with compares := [{ e with answers := e.answers.set (q * 16 + m.f 4 1) (m.q 8, m.f 16 4, m.f 20 1 == 0) }] }))) ∧
  (∀ (s : State) (b : Sub) (x o : Nat) (c : Ctx), headerGood 0x82 b s → x = b.ctx → o = b.f 12 4 → s.sw.ctx? x = some c → c.closing = false → s.sw.owns b.func c.cfg.job = true →
    b.only [lctx, by_ 10 6] = true → b.f 10 2 ≠ 0xFFFF →
    (c.canopy.ports.contains (b.f 10 2) = false → endsWith (.digestCompare b) s 0x82 b stBad id) ∧
    (c.canopy.ports.contains (b.f 10 2) = true → becomes (.digestCompare b) s (ctxCtrl x (b.f 10 2) .none (ctrlCell ctDigest x (c.memberField (b.f 10 2)) o 0 (le 4 o ++ le 1 8))
      ((descSw 0x82 b s.sw).modRec fun r => { r with compares := r.compares ++ [{ ctx := x, opnum := o, ports := [b.f 10 2], answers := [], tok := descTok 0x82 b s.sw }] })))) ∧
  (∀ (s : State) (x o : Nat), ((∀ e ∈ s.sw.rcv.compares, e.ctx ≠ x ∨ e.opnum ≠ o) → stays (.digestCompareTimeout x o) s) ∧
    (∀ e, s.sw.rcv.compares = [e] → e.ctx = x → e.opnum = o → becomes (.digestCompareTimeout x o) s (foldAccs x o <| completeE e.tok 0x0610 stOk
      (le 2 x ++ le 4 o ++ cList (e.ports.map (compareOutcome (s.sw.ctx? x) e))) (s.sw.modRec fun r => { r with compares := [] })))) ∧
  (∀ (s : State) (b : Sub), headerGood 0x80 b s → b.only [by_ 8 5, bi_ 13 0 2, by_ 16 4] = true →
    (16 < b.f 8 1 → b.f 8 1 ≠ 0xFF → endsWith (.recConfig b) s 0x80 b stBad id) ∧
    (b.f 8 1 ≤ 16 ∨ b.f 8 1 = 0xFF → b.f 9 1 ≠ 0 → b.f 10 2 ≠ 0 → b.f 12 1 ≠ 0 → b.f 16 4 % 16 = 0 → b.f 16 4 ≤ 65536 → endsWith (.recConfig b) s 0x80 b stOk (fun w => poolWarnAll <|
      (w.modRec fun r => { r with shadowLog2 := b.f 8 1, quarCount := b.f 9 1, quarWindow := b.f 10 2, digestDepth := b.f 12 1, retain := b.flag 13 0, autoQuar := b.flag 13 1, retMib := b.f 16 4 }).modCtxs
        fun m => m.mapVals fun c => { c with digests := c.digests.drop (c.digests.length - b.f 12 1) }))) ∧
  (∀ (s : State) (b : Sub) (x : Nat) (c : Ctx), x = b.ctx → s.sw.ctx? x = some c → s.sw.owns b.func c.cfg.job = true →
    (headerGood 0x81 b s → b.only [lctx, by_ 10 1, by_ 12 4, by_ 24 8, by_ 40 4] = true → (2 < b.f 10 1 → endsWith (.recRead b) s 0x81 b stBad id) ∧
      (∀ bytes, b.f 10 1 ≤ 2 → bytes = recReadBytes c (b.f 10 1) (b.f 12 4) s.sw →
        (b.f 40 4 < bytes.length → endsWith (.recRead b) s 0x81 b stNoRes id) ∧
        (bytes.length ≤ b.f 40 4 → b.hostErr = none → endsWith (.recRead b) s 0x81 b stOk (fun w =>
          hostWrite (descTok 0x81 b s.sw) (b.q 24) bytes (each c.digests.keys (foldAccs x) w))))) ∧
    (headerGood 0x85 b s → b.only [lctx, by_ 12 4] = true →
      (c.isRoot = false ∨ b.f 12 4 < c.stepAck ∨ c.nextOp < b.f 12 4 → endsWith (.stepAck b) s 0x85 b stBad id) ∧
      (c.isRoot = true → c.stepAck ≤ b.f 12 4 → b.f 12 4 ≤ c.nextOp → becomes (.stepAck b) s (settle x (complete (descTok 0x85 b s.sw) stOk
        ((descSw 0x85 b s.sw).modCtx x fun c => { c with stepAck := b.f 12 4 }))))) ∧
    (∀ es, headerGood 0x86 b s → b.only [lctx, by_ 10 1, bi_ 11 0 1, by_ 12 2 &&& ~~~ bi_ 13 4 4, by_ 16 4, by_ 24 8, by_ 40 4] = true →
      (b.f 10 1 = 0 → c.closing = false → c.openedFrom 0 = false → b.flag 11 0 = false → SMap.find? (b.f 12 2) s.sw.rcv.anchors = some es →
        (anchorsAsOf es (b.f 16 4) = none → endsWith (.anchorCopy b) s 0x86 b stGone id) ∧
        (∀ m, anchorsAsOf es (b.f 16 4) = some m → becomes (.anchorCopy b) s (raiseCtx x 0x0660 (le 1 0 ++ le 4 (b.f 16 4) ++ le 4 m.length) (complete (descTok 0x86 b s.sw) stOk
          ((descSw 0x86 b s.sw).modCtx x fun c => { c with anchors := m.foldl (fun a e => a.set e.1 e.2) c.anchors }))))) ∧
      (b.f 10 1 = 2 → (b.f 40 4 < (anchorRun c.anchors).length → endsWith (.anchorCopy b) s 0x86 b stNoRes id) ∧
        ((anchorRun c.anchors).length ≤ b.f 40 4 → b.hostErr = none → endsWith (.anchorCopy b) s 0x86 b stOk (hostWrite (descTok 0x86 b s.sw) (b.q 24) (anchorRun c.anchors))))))

/-- GRAFT_TEST on an active partner port, with no test running, enters SELF_TEST with event 0x0640; else BAD_DESCRIPTOR, or DENIED
while one runs. GRAFT_SELF_TEST_DONE fails with 0x0641 naming the first port of the map that is out of service, or enters
LINK_TEST with the counters of each port; GRAFT_LINK_TEST_DONE fails with the first port that does not pass R314, or enters
VECTORS and sends VSTART to the partner; GRAFT_VECTORS_DONE sends the digest: with the partner's equal the test is TESTED and
GRAFT_TEST completes OK, with another FAILED with MISMATCH; GRAFT_VECTOR_TIMEOUT without a partner's digest is FAILED with
TIMEOUT. In another state none of them changes anything. GRAFT_COPY of the anchors of an ACTIVE context from a switch of its
canopy is COPYING, with event 0x0640 and a COPY_REQ; DENIED before TESTED. GRAFT_CELL_RECEIVE: VSTART of a VSEED not yet run
answers the digest, VDIGEST is kept in VECTORS; a COPY_REQ of the anchors is owed to its sender; an ANCHORS cell in turn is
kept; STALE makes the shard EMPTY and asks for it again; cells from members do nothing more. GRAFT_COPY_TIMEOUT ends a copy in
TESTED: GRAFT_COPY completes TIMEOUT and completed images stay. (R313, R314, R315, R316, R317) -/
def Obligations.GraftRule : Prop :=
  (∀ (s : State) (b : Sub), headerGood 0x83 b s → b.only [by_ 8 3, by_ 16 16] = true →
    (s.sw.portActive (b.f 8 2) = false → endsWith (.graftTest b) s 0x83 b stBad id) ∧
    (s.sw.portActive (b.f 8 2) = true → s.sw.rcv.graft.running = true → endsWith (.graftTest b) s 0x83 b stDenied id) ∧
    (s.sw.portActive (b.f 8 2) = true → s.sw.rcv.graft.running = false → b.hostErr = none →
      becomes (.graftTest b) s (raiseSys 0x0640 (le 1 2) ((descSw 0x83 b s.sw).modRec fun r => { r with graft := {
        st := .selfTest, partner := b.f 8 2, linkMs := if b.f 10 1 = 0 then 100 else b.f 10 1, vseed := b.q 16,
        mask := BitVec.ofNat 512 (ofLe (b.host.take 64)), ran := r.graft.ran, tok := some (descTok 0x83 b s.sw) } })))) ∧
  (∀ (s : State) (g : Graft) (failed : Nat → Nat → Nat → Sw → Sw), g = s.sw.rcv.graft →
    (∀ step unit status w, failed step unit status w = completeOpt g.tok status (raiseSys 0x0641 (le 1 step ++ le 2 unit)
      (raiseSys 0x0640 (le 1 8) (w.modRec fun r => { r with graft := { r.graft with st := .failed, tok := none } })))) →
    (g.st ≠ .selfTest → stays .graftSelfTestDone s) ∧ (g.st ≠ .linkTest → stays .graftLinkTestDone s) ∧
    (g.st ≠ .vectors → stays .graftVectorsDone s ∧ stays .graftVectorTimeout s) ∧
    (∀ n, g.st = .selfTest → (bitsOf g.mask).find? s.sw.portOut = some n → becomes .graftSelfTestDone s (failed 2 n stLost s.sw)) ∧
    (g.st = .selfTest → (bitsOf g.mask).all (fun n => !s.sw.portOut n) = true → (List.range 24).all (fun k => !s.sw.stackPopulated k || (s.sw.stack k).state != .failed) = true →
      s.sw.logicalTiles.all s.sw.inService = true → becomes .graftSelfTestDone s (raiseSys 0x0640 (le 1 3) (s.sw.modRec fun r => { r with graft := { g with
        st := .linkTest, base := (bitsOf g.mask).map fun n => (n, linkBase (s.sw.port n).cnt) } }))) ∧
    (∀ n k rest, g.st = .linkTest → g.base = (n, k) :: rest → linkPass s.sw n k = false → becomes .graftLinkTestDone s (failed 3 n stLost s.sw)) ∧
    (g.st = .linkTest → g.base.all (fun e => linkPass s.sw e.1 e.2) = true → becomes .graftLinkTestDone s
      (sendGraftOn g.partner [graftCell 0 0 0xFFFF 0 (le 8 g.vseed.toNat)] (raiseSys 0x0640 (le 1 4) (s.sw.modRec fun r => { r with graft := { g with st := .vectors } })))) ∧
    (∀ d w, g.st = .vectors → g.own = none → d = vectorDigest g.vseed →
      w = sendGraftOn g.partner [graftCell 0 1 0xFFFF 0 (le 8 d.toNat)] (s.sw.modRec fun r => { r with graft := { g with own := some d } }) →
      (g.peer = none → becomes .graftVectorsDone s w) ∧
      (g.peer = some d → becomes .graftVectorsDone s (completeOpt g.tok stOk (raiseSys 0x0640 (le 1 5) (w.modRec fun r => { r with graft := { r.graft with st := .tested, tok := none } })))) ∧
      (∀ e, g.peer = some e → e ≠ d → becomes .graftVectorsDone s (failed 4 g.partner stMismatch w))) ∧
    (g.st = .vectors → g.peer = none → becomes .graftVectorTimeout s (failed 4 g.partner stTimeout s.sw))) ∧
  (∀ (s : State) (b : Sub) (x : Nat) (c : Ctx), headerGood 0x84 b s → x = b.ctx → s.sw.ctx? x = some c → c.closing = false → b.only [lctx, by_ 10 2, bi_ 12 0 2, by_ 16 4] = true →
    (c.leadsToSwitch (b.f 10 2) = false → endsWith (.graftCopy b) s 0x84 b stBad id) ∧
    (c.leadsToSwitch (b.f 10 2) = true → b.bits 12 0 2 = 1 →
      (s.sw.rcv.graft.st ≠ .tested → endsWith (.graftCopy b) s 0x84 b stDenied id) ∧
      (∀ w, s.sw.rcv.graft.st = .tested → c.graft.st = .idle → c.graft.src ≠ b.f 10 2 →
        w = raiseCtx x 0x0640 (le 1 6) ((descSw 0x84 b s.sw).modGraft x fun g => { g with
          st := .copying, src := b.f 10 2, scope := 1, firstOp := b.f 16 4, anchorBytes := []
          anchorsDone := false, images := [], stale := 0, tok := some (descTok 0x84 b s.sw), last := s.sw.now }) →
        becomes (.graftCopy b) s (settle x (rejoin x (sendGraft x (b.f 10 2) [graftCell x 2 0xFFFF 0 (le 4 (b.f 16 4) ++ le 4 0)] (w.modGraft x fun g => { g with last := w.now }))))))) ∧
  (∀ (s : State) (p v : Nat) (c m : Cell) (w : Sw), ingress p c s.sw = (some m, w) → isCtrl c ctGraft → c.f 0 1 ≤ 1 → v = (m.q 8).toNat →
    (w.isSwitch p = false → becomes (.graftCellReceive p c) s w) ∧
    (w.isSwitch p = true → m.f 0 1 = 0 → (SMap.find? p w.rcv.graft.ran = some (m.q 8) → becomes (.graftCellReceive p c) s w) ∧
      (SMap.find? p w.rcv.graft.ran = none → becomes (.graftCellReceive p c) s (sendGraftOn p [graftCell 0 1 0xFFFF 0 (le 8 (vectorDigest (m.q 8)).toNat)]
        (w.modRec fun r => { r with graft := { r.graft with ran := r.graft.ran.set p (m.q 8) } })))) ∧
    (w.isSwitch p = true → m.f 0 1 = 1 → (w.rcv.graft.st ≠ .vectors ∨ w.rcv.graft.partner ≠ p → becomes (.graftCellReceive p c) s w) ∧
      (w.rcv.graft.st = .vectors → w.rcv.graft.partner = p → w.rcv.graft.own = none →
        becomes (.graftCellReceive p c) s (w.modRec fun r => { r with graft := { r.graft with peer := some (m.q 8) } })))) ∧
  (∀ (s : State) (p x q : Nat) (c m : Cell) (w : Sw) (k : Ctx), s.sw.arrival p c = some (x, q, m, w, k) → 1 < c.f 0 1 →
    (¬ isCtrl m ctGraft ∨ k.leadsToSwitch q = false → becomes (.graftCellReceive p c) s (settle x (rejoin x w))) ∧
    (isCtrl m ctGraft → k.leadsToSwitch q = true → m.f 0 1 = 2 → m.f 2 2 = 0xFFFF → SMap.find? q k.graft.serving = none →
      becomes (.graftCellReceive p c) s (settle x (rejoin x (w.modGraft x fun g => { g with serving := g.serving.set q (m.f 8 4, true, []) })))) ∧
    (isCtrl m ctGraft → k.leadsToSwitch q = true → m.f 0 1 = 3 → k.graft.src = q → k.graft.st = .copying → k.graft.anchorsDone = false → k.graft.scope % 2 = 1 →
      m.f 4 4 = (k.graft.anchorBytes.length + 47) / 48 → allZero (((m.bytes 64).drop 8).take 48) = false → becomes (.graftCellReceive p c) s (settle x (rejoin x
        ((w.modGraft x fun g => { g with last := w.now }).modGraft x fun g => { g with anchorBytes := g.anchorBytes ++ ((m.bytes 64).drop 8).take 48 })))) ∧
    (∀ u, isCtrl m ctGraft → k.leadsToSwitch q = true → m.f 0 1 = 7 → k.graft.src = q → k.graft.st = .copying → k.graft.images.mem (m.f 2 2) = true →
      u = (clearShard x (m.f 2 2) (w.modGraft x fun g => { g with last := w.now })) → becomes (.graftCellReceive p c) s (settle x (rejoin x
        (askCopy x (m.f 2 2) 1 (u.modGraft x fun g => { g with st := .copying, stale := g.stale + 1, images := g.images.erase (m.f 2 2) })))))) ∧
  (∀ (s : State) (x : Nat) (c : Ctx), s.sw.ctx? x = some c → (c.graft.st ≠ .copying → stays (.graftCopyTimeout x) s) ∧
    (c.graft.st = .copying → becomes (.graftCopyTimeout x) s (raiseCtx x 0x0640 (le 1 5) (completeOpt c.graft.tok stTimeout
      (s.sw.modGraft x fun g => { g with st := .idle, tok := none, anchorBytes := [], images := g.images.filter fun e => e.2.done })))))

/-- ROUTE_WRITE to tables 0 to 3 of a version that is not STANDBY ends DENIED, of a table above 4 or of table 4 with version 1
BAD_DESCRIPTOR, of a length that is not the count times the entry size BAD_DESCRIPTOR. Of MCAST, TRANSIT or EDGE entries whose
form is good it stores or removes them in order, the table first emptied if asked, and changes no other version; of entries of
which one has a bad form or that break R336 it stores nothing and ends BAD_DESCRIPTOR, of more than the table holds NO_RESOURCE.
RANK entries that keep R336 are stored by job and range. Of PORT_RANK entries for ports not UP it sets the ranks and tells every
UP switch port by ANNOUNCE; for a port that is UP it ends DENIED. ROUTE_READ writes the valid entries of the table to the host,
into too short a buffer ends NO_RESOURCE. JOB_ROUTE sets or clears adaptive routing of its job and of no other. FABRIC_CONFIG
with each field in its range, its spill memory fitting, sets them all; a field outside its range, or a spill that is no multiple
of 16 MiB, ends BAD_DESCRIPTOR; one that does not fit, or any with no stack in service, NO_RESOURCE. (R333, R334, R335, R336, R343, R362, R363) -/
def Obligations.RouteRule : Prop :=
  (∀ (s : State) (b : Sub) (v table n : Nat) (es : List (List Byte)) (base : RouteVer), headerGood 0x60 b s → v = b.bits 8 0 1 → table = b.f 9 1 → n = b.f 12 4 →
    es = chunks (routeBytes table) (b.host.take (n * routeBytes table)) → base = (if b.flag 10 0 then (s.sw.ver v).clear table else s.sw.ver v) →
    b.only [bi_ 8 0 1, by_ 9 1, bi_ 10 0 1, by_ 12 4, by_ 24 8, by_ 40 4] = true →
    (4 < table ∨ table = 4 ∧ v ≠ 0 → endsWith (.routeWrite b) s 0x60 b stBad id) ∧
    (table < 4 → (s.sw.ver v).st ≠ .standby → endsWith (.routeWrite b) s 0x60 b stDenied id) ∧
    (table < 4 → (s.sw.ver v).st = .standby → b.f 40 4 ≠ n * routeBytes table → endsWith (.routeWrite b) s 0x60 b stBad id) ∧
    (b.f 40 4 = n * routeBytes table → b.hostErr = none → es.length = n →
      (table < 4 → (s.sw.ver v).st = .standby →
        (es.all (routeForm table) = false ∨ base.written table es = none → endsWith (.routeWrite b) s 0x60 b stBad id) ∧
        (∀ r, es.all (routeForm table) = true → base.written table es = some r →
          (routeCapacity table < r.count table → endsWith (.routeWrite b) s 0x60 b stNoRes id) ∧
          (r.count table ≤ routeCapacity table → endsWith (.routeWrite b) s 0x60 b stOk fun w => w.modVer v fun _ => r)) ∧
        (∀ r, table ≠ 0 → es.all (routeForm table) = true → r = es.foldl (RouteVer.write table) base → pathsGood r = true → r.count table ≤ routeCapacity table →
          endsWith (.routeWrite b) s 0x60 b stOk fun w => w.modVer v fun _ => r) ∧
        (∀ l, table = 0 → es.all (routeForm 0) = true → l = es.foldl writeRank base.rank.vals → ranksGood l = true →
          l.length ≤ 16384 → (∀ m, m = l.foldl (fun m r => SMap.set (r.job * 65536 + r.first) r m) [] → m.length ≤ 16384 →
            endsWith (.routeWrite b) s 0x60 b stOk fun w => w.modVer v fun _ => { base with rank := m }))) ∧
      (table = 4 → v = 0 → (es.any (fun e => decide (bytesAt e 0 2 < 512) && s.sw.up (bytesAt e 0 2)) = true → endsWith (.routeWrite b) s 0x60 b stDenied id) ∧
        (es.all (routeForm 4) = true → (∀ e ∈ es, s.sw.up (bytesAt e 0 2) = false) → b.flag 10 0 = false → endsWith (.routeWrite b) s 0x60 b stOk fun w => announceAll (w.modFab fun f => { f with
          ranks := es.foldl (fun m e => SMap.set (bytesAt e 0 2) { out := bytesAt e 2 2, inn := bytesAt e 4 2, dlOut := (byteAt e 6).testBit 0, dlIn := (byteAt e 6).testBit 1 } m) f.ranks }))))) ∧
  (∀ (s : State) (b : Sub) (bytes : List Byte), headerGood 0x63 b s → b.only [bi_ 8 0 1, by_ 9 1, by_ 24 8, by_ 40 4] = true → bytes = routeTable s.sw (b.bits 8 0 1) (b.f 9 1) →
    (4 < b.f 9 1 → endsWith (.routeRead b) s 0x63 b stBad id) ∧
    (b.f 9 1 < 4 ∨ b.f 9 1 = 4 ∧ b.bits 8 0 1 = 0 → (b.f 40 4 < bytes.length → endsWith (.routeRead b) s 0x63 b stNoRes id) ∧
      (bytes.length ≤ b.f 40 4 → b.hostErr = none → endsWith (.routeRead b) s 0x63 b stOk (hostWrite (descTok 0x63 b s.sw) (b.q 24) bytes)))) ∧
  (∀ (s : State) (b : Sub), headerGood 0x64 b s → b.only [by_ 8 1, bi_ 9 0 1] = true →
    runsTo (.jobRoute b) s (.fab :: descParts) fun t => t.fab = { s.sw.fab with adaptive := t.fab.adaptive } ∧
      t.fab.adaptive.getLsbD (b.f 8 1) = b.flag 9 0 ∧ ∀ j, j ≠ b.f 8 1 → t.fab.adaptive.getLsbD j = s.sw.fab.adaptive.getLsbD j) ∧
  (∀ (s : State) (b : Sub), headerGood 0x65 b s → b.only [by_ 8 11, bi_ 19 0 1, by_ 20 4] = true →
    (b.f 8 2 < 16 ∨ 4096 < b.f 8 2 ∨ b.f 10 2 < 64 ∨ b.f 12 2 < 1 ∨ 1000 < b.f 12 2 ∨ b.f 14 2 < 10 ∨ b.f 16 2 < 1 ∨ b.f 18 1 < 1 ∨ b.f 20 4 % 16 ≠ 0 ∨ 65536 < b.f 20 4 →
      endsWith (.fabricConfig b) s 0x65 b stBad id) ∧
    (16 ≤ b.f 8 2 → b.f 8 2 ≤ 4096 → 64 ≤ b.f 10 2 → 1 ≤ b.f 12 2 → b.f 12 2 ≤ 1000 → 10 ≤ b.f 14 2 → 1 ≤ b.f 16 2 → 1 ≤ b.f 18 1 → b.f 20 4 % 16 = 0 → b.f 20 4 ≤ 65536 →
      ((b.f 20 4 ≠ 0 ∧ ∀ g < 4, s.sw.stacksIn g = 0) ∨ (∃ g < 4, s.sw.classFree 6 g + s.sw.shareOn s.sw.fab.spillMib g < s.sw.shareOn (b.f 20 4) g) → endsWith (.fabricConfig b) s 0x65 b stNoRes id) ∧
      ((b.f 20 4 = 0 ∨ ∃ g < 4, s.sw.stacksIn g ≠ 0) → (∀ g < 4, s.sw.shareOn (b.f 20 4) g ≤ s.sw.classFree 6 g + s.sw.shareOn s.sw.fab.spillMib g) →
        endsWith (.fabricConfig b) s 0x65 b stOk fun w => poolWarnAll <| w.modFab fun f => { f with
        ceThresh := b.f 8 2, echoGap := b.f 10 2, raiseUs := b.f 12 2, fwdStallUs := b.f 14 2, drainUs := b.f 16 2, beQuantum := b.f 18 1, paceAll := b.flag 19 0, spillMib := b.f 20 4 })))

/-- ROUTE_ARM of a STANDBY version beside an ACTIVE one, with GEN above the last generation, makes it ARMED with its trigger mask
and tells every UP switch port; with a GEN not above it BAD_DESCRIPTOR; to disarm a version that is not ARMED DENIED; disarming
an ARMED one makes it STANDBY, a flip that waits completes STALE. EPOCH_FLIP of the ARMED GEN at an instant not in the future
makes that version ACTIVE and the epoch of every cell sent from then, the former DRAINING, adopts GEN with event 0x0720, sends
FLIP unless forbidden, and completes; at a later instant it waits; of a GEN adopted before it completes OK by event 0x0720 with
the already-adopted flag (the model's reading of R351, log 20); of one neither ARMED nor adopted STALE; an instant beyond 2^36
ns ahead BAD_DESCRIPTOR. FLIP_TIMER takes the flip that waits, the GTC standing at its instant at least, else changes nothing.
An EPOCH cell of a member port, or another cell, does nothing more. EPOCH_DRAINED of a DRAINING version of which no cell is held
makes it STANDBY with event 0x0721; else nothing. (R345, R346, R348, R350, R351) -/
def Obligations.EpochRule : Prop :=
  (∀ (s : State) (b : Sub) (v gen : Nat), headerGood 0x61 b s → v = b.bits 8 0 1 → gen = b.f 12 4 → b.only [bi_ 8 0 1, bi_ 9 0 1, by_ 12 4, by_ 24 8] = true →
    (b.flag 9 0 = false → gen ≤ s.sw.fab.gen → endsWith (.routeArm b) s 0x61 b stBad id) ∧
    (b.flag 9 0 = false → s.sw.fab.gen < gen → ((s.sw.ver v).st ≠ .standby ∨ (s.sw.ver (1 - v)).st ≠ .active) → endsWith (.routeArm b) s 0x61 b stDenied id) ∧
    (b.flag 9 0 = false → s.sw.fab.gen < gen → (s.sw.ver v).st = .standby → (s.sw.ver (1 - v)).st = .active → b.hostErr = none →
      becomes (.routeArm b) s (announceAll (complete (descTok 0x61 b s.sw) stOk (((descSw 0x61 b s.sw).modVer v fun r => { r with st := .armed }).modFab fun f =>
        { f with armedGen := gen, trigger := if b.f 24 8 = 0 then 0 else BitVec.ofNat 512 (ofLe (b.host.take 64)) })))) ∧
    (b.flag 9 0 = true → (s.sw.ver v).st ≠ .armed → endsWith (.routeArm b) s 0x61 b stDenied id) ∧
    (b.flag 9 0 = true → (s.sw.ver v).st = .armed → becomes (.routeArm b) s (announceAll (complete (descTok 0x61 b s.sw) stOk (completeOpt (s.sw.fab.flip.bind fun w => w.tok) stStale
      (((descSw 0x61 b s.sw).modVer v fun r => { r with st := .standby }).modFab fun f => { f with armedGen := 0, trigger := 0, flip := none })))))) ∧
  (∀ (s : State) (b : Sub) (gen : Nat), headerGood 0x62 b s → gen = b.f 12 4 → b.only [bi_ 8 0 1, bi_ 9 0 1, by_ 12 12] = true →
    (b.q 16 ≠ 0 → gtcBeyond (b.q 16) s.sw.gtc (2 ^ 36) = true → endsWith (.epochFlip b) s 0x62 b stBad id) ∧
    (b.q 16 = 0 ∨ gtcBeyond (b.q 16) s.sw.gtc (2 ^ 36) = false →
      (s.sw.armed = none ∨ s.sw.fab.armedGen ≠ gen →
        (s.sw.fab.adopted.mem gen = false → endsWith (.epochFlip b) s 0x62 b stStale id) ∧
        (∀ v cause lostId src, SMap.find? gen s.sw.fab.adopted = some (v, cause, lostId, src) → becomes (.epochFlip b) s
          (completeE (descTok 0x62 b s.sw) 0x0720 stOk (flipContent (1 - v) v gen cause lostId src true) (descSw 0x62 b s.sw)))) ∧
      (∀ v, s.sw.armed = some v → s.sw.fab.armedGen = gen → b.bits 8 0 1 ≠ v → endsWith (.epochFlip b) s 0x62 b stBad id) ∧
      (∀ v f, s.sw.armed = some v → s.sw.fab.armedGen = gen → b.bits 8 0 1 = v → s.sw.fab.flip = none →
        f = ({ gen := gen, at_ := b.q 16, noprop := b.flag 9 0, loss := false, lostId := 0, src := 0xFFFF, tok := some (descTok 0x62 b s.sw) } : PendingFlip) →
        (s.sw.flipDue (b.q 16) = false → becomes (.epochFlip b) s ((descSw 0x62 b s.sw).modFab fun r => { r with flip := some f })) ∧
        (s.sw.flipDue (b.q 16) = true → becomes (.epochFlip b) s (flip 0xFFFF 0 0 (b.q 16) (b.flag 9 0) ((descSw 0x62 b s.sw).modFab fun r => { r with flip := some f })))))) ∧
  (∀ (w : Sw) (v src cause : Nat) (lostId at_ : Quad), w.armed = some v → v < 2 → (w.ver (1 - v)).st = .active → ∃ u : Sw,
    Sw.keeps [.fab] w u ∧ u.fab.epoch = v ∧ u.fab.gen = w.fab.armedGen ∧ u.fab.armedGen = 0 ∧ u.fab.trigger = 0 ∧ u.fab.flip = none ∧
    u.fab.adopted = w.fab.adopted.set w.fab.armedGen (v, cause, lostId, src) ∧ u.ver v = { w.ver v with st := .active } ∧ u.ver (1 - v) = { w.ver (1 - v) with st := .draining } ∧
    ∀ noprop, flip src cause lostId at_ noprop w = each w.ctxs.keys (flipCtx (cause == 1)) ((match w.fab.flip with | some f => completeOpt f.tok stOk | none => id)
      (announceAll ((if noprop then id else fun u' => each u'.upSwitches (fun n w' =>
          sendCtrl n (epochCell w.fab.armedGen 0 cause v at_ lostId (w'.fab.ranks.getD n {}).out (b2n (w'.fab.ranks.getD n {}).dlOut)) w') u')
        (raiseSys 0x0720 (flipContent w.fab.epoch v w.fab.armedGen cause lostId src false) u))))) ∧
  (∀ (s : State), (s.sw.fab.flip = none → stays .flipTimer s) ∧
    (∀ f, s.sw.fab.flip = some f → s.sw.flipDue f.at_ = true → becomes .flipTimer s (flip f.src (b2n f.loss) f.lostId f.at_ f.noprop s.sw)) ∧
    (∀ f, s.sw.fab.flip = some f → s.sw.flipDue f.at_ = false → becomes .flipTimer s (flip f.src (b2n f.loss) f.lostId f.at_ f.noprop
      (s.sw.modTime fun u => { u with gtc := f.at_, frac := 0, elapsed := u.elapsed + (f.at_ - u.gtc).toNat })))) ∧
  (∀ (s : State) (p : Nat) (c m : Cell) (w : Sw), ingress p c s.sw = (some m, w) → w.isSwitch p = false ∨ ¬ isCtrl m ctEpoch → becomes (.epochCellReceive p c) s w) ∧
  (∀ (s : State) (v : Nat), (1 < v ∨ (s.sw.ver v).st ≠ .draining ∨ s.sw.holdsEpoch v = true → stays (.epochDrained v) s) ∧
    (v ≤ 1 → (s.sw.ver v).st = .draining → s.sw.holdsEpoch v = false →
      becomes (.epochDrained v) s (announceAll (raiseSys 0x0721 (le 4 v) (s.sw.modVer v fun r => { r with st := .standby })))))

/-- Of the EPOCH cells that a neighbour switch sends: a FLIP whose GEN is at or below ROUTE_GEN changes nothing more; a FLIP whose
GEN equals the ARMED GEN flips the switch at its instant or at once, the earlier of two instants standing; any other FLIP raises
event 0x0722 and does nothing else; an ANNOUNCE is compared with the port's ranks, a difference raises 0x0725, and does nothing
else. (R347) -/
def Obligations.EpochCellRule : Prop :=
  ∀ (s : State) (p : Nat) (c m : Cell) (w : Sw) (e : PortRank), ingress p c s.sw = (some m, w) → e = w.fab.ranks.getD p {} → w.isSwitch p = true → isCtrl m ctEpoch →
    (m.f 4 1 = 0 →
      (m.f 0 4 ≤ w.fab.gen → becomes (.epochCellReceive p c) s w) ∧
      (w.fab.gen < m.f 0 4 → w.armed = none ∨ w.fab.armedGen ≠ m.f 0 4 →
        becomes (.epochCellReceive p c) s (raiseSys 0x0722 (le 2 p ++ le 4 (m.f 0 4) ++ le 4 (if w.armed.isSome then w.fab.armedGen else 0)) w)) ∧
      (∀ v f, w.fab.gen < m.f 0 4 → w.armed = some v → w.fab.armedGen = m.f 0 4 →
        (∀ at_ o, f = ({ gen := m.f 0 4, at_ := m.q 8, noprop := false, loss := m.f 5 1 == 1, lostId := m.q 16, src := p, tok := none } : PendingFlip) ∧ w.fab.flip = none ∧ at_ = m.q 8 ∨
            w.fab.flip = some o ∧ at_ = f.at_ ∧ (m.q 8 ≠ 0 ∧ gtcReached (m.q 8) o.at_ = true ∧ f = o ∨ (m.q 8 = 0 ∨ gtcReached (m.q 8) o.at_ = false) ∧
              f = { gen := m.f 0 4, at_ := m.q 8, noprop := false, loss := m.f 5 1 == 1, lostId := m.q 16, src := p, tok := o.tok }) →
          (at_ = 0 ∨ gtcReached w.gtc at_ = true → becomes (.epochCellReceive p c) s (flip f.src (b2n f.loss) f.lostId at_ f.noprop (w.modFab fun r => { r with flip := some f }))) ∧
          (at_ ≠ 0 → gtcReached w.gtc at_ = false → becomes (.epochCellReceive p c) s (w.modFab fun r => { r with flip := some f }))))) ∧
    (m.f 4 1 = 1 →
      (e.inn = m.f 24 2 ∧ b2n e.dlIn = m.f 26 1 % 2 → becomes (.epochCellReceive p c) s w) ∧
      (e.inn ≠ m.f 24 2 ∨ b2n e.dlIn ≠ m.f 26 1 % 2 → becomes (.epochCellReceive p c) s
        (raiseSys 0x0725 (le 2 p ++ le 2 e.inn ++ le 1 (b2n e.dlIn) ++ le 2 (m.f 24 2) ++ le 1 (m.f 26 1 % 2)) w)))

/-- POOL_WAIT_SERVED: the first request that waits at a class and place takes its buffers and waits no more, one that still finds
none waits on; without one nothing changes. SRAM_SCRUB of a tile that is not active changes nothing; without an uncorrectable
error it counts the corrected ones, and at 4,096 of them within QUAR_WINDOW raises 0x0801 and quarantines the tile; an
uncorrectable one in a slot place counts and raises 0x0800, and the grid cell is collected again; a second within the window
quarantines the tile. An address decodes to a place of its grove, and no two offsets of a grove to one place. PATROL_SCRUB of a
stack not in service changes nothing; of one in service it counts corrected errors, an uncorrectable one also with its address
and event 0x0802, and answers as the region says: one bad anchor copy event 0x080C, both 0x080D and no use of the entry from the
next operation on, a digest set gone, a retained record not kept, a commit record gone, an operation of a completion map failed.
CXL_ENABLE enables root ports 0 and 1 and no other. CXL_LINK_UP of an enabled root port that is down sets its link, width, speed
and at most 262,143 extents, event 0x0810; CXL_LINK_TIMEOUT raises 0x0811 while the link is down; CXL_LINK_DOWN clears link,
width and speed, counts and holds, event 0x0811; CXL_HOLD_TIMEOUT ends the hold. In other states they change nothing. (R366, R373, R377, R378, R387, R388, R389, R390, R392, R395, R398) -/
def Obligations.MemoryRule : Prop :=
  (∀ (s : State) (cls place : Nat), (∀ e ∈ s.sw.pool.waits, e.cls ≠ cls ∨ e.place ≠ place) → stays (.poolWaitServed cls place) s) ∧
  (∀ (s : State) (cls place : Nat) (e : PoolWait) (rest : List PoolWait), s.sw.pool.waits = e :: rest → e.cls = cls → e.place = place →
    (poolTake cls place e.count e.job e.owner s.sw = none → stays (.poolWaitServed cls place) s) ∧
    (∀ x w, poolTake cls place e.count e.job e.owner s.sw = some w → e.owner = .store x → becomes (.poolWaitServed cls place) s (w.modPool fun p => { p with waits := rest })) ∧
    (∀ x o w, poolTake cls place e.count e.job e.owner s.sw = some w → e.owner = .operation x o ∨ e.owner = .context x →
      becomes (.poolWaitServed cls place) s (settle x (w.modPool fun p => { p with waits := rest })))) ∧
  (∀ (s : State) (p region word n : Nat), ((s.sw.tile p).role ≠ .active → ∀ ue, stays (.sramScrub p region word n ue) s) ∧
    (∀ ts w, (s.sw.tile p).role = .active → ts = (s.sw.tile p).ceTimes.filter (fun e => s.sw.inWindow e.1) ++ (if n = 0 then [] else [(s.sw.now, n)]) →
      w = (s.sw.modTile p fun t => { t with ce := t.ce + BitVec.ofNat 32 n, ceTimes := ts, ueTimes := t.ueTimes.filter s.sw.inWindow }) →
      ((w.tile p).ueTimes.length < 2 → (ts.map Prod.snd).sum < 4096 → becomes (.sramScrub p region word n false) s w) ∧
      (4096 ≤ (ts.map Prod.snd).sum → becomes (.sramScrub p region word n false) s
        (quarantine p 3 (raiseSys 0x0801 (le 2 p ++ le 4 (w.tile p).ueTimes.length ++ le 4 (ts.map Prod.snd).sum) w)))) ∧
    (∀ w q x key h, (s.sw.tile p).role = .active → w = (s.sw.modTile p fun t => { t with
        ceTimes := t.ceTimes.filter (fun e => s.sw.inWindow e.1), ueTimes := t.ueTimes.filter s.sw.inWindow ++ [s.sw.now], ue := t.ue + 1, lastUe := BitVec.ofNat 32 (word % 2 ^ 18) }) →
      (w.tile p).logical = some q → (w.sramSlots q)[word / 40]? = some (x, key) → ((w.ctx? x).bind fun c => c.slot? (key / 2 ^ 24) (key % 2 ^ 24)) = some h → h.sst ≠ 3 →
      ∀ u, u = (settle x (trigger x 1 p none (fun _ o _ => if o = key / 2 ^ 24 then addSet 0 (key % 2 ^ 24) else 0)
        ((w.limited 0x0800 p ms (raiseSys 0x0800 (le 2 p ++ le 1 1 ++ le 8 word))).modCtx x fun c => { c with slots := c.slots.erase (slotKey (key / 2 ^ 24) (key % 2 ^ 24)) }))) →
        ((u.tile p).ueTimes.length < 2 → ((u.tile p).ceTimes.map Prod.snd).sum < 4096 → becomes (.sramScrub p 0 word 0 true) s u) ∧
        ((u.tile p).role = .active → 2 ≤ (u.tile p).ueTimes.length → becomes (.sramScrub p 0 word 0 true) s
          (quarantine p 3 (raiseSys 0x0801 (le 2 p ++ le 4 (u.tile p).ueTimes.length ++ le 4 ((u.tile p).ceTimes.map Prod.snd).sum) u))))) ∧
  (∀ (s : State) (i k ta n : Nat) (w : Sw), ((s.sw.stack i).inServ = false → stays (.patrolScrub i ta n none) s) ∧
    ((s.sw.stack i).inServ = true → becomes (.patrolScrub i ta n none) s (hourCount i n (s.sw.modStack i fun t => { t with ce := t.ce + BitVec.ofNat 32 n }))) ∧
    (k = s.sw.stackAt i ta → (s.sw.stack k).inServ = false → ∀ r, stays (.patrolScrub i ta n (some r)) s) ∧
    (k = s.sw.stackAt i ta → (s.sw.stack k).inServ = true → w = hourCount k n (s.sw.modStack k fun t => { t with ce := t.ce + BitVec.ofNat 32 n }) →
      (∀ told : Nat → Sw, (∀ r, told r = (w.modStack k fun t => { t with ue := t.ue + 1, lastUe := ta % 2 ^ 42 }).limited 0x0802 k ms (raiseSys 0x0802 (le 2 k ++ le 8 ta ++ le 1 r))) →
        becomes (.patrolScrub i ta n (some .unused)) s (told 0) ∧
        (∀ x g, becomes (.patrolScrub i ta n (some (.anchorTable x g false))) s (raiseSys 0x080C (le 1 1 ++ le 1 (k / 6)) (told 4)) ∧
          becomes (.patrolScrub i ta n (some (.anchorTable x g true))) s (settle x (raiseCtx x 0x080D (le 1 1 ++ le 2 x) ((told 5).modCtx x fun c => { c with anchorLost := c.anchorLost.set g c.nextOp })))) ∧
        (∀ q, becomes (.patrolScrub i ta n (some (.setupImage q false))) s (raiseSys 0x080C (le 1 2 ++ le 1 (k / 6)) (told 4)) ∧
          becomes (.patrolScrub i ta n (some (.setupImage q true))) s (raiseSys 0x080D (le 1 2 ++ le 2 q) (told 6))) ∧
        (∀ x o, becomes (.patrolScrub i ta n (some (.digestSet x o))) s ((told 7).modCtx x fun c => { c with digests := c.digests.erase o })) ∧
        (∀ x o r, (told 8).op? x o = some r → r.isOpen = true → becomes (.patrolScrub i ta n (some (.completionMap x o))) s (settle x (failOp x o stLost true (told 8)))) ∧
        (∀ x o g, becomes (.patrolScrub i ta n (some (.retention x o g))) s ((told 9).modOp x o fun r => { r with retained := r.retained.adjust g fun e => { e with kept := false } })) ∧
        (∀ x h, becomes (.patrolScrub i ta n (some (.commitRecord x h 0))) s ((told 12).modShard x h fun e => { e with recs := (none, e.recs.2) })) ∧
        (∀ x u h, becomes (.patrolScrub i ta n (some (.store x u h))) s (abandonShard x u h k ta (told 11)))))) ∧
  (∀ (w : Sw) (ta : Nat) (a : TierAddr), w.decodeTa ta = some a → a.grove = ta / 2 ^ 40 ∧ a.grove < 4 ∧ ta % 2 ^ 40 < w.groveMib a.grove * 2 ^ 20 ∧ w.stackAt 24 ta = a.stack) ∧
  (∀ (g c : Nat) (ks : List Nat) (chans : Nat → List Nat) (o o' : Nat), ks ≠ [] → ks.Nodup → 0 < c → (∀ k, (chans k).Nodup ∧ c ≤ (chans k).length) →
    decodeOffset g ks chans c o = decodeOffset g ks chans c o' → o = o') ∧
  (∀ (s : State) (p : Nat), (p < 2 → becomes (.cxlEnable p) s (s.sw.modRoot p fun r => { r with enable := true })) ∧
    (2 ≤ p → stays (.cxlEnable p) s ∧ (∀ a b c, stays (.cxlLinkUp p a b c) s) ∧ (∀ c, stays (.cxlLinkTimeout p c) s ∧ stays (.cxlLinkDown p c) s) ∧ stays (.cxlHoldTimeout p) s) ∧
    ((s.sw.root p).enable = false ∨ (s.sw.root p).linkUp = true → (∀ a b c, stays (.cxlLinkUp p a b c) s) ∧ ∀ c, stays (.cxlLinkTimeout p c) s) ∧
    (p < 2 → (s.sw.root p).enable = true → (s.sw.root p).linkUp = false → (∀ c, becomes (.cxlLinkTimeout p c) s (raiseSys 0x0811 (le 2 p ++ le 1 c) s.sw)) ∧
      ∀ a b c, becomes (.cxlLinkUp p a b c) s (raiseSys 0x0810 (le 2 p ++ le 1 (min a 16) ++ le 1 (min b 6) ++ le 4 (min c 262143)) (s.sw.modRoot p fun r => { r with
        linkUp := true, devOk := true, tagsOk := true, holding := false, width := min a 16, speed := min b 6, total := min c 262143 }))) ∧
    ((s.sw.root p).linkUp = false → ∀ c, stays (.cxlLinkDown p c) s) ∧
    (p < 2 → (s.sw.root p).linkUp = true → ∀ c, becomes (.cxlLinkDown p c) s (raiseSys 0x0811 (le 2 p ++ le 1 c) (s.sw.modRoot p fun r => { r with
      linkUp := false, devOk := false, tagsOk := false, width := 0, speed := 0, downs := r.downs + 1, holding := true }))) ∧
    ((s.sw.root p).holding = false → stays (.cxlHoldTimeout p) s) ∧
    (p < 2 → (s.sw.root p).holding = true → s.sw.ctxs = [] → (∀ g < 4, s.sw.migQueues.getD g [] = []) → becomes (.cxlHoldTimeout p) s (s.sw.modRoot p fun r => { r with holding := false })) ∧
    (∀ x k h, p < 2 → (s.sw.root p).holding = true → s.sw.ctxs = [(x, h)] → h.store.any (fun t => t.steps.isEmpty) = true → (∀ g < 3, s.sw.migQueues.getD g [] = []) →
      (s.sw.migQueues.getD 3 []).head? = some (x, k) → (s.sw.shard? x k).any (fun h => h.mig == .copying && h.migUses p) = true →
      becomes (.cxlHoldTimeout p) s (migError 3 p (p * 2 ^ 42) (s.sw.modRoot p fun r => { r with holding := false }))))

/-- NOP completes OK, with a field set BAD_DESCRIPTOR. SIGNAL of an owned flag adds or sets it, which releases the WAITs it
satisfies, and completes with the new value; WAIT completes at once with the value when its condition holds, else its ring
waits; of a flag that is not owned both end DENIED, of an operation above 1 BAD_DESCRIPTOR; while a WAIT of the ring is pending
another does nothing. WAIT_STALL of a job with waiting rings, not yet stalled, raises 0x0120 with waits and edges; else nothing.
JOB_OPEN of a closed job without a port map, its queue assigned to its owner, its flags in no other job's range, opens it, sets
those flags to 0 and raises 0x0110; of a job that is not closed DENIED, of a range beyond 4,096 BAD_DESCRIPTOR. JOB_CLOSE
without contexts, or forced, makes it CLOSING and aborts every operation of its contexts; a job that has contexts and is not
forced, or that is closed or closing, DENIED. TEARDOWN_COMPLETE of a CLOSING job without open operations leaves it CLOSED, its
flags 0, no port bound to it, no kernel or waiting request of it, in any other state it changes nothing. (R404, R405, R406, R407, R408, R428, R429, R430, R431) -/
def Obligations.JobRule : Prop :=
  (∀ (s : State) (b : Sub), headerGood 0 b s → (b.only [] = true → endsWith (.nop b) s 0 b stOk id) ∧ (b.only [] = false → endsWith (.nop b) s 0 b stBad id)) ∧
  (∀ (s : State) (b : Sub) (f : Nat) (u w : Word), headerGood 1 b s → f = b.f 8 2 % 4096 → u = BitVec.ofNat 32 (b.f 12 4) → w = (if b.f 10 1 = 0 then s.sw.flag f + u else u) →
    (s.sw.flagOwned b.func f = false → endsWith (.signal b) s 1 b stDenied id) ∧ (s.sw.flagOwned b.func f = true → 1 < b.f 10 1 → endsWith (.signal b) s 1 b stBad id) ∧
    (s.sw.flagOwned b.func f = true → b.only lflag = true → b.f 10 1 ≤ 1 →
      becomes (.signal b) s (completeR (descTok 1 b s.sw) stOk (BitVec.ofNat 64 w.toNat) (setFlag f w (descSw 1 b s.sw))))) ∧
  (∀ (s : State) (b : Sub), (s.sw.ring b.ring).wait ≠ none → stays (.wait b) s) ∧
  (∀ (s : State) (b : Sub) (f j : Nat), headerGood 2 b s → (s.sw.ring b.ring).wait = none → f = b.f 8 2 % 4096 →
    (s.sw.flagOwned b.func f = false → endsWith (.wait b) s 2 b stDenied id) ∧
    (s.sw.jobOfFlag f = some j → s.sw.owns b.func j = true → b.only lflag = true → b.f 10 1 ≤ 1 →
      (waitHolds (b.f 10 1 == 1) (BitVec.ofNat 32 (b.f 12 4)) (s.sw.flag f) = true →
        becomes (.wait b) s (flagProgress j (completeR (descTok 2 b s.sw) stOk (BitVec.ofNat 64 (s.sw.flag f).toNat) (descSw 2 b s.sw)))) ∧
      (waitHolds (b.f 10 1 == 1) (BitVec.ofNat 32 (b.f 12 4)) (s.sw.flag f) = false →
        becomes (.wait b) s (((descSw 2 b s.sw).modRing b.ring fun r => { r with
          wait := some { flag := f, eq := b.f 10 1 == 1, value := BitVec.ofNat 32 (b.f 12 4), tok := descTok 2 b s.sw }, state := if r.state == .running then .waiting else r.state }).modJob j
            fun k => { k with wdStart := s.sw.now })))) ∧
  (∀ (s : State) (j : Nat) (host : List (Nat × Nat)), (s.sw.waiters j = [] ∨ (s.sw.job j).stalled ≠ none → stays (.waitStall j host) s) ∧
    (∀ ws es, ws = s.sw.waiters j → ws ≠ [] → (s.sw.job j).stalled = none → ws.length ≤ 256 → es = s.sw.stallEdges j host → es.length ≤ 1024 →
      becomes (.waitStall j host) s (raiseJob j 0x0120 (le 2 ws.length ++ le 2 es.length ++ le 1 (b2n (stallCycle ws es)) ++
        (ws.map fun w => le 2 w.1 ++ le 2 w.2.flag ++ le 4 w.2.value.toNat ++ le 4 (s.sw.flag w.2.flag).toNat).flatten ++ (es.map fun e => le 2 e.1 ++ le 2 e.2).flatten)
        (s.sw.modJob j fun k => { k with stalled := some s.sw.now })))) ∧
  (∀ (s : State) (b : Sub) (j func q first n : Nat), headerGood 8 b s → j = b.f 8 1 → func = b.f 10 1 → q = b.f 11 1 → first = b.f 12 2 → n = b.f 14 2 → b.only [by_ 8 1, bi_ 9 0 1, by_ 10 6, by_ 24 8] = true →
    (4096 < first + n ∨ func ≠ 0 ∧ s.sw.vfEnabled func = false → endsWith (.jobOpen b) s 8 b stBad id) ∧
    (first + n ≤ 4096 → func = 0 ∨ s.sw.vfEnabled func = true → b.flag 9 0 = false →
      ((s.sw.job j).state ≠ .closed ∨ s.sw.evqAssigned q func = false → endsWith (.jobOpen b) s 8 b stDenied id) ∧
      ((s.sw.job j).state = .closed → s.sw.evqAssigned q func = true → (∀ k ∈ s.sw.otherJobs j, rangesMeet first n (s.sw.job k).flagFirst (s.sw.job k).flagCount = false) → b.f 24 8 = 0 →
        becomes (.jobOpen b) s (raiseJob j 0x0110 (le 1 j ++ le 1 func ++ le 2 first ++ le 2 n ++ le 1 0) (complete (descTok 8 b s.sw) stOk
          (((descSw 8 b s.sw).modJob j fun k => { k with state := .opened, owner := func, flagFirst := first, flagCount := n, jevq := some q, wdStart := s.sw.now, stalled := none, portMap := 0 }).modHost
            fun h => { h with flags := h.flags.keep fun f => !(decide (first ≤ f) && decide (f < first + n)) })))))) ∧
  (∀ (s : State) (b : Sub) (j : Nat), headerGood 9 b s → j = b.f 8 1 → b.only [by_ 8 1, bi_ 9 0 1] = true →
    ((s.sw.job j).state = .closed ∨ (s.sw.job j).state = .closing ∨ s.sw.ctxsOf j ≠ [] ∧ b.flag 9 0 = false → endsWith (.jobClose b) s 9 b stDenied id) ∧
    ((s.sw.job j).state ≠ .closed → (s.sw.job j).state ≠ .closing → s.sw.ctxsOf j = [] ∨ b.flag 9 0 = true →
      becomes (.jobClose b) s (each (s.sw.ctxsOf j) (fun x w => settle x (abortAll x (w.modCtx x fun c => { c with closing := true })))
        ((descSw 9 b s.sw).modJob j fun k => { k with
          state := .closing, closing := some (descTok 9 b s.sw), torn := ((s.sw.ctxsOf j).length, ((s.sw.ctxsOf j).filter fun x => (s.sw.store? x).isSome).length) })))) ∧
  (∀ (s : State) (j : Nat), ((s.sw.job j).state ≠ .closing ∨ (∃ x ∈ s.sw.ctxsOf j, ∃ c, s.sw.ctx? x = some c ∧ c.anyOpen = true) → stays (.teardownComplete j) s) ∧
    ((s.sw.job j).state = .closing → (∀ x ∈ s.sw.ctxsOf j, ∀ c, s.sw.ctx? x = some c → c.anyOpen = false) → ∃ t, becomes (.teardownComplete j) s t ∧
      t.job j = {} ∧ (∀ f, (s.sw.job j).flagFirst ≤ f → f < (s.sw.job j).flagFirst + (s.sw.job j).flagCount → t.flag f = 0) ∧
      (∀ n k, (t.port n).reg.binding = some k → k.job ≠ j) ∧ (∀ e ∈ t.kernels, e.2.job ≠ j) ∧ ∀ e ∈ t.pool.waits, e.job ≠ some j))

/-- CAPS_READ writes the capability record of its function into a buffer of at least 128 bytes, else ends NO_RESOURCE. HOST_CONFIG
sets the system queue, SYS_VALID, the watchdog, 0 for 10 ms, and the area mask; with SYS_VALID the events held are raised in
order and held no more; a queue that is not the function's ends DENIED. EVQ_ENABLE of a queue whose size is 6 to 16 makes it
active and empty; one that is active, of another function or a VF's with a vector above 31 is left as it is. EVQ_DISABLE of a
queue that no ring or job names makes it inactive. EVQ_DOORBELL of the owner with HEAD between HEAD and TAIL sets it, and with
ARM sends an interrupt at once while records remain or arms the queue; with a HEAD beyond TAIL, to an inactive queue or with a
reserved bit it changes no HEAD. FLR of a function disables its rings, drops what they hold, stops its queues and clears its
vectors, of the PF those of every function, and changes no other function's. HOST_LINK_RESET does it for all, disables VFs and
holds event 0x0A04. (R403, R419, R420, R424, R425, R426, R427, R432, R433; 14 R472, R484) -/
def Obligations.HostRule : Prop :=
  (∀ (s : State) (b : Sub), headerGood 0x0A b s → b.only [by_ 24 8, by_ 40 4] = true → (b.f 40 4 < 128 → endsWith (.capsRead b) s 0x0A b stNoRes id) ∧
    (128 ≤ b.f 40 4 → b.hostErr = none → endsWith (.capsRead b) s 0x0A b stOk (hostWrite (descTok 0x0A b s.sw) (b.q 24) (capsRecord s.sw b.func)))) ∧
  (∀ (s : State) (b : Sub), headerGood 0x0B b s →
    (b.flag 9 0 = true → s.sw.evqAssigned (b.f 8 1) b.func = false → endsWith (.hostConfig b) s 0x0B b stDenied id) ∧
    (∀ f : HostIf → List HeldEvent → HostIf, b.only [by_ 8 1, bi_ 9 0 1, by_ 10 2, bi_ 12 1 7, bi_ 13 0 5] = true → (∀ h held, f h held = ({ h with
        sysEvq := b.f 8 1, sysValid := b.flag 9 0, watchdogMs := if b.f 10 2 = 0 then 10 else b.f 10 2, areaMask := BitVec.ofNat 16 (b.f 12 2), held := held } : HostIf)) →
      (b.flag 9 0 = false → endsWith (.hostConfig b) s 0x0B b stOk fun w => w.modHost fun h => f h h.held) ∧
      (b.flag 9 0 = true → s.sw.evqAssigned (b.f 8 1) b.func = true → becomes (.hostConfig b) s (each s.sw.host.held (fun e => raiseSys e.code e.content)
        (complete (descTok 0x0B b s.sw) stOk ((descSw 0x0B b s.sw).modHost fun h => f h [])))))) ∧
  (∀ (s : State) (func q : Nat), (s.sw.evqReach func q = false → stays (.evqEnable func q) s ∧ stays (.evqDisable func q) s ∧ ∀ v, stays (.evqDoorbell func q v) s) ∧
    (s.sw.evqReach func q = true →
      ((s.sw.evq q).active = true → stays (.evqEnable func q) s) ∧
      ((s.sw.evq q).active = false → s.sw.evqReady q = true → becomes (.evqEnable func q) s
        (s.sw.modEvq q fun e => { e with active := true, head := 0, tail := 0, armed := false, lost := none, res := 0 })) ∧
      ((s.sw.evq q).sizeLog2 < 6 ∨ 16 < (s.sw.evq q).sizeLog2 ∨ (s.sw.evq q).func ≠ 0 ∧ 32 ≤ (s.sw.evq q).vector → s.sw.evqReady q = false) ∧
      ((s.sw.evq q).active = false → s.sw.evqReady q = false → becomes (.evqEnable func q) s (regDiscard func (evqOffset q 8) ((s.sw.evq q).ctrl true) 1 s.sw)) ∧
      (s.sw.evqNamed q = true → becomes (.evqDisable func q) s (regDiscard func (evqOffset q 8) ((s.sw.evq q).ctrl false) 1 s.sw)) ∧
      (s.sw.evqNamed q = false → becomes (.evqDisable func q) s (s.sw.modEvq q fun e => { e with active := false, armed := false, lost := none, res := 0 })))) ∧
  (∀ (s : State) (func q cause : Nat) (v : Word) (e : Evq) (h : BitVec 20), s.sw.evqReach func q = true → e = s.sw.evq q → e.last0103 = none → h = v.setWidth 20 →
    (cause = 1 ∧ e.func ≠ func ∨ e.func = func ∧ (cause = 3 ∧ v.toNat / 2 ^ 20 % 2 ^ 11 ≠ 0 ∨
        v.toNat / 2 ^ 20 % 2 ^ 11 = 0 ∧ (cause = 1 ∧ e.active = false ∨ cause = 0 ∧ e.active = true ∧ (e.tail - e.head).toNat < (h - e.head).toNat)) →
      becomes (.evqDoorbell func q v) s (raiseSys 0x0103 (le 2 q ++ le 4 v.toNat ++ le 1 cause) (s.sw.modEvq q fun e => { e with last0103 := some s.sw.now }))) ∧
    (e.func = func → v.toNat / 2 ^ 20 % 2 ^ 11 = 0 → e.active = true → (h - e.head).toNat ≤ (e.tail - e.head).toNat → e.lost = none →
      (v.getLsbD 31 = false → becomes (.evqDoorbell func q v) s (s.sw.modEvq q fun e => { e with head := h })) ∧
      (v.getLsbD 31 = true → h = e.tail → becomes (.evqDoorbell func q v) s (s.sw.modEvq q fun e => { e with head := h, armed := true })) ∧
      (v.getLsbD 31 = true → h ≠ e.tail → becomes (.evqDoorbell func q v) s (sendMsix func e.vector (s.sw.modEvq q fun e => { e with head := h, armed := false }))))) ∧
  (∀ (s : State) (func : Nat), ∃ t, becomes (.flr func) s t ∧ Sw.keeps [.rings, .evqs, .msix] s.sw t ∧
    (∀ n, t.ring n = if func = 0 ∨ (s.sw.ring n).func = func then
      { s.sw.ring n with state := .disabled, enable := false, cause := 0, fetching := 0, fetched := [], outst := [], wait := none } else s.sw.ring n) ∧
    (∀ q, t.evq q = if func = 0 ∨ (s.sw.evq q).func = func then { s.sw.evq q with active := false, armed := false, lost := none, res := 0 } else s.sw.evq q) ∧
    ∀ k, SMap.find? k t.host.msix = if func = 0 ∨ k / 256 = func then none else SMap.find? k s.sw.host.msix) ∧
  (∀ (s : State) (cause : Nat) (w : Sw), becomes (.flr 0) s w → becomes (.hostLinkReset cause) s (w.modHost fun h => { h with
    vfEnable := false, numVfs := 0, linkUp := h.linkUp && cause != 1, perstN := h.perstN && cause != 1, held := h.held ++ [{ code := 0x0A04, content := le 1 cause }] }))

/-- RING_ENABLE of a DISABLED ring whose conditions hold makes it RUNNING and empty; while they do not, or while it drains, the
write is discarded. RING_DISABLE of a ring in service drops what it has read, aborts its WAIT, raises 0x0102, and is DISABLED
once nothing is outstanding. DESCRIPTOR_FETCH starts a read of at most 8 descriptors up to TAIL, to the ring's end, with 64 held
at most. FETCH_COMPLETE takes its descriptors and advances HEAD, or with an error HALTs the ring with its cause and event
0x0101. DESCRIPTOR_DISPATCH of a RUNNING ring with room in its queue takes the oldest descriptor and does what the command of
its opcode does, and only that; FENCE waits for all before it; an unassigned opcode ends BAD_DESCRIPTOR. TAIL sets TAIL of a
ring in service; with a reserved bit, of a ring that is not, or beyond the ring's size, event 0x0103. CANCEL_WAIT aborts the
pending WAIT, RESUME makes a HALTED ring run or wait again. COMPLETION_TIMEOUT halts a fetch with cause 3, else fails the
descriptor due at its HOST_ADDR. A function rings its own rings only. With no host link rings are idle. (R409, R411, R412, R413, R417, R418, R424, R430; 01 R33; 18 R557) -/
def Obligations.RingRule : Prop :=
  (∀ (s : State) (func n : Nat), s.sw.ringReach func n = false → stays (.ringEnable func n) s ∧ stays (.ringDisable func n) s ∧ stays (.cancelWait func n) s ∧ stays (.resume func n) s ∧ ∀ v, stays (.tail func n v) s) ∧
  (∀ (s : State) (func n : Nat) (r : Ring), s.sw.ringReach func n = true → r = s.sw.ring n →
    (r.state = .disabled → s.sw.ringReady n = true → becomes (.ringEnable func n) s (s.sw.modRing n fun r => { r with
      enable := true, state := .running, cause := 0, head := 0, tail := 0, fetching := 0, fetched := [], wait := none })) ∧
    (r.state = .disabled ∧ s.sw.ringReady n = false ∨ r.state = .draining → becomes (.ringEnable func n) s (regDiscard func (ringOffset n 8) (r.ctrl true) 1 s.sw)) ∧
    (r.sizeLog2 < 6 ∨ 16 < r.sizeLog2 ∨ (s.sw.evq r.cevq).active = false ∨ (s.sw.evq r.cevq).func ≠ r.func → s.sw.ringReady n = false) ∧
    (r.state = .running ∨ r.state = .waiting ∨ r.state = .halted → stays (.ringEnable func n) s) ∧
    (r.state = .disabled ∨ r.state = .draining → stays (.ringDisable func n) s) ∧
    (r.state = .running ∨ r.state = .waiting ∨ r.state = .halted → becomes (.ringDisable func n) s ((raiseSys 0x0102 (le 2 n ++ le 4 r.fetched.length ++ le 1 (b2n r.wait.isSome))
      (endWait n stAborted (s.sw.modRing n fun r => { r with state := .draining, enable := false, cause := 0, fetching := 0, fetched := [] }))).modRing n
        fun r => if r.state = .draining ∧ r.outst = [] then { r with state := .disabled, enable := false } else r))) ∧
  (∀ (s : State) (n : Nat) (r : Ring), r = s.sw.ring n →
    (s.sw.linked = false ∨ r.state = .disabled ∨ r.state = .draining ∨ r.state = .halted ∨ r.fetching ≠ 0 → stays (.descriptorFetch n) s) ∧
    (s.sw.linked = true → r.state = .running ∨ r.state = .waiting → r.fetching = 0 → becomes (.descriptorFetch n) s (s.sw.modRing n fun r => { r with
      fetching := min (min (r.tail - r.head).toNat 8) (min (2 ^ r.sizeLog2 - r.head.toNat % 2 ^ r.sizeLog2) (64 - r.fetched.length)) })) ∧
    (r.fetching = 0 → ∀ ds e, stays (.fetchComplete n ds e) s) ∧
    (∀ ds, r.fetching ≠ 0 → ds.length ≤ r.fetching → becomes (.fetchComplete n ds 0) s (s.sw.modRing n fun r => { r with fetching := 0, head := r.head + BitVec.ofNat 20 ds.length, fetched := r.fetched ++ ds })) ∧
    (∀ ds e, r.fetching ≠ 0 → e ≠ 0 → r.state = .running ∨ r.state = .waiting → becomes (.fetchComplete n ds e) s
      (raiseSys 0x0101 (le 2 n ++ le 1 e ++ le 4 r.head.toNat ++ le 8 (r.base + BitVec.ofNat 64 (64 * (r.head.toNat % 2 ^ r.sizeLog2))).toNat)
        (s.sw.modRing n fun r => { r with fetching := 0, state := .halted, cause := e })))) ∧
  (∀ (s : State) (n : Nat) (host : List Byte) (err : Option Quad) (r : Ring), r = s.sw.ring n →
    (s.sw.linked = false ∨ r.fetched = [] ∨ r.state ≠ .running ∨ 1024 ≤ r.outst.length → stays (.descriptorDispatch n host err) s) ∧
    (∀ d ds b u, r.fetched = d :: ds → b = ({ func := r.func, ring := n, desc := d, host := host, hostErr := err } : Sub) → u = { s with sw := s.sw.modRing n fun r => { r with fetched := ds } } →
      (b.flag 2 0 = true → r.outst ≠ [] → stays (.descriptorDispatch n host err) s) ∧
      ((s.sw.evq r.cevq).room (recordsFor s.sw (b.f 0 1) b) = false → stays (.descriptorDispatch n host err) s) ∧
      (s.sw.linked = true → r.state = .running → r.outst.length < 1024 → b.flag 2 0 = false ∨ r.outst = [] → (s.sw.evq r.cevq).room (recordsFor s.sw (b.f 0 1) b) = true → r.wait = none →
        (∀ e ∈ descRows, b.f 0 1 = e.1 → exec (.descriptorDispatch n host err) s = exec (e.2 b) u) ∧
        ((∀ o ∈ opcodes, o.code ≠ b.f 0 1) → b.cminor ≤ s.sw.sec.runMinor → endsWith (.descriptorDispatch n host err) s (b.f 0 1) b stBad fun w => w.modRing n fun r => { r with fetched := ds }))) ∧
    (r.fetching ≠ 0 → exec (.completionTimeout n) s = exec (.fetchComplete n [] 3) s) ∧ (r.fetching = 0 → r.fetched = [] → stays (.completionTimeout n) s) ∧
    (∀ d ds, r.fetching = 0 → r.fetched = d :: ds → exec (.completionTimeout n) s = exec (.descriptorDispatch n [] (some (BitVec.ofNat 64 (dfield d 24 8)))) s)) ∧
  (∀ (s : State) (func n : Nat) (r : Ring), s.sw.ringReach func n = true → r = s.sw.ring n →
    (∀ v cause, r.last0103 = none → (r.func ≠ func ∧ cause = 1 ∨ r.func = func ∧ (2 ^ 20 ≤ v.toNat ∧ cause = 3 ∨ v.toNat < 2 ^ 20 ∧ (r.state = .disabled ∨ r.state = .draining) ∧ cause = 1 ∨
        v.toNat < 2 ^ 20 ∧ r.state ≠ .disabled ∧ r.state ≠ .draining ∧ 2 ^ r.sizeLog2 < ((v.setWidth 20 : BitVec 20) - r.head).toNat ∧ cause = 0)) →
      becomes (.tail func n v) s (raiseSys 0x0103 (le 2 n ++ le 4 v.toNat ++ le 1 cause) (s.sw.modRing n fun r => { r with last0103 := some s.sw.now }))) ∧
    (r.func = func →
      (∀ v t, v.toNat < 2 ^ 20 → t = v.setWidth 20 → r.state ≠ .disabled → r.state ≠ .draining → (t - r.head).toNat ≤ 2 ^ r.sizeLog2 → (t - r.tail).toNat ≤ 2 ^ r.sizeLog2 →
        becomes (.tail func n v) s (s.sw.modRing n fun r => { r with tail := t })) ∧
      (r.wait = none → stays (.cancelWait func n) s) ∧ (r.wait ≠ none → becomes (.cancelWait func n) s (endWait n stAborted s.sw)) ∧
      (r.state = .halted → becomes (.resume func n) s (s.sw.modRing n fun r => { r with state := if r.wait.isSome then .waiting else .running, cause := 0 })))) ∧
  (∀ (w : Sw) (n status : Nat) (x : WaitRec), (w.ring n).wait = some x → w.jobOfFlag x.flag = none → endWait n status w = completeR x.tok status (BitVec.ofNat 64 (w.flag x.flag).toNat)
    (w.modRing n fun r => { r with wait := none, state := if r.state = .waiting then .running else r.state }))

/-- Of a function the host link does not reach REGISTER_WRITE and LO_READ_LATCH change nothing. In BAR0 of the PF a write of another
size or alignment, to a reserved offset or with a reserved bit is discarded, counted in GLB_DISCARDS with its offset and cause,
and does no more; of a read-only register it changes nothing. A write sets GLB_LEVEL 2 to 5, GLB_SCRATCH, the power warning
level, the far tier's hold but not to 0, a job's memory limit, a port's time asymmetry. A write of TAIL in a ring's page is
TAIL, of CMD CANCEL_WAIT or RESUME, a write of a queue's page EVQ_DOORBELL. MSI-X words are kept by vector; SR-IOV's NumVFs only
while VF Enable is 0. A read of a low register of BAR0 answers it and latches its high half for that requester alone; the high
register answers the latch, a reserved offset 0. A ring's page answers RING_STATUS and the last tail accepted, a queue's page
EVQ_STATUS. (00 R8, R9, R11; 12 R400, R406, R417, R419; 18 R541, R542, R543, R545, R557) -/
def Obligations.RegisterRule : Prop :=
  (∀ (s : State) (func : Nat), s.sw.hostReach func = false → (∀ sp off n v, stays (.registerWrite func sp off n v) s) ∧ ∀ off n, stays (.loReadLatch func false off n) s) ∧
  (∀ (s : State) (off n : Nat) (v : Word) (w : RegSpace → Nat → Instr), s.sw.hostReach 0 = true → (∀ sp o, w sp o = .registerWrite 0 sp o 4 v) → off < 2 ^ 24 →
    (n ≠ 4 ∨ off % 4 ≠ 0 → becomes (.registerWrite 0 .bar0 off n v) s (regDiscard 0 off v.toNat 3 s.sw)) ∧
    (off % 4 = 0 → stopped s.sw off = false → regAt s.fuses s.sw off = none → becomes (w .bar0 off) s (regDiscard 0 off v.toNat 2 s.sw)) ∧
    (∀ r, off % 4 = 0 → stopped s.sw off = false → regAt s.fuses s.sw off = some r → v &&& BitVec.ofNat 32 r.rsv ≠ 0 → becomes (w .bar0 off) s (regDiscard 0 off v.toNat 0 s.sw)) ∧
    (stopped s.sw 0x3C = false → becomes (w .bar0 0x3C) s (s.sw.modGlb fun g => { g with scratch := v })) ∧
    (stopped s.sw 0x20 = false → v.toNat < 8 → (2 ≤ v.toNat → v.toNat ≤ 5 → becomes (w .bar0 0x20) s (s.sw.modGlb fun g => { g with level := v.toNat })) ∧
      (v.toNat < 2 ∨ 5 < v.toNat → becomes (w .bar0 0x20) s (regDiscard 0 0x20 v.toNat 1 s.sw))) ∧
    (stopped s.sw 0x0C = false → stays (w .bar0 0x0C) s) ∧
    (stopped s.sw 0x1038 = false → v.toNat < 2 ^ 16 → becomes (w .bar0 0x1038) s (s.sw.modPwr fun p => { p with vinWarn := v.toNat })) ∧
    (stopped s.sw 0x80200 = false → v.toNat < 2 ^ 16 → (0 < v.toNat → becomes (w .bar0 0x80200) s { s.sw with cxlHoldMs := v.toNat }) ∧ (v = 0 → becomes (w .bar0 0x80200) s (regDiscard 0 0x80200 0 1 s.sw))) ∧
    (∀ j, j < 256 → off = 0xA0100 + 4 * j → stopped s.sw off = false → (∀ r, regAt s.fuses s.sw off = some r → v &&& BitVec.ofNat 32 r.rsv = 0) →
      becomes (w .bar0 off) s (s.sw.modPool fun p => { p with jobLimit := p.jobLimit.set j v.toNat })) ∧
    (∀ n, n < 512 → s.sw.portActive n = true → off = 0x20000 + 0x100 * n + 0x18 → stopped s.sw off = false → (∀ r, regAt s.fuses s.sw off = some r → v &&& BitVec.ofNat 32 r.rsv = 0) →
      becomes (w .bar0 off) s (s.sw.modReg n fun r => { r with timeAsym := v })) ∧
    (∀ k, k < 1024 → exec (w .bar2 (4096 * k)) s = exec (.tail 0 k v) s ∧ (v = 1 → exec (w .bar2 (4096 * k + 4)) s = exec (.cancelWait 0 k) s) ∧ (v = 2 → exec (w .bar2 (4096 * k + 4)) s = exec (.resume 0 k) s)) ∧
    (∀ q, q < 256 → exec (w .bar2 (4096 * (1024 + q))) s = exec (.evqDoorbell 0 q v) s) ∧
    (∀ k, k < 256 → becomes (w .bar4 (16 * k + 8)) s (s.sw.modHost fun h => { h with msix := h.msix.set k { h.msix.getD k {} with data := v } })) ∧
    becomes (w .sriov off) s (s.sw.modHost fun h => { h with vfEnable := v.getLsbD 0, numVfs := if h.vfEnable then h.numVfs else min 255 (v.toNat / 2 ^ 16) })) ∧
  (∀ (w : Sw) (func off v cause : Nat), (regDiscard func off v cause w).glb = { w.glb with
      discards := w.glb.discards + 1, discardAddr := BitVec.ofNat 32 (off % 2 ^ 24 + place cause 24) } ∧
    Sw.keeps [.glb, .evqs, .msix, .outs, .last0106] w (regDiscard func off v cause w)) ∧
  (∀ (s : State) (off : Nat), s.sw.hostReach 0 = true → off < 2 ^ 24 → off % 4 = 0 → stopped s.sw off = false →
    (regAt s.fuses s.sw off = none → becomes (.loReadLatch 0 false off 4) s (s.sw.out (.regRead 0 off (le 4 0)))) ∧
    (∀ r, regAt s.fuses s.sw off = some r → r.latched = false → r.val < 2 ^ 32 →
      (r.hi = none → becomes (.loReadLatch 0 false off 4) s (s.sw.out (.regRead 0 off (le 4 r.val)))) ∧
      (∀ h, r.hi = some h → becomes (.loReadLatch 0 false off 4) s
        ((s.sw.modGlb fun g => { g with latches := g.latches.set (off + 4) (BitVec.ofNat 32 h) }).out (.regRead 0 off (le 4 r.val))))) ∧
    (∀ r, regAt s.fuses s.sw off = some r → r.latched = true → becomes (.loReadLatch 0 false off 4) s (s.sw.out (.regRead 0 off (le 4 (s.sw.glb.latches.getD off 0).toNat))))) ∧
  (∀ (s : State) (off k : Nat), s.sw.hostReach 0 = true →
    (k < 1024 → off = 2 ^ 24 + 4096 * k → becomes (.loReadLatch 0 false off 4) s (s.sw.out (.regRead 0 off (le 4 (viewVal ((s.sw.ring k).view 12))))) ∧
      becomes (.loReadLatch 0 false (off + 4) 4) s (s.sw.out (.regRead 0 (off + 4) (le 4 (s.sw.ring k).tail.toNat)))) ∧
    (k < 256 → off = 2 ^ 24 + 4096 * (1024 + k) → becomes (.loReadLatch 0 false off 4) s (s.sw.out (.regRead 0 off (le 4 (viewVal ((s.sw.evq k).view 12)))))))

/-- When the receiver of lane l, of port n, locks to training frames at a rate: if the lane is in SEARCH, the rate is one the port's
ALLOW in force permits, and no other lane of the port is in TRAIN or beyond at another rate, then LANE_LOCK completes: the lane
is in TRAIN at that rate and transmits at it, its taps are the preset TX_INIT names (1 to 3) or, at TX_INIT = 0 with no taps
converged before, preset 1; loss of lock is clear, RX_READY and the partner's RX_READY are clear; every other lane and every
part of the state but the lanes is unchanged. In a state other than SEARCH, or at a rate that is not allowed, or on a lane of no
port, nothing changes. (R443, R446, R462) -/
def Obligations.LaneLockRule : Prop :=
  (∀ (s : State) (l n rate : Nat), s.sw.portOfLane l = some n → (s.sw.lane l).state = .search →
    rate ∈ allowedRates (s.sw.port n).reg.allowNow →
    (∀ k ∈ s.sw.lanesOf n, k ≠ l → (s.sw.lane k).rate = 0 ∨ (s.sw.lane k).rate = rate ∨ (s.sw.lane k).state = .search ∨
      (s.sw.lane k).state = .idle) →
    runsTo (.laneLock l rate) s [.lanes] fun t =>
      (t.lane l).state = .train ∧ (t.lane l).rate = rate ∧ (t.lane l).txRate = rate ∧ (t.lane l).lol = false ∧
      (t.lane l).rxReady = false ∧ (t.lane l).partnerReady = false ∧ (t.lane l).since = s.sw.now ∧
      ((s.sw.lane l).txInit ≠ 0 → (t.lane l).taps = preset (s.sw.lane l).txInit) ∧
      ((s.sw.lane l).txInit = 0 → (s.sw.lane l).conv = none → (t.lane l).taps = preset 1) ∧
      othersSame Sw.lane l s.sw t) ∧
  (∀ (s : State) (l rate : Nat), (s.sw.lane l).state ≠ .search → stays (.laneLock l rate) s) ∧
  (∀ (s : State) (l n rate : Nat), s.sw.portOfLane l = some n → rate ∉ allowedRates (s.sw.port n).reg.allowNow →
    stays (.laneLock l rate) s) ∧
  (∀ (s : State) (l rate : Nat), s.sw.portOfLane l = none → stays (.laneLock l rate) s)

/-- A training frame on a lane in TRAIN or FINISH sets RX_READY and the receiver SNR as received and sends the lane's own next words
to the partner. Without RX_READY the lane is in TRAIN with its count of frames back at nothing, and only lanes, free values and
what leaves the chip change; there, when both words fail their CRC-8, taps, partner's RX_READY and the last applied SEQ stay as
they were, and when the control word is good and its SEQ differs from the last one applied, the taps become those the request
asks for and its SEQ is the one echoed. With RX_READY and the partner's RX_READY (a good status word with bit 12 set), a lane in
TRAIN goes to FINISH. In FINISH with both set and 31 frames counted each way, on a port that is not in SEARCH, the lane goes to
DATA and one more training counts as completed. Other lanes stand in each case. On a lane in any other state nothing changes. (R443, R445, R446) -/
def Obligations.TrainingFrameRule : Prop :=
  (∀ (s : State) (l : Nat) (control status : Word) (snr : Half) (skew : Nat),
    (s.sw.lane l).state = .train ∨ (s.sw.lane l).state = .finish →
    runsTo (.trainingFrameReceive l control status false snr skew) s [.lanes, .freeCtr, .outs] fun t =>
      (t.lane l).state = .train ∧ (t.lane l).finish = (0, 0) ∧ (t.lane l).rxReady = false ∧ (t.lane l).snr = snr ∧
      (crcGood control = false → crcGood status = false → (t.lane l).taps = (s.sw.lane l).taps ∧
        (t.lane l).partnerReady = (s.sw.lane l).partnerReady ∧ (t.lane l).applied = (s.sw.lane l).applied) ∧
      (crcGood control = true → (∀ q st, (s.sw.lane l).applied = some (q, st) → q ≠ field control 16 8) →
        (t.lane l).taps = (answer (s.sw.lane l).ignoreReq control.toNat (s.sw.lane l).taps).2 ∧
        (t.lane l).applied.map Prod.fst = some (field control 16 8)) ∧
      (∃ ctl st, t.outs = s.sw.outs ++ [.training l ctl st]) ∧ othersSame Sw.lane l s.sw t) ∧
  (∀ (s : State) (l : Nat) (control status : Word) (snr : Half) (skew : Nat),
    (s.sw.lane l).state = .train → crcGood status = true → bit status 12 = true →
    runsTo (.trainingFrameReceive l control status true snr skew) s [.lanes, .freeCtr, .outs] fun t =>
      (t.lane l).state = .finish ∧ (t.lane l).rxReady = true ∧ (t.lane l).partnerReady = true ∧ (t.lane l).snr = snr ∧
      othersSame Sw.lane l s.sw t) ∧
  (∀ (s : State) (l n : Nat) (control status : Word) (snr : Half) (skew : Nat),
    (s.sw.lane l).state = .finish → (s.sw.lane l).finish = (31, 31) → crcGood status = true → bit status 12 = true →
    s.sw.portOfLane l = some n → (s.sw.port n).reg.state ≠ .search →
    runsTo (.trainingFrameReceive l control status true snr skew) s [.lanes, .freeCtr, .evqs, .msix, .outs] fun t =>
      (t.lane l).state = .data ∧ (t.lane l).trainOk = (s.sw.lane l).trainOk + 1 ∧ othersSame Sw.lane l s.sw t) ∧
  (∀ (s : State) (l : Nat) (control status : Word) (ready : Bool) (snr : Half) (skew : Nat),
    (s.sw.lane l).state ≠ .train → (s.sw.lane l).state ≠ .finish →
    stays (.trainingFrameReceive l control status ready snr skew) s)

/-- TRAIN_TIMEOUT on a lane in TRAIN or FINISH of port n returns that lane to SEARCH at the port's highest rate in force with
RX_READY clear, counts one failed training, leaves every other lane, and changes beside the lanes only event queues, vectors and
what leaves for the host. TAP_ECHO_TIMEOUT with an exchange open ends it and adds the taps asked for to those NOT_SUPPORTED;
with none open the lane stands. SEARCH_RATE_STEP moves every lane of a port in SEARCH that is in SEARCH itself to the next lower
allowed rate (the highest after the lowest) and no other lane, and on a port in another state changes nothing. APR_RESTART_PULSE
starts a pulse now on a lane in APR that may emit on an engine that is not dark; on a lane not in APR the lane stands.
LANE_LOS_CLEAR clears loss of signal and APR, ends a pulse and records the power. Other lanes stand in each case but the search
for a rate. (R443, R446, R447, R450, R105) -/
def Obligations.LaneTimersRule : Prop :=
  (∀ (s : State) (l n : Nat), s.sw.portOfLane l = some n → (s.sw.lane l).state = .train ∨ (s.sw.lane l).state = .finish →
    runsTo (.trainTimeout l) s [.lanes, .evqs, .msix, .outs] fun t =>
      (t.lane l).state = .search ∧ (t.lane l).rate = 0 ∧ (t.lane l).rxReady = false ∧
      (t.lane l).txRate = (allowedRates (s.sw.port n).reg.allowNow).headD 3 ∧
      (t.lane l).trainBad = (s.sw.lane l).trainBad + 1 ∧ othersSame Sw.lane l s.sw t) ∧
  (∀ (s : State) (l : Nat), runsTo (.tapEchoTimeout l) s [.lanes] fun t =>
      ((s.sw.lane l).reqSeq.2 = true → (t.lane l).reqSeq = ((s.sw.lane l).reqSeq.1, false) ∧
        (t.lane l).notSup = (s.sw.lane l).notSup ||| (s.sw.lane l).asked) ∧
      ((s.sw.lane l).reqSeq.2 = false → t.lane l = s.sw.lane l) ∧
      (t.lane l).state = (s.sw.lane l).state ∧ (t.lane l).taps = (s.sw.lane l).taps ∧ othersSame Sw.lane l s.sw t) ∧
  (∀ (s : State) (n : Nat), (s.sw.port n).reg.state = .search →
    runsTo (.searchRateStep n) s [.lanes] fun t =>
      (∀ l ∈ s.sw.lanesOf n, t.lane l = (s.sw.lane l).nextRate (s.sw.port n).reg.allowNow) ∧
      (∀ l, l ∉ s.sw.lanesOf n → t.lane l = s.sw.lane l)) ∧
  (∀ (s : State) (n : Nat), (s.sw.port n).reg.state ≠ .search → stays (.searchRateStep n) s) ∧
  (∀ (s : State) (l : Nat), (s.sw.lane l).apr = true → (s.sw.lane l).lit = true → (s.sw.engine (l / 16)).dark = false →
    runsTo (.aprRestartPulse l) s [.lanes] fun t =>
      t.lane l = { s.sw.lane l with pulse := some s.sw.now } ∧ othersSame Sw.lane l s.sw t) ∧
  (∀ (s : State) (l : Nat), (s.sw.lane l).apr = false →
    runsTo (.aprRestartPulse l) s [.lanes] fun t => ∀ k, t.lane k = s.sw.lane k) ∧
  (∀ (s : State) (l : Nat) (power : Half), s.sw.quadActive (l / 4) = true → runsTo (.laneLosClear l power) s [.lanes] fun t =>
      t.lane l = { s.sw.lane l with los := false, apr := false, pulse := none, rxPower := power } ∧ othersSame Sw.lane l s.sw t)

/-- LANE_LOS on a lane without loss of signal sets it, records the power and counts one assertion, raises 0x0902 with lane and power
at most once per lane and millisecond, clears RX_READY, and, when the lane's port is UP, takes that port to LOST with reason 2
(LOS); LANE_LOL does the same with loss of lock, its own count and 0x0903 with lane and cause. A lane that already has the
condition is counted no more: LANE_LOS then changes only the recorded power, LANE_LOL nothing. APR_ENTERED on a lane with loss
of signal that is not in APR sets APR and counts one entry, and changes beside the lanes only event state; on a lane without
loss of signal, or in APR already, nothing changes. On a lane of an inactive four-lane port none of the four rows changes
anything. (R440, R443, R447, R448, R449, R450, R464) -/
def Obligations.LaneLossRule : Prop :=
  (∀ (s : State) (l n : Nat) (power : Half), s.sw.quadActive (l / 4) = true → (s.sw.lane l).los = false → s.sw.portOfLane l = some n → s.sw.up n = true →
    becomes (.laneLos l power) s (
      splitChoose (l / 4) <| toLost n 2 none none <| Sw.modLane l (fun x => { x with rxReady := false }) <|
      Sw.limited 0x0902 l ms (raiseSys 0x0902 (le 2 l ++ le 2 power.toNat)) <|
      s.sw.modLane l fun x => { x with rxPower := power, los := true, losCount := x.losCount + 1 })) ∧
  (∀ (s : State) (l n cause : Nat), s.sw.quadActive (l / 4) = true → (s.sw.lane l).lol = false → s.sw.portOfLane l = some n → s.sw.up n = true →
    becomes (.laneLol l cause) s (
      splitChoose (l / 4) <| toLost n 2 none none <| Sw.modLane l (fun x => { x with rxReady := false }) <|
      Sw.limited 0x0903 l ms (raiseSys 0x0903 (le 2 l ++ le 1 cause)) <|
      s.sw.modLane l fun x => { x with lol := true, lolCount := x.lolCount + 1 })) ∧
  (∀ (s : State) (l : Nat) (power : Half), s.sw.quadActive (l / 4) = false →
    stays (.laneLos l power) s ∧ stays (.laneLosClear l power) s ∧ (∀ cause, stays (.laneLol l cause) s) ∧ stays (.aprEntered l) s) ∧
  (∀ (s : State) (l : Nat) (power : Half), s.sw.quadActive (l / 4) = true → (s.sw.lane l).los = true →
    runsTo (.laneLos l power) s [.lanes] fun t =>
      t.lane l = { s.sw.lane l with rxPower := power } ∧ othersSame Sw.lane l s.sw t) ∧
  (∀ (s : State) (l cause : Nat), (s.sw.lane l).lol = true → stays (.laneLol l cause) s) ∧
  (∀ (s : State) (l : Nat), s.sw.quadActive (l / 4) = true → (s.sw.lane l).los = true → (s.sw.lane l).apr = false →
    runsTo (.aprEntered l) s [.lanes, .evTimes, .evqs, .msix, .outs] fun t =>
      t.lane l = { s.sw.lane l with apr := true, aprCount := (s.sw.lane l).aprCount + 1 } ∧ othersSame Sw.lane l s.sw t) ∧
  (∀ (s : State) (l : Nat), (s.sw.lane l).los = false ∨ (s.sw.lane l).apr = true → stays (.aprEntered l) s)

/-- CLEAR zeroes the checker's counters of the lane and nothing else. CHECKER_LOCKED on a lane with CHK_EN sets CHK_LOCKED and adds
the checked bits modulo 2^48; without CHK_EN the lane stands. CHECKER_LOCK_LOST on a locked checker clears CHK_LOCKED and counts
the seventeen errors that lost it. INJECT_SINGLE with GEN_EN injects one bit and MODE reads 0 afterwards; INJECT_PERIODIC with
GEN_EN and a period of 10 to 31 sets mode 2 and the period; INJECT_FEC_SYMBOLS on a lane of an UP port, 1 to 16 symbols and a
count of 1 to 255, corrupts that many codewords of the lane and MODE reads 0 afterwards. A start of a test with a good rate,
pattern and loopback on a lane of a DISABLED port puts the lane into TEST with the fields written. Without GEN_EN, modes 1 and 2
are discarded under R11, and so is a test field set on a lane of a port that is not DISABLED: lanes stand and REG_DISCARDS
counts one more. (R11, R443, R453, R454, R455, R456, R462) -/
def Obligations.LaneTestRule : Prop :=
  (∀ (s : State) (l : Nat), runsTo (.clear l) s [.lanes] fun t =>
      t.lane l = { s.sw.lane l with test := { (s.sw.lane l).test with bits := 0, errs := 0 } } ∧ othersSame Sw.lane l s.sw t) ∧
  (∀ (s : State) (l : Nat) (bits : Quad), runsTo (.checkerLocked l bits) s [.lanes] fun t =>
      ((s.sw.lane l).test.chkEn = true → (t.lane l).test.chkLocked = true ∧
        (t.lane l).test.bits = (s.sw.lane l).test.bits + bits.setWidth 48) ∧
      ((s.sw.lane l).test.chkEn = false → t.lane l = s.sw.lane l) ∧
      (t.lane l).test.errs = (s.sw.lane l).test.errs ∧ (t.lane l).state = (s.sw.lane l).state ∧ othersSame Sw.lane l s.sw t) ∧
  (∀ (s : State) (l : Nat), (s.sw.lane l).test.chkLocked = true →
    runsTo (.checkerLockLost l) s [.lanes] fun t =>
      (t.lane l).test = { (s.sw.lane l).test with chkLocked := false, errs := (s.sw.lane l).test.errs + 17 } ∧
      (t.lane l).state = (s.sw.lane l).state ∧ othersSame Sw.lane l s.sw t) ∧
  (∀ (s : State) (l : Nat), (s.sw.lane l).test.genEn = true →
    runsTo (.injectSingle l) s [.lanes] fun t =>
      (t.lane l).test.injected = (s.sw.lane l).test.injected + 1 ∧ (t.lane l).test.injMode = 0 ∧ othersSame Sw.lane l s.sw t) ∧
  (∀ (s : State) (l p : Nat), (s.sw.lane l).test.genEn = true → 10 ≤ p → p ≤ 31 →
    runsTo (.injectPeriodic l p) s [.lanes] fun t =>
      (t.lane l).test.injPeriod = p ∧ (t.lane l).test.injMode = 2 ∧
      (t.lane l).test.injected = (s.sw.lane l).test.injected ∧ othersSame Sw.lane l s.sw t) ∧
  (∀ (s : State) (l n syms count : Nat), s.sw.portOfLane l = some n → s.sw.up n = true → 1 ≤ syms → syms ≤ 16 → 1 ≤ count →
    count ≤ 255 →
    runsTo (.injectFecSymbols l syms count) s [.lanes, .outs] fun t =>
      (t.lane l).test.injSyms = syms ∧ (t.lane l).test.injCount = count ∧ (t.lane l).test.injMode = 0 ∧
      t.outs = s.sw.outs ++ List.replicate count (.corrupt l syms) ∧ othersSame Sw.lane l s.sw t) ∧
  (∀ (s : State) (l n : Nat) (v : Word), s.sw.portOfLane l = some n → (s.sw.port n).reg.state = .disabled →
    bit v 10 = false → field v 12 20 = 0 → field v 8 2 ≠ 0 → field v 6 2 ≤ 1 → field v 0 3 ≤ 5 →
    (bit v 4 = true ∨ bit v 5 = true ∨ field v 6 2 = 1) →
    runsTo (.laneTestStart l v) s [.lanes] fun t =>
      (t.lane l).state = .test ∧ (t.lane l).test.trate = field v 8 2 ∧ (t.lane l).test.loopback = field v 6 2 ∧
      (t.lane l).test.chkEn = bit v 5 ∧ (t.lane l).test.genEn = bit v 4 ∧ (t.lane l).test.invert = bit v 3 ∧
      (t.lane l).test.pattern = field v 0 3 ∧ othersSame Sw.lane l s.sw t) ∧
  (∀ (s : State) (l : Nat), (s.sw.lane l).test.genEn = false →
    runsTo (.injectSingle l) s [.glb, .last0106, .evqs, .msix, .outs] fun t => t.glb.discards = s.sw.glb.discards + 1) ∧
  (∀ (s : State) (l n : Nat) (v : Word), s.sw.portOfLane l = some n → (s.sw.port n).reg.state ≠ .disabled →
    (bit v 4 = true ∨ bit v 5 = true ∨ field v 6 2 ≠ 0) →
    runsTo (.laneTestStart l v) s [.glb, .last0106, .evqs, .msix, .outs] fun t => t.glb.discards = s.sw.glb.discards + 1)

/-- FEED_LOST on a feed that was OK, while the engine's other feed is OK and the other site is neither MUTING nor REMOVE_READY,
clears that feed's OK bit and takes its power; every other engine, the other feed and every part but the engines and event state
stand, so no port is lost. With the other feed not OK either, on an engine that was not dark, the engine becomes dark: each of
its UP ports goes to LOST with reason 2 (LOS), its lanes but those in test stop, and 0x0912 follows 0x0910. FEED_LOST on a feed
that was not OK changes only its power. FEED_RESTORED, with the feeding module RAMP or ON, at +14.00 dBm or more and the feed
not OK, on an engine that is not dark, sets the OK bit and the power and nothing else but event state; with the module in
another state, below +14.00 dBm, or on a feed that is OK, nothing changes. Engine e takes feed A from site 4 floor(e/8) + 2
floor((e mod 8)/4) and feed B from the next site. (R457, R458, R459, R464) -/
def Obligations.FeedRule : Prop :=
  (∀ (s : State) (e : Nat) (b : Bool) (p : Half), (s.sw.engine e).ok b = true → (s.sw.engine e).ok (!b) = true →
    (s.sw.site (siteOf e (!b))).state ≠ .muting → (s.sw.site (siteOf e (!b))).state ≠ .removeReady →
    runsTo (.feedLost e b p) s [.engines, .evqs, .msix, .outs] fun t =>
      t.engine e = (s.sw.engine e).setFeed b false p ∧ (t.engine e).ok b = false ∧ (t.engine e).ok (!b) = true ∧
      othersSame Sw.engine e s.sw t) ∧
  (∀ (s : State) (e : Nat) (b : Bool) (p : Half), (s.sw.engine e).ok b = true → (s.sw.engine e).ok (!b) = false →
    (s.sw.engine e).dark = false →
    (s.sw.site (siteOf e (!b))).state ≠ .muting → (s.sw.site (siteOf e (!b))).state ≠ .removeReady →
    becomes (.feedLost e b p) s (engineDark e <|
      raiseSys 0x0910 (le 1 e ++ le 1 (if b then 2 else 1) ++ le 1 (siteOf e b)) <|
      s.sw.modEngine e (Engine.setFeed b false p))) ∧
  (∀ (s : State) (e : Nat) (b : Bool) (p : Half), (s.sw.engine e).ok b = false →
    runsTo (.feedLost e b p) s [.engines] fun t =>
      t.engine e = (s.sw.engine e).setFeed b false p ∧ othersSame Sw.engine e s.sw t) ∧
  (∀ (s : State) (e : Nat) (b : Bool) (p : Half), (s.sw.site (siteOf e b)).lit = true → 1400 ≤ p.toInt →
    (s.sw.engine e).ok b = false → (s.sw.engine e).dark = false →
    runsTo (.feedRestored e b p) s [.engines, .evqs, .msix, .outs] fun t =>
      t.engine e = (s.sw.engine e).setFeed b true p ∧ (t.engine e).ok b = true ∧ othersSame Sw.engine e s.sw t) ∧
  (∀ (s : State) (e : Nat) (b : Bool) (p : Half),
    (s.sw.site (siteOf e b)).lit = false ∨ p.toInt < 1400 ∨ (s.sw.engine e).ok b = true → stays (.feedRestored e b p) s) ∧
  siteOf 18 false = 8 ∧ siteOf 18 true = 9

/-- LATCH_CLOSE on an ABSENT site takes it to IDENTIFY when the variant uses the site and to UNUSED otherwise, marks it latched,
counts one closure modulo 2^32 and holds EN and MUTE_N low; on a site that is not ABSENT nothing changes. LATCH_OPEN on a site
that is not ABSENT drives EN and MUTE_N low, clears the latch, PREP_REMOVE and REMOVE_BLOCKED, takes it to ABSENT, counts its
feeds as lost and raises 0x0914 with the state left; on an ABSENT site nothing changes. LASER_IDENTITY_READ in IDENTIFY of a
fitting module with the serial of the last one goes to RAMP with EN and MUTE_N released at ENABLE = 1 and to OFF at ENABLE = 0,
and stores the serial; an unfit identity, and LASER_IDENTITY_TIMEOUT, end in REFUSED with event 0x0915. In a state other than
IDENTIFY both leave everything. (R459, R460, R463, R464, R501) -/
def Obligations.LaserLatchRule : Prop :=
  (∀ (s : State) (m : Nat), (s.sw.site m).state = .absent → runsTo (.latchClose m) s [.sites] fun t =>
      (t.site m).state = (if s.sw.siteUsed m then .identify else .unused) ∧ (t.site m).latched = true ∧
      (t.site m).inserts = (s.sw.site m).inserts + 1 ∧ (t.site m).en = false ∧ (t.site m).muteN = false ∧
      othersSame Sw.site m s.sw t) ∧
  (∀ (s : State) (m : Nat), (s.sw.site m).state ≠ .absent → stays (.latchClose m) s) ∧
  (∀ (s : State) (m : Nat), (s.sw.site m).state ≠ .absent →
    becomes (.latchOpen m) s (raiseSys 0x0914 (le 1 m ++ le 1 (s.sw.site m).state.code) <| siteFeedsLost m <|
      s.sw.modSite m fun x => { x with
        state := .absent, latched := false, prepRemove := false, removeBlocked := false, blockedAt := none
        en := false, muteN := false })) ∧
  (∀ (s : State) (m : Nat), (s.sw.site m).state = .absent → stays (.latchOpen m) s) ∧
  (∀ (s : State) (m : Nat) (serial : Quad), (s.sw.site m).state = .identify →
    (∀ k, (s.sw.site m).lastSerial = some k → k = serial) →
    runsTo (.laserIdentityRead m serial 0) s [.sites] fun t =>
      (t.site m).serial = serial ∧ (t.site m).lastSerial = some serial ∧
      ((s.sw.site m).enable = true → (t.site m).state = .ramp ∧ (t.site m).en = true ∧ (t.site m).muteN = true) ∧
      ((s.sw.site m).enable = false → (t.site m).state = .off ∧ (t.site m).en = (s.sw.site m).en) ∧
      othersSame Sw.site m s.sw t) ∧
  (∀ (s : State) (m : Nat) (serial : Quad) (unfit : Nat), (s.sw.site m).state = .identify → unfit ≠ 0 →
    runsTo (.laserIdentityRead m serial unfit) s [.sites, .wear, .evqs, .msix, .outs] fun t =>
      (t.site m).state = .refused ∧ (t.site m).serial = serial ∧ othersSame Sw.site m s.sw t) ∧
  (∀ (s : State) (m : Nat), (s.sw.site m).state = .identify →
    runsTo (.laserIdentityTimeout m) s [.sites, .evqs, .msix, .outs] fun t =>
      t.site m = { s.sw.site m with state := .refused } ∧ othersSame Sw.site m s.sw t) ∧
  (∀ (s : State) (m : Nat) (serial : Quad) (unfit : Nat), (s.sw.site m).state ≠ .identify →
    stays (.laserIdentityRead m serial unfit) s ∧ stays (.laserIdentityTimeout m) s)

/-- LASER_RAMP_DONE in RAMP with every output at +15.00 dBm or more turns the site ON with event 0x0913; in another state, or with a
lower output, nothing changes. LASER_POLL on a site in RAMP or ON with the fault flag, or with an output below +12.00 dBm,
records serial, powers, bias and temperature, drives EN and MUTE_N low, goes to FAULT, counts the feeds as lost and raises
0x0916; a poll that finds neither, in a state that is neither ABSENT, UNUSED, IDENTIFY nor ON, only records them; ABSENT and
UNUSED sites stand. LASER_ENABLE takes a site in OFF, FAULT or REFUSED whose ENABLE was 0 to IDENTIFY, and otherwise only sets
ENABLE. LASER_DISABLE in RAMP, ON or MUTING drives EN and MUTE_N low, goes to OFF and counts the feeds as lost; in other states
it only clears ENABLE. (R459, R463, R464) -/
def Obligations.LaserSiteRule : Prop :=
  (∀ (s : State) (m : Nat), (s.sw.site m).state = .ramp → (∀ p ∈ (s.sw.site m).outPower, 1500 ≤ p.toInt) →
    becomes (.laserRampDone m) s (raiseSys 0x0913 (le 1 m ++ le 8 (s.sw.site m).serial.toNat)
      (s.sw.modSite m fun x => { x with state := .on }))) ∧
  (∀ (s : State) (m : Nat), (s.sw.site m).state ≠ .ramp ∨ (∃ p ∈ (s.sw.site m).outPower, p.toInt < 1500) →
    stays (.laserRampDone m) s) ∧
  (∀ (s : State) (m : Nat) (serial : Quad) (p0 p1 p2 p3 bias : Half) (temp : Byte) (fault : Bool),
    (s.sw.site m).state = .ramp ∨ (s.sw.site m).state = .on →
    (fault = true ∨ ∃ p ∈ [p0, p1, p2, p3], p.toInt < 1200) →
    becomes (.laserPoll m serial [p0, p1, p2, p3] bias temp fault) s
      (raiseSys 0x0916 (le 1 m ++ le 1 (if fault then 1 else 2) ++
          (le 2 p0.toNat ++ le 2 p1.toNat ++ le 2 p2.toNat ++ le 2 p3.toNat)) <|
        siteFeedsLost m <| s.sw.modSite m fun x => { x with
          serial := serial, outPower := [p0, p1, p2, p3], bias := bias, temp := temp, state := .fault, en := false
          muteN := false })) ∧
  (∀ (s : State) (m : Nat) (serial : Quad) (p0 p1 p2 p3 bias : Half) (temp : Byte),
    (s.sw.site m).state ∉ [.absent, .unused, .identify, .on] →
    ((s.sw.site m).state = .ramp → ∀ p ∈ [p0, p1, p2, p3], 1200 ≤ p.toInt) →
    runsTo (.laserPoll m serial [p0, p1, p2, p3] bias temp false) s [.sites] fun t =>
      t.site m = { s.sw.site m with serial := serial, outPower := [p0, p1, p2, p3], bias := bias, temp := temp } ∧
      othersSame Sw.site m s.sw t) ∧
  (∀ (s : State) (m : Nat) (serial : Quad) (ps : List Half) (bias : Half) (temp : Byte) (fault : Bool),
    (s.sw.site m).state = .absent ∨ (s.sw.site m).state = .unused → stays (.laserPoll m serial ps bias temp fault) s) ∧
  (∀ (s : State) (m : Nat), runsTo (.laserEnable m) s [.sites] fun t =>
      (t.site m).enable = true ∧
      ((s.sw.site m).enable = false → (s.sw.site m).state ∈ [.off, .fault, .refused] → (t.site m).state = .identify) ∧
      ((s.sw.site m).enable = true ∨ (s.sw.site m).state ∉ [.off, .fault, .refused] →
        (t.site m).state = (s.sw.site m).state) ∧
      (t.site m).en = (s.sw.site m).en ∧ (t.site m).muteN = (s.sw.site m).muteN ∧ othersSame Sw.site m s.sw t) ∧
  (∀ (s : State) (m : Nat), (s.sw.site m).state ∈ [.ramp, .on, .muting] →
    becomes (.laserDisable m) s (siteFeedsLost m <| s.sw.modSite m fun x => { x with
      enable := false, state := .off, en := false, muteN := false })) ∧
  (∀ (s : State) (m : Nat), (s.sw.site m).state ∉ [.ramp, .on, .muting] →
    runsTo (.laserDisable m) s [.sites] fun t =>
      t.site m = { s.sw.site m with enable := false } ∧ othersSame Sw.site m s.sw t)

/-- PREP_REMOVE on a site that is ON: when the other feed of each of its four engines is OK and comes from no site in MUTING or
REMOVE_READY, the site goes to MUTING with PREP_REMOVE set and nothing but the site changes; when some engine lacks it, the site
stays ON with PREP_REMOVE clear and REMOVE_BLOCKED set, and 0x0918 (blocked, the engine) is raised. On a site that is not ON it
only sets PREP_REMOVE. PREP_REMOVE_CANCEL in MUTING or REMOVE_READY returns the site to RAMP with EN and MUTE_N released; else
it only clears PREP_REMOVE. MUTING_DONE in MUTING drives EN and MUTE_N low, goes to REMOVE_READY, counts the feeds as lost and
raises 0x0918 (ready); else nothing changes. A short press of the site button (50 ms to 2 s) with BTN_ENABLE on a site that is
ON acts as PREP_REMOVE after event 0x0C31, and on a site in MUTING or REMOVE_READY as the cancel; a press of 5 s or more only
raises 0x0C31; any other length does nothing. The LED time-out ends the blocked pattern and changes nothing else. (R459, R464, R530, R532, R533) -/
def Obligations.LaserRemovalRule : Prop :=
  (∀ (s : State) (m : Nat), (s.sw.site m).state = .on →
    (∀ o, o < 4 → (s.sw.engine (engineOf m o)).ok (m % 2 == 0) = true ∧
      (s.sw.site (siteOf (engineOf m o) (m % 2 == 0))).state ≠ .muting ∧
      (s.sw.site (siteOf (engineOf m o) (m % 2 == 0))).state ≠ .removeReady) →
    runsTo (.prepRemove m) s [.sites] fun t =>
      t.site m = { s.sw.site m with state := .muting, prepRemove := true } ∧ othersSame Sw.site m s.sw t) ∧
  (∀ (s : State) (m e : Nat), (s.sw.site m).state = .on → s.sw.lacking m = some e →
    becomes (.prepRemove m) s (raiseSys 0x0918 (le 1 m ++ le 1 2 ++ le 1 e) (s.sw.modSite m fun x =>
      { x with prepRemove := false, removeBlocked := true, blockedAt := some s.sw.now }))) ∧
  (∀ (s : State) (m : Nat), (s.sw.site m).state ≠ .on → runsTo (.prepRemove m) s [.sites] fun t =>
      t.site m = { s.sw.site m with prepRemove := true } ∧ othersSame Sw.site m s.sw t) ∧
  (∀ (s : State) (m : Nat), runsTo (.prepRemoveCancel m) s [.sites] fun t =>
      (t.site m).prepRemove = false ∧
      ((s.sw.site m).state ∈ [.muting, .removeReady] →
        (t.site m).state = .ramp ∧ (t.site m).en = true ∧ (t.site m).muteN = true) ∧
      ((s.sw.site m).state ∉ [.muting, .removeReady] → t.site m = { s.sw.site m with prepRemove := false }) ∧
      othersSame Sw.site m s.sw t) ∧
  (∀ (s : State) (m : Nat), (s.sw.site m).state = .muting →
    becomes (.mutingDone m) s (raiseSys 0x0918 (le 1 m ++ le 1 1 ++ le 1 0xFF) <| siteFeedsLost m <|
      s.sw.modSite m fun x => { x with state := .removeReady, en := false, muteN := false })) ∧
  (∀ (s : State) (m : Nat), (s.sw.site m).state ≠ .muting → stays (.mutingDone m) s) ∧
  (∀ (s : State) (m p : Nat), 50 ≤ p → p ≤ 2000 → s.sw.sec.btnEnable = true → (s.sw.site m).state = .on →
    ∃ t, exec (.prepRemove m) { s with sw := raiseHeld 0x0C31 (le 1 m ++ le 1 1) s.sw } = .next t ∧
      exec (.siteButton m p) s = .next t) ∧
  (∀ (s : State) (m p : Nat), 50 ≤ p → p ≤ 2000 → s.sw.sec.btnEnable = true → (s.sw.site m).state ∈ [.muting, .removeReady] →
    runsTo (.siteButton m p) s [.sites, .held, .evqs, .msix, .outs] fun t =>
      (t.site m).state = .ramp ∧ (t.site m).prepRemove = false ∧ othersSame Sw.site m s.sw t) ∧
  (∀ (s : State) (m p : Nat), 5000 ≤ p → becomes (.siteButton m p) s (raiseHeld 0x0C31 (le 1 m ++ le 1 2) s.sw)) ∧
  (∀ (s : State) (m p : Nat), p < 50 ∨ (2000 < p ∧ p < 5000) → stays (.siteButton m p) s) ∧
  (∀ (s : State) (m : Nat), runsTo (.removeBlockedLedTimeout m) s [.sites] fun t =>
      t.site m = { s.sw.site m with blockedAt := none } ∧ othersSame Sw.site m s.sw t)

/-- CLOCK_PROFILE_WRITE of 0 to 2 records the request with its instant and nothing else; 3 is discarded under R11 and counted.
CLOCK_PROFILE_CHANGED with a request that has not taken effect moves time to the next multiple of 16,384 ns after the write and
makes the profile in force the slower of the request and the limit; without one nothing changes. CLOCK_UNLOCK of a locked PLL
(grove 0 to 3, 4 the TIME PLL) clears its lock and notes the instant; of one already unlocked nothing changes. PLL_RELOCK of a
PLL that lost lock sets the lock again and raises 0x0A12; else nothing changes. PLL_RELOCK_TIMEOUT of one still unlocked raises
0x0A12 and performs a warm reset with cause CLOCK (5), except during start-up, where only the event follows; of a locked one
nothing changes. (R11, R466, R467, R483) -/
def Obligations.ClockProfileRule : Prop :=
  (∀ (s : State) (v : Nat), v < 3 → runsTo (.clockProfileWrite v) s [.glb] fun t =>
      t.glb = { s.sw.glb with clockReq := v, clockAt := some s.sw.gtc }) ∧
  (∀ (s : State) (v : Nat), 3 ≤ v → runsTo (.clockProfileWrite v) s [.glb, .last0106, .evqs, .msix, .outs] fun t =>
      t.glb.discards = s.sw.glb.discards + 1 ∧ t.glb.clockReq = s.sw.glb.clockReq) ∧
  (∀ (s : State), s.sw.glb.clockReq ≠ s.sw.glb.clockTaken →
    runsTo .clockProfileChanged s [.glb, .time, .evqs, .msix, .outs] fun t =>
      t.glb.clockTaken = s.sw.glb.clockReq ∧ t.glb.clockActive = max s.sw.glb.clockReq s.sw.glb.clockLimit ∧
      t.glb.clockLimit = s.sw.glb.clockLimit ∧ t.time.frac = 0 ∧
      (s.sw.time.gtc.toNat + 16384 < 2 ^ 64 → 16384 ∣ t.time.gtc.toNat ∧ s.sw.time.gtc.toNat ≤ t.time.gtc.toNat ∧
        t.time.gtc.toNat ≤ s.sw.time.gtc.toNat + 16384 ∧ (s.sw.glb.clockAt = some s.sw.gtc → s.sw.time.gtc.toNat < t.time.gtc.toNat))) ∧
  (∀ (s : State), s.sw.glb.clockReq = s.sw.glb.clockTaken → stays .clockProfileChanged s) ∧
  (∀ (s : State) (d : Nat), d ≤ 4 → s.sw.glb.locked d = true → runsTo (.clockUnlock d) s [.glb] fun t =>
      t.glb.locked d = false ∧ SMap.find? d t.glb.unlockAt = some s.sw.now ∧
      (∀ k, k ≤ 4 → k ≠ d → t.glb.locked k = s.sw.glb.locked k)) ∧
  (∀ (s : State) (d : Nat), s.sw.glb.locked d = false → stays (.clockUnlock d) s) ∧
  (∀ (s : State) (d at_ : Nat), d ≤ 4 → SMap.find? d s.sw.glb.unlockAt = some at_ →
    runsTo (.pllRelock d) s [.glb, .evqs, .msix, .outs] fun t =>
      t.glb.locked d = true ∧ SMap.find? d t.glb.unlockAt = none ∧
      (∀ k, k ≤ 4 → k ≠ d → t.glb.locked k = s.sw.glb.locked k)) ∧
  (∀ (s : State) (d : Nat), SMap.find? d s.sw.glb.unlockAt = none → stays (.pllRelock d) s ∧ stays (.pllRelockTimeout d) s) ∧
  (∀ (s : State) (d at_ : Nat), SMap.find? d s.sw.glb.unlockAt = some at_ → s.sw.glb.stage = 5 →
    becomes (.pllRelockTimeout d) s (warmReset 5 (raiseSys 0x0A12 (le 1 d ++ le 4 0) s.sw))) ∧
  (∀ (s : State) (d at_ : Nat), SMap.find? d s.sw.glb.unlockAt = some at_ → s.sw.glb.stage ≠ 5 →
    becomes (.pllRelockTimeout d) s (raiseSys 0x0A12 (le 1 d ++ le 4 0) s.sw))

/-- REFERENCE_LOST while REF_OK clears REF_OK, notes the instant, raises 0x0920 and makes every lane of an active four-lane port
lose lock in ascending order, with cause 1; while REF_OK is clear nothing changes. REFERENCE_RETURN while REF_OK is clear sets
it, forgets the instant and raises 0x0920 and, after a loss, 0x0A13; start-up that waits in WAIT_REF goes on to SELF_TEST with
every PLL locked, and other stages stand; while REF_OK is set nothing changes. REFERENCE_HOLDOVER after a loss raises 0x0A13 and
performs a warm reset with cause REFERENCE (6), except during start-up; without a loss nothing changes. (R448, R464, R467, R478) -/
def Obligations.ReferenceRule : Prop :=
  (∀ (s : State), s.sw.glb.refOk = true →
    becomes .referenceLost s (each ((List.range 512).filter fun l => s.sw.quadActive (l / 4)) (laneLolOp · 1)
      (raiseSys 0x0920 (le 1 0) (s.sw.modGlb fun g => { g with refOk := false, refLostAt := some s.sw.now })))) ∧
  (∀ (s : State), s.sw.glb.refOk = false → stays .referenceLost s) ∧
  (∀ (s : State), s.sw.glb.refOk = false → s.sw.glb.stage ≠ 6 →
    runsTo .referenceReturn s [.glb, .evqs, .msix, .outs] fun t =>
      t.glb = { s.sw.glb with refOk := true, refLostAt := none }) ∧
  (∀ (s : State), s.sw.glb.refOk = false → s.sw.glb.stage = 6 →
    runsTo .referenceReturn s [.glb, .time, .evqs, .msix, .outs] fun t =>
      t.glb.refOk = true ∧ t.glb.stage = 2 ∧ (∀ d, d ≤ 4 → t.glb.locked d = true) ∧
      (s.sw.glb.kind ≠ 2 → t.time.gtc = 0) ∧ (s.sw.glb.kind = 2 → t.time = s.sw.time)) ∧
  (∀ (s : State), s.sw.glb.refOk = true → stays .referenceReturn s) ∧
  (∀ (s : State) (at_ : Nat), s.sw.glb.refLostAt = some at_ → s.sw.glb.stage = 5 →
    becomes .referenceHoldover s (warmReset 6 (raiseSys 0x0A13 (le 4 ((s.sw.now - at_) / 1000) ++ le 1 2) s.sw))) ∧
  (∀ (s : State) (at_ : Nat), s.sw.glb.refLostAt = some at_ → s.sw.glb.stage ≠ 5 →
    becomes .referenceHoldover s (raiseSys 0x0A13 (le 4 ((s.sw.now - at_) / 1000) ++ le 1 2) s.sw)) ∧
  (∀ (s : State), s.sw.glb.refLostAt = none → stays .referenceHoldover s)

/-- ACCESS_TIMEOUT counts one access that ended after 2 us, records its offset and function, and answers all ones to a read;
GLB_TILE_RESET of a SPARE or QUARANTINED tile puts that tile into reset with its address generator at reset values and keeps its
role; of another tile it is discarded and counted. TILE_SELF_TEST_DONE of a tile not in reset changes nothing; a QUARANTINED
tile in reset leaves it with the result recorded and stays QUARANTINED; a spare in reset that passes, in a grove with no logical
tile out of service, leaves it and stays a spare. GLB_PORT_RESET of an active four-lane port whose logical tile is being taken
over waits for the end of the take-over and changes nothing else; with no take-over it is the port reset; of a port number the
variant does not have it is discarded and counted. (R11, R15, R471, R472, R473, R476, R483, R484) -/
def Obligations.TileAndPortResetRule : Prop :=
  (∀ (s : State) (f off : Nat), runsTo (.accessTimeout f off false) s [.glb, .evTimes, .evqs, .msix, .outs] fun t =>
      t.glb.timeouts = s.sw.glb.timeouts + 1 ∧
      t.glb.timeoutAddr = BitVec.ofNat 32 (off % 2 ^ 24 + f % 256 * 2 ^ 24)) ∧
  (∀ (s : State) (f off : Nat), runsTo (.accessTimeout f off true) s [.glb, .evTimes, .evqs, .msix, .outs] fun t =>
      t.glb.timeouts = s.sw.glb.timeouts + 1 ∧ t.outs.getLast? = some (.regRead f off (le 4 0xFFFFFFFF))) ∧
  (∀ (s : State) (p : Nat), p < 144 → (s.sw.tile p).role = .spare ∨ (s.sw.tile p).role = .quarantined →
    runsTo (.glbTileReset p) s [.tiles] fun t =>
      (t.tile p).inReset = true ∧ (t.tile p).resetBy = 3 ∧ (t.tile p).role = (s.sw.tile p).role ∧
      (t.tile p).agRunning = false ∧ (t.tile p).agCount = [0, 0, 0, 0, 0, 0] ∧ othersSame Sw.tile p s.sw t) ∧
  (∀ (s : State) (p : Nat), (s.sw.tile p).role = .active ∨ (s.sw.tile p).role = .fused ∨ 144 ≤ p →
    runsTo (.glbTileReset p) s [.glb, .last0106, .evqs, .msix, .outs] fun t => t.glb.discards = s.sw.glb.discards + 1) ∧
  (∀ (s : State) (p : Nat) (pass : Bool), (s.sw.tile p).inReset = false → stays (.tileSelfTestDone p pass) s) ∧
  (∀ (s : State) (p : Nat) (pass : Bool), (s.sw.tile p).inReset = true → (s.sw.tile p).role = .quarantined →
    runsTo (.tileSelfTestDone p pass) s [.tiles, .evqs, .msix, .outs] fun t =>
      t.tile p = { s.sw.tile p with inReset := false, selfTest := pass } ∧ othersSame Sw.tile p s.sw t) ∧
  (∀ (s : State) (p : Nat), (s.sw.tile p).inReset = true → (s.sw.tile p).role = .spare →
    s.sw.outOfServiceOf (p / 36) = none →
    runsTo (.tileSelfTestDone p true) s [.tiles, .evqs, .msix, .outs] fun t =>
      t.tile p = { s.sw.tile p with inReset := false, selfTest := true } ∧ othersSame Sw.tile p s.sw t) ∧
  (∀ (s : State) (q : Nat), s.sw.quadActive q = true → s.sw.takingOver q = true →
    runsTo (.glbPortReset q) s [.quads] fun t =>
      t.quad q = { s.sw.quad q with resetWaits := true } ∧ othersSame Sw.quad q s.sw t) ∧
  (∀ (s : State) (q : Nat), s.sw.quadActive q = true → s.sw.takingOver q = false →
    becomes (.glbPortReset q) s (portReset4 q s.sw)) ∧
  (∀ (s : State) (q : Nat), s.sw.quadActive q = false →
    runsTo (.glbPortReset q) s [.glb, .last0106, .evqs, .msix, .outs] fun t => t.glb.discards = s.sw.glb.discards + 1)

/-- WARM after start-up performs the warm reset with its cause; during start-up it is a discarded write, counted under R11. COLD and
AUX_WATCHDOG (cause 9) while the module is on perform the cold reset at once whatever is in progress, POWER_OFF takes the links
down with POWER_DOWN and turns the module off; while it is off nothing changes. MOD_RESET_N low for less than 500 ns changes
nothing; low for 1 us or more it is low in the state and, on a module that is on, a cold reset with cause 1; between the two it
either changes nothing but the count of free values, or acts. Its release on a module that is on and was held begins start-up,
on a module in OFF_HELD with 38 V or more begins the rail sequence, and with the line high already nothing changes. (R11, R472, R475, R476, R483, R508, R566, R568) -/
def Obligations.ResetCommandsRule : Prop :=
  (∀ (s : State) (c : Nat), s.sw.glb.stage = 5 → becomes (.warm c) s (warmReset c s.sw)) ∧
  (∀ (s : State) (c : Nat), s.sw.glb.stage ≠ 5 → runsTo (.warm c) s [.glb, .last0106, .evqs, .msix, .outs] fun t =>
      t.glb.discards = s.sw.glb.discards + 1 ∧ t.glb.warms = s.sw.glb.warms ∧ t.glb.stage = s.sw.glb.stage) ∧
  (∀ (s : State) (c : Nat), s.sw.pwr.mod = .on → becomes (.cold c) s (coldReset c s.sw) ∧
      becomes .auxWatchdog s (coldReset 9 s.sw) ∧ becomes (.powerOff c) s (powerOff s.sw)) ∧
  (∀ (s : State) (c : Nat), s.sw.pwr.mod ≠ .on → stays (.cold c) s ∧ stays .auxWatchdog s ∧ stays (.powerOff c) s) ∧
  (∀ (s : State) (n : Nat), n < 500 → stays (.modResetN n) s) ∧
  (∀ (s : State) (n : Nat), 1000 ≤ n → s.sw.pwr.mod = .on →
    becomes (.modResetN n) s (coldReset 1 (s.sw.modGlb fun g => { g with modResetN := false }))) ∧
  (∀ (s : State) (n : Nat), 1000 ≤ n → s.sw.pwr.mod ≠ .on → runsTo (.modResetN n) s [.glb] fun t =>
      t.glb = { s.sw.glb with modResetN := false }) ∧
  (∀ (s : State) (n : Nat), 500 ≤ n → n < 1000 → s.sw.pwr.mod ≠ .on → runsTo (.modResetN n) s [.glb, .freeCtr] fun t =>
      t.glb = s.sw.glb ∨ t.glb = { s.sw.glb with modResetN := false }) ∧
  (∀ (s : State), s.sw.glb.modResetN = true → stays .modResetNRelease s) ∧
  (∀ (s : State), s.sw.glb.modResetN = false → s.sw.pwr.mod = .on → s.sw.glb.stage = 0 →
    runsTo .modResetNRelease s [.glb] fun t =>
      t.glb = { s.sw.glb with modResetN := true, stage := 1, startAt := s.sw.now }) ∧
  (∀ (s : State), s.sw.glb.modResetN = false → s.sw.pwr.mod = .offHeld → 38000 ≤ s.sw.pwr.vin →
    runsTo .modResetNRelease s [.glb, .pwr] fun t =>
      t.glb.modResetN = true ∧ t.pwr = { s.sw.pwr with mod := .sequencing, inputGone := false })

/-- After COLD on a module that is on: no context, no kernel, no flag, no ring and no event queue is held, job 0 is SEEDLING and is
the only job known, no port, lane or route entry is left of before, the time counter is at 0, and GLB_RESET_COUNT counts one
more cold reset and no warm one. Every tile keeps its role and logical number (a role change is a non-volatile record), each
stack its mapped-out and failed channels and lane repairs, the root of trust its two images and which is active, the wear
entries their samples and ages, and each laser site its latch with EN and MUTE_N low. The variant stands and the fuses stand. (R407, R472, R473, R479, R483) -/
def Obligations.ColdResetRule : Prop :=
  ∀ (s : State) (c : Nat), s.sw.pwr.mod = .on → ∃ t : Sw, exec (.cold c) s = .next { s with sw := t } ∧
    t.ctxs = [] ∧ t.kernels = [] ∧ t.migQueues = [] ∧ t.takeovers = [] ∧ t.host.flags = [] ∧ t.host.rings = [] ∧ t.host.evqs = [] ∧
    t.host.jobs = [(0, { state := .seedling, implicitMap := true })] ∧ t.host.sysValid = false ∧ t.ports = [] ∧ t.lanes = [] ∧
    t.fab = {} ∧ t.rcv = {} ∧ t.time.gtc = 0 ∧ t.glb.colds = s.sw.glb.colds + 1 ∧ t.glb.warms = s.sw.glb.warms ∧
    t.glb.cause = c ∧ t.glb.variant = s.sw.glb.variant ∧
    (∀ p, (t.tile p).role = (s.sw.tile p).role ∧ (t.tile p).logical = (s.sw.tile p).logical ∧ (t.tile p).inReset = false) ∧
    (∀ k, (t.stack k).mapout = (s.sw.stack k).mapout ∧ (t.stack k).failed = (s.sw.stack k).failed ∧
      (t.stack k).repair = (s.sw.stack k).repair) ∧
    t.sec.slotA = s.sw.sec.slotA ∧ t.sec.slotB = s.sw.sec.slotB ∧ t.sec.activeB = s.sw.sec.activeB ∧
    (∀ i, (t.wearOf i).samples = (s.sw.wearOf i).samples ∧ (t.wearOf i).age = (s.sw.wearOf i).age) ∧
    (∀ m, (t.site m).latched = (s.sw.site m).latched ∧ (t.site m).en = false ∧ (t.site m).muteN = false)

/-- After WARM at the end of start-up, with u the switch once LINK_DOWN has gone out on every UP port and unfinished writes are
given up: no context, kernel, flag, ring, event queue or route is left and job 0 is SEEDLING; every port keeps its ALLOW and its
TIME_ASYM and is bound to nothing, every four-lane port keeps its SPLIT, every lane its training settings and converged taps,
every CXL root its ENABLE, every tile its role; the time counter counts on from u with its frame period, the synchronisation
state is HOLDOVER when it was LOCKED in u and FREE_RUN otherwise. The laser sites, the engines, the CXL hold time, the wear
samples, the requested clock profile and the declared spread are those before the command, and GLB_RESET_COUNT counts one more
warm reset and no cold one, with the cause of the command. The fuses stand. (R309, R407, R473, R474, R479, R483) -/
def Obligations.WarmResetRule : Prop :=
  ∀ (s : State) (c : Nat), s.sw.glb.stage = 5 → ∃ u t : Sw,
    u = dropWrites (linkDownAll 2 s.sw) ∧ exec (.warm c) s = .next { s with sw := t } ∧
    t.ctxs = [] ∧ t.kernels = [] ∧ t.migQueues = [] ∧ t.host.flags = [] ∧ t.host.rings = [] ∧ t.host.evqs = [] ∧
    t.host.jobs = [(0, { state := .seedling, implicitMap := true })] ∧ t.fab = {} ∧
    (∀ n, (t.port n).reg.allow = (u.port n).reg.allow ∧ (t.port n).reg.timeAsym = (u.port n).reg.timeAsym) ∧
    (∀ n, (t.port n).reg.binding = none) ∧
    (∀ q, (t.quad q).split = (u.quad q).split) ∧
    (∀ l, (t.lane l).txInit = (u.lane l).txInit ∧ (t.lane l).trainMs = (u.lane l).trainMs ∧
      (t.lane l).conv = (u.lane l).conv) ∧
    (∀ p, (t.root p).enable = (u.root p).enable) ∧ (∀ p, (t.tile p).role = (u.tile p).role) ∧
    t.time.gtc = u.time.gtc ∧ t.time.period = u.time.period ∧
    (u.sync.state = .locked → t.sync.state = .holdover) ∧ (u.sync.state ≠ .locked → t.sync.state = .freeRun) ∧
    t.sites = s.sw.sites ∧ t.engines = s.sw.engines ∧ t.cxlHoldMs = s.sw.cxlHoldMs ∧
    (∀ i, (t.wearOf i).samples = (s.sw.wearOf i).samples) ∧
    t.glb.clockReq = s.sw.glb.clockReq ∧ t.glb.ssc = s.sw.glb.ssc ∧
    t.glb.warms = s.sw.glb.warms + 1 ∧ t.glb.colds = s.sw.glb.colds ∧ t.glb.cause = c

/-- STARTUP_STAGE_DONE in ROOT_OF_TRUST with a valid ACTIVE image that is not in its third trial and with the reference present goes
to SELF_TEST, records the time, starts that image and counts a trial in progress; without the reference it goes to WAIT_REF;
with neither image valid the stage stays and recovery begins. In WAIT_REF without the reference nothing changes, with it the
stage is SELF_TEST. SELF_TEST goes to MEMORY, and when no tile failed and no grove lacks a logical tile every tile keeps its
role and counts as tested unless it is FUSED. MEMORY goes to PORTS. PORTS goes to SEEDLING, records the start time in ms and
creates context 0 in the way start-up does. In RAILS and SEEDLING nothing changes. PCIE_PERST_N_DEASSERT raises the line and
brings the host link up exactly when power is good and the switch is not in recovery. (R478, R479, R480, R484, R506, R507) -/
def Obligations.StartUpRule : Prop :=
  (∀ (s : State) (m : Nat) (r : StageResults), s.sw.glb.stage = 1 → (s.sw.sec.slot s.sw.sec.activeB).ok s.fuses = true →
    (s.sw.sec.trial = true → s.sw.sec.tries ≠ 2) →
    runsTo (.startupStageDone m r) s [.glb, .sec, .time, .held] fun t =>
      t.glb.stage = (if s.sw.glb.refOk then 2 else 6) ∧ t.glb.stageMs = m ∧ t.sec.recovery = false ∧
      t.sec.runVersion = (s.sw.sec.slot s.sw.sec.activeB).version ∧ t.sec.activeB = s.sw.sec.activeB ∧
      t.sec.tries = (if s.sw.sec.trial then s.sw.sec.tries + 1 else s.sw.sec.tries)) ∧
  (∀ (s : State) (m : Nat) (r : StageResults), s.sw.glb.stage = 1 →
    s.sw.sec.slotA.ok s.fuses = false → s.sw.sec.slotB.ok s.fuses = false →
    runsTo (.startupStageDone m r) s [.glb, .sec, .time, .held] fun t => t.glb.stage = 1 ∧ t.sec.recovery = true) ∧
  (∀ (s : State) (m : Nat) (r : StageResults), s.sw.glb.stage = 6 → s.sw.glb.refOk = true →
    runsTo (.startupStageDone m r) s [.glb, .time] fun t => t.glb.stage = 2 ∧ t.glb.stageMs = m ∧ t.glb.timeLock = true) ∧
  (∀ (s : State) (m : Nat) (r : StageResults), s.sw.glb.stage = 0 ∨ s.sw.glb.stage = 5 ∨
    (s.sw.glb.stage = 6 ∧ s.sw.glb.refOk = false) → stays (.startupStageDone m r) s) ∧
  (∀ (s : State) (m : Nat) (r : StageResults), s.sw.glb.stage = 2 → ∃ t : Sw,
    exec (.startupStageDone m r) s = .next { s with sw := t } ∧ t.glb.stage = 3 ∧ t.glb.stageMs = m ∧
      (r.tilesFailed = [] → (∀ g, g < 4 → s.sw.outOfServiceOf g = none) → ∀ p, p < 144 →
        (t.tile p).role = (s.sw.tile p).role ∧ (t.tile p).selfTest = ((s.sw.tile p).role != .fused))) ∧
  (∀ (s : State) (m : Nat) (r : StageResults), s.sw.glb.stage = 3 → ∃ t : Sw,
    exec (.startupStageDone m r) s = .next { s with sw := t } ∧ t.glb.stage = 4 ∧ t.glb.stageMs = m) ∧
  (∀ (s : State) (m : Nat) (r : StageResults), s.sw.glb.stage = 4 → ∃ t u : Sw,
    exec (.startupStageDone m r) s = .next { s with sw := t } ∧ t.glb.stage = 5 ∧ t.glb.startTime = BitVec.ofNat 16 m ∧
      u.ctxs = s.sw.ctxs ∧ u.pool = s.sw.pool ∧ t.ctxs = (seedCtx u).ctxs ∧ t.host.jobs = s.sw.host.jobs) ∧
  (∀ (s : State), runsTo .pciePerstNDeassert s [.hostLink] fun t =>
      t.host.perstN = true ∧ (t.host.linkUp = true ↔ s.sw.glb.pwrgd = true ∧ s.sw.sec.recovery = false))

/-- POWER_ON_SEQUENCE with good rails of a module that is SEQUENCING and waits for no restart turns it ON, raises power good, begins
start-up (ROOT_OF_TRUST, or RAILS while MOD_RESET_N is held low) and counts one cold reset; in another state, or before
RAIL_FAULT_RESTART ends the wait, nothing changes. INPUT_RESTORED takes OFF_INPUT to SEQUENCING and leaves ON and SEQUENCING.
INPUT_LOW records the voltage and changes no other register of the power block. INPUT_POWER_LOSS on a module that is ON turns
the rails off into OFF_INPUT with cause 0 for the next start, in SEQUENCING into OFF_INPUT, and records the voltage.
INPUT_OVERVOLTAGE, INPUT_OVERCURRENT, a rail out of regulation and the fifth lost converter are rail faults while the module is
powered: with fewer than two in the last 60 s the module is SEQUENCING and waits for the restart, at the third it is OFF_HELD;
either way power good is low, the stage is RAILS and cause 7 is reported next. CONVERTER_LOST of one of at least five in service
marks it and keeps the others; of one already out nothing changes. (R472, R485, R486, R566, R567, R568) -/
def Obligations.PowerSequenceRule : Prop :=
  (∀ (s : State), s.sw.pwr.mod = .sequencing → s.sw.pwr.faultWait = false →
    runsTo (.powerOnSequence true) s [.glb, .pwr] fun t =>
      t.pwr.mod = .on ∧ t.glb.pwrgd = true ∧ t.glb.stage = (if s.sw.glb.modResetN then 1 else 0) ∧
      t.glb.cause = s.sw.pwr.nextCause ∧ t.glb.colds = s.sw.glb.colds + 1 ∧ t.glb.warms = s.sw.glb.warms) ∧
  (∀ (s : State) (g : Bool), s.sw.pwr.mod ≠ .sequencing ∨ s.sw.pwr.faultWait = true → stays (.powerOnSequence g) s) ∧
  (∀ (s : State), s.sw.pwr.mod = .sequencing → s.sw.pwr.faultWait = false →
    becomes (.powerOnSequence false) s (railFault s.sw)) ∧
  (∀ (s : State), runsTo .railFaultRestart s [.pwr] fun t => t.pwr = { s.sw.pwr with faultWait := false }) ∧
  (∀ (s : State), runsTo .inputRestored s [.pwr] fun t => t.pwr.vin = max s.sw.pwr.vin 38000 ∧
      (s.sw.pwr.mod = .offInput → t.pwr.mod = .sequencing) ∧
      (s.sw.pwr.mod = .offHeld → s.sw.pwr.inputGone = true → t.pwr.mod = .sequencing) ∧
      (s.sw.pwr.mod = .offHeld → s.sw.pwr.inputGone = false → t.pwr.mod = .offHeld) ∧
      (s.sw.pwr.mod = .on → t.pwr.mod = .on) ∧ (s.sw.pwr.mod = .sequencing → t.pwr.mod = .sequencing)) ∧
  (∀ (s : State) (mv : Nat), runsTo (.inputLow mv) s [.pwr, .evTimes, .evqs, .msix, .outs] fun t =>
      t.pwr = { s.sw.pwr with vin := mv }) ∧
  (∀ (s : State) (mv : Nat), s.sw.pwr.mod = .on → ∃ t : Sw, exec (.inputPowerLoss mv) s = .next { s with sw := t } ∧
      t.pwr.mod = .offInput ∧ t.pwr.vin = mv ∧ t.pwr.nextCause = 0 ∧ t.glb.pwrgd = false ∧ t.glb.stage = 0 ∧
      t.glb.colds = s.sw.glb.colds ∧ t.ctxs = []) ∧
  (∀ (s : State) (mv : Nat), s.sw.pwr.mod = .sequencing → runsTo (.inputPowerLoss mv) s [.pwr] fun t =>
      t.pwr.mod = .offInput ∧ t.pwr.vin = mv) ∧
  (∀ (s : State) (x : Nat), s.sw.pwr.mod = .on ∨ s.sw.pwr.mod = .sequencing →
    becomes (.inputOvervoltage x) s (railFault (s.sw.modPwr fun p => { p with vin := x })) ∧
    becomes (.inputOvercurrent x) s (railFault (s.sw.modPwr fun p => { p with iin := x }))) ∧
  (∀ (s : Sw), (railFault s).glb.pwrgd = false ∧ (railFault s).glb.stage = 0 ∧ (railFault s).pwr.nextCause = 7 ∧
      (railFault s).ctxs = [] ∧
      ((s.pwr.railFaults.filter fun t => decide (s.now - t ≤ 60000000000)).length < 2 →
        (railFault s).pwr.mod = .sequencing ∧ (railFault s).pwr.faultWait = true) ∧
      (2 ≤ (s.pwr.railFaults.filter fun t => decide (s.now - t ≤ 60000000000)).length →
        (railFault s).pwr.mod = .offHeld)) ∧
  (∀ (s : State) (c cause : Nat), c < 8 → s.sw.pwr.ibcOut.getLsbD c = false → s.sw.pwr.mod = .on →
    (bitsOf s.sw.pwr.ibcOut).length ≤ 3 →
    runsTo (.converterLost c cause) s [.pwr, .glb, .evqs, .msix, .outs] fun t =>
      t.pwr.ibcOut = setBit s.sw.pwr.ibcOut c ∧ t.pwr.mod = .on ∧ s.sw.pwr.inForce ≤ t.pwr.inForce ∧
      ibcFloor t.pwr.ibcOut ≤ t.pwr.inForce) ∧
  (∀ (s : State) (c cause : Nat), s.sw.pwr.ibcOut.getLsbD c = true → stays (.converterLost c cause) s)

/-- PWR_PROFILE_WRITE of 0 to 3 stores the request; the profile in force becomes the highest-numbered of request, thermal step,
limiter step and converter ceiling when that lies above it, and stays otherwise. 4 and above is discarded and counted.
PROFILE_LOWER_TICK takes the profile in force down to that candidate, with the clock limit of the profile, and changes nothing
when the candidate is not lower. POWER_LIMIT_SAMPLE takes the readings, adds the input power to the energy, and at the second
millisecond in a row above the cap of the profile in force raises the limiter step by one, to at most 3; below the cap of the
first it raises none. THERMAL_SAMPLE on a module that is not ON changes nothing; with readings all cool and no step, no trip
pending and no warning, it stores the readings and turns nothing off; a sensor at or above trip in two readings in a row turns
the module off into OFF_HELD with cause 8. (R11, R466, R488, R489, R491, R492, R493, R494) -/
def Obligations.PowerProfileRule : Prop :=
  (∀ (s : State) (v : Nat), v < 4 → runsTo (.pwrProfileWrite v) s [.pwr, .glb, .evqs, .msix, .outs] fun t =>
      t.pwr.profile = v ∧
      t.pwr.inForce = max s.sw.pwr.inForce (max (max (max v s.sw.pwr.bmcProfile) s.sw.pwr.thermal)
        (max s.sw.pwr.limit (ibcFloor s.sw.pwr.ibcOut)))) ∧
  (∀ (s : State) (v : Nat), 4 ≤ v → runsTo (.pwrProfileWrite v) s [.glb, .last0106, .evqs, .msix, .outs] fun t =>
      t.glb.discards = s.sw.glb.discards + 1) ∧
  (∀ (s : State), s.sw.pwr.want < s.sw.pwr.inForce →
    runsTo .profileLowerTick s [.pwr, .glb, .time, .evqs, .msix, .outs] fun t =>
      t.pwr = { s.sw.pwr with inForce := s.sw.pwr.want } ∧ t.glb.clockLimit = clockCeiling s.sw.pwr.want) ∧
  (∀ (s : State), s.sw.pwr.inForce ≤ s.sw.pwr.want → stays .profileLowerTick s) ∧
  (∀ (s : State) (m : PowerSample), profileCap s.sw.glb.variant s.sw.pwr.inForce < m.pin → 1 ≤ s.sw.pwr.overRun →
    s.sw.pwr.limit < 3 →
    runsTo (.powerLimitSample m) s [.pwr, .glb, .evTimes, .evqs, .msix, .outs] fun t =>
      t.pwr.limit = s.sw.pwr.limit + 1 ∧ t.pwr.pin = m.pin ∧ t.pwr.energy = s.sw.pwr.energy + BitVec.ofNat 64 m.pin ∧
      s.sw.pwr.limit + 1 ≤ t.pwr.inForce) ∧
  (∀ (s : State) (m : PowerSample), profileCap s.sw.glb.variant s.sw.pwr.inForce < m.pin → s.sw.pwr.overRun = 0 →
    s.sw.pwr.underRun = 0 → s.sw.pwr.limit = 0 →
    runsTo (.powerLimitSample m) s [.pwr] fun t =>
      t.pwr.limit = 0 ∧ t.pwr.overRun = 1 ∧ t.pwr.pin = m.pin ∧ t.pwr.inForce = s.sw.pwr.inForce) ∧
  (∀ (s : State) (l : List ThermalReading), s.sw.pwr.mod ≠ .on → stays (.thermalSample l) s) ∧
  (∀ (s : State) (t : Int), s.sw.pwr.mod = .on → s.sw.pwr.thermal = 0 → t < 40 * 8 →
    (314 * (s.sw.pwr.outlet.toInt - (BitVec.ofInt 8 (t / 8)).toInt) ≤ (s.sw.pwr.pin : Int)) →
    runsTo (.thermalSample [{ kind := 4, idx := 0, temp := t }]) s [.pwr] fun u =>
      u.pwr.inlet = BitVec.ofInt 8 (t / 8) ∧ u.pwr.thermal = 0 ∧ u.pwr.tripping = [] ∧ u.pwr.mod = .on) ∧
  (∀ (s : State) (i : Nat) (t : Int), s.sw.pwr.mod = .on → 115 * 8 ≤ t → i ∈ s.sw.pwr.tripping →
    ∃ u : Sw, exec (.thermalSample [{ kind := 0, idx := i, temp := t }]) s = .next { s with sw := u } ∧
      u.pwr.mod = .offHeld ∧ u.pwr.nextCause = 8 ∧ u.glb.pwrgd = false ∧ u.pwr.trip.isSome = true)

/-- WEAR_AF_UPDATE adds the acceleration factor of the entry's kind and temperature to the age and to the day's sum of every present
entry, counts one second, and leaves samples, BASE and every entry of an absent component; power-on hours grow by one at a full
hour. It changes nothing but the wear block. The acceleration factor at 55 C, the reference of 328.15 K, is 1 for every kind.
WEAR_DAILY_SAMPLE with one entry puts its indicator, age and mean factor in front of the entry's samples, of which at most 365
are kept, takes the first indicator ever as BASE, and ends the day's sums; entries it does not name stand. (R497, R498, R499, R500, R501) -/
def Obligations.WearRule : Prop :=
  (∀ (s : State), runsTo .wearAfUpdate s [.wear] fun t =>
      t.wear.secs = s.sw.wear.secs + 1 ∧
      t.wear.poh = (if (s.sw.wear.secs + 1) % 3600 = 0 then s.sw.wear.poh + 1 else s.sw.wear.poh) ∧
      (∀ i, i < 753 → s.sw.wearPresent i = true →
        t.wearOf i = { s.sw.wearOf i with
          age := (s.sw.wearOf i).age + accel (wearKind i) (s.sw.wearTemp i)
          afDay := ((s.sw.wearOf i).afDay.1 + accel (wearKind i) (s.sw.wearTemp i), (s.sw.wearOf i).afDay.2 + 1) }) ∧
      (∀ i, s.sw.wearPresent i = false ∨ 753 ≤ i → t.wearOf i = s.sw.wearOf i)) ∧
  (∀ kind, accel kind (8 * 55) = 2 ^ 20) ∧
  (∀ (s : State) (i : Nat) (ind : Int), s.sw.wearPresent i = true →
    runsTo (.wearDailySample [(i, ind)]) s [.wear, .evqs, .msix, .outs] fun t =>
      (t.wearOf i).samples.head? = some { ind := ind, age := (s.sw.wearOf i).age, af :=
        if (s.sw.wearOf i).afDay.2 = 0 then 0 else (s.sw.wearOf i).afDay.1 / (s.sw.wearOf i).afDay.2 } ∧
      (t.wearOf i).samples.length = min 365 ((s.sw.wearOf i).samples.length + 1) ∧ (t.wearOf i).based = true ∧
      (t.wearOf i).base = (if (s.sw.wearOf i).based then (s.sw.wearOf i).base else ind) ∧
      (t.wearOf i).age = (s.sw.wearOf i).age ∧ (t.wearOf i).afDay = (0, 0) ∧ t.wear.secs = 0 ∧
      othersSame Sw.wearOf i s.sw t)

/-- From the BMC while I3C serves management, and in a MGMT descriptor from the PF that passes the header checks, names the code and
holds nothing but its arguments: TILE_QUARANTINE of an ACTIVE or SPARE tile ends OK with the quarantine of cause 4, of another
tile DENIED, of tile 144 or above BAD_DESCRIPTOR; TILE_CLEAR of a QUARANTINED tile ends OK and resets, tests and, on a pass,
returns it as a spare, of another tile DENIED; CHANNEL_CLEAR of a populated stack and a channel below 32 removes the recorded
failure, else BAD_DESCRIPTOR; LOCATE of 0 or 1 sets LOCATE, else BAD_DESCRIPTOR; PROFILE of 0 to 3 from the BMC sets BMC_PROFILE
and raises the profile in force when it must, from the PF it is DENIED, above 3 BAD_DESCRIPTOR. A command of the BMC while
management is not served changes nothing; a descriptor with another CODE than its row's, or with other bits set, completes
BAD_DESCRIPTOR and acts on nothing. (R15, R307, R384, R489, R528, R529, R536) -/
def Obligations.ManagementRule : Prop :=
  (∀ (s : State) (p : Nat), p < 144 → (s.sw.tile p).role = .active ∨ (s.sw.tile p).role = .spare →
    mgmtEnds (.tileQuarantine · p) 0x03 1 p stOk s (quarantine p 4)) ∧
  (∀ (s : State) (p : Nat), p < 144 → (s.sw.tile p).role = .fused ∨ (s.sw.tile p).role = .quarantined →
    mgmtEnds (.tileQuarantine · p) 0x03 1 p stDenied s id) ∧
  (∀ (s : State) (p : Nat), 144 ≤ p → mgmtEnds (.tileQuarantine · p) 0x03 1 p stBad s id ∧
    (∀ pass, mgmtEnds (.tileClear · p pass) 0x04 1 p stBad s id)) ∧
  (∀ (s : State) (p : Nat) (pass : Bool), p < 144 → (s.sw.tile p).role = .quarantined →
    mgmtEnds (.tileClear · p pass) 0x04 1 p stOk s (clearTile p pass)) ∧
  (∀ (s : State) (p : Nat) (pass : Bool), p < 144 → (s.sw.tile p).role ≠ .quarantined →
    mgmtEnds (.tileClear · p pass) 0x04 1 p stDenied s id) ∧
  (∀ (s : State) (k c : Nat), s.sw.stackPopulated k = true → c < 32 →
    mgmtEnds (.channelClear · k c) 0x05 2 (k + 256 * c) stOk s (Sw.modStack k fun t => { t with failed := clrBit t.failed c })) ∧
  (∀ (s : State) (k c : Nat), k < 256 → c < 256 → s.sw.stackPopulated k = false ∨ 31 < c →
    mgmtEnds (.channelClear · k c) 0x05 2 (k + 256 * c) stBad s id) ∧
  (∀ (s : State) (v : Nat), v < 2 → mgmtEnds (.locate · v) 0x08 1 v stOk s (Sw.modSec fun c => { c with locate := v == 1 })) ∧
  (∀ (s : State) (v : Nat), 2 ≤ v → mgmtEnds (.locate · v) 0x08 1 v stBad s id) ∧
  (∀ (s : State) (v : Nat), 4 ≤ v → mgmtEnds (.profile · v) 0x02 1 v stBad s id) ∧
  (∀ (s : State) (v : Nat), v < 4 →
    (s.sw.served = true → becomes (.profile none v) s ((mgmtEvent false 0x02 stOk
      (profileAdjust (s.sw.modPwr fun p => { p with bmcProfile := v }))).out (.reply true (le 1 0x02 ++ le 1 stOk)))) ∧
    (∀ b : Sub, headerGood 0x93 b s → b.f 8 1 = 2 → b.f 9 1 = v → b.only [by_ 8 2] = true →
      endsWith (.profile (some b) v) s 0x93 b stDenied (mgmtEvent true 0x02 stDenied))) ∧
  (∀ (s : State) (p : Nat) (pass : Bool), s.sw.served = false →
    stays (.tileQuarantine none p) s ∧ stays (.tileClear none p pass) s ∧ stays (.channelClear none p p) s ∧
    stays (.locate none p) s ∧ stays (.profile none p) s ∧ stays (.reset none p) s ∧ stays (.mgmtFwActivate none) s ∧
    stays (.svnAdvance none) s) ∧
  (∀ (s : State) (b : Sub) (v : Nat), headerGood 0x93 b s → b.f 8 1 ≠ 8 ∨ b.only [by_ 8 2] = false →
    endsWith (.locate (some b) v) s 0x93 b stBad (mgmtEvent true (b.f 8 1) stBad))

/-- Quarantine of a spare leaves it QUARANTINED with its cause, raises 0x0622 and changes nothing else. Quarantine of an ACTIVE tile
that carries q, with a spare on the grove: the tile is QUARANTINED without a logical tile and in reset, the lowest-numbered
SPARE of the grove is ACTIVE and carries q, a take-over of q is in progress by it, and every other tile keeps role and logical
tile. PERIODIC_SELF_TEST of a spare that passes records it and changes nothing else; one that fails is quarantined with cause 2;
on a tile that is no spare nothing changes. TAKE_OVER_COMPLETE with no take-over of that logical tile changes nothing; with one,
and no context held, the take-over is over and every tile keeps its role. A clear whose self-test fails leaves the tile
QUARANTINED. (R15, R16, R21, R290, R307) -/
def Obligations.QuarantineRule : Prop :=
  (∀ (s : Sw) (p cause : Nat), (s.tile p).role = .spare →
    Sw.keeps [.tiles, .evqs, .msix, .outs] s (quarantine p cause s) ∧ othersSame Sw.tile p s (quarantine p cause s) ∧
    (quarantine p cause s).tile p = { s.tile p with role := .quarantined, logical := none, qcause := cause }) ∧
  (∀ (s : Sw) (p q sp cause : Nat), (s.tile p).role = .active → (s.tile p).logical = some q → s.spareOf (p / 36) = some sp →
    (quarantine p cause s).takeovers = SMap.set q sp s.takeovers ∧
    ((quarantine p cause s).tile p).role = .quarantined ∧ ((quarantine p cause s).tile p).logical = none ∧
    ((quarantine p cause s).tile p).inReset = true ∧
    ((quarantine p cause s).tile sp).role = .active ∧ ((quarantine p cause s).tile sp).logical = some q ∧
    (∀ k, k ≠ p → k ≠ sp → ((quarantine p cause s).tile k).role = (s.tile k).role ∧
      ((quarantine p cause s).tile k).logical = (s.tile k).logical)) ∧
  (∀ (s : State) (p : Nat), (s.sw.tile p).role = .spare →
    (runsTo (.periodicSelfTest p true) s [.tiles] fun t =>
      t.tile p = { s.sw.tile p with selfTest := true } ∧ othersSame Sw.tile p s.sw t) ∧
    (runsTo (.periodicSelfTest p false) s [.tiles, .evqs, .msix, .outs] fun t =>
      t.tile p = { s.sw.tile p with selfTest := false, role := .quarantined, logical := none, qcause := 2 } ∧
      othersSame Sw.tile p s.sw t)) ∧
  (∀ (s : State) (p : Nat) (pass : Bool), (s.sw.tile p).role ≠ .spare → stays (.periodicSelfTest p pass) s) ∧
  (∀ (s : State) (q : Nat), s.sw.takingOver q = false → stays (.takeOverComplete q) s) ∧
  (∀ (s : State) (q : Nat), s.sw.takingOver q = true → ∃ t : Sw, exec (.takeOverComplete q) s = .next { s with sw := t } ∧
    (s.sw.ctxs = [] → (s.sw.quad q).resetWaits = false →
      t.takeovers = SMap.erase q s.sw.takeovers ∧ t.tiles = s.sw.tiles ∧ t.lanes = s.sw.lanes)) ∧
  (∀ (s : Sw) (p : Nat), (s.tile p).role = .quarantined →
    ((clearTile p false s).tile p).role = .quarantined ∧ ((clearTile p false s).tile p).selfTest = false ∧
    Sw.keeps [.tiles, .evqs, .msix, .outs] s (clearTile p false s)) ∧
  (∀ (s : Sw) (p : Nat), (s.tile p).role = .quarantined → s.outOfServiceOf (p / 36) = none →
    ((clearTile p true s).tile p).role = .spare ∧ othersSame Sw.tile p s (clearTile p true s) ∧
    Sw.keeps [.tiles, .evqs, .msix, .outs] s (clearTile p true s))

/-- FW_LOAD with FIRST while no session is open erases the inactive slot, opens the PF's session, writes the bytes at OFFSET and
completes OK; the active slot and every byte outside the written range of the erased slot stand. While a session is open FIRST
completes DENIED, and so does a further part without the PF's session; OFFSET that is no multiple of 4 KiB or a write past 32
MiB completes BAD_DESCRIPTOR. UPDATE_SESSION_TIMEOUT closes the session and changes nothing else. PLDM RequestUpdate while none
is open opens the BMC's session with the inactive slot erased and answers 0; while one is open it answers ALREADY_IN_UPDATE_MODE
(0x81) and changes nothing; cancelling it closes it. FW_ACTIVATE, the management command and PLDM ActivateFirmware with a valid
inactive slot, no session and start-up done make it ACTIVE on trial with TRIES 0, complete, and begin the warm reset with cause
4; with an open session they end DENIED, with an inactive slot that is not valid BAD_DESCRIPTOR. (R505, R506, R509, R510, R528, R536) -/
def Obligations.FirmwareRule : Prop :=
  (∀ (s : State) (b : Sub), headerGood 0x90 b s → b.only [bi_ 8 0 2, by_ 12 4, by_ 24 8, by_ 40 4] = true →
    b.f 12 4 % 4096 = 0 → b.f 12 4 + b.f 40 4 ≤ 2 ^ 25 → b.flag 8 0 = true → b.flag 8 1 = false → b.hostErr = none →
    s.sw.sec.session = none →
    runsTo (.fwLoad b) s (.sec :: descParts) fun t =>
      t.sec.session = some false ∧ t.sec.activeB = s.sw.sec.activeB ∧
      t.sec.slot s.sw.sec.activeB = s.sw.sec.slot s.sw.sec.activeB ∧ t.sec.other.valid = false ∧
      (∀ a, a < b.f 12 4 ∨ b.f 12 4 + b.f 40 4 ≤ a → t.sec.other.byte a = 0xFF) ∧
      (∀ k, k < b.f 40 4 → t.sec.other.byte (b.f 12 4 + k) = b.host.getD k 0)) ∧
  (∀ (s : State) (b : Sub), headerGood 0x90 b s → b.only [bi_ 8 0 2, by_ 12 4, by_ 24 8, by_ 40 4] = true →
    b.f 12 4 % 4096 = 0 → b.f 12 4 + b.f 40 4 ≤ 2 ^ 25 →
    (b.flag 8 0 = true ∧ s.sw.sec.session ≠ none) ∨ (b.flag 8 0 = false ∧ s.sw.sec.session ≠ some false) →
    endsWith (.fwLoad b) s 0x90 b stDenied id) ∧
  (∀ (s : State) (b : Sub), headerGood 0x90 b s → b.f 12 4 % 4096 ≠ 0 ∨ 2 ^ 25 < b.f 12 4 + b.f 40 4 →
    endsWith (.fwLoad b) s 0x90 b stBad id) ∧
  (∀ (s : State), runsTo .updateSessionTimeout s [.sec] fun t => t.sec = { s.sw.sec with session := none }) ∧
  (∀ (s : State), s.sw.i3cServed = true → s.sw.sec.session = none →
    runsTo (.pldmFirmwareUpdate .requestUpdate) s [.sec, .outs] fun t =>
      t.sec.session = some true ∧ (∀ a, t.sec.other.byte a = 0xFF) ∧ t.sec.slot s.sw.sec.activeB = s.sw.sec.slot s.sw.sec.activeB ∧
      t.outs = s.sw.outs ++ [.reply true (le 1 0)]) ∧
  (∀ (s : State), s.sw.i3cServed = true → s.sw.sec.session ≠ none →
    runsTo (.pldmFirmwareUpdate .requestUpdate) s [.outs] fun t => t.outs = s.sw.outs ++ [.reply true (le 1 0x81)]) ∧
  (∀ (s : State), s.sw.i3cServed = true → s.sw.sec.session = some true →
    runsTo (.pldmFirmwareUpdate .cancel) s [.sec, .outs] fun t => t.sec = { s.sw.sec with session := none }) ∧
  (∀ (s : State) (b : Sub), headerGood 0x91 b s → b.only [] = true → s.sw.glb.stage = 5 → s.sw.sec.session = none →
    s.sw.sec.other.ok s.fuses = true →
    becomes (.fwActivate b) s (warmReset 4 (complete (descTok 0x91 b s.sw) stOk ((descSw 0x91 b s.sw).modSec fun c =>
      { c with activeB := !c.activeB, trial := true, tries := 0 })))) ∧
  (∀ (s : State) (b : Sub), headerGood 0x91 b s → b.only [] = true → s.sw.sec.session ≠ none ∨ s.sw.glb.stage ≠ 5 →
    endsWith (.fwActivate b) s 0x91 b stDenied id) ∧
  (∀ (s : State), s.sw.glb.stage = 5 → s.sw.sec.session = none → s.sw.sec.other.ok s.fuses = false →
    mgmtEnds .mgmtFwActivate 0x06 0 0 stBad s id) ∧
  (∀ (s : State), s.sw.served = true → s.sw.glb.stage = 5 → s.sw.sec.session = none → s.sw.sec.other.ok s.fuses = true →
    becomes (.mgmtFwActivate none) s (warmReset 4 ((mgmtEvent false 0x06 stOk (activate s.sw)).out
      (.reply true (le 1 0x06 ++ le 1 stOk)))) ∧
    becomes (.activateFirmware true) s (warmReset 4 ((activate s.sw).out (.reply true (le 1 stOk))))) ∧
  (∀ (s : State) (b : Sub), headerGood 0x93 b s → b.f 8 1 = 6 → b.only [by_ 8 1] = true → s.sw.glb.stage = 5 →
    s.sw.sec.session = none → s.sw.sec.other.ok s.fuses = true →
    becomes (.mgmtFwActivate (some b)) s (warmReset 4 (complete (descTok 0x93 b s.sw) stOk
      (mgmtEvent true 0x06 stOk (activate (descSw 0x93 b s.sw)))))) ∧
  (∀ (s : State), s.sw.served = true → s.sw.sec.session ≠ none →
    runsTo (.activateFirmware true) s [.outs] fun t => t.outs = s.sw.outs ++ [.reply true (le 1 stDenied)])

/-- RESET of kind 1 to 3 ends OK and then performs the warm reset, the cold reset or power-off, with cause 3 from the BMC and 2 in a
descriptor; kind 0 or above 3 ends BAD_DESCRIPTOR, WARM during start-up DENIED. SVN_ADVANCE with TRIAL clear, the running key
not among those to revoke and the floor not at the running SVN raises the floor to it, revokes those keys in the fuses and
raises 0x0C05; else it ends DENIED and the fuses stand. DEBUG_UNLOCK with a token that verifies over DEVICE_ID and the nonce is
answered OK, recorded, and followed by the cold reset; with one that does not it ends DENIED and counts one invalid token; after
three every one is DENIED and nothing is counted. LIFECYCLE_RETURN with a valid token makes the part RETURNED, else it ends
DENIED and the fuses stand. ENTDAA gives the target its 7-bit address while I3C is served. A short press of ATTN toggles LOCATE;
a long press with BTN_ENABLE and BTN_POWER powers off, in recovery it changes nothing. The debug port offers boundary scan in
PRODUCTION while MOD_RESET_N is low, the rest while DEBUG_OPEN is set. (R475, R511, R522, R523, R524, R525, R528, R534, R536) -/
def Obligations.RootOfTrustRule : Prop :=
  (∀ (s : State) (k : Nat), s.sw.served = true → k = 1 ∨ k = 2 ∨ k = 3 → (k = 1 → s.sw.glb.stage = 5) →
    becomes (.reset none k) s ((if k = 1 then warmReset 3 else if k = 2 then coldReset 3 else powerOff)
      ((mgmtEvent false 0x01 stOk s.sw).out (.reply true (le 1 0x01 ++ le 1 stOk))))) ∧
  (∀ (s : State) (b : Sub) (k : Nat), headerGood 0x93 b s → b.f 8 1 = 1 → b.f 9 1 = k → b.only [by_ 8 2] = true →
    k = 1 ∨ k = 2 ∨ k = 3 → (k = 1 → s.sw.glb.stage = 5) →
    becomes (.reset (some b) k) s ((if k = 1 then warmReset 2 else if k = 2 then coldReset 2 else powerOff)
      (complete (descTok 0x93 b s.sw) stOk (mgmtEvent true 0x01 stOk (descSw 0x93 b s.sw))))) ∧
  (∀ (s : State) (k : Nat), k = 0 ∨ 3 < k → mgmtEnds (.reset · k) 0x01 1 k stBad s id) ∧
  (∀ (s : State), s.sw.glb.stage ≠ 5 → mgmtEnds (.reset · 1) 0x01 1 1 stDenied s id) ∧
  (∀ (s : State), s.sw.served = true → s.sw.sec.trial = false → s.sw.sec.runRevoke.getLsbD s.sw.sec.runKey = false →
    s.fuses.svnFloor ≠ s.sw.sec.runSvn → ∃ t : State, exec (.svnAdvance none) s = .next t ∧
      t.fuses = { s.fuses with
        svnFloor := max s.fuses.svnFloor s.sw.sec.runSvn, revoked := s.fuses.revoked ||| s.sw.sec.runRevoke } ∧
      Sw.keeps [.held, .evqs, .msix, .outs] s.sw t.sw ∧ t.pending = s.pending) ∧
  (∀ (s : State) (b : Sub), headerGood 0x93 b s → b.f 8 1 = 7 → b.only [by_ 8 1] = true → s.sw.sec.trial = false →
    s.sw.sec.runRevoke.getLsbD s.sw.sec.runKey = false → s.fuses.svnFloor ≠ s.sw.sec.runSvn →
    ∃ t : State, exec (.svnAdvance (some b)) s = .next t ∧ t.fuses = { s.fuses with
        svnFloor := max s.fuses.svnFloor s.sw.sec.runSvn, revoked := s.fuses.revoked ||| s.sw.sec.runRevoke } ∧
      Sw.keeps (.held :: descParts) s.sw t.sw ∧ t.pending = s.pending) ∧
  (∀ (s : State), s.sw.sec.trial = true ∨ s.sw.sec.runRevoke.getLsbD s.sw.sec.runKey = true ∨
    s.fuses.svnFloor = s.sw.sec.runSvn → mgmtEnds .svnAdvance 0x07 0 0 stDenied s id) ∧
  (∀ (s : State) (tok : List Byte), s.sw.served = true → s.sw.sec.badTokens < 3 →
    ecdsaOk Config.debugKey (debugMessage s.sw) tok = true → ∃ w : Sw,
      w.sec = { s.sw.sec with unlockNext := true } ∧ Sw.keeps [.sec, .held, .evqs, .msix, .outs] s.sw w ∧
      becomes (.debugUnlock none tok) s (coldReset 3 w) ∧ (coldReset 3 w).sec.debugOpen = true) ∧
  (∀ (s : State) (b : Sub) (tok : List Byte), headerGood 0x93 b s → b.f 8 1 = 9 → b.only [by_ 8 1, by_ 24 8] = true →
    b.hostErr = none → s.sw.sec.badTokens < 3 → ecdsaOk Config.debugKey (debugMessage s.sw) b.host = true → ∃ w : Sw,
      w.sec = { s.sw.sec with unlockNext := true } ∧ Sw.keeps (.sec :: .held :: descParts) s.sw w ∧
      becomes (.debugUnlock (some b) tok) s (coldReset 2 w)) ∧
  (∀ (s : State) (tok : List Byte), s.sw.served = true → s.sw.sec.badTokens < 3 →
    ecdsaOk Config.debugKey (debugMessage s.sw) tok = false →
    runsTo (.debugUnlock none tok) s [.sec, .held, .evqs, .msix, .outs] fun t =>
      t.sec = { s.sw.sec with badTokens := s.sw.sec.badTokens + 1 } ∧
      t.outs.getLast? = some (.reply true (le 1 0x09 ++ le 1 stDenied))) ∧
  (∀ (s : State) (tok : List Byte), s.sw.served = true → 3 ≤ s.sw.sec.badTokens →
    runsTo (.debugUnlock none tok) s [.held, .evqs, .msix, .outs] fun t =>
      t.outs.getLast? = some (.reply true (le 1 0x09 ++ le 1 stDenied))) ∧
  (∀ (s : State) (tok : List Byte), s.sw.served = true → ∃ t : State, exec (.lifecycleReturn none tok) s = .next t ∧
      t.fuses = (if Config.returnToken Config.deviceId tok then { s.fuses with lifecycle := 2 } else s.fuses) ∧
      Sw.keeps [.held, .evqs, .msix, .outs] s.sw t.sw ∧ t.pending = s.pending) ∧
  (∀ (s : State) (b : Sub) (tok : List Byte), headerGood 0x93 b s → b.f 8 1 = 0x0A → b.only [by_ 8 1, by_ 24 8] = true →
    b.hostErr = none → ∃ t : State, exec (.lifecycleReturn (some b) tok) s = .next t ∧
      t.fuses = (if Config.returnToken Config.deviceId b.host then { s.fuses with lifecycle := 2 } else s.fuses) ∧
      Sw.keeps (.held :: descParts) s.sw t.sw ∧ t.pending = s.pending) ∧
  (∀ (s : State) (a : Nat), s.sw.i3cServed = true → runsTo (.entdaa a) s [.sec] fun t =>
      t.sec = { s.sw.sec with i3cAddr := some (a % 128) }) ∧
  (∀ (s : State), s.sw.i3cServed = true → runsTo .attnShortPress s [.sec, .held, .evqs, .msix, .outs] fun t =>
      t.sec = { s.sw.sec with locate := !s.sw.sec.locate }) ∧
  (∀ (s : State), s.sw.served = true → s.sw.sec.btnEnable = true → s.sw.sec.btnPower = true →
    becomes .attnLongPress s (powerOff (raiseHeld 0x0C31 (le 1 0xFF ++ le 1 2) s.sw))) ∧
  (∀ (s : State), s.sw.served = false → stays .attnLongPress s) ∧
  (∀ (s : State), (s.fuses.lifecycle = 1 → debugOffers .boundaryScan s = !s.sw.glb.modResetN) ∧
    ∀ a, a ≠ .boundaryScan → debugOffers a s = s.sw.sec.debugOpen)

/-- On a transport that is served: GET_VERSION with version byte 0x10 begins a new connection (step 1) and answers versions 1.1 and
1.2; GET_CAPABILITIES in step 1 takes the request's version 1.1 or 1.2 and goes to step 2; NEGOTIATE_ALGORITHMS in step 2 that
offers ECDSA P-384 and SHA-384 goes to step 3; GET_DIGESTS, GET_CERTIFICATE of slot 0, CHALLENGE and GET_MEASUREMENTS in step 3
with the negotiated version stay there. Each is answered once on its own transport, request and answer join the transcript, and
only the root of trust's block, what leaves the chip and, for a nonce, the count of free values change. A request in another
step is answered ERROR (unexpected request, 4) and the connection stands. GET_SENSOR_READING answers completion code 0 and the
value of a sensor that exists, 0x80 for one that does not. On a transport that is not served nothing changes. (R512, R513, R514, R526) -/
def Obligations.SpdmRule : Prop :=
  (∀ (s : State) (i3c : Bool) (msg : List Byte), spdmServed i3c s.sw = true → byteAt msg 0 = 0x10 →
    runsTo (.getVersion i3c msg) s [.sec, .outs] fun t =>
      (t.sec.spdm i3c).step = 1 ∧ (t.sec.spdm i3c).version = 0 ∧ t.sec.spdm (!i3c) = s.sw.sec.spdm (!i3c) ∧
      t.outs = s.sw.outs ++ [.reply i3c [0x10, 0x04, 0, 0, 0, 2, 0x00, 0x11, 0x00, 0x12]]) ∧
  (∀ (s : State) (i3c : Bool) (msg : List Byte), spdmServed i3c s.sw = true → 4 ≤ msg.length → (s.sw.sec.spdm i3c).step = 1 →
    byteAt msg 0 = 0x11 ∨ byteAt msg 0 = 0x12 →
    runsTo (.getCapabilities i3c msg) s [.sec, .outs] fun t =>
      (t.sec.spdm i3c).step = 2 ∧ (t.sec.spdm i3c).version = byteAt msg 0 ∧ t.sec.spdm (!i3c) = s.sw.sec.spdm (!i3c) ∧
      ∃ r, t.outs = s.sw.outs ++ [.reply i3c r] ∧ (t.sec.spdm i3c).transcript = (s.sw.sec.spdm i3c).transcript ++ msg ++ r) ∧
  (∀ (s : State) (i3c : Bool) (msg : List Byte), spdmServed i3c s.sw = true → 16 ≤ msg.length → (s.sw.sec.spdm i3c).step = 2 →
    byteAt msg 0 = (s.sw.sec.spdm i3c).version → (bytesAt msg 8 4).testBit 7 = true → (bytesAt msg 12 4).testBit 1 = true →
    runsTo (.negotiateAlgorithms i3c msg) s [.sec, .outs] fun t =>
      (t.sec.spdm i3c).step = 3 ∧ (t.sec.spdm i3c).version = (s.sw.sec.spdm i3c).version ∧
      t.sec.spdm (!i3c) = s.sw.sec.spdm (!i3c) ∧
      ∃ r, t.outs = s.sw.outs ++ [.reply i3c r] ∧ (t.sec.spdm i3c).transcript = (s.sw.sec.spdm i3c).transcript ++ msg ++ r) ∧
  (∀ (s : State) (i3c : Bool) (msg : List Byte), spdmServed i3c s.sw = true → (s.sw.sec.spdm i3c).step = 3 →
    byteAt msg 0 = (s.sw.sec.spdm i3c).version → 37 ≤ msg.length → s.fuses.lifecycle ≠ 2 → byteAt msg 2 = 0 →
    (runsTo (.getDigests i3c msg) s [.sec, .outs] fun t => (t.sec.spdm i3c).step = 3 ∧
      t.outs = s.sw.outs ++ [.reply i3c (spdmHead (byteAt msg 0) 0x01 0 1 ++ sha384 (certChain s.sw))]) ∧
    (bytesAt msg 4 2 < (certChain s.sw).length →
      runsTo (.getCertificate i3c msg) s [.sec, .outs] fun t => (t.sec.spdm i3c).step = 3 ∧
        ∃ r, t.outs = s.sw.outs ++ [.reply i3c r] ∧ r.drop 8 = ((certChain s.sw).drop (bytesAt msg 4 2)).take (bytesAt msg 6 2)) ∧
    (byteAt msg 3 ∈ [0, 1, 0xFF] →
      runsTo (.challenge i3c msg) s [.sec, .outs, .freeCtr] fun t => (t.sec.spdm i3c).step = 3 ∧
        ∃ r, t.outs = s.sw.outs ++ [.reply i3c r] ∧ (t.sec.spdm i3c).transcript = (s.sw.sec.spdm i3c).transcript ++ msg ++ r) ∧
    (byteAt msg 3 ∈ [0, 1, 2, 3, 4, 0xFF] →
      runsTo (.getMeasurements i3c msg) s [.sec, .outs, .freeCtr] fun t => (t.sec.spdm i3c).step = 3 ∧
        ∃ r, t.outs = s.sw.outs ++ [.reply i3c r] ∧ (t.sec.spdm i3c).transcript = (s.sw.sec.spdm i3c).transcript ++ msg ++ r)) ∧
  (∀ (s : State) (i3c : Bool) (msg : List Byte), spdmServed i3c s.sw = true → 37 ≤ msg.length →
    (s.sw.sec.spdm i3c).step ≠ 3 →
    ∀ c ∈ [Instr.getDigests i3c msg, .getCertificate i3c msg, .challenge i3c msg, .getMeasurements i3c msg],
      runsTo c s [.outs] fun t => t.outs = s.sw.outs ++ [.reply i3c [BitVec.ofNat 8 (s.sw.sec.spdm i3c).ver, 0x7F, 4, 0]]) ∧
  (∀ (s : State) (i3c : Bool) (id : Nat), spdmServed i3c s.sw = true → runsTo (.getSensorReading i3c id) s [.outs] fun t =>
      t.outs = s.sw.outs ++ [.reply i3c (match sensorValue s.sw id with | some v => le 1 0 ++ leInt 4 v | none => le 1 0x80)]) ∧
  (∀ (s : State) (i3c : Bool) (msg : List Byte) (id : Nat), spdmServed i3c s.sw = false →
    ∀ c ∈ [Instr.getVersion i3c msg, .getCapabilities i3c msg, .negotiateAlgorithms i3c msg, .getDigests i3c msg,
      .getCertificate i3c msg, .challenge i3c msg, .getMeasurements i3c msg, .getSensorReading i3c id], stays c s)

/-- INSTALL puts the key and salt of the 64-byte record, whose last 28 bytes are 0, into the slot with both counters 0; ACTIVATE
makes a slot that holds a key the transmit slot; ERASE empties the slot. Each raises event 0x0C11 with port, slot and action and
changes no other port. A port that is not active, an action above 2, ACTIVATE of an empty slot or a record with another last
byte ends BAD_DESCRIPTOR; INSTALL and ERASE of the transmit slot or of the slot the partner uses, on an ENGAGED port, end
DENIED, and every action does while debug is open. (R521) -/
def Obligations.LinkKeyRule : Prop :=
  ∀ (s : State) (b : Sub) (n slot : Nat), headerGood 0x92 b s → n = b.f 8 2 → slot = b.bits 10 0 1 → b.only ([by_ 8 2, bi_ 10 0 1, by_ 11 1] ++ (if b.f 11 1 = 0 then [by_ 24 8] else [])) = true →
    (s.sw.portActive n = false ∨ 2 < b.f 11 1 ∨ b.f 11 1 = 1 ∧ (s.sw.port n).sec.key? slot = none → endsWith (.linkKey b) s 0x92 b stBad id) ∧
    (s.sw.portActive n = true → (b.f 11 1 = 0 → b.hostErr = none) →
      (b.f 11 1 = 0 → allZero ((b.host.drop 36).take 28) = false → endsWith (.linkKey b) s 0x92 b stBad id) ∧
      (b.f 11 1 = 0 → allZero ((b.host.drop 36).take 28) = true →
        (s.sw.sec.debugOpen = true ∨ (s.sw.port n).sec.engaged = true ∧ ((s.sw.port n).sec.txSlot = slot ∨ (s.sw.port n).sec.partnerKp = slot) → endsWith (.linkKey b) s 0x92 b stDenied id) ∧
        (s.sw.sec.debugOpen = false → (s.sw.port n).sec.engaged = false ∨ (s.sw.port n).sec.txSlot ≠ slot ∧ (s.sw.port n).sec.partnerKp ≠ slot →
          endsWith (.linkKey b) s 0x92 b stOk fun w => raiseHeld 0x0C11 (le 2 n ++ le 1 slot ++ le 1 0) (w.modPSec n fun p => p.setKey slot
            (some { key := BitVec.ofNat 256 (bytesAt b.host 0 32), salt := BitVec.ofNat 32 (bytesAt b.host 32 4), txCount := 0, x := 0, fails := 0 })))) ∧
      (b.f 11 1 = 1 → (s.sw.port n).sec.key? slot ≠ none →
        (s.sw.sec.debugOpen = true → endsWith (.linkKey b) s 0x92 b stDenied id) ∧
        (s.sw.sec.debugOpen = false → endsWith (.linkKey b) s 0x92 b stOk fun w => raiseHeld 0x0C11 (le 2 n ++ le 1 slot ++ le 1 1) (w.modPSec n fun p => { p with txSlot := slot }))) ∧
      (b.f 11 1 = 2 →
        (s.sw.sec.debugOpen = true ∨ (s.sw.port n).sec.engaged = true ∧ ((s.sw.port n).sec.txSlot = slot ∨ (s.sw.port n).sec.partnerKp = slot) → endsWith (.linkKey b) s 0x92 b stDenied id) ∧
        (s.sw.sec.debugOpen = false → (s.sw.port n).sec.engaged = false ∨ (s.sw.port n).sec.txSlot ≠ slot ∧ (s.sw.port n).sec.partnerKp ≠ slot →
          endsWith (.linkKey b) s 0x92 b stOk fun w => raiseHeld 0x0C11 (le 2 n ++ le 1 slot ++ le 1 2) (w.modPSec n fun p => p.setKey slot none)))) ∧
    (s.sw.portActive n = true → ∀ t, becomes (.linkKey b) s t → othersSame (fun w k => w.port k) n s.sw t)

/-- For every aligned offset of BAR0 that holds no register, in a clock domain that runs: a read answers 0 and changes nothing else;
a write of any value leaves every register, context and port as it was, increments GLB_REG_DISCARD_COUNT, puts the offset and
cause 2, a reserved offset, in GLB_REG_DISCARD_ADDR, and raises event 0x0106 with offset, value and function unless one was
raised for this offset within the last millisecond (R435). (R542) -/
def Obligations.ReservedOffsetRule : Prop :=
  ∀ (s : State) (off : Nat) (v : Word) (u : Sw), s.sw.hostReach 0 = true → off < 2 ^ 24 → off % 4 = 0 → stopped s.sw off = false → regAt s.fuses s.sw off = none →
    u = (s.sw.modGlb fun g => { g with discards := g.discards + 1, discardAddr := BitVec.ofNat 32 (off + 2 * 2 ^ 24) }) →
    becomes (.loReadLatch 0 false off 4) s (s.sw.out (.regRead 0 off (le 4 0))) ∧
    (∀ t, SMap.find? off s.sw.host.last0106 = some t → s.sw.now - t < ms → becomes (.registerWrite 0 .bar0 off 4 v) s u) ∧
    ((∀ t, SMap.find? off s.sw.host.last0106 = some t → ms ≤ s.sw.now - t) → becomes (.registerWrite 0 .bar0 off 4 v) s
      (raiseSys 0x0106 (le 4 off ++ le 4 v.toNat ++ le 1 0) (u.modHost fun h => { h with last0106 := h.last0106.set off u.now })))

/-- For every command c, state s and queue rest: the step of s with c at the front of its queue is exec of c on s with the rest.
Every command of the table completes, in every state and with all operands: exec answers the next state that the operation of
its row makes of the switch, and the fuses and the waiting commands stand (the management commands and the dispatch of a
descriptor act on the whole state). For the descriptors of a ring that operation is the checks of R416 and then what the opcode
does (descOp); for cells it is their arrival at a port and then what the cell does in its context; for each of the others it is
named beside the command. The other statements say what these operations do. With no command waiting the step goes on, changes
nothing but the block of time, and counts one nanosecond of elapsed time; with no offset left to correct and no frequency
correction the GTC advances by one. The order is the model's queue, first in, first out, and the idle nanosecond is its own
choice (DESIGN CHOICE, log 5). (12 R404, R412) -/
def Obligations.StepRule : Prop :=
  (∀ (s : State) (c : Instr) (rest : List Instr), step { s with pending := c :: rest } = exec c { s with pending := rest }) ∧
  (∀ (s : State), s.pending = [] → ∃ t, step s = .next { s with sw := t } ∧ Sw.keeps [.time] s.sw t ∧ t.time.elapsed = s.sw.time.elapsed + 1 ∧
    (s.sw.time.slew = 0 → s.sw.time.frac < 16 → s.sw.time.freq = (0, 0) → t.gtc = s.sw.gtc + 1 ∧ t.time.frac = s.sw.time.frac)) ∧
  (∀ (s : State) (b : Sub), ∀ e ∈ descRows, (e.1 = 2 → (s.sw.ring b.ring).wait = none) → becomes (e.2 b) s (runDesc e.1 (descOp s.fuses e.1) b s.sw)) ∧
  (∀ (s : State),
    (∀ (via : Option Sub) (tile : Nat), exec (.tileQuarantine via tile) s = .next (mgmt via 0x03 1 tile tileQuarantineAct s)) ∧
    (∀ (quad : Nat), becomes (.takeOverComplete quad) s (takeOverDone quad s.sw)) ∧
    (∀ (tile : Nat) (pass : Bool), becomes (.periodicSelfTest tile pass) s (selfTestSpare tile pass s.sw)) ∧
    (∀ (via : Option Sub) (tile : Nat) (pass : Bool), exec (.tileClear via tile pass) s = .next (mgmt via 0x04 1 tile (tileClearAct pass) s)) ∧
    (∀ (port : Nat) (frame : Frame) (codewords symbols uncorrectable : Nat), becomes (.frameReceive port frame codewords symbols uncorrectable) s (frameOp port frame codewords symbols uncorrectable s.sw)) ∧
    (∀ (port : Nat), becomes (.replayTimeout port) s (if s.sw.up port then startReplay port s.sw else s.sw)) ∧
    (∀ (port : Nat) (cell : Cell), becomes (.creditReceive port cell) s (portCell port ctCredit cell (creditOp port) s.sw)) ∧
    (∀ (port : Nat), becomes (.creditTimer port) s (let w := s.sw; let w := payPaced port w; if (w.port port).link.freedNew.any (fun k => k != 0) then sendCredit port w else w)) ∧
    (∀ (port : Nat), becomes (.heartbeatPeriod port) s (heartbeatOp port s.sw)) ∧
    (∀ (port : Nat), becomes (.heartbeatMiss port) s (heartbeatMissOp port s.sw)) ∧
    (∀ (port : Nat) (cell : Cell), becomes (.linkIdReceive port cell) s (portCell port ctLinkId cell (linkIdOp port) s.sw)) ∧
    (∀ (port : Nat), becomes (.linkIdTimer port) s (if (s.sw.port port).reg.state == .identify then sendLinkId port s.sw else s.sw)) ∧
    (∀ (port : Nat), becomes (.identifyTimeout port) s (identifyTimeoutOp port s.sw)) ∧
    (∀ (quad : Nat), becomes (.splitDarkTimeout quad) s (splitDarkOp quad s.sw)) ∧
    (∀ (quad : Nat), becomes (.splitRetry quad) s (if (s.sw.quad quad).failedTrial then splitTrial quad s.sw else s.sw)) ∧
    (∀ (port : Nat), becomes (.searchRateStep port) s (if (s.sw.port port).reg.state == .search then modLanes port (Lane.nextRate (s.sw.port port).reg.allowNow) s.sw else s.sw)) ∧
    (∀ (port : Nat) (cell : Cell), becomes (.linkDownReceive port cell) s (portCell port ctLinkDown cell (linkDownOp port) s.sw)) ∧
    (∀ (port : Nat), becomes (.lostRetryTimer port) s (lostRetryOp port s.sw)) ∧
    (∀ (port : Nat), becomes (.adminUpWrite0 port) s (adminDown port s.sw)) ∧
    (∀ (port : Nat), becomes (.adminUpWrite1 port) s (adminUpOp port s.sw)) ∧
    (∀ (port : Nat) (cell : Cell), becomes (.memberCellReceive port cell) s (toContext port cell memberCellOp s.sw)) ∧
    (∀ (ctx opnum port gcell : Nat), becomes (.stagedContributionConvert ctx opnum port gcell) s (convertOp ctx opnum port gcell s.sw)) ∧
    (∀ (port : Nat) (cell : Cell), becomes (.recordReceive port cell) s (toContext port cell recordOp s.sw)) ∧
    (∀ (port : Nat) (cell : Cell), becomes (.replayNoticeReceive port cell) s (toContext port cell (noticeOp true) s.sw)) ∧
    (∀ (port : Nat) (cell : Cell), becomes (.anchorNoticeReceive port cell) s (toContext port cell (noticeOp false) s.sw)) ∧
    (∀ (port : Nat) (cell : Cell), becomes (.p2pCellReceive port cell) s (p2pArrive port cell s.sw)) ∧
    (∀ (port : Nat) (cell : Cell), becomes (.congEchoReceive port cell) s (echoArrive port cell s.sw)) ∧
    (∀ (port cdst : Nat), becomes (.pacingRaiseTimer port cdst) s (paceRaise port cdst s.sw)) ∧
    (∀ (port tc : Nat), becomes (.memberEgressStall port tc) s (memberStallOp port tc s.sw)) ∧
    (∀ (port : Nat), becomes (.egressService port) s (serveOp port s.sw)) ∧
    (∀ (port : Nat) (cell : Cell), becomes (.joinReceive port cell) s (toContext port cell (joinCell ctJoin) s.sw)) ∧
    (∀ (port : Nat) (cell : Cell), becomes (.joinStatusReceive port cell) s (toContext port cell statusArrive s.sw)) ∧
    (∀ (port : Nat) (cell : Cell), becomes (.countsReceive port cell) s (toContext port cell countsCellArrive s.sw)) ∧
    (∀ (port : Nat) (cell : Cell), becomes (.exchangeCellReceive port cell) s (p2pArrive port cell s.sw)) ∧
    (∀ (port : Nat) (cell : Cell), becomes (.barrierArriveReceive port cell) s (toContext port cell (joinCell ctArrive) s.sw)) ∧
    (∀ (port : Nat) (cell : Cell), becomes (.barrierReleaseReceive port cell) s (toContext port cell releaseArrive s.sw)) ∧
    (∀ (ctx opnum gcell port : Nat), becomes (.latenessExpiry ctx opnum gcell port) s (latenessOp ctx opnum gcell port s.sw)) ∧
    (∀ (ctx opnum port gcell : Nat) (contribution : Bool), becomes (.stallTimeout ctx opnum port gcell contribution) s (stallOp ctx opnum port gcell contribution s.sw)) ∧
    (∀ (port : Nat), becomes (.memberLossTimeout port) s (each s.sw.ctxs.keys (lossOf port) s.sw)) ∧
    (∀ (port : Nat) (cell : Cell), becomes (.abortNoticeReceive port cell) s (toContext port cell abortArrive s.sw)) ∧
    becomes (.seedlingRebound) s (reboundOp s.sw) ∧
    becomes (.seedlingRebindTimeout) s (if s.sw.seedIdle && !s.sw.glb.rebound && s.sw.glb.firstMemberUp.isSome then rebind s.sw else s.sw) ∧
    becomes (.frameTick) s (frameTickOp s.sw) ∧
    (∀ (msg : BitVec 128) (mark : Quad) (frac : BitVec 4), becomes (.timingMessageReceive msg mark frac) s (timingMessageOp msg mark frac s.sw)) ∧
    becomes (.timingInputTimeout) s (inputInvalid s.sw) ∧
    becomes (.timingOutputMark) s (timingOutOp s.sw) ∧
    (∀ (port : Nat) (cell : Cell) (stamp : Quad) (frac : BitVec 4), becomes (.syncReceive port cell stamp frac) s (let w := s.sw; let (oc, w) := ingress port cell w; timeArrive port (syncOp port (16 * (stamp.toNat : Int) + (frac.toNat : Int))) oc w)) ∧
    (∀ (port : Nat) (cell : Cell) (stamp : Quad) (frac : BitVec 4), becomes (.delayReqReceive port cell stamp frac) s (let w := s.sw; let (oc, w) := ingress port cell w; timeArrive port (delayReqOp port stamp frac) oc w)) ∧
    (∀ (port : Nat) (cell : Cell) (stamp : Quad) (frac : BitVec 4), becomes (.delayRespReceive port cell stamp frac) s (let w := s.sw; let (oc, w) := ingress port cell w; timeArrive port (delayRespOp port) oc w)) ∧
    (∀ (port : Nat) (cell : Cell), becomes (.announceReceive port cell) s (let w := s.sw; let (oc, w) := ingress port cell w; timeArrive port (announceOp port) oc w)) ∧
    becomes (.syncInterval) s (syncIntervalOp s.sw) ∧
    becomes (.delayReqTimer) s (delayReqTimerOp s.sw) ∧
    becomes (.delayReqTimeout) s (s.sw.modSync (fun y => { y with req := none })) ∧
    (∀ (port : Nat), becomes (.announceTimeout port) s (if s.sw.sync.ann.mem port then dropAnnounce port 2 s.sw else s.sw)) ∧
    becomes (.holdoverExpired) s (holdoverOp s.sw) ∧
    (∀ (value : Nat), becomes (.sourceWrite value) s (writeSource value s.sw)) ∧
    (∀ (value : Nat), becomes (.periodLog2Write value) s (writePeriod 0 value s.sw)) ∧
    becomes (.framePeriodChanged) s (periodChangedOp s.sw) ∧
    (∀ (ctx opnum : Nat), becomes (.launchInstant ctx opnum) s (launchOp ctx opnum s.sw)) ∧
    (∀ (ctx opnum gcell : Nat), becomes (.gradientAreaFull ctx opnum gcell) s (areaWrite ctx opnum gcell s.sw)) ∧
    (∀ (port : Nat) (cell : Cell), becomes (.mirrorRecordReceive port cell) s (toContext port cell recordOp s.sw)) ∧
    (∀ (ctx shard : Nat), becomes (.waitPinResume ctx shard) s (pinResume ctx shard s.sw)) ∧
    (∀ (ctx : Nat), becomes (.reshardMoveStart ctx) s (moveStart ctx s.sw)) ∧
    (∀ (ctx : Nat), becomes (.reshardDrainTimeout ctx) s (drainTimeout ctx s.sw)) ∧
    (∀ (port : Nat) (cell : Cell), becomes (.moveCellReceive port cell) s (toContext port cell moveOp s.sw)) ∧
    (∀ (ctx shard : Nat), becomes (.reshardResendTimeout ctx shard) s (resendImage ctx shard s.sw)) ∧
    (∀ (port : Nat) (cell : Cell), becomes (.normReceive port cell) s (toContext port cell normOp s.sw)) ∧
    (∀ (ctx ugroup : Nat), becomes (.normResendTimer ctx ugroup) s (normResend ctx ugroup s.sw)) ∧
    (∀ (ctx ugroup : Nat), becomes (.updateGradWait ctx ugroup) s (gradWaitEvent ctx ugroup s.sw)) ∧
    (∀ (ctx ugroup : Nat), becomes (.normWaitTimeout ctx ugroup) s (normWaitEvent ctx ugroup s.sw)) ∧
    (∀ (ctx ugroup layer : Nat), becomes (.layerPreComplete ctx ugroup layer) s (layerPre ctx ugroup layer s.sw)) ∧
    (∀ (ctx ugroup shard : Nat), becomes (.shardCommit ctx ugroup shard) s (commitShard ctx ugroup shard s.sw)) ∧
    (∀ (ctx ugroup shard : Nat), becomes (.idleCommit ctx ugroup shard) s (commitIdle ctx ugroup shard s.sw)) ∧
    (∀ (grove : Nat), becomes (.migrationStart grove) s (migStart grove s.sw)) ∧
    (∀ (grove : Nat), becomes (.migrationCopyDone grove) s (migDone grove s.sw)) ∧
    (∀ (port : Nat) (cell : Cell), becomes (.pruneCellReceive port cell) s (toContext port cell (fun x q c s => if pruneOf x c s then memberCellOp x q c s else s) s.sw)) ∧
    (∀ (port : Nat) (cell : Cell), becomes (.zeroRunReceive port cell) s (toContext port cell (fun x q c s => if pruneOf x c s && byteAt (bytes64 c.pay) 0 == 0xF0 then recordOp x q c s else s) s.sw)) ∧
    (∀ (port : Nat) (cell : Cell), becomes (.resultAckReceive port cell) s (toContext port cell ackArrive s.sw)) ∧
    (∀ (port : Nat) (cell : Cell), becomes (.reinjectReqReceive port cell) s (toContext port cell reinjectArrive s.sw)) ∧
    (∀ (port : Nat) (cell : Cell), becomes (.digestReceive port cell) s (toContext port cell digestArrive s.sw)) ∧
    (∀ (ctx opnum : Nat), becomes (.digestCompareTimeout ctx opnum) s (digestCompareEnd ctx opnum s.sw)) ∧
    becomes (.graftSelfTestDone) s (graftSelfTest s.sw) ∧
    becomes (.graftLinkTestDone) s (graftLinkTest s.sw) ∧
    becomes (.graftVectorsDone) s (graftVectors s.sw) ∧
    becomes (.graftVectorTimeout) s (graftVectorEnd s.sw) ∧
    (∀ (port : Nat) (cell : Cell), becomes (.graftCellReceive port cell) s (graftCellIn port cell s.sw)) ∧
    (∀ (ctx : Nat), becomes (.graftCopyTimeout ctx) s (copyTimeout ctx s.sw)) ∧
    becomes (.flipTimer) s (flipTimerOp s.sw) ∧
    (∀ (port : Nat) (cell : Cell), becomes (.epochCellReceive port cell) s (epochIn port cell s.sw)) ∧
    (∀ (version : Nat), becomes (.epochDrained version) s (drained version s.sw)) ∧
    (∀ (cls place : Nat), becomes (.poolWaitServed cls place) s (poolServe cls place s.sw)) ∧
    (∀ (tile region word corrected : Nat) (uncorrectable : Bool), becomes (.sramScrub tile region word corrected uncorrectable) s (sramScrub tile region word corrected uncorrectable s.sw)) ∧
    (∀ (stack ta corrected : Nat) (uncorrectable : Option MemRegion), becomes (.patrolScrub stack ta corrected uncorrectable) s (patrolScrub (if uncorrectable.isSome then s.sw.stackAt stack ta else stack) ta corrected uncorrectable s.sw)) ∧
    (∀ (root : Nat), becomes (.cxlEnable root) s (onlyIf (decide (root < 2)) (Sw.modRoot root (fun r => { r with enable := true })) s.sw)) ∧
    (∀ (root width speed extents : Nat), becomes (.cxlLinkUp root width speed extents) s (cxlUp root width speed extents s.sw)) ∧
    (∀ (root cause : Nat), becomes (.cxlLinkTimeout root cause) s (onlyIf (decide (root < 2) && (s.sw.root root).enable && !(s.sw.root root).linkUp) (raiseSys 0x0811 (le 2 root ++ le 1 cause)) s.sw)) ∧
    (∀ (root cause : Nat), becomes (.cxlLinkDown root cause) s (cxlDown root cause s.sw)) ∧
    (∀ (root : Nat), becomes (.cxlHoldTimeout root) s (cxlHoldEnds root s.sw)) ∧
    (∀ (sub : Sub), becomes (.wait sub) s (if (s.sw.ring sub.ring).wait.isSome then s.sw else runDesc 0x02 waitOp sub s.sw)) ∧
    (∀ (job : Nat), becomes (.teardownComplete job) s (teardown job s.sw)) ∧
    (∀ (func ring : Nat), becomes (.ringEnable func ring) s (onlyIf (s.sw.ringReach func ring) (ringStart func ring) s.sw)) ∧
    (∀ (func ring : Nat), becomes (.ringDisable func ring) s (onlyIf (s.sw.ringReach func ring) (ringStop ring) s.sw)) ∧
    (∀ (ring : Nat), becomes (.descriptorFetch ring) s (let w := s.sw; let r := w.ring ring; onlyIf (w.linked && (r.state == .running || r.state == .waiting) && r.fetching == 0) (Sw.modRing ring (fun r => { r with fetching := r.readable })) w)) ∧
    (∀ (ring : Nat) (descs : List Desc) (error : Nat), becomes (.fetchComplete ring descs error) s (fetchEnds ring descs error s.sw)) ∧
    (∀ (ring : Nat) (host : List Byte) (hostErr : Option Quad), exec (.descriptorDispatch ring host hostErr) s = .next (dispatchNext ring host hostErr s)) ∧
    (∀ (func ring : Nat) (value : Word), becomes (.tail func ring value) s (ringBell func ring value (tailWrite ring value) s.sw)) ∧
    (∀ (func ring : Nat), becomes (.cancelWait func ring) s (ringBell func ring 1 (endWait ring stAborted) s.sw)) ∧
    (∀ (func ring : Nat), becomes (.resume func ring) s (ringBell func ring 2 (Sw.modRing ring resumeRing) s.sw)) ∧
    (∀ (func evq : Nat) (value : Word), becomes (.evqDoorbell func evq value) s (evqBell func evq value s.sw)) ∧
    (∀ (func evq : Nat), becomes (.evqEnable func evq) s (onlyIf (s.sw.evqReach func evq) (evqStart func evq) s.sw)) ∧
    (∀ (func evq : Nat), becomes (.evqDisable func evq) s (onlyIf (s.sw.evqReach func evq) (evqStop func evq) s.sw)) ∧
    (∀ (job : Nat) (hostEdges : List (Nat × Nat)), becomes (.waitStall job hostEdges) s (waitStall job hostEdges s.sw)) ∧
    (∀ (func : Nat), becomes (.flr func) s (flrOf func s.sw)) ∧
    (∀ (cause : Nat), becomes (.hostLinkReset cause) s (holdEvent 0x0A04 (le 1 cause) ((flrOf 0 s.sw).modHost (fun h => { h with vfEnable := false, numVfs := 0, linkUp := h.linkUp && cause != 1, perstN := h.perstN && cause != 1 })))) ∧
    (∀ (func : Nat) (space : RegSpace) (offset size : Nat) (value : Word), becomes (.registerWrite func space offset size value) s (writeOp s.fuses func space offset size value s.sw)) ∧
    (∀ (func : Nat) (bmc : Bool) (offset size : Nat), becomes (.loReadLatch func bmc offset size) s (readOp s.fuses bmc func offset size s.sw)) ∧
    (∀ (lane rate : Nat), becomes (.laneLock lane rate) s (laneLockOp lane rate s.sw)) ∧
    (∀ (lane : Nat) (control status : Word) (ready : Bool) (snr : Half) (skewNs : Nat), becomes (.trainingFrameReceive lane control status ready snr skewNs) s (trainingFrame lane control status ready snr skewNs s.sw)) ∧
    (∀ (lane : Nat), becomes (.trainTimeout lane) s (trainTimeoutOp lane s.sw)) ∧
    (∀ (lane : Nat) (power : Half), becomes (.laneLos lane power) s (laneLosOp lane power s.sw)) ∧
    (∀ (lane : Nat) (power : Half), becomes (.laneLosClear lane power) s
      (onlyIf (s.sw.quadActive (lane / 4)) (Sw.modLane lane (fun x => { x with los := false, apr := false, pulse := none, rxPower := power })) s.sw)) ∧
    (∀ (lane cause : Nat), becomes (.laneLol lane cause) s (laneLolOp lane cause s.sw)) ∧
    (∀ (lane : Nat), becomes (.aprEntered lane) s (aprEnter lane s.sw)) ∧
    (∀ (lane : Nat), becomes (.aprRestartPulse lane) s (s.sw.modLane lane (fun x => if x.apr && x.lit && !s.sw.laneDark lane then { x with pulse := some s.sw.now } else x))) ∧
    (∀ (lane : Nat), becomes (.clear lane) s (Sw.modTest lane (fun t => { t with bits := 0, errs := 0 }) s.sw)) ∧
    (∀ (lane : Nat), becomes (.injectSingle lane) s (injectWrite 0 lane (s.sw.lane lane).test.injCount (s.sw.lane lane).test.injPeriod (s.sw.lane lane).test.injSyms 1 s.sw)) ∧
    (∀ (lane periodLog2 : Nat), becomes (.injectPeriodic lane periodLog2) s (injectWrite 0 lane (s.sw.lane lane).test.injCount (periodLog2 % 32) (s.sw.lane lane).test.injSyms 2 s.sw)) ∧
    (∀ (lane syms count : Nat), becomes (.injectFecSymbols lane syms count) s (injectWrite 0 lane (count % 256) (s.sw.lane lane).test.injPeriod (syms % 32) 3 s.sw)) ∧
    (∀ (lane : Nat) (value : Word), becomes (.laneTestStart lane value) s (testWrite 0 lane value s.sw)) ∧
    (∀ (engine : Nat) (feedB : Bool) (power : Half), becomes (.feedLost engine feedB power) s (feedLostOp engine feedB power s.sw)) ∧
    (∀ (engine : Nat) (feedB : Bool) (power : Half), becomes (.feedRestored engine feedB power) s (feedRestoredOp engine feedB power s.sw)) ∧
    (∀ (site : Nat), becomes (.latchClose site) s (latchCloseOp site s.sw)) ∧
    (∀ (site : Nat), becomes (.latchOpen site) s (latchOpenOp site s.sw)) ∧
    (∀ (site : Nat) (serial : Quad) (unfit : Nat), becomes (.laserIdentityRead site serial unfit) s (identityRead site serial unfit s.sw)) ∧
    (∀ (site : Nat), becomes (.laserIdentityTimeout site) s (if (s.sw.site site).state == .identify then siteRefused site 1 s.sw else s.sw)) ∧
    (∀ (site : Nat), becomes (.laserRampDone site) s (rampDone site s.sw)) ∧
    (∀ (site : Nat) (serial : Quad) (powers : List Half) (bias : Half) (temp : Byte) (fault : Bool), becomes (.laserPoll site serial powers bias temp fault) s (laserPollOp site serial powers bias temp fault s.sw)) ∧
    (∀ (site : Nat), becomes (.prepRemove site) s (prepRemoveOp site s.sw)) ∧
    (∀ (site : Nat), becomes (.prepRemoveCancel site) s (prepCancel site s.sw)) ∧
    (∀ (site : Nat), becomes (.mutingDone site) s (mutingDoneOp site s.sw)) ∧
    (∀ (site : Nat), becomes (.laserEnable site) s (laserOn site s.sw)) ∧
    (∀ (site : Nat), becomes (.laserDisable site) s (laserOff site s.sw)) ∧
    (∀ (site ms : Nat), becomes (.siteButton site ms) s (siteButtonOp site ms s.sw)) ∧
    (∀ (value : Nat), becomes (.clockProfileWrite value) s (clockWrite 0 value s.sw)) ∧
    becomes (.clockProfileChanged) s (clockChange s.sw) ∧
    (∀ (domain : Nat), becomes (.clockUnlock domain) s (unlockOp domain s.sw)) ∧
    (∀ (domain : Nat), becomes (.pllRelock domain) s (relockOp domain s.sw)) ∧
    (∀ (domain : Nat), becomes (.pllRelockTimeout domain) s (relockTimeout domain s.sw)) ∧
    becomes (.referenceLost) s (refLost s.sw) ∧
    becomes (.referenceReturn) s (refBack s.sw) ∧
    becomes (.referenceHoldover) s (refHoldover s.sw) ∧
    (∀ (func offset : Nat) (read : Bool), becomes (.accessTimeout func offset read) s (accessEnds func offset read s.sw)) ∧
    (∀ (cause : Nat), becomes (.warm cause) s (if s.sw.starting then regDiscard 0 0x200 (resetCtrl 1) 1 s.sw else warmReset cause s.sw)) ∧
    (∀ (cause : Nat), becomes (.cold cause) s (onlyIf (s.sw.pwr.mod == .on) (coldReset cause) s.sw)) ∧
    (∀ (cause : Nat), becomes (.powerOff cause) s (onlyIf (s.sw.pwr.mod == .on) powerOff s.sw)) ∧
    (∀ (lowNs : Nat), becomes (.modResetN lowNs) s (modResetOp lowNs s.sw)) ∧
    (∀ (tile : Nat), becomes (.glbTileReset tile) s (tileResetWrite 0 tile s.sw)) ∧
    (∀ (tile : Nat) (pass : Bool), becomes (.tileSelfTestDone tile pass) s (tileTestDone tile pass s.sw)) ∧
    (∀ (quad : Nat), becomes (.glbPortReset quad) s (portResetWrite 0 quad s.sw)) ∧
    (∀ (ms : Nat) (results : StageResults), becomes (.startupStageDone ms results) s (stageDone s.fuses ms results s.sw)) ∧
    becomes (.auxWatchdog) s (onlyIf (s.sw.pwr.mod == .on) (coldReset 9) s.sw) ∧
    (∀ (millivolts : Nat), becomes (.inputLow millivolts) s (inputLow millivolts s.sw)) ∧
    (∀ (millivolts : Nat), becomes (.inputPowerLoss millivolts) s (inputLoss millivolts s.sw)) ∧
    (∀ (millivolts : Nat), becomes (.inputOvervoltage millivolts) s (faultIfPowered (s.sw.modPwr (fun p => { p with vin := millivolts })))) ∧
    (∀ (current : Nat), becomes (.inputOvercurrent current) s (faultIfPowered (s.sw.modPwr (fun p => { p with iin := current })))) ∧
    (∀ (converter cause : Nat), becomes (.converterLost converter cause) s (converterLost converter cause s.sw)) ∧
    (∀ (value : Nat), becomes (.pwrProfileWrite value) s (profileWrite 0 value s.sw)) ∧
    becomes (.profileLowerTick) s (profileLower s.sw) ∧
    (∀ (sample : PowerSample), becomes (.powerLimitSample sample) s (limitSample sample s.sw)) ∧
    (∀ (sample : List ThermalReading), becomes (.thermalSample sample) s (thermalOp sample s.sw)) ∧
    becomes (.wearAfUpdate) s (wearSecond s.sw) ∧
    (∀ (indicators : List (Nat × Int)), becomes (.wearDailySample indicators) s (wearDaily indicators s.sw)) ∧
    becomes (.updateSessionTimeout) s (Sw.modSec (fun c => { c with session := none }) s.sw) ∧
    (∀ (step : PldmStep), becomes (.pldmFirmwareUpdate step) s (onlyIf s.sw.i3cServed (pldmOp s.fuses step) s.sw)) ∧
    (∀ (selfContained : Bool), becomes (.activateFirmware selfContained) s (onlyIf s.sw.i3cServed (activateFirmwareOp s.fuses selfContained) s.sw)) ∧
    (∀ (via : Option Sub) (kind : Nat), exec (.reset via kind) s = .next (mgmtThen via 0x01 1 kind resetAct resetAfter s)) ∧
    (∀ (via : Option Sub) (value : Nat), exec (.profile via value) s = .next (mgmt via 0x02 1 value profileAct s)) ∧
    (∀ (via : Option Sub) (stack channel : Nat), exec (.channelClear via stack channel) s = .next (mgmt via 0x05 2 (stack % 256 + 256 * channel) (fun v => channelClearAct (v % 256) (v / 256)) s)) ∧
    (∀ (via : Option Sub), exec (.mgmtFwActivate via) s = .next (mgmtThen via 0x06 0 0 (fun _ => fwActivateAct) (fun _ _ s => { s with sw := warmReset 4 s.sw }) s)) ∧
    (∀ (via : Option Sub), exec (.svnAdvance via) s = .next (mgmt via 0x07 0 0 (fun _ => svnAdvanceAct) s)) ∧
    (∀ (via : Option Sub) (value : Nat), exec (.locate via value) s = .next (mgmt via 0x08 1 value locateAct s)) ∧
    (∀ (via : Option Sub) (token : List Byte), exec (.debugUnlock via token) s = .next (mgmtToken via 0x09 token debugUnlockAct debugUnlockAfter s)) ∧
    (∀ (via : Option Sub) (token : List Byte), exec (.lifecycleReturn via token) s = .next (mgmtToken via 0x0A token lifecycleReturnAct noAfter s)) ∧
    (∀ (offset count : Nat), becomes (.regRead offset count) s (regReadOp s.fuses offset count s.sw)) ∧
    (∀ (i3c : Bool) (msg : List Byte), becomes (.getVersion i3c msg) s (getVersionOp i3c msg s.sw)) ∧
    (∀ (i3c : Bool) (msg : List Byte), becomes (.getCapabilities i3c msg) s (getCapabilitiesOp i3c msg s.sw)) ∧
    (∀ (i3c : Bool) (msg : List Byte), becomes (.negotiateAlgorithms i3c msg) s (negotiateOp i3c msg s.sw)) ∧
    (∀ (i3c : Bool) (msg : List Byte), becomes (.getDigests i3c msg) s (getDigestsOp s.fuses i3c msg s.sw)) ∧
    (∀ (i3c : Bool) (msg : List Byte), becomes (.getCertificate i3c msg) s (getCertificateOp s.fuses i3c msg s.sw)) ∧
    (∀ (i3c : Bool) (msg : List Byte), becomes (.challenge i3c msg) s (challengeOp s.fuses i3c msg s.sw)) ∧
    (∀ (i3c : Bool) (msg : List Byte), becomes (.getMeasurements i3c msg) s (getMeasurementsOp s.fuses i3c msg s.sw)) ∧
    (∀ (i3c : Bool) (sensor : Nat), becomes (.getSensorReading i3c sensor) s (sensorOp i3c sensor s.sw)) ∧
    (∀ (address : Nat), becomes (.entdaa address) s (onlyIf s.sw.i3cServed (Sw.modSec (fun c => { c with i3cAddr := some (address % 128) })) s.sw)) ∧
    becomes (.attnShortPress) s (attnShortOp s.sw) ∧
    becomes (.attnLongPress) s (attnLongOp s.sw) ∧
    (∀ (railsGood : Bool), becomes (.powerOnSequence railsGood) s (powerOn railsGood s.sw)) ∧
    becomes (.railFaultRestart) s (Sw.modPwr (fun p => { p with faultWait := false }) s.sw) ∧
    becomes (.inputRestored) s (inputBack s.sw) ∧
    (∀ (ctx ugroup shard stack ta : Nat), becomes (.shardAbandoned ctx ugroup shard stack ta) s (abandonShard ctx ugroup shard (s.sw.stackAt stack ta) ta s.sw)) ∧
    (∀ (grove unit address : Nat), becomes (.migrationError grove unit address) s (migError grove unit address s.sw)) ∧
    becomes (.pciePerstNDeassert) s (s.sw.modHost (fun h => { h with perstN := true, linkUp := s.sw.glb.pwrgd && !s.sw.sec.recovery })) ∧
    becomes (.modResetNRelease) s (modResetRelease s.sw) ∧
    (∀ (lane : Nat) (bits : Quad), becomes (.checkerLocked lane bits) s (Sw.modTest lane (fun t => if t.chkEn then { t with chkLocked := true, bits := t.bits + bits.setWidth 48 } else t) s.sw)) ∧
    (∀ (lane : Nat), becomes (.checkerLockLost lane) s (Sw.modTest lane (fun t => if t.chkLocked then { t with chkLocked := false, errs := t.errs + 17 } else t) s.sw)) ∧
    (∀ (lane : Nat), becomes (.tapEchoTimeout lane) s (echoTimeout lane s.sw)) ∧
    (∀ (ring : Nat), exec (.completionTimeout ring) s = .next (hostTimeout ring s)) ∧
    (∀ (site : Nat), becomes (.removeBlockedLedTimeout site) s (Sw.modSite site (fun x => { x with blockedAt := none }) s.sw)))

/-- At State.reset no command waits; every ring is DISABLED with size 2^6, HEAD and TAIL 0 and nothing outstanding; every event
queue is disabled with its indices 0; every flag is 0; SYS_VALID is 0 and the watchdog 10 ms; job 0 is SEEDLING and every other
CLOSED; route version 0 is ACTIVE and version 1 STANDBY with generation 0; no context is live; no event is held and nothing has
left for the host; GLB_LEVEL is 2 and the discard count 0; the far tier's hold is 100 ms; both image slots are in canonical
form, which every write of bytes to a slot keeps: a byte written reads back and every other as before. (12 R409, R411, R417, R420, R427; 14 R478, R483; 16 R504; 18 R547) -/
def Obligations.ResetRule : Prop :=
  State.reset.pending = [] ∧ State.reset.sw.imagesWf = true ∧
  (∀ n, (State.reset.sw.ring n).state = .disabled ∧ (State.reset.sw.ring n).sizeLog2 = 6 ∧ (State.reset.sw.ring n).head = 0 ∧ (State.reset.sw.ring n).tail = 0 ∧ (State.reset.sw.ring n).outst = [] ∧
    (State.reset.sw.evq n).active = false ∧ (State.reset.sw.evq n).sizeLog2 = 6 ∧ (State.reset.sw.evq n).head = 0 ∧ (State.reset.sw.evq n).tail = 0 ∧ State.reset.sw.flag n = 0) ∧
  State.reset.sw.host.sysValid = false ∧ State.reset.sw.host.watchdogMs = 10 ∧ State.reset.sw.host.held = [] ∧ State.reset.sw.outs = [] ∧
  (State.reset.sw.job 0).state = .seedling ∧ (∀ j, j ≠ 0 → (State.reset.sw.job j).state = .closed) ∧
  State.reset.sw.fab.v0.st = .active ∧ State.reset.sw.fab.v1.st = .standby ∧ State.reset.sw.fab.gen = 0 ∧ State.reset.sw.ctxs = [] ∧
  State.reset.sw.glb.level = 2 ∧ State.reset.sw.glb.discards = 0 ∧ State.reset.sw.cxlHoldMs = 100 ∧
  (∀ (m : SMap Byte) (a n : Nat) (l : List Byte), Memory.wf m = true → Memory.wf (putBytes a l m) = true ∧
    (putBytes a l m).getD n 0xFF = if a ≤ n ∧ n < a + l.length then l.getD (n - a) 0 else m.getD n 0xFF)

/-- For each of the 46 opcodes that are no management command: a descriptor whose minor version exceeds the firmware's completes
CONTRACT_VERSION, whatever else is wrong; one with a reserved DFLAGS bit BAD_DESCRIPTOR; one that only the PF may submit, from
another function DENIED; and whichever of the five checks fails, it does nothing else. Once it is dispatched it is outstanding
and its records are reserved. A completion of a descriptor that is outstanding ends it and frees its reservation; unless QUIET
and OK it writes one 32-byte record at the queue's TAIL with code, flags with phase, status, tag, time, ring, opcode, head and
result, and TAIL advances; a completion of one that is no longer outstanding does nothing. (R413, R415, R416, R421, R422, R424) -/
def Obligations.DescriptorRule : Prop :=
  (∀ (s : State) (b : Sub), ∀ e ∈ descRows, (e.1 = 2 → (s.sw.ring b.ring).wait = none) →
    (∀ st, headerStatus (descSw e.1 b s.sw) e.1 b = some st → endsWith (e.2 b) s e.1 b st id) ∧
    (s.sw.sec.runMinor < b.cminor → endsWith (e.2 b) s e.1 b stContract id) ∧
    (b.cminor ≤ s.sw.sec.runMinor → e.1 ∉ [0x24, 0x34, 0x50, 0x51, 0x52, 0x86] →
      (4 ≤ b.dflags → endsWith (e.2 b) s e.1 b stBad id) ∧
      (b.dflags < 4 → b.func ≠ 0 → e.1 ∈ [0x08, 0x09, 0x0B, 0x60, 0x61, 0x62, 0x63, 0x64, 0x65, 0x80, 0x83, 0x84, 0x90, 0x91, 0x92] → endsWith (e.2 b) s e.1 b stDenied id) ∧
      (b.dflags < 4 → b.func = 0 → headerGood e.1 b s))) ∧
  (∀ (w : Sw) (code : Nat) (b : Sub), (descTok code b w).id = w.host.nextTok ∧ (descSw code b w).host.nextTok = w.host.nextTok + 1 ∧
    ((descSw code b w).ring b.ring).outst = (w.ring b.ring).outst ++ [w.host.nextTok] ∧ Sw.keeps [.rings, .evqs, .nextTok] w (descSw code b w) ∧
    ((descSw code b w).evq (w.ring b.ring).cevq).res = (w.evq (w.ring b.ring).cevq).res + recordsFor w code b) ∧
  (∀ (w : Sw) (t : Tok) (st : Nat) (res : Quad) (r : Ring) (e : Evq), r = w.ring t.ring → e = w.evq r.cevq →
    (t.id ∉ r.outst → completeR t st res w = w) ∧
    (t.id ∈ r.outst → (completeR t st res w).ring t.ring = (if r.state = .draining ∧ r.outst.filter (· != t.id) = [] then
        { r with outst := [], state := .disabled, enable := false } else { r with outst := r.outst.filter (· != t.id) }) ∧
      (e.lost = none → e.armed = false → e.active = true →
        (t.quiet = true → st = 0 → (completeR t st res w).outs = w.outs ∧ (completeR t st res w).evq r.cevq = { e with res := e.res - t.k }) ∧
        (t.quiet = false ∨ st ≠ 0 → (completeR t st res w).evq r.cevq = { e with res := e.res - t.k, tail := e.tail + 1 } ∧
          (completeR t st res w).outs = w.outs ++ [.hostWrite e.func (e.base + BitVec.ofNat 64 (32 * (e.tail.toNat % 2 ^ e.sizeLog2)))
            (le 2 0x0100 ++ le 1 (2 + (1 - e.tail.toNat / 2 ^ e.sizeLog2 % 2)) ++ (le 1 st ++ le 4 t.tag.toNat ++ le 8 w.gtc.toNat ++ le 2 t.ring ++ le 1 t.opcode.toNat ++ le 1 0 ++
              le 4 r.head.toNat ++ le 8 res.toNat))]))))

/-- For every command and every state: it answers a next state, neither a fault nor a refusal; the commands that wait are the same;
every part of the switch but those that mayChange lists for the command is as it was; the fuses are as they were unless the
command is SVN_ADVANCE, LIFECYCLE_RETURN or the dispatch of a descriptor that may be either; and the variant, which is fused,
changes under nothing. (R399, R404; 14 R472; 16 R504, R511, R522) -/
def Obligations.EffectRule : Prop :=
  ∀ (c : Instr) (s : State), ∃ t : State, exec c s = .next t ∧ t.pending = s.pending ∧ Sw.keeps (mayChange c) s.sw t.sw ∧
    t.sw.glb.variant = s.sw.glb.variant ∧ (mayBurn c = false → t.fuses = s.fuses)

/-- For every state, whatever command is at the front: after the step the SVN floor is not lower, no key revocation is undone and a
RETURNED part stays RETURNED; and where both image slots list their bytes at strictly rising offsets, none that reads as erased,
they still do. (16 R504, R509, R511, R522) -/
def Obligations.NonVolatileRule : Prop :=
  ∀ (s t : State), step s = .next t → Fuses.le s.fuses t.fuses ∧ (s.sw.imagesWf = true → t.sw.imagesWf = true)
end

