-- ==== Sys2Proof/Laws/Maps.lean ====
section
/-! SUPPORT. Reading a finite map after a change to it. -/
namespace Sys2Proof

variable {β : Type}

@[simp] theorem SMap.find?_nil (k : Nat) : SMap.find? k ([] : SMap β) = none := rfl
@[simp] theorem SMap.find?_set_same (k : Nat) (v : β) (m : SMap β) : SMap.find? k (SMap.set k v m) = some v := by
  induction m with
  | nil => simp [SMap.set, SMap.find?]
  | cons e m ih =>
    obtain ⟨j, w⟩ := e
    simp only [SMap.set]
    split
    · simp [SMap.find?]
    · split
      · simp [SMap.find?]
      · next h1 h2 => simp [SMap.find?, ih, Ne.symm h2]
theorem SMap.find?_set_ne {k n : Nat} (h : n ≠ k) (v : β) (m : SMap β) :
    SMap.find? n (SMap.set k v m) = SMap.find? n m := by
  induction m with
  | nil => simp [SMap.set, SMap.find?, Ne.symm h]
  | cons e m ih =>
    obtain ⟨j, w⟩ := e
    simp only [SMap.set]
    split
    · simp [SMap.find?, Ne.symm h]
    · split
      · next h1 h2 => subst h2; simp [SMap.find?, Ne.symm h]
      · simp [SMap.find?, ih]
@[simp] theorem SMap.getD_set_same (k : Nat) (v d : β) (m : SMap β) : (SMap.set k v m).getD k d = v := by
  simp [SMap.getD]
theorem SMap.getD_set_ne {k n : Nat} (h : n ≠ k) (v d : β) (m : SMap β) : (SMap.set k v m).getD n d = SMap.getD m n d := by
  simp [SMap.getD, SMap.find?_set_ne h]
theorem SMap.getD_set (k n : Nat) (v d : β) (m : SMap β) :
    (SMap.set k v m).getD n d = if n = k then v else SMap.getD m n d := by
  split
  · next h => subst h; simp
  · next h => exact SMap.getD_set_ne h v d m
@[simp] theorem SMap.find?_mapVals {γ : Type} (f : β → γ) (k : Nat) (m : SMap β) :
    SMap.find? k (m.mapVals f) = (SMap.find? k m).map f := by
  induction m with
  | nil => rfl
  | cons e m ih =>
    obtain ⟨j, w⟩ := e
    simp only [SMap.mapVals, List.map_cons, SMap.find?] at ih ⊢
    split
    · rfl
    · exact ih
theorem SMap.getD_mapVals {γ : Type} (f : β → γ) (k : Nat) (d : β) (m : SMap β) :
    (m.mapVals f).getD k (f d) = f (m.getD k d) := by
  simp only [SMap.getD, SMap.find?_mapVals]
  cases SMap.find? k m <;> rfl
/-- A change of every value that keeps what `g` reads. -/
theorem SMap.getD_mapVals_keep {γ : Type} (f : β → β) (g : β → γ) (h : ∀ v, g (f v) = g v) (k : Nat) (d : β) (m : SMap β) :
    g ((m.mapVals f).getD k d) = g (m.getD k d) := by
  simp only [SMap.getD, SMap.find?_mapVals]
  cases SMap.find? k m <;> simp [h]
theorem SMap.find?_adjust_same (k : Nat) (f : β → β) (m : SMap β) :
    SMap.find? k (SMap.adjust k f m) = (SMap.find? k m).map f := by
  induction m with
  | nil => rfl
  | cons e m ih =>
    obtain ⟨j, w⟩ := e
    simp only [SMap.adjust, List.map_cons] at ih ⊢
    by_cases hj : j = k
    · simp [hj, SMap.find?]
    · simp [hj, SMap.find?, ih]
theorem SMap.find?_adjust_ne {k n : Nat} (h : n ≠ k) (f : β → β) (m : SMap β) :
    SMap.find? n (SMap.adjust k f m) = SMap.find? n m := by
  induction m with
  | nil => rfl
  | cons e m ih =>
    obtain ⟨j, w⟩ := e
    simp only [SMap.adjust, List.map_cons] at ih ⊢
    by_cases hj : j = k
    · subst hj; simp [SMap.find?, Ne.symm h, ih]
    · simp [hj, SMap.find?, ih]
@[simp] theorem SMap.find?_erase_same (k : Nat) (m : SMap β) : SMap.find? k (SMap.erase k m) = none := by
  induction m with
  | nil => rfl
  | cons e m ih =>
    obtain ⟨j, w⟩ := e
    simp only [SMap.erase, List.filter_cons] at ih ⊢
    by_cases hj : j = k
    · simp [hj, ih]
    · simp [hj, SMap.find?, ih]
theorem SMap.find?_erase_ne {k n : Nat} (h : n ≠ k) (m : SMap β) : SMap.find? n (SMap.erase k m) = SMap.find? n m := by
  induction m with
  | nil => rfl
  | cons e m ih =>
    obtain ⟨j, w⟩ := e
    simp only [SMap.erase, List.filter_cons] at ih ⊢
    by_cases hj : j = k
    · subst hj; simp [SMap.find?, Ne.symm h, ih]
    · simp [hj, SMap.find?, ih]
theorem SMap.set_set (k : Nat) (v w : β) (m : SMap β) : SMap.set k w (SMap.set k v m) = SMap.set k w m := by
  induction m with
  | nil => simp [SMap.set]
  | cons e m ih =>
    obtain ⟨j, x⟩ := e
    simp only [SMap.set]
    split
    · simp [SMap.set]
    · split
      · simp [SMap.set]
      · next h1 h2 => simp [SMap.set, h1, h2, ih]

end Sys2Proof
end

