-- ==== Sys2Proof/Laws/Keeps.lean ====
section
/-! SUPPORT. What each named operation of Machine/Ops.lean keeps, and how frames compose. A lemma `f_keeps` says: what was kept so
far, `f` keeps too, when the pieces that `f` can change are among the listed ones. -/
namespace Sys2Proof.Machine

theorem Piece.same_refl (p : Piece) (s : Sw) : p.same s s := by cases p <;> simp [Piece.same]
theorem Piece.same_trans {p : Piece} {a b c : Sw} (h : p.same a b) (k : p.same b c) : p.same a c := by
  cases p <;> simp only [Piece.same] at * <;> first | exact h.trans k | exact fun n => (h n).trans (k n)

/-- Every piece of the first list is in the second. -/
def partsIn (a b : List Piece) : Bool := a.all (fun p => b.contains p)
theorem partsIn_mem {a b : List Piece} (h : partsIn a b = true) {p : Piece} (hp : p ∈ a) : p ∈ b := by
  simp only [partsIn, List.all_eq_true, List.contains_iff_mem] at h
  exact h p hp
theorem partsIn_refl (a : List Piece) : partsIn a a = true := by simp [partsIn]
theorem partsIn_trans {a b c : List Piece} (h : partsIn a b = true) (g : partsIn b c = true) : partsIn a c = true := by
  simp only [partsIn, List.all_eq_true, List.contains_iff_mem] at *
  exact fun p hp => g p (h p hp)

theorem Sw.keeps.refl (ps : List Piece) (s : Sw) : Sw.keeps ps s s := fun p _ => p.same_refl s
theorem Sw.keeps.trans {ps : List Piece} {a b c : Sw} (h : Sw.keeps ps a b) (g : Sw.keeps ps b c) : Sw.keeps ps a c :=
  fun p hp => Piece.same_trans (h p hp) (g p hp)
theorem Sw.keeps.mono {ps qs : List Piece} {a b : Sw} (h : Sw.keeps ps a b) (hq : partsIn ps qs = true) : Sw.keeps qs a b :=
  fun p hp => h p (fun hk => hp (partsIn_mem hq hk))
/-- One more change after others: its own frame is within `ps`. -/
theorem Sw.keeps.next {qs ps : List Piece} {a b c : Sw} (g : Sw.keeps ps a b) (h : Sw.keeps qs b c)
    (hq : partsIn qs ps = true) : Sw.keeps ps a c := g.trans (h.mono hq)
/-- The state of a pair that a function answers. -/
theorem keeps_ofPair {α : Type} {ps : List Piece} {a s : Sw} {p : α × Sw} {x : α} (h : p = (x, s)) (g : Sw.keeps ps a p.2) :
    Sw.keeps ps a s := by subst h; exact g

theorem keeps_ite {ps : List Piece} {c : Prop} [Decidable c] {a x y : Sw} (hx : Sw.keeps ps a x) (hy : Sw.keeps ps a y) :
    Sw.keeps ps a (if c then x else y) := by split <;> assumption
/-- A fold keeps what each of its parts keeps. -/
theorem fold_keeps {α β : Type} {ps : List Piece} {a : Sw} (g : β → Sw) (f : β → α → β)
    (hf : ∀ b x, Sw.keeps ps a (g b) → Sw.keeps ps a (g (f b x))) (l : List α) (b : β) (h : Sw.keeps ps a (g b)) :
    Sw.keeps ps a (g (l.foldl f b)) := by
  induction l generalizing b with
  | nil => exact h
  | cons x l ih => exact ih _ (hf b x h)
theorem each_keeps {α : Type} {ps : List Piece} {f : α → Sw → Sw} {l : List α} {a s : Sw}
    (hf : ∀ x a s, Sw.keeps ps a s → Sw.keeps ps a (f x s)) (h : Sw.keeps ps a s) : Sw.keeps ps a (each l f s) := by
  induction l generalizing s with
  | nil => exact h
  | cons x l ih => exact ih (hf x a s h)
theorem onlyIf_keeps {ps : List Piece} {f : Sw → Sw} {c : Bool} {a s : Sw} (hf : ∀ a s, Sw.keeps ps a s → Sw.keeps ps a (f s))
    (h : Sw.keeps ps a s) : Sw.keeps ps a (onlyIf c f s) := by
  unfold onlyIf; split
  · exact hf a s h
  · exact h

theorem modPwr_keeps {ps : List Piece} {f : Pwr → Pwr} {a s : Sw} (hk : partsIn [.pwr] ps = true) (h : Sw.keeps ps a s) :
    Sw.keeps ps a (s.modPwr f) := by
  refine h.next (qs := [.pwr]) ?_ hk
  intro p hp; cases p <;> first | rfl | (intro; rfl) | exact absurd (by decide) hp
theorem modSec_keeps {ps : List Piece} {f : Sec → Sec} {a s : Sw} (hk : partsIn [.sec] ps = true) (h : Sw.keeps ps a s) :
    Sw.keeps ps a (s.modSec f) := by
  refine h.next (qs := [.sec]) ?_ hk
  intro p hp; cases p <;> first | rfl | (intro; rfl) | exact absurd (by decide) hp
theorem modTime_keeps {ps : List Piece} {f : Time → Time} {a s : Sw} (hk : partsIn [.time] ps = true) (h : Sw.keeps ps a s) :
    Sw.keeps ps a (s.modTime f) := by
  refine h.next (qs := [.time]) ?_ hk
  intro p hp; cases p <;> first | rfl | (intro; rfl) | exact absurd (by decide) hp
theorem modSync_keeps {ps : List Piece} {f : Sync → Sync} {a s : Sw} (hk : partsIn [.sync] ps = true) (h : Sw.keeps ps a s) :
    Sw.keeps ps a (s.modSync f) := by
  refine h.next (qs := [.sync]) ?_ hk
  intro p hp; cases p <;> first | rfl | (intro; rfl) | exact absurd (by decide) hp
theorem modFab_keeps {ps : List Piece} {f : Fabric → Fabric} {a s : Sw} (hk : partsIn [.fab] ps = true) (h : Sw.keeps ps a s) :
    Sw.keeps ps a (s.modFab f) := by
  refine h.next (qs := [.fab]) ?_ hk
  intro p hp; cases p <;> first | rfl | (intro; rfl) | exact absurd (by decide) hp
theorem modRec_keeps {ps : List Piece} {f : Rec → Rec} {a s : Sw} (hk : partsIn [.rcv] ps = true) (h : Sw.keeps ps a s) :
    Sw.keeps ps a (s.modRec f) := by
  refine h.next (qs := [.rcv]) ?_ hk
  intro p hp; cases p <;> first | rfl | (intro; rfl) | exact absurd (by decide) hp
theorem modPool_keeps {ps : List Piece} {f : Pool → Pool} {a s : Sw} (hk : partsIn [.pool] ps = true) (h : Sw.keeps ps a s) :
    Sw.keeps ps a (s.modPool f) := by
  refine h.next (qs := [.pool]) ?_ hk
  intro p hp; cases p <;> first | rfl | (intro; rfl) | exact absurd (by decide) hp
theorem modWear_keeps {ps : List Piece} {f : WearBlk → WearBlk} {a s : Sw} (hk : partsIn [.wear] ps = true) (h : Sw.keeps ps a s) :
    Sw.keeps ps a (s.modWear f) := by
  refine h.next (qs := [.wear]) ?_ hk
  intro p hp; cases p <;> first | rfl | (intro; rfl) | exact absurd (by decide) hp
theorem modQuad_keeps {ps : List Piece} {q : Nat} {f : QuadPort → QuadPort} {a s : Sw} (hk : partsIn [.quads] ps = true) (h : Sw.keeps ps a s) :
    Sw.keeps ps a (s.modQuad q f) := by
  refine h.next (qs := [.quads]) ?_ hk
  intro p hp; cases p <;> first | rfl | (intro; rfl) | exact absurd (by decide) hp
theorem modLane_keeps {ps : List Piece} {l : Nat} {f : Lane → Lane} {a s : Sw} (hk : partsIn [.lanes] ps = true) (h : Sw.keeps ps a s) :
    Sw.keeps ps a (s.modLane l f) := by
  refine h.next (qs := [.lanes]) ?_ hk
  intro p hp; cases p <;> first | rfl | (intro; rfl) | exact absurd (by decide) hp
theorem modTest_keeps {ps : List Piece} {l : Nat} {f : LaneTest → LaneTest} {a s : Sw} (hk : partsIn [.lanes] ps = true) (h : Sw.keeps ps a s) :
    Sw.keeps ps a (s.modTest l f) := by
  refine h.next (qs := [.lanes]) ?_ hk
  intro p hp; cases p <;> first | rfl | (intro; rfl) | exact absurd (by decide) hp
theorem modEngine_keeps {ps : List Piece} {e : Nat} {f : Engine → Engine} {a s : Sw} (hk : partsIn [.engines] ps = true) (h : Sw.keeps ps a s) :
    Sw.keeps ps a (s.modEngine e f) := by
  refine h.next (qs := [.engines]) ?_ hk
  intro p hp; cases p <;> first | rfl | (intro; rfl) | exact absurd (by decide) hp
theorem modSite_keeps {ps : List Piece} {m : Nat} {f : Site → Site} {a s : Sw} (hk : partsIn [.sites] ps = true) (h : Sw.keeps ps a s) :
    Sw.keeps ps a (s.modSite m f) := by
  refine h.next (qs := [.sites]) ?_ hk
  intro p hp; cases p <;> first | rfl | (intro; rfl) | exact absurd (by decide) hp
theorem modTile_keeps {ps : List Piece} {i : Nat} {f : Tile → Tile} {a s : Sw} (hk : partsIn [.tiles] ps = true) (h : Sw.keeps ps a s) :
    Sw.keeps ps a (s.modTile i f) := by
  refine h.next (qs := [.tiles]) ?_ hk
  intro p hp; cases p <;> first | rfl | (intro; rfl) | exact absurd (by decide) hp
theorem modStack_keeps {ps : List Piece} {i : Nat} {f : Stack → Stack} {a s : Sw} (hk : partsIn [.hbm] ps = true) (h : Sw.keeps ps a s) :
    Sw.keeps ps a (s.modStack i f) := by
  refine h.next (qs := [.hbm]) ?_ hk
  intro p hp; cases p <;> first | rfl | (intro; rfl) | exact absurd (by decide) hp
theorem modRoot_keeps {ps : List Piece} {i : Nat} {f : Cxl → Cxl} {a s : Sw} (hk : partsIn [.cxl] ps = true) (h : Sw.keeps ps a s) :
    Sw.keeps ps a (s.modRoot i f) := by
  refine h.next (qs := [.cxl]) ?_ hk
  intro p hp; cases p <;> first | rfl | (intro; rfl) | exact absurd (by decide) hp
theorem modRing_keeps {ps : List Piece} {n : Nat} {f : Ring → Ring} {a s : Sw} (hk : partsIn [.rings] ps = true) (h : Sw.keeps ps a s) :
    Sw.keeps ps a (s.modRing n f) := by
  refine h.next (qs := [.rings]) ?_ hk
  intro p hp; cases p <;> first | rfl | (intro; rfl) | exact absurd (by decide) hp
theorem modEvq_keeps {ps : List Piece} {q : Nat} {f : Evq → Evq} {a s : Sw} (hk : partsIn [.evqs] ps = true) (h : Sw.keeps ps a s) :
    Sw.keeps ps a (s.modEvq q f) := by
  refine h.next (qs := [.evqs]) ?_ hk
  intro p hp; cases p <;> first | rfl | (intro; rfl) | exact absurd (by decide) hp
theorem modJob_keeps {ps : List Piece} {j : Nat} {f : Job → Job} {a s : Sw} (hk : partsIn [.jobs] ps = true) (h : Sw.keeps ps a s) :
    Sw.keeps ps a (s.modJob j f) := by
  refine h.next (qs := [.jobs]) ?_ hk
  intro p hp; cases p <;> first | rfl | (intro; rfl) | exact absurd (by decide) hp
theorem out_keeps {ps : List Piece} {o : Out} {a s : Sw} (hk : partsIn [.outs] ps = true) (h : Sw.keeps ps a s) :
    Sw.keeps ps a (s.out o) := by
  refine h.next (qs := [.outs]) ?_ hk
  intro p hp; cases p <;> first | rfl | (intro; rfl) | exact absurd (by decide) hp
theorem draw_keeps {ps : List Piece}  {a s : Sw} (hk : partsIn [.freeCtr] ps = true) (h : Sw.keeps ps a s) :
    Sw.keeps ps a (s.draw.2) := by
  refine h.next (qs := [.freeCtr]) ?_ hk
  intro p hp; cases p <;> first | rfl | (intro; rfl) | exact absurd (by decide) hp
theorem setCtx_keeps {ps : List Piece} {x : Nat} {c : Ctx} {a s : Sw} (hk : partsIn [.ctxs] ps = true) (h : Sw.keeps ps a s) :
    Sw.keeps ps a (s.setCtx x c) := by
  refine h.next (qs := [.ctxs]) ?_ hk
  intro p hp; cases p <;> first | rfl | (intro; rfl) | exact absurd (by decide) hp
theorem modCtxs_keeps {ps : List Piece} {f : SMap Ctx → SMap Ctx} {a s : Sw} (hk : partsIn [.ctxs] ps = true) (h : Sw.keeps ps a s) :
    Sw.keeps ps a (s.modCtxs f) := by
  refine h.next (qs := [.ctxs]) ?_ hk
  intro p hp; cases p <;> first | rfl | (intro; rfl) | exact absurd (by decide) hp
theorem modTakeovers_keeps {ps : List Piece} {f : SMap Nat → SMap Nat} {a s : Sw} (hk : partsIn [.takeovers] ps = true) (h : Sw.keeps ps a s) :
    Sw.keeps ps a (s.modTakeovers f) := by
  refine h.next (qs := [.takeovers]) ?_ hk
  intro p hp; cases p <;> first | rfl | (intro; rfl) | exact absurd (by decide) hp
theorem setTiles_keeps {ps : List Piece} {t : SMap Tile} {a s : Sw} (hk : partsIn [.tiles] ps = true) (h : Sw.keeps ps a s) :
    Sw.keeps ps a (s.setTiles t) := by
  refine h.next (qs := [.tiles]) ?_ hk
  intro p hp; cases p <;> first | rfl | (intro; rfl) | exact absurd (by decide) hp
theorem setGroveC_keeps {ps : List Piece} {c : List Nat} {a s : Sw} (hk : partsIn [.groveC] ps = true) (h : Sw.keeps ps a s) :
    Sw.keeps ps a (s.setGroveC c) := by
  refine h.next (qs := [.groveC]) ?_ hk
  intro p hp; cases p <;> first | rfl | (intro; rfl) | exact absurd (by decide) hp
theorem modKernels_keeps {ps : List Piece} {f : SMap Kernel → SMap Kernel} {a s : Sw} (hk : partsIn [.kernels] ps = true) (h : Sw.keeps ps a s) :
    Sw.keeps ps a (s.modKernels f) := by
  refine h.next (qs := [.kernels]) ?_ hk
  intro p hp; cases p <;> first | rfl | (intro; rfl) | exact absurd (by decide) hp
theorem modMigs_keeps {ps : List Piece} {f : SMap (List (Nat × Nat)) → SMap (List (Nat × Nat))} {a s : Sw} (hk : partsIn [.migQueues] ps = true) (h : Sw.keeps ps a s) :
    Sw.keeps ps a (s.modMigs f) := by
  refine h.next (qs := [.migQueues]) ?_ hk
  intro p hp; cases p <;> first | rfl | (intro; rfl) | exact absurd (by decide) hp
theorem setHoldMs_keeps {ps : List Piece} {n : Nat} {a s : Sw} (hk : partsIn [.cxlHoldMs] ps = true) (h : Sw.keeps ps a s) :
    Sw.keeps ps a (s.setHoldMs n) := by
  refine h.next (qs := [.cxlHoldMs]) ?_ hk
  intro p hp; cases p <;> first | rfl | (intro; rfl) | exact absurd (by decide) hp
theorem drawn_keeps {ps : List Piece} {n : Nat} {a s : Sw} (hk : partsIn [.freeCtr] ps = true) (h : Sw.keeps ps a s) :
    Sw.keeps ps a (s.drawn n) := by
  refine h.next (qs := [.freeCtr]) ?_ hk
  intro p hp; cases p <;> first | rfl | (intro; rfl) | exact absurd (by decide) hp
theorem modCtx_keeps {ps : List Piece} {x : Nat} {f : Ctx → Ctx} {a s : Sw} (hk : partsIn [.ctxs] ps = true) (h : Sw.keeps ps a s) :
    Sw.keeps ps a (s.modCtx x f) := by
  refine h.next (qs := [.ctxs]) ?_ hk
  unfold Sw.modCtx; split
  · exact setCtx_keeps (by decide) (.refl _ _)
  · exact .refl _ _
theorem modOp_keeps {ps : List Piece} {x o : Nat} {f : Op → Op} {a s : Sw} (hk : partsIn [.ctxs] ps = true) (h : Sw.keeps ps a s) :
    Sw.keeps ps a (s.modOp x o f) := by
  refine h.next (qs := [.ctxs]) ?_ hk
  unfold Sw.modOp; exact modCtx_keeps (by decide) (.refl _ _)
theorem modStore_keeps {ps : List Piece} {x : Nat} {f : Store → Store} {a s : Sw} (hk : partsIn [.ctxs] ps = true) (h : Sw.keeps ps a s) :
    Sw.keeps ps a (s.modStore x f) := by
  refine h.next (qs := [.ctxs]) ?_ hk
  unfold Sw.modStore; exact modCtx_keeps (by decide) (.refl _ _)
theorem modShard_keeps {ps : List Piece} {x i : Nat} {f : Shard → Shard} {a s : Sw} (hk : partsIn [.ctxs] ps = true) (h : Sw.keeps ps a s) :
    Sw.keeps ps a (s.modShard x i f) := by
  refine h.next (qs := [.ctxs]) ?_ hk
  unfold Sw.modShard; exact modStore_keeps (by decide) (.refl _ _)
theorem modStep_keeps {ps : List Piece} {x u : Nat} {f : Step → Step} {a s : Sw} (hk : partsIn [.ctxs] ps = true) (h : Sw.keeps ps a s) :
    Sw.keeps ps a (s.modStep x u f) := by
  refine h.next (qs := [.ctxs]) ?_ hk
  unfold Sw.modStep; exact modStore_keeps (by decide) (.refl _ _)
theorem modGlb_keeps {ps : List Piece} {f : Glb → Glb} {a s : Sw} (hk : partsIn [.glb] ps = true)
    (hf : ∀ g, (f g).variant = g.variant) (he : ∀ g, (f g).evTimes = g.evTimes) (h : Sw.keeps ps a s) :
    Sw.keeps ps a (s.modGlb f) := by
  refine h.next (qs := [.glb]) ?_ hk
  have hp (n : Nat) : (s.modGlb f).port n = s.port n := by
    simp [Sw.port, Sw.portActive, Sw.quadActive, Sw.modGlb, hf]
  intro p h'
  cases p <;> first | rfl | (intro n; rw [hp]) | exact absurd (by decide) h' | exact (hf _).symm | exact (he _).symm
theorem evTimes_keeps {ps : List Piece} {f : Glb → SMap Nat} {a s : Sw} (hk : partsIn [.evTimes] ps = true) (h : Sw.keeps ps a s) :
    Sw.keeps ps a (s.modGlb (fun g => { g with evTimes := f g })) := by
  refine h.next (qs := [.evTimes]) ?_ hk
  intro p hp; cases p <;> first | rfl | (intro; rfl) | exact absurd (by decide) hp
theorem limited_keeps {ps : List Piece} {f : Sw → Sw} {code subject gap : Nat} {a s : Sw} (hk : partsIn [.evTimes] ps = true)
    (hf : ∀ a s, Sw.keeps ps a s → Sw.keeps ps a (f s)) (h : Sw.keeps ps a s) : Sw.keeps ps a (s.limited code subject gap f) := by
  unfold Sw.limited
  dsimp only
  repeat' split
  all_goals first | exact h | exact hf _ _ (evTimes_keeps hk h)

/-! ### Ports -/

/-- Port m after a change to port n. -/
theorem port_modPort (n m : Nat) (f : Port → Port) (s : Sw) :
    (s.modPort n f).port m = if m = n ∧ s.portActive n = true then f (s.port n) else s.port m := by
  unfold Sw.modPort
  by_cases ha : s.portActive n = true
  · simp only [ha, if_true, and_true]
    change SMap.getD (SMap.set n (f (s.port n)) s.ports) m (portReset (s.portActive m)  m) = _
    rw [SMap.getD_set]
    rfl
  · simp [ha]
theorem port_modPort_ne {n m : Nat} (h : m ≠ n) (f : Port → Port) (s : Sw) : (s.modPort n f).port m = s.port m := by
  simp [port_modPort, h]
theorem port_modPort_same {n : Nat} {s : Sw} (h : s.portActive n = true) (f : Port → Port) :
    (s.modPort n f).port n = f (s.port n) := by simp [port_modPort, h]
/-- A change to a port leaves everything but the ports. -/
theorem modPort_rest (n : Nat) (f : Port → Port) (s : Sw) :
    Sw.keeps [.portReg, .portMap, .portCnt, .portLink, .portQ, .portSec] s (s.modPort n f) := by
  unfold Sw.modPort; split
  · intro p hp; cases p <;> first | rfl | exact absurd (by decide) hp
  · exact .refl _ _
theorem modPort_keeps {ps : List Piece} {n : Nat} {f : Port → Port} {a s : Sw}
    (hr : Piece.portReg ∈ ps ∨ ∀ p, (f p).reg.rest = p.reg.rest) (hm : Piece.portMap ∈ ps ∨ ∀ p, (f p).reg.maps = p.reg.maps)
    (hc : Piece.portCnt ∈ ps ∨ ∀ p, (f p).cnt = p.cnt)
    (hl : Piece.portLink ∈ ps ∨ ∀ p, (f p).link = p.link) (hq : Piece.portQ ∈ ps ∨ ∀ p, (f p).q = p.q)
    (hs : Piece.portSec ∈ ps ∨ ∀ p, (f p).sec = p.sec) (h : Sw.keeps ps a s) : Sw.keeps ps a (s.modPort n f) := by
  refine h.trans ?_
  intro p hp
  by_cases h' : p ∈ [Piece.portReg, .portMap, .portCnt, .portLink, .portQ, .portSec]
  · cases p <;> first
      | (intro m; rw [port_modPort]; split
         · next e => obtain ⟨rfl, _⟩ := e; simp_all
         · rfl)
      | exact absurd h' (by decide)
  · exact modPort_rest n f s p h'
theorem modCnt_keeps {ps : List Piece} {n : Nat} {f : PortCnt → PortCnt} {a s : Sw} (hk : partsIn [.portCnt] ps = true) (h : Sw.keeps ps a s) :
    Sw.keeps ps a (s.modCnt n f) := by
  refine h.next (qs := [.portCnt]) ?_ hk
  exact modPort_keeps (by simp) (by simp) (by simp) (by simp) (by simp) (by simp) (.refl _ _)
theorem modLink_keeps {ps : List Piece} {n : Nat} {f : PortLink → PortLink} {a s : Sw} (hk : partsIn [.portLink] ps = true) (h : Sw.keeps ps a s) :
    Sw.keeps ps a (s.modLink n f) := by
  refine h.next (qs := [.portLink]) ?_ hk
  exact modPort_keeps (by simp) (by simp) (by simp) (by simp) (by simp) (by simp) (.refl _ _)
theorem modQ_keeps {ps : List Piece} {n : Nat} {f : PortQ → PortQ} {a s : Sw} (hk : partsIn [.portQ] ps = true) (h : Sw.keeps ps a s) :
    Sw.keeps ps a (s.modQ n f) := by
  refine h.next (qs := [.portQ]) ?_ hk
  exact modPort_keeps (by simp) (by simp) (by simp) (by simp) (by simp) (by simp) (.refl _ _)
theorem modPSec_keeps {ps : List Piece} {n : Nat} {f : PortSec → PortSec} {a s : Sw} (hk : partsIn [.portSec] ps = true) (h : Sw.keeps ps a s) :
    Sw.keeps ps a (s.modPSec n f) := by
  refine h.next (qs := [.portSec]) ?_ hk
  exact modPort_keeps (by simp) (by simp) (by simp) (by simp) (by simp) (by simp) (.refl _ _)
theorem modReg_keeps {ps : List Piece} {n : Nat} {f : PortReg → PortReg} {a s : Sw} (hk : partsIn [.portReg] ps = true)
    (hb : ∀ r, (f r).binding = r.binding) (hx : ∀ r, (f r).ctxMap = r.ctxMap) (h : Sw.keeps ps a s) :
    Sw.keeps ps a (s.modReg n f) := by
  refine h.next (qs := [.portReg]) ?_ hk
  exact modPort_keeps (by simp) (.inr fun p => by simp [PortReg.maps, hb, hx]) (by simp) (by simp) (by simp) (by simp) (.refl _ _)
theorem setBinding_keeps {ps : List Piece} {n : Nat} {b : Option Binding} {a s : Sw} (hk : partsIn [.portMap] ps = true)
    (h : Sw.keeps ps a s) : Sw.keeps ps a (s.setBinding n b) := by
  refine h.next (qs := [.portMap]) ?_ hk
  exact modPort_keeps (.inr fun _ => rfl) (by simp) (by simp) (by simp) (by simp) (by simp) (.refl _ _)
theorem mapEntry_keeps {ps : List Piece} {n m x : Nat} {a s : Sw} (hk : partsIn [.portMap] ps = true)
    (h : Sw.keeps ps a s) : Sw.keeps ps a (s.mapEntry n m x) := by
  refine h.next (qs := [.portMap]) ?_ hk
  exact modPort_keeps (.inr fun _ => rfl) (by simp) (by simp) (by simp) (by simp) (by simp) (.refl _ _)

/-! ### The host interface -/

theorem modHost_keeps {ps : List Piece} {f : HostIf → HostIf} {a s : Sw}
    (h0 : Piece.rings ∈ ps ∨ ∀ h : HostIf, (f h).rings = (h).rings)
    (h1 : Piece.evqs ∈ ps ∨ ∀ h : HostIf, (f h).evqs = (h).evqs)
    (h2 : Piece.jobs ∈ ps ∨ ∀ h : HostIf, (f h).jobs = (h).jobs)
    (h3 : Piece.flags ∈ ps ∨ ∀ h : HostIf, (f h).flags = (h).flags)
    (h4 : Piece.hostSet ∈ ps ∨ ∀ h : HostIf, ((f h).sysEvq, (f h).sysValid, (f h).watchdogMs, (f h).areaMask, (f h).vfEnable, (f h).numVfs) = ((h).sysEvq, (h).sysValid, (h).watchdogMs, (h).areaMask, (h).vfEnable, (h).numVfs))
    (h5 : Piece.hostLink ∈ ps ∨ ∀ h : HostIf, ((f h).perstN, (f h).linkUp) = ((h).perstN, (h).linkUp))
    (h6 : Piece.msix ∈ ps ∨ ∀ h : HostIf, (f h).msix = (h).msix)
    (h7 : Piece.held ∈ ps ∨ ∀ h : HostIf, (f h).held = (h).held)
    (h8 : Piece.last0106 ∈ ps ∨ ∀ h : HostIf, (f h).last0106 = (h).last0106)
    (h9 : Piece.nextTok ∈ ps ∨ ∀ h : HostIf, (f h).nextTok = (h).nextTok)
    (g : Sw.keeps ps a s) : Sw.keeps ps a (s.modHost f) := by
  refine g.trans ?_
  intro p hp
  cases p
  case rings => exact (h0.resolve_left hp _).symm
  case evqs => exact (h1.resolve_left hp _).symm
  case jobs => exact (h2.resolve_left hp _).symm
  case flags => exact (h3.resolve_left hp _).symm
  case hostSet => exact (h4.resolve_left hp _).symm
  case hostLink => exact (h5.resolve_left hp _).symm
  case msix => exact (h6.resolve_left hp _).symm
  case held => exact (h7.resolve_left hp _).symm
  case last0106 => exact (h8.resolve_left hp _).symm
  case nextTok => exact (h9.resolve_left hp _).symm
  all_goals first | rfl | (intro; rfl)
/-- A change to every port that has an entry. -/
theorem mapPorts_keeps {ps : List Piece} {f : Port → Port} {a s : Sw}
    (hr : Piece.portReg ∈ ps ∨ ∀ p, (f p).reg.rest = p.reg.rest) (hm : Piece.portMap ∈ ps ∨ ∀ p, (f p).reg.maps = p.reg.maps)
    (hc : Piece.portCnt ∈ ps ∨ ∀ p, (f p).cnt = p.cnt)
    (hl : Piece.portLink ∈ ps ∨ ∀ p, (f p).link = p.link) (hq : Piece.portQ ∈ ps ∨ ∀ p, (f p).q = p.q)
    (hs : Piece.portSec ∈ ps ∨ ∀ p, (f p).sec = p.sec) (h : Sw.keeps ps a s) :
    Sw.keeps ps a (s.mapPorts f) := by
  refine h.trans ?_
  intro p hp
  cases p
  case portReg => intro n; exact (SMap.getD_mapVals_keep f (fun p => p.reg.rest) (hr.resolve_left hp) n _ s.ports).symm
  case portMap => intro n; exact (SMap.getD_mapVals_keep f (fun p => p.reg.maps) (hm.resolve_left hp) n _ s.ports).symm
  case portCnt => intro n; exact (SMap.getD_mapVals_keep f Port.cnt (hc.resolve_left hp) n _ s.ports).symm
  case portLink => intro n; exact (SMap.getD_mapVals_keep f Port.link (hl.resolve_left hp) n _ s.ports).symm
  case portQ => intro n; exact (SMap.getD_mapVals_keep f Port.q (hq.resolve_left hp) n _ s.ports).symm
  case portSec => intro n; exact (SMap.getD_mapVals_keep f Port.sec (hs.resolve_left hp) n _ s.ports).symm
  all_goals first | rfl | (intro; rfl)

end Sys2Proof.Machine
end

