-- ==== Sys2Proof/Laws/FrameParts.lean ====
section
/-! SUPPORT. Names for the sets of state parts that the frame lemmas speak of. -/
namespace Sys2Proof.Machine

/-- Parts that some operations can change. -/
def parts1 : List Piece := [.evTimes, .evqs, .msix, .outs]
/-- Parts that some operations can change. -/
def parts2 : List Piece := [.evqs, .jobs, .msix, .outs]
/-- Parts that some operations can change. -/
def parts3 : List Piece := [.evqs, .msix, .ctxs, .outs]
/-- Parts that some operations can change. -/
def parts4 : List Piece := [.evqs, .msix, .cxl, .outs]
/-- Parts that some operations can change. -/
def parts5 : List Piece := [.evqs, .msix, .hbm, .outs]
/-- Parts that some operations can change. -/
def parts6 : List Piece := [.evqs, .msix, .held, .outs]
/-- Parts that some operations can change. -/
def parts7 : List Piece := [.evqs, .msix, .pool, .outs]
/-- Parts that some operations can change. -/
def parts8 : List Piece := [.evqs, .msix, .portQ, .outs]
/-- Parts that some operations can change. -/
def parts9 : List Piece := [.evqs, .msix, .rcv, .outs]
/-- Parts that some operations can change. -/
def parts10 : List Piece := [.evqs, .msix, .sites, .outs]
/-- Parts that some operations can change. -/
def parts11 : List Piece := [.evqs, .msix, .tiles, .outs]
/-- Parts that some operations can change. -/
def parts12 : List Piece := [.glb, .evqs, .msix, .outs]
/-- Parts that some operations can change. -/
def parts13 : List Piece := [.rings, .evqs, .msix, .outs]
/-- Parts that some operations can change. -/
def parts14 : List Piece := [.tiles, .hbm, .ctxs, .freeCtr]
/-- Parts that some operations can change. -/
def parts15 : List Piece := [.time, .evqs, .msix, .outs]
/-- Parts that some operations can change. -/
def parts16 : List Piece := [.wear, .evqs, .msix, .outs]
/-- Parts that some operations can change. -/
def parts17 : List Piece := [.evTimes, .evqs, .msix, .pool, .outs]
/-- Parts that some operations can change. -/
def parts18 : List Piece := [.evTimes, .evqs, .msix, .portCnt, .outs]
/-- Parts that some operations can change. -/
def parts19 : List Piece := [.evTimes, .pwr, .evqs, .msix, .outs]
/-- Parts that some operations can change. -/
def parts20 : List Piece := [.evqs, .msix, .pool, .ctxs, .outs]
/-- Parts that some operations can change. -/
def parts21 : List Piece := [.glb, .evTimes, .evqs, .msix, .outs]
/-- Parts that some operations can change. -/
def parts22 : List Piece := [.glb, .evqs, .msix, .last0106, .outs]
/-- Parts that some operations can change. -/
def parts23 : List Piece := [.glb, .pwr, .evqs, .msix, .outs]
/-- Parts that some operations can change. -/
def parts24 : List Piece := [.glb, .time, .evqs, .msix, .outs]
/-- Parts that some operations can change. -/
def parts25 : List Piece := [.rings, .evqs, .jobs, .msix, .outs]
/-- Parts that some operations can change. -/
def parts26 : List Piece := [.rings, .evqs, .msix, .ctxs, .outs]
/-- Parts that some operations can change. -/
def parts27 : List Piece := [.rings, .evqs, .msix, .kernels, .outs]
/-- Parts that some operations can change. -/
def parts28 : List Piece := [.rings, .evqs, .msix, .rcv, .outs]
/-- Parts that some operations can change. -/
def parts29 : List Piece := [.sec, .evqs, .msix, .held, .outs]
/-- Parts that some operations can change. -/
def parts30 : List Piece := [.evTimes, .evqs, .msix, .cxl, .pool, .outs]
/-- Parts that some operations can change. -/
def parts31 : List Piece := [.evTimes, .evqs, .msix, .pool, .ctxs, .outs]
/-- Parts that some operations can change. -/
def parts32 : List Piece := [.evTimes, .evqs, .msix, .portCnt, .portQ, .outs]
/-- Parts that some operations can change. -/
def parts33 : List Piece := [.glb, .evTimes, .pwr, .evqs, .msix, .outs]
/-- Parts that some operations can change. -/
def parts34 : List Piece := [.glb, .evqs, .msix, .last0106, .lanes, .outs]
/-- Parts that some operations can change. -/
def parts35 : List Piece := [.glb, .pwr, .evqs, .msix, .last0106, .outs]
/-- Parts that some operations can change. -/
def parts36 : List Piece := [.rings, .evqs, .jobs, .flags, .msix, .outs]
/-- Parts that some operations can change. -/
def parts37 : List Piece := [.time, .sync, .evqs, .msix, .outs, .freeCtr]
/-- Parts that some operations can change. -/
def parts38 : List Piece := [.evTimes, .evqs, .msix, .cxl, .pool, .ctxs, .outs]
/-- Parts that some operations can change. -/
def parts39 : List Piece := [.evTimes, .evqs, .msix, .portCnt, .portLink, .portQ, .outs]
/-- Parts that some operations can change. -/
def parts40 : List Piece := [.evTimes, .evqs, .msix, .portCnt, .portQ, .ctxs, .outs]
/-- Parts that some operations can change. -/
def parts41 : List Piece := [.evTimes, .evqs, .msix, .portCnt, .portQ, .fab, .outs]
/-- Parts that some operations can change. -/
def parts42 : List Piece := [.evTimes, .sync, .evqs, .msix, .portCnt, .portQ, .outs]
/-- Parts that some operations can change. -/
def parts43 : List Piece := [.evTimes, .time, .evqs, .msix, .portQ, .outs, .freeCtr]
/-- Parts that some operations can change. -/
def parts44 : List Piece := [.evqs, .msix, .cxl, .pool, .ctxs, .migQueues, .outs]
/-- Parts that some operations can change. -/
def parts45 : List Piece := [.glb, .rings, .evqs, .jobs, .msix, .last0106, .outs]
/-- Parts that some operations can change. -/
def parts46 : List Piece := [.evTimes, .evqs, .msix, .cxl, .pool, .ctxs, .migQueues, .outs]
/-- Parts that some operations can change. -/
def parts47 : List Piece := [.evTimes, .evqs, .msix, .portCnt, .portLink, .portQ, .ctxs, .outs]
/-- Parts that some operations can change. -/
def parts48 : List Piece := [.evTimes, .evqs, .msix, .portCnt, .portQ, .cxl, .ctxs, .outs]
/-- Parts that some operations can change. -/
def parts49 : List Piece := [.evTimes, .rings, .evqs, .msix, .portCnt, .portQ, .ctxs, .outs]
/-- Parts that some operations can change. -/
def parts50 : List Piece := [.evTimes, .rings, .evqs, .msix, .portCnt, .portQ, .rcv, .outs]
/-- Parts that some operations can change. -/
def parts51 : List Piece := [.evqs, .msix, .portReg, .portLink, .portQ, .lanes, .outs, .freeCtr]
/-- Parts that some operations can change. -/
def parts52 : List Piece := [.rings, .evqs, .jobs, .msix, .portMap, .pool, .ctxs, .outs]
/-- Parts that some operations can change. -/
def parts53 : List Piece := [.evTimes, .time, .evqs, .msix, .portCnt, .portQ, .ctxs, .outs, .freeCtr]
/-- Parts that some operations can change. -/
def parts54 : List Piece := [.evTimes, .wear, .evqs, .msix, .tiles, .ctxs, .rcv, .outs, .freeCtr]
/-- Parts that some operations can change. -/
def parts55 : List Piece := [.evTimes, .evqs, .msix, .portCnt, .portQ, .cxl, .pool, .ctxs, .migQueues, .outs]
/-- Parts that some operations can change. -/
def parts56 : List Piece := [.evTimes, .rings, .evqs, .msix, .tiles, .cxl, .pool, .ctxs, .migQueues, .outs]
/-- Parts that some operations can change. -/
def parts57 : List Piece := [.evTimes, .time, .evqs, .msix, .portCnt, .portQ, .tiles, .hbm, .ctxs, .outs, .freeCtr]
/-- Parts that some operations can change. -/
def parts58 : List Piece := [.evTimes, .time, .rings, .evqs, .msix, .portCnt, .portQ, .pool, .ctxs, .outs, .freeCtr]
/-- Parts that some operations can change. -/
def parts59 : List Piece := [.evTimes, .time, .rings, .evqs, .msix, .portMap, .portCnt, .portQ, .pool, .ctxs, .outs, .freeCtr]
/-- Parts that some operations can change. -/
def parts60 : List Piece := [.evTimes, .wear, .time, .evqs, .msix, .portCnt, .portQ, .tiles, .hbm, .ctxs, .rcv, .outs, .freeCtr]
/-- Parts that some operations can change. -/
def parts61 : List Piece := [.evTimes, .time, .rings, .evqs, .msix, .portCnt, .portQ, .tiles, .cxl, .pool, .ctxs, .migQueues, .outs, .freeCtr]
/-- Parts that some operations can change. -/
def parts62 : List Piece := [.evTimes, .wear, .time, .rings, .evqs, .jobs, .flags, .msix, .portCnt, .portQ, .tiles, .hbm, .pool, .ctxs, .rcv, .outs, .freeCtr]
/-- Parts that some operations can change. -/
def parts63 : List Piece := [.evTimes, .wear, .time, .rings, .evqs, .jobs, .flags, .msix, .portMap, .portCnt, .portQ, .tiles, .hbm, .cxl, .pool, .ctxs, .rcv, .migQueues, .outs, .freeCtr]
/-- Parts that some operations can change. -/
def parts64 : List Piece := [.evTimes, .wear, .time, .rings, .evqs, .jobs, .flags, .msix, .portMap, .portCnt, .portLink, .portQ, .tiles, .hbm, .cxl, .pool, .ctxs, .rcv, .migQueues, .outs, .freeCtr]
/-- Parts that some operations can change. -/
def parts65 : List Piece := [.evTimes, .wear, .time, .rings, .evqs, .jobs, .flags, .msix, .portMap, .portCnt, .portQ, .tiles, .hbm, .cxl, .pool, .ctxs, .fab, .rcv, .migQueues, .outs, .freeCtr]
/-- Parts that some operations can change. -/
def parts66 : List Piece := [.glb, .evTimes, .wear, .time, .rings, .evqs, .jobs, .flags, .msix, .portMap, .portCnt, .portQ, .tiles, .hbm, .cxl, .pool, .ctxs, .rcv, .migQueues, .outs, .freeCtr]
/-- Parts that some operations can change. -/
def parts67 : List Piece := [.evTimes, .wear, .time, .rings, .evqs, .jobs, .flags, .msix, .portMap, .portCnt, .portLink, .portQ, .tiles, .hbm, .cxl, .pool, .ctxs, .fab, .rcv, .migQueues, .outs, .freeCtr]
/-- Parts that some operations can change. -/
def parts68 : List Piece := [.evTimes, .wear, .time, .sync, .rings, .evqs, .jobs, .flags, .msix, .portReg, .portMap, .portCnt, .portLink, .portQ, .portSec, .quads, .lanes, .tiles, .hbm, .cxl, .pool, .ctxs, .fab, .rcv, .migQueues, .outs, .freeCtr]
/-- Parts that some operations can change. -/
def parts69 : List Piece := [.evTimes, .wear, .time, .sync, .rings, .evqs, .jobs, .flags, .msix, .held, .portReg, .portMap, .portCnt, .portLink, .portQ, .portSec, .quads, .lanes, .tiles, .hbm, .cxl, .pool, .ctxs, .fab, .rcv, .migQueues, .outs, .freeCtr]
/-- Parts that some operations can change. -/
def parts70 : List Piece := [.evTimes, .wear, .time, .sync, .rings, .evqs, .jobs, .flags, .msix, .portReg, .portMap, .portCnt, .portLink, .portQ, .portSec, .quads, .lanes, .tiles, .takeovers, .hbm, .cxl, .pool, .ctxs, .fab, .rcv, .migQueues, .outs, .freeCtr]
/-- Parts that some operations can change. -/
def parts71 : List Piece := [.evTimes, .wear, .time, .sync, .rings, .evqs, .jobs, .flags, .msix, .portReg, .portMap, .portCnt, .portLink, .portQ, .portSec, .quads, .lanes, .engines, .sites, .tiles, .hbm, .cxl, .pool, .ctxs, .fab, .rcv, .migQueues, .outs, .freeCtr]
/-- Parts that some operations can change. -/
def parts72 : List Piece := [.glb, .evTimes, .pwr, .wear, .sec, .time, .sync, .rings, .evqs, .jobs, .flags, .hostSet, .hostLink, .msix, .held, .last0106, .portReg, .portMap, .portCnt, .portLink, .portQ, .portSec, .quads, .lanes, .tiles, .takeovers, .hbm, .cxl, .pool, .ctxs, .fab, .rcv, .kernels, .migQueues, .outs, .freeCtr]
/-- Parts that some operations can change. -/
def parts73 : List Piece := [.glb, .evTimes, .pwr, .wear, .sec, .time, .sync, .rings, .evqs, .jobs, .flags, .hostSet, .hostLink, .msix, .held, .last0106, .portReg, .portMap, .portCnt, .portLink, .portQ, .portSec, .quads, .lanes, .engines, .sites, .tiles, .takeovers, .hbm, .cxl, .cxlHoldMs, .cxlGen, .pool, .groveC, .ctxs, .fab, .rcv, .kernels, .migQueues, .freeCtr]
/-- Parts that some operations can change. -/
def parts74 : List Piece := [.glb, .evTimes, .pwr, .wear, .sec, .time, .sync, .rings, .evqs, .jobs, .flags, .hostSet, .hostLink, .msix, .held, .last0106, .portReg, .portMap, .portCnt, .portLink, .portQ, .portSec, .quads, .lanes, .engines, .sites, .tiles, .takeovers, .hbm, .cxl, .cxlHoldMs, .cxlGen, .pool, .groveC, .ctxs, .fab, .rcv, .kernels, .migQueues, .outs, .freeCtr]

end Sys2Proof.Machine
end

