-- ==== Sys2Proof/Laws/FrameData.lean ====
section
/-! SUPPORT. Frames of events, cells, the pool, flags, gradients, reductions and banks. A lemma f_keeps says: what was kept so far, f keeps too, where the parts f can
change are among the listed ones. -/
namespace Sys2Proof.Machine

/-! ### Events -/

theorem sendMsix_keeps {ps : List Piece} {func vector : Nat} {s₀ s : Sw} (hk₀ : partsIn [.msix, .outs] ps = true) (h₀ : Sw.keeps ps s₀ s) :
    Sw.keeps ps s₀ (sendMsix func vector s) := by
  unfold sendMsix
  repeat'
    first
    | with_reducible first | assumption | intro _ | apply keeps_ite | apply out_keeps | apply modHost_keeps | exact partsIn_trans (by decide) hk₀
    | exact Or.inr (fun _ => rfl)
    | exact Or.inl (partsIn_mem hk₀ (by decide))

theorem putRecord_keeps {ps : List Piece} {q : Nat} {r : RawRec} {s₀ s : Sw} (hk₀ : partsIn [.evqs, .outs] ps = true) (h₀ : Sw.keeps ps s₀ s) :
    Sw.keeps ps s₀ (putRecord q r s) := by
  unfold putRecord
  repeat'
    first
    | with_reducible first | assumption | intro _ | apply keeps_ite | apply modEvq_keeps | apply out_keeps | exact partsIn_trans (by decide) hk₀

theorem putRecords_keeps {ps : List Piece} {q : Nat} {rs : List RawRec} {s₀ s : Sw} (hk₀ : partsIn [.evqs, .msix, .outs] ps = true) (h₀ : Sw.keeps ps s₀ s) :
    Sw.keeps ps s₀ (putRecords q rs s) := by
  unfold putRecords
  repeat'
    first
    | with_reducible first | assumption | intro _ | apply keeps_ite | apply putRecord_keeps | apply sendMsix_keeps | apply modEvq_keeps | apply each_keeps | exact partsIn_trans (by decide) hk₀

theorem writeLost_keeps {ps : List Piece} {q : Nat} {s₀ s : Sw} (hk₀ : partsIn [.evqs, .msix, .outs] ps = true) (h₀ : Sw.keeps ps s₀ s) :
    Sw.keeps ps s₀ (writeLost q s) := by
  unfold writeLost
  repeat'
    first
    | with_reducible first | assumption | intro _ | apply keeps_ite | apply putRecords_keeps | apply modEvq_keeps | exact partsIn_trans (by decide) hk₀
    | dsimp only
    | split

theorem postEvent_keeps {ps : List Piece} {q code : Nat} {ctx job : Option Nat} {content : List Byte} {s₀ s : Sw} (hk₀ : partsIn [.evqs, .msix, .outs] ps = true) (h₀ : Sw.keeps ps s₀ s) :
    Sw.keeps ps s₀ (postEvent q code ctx job content s) := by
  unfold postEvent
  repeat'
    first
    | with_reducible first | assumption | intro _ | apply keeps_ite | apply putRecords_keeps | apply writeLost_keeps | apply modEvq_keeps | exact partsIn_trans (by decide) hk₀

theorem raiseCtx_keeps {ps : List Piece} {x code : Nat} {content : List Byte} {s₀ s : Sw} (hk₀ : partsIn [.evqs, .msix, .outs] ps = true) (h₀ : Sw.keeps ps s₀ s) :
    Sw.keeps ps s₀ (raiseCtx x code content s) := by
  unfold raiseCtx
  repeat'
    first
    | with_reducible first | assumption | intro _ | apply keeps_ite | apply postEvent_keeps | exact partsIn_trans (by decide) hk₀
    | dsimp only
    | split

theorem raiseJob_keeps {ps : List Piece} {j code : Nat} {content : List Byte} {s₀ s : Sw} (hk₀ : partsIn [.evqs, .msix, .outs] ps = true) (h₀ : Sw.keeps ps s₀ s) :
    Sw.keeps ps s₀ (raiseJob j code content s) := by
  unfold raiseJob
  repeat'
    first
    | with_reducible first | assumption | intro _ | apply keeps_ite | apply postEvent_keeps | exact partsIn_trans (by decide) hk₀
    | dsimp only
    | split

theorem raiseSys_keeps {ps : List Piece} {code : Nat} {content : List Byte} {s₀ s : Sw} (hk₀ : partsIn [.evqs, .msix, .outs] ps = true) (h₀ : Sw.keeps ps s₀ s) :
    Sw.keeps ps s₀ (raiseSys code content s) := by
  unfold raiseSys
  repeat'
    first
    | with_reducible first | assumption | intro _ | apply keeps_ite | apply postEvent_keeps

theorem raiseHeld_keeps {ps : List Piece} {code : Nat} {content : List Byte} {s₀ s : Sw} (hk₀ : partsIn parts6 ps = true) (h₀ : Sw.keeps ps s₀ s) :
    Sw.keeps ps s₀ (raiseHeld code content s) := by
  unfold raiseHeld
  repeat'
    first
    | with_reducible first | assumption | intro _ | apply keeps_ite | apply raiseSys_keeps | apply modHost_keeps | exact partsIn_trans (by decide) hk₀
    | exact Or.inr (fun _ => rfl)
    | exact Or.inl (partsIn_mem hk₀ (by decide))

theorem holdEvent_keeps {ps : List Piece} {code : Nat} {content : List Byte} {s₀ s : Sw} (hk₀ : partsIn [.held] ps = true) (h₀ : Sw.keeps ps s₀ s) :
    Sw.keeps ps s₀ (holdEvent code content s) := by
  unfold holdEvent
  repeat'
    first
    | with_reducible first | assumption | intro _ | apply keeps_ite | apply modHost_keeps | exact partsIn_trans (by decide) hk₀
    | exact Or.inr (fun _ => rfl)
    | exact Or.inl (partsIn_mem hk₀ (by decide))

theorem completeWith_keeps {ps : List Piece} {t : Tok} {code status : Nat} {hostErr : Bool} {result : Quad} {content : List Byte} {s₀ s : Sw} (hk₀ : partsIn parts13 ps = true) (h₀ : Sw.keeps ps s₀ s) :
    Sw.keeps ps s₀ (completeWith t code status hostErr result content s) := by
  unfold completeWith
  repeat'
    first
    | with_reducible first | assumption | intro _ | apply keeps_ite | apply putRecords_keeps | apply writeLost_keeps | apply modRing_keeps | apply modEvq_keeps | exact partsIn_trans (by decide) hk₀

theorem complete_keeps {ps : List Piece} {t : Tok} {status : Nat} {s₀ s : Sw} (hk₀ : partsIn parts13 ps = true) (h₀ : Sw.keeps ps s₀ s) :
    Sw.keeps ps s₀ (complete t status s) := by
  unfold complete
  repeat'
    first
    | with_reducible first | assumption | intro _ | apply keeps_ite | apply completeWith_keeps

theorem completeR_keeps {ps : List Piece} {t : Tok} {status : Nat} {result : Quad} {s₀ s : Sw} (hk₀ : partsIn parts13 ps = true) (h₀ : Sw.keeps ps s₀ s) :
    Sw.keeps ps s₀ (completeR t status result s) := by
  unfold completeR
  repeat'
    first
    | with_reducible first | assumption | intro _ | apply keeps_ite | apply completeWith_keeps

theorem completeE_keeps {ps : List Piece} {t : Tok} {code status : Nat} {content : List Byte} {s₀ s : Sw} (hk₀ : partsIn parts13 ps = true) (h₀ : Sw.keeps ps s₀ s) :
    Sw.keeps ps s₀ (completeE t code status content s) := by
  unfold completeE
  repeat'
    first
    | with_reducible first | assumption | intro _ | apply keeps_ite | apply completeWith_keeps

theorem hostFail_keeps {ps : List Piece} {t : Tok} {addr : Quad} {s₀ s : Sw} (hk₀ : partsIn parts13 ps = true) (h₀ : Sw.keeps ps s₀ s) :
    Sw.keeps ps s₀ (hostFail t addr s) := by
  unfold hostFail
  repeat'
    first
    | with_reducible first | assumption | intro _ | apply keeps_ite | apply completeWith_keeps

theorem completeOpt_keeps {ps : List Piece} {t : Option Tok} {status : Nat} {s₀ s : Sw} (hk₀ : partsIn parts13 ps = true) (h₀ : Sw.keeps ps s₀ s) :
    Sw.keeps ps s₀ (completeOpt t status s) := by
  unfold completeOpt
  repeat'
    first
    | with_reducible first | assumption | intro _ | apply keeps_ite | apply complete_keeps | exact partsIn_trans (by decide) hk₀
    | dsimp only
    | split

theorem hostWrite_keeps {ps : List Piece} {t : Tok} {addr : Quad} {bytes : List Byte} {s₀ s : Sw} (hk₀ : partsIn [.outs] ps = true) (h₀ : Sw.keeps ps s₀ s) :
    Sw.keeps ps s₀ (hostWrite t addr bytes s) := by
  unfold hostWrite
  repeat'
    first
    | with_reducible first | assumption | intro _ | apply keeps_ite | apply out_keeps

theorem dispatch_keeps {ps : List Piece} {code : Nat} {b : Sub} {s₀ s : Sw} (hk₀ : partsIn [.rings, .evqs, .nextTok] ps = true) (h₀ : Sw.keeps ps s₀ s) :
    Sw.keeps ps s₀ (dispatch code b s).2 := by
  unfold dispatch
  repeat'
    first
    | with_reducible first | assumption | intro _ | apply keeps_ite | apply modRing_keeps | apply modEvq_keeps | apply modHost_keeps | exact partsIn_trans (by decide) hk₀
    | exact Or.inr (fun _ => rfl)
    | exact Or.inl (partsIn_mem hk₀ (by decide))

theorem runDesc_keeps {ps : List Piece} {code : Nat} {op : Sub → Tok → Sw → Sw} {b : Sub} {s₀ s : Sw} (hk₀ : partsIn [.rings, .evqs, .msix, .nextTok, .outs] ps = true) (hop : ∀ x0 x1 a s, Sw.keeps ps a s → Sw.keeps ps a (op x0 x1 s)) (h₀ : Sw.keeps ps s₀ s) :
    Sw.keeps ps s₀ (runDesc code op b s) := by
  unfold runDesc
  repeat'
    first
    | with_reducible first | assumption | intro _ | apply keeps_ite | apply complete_keeps | apply dispatch_keeps | apply hop | exact partsIn_trans (by decide) hk₀
    | dsimp only
    | split

theorem guardDesc_keeps {ps : List Piece} {t : Tok} {checks : List (Bool × Nat)} {f : Sw → Sw} {s₀ s : Sw} (hk₀ : partsIn parts13 ps = true) (hf : ∀ a s, Sw.keeps ps a s → Sw.keeps ps a (f s)) (h₀ : Sw.keeps ps s₀ s) :
    Sw.keeps ps s₀ (guardDesc t checks f s) := by
  unfold guardDesc
  repeat'
    first
    | with_reducible first | assumption | intro _ | apply keeps_ite | apply complete_keeps | apply hf | exact partsIn_trans (by decide) hk₀
    | dsimp only
    | split

theorem hostGuard_keeps {ps : List Piece} {b : Sub} {t : Tok} {f : Sw → Sw} {s₀ s : Sw} (hk₀ : partsIn parts13 ps = true) (hf : ∀ a s, Sw.keeps ps a s → Sw.keeps ps a (f s)) (h₀ : Sw.keeps ps s₀ s) :
    Sw.keeps ps s₀ (hostGuard b t f s) := by
  unfold hostGuard
  repeat'
    first
    | with_reducible first | assumption | intro _ | apply keeps_ite | apply hostFail_keeps | apply hf | exact partsIn_trans (by decide) hk₀
    | dsimp only
    | split

/-! ### Send -/

theorem modVer_keeps {ps : List Piece} {v : Nat} {f : RouteVer → RouteVer} {s₀ s : Sw} (hk₀ : partsIn [.fab] ps = true) (h₀ : Sw.keeps ps s₀ s) :
    Sw.keeps ps s₀ (Sw.modVer v f s) := by
  unfold Sw.modVer
  repeat'
    first
    | with_reducible first | assumption | intro _ | apply keeps_ite | apply modFab_keeps

theorem dropRank_keeps {ps : List Piece} {i o vc : Nat} {s₀ s : Sw} (hk₀ : partsIn parts18 ps = true) (h₀ : Sw.keeps ps s₀ s) :
    Sw.keeps ps s₀ (dropRank i o vc s) := by
  unfold dropRank
  repeat'
    first
    | with_reducible first | assumption | intro _ | apply keeps_ite | apply raiseSys_keeps | apply modCnt_keeps | apply limited_keeps | exact partsIn_trans (by decide) hk₀

theorem dropRoute_keeps {ps : List Piece} {i : Nat} {c : Cell} {s₀ s : Sw} (hk₀ : partsIn parts18 ps = true) (h₀ : Sw.keeps ps s₀ s) :
    Sw.keeps ps s₀ (dropRoute i c s) := by
  unfold dropRoute
  repeat'
    first
    | with_reducible first | assumption | intro _ | apply keeps_ite | apply raiseSys_keeps | apply modCnt_keeps | apply limited_keeps | exact partsIn_trans (by decide) hk₀

theorem overrun_keeps {ps : List Piece} {o x case : Nat} {s₀ s : Sw} (hk₀ : partsIn [.evTimes, .time, .evqs, .msix, .outs] ps = true) (h₀ : Sw.keeps ps s₀ s) :
    Sw.keeps ps s₀ (overrun o x case s) := by
  unfold overrun
  repeat'
    first
    | with_reducible first | assumption | intro _ | apply keeps_ite | apply raiseCtx_keeps | apply modTime_keeps | apply limited_keeps | exact partsIn_trans (by decide) hk₀

theorem placeNow_keeps {ps : List Piece} {o x kind len : Nat} {s₀ s : Sw} (hk₀ : partsIn parts43 ps = true) (h₀ : Sw.keeps ps s₀ s) :
    Sw.keeps ps s₀ (placeNow o x kind len s).2 := by
  unfold placeNow
  repeat'
    first
    | with_reducible first | assumption | intro _ | apply keeps_ite | apply overrun_keeps | apply modTime_keeps | apply modQ_keeps | apply drawn_keeps | exact partsIn_trans (by decide) hk₀
    | dsimp only
    | split

theorem placeUnit_keeps {ps : List Piece} {o x kind len : Nat} {s₀ s : Sw} (hk₀ : partsIn parts43 ps = true) (h₀ : Sw.keeps ps s₀ s) :
    Sw.keeps ps s₀ (placeUnit o x kind len s).2 := by
  unfold placeUnit
  repeat'
    first
    | with_reducible first | assumption | intro _ | apply keeps_ite | apply placeNow_keeps | exact partsIn_trans (by decide) hk₀
    | dsimp only
    | split

theorem dropTrunc_keeps {ps : List Piece} {o : Nat} {c : Cell} {s₀ s : Sw} (hk₀ : partsIn parts18 ps = true) (h₀ : Sw.keeps ps s₀ s) :
    Sw.keeps ps s₀ (dropTrunc o c s) := by
  unfold dropTrunc
  repeat'
    first
    | with_reducible first | assumption | intro _ | apply keeps_ite | apply raiseSys_keeps | apply modCnt_keeps | apply limited_keeps | exact partsIn_trans (by decide) hk₀

theorem dropLost_keeps {ps : List Piece} {o : Nat} {s₀ s : Sw} (hk₀ : partsIn [.portCnt] ps = true) (h₀ : Sw.keeps ps s₀ s) :
    Sw.keeps ps s₀ (dropLost o s) := by
  unfold dropLost
  repeat'
    first
    | with_reducible first | assumption | intro _ | apply keeps_ite | apply modCnt_keeps

theorem pushTx_keeps {ps : List Piece} {o : Nat} {it : TxItem} {s₀ s : Sw} (hk₀ : partsIn [.portQ] ps = true) (h₀ : Sw.keeps ps s₀ s) :
    Sw.keeps ps s₀ (pushTx o it s) := by
  unfold pushTx
  repeat'
    first
    | with_reducible first | assumption | intro _ | apply keeps_ite | apply modQ_keeps

theorem dropStall_keeps {ps : List Piece} {o : Nat} {s₀ s : Sw} (hk₀ : partsIn [.portCnt] ps = true) (h₀ : Sw.keeps ps s₀ s) :
    Sw.keeps ps s₀ (dropStall o s) := by
  unfold dropStall
  repeat'
    first
    | with_reducible first | assumption | intro _ | apply keeps_ite | apply modCnt_keeps

theorem pushMember_keeps {ps : List Piece} {o tc : Nat} {it : TxItem} {s₀ s : Sw} (hk₀ : partsIn [.evqs, .msix, .portCnt, .portQ, .outs] ps = true) (h₀ : Sw.keeps ps s₀ s) :
    Sw.keeps ps s₀ (pushMember o tc it s).2 := by
  unfold pushMember
  repeat'
    first
    | with_reducible first | assumption | intro _ | apply keeps_ite | apply dropStall_keeps | apply pushTx_keeps | apply raiseSys_keeps | apply modQ_keeps | exact partsIn_trans (by decide) hk₀
    | dsimp only
    | split

theorem enqueue_keeps {ps : List Piece} {o : Nat} {it : TxItem} {s₀ s : Sw} (hk₀ : partsIn parts32 ps = true) (h₀ : Sw.keeps ps s₀ s) :
    Sw.keeps ps s₀ (enqueue o it s).2 := by
  unfold enqueue
  repeat'
    first
    | with_reducible first | assumption | intro _ | apply keeps_ite | apply dropLost_keeps | apply dropTrunc_keeps | apply pushMember_keeps | apply pushTx_keeps | apply modCnt_keeps | exact partsIn_trans (by decide) hk₀
    | dsimp only
    | split

theorem sendCtrl_keeps {ps : List Piece} {o : Nat} {c : Cell} {s₀ s : Sw} (hk₀ : partsIn parts32 ps = true) (h₀ : Sw.keeps ps s₀ s) :
    Sw.keeps ps s₀ (sendCtrl o c s) := by
  unfold sendCtrl
  repeat'
    first
    | with_reducible first | assumption | intro _ | apply keeps_ite | apply enqueue_keeps

theorem ctxSend_keeps {ps : List Piece} {x q : Nat} {items : List TxItem} {s₀ s : Sw} (hk₀ : partsIn parts53 ps = true) (h₀ : Sw.keeps ps s₀ s) :
    Sw.keeps ps s₀ (ctxSend x q items s) := by
  unfold ctxSend
  repeat'
    first
    | with_reducible first | assumption | intro _ | apply keeps_ite | apply dropRank_keeps | apply enqueue_keeps | apply placeUnit_keeps | apply setCtx_keeps | apply each_keeps | exact partsIn_trans (by decide) hk₀
    | dsimp only
    | split

theorem ctxCtrl_keeps {ps : List Piece} {x q : Nat} {m : Mark} {c : Cell} {s₀ s : Sw} (hk₀ : partsIn parts53 ps = true) (h₀ : Sw.keeps ps s₀ s) :
    Sw.keeps ps s₀ (ctxCtrl x q m c s) := by
  unfold ctxCtrl
  repeat'
    first
    | with_reducible first | assumption | intro _ | apply keeps_ite | apply ctxSend_keeps

/-! ### Operands -/

theorem freeCredit_keeps {ps : List Piece} {p vc : Nat} {s₀ s : Sw} (hk₀ : partsIn [.portLink] ps = true) (h₀ : Sw.keeps ps s₀ s) :
    Sw.keeps ps s₀ (freeCredit p vc s) := by
  unfold freeCredit
  repeat'
    first
    | with_reducible first | assumption | intro _ | apply keeps_ite | apply modLink_keeps

theorem payPaced_keeps {ps : List Piece} {p : Nat} {s₀ s : Sw} (hk₀ : partsIn [.portLink] ps = true) (h₀ : Sw.keeps ps s₀ s) :
    Sw.keeps ps s₀ (payPaced p s) := by
  unfold payPaced
  repeat'
    first
    | with_reducible first | assumption | intro _ | apply keeps_ite | apply modLink_keeps | exact partsIn_trans (by decide) hk₀
    | dsimp only
    | split

theorem sendCredit_keeps {ps : List Piece} {p : Nat} {s₀ s : Sw} (hk₀ : partsIn parts39 ps = true) (h₀ : Sw.keeps ps s₀ s) :
    Sw.keeps ps s₀ (sendCredit p s) := by
  unfold sendCredit
  repeat'
    first
    | with_reducible first | assumption | intro _ | apply keeps_ite | apply sendCtrl_keeps | apply modLink_keeps | exact partsIn_trans (by decide) hk₀

theorem creditBack_keeps {ps : List Piece} {p vc : Nat} {s₀ s : Sw} (hk₀ : partsIn parts39 ps = true) (h₀ : Sw.keeps ps s₀ s) :
    Sw.keeps ps s₀ (creditBack p vc s) := by
  unfold creditBack
  repeat'
    first
    | with_reducible first | assumption | intro _ | apply keeps_ite | apply freeCredit_keeps | apply payPaced_keeps | apply sendCredit_keeps | exact partsIn_trans (by decide) hk₀

theorem consume_keeps {ps : List Piece} {p : Nat} {c : Cell} {s₀ s : Sw} (hk₀ : partsIn parts39 ps = true) (h₀ : Sw.keeps ps s₀ s) :
    Sw.keeps ps s₀ (consume p c s) := by
  unfold consume
  repeat'
    first
    | with_reducible first | assumption | intro _ | apply keeps_ite | apply creditBack_keeps | apply modQ_keeps | exact partsIn_trans (by decide) hk₀
    | dsimp only
    | split

theorem badHeader_keeps {ps : List Piece} {p : Nat} {c : Cell} {s₀ s : Sw} (hk₀ : partsIn parts18 ps = true) (h₀ : Sw.keeps ps s₀ s) :
    Sw.keeps ps s₀ (badHeader p c s) := by
  unfold badHeader
  repeat'
    first
    | with_reducible first | assumption | intro _ | apply keeps_ite | apply raiseSys_keeps | apply modCnt_keeps | apply limited_keeps | exact partsIn_trans (by decide) hk₀

theorem idDiscard_keeps {ps : List Piece} {p : Nat} {s₀ s : Sw} (hk₀ : partsIn [.portCnt] ps = true) (h₀ : Sw.keeps ps s₀ s) :
    Sw.keeps ps s₀ (idDiscard p s) := by
  unfold idDiscard
  repeat'
    first
    | with_reducible first | assumption | intro _ | apply keeps_ite | apply modCnt_keeps

theorem bindingDiscard_keeps {ps : List Piece} {p fieldNo : Nat} {s₀ s : Sw} (hk₀ : partsIn parts18 ps = true) (h₀ : Sw.keeps ps s₀ s) :
    Sw.keeps ps s₀ (bindingDiscard p fieldNo s) := by
  unfold bindingDiscard
  repeat'
    first
    | with_reducible first | assumption | intro _ | apply keeps_ite | apply idDiscard_keeps | apply raiseSys_keeps | apply limited_keeps | exact partsIn_trans (by decide) hk₀

theorem unmapped_keeps {ps : List Piece} {p m : Nat} {s₀ s : Sw} (hk₀ : partsIn parts18 ps = true) (h₀ : Sw.keeps ps s₀ s) :
    Sw.keeps ps s₀ (unmapped p m s) := by
  unfold unmapped
  repeat'
    first
    | with_reducible first | assumption | intro _ | apply keeps_ite | apply idDiscard_keeps | apply raiseSys_keeps | apply limited_keeps | exact partsIn_trans (by decide) hk₀

theorem memberCheck_keeps {ps : List Piece} {p : Nat} {bd : Binding} {c : Cell} {s₀ s : Sw} (hk₀ : partsIn [.evTimes, .evqs, .msix, .portCnt, .ctxs, .outs] ps = true) (h₀ : Sw.keeps ps s₀ s) :
    Sw.keeps ps s₀ (memberCheck p bd c s).2 := by
  unfold memberCheck
  repeat'
    first
    | with_reducible first | assumption | intro _ | apply keeps_ite | apply bindingDiscard_keeps | apply unmapped_keeps | apply setCtx_keeps | exact partsIn_trans (by decide) hk₀
    | dsimp only
    | split

theorem fl1Check_keeps {ps : List Piece} {p : Nat} {bd : Binding} {c : Cell} {s₀ s : Sw} (hk₀ : partsIn parts18 ps = true) (h₀ : Sw.keeps ps s₀ s) :
    Sw.keeps ps s₀ (fl1Check p bd c s).2 := by
  unfold fl1Check
  repeat'
    first
    | with_reducible first | assumption | intro _ | apply keeps_ite | apply bindingDiscard_keeps | apply unmapped_keeps | exact partsIn_trans (by decide) hk₀
    | dsimp only
    | split

theorem ingress_keeps {ps : List Piece} {p : Nat} {c : Cell} {s₀ s : Sw} (hk₀ : partsIn parts47 ps = true) (h₀ : Sw.keeps ps s₀ s) :
    Sw.keeps ps s₀ (ingress p c s).2 := by
  unfold ingress
  repeat'
    first
    | with_reducible first | assumption | intro _ | apply keeps_ite | apply badHeader_keeps | apply consume_keeps | apply fl1Check_keeps | apply idDiscard_keeps | apply memberCheck_keeps | exact partsIn_trans (by decide) hk₀
    | dsimp only
    | split

theorem routeEp_keeps {ps : List Piece} {p : Nat} {c : Cell} {s₀ s : Sw} (hk₀ : partsIn [.portCnt] ps = true) (h₀ : Sw.keeps ps s₀ s) :
    Sw.keeps ps s₀ (routeEp p c s).2 := by
  unfold routeEp
  repeat'
    first
    | with_reducible first | assumption | intro _ | apply keeps_ite | apply modCnt_keeps | exact partsIn_trans (by decide) hk₀
    | dsimp only
    | split

theorem joinReject_keeps {ps : List Piece} {x p o cause : Nat} {s₀ s : Sw} (hk₀ : partsIn parts1 ps = true) (h₀ : Sw.keeps ps s₀ s) :
    Sw.keeps ps s₀ (joinReject x p o cause s) := by
  unfold joinReject
  repeat'
    first
    | with_reducible first | assumption | intro _ | apply keeps_ite | apply raiseCtx_keeps | apply limited_keeps | exact partsIn_trans (by decide) hk₀

theorem toContext_keeps {ps : List Piece} {p : Nat} {c0 : Cell} {f : Nat → Nat → Cell → Sw → Sw} {s₀ s : Sw} (hk₀ : partsIn parts47 ps = true) (hf : ∀ x0 x1 x2 a s, Sw.keeps ps a s → Sw.keeps ps a (f x0 x1 x2 s)) (h₀ : Sw.keeps ps s₀ s) :
    Sw.keeps ps s₀ (toContext p c0 f s) := by
  unfold toContext
  repeat'
    first
    | with_reducible first | assumption | intro _ | apply keeps_ite | apply dropRank_keeps | apply dropRoute_keeps | apply enqueue_keeps | apply ingress_keeps | apply joinReject_keeps | apply routeEp_keeps | apply hf | exact partsIn_trans (by decide) hk₀
    | dsimp only
    | split

/-! ### Pool -/

theorem nearMemory_keeps {ps : List Piece} {q n : Nat} {s₀ s : Sw} (hk₀ : partsIn [.hbm, .freeCtr] ps = true) (h₀ : Sw.keeps ps s₀ s) :
    Sw.keeps ps s₀ (nearMemory q n s) := by
  unfold nearMemory
  repeat'
    first
    | with_reducible first | assumption | intro _ | apply keeps_ite | apply modStack_keeps | apply draw_keeps | exact partsIn_trans (by decide) hk₀

theorem poolWarn_keeps {ps : List Piece} {c at_ : Nat} {s₀ s : Sw} (hk₀ : partsIn parts7 ps = true) (h₀ : Sw.keeps ps s₀ s) :
    Sw.keeps ps s₀ (poolWarn c at_ s) := by
  unfold poolWarn
  repeat'
    first
    | with_reducible first | assumption | intro _ | apply keeps_ite | apply raiseSys_keeps | apply modPool_keeps | exact partsIn_trans (by decide) hk₀

theorem poolTake_keeps {ps : List Piece} {c at_ count : Nat} {job : Option Nat} {owner : Owner} {s₀ s t : Sw}
    (he : poolTake c at_ count job owner s = some t) (hk₀ : partsIn [.evqs, .msix, .pool, .outs] ps = true)
    (h₀ : Sw.keeps ps s₀ s) : Sw.keeps ps s₀ t := by
  unfold poolTake at he
  dsimp only at he
  repeat' (split at he)
  all_goals first
    | (cases he; done)
    | (cases he
       repeat'
         first
         | with_reducible first | assumption | apply poolWarn_keeps | apply modPool_keeps | exact partsIn_trans (by decide) hk₀)

theorem limitEvent_keeps {ps : List Piece} {c at_ count j : Nat} {s₀ s : Sw} (hk₀ : partsIn [.evqs, .msix, .outs] ps = true) (h₀ : Sw.keeps ps s₀ s) :
    Sw.keeps ps s₀ (limitEvent c at_ count j s) := by
  unfold limitEvent
  repeat'
    first
    | with_reducible first | assumption | intro _ | apply keeps_ite | apply raiseJob_keeps

theorem poolWarnAll_keeps {ps : List Piece} {s₀ s : Sw} (hk₀ : partsIn parts7 ps = true) (h₀ : Sw.keeps ps s₀ s) :
    Sw.keeps ps s₀ (poolWarnAll s) := by
  unfold poolWarnAll
  repeat'
    first
    | with_reducible first | assumption | intro _ | apply keeps_ite | apply poolWarn_keeps | apply each_keeps

theorem poolTakeOrWait_keeps {ps : List Piece} {x o c at_ count job : Nat} {owner : Owner} {s₀ s : Sw}
    (hk₀ : partsIn [.evqs, .msix, .pool, .outs] ps = true) (h₀ : Sw.keeps ps s₀ s) :
    Sw.keeps ps s₀ (poolTakeOrWait x o c at_ count job owner s) := by
  unfold poolTakeOrWait
  dsimp only
  split
  · next w hw =>
    split at hw
    · cases hw
    · exact poolTake_keeps hw (partsIn_trans (by decide) hk₀) h₀
  · repeat'
      first
      | with_reducible first | assumption | apply limitEvent_keeps | apply raiseCtx_keeps | apply raiseSys_keeps | apply modPool_keeps | exact partsIn_trans (by decide) hk₀
      | split

theorem poolFreeIf_keeps {ps : List Piece} {f : PoolBuf → Bool} {s₀ s : Sw} (hk₀ : partsIn parts7 ps = true) (h₀ : Sw.keeps ps s₀ s) :
    Sw.keeps ps s₀ (poolFreeIf f s) := by
  unfold poolFreeIf
  repeat'
    first
    | with_reducible first | assumption | intro _ | apply keeps_ite | apply poolWarn_keeps | apply modPool_keeps | apply each_keeps | exact partsIn_trans (by decide) hk₀

theorem poolReject_keeps {ps : List Piece} {by_ : Owner} {id : Nat} {s₀ s : Sw} (hk₀ : partsIn parts7 ps = true) (h₀ : Sw.keeps ps s₀ s) :
    Sw.keeps ps s₀ (poolReject by_ id s) := by
  unfold poolReject
  repeat'
    first
    | with_reducible first | assumption | intro _ | apply keeps_ite | apply raiseSys_keeps | apply modPool_keeps | exact partsIn_trans (by decide) hk₀

theorem poolFreeBy_keeps {ps : List Piece} {by_ : Owner} {ids : List Nat} {s₀ s : Sw} (hk₀ : partsIn parts7 ps = true) (h₀ : Sw.keeps ps s₀ s) :
    Sw.keeps ps s₀ (poolFreeBy by_ ids s) := by
  unfold poolFreeBy
  repeat'
    first
    | with_reducible first | assumption | intro _ | apply keeps_ite | apply poolFreeIf_keeps | apply poolReject_keeps | apply each_keeps

theorem poolHand_keeps {ps : List Piece} {ids : List Nat} {new : Owner} {job : Option Nat} {s₀ s : Sw} (hk₀ : partsIn [.pool] ps = true) (h₀ : Sw.keeps ps s₀ s) :
    Sw.keeps ps s₀ (poolHand ids new job s) := by
  unfold poolHand
  repeat'
    first
    | with_reducible first | assumption | intro _ | apply keeps_ite | apply modPool_keeps

theorem poolFreeOp_keeps {ps : List Piece} {x o : Nat} {s₀ s : Sw} (hk₀ : partsIn parts7 ps = true) (h₀ : Sw.keeps ps s₀ s) :
    Sw.keeps ps s₀ (poolFreeOp x o s) := by
  unfold poolFreeOp
  repeat'
    first
    | with_reducible first | assumption | intro _ | apply keeps_ite | apply poolFreeIf_keeps | apply modPool_keeps | exact partsIn_trans (by decide) hk₀

theorem poolFreeCtx_keeps {ps : List Piece} {x : Nat} {s₀ s : Sw} (hk₀ : partsIn parts7 ps = true) (h₀ : Sw.keeps ps s₀ s) :
    Sw.keeps ps s₀ (poolFreeCtx x s) := by
  unfold poolFreeCtx
  repeat'
    first
    | with_reducible first | assumption | intro _ | apply keeps_ite | apply poolFreeIf_keeps | apply modPool_keeps | exact partsIn_trans (by decide) hk₀

/-- A fold that stops at the first refusal keeps what each of its parts keeps. -/
theorem optFold_keeps {α β : Type} {ps : List Piece} {s₀ : Sw} (g : β → Sw) (f : β → α → Option β)
    (hf : ∀ b x c, f b x = some c → Sw.keeps ps s₀ (g b) → Sw.keeps ps s₀ (g c)) (l : List α) (acc : Option β)
    (h : ∀ b, acc = some b → Sw.keeps ps s₀ (g b)) (c : β)
    (hc : l.foldl (fun acc x => acc.bind (fun b => f b x)) acc = some c) : Sw.keeps ps s₀ (g c) := by
  induction l generalizing acc with
  | nil => exact h c hc
  | cons x l ih =>
    refine ih _ ?_ hc
    intro b hb
    cases acc with
    | none => simp at hb
    | some d => exact hf d x b hb (h d rfl)
theorem takePlaces_keeps {ps : List Piece} {x job slots : Nat} {tiles : List Nat} {r : SMap (Nat × Nat)} {s₀ s t : Sw}
    (he : takePlaces x job slots tiles s = some (r, t)) (hk₀ : partsIn [.evqs, .msix, .pool, .outs] ps = true)
    (h₀ : Sw.keeps ps s₀ s) : Sw.keeps ps s₀ t := by
  unfold takePlaces at he
  dsimp only at he
  split at he
  · cases he
  · simp only [Option.map_eq_some_iff, Prod.mk.injEq] at he
    obtain ⟨w, hw, -, rfl⟩ := he
    refine optFold_keeps id (fun w g => poolTake 6 (w.homeGrove g) _ (some job) (.context x) w) ?_ _ _ ?_ w hw
    · intro b g c hc hb
      exact poolTake_keeps hc hk₀ hb
    · intro b hb
      cases hb
      exact h₀

/-! ### Banks -/

theorem freeEntries_keeps {ps : List Piece} {x : Nat} {es : List CacheEnt} {s₀ s : Sw} (hk₀ : partsIn parts7 ps = true) (h₀ : Sw.keeps ps s₀ s) :
    Sw.keeps ps s₀ (freeEntries x es s) := by
  unfold freeEntries
  repeat'
    first
    | with_reducible first | assumption | intro _ | apply keeps_ite | apply poolFreeBy_keeps

theorem evictFor_keeps {ps : List Piece} {x n g job : Nat} {fuel : Nat} {s₀ s : Sw} (hk₀ : partsIn parts31 ps = true) (h₀ : Sw.keeps ps s₀ s) :
    Sw.keeps ps s₀ (evictFor x n g job fuel s) := by
  induction fuel generalizing s s₀ with
  | zero =>
    unfold evictFor
    repeat'
      first
      | with_reducible first | assumption
  | succ fuel ih =>
    unfold evictFor
    repeat'
      first
      | with_reducible first | assumption | apply ih | intro _ | apply keeps_ite | (apply poolTake_keeps; assumption) | apply freeEntries_keeps | apply modStore_keeps | exact partsIn_trans (by decide) hk₀
      | dsimp only
      | split

theorem placeEntry_keeps {ps : List Piece} {x k v n b job : Nat} {h : Shard} {s₀ s : Sw} (hk₀ : partsIn parts31 ps = true) (h₀ : Sw.keeps ps s₀ s) :
    Sw.keeps ps s₀ (placeEntry x k v n b job h s).2 := by
  unfold placeEntry
  repeat'
    first
    | with_reducible first | assumption | intro _ | apply keeps_ite | (apply poolTake_keeps; assumption) | apply modStore_keeps | exact partsIn_trans (by decide) hk₀
    | dsimp only
    | split

theorem makeEntry_keeps {ps : List Piece} {x k v : Nat} {s₀ s : Sw} (hk₀ : partsIn parts31 ps = true) (h₀ : Sw.keeps ps s₀ s) :
    Sw.keeps ps s₀ (makeEntry x k v s).2 := by
  unfold makeEntry
  repeat'
    first
    | with_reducible first | assumption | intro _ | apply keeps_ite | apply evictFor_keeps | apply placeEntry_keeps | exact partsIn_trans (by decide) hk₀
    | dsimp only
    | split

theorem dropEntries_keeps {ps : List Piece} {x k : Nat} {s₀ s : Sw} (hk₀ : partsIn parts20 ps = true) (h₀ : Sw.keeps ps s₀ s) :
    Sw.keeps ps s₀ (dropEntries x k s) := by
  unfold dropEntries
  repeat'
    first
    | with_reducible first | assumption | intro _ | apply keeps_ite | apply freeEntries_keeps | apply modStore_keeps | exact partsIn_trans (by decide) hk₀
    | dsimp only
    | split

theorem commitRecord_keeps {ps : List Piece} {x k kind bank : Nat} {prevValid : Bool} {version step : Nat} {clip : Quad × Quad} {s₀ s : Sw} (hk₀ : partsIn [.ctxs] ps = true) (h₀ : Sw.keeps ps s₀ s) :
    Sw.keeps ps s₀ (commitRecord x k kind bank prevValid version step clip s) := by
  unfold commitRecord
  repeat'
    first
    | with_reducible first | assumption | intro _ | apply keeps_ite | apply modStore_keeps | apply modShard_keeps | exact partsIn_trans (by decide) hk₀
    | dsimp only
    | split

theorem takePins_keeps {ps : List Piece} {x : Nat} {held : Bool} {vs : SMap Nat} {s₀ s : Sw} (hk₀ : partsIn [.ctxs] ps = true) (h₀ : Sw.keeps ps s₀ s) :
    Sw.keeps ps s₀ (takePins x held vs s) := by
  unfold takePins
  repeat'
    first
    | with_reducible first | assumption | intro _ | apply keeps_ite | apply modStore_keeps | apply each_keeps

theorem dropReq_keeps {ps : List Piece} {x : Nat} {g : GatherReq} {s₀ s : Sw} (hk₀ : partsIn [.ctxs] ps = true) (h₀ : Sw.keeps ps s₀ s) :
    Sw.keeps ps s₀ (dropReq x g s) := by
  unfold dropReq
  repeat'
    first
    | with_reducible first | assumption | intro _ | apply keeps_ite | apply modStore_keeps | apply each_keeps

/-! ### Ending -/

theorem accTouch_keeps {ps : List Piece} {q x o key : Nat} {s₀ s : Sw} (hk₀ : partsIn [.tiles, .hbm, .freeCtr] ps = true) (h₀ : Sw.keeps ps s₀ s) :
    Sw.keeps ps s₀ (accTouch q x o key s) := by
  unfold accTouch
  repeat'
    first
    | with_reducible first | assumption | intro _ | apply keeps_ite | apply nearMemory_keeps | apply modTile_keeps | exact partsIn_trans (by decide) hk₀
    | dsimp only
    | split

theorem foldCell_keeps {ps : List Piece} {x o kind sub idx : Nat} {payload : List Byte} {s₀ s : Sw} (hk₀ : partsIn parts14 ps = true) (h₀ : Sw.keeps ps s₀ s) :
    Sw.keeps ps s₀ (foldCell x o kind sub idx payload s) := by
  unfold foldCell
  repeat'
    first
    | with_reducible first | assumption | intro _ | apply keeps_ite | apply accTouch_keeps | apply setCtx_keeps | exact partsIn_trans (by decide) hk₀
    | dsimp only
    | split

theorem foldAccs_keeps {ps : List Piece} {x o : Nat} {s₀ s : Sw} (hk₀ : partsIn [.tiles, .hbm, .freeCtr] ps = true) (h₀ : Sw.keeps ps s₀ s) :
    Sw.keeps ps s₀ (foldAccs x o s) := by
  unfold foldAccs
  repeat'
    first
    | with_reducible first | assumption | intro _ | apply keeps_ite | apply nearMemory_keeps | apply modTile_keeps | apply each_keeps | exact partsIn_trans (by decide) hk₀
    | dsimp only
    | split

theorem sendStatus_keeps {ps : List Piece} {x o : Nat} {h : Child} {m : Mark} {body : List Byte} {s₀ s : Sw} (hk₀ : partsIn parts53 ps = true) (h₀ : Sw.keeps ps s₀ s) :
    Sw.keeps ps s₀ (sendStatus x o h m body s) := by
  unfold sendStatus
  repeat'
    first
    | with_reducible first | assumption | intro _ | apply keeps_ite | apply ctxCtrl_keeps

theorem sendBound_keeps {ps : List Piece} {x : Nat} {h : Child} {s₀ s : Sw} (hk₀ : partsIn parts53 ps = true) (h₀ : Sw.keeps ps s₀ s) :
    Sw.keeps ps s₀ (sendBound x h s) := by
  unfold sendBound
  repeat'
    first
    | with_reducible first | assumption | intro _ | apply keeps_ite | apply ctxCtrl_keeps | apply each_keeps | exact partsIn_trans (by decide) hk₀
    | dsimp only
    | split

theorem sendUpJoin_keeps {ps : List Piece} {x o status : Nat} {s₀ s : Sw} (hk₀ : partsIn parts53 ps = true) (h₀ : Sw.keeps ps s₀ s) :
    Sw.keeps ps s₀ (sendUpJoin x o status s) := by
  unfold sendUpJoin
  repeat'
    first
    | with_reducible first | assumption | intro _ | apply keeps_ite | apply ctxCtrl_keeps | apply modOp_keeps | exact partsIn_trans (by decide) hk₀
    | dsimp only
    | split

theorem sendComplete_keeps {ps : List Piece} {x o status : Nat} {s₀ s : Sw} (hk₀ : partsIn parts53 ps = true) (h₀ : Sw.keeps ps s₀ s) :
    Sw.keeps ps s₀ (sendComplete x o status s) := by
  unfold sendComplete
  repeat'
    first
    | with_reducible first | assumption | intro _ | apply keeps_ite | apply ctxCtrl_keeps | apply modOp_keeps | apply each_keeps | exact partsIn_trans (by decide) hk₀
    | dsimp only
    | split

theorem opComplete_keeps {ps : List Piece} {x o status : Nat} {s₀ s : Sw} (hk₀ : partsIn parts26 ps = true) (h₀ : Sw.keeps ps s₀ s) :
    Sw.keeps ps s₀ (opComplete x o status s) := by
  unfold opComplete
  repeat'
    first
    | with_reducible first | assumption | intro _ | apply keeps_ite | apply completeE_keeps | apply raiseCtx_keeps | apply modOp_keeps | apply each_keeps | exact partsIn_trans (by decide) hk₀
    | dsimp only
    | split

theorem releaseGather_keeps {ps : List Piece} {x o : Nat} {s₀ s : Sw} (hk₀ : partsIn [.ctxs] ps = true) (h₀ : Sw.keeps ps s₀ s) :
    Sw.keeps ps s₀ (releaseGather x o s) := by
  unfold releaseGather
  repeat'
    first
    | with_reducible first | assumption | intro _ | apply keeps_ite | apply dropReq_keeps | apply modOp_keeps | exact partsIn_trans (by decide) hk₀
    | dsimp only
    | split

theorem dropWork_keeps {ps : List Piece} {x o : Nat} {s₀ s : Sw} (hk₀ : partsIn [.ctxs] ps = true) (h₀ : Sw.keeps ps s₀ s) :
    Sw.keeps ps s₀ (dropWork x o s) := by
  unfold dropWork
  repeat'
    first
    | with_reducible first | assumption | intro _ | apply keeps_ite | apply modCtx_keeps | apply modOp_keeps

theorem endAborts_keeps {ps : List Piece} {x o status : Nat} {s₀ s : Sw} (hk₀ : partsIn parts26 ps = true) (h₀ : Sw.keeps ps s₀ s) :
    Sw.keeps ps s₀ (endAborts x o status s) := by
  unfold endAborts
  repeat'
    first
    | with_reducible first | assumption | intro _ | apply keeps_ite | apply complete_keeps | apply modOp_keeps | apply each_keeps | exact partsIn_trans (by decide) hk₀
    | dsimp only
    | split

theorem poolUnwait_keeps {ps : List Piece} {x o : Nat} {s₀ s : Sw} (hk₀ : partsIn [.pool] ps = true) (h₀ : Sw.keeps ps s₀ s) :
    Sw.keeps ps s₀ (poolUnwait x o s) := by
  unfold poolUnwait
  repeat'
    first
    | with_reducible first | assumption | intro _ | apply keeps_ite | apply modPool_keeps

theorem finishOp_keeps {ps : List Piece} {x o status : Nat} {s₀ s : Sw} (hk₀ : partsIn parts58 ps = true) (h₀ : Sw.keeps ps s₀ s) :
    Sw.keeps ps s₀ (finishOp x o status s) := by
  unfold finishOp
  repeat'
    first
    | with_reducible first | assumption | intro _ | apply keeps_ite | apply dropWork_keeps | apply endAborts_keeps | apply opComplete_keeps | apply poolUnwait_keeps | apply releaseGather_keeps | apply sendComplete_keeps | apply modOp_keeps | exact partsIn_trans (by decide) hk₀

theorem failOp_keeps {ps : List Piece} {x o status : Nat} {down : Bool} {s₀ s : Sw} (hk₀ : partsIn parts58 ps = true) (h₀ : Sw.keeps ps s₀ s) :
    Sw.keeps ps s₀ (failOp x o status down s) := by
  unfold failOp
  repeat'
    first
    | with_reducible first | assumption | intro _ | apply keeps_ite | apply dropWork_keeps | apply endAborts_keeps | apply finishOp_keeps | apply opComplete_keeps | apply poolUnwait_keeps | apply releaseGather_keeps | apply sendComplete_keeps | apply sendUpJoin_keeps | apply modOp_keeps | exact partsIn_trans (by decide) hk₀
    | dsimp only
    | split

theorem failHere_keeps {ps : List Piece} {x o status : Nat} {s₀ s : Sw} (hk₀ : partsIn parts58 ps = true) (h₀ : Sw.keeps ps s₀ s) :
    Sw.keeps ps s₀ (failHere x o status s) := by
  unfold failHere
  repeat'
    first
    | with_reducible first | assumption | intro _ | apply keeps_ite | apply failOp_keeps

theorem deliveredCheck_keeps {ps : List Piece} {x o : Nat} {s₀ s : Sw} (hk₀ : partsIn parts53 ps = true) (h₀ : Sw.keeps ps s₀ s) :
    Sw.keeps ps s₀ (deliveredCheck x o s) := by
  unfold deliveredCheck
  repeat'
    first
    | with_reducible first | assumption | intro _ | apply keeps_ite | apply ctxCtrl_keeps | apply modOp_keeps | exact partsIn_trans (by decide) hk₀
    | dsimp only
    | split

theorem sendRelease_keeps {ps : List Piece} {x below : Nat} {s₀ s : Sw} (hk₀ : partsIn parts53 ps = true) (h₀ : Sw.keeps ps s₀ s) :
    Sw.keeps ps s₀ (sendRelease x below s) := by
  unfold sendRelease
  repeat'
    first
    | with_reducible first | assumption | intro _ | apply keeps_ite | apply ctxCtrl_keeps | apply each_keeps | exact partsIn_trans (by decide) hk₀
    | dsimp only
    | split

theorem releaseCheck_keeps {ps : List Piece} {x : Nat} {s₀ s : Sw} (hk₀ : partsIn [.ctxs] ps = true) (h₀ : Sw.keeps ps s₀ s) :
    Sw.keeps ps s₀ (releaseCheck x s) := by
  unfold releaseCheck
  repeat'
    first
    | with_reducible first | assumption | intro _ | apply keeps_ite | apply setCtx_keeps | exact partsIn_trans (by decide) hk₀
    | dsimp only
    | split

/-! ### Flags -/

theorem flagProgress_keeps {ps : List Piece} {j : Nat} {s₀ s : Sw} (hk₀ : partsIn parts2 ps = true) (h₀ : Sw.keeps ps s₀ s) :
    Sw.keeps ps s₀ (flagProgress j s) := by
  unfold flagProgress
  repeat'
    first
    | with_reducible first | assumption | intro _ | apply keeps_ite | apply raiseJob_keeps | apply modJob_keeps | exact partsIn_trans (by decide) hk₀
    | dsimp only
    | split

theorem endWait_keeps {ps : List Piece} {n status : Nat} {s₀ s : Sw} (hk₀ : partsIn parts25 ps = true) (h₀ : Sw.keeps ps s₀ s) :
    Sw.keeps ps s₀ (endWait n status s) := by
  unfold endWait
  repeat'
    first
    | with_reducible first | assumption | intro _ | apply keeps_ite | apply completeR_keeps | apply flagProgress_keeps | apply modRing_keeps | exact partsIn_trans (by decide) hk₀
    | dsimp only
    | split

theorem wakeWaits_keeps {ps : List Piece} {f : Nat} {s₀ s : Sw} (hk₀ : partsIn parts25 ps = true) (h₀ : Sw.keeps ps s₀ s) :
    Sw.keeps ps s₀ (wakeWaits f s) := by
  unfold wakeWaits
  repeat'
    first
    | with_reducible first | assumption | intro _ | apply keeps_ite | apply endWait_keeps | apply each_keeps | exact partsIn_trans (by decide) hk₀
    | dsimp only
    | split

theorem setFlag_keeps {ps : List Piece} {f : Nat} {v : Word} {s₀ s : Sw} (hk₀ : partsIn parts36 ps = true) (h₀ : Sw.keeps ps s₀ s) :
    Sw.keeps ps s₀ (setFlag f v s) := by
  unfold setFlag
  repeat'
    first
    | with_reducible first | assumption | intro _ | apply keeps_ite | apply flagProgress_keeps | apply wakeWaits_keeps | apply modHost_keeps | exact partsIn_trans (by decide) hk₀
    | exact Or.inr (fun _ => rfl)
    | exact Or.inl (partsIn_mem hk₀ (by decide))
    | dsimp only
    | split

theorem signalChunk_keeps {ps : List Piece} {f : Nat} {s₀ s : Sw} (hk₀ : partsIn parts36 ps = true) (h₀ : Sw.keeps ps s₀ s) :
    Sw.keeps ps s₀ (signalChunk f s) := by
  unfold signalChunk
  repeat'
    first
    | with_reducible first | assumption | intro _ | apply keeps_ite | apply setFlag_keeps

/-! ### Shadow -/

theorem countFault_keeps {ps : List Piece} {q : Option Nat} {s₀ s : Sw} (hk₀ : partsIn [.wear, .tiles, .rcv] ps = true) (h₀ : Sw.keeps ps s₀ s) :
    Sw.keeps ps s₀ (countFault q s) := by
  unfold countFault
  repeat'
    first
    | with_reducible first | assumption | intro _ | apply keeps_ite | apply modRec_keeps | apply modWear_keeps | apply modTile_keeps | exact partsIn_trans (by decide) hk₀
    | dsimp only
    | split

theorem shadowMismatch_keeps {ps : List Piece} {kind x o cell q : Nat} {v : Vote} {s₀ s : Sw} (hk₀ : partsIn parts54 ps = true) (h₀ : Sw.keeps ps s₀ s) :
    Sw.keeps ps s₀ (shadowMismatch kind x o cell q v s) := by
  unfold shadowMismatch
  repeat'
    first
    | with_reducible first | assumption | intro _ | apply keeps_ite | apply countFault_keeps | apply raiseCtx_keeps | apply modRec_keeps | apply out_keeps | apply modCtx_keeps | apply limited_keeps | apply draw_keeps | exact partsIn_trans (by decide) hk₀

theorem shadowCheck_keeps {ps : List Piece} {kind x o cell q : Nat} {s₀ s : Sw} (hk₀ : partsIn parts54 ps = true) (h₀ : Sw.keeps ps s₀ s) :
    Sw.keeps ps s₀ (shadowCheck kind x o cell q s).2 := by
  unfold shadowCheck
  repeat'
    first
    | with_reducible first | assumption | intro _ | apply keeps_ite | apply shadowMismatch_keeps | apply modCtx_keeps | apply draw_keeps | exact partsIn_trans (by decide) hk₀
    | dsimp only
    | split

theorem shadowAfter_keeps {ps : List Piece} {x o cell kind q : Nat} {s₀ s : Sw} (hk₀ : partsIn parts1 ps = true) (h₀ : Sw.keeps ps s₀ s) :
    Sw.keeps ps s₀ (shadowAfter x o cell kind q s) := by
  unfold shadowAfter
  repeat'
    first
    | with_reducible first | assumption | intro _ | apply keeps_ite | apply raiseCtx_keeps | apply limited_keeps | exact partsIn_trans (by decide) hk₀

/-! ### Deliver -/

theorem sendWindow_keeps {ps : List Piece} {x o q : Nat} {h : Child} {w : Nat} {cells : List (BitVec 512)} {final first_ : Bool} {s₀ s : Sw} (hk₀ : partsIn parts57 ps = true) (h₀ : Sw.keeps ps s₀ s) :
    Sw.keeps ps s₀ (sendWindow x o q h w cells final first_ s) := by
  unfold sendWindow
  repeat'
    first
    | with_reducible first | assumption | intro _ | apply keeps_ite | apply ctxSend_keeps | apply foldCell_keeps | apply each_keeps | exact partsIn_trans (by decide) hk₀
    | dsimp only
    | split

theorem sparseGo_keeps {ps : List Piece} {x o q : Nat} {h : Child} {fuel : Nat} {s₀ s : Sw} (hk₀ : partsIn parts57 ps = true) (h₀ : Sw.keeps ps s₀ s) :
    Sw.keeps ps s₀ (sparseGo x o q h fuel s) := by
  induction fuel generalizing s s₀ with
  | zero =>
    unfold sparseGo
    repeat'
      first
      | with_reducible first | assumption
  | succ fuel ih =>
    unfold sparseGo
    repeat'
      first
      | with_reducible first | assumption | apply ih | intro _ | apply keeps_ite | apply sendWindow_keeps | apply modOp_keeps | exact partsIn_trans (by decide) hk₀
      | dsimp only
      | split

theorem sparseDeliver_keeps {ps : List Piece} {x o q : Nat} {h : Child} {k : Nat} {part : Part} {s₀ s : Sw} (hk₀ : partsIn parts57 ps = true) (h₀ : Sw.keeps ps s₀ s) :
    Sw.keeps ps s₀ (sparseDeliver x o q h k part s) := by
  unfold sparseDeliver
  repeat'
    first
    | with_reducible first | assumption | intro _ | apply keeps_ite | apply sparseGo_keeps | apply modOp_keeps | exact partsIn_trans (by decide) hk₀
    | dsimp only
    | split

theorem noteSaturation_keeps {ps : List Piece} {x o k code n : Nat} {s₀ s : Sw} (hk₀ : partsIn parts3 ps = true) (h₀ : Sw.keeps ps s₀ s) :
    Sw.keeps ps s₀ (noteSaturation x o k code n s) := by
  unfold noteSaturation
  repeat'
    first
    | with_reducible first | assumption | intro _ | apply keeps_ite | apply raiseCtx_keeps | apply modCtx_keeps | apply modOp_keeps | exact partsIn_trans (by decide) hk₀
    | dsimp only
    | split

theorem egressChecks_keeps {ps : List Piece} {x o q : Nat} {cells : List Nat} {s₀ s : Sw} (hk₀ : partsIn parts54 ps = true) (h₀ : Sw.keeps ps s₀ s) :
    Sw.keeps ps s₀ (egressChecks x o q cells s) := by
  unfold egressChecks
  repeat'
    first
    | with_reducible first | assumption | intro _ | apply keeps_ite | apply shadowAfter_keeps | apply shadowCheck_keeps | apply each_keeps | exact partsIn_trans (by decide) hk₀
    | dsimp only
    | split
    | (apply keeps_ofPair; assumption)

theorem deliverMember_keeps {ps : List Piece} {x o q : Nat} {h : Child} {mine : List (Nat × Part)} {first_ : Bool} {s₀ s : Sw} (hk₀ : partsIn parts60 ps = true) (h₀ : Sw.keeps ps s₀ s) :
    Sw.keeps ps s₀ (deliverMember x o q h mine first_ s) := by
  unfold deliverMember
  repeat'
    first
    | with_reducible first | assumption | intro _ | apply keeps_ite | apply ctxSend_keeps | apply egressChecks_keeps | apply foldCell_keeps | apply noteSaturation_keeps | apply sparseDeliver_keeps | apply each_keeps | exact partsIn_trans (by decide) hk₀
    | dsimp only
    | split

theorem retain_keeps {ps : List Piece} {x o k : Nat} {float : Bool} {bytes : List Byte} {s₀ s : Sw} (hk₀ : partsIn parts3 ps = true) (h₀ : Sw.keeps ps s₀ s) :
    Sw.keeps ps s₀ (retain x o k float bytes s) := by
  unfold retain
  repeat'
    first
    | with_reducible first | assumption | intro _ | apply keeps_ite | apply raiseCtx_keeps | apply modCtx_keeps | apply modOp_keeps | exact partsIn_trans (by decide) hk₀
    | dsimp only
    | split

theorem emit_keeps {ps : List Piece} {x o : Nat} {cells : List (Nat × Part)} {only : Option Nat} {first_ : Bool} {s₀ s : Sw} (hk₀ : partsIn parts60 ps = true) (h₀ : Sw.keeps ps s₀ s) :
    Sw.keeps ps s₀ (emit x o cells only first_ s) := by
  unfold emit
  repeat'
    first
    | with_reducible first | assumption | intro _ | apply keeps_ite | apply ctxSend_keeps | apply deliverMember_keeps | apply foldCell_keeps | apply retain_keeps | apply modOp_keeps | apply each_keeps | exact partsIn_trans (by decide) hk₀
    | dsimp only
    | split

theorem chunkToMember_keeps {ps : List Piece} {x o q : Nat} {h : Child} {fuel : Nat} {s₀ s : Sw} (hk₀ : partsIn parts53 ps = true) (h₀ : Sw.keeps ps s₀ s) :
    Sw.keeps ps s₀ (chunkToMember x o q h fuel s) := by
  induction fuel generalizing s s₀ with
  | zero =>
    unfold chunkToMember
    repeat'
      first
      | with_reducible first | assumption
  | succ fuel ih =>
    unfold chunkToMember
    repeat'
      first
      | with_reducible first | assumption | apply ih | intro _ | apply keeps_ite | apply sendStatus_keeps | apply modOp_keeps | exact partsIn_trans (by decide) hk₀
      | dsimp only
      | split

theorem chunkFlags_keeps {ps : List Piece} {x o : Nat} {fuel : Nat} {s₀ s : Sw} (hk₀ : partsIn [.rings, .evqs, .jobs, .flags, .msix, .ctxs, .outs] ps = true) (h₀ : Sw.keeps ps s₀ s) :
    Sw.keeps ps s₀ (chunkFlags x o fuel s) := by
  induction fuel generalizing s s₀ with
  | zero =>
    unfold chunkFlags
    repeat'
      first
      | with_reducible first | assumption
  | succ fuel ih =>
    unfold chunkFlags
    repeat'
      first
      | with_reducible first | assumption | apply ih | intro _ | apply keeps_ite | apply signalChunk_keeps | apply modOp_keeps | exact partsIn_trans (by decide) hk₀
      | dsimp only
      | split

theorem chunkCheck_keeps {ps : List Piece} {x o : Nat} {s₀ s : Sw} (hk₀ : partsIn [.evTimes, .time, .rings, .evqs, .jobs, .flags, .msix, .portCnt, .portQ, .ctxs, .outs, .freeCtr] ps = true) (h₀ : Sw.keeps ps s₀ s) :
    Sw.keeps ps s₀ (chunkCheck x o s) := by
  unfold chunkCheck
  repeat'
    first
    | with_reducible first | assumption | intro _ | apply keeps_ite | apply chunkFlags_keeps | apply chunkToMember_keeps | apply each_keeps | exact partsIn_trans (by decide) hk₀
    | dsimp only
    | split

theorem storeComplete_keeps {ps : List Piece} {x o : Nat} {here : Bool} {s₀ s : Sw} (hk₀ : partsIn parts58 ps = true) (h₀ : Sw.keeps ps s₀ s) :
    Sw.keeps ps s₀ (storeComplete x o here s) := by
  unfold storeComplete
  repeat'
    first
    | with_reducible first | assumption | intro _ | apply keeps_ite | apply ctxCtrl_keeps | apply finishOp_keeps | apply modOp_keeps | exact partsIn_trans (by decide) hk₀
    | dsimp only
    | split

theorem endCheck_keeps {ps : List Piece} {x o : Nat} {s₀ s : Sw} (hk₀ : partsIn [.evTimes, .time, .rings, .evqs, .jobs, .flags, .msix, .portCnt, .portQ, .pool, .ctxs, .outs, .freeCtr] ps = true) (h₀ : Sw.keeps ps s₀ s) :
    Sw.keeps ps s₀ (endCheck x o s) := by
  unfold endCheck
  repeat'
    first
    | with_reducible first | assumption | intro _ | apply keeps_ite | apply chunkCheck_keeps | apply finishOp_keeps | apply storeComplete_keeps | exact partsIn_trans (by decide) hk₀
    | dsimp only
    | split

/-! ### Gradient -/

theorem toMirror_keeps {ps : List Piece} {x o k : Nat} {e : ShardEnt} {p : Part} {s₀ s : Sw} (hk₀ : partsIn parts53 ps = true) (h₀ : Sw.keeps ps s₀ s) :
    Sw.keeps ps s₀ (toMirror x o k e p s) := by
  unfold toMirror
  repeat'
    first
    | with_reducible first | assumption | intro _ | apply keeps_ite | apply ctxSend_keeps | exact partsIn_trans (by decide) hk₀
    | dsimp only
    | split

theorem gradWrite_keeps {ps : List Piece} {x o k : Nat} {anchor : Int} {p : Part} {s₀ s : Sw} (hk₀ : partsIn parts57 ps = true) (h₀ : Sw.keeps ps s₀ s) :
    Sw.keeps ps s₀ (gradWrite x o k anchor p s).2 := by
  unfold gradWrite
  repeat'
    first
    | with_reducible first | assumption | intro _ | apply keeps_ite | apply foldCell_keeps | apply raiseCtx_keeps | apply toMirror_keeps | apply modOp_keeps | apply modStore_keeps | apply modShard_keeps | exact partsIn_trans (by decide) hk₀
    | dsimp only
    | split

theorem gradUndo_keeps {ps : List Piece} {x o : Nat} {s₀ s : Sw} (hk₀ : partsIn [.ctxs] ps = true) (h₀ : Sw.keeps ps s₀ s) :
    Sw.keeps ps s₀ (gradUndo x o s) := by
  unfold gradUndo
  repeat'
    first
    | with_reducible first | assumption | intro _ | apply keeps_ite | apply modStore_keeps

/-! ### Reduce -/

theorem grantOp_keeps {ps : List Piece} {x o : Nat} {now_ : Bool} {s₀ s : Sw} (hk₀ : partsIn parts53 ps = true) (h₀ : Sw.keeps ps s₀ s) :
    Sw.keeps ps s₀ (grantOp x o now_ s) := by
  unfold grantOp
  repeat'
    first
    | with_reducible first | assumption | intro _ | apply keeps_ite | apply ctxCtrl_keeps | apply modOp_keeps | apply each_keeps | exact partsIn_trans (by decide) hk₀
    | dsimp only
    | split

theorem grantCtx_keeps {ps : List Piece} {x : Nat} {now_ : Bool} {s₀ s : Sw} (hk₀ : partsIn parts53 ps = true) (h₀ : Sw.keeps ps s₀ s) :
    Sw.keeps ps s₀ (grantCtx x now_ s) := by
  unfold grantCtx
  repeat'
    first
    | with_reducible first | assumption | intro _ | apply keeps_ite | apply grantOp_keeps | apply each_keeps | exact partsIn_trans (by decide) hk₀
    | dsimp only
    | split

theorem sendNotice_keeps {ps : List Piece} {ct x o : Nat} {ports : List Nat} {body : List Byte} {s₀ s : Sw} (hk₀ : partsIn parts53 ps = true) (h₀ : Sw.keeps ps s₀ s) :
    Sw.keeps ps s₀ (sendNotice ct x o ports body s) := by
  unfold sendNotice
  repeat'
    first
    | with_reducible first | assumption | intro _ | apply keeps_ite | apply ctxCtrl_keeps | apply each_keeps

theorem askMembers_keeps {ps : List Piece} {x o a z cause : Nat} {s₀ s : Sw} (hk₀ : partsIn parts53 ps = true) (h₀ : Sw.keeps ps s₀ s) :
    Sw.keeps ps s₀ (askMembers x o a z cause s) := by
  unfold askMembers
  repeat'
    first
    | with_reducible first | assumption | intro _ | apply keeps_ite | apply ctxCtrl_keeps | apply each_keeps | exact partsIn_trans (by decide) hk₀
    | dsimp only
    | split

theorem clearSegment_keeps {ps : List Piece} {x o g : Nat} {s₀ s : Sw} (hk₀ : partsIn [.ctxs] ps = true) (h₀ : Sw.keeps ps s₀ s) :
    Sw.keeps ps s₀ (clearSegment x o g s) := by
  unfold clearSegment
  repeat'
    first
    | with_reducible first | assumption | intro _ | apply keeps_ite | apply modCtx_keeps

theorem takeReplay_keeps {ps : List Piece} {x o g attempt : Nat} {a : Int} {s₀ s : Sw} (hk₀ : partsIn parts53 ps = true) (h₀ : Sw.keeps ps s₀ s) :
    Sw.keeps ps s₀ (takeReplay x o g attempt a s) := by
  unfold takeReplay
  repeat'
    first
    | with_reducible first | assumption | intro _ | apply keeps_ite | apply askMembers_keeps | apply clearSegment_keeps | apply sendNotice_keeps | apply modCtx_keeps | exact partsIn_trans (by decide) hk₀
    | dsimp only
    | split

theorem takeAnchor_keeps {ps : List Piece} {x o g attempt : Nat} {a : Int} {s₀ s : Sw} (hk₀ : partsIn [.ctxs] ps = true) (h₀ : Sw.keeps ps s₀ s) :
    Sw.keeps ps s₀ (takeAnchor x o g attempt a s) := by
  unfold takeAnchor
  repeat'
    first
    | with_reducible first | assumption | intro _ | apply keeps_ite | apply modCtx_keeps

theorem commitStore_keeps {ps : List Piece} {x o g : Nat} {s₀ s : Sw} (hk₀ : partsIn [.ctxs] ps = true) (h₀ : Sw.keeps ps s₀ s) :
    Sw.keeps ps s₀ (commitStore x o g s) := by
  unfold commitStore
  repeat'
    first
    | with_reducible first | assumption | intro _ | apply keeps_ite | apply modCtx_keeps

theorem releaseCells_keeps {ps : List Piece} {x o g : Nat} {cells : List (Nat × Part)} {fin : Bool} {s₀ s : Sw} (hk₀ : partsIn parts60 ps = true) (h₀ : Sw.keeps ps s₀ s) :
    Sw.keeps ps s₀ (releaseCells x o g cells fin s) := by
  unfold releaseCells
  repeat'
    first
    | with_reducible first | assumption | intro _ | apply keeps_ite | apply commitStore_keeps | apply emit_keeps | apply gradWrite_keeps | apply sendNotice_keeps | apply takeAnchor_keeps | apply modCtx_keeps | apply modOp_keeps | apply each_keeps | exact partsIn_trans (by decide) hk₀
    | dsimp only
    | split
    | (apply keeps_ofPair; assumption)

theorem replaySegment_keeps {ps : List Piece} {x o g : Nat} {parts : List Part} {s₀ s : Sw} (hk₀ : partsIn parts53 ps = true) (h₀ : Sw.keeps ps s₀ s) :
    Sw.keeps ps s₀ (replaySegment x o g parts s) := by
  unfold replaySegment
  repeat'
    first
    | with_reducible first | assumption | intro _ | apply keeps_ite | apply raiseCtx_keeps | apply takeReplay_keeps | exact partsIn_trans (by decide) hk₀
    | dsimp only
    | split

theorem saturateCells_keeps {ps : List Piece} {x o g : Nat} {cells : List (Nat × Part)} {final : Bool} {s₀ s : Sw} (hk₀ : partsIn parts3 ps = true) (h₀ : Sw.keeps ps s₀ s) :
    Sw.keeps ps s₀ (saturateCells x o g cells final s).2 := by
  unfold saturateCells
  repeat'
    first
    | with_reducible first | assumption | intro _ | apply keeps_ite | apply raiseCtx_keeps | apply modCtx_keeps | exact partsIn_trans (by decide) hk₀
    | dsimp only
    | split

theorem judgeSegment_keeps {ps : List Piece} {x o g : Nat} {s₀ s : Sw} (hk₀ : partsIn parts60 ps = true) (h₀ : Sw.keeps ps s₀ s) :
    Sw.keeps ps s₀ (judgeSegment x o g s) := by
  unfold judgeSegment
  repeat'
    first
    | with_reducible first | assumption | intro _ | apply keeps_ite | apply releaseCells_keeps | apply replaySegment_keeps | apply saturateCells_keeps | exact partsIn_trans (by decide) hk₀
    | dsimp only
    | split

theorem sendUp_keeps {ps : List Piece} {x o : Nat} {s₀ s : Sw} (hk₀ : partsIn parts57 ps = true) (h₀ : Sw.keeps ps s₀ s) :
    Sw.keeps ps s₀ (sendUp x o s) := by
  unfold sendUp
  repeat'
    first
    | with_reducible first | assumption | intro _ | apply keeps_ite | apply ctxSend_keeps | apply foldCell_keeps | apply modCtx_keeps | apply modOp_keeps | apply each_keeps | exact partsIn_trans (by decide) hk₀
    | dsimp only
    | split

theorem progress_keeps {ps : List Piece} {x o : Nat} {s₀ s : Sw} (hk₀ : partsIn parts62 ps = true) (h₀ : Sw.keeps ps s₀ s) :
    Sw.keeps ps s₀ (progress x o s) := by
  unfold progress
  repeat'
    first
    | with_reducible first | assumption | intro _ | apply keeps_ite | apply endCheck_keeps | apply judgeSegment_keeps | apply sendUp_keeps | apply each_keeps | exact partsIn_trans (by decide) hk₀
    | dsimp only
    | split

theorem countDup_keeps {ps : List Piece} {x : Nat} {s₀ s : Sw} (hk₀ : partsIn [.ctxs] ps = true) (h₀ : Sw.keeps ps s₀ s) :
    Sw.keeps ps s₀ (countDup x s) := by
  unfold countDup
  repeat'
    first
    | with_reducible first | assumption | intro _ | apply keeps_ite | apply modCtx_keeps

theorem anchorTouch_keeps {ps : List Piece} {q x g : Nat} {s₀ s : Sw} (hk₀ : partsIn [.tiles] ps = true) (h₀ : Sw.keeps ps s₀ s) :
    Sw.keeps ps s₀ (anchorTouch q x g s) := by
  unfold anchorTouch
  repeat'
    first
    | with_reducible first | assumption | intro _ | apply keeps_ite | apply modTile_keeps | exact partsIn_trans (by decide) hk₀
    | dsimp only
    | split

theorem reinjectEvent_keeps {ps : List Piece} {x o cause kind first last subject : Nat} {s₀ s : Sw} (hk₀ : partsIn parts1 ps = true) (h₀ : Sw.keeps ps s₀ s) :
    Sw.keeps ps s₀ (reinjectEvent x o cause kind first last subject s) := by
  unfold reinjectEvent
  repeat'
    first
    | with_reducible first | assumption | intro _ | apply keeps_ite | apply raiseCtx_keeps | apply limited_keeps | exact partsIn_trans (by decide) hk₀

theorem rewindPrune_keeps {ps : List Piece} {x o q a z : Nat} {s₀ s : Sw} (hk₀ : partsIn [.ctxs] ps = true) (h₀ : Sw.keeps ps s₀ s) :
    Sw.keeps ps s₀ (rewindPrune x o q a z s) := by
  unfold rewindPrune
  repeat'
    first
    | with_reducible first | assumption | intro _ | apply keeps_ite | apply modCtx_keeps

theorem askContrib_keeps {ps : List Piece} {x o set cause : Nat} {only : Option Nat} {s₀ s : Sw} (hk₀ : partsIn parts53 ps = true) (h₀ : Sw.keeps ps s₀ s) :
    Sw.keeps ps s₀ (askContrib x o set cause only s) := by
  unfold askContrib
  repeat'
    first
    | with_reducible first | assumption | intro _ | apply keeps_ite | apply ctxCtrl_keeps | apply rewindPrune_keeps | apply modCtx_keeps | apply modOp_keeps | apply each_keeps | exact partsIn_trans (by decide) hk₀
    | dsimp only
    | split

theorem trigger_keeps {ps : List Piece} {x cause subject : Nat} {only : Option Nat} {pick : Ctx → Nat → Op → Nat} {s₀ s : Sw} (hk₀ : partsIn parts53 ps = true) (h₀ : Sw.keeps ps s₀ s) :
    Sw.keeps ps s₀ (trigger x cause subject only pick s) := by
  unfold trigger
  repeat'
    first
    | with_reducible first | assumption | intro _ | apply keeps_ite | apply askContrib_keeps | apply reinjectEvent_keeps | apply each_keeps | exact partsIn_trans (by decide) hk₀
    | dsimp only
    | split

theorem slotCheck_keeps {ps : List Piece} {x o k : Nat} {s₀ s : Sw} (hk₀ : partsIn [.evTimes, .wear, .time, .evqs, .msix, .portCnt, .portQ, .tiles, .ctxs, .rcv, .outs, .freeCtr] ps = true) (h₀ : Sw.keeps ps s₀ s) :
    Sw.keeps ps s₀ (slotCheck x o k s) := by
  unfold slotCheck
  repeat'
    first
    | with_reducible first | assumption | intro _ | apply keeps_ite | apply shadowCheck_keeps | apply trigger_keeps | apply modCtx_keeps | exact partsIn_trans (by decide) hk₀
    | dsimp only
    | split
    | (apply keeps_ofPair; assumption)

theorem unstage_keeps {ps : List Piece} {x o q rank : Nat} {s₀ s : Sw} (hk₀ : partsIn [.ctxs] ps = true) (h₀ : Sw.keeps ps s₀ s) :
    Sw.keeps ps s₀ (unstage x o q rank s) := by
  unfold unstage
  repeat'
    first
    | with_reducible first | assumption | intro _ | apply keeps_ite | apply modOp_keeps | exact partsIn_trans (by decide) hk₀
    | dsimp only
    | split

theorem unstageBackups_keeps {ps : List Piece} {x o k : Nat} {s₀ s : Sw} (hk₀ : partsIn [.ctxs] ps = true) (h₀ : Sw.keeps ps s₀ s) :
    Sw.keeps ps s₀ (unstageBackups x o k s) := by
  unfold unstageBackups
  repeat'
    first
    | with_reducible first | assumption | intro _ | apply keeps_ite | apply unstage_keeps | apply modOp_keeps | apply each_keeps | exact partsIn_trans (by decide) hk₀
    | dsimp only
    | split

theorem contribute_keeps {ps : List Piece} {x o q k : Nat} {part : Part} {s₀ s : Sw} (hk₀ : partsIn parts60 ps = true) (h₀ : Sw.keeps ps s₀ s) :
    Sw.keeps ps s₀ (contribute x o q k part s) := by
  unfold contribute
  repeat'
    first
    | with_reducible first | assumption | intro _ | apply keeps_ite | apply anchorTouch_keeps | apply countDup_keeps | apply nearMemory_keeps | apply slotCheck_keeps | apply unstageBackups_keeps | apply setCtx_keeps | exact partsIn_trans (by decide) hk₀
    | dsimp only
    | split

theorem earlyAt_keeps {ps : List Piece} {x o : Nat} {l g : Quad} {s₀ s : Sw} (hk₀ : partsIn parts3 ps = true) (h₀ : Sw.keeps ps s₀ s) :
    Sw.keeps ps s₀ (earlyAt x o l g s) := by
  unfold earlyAt
  repeat'
    first
    | with_reducible first | assumption | intro _ | apply keeps_ite | apply raiseCtx_keeps | apply modOp_keeps | exact partsIn_trans (by decide) hk₀
    | dsimp only
    | split

theorem earlyCheck_keeps {ps : List Piece} {x o : Nat} {s₀ s : Sw} (hk₀ : partsIn parts3 ps = true) (h₀ : Sw.keeps ps s₀ s) :
    Sw.keeps ps s₀ (earlyCheck x o s) := by
  unfold earlyCheck
  repeat'
    first
    | with_reducible first | assumption | intro _ | apply keeps_ite | apply earlyAt_keeps | apply modOp_keeps | exact partsIn_trans (by decide) hk₀
    | dsimp only
    | split

theorem earlyKnown_keeps {ps : List Piece} {x o : Nat} {s₀ s : Sw} (hk₀ : partsIn parts3 ps = true) (h₀ : Sw.keeps ps s₀ s) :
    Sw.keeps ps s₀ (earlyKnown x o s) := by
  unfold earlyKnown
  repeat'
    first
    | with_reducible first | assumption | intro _ | apply keeps_ite | apply earlyAt_keeps | exact partsIn_trans (by decide) hk₀
    | dsimp only
    | split

theorem foldStaged_keeps {ps : List Piece} {x o q prim rank k : Nat} {s₀ s : Sw} (hk₀ : partsIn parts14 ps = true) (h₀ : Sw.keeps ps s₀ s) :
    Sw.keeps ps s₀ (foldStaged x o q prim rank k s) := by
  unfold foldStaged
  repeat'
    first
    | with_reducible first | assumption | intro _ | apply keeps_ite | apply foldCell_keeps | apply modOp_keeps | apply each_keeps | exact partsIn_trans (by decide) hk₀
    | dsimp only
    | split

theorem foldWindow_keeps {ps : List Piece} {x o q prim k : Nat} {s₀ s : Sw} (hk₀ : partsIn [.ctxs] ps = true) (h₀ : Sw.keeps ps s₀ s) :
    Sw.keeps ps s₀ (foldWindow x o q prim k s) := by
  unfold foldWindow
  repeat'
    first
    | with_reducible first | assumption | intro _ | apply keeps_ite | apply modCtx_keeps

theorem convertStaged_keeps {ps : List Piece} {x o q prim rank k : Nat} {s₀ s : Sw} (hk₀ : partsIn parts60 ps = true) (h₀ : Sw.keeps ps s₀ s) :
    Sw.keeps ps s₀ (convertStaged x o q prim rank k s) := by
  unfold convertStaged
  repeat'
    first
    | with_reducible first | assumption | intro _ | apply keeps_ite | apply contribute_keeps | apply countDup_keeps | apply foldStaged_keeps | apply foldWindow_keeps | apply unstage_keeps | apply modOp_keeps | exact partsIn_trans (by decide) hk₀
    | dsimp only
    | split

theorem lateTicks_keeps {ps : List Piece} {now : Word} {n x : Nat} {s₀ s : Sw} (hk₀ : partsIn [.ctxs] ps = true) (h₀ : Sw.keeps ps s₀ s) :
    Sw.keeps ps s₀ (lateTicks now n x s) := by
  unfold lateTicks
  repeat'
    first
    | with_reducible first | assumption | intro _ | apply keeps_ite | apply modCtx_keeps

theorem markBackup_keeps {ps : List Piece} {x o k : Nat} {h : Child} {b : Nat} {s₀ s : Sw} (hk₀ : partsIn parts3 ps = true) (h₀ : Sw.keeps ps s₀ s) :
    Sw.keeps ps s₀ (markBackup x o k h b s) := by
  unfold markBackup
  repeat'
    first
    | with_reducible first | assumption | intro _ | apply keeps_ite | apply raiseCtx_keeps | apply modCtx_keeps | apply modOp_keeps | exact partsIn_trans (by decide) hk₀
    | dsimp only
    | split

theorem compareBackup_keeps {ps : List Piece} {x o k : Nat} {h : Child} {b : Nat} {s₀ s : Sw} (hk₀ : partsIn parts3 ps = true) (h₀ : Sw.keeps ps s₀ s) :
    Sw.keeps ps s₀ (compareBackup x o k h b s) := by
  unfold compareBackup
  repeat'
    first
    | with_reducible first | assumption | intro _ | apply keeps_ite | apply raiseCtx_keeps | apply modCtx_keeps | exact partsIn_trans (by decide) hk₀
    | dsimp only
    | split

theorem gridCellWhole_keeps {ps : List Piece} {x o q k : Nat} {s₀ s : Sw} (hk₀ : partsIn parts60 ps = true) (h₀ : Sw.keeps ps s₀ s) :
    Sw.keeps ps s₀ (gridCellWhole x o q k s) := by
  unfold gridCellWhole
  repeat'
    first
    | with_reducible first | assumption | intro _ | apply keeps_ite | apply compareBackup_keeps | apply convertStaged_keeps | apply countDup_keeps | apply markBackup_keeps | apply unstage_keeps | apply modOp_keeps | exact partsIn_trans (by decide) hk₀
    | dsimp only
    | split

theorem takeBackup_keeps {ps : List Piece} {x o k : Nat} {h : Child} {s₀ s : Sw} (hk₀ : partsIn parts60 ps = true) (h₀ : Sw.keeps ps s₀ s) :
    Sw.keeps ps s₀ (takeBackup x o k h s) := by
  unfold takeBackup
  repeat'
    first
    | with_reducible first | assumption | intro _ | apply keeps_ite | apply convertStaged_keeps | apply markBackup_keeps | exact partsIn_trans (by decide) hk₀
    | dsimp only
    | split

theorem clearStall_keeps {ps : List Piece} {x o port : Nat} {s₀ s : Sw} (hk₀ : partsIn parts3 ps = true) (h₀ : Sw.keeps ps s₀ s) :
    Sw.keeps ps s₀ (clearStall x o port s) := by
  unfold clearStall
  repeat'
    first
    | with_reducible first | assumption | intro _ | apply keeps_ite | apply raiseCtx_keeps | apply modOp_keeps | exact partsIn_trans (by decide) hk₀
    | dsimp only
    | split

end Sys2Proof.Machine
end

