-- ==== Sys2Proof/Laws/FrameFlow.lean ====
section
/-! SUPPORT. Frames of the engine, of moves and settling, of recovery and of link state. A lemma f_keeps says: what was kept so far, f keeps too, where the parts f can
change are among the listed ones. -/
namespace Sys2Proof.Machine

/-! ### Engine -/

theorem stepEvent_keeps {ps : List Piece} {x u step code : Nat} {content : List Byte} {s₀ s : Sw} (hk₀ : partsIn [.evqs, .msix, .outs] ps = true) (h₀ : Sw.keeps ps s₀ s) :
    Sw.keeps ps s₀ (stepEvent x u step code content s) := by
  unfold stepEvent
  repeat'
    first
    | with_reducible first | assumption | intro _ | apply keeps_ite | apply raiseCtx_keeps

theorem stepOnce_keeps {ps : List Piece} {x u code key : Nat} {content : List Byte} {s₀ s : Sw} (hk₀ : partsIn parts3 ps = true) (h₀ : Sw.keeps ps s₀ s) :
    Sw.keeps ps s₀ (stepOnce x u code key content s) := by
  unfold stepOnce
  repeat'
    first
    | with_reducible first | assumption | intro _ | apply keeps_ite | apply stepEvent_keeps | apply modStep_keeps | exact partsIn_trans (by decide) hk₀
    | dsimp only
    | split

theorem takeT2_keeps {ps : List Piece} {n : Nat} {got r : Nat × Nat} {s₀ s t : Sw} (he : takeT2 n got s = some (r, t))
    (hk₀ : partsIn [.cxl] ps = true) (h₀ : Sw.keeps ps s₀ s) : Sw.keeps ps s₀ t := by
  induction n generalizing got s with
  | zero => cases he; exact h₀
  | succ n ih =>
    unfold takeT2 at he
    dsimp only at he
    repeat' (split at he)
    all_goals first | (cases he; done) | exact ih he (modRoot_keeps hk₀ h₀)

theorem freeT2_keeps {ps : List Piece} {n : Nat × Nat} {s₀ s : Sw} (hk₀ : partsIn [.cxl] ps = true) (h₀ : Sw.keeps ps s₀ s) :
    Sw.keeps ps s₀ (freeT2 n s) := by
  unfold freeT2
  repeat'
    first
    | with_reducible first | assumption | intro _ | apply keeps_ite | apply modRoot_keeps

theorem migStop_keeps {ps : List Piece} {x k : Nat} {s₀ s : Sw} (hk₀ : partsIn parts44 ps = true) (h₀ : Sw.keeps ps s₀ s) :
    Sw.keeps ps s₀ (migStop x k s) := by
  unfold migStop
  repeat'
    first
    | with_reducible first | assumption | intro _ | apply keeps_ite | apply freeT2_keeps | apply poolFreeBy_keeps | apply modShard_keeps | apply modMigs_keeps | exact partsIn_trans (by decide) hk₀
    | dsimp only
    | split

theorem migDecide_keeps {ps : List Piece} {x k : Nat} {s₀ s : Sw} (hk₀ : partsIn [.ctxs, .migQueues] ps = true) (h₀ : Sw.keeps ps s₀ s) :
    Sw.keeps ps s₀ (migDecide x k s) := by
  unfold migDecide
  repeat'
    first
    | with_reducible first | assumption | intro _ | apply keeps_ite | apply modShard_keeps | apply modMigs_keeps | exact partsIn_trans (by decide) hk₀
    | dsimp only
    | split

theorem waitPinEvent_keeps {ps : List Piece} {x k v : Nat} {h : Shard} {s₀ s : Sw} (hk₀ : partsIn [.evqs, .msix, .outs] ps = true) (h₀ : Sw.keeps ps s₀ s) :
    Sw.keeps ps s₀ (waitPinEvent x k v h s) := by
  unfold waitPinEvent
  repeat'
    first
    | with_reducible first | assumption | intro _ | apply keeps_ite | apply raiseCtx_keeps

theorem beginWrite_keeps {ps : List Piece} {x k : Nat} {s₀ s : Sw} (hk₀ : partsIn [.ctxs] ps = true) (h₀ : Sw.keeps ps s₀ s) :
    Sw.keeps ps s₀ (beginWrite x k s) := by
  unfold beginWrite
  repeat'
    first
    | with_reducible first | assumption | intro _ | apply keeps_ite | apply modShard_keeps

theorem pinsToCache_keeps {ps : List Piece} {x k : Nat} {vs : List Nat} {s₀ s : Sw} (hk₀ : partsIn [.evTimes, .evqs, .msix, .pool, .ctxs, .outs] ps = true)
    (h₀ : Sw.keeps ps s₀ s) : Sw.keeps ps s₀ (pinsToCache x k vs s).2 := by
  unfold pinsToCache
  refine fold_keeps Prod.snd _ (fun b v h => ?_) _ _ h₀
  dsimp only
  repeat'
    first
    | with_reducible first | assumption | apply makeEntry_keeps | apply raiseCtx_keeps | apply modStore_keeps | exact partsIn_trans (by decide) hk₀
    | split

theorem requestBank_keeps {ps : List Piece} {x k : Nat} {idle : Bool} {s₀ s : Sw} (hk₀ : partsIn parts46 ps = true) (h₀ : Sw.keeps ps s₀ s) :
    Sw.keeps ps s₀ (requestBank x k idle s) := by
  unfold requestBank
  repeat'
    first
    | with_reducible first | assumption | intro _ | apply keeps_ite | apply pinsToCache_keeps | apply beginWrite_keeps | apply migStop_keeps | apply raiseCtx_keeps | apply waitPinEvent_keeps | apply modShard_keeps | exact partsIn_trans (by decide) hk₀
    | dsimp only
    | split

theorem abandonWrite_keeps {ps : List Piece} {x k : Nat} {s₀ s : Sw} (hk₀ : partsIn [.ctxs] ps = true) (h₀ : Sw.keeps ps s₀ s) :
    Sw.keeps ps s₀ (abandonWrite x k s) := by
  unfold abandonWrite
  repeat'
    first
    | with_reducible first | assumption | intro _ | apply keeps_ite | apply modShard_keeps

theorem agStart_keeps {ps : List Piece} {g count : Nat} {l : LayerCfg} {s₀ s : Sw} (hk₀ : partsIn [.tiles] ps = true) (h₀ : Sw.keeps ps s₀ s) :
    Sw.keeps ps s₀ (agStart g count l s) := by
  unfold agStart
  repeat'
    first
    | with_reducible first | assumption | intro _ | apply keeps_ite | apply modTile_keeps | apply each_keeps

theorem agStop_keeps {ps : List Piece} {g : Nat} {s₀ s : Sw} (hk₀ : partsIn [.tiles] ps = true) (h₀ : Sw.keeps ps s₀ s) :
    Sw.keeps ps s₀ (agStop g s) := by
  unfold agStop
  repeat'
    first
    | with_reducible first | assumption | intro _ | apply keeps_ite | apply modTile_keeps | apply each_keeps

theorem engineGo_keeps {ps : List Piece} {x u : Nat} {s₀ s : Sw} (hk₀ : partsIn [.evTimes, .evqs, .msix, .tiles, .cxl, .pool, .ctxs, .migQueues, .outs] ps = true) (h₀ : Sw.keeps ps s₀ s) :
    Sw.keeps ps s₀ (engineGo x u s) := by
  unfold engineGo
  repeat'
    first
    | with_reducible first | assumption | intro _ | apply keeps_ite | apply agStart_keeps | apply requestBank_keeps | apply each_keeps | exact partsIn_trans (by decide) hk₀
    | dsimp only
    | split

theorem stepDone_keeps {ps : List Piece} {x u status : Nat} {s₀ s : Sw} (hk₀ : partsIn parts26 ps = true) (h₀ : Sw.keeps ps s₀ s) :
    Sw.keeps ps s₀ (stepDone x u status s) := by
  unfold stepDone
  repeat'
    first
    | with_reducible first | assumption | intro _ | apply keeps_ite | apply completeE_keeps | apply stepEvent_keeps | apply modStep_keeps | exact partsIn_trans (by decide) hk₀
    | dsimp only
    | split

theorem stepCheck_keeps {ps : List Piece} {x u : Nat} {s₀ s : Sw} (hk₀ : partsIn parts26 ps = true) (h₀ : Sw.keeps ps s₀ s) :
    Sw.keeps ps s₀ (stepCheck x u s) := by
  unfold stepCheck
  repeat'
    first
    | with_reducible first | assumption | intro _ | apply keeps_ite | apply stepDone_keeps | exact partsIn_trans (by decide) hk₀
    | dsimp only
    | split

theorem restoreSnap_keeps {ps : List Piece} {x u : Nat} {s₀ s : Sw} (hk₀ : partsIn [.ctxs] ps = true) (h₀ : Sw.keeps ps s₀ s) :
    Sw.keeps ps s₀ (restoreSnap x u s) := by
  unfold restoreSnap
  repeat'
    first
    | with_reducible first | assumption | intro _ | apply keeps_ite | apply modStore_keeps | apply modStep_keeps | exact partsIn_trans (by decide) hk₀
    | dsimp only
    | split

theorem clearFull_keeps {ps : List Piece} {x k : Nat} {s₀ s : Sw} (hk₀ : partsIn [.ctxs] ps = true) (h₀ : Sw.keeps ps s₀ s) :
    Sw.keeps ps s₀ (clearFull x k s) := by
  unfold clearFull
  repeat'
    first
    | with_reducible first | assumption | intro _ | apply keeps_ite | apply modShard_keeps

theorem enterRunning_keeps {ps : List Piece} {x u : Nat} {factor gnorm : Quad} {skip : Bool} {s₀ s : Sw} (hk₀ : partsIn parts56 ps = true) (h₀ : Sw.keeps ps s₀ s) :
    Sw.keeps ps s₀ (enterRunning x u factor gnorm skip s) := by
  unfold enterRunning
  repeat'
    first
    | with_reducible first | assumption | intro _ | apply keeps_ite | apply engineGo_keeps | apply stepCheck_keeps | apply modStep_keeps | exact partsIn_trans (by decide) hk₀
    | dsimp only
    | split

theorem stepResult_keeps {ps : List Piece} {x u step word : Nat} {an : Int} {nonfinite mismatch : Bool} {differ : List Nat} {s₀ s : Sw} (hk₀ : partsIn parts56 ps = true) (h₀ : Sw.keeps ps s₀ s) :
    Sw.keeps ps s₀ (stepResult x u step word an nonfinite mismatch differ s) := by
  unfold stepResult
  repeat'
    first
    | with_reducible first | assumption | intro _ | apply keeps_ite | apply clearFull_keeps | apply enterRunning_keeps | apply restoreSnap_keeps | apply stepDone_keeps | apply stepEvent_keeps | apply modStep_keeps | apply each_keeps | exact partsIn_trans (by decide) hk₀
    | dsimp only
    | split

theorem normCount_keeps {ps : List Piece} {x u step first : Nat} {v : Contrib} {back : Option Nat} {s₀ s : Sw} (hk₀ : partsIn parts61 ps = true) (h₀ : Sw.keeps ps s₀ s) :
    Sw.keeps ps s₀ (normCount x u step first v back s) := by
  unfold normCount
  repeat'
    first
    | with_reducible first | assumption | intro _ | apply keeps_ite | apply ctxCtrl_keeps | apply stepResult_keeps | apply modStore_keeps | apply each_keeps | exact partsIn_trans (by decide) hk₀
    | dsimp only
    | split

theorem sendContrib_keeps {ps : List Piece} {x u : Nat} {s₀ s : Sw} (hk₀ : partsIn parts61 ps = true) (h₀ : Sw.keeps ps s₀ s) :
    Sw.keeps ps s₀ (sendContrib x u s) := by
  unfold sendContrib
  repeat'
    first
    | with_reducible first | assumption | intro _ | apply keeps_ite | apply ctxCtrl_keeps | apply normCount_keeps | exact partsIn_trans (by decide) hk₀
    | dsimp only
    | split

theorem snapCheck_keeps {ps : List Piece} {x u : Nat} {s₀ s : Sw} (hk₀ : partsIn parts61 ps = true) (h₀ : Sw.keeps ps s₀ s) :
    Sw.keeps ps s₀ (snapCheck x u s) := by
  unfold snapCheck
  repeat'
    first
    | with_reducible first | assumption | intro _ | apply keeps_ite | apply enterRunning_keeps | apply sendContrib_keeps | apply stepResult_keeps | apply modStore_keeps | apply modStep_keeps | exact partsIn_trans (by decide) hk₀
    | dsimp only
    | split

theorem snapCtx_keeps {ps : List Piece} {x : Nat} {s₀ s : Sw} (hk₀ : partsIn parts61 ps = true) (h₀ : Sw.keeps ps s₀ s) :
    Sw.keeps ps s₀ (snapCtx x s) := by
  unfold snapCtx
  repeat'
    first
    | with_reducible first | assumption | intro _ | apply keeps_ite | apply snapCheck_keeps | apply each_keeps | exact partsIn_trans (by decide) hk₀
    | dsimp only
    | split

theorem afterCommit_keeps {ps : List Piece} {x u k : Nat} {idle : Bool} {s₀ s : Sw} (hk₀ : partsIn parts56 ps = true) (h₀ : Sw.keeps ps s₀ s) :
    Sw.keeps ps s₀ (afterCommit x u k idle s) := by
  unfold afterCommit
  repeat'
    first
    | with_reducible first | assumption | intro _ | apply keeps_ite | apply agStop_keeps | apply clearFull_keeps | apply engineGo_keeps | apply migDecide_keeps | apply stepCheck_keeps | apply modShard_keeps | apply modStep_keeps | exact partsIn_trans (by decide) hk₀
    | dsimp only
    | split

/-! ### Move -/

theorem takeShard_keeps {ps : List Piece} {x : Nat} {cfg : CtxCfg} {t' : Store} {e : ShardEnt} {r : Shard} {s₀ s t : Sw}
    (he : takeShard x cfg t' e s = some (r, t)) (hk₀ : partsIn [.evqs, .msix, .cxl, .pool, .outs] ps = true)
    (h₀ : Sw.keeps ps s₀ s) : Sw.keeps ps s₀ t := by
  unfold takeShard at he
  simp only [Option.bind_eq_some_iff, Option.map_eq_some_iff, Prod.mk.injEq] at he
  obtain ⟨w, hw, ⟨q, u⟩, hu, -, rfl⟩ := he
  exact takeT2_keeps hu (partsIn_trans (by decide) hk₀) (poolTake_keeps hw (partsIn_trans (by decide) hk₀) h₀)

theorem takeShards_keeps {ps : List Piece} {x : Nat} {cfg : CtxCfg} {t' : Store} {es : List (Nat × ShardEnt)} {r : SMap Shard}
    {s₀ s t : Sw} (he : takeShards x cfg t' es s = some (r, t)) (hk₀ : partsIn [.evqs, .msix, .cxl, .pool, .outs] ps = true)
    (h₀ : Sw.keeps ps s₀ s) : Sw.keeps ps s₀ t := by
  unfold takeShards at he
  have step : ∀ (b : SMap Shard × Sw) (e : Nat × ShardEnt) (c : SMap Shard × Sw),
      (takeShard x cfg t' e.2 b.2).map (fun r => (b.1.set e.1 r.1, r.2)) = some c → Sw.keeps ps s₀ b.2 → Sw.keeps ps s₀ c.2 := by
    intro b e c hc hb
    simp only [Option.map_eq_some_iff] at hc
    obtain ⟨u, hu, rfl⟩ := hc
    exact takeShard_keeps (r := u.1) hu hk₀ hb
  refine optFold_keeps (ps := ps) (s₀ := s₀) (Prod.snd (α := SMap Shard)) _ step es (some ([], s)) ?_ (r, t) he
  intro b hb
  simp only [Option.some.injEq] at hb
  rw [← hb]
  exact h₀

theorem spaceLimit_keeps {ps : List Piece} {cfg : CtxCfg} {t : Store} {es : List (Nat × ShardEnt)} {s₀ s : Sw} (hk₀ : partsIn [.evqs, .msix, .outs] ps = true) (h₀ : Sw.keeps ps s₀ s) :
    Sw.keeps ps s₀ (spaceLimit cfg t es s) := by
  unfold spaceLimit
  repeat'
    first
    | with_reducible first | assumption | intro _ | apply keeps_ite | apply limitEvent_keeps

theorem emptyShard_keeps {ps : List Piece} {x k : Nat} {s₀ s : Sw} (hk₀ : partsIn parts44 ps = true) (h₀ : Sw.keeps ps s₀ s) :
    Sw.keeps ps s₀ (emptyShard x k s) := by
  unfold emptyShard
  repeat'
    first
    | with_reducible first | assumption | intro _ | apply keeps_ite | apply dropEntries_keeps | apply freeT2_keeps | apply migStop_keeps | apply poolFreeBy_keeps | apply modShard_keeps | exact partsIn_trans (by decide) hk₀
    | dsimp only
    | split

theorem clearShard_keeps {ps : List Piece} {x k : Nat} {s₀ s : Sw} (hk₀ : partsIn parts44 ps = true) (h₀ : Sw.keeps ps s₀ s) :
    Sw.keeps ps s₀ (clearShard x k s) := by
  unfold clearShard
  repeat'
    first
    | with_reducible first | assumption | intro _ | apply keeps_ite | apply dropEntries_keeps | apply migStop_keeps | apply modShard_keeps | exact partsIn_trans (by decide) hk₀

theorem sendMove_keeps {ps : List Piece} {x q : Nat} {cells : List Cell} {s₀ s : Sw} (hk₀ : partsIn parts32 ps = true) (h₀ : Sw.keeps ps s₀ s) :
    Sw.keeps ps s₀ (sendMove x q cells s) := by
  unfold sendMove
  repeat'
    first
    | with_reducible first | assumption | intro _ | apply keeps_ite | apply dropRank_keeps | apply enqueue_keeps | apply each_keeps | exact partsIn_trans (by decide) hk₀
    | dsimp only
    | split

theorem moveImage_keeps {ps : List Piece} {x k : Nat} {s₀ s : Sw} (hk₀ : partsIn parts32 ps = true) (h₀ : Sw.keeps ps s₀ s) :
    Sw.keeps ps s₀ (moveImage x k s) := by
  unfold moveImage
  repeat'
    first
    | with_reducible first | assumption | intro _ | apply keeps_ite | apply sendMove_keeps | exact partsIn_trans (by decide) hk₀
    | dsimp only
    | split

theorem ackMove_keeps {ps : List Piece} {x e epoch k kind : Nat} {q : Option Nat} {s₀ s : Sw} (hk₀ : partsIn parts32 ps = true) (h₀ : Sw.keeps ps s₀ s) :
    Sw.keeps ps s₀ (ackMove x e epoch k kind q s) := by
  unfold ackMove
  repeat'
    first
    | with_reducible first | assumption | intro _ | apply keeps_ite | apply sendMove_keeps | exact partsIn_trans (by decide) hk₀
    | dsimp only
    | split

theorem installImage_keeps {ps : List Piece} {x k : Nat} {e : ShardEnt} {img : List Byte} {s₀ s : Sw} (hk₀ : partsIn [.cxl, .ctxs] ps = true) (h₀ : Sw.keeps ps s₀ s) :
    Sw.keeps ps s₀ (installImage x k e img s) := by
  unfold installImage
  repeat'
    first
    | with_reducible first | assumption | intro _ | apply keeps_ite | apply commitRecord_keeps | apply freeT2_keeps | apply modShard_keeps | exact partsIn_trans (by decide) hk₀
    | dsimp only
    | split

theorem imageCheck_keeps {ps : List Piece} {x k : Nat} {s₀ s : Sw} (hk₀ : partsIn parts48 ps = true) (h₀ : Sw.keeps ps s₀ s) :
    Sw.keeps ps s₀ (imageCheck x k s) := by
  unfold imageCheck
  repeat'
    first
    | with_reducible first | assumption | intro _ | apply keeps_ite | apply ackMove_keeps | apply installImage_keeps | apply raiseCtx_keeps | apply modCtx_keeps | exact partsIn_trans (by decide) hk₀
    | dsimp only
    | split

/-! ### Graft -/

theorem sendGraftOn_keeps {ps : List Piece} {o : Nat} {cells : List Cell} {s₀ s : Sw} (hk₀ : partsIn parts32 ps = true) (h₀ : Sw.keeps ps s₀ s) :
    Sw.keeps ps s₀ (sendGraftOn o cells s) := by
  unfold sendGraftOn
  repeat'
    first
    | with_reducible first | assumption | intro _ | apply keeps_ite | apply dropRank_keeps | apply enqueue_keeps | apply each_keeps | exact partsIn_trans (by decide) hk₀
    | dsimp only
    | split

theorem sendGraft_keeps {ps : List Piece} {x q : Nat} {cells : List Cell} {s₀ s : Sw} (hk₀ : partsIn parts32 ps = true) (h₀ : Sw.keeps ps s₀ s) :
    Sw.keeps ps s₀ (sendGraft x q cells s) := by
  unfold sendGraft
  repeat'
    first
    | with_reducible first | assumption | intro _ | apply keeps_ite | apply sendGraftOn_keeps

theorem graftStepEvent_keeps {ps : List Piece} {x : Option Nat} {st : Nat} {s₀ s : Sw} (hk₀ : partsIn [.evqs, .msix, .outs] ps = true) (h₀ : Sw.keeps ps s₀ s) :
    Sw.keeps ps s₀ (graftStepEvent x st s) := by
  unfold graftStepEvent
  repeat'
    first
    | with_reducible first | assumption | intro _ | apply keeps_ite | apply raiseCtx_keeps | apply raiseSys_keeps | exact partsIn_trans (by decide) hk₀
    | dsimp only
    | split

theorem modGraft_keeps {ps : List Piece} {x : Nat} {f : GraftCtx → GraftCtx} {s₀ s : Sw} (hk₀ : partsIn [.ctxs] ps = true) (h₀ : Sw.keeps ps s₀ s) :
    Sw.keeps ps s₀ (Sw.modGraft x f s) := by
  unfold Sw.modGraft
  repeat'
    first
    | with_reducible first | assumption | intro _ | apply keeps_ite | apply modCtx_keeps

theorem graftUnpin_keeps {ps : List Piece} {x k v : Nat} {s₀ s : Sw} (hk₀ : partsIn [.ctxs] ps = true) (h₀ : Sw.keeps ps s₀ s) :
    Sw.keeps ps s₀ (graftUnpin x k v s) := by
  unfold graftUnpin
  repeat'
    first
    | with_reducible first | assumption | intro _ | apply keeps_ite | apply modStore_keeps

theorem serveAnchors_keeps {ps : List Piece} {x : Nat} {done : Nat → Bool} {s₀ s : Sw} (hk₀ : partsIn parts40 ps = true) (h₀ : Sw.keeps ps s₀ s) :
    Sw.keeps ps s₀ (serveAnchors x done s) := by
  unfold serveAnchors
  repeat'
    first
    | with_reducible first | assumption | intro _ | apply keeps_ite | apply modGraft_keeps | apply sendGraft_keeps | apply each_keeps | exact partsIn_trans (by decide) hk₀
    | dsimp only
    | split

theorem serveShard_keeps {ps : List Piece} {x q k : Nat} {s₀ s : Sw} (hk₀ : partsIn parts40 ps = true) (h₀ : Sw.keeps ps s₀ s) :
    Sw.keeps ps s₀ (serveShard x q k s) := by
  unfold serveShard
  repeat'
    first
    | with_reducible first | assumption | intro _ | apply keeps_ite | apply modGraft_keeps | apply sendGraft_keeps | apply modStore_keeps | exact partsIn_trans (by decide) hk₀
    | dsimp only
    | split

theorem serveCopy_keeps {ps : List Piece} {x q shard first count : Nat} {s₀ s : Sw} (hk₀ : partsIn parts40 ps = true) (h₀ : Sw.keeps ps s₀ s) :
    Sw.keeps ps s₀ (serveCopy x q shard first count s) := by
  unfold serveCopy
  repeat'
    first
    | with_reducible first | assumption | intro _ | apply keeps_ite | apply modGraft_keeps | apply graftUnpin_keeps | apply serveShard_keeps | apply each_keeps | exact partsIn_trans (by decide) hk₀
    | dsimp only
    | split

theorem staleTell_keeps {ps : List Piece} {x k : Nat} {s₀ s : Sw} (hk₀ : partsIn parts40 ps = true) (h₀ : Sw.keeps ps s₀ s) :
    Sw.keeps ps s₀ (staleTell x k s) := by
  unfold staleTell
  repeat'
    first
    | with_reducible first | assumption | intro _ | apply keeps_ite | apply modGraft_keeps | apply graftUnpin_keeps | apply sendGraft_keeps | apply each_keeps | exact partsIn_trans (by decide) hk₀
    | dsimp only
    | split

theorem askCopy_keeps {ps : List Piece} {x shard n : Nat} {s₀ s : Sw} (hk₀ : partsIn parts40 ps = true) (h₀ : Sw.keeps ps s₀ s) :
    Sw.keeps ps s₀ (askCopy x shard n s) := by
  unfold askCopy
  repeat'
    first
    | with_reducible first | assumption | intro _ | apply keeps_ite | apply modGraft_keeps | apply sendGraft_keeps | exact partsIn_trans (by decide) hk₀
    | dsimp only
    | split

theorem copyTimeout_keeps {ps : List Piece} {x : Nat} {s₀ s : Sw} (hk₀ : partsIn parts26 ps = true) (h₀ : Sw.keeps ps s₀ s) :
    Sw.keeps ps s₀ (copyTimeout x s) := by
  unfold copyTimeout
  repeat'
    first
    | with_reducible first | assumption | intro _ | apply keeps_ite | apply modGraft_keeps | apply completeOpt_keeps | apply graftStepEvent_keeps | exact partsIn_trans (by decide) hk₀
    | dsimp only
    | split

theorem copyDone_keeps {ps : List Piece} {x : Nat} {s₀ s : Sw} (hk₀ : partsIn parts26 ps = true) (h₀ : Sw.keeps ps s₀ s) :
    Sw.keeps ps s₀ (copyDone x s) := by
  unfold copyDone
  repeat'
    first
    | with_reducible first | assumption | intro _ | apply keeps_ite | apply completeOpt_keeps | apply graftStepEvent_keeps | apply raiseCtx_keeps | apply setCtx_keeps | exact partsIn_trans (by decide) hk₀
    | dsimp only
    | split

theorem takeAnchors_keeps {ps : List Piece} {x block : Nat} {data : List Byte} {s₀ s : Sw} (hk₀ : partsIn parts49 ps = true) (h₀ : Sw.keeps ps s₀ s) :
    Sw.keeps ps s₀ (takeAnchors x block data s) := by
  unfold takeAnchors
  repeat'
    first
    | with_reducible first | assumption | intro _ | apply keeps_ite | apply modGraft_keeps | apply askCopy_keeps | apply copyDone_keeps | apply setCtx_keeps | exact partsIn_trans (by decide) hk₀
    | dsimp only
    | split

theorem installLoad_keeps {ps : List Piece} {x k : Nat} {e : ShardEnt} {img : List Byte} {s₀ s : Sw} (hk₀ : partsIn [.ctxs] ps = true) (h₀ : Sw.keeps ps s₀ s) :
    Sw.keeps ps s₀ (installLoad x k e img s) := by
  unfold installLoad
  repeat'
    first
    | with_reducible first | assumption | intro _ | apply keeps_ite | apply commitRecord_keeps | apply modShard_keeps | exact partsIn_trans (by decide) hk₀
    | dsimp only
    | split

theorem takeImage_keeps {ps : List Piece} {x k block : Nat} {data : List Byte} {s₀ s : Sw} (hk₀ : partsIn parts49 ps = true) (h₀ : Sw.keeps ps s₀ s) :
    Sw.keeps ps s₀ (takeImage x k block data s) := by
  unfold takeImage
  repeat'
    first
    | with_reducible first | assumption | intro _ | apply keeps_ite | apply modGraft_keeps | apply copyDone_keeps | apply installLoad_keeps | apply sendGraft_keeps | exact partsIn_trans (by decide) hk₀
    | dsimp only
    | split

theorem takeStale_keeps {ps : List Piece} {x k : Nat} {s₀ s : Sw} (hk₀ : partsIn parts55 ps = true) (h₀ : Sw.keeps ps s₀ s) :
    Sw.keeps ps s₀ (takeStale x k s) := by
  unfold takeStale
  repeat'
    first
    | with_reducible first | assumption | intro _ | apply keeps_ite | apply modGraft_keeps | apply askCopy_keeps | apply clearShard_keeps | apply graftStepEvent_keeps | exact partsIn_trans (by decide) hk₀
    | dsimp only
    | split

theorem copyCell_keeps {ps : List Piece} {x q : Nat} {c : Cell} {s₀ s : Sw} (hk₀ : partsIn [.evTimes, .rings, .evqs, .msix, .portCnt, .portQ, .cxl, .pool, .ctxs, .migQueues, .outs] ps = true) (h₀ : Sw.keeps ps s₀ s) :
    Sw.keeps ps s₀ (copyCell x q c s) := by
  unfold copyCell
  repeat'
    first
    | with_reducible first | assumption | intro _ | apply keeps_ite | apply modGraft_keeps | apply serveCopy_keeps | apply serveShard_keeps | apply takeAnchors_keeps | apply takeImage_keeps | apply takeStale_keeps | exact partsIn_trans (by decide) hk₀
    | dsimp only
    | split

/-! ### Joins -/

theorem lateLaunch_keeps {ps : List Piece} {x o : Nat} {l : Quad} {s₀ s : Sw} (hk₀ : partsIn parts15 ps = true) (h₀ : Sw.keeps ps s₀ s) :
    Sw.keeps ps s₀ (lateLaunch x o l s) := by
  unfold lateLaunch
  repeat'
    first
    | with_reducible first | assumption | intro _ | apply keeps_ite | apply raiseCtx_keeps | apply modTime_keeps | exact partsIn_trans (by decide) hk₀

theorem tellEnd_keeps {ps : List Piece} {x o q member status : Nat} {barrier : Bool} {s₀ s : Sw} (hk₀ : partsIn parts53 ps = true) (h₀ : Sw.keeps ps s₀ s) :
    Sw.keeps ps s₀ (tellEnd x o q member status barrier s) := by
  unfold tellEnd
  repeat'
    first
    | with_reducible first | assumption | intro _ | apply keeps_ite | apply ctxCtrl_keeps

theorem tellJoined_keeps {ps : List Piece} {x o q : Nat} {h : Child} {s₀ s : Sw} (hk₀ : partsIn parts53 ps = true) (h₀ : Sw.keeps ps s₀ s) :
    Sw.keeps ps s₀ (tellJoined x o q h s) := by
  unfold tellJoined
  repeat'
    first
    | with_reducible first | assumption | intro _ | apply keeps_ite | apply ctxCtrl_keeps | apply modOp_keeps | exact partsIn_trans (by decide) hk₀
    | dsimp only
    | split

theorem drawBuffers_keeps {ps : List Piece} {x o : Nat} {s₀ s : Sw} (hk₀ : partsIn parts31 ps = true) (h₀ : Sw.keeps ps s₀ s) :
    Sw.keeps ps s₀ (drawBuffers x o s) := by
  unfold drawBuffers
  repeat'
    first
    | with_reducible first | assumption | intro _ | apply keeps_ite | apply poolTakeOrWait_keeps | apply modCtx_keeps | apply each_keeps | exact partsIn_trans (by decide) hk₀
    | dsimp only
    | split

theorem graftRelease_keeps {ps : List Piece} {x o : Nat} {s₀ s : Sw} (hk₀ : partsIn [.ctxs] ps = true) (h₀ : Sw.keeps ps s₀ s) :
    Sw.keeps ps s₀ (graftRelease x o s) := by
  unfold graftRelease
  repeat'
    first
    | with_reducible first | assumption | intro _ | apply keeps_ite | apply graftUnpin_keeps | apply modCtx_keeps | apply each_keeps | exact partsIn_trans (by decide) hk₀
    | dsimp only
    | split

theorem graftAdmit_keeps {ps : List Piece} {x o : Nat} {s₀ s : Sw} (hk₀ : partsIn parts3 ps = true) (h₀ : Sw.keeps ps s₀ s) :
    Sw.keeps ps s₀ (graftAdmit x o s) := by
  unfold graftAdmit
  repeat'
    first
    | with_reducible first | assumption | intro _ | apply keeps_ite | apply graftStepEvent_keeps | apply modCtx_keeps | exact partsIn_trans (by decide) hk₀
    | dsimp only
    | split

theorem openOp_keeps {ps : List Piece} {x o : Nat} {b : BitVec 256} {byJoin : Bool} {s₀ s : Sw} (hk₀ : partsIn [.evTimes, .time, .evqs, .msix, .pool, .ctxs, .outs] ps = true) (h₀ : Sw.keeps ps s₀ s) :
    Sw.keeps ps s₀ (openOp x o b byJoin s) := by
  unfold openOp
  repeat'
    first
    | with_reducible first | assumption | intro _ | apply keeps_ite | apply drawBuffers_keeps | apply graftAdmit_keeps | apply lateLaunch_keeps | apply setCtx_keeps | exact partsIn_trans (by decide) hk₀
    | dsimp only
    | split

theorem resolveGather_keeps {ps : List Piece} {x o : Nat} {s₀ s : Sw} (hk₀ : partsIn [.ctxs] ps = true) (h₀ : Sw.keeps ps s₀ s) :
    Sw.keeps ps s₀ (resolveGather x o s).2 := by
  unfold resolveGather
  repeat'
    first
    | with_reducible first | assumption | intro _ | apply keeps_ite | apply takePins_keeps | apply modOp_keeps | exact partsIn_trans (by decide) hk₀
    | dsimp only
    | split

theorem gatherEmit_keeps {ps : List Piece} {x o : Nat} {s₀ s : Sw} (hk₀ : partsIn parts60 ps = true) (h₀ : Sw.keeps ps s₀ s) :
    Sw.keeps ps s₀ (gatherEmit x o s) := by
  unfold gatherEmit
  repeat'
    first
    | with_reducible first | assumption | intro _ | apply keeps_ite | apply emit_keeps | apply modOp_keeps | exact partsIn_trans (by decide) hk₀
    | dsimp only
    | split

theorem takeCounts_keeps {ps : List Piece} {x o src blk : Nat} {counts : List Nat} {s₀ s : Sw} (hk₀ : partsIn parts58 ps = true) (h₀ : Sw.keeps ps s₀ s) :
    Sw.keeps ps s₀ (takeCounts x o src blk counts s) := by
  unfold takeCounts
  repeat'
    first
    | with_reducible first | assumption | intro _ | apply keeps_ite | apply failHere_keeps | apply modOp_keeps | exact partsIn_trans (by decide) hk₀
    | dsimp only
    | split

theorem forwardCounts_keeps {ps : List Piece} {x o src blk : Nat} {counts : List Nat} {fromAbove : Bool} {s₀ s : Sw} (hk₀ : partsIn parts53 ps = true) (h₀ : Sw.keeps ps s₀ s) :
    Sw.keeps ps s₀ (forwardCounts x o src blk counts fromAbove s) := by
  unfold forwardCounts
  repeat'
    first
    | with_reducible first | assumption | intro _ | apply keeps_ite | apply ctxCtrl_keeps | apply each_keeps | exact partsIn_trans (by decide) hk₀
    | dsimp only
    | split

theorem routeCounts_keeps {ps : List Piece} {x o src blk : Nat} {counts : List Nat} {fromAbove : Bool} {s₀ s : Sw} (hk₀ : partsIn parts58 ps = true) (h₀ : Sw.keeps ps s₀ s) :
    Sw.keeps ps s₀ (routeCounts x o src blk counts fromAbove s) := by
  unfold routeCounts
  repeat'
    first
    | with_reducible first | assumption | intro _ | apply keeps_ite | apply forwardCounts_keeps | apply takeCounts_keeps | exact partsIn_trans (by decide) hk₀
    | dsimp only
    | split

theorem countsCheck_keeps {ps : List Piece} {x o : Nat} {s₀ s : Sw} (hk₀ : partsIn parts53 ps = true) (h₀ : Sw.keeps ps s₀ s) :
    Sw.keeps ps s₀ (countsCheck x o s) := by
  unfold countsCheck
  repeat'
    first
    | with_reducible first | assumption | intro _ | apply keeps_ite | apply ctxCtrl_keeps | apply modOp_keeps | apply each_keeps | exact partsIn_trans (by decide) hk₀
    | dsimp only
    | split

theorem exchCheck_keeps {ps : List Piece} {x o : Nat} {s₀ s : Sw} (hk₀ : partsIn parts58 ps = true) (h₀ : Sw.keeps ps s₀ s) :
    Sw.keeps ps s₀ (exchCheck x o s) := by
  unfold exchCheck
  repeat'
    first
    | with_reducible first | assumption | intro _ | apply keeps_ite | apply storeComplete_keeps | exact partsIn_trans (by decide) hk₀
    | dsimp only
    | split

theorem enterJoined_keeps {ps : List Piece} {x o : Nat} {s₀ s : Sw} (hk₀ : partsIn parts62 ps = true) (h₀ : Sw.keeps ps s₀ s) :
    Sw.keeps ps s₀ (enterJoined x o s) := by
  unfold enterJoined
  repeat'
    first
    | with_reducible first | assumption | intro _ | apply keeps_ite | apply earlyKnown_keeps | apply endCheck_keeps | apply exchCheck_keeps | apply gatherEmit_keeps | apply graftRelease_keeps | apply lateLaunch_keeps | apply progress_keeps | apply tellJoined_keeps | apply modOp_keeps | apply each_keeps | exact partsIn_trans (by decide) hk₀
    | dsimp only
    | split

theorem rootJoined_keeps {ps : List Piece} {x o : Nat} {s₀ s : Sw} (hk₀ : partsIn parts62 ps = true) (h₀ : Sw.keeps ps s₀ s) :
    Sw.keeps ps s₀ (rootJoined x o s) := by
  unfold rootJoined
  repeat'
    first
    | with_reducible first | assumption | intro _ | apply keeps_ite | apply enterJoined_keeps | apply finishOp_keeps | apply modOp_keeps | exact partsIn_trans (by decide) hk₀
    | dsimp only
    | split

theorem joinGo_keeps {ps : List Piece} {x o : Nat} {s₀ s : Sw} (hk₀ : partsIn parts62 ps = true) (h₀ : Sw.keeps ps s₀ s) :
    Sw.keeps ps s₀ (joinGo x o s) := by
  unfold joinGo
  repeat'
    first
    | with_reducible first | assumption | intro _ | apply keeps_ite | apply countsCheck_keeps | apply grantOp_keeps | apply resolveGather_keeps | apply rootJoined_keeps | apply sendUpJoin_keeps | exact partsIn_trans (by decide) hk₀
    | dsimp only
    | split

theorem countsArrive_keeps {ps : List Piece} {x q : Nat} {c : Cell} {fromAbove : Bool} {s₀ s : Sw} (hk₀ : partsIn parts62 ps = true) (h₀ : Sw.keeps ps s₀ s) :
    Sw.keeps ps s₀ (countsArrive x q c fromAbove s) := by
  unfold countsArrive
  repeat'
    first
    | with_reducible first | assumption | intro _ | apply keeps_ite | apply forwardCounts_keeps | apply joinGo_keeps | apply routeCounts_keeps | apply setCtx_keeps | exact partsIn_trans (by decide) hk₀
    | dsimp only
    | split

theorem replayCounts_keeps {ps : List Piece} {x o : Nat} {s₀ s : Sw} (hk₀ : partsIn parts62 ps = true) (h₀ : Sw.keeps ps s₀ s) :
    Sw.keeps ps s₀ (replayCounts x o s) := by
  unfold replayCounts
  repeat'
    first
    | with_reducible first | assumption | intro _ | apply keeps_ite | apply joinGo_keeps | apply takeCounts_keeps | apply setCtx_keeps | apply each_keeps | exact partsIn_trans (by decide) hk₀
    | dsimp only
    | split

theorem acceptJoin_keeps {ps : List Piece} {x o q : Nat} {h : Child} {j : JoinBody} {s₀ s : Sw} (hk₀ : partsIn parts62 ps = true) (h₀ : Sw.keeps ps s₀ s) :
    Sw.keeps ps s₀ (acceptJoin x o q h j s) := by
  unfold acceptJoin
  repeat'
    first
    | with_reducible first | assumption | intro _ | apply keeps_ite | apply clearStall_keeps | apply ctxCtrl_keeps | apply failHere_keeps | apply grantOp_keeps | apply joinGo_keeps | apply routeCounts_keeps | apply tellJoined_keeps | apply modOp_keeps | exact partsIn_trans (by decide) hk₀
    | dsimp only
    | split

theorem judgeJoin_keeps {ps : List Piece} {x o q : Nat} {h : Child} {backup : Bool} {c0 : Cell} {s₀ s : Sw} (hk₀ : partsIn parts62 ps = true) (h₀ : Sw.keeps ps s₀ s) :
    Sw.keeps ps s₀ (judgeJoin x o q h backup c0 s) := by
  unfold judgeJoin
  repeat'
    first
    | with_reducible first | assumption | intro _ | apply keeps_ite | apply acceptJoin_keeps | apply failHere_keeps | apply joinReject_keeps | apply openOp_keeps | apply raiseCtx_keeps | apply replayCounts_keeps | exact partsIn_trans (by decide) hk₀
    | dsimp only
    | split

theorem joinArrive_keeps {ps : List Piece} {x q : Nat} {c0 : Cell} {s₀ s : Sw} (hk₀ : partsIn parts62 ps = true) (h₀ : Sw.keeps ps s₀ s) :
    Sw.keeps ps s₀ (joinArrive x q c0 s) := by
  unfold joinArrive
  repeat'
    first
    | with_reducible first | assumption | intro _ | apply keeps_ite | apply joinReject_keeps | apply judgeJoin_keeps | apply tellEnd_keeps | apply modCtx_keeps | exact partsIn_trans (by decide) hk₀
    | dsimp only
    | split

/-! ### Settle -/

theorem unmapCtx_keeps {ps : List Piece} {x : Nat} {s₀ s : Sw} (hk₀ : partsIn [.portMap] ps = true) (h₀ : Sw.keeps ps s₀ s) :
    Sw.keeps ps s₀ (unmapCtx x s) := by
  unfold unmapCtx
  repeat'
    first
    | with_reducible first | assumption | intro _ | apply keeps_ite | apply mapPorts_keeps | exact partsIn_trans (by decide) hk₀
    | exact Or.inr (fun _ => rfl)
    | exact Or.inl (partsIn_mem hk₀ (by decide))
    | exact Or.inr (fun p => by dsimp only; (repeat' split) <;> rfl)

theorem mapCtx_keeps {ps : List Piece} {x : Nat} {k : Canopy} {s₀ s : Sw} (hk₀ : partsIn [.portMap] ps = true) (h₀ : Sw.keeps ps s₀ s) :
    Sw.keeps ps s₀ (mapCtx x k s) := by
  unfold mapCtx
  repeat'
    first
    | with_reducible first | assumption | intro _ | apply keeps_ite | apply mapEntry_keeps | apply each_keeps | exact partsIn_trans (by decide) hk₀
    | dsimp only
    | split

theorem unbindSeedling_keeps {ps : List Piece} {s₀ s : Sw} (hk₀ : partsIn [.portMap] ps = true) (h₀ : Sw.keeps ps s₀ s) :
    Sw.keeps ps s₀ (unbindSeedling s) := by
  unfold unbindSeedling
  repeat'
    first
    | with_reducible first | assumption | intro _ | apply keeps_ite | apply mapPorts_keeps | exact partsIn_trans (by decide) hk₀
    | exact Or.inr (fun _ => rfl)
    | exact Or.inl (partsIn_mem hk₀ (by decide))
    | exact Or.inr (fun p => by dsimp only; (repeat' split) <;> rfl)

theorem freeCtx_keeps {ps : List Piece} {x : Nat} {s₀ s : Sw} (hk₀ : partsIn parts52 ps = true) (h₀ : Sw.keeps ps s₀ s) :
    Sw.keeps ps s₀ (freeCtx x s) := by
  unfold freeCtx
  repeat'
    first
    | with_reducible first | assumption | intro _ | apply keeps_ite | apply complete_keeps | apply completeOpt_keeps | apply poolFreeCtx_keeps | apply unbindSeedling_keeps | apply unmapCtx_keeps | apply modJob_keeps | apply modCtxs_keeps | apply each_keeps | exact partsIn_trans (by decide) hk₀
    | dsimp only
    | split

theorem closeCheck_keeps {ps : List Piece} {x : Nat} {s₀ s : Sw} (hk₀ : partsIn parts52 ps = true) (h₀ : Sw.keeps ps s₀ s) :
    Sw.keeps ps s₀ (closeCheck x s) := by
  unfold closeCheck
  repeat'
    first
    | with_reducible first | assumption | intro _ | apply keeps_ite | apply freeCtx_keeps | exact partsIn_trans (by decide) hk₀
    | dsimp only
    | split

theorem retile_keeps {ps : List Piece} {x : Nat} {s₀ s : Sw} (hk₀ : partsIn parts31 ps = true) (h₀ : Sw.keeps ps s₀ s) :
    Sw.keeps ps s₀ (retile x s) := by
  unfold retile
  repeat'
    first
    | with_reducible first | assumption | intro _ | apply keeps_ite | (apply takePlaces_keeps; assumption) | apply poolFreeIf_keeps | apply setCtx_keeps | apply modCtx_keeps | exact partsIn_trans (by decide) hk₀
    | dsimp only
    | split

theorem rejoin_keeps {ps : List Piece} {x : Nat} {s₀ s : Sw} (hk₀ : partsIn parts62 ps = true) (h₀ : Sw.keeps ps s₀ s) :
    Sw.keeps ps s₀ (rejoin x s) := by
  unfold rejoin
  repeat'
    first
    | with_reducible first | assumption | intro _ | apply keeps_ite | apply joinArrive_keeps | apply setCtx_keeps | apply each_keeps | exact partsIn_trans (by decide) hk₀
    | dsimp only
    | split

theorem pathEvent_keeps {ps : List Piece} {x q what : Nat} {s₀ s : Sw} (hk₀ : partsIn [.evqs, .msix, .outs] ps = true) (h₀ : Sw.keeps ps s₀ s) :
    Sw.keeps ps s₀ (pathEvent x q what s) := by
  unfold pathEvent
  repeat'
    first
    | with_reducible first | assumption | intro _ | apply keeps_ite | apply raiseCtx_keeps

theorem pathDisturbed_keeps {ps : List Piece} {x q : Nat} {s₀ s : Sw} (hk₀ : partsIn parts58 ps = true) (h₀ : Sw.keeps ps s₀ s) :
    Sw.keeps ps s₀ (pathDisturbed x q s) := by
  unfold pathDisturbed
  repeat'
    first
    | with_reducible first | assumption | intro _ | apply keeps_ite | apply failHere_keeps | apply pathEvent_keeps | apply setCtx_keeps | apply each_keeps | exact partsIn_trans (by decide) hk₀
    | dsimp only
    | split

theorem parentCheck_keeps {ps : List Piece} {x : Nat} {s₀ s : Sw} (hk₀ : partsIn parts58 ps = true) (h₀ : Sw.keeps ps s₀ s) :
    Sw.keeps ps s₀ (parentCheck x s) := by
  unfold parentCheck
  repeat'
    first
    | with_reducible first | assumption | intro _ | apply keeps_ite | apply pathDisturbed_keeps | exact partsIn_trans (by decide) hk₀
    | dsimp only
    | split

theorem recanopyCheck_keeps {ps : List Piece} {x : Nat} {s₀ s : Sw} (hk₀ : partsIn [.evTimes, .wear, .time, .rings, .evqs, .jobs, .flags, .msix, .portMap, .portCnt, .portQ, .tiles, .hbm, .pool, .ctxs, .rcv, .outs, .freeCtr] ps = true) (h₀ : Sw.keeps ps s₀ s) :
    Sw.keeps ps s₀ (recanopyCheck x s) := by
  unfold recanopyCheck
  repeat'
    first
    | with_reducible first | assumption | intro _ | apply keeps_ite | apply mapCtx_keeps | apply parentCheck_keeps | apply raiseCtx_keeps | apply rejoin_keeps | apply sendBound_keeps | apply unmapCtx_keeps | apply modCtx_keeps | apply each_keeps | exact partsIn_trans (by decide) hk₀
    | dsimp only
    | split

theorem reshardCheck_keeps {ps : List Piece} {x : Nat} {s₀ s : Sw} (hk₀ : partsIn [.evTimes, .wear, .time, .rings, .evqs, .jobs, .flags, .msix, .portCnt, .portQ, .tiles, .hbm, .cxl, .pool, .ctxs, .rcv, .migQueues, .outs, .freeCtr] ps = true) (h₀ : Sw.keeps ps s₀ s) :
    Sw.keeps ps s₀ (reshardCheck x s) := by
  unfold reshardCheck
  repeat'
    first
    | with_reducible first | assumption | intro _ | apply keeps_ite | apply emptyShard_keeps | apply joinArrive_keeps | apply raiseCtx_keeps | apply retile_keeps | apply modCtx_keeps | apply each_keeps | exact partsIn_trans (by decide) hk₀
    | dsimp only
    | split

theorem freeRecords_keeps {ps : List Piece} {x : Nat} {s₀ s : Sw} (hk₀ : partsIn parts20 ps = true) (h₀ : Sw.keeps ps s₀ s) :
    Sw.keeps ps s₀ (freeRecords x s) := by
  unfold freeRecords
  repeat'
    first
    | with_reducible first | assumption | intro _ | apply keeps_ite | apply poolFreeOp_keeps | apply setCtx_keeps | apply each_keeps | exact partsIn_trans (by decide) hk₀
    | dsimp only
    | split

theorem settleOps_keeps {ps : List Piece} {x : Nat} {s₀ s : Sw} (hk₀ : partsIn parts62 ps = true) (h₀ : Sw.keeps ps s₀ s) :
    Sw.keeps ps s₀ (settleOps x s) := by
  unfold settleOps
  repeat'
    first
    | with_reducible first | assumption | intro _ | apply keeps_ite | apply deliveredCheck_keeps | apply exchCheck_keeps | apply failOp_keeps | apply joinGo_keeps | apply progress_keeps | apply raiseCtx_keeps | apply each_keeps | exact partsIn_trans (by decide) hk₀
    | dsimp only
    | split

theorem graftServe_keeps {ps : List Piece} {x : Nat} {s₀ s : Sw} (hk₀ : partsIn parts40 ps = true) (h₀ : Sw.keeps ps s₀ s) :
    Sw.keeps ps s₀ (graftServe x s) := by
  unfold graftServe
  repeat'
    first
    | with_reducible first | assumption | intro _ | apply keeps_ite | apply serveAnchors_keeps | exact partsIn_trans (by decide) hk₀
    | dsimp only
    | split

theorem settle_keeps {ps : List Piece} {x : Nat} {s₀ s : Sw} (hk₀ : partsIn parts63 ps = true) (h₀ : Sw.keeps ps s₀ s) :
    Sw.keeps ps s₀ (settle x s) := by
  unfold settle
  repeat'
    first
    | with_reducible first | assumption | intro _ | apply keeps_ite | apply closeCheck_keeps | apply freeRecords_keeps | apply graftServe_keeps | apply grantCtx_keeps | apply recanopyCheck_keeps | apply releaseCheck_keeps | apply reshardCheck_keeps | apply settleOps_keeps | apply snapCtx_keeps | exact partsIn_trans (by decide) hk₀

theorem settleAll_keeps {ps : List Piece} {s₀ s : Sw} (hk₀ : partsIn parts63 ps = true) (h₀ : Sw.keeps ps s₀ s) :
    Sw.keeps ps s₀ (settleAll s) := by
  unfold settleAll
  repeat'
    first
    | with_reducible first | assumption | intro _ | apply keeps_ite | apply settle_keeps | apply each_keeps

/-! ### Recover -/

theorem sparseResend_keeps {ps : List Piece} {x o q : Nat} {h : Child} {set : Nat} {s₀ s : Sw} (hk₀ : partsIn parts57 ps = true) (h₀ : Sw.keeps ps s₀ s) :
    Sw.keeps ps s₀ (sparseResend x o q h set s) := by
  unfold sparseResend
  repeat'
    first
    | with_reducible first | assumption | intro _ | apply keeps_ite | apply sendWindow_keeps | apply each_keeps | exact partsIn_trans (by decide) hk₀
    | dsimp only
    | split

theorem resend_keeps {ps : List Piece} {x o q set : Nat} {s₀ s : Sw} (hk₀ : partsIn parts60 ps = true) (h₀ : Sw.keeps ps s₀ s) :
    Sw.keeps ps s₀ (resend x o q set s) := by
  unfold resend
  repeat'
    first
    | with_reducible first | assumption | intro _ | apply keeps_ite | apply emit_keeps | apply sparseResend_keeps | apply modCtx_keeps | exact partsIn_trans (by decide) hk₀
    | dsimp only
    | split

theorem pathReturns_keeps {ps : List Piece} {x q : Nat} {s₀ s : Sw} (hk₀ : partsIn parts53 ps = true) (h₀ : Sw.keeps ps s₀ s) :
    Sw.keeps ps s₀ (pathReturns x q s) := by
  unfold pathReturns
  repeat'
    first
    | with_reducible first | assumption | intro _ | apply keeps_ite | apply ctxCtrl_keeps | apply ctxSend_keeps | apply pathEvent_keeps | apply trigger_keeps | apply setCtx_keeps | apply each_keeps | exact partsIn_trans (by decide) hk₀
    | dsimp only
    | split

theorem pathCheck_keeps {ps : List Piece} {x : Nat} {s₀ s : Sw} (hk₀ : partsIn parts53 ps = true) (h₀ : Sw.keeps ps s₀ s) :
    Sw.keeps ps s₀ (pathCheck x s) := by
  unfold pathCheck
  repeat'
    first
    | with_reducible first | assumption | intro _ | apply keeps_ite | apply pathReturns_keeps | apply each_keeps | exact partsIn_trans (by decide) hk₀
    | dsimp only
    | split

theorem ctxPortDown_keeps {ps : List Piece} {n x : Nat} {s₀ s : Sw} (hk₀ : partsIn parts63 ps = true) (h₀ : Sw.keeps ps s₀ s) :
    Sw.keeps ps s₀ (ctxPortDown n x s) := by
  unfold ctxPortDown
  repeat'
    first
    | with_reducible first | assumption | intro _ | apply keeps_ite | apply copyTimeout_keeps | apply pathDisturbed_keeps | apply raiseCtx_keeps | apply settle_keeps | apply takeBackup_keeps | apply modCtx_keeps | apply modStore_keeps | apply each_keeps | exact partsIn_trans (by decide) hk₀
    | dsimp only
    | split

theorem ctxPortUp_keeps {ps : List Piece} {n x : Nat} {s₀ s : Sw} (hk₀ : partsIn parts63 ps = true) (h₀ : Sw.keeps ps s₀ s) :
    Sw.keeps ps s₀ (ctxPortUp n x s) := by
  unfold ctxPortUp
  repeat'
    first
    | with_reducible first | assumption | intro _ | apply keeps_ite | apply moveImage_keeps | apply pathCheck_keeps | apply resend_keeps | apply sendBound_keeps | apply settle_keeps | apply trigger_keeps | apply modCtx_keeps | apply each_keeps | exact partsIn_trans (by decide) hk₀
    | dsimp only
    | split

theorem portDownCtxs_keeps {ps : List Piece} {n : Nat} {s₀ s : Sw} (hk₀ : partsIn parts63 ps = true) (h₀ : Sw.keeps ps s₀ s) :
    Sw.keeps ps s₀ (portDownCtxs n s) := by
  unfold portDownCtxs
  repeat'
    first
    | with_reducible first | assumption | intro _ | apply keeps_ite | apply ctxPortDown_keeps | apply each_keeps

theorem portUpCtxs_keeps {ps : List Piece} {n : Nat} {s₀ s : Sw} (hk₀ : partsIn parts63 ps = true) (h₀ : Sw.keeps ps s₀ s) :
    Sw.keeps ps s₀ (portUpCtxs n s) := by
  unfold portUpCtxs
  repeat'
    first
    | with_reducible first | assumption | intro _ | apply keeps_ite | apply ctxPortUp_keeps | apply modCtx_keeps | apply each_keeps | exact partsIn_trans (by decide) hk₀

theorem tellLost_keeps {ps : List Piece} {x o : Nat} {h : Child} {s₀ s : Sw} (hk₀ : partsIn parts53 ps = true) (h₀ : Sw.keeps ps s₀ s) :
    Sw.keeps ps s₀ (tellLost x o h s) := by
  unfold tellLost
  repeat'
    first
    | with_reducible first | assumption | intro _ | apply keeps_ite | apply tellEnd_keeps

/-! ### Abort -/

theorem tellDecision_keeps {ps : List Piece} {x o status chunks : Nat} {s₀ s : Sw} (hk₀ : partsIn parts53 ps = true) (h₀ : Sw.keeps ps s₀ s) :
    Sw.keeps ps s₀ (tellDecision x o status chunks s) := by
  unfold tellDecision
  repeat'
    first
    | with_reducible first | assumption | intro _ | apply keeps_ite | apply ctxCtrl_keeps | apply each_keeps | exact partsIn_trans (by decide) hk₀
    | dsimp only
    | split

theorem endFromRoot_keeps {ps : List Piece} {x o status chunks : Nat} {s₀ s : Sw} (hk₀ : partsIn parts58 ps = true) (h₀ : Sw.keeps ps s₀ s) :
    Sw.keeps ps s₀ (endFromRoot x o status chunks s) := by
  unfold endFromRoot
  repeat'
    first
    | with_reducible first | assumption | intro _ | apply keeps_ite | apply dropWork_keeps | apply endAborts_keeps | apply gradUndo_keeps | apply opComplete_keeps | apply poolUnwait_keeps | apply releaseGather_keeps | apply sendComplete_keeps | apply modOp_keeps | exact partsIn_trans (by decide) hk₀

theorem endUnopened_keeps {ps : List Piece} {x o status : Nat} {s₀ s : Sw} (hk₀ : partsIn parts53 ps = true) (h₀ : Sw.keeps ps s₀ s) :
    Sw.keeps ps s₀ (endUnopened x o status s) := by
  unfold endUnopened
  repeat'
    first
    | with_reducible first | assumption | intro _ | apply keeps_ite | apply dropReq_keeps | apply sendComplete_keeps | apply setCtx_keeps | exact partsIn_trans (by decide) hk₀
    | dsimp only
    | split

theorem abortedHere_keeps {ps : List Piece} {x o requester chunks : Nat} {s₀ s : Sw} (hk₀ : partsIn parts58 ps = true) (h₀ : Sw.keeps ps s₀ s) :
    Sw.keeps ps s₀ (abortedHere x o requester chunks s) := by
  unfold abortedHere
  repeat'
    first
    | with_reducible first | assumption | intro _ | apply keeps_ite | apply endFromRoot_keeps | apply endUnopened_keeps | apply raiseCtx_keeps | exact partsIn_trans (by decide) hk₀
    | dsimp only
    | split

theorem answerAbort_keeps {ps : List Piece} {x o requester status : Nat} {s₀ s : Sw} (hk₀ : partsIn parts53 ps = true) (h₀ : Sw.keeps ps s₀ s) :
    Sw.keeps ps s₀ (answerAbort x o requester status s) := by
  unfold answerAbort
  repeat'
    first
    | with_reducible first | assumption | intro _ | apply keeps_ite | apply ctxCtrl_keeps | exact partsIn_trans (by decide) hk₀
    | dsimp only
    | split

theorem rootDecides_keeps {ps : List Piece} {x o requester status chunks : Nat} {s₀ s : Sw} (hk₀ : partsIn parts58 ps = true) (h₀ : Sw.keeps ps s₀ s) :
    Sw.keeps ps s₀ (rootDecides x o requester status chunks s) := by
  unfold rootDecides
  repeat'
    first
    | with_reducible first | assumption | intro _ | apply keeps_ite | apply abortedHere_keeps | apply answerAbort_keeps | apply endAborts_keeps | apply tellDecision_keeps | exact partsIn_trans (by decide) hk₀

theorem commitTile_keeps {ps : List Piece} {x o requester : Nat} {down : Bool} {s₀ s : Sw} (hk₀ : partsIn parts58 ps = true) (h₀ : Sw.keeps ps s₀ s) :
    Sw.keeps ps s₀ (commitTile x o requester down s) := by
  unfold commitTile
  repeat'
    first
    | with_reducible first | assumption | intro _ | apply keeps_ite | apply abortedHere_keeps | apply answerAbort_keeps | apply ctxCtrl_keeps | apply rootDecides_keeps | exact partsIn_trans (by decide) hk₀
    | dsimp only
    | split

theorem rootRequest_keeps {ps : List Piece} {x o requester : Nat} {s₀ s : Sw} (hk₀ : partsIn parts58 ps = true) (h₀ : Sw.keeps ps s₀ s) :
    Sw.keeps ps s₀ (rootRequest x o requester s) := by
  unfold rootRequest
  repeat'
    first
    | with_reducible first | assumption | intro _ | apply keeps_ite | apply answerAbort_keeps | apply commitTile_keeps | apply ctxCtrl_keeps | apply rootDecides_keeps | exact partsIn_trans (by decide) hk₀
    | dsimp only
    | split

theorem requestAbort_keeps {ps : List Piece} {x o requester : Nat} {s₀ s : Sw} (hk₀ : partsIn parts58 ps = true) (h₀ : Sw.keeps ps s₀ s) :
    Sw.keeps ps s₀ (requestAbort x o requester s) := by
  unfold requestAbort
  repeat'
    first
    | with_reducible first | assumption | intro _ | apply keeps_ite | apply ctxCtrl_keeps | apply rootRequest_keeps | apply modOp_keeps | exact partsIn_trans (by decide) hk₀
    | dsimp only
    | split

theorem abortAll_keeps {ps : List Piece} {x : Nat} {s₀ s : Sw} (hk₀ : partsIn parts58 ps = true) (h₀ : Sw.keeps ps s₀ s) :
    Sw.keeps ps s₀ (abortAll x s) := by
  unfold abortAll
  repeat'
    first
    | with_reducible first | assumption | intro _ | apply keeps_ite | apply requestAbort_keeps | apply each_keeps | exact partsIn_trans (by decide) hk₀
    | dsimp only
    | split

theorem abortArrive_keeps {ps : List Piece} {x q : Nat} {c : Cell} {s₀ s : Sw} (hk₀ : partsIn parts63 ps = true) (h₀ : Sw.keeps ps s₀ s) :
    Sw.keeps ps s₀ (abortArrive x q c s) := by
  unfold abortArrive
  repeat'
    first
    | with_reducible first | assumption | intro _ | apply keeps_ite | apply abortedHere_keeps | apply answerAbort_keeps | apply commitTile_keeps | apply ctxCtrl_keeps | apply endAborts_keeps | apply requestAbort_keeps | apply rootDecides_keeps | apply settle_keeps | apply tellDecision_keeps | exact partsIn_trans (by decide) hk₀
    | dsimp only
    | split

theorem lossOf_keeps {ps : List Piece} {n x : Nat} {s₀ s : Sw} (hk₀ : partsIn parts63 ps = true) (h₀ : Sw.keeps ps s₀ s) :
    Sw.keeps ps s₀ (lossOf n x s) := by
  unfold lossOf
  repeat'
    first
    | with_reducible first | assumption | intro _ | apply keeps_ite | apply settle_keeps | apply out_keeps | apply modCtx_keeps | exact partsIn_trans (by decide) hk₀
    | dsimp only
    | split

/-! ### Age -/

theorem modEntry_keeps {ps : List Piece} {i : Nat} {f : Wear → Wear} {s₀ s : Sw} (hk₀ : partsIn [.wear] ps = true) (h₀ : Sw.keeps ps s₀ s) :
    Sw.keeps ps s₀ (Sw.modEntry i f s) := by
  unfold Sw.modEntry
  repeat'
    first
    | with_reducible first | assumption | intro _ | apply keeps_ite | apply modWear_keeps

theorem wearRestart_keeps {ps : List Piece} {i cause : Nat} {s₀ s : Sw} (hk₀ : partsIn parts16 ps = true) (h₀ : Sw.keeps ps s₀ s) :
    Sw.keeps ps s₀ (wearRestart i cause s) := by
  unfold wearRestart
  repeat'
    first
    | with_reducible first | assumption | intro _ | apply keeps_ite | apply modEntry_keeps | apply raiseSys_keeps | exact partsIn_trans (by decide) hk₀

/-! ### Clock -/

theorem countDiscard_keeps {ps : List Piece} {offset cause : Nat} {s₀ s : Sw} (hk₀ : partsIn [.glb] ps = true) (h₀ : Sw.keeps ps s₀ s) :
    Sw.keeps ps s₀ (countDiscard offset cause s) := by
  unfold countDiscard
  repeat'
    first
    | with_reducible first | assumption | intro _ | apply keeps_ite | apply evTimes_keeps | apply modGlb_keeps | exact partsIn_trans (by decide) hk₀
    | exact fun _ => rfl
    | dsimp only

theorem regDiscard_keeps {ps : List Piece} {func offset value cause : Nat} {s₀ s : Sw} (hk₀ : partsIn parts22 ps = true) (h₀ : Sw.keeps ps s₀ s) :
    Sw.keeps ps s₀ (regDiscard func offset value cause s) := by
  unfold regDiscard
  repeat'
    first
    | with_reducible first | assumption | intro _ | apply keeps_ite | apply countDiscard_keeps | apply raiseSys_keeps | apply modHost_keeps | exact partsIn_trans (by decide) hk₀
    | exact Or.inr (fun _ => rfl)
    | exact Or.inl (partsIn_mem hk₀ (by decide))

theorem setGtc16_keeps {ps : List Piece} {v : Int} {s₀ s : Sw} (hk₀ : partsIn [.time] ps = true) (h₀ : Sw.keeps ps s₀ s) :
    Sw.keeps ps s₀ (setGtc16 v s) := by
  unfold setGtc16
  repeat'
    first
    | with_reducible first | assumption | intro _ | apply keeps_ite | apply modTime_keeps

theorem toTick_keeps {ps : List Piece} {k : Nat} {past : Option Quad} {s₀ s : Sw} (hk₀ : partsIn [.time] ps = true) (h₀ : Sw.keeps ps s₀ s) :
    Sw.keeps ps s₀ (toTick k past s) := by
  unfold toTick
  repeat'
    first
    | with_reducible first | assumption | intro _ | apply keeps_ite | apply modTime_keeps

theorem reselect_keeps {ps : List Piece} {cause : Nat} {old : List Byte} {s₀ s : Sw} (hk₀ : partsIn parts37 ps = true) (h₀ : Sw.keeps ps s₀ s) :
    Sw.keeps ps s₀ (reselect cause old s) := by
  unfold reselect
  repeat'
    first
    | with_reducible first | assumption | intro _ | apply keeps_ite | apply raiseSys_keeps | apply modTime_keeps | apply modSync_keeps | apply draw_keeps | exact partsIn_trans (by decide) hk₀
    | dsimp only
    | split

theorem reselectNow_keeps {ps : List Piece} {s₀ s : Sw} (hk₀ : partsIn parts37 ps = true) (h₀ : Sw.keeps ps s₀ s) :
    Sw.keeps ps s₀ (reselectNow s) := by
  unfold reselectNow
  repeat'
    first
    | with_reducible first | assumption | intro _ | apply keeps_ite | apply reselect_keeps

theorem dropAnnounce_keeps {ps : List Piece} {p cause : Nat} {s₀ s : Sw} (hk₀ : partsIn parts37 ps = true) (h₀ : Sw.keeps ps s₀ s) :
    Sw.keeps ps s₀ (dropAnnounce p cause s) := by
  unfold dropAnnounce
  repeat'
    first
    | with_reducible first | assumption | intro _ | apply keeps_ite | apply reselect_keeps | apply modSync_keeps | exact partsIn_trans (by decide) hk₀

theorem offsetMeasured_keeps {ps : List Piece} {off : Int} {s₀ s : Sw} (hk₀ : partsIn [.time, .sync, .evqs, .msix, .outs] ps = true) (h₀ : Sw.keeps ps s₀ s) :
    Sw.keeps ps s₀ (offsetMeasured off s) := by
  unfold offsetMeasured
  repeat'
    first
    | with_reducible first | assumption | intro _ | apply keeps_ite | apply raiseSys_keeps | apply setGtc16_keeps | apply modTime_keeps | apply modSync_keeps | exact partsIn_trans (by decide) hk₀
    | dsimp only
    | split

theorem inputEvent_keeps {ps : List Piece} {what bad : Nat} {s₀ s : Sw} (hk₀ : partsIn [.evqs, .msix, .outs] ps = true) (h₀ : Sw.keeps ps s₀ s) :
    Sw.keeps ps s₀ (inputEvent what bad s) := by
  unfold inputEvent
  repeat'
    first
    | with_reducible first | assumption | intro _ | apply keeps_ite | apply raiseSys_keeps

theorem inputInvalid_keeps {ps : List Piece} {s₀ s : Sw} (hk₀ : partsIn parts37 ps = true) (h₀ : Sw.keeps ps s₀ s) :
    Sw.keeps ps s₀ (inputInvalid s) := by
  unfold inputInvalid
  repeat'
    first
    | with_reducible first | assumption | intro _ | apply keeps_ite | apply inputEvent_keeps | apply reselect_keeps | apply modSync_keeps | exact partsIn_trans (by decide) hk₀

theorem timeArrive_keeps {ps : List Piece} {p : Nat} {f : Cell → Sw → Sw} {oc : Option Cell} {s₀ s : Sw} (hk₀ : partsIn parts18 ps = true) (hf : ∀ x0 a s, Sw.keeps ps a s → Sw.keeps ps a (f x0 s)) (h₀ : Sw.keeps ps s₀ s) :
    Sw.keeps ps s₀ (timeArrive p f oc s) := by
  unfold timeArrive
  repeat'
    first
    | with_reducible first | assumption | intro _ | apply keeps_ite | apply raiseSys_keeps | apply modCnt_keeps | apply limited_keeps | apply hf | exact partsIn_trans (by decide) hk₀
    | dsimp only
    | split

/-! ### Flip -/

theorem announceOn_keeps {ps : List Piece} {n : Nat} {s₀ s : Sw} (hk₀ : partsIn parts32 ps = true) (h₀ : Sw.keeps ps s₀ s) :
    Sw.keeps ps s₀ (announceOn n s) := by
  unfold announceOn
  repeat'
    first
    | with_reducible first | assumption | intro _ | apply keeps_ite | apply sendCtrl_keeps

theorem announceAll_keeps {ps : List Piece} {s₀ s : Sw} (hk₀ : partsIn parts32 ps = true) (h₀ : Sw.keeps ps s₀ s) :
    Sw.keeps ps s₀ (announceAll s) := by
  unfold announceAll
  repeat'
    first
    | with_reducible first | assumption | intro _ | apply keeps_ite | apply announceOn_keeps | apply each_keeps

theorem flipExchanges_keeps {ps : List Piece} {x : Nat} {s₀ s : Sw} (hk₀ : partsIn parts58 ps = true) (h₀ : Sw.keeps ps s₀ s) :
    Sw.keeps ps s₀ (flipExchanges x s) := by
  unfold flipExchanges
  repeat'
    first
    | with_reducible first | assumption | intro _ | apply keeps_ite | apply failHere_keeps | apply each_keeps | exact partsIn_trans (by decide) hk₀
    | dsimp only
    | split

theorem flipCtx_keeps {ps : List Piece} {loss : Bool} {x : Nat} {s₀ s : Sw} (hk₀ : partsIn parts63 ps = true) (h₀ : Sw.keeps ps s₀ s) :
    Sw.keeps ps s₀ (flipCtx loss x s) := by
  unfold flipCtx
  repeat'
    first
    | with_reducible first | assumption | intro _ | apply keeps_ite | apply flipExchanges_keeps | apply pathCheck_keeps | apply pathDisturbed_keeps | apply settle_keeps | apply each_keeps | exact partsIn_trans (by decide) hk₀
    | dsimp only
    | split

theorem flip_keeps {ps : List Piece} {src cause : Nat} {lostId fgtc : Quad} {noprop : Bool} {s₀ s : Sw} (hk₀ : partsIn parts65 ps = true) (h₀ : Sw.keeps ps s₀ s) :
    Sw.keeps ps s₀ (flip src cause lostId fgtc noprop s) := by
  unfold flip
  repeat'
    first
    | with_reducible first | assumption | intro _ | apply keeps_ite | apply modVer_keeps | apply announceAll_keeps | apply completeOpt_keeps | apply flipCtx_keeps | apply raiseSys_keeps | apply sendCtrl_keeps | apply trigger_keeps | apply modFab_keeps | apply out_keeps | apply each_keeps | exact partsIn_trans (by decide) hk₀
    | dsimp only
    | split

theorem flipOnLoss_keeps {ps : List Piece} {n : Nat} {s₀ s : Sw} (hk₀ : partsIn parts65 ps = true) (h₀ : Sw.keeps ps s₀ s) :
    Sw.keeps ps s₀ (flipOnLoss n s) := by
  unfold flipOnLoss
  repeat'
    first
    | with_reducible first | assumption | intro _ | apply keeps_ite | apply flip_keeps

/-! ### Link -/

theorem modLanes_keeps {ps : List Piece} {n : Nat} {f : Lane → Lane} {s₀ s : Sw} (hk₀ : partsIn [.lanes] ps = true) (h₀ : Sw.keeps ps s₀ s) :
    Sw.keeps ps s₀ (modLanes n f s) := by
  unfold modLanes
  repeat'
    first
    | with_reducible first | assumption | intro _ | apply keeps_ite | apply modLane_keeps | apply each_keeps

theorem pushPortLayer_keeps {ps : List Piece} {n : Nat} {c : Cell} {s₀ s : Sw} (hk₀ : partsIn [.portQ] ps = true) (h₀ : Sw.keeps ps s₀ s) :
    Sw.keeps ps s₀ (pushPortLayer n c s) := by
  unfold pushPortLayer
  repeat'
    first
    | with_reducible first | assumption | intro _ | apply keeps_ite | apply pushTx_keeps

theorem sendLinkId_keeps {ps : List Piece} {n : Nat} {s₀ s : Sw} (hk₀ : partsIn [.portLink, .portQ, .freeCtr] ps = true) (h₀ : Sw.keeps ps s₀ s) :
    Sw.keeps ps s₀ (sendLinkId n s) := by
  unfold sendLinkId
  repeat'
    first
    | with_reducible first | assumption | intro _ | apply keeps_ite | apply pushPortLayer_keeps | apply modLink_keeps | apply draw_keeps | exact partsIn_trans (by decide) hk₀

theorem owesLinkDown_keeps {ps : List Piece} {n reason : Nat} {s₀ s : Sw} (hk₀ : partsIn [.portLink] ps = true) (h₀ : Sw.keeps ps s₀ s) :
    Sw.keeps ps s₀ (owesLinkDown n reason s) := by
  unfold owesLinkDown
  repeat'
    first
    | with_reducible first | assumption | intro _ | apply keeps_ite | apply modLink_keeps

theorem lostMark_keeps {ps : List Piece} {sent : Bool} {m : Mark} {s₀ s : Sw} (hk₀ : partsIn [.ctxs] ps = true) (h₀ : Sw.keeps ps s₀ s) :
    Sw.keeps ps s₀ (lostMark sent m s) := by
  unfold lostMark
  repeat'
    first
    | with_reducible first | assumption | intro _ | apply keeps_ite | apply modCtx_keeps | apply modOp_keeps | exact partsIn_trans (by decide) hk₀
    | dsimp only
    | split

theorem dropQueues_keeps {ps : List Piece} {n : Nat} {s₀ s : Sw} (hk₀ : partsIn [.evTimes, .wear, .time, .evqs, .msix, .portCnt, .portLink, .portQ, .tiles, .hbm, .ctxs, .rcv, .outs, .freeCtr] ps = true) (h₀ : Sw.keeps ps s₀ s) :
    Sw.keeps ps s₀ (dropQueues n s).2 := by
  unfold dropQueues
  repeat'
    first
    | with_reducible first | assumption | intro _ | apply keeps_ite | apply dropLost_keeps | apply lostMark_keeps | apply raiseSys_keeps | apply resend_keeps | apply modCnt_keeps | apply modLink_keeps | apply modQ_keeps | apply drawn_keeps | apply each_keeps | exact partsIn_trans (by decide) hk₀

theorem leaveUp_keeps {ps : List Piece} {n : Nat} {s₀ s : Sw} (hk₀ : partsIn [.evTimes, .wear, .time, .sync, .rings, .evqs, .jobs, .flags, .msix, .portReg, .portMap, .portCnt, .portLink, .portQ, .portSec, .tiles, .hbm, .cxl, .pool, .ctxs, .fab, .rcv, .migQueues, .outs, .freeCtr] ps = true) (h₀ : Sw.keeps ps s₀ s) :
    Sw.keeps ps s₀ (leaveUp n s).2 := by
  unfold leaveUp
  repeat'
    first
    | with_reducible first | assumption | intro _ | apply keeps_ite | apply dropAnnounce_keeps | apply dropQueues_keeps | apply flipOnLoss_keeps | apply portDownCtxs_keeps | apply modReg_keeps | apply modPSec_keeps | exact partsIn_trans (by decide) hk₀
    | exact fun _ => rfl
    | (intro; dsimp only; split <;> rfl)
    | dsimp only

theorem setPortSt_keeps {ps : List Piece} {n : Nat} {st : PortSt} {s₀ s : Sw} (hk₀ : partsIn [.portReg, .portLink] ps = true) (h₀ : Sw.keeps ps s₀ s) :
    Sw.keeps ps s₀ (setPortSt n st s) := by
  unfold setPortSt
  repeat'
    first
    | with_reducible first | assumption | intro _ | apply keeps_ite | apply modReg_keeps | apply modLink_keeps | exact partsIn_trans (by decide) hk₀
    | exact fun _ => rfl
    | (intro; dsimp only; split <;> rfl)
    | dsimp only

theorem toSearch_keeps {ps : List Piece} {n : Nat} {s₀ s : Sw} (hk₀ : partsIn [.portReg, .portLink, .portSec, .lanes] ps = true) (h₀ : Sw.keeps ps s₀ s) :
    Sw.keeps ps s₀ (toSearch n s) := by
  unfold toSearch
  repeat'
    first
    | with_reducible first | assumption | intro _ | apply keeps_ite | apply modLanes_keeps | apply setPortSt_keeps | apply modLane_keeps | apply modReg_keeps | apply modLink_keeps | apply modPSec_keeps | apply each_keeps | exact partsIn_trans (by decide) hk₀
    | exact fun _ => rfl
    | (intro; dsimp only; split <;> rfl)
    | dsimp only

theorem splitClear_keeps {ps : List Piece} {q : Nat} {s₀ s : Sw} (hk₀ : partsIn [.portReg, .portLink, .portSec, .quads, .lanes] ps = true) (h₀ : Sw.keeps ps s₀ s) :
    Sw.keeps ps s₀ (splitClear q s) := by
  unfold splitClear
  repeat'
    first
    | with_reducible first | assumption | intro _ | apply keeps_ite | apply modLanes_keeps | apply setPortSt_keeps | apply toSearch_keeps | apply modQuad_keeps | apply modReg_keeps | apply modLink_keeps | apply each_keeps | exact partsIn_trans (by decide) hk₀
    | exact fun _ => rfl
    | (intro; dsimp only; split <;> rfl)
    | dsimp only

theorem toLost_keeps {ps : List Piece} {n reason : Nat} {partner : Option Nat} {down : Option Nat} {s₀ s : Sw} (hk₀ : partsIn parts68 ps = true) (h₀ : Sw.keeps ps s₀ s) :
    Sw.keeps ps s₀ (toLost n reason partner down s) := by
  unfold toLost
  repeat'
    first
    | with_reducible first | assumption | intro _ | apply keeps_ite | apply leaveUp_keeps | apply owesLinkDown_keeps | apply raiseSys_keeps | apply setPortSt_keeps | apply splitClear_keeps | apply modReg_keeps | exact partsIn_trans (by decide) hk₀
    | exact fun _ => rfl
    | (intro; dsimp only; split <;> rfl)
    | dsimp only
    | split

theorem toDark_keeps {ps : List Piece} {n : Nat} {st : PortSt} {reason : Nat} {lost : Nat} {s₀ s : Sw} (hk₀ : partsIn parts68 ps = true) (h₀ : Sw.keeps ps s₀ s) :
    Sw.keeps ps s₀ (toDark n st reason lost s) := by
  unfold toDark
  repeat'
    first
    | with_reducible first | assumption | intro _ | apply keeps_ite | apply leaveUp_keeps | apply modLanes_keeps | apply owesLinkDown_keeps | apply raiseSys_keeps | apply setPortSt_keeps | apply splitClear_keeps | apply modReg_keeps | apply modLink_keeps | exact partsIn_trans (by decide) hk₀
    | exact fun _ => rfl
    | (intro; dsimp only; split <;> rfl)
    | dsimp only

theorem toUp_keeps {ps : List Piece} {n : Nat} {c : Cell} {rtt : Nat} {s₀ s : Sw} (hk₀ : partsIn [.glb, .evTimes, .wear, .time, .rings, .evqs, .jobs, .flags, .msix, .held, .portReg, .portMap, .portCnt, .portLink, .portQ, .portSec, .lanes, .tiles, .hbm, .cxl, .pool, .ctxs, .rcv, .migQueues, .outs, .freeCtr] ps = true) (h₀ : Sw.keeps ps s₀ s) :
    Sw.keeps ps s₀ (toUp n c rtt s) := by
  unfold toUp
  repeat'
    first
    | with_reducible first | assumption | intro _ | apply keeps_ite | apply announceOn_keeps | apply modLanes_keeps | apply portUpCtxs_keeps | apply raiseHeld_keeps | apply raiseSys_keeps | apply resend_keeps | apply sendLinkId_keeps | apply setPortSt_keeps | apply wearRestart_keeps | apply modReg_keeps | apply modLink_keeps | apply modQ_keeps | apply modPSec_keeps | apply evTimes_keeps | apply modGlb_keeps | apply each_keeps | exact partsIn_trans (by decide) hk₀
    | exact fun _ => rfl
    | (intro; dsimp only; split <;> rfl)
    | dsimp only
    | split

theorem toIdentify_keeps {ps : List Piece} {n : Nat} {s₀ s : Sw} (hk₀ : partsIn [.portReg, .portLink, .portQ, .freeCtr] ps = true) (h₀ : Sw.keeps ps s₀ s) :
    Sw.keeps ps s₀ (toIdentify n s) := by
  unfold toIdentify
  repeat'
    first
    | with_reducible first | assumption | intro _ | apply keeps_ite | apply sendLinkId_keeps | apply setPortSt_keeps | apply modReg_keeps | exact partsIn_trans (by decide) hk₀
    | exact fun _ => rfl
    | (intro; dsimp only; split <;> rfl)
    | dsimp only

theorem applySplit_keeps {ps : List Piece} {q mode : Nat} {identify : List Nat} {s₀ s : Sw} (hk₀ : partsIn parts68 ps = true) (h₀ : Sw.keeps ps s₀ s) :
    Sw.keeps ps s₀ (applySplit q mode identify s) := by
  unfold applySplit
  repeat'
    first
    | with_reducible first | assumption | intro _ | apply keeps_ite | apply modLanes_keeps | apply setPortSt_keeps | apply toDark_keeps | apply toIdentify_keeps | apply toSearch_keeps | apply wearRestart_keeps | apply modQuad_keeps | apply modReg_keeps | apply modLink_keeps | apply each_keeps | exact partsIn_trans (by decide) hk₀
    | exact fun _ => rfl
    | (intro; dsimp only; split <;> rfl)
    | dsimp only

theorem splitEvent_keeps {ps : List Piece} {q : Nat} {s₀ s : Sw} (hk₀ : partsIn parts1 ps = true) (h₀ : Sw.keeps ps s₀ s) :
    Sw.keeps ps s₀ (splitEvent q s) := by
  unfold splitEvent
  repeat'
    first
    | with_reducible first | assumption | intro _ | apply keeps_ite | apply raiseSys_keeps | apply limited_keeps | exact partsIn_trans (by decide) hk₀

theorem splitChoose_keeps {ps : List Piece} {q : Nat} {s₀ s : Sw} (hk₀ : partsIn parts68 ps = true) (h₀ : Sw.keeps ps s₀ s) :
    Sw.keeps ps s₀ (splitChoose q s) := by
  unfold splitChoose
  repeat'
    first
    | with_reducible first | assumption | intro _ | apply keeps_ite | apply applySplit_keeps | apply splitEvent_keeps | apply modQuad_keeps | exact partsIn_trans (by decide) hk₀
    | dsimp only
    | split

theorem splitTrial_keeps {ps : List Piece} {q : Nat} {s₀ s : Sw} (hk₀ : partsIn parts68 ps = true) (h₀ : Sw.keeps ps s₀ s) :
    Sw.keeps ps s₀ (splitTrial q s) := by
  unfold splitTrial
  repeat'
    first
    | with_reducible first | assumption | intro _ | apply keeps_ite | apply toDark_keeps | apply toSearch_keeps | apply modQuad_keeps | apply modReg_keeps | apply each_keeps | exact partsIn_trans (by decide) hk₀
    | exact fun _ => rfl
    | (intro; dsimp only; split <;> rfl)
    | dsimp only

theorem enterSearch_keeps {ps : List Piece} {n : Nat} {s₀ s : Sw} (hk₀ : partsIn parts68 ps = true) (h₀ : Sw.keeps ps s₀ s) :
    Sw.keeps ps s₀ (enterSearch n s) := by
  unfold enterSearch
  repeat'
    first
    | with_reducible first | assumption | intro _ | apply keeps_ite | apply applySplit_keeps | apply splitClear_keeps | apply splitTrial_keeps | apply toSearch_keeps | apply modQuad_keeps | exact partsIn_trans (by decide) hk₀

end Sys2Proof.Machine
end

