-- ==== Sys2Proof/Laws/FramePorts.lean ====
section
/-! SUPPORT. Frames of ports, lanes, intake, routing, contexts, stores, tiles and the fabric. A lemma f_keeps says: what was kept so far, f keeps too, where the parts f can
change are among the listed ones. -/
namespace Sys2Proof.Machine

/-! ### Wire -/

theorem transmit_keeps {ps : List Piece} {n : Nat} {f : Frame} {s₀ s : Sw} (hk₀ : partsIn parts69 ps = true) (h₀ : Sw.keeps ps s₀ s) :
    Sw.keeps ps s₀ (transmit n f s) := by
  unfold transmit
  repeat'
    first
    | with_reducible first | assumption | intro _ | apply keeps_ite | apply raiseHeld_keeps | apply toLost_keeps | apply out_keeps | apply modLink_keeps | apply modPSec_keeps | exact partsIn_trans (by decide) hk₀
    | dsimp only
    | split

theorem downFrame_keeps {ps : List Piece} {n reason : Nat} {s₀ s : Sw} (hk₀ : partsIn parts69 ps = true) (h₀ : Sw.keeps ps s₀ s) :
    Sw.keeps ps s₀ (downFrame n reason s) := by
  unfold downFrame
  repeat'
    first
    | with_reducible first | assumption | intro _ | apply keeps_ite | apply transmit_keeps

theorem downFrames_keeps {ps : List Piece} {n reason : Nat} {s₀ s : Sw} (hk₀ : partsIn parts69 ps = true) (h₀ : Sw.keeps ps s₀ s) :
    Sw.keeps ps s₀ (downFrames n reason s) := by
  unfold downFrames
  repeat'
    first
    | with_reducible first | assumption | intro _ | apply keeps_ite | apply downFrame_keeps

/-! ### Ports -/

theorem ackFrames_keeps {ps : List Piece} {n : Nat} {seq : BitVec 12} {s₀ s : Sw} (hk₀ : partsIn parts64 ps = true) (h₀ : Sw.keeps ps s₀ s) :
    Sw.keeps ps s₀ (ackFrames n seq s) := by
  unfold ackFrames
  repeat'
    first
    | with_reducible first | assumption | intro _ | apply keeps_ite | apply resend_keeps | apply settle_keeps | apply modLink_keeps | apply each_keeps | exact partsIn_trans (by decide) hk₀
    | dsimp only
    | split

theorem startReplay_keeps {ps : List Piece} {n : Nat} {s₀ s : Sw} (hk₀ : partsIn parts68 ps = true) (h₀ : Sw.keeps ps s₀ s) :
    Sw.keeps ps s₀ (startReplay n s) := by
  unfold startReplay
  repeat'
    first
    | with_reducible first | assumption | intro _ | apply keeps_ite | apply resend_keeps | apply toLost_keeps | apply modCnt_keeps | apply modLink_keeps | exact partsIn_trans (by decide) hk₀
    | dsimp only
    | split

theorem oweNak_keeps {ps : List Piece} {n : Nat} {s₀ s : Sw} (hk₀ : partsIn [.portLink] ps = true) (h₀ : Sw.keeps ps s₀ s) :
    Sw.keeps ps s₀ (oweNak n s) := by
  unfold oweNak
  repeat'
    first
    | with_reducible first | assumption | intro _ | apply keeps_ite | apply modLink_keeps

theorem gcmOpen_keeps {ps : List Piece} {n : Nat} {f : Frame} {s₀ s : Sw} (hk₀ : partsIn [.portSec] ps = true) (h₀ : Sw.keeps ps s₀ s) :
    Sw.keeps ps s₀ (gcmOpen n f s).2 := by
  unfold gcmOpen
  repeat'
    first
    | with_reducible first | assumption | intro _ | apply keeps_ite | apply modPSec_keeps | exact partsIn_trans (by decide) hk₀
    | dsimp only
    | split

theorem tagFailure_keeps {ps : List Piece} {n : Nat} {f : Frame} {s₀ s : Sw} (hk₀ : partsIn parts69 ps = true) (h₀ : Sw.keeps ps s₀ s) :
    Sw.keeps ps s₀ (tagFailure n f s) := by
  unfold tagFailure
  repeat'
    first
    | with_reducible first | assumption | intro _ | apply keeps_ite | apply raiseHeld_keeps | apply toLost_keeps | apply modPSec_keeps | apply limited_keeps | exact partsIn_trans (by decide) hk₀

theorem checkFrame_keeps {ps : List Piece} {n : Nat} {f : Frame} {s₀ s : Sw} (hk₀ : partsIn parts69 ps = true) (h₀ : Sw.keeps ps s₀ s) :
    Sw.keeps ps s₀ (checkFrame n f s).2 := by
  unfold checkFrame
  repeat'
    first
    | with_reducible first | assumption | intro _ | apply keeps_ite | apply gcmOpen_keeps | apply tagFailure_keeps | exact partsIn_trans (by decide) hk₀
    | dsimp only
    | split
    | (apply keeps_ofPair; assumption)

theorem takeCell_keeps {ps : List Piece} {n vc : Nat} {c : Cell} {s₀ s : Sw} (hk₀ : partsIn parts39 ps = true) (h₀ : Sw.keeps ps s₀ s) :
    Sw.keeps ps s₀ (takeCell n vc c s) := by
  unfold takeCell
  repeat'
    first
    | with_reducible first | assumption | intro _ | apply keeps_ite | apply badHeader_keeps | apply creditBack_keeps | apply raiseSys_keeps | apply modCnt_keeps | apply modLink_keeps | apply modQ_keeps | apply limited_keeps | exact partsIn_trans (by decide) hk₀

theorem takeCells_keeps {ps : List Piece} {n : Nat} {f : Frame} {s₀ s : Sw} (hk₀ : partsIn parts39 ps = true) (h₀ : Sw.keeps ps s₀ s) :
    Sw.keeps ps s₀ (takeCells n f s) := by
  unfold takeCells
  repeat'
    first
    | with_reducible first | assumption | intro _ | apply keeps_ite | apply takeCell_keeps | apply each_keeps

theorem goodFrame_keeps {ps : List Piece} {n : Nat} {f : Frame} {s₀ s : Sw} (hk₀ : partsIn parts68 ps = true) (h₀ : Sw.keeps ps s₀ s) :
    Sw.keeps ps s₀ (goodFrame n f s) := by
  unfold goodFrame
  repeat'
    first
    | with_reducible first | assumption | intro _ | apply keeps_ite | apply ackFrames_keeps | apply startReplay_keeps | apply takeCells_keeps | apply modLink_keeps | exact partsIn_trans (by decide) hk₀

theorem failedFrame_keeps {ps : List Piece} {n : Nat} {s₀ s : Sw} (hk₀ : partsIn [.portCnt, .portLink] ps = true) (h₀ : Sw.keeps ps s₀ s) :
    Sw.keeps ps s₀ (failedFrame n s) := by
  unfold failedFrame
  repeat'
    first
    | with_reducible first | assumption | intro _ | apply keeps_ite | apply oweNak_keeps | apply modCnt_keeps | exact partsIn_trans (by decide) hk₀

theorem frameOp_keeps {ps : List Piece} {n : Nat} {f : Frame} {cw sym unc : Nat} {s₀ s : Sw} (hk₀ : partsIn parts69 ps = true) (h₀ : Sw.keeps ps s₀ s) :
    Sw.keeps ps s₀ (frameOp n f cw sym unc s) := by
  unfold frameOp
  repeat'
    first
    | with_reducible first | assumption | intro _ | apply keeps_ite | apply checkFrame_keeps | apply failedFrame_keeps | apply goodFrame_keeps | apply takeCell_keeps | apply modCnt_keeps | apply each_keeps | exact partsIn_trans (by decide) hk₀
    | dsimp only
    | split
    | (apply keeps_ofPair; assumption)

theorem portCell_keeps {ps : List Piece} {n ct : Nat} {c : Cell} {f : Cell → Sw → Sw} {s₀ s : Sw} (hk₀ : partsIn parts39 ps = true) (hf : ∀ x0 a s, Sw.keeps ps a s → Sw.keeps ps a (f x0 s)) (h₀ : Sw.keeps ps s₀ s) :
    Sw.keeps ps s₀ (portCell n ct c f s) := by
  unfold portCell
  repeat'
    first
    | with_reducible first | assumption | intro _ | apply keeps_ite | apply consume_keeps | apply hf

theorem stallEvent_keeps {ps : List Piece} {n tc what cells : Nat} {s₀ s : Sw} (hk₀ : partsIn [.evqs, .msix, .outs] ps = true) (h₀ : Sw.keeps ps s₀ s) :
    Sw.keeps ps s₀ (stallEvent n tc what cells s) := by
  unfold stallEvent
  repeat'
    first
    | with_reducible first | assumption | intro _ | apply keeps_ite | apply raiseSys_keeps

theorem stallEnds_keeps {ps : List Piece} {n : Nat} {s₀ s : Sw} (hk₀ : partsIn parts8 ps = true) (h₀ : Sw.keeps ps s₀ s) :
    Sw.keeps ps s₀ (stallEnds n s) := by
  unfold stallEnds
  repeat'
    first
    | with_reducible first | assumption | intro _ | apply keeps_ite | apply stallEvent_keeps | apply modQ_keeps | apply each_keeps | exact partsIn_trans (by decide) hk₀

theorem creditOp_keeps {ps : List Piece} {n : Nat} {c : Cell} {s₀ s : Sw} (hk₀ : partsIn [.evqs, .msix, .portLink, .portQ, .outs] ps = true) (h₀ : Sw.keeps ps s₀ s) :
    Sw.keeps ps s₀ (creditOp n c s) := by
  unfold creditOp
  repeat'
    first
    | with_reducible first | assumption | intro _ | apply keeps_ite | apply stallEnds_keeps | apply modLink_keeps | exact partsIn_trans (by decide) hk₀

theorem heartbeatOp_keeps {ps : List Piece} {n : Nat} {s₀ s : Sw} (hk₀ : partsIn [.evTimes, .time, .evqs, .msix, .portCnt, .portLink, .portQ, .outs] ps = true) (h₀ : Sw.keeps ps s₀ s) :
    Sw.keeps ps s₀ (heartbeatOp n s) := by
  unfold heartbeatOp
  repeat'
    first
    | with_reducible first | assumption | intro _ | apply keeps_ite | apply sendCtrl_keeps | apply toTick_keeps | apply modLink_keeps | exact partsIn_trans (by decide) hk₀

theorem heartbeatMissOp_keeps {ps : List Piece} {n : Nat} {s₀ s : Sw} (hk₀ : partsIn parts68 ps = true) (h₀ : Sw.keeps ps s₀ s) :
    Sw.keeps ps s₀ (heartbeatMissOp n s) := by
  unfold heartbeatMissOp
  repeat'
    first
    | with_reducible first | assumption | intro _ | apply keeps_ite | apply toLost_keeps | apply modCnt_keeps | exact partsIn_trans (by decide) hk₀

theorem linkIdOp_keeps {ps : List Piece} {n : Nat} {c : Cell} {s₀ s : Sw} (hk₀ : partsIn [.glb, .evTimes, .wear, .time, .sync, .rings, .evqs, .jobs, .flags, .msix, .held, .portReg, .portMap, .portCnt, .portLink, .portQ, .portSec, .quads, .lanes, .tiles, .hbm, .cxl, .pool, .ctxs, .fab, .rcv, .migQueues, .outs, .freeCtr] ps = true) (h₀ : Sw.keeps ps s₀ s) :
    Sw.keeps ps s₀ (linkIdOp n c s) := by
  unfold linkIdOp
  repeat'
    first
    | with_reducible first | assumption | intro _ | apply keeps_ite | apply raiseHeld_keeps | apply raiseSys_keeps | apply splitChoose_keeps | apply splitEvent_keeps | apply toUp_keeps | apply modQuad_keeps | apply modLink_keeps | exact partsIn_trans (by decide) hk₀
    | dsimp only
    | split

theorem identifyTimeoutOp_keeps {ps : List Piece} {n : Nat} {s₀ s : Sw} (hk₀ : partsIn parts68 ps = true) (h₀ : Sw.keeps ps s₀ s) :
    Sw.keeps ps s₀ (identifyTimeoutOp n s) := by
  unfold identifyTimeoutOp
  repeat'
    first
    | with_reducible first | assumption | intro _ | apply keeps_ite | apply enterSearch_keeps

theorem splitDarkOp_keeps {ps : List Piece} {q : Nat} {s₀ s : Sw} (hk₀ : partsIn parts68 ps = true) (h₀ : Sw.keeps ps s₀ s) :
    Sw.keeps ps s₀ (splitDarkOp q s) := by
  unfold splitDarkOp
  repeat'
    first
    | with_reducible first | assumption | intro _ | apply keeps_ite | apply splitChoose_keeps | apply modQuad_keeps | exact partsIn_trans (by decide) hk₀

theorem linkDownOp_keeps {ps : List Piece} {n : Nat} {c : Cell} {s₀ s : Sw} (hk₀ : partsIn parts68 ps = true) (h₀ : Sw.keeps ps s₀ s) :
    Sw.keeps ps s₀ (linkDownOp n c s) := by
  unfold linkDownOp
  repeat'
    first
    | with_reducible first | assumption | intro _ | apply keeps_ite | apply toLost_keeps

theorem lostRetryOp_keeps {ps : List Piece} {n : Nat} {s₀ s : Sw} (hk₀ : partsIn parts68 ps = true) (h₀ : Sw.keeps ps s₀ s) :
    Sw.keeps ps s₀ (lostRetryOp n s) := by
  unfold lostRetryOp
  repeat'
    first
    | with_reducible first | assumption | intro _ | apply keeps_ite | apply enterSearch_keeps

theorem adminDown_keeps {ps : List Piece} {n : Nat} {s₀ s : Sw} (hk₀ : partsIn parts68 ps = true) (h₀ : Sw.keeps ps s₀ s) :
    Sw.keeps ps s₀ (adminDown n s) := by
  unfold adminDown
  repeat'
    first
    | with_reducible first | assumption | intro _ | apply keeps_ite | apply toDark_keeps | apply modReg_keeps | exact partsIn_trans (by decide) hk₀
    | exact fun _ => rfl
    | (intro; dsimp only; split <;> rfl)
    | dsimp only

theorem adminUpOp_keeps {ps : List Piece} {n : Nat} {s₀ s : Sw} (hk₀ : partsIn parts68 ps = true) (h₀ : Sw.keeps ps s₀ s) :
    Sw.keeps ps s₀ (adminUpOp n s) := by
  unfold adminUpOp
  repeat'
    first
    | with_reducible first | assumption | intro _ | apply keeps_ite | apply enterSearch_keeps | apply modLanes_keeps | apply modReg_keeps | exact partsIn_trans (by decide) hk₀
    | exact fun _ => rfl
    | (intro; dsimp only; split <;> rfl)
    | dsimp only

/-! ### Lanes -/

theorem laneLockOp_keeps {ps : List Piece} {l rate : Nat} {s₀ s : Sw} (hk₀ : partsIn [.lanes] ps = true) (h₀ : Sw.keeps ps s₀ s) :
    Sw.keeps ps s₀ (laneLockOp l rate s) := by
  unfold laneLockOp
  repeat'
    first
    | with_reducible first | assumption | intro _ | apply keeps_ite | apply modLane_keeps | exact partsIn_trans (by decide) hk₀
    | dsimp only
    | split

theorem nextControl_keeps {ps : List Piece} {l : Nat} {s₀ s : Sw} (hk₀ : partsIn [.lanes, .freeCtr] ps = true) (h₀ : Sw.keeps ps s₀ s) :
    Sw.keeps ps s₀ (nextControl l s) := by
  unfold nextControl
  repeat'
    first
    | with_reducible first | assumption | intro _ | apply keeps_ite | apply modLane_keeps | apply draw_keeps | exact partsIn_trans (by decide) hk₀

theorem lanesSearch_keeps {ps : List Piece} {n : Nat} {s₀ s : Sw} (hk₀ : partsIn [.lanes] ps = true) (h₀ : Sw.keeps ps s₀ s) :
    Sw.keeps ps s₀ (lanesSearch n s) := by
  unfold lanesSearch
  repeat'
    first
    | with_reducible first | assumption | intro _ | apply keeps_ite | apply modLanes_keeps

theorem trainAdvance_keeps {ps : List Piece} {l skew : Nat} {s₀ s : Sw} (hk₀ : partsIn parts51 ps = true) (h₀ : Sw.keeps ps s₀ s) :
    Sw.keeps ps s₀ (trainAdvance l skew s) := by
  unfold trainAdvance
  repeat'
    first
    | with_reducible first | assumption | intro _ | apply keeps_ite | apply lanesSearch_keeps | apply raiseSys_keeps | apply toIdentify_keeps | apply modLane_keeps | apply modReg_keeps | exact partsIn_trans (by decide) hk₀
    | exact fun _ => rfl
    | (intro; dsimp only; split <;> rfl)
    | dsimp only
    | split

theorem trainingFrame_keeps {ps : List Piece} {l : Nat} {control status : Word} {ready : Bool} {snr : Half} {skew : Nat} {s₀ s : Sw} (hk₀ : partsIn parts51 ps = true) (h₀ : Sw.keeps ps s₀ s) :
    Sw.keeps ps s₀ (trainingFrame l control status ready snr skew s) := by
  unfold trainingFrame
  repeat'
    first
    | with_reducible first | assumption | intro _ | apply keeps_ite | apply nextControl_keeps | apply trainAdvance_keeps | apply modLane_keeps | apply out_keeps | exact partsIn_trans (by decide) hk₀

theorem echoTimeout_keeps {ps : List Piece} {l : Nat} {s₀ s : Sw} (hk₀ : partsIn [.lanes] ps = true) (h₀ : Sw.keeps ps s₀ s) :
    Sw.keeps ps s₀ (echoTimeout l s) := by
  unfold echoTimeout
  repeat'
    first
    | with_reducible first | assumption | intro _ | apply keeps_ite | apply modLane_keeps

theorem trainTimeoutOp_keeps {ps : List Piece} {l : Nat} {s₀ s : Sw} (hk₀ : partsIn [.evqs, .msix, .lanes, .outs] ps = true) (h₀ : Sw.keeps ps s₀ s) :
    Sw.keeps ps s₀ (trainTimeoutOp l s) := by
  unfold trainTimeoutOp
  repeat'
    first
    | with_reducible first | assumption | intro _ | apply keeps_ite | apply lanesSearch_keeps | apply raiseSys_keeps | apply modLane_keeps | exact partsIn_trans (by decide) hk₀
    | dsimp only
    | split

theorem laneFailed_keeps {ps : List Piece} {l : Nat} {s₀ s : Sw} (hk₀ : partsIn parts68 ps = true) (h₀ : Sw.keeps ps s₀ s) :
    Sw.keeps ps s₀ (laneFailed l s) := by
  unfold laneFailed
  repeat'
    first
    | with_reducible first | assumption | intro _ | apply keeps_ite | apply splitChoose_keeps | apply toLost_keeps | apply modLane_keeps | exact partsIn_trans (by decide) hk₀
    | dsimp only
    | split

theorem laneLosOp_keeps {ps : List Piece} {l : Nat} {power : Half} {s₀ s : Sw} (hk₀ : partsIn parts68 ps = true) (h₀ : Sw.keeps ps s₀ s) :
    Sw.keeps ps s₀ (laneLosOp l power s) := by
  unfold laneLosOp
  repeat'
    first
    | with_reducible first | assumption | intro _ | apply keeps_ite | apply laneFailed_keeps | apply raiseSys_keeps | apply modLane_keeps | apply limited_keeps | exact partsIn_trans (by decide) hk₀

theorem laneLolOp_keeps {ps : List Piece} {l cause : Nat} {s₀ s : Sw} (hk₀ : partsIn parts68 ps = true) (h₀ : Sw.keeps ps s₀ s) :
    Sw.keeps ps s₀ (laneLolOp l cause s) := by
  unfold laneLolOp
  repeat'
    first
    | with_reducible first | assumption | intro _ | apply keeps_ite | apply laneFailed_keeps | apply raiseSys_keeps | apply modLane_keeps | apply limited_keeps | exact partsIn_trans (by decide) hk₀

theorem aprEnter_keeps {ps : List Piece} {l : Nat} {s₀ s : Sw} (hk₀ : partsIn [.evTimes, .evqs, .msix, .lanes, .outs] ps = true) (h₀ : Sw.keeps ps s₀ s) :
    Sw.keeps ps s₀ (aprEnter l s) := by
  unfold aprEnter
  repeat'
    first
    | with_reducible first | assumption | intro _ | apply keeps_ite | apply raiseSys_keeps | apply modLane_keeps | apply limited_keeps | exact partsIn_trans (by decide) hk₀
    | dsimp only
    | split

theorem injectWrite_keeps {ps : List Piece} {func l count period syms mode : Nat} {s₀ s : Sw} (hk₀ : partsIn parts34 ps = true) (h₀ : Sw.keeps ps s₀ s) :
    Sw.keeps ps s₀ (injectWrite func l count period syms mode s) := by
  unfold injectWrite
  repeat'
    first
    | with_reducible first | assumption | intro _ | apply keeps_ite | apply regDiscard_keeps | apply modTest_keeps | apply out_keeps | apply each_keeps | exact partsIn_trans (by decide) hk₀
    | dsimp only
    | split

theorem testWrite_keeps {ps : List Piece} {func l : Nat} {value : Word} {s₀ s : Sw} (hk₀ : partsIn parts34 ps = true) (h₀ : Sw.keeps ps s₀ s) :
    Sw.keeps ps s₀ (testWrite func l value s) := by
  unfold testWrite
  repeat'
    first
    | with_reducible first | assumption | intro _ | apply keeps_ite | apply regDiscard_keeps | apply modLane_keeps | exact partsIn_trans (by decide) hk₀

/-! ### Lasers -/

theorem removeEvent_keeps {ps : List Piece} {m what : Nat} {e : Option Nat} {s₀ s : Sw} (hk₀ : partsIn [.evqs, .msix, .outs] ps = true) (h₀ : Sw.keeps ps s₀ s) :
    Sw.keeps ps s₀ (removeEvent m what e s) := by
  unfold removeEvent
  repeat'
    first
    | with_reducible first | assumption | intro _ | apply keeps_ite | apply raiseSys_keeps

theorem engineDark_keeps {ps : List Piece} {e : Nat} {s₀ s : Sw} (hk₀ : partsIn [.evTimes, .wear, .time, .sync, .rings, .evqs, .jobs, .flags, .msix, .portReg, .portMap, .portCnt, .portLink, .portQ, .portSec, .quads, .lanes, .engines, .tiles, .hbm, .cxl, .pool, .ctxs, .fab, .rcv, .migQueues, .outs, .freeCtr] ps = true) (h₀ : Sw.keeps ps s₀ s) :
    Sw.keeps ps s₀ (engineDark e s) := by
  unfold engineDark
  repeat'
    first
    | with_reducible first | assumption | intro _ | apply keeps_ite | apply raiseSys_keeps | apply toLost_keeps | apply modLane_keeps | apply modEngine_keeps | apply each_keeps | exact partsIn_trans (by decide) hk₀

theorem engineLit_keeps {ps : List Piece} {e : Nat} {s₀ s : Sw} (hk₀ : partsIn [.lanes, .engines] ps = true) (h₀ : Sw.keeps ps s₀ s) :
    Sw.keeps ps s₀ (engineLit e s) := by
  unfold engineLit
  repeat'
    first
    | with_reducible first | assumption | intro _ | apply keeps_ite | apply modLane_keeps | apply modEngine_keeps | apply each_keeps | exact partsIn_trans (by decide) hk₀
    | dsimp only
    | split

theorem siteResumes_keeps {ps : List Piece} {m e : Nat} {s₀ s : Sw} (hk₀ : partsIn parts10 ps = true) (h₀ : Sw.keeps ps s₀ s) :
    Sw.keeps ps s₀ (siteResumes m e s) := by
  unfold siteResumes
  repeat'
    first
    | with_reducible first | assumption | intro _ | apply keeps_ite | apply removeEvent_keeps | apply modSite_keeps | exact partsIn_trans (by decide) hk₀

theorem feedLostOp_keeps {ps : List Piece} {e : Nat} {feedB : Bool} {power : Half} {s₀ s : Sw} (hk₀ : partsIn parts71 ps = true) (h₀ : Sw.keeps ps s₀ s) :
    Sw.keeps ps s₀ (feedLostOp e feedB power s) := by
  unfold feedLostOp
  repeat'
    first
    | with_reducible first | assumption | intro _ | apply keeps_ite | apply engineDark_keeps | apply raiseSys_keeps | apply siteResumes_keeps | apply modEngine_keeps | exact partsIn_trans (by decide) hk₀

theorem feedRestoredOp_keeps {ps : List Piece} {e : Nat} {feedB : Bool} {power : Half} {s₀ s : Sw} (hk₀ : partsIn [.evqs, .msix, .lanes, .engines, .outs] ps = true) (h₀ : Sw.keeps ps s₀ s) :
    Sw.keeps ps s₀ (feedRestoredOp e feedB power s) := by
  unfold feedRestoredOp
  repeat'
    first
    | with_reducible first | assumption | intro _ | apply keeps_ite | apply engineLit_keeps | apply raiseSys_keeps | apply modEngine_keeps | exact partsIn_trans (by decide) hk₀

theorem siteFeedsLost_keeps {ps : List Piece} {m : Nat} {s₀ s : Sw} (hk₀ : partsIn parts71 ps = true) (h₀ : Sw.keeps ps s₀ s) :
    Sw.keeps ps s₀ (siteFeedsLost m s) := by
  unfold siteFeedsLost
  repeat'
    first
    | with_reducible first | assumption | intro _ | apply keeps_ite | apply feedLostOp_keeps | apply each_keeps

theorem siteDark_keeps {ps : List Piece} {m : Nat} {st : SiteSt} {s₀ s : Sw} (hk₀ : partsIn parts71 ps = true) (h₀ : Sw.keeps ps s₀ s) :
    Sw.keeps ps s₀ (siteDark m st s) := by
  unfold siteDark
  repeat'
    first
    | with_reducible first | assumption | intro _ | apply keeps_ite | apply siteFeedsLost_keeps | apply modSite_keeps | exact partsIn_trans (by decide) hk₀

theorem latchCloseOp_keeps {ps : List Piece} {m : Nat} {s₀ s : Sw} (hk₀ : partsIn [.sites] ps = true) (h₀ : Sw.keeps ps s₀ s) :
    Sw.keeps ps s₀ (latchCloseOp m s) := by
  unfold latchCloseOp
  repeat'
    first
    | with_reducible first | assumption | intro _ | apply keeps_ite | apply modSite_keeps

theorem latchOpenOp_keeps {ps : List Piece} {m : Nat} {s₀ s : Sw} (hk₀ : partsIn parts71 ps = true) (h₀ : Sw.keeps ps s₀ s) :
    Sw.keeps ps s₀ (latchOpenOp m s) := by
  unfold latchOpenOp
  repeat'
    first
    | with_reducible first | assumption | intro _ | apply keeps_ite | apply raiseSys_keeps | apply siteDark_keeps | apply modSite_keeps | exact partsIn_trans (by decide) hk₀

theorem siteRefused_keeps {ps : List Piece} {m cause : Nat} {s₀ s : Sw} (hk₀ : partsIn parts10 ps = true) (h₀ : Sw.keeps ps s₀ s) :
    Sw.keeps ps s₀ (siteRefused m cause s) := by
  unfold siteRefused
  repeat'
    first
    | with_reducible first | assumption | intro _ | apply keeps_ite | apply raiseSys_keeps | apply modSite_keeps | exact partsIn_trans (by decide) hk₀

theorem identityRead_keeps {ps : List Piece} {m : Nat} {serial : Quad} {unfit : Nat} {s₀ s : Sw} (hk₀ : partsIn [.wear, .evqs, .msix, .sites, .outs] ps = true) (h₀ : Sw.keeps ps s₀ s) :
    Sw.keeps ps s₀ (identityRead m serial unfit s) := by
  unfold identityRead
  repeat'
    first
    | with_reducible first | assumption | intro _ | apply keeps_ite | apply siteRefused_keeps | apply wearRestart_keeps | apply modSite_keeps | exact partsIn_trans (by decide) hk₀
    | dsimp only
    | split

theorem rampDone_keeps {ps : List Piece} {m : Nat} {s₀ s : Sw} (hk₀ : partsIn parts10 ps = true) (h₀ : Sw.keeps ps s₀ s) :
    Sw.keeps ps s₀ (rampDone m s) := by
  unfold rampDone
  repeat'
    first
    | with_reducible first | assumption | intro _ | apply keeps_ite | apply raiseSys_keeps | apply modSite_keeps | exact partsIn_trans (by decide) hk₀

theorem laserPollOp_keeps {ps : List Piece} {m : Nat} {serial : Quad} {powers : List Half} {bias : Half} {temp : Byte} {fault : Bool} {s₀ s : Sw} (hk₀ : partsIn parts71 ps = true) (h₀ : Sw.keeps ps s₀ s) :
    Sw.keeps ps s₀ (laserPollOp m serial powers bias temp fault s) := by
  unfold laserPollOp
  repeat'
    first
    | with_reducible first | assumption | intro _ | apply keeps_ite | apply raiseSys_keeps | apply siteDark_keeps | apply modSite_keeps | exact partsIn_trans (by decide) hk₀
    | dsimp only
    | split

theorem prepRemoveOp_keeps {ps : List Piece} {m : Nat} {s₀ s : Sw} (hk₀ : partsIn parts10 ps = true) (h₀ : Sw.keeps ps s₀ s) :
    Sw.keeps ps s₀ (prepRemoveOp m s) := by
  unfold prepRemoveOp
  repeat'
    first
    | with_reducible first | assumption | intro _ | apply keeps_ite | apply removeEvent_keeps | apply modSite_keeps | exact partsIn_trans (by decide) hk₀
    | dsimp only
    | split

theorem prepCancel_keeps {ps : List Piece} {m : Nat} {s₀ s : Sw} (hk₀ : partsIn [.sites] ps = true) (h₀ : Sw.keeps ps s₀ s) :
    Sw.keeps ps s₀ (prepCancel m s) := by
  unfold prepCancel
  repeat'
    first
    | with_reducible first | assumption | intro _ | apply keeps_ite | apply modSite_keeps

theorem mutingDoneOp_keeps {ps : List Piece} {m : Nat} {s₀ s : Sw} (hk₀ : partsIn parts71 ps = true) (h₀ : Sw.keeps ps s₀ s) :
    Sw.keeps ps s₀ (mutingDoneOp m s) := by
  unfold mutingDoneOp
  repeat'
    first
    | with_reducible first | assumption | intro _ | apply keeps_ite | apply removeEvent_keeps | apply siteDark_keeps | exact partsIn_trans (by decide) hk₀

theorem laserOn_keeps {ps : List Piece} {m : Nat} {s₀ s : Sw} (hk₀ : partsIn [.sites] ps = true) (h₀ : Sw.keeps ps s₀ s) :
    Sw.keeps ps s₀ (laserOn m s) := by
  unfold laserOn
  repeat'
    first
    | with_reducible first | assumption | intro _ | apply keeps_ite | apply modSite_keeps

theorem laserOff_keeps {ps : List Piece} {m : Nat} {s₀ s : Sw} (hk₀ : partsIn parts71 ps = true) (h₀ : Sw.keeps ps s₀ s) :
    Sw.keeps ps s₀ (laserOff m s) := by
  unfold laserOff
  repeat'
    first
    | with_reducible first | assumption | intro _ | apply keeps_ite | apply siteDark_keeps | apply modSite_keeps | exact partsIn_trans (by decide) hk₀

theorem buttonEvent_keeps {ps : List Piece} {which kind : Nat} {s₀ s : Sw} (hk₀ : partsIn parts6 ps = true) (h₀ : Sw.keeps ps s₀ s) :
    Sw.keeps ps s₀ (buttonEvent which kind s) := by
  unfold buttonEvent
  repeat'
    first
    | with_reducible first | assumption | intro _ | apply keeps_ite | apply raiseHeld_keeps

theorem siteButtonOp_keeps {ps : List Piece} {m pressMs : Nat} {s₀ s : Sw} (hk₀ : partsIn [.evqs, .msix, .held, .sites, .outs] ps = true) (h₀ : Sw.keeps ps s₀ s) :
    Sw.keeps ps s₀ (siteButtonOp m pressMs s) := by
  unfold siteButtonOp
  repeat'
    first
    | with_reducible first | assumption | intro _ | apply keeps_ite | apply buttonEvent_keeps | apply prepCancel_keeps | apply prepRemoveOp_keeps | exact partsIn_trans (by decide) hk₀

/-! ### Mgmt -/

theorem mgmtEvent_keeps {ps : List Piece} {pf : Bool} {code status : Nat} {s₀ s : Sw} (hk₀ : partsIn parts6 ps = true) (h₀ : Sw.keeps ps s₀ s) :
    Sw.keeps ps s₀ (mgmtEvent pf code status s) := by
  unfold mgmtEvent
  repeat'
    first
    | with_reducible first | assumption | intro _ | apply keeps_ite | apply raiseHeld_keeps

/-! ### Intake -/

theorem grantViolation_keeps {ps : List Piece} {x q num cell grant : Nat} {s₀ s : Sw} (hk₀ : partsIn parts18 ps = true) (h₀ : Sw.keeps ps s₀ s) :
    Sw.keeps ps s₀ (grantViolation x q num cell grant s) := by
  unfold grantViolation
  repeat'
    first
    | with_reducible first | assumption | intro _ | apply keeps_ite | apply idDiscard_keeps | apply raiseCtx_keeps | apply limited_keeps | exact partsIn_trans (by decide) hk₀

theorem layoutDiscard_keeps {ps : List Piece} {x q : Nat} {member : Bool} {c : Cell} {s₀ s : Sw} (hk₀ : partsIn parts18 ps = true) (h₀ : Sw.keeps ps s₀ s) :
    Sw.keeps ps s₀ (layoutDiscard x q member c s) := by
  unfold layoutDiscard
  repeat'
    first
    | with_reducible first | assumption | intro _ | apply keeps_ite | apply idDiscard_keeps | apply raiseCtx_keeps | apply limited_keeps | apply onlyIf_keeps | exact partsIn_trans (by decide) hk₀

theorem plainCell_keeps {ps : List Piece} {x o q : Nat} {h : Child} {c : Cell} {s₀ s : Sw} (hk₀ : partsIn parts60 ps = true) (h₀ : Sw.keeps ps s₀ s) :
    Sw.keeps ps s₀ (plainCell x o q h c s) := by
  unfold plainCell
  repeat'
    first
    | with_reducible first | assumption | intro _ | apply keeps_ite | apply countDup_keeps | apply gridCellWhole_keeps | apply modOp_keeps | apply each_keeps | exact partsIn_trans (by decide) hk₀
    | dsimp only
    | split

theorem pruneWhole_keeps {ps : List Piece} {x o q : Nat} {h : Child} {k : Nat} {ents : List (Nat × Nat)} {s₀ s : Sw} (hk₀ : partsIn parts60 ps = true) (h₀ : Sw.keeps ps s₀ s) :
    Sw.keeps ps s₀ (pruneWhole x o q h k ents s) := by
  unfold pruneWhole
  repeat'
    first
    | with_reducible first | assumption | intro _ | apply keeps_ite | apply countDup_keeps | apply gridCellWhole_keeps | apply modOp_keeps | exact partsIn_trans (by decide) hk₀
    | dsimp only
    | split

theorem pruneTake_keeps {ps : List Piece} {x o q : Nat} {h : Child} {b room len w : Nat} {c : Cell} {s₀ s : Sw} (hk₀ : partsIn parts60 ps = true) (h₀ : Sw.keeps ps s₀ s) :
    Sw.keeps ps s₀ (pruneTake x o q h b room len w c s) := by
  unfold pruneTake
  repeat'
    first
    | with_reducible first | assumption | intro _ | apply keeps_ite | apply pruneWhole_keeps | apply modOp_keeps | apply each_keeps | exact partsIn_trans (by decide) hk₀
    | dsimp only
    | split

theorem pruneCell_keeps {ps : List Piece} {x o q : Nat} {h : Child} {c : Cell} {s₀ s : Sw} (hk₀ : partsIn [.evTimes, .wear, .time, .rings, .evqs, .msix, .portCnt, .portQ, .tiles, .hbm, .pool, .ctxs, .rcv, .outs, .freeCtr] ps = true) (h₀ : Sw.keeps ps s₀ s) :
    Sw.keeps ps s₀ (pruneCell x o q h c s) := by
  unfold pruneCell
  repeat'
    first
    | with_reducible first | assumption | intro _ | apply keeps_ite | apply failHere_keeps | apply idDiscard_keeps | apply pruneTake_keeps | apply raiseCtx_keeps | apply modOp_keeps | exact partsIn_trans (by decide) hk₀
    | dsimp only
    | split

theorem memberCellOp_keeps {ps : List Piece} {x q : Nat} {c : Cell} {s₀ s : Sw} (hk₀ : partsIn parts63 ps = true) (h₀ : Sw.keeps ps s₀ s) :
    Sw.keeps ps s₀ (memberCellOp x q c s) := by
  unfold memberCellOp
  repeat'
    first
    | with_reducible first | assumption | intro _ | apply keeps_ite | apply clearStall_keeps | apply earlyCheck_keeps | apply grantViolation_keeps | apply layoutDiscard_keeps | apply plainCell_keeps | apply pruneCell_keeps | apply settle_keeps | exact partsIn_trans (by decide) hk₀
    | dsimp only
    | split

theorem malformed_keeps {ps : List Piece} {x q o k count test : Nat} {up : Bool} {s₀ s : Sw} (hk₀ : partsIn parts53 ps = true) (h₀ : Sw.keeps ps s₀ s) :
    Sw.keeps ps s₀ (malformed x q o k count test up s) := by
  unfold malformed
  repeat'
    first
    | with_reducible first | assumption | intro _ | apply keeps_ite | apply askContrib_keeps | apply raiseCtx_keeps | apply reinjectEvent_keeps | apply limited_keeps | exact partsIn_trans (by decide) hk₀

theorem dropAsm_keeps {ps : List Piece} {n x : Nat} {s₀ s : Sw} (hk₀ : partsIn [.portQ] ps = true) (h₀ : Sw.keeps ps s₀ s) :
    Sw.keeps ps s₀ (dropAsm n x s) := by
  unfold dropAsm
  repeat'
    first
    | with_reducible first | assumption | intro _ | apply keeps_ite | apply modQ_keeps

theorem takePart_keeps {ps : List Piece} {x q o : Nat} {up : Bool} {c : Cell} {s₀ s : Sw} (hk₀ : partsIn parts53 ps = true) (h₀ : Sw.keeps ps s₀ s) :
    Sw.keeps ps s₀ (takePart x q o up c s).2 := by
  unfold takePart
  repeat'
    first
    | with_reducible first | assumption | intro _ | apply keeps_ite | apply dropAsm_keeps | apply malformed_keeps | apply raiseCtx_keeps | apply modQ_keeps | exact partsIn_trans (by decide) hk₀
    | dsimp only
    | split

theorem takeContribution_keeps {ps : List Piece} {x o q first : Nat} {ks : List Nat} {part : Part} {pays : List (BitVec 512)} {s₀ s : Sw} (hk₀ : partsIn parts60 ps = true) (h₀ : Sw.keeps ps s₀ s) :
    Sw.keeps ps s₀ (takeContribution x o q first ks part pays s) := by
  unfold takeContribution
  repeat'
    first
    | with_reducible first | assumption | intro _ | apply keeps_ite | apply contribute_keeps | apply foldCell_keeps | apply each_keeps | exact partsIn_trans (by decide) hk₀
    | dsimp only
    | split

theorem takeResult_keeps {ps : List Piece} {x o q first : Nat} {ks : List Nat} {part : Part} {pays : List (BitVec 512)} {s₀ s : Sw} (hk₀ : partsIn parts60 ps = true) (h₀ : Sw.keeps ps s₀ s) :
    Sw.keeps ps s₀ (takeResult x o q first ks part pays s) := by
  unfold takeResult
  repeat'
    first
    | with_reducible first | assumption | intro _ | apply keeps_ite | apply emit_keeps | apply foldCell_keeps | apply sendNotice_keeps | apply takeAnchor_keeps | apply modOp_keeps | apply each_keeps | exact partsIn_trans (by decide) hk₀
    | dsimp only
    | split

theorem mirrorWrite_keeps {ps : List Piece} {x o k : Nat} {part : Part} {s₀ s : Sw} (hk₀ : partsIn parts14 ps = true) (h₀ : Sw.keeps ps s₀ s) :
    Sw.keeps ps s₀ (mirrorWrite x o k part s) := by
  unfold mirrorWrite
  repeat'
    first
    | with_reducible first | assumption | intro _ | apply keeps_ite | apply foldCell_keeps | apply modShard_keeps | exact partsIn_trans (by decide) hk₀
    | dsimp only
    | split

theorem mirrorDigest_keeps {ps : List Piece} {x o q k : Nat} {s₀ s : Sw} (hk₀ : partsIn parts57 ps = true) (h₀ : Sw.keeps ps s₀ s) :
    Sw.keeps ps s₀ (mirrorDigest x o q k s) := by
  unfold mirrorDigest
  repeat'
    first
    | with_reducible first | assumption | intro _ | apply keeps_ite | apply ctxCtrl_keeps | apply foldAccs_keeps | exact partsIn_trans (by decide) hk₀
    | dsimp only
    | split

theorem cutAsm_keeps {ps : List Piece} {x q o : Nat} {up : Bool} {s₀ s : Sw} (hk₀ : partsIn parts53 ps = true) (h₀ : Sw.keeps ps s₀ s) :
    Sw.keeps ps s₀ (cutAsm x q o up s) := by
  unfold cutAsm
  repeat'
    first
    | with_reducible first | assumption | intro _ | apply keeps_ite | apply dropAsm_keeps | apply malformed_keeps | exact partsIn_trans (by decide) hk₀
    | dsimp only
    | split

theorem mirrorOp_keeps {ps : List Piece} {x q o : Nat} {c : Cell} {s₀ s : Sw} (hk₀ : partsIn parts57 ps = true) (h₀ : Sw.keeps ps s₀ s) :
    Sw.keeps ps s₀ (mirrorOp x q o c s) := by
  unfold mirrorOp
  repeat'
    first
    | with_reducible first | assumption | intro _ | apply keeps_ite | apply cutAsm_keeps | apply malformed_keeps | apply mirrorDigest_keeps | apply mirrorWrite_keeps | apply takePart_keeps | apply setCtx_keeps | apply each_keeps | exact partsIn_trans (by decide) hk₀
    | dsimp only
    | split

theorem mirrorResume_keeps {ps : List Piece} {x o k : Nat} {s₀ s : Sw} (hk₀ : partsIn parts57 ps = true) (h₀ : Sw.keeps ps s₀ s) :
    Sw.keeps ps s₀ (mirrorResume x o k s) := by
  unfold mirrorResume
  repeat'
    first
    | with_reducible first | assumption | intro _ | apply keeps_ite | apply mirrorOp_keeps | apply setCtx_keeps | apply each_keeps | exact partsIn_trans (by decide) hk₀
    | dsimp only
    | split

theorem switchCell_keeps {ps : List Piece} {x q o : Nat} {up : Bool} {c : Cell} {s₀ s : Sw} (hk₀ : partsIn parts60 ps = true) (h₀ : Sw.keeps ps s₀ s) :
    Sw.keeps ps s₀ (switchCell x q o up c s) := by
  unfold switchCell
  repeat'
    first
    | with_reducible first | assumption | intro _ | apply keeps_ite | apply cutAsm_keeps | apply malformed_keeps | apply takeContribution_keeps | apply takePart_keeps | apply takeResult_keeps | exact partsIn_trans (by decide) hk₀
    | dsimp only
    | split

theorem upRecord_keeps {ps : List Piece} {x q o : Nat} {c : Cell} {s₀ s : Sw} (hk₀ : partsIn parts60 ps = true) (h₀ : Sw.keeps ps s₀ s) :
    Sw.keeps ps s₀ (upRecord x q o c s) := by
  unfold upRecord
  repeat'
    first
    | with_reducible first | assumption | intro _ | apply keeps_ite | apply switchCell_keeps | apply setCtx_keeps | exact partsIn_trans (by decide) hk₀
    | dsimp only
    | split

theorem recordResume_keeps {ps : List Piece} {x o : Nat} {pick : Nat → Cell → Bool} {s₀ s : Sw} (hk₀ : partsIn parts60 ps = true) (h₀ : Sw.keeps ps s₀ s) :
    Sw.keeps ps s₀ (recordResume x o pick s) := by
  unfold recordResume
  repeat'
    first
    | with_reducible first | assumption | intro _ | apply keeps_ite | apply upRecord_keeps | apply setCtx_keeps | apply each_keeps | exact partsIn_trans (by decide) hk₀
    | dsimp only
    | split

theorem recordOp_keeps {ps : List Piece} {x q : Nat} {c : Cell} {s₀ s : Sw} (hk₀ : partsIn parts63 ps = true) (h₀ : Sw.keeps ps s₀ s) :
    Sw.keeps ps s₀ (recordOp x q c s) := by
  unfold recordOp
  repeat'
    first
    | with_reducible first | assumption | intro _ | apply keeps_ite | apply clearStall_keeps | apply earlyCheck_keeps | apply grantViolation_keeps | apply layoutDiscard_keeps | apply mirrorOp_keeps | apply raiseCtx_keeps | apply settle_keeps | apply switchCell_keeps | apply upRecord_keeps | apply limited_keeps | exact partsIn_trans (by decide) hk₀
    | dsimp only
    | split

theorem noticeOp_keeps {ps : List Piece} {replay : Bool} {x q : Nat} {c : Cell} {s₀ s : Sw} (hk₀ : partsIn parts63 ps = true) (h₀ : Sw.keeps ps s₀ s) :
    Sw.keeps ps s₀ (noticeOp replay x q c s) := by
  unfold noticeOp
  repeat'
    first
    | with_reducible first | assumption | intro _ | apply keeps_ite | apply sendNotice_keeps | apply settle_keeps | apply takeAnchor_keeps | apply takeReplay_keeps | exact partsIn_trans (by decide) hk₀
    | dsimp only
    | split

/-! ### Routing -/

theorem pace_keeps {ps : List Piece} {n cdst : Nat} {s₀ s : Sw} (hk₀ : partsIn [.portQ, .outs] ps = true) (h₀ : Sw.keeps ps s₀ s) :
    Sw.keeps ps s₀ (pace n cdst s) := by
  unfold pace
  repeat'
    first
    | with_reducible first | assumption | intro _ | apply keeps_ite | apply out_keeps | apply modQ_keeps | exact partsIn_trans (by decide) hk₀
    | dsimp only
    | split

theorem echoDeliver_keeps {ps : List Piece} {o : Nat} {c : Cell} {s₀ s : Sw} (hk₀ : partsIn parts32 ps = true) (h₀ : Sw.keeps ps s₀ s) :
    Sw.keeps ps s₀ (echoDeliver o c s) := by
  unfold echoDeliver
  repeat'
    first
    | with_reducible first | assumption | intro _ | apply keeps_ite | apply enqueue_keeps | apply pace_keeps | exact partsIn_trans (by decide) hk₀

theorem byRank_keeps {ps : List Piece} {i vc : Nat} {c : Cell} {l : List Nat} {again : Cell → Sw → Sw} {f : Nat → Nat → Cell → Sw → Sw} {s₀ s : Sw} (hk₀ : partsIn parts18 ps = true) (hagain : ∀ x0 a s, Sw.keeps ps a s → Sw.keeps ps a (again x0 s)) (hf : ∀ x0 x1 x2 a s, Sw.keeps ps a s → Sw.keeps ps a (f x0 x1 x2 s)) (h₀ : Sw.keeps ps s₀ s) :
    Sw.keeps ps s₀ (byRank i vc c l again f s) := by
  unfold byRank
  repeat'
    first
    | with_reducible first | assumption | intro _ | apply keeps_ite | apply dropRank_keeps | apply modCnt_keeps | apply hagain | apply hf | exact partsIn_trans (by decide) hk₀
    | dsimp only
    | split

theorem routeEcho_keeps {ps : List Piece} {i vc : Nat} {fuel : Nat} {c : Cell} {s₀ s : Sw} (hk₀ : partsIn parts32 ps = true) (h₀ : Sw.keeps ps s₀ s) :
    Sw.keeps ps s₀ (routeEcho i vc fuel c s) := by
  induction fuel generalizing c s s₀ with
  | zero =>
    unfold routeEcho
    repeat'
      first
      | with_reducible first | assumption | intro _ | apply keeps_ite | apply byRank_keeps | apply dropRank_keeps | apply dropRoute_keeps | apply echoDeliver_keeps | apply enqueue_keeps | exact partsIn_trans (by decide) hk₀
  | succ fuel ih =>
    unfold routeEcho
    repeat'
      first
      | with_reducible first | assumption | apply ih | intro _ | apply keeps_ite | apply byRank_keeps | apply dropRank_keeps | apply dropRoute_keeps | apply echoDeliver_keeps | apply enqueue_keeps | exact partsIn_trans (by decide) hk₀
      | dsimp only
      | split

theorem sendEcho_keeps {ps : List Piece} {o : Nat} {c : Cell} {s₀ s : Sw} (hk₀ : partsIn parts32 ps = true) (h₀ : Sw.keeps ps s₀ s) :
    Sw.keeps ps s₀ (sendEcho o c s) := by
  unfold sendEcho
  repeat'
    first
    | with_reducible first | assumption | intro _ | apply keeps_ite | apply routeEcho_keeps | apply modCnt_keeps | apply modQ_keeps | exact partsIn_trans (by decide) hk₀

theorem placeCopy_keeps {ps : List Piece} {copy : Option (Nat × Nat)} {i o w : Nat} {cls : SvcClass} {moved : Bool} {c : Cell} {s₀ s : Sw} (hk₀ : partsIn parts32 ps = true) (h₀ : Sw.keeps ps s₀ s) :
    Sw.keeps ps s₀ (placeCopy copy i o w cls moved c s).2 := by
  unfold placeCopy
  repeat'
    first
    | with_reducible first | assumption | intro _ | apply keeps_ite | apply enqueue_keeps | apply sendEcho_keeps | apply modCnt_keeps | exact partsIn_trans (by decide) hk₀

theorem placeP2p_keeps {ps : List Piece} {i o w : Nat} {cls : SvcClass} {moved : Bool} {c : Cell} {s₀ s : Sw} (hk₀ : partsIn parts32 ps = true) (h₀ : Sw.keeps ps s₀ s) :
    Sw.keeps ps s₀ (placeP2p i o w cls moved c s).2 := by
  unfold placeP2p
  repeat'
    first
    | with_reducible first | assumption | intro _ | apply keeps_ite | apply placeCopy_keeps

theorem unexpected_keeps {ps : List Piece} {x o p : Nat} {c : Cell} {s₀ s : Sw} (hk₀ : partsIn parts1 ps = true) (h₀ : Sw.keeps ps s₀ s) :
    Sw.keeps ps s₀ (unexpected x o p c s) := by
  unfold unexpected
  repeat'
    first
    | with_reducible first | assumption | intro _ | apply keeps_ite | apply raiseCtx_keeps | apply limited_keeps | exact partsIn_trans (by decide) hk₀

theorem placeExchange_keeps {ps : List Piece} {i o w x op : Nat} {c : Cell} {s₀ s : Sw} (hk₀ : partsIn parts63 ps = true) (h₀ : Sw.keeps ps s₀ s) :
    Sw.keeps ps s₀ (placeExchange i o w x op c s) := by
  unfold placeExchange
  repeat'
    first
    | with_reducible first | assumption | intro _ | apply keeps_ite | apply failHere_keeps | apply placeP2p_keeps | apply placeUnit_keeps | apply settle_keeps | exact partsIn_trans (by decide) hk₀
    | dsimp only
    | split

theorem exchangeHere_keeps {ps : List Piece} {i p o x op : Nat} {c : Cell} {s₀ s : Sw} (hk₀ : partsIn parts63 ps = true) (h₀ : Sw.keeps ps s₀ s) :
    Sw.keeps ps s₀ (exchangeHere i p o x op c s) := by
  unfold exchangeHere
  repeat'
    first
    | with_reducible first | assumption | intro _ | apply keeps_ite | apply placeExchange_keeps | apply unexpected_keeps | apply modOp_keeps | exact partsIn_trans (by decide) hk₀
    | dsimp only
    | split

theorem multicast_keeps {ps : List Piece} {i vc : Nat} {c : Cell} {s₀ s : Sw} (hk₀ : partsIn parts41 ps = true) (h₀ : Sw.keeps ps s₀ s) :
    Sw.keeps ps s₀ (multicast i vc c s) := by
  unfold multicast
  repeat'
    first
    | with_reducible first | assumption | intro _ | apply keeps_ite | apply dropRoute_keeps | apply placeCopy_keeps | apply raiseSys_keeps | apply modFab_keeps | apply modCnt_keeps | apply limited_keeps | apply each_keeps | exact partsIn_trans (by decide) hk₀
    | dsimp only
    | split

theorem routeP2p_keeps {ps : List Piece} {i p vc : Nat} {fuel : Nat} {c : Cell} {s₀ s : Sw} (hk₀ : partsIn parts63 ps = true) (h₀ : Sw.keeps ps s₀ s) :
    Sw.keeps ps s₀ (routeP2p i p vc fuel c s) := by
  induction fuel generalizing c s s₀ with
  | zero =>
    unfold routeP2p
    repeat'
      first
      | with_reducible first | assumption | intro _ | apply keeps_ite | apply byRank_keeps | apply dropRank_keeps | apply dropRoute_keeps | apply exchangeHere_keeps | apply placeExchange_keeps | apply placeP2p_keeps | exact partsIn_trans (by decide) hk₀
  | succ fuel ih =>
    unfold routeP2p
    repeat'
      first
      | with_reducible first | assumption | apply ih | intro _ | apply keeps_ite | apply byRank_keeps | apply dropRank_keeps | apply dropRoute_keeps | apply exchangeHere_keeps | apply placeExchange_keeps | apply placeP2p_keeps | exact partsIn_trans (by decide) hk₀
      | dsimp only
      | split

theorem p2pCell_keeps {ps : List Piece} {p vc : Nat} {c : Cell} {s₀ s : Sw} (hk₀ : partsIn parts65 ps = true) (h₀ : Sw.keeps ps s₀ s) :
    Sw.keeps ps s₀ (p2pCell p vc c s) := by
  unfold p2pCell
  repeat'
    first
    | with_reducible first | assumption | intro _ | apply keeps_ite | apply earlyCheck_keeps | apply multicast_keeps | apply routeEp_keeps | apply routeP2p_keeps | apply unexpected_keeps | apply setCtx_keeps | exact partsIn_trans (by decide) hk₀
    | dsimp only
    | split

theorem p2pArrive_keeps {ps : List Piece} {p : Nat} {c : Cell} {s₀ s : Sw} (hk₀ : partsIn parts67 ps = true) (h₀ : Sw.keeps ps s₀ s) :
    Sw.keeps ps s₀ (p2pArrive p c s) := by
  unfold p2pArrive
  repeat'
    first
    | with_reducible first | assumption | intro _ | apply keeps_ite | apply ingress_keeps | apply p2pCell_keeps | apply modCnt_keeps | exact partsIn_trans (by decide) hk₀
    | dsimp only
    | split

theorem releaseExchange_keeps {ps : List Piece} {x o : Nat} {s₀ s : Sw} (hk₀ : partsIn parts65 ps = true) (h₀ : Sw.keeps ps s₀ s) :
    Sw.keeps ps s₀ (releaseExchange x o s) := by
  unfold releaseExchange
  repeat'
    first
    | with_reducible first | assumption | intro _ | apply keeps_ite | apply p2pCell_keeps | apply setCtx_keeps | apply each_keeps | exact partsIn_trans (by decide) hk₀
    | dsimp only
    | split

/-! ### Contexts -/

theorem placesLimit_keeps {ps : List Piece} {x job slots : Nat} {s₀ s : Sw} (hk₀ : partsIn [.evqs, .msix, .outs] ps = true) (h₀ : Sw.keeps ps s₀ s) :
    Sw.keeps ps s₀ (placesLimit x job slots s) := by
  unfold placesLimit
  repeat'
    first
    | with_reducible first | assumption | intro _ | apply keeps_ite | apply limitEvent_keeps | exact partsIn_trans (by decide) hk₀
    | dsimp only
    | split

theorem createCtx_keeps {ps : List Piece} {x : Nat} {k : CtxCfg} {r : Canopy} {s₀ s t : Sw} (he : createCtx x k r s = some t)
    (hk₀ : partsIn [.evTimes, .time, .rings, .evqs, .msix, .portMap, .portCnt, .portQ, .pool, .ctxs, .outs, .freeCtr] ps = true) (h₀ : Sw.keeps ps s₀ s) : Sw.keeps ps s₀ t := by
  unfold createCtx at he
  simp only [Option.map_eq_some_iff] at he
  obtain ⟨⟨q, u⟩, hu, rfl⟩ := he
  have h := takePlaces_keeps hu (partsIn_trans (by decide) hk₀) h₀
  repeat'
    first
    | with_reducible first | assumption | apply parentCheck_keeps | apply sendBound_keeps | apply mapCtx_keeps | apply setCtx_keeps | apply each_keeps | intro _ | exact partsIn_trans (by decide) hk₀

theorem ctxCreateOp_keeps {ps : List Piece} {b : Sub} {t : Tok} {s₀ s : Sw} (hk₀ : partsIn parts59 ps = true) (h₀ : Sw.keeps ps s₀ s) :
    Sw.keeps ps s₀ (ctxCreateOp b t s) := by
  unfold ctxCreateOp
  repeat'
    first
    | with_reducible first | assumption | intro _ | apply keeps_ite | (apply createCtx_keeps; assumption) | apply complete_keeps | apply guardDesc_keeps | apply hostGuard_keeps | apply placesLimit_keeps | exact partsIn_trans (by decide) hk₀
    | dsimp only
    | split

theorem ctxDestroyOp_keeps {ps : List Piece} {b : Sub} {t : Tok} {s₀ s : Sw} (hk₀ : partsIn parts63 ps = true) (h₀ : Sw.keeps ps s₀ s) :
    Sw.keeps ps s₀ (ctxDestroyOp b t s) := by
  unfold ctxDestroyOp
  repeat'
    first
    | with_reducible first | assumption | intro _ | apply keeps_ite | apply abortAll_keeps | apply complete_keeps | apply freeCtx_keeps | apply guardDesc_keeps | apply settle_keeps | apply setCtx_keeps | exact partsIn_trans (by decide) hk₀
    | dsimp only
    | split

theorem ctxRecanopyOp_keeps {ps : List Piece} {b : Sub} {t : Tok} {s₀ s : Sw} (hk₀ : partsIn parts63 ps = true) (h₀ : Sw.keeps ps s₀ s) :
    Sw.keeps ps s₀ (ctxRecanopyOp b t s) := by
  unfold ctxRecanopyOp
  repeat'
    first
    | with_reducible first | assumption | intro _ | apply keeps_ite | apply complete_keeps | apply guardDesc_keeps | apply hostGuard_keeps | apply settle_keeps | apply modCtx_keeps | exact partsIn_trans (by decide) hk₀

theorem portBindOp_keeps {ps : List Piece} {b : Sub} {t : Tok} {s₀ s : Sw} (hk₀ : partsIn [.rings, .evqs, .msix, .portMap, .outs] ps = true) (h₀ : Sw.keeps ps s₀ s) :
    Sw.keeps ps s₀ (portBindOp b t s) := by
  unfold portBindOp
  repeat'
    first
    | with_reducible first | assumption | intro _ | apply keeps_ite | apply complete_keeps | apply guardDesc_keeps | apply setBinding_keeps | exact partsIn_trans (by decide) hk₀

theorem postOpened_keeps {ps : List Piece} {x o : Nat} {p : Op} {blk : BitVec 256} {t : Tok} {s₀ s : Sw} (hk₀ : partsIn parts58 ps = true) (h₀ : Sw.keeps ps s₀ s) :
    Sw.keeps ps s₀ (postOpened x o p blk t s) := by
  unfold postOpened
  repeat'
    first
    | with_reducible first | assumption | intro _ | apply keeps_ite | apply failHere_keeps | apply opComplete_keeps | apply raiseCtx_keeps | apply modOp_keeps | exact partsIn_trans (by decide) hk₀

theorem postFresh_keeps {ps : List Piece} {x o : Nat} {blk : BitVec 256} {t : Tok} {s₀ s : Sw} (hk₀ : partsIn parts62 ps = true) (h₀ : Sw.keeps ps s₀ s) :
    Sw.keeps ps s₀ (postFresh x o blk t s) := by
  unfold postFresh
  repeat'
    first
    | with_reducible first | assumption | intro _ | apply keeps_ite | apply failHere_keeps | apply openOp_keeps | apply replayCounts_keeps | apply modOp_keeps | exact partsIn_trans (by decide) hk₀
    | dsimp only
    | split

theorem opPostOp_keeps {ps : List Piece} {b : Sub} {t : Tok} {s₀ s : Sw} (hk₀ : partsIn parts63 ps = true) (h₀ : Sw.keeps ps s₀ s) :
    Sw.keeps ps s₀ (opPostOp b t s) := by
  unfold opPostOp
  repeat'
    first
    | with_reducible first | assumption | intro _ | apply keeps_ite | apply guardDesc_keeps | apply postFresh_keeps | apply postOpened_keeps | apply settle_keeps | exact partsIn_trans (by decide) hk₀
    | dsimp only
    | split

theorem opAbortOp_keeps {ps : List Piece} {b : Sub} {t : Tok} {s₀ s : Sw} (hk₀ : partsIn parts63 ps = true) (h₀ : Sw.keeps ps s₀ s) :
    Sw.keeps ps s₀ (opAbortOp b t s) := by
  unfold opAbortOp
  repeat'
    first
    | with_reducible first | assumption | intro _ | apply keeps_ite | apply complete_keeps | apply guardDesc_keeps | apply requestAbort_keeps | apply settle_keeps | apply modOp_keeps | exact partsIn_trans (by decide) hk₀
    | dsimp only
    | split

theorem joinCell_keeps {ps : List Piece} {ct x q : Nat} {c : Cell} {s₀ s : Sw} (hk₀ : partsIn parts63 ps = true) (h₀ : Sw.keeps ps s₀ s) :
    Sw.keeps ps s₀ (joinCell ct x q c s) := by
  unfold joinCell
  repeat'
    first
    | with_reducible first | assumption | intro _ | apply keeps_ite | apply joinArrive_keeps | apply settle_keeps | exact partsIn_trans (by decide) hk₀

theorem completeArrive_keeps {ps : List Piece} {x o status chunks : Nat} {s₀ s : Sw} (hk₀ : partsIn parts58 ps = true) (h₀ : Sw.keeps ps s₀ s) :
    Sw.keeps ps s₀ (completeArrive x o status chunks s) := by
  unfold completeArrive
  repeat'
    first
    | with_reducible first | assumption | intro _ | apply keeps_ite | apply deliveredCheck_keeps | apply endFromRoot_keeps | apply endUnopened_keeps | apply finishOp_keeps | apply sendComplete_keeps | apply modOp_keeps | exact partsIn_trans (by decide) hk₀
    | dsimp only
    | split

theorem statusArrive_keeps {ps : List Piece} {x q : Nat} {c : Cell} {s₀ s : Sw} (hk₀ : partsIn parts63 ps = true) (h₀ : Sw.keeps ps s₀ s) :
    Sw.keeps ps s₀ (statusArrive x q c s) := by
  unfold statusArrive
  repeat'
    first
    | with_reducible first | assumption | intro _ | apply keeps_ite | apply completeArrive_keeps | apply enterJoined_keeps | apply settle_keeps | apply modOp_keeps | exact partsIn_trans (by decide) hk₀
    | dsimp only
    | split

theorem releaseArrive_keeps {ps : List Piece} {x q : Nat} {c : Cell} {s₀ s : Sw} (hk₀ : partsIn parts63 ps = true) (h₀ : Sw.keeps ps s₀ s) :
    Sw.keeps ps s₀ (releaseArrive x q c s) := by
  unfold releaseArrive
  repeat'
    first
    | with_reducible first | assumption | intro _ | apply keeps_ite | apply deliveredCheck_keeps | apply endFromRoot_keeps | apply endUnopened_keeps | apply finishOp_keeps | apply sendComplete_keeps | apply settle_keeps | apply modOp_keeps | exact partsIn_trans (by decide) hk₀
    | dsimp only
    | split

theorem countsCellArrive_keeps {ps : List Piece} {x q : Nat} {c : Cell} {s₀ s : Sw} (hk₀ : partsIn parts63 ps = true) (h₀ : Sw.keeps ps s₀ s) :
    Sw.keeps ps s₀ (countsCellArrive x q c s) := by
  unfold countsCellArrive
  repeat'
    first
    | with_reducible first | assumption | intro _ | apply keeps_ite | apply countsArrive_keeps | apply settle_keeps | exact partsIn_trans (by decide) hk₀
    | dsimp only
    | split

theorem passTicks_keeps {ps : List Piece} {n : Nat} {s₀ s : Sw} (hk₀ : partsIn [.time, .ctxs] ps = true) (h₀ : Sw.keeps ps s₀ s) :
    Sw.keeps ps s₀ (passTicks n s) := by
  unfold passTicks
  repeat'
    first
    | with_reducible first | assumption | intro _ | apply keeps_ite | apply lateTicks_keeps | apply toTick_keeps | apply modTime_keeps | apply each_keeps | exact partsIn_trans (by decide) hk₀

theorem latenessOp_keeps {ps : List Piece} {x o k q : Nat} {s₀ s : Sw} (hk₀ : partsIn parts63 ps = true) (h₀ : Sw.keeps ps s₀ s) :
    Sw.keeps ps s₀ (latenessOp x o k q s) := by
  unfold latenessOp
  repeat'
    first
    | with_reducible first | assumption | intro _ | apply keeps_ite | apply passTicks_keeps | apply settle_keeps | apply takeBackup_keeps | exact partsIn_trans (by decide) hk₀
    | dsimp only
    | split

theorem stallOp_keeps {ps : List Piece} {x o q gcell : Nat} {contribution : Bool} {s₀ s : Sw} (hk₀ : partsIn parts3 ps = true) (h₀ : Sw.keeps ps s₀ s) :
    Sw.keeps ps s₀ (stallOp x o q gcell contribution s) := by
  unfold stallOp
  repeat'
    first
    | with_reducible first | assumption | intro _ | apply keeps_ite | apply raiseCtx_keeps | apply modOp_keeps | exact partsIn_trans (by decide) hk₀
    | dsimp only
    | split

theorem seedCtx_keeps {ps : List Piece} {s₀ s : Sw} (hk₀ : partsIn [.evTimes, .time, .rings, .evqs, .msix, .portMap, .portCnt, .portQ, .pool, .ctxs, .outs, .freeCtr] ps = true) (h₀ : Sw.keeps ps s₀ s) :
    Sw.keeps ps s₀ (seedCtx s) := by
  unfold seedCtx
  cases h : createCtx 0 { seedCfg with minor := s.sec.runMinor } {} s with
  | none => exact h₀
  | some t => exact createCtx_keeps h (partsIn_trans (by decide) hk₀) h₀

theorem rebind_keeps {ps : List Piece} {s₀ s : Sw} (hk₀ : partsIn parts66 ps = true) (h₀ : Sw.keeps ps s₀ s) :
    Sw.keeps ps s₀ (rebind s) := by
  unfold rebind
  repeat'
    first
    | with_reducible first | assumption | intro _ | apply keeps_ite | apply mapCtx_keeps | apply raiseCtx_keeps | apply rejoin_keeps | apply sendBound_keeps | apply settle_keeps | apply unbindSeedling_keeps | apply unmapCtx_keeps | apply setCtx_keeps | apply setBinding_keeps | apply evTimes_keeps | apply modGlb_keeps | apply each_keeps | exact partsIn_trans (by decide) hk₀
    | exact fun _ => rfl
    | dsimp only
    | split

theorem reboundOp_keeps {ps : List Piece} {s₀ s : Sw} (hk₀ : partsIn parts66 ps = true) (h₀ : Sw.keeps ps s₀ s) :
    Sw.keeps ps s₀ (reboundOp s) := by
  unfold reboundOp
  repeat'
    first
    | with_reducible first | assumption | intro _ | apply keeps_ite | apply rebind_keeps

/-! ### Store -/

theorem attachStore_keeps {ps : List Piece} {x : Nat} {c : Ctx} {old : Bool} {t' : Store} {s₀ s t : Sw}
    (he : attachStore x c old t' s = some t) (hk₀ : partsIn [.evqs, .msix, .cxl, .pool, .ctxs, .outs] ps = true)
    (h₀ : Sw.keeps ps s₀ s) : Sw.keeps ps s₀ t := by
  unfold attachStore at he
  simp only [Option.map_eq_some_iff] at he
  obtain ⟨⟨q, u⟩, hu, rfl⟩ := he
  have h := takeShards_keeps hu (partsIn_trans (by decide) hk₀) h₀
  repeat'
    first
    | with_reducible first | assumption | apply raiseCtx_keeps | apply modCtx_keeps | exact partsIn_trans (by decide) hk₀
    | split

theorem reclaim_keeps {ps : List Piece} {x job : Nat} {t : Store} {s₀ s : Sw} (hk₀ : partsIn [.pool, .rcv] ps = true) (h₀ : Sw.keeps ps s₀ s) :
    Sw.keeps ps s₀ (reclaim x job t s) := by
  unfold reclaim
  repeat'
    first
    | with_reducible first | assumption | intro _ | apply keeps_ite | apply poolHand_keeps | apply modRec_keeps | exact partsIn_trans (by decide) hk₀

theorem storeCreateOp_keeps {ps : List Piece} {b : Sub} {t : Tok} {s₀ s : Sw} (hk₀ : partsIn parts63 ps = true) (h₀ : Sw.keeps ps s₀ s) :
    Sw.keeps ps s₀ (storeCreateOp b t s) := by
  unfold storeCreateOp
  repeat'
    first
    | with_reducible first | assumption | intro _ | apply keeps_ite | (apply attachStore_keeps; assumption) | apply complete_keeps | apply guardDesc_keeps | apply reclaim_keeps | apply settle_keeps | apply spaceLimit_keeps | exact partsIn_trans (by decide) hk₀
    | dsimp only
    | split

theorem destroyStore_keeps {ps : List Piece} {x : Nat} {s₀ s : Sw} (hk₀ : partsIn [.rings, .evqs, .msix, .cxl, .pool, .ctxs, .migQueues, .outs] ps = true) (h₀ : Sw.keeps ps s₀ s) :
    Sw.keeps ps s₀ (destroyStore x s) := by
  unfold destroyStore
  repeat'
    first
    | with_reducible first | assumption | intro _ | apply keeps_ite | apply emptyShard_keeps | apply freeEntries_keeps | apply poolFreeBy_keeps | apply stepDone_keeps | apply modCtx_keeps | apply each_keeps | exact partsIn_trans (by decide) hk₀
    | dsimp only
    | split

theorem storeDestroyOp_keeps {ps : List Piece} {b : Sub} {t : Tok} {s₀ s : Sw} (hk₀ : partsIn parts63 ps = true) (h₀ : Sw.keeps ps s₀ s) :
    Sw.keeps ps s₀ (storeDestroyOp b t s) := by
  unfold storeDestroyOp
  repeat'
    first
    | with_reducible first | assumption | intro _ | apply keeps_ite | apply complete_keeps | apply destroyStore_keeps | apply guardDesc_keeps | apply settle_keeps | exact partsIn_trans (by decide) hk₀
    | dsimp only
    | split

theorem storeLoadOp_keeps {ps : List Piece} {b : Sub} {t : Tok} {s₀ s : Sw} (hk₀ : partsIn parts63 ps = true) (h₀ : Sw.keeps ps s₀ s) :
    Sw.keeps ps s₀ (storeLoadOp b t s) := by
  unfold storeLoadOp
  repeat'
    first
    | with_reducible first | assumption | intro _ | apply keeps_ite | apply commitRecord_keeps | apply complete_keeps | apply guardDesc_keeps | apply hostGuard_keeps | apply migDecide_keeps | apply settle_keeps | apply modShard_keeps | exact partsIn_trans (by decide) hk₀
    | dsimp only
    | split

theorem goneEvent_keeps {ps : List Piece} {x k named v : Nat} {s₀ s : Sw} (hk₀ : partsIn [.evqs, .msix, .outs] ps = true) (h₀ : Sw.keeps ps s₀ s) :
    Sw.keeps ps s₀ (goneEvent x k named v s) := by
  unfold goneEvent
  repeat'
    first
    | with_reducible first | assumption | intro _ | apply keeps_ite | apply raiseCtx_keeps

theorem storeReadOp_keeps {ps : List Piece} {b : Sub} {t : Tok} {s₀ s : Sw} (hk₀ : partsIn parts13 ps = true) (h₀ : Sw.keeps ps s₀ s) :
    Sw.keeps ps s₀ (storeReadOp b t s) := by
  unfold storeReadOp
  repeat'
    first
    | with_reducible first | assumption | intro _ | apply keeps_ite | apply complete_keeps | apply goneEvent_keeps | apply guardDesc_keeps | apply hostGuard_keeps | apply hostWrite_keeps | exact partsIn_trans (by decide) hk₀
    | dsimp only
    | split

theorem storeUnpinOp_keeps {ps : List Piece} {b : Sub} {t : Tok} {s₀ s : Sw} (hk₀ : partsIn parts63 ps = true) (h₀ : Sw.keeps ps s₀ s) :
    Sw.keeps ps s₀ (storeUnpinOp b t s) := by
  unfold storeUnpinOp
  repeat'
    first
    | with_reducible first | assumption | intro _ | apply keeps_ite | apply complete_keeps | apply guardDesc_keeps | apply settle_keeps | apply modStore_keeps | apply each_keeps | exact partsIn_trans (by decide) hk₀
    | dsimp only
    | split

theorem recPlace_keeps {ps : List Piece} {r : Option CommitRec} {k : Nat} {s₀ s : Sw} (hk₀ : partsIn [.freeCtr] ps = true)
    (h₀ : Sw.keeps ps s₀ s) : Sw.keeps ps s₀ (recPlace r k s).2 := by
  unfold recPlace
  split
  · exact h₀
  · exact fold_keeps (Prod.snd (α := List Byte)) _ (fun b x h => draw_keeps hk₀ h) _ (([] : List Byte), s) h₀

theorem storeLogReadOp_keeps {ps : List Piece} {b : Sub} {t : Tok} {s₀ s : Sw} (hk₀ : partsIn [.rings, .evqs, .msix, .outs, .freeCtr] ps = true)
    (h₀ : Sw.keeps ps s₀ s) : Sw.keeps ps s₀ (storeLogReadOp b t s) := by
  unfold storeLogReadOp
  repeat'
    first
    | with_reducible first | assumption | apply complete_keeps | apply guardDesc_keeps | apply hostGuard_keeps | apply hostWrite_keeps | intro _ | exact partsIn_trans (by decide) hk₀
    | split
    | dsimp only
    | (refine fold_keeps (Prod.snd (α := List Byte)) _ (fun b x h => ?_) _ _ (by assumption)
       exact recPlace_keeps (partsIn_trans (by decide) hk₀) (recPlace_keeps (partsIn_trans (by decide) hk₀) h))

theorem keepVersions_keeps {ps : List Piece} {x : Nat} {vs : SMap Nat} {s₀ s : Sw} (hk₀ : partsIn parts31 ps = true) (h₀ : Sw.keeps ps s₀ s) :
    Sw.keeps ps s₀ (keepVersions x vs s) := by
  unfold keepVersions
  repeat'
    first
    | with_reducible first | assumption | intro _ | apply keeps_ite | apply makeEntry_keeps | apply raiseCtx_keeps | apply each_keeps | exact partsIn_trans (by decide) hk₀

theorem noteGather_keeps {ps : List Piece} {x o : Nat} {g : GatherReq} {s₀ s : Sw} (hk₀ : partsIn parts58 ps = true) (h₀ : Sw.keeps ps s₀ s) :
    Sw.keeps ps s₀ (noteGather x o g s) := by
  unfold noteGather
  repeat'
    first
    | with_reducible first | assumption | intro _ | apply keeps_ite | apply failHere_keeps | apply modCtx_keeps | apply modOp_keeps | exact partsIn_trans (by decide) hk₀
    | dsimp only
    | split

theorem rangeCheck_keeps {ps : List Piece} {x o first count : Nat} {s₀ s : Sw} (hk₀ : partsIn parts58 ps = true) (h₀ : Sw.keeps ps s₀ s) :
    Sw.keeps ps s₀ (rangeCheck x o first count s) := by
  unfold rangeCheck
  repeat'
    first
    | with_reducible first | assumption | intro _ | apply keeps_ite | apply failHere_keeps | exact partsIn_trans (by decide) hk₀
    | dsimp only
    | split

theorem storeGatherOp_keeps {ps : List Piece} {b : Sub} {t : Tok} {s₀ s : Sw} (hk₀ : partsIn parts63 ps = true) (h₀ : Sw.keeps ps s₀ s) :
    Sw.keeps ps s₀ (storeGatherOp b t s) := by
  unfold storeGatherOp
  repeat'
    first
    | with_reducible first | assumption | intro _ | apply keeps_ite | apply complete_keeps | apply completeR_keeps | apply goneEvent_keeps | apply guardDesc_keeps | apply keepVersions_keeps | apply noteGather_keeps | apply rangeCheck_keeps | apply settle_keeps | apply takePins_keeps | exact partsIn_trans (by decide) hk₀
    | dsimp only
    | split

theorem takeAuto_keeps {ps : List Piece} {x : Nat} {cfg : CtxCfg} {t : Store} {e : Nat × ShardEnt} {s₀ s u : Sw}
    (he : takeAuto x cfg t e s = some u) (hk₀ : partsIn [.evTimes, .evqs, .msix, .pool, .ctxs, .outs] ps = true) (h₀ : Sw.keeps ps s₀ s) : Sw.keeps ps s₀ u := by
  unfold takeAuto at he
  split at he
  · cases he; exact h₀
  · split at he
    · cases he; exact h₀
    · simp only [Option.map_eq_some_iff] at he
      obtain ⟨v, hv, rfl⟩ := he
      exact modShard_keeps (partsIn_trans (by decide) hk₀) (poolTake_keeps hv (partsIn_trans (by decide) hk₀) h₀)

theorem takeIncoming_keeps {ps : List Piece} {x : Nat} {c : Ctx} {new : List ShardEnt} {s₀ s t : Sw}
    (he : takeIncoming x c new s = some t) (hk₀ : partsIn [.evTimes, .evqs, .msix, .cxl, .pool, .ctxs, .outs] ps = true)
    (h₀ : Sw.keeps ps s₀ s) : Sw.keeps ps s₀ t := by
  unfold takeIncoming at he
  split at he
  · cases he; exact h₀
  · next st _ =>
    simp only [Option.bind_eq_some_iff] at he
    obtain ⟨⟨q, u⟩, hu, he⟩ := he
    have key : ∀ (l : List (Nat × ShardEnt)) (acc : Option Sw), (∀ v, acc = some v → Sw.keeps ps s₀ v) →
        ∀ v, l.foldl (fun (a : Option Sw) e => a.bind (takeAuto x c.cfg st e)) acc = some v → Sw.keeps ps s₀ v := by
      intro l
      induction l with
      | nil => exact fun acc h => h
      | cons e l ih =>
        refine fun acc h => ih _ (fun v hv => ?_)
        obtain ⟨w, hw, hv⟩ := Option.bind_eq_some_iff.mp hv
        exact takeAuto_keeps hv (partsIn_trans (by decide) hk₀) (h w hw)
    refine key _ _ (fun v hv => ?_) t he
    cases hv
    exact modStore_keeps (partsIn_trans (by decide) hk₀) (takeShards_keeps hu (partsIn_trans (by decide) hk₀) h₀)

theorem storeReshardOp_keeps {ps : List Piece} {b : Sub} {t : Tok} {s₀ s : Sw} (hk₀ : partsIn parts63 ps = true) (h₀ : Sw.keeps ps s₀ s) :
    Sw.keeps ps s₀ (storeReshardOp b t s) := by
  unfold storeReshardOp
  repeat'
    first
    | with_reducible first | assumption | intro _ | apply keeps_ite | (apply takeIncoming_keeps; assumption) | apply complete_keeps | apply guardDesc_keeps | apply hostGuard_keeps | apply raiseCtx_keeps | apply settle_keeps | apply spaceLimit_keeps | apply modCtx_keeps | exact partsIn_trans (by decide) hk₀
    | dsimp only
    | split

theorem moveStart_keeps {ps : List Piece} {x : Nat} {s₀ s : Sw} (hk₀ : partsIn parts63 ps = true) (h₀ : Sw.keeps ps s₀ s) :
    Sw.keeps ps s₀ (moveStart x s) := by
  unfold moveStart
  repeat'
    first
    | with_reducible first | assumption | intro _ | apply keeps_ite | apply imageCheck_keeps | apply moveImage_keeps | apply settle_keeps | apply setCtx_keeps | apply each_keeps | exact partsIn_trans (by decide) hk₀
    | dsimp only
    | split

theorem drainTimeout_keeps {ps : List Piece} {x : Nat} {s₀ s : Sw} (hk₀ : partsIn parts3 ps = true) (h₀ : Sw.keeps ps s₀ s) :
    Sw.keeps ps s₀ (drainTimeout x s) := by
  unfold drainTimeout
  repeat'
    first
    | with_reducible first | assumption | intro _ | apply keeps_ite | apply raiseCtx_keeps | apply setCtx_keeps | exact partsIn_trans (by decide) hk₀
    | dsimp only
    | split

theorem moveData_keeps {ps : List Piece} {x k block : Nat} {data : List Byte} {e epoch : Nat} {old : List ShardEnt} {s₀ s : Sw} (hk₀ : partsIn parts48 ps = true) (h₀ : Sw.keeps ps s₀ s) :
    Sw.keeps ps s₀ (moveData x k block data e epoch old s) := by
  unfold moveData
  repeat'
    first
    | with_reducible first | assumption | intro _ | apply keeps_ite | apply ackMove_keeps | apply imageCheck_keeps | apply modCtx_keeps | exact partsIn_trans (by decide) hk₀
    | dsimp only
    | split

theorem moveAck_keeps {ps : List Piece} {x k : Nat} {good : Bool} {new : List ShardEnt} {s₀ s : Sw} (hk₀ : partsIn parts55 ps = true) (h₀ : Sw.keeps ps s₀ s) :
    Sw.keeps ps s₀ (moveAck x k good new s) := by
  unfold moveAck
  repeat'
    first
    | with_reducible first | assumption | intro _ | apply keeps_ite | apply clearShard_keeps | apply commitRecord_keeps | apply emptyShard_keeps | apply moveImage_keeps | apply modCtx_keeps | exact partsIn_trans (by decide) hk₀
    | dsimp only
    | split

theorem moveOp_keeps {ps : List Piece} {x q : Nat} {m : Cell} {s₀ s : Sw} (hk₀ : partsIn parts63 ps = true) (h₀ : Sw.keeps ps s₀ s) :
    Sw.keeps ps s₀ (moveOp x q m s) := by
  unfold moveOp
  repeat'
    first
    | with_reducible first | assumption | intro _ | apply keeps_ite | apply moveAck_keeps | apply moveData_keeps | apply sendMove_keeps | apply settle_keeps | exact partsIn_trans (by decide) hk₀
    | dsimp only
    | split

theorem resendImage_keeps {ps : List Piece} {x k : Nat} {s₀ s : Sw} (hk₀ : partsIn parts32 ps = true) (h₀ : Sw.keeps ps s₀ s) :
    Sw.keeps ps s₀ (resendImage x k s) := by
  unfold resendImage
  repeat'
    first
    | with_reducible first | assumption | intro _ | apply keeps_ite | apply moveImage_keeps | exact partsIn_trans (by decide) hk₀
    | dsimp only
    | split

theorem areaWrite_keeps {ps : List Piece} {x o k : Nat} {s₀ s : Sw} (hk₀ : partsIn parts63 ps = true) (h₀ : Sw.keeps ps s₀ s) :
    Sw.keeps ps s₀ (areaWrite x o k s) := by
  unfold areaWrite
  repeat'
    first
    | with_reducible first | assumption | intro _ | apply keeps_ite | apply commitStore_keeps | apply gradWrite_keeps | apply mirrorResume_keeps | apply settle_keeps | apply modCtx_keeps | apply modOp_keeps | exact partsIn_trans (by decide) hk₀
    | dsimp only
    | split

theorem pinResume_keeps {ps : List Piece} {x k : Nat} {s₀ s : Sw} (hk₀ : partsIn [.evTimes, .evqs, .msix, .tiles, .pool, .ctxs, .outs] ps = true) (h₀ : Sw.keeps ps s₀ s) :
    Sw.keeps ps s₀ (pinResume x k s) := by
  unfold pinResume
  repeat'
    first
    | with_reducible first | assumption | intro _ | apply keeps_ite | apply pinsToCache_keeps | apply agStart_keeps | apply beginWrite_keeps | exact partsIn_trans (by decide) hk₀
    | dsimp only
    | split

/-! ### Update -/

theorem kernelLoadOp_keeps {ps : List Piece} {b : Sub} {t : Tok} {s₀ s : Sw} (hk₀ : partsIn parts27 ps = true) (h₀ : Sw.keeps ps s₀ s) :
    Sw.keeps ps s₀ (kernelLoadOp b t s) := by
  unfold kernelLoadOp
  repeat'
    first
    | with_reducible first | assumption | intro _ | apply keeps_ite | apply complete_keeps | apply guardDesc_keeps | apply hostGuard_keeps | apply modKernels_keeps | exact partsIn_trans (by decide) hk₀

theorem kernelFreeOp_keeps {ps : List Piece} {b : Sub} {t : Tok} {s₀ s : Sw} (hk₀ : partsIn parts27 ps = true) (h₀ : Sw.keeps ps s₀ s) :
    Sw.keeps ps s₀ (kernelFreeOp b t s) := by
  unfold kernelFreeOp
  repeat'
    first
    | with_reducible first | assumption | intro _ | apply keeps_ite | apply complete_keeps | apply guardDesc_keeps | apply modKernels_keeps | exact partsIn_trans (by decide) hk₀

theorem layerSpace_keeps {ps : List Piece} {x : Nat} {s₀ s t : Sw} (he : layerSpace x s = some t)
    (hk₀ : partsIn [.evTimes, .evqs, .msix, .pool, .ctxs, .outs] ps = true) (h₀ : Sw.keeps ps s₀ s) : Sw.keeps ps s₀ t := by
  unfold layerSpace at he
  split at he
  · split at he
    · cases he; exact h₀
    · simp only [Option.map_eq_some_iff] at he
      obtain ⟨v, hv, rfl⟩ := he
      exact modStore_keeps (partsIn_trans (by decide) hk₀) (poolTake_keeps hv (partsIn_trans (by decide) hk₀) h₀)
  · cases he

theorem layerClear_keeps {ps : List Piece} {x k : Nat} {s₀ s : Sw} (hk₀ : partsIn parts20 ps = true) (h₀ : Sw.keeps ps s₀ s) :
    Sw.keeps ps s₀ (layerClear x k s) := by
  unfold layerClear
  repeat'
    first
    | with_reducible first | assumption | intro _ | apply keeps_ite | apply poolFreeBy_keeps | apply modStore_keeps | exact partsIn_trans (by decide) hk₀
    | dsimp only
    | split

theorem layerLimit_keeps {ps : List Piece} {x : Nat} {s₀ s : Sw} (hk₀ : partsIn parts31 ps = true) (h₀ : Sw.keeps ps s₀ s) :
    Sw.keeps ps s₀ (layerLimit x s) := by
  unfold layerLimit
  repeat'
    first
    | with_reducible first | assumption | intro _ | apply keeps_ite | (apply layerSpace_keeps; assumption) | apply limitEvent_keeps | exact partsIn_trans (by decide) hk₀
    | dsimp only
    | split

theorem layerConfigOp_keeps {ps : List Piece} {b : Sub} {t : Tok} {s₀ s : Sw} (hk₀ : partsIn [.evTimes, .rings, .evqs, .msix, .pool, .ctxs, .outs] ps = true) (h₀ : Sw.keeps ps s₀ s) :
    Sw.keeps ps s₀ (layerConfigOp b t s) := by
  unfold layerConfigOp
  repeat'
    first
    | with_reducible first | assumption | intro _ | apply keeps_ite | (apply layerSpace_keeps; assumption) | apply complete_keeps | apply guardDesc_keeps | apply hostGuard_keeps | apply layerClear_keeps | apply layerLimit_keeps | apply modStore_keeps | exact partsIn_trans (by decide) hk₀
    | dsimp only
    | split

theorem resumeStep_keeps {ps : List Piece} {x u : Nat} {factor gnorm : Quad} {s₀ s : Sw} (hk₀ : partsIn parts56 ps = true) (h₀ : Sw.keeps ps s₀ s) :
    Sw.keeps ps s₀ (resumeStep x u factor gnorm s) := by
  unfold resumeStep
  repeat'
    first
    | with_reducible first | assumption | intro _ | apply keeps_ite | apply clearFull_keeps | apply enterRunning_keeps | apply modStore_keeps | apply modStep_keeps | apply each_keeps | exact partsIn_trans (by decide) hk₀
    | dsimp only
    | split

theorem updateStartOp_keeps {ps : List Piece} {b : Sub} {t : Tok} {s₀ s : Sw} (hk₀ : partsIn parts63 ps = true) (h₀ : Sw.keeps ps s₀ s) :
    Sw.keeps ps s₀ (updateStartOp b t s) := by
  unfold updateStartOp
  repeat'
    first
    | with_reducible first | assumption | intro _ | apply keeps_ite | apply complete_keeps | apply guardDesc_keeps | apply resumeStep_keeps | apply settle_keeps | apply modStore_keeps | exact partsIn_trans (by decide) hk₀
    | dsimp only
    | split

theorem abandonStep_keeps {ps : List Piece} {x u : Nat} {s₀ s : Sw} (hk₀ : partsIn [.tiles, .ctxs] ps = true) (h₀ : Sw.keeps ps s₀ s) :
    Sw.keeps ps s₀ (abandonStep x u s) := by
  unfold abandonStep
  repeat'
    first
    | with_reducible first | assumption | intro _ | apply keeps_ite | apply abandonWrite_keeps | apply agStop_keeps | apply each_keeps | exact partsIn_trans (by decide) hk₀
    | dsimp only
    | split

theorem abortStep_keeps {ps : List Piece} {x u : Nat} {s₀ s : Sw} (hk₀ : partsIn [.rings, .evqs, .msix, .tiles, .ctxs, .outs] ps = true) (h₀ : Sw.keeps ps s₀ s) :
    Sw.keeps ps s₀ (abortStep x u s) := by
  unfold abortStep
  repeat'
    first
    | with_reducible first | assumption | intro _ | apply keeps_ite | apply abandonStep_keeps | apply restoreSnap_keeps | apply stepDone_keeps | exact partsIn_trans (by decide) hk₀
    | dsimp only
    | split

theorem updateAbortOp_keeps {ps : List Piece} {b : Sub} {t : Tok} {s₀ s : Sw} (hk₀ : partsIn parts63 ps = true) (h₀ : Sw.keeps ps s₀ s) :
    Sw.keeps ps s₀ (updateAbortOp b t s) := by
  unfold updateAbortOp
  repeat'
    first
    | with_reducible first | assumption | intro _ | apply keeps_ite | apply abortStep_keeps | apply complete_keeps | apply guardDesc_keeps | apply settle_keeps | exact partsIn_trans (by decide) hk₀
    | dsimp only
    | split

theorem normResultArrive_keeps {ps : List Piece} {x u step word : Nat} {an : Int} {nonfinite mismatch : Bool} {m : Cell} {s₀ s : Sw} (hk₀ : partsIn parts61 ps = true) (h₀ : Sw.keeps ps s₀ s) :
    Sw.keeps ps s₀ (normResultArrive x u step word an nonfinite mismatch m s) := by
  unfold normResultArrive
  repeat'
    first
    | with_reducible first | assumption | intro _ | apply keeps_ite | apply ctxCtrl_keeps | apply stepResult_keeps | apply modStore_keeps | apply each_keeps | exact partsIn_trans (by decide) hk₀
    | dsimp only
    | split

theorem normOp_keeps {ps : List Piece} {x q : Nat} {m : Cell} {s₀ s : Sw} (hk₀ : partsIn parts63 ps = true) (h₀ : Sw.keeps ps s₀ s) :
    Sw.keeps ps s₀ (normOp x q m s) := by
  unfold normOp
  repeat'
    first
    | with_reducible first | assumption | intro _ | apply keeps_ite | apply ctxCtrl_keeps | apply normCount_keeps | apply normResultArrive_keeps | apply settle_keeps | exact partsIn_trans (by decide) hk₀
    | dsimp only
    | split

theorem normResend_keeps {ps : List Piece} {x u : Nat} {s₀ s : Sw} (hk₀ : partsIn parts63 ps = true) (h₀ : Sw.keeps ps s₀ s) :
    Sw.keeps ps s₀ (normResend x u s) := by
  unfold normResend
  repeat'
    first
    | with_reducible first | assumption | intro _ | apply keeps_ite | apply sendContrib_keeps | apply settle_keeps | exact partsIn_trans (by decide) hk₀
    | dsimp only
    | split

theorem gradWaitEvent_keeps {ps : List Piece} {x u : Nat} {s₀ s : Sw} (hk₀ : partsIn parts3 ps = true) (h₀ : Sw.keeps ps s₀ s) :
    Sw.keeps ps s₀ (gradWaitEvent x u s) := by
  unfold gradWaitEvent
  repeat'
    first
    | with_reducible first | assumption | intro _ | apply keeps_ite | apply stepOnce_keeps | exact partsIn_trans (by decide) hk₀
    | dsimp only
    | split

theorem normWaitEvent_keeps {ps : List Piece} {x u : Nat} {s₀ s : Sw} (hk₀ : partsIn parts3 ps = true) (h₀ : Sw.keeps ps s₀ s) :
    Sw.keeps ps s₀ (normWaitEvent x u s) := by
  unfold normWaitEvent
  repeat'
    first
    | with_reducible first | assumption | intro _ | apply keeps_ite | apply stepOnce_keeps | exact partsIn_trans (by decide) hk₀
    | dsimp only
    | split

theorem layerPre_keeps {ps : List Piece} {x u layer : Nat} {s₀ s : Sw} (hk₀ : partsIn parts63 ps = true) (h₀ : Sw.keeps ps s₀ s) :
    Sw.keeps ps s₀ (layerPre x u layer s) := by
  unfold layerPre
  repeat'
    first
    | with_reducible first | assumption | intro _ | apply keeps_ite | apply agStop_keeps | apply engineGo_keeps | apply settle_keeps | apply modStep_keeps | apply each_keeps | exact partsIn_trans (by decide) hk₀
    | dsimp only
    | split

theorem poisoned_keeps {ps : List Piece} {unit addr : Nat} {s₀ s : Sw} (hk₀ : partsIn parts4 ps = true) (h₀ : Sw.keeps ps s₀ s) :
    Sw.keeps ps s₀ (poisoned unit addr s) := by
  unfold poisoned
  repeat'
    first
    | with_reducible first | assumption | intro _ | apply keeps_ite | apply raiseSys_keeps | apply modRoot_keeps | exact partsIn_trans (by decide) hk₀

theorem abandonShard_keeps {ps : List Piece} {x u k stack ta : Nat} {s₀ s : Sw} (hk₀ : partsIn parts63 ps = true) (h₀ : Sw.keeps ps s₀ s) :
    Sw.keeps ps s₀ (abandonShard x u k stack ta s) := by
  unfold abandonShard
  repeat'
    first
    | with_reducible first | assumption | intro _ | apply keeps_ite | apply abandonWrite_keeps | apply agStop_keeps | apply engineGo_keeps | apply poisoned_keeps | apply settle_keeps | apply stepCheck_keeps | apply stepEvent_keeps | apply modStep_keeps | exact partsIn_trans (by decide) hk₀
    | dsimp only
    | split

theorem blockChecks_keeps {ps : List Piece} {x step k g : Nat} {blocks : List Nat} {s₀ s : Sw} (hk₀ : partsIn [.evTimes, .wear, .evqs, .msix, .tiles, .ctxs, .rcv, .outs, .freeCtr] ps = true)
    (h₀ : Sw.keeps ps s₀ s) : Sw.keeps ps s₀ (blockChecks x step k g blocks s).2 := by
  unfold blockChecks
  refine fold_keeps Prod.snd _ (fun b v h => ?_) _ _ h₀
  split <;> next e => exact keeps_ofPair e (shadowCheck_keeps (partsIn_trans (by decide) hk₀) h)

theorem commitShard_keeps {ps : List Piece} {x u k : Nat} {s₀ s : Sw} (hk₀ : partsIn parts63 ps = true) (h₀ : Sw.keeps ps s₀ s) :
    Sw.keeps ps s₀ (commitShard x u k s) := by
  unfold commitShard
  repeat'
    first
    | with_reducible first | assumption | intro _ | apply keeps_ite | apply blockChecks_keeps | apply abandonShard_keeps | apply afterCommit_keeps | apply agStart_keeps | apply agStop_keeps | apply commitRecord_keeps | apply settle_keeps | apply staleTell_keeps | apply stepEvent_keeps | apply stepOnce_keeps | apply out_keeps | apply modShard_keeps | exact partsIn_trans (by decide) hk₀
    | dsimp only
    | split
    | (apply keeps_ofPair; assumption)

theorem commitIdle_keeps {ps : List Piece} {x u k : Nat} {s₀ s : Sw} (hk₀ : partsIn parts63 ps = true) (h₀ : Sw.keeps ps s₀ s) :
    Sw.keeps ps s₀ (commitIdle x u k s) := by
  unfold commitIdle
  repeat'
    first
    | with_reducible first | assumption | intro _ | apply keeps_ite | apply afterCommit_keeps | apply commitRecord_keeps | apply settle_keeps | apply staleTell_keeps | apply modShard_keeps | exact partsIn_trans (by decide) hk₀
    | dsimp only
    | split

theorem noSpace_keeps {ps : List Piece} {x k tier : Nat} {s₀ s : Sw} (hk₀ : partsIn parts44 ps = true) (h₀ : Sw.keeps ps s₀ s) :
    Sw.keeps ps s₀ (noSpace x k tier s) := by
  unfold noSpace
  repeat'
    first
    | with_reducible first | assumption | intro _ | apply keeps_ite | apply migStop_keeps | apply raiseCtx_keeps | exact partsIn_trans (by decide) hk₀

theorem migStart_keeps {ps : List Piece} {g : Nat} {s₀ s : Sw} (hk₀ : partsIn parts46 ps = true) (h₀ : Sw.keeps ps s₀ s) :
    Sw.keeps ps s₀ (migStart g s) := by
  unfold migStart
  repeat'
    first
    | with_reducible first | assumption | intro _ | apply keeps_ite | (apply poolTake_keeps; assumption) | (apply takeT2_keeps; assumption) | apply limitEvent_keeps | apply noSpace_keeps | apply modShard_keeps | apply modMigs_keeps | exact partsIn_trans (by decide) hk₀
    | dsimp only
    | split

theorem freeAuto_keeps {ps : List Piece} {x : Nat} {t : Store} {cfg : CtxCfg} {h : Shard} {count : Nat} {s₀ s : Sw} (hk₀ : partsIn parts7 ps = true) (h₀ : Sw.keeps ps s₀ s) :
    Sw.keeps ps s₀ (freeAuto x t cfg h count s) := by
  unfold freeAuto
  repeat'
    first
    | with_reducible first | assumption | intro _ | apply keeps_ite | apply poolFreeBy_keeps | apply modPool_keeps | exact partsIn_trans (by decide) hk₀
    | dsimp only
    | split

theorem migError_keeps {ps : List Piece} {g unit address : Nat} {s₀ s : Sw} (hk₀ : partsIn parts63 ps = true) (h₀ : Sw.keeps ps s₀ s) :
    Sw.keeps ps s₀ (migError g unit address s) := by
  unfold migError
  repeat'
    first
    | with_reducible first | assumption | intro _ | apply keeps_ite | apply engineGo_keeps | apply migStop_keeps | apply poisoned_keeps | apply raiseCtx_keeps | apply settle_keeps | exact partsIn_trans (by decide) hk₀
    | dsimp only
    | split

theorem migDone_keeps {ps : List Piece} {g : Nat} {s₀ s : Sw} (hk₀ : partsIn parts63 ps = true) (h₀ : Sw.keeps ps s₀ s) :
    Sw.keeps ps s₀ (migDone g s) := by
  unfold migDone
  repeat'
    first
    | with_reducible first | assumption | intro _ | apply keeps_ite | apply engineGo_keeps | apply freeAuto_keeps | apply freeT2_keeps | apply migError_keeps | apply raiseCtx_keeps | apply settle_keeps | apply modShard_keeps | apply modMigs_keeps | exact partsIn_trans (by decide) hk₀
    | dsimp only
    | split

/-! ### Tiles -/

theorem digestError_keeps {ps : List Piece} {x o key : Nat} {s₀ s : Sw} (hk₀ : partsIn [.ctxs] ps = true) (h₀ : Sw.keeps ps s₀ s) :
    Sw.keeps ps s₀ (digestError x o key s) := by
  unfold digestError
  repeat'
    first
    | with_reducible first | assumption | intro _ | apply keeps_ite | apply modCtx_keeps

theorem loseTile_keeps {ps : List Piece} {q : Nat} {s₀ s : Sw} (hk₀ : partsIn [.portQ, .ctxs] ps = true) (h₀ : Sw.keeps ps s₀ s) :
    Sw.keeps ps s₀ (loseTile q s) := by
  unfold loseTile
  repeat'
    first
    | with_reducible first | assumption | intro _ | apply keeps_ite | apply digestError_keeps | apply modQ_keeps | apply modCtxs_keeps | apply each_keeps | exact partsIn_trans (by decide) hk₀

theorem restartShards_keeps {ps : List Piece} {g tile : Nat} {s₀ s : Sw} (hk₀ : partsIn parts11 ps = true) (h₀ : Sw.keeps ps s₀ s) :
    Sw.keeps ps s₀ (restartShards g tile s) := by
  unfold restartShards
  repeat'
    first
    | with_reducible first | assumption | intro _ | apply keeps_ite | apply agStart_keeps | apply agStop_keeps | apply stepEvent_keeps | apply each_keeps | exact partsIn_trans (by decide) hk₀
    | dsimp only
    | split

theorem quarantineEvent_keeps {ps : List Piece} {p : Nat} {q : Option Nat} {cause what : Nat} {s₀ s : Sw} (hk₀ : partsIn [.evqs, .msix, .outs] ps = true) (h₀ : Sw.keeps ps s₀ s) :
    Sw.keeps ps s₀ (quarantineEvent p q cause what s) := by
  unfold quarantineEvent
  repeat'
    first
    | with_reducible first | assumption | intro _ | apply keeps_ite | apply raiseSys_keeps

theorem tileReset_keeps {ps : List Piece} {p trig : Nat} {s₀ s : Sw} (hk₀ : partsIn [.tiles] ps = true) (h₀ : Sw.keeps ps s₀ s) :
    Sw.keeps ps s₀ (tileReset p trig s) := by
  unfold tileReset
  repeat'
    first
    | with_reducible first | assumption | intro _ | apply keeps_ite | apply modTile_keeps

theorem selfTested_keeps {ps : List Piece} {p : Nat} {pass : Bool} {s₀ s : Sw} (hk₀ : partsIn parts11 ps = true) (h₀ : Sw.keeps ps s₀ s) :
    Sw.keeps ps s₀ (selfTested p pass s) := by
  unfold selfTested
  repeat'
    first
    | with_reducible first | assumption | intro _ | apply keeps_ite | apply raiseSys_keeps | apply modTile_keeps | exact partsIn_trans (by decide) hk₀

theorem carry_keeps {ps : List Piece} {p q : Nat} {s₀ s : Sw} (hk₀ : partsIn [.tiles] ps = true) (h₀ : Sw.keeps ps s₀ s) :
    Sw.keeps ps s₀ (carry p q s) := by
  unfold carry
  repeat'
    first
    | with_reducible first | assumption | intro _ | apply keeps_ite | apply modTile_keeps

theorem tileOut_keeps {ps : List Piece} {q : Nat} {s₀ s : Sw} (hk₀ : partsIn parts70 ps = true) (h₀ : Sw.keeps ps s₀ s) :
    Sw.keeps ps s₀ (tileOut q s) := by
  unfold tileOut
  repeat'
    first
    | with_reducible first | assumption | intro _ | apply keeps_ite | apply loseTile_keeps | apply poolWarnAll_keeps | apply raiseSys_keeps | apply settleAll_keeps | apply toDark_keeps | apply modCtxs_keeps | apply modTakeovers_keeps | apply each_keeps | exact partsIn_trans (by decide) hk₀

theorem quarantine_keeps {ps : List Piece} {p cause : Nat} {s₀ s : Sw} (hk₀ : partsIn parts70 ps = true) (h₀ : Sw.keeps ps s₀ s) :
    Sw.keeps ps s₀ (quarantine p cause s) := by
  unfold quarantine
  repeat'
    first
    | with_reducible first | assumption | intro _ | apply keeps_ite | apply carry_keeps | apply loseTile_keeps | apply quarantineEvent_keeps | apply restartShards_keeps | apply tileOut_keeps | apply tileReset_keeps | apply modTile_keeps | apply modTakeovers_keeps | exact partsIn_trans (by decide) hk₀
    | dsimp only
    | split

theorem tileReturn_keeps {ps : List Piece} {g : Nat} {s₀ s : Sw} (hk₀ : partsIn parts68 ps = true) (h₀ : Sw.keeps ps s₀ s) :
    Sw.keeps ps s₀ (tileReturn g s) := by
  unfold tileReturn
  repeat'
    first
    | with_reducible first | assumption | intro _ | apply keeps_ite | apply carry_keeps | apply enterSearch_keeps | apply poolWarnAll_keeps | apply raiseSys_keeps | apply each_keeps | exact partsIn_trans (by decide) hk₀
    | dsimp only
    | split

theorem portReset4_keeps {ps : List Piece} {q : Nat} {s₀ s : Sw} (hk₀ : partsIn parts69 ps = true) (h₀ : Sw.keeps ps s₀ s) :
    Sw.keeps ps s₀ (portReset4 q s) := by
  unfold portReset4
  repeat'
    first
    | with_reducible first | assumption | intro _ | apply keeps_ite | apply downFrames_keeps | apply enterSearch_keeps | apply raiseSys_keeps | apply toDark_keeps | apply modQuad_keeps | apply modReg_keeps | apply modLink_keeps | apply modQ_keeps | apply each_keeps | exact partsIn_trans (by decide) hk₀
    | exact fun _ => rfl
    | (intro; dsimp only; split <;> rfl)
    | dsimp only

theorem takeOverDone_keeps {ps : List Piece} {q : Nat} {s₀ s : Sw} (hk₀ : partsIn [.evTimes, .wear, .time, .sync, .rings, .evqs, .jobs, .flags, .msix, .held, .portReg, .portMap, .portCnt, .portLink, .portQ, .portSec, .quads, .lanes, .tiles, .takeovers, .hbm, .cxl, .pool, .ctxs, .fab, .rcv, .migQueues, .outs, .freeCtr] ps = true) (h₀ : Sw.keeps ps s₀ s) :
    Sw.keeps ps s₀ (takeOverDone q s) := by
  unfold takeOverDone
  repeat'
    first
    | with_reducible first | assumption | intro _ | apply keeps_ite | apply portReset4_keeps | apply resend_keeps | apply sendCredit_keeps | apply settle_keeps | apply trigger_keeps | apply modTakeovers_keeps | apply each_keeps | exact partsIn_trans (by decide) hk₀
    | dsimp only
    | split

theorem selfTestSpare_keeps {ps : List Piece} {p : Nat} {pass : Bool} {s₀ s : Sw} (hk₀ : partsIn parts70 ps = true) (h₀ : Sw.keeps ps s₀ s) :
    Sw.keeps ps s₀ (selfTestSpare p pass s) := by
  unfold selfTestSpare
  repeat'
    first
    | with_reducible first | assumption | intro _ | apply keeps_ite | apply quarantine_keeps | apply modTile_keeps | exact partsIn_trans (by decide) hk₀

theorem clearTile_keeps {ps : List Piece} {p : Nat} {pass : Bool} {s₀ s : Sw} (hk₀ : partsIn parts68 ps = true) (h₀ : Sw.keeps ps s₀ s) :
    Sw.keeps ps s₀ (clearTile p pass s) := by
  unfold clearTile
  repeat'
    first
    | with_reducible first | assumption | intro _ | apply keeps_ite | apply selfTested_keeps | apply tileReset_keeps | apply tileReturn_keeps | apply modTile_keeps | exact partsIn_trans (by decide) hk₀

/-! ### Fabric -/

theorem echoArrive_keeps {ps : List Piece} {p : Nat} {c : Cell} {s₀ s : Sw} (hk₀ : partsIn parts47 ps = true) (h₀ : Sw.keeps ps s₀ s) :
    Sw.keeps ps s₀ (echoArrive p c s) := by
  unfold echoArrive
  repeat'
    first
    | with_reducible first | assumption | intro _ | apply keeps_ite | apply consume_keeps | apply idDiscard_keeps | apply ingress_keeps | apply routeEcho_keeps | apply routeEp_keeps | exact partsIn_trans (by decide) hk₀
    | dsimp only
    | split

theorem paceRaise_keeps {ps : List Piece} {n cdst : Nat} {s₀ s : Sw} (hk₀ : partsIn [.portQ] ps = true) (h₀ : Sw.keeps ps s₀ s) :
    Sw.keeps ps s₀ (paceRaise n cdst s) := by
  unfold paceRaise
  repeat'
    first
    | with_reducible first | assumption | intro _ | apply keeps_ite | apply modQ_keeps

theorem memberStallOp_keeps {ps : List Piece} {n tc : Nat} {s₀ s : Sw} (hk₀ : partsIn parts63 ps = true) (h₀ : Sw.keeps ps s₀ s) :
    Sw.keeps ps s₀ (memberStallOp n tc s) := by
  unfold memberStallOp
  repeat'
    first
    | with_reducible first | assumption | intro _ | apply keeps_ite | apply dropStall_keeps | apply failHere_keeps | apply settle_keeps | apply stallEvent_keeps | apply modCnt_keeps | apply modQ_keeps | apply each_keeps | exact partsIn_trans (by decide) hk₀

theorem stampOut_keeps {ps : List Piece} {n : Nat} {it : TxItem} {s₀ s : Sw} (hk₀ : partsIn [.sync] ps = true) (h₀ : Sw.keeps ps s₀ s) :
    Sw.keeps ps s₀ (stampOut n it s).2 := by
  unfold stampOut
  repeat'
    first
    | with_reducible first | assumption | intro _ | apply keeps_ite | apply modSync_keeps | exact partsIn_trans (by decide) hk₀
    | dsimp only
    | split

theorem freeSent_keeps {ps : List Piece} {x o : Nat} {s₀ s : Sw} (hk₀ : partsIn [.ctxs] ps = true) (h₀ : Sw.keeps ps s₀ s) :
    Sw.keeps ps s₀ (freeSent x o s) := by
  unfold freeSent
  repeat'
    first
    | with_reducible first | assumption | intro _ | apply keeps_ite | apply setCtx_keeps | exact partsIn_trans (by decide) hk₀
    | dsimp only
    | split

theorem applyMark_keeps {ps : List Piece} {m : Mark} {s₀ s : Sw} (hk₀ : partsIn parts63 ps = true) (h₀ : Sw.keeps ps s₀ s) :
    Sw.keeps ps s₀ (applyMark m s) := by
  unfold applyMark
  repeat'
    first
    | with_reducible first | assumption | intro _ | apply keeps_ite | apply freeSent_keeps | apply settle_keeps | apply modCtx_keeps | apply modOp_keeps | exact partsIn_trans (by decide) hk₀
    | dsimp only
    | split

theorem refill_keeps {ps : List Piece} {n : Nat} {s₀ s : Sw} (hk₀ : partsIn [.portQ] ps = true) (h₀ : Sw.keeps ps s₀ s) :
    Sw.keeps ps s₀ (refill n s) := by
  unfold refill
  repeat'
    first
    | with_reducible first | assumption | intro _ | apply keeps_ite | apply modQ_keeps

theorem sendItem_keeps {ps : List Piece} {n : Nat} {it : TxItem} {rr : Option (Nat × Nat)} {s₀ s : Sw} (hk₀ : partsIn parts69 ps = true) (h₀ : Sw.keeps ps s₀ s) :
    Sw.keeps ps s₀ (sendItem n it rr s) := by
  unfold sendItem
  repeat'
    first
    | with_reducible first | assumption | intro _ | apply keeps_ite | apply applyMark_keeps | apply refill_keeps | apply stampOut_keeps | apply transmit_keeps | apply modCnt_keeps | apply modLink_keeps | apply modQ_keeps | exact partsIn_trans (by decide) hk₀

theorem sendAgain_keeps {ps : List Piece} {n : Nat} {s₀ s : Sw} (hk₀ : partsIn parts69 ps = true) (h₀ : Sw.keeps ps s₀ s) :
    Sw.keeps ps s₀ (sendAgain n s) := by
  unfold sendAgain
  repeat'
    first
    | with_reducible first | assumption | intro _ | apply keeps_ite | apply resend_keeps | apply transmit_keeps | apply modLink_keeps | exact partsIn_trans (by decide) hk₀
    | dsimp only
    | split

theorem sendIdle_keeps {ps : List Piece} {n : Nat} {s₀ s : Sw} (hk₀ : partsIn parts69 ps = true) (h₀ : Sw.keeps ps s₀ s) :
    Sw.keeps ps s₀ (sendIdle n s) := by
  unfold sendIdle
  repeat'
    first
    | with_reducible first | assumption | intro _ | apply keeps_ite | apply transmit_keeps

theorem serveDown_keeps {ps : List Piece} {n : Nat} {s₀ s : Sw} (hk₀ : partsIn parts69 ps = true) (h₀ : Sw.keeps ps s₀ s) :
    Sw.keeps ps s₀ (serveDown n s) := by
  unfold serveDown
  repeat'
    first
    | with_reducible first | assumption | intro _ | apply keeps_ite | apply downFrame_keeps | apply transmit_keeps | apply modLink_keeps | apply modQ_keeps | exact partsIn_trans (by decide) hk₀
    | dsimp only
    | split

theorem serveOp_keeps {ps : List Piece} {n : Nat} {s₀ s : Sw} (hk₀ : partsIn parts69 ps = true) (h₀ : Sw.keeps ps s₀ s) :
    Sw.keeps ps s₀ (serveOp n s) := by
  unfold serveOp
  repeat'
    first
    | with_reducible first | assumption | intro _ | apply keeps_ite | apply sendAgain_keeps | apply sendIdle_keeps | apply sendItem_keeps | apply serveDown_keeps | exact partsIn_trans (by decide) hk₀
    | dsimp only
    | split

end Sys2Proof.Machine
end

