-- ==== Sys2Proof/Laws/FrameHost.lean ====
section
/-! SUPPORT. Frames of resets, clocks, the host, power, recovery, security, time and registers. A lemma f_keeps says: what was kept so far, f keeps too, where the parts f can
change are among the listed ones. -/
namespace Sys2Proof.Machine

/-! ### Profile -/

theorem setClock_keeps {ps : List Piece} {taken limit cause : Nat} {s₀ s : Sw} (hk₀ : partsIn parts12 ps = true) (h₀ : Sw.keeps ps s₀ s) :
    Sw.keeps ps s₀ (setClock taken limit cause s) := by
  unfold setClock
  repeat'
    first
    | with_reducible first | assumption | intro _ | apply keeps_ite | apply raiseSys_keeps | apply evTimes_keeps | apply modGlb_keeps | exact partsIn_trans (by decide) hk₀
    | exact fun _ => rfl
    | dsimp only

theorem setProfile_keeps {ps : List Piece} {w : Nat} {s₀ s : Sw} (hk₀ : partsIn parts23 ps = true) (h₀ : Sw.keeps ps s₀ s) :
    Sw.keeps ps s₀ (setProfile w s) := by
  unfold setProfile
  repeat'
    first
    | with_reducible first | assumption | intro _ | apply keeps_ite | apply raiseSys_keeps | apply setClock_keeps | apply modPwr_keeps | exact partsIn_trans (by decide) hk₀

theorem profileRise_keeps {ps : List Piece} {s₀ s : Sw} (hk₀ : partsIn parts23 ps = true) (h₀ : Sw.keeps ps s₀ s) :
    Sw.keeps ps s₀ (profileRise s) := by
  unfold profileRise
  repeat'
    first
    | with_reducible first | assumption | intro _ | apply keeps_ite | apply setProfile_keeps

theorem profileEase_keeps {ps : List Piece} {s₀ s : Sw} (hk₀ : partsIn [.pwr] ps = true) (h₀ : Sw.keeps ps s₀ s) :
    Sw.keeps ps s₀ (profileEase s) := by
  unfold profileEase
  repeat'
    first
    | with_reducible first | assumption | intro _ | apply keeps_ite | apply modPwr_keeps

theorem profileAdjust_keeps {ps : List Piece} {s₀ s : Sw} (hk₀ : partsIn parts23 ps = true) (h₀ : Sw.keeps ps s₀ s) :
    Sw.keeps ps s₀ (profileAdjust s) := by
  unfold profileAdjust
  repeat'
    first
    | with_reducible first | assumption | intro _ | apply keeps_ite | apply profileEase_keeps | apply profileRise_keeps | exact partsIn_trans (by decide) hk₀

theorem profileLower_keeps {ps : List Piece} {s₀ s : Sw} (hk₀ : partsIn [.glb, .pwr, .time, .evqs, .msix, .outs] ps = true) (h₀ : Sw.keeps ps s₀ s) :
    Sw.keeps ps s₀ (profileLower s) := by
  unfold profileLower
  repeat'
    first
    | with_reducible first | assumption | intro _ | apply keeps_ite | apply setProfile_keeps | apply toTick_keeps | exact partsIn_trans (by decide) hk₀

/-! ### Resets -/

theorem coldReset_keeps {ps : List Piece} {cause : Nat} {s₀ s : Sw} (hk₀ : partsIn [.glb, .evTimes, .pwr, .wear, .sec, .time, .sync, .rings, .evqs, .jobs, .flags, .hostSet, .hostLink, .msix, .held, .last0106, .portReg, .portMap, .portCnt, .portLink, .portQ, .portSec, .quads, .lanes, .engines, .sites, .tiles, .takeovers, .hbm, .cxl, .cxlHoldMs, .cxlGen, .pool, .groveC, .ctxs, .fab, .rcv, .kernels, .migQueues, .freeCtr] ps = true) (h₀ : Sw.keeps ps s₀ s) :
    Sw.keeps ps s₀ (coldReset cause s) := by
  refine h₀.next (qs := [.glb, .evTimes, .pwr, .wear, .sec, .time, .sync, .rings, .evqs, .jobs, .flags, .hostSet, .hostLink, .msix, .held, .last0106, .portReg, .portMap, .portCnt, .portLink, .portQ, .portSec, .quads, .lanes, .engines, .sites, .tiles, .takeovers, .hbm, .cxl, .cxlHoldMs, .cxlGen, .pool, .groveC, .ctxs, .fab, .rcv, .kernels, .migQueues, .freeCtr]) ?_ hk₀
  intro p hp
  cases p <;> first | exact absurd (by decide) hp | rfl

theorem linkDownAll_keeps {ps : List Piece} {reason : Nat} {s₀ s : Sw} (hk₀ : partsIn parts69 ps = true) (h₀ : Sw.keeps ps s₀ s) :
    Sw.keeps ps s₀ (linkDownAll reason s) := by
  unfold linkDownAll
  repeat'
    first
    | with_reducible first | assumption | intro _ | apply keeps_ite | apply downFrames_keeps | apply modReg_keeps | apply each_keeps | exact partsIn_trans (by decide) hk₀
    | exact fun _ => rfl
    | (intro; dsimp only; split <;> rfl)
    | dsimp only

theorem dropWrites_keeps {ps : List Piece} {s₀ s : Sw} (hk₀ : partsIn parts44 ps = true) (h₀ : Sw.keeps ps s₀ s) :
    Sw.keeps ps s₀ (dropWrites s) := by
  unfold dropWrites
  repeat'
    first
    | with_reducible first | assumption | intro _ | apply keeps_ite | apply abandonWrite_keeps | apply migStop_keeps | apply each_keeps | exact partsIn_trans (by decide) hk₀
    | dsimp only
    | split

theorem warmState_keeps {ps : List Piece} {cause : Nat} {s₀ s : Sw} (hk₀ : partsIn [.glb, .evTimes, .pwr, .wear, .sec, .time, .sync, .rings, .evqs, .jobs, .flags, .hostSet, .hostLink, .msix, .last0106, .portReg, .portMap, .portCnt, .portLink, .portQ, .portSec, .quads, .lanes, .tiles, .takeovers, .hbm, .cxl, .pool, .ctxs, .fab, .rcv, .kernels, .migQueues] ps = true) (h₀ : Sw.keeps ps s₀ s) :
    Sw.keeps ps s₀ (warmState cause s) := by
  refine h₀.next (qs := [.glb, .evTimes, .pwr, .wear, .sec, .time, .sync, .rings, .evqs, .jobs, .flags, .hostSet, .hostLink, .msix, .last0106, .portReg, .portMap, .portCnt, .portLink, .portQ, .portSec, .quads, .lanes, .tiles, .takeovers, .hbm, .cxl, .pool, .ctxs, .fab, .rcv, .kernels, .migQueues]) ?_ hk₀
  intro p hp
  cases p <;> first | exact absurd (by decide) hp | rfl

theorem holdFreq_keeps {ps : List Piece} {s₀ s : Sw} (hk₀ : partsIn [.time, .freeCtr] ps = true) (h₀ : Sw.keeps ps s₀ s) :
    Sw.keeps ps s₀ (holdFreq s) := by
  unfold holdFreq
  repeat'
    first
    | with_reducible first | assumption | intro _ | apply keeps_ite | apply modTime_keeps | apply draw_keeps | exact partsIn_trans (by decide) hk₀

theorem warmReset_keeps {ps : List Piece} {cause : Nat} {s₀ s : Sw} (hk₀ : partsIn parts72 ps = true) (h₀ : Sw.keeps ps s₀ s) :
    Sw.keeps ps s₀ (warmReset cause s) := by
  unfold warmReset
  repeat'
    first
    | with_reducible first | assumption | intro _ | apply keeps_ite | apply warmState_keeps | apply dropWrites_keeps | apply holdFreq_keeps | apply linkDownAll_keeps | exact partsIn_trans (by decide) hk₀

theorem railsOff_keeps {ps : List Piece} {st : ModSt} {next : Nat} {s₀ s : Sw} (hk₀ : partsIn parts73 ps = true) (h₀ : Sw.keeps ps s₀ s) :
    Sw.keeps ps s₀ (railsOff st next s) := by
  unfold railsOff
  repeat'
    first
    | with_reducible first | assumption | intro _ | apply keeps_ite | apply coldReset_keeps | apply modPwr_keeps | apply evTimes_keeps | apply modGlb_keeps | exact partsIn_trans (by decide) hk₀
    | exact fun _ => rfl
    | dsimp only

theorem powerOff_keeps {ps : List Piece} {s₀ s : Sw} (hk₀ : partsIn parts74 ps = true) (h₀ : Sw.keeps ps s₀ s) :
    Sw.keeps ps s₀ (powerOff s) := by
  unfold powerOff
  repeat'
    first
    | with_reducible first | assumption | intro _ | apply keeps_ite | apply linkDownAll_keeps | apply railsOff_keeps | exact partsIn_trans (by decide) hk₀

theorem railFault_keeps {ps : List Piece} {s₀ s : Sw} (hk₀ : partsIn parts73 ps = true) (h₀ : Sw.keeps ps s₀ s) :
    Sw.keeps ps s₀ (railFault s) := by
  unfold railFault
  repeat'
    first
    | with_reducible first | assumption | intro _ | apply keeps_ite | apply railsOff_keeps | apply modPwr_keeps | exact partsIn_trans (by decide) hk₀

/-! ### Clocks -/

theorem clockWrite_keeps {ps : List Piece} {func value : Nat} {s₀ s : Sw} (hk₀ : partsIn parts22 ps = true) (h₀ : Sw.keeps ps s₀ s) :
    Sw.keeps ps s₀ (clockWrite func value s) := by
  unfold clockWrite
  repeat'
    first
    | with_reducible first | assumption | intro _ | apply keeps_ite | apply regDiscard_keeps | apply evTimes_keeps | apply modGlb_keeps | exact partsIn_trans (by decide) hk₀
    | exact fun _ => rfl
    | dsimp only

theorem clockChange_keeps {ps : List Piece} {s₀ s : Sw} (hk₀ : partsIn parts24 ps = true) (h₀ : Sw.keeps ps s₀ s) :
    Sw.keeps ps s₀ (clockChange s) := by
  unfold clockChange
  repeat'
    first
    | with_reducible first | assumption | intro _ | apply keeps_ite | apply setClock_keeps | apply toTick_keeps | exact partsIn_trans (by decide) hk₀

theorem unlockOp_keeps {ps : List Piece} {d : Nat} {s₀ s : Sw} (hk₀ : partsIn [.glb] ps = true) (h₀ : Sw.keeps ps s₀ s) :
    Sw.keeps ps s₀ (unlockOp d s) := by
  unfold unlockOp
  repeat'
    first
    | with_reducible first | assumption | intro _ | apply keeps_ite | apply evTimes_keeps | apply modGlb_keeps | exact partsIn_trans (by decide) hk₀
    | exact fun _ => rfl
    | (unfold Glb.setLock; split <;> rfl)

theorem relockOp_keeps {ps : List Piece} {d : Nat} {s₀ s : Sw} (hk₀ : partsIn parts12 ps = true) (h₀ : Sw.keeps ps s₀ s) :
    Sw.keeps ps s₀ (relockOp d s) := by
  unfold relockOp
  repeat'
    first
    | with_reducible first | assumption | intro _ | apply keeps_ite | apply raiseSys_keeps | apply evTimes_keeps | apply modGlb_keeps | exact partsIn_trans (by decide) hk₀
    | exact fun _ => rfl
    | (unfold Glb.setLock; split <;> rfl)
    | dsimp only
    | split

theorem warmUnlessStarting_keeps {ps : List Piece} {cause : Nat} {s₀ s : Sw} (hk₀ : partsIn parts72 ps = true) (h₀ : Sw.keeps ps s₀ s) :
    Sw.keeps ps s₀ (warmUnlessStarting cause s) := by
  unfold warmUnlessStarting
  repeat'
    first
    | with_reducible first | assumption | intro _ | apply keeps_ite | apply warmReset_keeps

theorem relockTimeout_keeps {ps : List Piece} {d : Nat} {s₀ s : Sw} (hk₀ : partsIn parts72 ps = true) (h₀ : Sw.keeps ps s₀ s) :
    Sw.keeps ps s₀ (relockTimeout d s) := by
  unfold relockTimeout
  repeat'
    first
    | with_reducible first | assumption | intro _ | apply keeps_ite | apply raiseSys_keeps | apply warmUnlessStarting_keeps | exact partsIn_trans (by decide) hk₀

theorem refLost_keeps {ps : List Piece} {s₀ s : Sw} (hk₀ : partsIn [.glb, .evTimes, .wear, .time, .sync, .rings, .evqs, .jobs, .flags, .msix, .portReg, .portMap, .portCnt, .portLink, .portQ, .portSec, .quads, .lanes, .tiles, .hbm, .cxl, .pool, .ctxs, .fab, .rcv, .migQueues, .outs, .freeCtr] ps = true) (h₀ : Sw.keeps ps s₀ s) :
    Sw.keeps ps s₀ (refLost s) := by
  unfold refLost
  repeat'
    first
    | with_reducible first | assumption | intro _ | apply keeps_ite | apply laneLolOp_keeps | apply raiseSys_keeps | apply evTimes_keeps | apply modGlb_keeps | apply each_keeps | exact partsIn_trans (by decide) hk₀
    | exact fun _ => rfl
    | dsimp only

theorem enterSelfTest_keeps {ps : List Piece} {s₀ s : Sw} (hk₀ : partsIn [.glb, .time] ps = true) (h₀ : Sw.keeps ps s₀ s) :
    Sw.keeps ps s₀ (enterSelfTest s) := by
  unfold enterSelfTest
  repeat'
    first
    | with_reducible first | assumption | intro _ | apply keeps_ite | apply modTime_keeps | apply evTimes_keeps | apply modGlb_keeps | exact partsIn_trans (by decide) hk₀
    | exact fun _ => rfl
    | dsimp only

theorem refBack_keeps {ps : List Piece} {s₀ s : Sw} (hk₀ : partsIn parts24 ps = true) (h₀ : Sw.keeps ps s₀ s) :
    Sw.keeps ps s₀ (refBack s) := by
  unfold refBack
  repeat'
    first
    | with_reducible first | assumption | intro _ | apply keeps_ite | apply enterSelfTest_keeps | apply raiseSys_keeps | apply evTimes_keeps | apply modGlb_keeps | exact partsIn_trans (by decide) hk₀
    | exact fun _ => rfl
    | dsimp only
    | split

theorem refHoldover_keeps {ps : List Piece} {s₀ s : Sw} (hk₀ : partsIn parts72 ps = true) (h₀ : Sw.keeps ps s₀ s) :
    Sw.keeps ps s₀ (refHoldover s) := by
  unfold refHoldover
  repeat'
    first
    | with_reducible first | assumption | intro _ | apply keeps_ite | apply raiseSys_keeps | apply warmUnlessStarting_keeps | exact partsIn_trans (by decide) hk₀
    | dsimp only
    | split

theorem accessEnds_keeps {ps : List Piece} {func offset : Nat} {read : Bool} {s₀ s : Sw} (hk₀ : partsIn parts21 ps = true) (h₀ : Sw.keeps ps s₀ s) :
    Sw.keeps ps s₀ (accessEnds func offset read s) := by
  unfold accessEnds
  repeat'
    first
    | with_reducible first | assumption | intro _ | apply keeps_ite | apply raiseSys_keeps | apply out_keeps | apply evTimes_keeps | apply modGlb_keeps | apply limited_keeps | exact partsIn_trans (by decide) hk₀
    | exact fun _ => rfl
    | dsimp only

theorem modResetOp_keeps {ps : List Piece} {lowNs : Nat} {s₀ s : Sw} (hk₀ : partsIn parts73 ps = true) (h₀ : Sw.keeps ps s₀ s) :
    Sw.keeps ps s₀ (modResetOp lowNs s) := by
  unfold modResetOp
  repeat'
    first
    | with_reducible first | assumption | intro _ | apply keeps_ite | apply coldReset_keeps | apply evTimes_keeps | apply modGlb_keeps | apply draw_keeps | exact partsIn_trans (by decide) hk₀
    | exact fun _ => rfl
    | dsimp only
    | split

theorem modResetRelease_keeps {ps : List Piece} {s₀ s : Sw} (hk₀ : partsIn [.glb, .pwr] ps = true) (h₀ : Sw.keeps ps s₀ s) :
    Sw.keeps ps s₀ (modResetRelease s) := by
  unfold modResetRelease
  repeat'
    first
    | with_reducible first | assumption | intro _ | apply keeps_ite | apply modPwr_keeps | apply evTimes_keeps | apply modGlb_keeps | exact partsIn_trans (by decide) hk₀
    | exact fun _ => rfl
    | dsimp only
    | split

theorem tileResetWrite_keeps {ps : List Piece} {func value : Nat} {s₀ s : Sw} (hk₀ : partsIn [.glb, .evqs, .msix, .last0106, .tiles, .outs] ps = true) (h₀ : Sw.keeps ps s₀ s) :
    Sw.keeps ps s₀ (tileResetWrite func value s) := by
  unfold tileResetWrite
  repeat'
    first
    | with_reducible first | assumption | intro _ | apply keeps_ite | apply regDiscard_keeps | apply tileReset_keeps | exact partsIn_trans (by decide) hk₀

theorem tileTestDone_keeps {ps : List Piece} {p : Nat} {pass : Bool} {s₀ s : Sw} (hk₀ : partsIn parts70 ps = true) (h₀ : Sw.keeps ps s₀ s) :
    Sw.keeps ps s₀ (tileTestDone p pass s) := by
  unfold tileTestDone
  repeat'
    first
    | with_reducible first | assumption | intro _ | apply keeps_ite | apply quarantine_keeps | apply selfTested_keeps | apply tileReturn_keeps | exact partsIn_trans (by decide) hk₀

theorem portResetWrite_keeps {ps : List Piece} {func value : Nat} {s₀ s : Sw} (hk₀ : partsIn [.glb, .evTimes, .wear, .time, .sync, .rings, .evqs, .jobs, .flags, .msix, .held, .last0106, .portReg, .portMap, .portCnt, .portLink, .portQ, .portSec, .quads, .lanes, .tiles, .hbm, .cxl, .pool, .ctxs, .fab, .rcv, .migQueues, .outs, .freeCtr] ps = true) (h₀ : Sw.keeps ps s₀ s) :
    Sw.keeps ps s₀ (portResetWrite func value s) := by
  unfold portResetWrite
  repeat'
    first
    | with_reducible first | assumption | intro _ | apply keeps_ite | apply portReset4_keeps | apply regDiscard_keeps | apply modQuad_keeps | exact partsIn_trans (by decide) hk₀

theorem startImage_keeps {ps : List Piece} {f : Fuses} {s₀ s : Sw} (hk₀ : partsIn [.sec, .held] ps = true) (h₀ : Sw.keeps ps s₀ s) :
    Sw.keeps ps s₀ (startImage f s) := by
  unfold startImage
  repeat'
    first
    | with_reducible first | assumption | intro _ | apply keeps_ite | apply holdEvent_keeps | apply modSec_keeps | exact partsIn_trans (by decide) hk₀

theorem selectImage_keeps {ps : List Piece} {f : Fuses} {s₀ s : Sw} (hk₀ : partsIn [.sec, .held] ps = true) (h₀ : Sw.keeps ps s₀ s) :
    Sw.keeps ps s₀ (selectImage f s) := by
  unfold selectImage
  repeat'
    first
    | with_reducible first | assumption | intro _ | apply keeps_ite | apply holdEvent_keeps | apply startImage_keeps | apply modSec_keeps | exact partsIn_trans (by decide) hk₀

theorem afterRoot_keeps {ps : List Piece} {f : Fuses} {s₀ s : Sw} (hk₀ : partsIn [.glb, .sec, .time, .held] ps = true) (h₀ : Sw.keeps ps s₀ s) :
    Sw.keeps ps s₀ (afterRoot f s) := by
  unfold afterRoot
  repeat'
    first
    | with_reducible first | assumption | intro _ | apply keeps_ite | apply enterSelfTest_keeps | apply selectImage_keeps | apply evTimes_keeps | apply modGlb_keeps | exact partsIn_trans (by decide) hk₀
    | exact fun _ => rfl
    | dsimp only

theorem afterSelfTest_keeps {ps : List Piece} {r : StageResults} {s₀ s : Sw} (hk₀ : partsIn [.glb, .evTimes, .wear, .time, .sync, .rings, .evqs, .jobs, .flags, .msix, .portReg, .portMap, .portCnt, .portLink, .portQ, .portSec, .quads, .lanes, .tiles, .takeovers, .hbm, .cxl, .pool, .ctxs, .fab, .rcv, .migQueues, .outs, .freeCtr] ps = true) (h₀ : Sw.keeps ps s₀ s) :
    Sw.keeps ps s₀ (afterSelfTest r s) := by
  unfold afterSelfTest
  repeat'
    first
    | with_reducible first | assumption | intro _ | apply keeps_ite | apply quarantine_keeps | apply tileReturn_keeps | apply setTiles_keeps | apply evTimes_keeps | apply modGlb_keeps | apply each_keeps | exact partsIn_trans (by decide) hk₀
    | exact fun _ => rfl
    | dsimp only

theorem recordRepair_keeps {ps : List Piece} {e : Nat × Nat × Nat × Nat} {s₀ s : Sw} (hk₀ : partsIn parts5 ps = true) (h₀ : Sw.keeps ps s₀ s) :
    Sw.keeps ps s₀ (recordRepair e s) := by
  unfold recordRepair
  repeat'
    first
    | with_reducible first | assumption | intro _ | apply keeps_ite | apply raiseSys_keeps | apply modStack_keeps | exact partsIn_trans (by decide) hk₀

theorem startTier1_keeps {ps : List Piece} {r : StageResults} {s₀ s : Sw} (hk₀ : partsIn [.evqs, .msix, .hbm, .groveC, .outs] ps = true) (h₀ : Sw.keeps ps s₀ s) :
    Sw.keeps ps s₀ (startTier1 r s) := by
  unfold startTier1
  repeat'
    first
    | with_reducible first | assumption | intro _ | apply keeps_ite | apply raiseSys_keeps | apply recordRepair_keeps | apply modStack_keeps | apply setGroveC_keeps | apply each_keeps | exact partsIn_trans (by decide) hk₀

theorem lostExtents_keeps {ps : List Piece} {r : StageResults} {p : Nat} {s₀ s : Sw} (hk₀ : partsIn [.evqs, .msix, .cxl, .rcv, .outs] ps = true) (h₀ : Sw.keeps ps s₀ s) :
    Sw.keeps ps s₀ (lostExtents r p s) := by
  unfold lostExtents
  repeat'
    first
    | with_reducible first | assumption | intro _ | apply keeps_ite | apply raiseSys_keeps | apply modRec_keeps | apply modRoot_keeps | apply each_keeps | exact partsIn_trans (by decide) hk₀

theorem enterPorts_keeps {ps : List Piece} {s₀ s : Sw} (hk₀ : partsIn [.glb, .evTimes, .wear, .time, .sync, .rings, .evqs, .jobs, .flags, .msix, .portReg, .portMap, .portCnt, .portLink, .portQ, .portSec, .quads, .lanes, .sites, .tiles, .hbm, .cxl, .pool, .ctxs, .fab, .rcv, .migQueues, .outs, .freeCtr] ps = true) (h₀ : Sw.keeps ps s₀ s) :
    Sw.keeps ps s₀ (enterPorts s) := by
  unfold enterPorts
  repeat'
    first
    | with_reducible first | assumption | intro _ | apply keeps_ite | apply applySplit_keeps | apply setPortSt_keeps | apply splitTrial_keeps | apply modQuad_keeps | apply modSite_keeps | apply evTimes_keeps | apply modGlb_keeps | apply each_keeps | exact partsIn_trans (by decide) hk₀
    | exact fun _ => rfl
    | dsimp only

theorem afterMemory_keeps {ps : List Piece} {r : StageResults} {s₀ s : Sw} (hk₀ : partsIn [.glb, .evTimes, .wear, .time, .sync, .rings, .evqs, .jobs, .flags, .msix, .portReg, .portMap, .portCnt, .portLink, .portQ, .portSec, .quads, .lanes, .sites, .tiles, .hbm, .cxl, .pool, .groveC, .ctxs, .fab, .rcv, .migQueues, .outs, .freeCtr] ps = true) (h₀ : Sw.keeps ps s₀ s) :
    Sw.keeps ps s₀ (afterMemory r s) := by
  unfold afterMemory
  repeat'
    first
    | with_reducible first | assumption | intro _ | apply keeps_ite | apply enterPorts_keeps | apply lostExtents_keeps | apply startTier1_keeps | exact partsIn_trans (by decide) hk₀

theorem afterPorts_keeps {ps : List Piece} {t : Nat} {s₀ s : Sw} (hk₀ : partsIn [.glb, .evTimes, .pwr, .sec, .time, .rings, .evqs, .hostLink, .msix, .held, .portMap, .portCnt, .portQ, .pool, .ctxs, .outs, .freeCtr] ps = true) (h₀ : Sw.keeps ps s₀ s) :
    Sw.keeps ps s₀ (afterPorts t s) := by
  unfold afterPorts
  repeat'
    first
    | with_reducible first | assumption | intro _ | apply keeps_ite | apply seedCtx_keeps | apply holdEvent_keeps | apply modPwr_keeps | apply modSec_keeps | apply evTimes_keeps | apply modGlb_keeps | apply modHost_keeps | exact partsIn_trans (by decide) hk₀
    | exact Or.inr (fun _ => rfl)
    | exact Or.inl (partsIn_mem hk₀ (by decide))
    | exact fun _ => rfl
    | dsimp only
    | split

theorem stageDone_keeps {ps : List Piece} {f : Fuses} {t : Nat} {r : StageResults} {s₀ s : Sw} (hk₀ : partsIn [.glb, .evTimes, .pwr, .wear, .sec, .time, .sync, .rings, .evqs, .jobs, .flags, .hostLink, .msix, .held, .portReg, .portMap, .portCnt, .portLink, .portQ, .portSec, .quads, .lanes, .sites, .tiles, .takeovers, .hbm, .cxl, .pool, .groveC, .ctxs, .fab, .rcv, .migQueues, .outs, .freeCtr] ps = true) (h₀ : Sw.keeps ps s₀ s) :
    Sw.keeps ps s₀ (stageDone f t r s) := by
  unfold stageDone
  repeat'
    first
    | with_reducible first | assumption | intro _ | apply keeps_ite | apply afterMemory_keeps | apply afterPorts_keeps | apply afterRoot_keeps | apply afterSelfTest_keeps | apply enterSelfTest_keeps | apply holdEvent_keeps | apply evTimes_keeps | apply modGlb_keeps | exact partsIn_trans (by decide) hk₀
    | exact fun _ => rfl
    | dsimp only
    | split

theorem railsUp_keeps {ps : List Piece} {s₀ s : Sw} (hk₀ : partsIn [.glb, .pwr] ps = true) (h₀ : Sw.keeps ps s₀ s) :
    Sw.keeps ps s₀ (railsUp s) := by
  unfold railsUp
  repeat'
    first
    | with_reducible first | assumption | intro _ | apply keeps_ite | apply modPwr_keeps | apply evTimes_keeps | apply modGlb_keeps | exact partsIn_trans (by decide) hk₀
    | exact fun _ => rfl
    | dsimp only

theorem powerOn_keeps {ps : List Piece} {railsGood : Bool} {s₀ s : Sw} (hk₀ : partsIn parts73 ps = true) (h₀ : Sw.keeps ps s₀ s) :
    Sw.keeps ps s₀ (powerOn railsGood s) := by
  unfold powerOn
  repeat'
    first
    | with_reducible first | assumption | intro _ | apply keeps_ite | apply railFault_keeps | apply railsUp_keeps | exact partsIn_trans (by decide) hk₀

theorem inputBack_keeps {ps : List Piece} {s₀ s : Sw} (hk₀ : partsIn [.pwr] ps = true) (h₀ : Sw.keeps ps s₀ s) :
    Sw.keeps ps s₀ (inputBack s) := by
  unfold inputBack
  repeat'
    first
    | with_reducible first | assumption | intro _ | apply keeps_ite | apply modPwr_keeps

theorem inputLoss_keeps {ps : List Piece} {millivolts : Nat} {s₀ s : Sw} (hk₀ : partsIn parts73 ps = true) (h₀ : Sw.keeps ps s₀ s) :
    Sw.keeps ps s₀ (inputLoss millivolts s) := by
  unfold inputLoss
  repeat'
    first
    | with_reducible first | assumption | intro _ | apply keeps_ite | apply railsOff_keeps | apply modPwr_keeps | exact partsIn_trans (by decide) hk₀
    | dsimp only
    | split

theorem faultIfPowered_keeps {ps : List Piece} {s₀ s : Sw} (hk₀ : partsIn parts73 ps = true) (h₀ : Sw.keeps ps s₀ s) :
    Sw.keeps ps s₀ (faultIfPowered s) := by
  unfold faultIfPowered
  repeat'
    first
    | with_reducible first | assumption | intro _ | apply keeps_ite | apply railFault_keeps

/-! ### Collective -/

theorem convertOp_keeps {ps : List Piece} {x o q k : Nat} {s₀ s : Sw} (hk₀ : partsIn parts63 ps = true) (h₀ : Sw.keeps ps s₀ s) :
    Sw.keeps ps s₀ (convertOp x o q k s) := by
  unfold convertOp
  repeat'
    first
    | with_reducible first | assumption | intro _ | apply keeps_ite | apply gridCellWhole_keeps | apply recordResume_keeps | apply settle_keeps | exact partsIn_trans (by decide) hk₀
    | dsimp only
    | split

/-! ### Host -/

theorem nopOp_keeps {ps : List Piece} {b : Sub} {t : Tok} {s₀ s : Sw} (hk₀ : partsIn parts13 ps = true) (h₀ : Sw.keeps ps s₀ s) :
    Sw.keeps ps s₀ (nopOp b t s) := by
  unfold nopOp
  repeat'
    first
    | with_reducible first | assumption | intro _ | apply keeps_ite | apply complete_keeps | apply guardDesc_keeps

theorem signalOp_keeps {ps : List Piece} {b : Sub} {t : Tok} {s₀ s : Sw} (hk₀ : partsIn parts36 ps = true) (h₀ : Sw.keeps ps s₀ s) :
    Sw.keeps ps s₀ (signalOp b t s) := by
  unfold signalOp
  repeat'
    first
    | with_reducible first | assumption | intro _ | apply keeps_ite | apply completeR_keeps | apply guardDesc_keeps | apply setFlag_keeps | exact partsIn_trans (by decide) hk₀

theorem waitOp_keeps {ps : List Piece} {b : Sub} {t : Tok} {s₀ s : Sw} (hk₀ : partsIn parts25 ps = true) (h₀ : Sw.keeps ps s₀ s) :
    Sw.keeps ps s₀ (waitOp b t s) := by
  unfold waitOp
  repeat'
    first
    | with_reducible first | assumption | intro _ | apply keeps_ite | apply completeR_keeps | apply flagProgress_keeps | apply guardDesc_keeps | apply modRing_keeps | apply modJob_keeps | exact partsIn_trans (by decide) hk₀
    | dsimp only
    | split

theorem jobOpenOp_keeps {ps : List Piece} {b : Sub} {t : Tok} {s₀ s : Sw} (hk₀ : partsIn parts36 ps = true) (h₀ : Sw.keeps ps s₀ s) :
    Sw.keeps ps s₀ (jobOpenOp b t s) := by
  unfold jobOpenOp
  repeat'
    first
    | with_reducible first | assumption | intro _ | apply keeps_ite | apply complete_keeps | apply guardDesc_keeps | apply hostGuard_keeps | apply raiseJob_keeps | apply modJob_keeps | apply modHost_keeps | exact partsIn_trans (by decide) hk₀
    | exact Or.inr (fun _ => rfl)
    | exact Or.inl (partsIn_mem hk₀ (by decide))
    | dsimp only
    | split
    | simp only [id_eq]

theorem jobCloseOp_keeps {ps : List Piece} {b : Sub} {t : Tok} {s₀ s : Sw} (hk₀ : partsIn parts63 ps = true) (h₀ : Sw.keeps ps s₀ s) :
    Sw.keeps ps s₀ (jobCloseOp b t s) := by
  unfold jobCloseOp
  repeat'
    first
    | with_reducible first | assumption | intro _ | apply keeps_ite | apply abortAll_keeps | apply guardDesc_keeps | apply settle_keeps | apply modJob_keeps | apply modCtx_keeps | apply each_keeps | exact partsIn_trans (by decide) hk₀

theorem unbindJob_keeps {ps : List Piece} {j : Nat} {s₀ s : Sw} (hk₀ : partsIn [.portMap] ps = true) (h₀ : Sw.keeps ps s₀ s) :
    Sw.keeps ps s₀ (unbindJob j s) := by
  unfold unbindJob
  repeat'
    first
    | with_reducible first | assumption | intro _ | apply keeps_ite | apply mapPorts_keeps | exact partsIn_trans (by decide) hk₀
    | exact Or.inr (fun _ => rfl)
    | exact Or.inl (partsIn_mem hk₀ (by decide))
    | exact Or.inr (fun p => by dsimp only; (repeat' split) <;> rfl)

theorem teardown_keeps {ps : List Piece} {j : Nat} {s₀ s : Sw} (hk₀ : partsIn [.rings, .evqs, .jobs, .flags, .msix, .portMap, .cxl, .pool, .ctxs, .kernels, .migQueues, .outs] ps = true) (h₀ : Sw.keeps ps s₀ s) :
    Sw.keeps ps s₀ (teardown j s) := by
  unfold teardown
  repeat'
    first
    | with_reducible first | assumption | intro _ | apply keeps_ite | apply completeOpt_keeps | apply destroyStore_keeps | apply endWait_keeps | apply freeCtx_keeps | apply poolFreeIf_keeps | apply raiseJob_keeps | apply unbindJob_keeps | apply modPool_keeps | apply modJob_keeps | apply modKernels_keeps | apply each_keeps | apply modHost_keeps | exact partsIn_trans (by decide) hk₀
    | exact Or.inr (fun _ => rfl)
    | exact Or.inl (partsIn_mem hk₀ (by decide))
    | dsimp only
    | split

theorem capsReadOp_keeps {ps : List Piece} {b : Sub} {t : Tok} {s₀ s : Sw} (hk₀ : partsIn parts13 ps = true) (h₀ : Sw.keeps ps s₀ s) :
    Sw.keeps ps s₀ (capsReadOp b t s) := by
  unfold capsReadOp
  repeat'
    first
    | with_reducible first | assumption | intro _ | apply keeps_ite | apply complete_keeps | apply guardDesc_keeps | apply hostGuard_keeps | apply hostWrite_keeps | exact partsIn_trans (by decide) hk₀

theorem hostConfigOp_keeps {ps : List Piece} {b : Sub} {t : Tok} {s₀ s : Sw} (hk₀ : partsIn [.rings, .evqs, .hostSet, .msix, .held, .outs] ps = true) (h₀ : Sw.keeps ps s₀ s) :
    Sw.keeps ps s₀ (hostConfigOp b t s) := by
  unfold hostConfigOp
  repeat'
    first
    | with_reducible first | assumption | intro _ | apply keeps_ite | apply complete_keeps | apply guardDesc_keeps | apply raiseSys_keeps | apply each_keeps | apply modHost_keeps | exact partsIn_trans (by decide) hk₀
    | exact Or.inr (fun _ => rfl)
    | exact Or.inl (partsIn_mem hk₀ (by decide))

theorem ringStart_keeps {ps : List Piece} {func n : Nat} {s₀ s : Sw} (hk₀ : partsIn [.glb, .rings, .evqs, .msix, .last0106, .outs] ps = true) (h₀ : Sw.keeps ps s₀ s) :
    Sw.keeps ps s₀ (ringStart func n s) := by
  unfold ringStart
  repeat'
    first
    | with_reducible first | assumption | intro _ | apply keeps_ite | apply regDiscard_keeps | apply modRing_keeps | exact partsIn_trans (by decide) hk₀
    | dsimp only
    | split

theorem ringStop_keeps {ps : List Piece} {n : Nat} {s₀ s : Sw} (hk₀ : partsIn parts25 ps = true) (h₀ : Sw.keeps ps s₀ s) :
    Sw.keeps ps s₀ (ringStop n s) := by
  unfold ringStop
  repeat'
    first
    | with_reducible first | assumption | intro _ | apply keeps_ite | apply endWait_keeps | apply raiseSys_keeps | apply modRing_keeps | exact partsIn_trans (by decide) hk₀
    | dsimp only
    | split

theorem fetchEnds_keeps {ps : List Piece} {n : Nat} {descs : List Desc} {error : Nat} {s₀ s : Sw} (hk₀ : partsIn parts13 ps = true) (h₀ : Sw.keeps ps s₀ s) :
    Sw.keeps ps s₀ (fetchEnds n descs error s) := by
  unfold fetchEnds
  repeat'
    first
    | with_reducible first | assumption | intro _ | apply keeps_ite | apply raiseSys_keeps | apply modRing_keeps | exact partsIn_trans (by decide) hk₀

theorem ringDoorbellBad_keeps {ps : List Piece} {n cause : Nat} {v : Word} {s₀ s : Sw} (hk₀ : partsIn parts13 ps = true) (h₀ : Sw.keeps ps s₀ s) :
    Sw.keeps ps s₀ (ringDoorbellBad n cause v s) := by
  unfold ringDoorbellBad
  repeat'
    first
    | with_reducible first | assumption | intro _ | apply keeps_ite | apply raiseSys_keeps | apply modRing_keeps | exact partsIn_trans (by decide) hk₀

theorem tailWrite_keeps {ps : List Piece} {n : Nat} {v : Word} {s₀ s : Sw} (hk₀ : partsIn parts13 ps = true) (h₀ : Sw.keeps ps s₀ s) :
    Sw.keeps ps s₀ (tailWrite n v s) := by
  unfold tailWrite
  repeat'
    first
    | with_reducible first | assumption | intro _ | apply keeps_ite | apply ringDoorbellBad_keeps | apply modRing_keeps | exact partsIn_trans (by decide) hk₀

theorem ringBell_keeps {ps : List Piece} {func n : Nat} {v : Word} {f : Sw → Sw} {s₀ s : Sw} (hk₀ : partsIn parts13 ps = true) (hf : ∀ a s, Sw.keeps ps a s → Sw.keeps ps a (f s)) (h₀ : Sw.keeps ps s₀ s) :
    Sw.keeps ps s₀ (ringBell func n v f s) := by
  unfold ringBell
  repeat'
    first
    | with_reducible first | assumption | intro _ | apply keeps_ite | apply ringDoorbellBad_keeps | apply hf

theorem evqDoorbellBad_keeps {ps : List Piece} {q cause : Nat} {v : Word} {s₀ s : Sw} (hk₀ : partsIn [.evqs, .msix, .outs] ps = true) (h₀ : Sw.keeps ps s₀ s) :
    Sw.keeps ps s₀ (evqDoorbellBad q cause v s) := by
  unfold evqDoorbellBad
  repeat'
    first
    | with_reducible first | assumption | intro _ | apply keeps_ite | apply raiseSys_keeps | apply modEvq_keeps | exact partsIn_trans (by decide) hk₀

theorem evqHead_keeps {ps : List Piece} {q : Nat} {h : BitVec 20} {arm : Bool} {s₀ s : Sw} (hk₀ : partsIn [.evqs, .msix, .outs] ps = true) (h₀ : Sw.keeps ps s₀ s) :
    Sw.keeps ps s₀ (evqHead q h arm s) := by
  unfold evqHead
  repeat'
    first
    | with_reducible first | assumption | intro _ | apply keeps_ite | apply sendMsix_keeps | apply writeLost_keeps | apply modEvq_keeps | exact partsIn_trans (by decide) hk₀

theorem evqDoorbellWrite_keeps {ps : List Piece} {q : Nat} {v : Word} {s₀ s : Sw} (hk₀ : partsIn [.evqs, .msix, .outs] ps = true) (h₀ : Sw.keeps ps s₀ s) :
    Sw.keeps ps s₀ (evqDoorbellWrite q v s) := by
  unfold evqDoorbellWrite
  repeat'
    first
    | with_reducible first | assumption | intro _ | apply keeps_ite | apply evqDoorbellBad_keeps | apply evqHead_keeps

theorem evqBell_keeps {ps : List Piece} {func q : Nat} {v : Word} {s₀ s : Sw} (hk₀ : partsIn [.evqs, .msix, .outs] ps = true) (h₀ : Sw.keeps ps s₀ s) :
    Sw.keeps ps s₀ (evqBell func q v s) := by
  unfold evqBell
  repeat'
    first
    | with_reducible first | assumption | intro _ | apply keeps_ite | apply evqDoorbellBad_keeps | apply evqDoorbellWrite_keeps

theorem evqStart_keeps {ps : List Piece} {func q : Nat} {s₀ s : Sw} (hk₀ : partsIn parts22 ps = true) (h₀ : Sw.keeps ps s₀ s) :
    Sw.keeps ps s₀ (evqStart func q s) := by
  unfold evqStart
  repeat'
    first
    | with_reducible first | assumption | intro _ | apply keeps_ite | apply regDiscard_keeps | apply modEvq_keeps | exact partsIn_trans (by decide) hk₀

theorem evqStop_keeps {ps : List Piece} {func q : Nat} {s₀ s : Sw} (hk₀ : partsIn parts22 ps = true) (h₀ : Sw.keeps ps s₀ s) :
    Sw.keeps ps s₀ (evqStop func q s) := by
  unfold evqStop
  repeat'
    first
    | with_reducible first | assumption | intro _ | apply keeps_ite | apply regDiscard_keeps | apply modEvq_keeps | exact partsIn_trans (by decide) hk₀

theorem waitStall_keeps {ps : List Piece} {j : Nat} {host : List (Nat × Nat)} {s₀ s : Sw} (hk₀ : partsIn parts2 ps = true) (h₀ : Sw.keeps ps s₀ s) :
    Sw.keeps ps s₀ (waitStall j host s) := by
  unfold waitStall
  repeat'
    first
    | with_reducible first | assumption | intro _ | apply keeps_ite | apply raiseJob_keeps | apply modJob_keeps | exact partsIn_trans (by decide) hk₀

theorem flrOf_keeps {ps : List Piece} {func : Nat} {s₀ s : Sw} (hk₀ : partsIn [.rings, .evqs, .msix] ps = true) (h₀ : Sw.keeps ps s₀ s) :
    Sw.keeps ps s₀ (flrOf func s) := by
  unfold flrOf
  repeat'
    first
    | with_reducible first | assumption | intro _ | apply keeps_ite | apply modHost_keeps | exact partsIn_trans (by decide) hk₀
    | exact Or.inr (fun _ => rfl)
    | exact Or.inl (partsIn_mem hk₀ (by decide))

/-! ### Memory -/

theorem poolServe_keeps {ps : List Piece} {c at_ : Nat} {s₀ s : Sw} (hk₀ : partsIn parts63 ps = true) (h₀ : Sw.keeps ps s₀ s) :
    Sw.keeps ps s₀ (poolServe c at_ s) := by
  unfold poolServe
  repeat'
    first
    | with_reducible first | assumption | intro _ | apply keeps_ite | (apply poolTake_keeps; assumption) | apply settle_keeps | apply modPool_keeps | exact partsIn_trans (by decide) hk₀
    | dsimp only
    | split

theorem slotError_keeps {ps : List Piece} {x o k subject : Nat} {s₀ s : Sw} (hk₀ : partsIn parts63 ps = true) (h₀ : Sw.keeps ps s₀ s) :
    Sw.keeps ps s₀ (slotError x o k subject s) := by
  unfold slotError
  repeat'
    first
    | with_reducible first | assumption | intro _ | apply keeps_ite | apply settle_keeps | apply trigger_keeps | apply modCtx_keeps | exact partsIn_trans (by decide) hk₀
    | dsimp only
    | split

theorem stagingError_keeps {ps : List Piece} {n : Nat} {s₀ s : Sw} (hk₀ : partsIn parts53 ps = true) (h₀ : Sw.keeps ps s₀ s) :
    Sw.keeps ps s₀ (stagingError n s) := by
  unfold stagingError
  repeat'
    first
    | with_reducible first | assumption | intro _ | apply keeps_ite | apply trigger_keeps | apply setCtx_keeps | apply each_keeps | exact partsIn_trans (by decide) hk₀
    | dsimp only
    | split

theorem copyRepaired_keeps {ps : List Piece} {kind grove : Nat} {s₀ s : Sw} (hk₀ : partsIn [.evqs, .msix, .outs] ps = true) (h₀ : Sw.keeps ps s₀ s) :
    Sw.keeps ps s₀ (copyRepaired kind grove s) := by
  unfold copyRepaired
  repeat'
    first
    | with_reducible first | assumption | intro _ | apply keeps_ite | apply raiseSys_keeps

theorem cacheError_keeps {ps : List Piece} {x k v : Nat} {s₀ s : Sw} (hk₀ : partsIn parts63 ps = true) (h₀ : Sw.keeps ps s₀ s) :
    Sw.keeps ps s₀ (cacheError x k v s) := by
  unfold cacheError
  repeat'
    first
    | with_reducible first | assumption | intro _ | apply keeps_ite | apply failOp_keeps | apply freeEntries_keeps | apply settle_keeps | apply modStore_keeps | apply each_keeps | exact partsIn_trans (by decide) hk₀
    | dsimp only
    | split

theorem tier1Error_keeps {ps : List Piece} {k ta : Nat} {r : MemRegion} {s₀ s : Sw} (hk₀ : partsIn parts63 ps = true) (h₀ : Sw.keeps ps s₀ s) :
    Sw.keeps ps s₀ (tier1Error k ta r s) := by
  unfold tier1Error
  repeat'
    first
    | with_reducible first | assumption | intro _ | apply keeps_ite | apply abandonShard_keeps | apply cacheError_keeps | apply copyRepaired_keeps | apply dropStall_keeps | apply failOp_keeps | apply migError_keeps | apply raiseCtx_keeps | apply raiseSys_keeps | apply settle_keeps | apply slotError_keeps | apply modCtx_keeps | apply modOp_keeps | apply modShard_keeps | apply modQ_keeps | exact partsIn_trans (by decide) hk₀
    | dsimp only
    | split

theorem sramError_keeps {ps : List Piece} {p region word : Nat} {s₀ s : Sw} (hk₀ : partsIn parts63 ps = true) (h₀ : Sw.keeps ps s₀ s) :
    Sw.keeps ps s₀ (sramError p region word s) := by
  unfold sramError
  repeat'
    first
    | with_reducible first | assumption | intro _ | apply keeps_ite | apply digestError_keeps | apply slotError_keeps | apply stagingError_keeps | exact partsIn_trans (by decide) hk₀
    | dsimp only
    | split

theorem sramScrub_keeps {ps : List Piece} {p region word corrected : Nat} {ue : Bool} {s₀ s : Sw} (hk₀ : partsIn parts70 ps = true) (h₀ : Sw.keeps ps s₀ s) :
    Sw.keeps ps s₀ (sramScrub p region word corrected ue s) := by
  unfold sramScrub
  repeat'
    first
    | with_reducible first | assumption | intro _ | apply keeps_ite | apply quarantine_keeps | apply raiseSys_keeps | apply sramError_keeps | apply modTile_keeps | apply limited_keeps | exact partsIn_trans (by decide) hk₀

theorem hourCount_keeps {ps : List Piece} {k corrected : Nat} {s₀ s : Sw} (hk₀ : partsIn parts5 ps = true) (h₀ : Sw.keeps ps s₀ s) :
    Sw.keeps ps s₀ (hourCount k corrected s) := by
  unfold hourCount
  repeat'
    first
    | with_reducible first | assumption | intro _ | apply keeps_ite | apply raiseSys_keeps | apply modStack_keeps | exact partsIn_trans (by decide) hk₀

theorem patrolScrub_keeps {ps : List Piece} {k ta corrected : Nat} {ue : Option MemRegion} {s₀ s : Sw} (hk₀ : partsIn parts63 ps = true) (h₀ : Sw.keeps ps s₀ s) :
    Sw.keeps ps s₀ (patrolScrub k ta corrected ue s) := by
  unfold patrolScrub
  repeat'
    first
    | with_reducible first | assumption | intro _ | apply keeps_ite | apply hourCount_keeps | apply raiseSys_keeps | apply tier1Error_keeps | apply modStack_keeps | apply limited_keeps | exact partsIn_trans (by decide) hk₀
    | dsimp only
    | split

theorem cxlUp_keeps {ps : List Piece} {p width speed extents : Nat} {s₀ s : Sw} (hk₀ : partsIn parts4 ps = true) (h₀ : Sw.keeps ps s₀ s) :
    Sw.keeps ps s₀ (cxlUp p width speed extents s) := by
  unfold cxlUp
  repeat'
    first
    | with_reducible first | assumption | intro _ | apply keeps_ite | apply raiseSys_keeps | apply modRoot_keeps | exact partsIn_trans (by decide) hk₀

theorem cxlDown_keeps {ps : List Piece} {p cause : Nat} {s₀ s : Sw} (hk₀ : partsIn parts4 ps = true) (h₀ : Sw.keeps ps s₀ s) :
    Sw.keeps ps s₀ (cxlDown p cause s) := by
  unfold cxlDown
  repeat'
    first
    | with_reducible first | assumption | intro _ | apply keeps_ite | apply raiseSys_keeps | apply modRoot_keeps | exact partsIn_trans (by decide) hk₀

theorem cxlHoldEnds_keeps {ps : List Piece} {p : Nat} {s₀ s : Sw} (hk₀ : partsIn parts63 ps = true) (h₀ : Sw.keeps ps s₀ s) :
    Sw.keeps ps s₀ (cxlHoldEnds p s) := by
  unfold cxlHoldEnds
  repeat'
    first
    | with_reducible first | assumption | intro _ | apply keeps_ite | apply abandonShard_keeps | apply migError_keeps | apply modRoot_keeps | apply each_keeps | exact partsIn_trans (by decide) hk₀
    | dsimp only
    | split

/-! ### Power -/

theorem inputLow_keeps {ps : List Piece} {mv : Nat} {s₀ s : Sw} (hk₀ : partsIn parts19 ps = true) (h₀ : Sw.keeps ps s₀ s) :
    Sw.keeps ps s₀ (inputLow mv s) := by
  unfold inputLow
  repeat'
    first
    | with_reducible first | assumption | intro _ | apply keeps_ite | apply raiseSys_keeps | apply modPwr_keeps | apply limited_keeps | exact partsIn_trans (by decide) hk₀

theorem converterLost_keeps {ps : List Piece} {c cause : Nat} {s₀ s : Sw} (hk₀ : partsIn parts74 ps = true) (h₀ : Sw.keeps ps s₀ s) :
    Sw.keeps ps s₀ (converterLost c cause s) := by
  unfold converterLost
  repeat'
    first
    | with_reducible first | assumption | intro _ | apply keeps_ite | apply profileRise_keeps | apply railFault_keeps | apply raiseSys_keeps | apply modPwr_keeps | exact partsIn_trans (by decide) hk₀

theorem profileWrite_keeps {ps : List Piece} {func value : Nat} {s₀ s : Sw} (hk₀ : partsIn parts35 ps = true) (h₀ : Sw.keeps ps s₀ s) :
    Sw.keeps ps s₀ (profileWrite func value s) := by
  unfold profileWrite
  repeat'
    first
    | with_reducible first | assumption | intro _ | apply keeps_ite | apply profileAdjust_keeps | apply regDiscard_keeps | apply modPwr_keeps | exact partsIn_trans (by decide) hk₀

theorem limitRise_keeps {ps : List Piece} {cap : Nat} {s₀ s : Sw} (hk₀ : partsIn parts33 ps = true) (h₀ : Sw.keeps ps s₀ s) :
    Sw.keeps ps s₀ (limitRise cap s) := by
  unfold limitRise
  repeat'
    first
    | with_reducible first | assumption | intro _ | apply keeps_ite | apply profileRise_keeps | apply raiseSys_keeps | apply modPwr_keeps | apply evTimes_keeps | apply modGlb_keeps | apply limited_keeps | exact partsIn_trans (by decide) hk₀

theorem limitFall_keeps {ps : List Piece} {s₀ s : Sw} (hk₀ : partsIn parts19 ps = true) (h₀ : Sw.keeps ps s₀ s) :
    Sw.keeps ps s₀ (limitFall s) := by
  unfold limitFall
  repeat'
    first
    | with_reducible first | assumption | intro _ | apply keeps_ite | apply profileEase_keeps | apply raiseSys_keeps | apply modPwr_keeps | apply limited_keeps | exact partsIn_trans (by decide) hk₀

theorem limitSample_keeps {ps : List Piece} {m : PowerSample} {s₀ s : Sw} (hk₀ : partsIn parts33 ps = true) (h₀ : Sw.keeps ps s₀ s) :
    Sw.keeps ps s₀ (limitSample m s) := by
  unfold limitSample
  repeat'
    first
    | with_reducible first | assumption | intro _ | apply keeps_ite | apply limitFall_keeps | apply limitRise_keeps | apply modPwr_keeps | apply limited_keeps | exact partsIn_trans (by decide) hk₀

theorem putReading_keeps {ps : List Piece} {r : ThermalReading} {s₀ s : Sw} (hk₀ : partsIn [.pwr, .engines, .tiles] ps = true) (h₀ : Sw.keeps ps s₀ s) :
    Sw.keeps ps s₀ (putReading r s) := by
  unfold putReading
  repeat'
    first
    | with_reducible first | assumption | intro _ | apply keeps_ite | apply modPwr_keeps | apply modEngine_keeps | apply modTile_keeps | exact partsIn_trans (by decide) hk₀
    | dsimp only
    | split

theorem warn_keeps {ps : List Piece} {r : ThermalReading} {s₀ s : Sw} (hk₀ : partsIn parts1 ps = true) (h₀ : Sw.keeps ps s₀ s) :
    Sw.keeps ps s₀ (warn r s) := by
  unfold warn
  repeat'
    first
    | with_reducible first | assumption | intro _ | apply keeps_ite | apply raiseSys_keeps | apply limited_keeps | exact partsIn_trans (by decide) hk₀

theorem coolantAlarm_keeps {ps : List Piece} {s₀ s : Sw} (hk₀ : partsIn parts1 ps = true) (h₀ : Sw.keeps ps s₀ s) :
    Sw.keeps ps s₀ (coolantAlarm s) := by
  unfold coolantAlarm
  repeat'
    first
    | with_reducible first | assumption | intro _ | apply keeps_ite | apply raiseSys_keeps | apply limited_keeps | exact partsIn_trans (by decide) hk₀

theorem thermalStep_keeps {ps : List Piece} {l : List ThermalReading} {s₀ s : Sw} (hk₀ : partsIn parts23 ps = true) (h₀ : Sw.keeps ps s₀ s) :
    Sw.keeps ps s₀ (thermalStep l s) := by
  unfold thermalStep
  repeat'
    first
    | with_reducible first | assumption | intro _ | apply keeps_ite | apply profileEase_keeps | apply profileRise_keeps | apply raiseSys_keeps | apply modPwr_keeps | exact partsIn_trans (by decide) hk₀
    | dsimp only
    | split

theorem tripCheck_keeps {ps : List Piece} {l : List ThermalReading} {s₀ s : Sw} (hk₀ : partsIn parts73 ps = true) (h₀ : Sw.keeps ps s₀ s) :
    Sw.keeps ps s₀ (tripCheck l s) := by
  unfold tripCheck
  repeat'
    first
    | with_reducible first | assumption | intro _ | apply keeps_ite | apply railsOff_keeps | apply modPwr_keeps | exact partsIn_trans (by decide) hk₀
    | dsimp only
    | split

theorem thermalOp_keeps {ps : List Piece} {l : List ThermalReading} {s₀ s : Sw} (hk₀ : partsIn parts74 ps = true) (h₀ : Sw.keeps ps s₀ s) :
    Sw.keeps ps s₀ (thermalOp l s) := by
  unfold thermalOp
  repeat'
    first
    | with_reducible first | assumption | intro _ | apply keeps_ite | apply coolantAlarm_keeps | apply putReading_keeps | apply thermalStep_keeps | apply tripCheck_keeps | apply warn_keeps | apply each_keeps | exact partsIn_trans (by decide) hk₀

theorem wearSecond_keeps {ps : List Piece} {s₀ s : Sw} (hk₀ : partsIn [.wear] ps = true) (h₀ : Sw.keeps ps s₀ s) :
    Sw.keeps ps s₀ (wearSecond s) := by
  unfold wearSecond
  repeat'
    first
    | with_reducible first | assumption | intro _ | apply keeps_ite | apply modEntry_keeps | apply modWear_keeps | apply each_keeps

theorem wearEvent_keeps {ps : List Piece} {i : Nat} {w : Wear} {s₀ s : Sw} (hk₀ : partsIn [.evqs, .msix, .outs] ps = true) (h₀ : Sw.keeps ps s₀ s) :
    Sw.keeps ps s₀ (wearEvent i w s) := by
  unfold wearEvent
  repeat'
    first
    | with_reducible first | assumption | intro _ | apply keeps_ite | apply raiseSys_keeps | exact partsIn_trans (by decide) hk₀
    | dsimp only
    | split

theorem wearDaily_keeps {ps : List Piece} {l : List (Nat × Int)} {s₀ s : Sw} (hk₀ : partsIn parts16 ps = true) (h₀ : Sw.keeps ps s₀ s) :
    Sw.keeps ps s₀ (wearDaily l s) := by
  unfold wearDaily
  repeat'
    first
    | with_reducible first | assumption | intro _ | apply keeps_ite | apply modEntry_keeps | apply wearEvent_keeps | apply modWear_keeps | apply each_keeps | exact partsIn_trans (by decide) hk₀

/-! ### Prune -/

theorem pruneConfigOp_keeps {ps : List Piece} {b : Sub} {t : Tok} {s₀ s : Sw} (hk₀ : partsIn parts26 ps = true) (h₀ : Sw.keeps ps s₀ s) :
    Sw.keeps ps s₀ (pruneConfigOp b t s) := by
  unfold pruneConfigOp
  repeat'
    first
    | with_reducible first | assumption | intro _ | apply keeps_ite | apply complete_keeps | apply guardDesc_keeps | apply modCtx_keeps | exact partsIn_trans (by decide) hk₀

theorem actConfigOp_keeps {ps : List Piece} {b : Sub} {t : Tok} {s₀ s : Sw} (hk₀ : partsIn parts63 ps = true) (h₀ : Sw.keeps ps s₀ s) :
    Sw.keeps ps s₀ (actConfigOp b t s) := by
  unfold actConfigOp
  repeat'
    first
    | with_reducible first | assumption | intro _ | apply keeps_ite | apply complete_keeps | apply engineGo_keeps | apply guardDesc_keeps | apply migStop_keeps | apply settle_keeps | apply modStore_keeps | apply each_keeps | exact partsIn_trans (by decide) hk₀
    | dsimp only
    | split

theorem actReadOp_keeps {ps : List Piece} {b : Sub} {t : Tok} {s₀ s : Sw} (hk₀ : partsIn parts13 ps = true) (h₀ : Sw.keeps ps s₀ s) :
    Sw.keeps ps s₀ (actReadOp b t s) := by
  unfold actReadOp
  repeat'
    first
    | with_reducible first | assumption | intro _ | apply keeps_ite | apply complete_keeps | apply guardDesc_keeps | apply hostGuard_keeps | apply hostWrite_keeps | exact partsIn_trans (by decide) hk₀
    | dsimp only
    | split

/-! ### Recovery -/

theorem ackArrive_keeps {ps : List Piece} {x q : Nat} {c : Cell} {s₀ s : Sw} (hk₀ : partsIn parts63 ps = true) (h₀ : Sw.keeps ps s₀ s) :
    Sw.keeps ps s₀ (ackArrive x q c s) := by
  unfold ackArrive
  repeat'
    first
    | with_reducible first | assumption | intro _ | apply keeps_ite | apply sendRelease_keeps | apply settle_keeps | apply modOp_keeps | exact partsIn_trans (by decide) hk₀
    | dsimp only
    | split

theorem resultRequest_keeps {ps : List Piece} {x o q first last : Nat} {s₀ s : Sw} (hk₀ : partsIn parts60 ps = true) (h₀ : Sw.keeps ps s₀ s) :
    Sw.keeps ps s₀ (resultRequest x o q first last s) := by
  unfold resultRequest
  repeat'
    first
    | with_reducible first | assumption | intro _ | apply keeps_ite | apply raiseCtx_keeps | apply resend_keeps | apply tellLost_keeps | exact partsIn_trans (by decide) hk₀
    | dsimp only
    | split

theorem contribRequest_keeps {ps : List Piece} {x o q first last cause : Nat} {s₀ s : Sw} (hk₀ : partsIn parts63 ps = true) (h₀ : Sw.keeps ps s₀ s) :
    Sw.keeps ps s₀ (contribRequest x o q first last cause s) := by
  unfold contribRequest
  repeat'
    first
    | with_reducible first | assumption | intro _ | apply keeps_ite | apply askContrib_keeps | apply settle_keeps | exact partsIn_trans (by decide) hk₀
    | dsimp only
    | split

theorem reinjectArrive_keeps {ps : List Piece} {x q : Nat} {c : Cell} {s₀ s : Sw} (hk₀ : partsIn parts63 ps = true) (h₀ : Sw.keeps ps s₀ s) :
    Sw.keeps ps s₀ (reinjectArrive x q c s) := by
  unfold reinjectArrive
  repeat'
    first
    | with_reducible first | assumption | intro _ | apply keeps_ite | apply contribRequest_keeps | apply ctxCtrl_keeps | apply resultRequest_keeps | exact partsIn_trans (by decide) hk₀
    | dsimp only
    | split

theorem digestTake_keeps {ps : List Piece} {x q o kind : Nat} {held : Bool} {d : Digest} {s₀ s : Sw} (hk₀ : partsIn parts9 ps = true) (h₀ : Sw.keeps ps s₀ s) :
    Sw.keeps ps s₀ (digestTake x q o kind held d s) := by
  unfold digestTake
  repeat'
    first
    | with_reducible first | assumption | intro _ | apply keeps_ite | apply raiseCtx_keeps | apply modRec_keeps | exact partsIn_trans (by decide) hk₀
    | dsimp only
    | split

theorem digestLayer_keeps {ps : List Piece} {x q o layer : Nat} {d : Digest} {s₀ s : Sw} (hk₀ : partsIn [.evqs, .msix, .outs] ps = true) (h₀ : Sw.keeps ps s₀ s) :
    Sw.keeps ps s₀ (digestLayer x q o layer d s) := by
  unfold digestLayer
  repeat'
    first
    | with_reducible first | assumption | intro _ | apply keeps_ite | apply raiseCtx_keeps | exact partsIn_trans (by decide) hk₀
    | dsimp only
    | split

theorem digestArrive_keeps {ps : List Piece} {x q : Nat} {c : Cell} {s₀ s : Sw} (hk₀ : partsIn [.evTimes, .time, .evqs, .msix, .portCnt, .portQ, .tiles, .hbm, .ctxs, .rcv, .outs, .freeCtr] ps = true) (h₀ : Sw.keeps ps s₀ s) :
    Sw.keeps ps s₀ (digestArrive x q c s) := by
  unfold digestArrive
  repeat'
    first
    | with_reducible first | assumption | intro _ | apply keeps_ite | apply ctxCtrl_keeps | apply digestLayer_keeps | apply digestTake_keeps | apply foldAccs_keeps | exact partsIn_trans (by decide) hk₀
    | dsimp only
    | split

theorem digestCompareOp_keeps {ps : List Piece} {b : Sub} {t : Tok} {s₀ s : Sw} (hk₀ : partsIn [.evTimes, .time, .rings, .evqs, .msix, .portCnt, .portQ, .ctxs, .rcv, .outs, .freeCtr] ps = true) (h₀ : Sw.keeps ps s₀ s) :
    Sw.keeps ps s₀ (digestCompareOp b t s) := by
  unfold digestCompareOp
  repeat'
    first
    | with_reducible first | assumption | intro _ | apply keeps_ite | apply ctxCtrl_keeps | apply guardDesc_keeps | apply modRec_keeps | apply each_keeps | exact partsIn_trans (by decide) hk₀
    | dsimp only
    | split

theorem digestCompareEnd_keeps {ps : List Piece} {x o : Nat} {s₀ s : Sw} (hk₀ : partsIn [.rings, .evqs, .msix, .tiles, .hbm, .rcv, .outs, .freeCtr] ps = true) (h₀ : Sw.keeps ps s₀ s) :
    Sw.keeps ps s₀ (digestCompareEnd x o s) := by
  unfold digestCompareEnd
  repeat'
    first
    | with_reducible first | assumption | intro _ | apply keeps_ite | apply completeE_keeps | apply foldAccs_keeps | apply modRec_keeps | apply each_keeps | exact partsIn_trans (by decide) hk₀

theorem recConfigOp_keeps {ps : List Piece} {b : Sub} {t : Tok} {s₀ s : Sw} (hk₀ : partsIn [.rings, .evqs, .msix, .pool, .ctxs, .rcv, .outs] ps = true) (h₀ : Sw.keeps ps s₀ s) :
    Sw.keeps ps s₀ (recConfigOp b t s) := by
  unfold recConfigOp
  repeat'
    first
    | with_reducible first | assumption | intro _ | apply keeps_ite | apply complete_keeps | apply guardDesc_keeps | apply poolWarnAll_keeps | apply retain_keeps | apply modRec_keeps | apply modCtxs_keeps | exact partsIn_trans (by decide) hk₀

theorem recReadOp_keeps {ps : List Piece} {b : Sub} {t : Tok} {s₀ s : Sw} (hk₀ : partsIn [.rings, .evqs, .msix, .tiles, .hbm, .outs, .freeCtr] ps = true) (h₀ : Sw.keeps ps s₀ s) :
    Sw.keeps ps s₀ (recReadOp b t s) := by
  unfold recReadOp
  repeat'
    first
    | with_reducible first | assumption | intro _ | apply keeps_ite | apply complete_keeps | apply foldAccs_keeps | apply guardDesc_keeps | apply hostGuard_keeps | apply hostWrite_keeps | apply each_keeps | exact partsIn_trans (by decide) hk₀
    | dsimp only
    | split

theorem stepAckOp_keeps {ps : List Piece} {b : Sub} {t : Tok} {s₀ s : Sw} (hk₀ : partsIn parts63 ps = true) (h₀ : Sw.keeps ps s₀ s) :
    Sw.keeps ps s₀ (stepAckOp b t s) := by
  unfold stepAckOp
  repeat'
    first
    | with_reducible first | assumption | intro _ | apply keeps_ite | apply complete_keeps | apply guardDesc_keeps | apply settle_keeps | apply modCtx_keeps | exact partsIn_trans (by decide) hk₀

theorem anchorInstall_keeps {ps : List Piece} {x dir o : Nat} {es : List (Nat × Anchor)} {t : Tok} {after : Sw → Sw} {s₀ s : Sw} (hk₀ : partsIn parts26 ps = true) (hafter : ∀ a s, Sw.keeps ps a s → Sw.keeps ps a (after s)) (h₀ : Sw.keeps ps s₀ s) :
    Sw.keeps ps s₀ (anchorInstall x dir o es t after s) := by
  unfold anchorInstall
  repeat'
    first
    | with_reducible first | assumption | intro _ | apply keeps_ite | apply complete_keeps | apply raiseCtx_keeps | apply modCtx_keeps | apply hafter | exact partsIn_trans (by decide) hk₀
    | dsimp only
    | split

theorem anchorCopyOp_keeps {ps : List Piece} {b : Sub} {t : Tok} {s₀ s : Sw} (hk₀ : partsIn [.rings, .evqs, .msix, .ctxs, .rcv, .outs] ps = true) (h₀ : Sw.keeps ps s₀ s) :
    Sw.keeps ps s₀ (anchorCopyOp b t s) := by
  unfold anchorCopyOp
  repeat'
    first
    | with_reducible first | assumption | intro _ | apply keeps_ite | apply anchorInstall_keeps | apply complete_keeps | apply guardDesc_keeps | apply hostGuard_keeps | apply hostWrite_keeps | apply modRec_keeps | exact partsIn_trans (by decide) hk₀
    | dsimp only
    | split
    | simp only [id_eq]

theorem modTestGraft_keeps {ps : List Piece} {f : Graft → Graft} {s₀ s : Sw} (hk₀ : partsIn [.rcv] ps = true) (h₀ : Sw.keeps ps s₀ s) :
    Sw.keeps ps s₀ (Sw.modTestGraft f s) := by
  unfold Sw.modTestGraft
  repeat'
    first
    | with_reducible first | assumption | intro _ | apply keeps_ite | apply modRec_keeps

theorem graftEnter_keeps {ps : List Piece} {st : GraftSt} {s₀ s : Sw} (hk₀ : partsIn parts9 ps = true) (h₀ : Sw.keeps ps s₀ s) :
    Sw.keeps ps s₀ (graftEnter st s) := by
  unfold graftEnter
  repeat'
    first
    | with_reducible first | assumption | intro _ | apply keeps_ite | apply modTestGraft_keeps | apply graftStepEvent_keeps | exact partsIn_trans (by decide) hk₀

theorem graftFail_keeps {ps : List Piece} {step unit status : Nat} {s₀ s : Sw} (hk₀ : partsIn parts28 ps = true) (h₀ : Sw.keeps ps s₀ s) :
    Sw.keeps ps s₀ (graftFail step unit status s) := by
  unfold graftFail
  repeat'
    first
    | with_reducible first | assumption | intro _ | apply keeps_ite | apply modTestGraft_keeps | apply completeOpt_keeps | apply graftEnter_keeps | apply raiseSys_keeps | exact partsIn_trans (by decide) hk₀

theorem graftTestOp_keeps {ps : List Piece} {b : Sub} {t : Tok} {s₀ s : Sw} (hk₀ : partsIn parts28 ps = true) (h₀ : Sw.keeps ps s₀ s) :
    Sw.keeps ps s₀ (graftTestOp b t s) := by
  unfold graftTestOp
  repeat'
    first
    | with_reducible first | assumption | intro _ | apply keeps_ite | apply modTestGraft_keeps | apply graftEnter_keeps | apply guardDesc_keeps | apply hostGuard_keeps | exact partsIn_trans (by decide) hk₀

theorem graftSelfTest_keeps {ps : List Piece} {s₀ s : Sw} (hk₀ : partsIn parts28 ps = true) (h₀ : Sw.keeps ps s₀ s) :
    Sw.keeps ps s₀ (graftSelfTest s) := by
  unfold graftSelfTest
  repeat'
    first
    | with_reducible first | assumption | intro _ | apply keeps_ite | apply modTestGraft_keeps | apply graftEnter_keeps | apply graftFail_keeps | exact partsIn_trans (by decide) hk₀
    | dsimp only
    | split

theorem graftLinkTest_keeps {ps : List Piece} {s₀ s : Sw} (hk₀ : partsIn parts50 ps = true) (h₀ : Sw.keeps ps s₀ s) :
    Sw.keeps ps s₀ (graftLinkTest s) := by
  unfold graftLinkTest
  repeat'
    first
    | with_reducible first | assumption | intro _ | apply keeps_ite | apply graftEnter_keeps | apply graftFail_keeps | apply sendGraftOn_keeps | exact partsIn_trans (by decide) hk₀
    | dsimp only
    | split

theorem graftJudge_keeps {ps : List Piece} {s₀ s : Sw} (hk₀ : partsIn parts28 ps = true) (h₀ : Sw.keeps ps s₀ s) :
    Sw.keeps ps s₀ (graftJudge s) := by
  unfold graftJudge
  repeat'
    first
    | with_reducible first | assumption | intro _ | apply keeps_ite | apply modTestGraft_keeps | apply completeOpt_keeps | apply graftEnter_keeps | apply graftFail_keeps | exact partsIn_trans (by decide) hk₀
    | dsimp only
    | split

theorem graftVectors_keeps {ps : List Piece} {s₀ s : Sw} (hk₀ : partsIn parts50 ps = true) (h₀ : Sw.keeps ps s₀ s) :
    Sw.keeps ps s₀ (graftVectors s) := by
  unfold graftVectors
  repeat'
    first
    | with_reducible first | assumption | intro _ | apply keeps_ite | apply modTestGraft_keeps | apply graftJudge_keeps | apply sendGraftOn_keeps | exact partsIn_trans (by decide) hk₀

theorem graftVectorEnd_keeps {ps : List Piece} {s₀ s : Sw} (hk₀ : partsIn parts28 ps = true) (h₀ : Sw.keeps ps s₀ s) :
    Sw.keeps ps s₀ (graftVectorEnd s) := by
  unfold graftVectorEnd
  repeat'
    first
    | with_reducible first | assumption | intro _ | apply keeps_ite | apply graftFail_keeps

theorem graftCopyOp_keeps {ps : List Piece} {b : Sub} {t : Tok} {s₀ s : Sw} (hk₀ : partsIn parts63 ps = true) (h₀ : Sw.keeps ps s₀ s) :
    Sw.keeps ps s₀ (graftCopyOp b t s) := by
  unfold graftCopyOp
  repeat'
    first
    | with_reducible first | assumption | intro _ | apply keeps_ite | apply modGraft_keeps | apply askCopy_keeps | apply copyDone_keeps | apply graftStepEvent_keeps | apply guardDesc_keeps | apply rejoin_keeps | apply settle_keeps | apply each_keeps | exact partsIn_trans (by decide) hk₀

theorem vectorCell_keeps {ps : List Piece} {p : Nat} {c : Cell} {s₀ s : Sw} (hk₀ : partsIn parts50 ps = true) (h₀ : Sw.keeps ps s₀ s) :
    Sw.keeps ps s₀ (vectorCell p c s) := by
  unfold vectorCell
  repeat'
    first
    | with_reducible first | assumption | intro _ | apply keeps_ite | apply modTestGraft_keeps | apply graftJudge_keeps | apply sendGraftOn_keeps | exact partsIn_trans (by decide) hk₀

theorem graftCellIn_keeps {ps : List Piece} {p : Nat} {c : Cell} {s₀ s : Sw} (hk₀ : partsIn parts64 ps = true) (h₀ : Sw.keeps ps s₀ s) :
    Sw.keeps ps s₀ (graftCellIn p c s) := by
  unfold graftCellIn
  repeat'
    first
    | with_reducible first | assumption | intro _ | apply keeps_ite | apply copyCell_keeps | apply ingress_keeps | apply rejoin_keeps | apply settle_keeps | apply toContext_keeps | apply vectorCell_keeps | exact partsIn_trans (by decide) hk₀
    | dsimp only
    | split

/-! ### Security -/

theorem openSession_keeps {ps : List Piece} {bmc : Bool} {s₀ s : Sw} (hk₀ : partsIn [.sec] ps = true) (h₀ : Sw.keeps ps s₀ s) :
    Sw.keeps ps s₀ (openSession bmc s) := by
  unfold openSession
  repeat'
    first
    | with_reducible first | assumption | intro _ | apply keeps_ite | apply modSec_keeps

theorem writeImage_keeps {ps : List Piece} {a : Nat} {l : List Byte} {s₀ s : Sw} (hk₀ : partsIn [.sec] ps = true) (h₀ : Sw.keeps ps s₀ s) :
    Sw.keeps ps s₀ (writeImage a l s) := by
  unfold writeImage
  repeat'
    first
    | with_reducible first | assumption | intro _ | apply keeps_ite | apply modSec_keeps

theorem closeSession_keeps {ps : List Piece} {f : Fuses} {bmc : Bool} {s₀ s : Sw} (hk₀ : partsIn parts29 ps = true) (h₀ : Sw.keeps ps s₀ s) :
    Sw.keeps ps s₀ (closeSession f bmc s) := by
  unfold closeSession
  repeat'
    first
    | with_reducible first | assumption | intro _ | apply keeps_ite | apply raiseHeld_keeps | apply modSec_keeps | exact partsIn_trans (by decide) hk₀

theorem fwLoadOp_keeps {ps : List Piece} {f : Fuses} {b : Sub} {t : Tok} {s₀ s : Sw} (hk₀ : partsIn [.sec, .rings, .evqs, .msix, .held, .outs] ps = true) (h₀ : Sw.keeps ps s₀ s) :
    Sw.keeps ps s₀ (fwLoadOp f b t s) := by
  unfold fwLoadOp
  repeat'
    first
    | with_reducible first | assumption | intro _ | apply keeps_ite | apply closeSession_keeps | apply complete_keeps | apply guardDesc_keeps | apply hostGuard_keeps | apply openSession_keeps | apply writeImage_keeps | apply onlyIf_keeps | exact partsIn_trans (by decide) hk₀
    | dsimp only
    | split
    | simp only [id_eq]

theorem pldmOp_keeps {ps : List Piece} {f : Fuses} {p : PldmStep} {s₀ s : Sw} (hk₀ : partsIn [.glb, .sec, .time, .evqs, .msix, .held, .outs] ps = true) (h₀ : Sw.keeps ps s₀ s) :
    Sw.keeps ps s₀ (pldmOp f p s) := by
  unfold pldmOp
  repeat'
    first
    | with_reducible first | assumption | intro _ | apply keeps_ite | apply afterRoot_keeps | apply closeSession_keeps | apply openSession_keeps | apply writeImage_keeps | apply modSec_keeps | apply out_keeps | exact partsIn_trans (by decide) hk₀
    | dsimp only
    | split

theorem activate_keeps {ps : List Piece} {s₀ s : Sw} (hk₀ : partsIn [.sec] ps = true) (h₀ : Sw.keeps ps s₀ s) :
    Sw.keeps ps s₀ (activate s) := by
  unfold activate
  repeat'
    first
    | with_reducible first | assumption | intro _ | apply keeps_ite | apply modSec_keeps

theorem fwActivateOp_keeps {ps : List Piece} {f : Fuses} {b : Sub} {t : Tok} {s₀ s : Sw} (hk₀ : partsIn parts72 ps = true) (h₀ : Sw.keeps ps s₀ s) :
    Sw.keeps ps s₀ (fwActivateOp f b t s) := by
  unfold fwActivateOp
  repeat'
    first
    | with_reducible first | assumption | intro _ | apply keeps_ite | apply activate_keeps | apply complete_keeps | apply guardDesc_keeps | apply warmReset_keeps | exact partsIn_trans (by decide) hk₀

theorem activateFirmwareOp_keeps {ps : List Piece} {f : Fuses} {selfContained : Bool} {s₀ s : Sw} (hk₀ : partsIn parts72 ps = true) (h₀ : Sw.keeps ps s₀ s) :
    Sw.keeps ps s₀ (activateFirmwareOp f selfContained s) := by
  unfold activateFirmwareOp
  repeat'
    first
    | with_reducible first | assumption | intro _ | apply keeps_ite | apply activate_keeps | apply warmReset_keeps | apply out_keeps | exact partsIn_trans (by decide) hk₀
    | dsimp only
    | split

theorem keyAct_keeps {ps : List Piece} {n slot action : Nat} {rec : List Byte} {s₀ s : Sw} (hk₀ : partsIn [.evqs, .msix, .held, .portSec, .outs] ps = true) (h₀ : Sw.keeps ps s₀ s) :
    Sw.keeps ps s₀ (keyAct n slot action rec s) := by
  unfold keyAct
  repeat'
    first
    | with_reducible first | assumption | intro _ | apply keeps_ite | apply raiseHeld_keeps | apply modPSec_keeps | exact partsIn_trans (by decide) hk₀

theorem linkKeyOp_keeps {ps : List Piece} {b : Sub} {t : Tok} {s₀ s : Sw} (hk₀ : partsIn [.rings, .evqs, .msix, .held, .portSec, .outs] ps = true) (h₀ : Sw.keeps ps s₀ s) :
    Sw.keeps ps s₀ (linkKeyOp b t s) := by
  unfold linkKeyOp
  repeat'
    first
    | with_reducible first | assumption | intro _ | apply keeps_ite | apply complete_keeps | apply guardDesc_keeps | apply hostGuard_keeps | apply keyAct_keeps | exact partsIn_trans (by decide) hk₀
    | dsimp only
    | split
    | simp only [id_eq]

theorem attnShortOp_keeps {ps : List Piece} {s₀ s : Sw} (hk₀ : partsIn parts29 ps = true) (h₀ : Sw.keeps ps s₀ s) :
    Sw.keeps ps s₀ (attnShortOp s) := by
  unfold attnShortOp
  repeat'
    first
    | with_reducible first | assumption | intro _ | apply keeps_ite | apply buttonEvent_keeps | apply modSec_keeps | apply onlyIf_keeps | exact partsIn_trans (by decide) hk₀

theorem attnLongOp_keeps {ps : List Piece} {s₀ s : Sw} (hk₀ : partsIn parts74 ps = true) (h₀ : Sw.keeps ps s₀ s) :
    Sw.keeps ps s₀ (attnLongOp s) := by
  unfold attnLongOp
  repeat'
    first
    | with_reducible first | assumption | intro _ | apply keeps_ite | apply buttonEvent_keeps | apply powerOff_keeps | apply onlyIf_keeps | exact partsIn_trans (by decide) hk₀

/-! ### Spdm -/

theorem modSpdm_keeps {ps : List Piece} {i3c : Bool} {g : Spdm → Spdm} {s₀ s : Sw} (hk₀ : partsIn [.sec] ps = true) (h₀ : Sw.keeps ps s₀ s) :
    Sw.keeps ps s₀ (modSpdm i3c g s) := by
  unfold modSpdm
  repeat'
    first
    | with_reducible first | assumption | intro _ | apply keeps_ite | apply modSec_keeps

theorem spdmAnswer_keeps {ps : List Piece} {i3c : Bool} {req resp : List Byte} {g : Spdm → Spdm} {s₀ s : Sw} (hk₀ : partsIn [.sec, .outs] ps = true) (h₀ : Sw.keeps ps s₀ s) :
    Sw.keeps ps s₀ (spdmAnswer i3c req resp g s) := by
  unfold spdmAnswer
  repeat'
    first
    | with_reducible first | assumption | intro _ | apply keeps_ite | apply modSpdm_keeps | apply out_keeps | exact partsIn_trans (by decide) hk₀

theorem spdmError_keeps {ps : List Piece} {i3c : Bool} {code : Nat} {s₀ s : Sw} (hk₀ : partsIn [.outs] ps = true) (h₀ : Sw.keeps ps s₀ s) :
    Sw.keeps ps s₀ (spdmError i3c code s) := by
  unfold spdmError
  repeat'
    first
    | with_reducible first | assumption | intro _ | apply keeps_ite | apply out_keeps

theorem spdmDo_keeps {ps : List Piece} {i3c : Bool} {step len : Nat} {msg : List Byte} {bad : Bool} {g : Sw → Sw} {s₀ s : Sw} (hk₀ : partsIn [.outs] ps = true) (hg : ∀ a s, Sw.keeps ps a s → Sw.keeps ps a (g s)) (h₀ : Sw.keeps ps s₀ s) :
    Sw.keeps ps s₀ (spdmDo i3c step len msg bad g s) := by
  unfold spdmDo
  repeat'
    first
    | with_reducible first | assumption | intro _ | apply keeps_ite | apply spdmError_keeps | apply hg | exact partsIn_trans (by decide) hk₀
    | dsimp only
    | split

theorem getVersionOp_keeps {ps : List Piece} {i3c : Bool} {msg : List Byte} {s₀ s : Sw} (hk₀ : partsIn [.sec, .outs] ps = true) (h₀ : Sw.keeps ps s₀ s) :
    Sw.keeps ps s₀ (getVersionOp i3c msg s) := by
  unfold getVersionOp
  repeat'
    first
    | with_reducible first | assumption | intro _ | apply keeps_ite | apply spdmAnswer_keeps | apply spdmError_keeps | exact partsIn_trans (by decide) hk₀

theorem getCapabilitiesOp_keeps {ps : List Piece} {i3c : Bool} {msg : List Byte} {s₀ s : Sw} (hk₀ : partsIn [.sec, .outs] ps = true) (h₀ : Sw.keeps ps s₀ s) :
    Sw.keeps ps s₀ (getCapabilitiesOp i3c msg s) := by
  unfold getCapabilitiesOp
  repeat'
    first
    | with_reducible first | assumption | intro _ | apply keeps_ite | apply spdmAnswer_keeps | apply spdmDo_keeps | exact partsIn_trans (by decide) hk₀

theorem negotiateOp_keeps {ps : List Piece} {i3c : Bool} {msg : List Byte} {s₀ s : Sw} (hk₀ : partsIn [.sec, .outs] ps = true) (h₀ : Sw.keeps ps s₀ s) :
    Sw.keeps ps s₀ (negotiateOp i3c msg s) := by
  unfold negotiateOp
  repeat'
    first
    | with_reducible first | assumption | intro _ | apply keeps_ite | apply spdmAnswer_keeps | apply spdmDo_keeps | exact partsIn_trans (by decide) hk₀

theorem getDigestsOp_keeps {ps : List Piece} {f : Fuses} {i3c : Bool} {msg : List Byte} {s₀ s : Sw} (hk₀ : partsIn [.sec, .outs] ps = true) (h₀ : Sw.keeps ps s₀ s) :
    Sw.keeps ps s₀ (getDigestsOp f i3c msg s) := by
  unfold getDigestsOp
  repeat'
    first
    | with_reducible first | assumption | intro _ | apply keeps_ite | apply spdmAnswer_keeps | apply spdmDo_keeps | exact partsIn_trans (by decide) hk₀

theorem getCertificateOp_keeps {ps : List Piece} {f : Fuses} {i3c : Bool} {msg : List Byte} {s₀ s : Sw} (hk₀ : partsIn [.sec, .outs] ps = true) (h₀ : Sw.keeps ps s₀ s) :
    Sw.keeps ps s₀ (getCertificateOp f i3c msg s) := by
  unfold getCertificateOp
  repeat'
    first
    | with_reducible first | assumption | intro _ | apply keeps_ite | apply spdmAnswer_keeps | apply spdmDo_keeps | exact partsIn_trans (by decide) hk₀

theorem drawNonce_keeps {ps : List Piece} {s₀ s : Sw} (hk₀ : partsIn [.freeCtr] ps = true) (h₀ : Sw.keeps ps s₀ s) :
    Sw.keeps ps s₀ (drawNonce s).2 := by
  unfold drawNonce
  repeat'
    first
    | with_reducible first | assumption | intro _ | apply keeps_ite | apply draw_keeps

theorem challengeOp_keeps {ps : List Piece} {f : Fuses} {i3c : Bool} {msg : List Byte} {s₀ s : Sw} (hk₀ : partsIn [.sec, .outs, .freeCtr] ps = true) (h₀ : Sw.keeps ps s₀ s) :
    Sw.keeps ps s₀ (challengeOp f i3c msg s) := by
  unfold challengeOp
  repeat'
    first
    | with_reducible first | assumption | intro _ | apply keeps_ite | apply drawNonce_keeps | apply spdmAnswer_keeps | apply spdmDo_keeps | apply drawn_keeps | exact partsIn_trans (by decide) hk₀

theorem getMeasurementsOp_keeps {ps : List Piece} {f : Fuses} {i3c : Bool} {msg : List Byte} {s₀ s : Sw} (hk₀ : partsIn [.sec, .outs, .freeCtr] ps = true) (h₀ : Sw.keeps ps s₀ s) :
    Sw.keeps ps s₀ (getMeasurementsOp f i3c msg s) := by
  unfold getMeasurementsOp
  repeat'
    first
    | with_reducible first | assumption | intro _ | apply keeps_ite | apply drawNonce_keeps | apply spdmAnswer_keeps | apply spdmDo_keeps | apply drawn_keeps | exact partsIn_trans (by decide) hk₀

/-! ### RegRead -/

theorem readView_keeps {ps : List Piece} {req off : Nat} {v : RegView} {s₀ s : Sw} (hk₀ : partsIn [.glb] ps = true) (h₀ : Sw.keeps ps s₀ s) :
    Sw.keeps ps s₀ (readView req off v s).2 := by
  unfold readView
  repeat'
    first
    | with_reducible first | assumption | intro _ | apply keeps_ite | apply evTimes_keeps | apply modGlb_keeps | exact partsIn_trans (by decide) hk₀
    | exact fun _ => rfl
    | dsimp only
    | split

theorem readWord_keeps {ps : List Piece} {f : Fuses} {bmc : Bool} {off : Nat} {s₀ s : Sw} (hk₀ : partsIn parts21 ps = true) (h₀ : Sw.keeps ps s₀ s) :
    Sw.keeps ps s₀ (readWord f bmc off s).2 := by
  unfold readWord
  repeat'
    first
    | with_reducible first | assumption | intro _ | apply keeps_ite | apply accessEnds_keeps | apply readView_keeps | exact partsIn_trans (by decide) hk₀
    | dsimp only
    | split

theorem readAligned_keeps {ps : List Piece} {f : Fuses} {bmc : Bool} {func off : Nat} {s₀ s : Sw} (hk₀ : partsIn parts21 ps = true) (h₀ : Sw.keeps ps s₀ s) :
    Sw.keeps ps s₀ (readAligned f bmc func off s).2 := by
  unfold readAligned
  repeat'
    first
    | with_reducible first | assumption | intro _ | apply keeps_ite | apply readView_keeps | apply readWord_keeps | exact partsIn_trans (by decide) hk₀
    | dsimp only
    | split

theorem readSpan_keeps {ps : List Piece} {f : Fuses} {bmc : Bool} {func off : Nat} {fuel : Nat} {s₀ s : Sw} (hk₀ : partsIn parts21 ps = true) (h₀ : Sw.keeps ps s₀ s) :
    Sw.keeps ps s₀ (readSpan f bmc func off fuel s).2 := by
  induction fuel generalizing off s s₀ with
  | zero =>
    unfold readSpan
    repeat'
      first
      | with_reducible first | assumption
  | succ fuel ih =>
    unfold readSpan
    repeat'
      first
      | with_reducible first | assumption | apply ih | intro _ | apply keeps_ite | apply readAligned_keeps

theorem readOp_keeps {ps : List Piece} {f : Fuses} {bmc : Bool} {func offset size : Nat} {s₀ s : Sw} (hk₀ : partsIn parts21 ps = true) (h₀ : Sw.keeps ps s₀ s) :
    Sw.keeps ps s₀ (readOp f bmc func offset size s) := by
  unfold readOp
  repeat'
    first
    | with_reducible first | assumption | intro _ | apply keeps_ite | apply readSpan_keeps | apply out_keeps | exact partsIn_trans (by decide) hk₀

theorem readWords_keeps {ps : List Piece} {f : Fuses} {off : Nat} {fuel : Nat} {s₀ s : Sw} (hk₀ : partsIn parts21 ps = true) (h₀ : Sw.keeps ps s₀ s) :
    Sw.keeps ps s₀ (readWords f off fuel s).2 := by
  induction fuel generalizing off s s₀ with
  | zero =>
    unfold readWords
    repeat'
      first
      | with_reducible first | assumption
  | succ fuel ih =>
    unfold readWords
    repeat'
      first
      | with_reducible first | assumption | apply ih | intro _ | apply keeps_ite | apply readWord_keeps

theorem regReadOp_keeps {ps : List Piece} {f : Fuses} {offset count : Nat} {s₀ s : Sw} (hk₀ : partsIn parts21 ps = true) (h₀ : Sw.keeps ps s₀ s) :
    Sw.keeps ps s₀ (regReadOp f offset count s) := by
  unfold regReadOp
  repeat'
    first
    | with_reducible first | assumption | intro _ | apply keeps_ite | apply readWords_keeps | apply out_keeps | exact partsIn_trans (by decide) hk₀

theorem sensorOp_keeps {ps : List Piece} {i3c : Bool} {id : Nat} {s₀ s : Sw} (hk₀ : partsIn [.outs] ps = true) (h₀ : Sw.keeps ps s₀ s) :
    Sw.keeps ps s₀ (sensorOp i3c id s) := by
  unfold sensorOp
  repeat'
    first
    | with_reducible first | assumption | intro _ | apply keeps_ite | apply out_keeps | exact partsIn_trans (by decide) hk₀
    | dsimp only
    | split

/-! ### Time -/

theorem scaleCheck_keeps {ps : List Piece} {n : Nat} {s₀ s : Sw} (hk₀ : partsIn parts8 ps = true) (h₀ : Sw.keeps ps s₀ s) :
    Sw.keeps ps s₀ (scaleCheck n s) := by
  unfold scaleCheck
  repeat'
    first
    | with_reducible first | assumption | intro _ | apply keeps_ite | apply raiseSys_keeps | apply modQ_keeps | exact partsIn_trans (by decide) hk₀

theorem tickItem_keeps {ps : List Piece} {n : Nat} {s₀ : Sw} (hk₀ : partsIn [.evTimes, .time, .evqs, .msix, .portQ, .outs, .freeCtr] ps = true)
    (b : SMap Bool × List Nat × List TxItem × Sw) (it : TxItem) (h : Sw.keeps ps s₀ b.2.2.2) :
    Sw.keeps ps s₀ (tickItem n b it).2.2.2 := by
  obtain ⟨h1, h2, h3, s⟩ := b
  unfold tickItem
  dsimp only at h ⊢
  repeat'
    first
    | with_reducible first | assumption | apply keeps_ite | apply overrun_keeps | apply placeNow_keeps | apply modQ_keeps | exact partsIn_trans (by decide) hk₀
    | split
theorem tickPort_keeps {ps : List Piece} {n : Nat} {s₀ s : Sw} (hk₀ : partsIn [.evTimes, .time, .evqs, .msix, .portQ, .outs, .freeCtr] ps = true) (h₀ : Sw.keeps ps s₀ s) :
    Sw.keeps ps s₀ (tickPort n s) := by
  unfold tickPort
  dsimp only
  refine modQ_keeps (partsIn_trans (by decide) hk₀) ?_
  refine fold_keeps (fun b : SMap Bool × List Nat × List TxItem × Sw => b.2.2.2) _
    (fun b it h => tickItem_keeps (partsIn_trans (by decide) hk₀) b it h) _ _ ?_
  dsimp only
  repeat'
    first
    | with_reducible first | assumption | apply scaleCheck_keeps | apply modQ_keeps | exact partsIn_trans (by decide) hk₀

theorem takeQuota_keeps {ps : List Piece} {x : Nat} {s₀ s : Sw} (hk₀ : partsIn [.ctxs] ps = true) (h₀ : Sw.keeps ps s₀ s) :
    Sw.keeps ps s₀ (takeQuota x s) := by
  unfold takeQuota
  repeat'
    first
    | with_reducible first | assumption | intro _ | apply keeps_ite | apply modCtx_keeps

theorem tickCtx_keeps {ps : List Piece} {x : Nat} {s₀ s : Sw} (hk₀ : partsIn parts63 ps = true) (h₀ : Sw.keeps ps s₀ s) :
    Sw.keeps ps s₀ (tickCtx x s) := by
  unfold tickCtx
  repeat'
    first
    | with_reducible first | assumption | intro _ | apply keeps_ite | apply grantCtx_keeps | apply sendRelease_keeps | apply settle_keeps | apply modCtx_keeps | exact partsIn_trans (by decide) hk₀
    | dsimp only
    | split

theorem quarantineDue_keeps {ps : List Piece} {s₀ s : Sw} (hk₀ : partsIn parts70 ps = true) (h₀ : Sw.keeps ps s₀ s) :
    Sw.keeps ps s₀ (quarantineDue s) := by
  unfold quarantineDue
  repeat'
    first
    | with_reducible first | assumption | intro _ | apply keeps_ite | apply quarantine_keeps | apply modRec_keeps | apply each_keeps | exact partsIn_trans (by decide) hk₀

theorem frameTickOp_keeps {ps : List Piece} {s₀ s : Sw} (hk₀ : partsIn parts70 ps = true) (h₀ : Sw.keeps ps s₀ s) :
    Sw.keeps ps s₀ (frameTickOp s) := by
  unfold frameTickOp
  repeat'
    first
    | with_reducible first | assumption | intro _ | apply keeps_ite | apply tickPort_keeps | apply lateTicks_keeps | apply quarantineDue_keeps | apply takeQuota_keeps | apply tickCtx_keeps | apply toTick_keeps | apply modTime_keeps | apply each_keeps | exact partsIn_trans (by decide) hk₀

theorem timingMessageOp_keeps {ps : List Piece} {msg : BitVec 128} {mark : Quad} {frac : BitVec 4} {s₀ s : Sw} (hk₀ : partsIn parts37 ps = true) (h₀ : Sw.keeps ps s₀ s) :
    Sw.keeps ps s₀ (timingMessageOp msg mark frac s) := by
  unfold timingMessageOp
  repeat'
    first
    | with_reducible first | assumption | intro _ | apply keeps_ite | apply inputEvent_keeps | apply inputInvalid_keeps | apply offsetMeasured_keeps | apply reselectNow_keeps | apply modSync_keeps | exact partsIn_trans (by decide) hk₀

theorem timingOutOp_keeps {ps : List Piece} {s₀ s : Sw} (hk₀ : partsIn [.time, .outs] ps = true) (h₀ : Sw.keeps ps s₀ s) :
    Sw.keeps ps s₀ (timingOutOp s) := by
  unfold timingOutOp
  repeat'
    first
    | with_reducible first | assumption | intro _ | apply keeps_ite | apply toTick_keeps | apply out_keeps | exact partsIn_trans (by decide) hk₀

theorem freeRound_keeps {ps : List Piece} {num : Int} {den : Nat} {s₀ s : Sw} (hk₀ : partsIn [.freeCtr] ps = true) (h₀ : Sw.keeps ps s₀ s) :
    Sw.keeps ps s₀ (freeRound num den s).2 := by
  unfold freeRound
  repeat'
    first
    | with_reducible first | assumption | intro _ | apply keeps_ite | apply draw_keeps | exact partsIn_trans (by decide) hk₀
    | dsimp only
    | split

theorem syncOp_keeps {ps : List Piece} {p : Nat} {stamp : Int} {c : Cell} {s₀ s : Sw} (hk₀ : partsIn parts37 ps = true) (h₀ : Sw.keeps ps s₀ s) :
    Sw.keeps ps s₀ (syncOp p stamp c s) := by
  unfold syncOp
  repeat'
    first
    | with_reducible first | assumption | intro _ | apply keeps_ite | apply freeRound_keeps | apply offsetMeasured_keeps | apply modSync_keeps | exact partsIn_trans (by decide) hk₀

theorem delayReqOp_keeps {ps : List Piece} {p : Nat} {stamp : Quad} {frac : BitVec 4} {c : Cell} {s₀ s : Sw} (hk₀ : partsIn parts32 ps = true) (h₀ : Sw.keeps ps s₀ s) :
    Sw.keeps ps s₀ (delayReqOp p stamp frac c s) := by
  unfold delayReqOp
  repeat'
    first
    | with_reducible first | assumption | intro _ | apply keeps_ite | apply sendCtrl_keeps

theorem delayRespOp_keeps {ps : List Piece} {p : Nat} {c : Cell} {s₀ s : Sw} (hk₀ : partsIn [.sync] ps = true) (h₀ : Sw.keeps ps s₀ s) :
    Sw.keeps ps s₀ (delayRespOp p c s) := by
  unfold delayRespOp
  repeat'
    first
    | with_reducible first | assumption | intro _ | apply keeps_ite | apply modSync_keeps | exact partsIn_trans (by decide) hk₀
    | dsimp only
    | split

theorem announceOp_keeps {ps : List Piece} {p : Nat} {c : Cell} {s₀ s : Sw} (hk₀ : partsIn parts37 ps = true) (h₀ : Sw.keeps ps s₀ s) :
    Sw.keeps ps s₀ (announceOp p c s) := by
  unfold announceOp
  repeat'
    first
    | with_reducible first | assumption | intro _ | apply keeps_ite | apply reselect_keeps | apply modSync_keeps | exact partsIn_trans (by decide) hk₀

theorem syncOn_keeps {ps : List Piece} {withAnn : Bool} {n : Nat} {s₀ s : Sw} (hk₀ : partsIn parts42 ps = true) (h₀ : Sw.keeps ps s₀ s) :
    Sw.keeps ps s₀ (syncOn withAnn n s) := by
  unfold syncOn
  repeat'
    first
    | with_reducible first | assumption | intro _ | apply keeps_ite | apply sendCtrl_keeps | apply modSync_keeps | exact partsIn_trans (by decide) hk₀

theorem syncIntervalOp_keeps {ps : List Piece} {s₀ s : Sw} (hk₀ : partsIn [.evTimes, .time, .sync, .evqs, .msix, .portCnt, .portQ, .outs] ps = true) (h₀ : Sw.keeps ps s₀ s) :
    Sw.keeps ps s₀ (syncIntervalOp s) := by
  unfold syncIntervalOp
  repeat'
    first
    | with_reducible first | assumption | intro _ | apply keeps_ite | apply syncOn_keeps | apply toTick_keeps | apply modSync_keeps | apply each_keeps | exact partsIn_trans (by decide) hk₀

theorem delayReqTimerOp_keeps {ps : List Piece} {s₀ s : Sw} (hk₀ : partsIn parts42 ps = true) (h₀ : Sw.keeps ps s₀ s) :
    Sw.keeps ps s₀ (delayReqTimerOp s) := by
  unfold delayReqTimerOp
  repeat'
    first
    | with_reducible first | assumption | intro _ | apply keeps_ite | apply sendCtrl_keeps | apply modSync_keeps | exact partsIn_trans (by decide) hk₀
    | dsimp only
    | split

theorem holdoverOp_keeps {ps : List Piece} {s₀ s : Sw} (hk₀ : partsIn parts37 ps = true) (h₀ : Sw.keeps ps s₀ s) :
    Sw.keeps ps s₀ (holdoverOp s) := by
  unfold holdoverOp
  repeat'
    first
    | with_reducible first | assumption | intro _ | apply keeps_ite | apply raiseSys_keeps | apply reselectNow_keeps | apply modTime_keeps | apply modSync_keeps | exact partsIn_trans (by decide) hk₀

theorem writeSource_keeps {ps : List Piece} {value : Nat} {s₀ s : Sw} (hk₀ : partsIn parts37 ps = true) (h₀ : Sw.keeps ps s₀ s) :
    Sw.keeps ps s₀ (writeSource value s) := by
  unfold writeSource
  repeat'
    first
    | with_reducible first | assumption | intro _ | apply keeps_ite | apply reselect_keeps | apply modTime_keeps | apply modSync_keeps | exact partsIn_trans (by decide) hk₀

theorem writePeriod_keeps {ps : List Piece} {func raw : Nat} {s₀ s : Sw} (hk₀ : partsIn [.glb, .time, .evqs, .msix, .last0106, .outs] ps = true) (h₀ : Sw.keeps ps s₀ s) :
    Sw.keeps ps s₀ (writePeriod func raw s) := by
  unfold writePeriod
  repeat'
    first
    | with_reducible first | assumption | intro _ | apply keeps_ite | apply countDiscard_keeps | apply raiseSys_keeps | apply regDiscard_keeps | apply modTime_keeps | exact partsIn_trans (by decide) hk₀
    | dsimp only
    | split

theorem periodChangedOp_keeps {ps : List Piece} {s₀ s : Sw} (hk₀ : partsIn parts15 ps = true) (h₀ : Sw.keeps ps s₀ s) :
    Sw.keeps ps s₀ (periodChangedOp s) := by
  unfold periodChangedOp
  repeat'
    first
    | with_reducible first | assumption | intro _ | apply keeps_ite | apply raiseSys_keeps | apply toTick_keeps | apply modTime_keeps | exact partsIn_trans (by decide) hk₀

theorem withPlan_keeps {ps : List Piece} {x rank : Nat} {q : Nat × Nat × Nat} {s₀ s : Sw} (hk₀ : partsIn [.ctxs] ps = true) (h₀ : Sw.keeps ps s₀ s) :
    Sw.keeps ps s₀ (withPlan x rank q s) := by
  unfold withPlan
  repeat'
    first
    | with_reducible first | assumption | intro _ | apply keeps_ite | apply takeQuota_keeps | apply modCtx_keeps | apply each_keeps

theorem frameQuotaOp_keeps {ps : List Piece} {b : Sub} {t : Tok} {s₀ s : Sw} (hk₀ : partsIn parts26 ps = true) (h₀ : Sw.keeps ps s₀ s) :
    Sw.keeps ps s₀ (frameQuotaOp b t s) := by
  unfold frameQuotaOp
  repeat'
    first
    | with_reducible first | assumption | intro _ | apply keeps_ite | apply complete_keeps | apply guardDesc_keeps | apply withPlan_keeps | apply modCtx_keeps | exact partsIn_trans (by decide) hk₀

theorem launchOp_keeps {ps : List Piece} {x o : Nat} {s₀ s : Sw} (hk₀ : partsIn parts65 ps = true) (h₀ : Sw.keeps ps s₀ s) :
    Sw.keeps ps s₀ (launchOp x o s) := by
  unfold launchOp
  repeat'
    first
    | with_reducible first | assumption | intro _ | apply keeps_ite | apply gatherEmit_keeps | apply gridCellWhole_keeps | apply recordResume_keeps | apply releaseExchange_keeps | apply settle_keeps | apply modTime_keeps | apply each_keeps | exact partsIn_trans (by decide) hk₀
    | dsimp only
    | split

/-! ### Registers -/

theorem setGlb_keeps {ps : List Piece} {func off : Nat} {v : Word} {s₀ s : Sw} (hk₀ : partsIn parts74 ps = true) (h₀ : Sw.keeps ps s₀ s) :
    Sw.keeps ps s₀ (setGlb func off v s) := by
  unfold setGlb
  repeat'
    first
    | with_reducible first | assumption | intro _ | apply keeps_ite | apply coldReset_keeps | apply clockWrite_keeps | apply portResetWrite_keeps | apply powerOff_keeps | apply regDiscard_keeps | apply tileResetWrite_keeps | apply warmReset_keeps | apply evTimes_keeps | apply modGlb_keeps | exact partsIn_trans (by decide) hk₀
    | exact fun _ => rfl
    | dsimp only
    | split

theorem setPwr_keeps {ps : List Piece} {func off : Nat} {v : Word} {s₀ s : Sw} (hk₀ : partsIn parts35 ps = true) (h₀ : Sw.keeps ps s₀ s) :
    Sw.keeps ps s₀ (setPwr func off v s) := by
  unfold setPwr
  repeat'
    first
    | with_reducible first | assumption | intro _ | apply keeps_ite | apply profileWrite_keeps | apply modPwr_keeps | exact partsIn_trans (by decide) hk₀
    | dsimp only
    | split

theorem setTime_keeps {ps : List Piece} {func off : Nat} {v : Word} {s₀ s : Sw} (hk₀ : partsIn [.glb, .time, .sync, .evqs, .msix, .last0106, .outs, .freeCtr] ps = true) (h₀ : Sw.keeps ps s₀ s) :
    Sw.keeps ps s₀ (setTime func off v s) := by
  unfold setTime
  repeat'
    first
    | with_reducible first | assumption | intro _ | apply keeps_ite | apply regDiscard_keeps | apply writePeriod_keeps | apply writeSource_keeps | apply modTime_keeps | exact partsIn_trans (by decide) hk₀
    | dsimp only
    | split

theorem setSec_keeps {ps : List Piece} {off : Nat} {v : Word} {s₀ s : Sw} (hk₀ : partsIn [.sec, .portSec] ps = true) (h₀ : Sw.keeps ps s₀ s) :
    Sw.keeps ps s₀ (setSec off v s) := by
  unfold setSec
  repeat'
    first
    | with_reducible first | assumption | intro _ | apply keeps_ite | apply modSec_keeps | apply modPSec_keeps | exact partsIn_trans (by decide) hk₀

theorem setRing_keeps {ps : List Piece} {func n reg : Nat} {v : Word} {s₀ s : Sw} (hk₀ : partsIn parts45 ps = true) (h₀ : Sw.keeps ps s₀ s) :
    Sw.keeps ps s₀ (setRing func n reg v s) := by
  unfold setRing
  repeat'
    first
    | with_reducible first | assumption | intro _ | apply keeps_ite | apply regDiscard_keeps | apply ringStart_keeps | apply ringStop_keeps | apply modRing_keeps | exact partsIn_trans (by decide) hk₀
    | dsimp only
    | split

theorem setEvq_keeps {ps : List Piece} {func q reg : Nat} {v : Word} {s₀ s : Sw} (hk₀ : partsIn parts22 ps = true) (h₀ : Sw.keeps ps s₀ s) :
    Sw.keeps ps s₀ (setEvq func q reg v s) := by
  unfold setEvq
  repeat'
    first
    | with_reducible first | assumption | intro _ | apply keeps_ite | apply evqStart_keeps | apply evqStop_keeps | apply regDiscard_keeps | apply modEvq_keeps | exact partsIn_trans (by decide) hk₀
    | dsimp only
    | split

theorem setPersonality_keeps {ps : List Piece} {n : Nat} {v : Word} {s₀ s : Sw} (hk₀ : partsIn parts68 ps = true) (h₀ : Sw.keeps ps s₀ s) :
    Sw.keeps ps s₀ (setPersonality n v s) := by
  unfold setPersonality
  repeat'
    first
    | with_reducible first | assumption | intro _ | apply keeps_ite | apply adminDown_keeps | apply adminUpOp_keeps | apply modQuad_keeps | apply modReg_keeps | exact partsIn_trans (by decide) hk₀
    | exact fun _ => rfl
    | (intro; dsimp only; split <;> rfl)
    | dsimp only

theorem setCredit_keeps {ps : List Piece} {func n w : Nat} {v : Word} {s₀ s : Sw} (hk₀ : partsIn [.glb, .evqs, .msix, .last0106, .portReg, .outs] ps = true) (h₀ : Sw.keeps ps s₀ s) :
    Sw.keeps ps s₀ (setCredit func n w v s) := by
  unfold setCredit
  repeat'
    first
    | with_reducible first | assumption | intro _ | apply keeps_ite | apply regDiscard_keeps | apply modReg_keeps | exact partsIn_trans (by decide) hk₀
    | exact fun _ => rfl
    | (intro; dsimp only; split <;> rfl)
    | dsimp only

theorem setPort_keeps {ps : List Piece} {func n reg : Nat} {v : Word} {s₀ s : Sw} (hk₀ : partsIn [.glb, .evTimes, .wear, .time, .sync, .rings, .evqs, .jobs, .flags, .msix, .last0106, .portReg, .portMap, .portCnt, .portLink, .portQ, .portSec, .quads, .lanes, .tiles, .hbm, .cxl, .pool, .ctxs, .fab, .rcv, .migQueues, .outs, .freeCtr] ps = true) (h₀ : Sw.keeps ps s₀ s) :
    Sw.keeps ps s₀ (setPort func n reg v s) := by
  unfold setPort
  repeat'
    first
    | with_reducible first | assumption | intro _ | apply keeps_ite | apply regDiscard_keeps | apply setCredit_keeps | apply setPersonality_keeps | apply modReg_keeps | exact partsIn_trans (by decide) hk₀
    | exact fun _ => rfl
    | (intro; dsimp only; split <;> rfl)
    | dsimp only

theorem setLane_keeps {ps : List Piece} {func l reg : Nat} {v : Word} {s₀ s : Sw} (hk₀ : partsIn parts34 ps = true) (h₀ : Sw.keeps ps s₀ s) :
    Sw.keeps ps s₀ (setLane func l reg v s) := by
  unfold setLane
  repeat'
    first
    | with_reducible first | assumption | intro _ | apply keeps_ite | apply injectWrite_keeps | apply testWrite_keeps | apply modLane_keeps | apply modTest_keeps | exact partsIn_trans (by decide) hk₀
    | dsimp only
    | split

theorem setSite_keeps {ps : List Piece} {m reg : Nat} {v : Word} {s₀ s : Sw} (hk₀ : partsIn parts71 ps = true) (h₀ : Sw.keeps ps s₀ s) :
    Sw.keeps ps s₀ (setSite m reg v s) := by
  unfold setSite
  repeat'
    first
    | with_reducible first | assumption | intro _ | apply keeps_ite | apply laserOff_keeps | apply laserOn_keeps | apply prepCancel_keeps | apply prepRemoveOp_keeps | exact partsIn_trans (by decide) hk₀

theorem setCxl_keeps {ps : List Piece} {func off : Nat} {v : Word} {s₀ s : Sw} (hk₀ : partsIn [.glb, .evqs, .msix, .last0106, .cxl, .cxlHoldMs, .outs] ps = true) (h₀ : Sw.keeps ps s₀ s) :
    Sw.keeps ps s₀ (setCxl func off v s) := by
  unfold setCxl
  repeat'
    first
    | with_reducible first | assumption | intro _ | apply keeps_ite | apply regDiscard_keeps | apply modRoot_keeps | apply setHoldMs_keeps | exact partsIn_trans (by decide) hk₀

theorem setWear_keeps {ps : List Piece} {off : Nat} {v : Word} {s₀ s : Sw} (hk₀ : partsIn [.wear] ps = true) (h₀ : Sw.keeps ps s₀ s) :
    Sw.keeps ps s₀ (setWear off v s) := by
  unfold setWear
  repeat'
    first
    | with_reducible first | assumption | intro _ | apply keeps_ite | apply modWear_keeps

theorem setPool_keeps {ps : List Piece} {off : Nat} {v : Word} {s₀ s : Sw} (hk₀ : partsIn parts17 ps = true) (h₀ : Sw.keeps ps s₀ s) :
    Sw.keeps ps s₀ (setPool off v s) := by
  unfold setPool
  repeat'
    first
    | with_reducible first | assumption | intro _ | apply keeps_ite | apply warn_keeps | apply modPool_keeps | exact partsIn_trans (by decide) hk₀

theorem setReg_keeps {ps : List Piece} {func off : Nat} {v : Word} {s₀ s : Sw} (hk₀ : partsIn parts74 ps = true) (h₀ : Sw.keeps ps s₀ s) :
    Sw.keeps ps s₀ (setReg func off v s) := by
  unfold setReg
  repeat'
    first
    | with_reducible first | assumption | intro _ | apply keeps_ite | apply regDiscard_keeps | apply setCxl_keeps | apply setEvq_keeps | apply setGlb_keeps | apply setLane_keeps | apply setPool_keeps | apply setPort_keeps | apply setPwr_keeps | apply setRing_keeps | apply setSec_keeps | apply setSite_keeps | apply setTime_keeps | apply setWear_keeps | apply modStack_keeps | apply evTimes_keeps | apply modGlb_keeps | exact partsIn_trans (by decide) hk₀
    | exact fun _ => rfl
    | dsimp only

theorem bar0Write_keeps {ps : List Piece} {f : Fuses} {off size : Nat} {v : Word} {s₀ s : Sw} (hk₀ : partsIn parts74 ps = true) (h₀ : Sw.keeps ps s₀ s) :
    Sw.keeps ps s₀ (bar0Write f off size v s) := by
  unfold bar0Write
  repeat'
    first
    | with_reducible first | assumption | intro _ | apply keeps_ite | apply accessEnds_keeps | apply regDiscard_keeps | apply setReg_keeps | exact partsIn_trans (by decide) hk₀
    | dsimp only
    | split

theorem vfWrite_keeps {ps : List Piece} {k off size : Nat} {v : Word} {s₀ s : Sw} (hk₀ : partsIn parts45 ps = true) (h₀ : Sw.keeps ps s₀ s) :
    Sw.keeps ps s₀ (vfWrite k off size v s) := by
  unfold vfWrite
  repeat'
    first
    | with_reducible first | assumption | intro _ | apply keeps_ite | apply regDiscard_keeps | apply setEvq_keeps | apply setRing_keeps | exact partsIn_trans (by decide) hk₀
    | dsimp only
    | split

theorem cmdWrite_keeps {ps : List Piece} {n : Nat} {v : Word} {s₀ s : Sw} (hk₀ : partsIn parts25 ps = true) (h₀ : Sw.keeps ps s₀ s) :
    Sw.keeps ps s₀ (cmdWrite n v s) := by
  unfold cmdWrite
  repeat'
    first
    | with_reducible first | assumption | intro _ | apply keeps_ite | apply endWait_keeps | apply ringDoorbellBad_keeps | apply modRing_keeps | apply onlyIf_keeps | exact partsIn_trans (by decide) hk₀

theorem ringPage_keeps {ps : List Piece} {func n off size : Nat} {v : Word} {s₀ s : Sw} (hk₀ : partsIn parts25 ps = true) (h₀ : Sw.keeps ps s₀ s) :
    Sw.keeps ps s₀ (ringPage func n off size v s) := by
  unfold ringPage
  repeat'
    first
    | with_reducible first | assumption | intro _ | apply keeps_ite | apply cmdWrite_keeps | apply ringBell_keeps | apply ringDoorbellBad_keeps | apply tailWrite_keeps | exact partsIn_trans (by decide) hk₀
    | dsimp only
    | split

theorem evqPage_keeps {ps : List Piece} {func q off size : Nat} {v : Word} {s₀ s : Sw} (hk₀ : partsIn [.evqs, .msix, .outs] ps = true) (h₀ : Sw.keeps ps s₀ s) :
    Sw.keeps ps s₀ (evqPage func q off size v s) := by
  unfold evqPage
  repeat'
    first
    | with_reducible first | assumption | intro _ | apply keeps_ite | apply evqBell_keeps | apply evqDoorbellBad_keeps

theorem bar2Write_keeps {ps : List Piece} {func off size : Nat} {v : Word} {s₀ s : Sw} (hk₀ : partsIn parts25 ps = true) (h₀ : Sw.keeps ps s₀ s) :
    Sw.keeps ps s₀ (bar2Write func off size v s) := by
  unfold bar2Write
  repeat'
    first
    | with_reducible first | assumption | intro _ | apply keeps_ite | apply evqPage_keeps | apply ringPage_keeps | exact partsIn_trans (by decide) hk₀
    | dsimp only
    | split

theorem msixWrite_keeps {ps : List Piece} {func vec word : Nat} {v : Word} {s₀ s : Sw} (hk₀ : partsIn [.msix, .outs] ps = true) (h₀ : Sw.keeps ps s₀ s) :
    Sw.keeps ps s₀ (msixWrite func vec word v s) := by
  unfold msixWrite
  repeat'
    first
    | with_reducible first | assumption | intro _ | apply keeps_ite | apply sendMsix_keeps | apply modHost_keeps | exact partsIn_trans (by decide) hk₀
    | exact Or.inr (fun _ => rfl)
    | exact Or.inl (partsIn_mem hk₀ (by decide))
    | dsimp only
    | split

theorem bar4Write_keeps {ps : List Piece} {func off size : Nat} {v : Word} {s₀ s : Sw} (hk₀ : partsIn [.msix, .outs] ps = true) (h₀ : Sw.keeps ps s₀ s) :
    Sw.keeps ps s₀ (bar4Write func off size v s) := by
  unfold bar4Write
  repeat'
    first
    | with_reducible first | assumption | intro _ | apply keeps_ite | apply msixWrite_keeps

theorem sriovWrite_keeps {ps : List Piece} {v : Word} {s₀ s : Sw} (hk₀ : partsIn [.hostSet] ps = true) (h₀ : Sw.keeps ps s₀ s) :
    Sw.keeps ps s₀ (sriovWrite v s) := by
  unfold sriovWrite
  repeat'
    first
    | with_reducible first | assumption | intro _ | apply keeps_ite | apply modHost_keeps | exact partsIn_trans (by decide) hk₀
    | exact Or.inr (fun _ => rfl)
    | exact Or.inl (partsIn_mem hk₀ (by decide))

theorem writeOp_keeps {ps : List Piece} {f : Fuses} {func : Nat} {space : RegSpace} {off size : Nat} {v : Word} {s₀ s : Sw} (hk₀ : partsIn parts74 ps = true) (h₀ : Sw.keeps ps s₀ s) :
    Sw.keeps ps s₀ (writeOp f func space off size v s) := by
  unfold writeOp
  repeat'
    first
    | with_reducible first | assumption | intro _ | apply keeps_ite | apply bar0Write_keeps | apply bar2Write_keeps | apply bar4Write_keeps | apply sriovWrite_keeps | apply vfWrite_keeps | exact partsIn_trans (by decide) hk₀
    | dsimp only
    | split

/-! ### Routes -/

theorem writePortRanks_keeps {ps : List Piece} {clear : Bool} {es : List (List Byte)} {s₀ s : Sw} (hk₀ : partsIn parts41 ps = true) (h₀ : Sw.keeps ps s₀ s) :
    Sw.keeps ps s₀ (writePortRanks clear es s) := by
  unfold writePortRanks
  repeat'
    first
    | with_reducible first | assumption | intro _ | apply keeps_ite | apply announceAll_keeps | apply modFab_keeps | apply out_keeps | exact partsIn_trans (by decide) hk₀

theorem routeWriteOp_keeps {ps : List Piece} {b : Sub} {t : Tok} {s₀ s : Sw} (hk₀ : partsIn [.evTimes, .rings, .evqs, .msix, .portCnt, .portQ, .fab, .outs] ps = true) (h₀ : Sw.keeps ps s₀ s) :
    Sw.keeps ps s₀ (routeWriteOp b t s) := by
  unfold routeWriteOp
  repeat'
    first
    | with_reducible first | assumption | intro _ | apply keeps_ite | apply modVer_keeps | apply complete_keeps | apply guardDesc_keeps | apply hostGuard_keeps | apply writePortRanks_keeps | apply out_keeps | exact partsIn_trans (by decide) hk₀
    | dsimp only
    | split

theorem routeReadOp_keeps {ps : List Piece} {b : Sub} {t : Tok} {s₀ s : Sw} (hk₀ : partsIn parts13 ps = true) (h₀ : Sw.keeps ps s₀ s) :
    Sw.keeps ps s₀ (routeReadOp b t s) := by
  unfold routeReadOp
  repeat'
    first
    | with_reducible first | assumption | intro _ | apply keeps_ite | apply complete_keeps | apply guardDesc_keeps | apply hostGuard_keeps | apply hostWrite_keeps | exact partsIn_trans (by decide) hk₀

theorem disarm_keeps {ps : List Piece} {v : Nat} {t : Tok} {s₀ s : Sw} (hk₀ : partsIn parts65 ps = true) (h₀ : Sw.keeps ps s₀ s) :
    Sw.keeps ps s₀ (disarm v t s) := by
  unfold disarm
  repeat'
    first
    | with_reducible first | assumption | intro _ | apply keeps_ite | apply modVer_keeps | apply announceAll_keeps | apply complete_keeps | apply completeOpt_keeps | apply flip_keeps | apply trigger_keeps | apply modFab_keeps | exact partsIn_trans (by decide) hk₀

theorem routeArmOp_keeps {ps : List Piece} {b : Sub} {t : Tok} {s₀ s : Sw} (hk₀ : partsIn parts65 ps = true) (h₀ : Sw.keeps ps s₀ s) :
    Sw.keeps ps s₀ (routeArmOp b t s) := by
  unfold routeArmOp
  repeat'
    first
    | with_reducible first | assumption | intro _ | apply keeps_ite | apply modVer_keeps | apply announceAll_keeps | apply complete_keeps | apply disarm_keeps | apply guardDesc_keeps | apply hostGuard_keeps | apply trigger_keeps | apply modFab_keeps | exact partsIn_trans (by decide) hk₀

theorem flipNow_keeps {ps : List Piece} {w : PendingFlip} {s₀ s : Sw} (hk₀ : partsIn parts65 ps = true) (h₀ : Sw.keeps ps s₀ s) :
    Sw.keeps ps s₀ (flipNow w s) := by
  unfold flipNow
  repeat'
    first
    | with_reducible first | assumption | intro _ | apply keeps_ite | apply flip_keeps | apply modFab_keeps | exact partsIn_trans (by decide) hk₀

theorem askFlip_keeps {ps : List Piece} {w : PendingFlip} {s₀ s : Sw} (hk₀ : partsIn parts65 ps = true) (h₀ : Sw.keeps ps s₀ s) :
    Sw.keeps ps s₀ (askFlip w s) := by
  unfold askFlip
  repeat'
    first
    | with_reducible first | assumption | intro _ | apply keeps_ite | apply flip_keeps | apply flipNow_keeps | apply modFab_keeps | exact partsIn_trans (by decide) hk₀

theorem epochFlipOp_keeps {ps : List Piece} {b : Sub} {t : Tok} {s₀ s : Sw} (hk₀ : partsIn parts65 ps = true) (h₀ : Sw.keeps ps s₀ s) :
    Sw.keeps ps s₀ (epochFlipOp b t s) := by
  unfold epochFlipOp
  repeat'
    first
    | with_reducible first | assumption | intro _ | apply keeps_ite | apply askFlip_keeps | apply completeE_keeps | apply guardDesc_keeps | exact partsIn_trans (by decide) hk₀
    | dsimp only
    | split

theorem flipTimerOp_keeps {ps : List Piece} {s₀ s : Sw} (hk₀ : partsIn parts65 ps = true) (h₀ : Sw.keeps ps s₀ s) :
    Sw.keeps ps s₀ (flipTimerOp s) := by
  unfold flipTimerOp
  repeat'
    first
    | with_reducible first | assumption | intro _ | apply keeps_ite | apply flipNow_keeps | apply modTime_keeps | exact partsIn_trans (by decide) hk₀
    | dsimp only
    | split

theorem announceTake_keeps {ps : List Piece} {p : Nat} {c : Cell} {s₀ s : Sw} (hk₀ : partsIn [.evqs, .msix, .outs] ps = true) (h₀ : Sw.keeps ps s₀ s) :
    Sw.keeps ps s₀ (announceTake p c s) := by
  unfold announceTake
  repeat'
    first
    | with_reducible first | assumption | intro _ | apply keeps_ite | apply raiseSys_keeps

theorem epochTake_keeps {ps : List Piece} {p : Nat} {c : Cell} {s₀ s : Sw} (hk₀ : partsIn parts65 ps = true) (h₀ : Sw.keeps ps s₀ s) :
    Sw.keeps ps s₀ (epochTake p c s) := by
  unfold epochTake
  repeat'
    first
    | with_reducible first | assumption | intro _ | apply keeps_ite | apply announceTake_keeps | apply askFlip_keeps | apply raiseSys_keeps | exact partsIn_trans (by decide) hk₀

theorem epochIn_keeps {ps : List Piece} {p : Nat} {c : Cell} {s₀ s : Sw} (hk₀ : partsIn parts67 ps = true) (h₀ : Sw.keeps ps s₀ s) :
    Sw.keeps ps s₀ (epochIn p c s) := by
  unfold epochIn
  repeat'
    first
    | with_reducible first | assumption | intro _ | apply keeps_ite | apply epochTake_keeps | apply ingress_keeps | exact partsIn_trans (by decide) hk₀
    | dsimp only
    | split

theorem drained_keeps {ps : List Piece} {v : Nat} {s₀ s : Sw} (hk₀ : partsIn parts41 ps = true) (h₀ : Sw.keeps ps s₀ s) :
    Sw.keeps ps s₀ (drained v s) := by
  unfold drained
  repeat'
    first
    | with_reducible first | assumption | intro _ | apply keeps_ite | apply modVer_keeps | apply announceAll_keeps | apply raiseSys_keeps | exact partsIn_trans (by decide) hk₀

theorem jobRouteOp_keeps {ps : List Piece} {b : Sub} {t : Tok} {s₀ s : Sw} (hk₀ : partsIn [.rings, .evqs, .msix, .fab, .outs] ps = true) (h₀ : Sw.keeps ps s₀ s) :
    Sw.keeps ps s₀ (jobRouteOp b t s) := by
  unfold jobRouteOp
  repeat'
    first
    | with_reducible first | assumption | intro _ | apply keeps_ite | apply complete_keeps | apply guardDesc_keeps | apply modFab_keeps | exact partsIn_trans (by decide) hk₀

theorem fabricConfigOp_keeps {ps : List Piece} {b : Sub} {t : Tok} {s₀ s : Sw} (hk₀ : partsIn [.rings, .evqs, .msix, .pool, .fab, .outs] ps = true) (h₀ : Sw.keeps ps s₀ s) :
    Sw.keeps ps s₀ (fabricConfigOp b t s) := by
  unfold fabricConfigOp
  repeat'
    first
    | with_reducible first | assumption | intro _ | apply keeps_ite | apply complete_keeps | apply guardDesc_keeps | apply poolWarnAll_keeps | apply modFab_keeps | exact partsIn_trans (by decide) hk₀

/-! ### Idle -/

theorem idleTick_keeps {ps : List Piece} {s₀ s : Sw} (hk₀ : partsIn [.time] ps = true) (h₀ : Sw.keeps ps s₀ s) :
    Sw.keeps ps s₀ (idleTick s) := by
  unfold idleTick
  repeat'
    first
    | with_reducible first | assumption | intro _ | apply keeps_ite | apply modTime_keeps

end Sys2Proof.Machine
end

