-- ==== Sys2Proof/Laws/Memory.lean ====
section
/-! SUPPORT. The image slots: every write keeps their canonical form, a byte written is read back, and every other byte reads as
before. -/
namespace Sys2Proof

variable {β : Type}

/-- Canonical form, as an order of pairs. -/
theorem SMap.wf_iff (m : SMap β) : SMap.wf m = true ↔ List.Pairwise (fun a b : Nat × β => a.1 < b.1) m := by
  induction m with
  | nil => simp [SMap.wf]
  | cons e m ih =>
    obtain ⟨j, w⟩ := e
    cases m with
    | nil => simp [SMap.wf]
    | cons d m =>
      obtain ⟨k, v⟩ := d
      simp only [SMap.wf, Bool.and_eq_true, decide_eq_true_eq, ih, List.pairwise_cons, List.mem_cons]
      constructor
      · rintro ⟨h, h1, h2⟩
        refine ⟨?_, h1, h2⟩
        rintro a (rfl | ha)
        · exact h
        · exact Nat.lt_trans h (h1 a ha)
      · rintro ⟨h, h1, h2⟩
        exact ⟨h (k, v) (.inl rfl), h1, h2⟩
theorem SMap.mem_set {k : Nat} {v : β} {m : SMap β} {a : Nat × β} (h : a ∈ SMap.set k v m) : a = (k, v) ∨ a ∈ m := by
  induction m with
  | nil => simpa [SMap.set] using h
  | cons e m ih =>
    obtain ⟨j, w⟩ := e
    simp only [SMap.set] at h
    split at h
    · simpa using h
    · split at h
      · rcases List.mem_cons.1 h with h | h
        · exact .inl h
        · exact .inr (List.mem_cons_of_mem _ h)
      · rcases List.mem_cons.1 h with h | h
        · exact .inr (by simp [h])
        · rcases ih h with h | h
          · exact .inl h
          · exact .inr (List.mem_cons_of_mem _ h)
/-- A write keeps the canonical form. -/
theorem SMap.wf_set (k : Nat) (v : β) {m : SMap β} (h : SMap.wf m = true) : SMap.wf (SMap.set k v m) = true := by
  rw [SMap.wf_iff] at h ⊢
  induction m with
  | nil => simp [SMap.set]
  | cons e m ih =>
    obtain ⟨j, w⟩ := e
    obtain ⟨h1, h2⟩ := List.pairwise_cons.1 h
    simp only [SMap.set]
    split
    · next hk =>
      refine List.pairwise_cons.2 ⟨?_, h⟩
      intro a ha
      rcases List.mem_cons.1 ha with rfl | ha
      · exact hk
      · exact Nat.lt_trans hk (h1 a ha)
    · split
      · next hk => subst hk; exact List.pairwise_cons.2 ⟨h1, h2⟩
      · next hk hne =>
        refine List.pairwise_cons.2 ⟨?_, ih h2⟩
        intro a ha
        rcases SMap.mem_set ha with rfl | ha
        · simp only; omega
        · exact h1 a ha
theorem SMap.wf_filter (p : Nat × β → Bool) {m : SMap β} (h : SMap.wf m = true) : SMap.wf (m.filter p) = true := by
  rw [SMap.wf_iff] at h ⊢; exact h.sublist List.filter_sublist
/-- A removal keeps the canonical form. -/
theorem SMap.wf_erase (k : Nat) {m : SMap β} (h : SMap.wf m = true) : SMap.wf (SMap.erase k m) = true := SMap.wf_filter _ h
namespace Machine

theorem putByte_wf (a : Nat) (b : Byte) {m : SMap Byte} (h : Memory.wf m = true) : Memory.wf (putByte a b m) = true := by
  simp only [Memory.wf, Bool.and_eq_true, List.all_eq_true] at h ⊢
  unfold putByte
  split
  · exact ⟨SMap.wf_erase a h.1, fun e he => h.2 e ((List.mem_filter.1 he).1)⟩
  · next hb =>
    refine ⟨SMap.wf_set a b h.1, fun e he => ?_⟩
    rcases SMap.mem_set he with rfl | he
    · simpa using hb
    · exact h.2 e he
/-- Writing bytes keeps the canonical form. -/
theorem putBytes_wf (l : List Byte) : ∀ (a : Nat) {m : SMap Byte}, Memory.wf m = true → Memory.wf (putBytes a l m) = true := by
  induction l with
  | nil => intro a m h; exact h
  | cons b l ih => intro a m h; exact ih (a + 1) (putByte_wf a b h)
/-- What a byte of erased memory reads as after one byte is written. -/
theorem putByte_read (a n : Nat) (b : Byte) (m : SMap Byte) :
    (putByte a b m).getD n 0xFF = if n = a then b else SMap.getD m n 0xFF := by
  unfold putByte SMap.getD
  split
  · next hb =>
    split
    · next hn => rw [hn, SMap.find?_erase_same, hb]; rfl
    · next hn => rw [SMap.find?_erase_ne hn]
  · split
    · next hn => rw [hn, SMap.find?_set_same]; rfl
    · next hn => rw [SMap.find?_set_ne hn]
/-- Read after write: the bytes written, and every other byte as before. -/
theorem putBytes_read (l : List Byte) : ∀ (a n : Nat) (m : SMap Byte),
    (putBytes a l m).getD n 0xFF = if a ≤ n ∧ n < a + l.length then l.getD (n - a) 0 else SMap.getD m n 0xFF := by
  induction l with
  | nil =>
    intro a n m
    rw [if_neg (by simp only [List.length_nil]; omega)]
    rfl
  | cons b l ih =>
    intro a n m
    simp only [putBytes, ih, putByte_read, List.length_cons]
    by_cases h1 : n = a
    · subst h1
      rw [if_neg (by omega), if_pos rfl, if_pos ⟨Nat.le_refl n, by omega⟩]
      simp
    · by_cases h2 : a + 1 ≤ n ∧ n < a + 1 + l.length
      · rw [if_pos h2, if_pos (by omega)]
        obtain ⟨d, hd⟩ : ∃ d, n - a = d + 1 := ⟨n - a - 1, by omega⟩
        have : n - (a + 1) = d := by omega
        rw [hd, this]; simp
      · rw [if_neg h2, if_neg h1, if_neg (by omega)]
theorem imgSlot_write_wf (a : Nat) (l : List Byte) {i : ImgSlot} (h : Memory.wf i.bytes = true) :
    Memory.wf (ImgSlot.write a l i).bytes = true := putBytes_wf l a h
theorem erasedSlot_wf : Memory.wf erasedSlot.bytes = true := rfl
@[simp] theorem verifySlot_bytes (f : Fuses) (i : ImgSlot) : (verifySlot f i).bytes = i.bytes := rfl
/-- A change of one slot that keeps its form keeps the form of both. -/
theorem modSlot_wf (b : Bool) (g : ImgSlot → ImgSlot) (s : Sw) (hg : ∀ i, Memory.wf i.bytes = true → Memory.wf (g i).bytes = true)
    (h : s.imagesWf = true) : (s.modSec (Sec.modSlot b g)).imagesWf = true := by
  simp only [Sw.imagesWf, Bool.and_eq_true] at h ⊢
  cases b
  · exact ⟨hg _ h.1, h.2⟩
  · exact ⟨h.1, hg _ h.2⟩
/-- Bytes written to the inactive slot keep the form of both. -/
theorem writeImage_wf (a : Nat) (l : List Byte) {s : Sw} (h : s.imagesWf = true) : (writeImage a l s).imagesWf = true :=
  modSlot_wf _ _ s (fun _ hi => putBytes_wf l a hi) h
theorem reset_imagesWf : State.reset.sw.imagesWf = true := by decide

end Machine
end Sys2Proof
end

