-- ==== Sys2Proof/Laws/State.lean ====
section
/-! SUPPORT. Each named update of the switch, field by field: what it changes and that it leaves every other field alone. -/
namespace Sys2Proof.Machine

variable (s : Sw)

/-! ### modGlb -/

@[simp] theorem Sw.modGlb_glb (f : Glb → Glb) : (s.modGlb f).glb = f s.glb := rfl
@[simp] theorem Sw.modGlb_pwr (f : Glb → Glb) : (s.modGlb f).pwr = s.pwr := rfl
@[simp] theorem Sw.modGlb_wear (f : Glb → Glb) : (s.modGlb f).wear = s.wear := rfl
@[simp] theorem Sw.modGlb_sec (f : Glb → Glb) : (s.modGlb f).sec = s.sec := rfl
@[simp] theorem Sw.modGlb_time (f : Glb → Glb) : (s.modGlb f).time = s.time := rfl
@[simp] theorem Sw.modGlb_sync (f : Glb → Glb) : (s.modGlb f).sync = s.sync := rfl
@[simp] theorem Sw.modGlb_host (f : Glb → Glb) : (s.modGlb f).host = s.host := rfl
@[simp] theorem Sw.modGlb_ports (f : Glb → Glb) : (s.modGlb f).ports = s.ports := rfl
@[simp] theorem Sw.modGlb_quads (f : Glb → Glb) : (s.modGlb f).quads = s.quads := rfl
@[simp] theorem Sw.modGlb_lanes (f : Glb → Glb) : (s.modGlb f).lanes = s.lanes := rfl
@[simp] theorem Sw.modGlb_engines (f : Glb → Glb) : (s.modGlb f).engines = s.engines := rfl
@[simp] theorem Sw.modGlb_sites (f : Glb → Glb) : (s.modGlb f).sites = s.sites := rfl
@[simp] theorem Sw.modGlb_tiles (f : Glb → Glb) : (s.modGlb f).tiles = s.tiles := rfl
@[simp] theorem Sw.modGlb_takeovers (f : Glb → Glb) : (s.modGlb f).takeovers = s.takeovers := rfl
@[simp] theorem Sw.modGlb_hbm (f : Glb → Glb) : (s.modGlb f).hbm = s.hbm := rfl
@[simp] theorem Sw.modGlb_cxl (f : Glb → Glb) : (s.modGlb f).cxl = s.cxl := rfl
@[simp] theorem Sw.modGlb_cxlHoldMs (f : Glb → Glb) : (s.modGlb f).cxlHoldMs = s.cxlHoldMs := rfl
@[simp] theorem Sw.modGlb_cxlGen (f : Glb → Glb) : (s.modGlb f).cxlGen = s.cxlGen := rfl
@[simp] theorem Sw.modGlb_pool (f : Glb → Glb) : (s.modGlb f).pool = s.pool := rfl
@[simp] theorem Sw.modGlb_groveC (f : Glb → Glb) : (s.modGlb f).groveC = s.groveC := rfl
@[simp] theorem Sw.modGlb_ctxs (f : Glb → Glb) : (s.modGlb f).ctxs = s.ctxs := rfl
@[simp] theorem Sw.modGlb_fab (f : Glb → Glb) : (s.modGlb f).fab = s.fab := rfl
@[simp] theorem Sw.modGlb_rcv (f : Glb → Glb) : (s.modGlb f).rcv = s.rcv := rfl
@[simp] theorem Sw.modGlb_kernels (f : Glb → Glb) : (s.modGlb f).kernels = s.kernels := rfl
@[simp] theorem Sw.modGlb_migQueues (f : Glb → Glb) : (s.modGlb f).migQueues = s.migQueues := rfl
@[simp] theorem Sw.modGlb_outs (f : Glb → Glb) : (s.modGlb f).outs = s.outs := rfl
@[simp] theorem Sw.modGlb_freeCtr (f : Glb → Glb) : (s.modGlb f).freeCtr = s.freeCtr := rfl

/-! ### modPwr -/

@[simp] theorem Sw.modPwr_glb (f : Pwr → Pwr) : (s.modPwr f).glb = s.glb := rfl
@[simp] theorem Sw.modPwr_pwr (f : Pwr → Pwr) : (s.modPwr f).pwr = f s.pwr := rfl
@[simp] theorem Sw.modPwr_wear (f : Pwr → Pwr) : (s.modPwr f).wear = s.wear := rfl
@[simp] theorem Sw.modPwr_sec (f : Pwr → Pwr) : (s.modPwr f).sec = s.sec := rfl
@[simp] theorem Sw.modPwr_time (f : Pwr → Pwr) : (s.modPwr f).time = s.time := rfl
@[simp] theorem Sw.modPwr_sync (f : Pwr → Pwr) : (s.modPwr f).sync = s.sync := rfl
@[simp] theorem Sw.modPwr_host (f : Pwr → Pwr) : (s.modPwr f).host = s.host := rfl
@[simp] theorem Sw.modPwr_ports (f : Pwr → Pwr) : (s.modPwr f).ports = s.ports := rfl
@[simp] theorem Sw.modPwr_quads (f : Pwr → Pwr) : (s.modPwr f).quads = s.quads := rfl
@[simp] theorem Sw.modPwr_lanes (f : Pwr → Pwr) : (s.modPwr f).lanes = s.lanes := rfl
@[simp] theorem Sw.modPwr_engines (f : Pwr → Pwr) : (s.modPwr f).engines = s.engines := rfl
@[simp] theorem Sw.modPwr_sites (f : Pwr → Pwr) : (s.modPwr f).sites = s.sites := rfl
@[simp] theorem Sw.modPwr_tiles (f : Pwr → Pwr) : (s.modPwr f).tiles = s.tiles := rfl
@[simp] theorem Sw.modPwr_takeovers (f : Pwr → Pwr) : (s.modPwr f).takeovers = s.takeovers := rfl
@[simp] theorem Sw.modPwr_hbm (f : Pwr → Pwr) : (s.modPwr f).hbm = s.hbm := rfl
@[simp] theorem Sw.modPwr_cxl (f : Pwr → Pwr) : (s.modPwr f).cxl = s.cxl := rfl
@[simp] theorem Sw.modPwr_cxlHoldMs (f : Pwr → Pwr) : (s.modPwr f).cxlHoldMs = s.cxlHoldMs := rfl
@[simp] theorem Sw.modPwr_cxlGen (f : Pwr → Pwr) : (s.modPwr f).cxlGen = s.cxlGen := rfl
@[simp] theorem Sw.modPwr_pool (f : Pwr → Pwr) : (s.modPwr f).pool = s.pool := rfl
@[simp] theorem Sw.modPwr_groveC (f : Pwr → Pwr) : (s.modPwr f).groveC = s.groveC := rfl
@[simp] theorem Sw.modPwr_ctxs (f : Pwr → Pwr) : (s.modPwr f).ctxs = s.ctxs := rfl
@[simp] theorem Sw.modPwr_fab (f : Pwr → Pwr) : (s.modPwr f).fab = s.fab := rfl
@[simp] theorem Sw.modPwr_rcv (f : Pwr → Pwr) : (s.modPwr f).rcv = s.rcv := rfl
@[simp] theorem Sw.modPwr_kernels (f : Pwr → Pwr) : (s.modPwr f).kernels = s.kernels := rfl
@[simp] theorem Sw.modPwr_migQueues (f : Pwr → Pwr) : (s.modPwr f).migQueues = s.migQueues := rfl
@[simp] theorem Sw.modPwr_outs (f : Pwr → Pwr) : (s.modPwr f).outs = s.outs := rfl
@[simp] theorem Sw.modPwr_freeCtr (f : Pwr → Pwr) : (s.modPwr f).freeCtr = s.freeCtr := rfl

/-! ### modSec -/

@[simp] theorem Sw.modSec_glb (f : Sec → Sec) : (s.modSec f).glb = s.glb := rfl
@[simp] theorem Sw.modSec_pwr (f : Sec → Sec) : (s.modSec f).pwr = s.pwr := rfl
@[simp] theorem Sw.modSec_wear (f : Sec → Sec) : (s.modSec f).wear = s.wear := rfl
@[simp] theorem Sw.modSec_sec (f : Sec → Sec) : (s.modSec f).sec = f s.sec := rfl
@[simp] theorem Sw.modSec_time (f : Sec → Sec) : (s.modSec f).time = s.time := rfl
@[simp] theorem Sw.modSec_sync (f : Sec → Sec) : (s.modSec f).sync = s.sync := rfl
@[simp] theorem Sw.modSec_host (f : Sec → Sec) : (s.modSec f).host = s.host := rfl
@[simp] theorem Sw.modSec_ports (f : Sec → Sec) : (s.modSec f).ports = s.ports := rfl
@[simp] theorem Sw.modSec_quads (f : Sec → Sec) : (s.modSec f).quads = s.quads := rfl
@[simp] theorem Sw.modSec_lanes (f : Sec → Sec) : (s.modSec f).lanes = s.lanes := rfl
@[simp] theorem Sw.modSec_engines (f : Sec → Sec) : (s.modSec f).engines = s.engines := rfl
@[simp] theorem Sw.modSec_sites (f : Sec → Sec) : (s.modSec f).sites = s.sites := rfl
@[simp] theorem Sw.modSec_tiles (f : Sec → Sec) : (s.modSec f).tiles = s.tiles := rfl
@[simp] theorem Sw.modSec_takeovers (f : Sec → Sec) : (s.modSec f).takeovers = s.takeovers := rfl
@[simp] theorem Sw.modSec_hbm (f : Sec → Sec) : (s.modSec f).hbm = s.hbm := rfl
@[simp] theorem Sw.modSec_cxl (f : Sec → Sec) : (s.modSec f).cxl = s.cxl := rfl
@[simp] theorem Sw.modSec_cxlHoldMs (f : Sec → Sec) : (s.modSec f).cxlHoldMs = s.cxlHoldMs := rfl
@[simp] theorem Sw.modSec_cxlGen (f : Sec → Sec) : (s.modSec f).cxlGen = s.cxlGen := rfl
@[simp] theorem Sw.modSec_pool (f : Sec → Sec) : (s.modSec f).pool = s.pool := rfl
@[simp] theorem Sw.modSec_groveC (f : Sec → Sec) : (s.modSec f).groveC = s.groveC := rfl
@[simp] theorem Sw.modSec_ctxs (f : Sec → Sec) : (s.modSec f).ctxs = s.ctxs := rfl
@[simp] theorem Sw.modSec_fab (f : Sec → Sec) : (s.modSec f).fab = s.fab := rfl
@[simp] theorem Sw.modSec_rcv (f : Sec → Sec) : (s.modSec f).rcv = s.rcv := rfl
@[simp] theorem Sw.modSec_kernels (f : Sec → Sec) : (s.modSec f).kernels = s.kernels := rfl
@[simp] theorem Sw.modSec_migQueues (f : Sec → Sec) : (s.modSec f).migQueues = s.migQueues := rfl
@[simp] theorem Sw.modSec_outs (f : Sec → Sec) : (s.modSec f).outs = s.outs := rfl
@[simp] theorem Sw.modSec_freeCtr (f : Sec → Sec) : (s.modSec f).freeCtr = s.freeCtr := rfl

/-! ### modTime -/

@[simp] theorem Sw.modTime_glb (f : Time → Time) : (s.modTime f).glb = s.glb := rfl
@[simp] theorem Sw.modTime_pwr (f : Time → Time) : (s.modTime f).pwr = s.pwr := rfl
@[simp] theorem Sw.modTime_wear (f : Time → Time) : (s.modTime f).wear = s.wear := rfl
@[simp] theorem Sw.modTime_sec (f : Time → Time) : (s.modTime f).sec = s.sec := rfl
@[simp] theorem Sw.modTime_time (f : Time → Time) : (s.modTime f).time = f s.time := rfl
@[simp] theorem Sw.modTime_sync (f : Time → Time) : (s.modTime f).sync = s.sync := rfl
@[simp] theorem Sw.modTime_host (f : Time → Time) : (s.modTime f).host = s.host := rfl
@[simp] theorem Sw.modTime_ports (f : Time → Time) : (s.modTime f).ports = s.ports := rfl
@[simp] theorem Sw.modTime_quads (f : Time → Time) : (s.modTime f).quads = s.quads := rfl
@[simp] theorem Sw.modTime_lanes (f : Time → Time) : (s.modTime f).lanes = s.lanes := rfl
@[simp] theorem Sw.modTime_engines (f : Time → Time) : (s.modTime f).engines = s.engines := rfl
@[simp] theorem Sw.modTime_sites (f : Time → Time) : (s.modTime f).sites = s.sites := rfl
@[simp] theorem Sw.modTime_tiles (f : Time → Time) : (s.modTime f).tiles = s.tiles := rfl
@[simp] theorem Sw.modTime_takeovers (f : Time → Time) : (s.modTime f).takeovers = s.takeovers := rfl
@[simp] theorem Sw.modTime_hbm (f : Time → Time) : (s.modTime f).hbm = s.hbm := rfl
@[simp] theorem Sw.modTime_cxl (f : Time → Time) : (s.modTime f).cxl = s.cxl := rfl
@[simp] theorem Sw.modTime_cxlHoldMs (f : Time → Time) : (s.modTime f).cxlHoldMs = s.cxlHoldMs := rfl
@[simp] theorem Sw.modTime_cxlGen (f : Time → Time) : (s.modTime f).cxlGen = s.cxlGen := rfl
@[simp] theorem Sw.modTime_pool (f : Time → Time) : (s.modTime f).pool = s.pool := rfl
@[simp] theorem Sw.modTime_groveC (f : Time → Time) : (s.modTime f).groveC = s.groveC := rfl
@[simp] theorem Sw.modTime_ctxs (f : Time → Time) : (s.modTime f).ctxs = s.ctxs := rfl
@[simp] theorem Sw.modTime_fab (f : Time → Time) : (s.modTime f).fab = s.fab := rfl
@[simp] theorem Sw.modTime_rcv (f : Time → Time) : (s.modTime f).rcv = s.rcv := rfl
@[simp] theorem Sw.modTime_kernels (f : Time → Time) : (s.modTime f).kernels = s.kernels := rfl
@[simp] theorem Sw.modTime_migQueues (f : Time → Time) : (s.modTime f).migQueues = s.migQueues := rfl
@[simp] theorem Sw.modTime_outs (f : Time → Time) : (s.modTime f).outs = s.outs := rfl
@[simp] theorem Sw.modTime_freeCtr (f : Time → Time) : (s.modTime f).freeCtr = s.freeCtr := rfl

/-! ### modSync -/

@[simp] theorem Sw.modSync_glb (f : Sync → Sync) : (s.modSync f).glb = s.glb := rfl
@[simp] theorem Sw.modSync_pwr (f : Sync → Sync) : (s.modSync f).pwr = s.pwr := rfl
@[simp] theorem Sw.modSync_wear (f : Sync → Sync) : (s.modSync f).wear = s.wear := rfl
@[simp] theorem Sw.modSync_sec (f : Sync → Sync) : (s.modSync f).sec = s.sec := rfl
@[simp] theorem Sw.modSync_time (f : Sync → Sync) : (s.modSync f).time = s.time := rfl
@[simp] theorem Sw.modSync_sync (f : Sync → Sync) : (s.modSync f).sync = f s.sync := rfl
@[simp] theorem Sw.modSync_host (f : Sync → Sync) : (s.modSync f).host = s.host := rfl
@[simp] theorem Sw.modSync_ports (f : Sync → Sync) : (s.modSync f).ports = s.ports := rfl
@[simp] theorem Sw.modSync_quads (f : Sync → Sync) : (s.modSync f).quads = s.quads := rfl
@[simp] theorem Sw.modSync_lanes (f : Sync → Sync) : (s.modSync f).lanes = s.lanes := rfl
@[simp] theorem Sw.modSync_engines (f : Sync → Sync) : (s.modSync f).engines = s.engines := rfl
@[simp] theorem Sw.modSync_sites (f : Sync → Sync) : (s.modSync f).sites = s.sites := rfl
@[simp] theorem Sw.modSync_tiles (f : Sync → Sync) : (s.modSync f).tiles = s.tiles := rfl
@[simp] theorem Sw.modSync_takeovers (f : Sync → Sync) : (s.modSync f).takeovers = s.takeovers := rfl
@[simp] theorem Sw.modSync_hbm (f : Sync → Sync) : (s.modSync f).hbm = s.hbm := rfl
@[simp] theorem Sw.modSync_cxl (f : Sync → Sync) : (s.modSync f).cxl = s.cxl := rfl
@[simp] theorem Sw.modSync_cxlHoldMs (f : Sync → Sync) : (s.modSync f).cxlHoldMs = s.cxlHoldMs := rfl
@[simp] theorem Sw.modSync_cxlGen (f : Sync → Sync) : (s.modSync f).cxlGen = s.cxlGen := rfl
@[simp] theorem Sw.modSync_pool (f : Sync → Sync) : (s.modSync f).pool = s.pool := rfl
@[simp] theorem Sw.modSync_groveC (f : Sync → Sync) : (s.modSync f).groveC = s.groveC := rfl
@[simp] theorem Sw.modSync_ctxs (f : Sync → Sync) : (s.modSync f).ctxs = s.ctxs := rfl
@[simp] theorem Sw.modSync_fab (f : Sync → Sync) : (s.modSync f).fab = s.fab := rfl
@[simp] theorem Sw.modSync_rcv (f : Sync → Sync) : (s.modSync f).rcv = s.rcv := rfl
@[simp] theorem Sw.modSync_kernels (f : Sync → Sync) : (s.modSync f).kernels = s.kernels := rfl
@[simp] theorem Sw.modSync_migQueues (f : Sync → Sync) : (s.modSync f).migQueues = s.migQueues := rfl
@[simp] theorem Sw.modSync_outs (f : Sync → Sync) : (s.modSync f).outs = s.outs := rfl
@[simp] theorem Sw.modSync_freeCtr (f : Sync → Sync) : (s.modSync f).freeCtr = s.freeCtr := rfl

/-! ### modFab -/

@[simp] theorem Sw.modFab_glb (f : Fabric → Fabric) : (s.modFab f).glb = s.glb := rfl
@[simp] theorem Sw.modFab_pwr (f : Fabric → Fabric) : (s.modFab f).pwr = s.pwr := rfl
@[simp] theorem Sw.modFab_wear (f : Fabric → Fabric) : (s.modFab f).wear = s.wear := rfl
@[simp] theorem Sw.modFab_sec (f : Fabric → Fabric) : (s.modFab f).sec = s.sec := rfl
@[simp] theorem Sw.modFab_time (f : Fabric → Fabric) : (s.modFab f).time = s.time := rfl
@[simp] theorem Sw.modFab_sync (f : Fabric → Fabric) : (s.modFab f).sync = s.sync := rfl
@[simp] theorem Sw.modFab_host (f : Fabric → Fabric) : (s.modFab f).host = s.host := rfl
@[simp] theorem Sw.modFab_ports (f : Fabric → Fabric) : (s.modFab f).ports = s.ports := rfl
@[simp] theorem Sw.modFab_quads (f : Fabric → Fabric) : (s.modFab f).quads = s.quads := rfl
@[simp] theorem Sw.modFab_lanes (f : Fabric → Fabric) : (s.modFab f).lanes = s.lanes := rfl
@[simp] theorem Sw.modFab_engines (f : Fabric → Fabric) : (s.modFab f).engines = s.engines := rfl
@[simp] theorem Sw.modFab_sites (f : Fabric → Fabric) : (s.modFab f).sites = s.sites := rfl
@[simp] theorem Sw.modFab_tiles (f : Fabric → Fabric) : (s.modFab f).tiles = s.tiles := rfl
@[simp] theorem Sw.modFab_takeovers (f : Fabric → Fabric) : (s.modFab f).takeovers = s.takeovers := rfl
@[simp] theorem Sw.modFab_hbm (f : Fabric → Fabric) : (s.modFab f).hbm = s.hbm := rfl
@[simp] theorem Sw.modFab_cxl (f : Fabric → Fabric) : (s.modFab f).cxl = s.cxl := rfl
@[simp] theorem Sw.modFab_cxlHoldMs (f : Fabric → Fabric) : (s.modFab f).cxlHoldMs = s.cxlHoldMs := rfl
@[simp] theorem Sw.modFab_cxlGen (f : Fabric → Fabric) : (s.modFab f).cxlGen = s.cxlGen := rfl
@[simp] theorem Sw.modFab_pool (f : Fabric → Fabric) : (s.modFab f).pool = s.pool := rfl
@[simp] theorem Sw.modFab_groveC (f : Fabric → Fabric) : (s.modFab f).groveC = s.groveC := rfl
@[simp] theorem Sw.modFab_ctxs (f : Fabric → Fabric) : (s.modFab f).ctxs = s.ctxs := rfl
@[simp] theorem Sw.modFab_fab (f : Fabric → Fabric) : (s.modFab f).fab = f s.fab := rfl
@[simp] theorem Sw.modFab_rcv (f : Fabric → Fabric) : (s.modFab f).rcv = s.rcv := rfl
@[simp] theorem Sw.modFab_kernels (f : Fabric → Fabric) : (s.modFab f).kernels = s.kernels := rfl
@[simp] theorem Sw.modFab_migQueues (f : Fabric → Fabric) : (s.modFab f).migQueues = s.migQueues := rfl
@[simp] theorem Sw.modFab_outs (f : Fabric → Fabric) : (s.modFab f).outs = s.outs := rfl
@[simp] theorem Sw.modFab_freeCtr (f : Fabric → Fabric) : (s.modFab f).freeCtr = s.freeCtr := rfl

/-! ### modRec -/

@[simp] theorem Sw.modRec_glb (f : Rec → Rec) : (s.modRec f).glb = s.glb := rfl
@[simp] theorem Sw.modRec_pwr (f : Rec → Rec) : (s.modRec f).pwr = s.pwr := rfl
@[simp] theorem Sw.modRec_wear (f : Rec → Rec) : (s.modRec f).wear = s.wear := rfl
@[simp] theorem Sw.modRec_sec (f : Rec → Rec) : (s.modRec f).sec = s.sec := rfl
@[simp] theorem Sw.modRec_time (f : Rec → Rec) : (s.modRec f).time = s.time := rfl
@[simp] theorem Sw.modRec_sync (f : Rec → Rec) : (s.modRec f).sync = s.sync := rfl
@[simp] theorem Sw.modRec_host (f : Rec → Rec) : (s.modRec f).host = s.host := rfl
@[simp] theorem Sw.modRec_ports (f : Rec → Rec) : (s.modRec f).ports = s.ports := rfl
@[simp] theorem Sw.modRec_quads (f : Rec → Rec) : (s.modRec f).quads = s.quads := rfl
@[simp] theorem Sw.modRec_lanes (f : Rec → Rec) : (s.modRec f).lanes = s.lanes := rfl
@[simp] theorem Sw.modRec_engines (f : Rec → Rec) : (s.modRec f).engines = s.engines := rfl
@[simp] theorem Sw.modRec_sites (f : Rec → Rec) : (s.modRec f).sites = s.sites := rfl
@[simp] theorem Sw.modRec_tiles (f : Rec → Rec) : (s.modRec f).tiles = s.tiles := rfl
@[simp] theorem Sw.modRec_takeovers (f : Rec → Rec) : (s.modRec f).takeovers = s.takeovers := rfl
@[simp] theorem Sw.modRec_hbm (f : Rec → Rec) : (s.modRec f).hbm = s.hbm := rfl
@[simp] theorem Sw.modRec_cxl (f : Rec → Rec) : (s.modRec f).cxl = s.cxl := rfl
@[simp] theorem Sw.modRec_cxlHoldMs (f : Rec → Rec) : (s.modRec f).cxlHoldMs = s.cxlHoldMs := rfl
@[simp] theorem Sw.modRec_cxlGen (f : Rec → Rec) : (s.modRec f).cxlGen = s.cxlGen := rfl
@[simp] theorem Sw.modRec_pool (f : Rec → Rec) : (s.modRec f).pool = s.pool := rfl
@[simp] theorem Sw.modRec_groveC (f : Rec → Rec) : (s.modRec f).groveC = s.groveC := rfl
@[simp] theorem Sw.modRec_ctxs (f : Rec → Rec) : (s.modRec f).ctxs = s.ctxs := rfl
@[simp] theorem Sw.modRec_fab (f : Rec → Rec) : (s.modRec f).fab = s.fab := rfl
@[simp] theorem Sw.modRec_rcv (f : Rec → Rec) : (s.modRec f).rcv = f s.rcv := rfl
@[simp] theorem Sw.modRec_kernels (f : Rec → Rec) : (s.modRec f).kernels = s.kernels := rfl
@[simp] theorem Sw.modRec_migQueues (f : Rec → Rec) : (s.modRec f).migQueues = s.migQueues := rfl
@[simp] theorem Sw.modRec_outs (f : Rec → Rec) : (s.modRec f).outs = s.outs := rfl
@[simp] theorem Sw.modRec_freeCtr (f : Rec → Rec) : (s.modRec f).freeCtr = s.freeCtr := rfl

/-! ### modPool -/

@[simp] theorem Sw.modPool_glb (f : Pool → Pool) : (s.modPool f).glb = s.glb := rfl
@[simp] theorem Sw.modPool_pwr (f : Pool → Pool) : (s.modPool f).pwr = s.pwr := rfl
@[simp] theorem Sw.modPool_wear (f : Pool → Pool) : (s.modPool f).wear = s.wear := rfl
@[simp] theorem Sw.modPool_sec (f : Pool → Pool) : (s.modPool f).sec = s.sec := rfl
@[simp] theorem Sw.modPool_time (f : Pool → Pool) : (s.modPool f).time = s.time := rfl
@[simp] theorem Sw.modPool_sync (f : Pool → Pool) : (s.modPool f).sync = s.sync := rfl
@[simp] theorem Sw.modPool_host (f : Pool → Pool) : (s.modPool f).host = s.host := rfl
@[simp] theorem Sw.modPool_ports (f : Pool → Pool) : (s.modPool f).ports = s.ports := rfl
@[simp] theorem Sw.modPool_quads (f : Pool → Pool) : (s.modPool f).quads = s.quads := rfl
@[simp] theorem Sw.modPool_lanes (f : Pool → Pool) : (s.modPool f).lanes = s.lanes := rfl
@[simp] theorem Sw.modPool_engines (f : Pool → Pool) : (s.modPool f).engines = s.engines := rfl
@[simp] theorem Sw.modPool_sites (f : Pool → Pool) : (s.modPool f).sites = s.sites := rfl
@[simp] theorem Sw.modPool_tiles (f : Pool → Pool) : (s.modPool f).tiles = s.tiles := rfl
@[simp] theorem Sw.modPool_takeovers (f : Pool → Pool) : (s.modPool f).takeovers = s.takeovers := rfl
@[simp] theorem Sw.modPool_hbm (f : Pool → Pool) : (s.modPool f).hbm = s.hbm := rfl
@[simp] theorem Sw.modPool_cxl (f : Pool → Pool) : (s.modPool f).cxl = s.cxl := rfl
@[simp] theorem Sw.modPool_cxlHoldMs (f : Pool → Pool) : (s.modPool f).cxlHoldMs = s.cxlHoldMs := rfl
@[simp] theorem Sw.modPool_cxlGen (f : Pool → Pool) : (s.modPool f).cxlGen = s.cxlGen := rfl
@[simp] theorem Sw.modPool_pool (f : Pool → Pool) : (s.modPool f).pool = f s.pool := rfl
@[simp] theorem Sw.modPool_groveC (f : Pool → Pool) : (s.modPool f).groveC = s.groveC := rfl
@[simp] theorem Sw.modPool_ctxs (f : Pool → Pool) : (s.modPool f).ctxs = s.ctxs := rfl
@[simp] theorem Sw.modPool_fab (f : Pool → Pool) : (s.modPool f).fab = s.fab := rfl
@[simp] theorem Sw.modPool_rcv (f : Pool → Pool) : (s.modPool f).rcv = s.rcv := rfl
@[simp] theorem Sw.modPool_kernels (f : Pool → Pool) : (s.modPool f).kernels = s.kernels := rfl
@[simp] theorem Sw.modPool_migQueues (f : Pool → Pool) : (s.modPool f).migQueues = s.migQueues := rfl
@[simp] theorem Sw.modPool_outs (f : Pool → Pool) : (s.modPool f).outs = s.outs := rfl
@[simp] theorem Sw.modPool_freeCtr (f : Pool → Pool) : (s.modPool f).freeCtr = s.freeCtr := rfl

/-! ### modWear -/

@[simp] theorem Sw.modWear_glb (f : WearBlk → WearBlk) : (s.modWear f).glb = s.glb := rfl
@[simp] theorem Sw.modWear_pwr (f : WearBlk → WearBlk) : (s.modWear f).pwr = s.pwr := rfl
@[simp] theorem Sw.modWear_wear (f : WearBlk → WearBlk) : (s.modWear f).wear = f s.wear := rfl
@[simp] theorem Sw.modWear_sec (f : WearBlk → WearBlk) : (s.modWear f).sec = s.sec := rfl
@[simp] theorem Sw.modWear_time (f : WearBlk → WearBlk) : (s.modWear f).time = s.time := rfl
@[simp] theorem Sw.modWear_sync (f : WearBlk → WearBlk) : (s.modWear f).sync = s.sync := rfl
@[simp] theorem Sw.modWear_host (f : WearBlk → WearBlk) : (s.modWear f).host = s.host := rfl
@[simp] theorem Sw.modWear_ports (f : WearBlk → WearBlk) : (s.modWear f).ports = s.ports := rfl
@[simp] theorem Sw.modWear_quads (f : WearBlk → WearBlk) : (s.modWear f).quads = s.quads := rfl
@[simp] theorem Sw.modWear_lanes (f : WearBlk → WearBlk) : (s.modWear f).lanes = s.lanes := rfl
@[simp] theorem Sw.modWear_engines (f : WearBlk → WearBlk) : (s.modWear f).engines = s.engines := rfl
@[simp] theorem Sw.modWear_sites (f : WearBlk → WearBlk) : (s.modWear f).sites = s.sites := rfl
@[simp] theorem Sw.modWear_tiles (f : WearBlk → WearBlk) : (s.modWear f).tiles = s.tiles := rfl
@[simp] theorem Sw.modWear_takeovers (f : WearBlk → WearBlk) : (s.modWear f).takeovers = s.takeovers := rfl
@[simp] theorem Sw.modWear_hbm (f : WearBlk → WearBlk) : (s.modWear f).hbm = s.hbm := rfl
@[simp] theorem Sw.modWear_cxl (f : WearBlk → WearBlk) : (s.modWear f).cxl = s.cxl := rfl
@[simp] theorem Sw.modWear_cxlHoldMs (f : WearBlk → WearBlk) : (s.modWear f).cxlHoldMs = s.cxlHoldMs := rfl
@[simp] theorem Sw.modWear_cxlGen (f : WearBlk → WearBlk) : (s.modWear f).cxlGen = s.cxlGen := rfl
@[simp] theorem Sw.modWear_pool (f : WearBlk → WearBlk) : (s.modWear f).pool = s.pool := rfl
@[simp] theorem Sw.modWear_groveC (f : WearBlk → WearBlk) : (s.modWear f).groveC = s.groveC := rfl
@[simp] theorem Sw.modWear_ctxs (f : WearBlk → WearBlk) : (s.modWear f).ctxs = s.ctxs := rfl
@[simp] theorem Sw.modWear_fab (f : WearBlk → WearBlk) : (s.modWear f).fab = s.fab := rfl
@[simp] theorem Sw.modWear_rcv (f : WearBlk → WearBlk) : (s.modWear f).rcv = s.rcv := rfl
@[simp] theorem Sw.modWear_kernels (f : WearBlk → WearBlk) : (s.modWear f).kernels = s.kernels := rfl
@[simp] theorem Sw.modWear_migQueues (f : WearBlk → WearBlk) : (s.modWear f).migQueues = s.migQueues := rfl
@[simp] theorem Sw.modWear_outs (f : WearBlk → WearBlk) : (s.modWear f).outs = s.outs := rfl
@[simp] theorem Sw.modWear_freeCtr (f : WearBlk → WearBlk) : (s.modWear f).freeCtr = s.freeCtr := rfl

/-! ### modHost -/

@[simp] theorem Sw.modHost_glb (f : HostIf → HostIf) : (s.modHost f).glb = s.glb := rfl
@[simp] theorem Sw.modHost_pwr (f : HostIf → HostIf) : (s.modHost f).pwr = s.pwr := rfl
@[simp] theorem Sw.modHost_wear (f : HostIf → HostIf) : (s.modHost f).wear = s.wear := rfl
@[simp] theorem Sw.modHost_sec (f : HostIf → HostIf) : (s.modHost f).sec = s.sec := rfl
@[simp] theorem Sw.modHost_time (f : HostIf → HostIf) : (s.modHost f).time = s.time := rfl
@[simp] theorem Sw.modHost_sync (f : HostIf → HostIf) : (s.modHost f).sync = s.sync := rfl
@[simp] theorem Sw.modHost_host (f : HostIf → HostIf) : (s.modHost f).host = f s.host := rfl
@[simp] theorem Sw.modHost_ports (f : HostIf → HostIf) : (s.modHost f).ports = s.ports := rfl
@[simp] theorem Sw.modHost_quads (f : HostIf → HostIf) : (s.modHost f).quads = s.quads := rfl
@[simp] theorem Sw.modHost_lanes (f : HostIf → HostIf) : (s.modHost f).lanes = s.lanes := rfl
@[simp] theorem Sw.modHost_engines (f : HostIf → HostIf) : (s.modHost f).engines = s.engines := rfl
@[simp] theorem Sw.modHost_sites (f : HostIf → HostIf) : (s.modHost f).sites = s.sites := rfl
@[simp] theorem Sw.modHost_tiles (f : HostIf → HostIf) : (s.modHost f).tiles = s.tiles := rfl
@[simp] theorem Sw.modHost_takeovers (f : HostIf → HostIf) : (s.modHost f).takeovers = s.takeovers := rfl
@[simp] theorem Sw.modHost_hbm (f : HostIf → HostIf) : (s.modHost f).hbm = s.hbm := rfl
@[simp] theorem Sw.modHost_cxl (f : HostIf → HostIf) : (s.modHost f).cxl = s.cxl := rfl
@[simp] theorem Sw.modHost_cxlHoldMs (f : HostIf → HostIf) : (s.modHost f).cxlHoldMs = s.cxlHoldMs := rfl
@[simp] theorem Sw.modHost_cxlGen (f : HostIf → HostIf) : (s.modHost f).cxlGen = s.cxlGen := rfl
@[simp] theorem Sw.modHost_pool (f : HostIf → HostIf) : (s.modHost f).pool = s.pool := rfl
@[simp] theorem Sw.modHost_groveC (f : HostIf → HostIf) : (s.modHost f).groveC = s.groveC := rfl
@[simp] theorem Sw.modHost_ctxs (f : HostIf → HostIf) : (s.modHost f).ctxs = s.ctxs := rfl
@[simp] theorem Sw.modHost_fab (f : HostIf → HostIf) : (s.modHost f).fab = s.fab := rfl
@[simp] theorem Sw.modHost_rcv (f : HostIf → HostIf) : (s.modHost f).rcv = s.rcv := rfl
@[simp] theorem Sw.modHost_kernels (f : HostIf → HostIf) : (s.modHost f).kernels = s.kernels := rfl
@[simp] theorem Sw.modHost_migQueues (f : HostIf → HostIf) : (s.modHost f).migQueues = s.migQueues := rfl
@[simp] theorem Sw.modHost_outs (f : HostIf → HostIf) : (s.modHost f).outs = s.outs := rfl
@[simp] theorem Sw.modHost_freeCtr (f : HostIf → HostIf) : (s.modHost f).freeCtr = s.freeCtr := rfl

/-! ### modCtxs -/

@[simp] theorem Sw.modCtxs_glb (f : SMap Ctx → SMap Ctx) : (s.modCtxs f).glb = s.glb := rfl
@[simp] theorem Sw.modCtxs_pwr (f : SMap Ctx → SMap Ctx) : (s.modCtxs f).pwr = s.pwr := rfl
@[simp] theorem Sw.modCtxs_wear (f : SMap Ctx → SMap Ctx) : (s.modCtxs f).wear = s.wear := rfl
@[simp] theorem Sw.modCtxs_sec (f : SMap Ctx → SMap Ctx) : (s.modCtxs f).sec = s.sec := rfl
@[simp] theorem Sw.modCtxs_time (f : SMap Ctx → SMap Ctx) : (s.modCtxs f).time = s.time := rfl
@[simp] theorem Sw.modCtxs_sync (f : SMap Ctx → SMap Ctx) : (s.modCtxs f).sync = s.sync := rfl
@[simp] theorem Sw.modCtxs_host (f : SMap Ctx → SMap Ctx) : (s.modCtxs f).host = s.host := rfl
@[simp] theorem Sw.modCtxs_ports (f : SMap Ctx → SMap Ctx) : (s.modCtxs f).ports = s.ports := rfl
@[simp] theorem Sw.modCtxs_quads (f : SMap Ctx → SMap Ctx) : (s.modCtxs f).quads = s.quads := rfl
@[simp] theorem Sw.modCtxs_lanes (f : SMap Ctx → SMap Ctx) : (s.modCtxs f).lanes = s.lanes := rfl
@[simp] theorem Sw.modCtxs_engines (f : SMap Ctx → SMap Ctx) : (s.modCtxs f).engines = s.engines := rfl
@[simp] theorem Sw.modCtxs_sites (f : SMap Ctx → SMap Ctx) : (s.modCtxs f).sites = s.sites := rfl
@[simp] theorem Sw.modCtxs_tiles (f : SMap Ctx → SMap Ctx) : (s.modCtxs f).tiles = s.tiles := rfl
@[simp] theorem Sw.modCtxs_takeovers (f : SMap Ctx → SMap Ctx) : (s.modCtxs f).takeovers = s.takeovers := rfl
@[simp] theorem Sw.modCtxs_hbm (f : SMap Ctx → SMap Ctx) : (s.modCtxs f).hbm = s.hbm := rfl
@[simp] theorem Sw.modCtxs_cxl (f : SMap Ctx → SMap Ctx) : (s.modCtxs f).cxl = s.cxl := rfl
@[simp] theorem Sw.modCtxs_cxlHoldMs (f : SMap Ctx → SMap Ctx) : (s.modCtxs f).cxlHoldMs = s.cxlHoldMs := rfl
@[simp] theorem Sw.modCtxs_cxlGen (f : SMap Ctx → SMap Ctx) : (s.modCtxs f).cxlGen = s.cxlGen := rfl
@[simp] theorem Sw.modCtxs_pool (f : SMap Ctx → SMap Ctx) : (s.modCtxs f).pool = s.pool := rfl
@[simp] theorem Sw.modCtxs_groveC (f : SMap Ctx → SMap Ctx) : (s.modCtxs f).groveC = s.groveC := rfl
@[simp] theorem Sw.modCtxs_ctxs (f : SMap Ctx → SMap Ctx) : (s.modCtxs f).ctxs = f s.ctxs := rfl
@[simp] theorem Sw.modCtxs_fab (f : SMap Ctx → SMap Ctx) : (s.modCtxs f).fab = s.fab := rfl
@[simp] theorem Sw.modCtxs_rcv (f : SMap Ctx → SMap Ctx) : (s.modCtxs f).rcv = s.rcv := rfl
@[simp] theorem Sw.modCtxs_kernels (f : SMap Ctx → SMap Ctx) : (s.modCtxs f).kernels = s.kernels := rfl
@[simp] theorem Sw.modCtxs_migQueues (f : SMap Ctx → SMap Ctx) : (s.modCtxs f).migQueues = s.migQueues := rfl
@[simp] theorem Sw.modCtxs_outs (f : SMap Ctx → SMap Ctx) : (s.modCtxs f).outs = s.outs := rfl
@[simp] theorem Sw.modCtxs_freeCtr (f : SMap Ctx → SMap Ctx) : (s.modCtxs f).freeCtr = s.freeCtr := rfl

/-! ### modTakeovers -/

@[simp] theorem Sw.modTakeovers_glb (f : SMap Nat → SMap Nat) : (s.modTakeovers f).glb = s.glb := rfl
@[simp] theorem Sw.modTakeovers_pwr (f : SMap Nat → SMap Nat) : (s.modTakeovers f).pwr = s.pwr := rfl
@[simp] theorem Sw.modTakeovers_wear (f : SMap Nat → SMap Nat) : (s.modTakeovers f).wear = s.wear := rfl
@[simp] theorem Sw.modTakeovers_sec (f : SMap Nat → SMap Nat) : (s.modTakeovers f).sec = s.sec := rfl
@[simp] theorem Sw.modTakeovers_time (f : SMap Nat → SMap Nat) : (s.modTakeovers f).time = s.time := rfl
@[simp] theorem Sw.modTakeovers_sync (f : SMap Nat → SMap Nat) : (s.modTakeovers f).sync = s.sync := rfl
@[simp] theorem Sw.modTakeovers_host (f : SMap Nat → SMap Nat) : (s.modTakeovers f).host = s.host := rfl
@[simp] theorem Sw.modTakeovers_ports (f : SMap Nat → SMap Nat) : (s.modTakeovers f).ports = s.ports := rfl
@[simp] theorem Sw.modTakeovers_quads (f : SMap Nat → SMap Nat) : (s.modTakeovers f).quads = s.quads := rfl
@[simp] theorem Sw.modTakeovers_lanes (f : SMap Nat → SMap Nat) : (s.modTakeovers f).lanes = s.lanes := rfl
@[simp] theorem Sw.modTakeovers_engines (f : SMap Nat → SMap Nat) : (s.modTakeovers f).engines = s.engines := rfl
@[simp] theorem Sw.modTakeovers_sites (f : SMap Nat → SMap Nat) : (s.modTakeovers f).sites = s.sites := rfl
@[simp] theorem Sw.modTakeovers_tiles (f : SMap Nat → SMap Nat) : (s.modTakeovers f).tiles = s.tiles := rfl
@[simp] theorem Sw.modTakeovers_takeovers (f : SMap Nat → SMap Nat) : (s.modTakeovers f).takeovers = f s.takeovers := rfl
@[simp] theorem Sw.modTakeovers_hbm (f : SMap Nat → SMap Nat) : (s.modTakeovers f).hbm = s.hbm := rfl
@[simp] theorem Sw.modTakeovers_cxl (f : SMap Nat → SMap Nat) : (s.modTakeovers f).cxl = s.cxl := rfl
@[simp] theorem Sw.modTakeovers_cxlHoldMs (f : SMap Nat → SMap Nat) : (s.modTakeovers f).cxlHoldMs = s.cxlHoldMs := rfl
@[simp] theorem Sw.modTakeovers_cxlGen (f : SMap Nat → SMap Nat) : (s.modTakeovers f).cxlGen = s.cxlGen := rfl
@[simp] theorem Sw.modTakeovers_pool (f : SMap Nat → SMap Nat) : (s.modTakeovers f).pool = s.pool := rfl
@[simp] theorem Sw.modTakeovers_groveC (f : SMap Nat → SMap Nat) : (s.modTakeovers f).groveC = s.groveC := rfl
@[simp] theorem Sw.modTakeovers_ctxs (f : SMap Nat → SMap Nat) : (s.modTakeovers f).ctxs = s.ctxs := rfl
@[simp] theorem Sw.modTakeovers_fab (f : SMap Nat → SMap Nat) : (s.modTakeovers f).fab = s.fab := rfl
@[simp] theorem Sw.modTakeovers_rcv (f : SMap Nat → SMap Nat) : (s.modTakeovers f).rcv = s.rcv := rfl
@[simp] theorem Sw.modTakeovers_kernels (f : SMap Nat → SMap Nat) : (s.modTakeovers f).kernels = s.kernels := rfl
@[simp] theorem Sw.modTakeovers_migQueues (f : SMap Nat → SMap Nat) : (s.modTakeovers f).migQueues = s.migQueues := rfl
@[simp] theorem Sw.modTakeovers_outs (f : SMap Nat → SMap Nat) : (s.modTakeovers f).outs = s.outs := rfl
@[simp] theorem Sw.modTakeovers_freeCtr (f : SMap Nat → SMap Nat) : (s.modTakeovers f).freeCtr = s.freeCtr := rfl

/-! ### setTiles -/

@[simp] theorem Sw.setTiles_glb (m : SMap Tile) : (s.setTiles m).glb = s.glb := rfl
@[simp] theorem Sw.setTiles_pwr (m : SMap Tile) : (s.setTiles m).pwr = s.pwr := rfl
@[simp] theorem Sw.setTiles_wear (m : SMap Tile) : (s.setTiles m).wear = s.wear := rfl
@[simp] theorem Sw.setTiles_sec (m : SMap Tile) : (s.setTiles m).sec = s.sec := rfl
@[simp] theorem Sw.setTiles_time (m : SMap Tile) : (s.setTiles m).time = s.time := rfl
@[simp] theorem Sw.setTiles_sync (m : SMap Tile) : (s.setTiles m).sync = s.sync := rfl
@[simp] theorem Sw.setTiles_host (m : SMap Tile) : (s.setTiles m).host = s.host := rfl
@[simp] theorem Sw.setTiles_ports (m : SMap Tile) : (s.setTiles m).ports = s.ports := rfl
@[simp] theorem Sw.setTiles_quads (m : SMap Tile) : (s.setTiles m).quads = s.quads := rfl
@[simp] theorem Sw.setTiles_lanes (m : SMap Tile) : (s.setTiles m).lanes = s.lanes := rfl
@[simp] theorem Sw.setTiles_engines (m : SMap Tile) : (s.setTiles m).engines = s.engines := rfl
@[simp] theorem Sw.setTiles_sites (m : SMap Tile) : (s.setTiles m).sites = s.sites := rfl
@[simp] theorem Sw.setTiles_tiles (m : SMap Tile) : (s.setTiles m).tiles = m := rfl
@[simp] theorem Sw.setTiles_takeovers (m : SMap Tile) : (s.setTiles m).takeovers = s.takeovers := rfl
@[simp] theorem Sw.setTiles_hbm (m : SMap Tile) : (s.setTiles m).hbm = s.hbm := rfl
@[simp] theorem Sw.setTiles_cxl (m : SMap Tile) : (s.setTiles m).cxl = s.cxl := rfl
@[simp] theorem Sw.setTiles_cxlHoldMs (m : SMap Tile) : (s.setTiles m).cxlHoldMs = s.cxlHoldMs := rfl
@[simp] theorem Sw.setTiles_cxlGen (m : SMap Tile) : (s.setTiles m).cxlGen = s.cxlGen := rfl
@[simp] theorem Sw.setTiles_pool (m : SMap Tile) : (s.setTiles m).pool = s.pool := rfl
@[simp] theorem Sw.setTiles_groveC (m : SMap Tile) : (s.setTiles m).groveC = s.groveC := rfl
@[simp] theorem Sw.setTiles_ctxs (m : SMap Tile) : (s.setTiles m).ctxs = s.ctxs := rfl
@[simp] theorem Sw.setTiles_fab (m : SMap Tile) : (s.setTiles m).fab = s.fab := rfl
@[simp] theorem Sw.setTiles_rcv (m : SMap Tile) : (s.setTiles m).rcv = s.rcv := rfl
@[simp] theorem Sw.setTiles_kernels (m : SMap Tile) : (s.setTiles m).kernels = s.kernels := rfl
@[simp] theorem Sw.setTiles_migQueues (m : SMap Tile) : (s.setTiles m).migQueues = s.migQueues := rfl
@[simp] theorem Sw.setTiles_outs (m : SMap Tile) : (s.setTiles m).outs = s.outs := rfl
@[simp] theorem Sw.setTiles_freeCtr (m : SMap Tile) : (s.setTiles m).freeCtr = s.freeCtr := rfl

/-! ### setGroveC -/

@[simp] theorem Sw.setGroveC_glb (l : List Nat) : (s.setGroveC l).glb = s.glb := rfl
@[simp] theorem Sw.setGroveC_pwr (l : List Nat) : (s.setGroveC l).pwr = s.pwr := rfl
@[simp] theorem Sw.setGroveC_wear (l : List Nat) : (s.setGroveC l).wear = s.wear := rfl
@[simp] theorem Sw.setGroveC_sec (l : List Nat) : (s.setGroveC l).sec = s.sec := rfl
@[simp] theorem Sw.setGroveC_time (l : List Nat) : (s.setGroveC l).time = s.time := rfl
@[simp] theorem Sw.setGroveC_sync (l : List Nat) : (s.setGroveC l).sync = s.sync := rfl
@[simp] theorem Sw.setGroveC_host (l : List Nat) : (s.setGroveC l).host = s.host := rfl
@[simp] theorem Sw.setGroveC_ports (l : List Nat) : (s.setGroveC l).ports = s.ports := rfl
@[simp] theorem Sw.setGroveC_quads (l : List Nat) : (s.setGroveC l).quads = s.quads := rfl
@[simp] theorem Sw.setGroveC_lanes (l : List Nat) : (s.setGroveC l).lanes = s.lanes := rfl
@[simp] theorem Sw.setGroveC_engines (l : List Nat) : (s.setGroveC l).engines = s.engines := rfl
@[simp] theorem Sw.setGroveC_sites (l : List Nat) : (s.setGroveC l).sites = s.sites := rfl
@[simp] theorem Sw.setGroveC_tiles (l : List Nat) : (s.setGroveC l).tiles = s.tiles := rfl
@[simp] theorem Sw.setGroveC_takeovers (l : List Nat) : (s.setGroveC l).takeovers = s.takeovers := rfl
@[simp] theorem Sw.setGroveC_hbm (l : List Nat) : (s.setGroveC l).hbm = s.hbm := rfl
@[simp] theorem Sw.setGroveC_cxl (l : List Nat) : (s.setGroveC l).cxl = s.cxl := rfl
@[simp] theorem Sw.setGroveC_cxlHoldMs (l : List Nat) : (s.setGroveC l).cxlHoldMs = s.cxlHoldMs := rfl
@[simp] theorem Sw.setGroveC_cxlGen (l : List Nat) : (s.setGroveC l).cxlGen = s.cxlGen := rfl
@[simp] theorem Sw.setGroveC_pool (l : List Nat) : (s.setGroveC l).pool = s.pool := rfl
@[simp] theorem Sw.setGroveC_groveC (l : List Nat) : (s.setGroveC l).groveC = l := rfl
@[simp] theorem Sw.setGroveC_ctxs (l : List Nat) : (s.setGroveC l).ctxs = s.ctxs := rfl
@[simp] theorem Sw.setGroveC_fab (l : List Nat) : (s.setGroveC l).fab = s.fab := rfl
@[simp] theorem Sw.setGroveC_rcv (l : List Nat) : (s.setGroveC l).rcv = s.rcv := rfl
@[simp] theorem Sw.setGroveC_kernels (l : List Nat) : (s.setGroveC l).kernels = s.kernels := rfl
@[simp] theorem Sw.setGroveC_migQueues (l : List Nat) : (s.setGroveC l).migQueues = s.migQueues := rfl
@[simp] theorem Sw.setGroveC_outs (l : List Nat) : (s.setGroveC l).outs = s.outs := rfl
@[simp] theorem Sw.setGroveC_freeCtr (l : List Nat) : (s.setGroveC l).freeCtr = s.freeCtr := rfl

/-! ### modKernels -/

@[simp] theorem Sw.modKernels_glb (f : SMap Kernel → SMap Kernel) : (s.modKernels f).glb = s.glb := rfl
@[simp] theorem Sw.modKernels_pwr (f : SMap Kernel → SMap Kernel) : (s.modKernels f).pwr = s.pwr := rfl
@[simp] theorem Sw.modKernels_wear (f : SMap Kernel → SMap Kernel) : (s.modKernels f).wear = s.wear := rfl
@[simp] theorem Sw.modKernels_sec (f : SMap Kernel → SMap Kernel) : (s.modKernels f).sec = s.sec := rfl
@[simp] theorem Sw.modKernels_time (f : SMap Kernel → SMap Kernel) : (s.modKernels f).time = s.time := rfl
@[simp] theorem Sw.modKernels_sync (f : SMap Kernel → SMap Kernel) : (s.modKernels f).sync = s.sync := rfl
@[simp] theorem Sw.modKernels_host (f : SMap Kernel → SMap Kernel) : (s.modKernels f).host = s.host := rfl
@[simp] theorem Sw.modKernels_ports (f : SMap Kernel → SMap Kernel) : (s.modKernels f).ports = s.ports := rfl
@[simp] theorem Sw.modKernels_quads (f : SMap Kernel → SMap Kernel) : (s.modKernels f).quads = s.quads := rfl
@[simp] theorem Sw.modKernels_lanes (f : SMap Kernel → SMap Kernel) : (s.modKernels f).lanes = s.lanes := rfl
@[simp] theorem Sw.modKernels_engines (f : SMap Kernel → SMap Kernel) : (s.modKernels f).engines = s.engines := rfl
@[simp] theorem Sw.modKernels_sites (f : SMap Kernel → SMap Kernel) : (s.modKernels f).sites = s.sites := rfl
@[simp] theorem Sw.modKernels_tiles (f : SMap Kernel → SMap Kernel) : (s.modKernels f).tiles = s.tiles := rfl
@[simp] theorem Sw.modKernels_takeovers (f : SMap Kernel → SMap Kernel) : (s.modKernels f).takeovers = s.takeovers := rfl
@[simp] theorem Sw.modKernels_hbm (f : SMap Kernel → SMap Kernel) : (s.modKernels f).hbm = s.hbm := rfl
@[simp] theorem Sw.modKernels_cxl (f : SMap Kernel → SMap Kernel) : (s.modKernels f).cxl = s.cxl := rfl
@[simp] theorem Sw.modKernels_cxlHoldMs (f : SMap Kernel → SMap Kernel) : (s.modKernels f).cxlHoldMs = s.cxlHoldMs := rfl
@[simp] theorem Sw.modKernels_cxlGen (f : SMap Kernel → SMap Kernel) : (s.modKernels f).cxlGen = s.cxlGen := rfl
@[simp] theorem Sw.modKernels_pool (f : SMap Kernel → SMap Kernel) : (s.modKernels f).pool = s.pool := rfl
@[simp] theorem Sw.modKernels_groveC (f : SMap Kernel → SMap Kernel) : (s.modKernels f).groveC = s.groveC := rfl
@[simp] theorem Sw.modKernels_ctxs (f : SMap Kernel → SMap Kernel) : (s.modKernels f).ctxs = s.ctxs := rfl
@[simp] theorem Sw.modKernels_fab (f : SMap Kernel → SMap Kernel) : (s.modKernels f).fab = s.fab := rfl
@[simp] theorem Sw.modKernels_rcv (f : SMap Kernel → SMap Kernel) : (s.modKernels f).rcv = s.rcv := rfl
@[simp] theorem Sw.modKernels_kernels (f : SMap Kernel → SMap Kernel) : (s.modKernels f).kernels = f s.kernels := rfl
@[simp] theorem Sw.modKernels_migQueues (f : SMap Kernel → SMap Kernel) : (s.modKernels f).migQueues = s.migQueues := rfl
@[simp] theorem Sw.modKernels_outs (f : SMap Kernel → SMap Kernel) : (s.modKernels f).outs = s.outs := rfl
@[simp] theorem Sw.modKernels_freeCtr (f : SMap Kernel → SMap Kernel) : (s.modKernels f).freeCtr = s.freeCtr := rfl

/-! ### modMigs -/

@[simp] theorem Sw.modMigs_glb (f : SMap (List (Nat × Nat)) → SMap (List (Nat × Nat))) : (s.modMigs f).glb = s.glb := rfl
@[simp] theorem Sw.modMigs_pwr (f : SMap (List (Nat × Nat)) → SMap (List (Nat × Nat))) : (s.modMigs f).pwr = s.pwr := rfl
@[simp] theorem Sw.modMigs_wear (f : SMap (List (Nat × Nat)) → SMap (List (Nat × Nat))) : (s.modMigs f).wear = s.wear := rfl
@[simp] theorem Sw.modMigs_sec (f : SMap (List (Nat × Nat)) → SMap (List (Nat × Nat))) : (s.modMigs f).sec = s.sec := rfl
@[simp] theorem Sw.modMigs_time (f : SMap (List (Nat × Nat)) → SMap (List (Nat × Nat))) : (s.modMigs f).time = s.time := rfl
@[simp] theorem Sw.modMigs_sync (f : SMap (List (Nat × Nat)) → SMap (List (Nat × Nat))) : (s.modMigs f).sync = s.sync := rfl
@[simp] theorem Sw.modMigs_host (f : SMap (List (Nat × Nat)) → SMap (List (Nat × Nat))) : (s.modMigs f).host = s.host := rfl
@[simp] theorem Sw.modMigs_ports (f : SMap (List (Nat × Nat)) → SMap (List (Nat × Nat))) : (s.modMigs f).ports = s.ports := rfl
@[simp] theorem Sw.modMigs_quads (f : SMap (List (Nat × Nat)) → SMap (List (Nat × Nat))) : (s.modMigs f).quads = s.quads := rfl
@[simp] theorem Sw.modMigs_lanes (f : SMap (List (Nat × Nat)) → SMap (List (Nat × Nat))) : (s.modMigs f).lanes = s.lanes := rfl
@[simp] theorem Sw.modMigs_engines (f : SMap (List (Nat × Nat)) → SMap (List (Nat × Nat))) : (s.modMigs f).engines = s.engines := rfl
@[simp] theorem Sw.modMigs_sites (f : SMap (List (Nat × Nat)) → SMap (List (Nat × Nat))) : (s.modMigs f).sites = s.sites := rfl
@[simp] theorem Sw.modMigs_tiles (f : SMap (List (Nat × Nat)) → SMap (List (Nat × Nat))) : (s.modMigs f).tiles = s.tiles := rfl
@[simp] theorem Sw.modMigs_takeovers (f : SMap (List (Nat × Nat)) → SMap (List (Nat × Nat))) : (s.modMigs f).takeovers = s.takeovers := rfl
@[simp] theorem Sw.modMigs_hbm (f : SMap (List (Nat × Nat)) → SMap (List (Nat × Nat))) : (s.modMigs f).hbm = s.hbm := rfl
@[simp] theorem Sw.modMigs_cxl (f : SMap (List (Nat × Nat)) → SMap (List (Nat × Nat))) : (s.modMigs f).cxl = s.cxl := rfl
@[simp] theorem Sw.modMigs_cxlHoldMs (f : SMap (List (Nat × Nat)) → SMap (List (Nat × Nat))) : (s.modMigs f).cxlHoldMs = s.cxlHoldMs := rfl
@[simp] theorem Sw.modMigs_cxlGen (f : SMap (List (Nat × Nat)) → SMap (List (Nat × Nat))) : (s.modMigs f).cxlGen = s.cxlGen := rfl
@[simp] theorem Sw.modMigs_pool (f : SMap (List (Nat × Nat)) → SMap (List (Nat × Nat))) : (s.modMigs f).pool = s.pool := rfl
@[simp] theorem Sw.modMigs_groveC (f : SMap (List (Nat × Nat)) → SMap (List (Nat × Nat))) : (s.modMigs f).groveC = s.groveC := rfl
@[simp] theorem Sw.modMigs_ctxs (f : SMap (List (Nat × Nat)) → SMap (List (Nat × Nat))) : (s.modMigs f).ctxs = s.ctxs := rfl
@[simp] theorem Sw.modMigs_fab (f : SMap (List (Nat × Nat)) → SMap (List (Nat × Nat))) : (s.modMigs f).fab = s.fab := rfl
@[simp] theorem Sw.modMigs_rcv (f : SMap (List (Nat × Nat)) → SMap (List (Nat × Nat))) : (s.modMigs f).rcv = s.rcv := rfl
@[simp] theorem Sw.modMigs_kernels (f : SMap (List (Nat × Nat)) → SMap (List (Nat × Nat))) : (s.modMigs f).kernels = s.kernels := rfl
@[simp] theorem Sw.modMigs_migQueues (f : SMap (List (Nat × Nat)) → SMap (List (Nat × Nat))) : (s.modMigs f).migQueues = f s.migQueues := rfl
@[simp] theorem Sw.modMigs_outs (f : SMap (List (Nat × Nat)) → SMap (List (Nat × Nat))) : (s.modMigs f).outs = s.outs := rfl
@[simp] theorem Sw.modMigs_freeCtr (f : SMap (List (Nat × Nat)) → SMap (List (Nat × Nat))) : (s.modMigs f).freeCtr = s.freeCtr := rfl

/-! ### setHoldMs -/

@[simp] theorem Sw.setHoldMs_glb (n : Nat) : (s.setHoldMs n).glb = s.glb := rfl
@[simp] theorem Sw.setHoldMs_pwr (n : Nat) : (s.setHoldMs n).pwr = s.pwr := rfl
@[simp] theorem Sw.setHoldMs_wear (n : Nat) : (s.setHoldMs n).wear = s.wear := rfl
@[simp] theorem Sw.setHoldMs_sec (n : Nat) : (s.setHoldMs n).sec = s.sec := rfl
@[simp] theorem Sw.setHoldMs_time (n : Nat) : (s.setHoldMs n).time = s.time := rfl
@[simp] theorem Sw.setHoldMs_sync (n : Nat) : (s.setHoldMs n).sync = s.sync := rfl
@[simp] theorem Sw.setHoldMs_host (n : Nat) : (s.setHoldMs n).host = s.host := rfl
@[simp] theorem Sw.setHoldMs_ports (n : Nat) : (s.setHoldMs n).ports = s.ports := rfl
@[simp] theorem Sw.setHoldMs_quads (n : Nat) : (s.setHoldMs n).quads = s.quads := rfl
@[simp] theorem Sw.setHoldMs_lanes (n : Nat) : (s.setHoldMs n).lanes = s.lanes := rfl
@[simp] theorem Sw.setHoldMs_engines (n : Nat) : (s.setHoldMs n).engines = s.engines := rfl
@[simp] theorem Sw.setHoldMs_sites (n : Nat) : (s.setHoldMs n).sites = s.sites := rfl
@[simp] theorem Sw.setHoldMs_tiles (n : Nat) : (s.setHoldMs n).tiles = s.tiles := rfl
@[simp] theorem Sw.setHoldMs_takeovers (n : Nat) : (s.setHoldMs n).takeovers = s.takeovers := rfl
@[simp] theorem Sw.setHoldMs_hbm (n : Nat) : (s.setHoldMs n).hbm = s.hbm := rfl
@[simp] theorem Sw.setHoldMs_cxl (n : Nat) : (s.setHoldMs n).cxl = s.cxl := rfl
@[simp] theorem Sw.setHoldMs_cxlHoldMs (n : Nat) : (s.setHoldMs n).cxlHoldMs = n := rfl
@[simp] theorem Sw.setHoldMs_cxlGen (n : Nat) : (s.setHoldMs n).cxlGen = s.cxlGen := rfl
@[simp] theorem Sw.setHoldMs_pool (n : Nat) : (s.setHoldMs n).pool = s.pool := rfl
@[simp] theorem Sw.setHoldMs_groveC (n : Nat) : (s.setHoldMs n).groveC = s.groveC := rfl
@[simp] theorem Sw.setHoldMs_ctxs (n : Nat) : (s.setHoldMs n).ctxs = s.ctxs := rfl
@[simp] theorem Sw.setHoldMs_fab (n : Nat) : (s.setHoldMs n).fab = s.fab := rfl
@[simp] theorem Sw.setHoldMs_rcv (n : Nat) : (s.setHoldMs n).rcv = s.rcv := rfl
@[simp] theorem Sw.setHoldMs_kernels (n : Nat) : (s.setHoldMs n).kernels = s.kernels := rfl
@[simp] theorem Sw.setHoldMs_migQueues (n : Nat) : (s.setHoldMs n).migQueues = s.migQueues := rfl
@[simp] theorem Sw.setHoldMs_outs (n : Nat) : (s.setHoldMs n).outs = s.outs := rfl
@[simp] theorem Sw.setHoldMs_freeCtr (n : Nat) : (s.setHoldMs n).freeCtr = s.freeCtr := rfl

/-! ### drawn -/

@[simp] theorem Sw.drawn_glb (n : Nat) : (s.drawn n).glb = s.glb := rfl
@[simp] theorem Sw.drawn_pwr (n : Nat) : (s.drawn n).pwr = s.pwr := rfl
@[simp] theorem Sw.drawn_wear (n : Nat) : (s.drawn n).wear = s.wear := rfl
@[simp] theorem Sw.drawn_sec (n : Nat) : (s.drawn n).sec = s.sec := rfl
@[simp] theorem Sw.drawn_time (n : Nat) : (s.drawn n).time = s.time := rfl
@[simp] theorem Sw.drawn_sync (n : Nat) : (s.drawn n).sync = s.sync := rfl
@[simp] theorem Sw.drawn_host (n : Nat) : (s.drawn n).host = s.host := rfl
@[simp] theorem Sw.drawn_ports (n : Nat) : (s.drawn n).ports = s.ports := rfl
@[simp] theorem Sw.drawn_quads (n : Nat) : (s.drawn n).quads = s.quads := rfl
@[simp] theorem Sw.drawn_lanes (n : Nat) : (s.drawn n).lanes = s.lanes := rfl
@[simp] theorem Sw.drawn_engines (n : Nat) : (s.drawn n).engines = s.engines := rfl
@[simp] theorem Sw.drawn_sites (n : Nat) : (s.drawn n).sites = s.sites := rfl
@[simp] theorem Sw.drawn_tiles (n : Nat) : (s.drawn n).tiles = s.tiles := rfl
@[simp] theorem Sw.drawn_takeovers (n : Nat) : (s.drawn n).takeovers = s.takeovers := rfl
@[simp] theorem Sw.drawn_hbm (n : Nat) : (s.drawn n).hbm = s.hbm := rfl
@[simp] theorem Sw.drawn_cxl (n : Nat) : (s.drawn n).cxl = s.cxl := rfl
@[simp] theorem Sw.drawn_cxlHoldMs (n : Nat) : (s.drawn n).cxlHoldMs = s.cxlHoldMs := rfl
@[simp] theorem Sw.drawn_cxlGen (n : Nat) : (s.drawn n).cxlGen = s.cxlGen := rfl
@[simp] theorem Sw.drawn_pool (n : Nat) : (s.drawn n).pool = s.pool := rfl
@[simp] theorem Sw.drawn_groveC (n : Nat) : (s.drawn n).groveC = s.groveC := rfl
@[simp] theorem Sw.drawn_ctxs (n : Nat) : (s.drawn n).ctxs = s.ctxs := rfl
@[simp] theorem Sw.drawn_fab (n : Nat) : (s.drawn n).fab = s.fab := rfl
@[simp] theorem Sw.drawn_rcv (n : Nat) : (s.drawn n).rcv = s.rcv := rfl
@[simp] theorem Sw.drawn_kernels (n : Nat) : (s.drawn n).kernels = s.kernels := rfl
@[simp] theorem Sw.drawn_migQueues (n : Nat) : (s.drawn n).migQueues = s.migQueues := rfl
@[simp] theorem Sw.drawn_outs (n : Nat) : (s.drawn n).outs = s.outs := rfl
@[simp] theorem Sw.drawn_freeCtr (n : Nat) : (s.drawn n).freeCtr = s.freeCtr + n := rfl

/-! ### out -/

@[simp] theorem Sw.out_glb (o : Out) : (s.out o).glb = s.glb := rfl
@[simp] theorem Sw.out_pwr (o : Out) : (s.out o).pwr = s.pwr := rfl
@[simp] theorem Sw.out_wear (o : Out) : (s.out o).wear = s.wear := rfl
@[simp] theorem Sw.out_sec (o : Out) : (s.out o).sec = s.sec := rfl
@[simp] theorem Sw.out_time (o : Out) : (s.out o).time = s.time := rfl
@[simp] theorem Sw.out_sync (o : Out) : (s.out o).sync = s.sync := rfl
@[simp] theorem Sw.out_host (o : Out) : (s.out o).host = s.host := rfl
@[simp] theorem Sw.out_ports (o : Out) : (s.out o).ports = s.ports := rfl
@[simp] theorem Sw.out_quads (o : Out) : (s.out o).quads = s.quads := rfl
@[simp] theorem Sw.out_lanes (o : Out) : (s.out o).lanes = s.lanes := rfl
@[simp] theorem Sw.out_engines (o : Out) : (s.out o).engines = s.engines := rfl
@[simp] theorem Sw.out_sites (o : Out) : (s.out o).sites = s.sites := rfl
@[simp] theorem Sw.out_tiles (o : Out) : (s.out o).tiles = s.tiles := rfl
@[simp] theorem Sw.out_takeovers (o : Out) : (s.out o).takeovers = s.takeovers := rfl
@[simp] theorem Sw.out_hbm (o : Out) : (s.out o).hbm = s.hbm := rfl
@[simp] theorem Sw.out_cxl (o : Out) : (s.out o).cxl = s.cxl := rfl
@[simp] theorem Sw.out_cxlHoldMs (o : Out) : (s.out o).cxlHoldMs = s.cxlHoldMs := rfl
@[simp] theorem Sw.out_cxlGen (o : Out) : (s.out o).cxlGen = s.cxlGen := rfl
@[simp] theorem Sw.out_pool (o : Out) : (s.out o).pool = s.pool := rfl
@[simp] theorem Sw.out_groveC (o : Out) : (s.out o).groveC = s.groveC := rfl
@[simp] theorem Sw.out_ctxs (o : Out) : (s.out o).ctxs = s.ctxs := rfl
@[simp] theorem Sw.out_fab (o : Out) : (s.out o).fab = s.fab := rfl
@[simp] theorem Sw.out_rcv (o : Out) : (s.out o).rcv = s.rcv := rfl
@[simp] theorem Sw.out_kernels (o : Out) : (s.out o).kernels = s.kernels := rfl
@[simp] theorem Sw.out_migQueues (o : Out) : (s.out o).migQueues = s.migQueues := rfl
@[simp] theorem Sw.out_outs (o : Out) : (s.out o).outs = s.outs ++ [o] := rfl
@[simp] theorem Sw.out_freeCtr (o : Out) : (s.out o).freeCtr = s.freeCtr := rfl

/-! ### setCtx -/

@[simp] theorem Sw.setCtx_glb (x : Nat) (c : Ctx) : (s.setCtx x c).glb = s.glb := rfl
@[simp] theorem Sw.setCtx_pwr (x : Nat) (c : Ctx) : (s.setCtx x c).pwr = s.pwr := rfl
@[simp] theorem Sw.setCtx_wear (x : Nat) (c : Ctx) : (s.setCtx x c).wear = s.wear := rfl
@[simp] theorem Sw.setCtx_sec (x : Nat) (c : Ctx) : (s.setCtx x c).sec = s.sec := rfl
@[simp] theorem Sw.setCtx_time (x : Nat) (c : Ctx) : (s.setCtx x c).time = s.time := rfl
@[simp] theorem Sw.setCtx_sync (x : Nat) (c : Ctx) : (s.setCtx x c).sync = s.sync := rfl
@[simp] theorem Sw.setCtx_host (x : Nat) (c : Ctx) : (s.setCtx x c).host = s.host := rfl
@[simp] theorem Sw.setCtx_ports (x : Nat) (c : Ctx) : (s.setCtx x c).ports = s.ports := rfl
@[simp] theorem Sw.setCtx_quads (x : Nat) (c : Ctx) : (s.setCtx x c).quads = s.quads := rfl
@[simp] theorem Sw.setCtx_lanes (x : Nat) (c : Ctx) : (s.setCtx x c).lanes = s.lanes := rfl
@[simp] theorem Sw.setCtx_engines (x : Nat) (c : Ctx) : (s.setCtx x c).engines = s.engines := rfl
@[simp] theorem Sw.setCtx_sites (x : Nat) (c : Ctx) : (s.setCtx x c).sites = s.sites := rfl
@[simp] theorem Sw.setCtx_tiles (x : Nat) (c : Ctx) : (s.setCtx x c).tiles = s.tiles := rfl
@[simp] theorem Sw.setCtx_takeovers (x : Nat) (c : Ctx) : (s.setCtx x c).takeovers = s.takeovers := rfl
@[simp] theorem Sw.setCtx_hbm (x : Nat) (c : Ctx) : (s.setCtx x c).hbm = s.hbm := rfl
@[simp] theorem Sw.setCtx_cxl (x : Nat) (c : Ctx) : (s.setCtx x c).cxl = s.cxl := rfl
@[simp] theorem Sw.setCtx_cxlHoldMs (x : Nat) (c : Ctx) : (s.setCtx x c).cxlHoldMs = s.cxlHoldMs := rfl
@[simp] theorem Sw.setCtx_cxlGen (x : Nat) (c : Ctx) : (s.setCtx x c).cxlGen = s.cxlGen := rfl
@[simp] theorem Sw.setCtx_pool (x : Nat) (c : Ctx) : (s.setCtx x c).pool = s.pool := rfl
@[simp] theorem Sw.setCtx_groveC (x : Nat) (c : Ctx) : (s.setCtx x c).groveC = s.groveC := rfl
@[simp] theorem Sw.setCtx_ctxs (x : Nat) (c : Ctx) : (s.setCtx x c).ctxs = s.ctxs.set x c := rfl
@[simp] theorem Sw.setCtx_fab (x : Nat) (c : Ctx) : (s.setCtx x c).fab = s.fab := rfl
@[simp] theorem Sw.setCtx_rcv (x : Nat) (c : Ctx) : (s.setCtx x c).rcv = s.rcv := rfl
@[simp] theorem Sw.setCtx_kernels (x : Nat) (c : Ctx) : (s.setCtx x c).kernels = s.kernels := rfl
@[simp] theorem Sw.setCtx_migQueues (x : Nat) (c : Ctx) : (s.setCtx x c).migQueues = s.migQueues := rfl
@[simp] theorem Sw.setCtx_outs (x : Nat) (c : Ctx) : (s.setCtx x c).outs = s.outs := rfl
@[simp] theorem Sw.setCtx_freeCtr (x : Nat) (c : Ctx) : (s.setCtx x c).freeCtr = s.freeCtr := rfl

/-! ### modQuad -/

@[simp] theorem Sw.modQuad_glb (n : Nat) (f : QuadPort → QuadPort) : (s.modQuad n f).glb = s.glb := rfl
@[simp] theorem Sw.modQuad_pwr (n : Nat) (f : QuadPort → QuadPort) : (s.modQuad n f).pwr = s.pwr := rfl
@[simp] theorem Sw.modQuad_wear (n : Nat) (f : QuadPort → QuadPort) : (s.modQuad n f).wear = s.wear := rfl
@[simp] theorem Sw.modQuad_sec (n : Nat) (f : QuadPort → QuadPort) : (s.modQuad n f).sec = s.sec := rfl
@[simp] theorem Sw.modQuad_time (n : Nat) (f : QuadPort → QuadPort) : (s.modQuad n f).time = s.time := rfl
@[simp] theorem Sw.modQuad_sync (n : Nat) (f : QuadPort → QuadPort) : (s.modQuad n f).sync = s.sync := rfl
@[simp] theorem Sw.modQuad_host (n : Nat) (f : QuadPort → QuadPort) : (s.modQuad n f).host = s.host := rfl
@[simp] theorem Sw.modQuad_ports (n : Nat) (f : QuadPort → QuadPort) : (s.modQuad n f).ports = s.ports := rfl
@[simp] theorem Sw.modQuad_lanes (n : Nat) (f : QuadPort → QuadPort) : (s.modQuad n f).lanes = s.lanes := rfl
@[simp] theorem Sw.modQuad_engines (n : Nat) (f : QuadPort → QuadPort) : (s.modQuad n f).engines = s.engines := rfl
@[simp] theorem Sw.modQuad_sites (n : Nat) (f : QuadPort → QuadPort) : (s.modQuad n f).sites = s.sites := rfl
@[simp] theorem Sw.modQuad_tiles (n : Nat) (f : QuadPort → QuadPort) : (s.modQuad n f).tiles = s.tiles := rfl
@[simp] theorem Sw.modQuad_takeovers (n : Nat) (f : QuadPort → QuadPort) : (s.modQuad n f).takeovers = s.takeovers := rfl
@[simp] theorem Sw.modQuad_hbm (n : Nat) (f : QuadPort → QuadPort) : (s.modQuad n f).hbm = s.hbm := rfl
@[simp] theorem Sw.modQuad_cxl (n : Nat) (f : QuadPort → QuadPort) : (s.modQuad n f).cxl = s.cxl := rfl
@[simp] theorem Sw.modQuad_cxlHoldMs (n : Nat) (f : QuadPort → QuadPort) : (s.modQuad n f).cxlHoldMs = s.cxlHoldMs := rfl
@[simp] theorem Sw.modQuad_cxlGen (n : Nat) (f : QuadPort → QuadPort) : (s.modQuad n f).cxlGen = s.cxlGen := rfl
@[simp] theorem Sw.modQuad_pool (n : Nat) (f : QuadPort → QuadPort) : (s.modQuad n f).pool = s.pool := rfl
@[simp] theorem Sw.modQuad_groveC (n : Nat) (f : QuadPort → QuadPort) : (s.modQuad n f).groveC = s.groveC := rfl
@[simp] theorem Sw.modQuad_ctxs (n : Nat) (f : QuadPort → QuadPort) : (s.modQuad n f).ctxs = s.ctxs := rfl
@[simp] theorem Sw.modQuad_fab (n : Nat) (f : QuadPort → QuadPort) : (s.modQuad n f).fab = s.fab := rfl
@[simp] theorem Sw.modQuad_rcv (n : Nat) (f : QuadPort → QuadPort) : (s.modQuad n f).rcv = s.rcv := rfl
@[simp] theorem Sw.modQuad_kernels (n : Nat) (f : QuadPort → QuadPort) : (s.modQuad n f).kernels = s.kernels := rfl
@[simp] theorem Sw.modQuad_migQueues (n : Nat) (f : QuadPort → QuadPort) : (s.modQuad n f).migQueues = s.migQueues := rfl
@[simp] theorem Sw.modQuad_outs (n : Nat) (f : QuadPort → QuadPort) : (s.modQuad n f).outs = s.outs := rfl
@[simp] theorem Sw.modQuad_freeCtr (n : Nat) (f : QuadPort → QuadPort) : (s.modQuad n f).freeCtr = s.freeCtr := rfl

/-! ### modLane -/

@[simp] theorem Sw.modLane_glb (n : Nat) (f : Lane → Lane) : (s.modLane n f).glb = s.glb := rfl
@[simp] theorem Sw.modLane_pwr (n : Nat) (f : Lane → Lane) : (s.modLane n f).pwr = s.pwr := rfl
@[simp] theorem Sw.modLane_wear (n : Nat) (f : Lane → Lane) : (s.modLane n f).wear = s.wear := rfl
@[simp] theorem Sw.modLane_sec (n : Nat) (f : Lane → Lane) : (s.modLane n f).sec = s.sec := rfl
@[simp] theorem Sw.modLane_time (n : Nat) (f : Lane → Lane) : (s.modLane n f).time = s.time := rfl
@[simp] theorem Sw.modLane_sync (n : Nat) (f : Lane → Lane) : (s.modLane n f).sync = s.sync := rfl
@[simp] theorem Sw.modLane_host (n : Nat) (f : Lane → Lane) : (s.modLane n f).host = s.host := rfl
@[simp] theorem Sw.modLane_ports (n : Nat) (f : Lane → Lane) : (s.modLane n f).ports = s.ports := rfl
@[simp] theorem Sw.modLane_quads (n : Nat) (f : Lane → Lane) : (s.modLane n f).quads = s.quads := rfl
@[simp] theorem Sw.modLane_engines (n : Nat) (f : Lane → Lane) : (s.modLane n f).engines = s.engines := rfl
@[simp] theorem Sw.modLane_sites (n : Nat) (f : Lane → Lane) : (s.modLane n f).sites = s.sites := rfl
@[simp] theorem Sw.modLane_tiles (n : Nat) (f : Lane → Lane) : (s.modLane n f).tiles = s.tiles := rfl
@[simp] theorem Sw.modLane_takeovers (n : Nat) (f : Lane → Lane) : (s.modLane n f).takeovers = s.takeovers := rfl
@[simp] theorem Sw.modLane_hbm (n : Nat) (f : Lane → Lane) : (s.modLane n f).hbm = s.hbm := rfl
@[simp] theorem Sw.modLane_cxl (n : Nat) (f : Lane → Lane) : (s.modLane n f).cxl = s.cxl := rfl
@[simp] theorem Sw.modLane_cxlHoldMs (n : Nat) (f : Lane → Lane) : (s.modLane n f).cxlHoldMs = s.cxlHoldMs := rfl
@[simp] theorem Sw.modLane_cxlGen (n : Nat) (f : Lane → Lane) : (s.modLane n f).cxlGen = s.cxlGen := rfl
@[simp] theorem Sw.modLane_pool (n : Nat) (f : Lane → Lane) : (s.modLane n f).pool = s.pool := rfl
@[simp] theorem Sw.modLane_groveC (n : Nat) (f : Lane → Lane) : (s.modLane n f).groveC = s.groveC := rfl
@[simp] theorem Sw.modLane_ctxs (n : Nat) (f : Lane → Lane) : (s.modLane n f).ctxs = s.ctxs := rfl
@[simp] theorem Sw.modLane_fab (n : Nat) (f : Lane → Lane) : (s.modLane n f).fab = s.fab := rfl
@[simp] theorem Sw.modLane_rcv (n : Nat) (f : Lane → Lane) : (s.modLane n f).rcv = s.rcv := rfl
@[simp] theorem Sw.modLane_kernels (n : Nat) (f : Lane → Lane) : (s.modLane n f).kernels = s.kernels := rfl
@[simp] theorem Sw.modLane_migQueues (n : Nat) (f : Lane → Lane) : (s.modLane n f).migQueues = s.migQueues := rfl
@[simp] theorem Sw.modLane_outs (n : Nat) (f : Lane → Lane) : (s.modLane n f).outs = s.outs := rfl
@[simp] theorem Sw.modLane_freeCtr (n : Nat) (f : Lane → Lane) : (s.modLane n f).freeCtr = s.freeCtr := rfl

/-! ### modTest -/

@[simp] theorem Sw.modTest_glb (n : Nat) (f : LaneTest → LaneTest) : (s.modTest n f).glb = s.glb := rfl
@[simp] theorem Sw.modTest_pwr (n : Nat) (f : LaneTest → LaneTest) : (s.modTest n f).pwr = s.pwr := rfl
@[simp] theorem Sw.modTest_wear (n : Nat) (f : LaneTest → LaneTest) : (s.modTest n f).wear = s.wear := rfl
@[simp] theorem Sw.modTest_sec (n : Nat) (f : LaneTest → LaneTest) : (s.modTest n f).sec = s.sec := rfl
@[simp] theorem Sw.modTest_time (n : Nat) (f : LaneTest → LaneTest) : (s.modTest n f).time = s.time := rfl
@[simp] theorem Sw.modTest_sync (n : Nat) (f : LaneTest → LaneTest) : (s.modTest n f).sync = s.sync := rfl
@[simp] theorem Sw.modTest_host (n : Nat) (f : LaneTest → LaneTest) : (s.modTest n f).host = s.host := rfl
@[simp] theorem Sw.modTest_ports (n : Nat) (f : LaneTest → LaneTest) : (s.modTest n f).ports = s.ports := rfl
@[simp] theorem Sw.modTest_quads (n : Nat) (f : LaneTest → LaneTest) : (s.modTest n f).quads = s.quads := rfl
@[simp] theorem Sw.modTest_engines (n : Nat) (f : LaneTest → LaneTest) : (s.modTest n f).engines = s.engines := rfl
@[simp] theorem Sw.modTest_sites (n : Nat) (f : LaneTest → LaneTest) : (s.modTest n f).sites = s.sites := rfl
@[simp] theorem Sw.modTest_tiles (n : Nat) (f : LaneTest → LaneTest) : (s.modTest n f).tiles = s.tiles := rfl
@[simp] theorem Sw.modTest_takeovers (n : Nat) (f : LaneTest → LaneTest) : (s.modTest n f).takeovers = s.takeovers := rfl
@[simp] theorem Sw.modTest_hbm (n : Nat) (f : LaneTest → LaneTest) : (s.modTest n f).hbm = s.hbm := rfl
@[simp] theorem Sw.modTest_cxl (n : Nat) (f : LaneTest → LaneTest) : (s.modTest n f).cxl = s.cxl := rfl
@[simp] theorem Sw.modTest_cxlHoldMs (n : Nat) (f : LaneTest → LaneTest) : (s.modTest n f).cxlHoldMs = s.cxlHoldMs := rfl
@[simp] theorem Sw.modTest_cxlGen (n : Nat) (f : LaneTest → LaneTest) : (s.modTest n f).cxlGen = s.cxlGen := rfl
@[simp] theorem Sw.modTest_pool (n : Nat) (f : LaneTest → LaneTest) : (s.modTest n f).pool = s.pool := rfl
@[simp] theorem Sw.modTest_groveC (n : Nat) (f : LaneTest → LaneTest) : (s.modTest n f).groveC = s.groveC := rfl
@[simp] theorem Sw.modTest_ctxs (n : Nat) (f : LaneTest → LaneTest) : (s.modTest n f).ctxs = s.ctxs := rfl
@[simp] theorem Sw.modTest_fab (n : Nat) (f : LaneTest → LaneTest) : (s.modTest n f).fab = s.fab := rfl
@[simp] theorem Sw.modTest_rcv (n : Nat) (f : LaneTest → LaneTest) : (s.modTest n f).rcv = s.rcv := rfl
@[simp] theorem Sw.modTest_kernels (n : Nat) (f : LaneTest → LaneTest) : (s.modTest n f).kernels = s.kernels := rfl
@[simp] theorem Sw.modTest_migQueues (n : Nat) (f : LaneTest → LaneTest) : (s.modTest n f).migQueues = s.migQueues := rfl
@[simp] theorem Sw.modTest_outs (n : Nat) (f : LaneTest → LaneTest) : (s.modTest n f).outs = s.outs := rfl
@[simp] theorem Sw.modTest_freeCtr (n : Nat) (f : LaneTest → LaneTest) : (s.modTest n f).freeCtr = s.freeCtr := rfl

/-! ### modEngine -/

@[simp] theorem Sw.modEngine_glb (n : Nat) (f : Engine → Engine) : (s.modEngine n f).glb = s.glb := rfl
@[simp] theorem Sw.modEngine_pwr (n : Nat) (f : Engine → Engine) : (s.modEngine n f).pwr = s.pwr := rfl
@[simp] theorem Sw.modEngine_wear (n : Nat) (f : Engine → Engine) : (s.modEngine n f).wear = s.wear := rfl
@[simp] theorem Sw.modEngine_sec (n : Nat) (f : Engine → Engine) : (s.modEngine n f).sec = s.sec := rfl
@[simp] theorem Sw.modEngine_time (n : Nat) (f : Engine → Engine) : (s.modEngine n f).time = s.time := rfl
@[simp] theorem Sw.modEngine_sync (n : Nat) (f : Engine → Engine) : (s.modEngine n f).sync = s.sync := rfl
@[simp] theorem Sw.modEngine_host (n : Nat) (f : Engine → Engine) : (s.modEngine n f).host = s.host := rfl
@[simp] theorem Sw.modEngine_ports (n : Nat) (f : Engine → Engine) : (s.modEngine n f).ports = s.ports := rfl
@[simp] theorem Sw.modEngine_quads (n : Nat) (f : Engine → Engine) : (s.modEngine n f).quads = s.quads := rfl
@[simp] theorem Sw.modEngine_lanes (n : Nat) (f : Engine → Engine) : (s.modEngine n f).lanes = s.lanes := rfl
@[simp] theorem Sw.modEngine_sites (n : Nat) (f : Engine → Engine) : (s.modEngine n f).sites = s.sites := rfl
@[simp] theorem Sw.modEngine_tiles (n : Nat) (f : Engine → Engine) : (s.modEngine n f).tiles = s.tiles := rfl
@[simp] theorem Sw.modEngine_takeovers (n : Nat) (f : Engine → Engine) : (s.modEngine n f).takeovers = s.takeovers := rfl
@[simp] theorem Sw.modEngine_hbm (n : Nat) (f : Engine → Engine) : (s.modEngine n f).hbm = s.hbm := rfl
@[simp] theorem Sw.modEngine_cxl (n : Nat) (f : Engine → Engine) : (s.modEngine n f).cxl = s.cxl := rfl
@[simp] theorem Sw.modEngine_cxlHoldMs (n : Nat) (f : Engine → Engine) : (s.modEngine n f).cxlHoldMs = s.cxlHoldMs := rfl
@[simp] theorem Sw.modEngine_cxlGen (n : Nat) (f : Engine → Engine) : (s.modEngine n f).cxlGen = s.cxlGen := rfl
@[simp] theorem Sw.modEngine_pool (n : Nat) (f : Engine → Engine) : (s.modEngine n f).pool = s.pool := rfl
@[simp] theorem Sw.modEngine_groveC (n : Nat) (f : Engine → Engine) : (s.modEngine n f).groveC = s.groveC := rfl
@[simp] theorem Sw.modEngine_ctxs (n : Nat) (f : Engine → Engine) : (s.modEngine n f).ctxs = s.ctxs := rfl
@[simp] theorem Sw.modEngine_fab (n : Nat) (f : Engine → Engine) : (s.modEngine n f).fab = s.fab := rfl
@[simp] theorem Sw.modEngine_rcv (n : Nat) (f : Engine → Engine) : (s.modEngine n f).rcv = s.rcv := rfl
@[simp] theorem Sw.modEngine_kernels (n : Nat) (f : Engine → Engine) : (s.modEngine n f).kernels = s.kernels := rfl
@[simp] theorem Sw.modEngine_migQueues (n : Nat) (f : Engine → Engine) : (s.modEngine n f).migQueues = s.migQueues := rfl
@[simp] theorem Sw.modEngine_outs (n : Nat) (f : Engine → Engine) : (s.modEngine n f).outs = s.outs := rfl
@[simp] theorem Sw.modEngine_freeCtr (n : Nat) (f : Engine → Engine) : (s.modEngine n f).freeCtr = s.freeCtr := rfl

/-! ### modSite -/

@[simp] theorem Sw.modSite_glb (n : Nat) (f : Site → Site) : (s.modSite n f).glb = s.glb := rfl
@[simp] theorem Sw.modSite_pwr (n : Nat) (f : Site → Site) : (s.modSite n f).pwr = s.pwr := rfl
@[simp] theorem Sw.modSite_wear (n : Nat) (f : Site → Site) : (s.modSite n f).wear = s.wear := rfl
@[simp] theorem Sw.modSite_sec (n : Nat) (f : Site → Site) : (s.modSite n f).sec = s.sec := rfl
@[simp] theorem Sw.modSite_time (n : Nat) (f : Site → Site) : (s.modSite n f).time = s.time := rfl
@[simp] theorem Sw.modSite_sync (n : Nat) (f : Site → Site) : (s.modSite n f).sync = s.sync := rfl
@[simp] theorem Sw.modSite_host (n : Nat) (f : Site → Site) : (s.modSite n f).host = s.host := rfl
@[simp] theorem Sw.modSite_ports (n : Nat) (f : Site → Site) : (s.modSite n f).ports = s.ports := rfl
@[simp] theorem Sw.modSite_quads (n : Nat) (f : Site → Site) : (s.modSite n f).quads = s.quads := rfl
@[simp] theorem Sw.modSite_lanes (n : Nat) (f : Site → Site) : (s.modSite n f).lanes = s.lanes := rfl
@[simp] theorem Sw.modSite_engines (n : Nat) (f : Site → Site) : (s.modSite n f).engines = s.engines := rfl
@[simp] theorem Sw.modSite_tiles (n : Nat) (f : Site → Site) : (s.modSite n f).tiles = s.tiles := rfl
@[simp] theorem Sw.modSite_takeovers (n : Nat) (f : Site → Site) : (s.modSite n f).takeovers = s.takeovers := rfl
@[simp] theorem Sw.modSite_hbm (n : Nat) (f : Site → Site) : (s.modSite n f).hbm = s.hbm := rfl
@[simp] theorem Sw.modSite_cxl (n : Nat) (f : Site → Site) : (s.modSite n f).cxl = s.cxl := rfl
@[simp] theorem Sw.modSite_cxlHoldMs (n : Nat) (f : Site → Site) : (s.modSite n f).cxlHoldMs = s.cxlHoldMs := rfl
@[simp] theorem Sw.modSite_cxlGen (n : Nat) (f : Site → Site) : (s.modSite n f).cxlGen = s.cxlGen := rfl
@[simp] theorem Sw.modSite_pool (n : Nat) (f : Site → Site) : (s.modSite n f).pool = s.pool := rfl
@[simp] theorem Sw.modSite_groveC (n : Nat) (f : Site → Site) : (s.modSite n f).groveC = s.groveC := rfl
@[simp] theorem Sw.modSite_ctxs (n : Nat) (f : Site → Site) : (s.modSite n f).ctxs = s.ctxs := rfl
@[simp] theorem Sw.modSite_fab (n : Nat) (f : Site → Site) : (s.modSite n f).fab = s.fab := rfl
@[simp] theorem Sw.modSite_rcv (n : Nat) (f : Site → Site) : (s.modSite n f).rcv = s.rcv := rfl
@[simp] theorem Sw.modSite_kernels (n : Nat) (f : Site → Site) : (s.modSite n f).kernels = s.kernels := rfl
@[simp] theorem Sw.modSite_migQueues (n : Nat) (f : Site → Site) : (s.modSite n f).migQueues = s.migQueues := rfl
@[simp] theorem Sw.modSite_outs (n : Nat) (f : Site → Site) : (s.modSite n f).outs = s.outs := rfl
@[simp] theorem Sw.modSite_freeCtr (n : Nat) (f : Site → Site) : (s.modSite n f).freeCtr = s.freeCtr := rfl

/-! ### modTile -/

@[simp] theorem Sw.modTile_glb (n : Nat) (f : Tile → Tile) : (s.modTile n f).glb = s.glb := rfl
@[simp] theorem Sw.modTile_pwr (n : Nat) (f : Tile → Tile) : (s.modTile n f).pwr = s.pwr := rfl
@[simp] theorem Sw.modTile_wear (n : Nat) (f : Tile → Tile) : (s.modTile n f).wear = s.wear := rfl
@[simp] theorem Sw.modTile_sec (n : Nat) (f : Tile → Tile) : (s.modTile n f).sec = s.sec := rfl
@[simp] theorem Sw.modTile_time (n : Nat) (f : Tile → Tile) : (s.modTile n f).time = s.time := rfl
@[simp] theorem Sw.modTile_sync (n : Nat) (f : Tile → Tile) : (s.modTile n f).sync = s.sync := rfl
@[simp] theorem Sw.modTile_host (n : Nat) (f : Tile → Tile) : (s.modTile n f).host = s.host := rfl
@[simp] theorem Sw.modTile_ports (n : Nat) (f : Tile → Tile) : (s.modTile n f).ports = s.ports := rfl
@[simp] theorem Sw.modTile_quads (n : Nat) (f : Tile → Tile) : (s.modTile n f).quads = s.quads := rfl
@[simp] theorem Sw.modTile_lanes (n : Nat) (f : Tile → Tile) : (s.modTile n f).lanes = s.lanes := rfl
@[simp] theorem Sw.modTile_engines (n : Nat) (f : Tile → Tile) : (s.modTile n f).engines = s.engines := rfl
@[simp] theorem Sw.modTile_sites (n : Nat) (f : Tile → Tile) : (s.modTile n f).sites = s.sites := rfl
@[simp] theorem Sw.modTile_takeovers (n : Nat) (f : Tile → Tile) : (s.modTile n f).takeovers = s.takeovers := rfl
@[simp] theorem Sw.modTile_hbm (n : Nat) (f : Tile → Tile) : (s.modTile n f).hbm = s.hbm := rfl
@[simp] theorem Sw.modTile_cxl (n : Nat) (f : Tile → Tile) : (s.modTile n f).cxl = s.cxl := rfl
@[simp] theorem Sw.modTile_cxlHoldMs (n : Nat) (f : Tile → Tile) : (s.modTile n f).cxlHoldMs = s.cxlHoldMs := rfl
@[simp] theorem Sw.modTile_cxlGen (n : Nat) (f : Tile → Tile) : (s.modTile n f).cxlGen = s.cxlGen := rfl
@[simp] theorem Sw.modTile_pool (n : Nat) (f : Tile → Tile) : (s.modTile n f).pool = s.pool := rfl
@[simp] theorem Sw.modTile_groveC (n : Nat) (f : Tile → Tile) : (s.modTile n f).groveC = s.groveC := rfl
@[simp] theorem Sw.modTile_ctxs (n : Nat) (f : Tile → Tile) : (s.modTile n f).ctxs = s.ctxs := rfl
@[simp] theorem Sw.modTile_fab (n : Nat) (f : Tile → Tile) : (s.modTile n f).fab = s.fab := rfl
@[simp] theorem Sw.modTile_rcv (n : Nat) (f : Tile → Tile) : (s.modTile n f).rcv = s.rcv := rfl
@[simp] theorem Sw.modTile_kernels (n : Nat) (f : Tile → Tile) : (s.modTile n f).kernels = s.kernels := rfl
@[simp] theorem Sw.modTile_migQueues (n : Nat) (f : Tile → Tile) : (s.modTile n f).migQueues = s.migQueues := rfl
@[simp] theorem Sw.modTile_outs (n : Nat) (f : Tile → Tile) : (s.modTile n f).outs = s.outs := rfl
@[simp] theorem Sw.modTile_freeCtr (n : Nat) (f : Tile → Tile) : (s.modTile n f).freeCtr = s.freeCtr := rfl

/-! ### modStack -/

@[simp] theorem Sw.modStack_glb (n : Nat) (f : Stack → Stack) : (s.modStack n f).glb = s.glb := rfl
@[simp] theorem Sw.modStack_pwr (n : Nat) (f : Stack → Stack) : (s.modStack n f).pwr = s.pwr := rfl
@[simp] theorem Sw.modStack_wear (n : Nat) (f : Stack → Stack) : (s.modStack n f).wear = s.wear := rfl
@[simp] theorem Sw.modStack_sec (n : Nat) (f : Stack → Stack) : (s.modStack n f).sec = s.sec := rfl
@[simp] theorem Sw.modStack_time (n : Nat) (f : Stack → Stack) : (s.modStack n f).time = s.time := rfl
@[simp] theorem Sw.modStack_sync (n : Nat) (f : Stack → Stack) : (s.modStack n f).sync = s.sync := rfl
@[simp] theorem Sw.modStack_host (n : Nat) (f : Stack → Stack) : (s.modStack n f).host = s.host := rfl
@[simp] theorem Sw.modStack_ports (n : Nat) (f : Stack → Stack) : (s.modStack n f).ports = s.ports := rfl
@[simp] theorem Sw.modStack_quads (n : Nat) (f : Stack → Stack) : (s.modStack n f).quads = s.quads := rfl
@[simp] theorem Sw.modStack_lanes (n : Nat) (f : Stack → Stack) : (s.modStack n f).lanes = s.lanes := rfl
@[simp] theorem Sw.modStack_engines (n : Nat) (f : Stack → Stack) : (s.modStack n f).engines = s.engines := rfl
@[simp] theorem Sw.modStack_sites (n : Nat) (f : Stack → Stack) : (s.modStack n f).sites = s.sites := rfl
@[simp] theorem Sw.modStack_tiles (n : Nat) (f : Stack → Stack) : (s.modStack n f).tiles = s.tiles := rfl
@[simp] theorem Sw.modStack_takeovers (n : Nat) (f : Stack → Stack) : (s.modStack n f).takeovers = s.takeovers := rfl
@[simp] theorem Sw.modStack_cxl (n : Nat) (f : Stack → Stack) : (s.modStack n f).cxl = s.cxl := rfl
@[simp] theorem Sw.modStack_cxlHoldMs (n : Nat) (f : Stack → Stack) : (s.modStack n f).cxlHoldMs = s.cxlHoldMs := rfl
@[simp] theorem Sw.modStack_cxlGen (n : Nat) (f : Stack → Stack) : (s.modStack n f).cxlGen = s.cxlGen := rfl
@[simp] theorem Sw.modStack_pool (n : Nat) (f : Stack → Stack) : (s.modStack n f).pool = s.pool := rfl
@[simp] theorem Sw.modStack_groveC (n : Nat) (f : Stack → Stack) : (s.modStack n f).groveC = s.groveC := rfl
@[simp] theorem Sw.modStack_ctxs (n : Nat) (f : Stack → Stack) : (s.modStack n f).ctxs = s.ctxs := rfl
@[simp] theorem Sw.modStack_fab (n : Nat) (f : Stack → Stack) : (s.modStack n f).fab = s.fab := rfl
@[simp] theorem Sw.modStack_rcv (n : Nat) (f : Stack → Stack) : (s.modStack n f).rcv = s.rcv := rfl
@[simp] theorem Sw.modStack_kernels (n : Nat) (f : Stack → Stack) : (s.modStack n f).kernels = s.kernels := rfl
@[simp] theorem Sw.modStack_migQueues (n : Nat) (f : Stack → Stack) : (s.modStack n f).migQueues = s.migQueues := rfl
@[simp] theorem Sw.modStack_outs (n : Nat) (f : Stack → Stack) : (s.modStack n f).outs = s.outs := rfl
@[simp] theorem Sw.modStack_freeCtr (n : Nat) (f : Stack → Stack) : (s.modStack n f).freeCtr = s.freeCtr := rfl

/-! ### modRoot -/

@[simp] theorem Sw.modRoot_glb (n : Nat) (f : Cxl → Cxl) : (s.modRoot n f).glb = s.glb := rfl
@[simp] theorem Sw.modRoot_pwr (n : Nat) (f : Cxl → Cxl) : (s.modRoot n f).pwr = s.pwr := rfl
@[simp] theorem Sw.modRoot_wear (n : Nat) (f : Cxl → Cxl) : (s.modRoot n f).wear = s.wear := rfl
@[simp] theorem Sw.modRoot_sec (n : Nat) (f : Cxl → Cxl) : (s.modRoot n f).sec = s.sec := rfl
@[simp] theorem Sw.modRoot_time (n : Nat) (f : Cxl → Cxl) : (s.modRoot n f).time = s.time := rfl
@[simp] theorem Sw.modRoot_sync (n : Nat) (f : Cxl → Cxl) : (s.modRoot n f).sync = s.sync := rfl
@[simp] theorem Sw.modRoot_host (n : Nat) (f : Cxl → Cxl) : (s.modRoot n f).host = s.host := rfl
@[simp] theorem Sw.modRoot_ports (n : Nat) (f : Cxl → Cxl) : (s.modRoot n f).ports = s.ports := rfl
@[simp] theorem Sw.modRoot_quads (n : Nat) (f : Cxl → Cxl) : (s.modRoot n f).quads = s.quads := rfl
@[simp] theorem Sw.modRoot_lanes (n : Nat) (f : Cxl → Cxl) : (s.modRoot n f).lanes = s.lanes := rfl
@[simp] theorem Sw.modRoot_engines (n : Nat) (f : Cxl → Cxl) : (s.modRoot n f).engines = s.engines := rfl
@[simp] theorem Sw.modRoot_sites (n : Nat) (f : Cxl → Cxl) : (s.modRoot n f).sites = s.sites := rfl
@[simp] theorem Sw.modRoot_tiles (n : Nat) (f : Cxl → Cxl) : (s.modRoot n f).tiles = s.tiles := rfl
@[simp] theorem Sw.modRoot_takeovers (n : Nat) (f : Cxl → Cxl) : (s.modRoot n f).takeovers = s.takeovers := rfl
@[simp] theorem Sw.modRoot_hbm (n : Nat) (f : Cxl → Cxl) : (s.modRoot n f).hbm = s.hbm := rfl
@[simp] theorem Sw.modRoot_cxlHoldMs (n : Nat) (f : Cxl → Cxl) : (s.modRoot n f).cxlHoldMs = s.cxlHoldMs := rfl
@[simp] theorem Sw.modRoot_cxlGen (n : Nat) (f : Cxl → Cxl) : (s.modRoot n f).cxlGen = s.cxlGen := rfl
@[simp] theorem Sw.modRoot_pool (n : Nat) (f : Cxl → Cxl) : (s.modRoot n f).pool = s.pool := rfl
@[simp] theorem Sw.modRoot_groveC (n : Nat) (f : Cxl → Cxl) : (s.modRoot n f).groveC = s.groveC := rfl
@[simp] theorem Sw.modRoot_ctxs (n : Nat) (f : Cxl → Cxl) : (s.modRoot n f).ctxs = s.ctxs := rfl
@[simp] theorem Sw.modRoot_fab (n : Nat) (f : Cxl → Cxl) : (s.modRoot n f).fab = s.fab := rfl
@[simp] theorem Sw.modRoot_rcv (n : Nat) (f : Cxl → Cxl) : (s.modRoot n f).rcv = s.rcv := rfl
@[simp] theorem Sw.modRoot_kernels (n : Nat) (f : Cxl → Cxl) : (s.modRoot n f).kernels = s.kernels := rfl
@[simp] theorem Sw.modRoot_migQueues (n : Nat) (f : Cxl → Cxl) : (s.modRoot n f).migQueues = s.migQueues := rfl
@[simp] theorem Sw.modRoot_outs (n : Nat) (f : Cxl → Cxl) : (s.modRoot n f).outs = s.outs := rfl
@[simp] theorem Sw.modRoot_freeCtr (n : Nat) (f : Cxl → Cxl) : (s.modRoot n f).freeCtr = s.freeCtr := rfl

/-! ### modRing -/

@[simp] theorem Sw.modRing_glb (n : Nat) (f : Ring → Ring) : (s.modRing n f).glb = s.glb := rfl
@[simp] theorem Sw.modRing_pwr (n : Nat) (f : Ring → Ring) : (s.modRing n f).pwr = s.pwr := rfl
@[simp] theorem Sw.modRing_wear (n : Nat) (f : Ring → Ring) : (s.modRing n f).wear = s.wear := rfl
@[simp] theorem Sw.modRing_sec (n : Nat) (f : Ring → Ring) : (s.modRing n f).sec = s.sec := rfl
@[simp] theorem Sw.modRing_time (n : Nat) (f : Ring → Ring) : (s.modRing n f).time = s.time := rfl
@[simp] theorem Sw.modRing_sync (n : Nat) (f : Ring → Ring) : (s.modRing n f).sync = s.sync := rfl
@[simp] theorem Sw.modRing_ports (n : Nat) (f : Ring → Ring) : (s.modRing n f).ports = s.ports := rfl
@[simp] theorem Sw.modRing_quads (n : Nat) (f : Ring → Ring) : (s.modRing n f).quads = s.quads := rfl
@[simp] theorem Sw.modRing_lanes (n : Nat) (f : Ring → Ring) : (s.modRing n f).lanes = s.lanes := rfl
@[simp] theorem Sw.modRing_engines (n : Nat) (f : Ring → Ring) : (s.modRing n f).engines = s.engines := rfl
@[simp] theorem Sw.modRing_sites (n : Nat) (f : Ring → Ring) : (s.modRing n f).sites = s.sites := rfl
@[simp] theorem Sw.modRing_tiles (n : Nat) (f : Ring → Ring) : (s.modRing n f).tiles = s.tiles := rfl
@[simp] theorem Sw.modRing_takeovers (n : Nat) (f : Ring → Ring) : (s.modRing n f).takeovers = s.takeovers := rfl
@[simp] theorem Sw.modRing_hbm (n : Nat) (f : Ring → Ring) : (s.modRing n f).hbm = s.hbm := rfl
@[simp] theorem Sw.modRing_cxl (n : Nat) (f : Ring → Ring) : (s.modRing n f).cxl = s.cxl := rfl
@[simp] theorem Sw.modRing_cxlHoldMs (n : Nat) (f : Ring → Ring) : (s.modRing n f).cxlHoldMs = s.cxlHoldMs := rfl
@[simp] theorem Sw.modRing_cxlGen (n : Nat) (f : Ring → Ring) : (s.modRing n f).cxlGen = s.cxlGen := rfl
@[simp] theorem Sw.modRing_pool (n : Nat) (f : Ring → Ring) : (s.modRing n f).pool = s.pool := rfl
@[simp] theorem Sw.modRing_groveC (n : Nat) (f : Ring → Ring) : (s.modRing n f).groveC = s.groveC := rfl
@[simp] theorem Sw.modRing_ctxs (n : Nat) (f : Ring → Ring) : (s.modRing n f).ctxs = s.ctxs := rfl
@[simp] theorem Sw.modRing_fab (n : Nat) (f : Ring → Ring) : (s.modRing n f).fab = s.fab := rfl
@[simp] theorem Sw.modRing_rcv (n : Nat) (f : Ring → Ring) : (s.modRing n f).rcv = s.rcv := rfl
@[simp] theorem Sw.modRing_kernels (n : Nat) (f : Ring → Ring) : (s.modRing n f).kernels = s.kernels := rfl
@[simp] theorem Sw.modRing_migQueues (n : Nat) (f : Ring → Ring) : (s.modRing n f).migQueues = s.migQueues := rfl
@[simp] theorem Sw.modRing_outs (n : Nat) (f : Ring → Ring) : (s.modRing n f).outs = s.outs := rfl
@[simp] theorem Sw.modRing_freeCtr (n : Nat) (f : Ring → Ring) : (s.modRing n f).freeCtr = s.freeCtr := rfl

/-! ### modEvq -/

@[simp] theorem Sw.modEvq_glb (n : Nat) (f : Evq → Evq) : (s.modEvq n f).glb = s.glb := rfl
@[simp] theorem Sw.modEvq_pwr (n : Nat) (f : Evq → Evq) : (s.modEvq n f).pwr = s.pwr := rfl
@[simp] theorem Sw.modEvq_wear (n : Nat) (f : Evq → Evq) : (s.modEvq n f).wear = s.wear := rfl
@[simp] theorem Sw.modEvq_sec (n : Nat) (f : Evq → Evq) : (s.modEvq n f).sec = s.sec := rfl
@[simp] theorem Sw.modEvq_time (n : Nat) (f : Evq → Evq) : (s.modEvq n f).time = s.time := rfl
@[simp] theorem Sw.modEvq_sync (n : Nat) (f : Evq → Evq) : (s.modEvq n f).sync = s.sync := rfl
@[simp] theorem Sw.modEvq_ports (n : Nat) (f : Evq → Evq) : (s.modEvq n f).ports = s.ports := rfl
@[simp] theorem Sw.modEvq_quads (n : Nat) (f : Evq → Evq) : (s.modEvq n f).quads = s.quads := rfl
@[simp] theorem Sw.modEvq_lanes (n : Nat) (f : Evq → Evq) : (s.modEvq n f).lanes = s.lanes := rfl
@[simp] theorem Sw.modEvq_engines (n : Nat) (f : Evq → Evq) : (s.modEvq n f).engines = s.engines := rfl
@[simp] theorem Sw.modEvq_sites (n : Nat) (f : Evq → Evq) : (s.modEvq n f).sites = s.sites := rfl
@[simp] theorem Sw.modEvq_tiles (n : Nat) (f : Evq → Evq) : (s.modEvq n f).tiles = s.tiles := rfl
@[simp] theorem Sw.modEvq_takeovers (n : Nat) (f : Evq → Evq) : (s.modEvq n f).takeovers = s.takeovers := rfl
@[simp] theorem Sw.modEvq_hbm (n : Nat) (f : Evq → Evq) : (s.modEvq n f).hbm = s.hbm := rfl
@[simp] theorem Sw.modEvq_cxl (n : Nat) (f : Evq → Evq) : (s.modEvq n f).cxl = s.cxl := rfl
@[simp] theorem Sw.modEvq_cxlHoldMs (n : Nat) (f : Evq → Evq) : (s.modEvq n f).cxlHoldMs = s.cxlHoldMs := rfl
@[simp] theorem Sw.modEvq_cxlGen (n : Nat) (f : Evq → Evq) : (s.modEvq n f).cxlGen = s.cxlGen := rfl
@[simp] theorem Sw.modEvq_pool (n : Nat) (f : Evq → Evq) : (s.modEvq n f).pool = s.pool := rfl
@[simp] theorem Sw.modEvq_groveC (n : Nat) (f : Evq → Evq) : (s.modEvq n f).groveC = s.groveC := rfl
@[simp] theorem Sw.modEvq_ctxs (n : Nat) (f : Evq → Evq) : (s.modEvq n f).ctxs = s.ctxs := rfl
@[simp] theorem Sw.modEvq_fab (n : Nat) (f : Evq → Evq) : (s.modEvq n f).fab = s.fab := rfl
@[simp] theorem Sw.modEvq_rcv (n : Nat) (f : Evq → Evq) : (s.modEvq n f).rcv = s.rcv := rfl
@[simp] theorem Sw.modEvq_kernels (n : Nat) (f : Evq → Evq) : (s.modEvq n f).kernels = s.kernels := rfl
@[simp] theorem Sw.modEvq_migQueues (n : Nat) (f : Evq → Evq) : (s.modEvq n f).migQueues = s.migQueues := rfl
@[simp] theorem Sw.modEvq_outs (n : Nat) (f : Evq → Evq) : (s.modEvq n f).outs = s.outs := rfl
@[simp] theorem Sw.modEvq_freeCtr (n : Nat) (f : Evq → Evq) : (s.modEvq n f).freeCtr = s.freeCtr := rfl

/-! ### modJob -/

@[simp] theorem Sw.modJob_glb (n : Nat) (f : Job → Job) : (s.modJob n f).glb = s.glb := rfl
@[simp] theorem Sw.modJob_pwr (n : Nat) (f : Job → Job) : (s.modJob n f).pwr = s.pwr := rfl
@[simp] theorem Sw.modJob_wear (n : Nat) (f : Job → Job) : (s.modJob n f).wear = s.wear := rfl
@[simp] theorem Sw.modJob_sec (n : Nat) (f : Job → Job) : (s.modJob n f).sec = s.sec := rfl
@[simp] theorem Sw.modJob_time (n : Nat) (f : Job → Job) : (s.modJob n f).time = s.time := rfl
@[simp] theorem Sw.modJob_sync (n : Nat) (f : Job → Job) : (s.modJob n f).sync = s.sync := rfl
@[simp] theorem Sw.modJob_ports (n : Nat) (f : Job → Job) : (s.modJob n f).ports = s.ports := rfl
@[simp] theorem Sw.modJob_quads (n : Nat) (f : Job → Job) : (s.modJob n f).quads = s.quads := rfl
@[simp] theorem Sw.modJob_lanes (n : Nat) (f : Job → Job) : (s.modJob n f).lanes = s.lanes := rfl
@[simp] theorem Sw.modJob_engines (n : Nat) (f : Job → Job) : (s.modJob n f).engines = s.engines := rfl
@[simp] theorem Sw.modJob_sites (n : Nat) (f : Job → Job) : (s.modJob n f).sites = s.sites := rfl
@[simp] theorem Sw.modJob_tiles (n : Nat) (f : Job → Job) : (s.modJob n f).tiles = s.tiles := rfl
@[simp] theorem Sw.modJob_takeovers (n : Nat) (f : Job → Job) : (s.modJob n f).takeovers = s.takeovers := rfl
@[simp] theorem Sw.modJob_hbm (n : Nat) (f : Job → Job) : (s.modJob n f).hbm = s.hbm := rfl
@[simp] theorem Sw.modJob_cxl (n : Nat) (f : Job → Job) : (s.modJob n f).cxl = s.cxl := rfl
@[simp] theorem Sw.modJob_cxlHoldMs (n : Nat) (f : Job → Job) : (s.modJob n f).cxlHoldMs = s.cxlHoldMs := rfl
@[simp] theorem Sw.modJob_cxlGen (n : Nat) (f : Job → Job) : (s.modJob n f).cxlGen = s.cxlGen := rfl
@[simp] theorem Sw.modJob_pool (n : Nat) (f : Job → Job) : (s.modJob n f).pool = s.pool := rfl
@[simp] theorem Sw.modJob_groveC (n : Nat) (f : Job → Job) : (s.modJob n f).groveC = s.groveC := rfl
@[simp] theorem Sw.modJob_ctxs (n : Nat) (f : Job → Job) : (s.modJob n f).ctxs = s.ctxs := rfl
@[simp] theorem Sw.modJob_fab (n : Nat) (f : Job → Job) : (s.modJob n f).fab = s.fab := rfl
@[simp] theorem Sw.modJob_rcv (n : Nat) (f : Job → Job) : (s.modJob n f).rcv = s.rcv := rfl
@[simp] theorem Sw.modJob_kernels (n : Nat) (f : Job → Job) : (s.modJob n f).kernels = s.kernels := rfl
@[simp] theorem Sw.modJob_migQueues (n : Nat) (f : Job → Job) : (s.modJob n f).migQueues = s.migQueues := rfl
@[simp] theorem Sw.modJob_outs (n : Nat) (f : Job → Job) : (s.modJob n f).outs = s.outs := rfl
@[simp] theorem Sw.modJob_freeCtr (n : Nat) (f : Job → Job) : (s.modJob n f).freeCtr = s.freeCtr := rfl

/-! ### mapPorts -/

@[simp] theorem Sw.mapPorts_glb (f : Port → Port) : (s.mapPorts f).glb = s.glb := rfl
@[simp] theorem Sw.mapPorts_pwr (f : Port → Port) : (s.mapPorts f).pwr = s.pwr := rfl
@[simp] theorem Sw.mapPorts_wear (f : Port → Port) : (s.mapPorts f).wear = s.wear := rfl
@[simp] theorem Sw.mapPorts_sec (f : Port → Port) : (s.mapPorts f).sec = s.sec := rfl
@[simp] theorem Sw.mapPorts_time (f : Port → Port) : (s.mapPorts f).time = s.time := rfl
@[simp] theorem Sw.mapPorts_sync (f : Port → Port) : (s.mapPorts f).sync = s.sync := rfl
@[simp] theorem Sw.mapPorts_host (f : Port → Port) : (s.mapPorts f).host = s.host := rfl
@[simp] theorem Sw.mapPorts_ports (f : Port → Port) : (s.mapPorts f).ports = s.ports.mapVals f := rfl
@[simp] theorem Sw.mapPorts_quads (f : Port → Port) : (s.mapPorts f).quads = s.quads := rfl
@[simp] theorem Sw.mapPorts_lanes (f : Port → Port) : (s.mapPorts f).lanes = s.lanes := rfl
@[simp] theorem Sw.mapPorts_engines (f : Port → Port) : (s.mapPorts f).engines = s.engines := rfl
@[simp] theorem Sw.mapPorts_sites (f : Port → Port) : (s.mapPorts f).sites = s.sites := rfl
@[simp] theorem Sw.mapPorts_tiles (f : Port → Port) : (s.mapPorts f).tiles = s.tiles := rfl
@[simp] theorem Sw.mapPorts_takeovers (f : Port → Port) : (s.mapPorts f).takeovers = s.takeovers := rfl
@[simp] theorem Sw.mapPorts_hbm (f : Port → Port) : (s.mapPorts f).hbm = s.hbm := rfl
@[simp] theorem Sw.mapPorts_cxl (f : Port → Port) : (s.mapPorts f).cxl = s.cxl := rfl
@[simp] theorem Sw.mapPorts_cxlHoldMs (f : Port → Port) : (s.mapPorts f).cxlHoldMs = s.cxlHoldMs := rfl
@[simp] theorem Sw.mapPorts_cxlGen (f : Port → Port) : (s.mapPorts f).cxlGen = s.cxlGen := rfl
@[simp] theorem Sw.mapPorts_pool (f : Port → Port) : (s.mapPorts f).pool = s.pool := rfl
@[simp] theorem Sw.mapPorts_groveC (f : Port → Port) : (s.mapPorts f).groveC = s.groveC := rfl
@[simp] theorem Sw.mapPorts_ctxs (f : Port → Port) : (s.mapPorts f).ctxs = s.ctxs := rfl
@[simp] theorem Sw.mapPorts_fab (f : Port → Port) : (s.mapPorts f).fab = s.fab := rfl
@[simp] theorem Sw.mapPorts_rcv (f : Port → Port) : (s.mapPorts f).rcv = s.rcv := rfl
@[simp] theorem Sw.mapPorts_kernels (f : Port → Port) : (s.mapPorts f).kernels = s.kernels := rfl
@[simp] theorem Sw.mapPorts_migQueues (f : Port → Port) : (s.mapPorts f).migQueues = s.migQueues := rfl
@[simp] theorem Sw.mapPorts_outs (f : Port → Port) : (s.mapPorts f).outs = s.outs := rfl
@[simp] theorem Sw.mapPorts_freeCtr (f : Port → Port) : (s.mapPorts f).freeCtr = s.freeCtr := rfl

@[simp] theorem Sw.modRing_host_evqs (n : Nat) (f : Ring → Ring) : (s.modRing n f).host.evqs = s.host.evqs := rfl
@[simp] theorem Sw.modRing_host_jobs (n : Nat) (f : Ring → Ring) : (s.modRing n f).host.jobs = s.host.jobs := rfl
@[simp] theorem Sw.modRing_host_flags (n : Nat) (f : Ring → Ring) : (s.modRing n f).host.flags = s.host.flags := rfl
@[simp] theorem Sw.modRing_host_sysEvq (n : Nat) (f : Ring → Ring) : (s.modRing n f).host.sysEvq = s.host.sysEvq := rfl
@[simp] theorem Sw.modRing_host_sysValid (n : Nat) (f : Ring → Ring) : (s.modRing n f).host.sysValid = s.host.sysValid := rfl
@[simp] theorem Sw.modRing_host_watchdogMs (n : Nat) (f : Ring → Ring) : (s.modRing n f).host.watchdogMs = s.host.watchdogMs := rfl
@[simp] theorem Sw.modRing_host_areaMask (n : Nat) (f : Ring → Ring) : (s.modRing n f).host.areaMask = s.host.areaMask := rfl
@[simp] theorem Sw.modRing_host_vfEnable (n : Nat) (f : Ring → Ring) : (s.modRing n f).host.vfEnable = s.host.vfEnable := rfl
@[simp] theorem Sw.modRing_host_numVfs (n : Nat) (f : Ring → Ring) : (s.modRing n f).host.numVfs = s.host.numVfs := rfl
@[simp] theorem Sw.modRing_host_perstN (n : Nat) (f : Ring → Ring) : (s.modRing n f).host.perstN = s.host.perstN := rfl
@[simp] theorem Sw.modRing_host_linkUp (n : Nat) (f : Ring → Ring) : (s.modRing n f).host.linkUp = s.host.linkUp := rfl
@[simp] theorem Sw.modRing_host_msix (n : Nat) (f : Ring → Ring) : (s.modRing n f).host.msix = s.host.msix := rfl
@[simp] theorem Sw.modRing_host_held (n : Nat) (f : Ring → Ring) : (s.modRing n f).host.held = s.host.held := rfl
@[simp] theorem Sw.modRing_host_last0106 (n : Nat) (f : Ring → Ring) : (s.modRing n f).host.last0106 = s.host.last0106 := rfl
@[simp] theorem Sw.modRing_host_nextTok (n : Nat) (f : Ring → Ring) : (s.modRing n f).host.nextTok = s.host.nextTok := rfl

@[simp] theorem Sw.modEvq_host_rings (n : Nat) (f : Evq → Evq) : (s.modEvq n f).host.rings = s.host.rings := rfl
@[simp] theorem Sw.modEvq_host_jobs (n : Nat) (f : Evq → Evq) : (s.modEvq n f).host.jobs = s.host.jobs := rfl
@[simp] theorem Sw.modEvq_host_flags (n : Nat) (f : Evq → Evq) : (s.modEvq n f).host.flags = s.host.flags := rfl
@[simp] theorem Sw.modEvq_host_sysEvq (n : Nat) (f : Evq → Evq) : (s.modEvq n f).host.sysEvq = s.host.sysEvq := rfl
@[simp] theorem Sw.modEvq_host_sysValid (n : Nat) (f : Evq → Evq) : (s.modEvq n f).host.sysValid = s.host.sysValid := rfl
@[simp] theorem Sw.modEvq_host_watchdogMs (n : Nat) (f : Evq → Evq) : (s.modEvq n f).host.watchdogMs = s.host.watchdogMs := rfl
@[simp] theorem Sw.modEvq_host_areaMask (n : Nat) (f : Evq → Evq) : (s.modEvq n f).host.areaMask = s.host.areaMask := rfl
@[simp] theorem Sw.modEvq_host_vfEnable (n : Nat) (f : Evq → Evq) : (s.modEvq n f).host.vfEnable = s.host.vfEnable := rfl
@[simp] theorem Sw.modEvq_host_numVfs (n : Nat) (f : Evq → Evq) : (s.modEvq n f).host.numVfs = s.host.numVfs := rfl
@[simp] theorem Sw.modEvq_host_perstN (n : Nat) (f : Evq → Evq) : (s.modEvq n f).host.perstN = s.host.perstN := rfl
@[simp] theorem Sw.modEvq_host_linkUp (n : Nat) (f : Evq → Evq) : (s.modEvq n f).host.linkUp = s.host.linkUp := rfl
@[simp] theorem Sw.modEvq_host_msix (n : Nat) (f : Evq → Evq) : (s.modEvq n f).host.msix = s.host.msix := rfl
@[simp] theorem Sw.modEvq_host_held (n : Nat) (f : Evq → Evq) : (s.modEvq n f).host.held = s.host.held := rfl
@[simp] theorem Sw.modEvq_host_last0106 (n : Nat) (f : Evq → Evq) : (s.modEvq n f).host.last0106 = s.host.last0106 := rfl
@[simp] theorem Sw.modEvq_host_nextTok (n : Nat) (f : Evq → Evq) : (s.modEvq n f).host.nextTok = s.host.nextTok := rfl

@[simp] theorem Sw.modJob_host_rings (n : Nat) (f : Job → Job) : (s.modJob n f).host.rings = s.host.rings := rfl
@[simp] theorem Sw.modJob_host_evqs (n : Nat) (f : Job → Job) : (s.modJob n f).host.evqs = s.host.evqs := rfl
@[simp] theorem Sw.modJob_host_flags (n : Nat) (f : Job → Job) : (s.modJob n f).host.flags = s.host.flags := rfl
@[simp] theorem Sw.modJob_host_sysEvq (n : Nat) (f : Job → Job) : (s.modJob n f).host.sysEvq = s.host.sysEvq := rfl
@[simp] theorem Sw.modJob_host_sysValid (n : Nat) (f : Job → Job) : (s.modJob n f).host.sysValid = s.host.sysValid := rfl
@[simp] theorem Sw.modJob_host_watchdogMs (n : Nat) (f : Job → Job) : (s.modJob n f).host.watchdogMs = s.host.watchdogMs := rfl
@[simp] theorem Sw.modJob_host_areaMask (n : Nat) (f : Job → Job) : (s.modJob n f).host.areaMask = s.host.areaMask := rfl
@[simp] theorem Sw.modJob_host_vfEnable (n : Nat) (f : Job → Job) : (s.modJob n f).host.vfEnable = s.host.vfEnable := rfl
@[simp] theorem Sw.modJob_host_numVfs (n : Nat) (f : Job → Job) : (s.modJob n f).host.numVfs = s.host.numVfs := rfl
@[simp] theorem Sw.modJob_host_perstN (n : Nat) (f : Job → Job) : (s.modJob n f).host.perstN = s.host.perstN := rfl
@[simp] theorem Sw.modJob_host_linkUp (n : Nat) (f : Job → Job) : (s.modJob n f).host.linkUp = s.host.linkUp := rfl
@[simp] theorem Sw.modJob_host_msix (n : Nat) (f : Job → Job) : (s.modJob n f).host.msix = s.host.msix := rfl
@[simp] theorem Sw.modJob_host_held (n : Nat) (f : Job → Job) : (s.modJob n f).host.held = s.host.held := rfl
@[simp] theorem Sw.modJob_host_last0106 (n : Nat) (f : Job → Job) : (s.modJob n f).host.last0106 = s.host.last0106 := rfl
@[simp] theorem Sw.modJob_host_nextTok (n : Nat) (f : Job → Job) : (s.modJob n f).host.nextTok = s.host.nextTok := rfl

/-! ### modPort -/

@[simp] theorem Sw.modPort_glb (n : Nat) (f : Port → Port) : (s.modPort n f).glb = s.glb := by
  unfold Sw.modPort; split <;> rfl
@[simp] theorem Sw.modPort_pwr (n : Nat) (f : Port → Port) : (s.modPort n f).pwr = s.pwr := by
  unfold Sw.modPort; split <;> rfl
@[simp] theorem Sw.modPort_wear (n : Nat) (f : Port → Port) : (s.modPort n f).wear = s.wear := by
  unfold Sw.modPort; split <;> rfl
@[simp] theorem Sw.modPort_sec (n : Nat) (f : Port → Port) : (s.modPort n f).sec = s.sec := by
  unfold Sw.modPort; split <;> rfl
@[simp] theorem Sw.modPort_time (n : Nat) (f : Port → Port) : (s.modPort n f).time = s.time := by
  unfold Sw.modPort; split <;> rfl
@[simp] theorem Sw.modPort_sync (n : Nat) (f : Port → Port) : (s.modPort n f).sync = s.sync := by
  unfold Sw.modPort; split <;> rfl
@[simp] theorem Sw.modPort_host (n : Nat) (f : Port → Port) : (s.modPort n f).host = s.host := by
  unfold Sw.modPort; split <;> rfl
@[simp] theorem Sw.modPort_quads (n : Nat) (f : Port → Port) : (s.modPort n f).quads = s.quads := by
  unfold Sw.modPort; split <;> rfl
@[simp] theorem Sw.modPort_lanes (n : Nat) (f : Port → Port) : (s.modPort n f).lanes = s.lanes := by
  unfold Sw.modPort; split <;> rfl
@[simp] theorem Sw.modPort_engines (n : Nat) (f : Port → Port) : (s.modPort n f).engines = s.engines := by
  unfold Sw.modPort; split <;> rfl
@[simp] theorem Sw.modPort_sites (n : Nat) (f : Port → Port) : (s.modPort n f).sites = s.sites := by
  unfold Sw.modPort; split <;> rfl
@[simp] theorem Sw.modPort_tiles (n : Nat) (f : Port → Port) : (s.modPort n f).tiles = s.tiles := by
  unfold Sw.modPort; split <;> rfl
@[simp] theorem Sw.modPort_takeovers (n : Nat) (f : Port → Port) : (s.modPort n f).takeovers = s.takeovers := by
  unfold Sw.modPort; split <;> rfl
@[simp] theorem Sw.modPort_hbm (n : Nat) (f : Port → Port) : (s.modPort n f).hbm = s.hbm := by
  unfold Sw.modPort; split <;> rfl
@[simp] theorem Sw.modPort_cxl (n : Nat) (f : Port → Port) : (s.modPort n f).cxl = s.cxl := by
  unfold Sw.modPort; split <;> rfl
@[simp] theorem Sw.modPort_cxlHoldMs (n : Nat) (f : Port → Port) : (s.modPort n f).cxlHoldMs = s.cxlHoldMs := by
  unfold Sw.modPort; split <;> rfl
@[simp] theorem Sw.modPort_cxlGen (n : Nat) (f : Port → Port) : (s.modPort n f).cxlGen = s.cxlGen := by
  unfold Sw.modPort; split <;> rfl
@[simp] theorem Sw.modPort_pool (n : Nat) (f : Port → Port) : (s.modPort n f).pool = s.pool := by
  unfold Sw.modPort; split <;> rfl
@[simp] theorem Sw.modPort_groveC (n : Nat) (f : Port → Port) : (s.modPort n f).groveC = s.groveC := by
  unfold Sw.modPort; split <;> rfl
@[simp] theorem Sw.modPort_ctxs (n : Nat) (f : Port → Port) : (s.modPort n f).ctxs = s.ctxs := by
  unfold Sw.modPort; split <;> rfl
@[simp] theorem Sw.modPort_fab (n : Nat) (f : Port → Port) : (s.modPort n f).fab = s.fab := by
  unfold Sw.modPort; split <;> rfl
@[simp] theorem Sw.modPort_rcv (n : Nat) (f : Port → Port) : (s.modPort n f).rcv = s.rcv := by
  unfold Sw.modPort; split <;> rfl
@[simp] theorem Sw.modPort_kernels (n : Nat) (f : Port → Port) : (s.modPort n f).kernels = s.kernels := by
  unfold Sw.modPort; split <;> rfl
@[simp] theorem Sw.modPort_migQueues (n : Nat) (f : Port → Port) : (s.modPort n f).migQueues = s.migQueues := by
  unfold Sw.modPort; split <;> rfl
@[simp] theorem Sw.modPort_outs (n : Nat) (f : Port → Port) : (s.modPort n f).outs = s.outs := by
  unfold Sw.modPort; split <;> rfl
@[simp] theorem Sw.modPort_freeCtr (n : Nat) (f : Port → Port) : (s.modPort n f).freeCtr = s.freeCtr := by
  unfold Sw.modPort; split <;> rfl
@[simp] theorem Sw.modReg_glb (n : Nat) (f : PortReg → PortReg) : (s.modReg n f).glb = s.glb := s.modPort_glb n _
@[simp] theorem Sw.modReg_pwr (n : Nat) (f : PortReg → PortReg) : (s.modReg n f).pwr = s.pwr := s.modPort_pwr n _
@[simp] theorem Sw.modReg_wear (n : Nat) (f : PortReg → PortReg) : (s.modReg n f).wear = s.wear := s.modPort_wear n _
@[simp] theorem Sw.modReg_sec (n : Nat) (f : PortReg → PortReg) : (s.modReg n f).sec = s.sec := s.modPort_sec n _
@[simp] theorem Sw.modReg_time (n : Nat) (f : PortReg → PortReg) : (s.modReg n f).time = s.time := s.modPort_time n _
@[simp] theorem Sw.modReg_sync (n : Nat) (f : PortReg → PortReg) : (s.modReg n f).sync = s.sync := s.modPort_sync n _
@[simp] theorem Sw.modReg_host (n : Nat) (f : PortReg → PortReg) : (s.modReg n f).host = s.host := s.modPort_host n _
@[simp] theorem Sw.modReg_quads (n : Nat) (f : PortReg → PortReg) : (s.modReg n f).quads = s.quads := s.modPort_quads n _
@[simp] theorem Sw.modReg_lanes (n : Nat) (f : PortReg → PortReg) : (s.modReg n f).lanes = s.lanes := s.modPort_lanes n _
@[simp] theorem Sw.modReg_engines (n : Nat) (f : PortReg → PortReg) : (s.modReg n f).engines = s.engines := s.modPort_engines n _
@[simp] theorem Sw.modReg_sites (n : Nat) (f : PortReg → PortReg) : (s.modReg n f).sites = s.sites := s.modPort_sites n _
@[simp] theorem Sw.modReg_tiles (n : Nat) (f : PortReg → PortReg) : (s.modReg n f).tiles = s.tiles := s.modPort_tiles n _
@[simp] theorem Sw.modReg_takeovers (n : Nat) (f : PortReg → PortReg) : (s.modReg n f).takeovers = s.takeovers := s.modPort_takeovers n _
@[simp] theorem Sw.modReg_hbm (n : Nat) (f : PortReg → PortReg) : (s.modReg n f).hbm = s.hbm := s.modPort_hbm n _
@[simp] theorem Sw.modReg_cxl (n : Nat) (f : PortReg → PortReg) : (s.modReg n f).cxl = s.cxl := s.modPort_cxl n _
@[simp] theorem Sw.modReg_cxlHoldMs (n : Nat) (f : PortReg → PortReg) : (s.modReg n f).cxlHoldMs = s.cxlHoldMs := s.modPort_cxlHoldMs n _
@[simp] theorem Sw.modReg_cxlGen (n : Nat) (f : PortReg → PortReg) : (s.modReg n f).cxlGen = s.cxlGen := s.modPort_cxlGen n _
@[simp] theorem Sw.modReg_pool (n : Nat) (f : PortReg → PortReg) : (s.modReg n f).pool = s.pool := s.modPort_pool n _
@[simp] theorem Sw.modReg_groveC (n : Nat) (f : PortReg → PortReg) : (s.modReg n f).groveC = s.groveC := s.modPort_groveC n _
@[simp] theorem Sw.modReg_ctxs (n : Nat) (f : PortReg → PortReg) : (s.modReg n f).ctxs = s.ctxs := s.modPort_ctxs n _
@[simp] theorem Sw.modReg_fab (n : Nat) (f : PortReg → PortReg) : (s.modReg n f).fab = s.fab := s.modPort_fab n _
@[simp] theorem Sw.modReg_rcv (n : Nat) (f : PortReg → PortReg) : (s.modReg n f).rcv = s.rcv := s.modPort_rcv n _
@[simp] theorem Sw.modReg_kernels (n : Nat) (f : PortReg → PortReg) : (s.modReg n f).kernels = s.kernels := s.modPort_kernels n _
@[simp] theorem Sw.modReg_migQueues (n : Nat) (f : PortReg → PortReg) : (s.modReg n f).migQueues = s.migQueues := s.modPort_migQueues n _
@[simp] theorem Sw.modReg_outs (n : Nat) (f : PortReg → PortReg) : (s.modReg n f).outs = s.outs := s.modPort_outs n _
@[simp] theorem Sw.modReg_freeCtr (n : Nat) (f : PortReg → PortReg) : (s.modReg n f).freeCtr = s.freeCtr := s.modPort_freeCtr n _
@[simp] theorem Sw.modCnt_glb (n : Nat) (f : PortCnt → PortCnt) : (s.modCnt n f).glb = s.glb := s.modPort_glb n _
@[simp] theorem Sw.modCnt_pwr (n : Nat) (f : PortCnt → PortCnt) : (s.modCnt n f).pwr = s.pwr := s.modPort_pwr n _
@[simp] theorem Sw.modCnt_wear (n : Nat) (f : PortCnt → PortCnt) : (s.modCnt n f).wear = s.wear := s.modPort_wear n _
@[simp] theorem Sw.modCnt_sec (n : Nat) (f : PortCnt → PortCnt) : (s.modCnt n f).sec = s.sec := s.modPort_sec n _
@[simp] theorem Sw.modCnt_time (n : Nat) (f : PortCnt → PortCnt) : (s.modCnt n f).time = s.time := s.modPort_time n _
@[simp] theorem Sw.modCnt_sync (n : Nat) (f : PortCnt → PortCnt) : (s.modCnt n f).sync = s.sync := s.modPort_sync n _
@[simp] theorem Sw.modCnt_host (n : Nat) (f : PortCnt → PortCnt) : (s.modCnt n f).host = s.host := s.modPort_host n _
@[simp] theorem Sw.modCnt_quads (n : Nat) (f : PortCnt → PortCnt) : (s.modCnt n f).quads = s.quads := s.modPort_quads n _
@[simp] theorem Sw.modCnt_lanes (n : Nat) (f : PortCnt → PortCnt) : (s.modCnt n f).lanes = s.lanes := s.modPort_lanes n _
@[simp] theorem Sw.modCnt_engines (n : Nat) (f : PortCnt → PortCnt) : (s.modCnt n f).engines = s.engines := s.modPort_engines n _
@[simp] theorem Sw.modCnt_sites (n : Nat) (f : PortCnt → PortCnt) : (s.modCnt n f).sites = s.sites := s.modPort_sites n _
@[simp] theorem Sw.modCnt_tiles (n : Nat) (f : PortCnt → PortCnt) : (s.modCnt n f).tiles = s.tiles := s.modPort_tiles n _
@[simp] theorem Sw.modCnt_takeovers (n : Nat) (f : PortCnt → PortCnt) : (s.modCnt n f).takeovers = s.takeovers := s.modPort_takeovers n _
@[simp] theorem Sw.modCnt_hbm (n : Nat) (f : PortCnt → PortCnt) : (s.modCnt n f).hbm = s.hbm := s.modPort_hbm n _
@[simp] theorem Sw.modCnt_cxl (n : Nat) (f : PortCnt → PortCnt) : (s.modCnt n f).cxl = s.cxl := s.modPort_cxl n _
@[simp] theorem Sw.modCnt_cxlHoldMs (n : Nat) (f : PortCnt → PortCnt) : (s.modCnt n f).cxlHoldMs = s.cxlHoldMs := s.modPort_cxlHoldMs n _
@[simp] theorem Sw.modCnt_cxlGen (n : Nat) (f : PortCnt → PortCnt) : (s.modCnt n f).cxlGen = s.cxlGen := s.modPort_cxlGen n _
@[simp] theorem Sw.modCnt_pool (n : Nat) (f : PortCnt → PortCnt) : (s.modCnt n f).pool = s.pool := s.modPort_pool n _
@[simp] theorem Sw.modCnt_groveC (n : Nat) (f : PortCnt → PortCnt) : (s.modCnt n f).groveC = s.groveC := s.modPort_groveC n _
@[simp] theorem Sw.modCnt_ctxs (n : Nat) (f : PortCnt → PortCnt) : (s.modCnt n f).ctxs = s.ctxs := s.modPort_ctxs n _
@[simp] theorem Sw.modCnt_fab (n : Nat) (f : PortCnt → PortCnt) : (s.modCnt n f).fab = s.fab := s.modPort_fab n _
@[simp] theorem Sw.modCnt_rcv (n : Nat) (f : PortCnt → PortCnt) : (s.modCnt n f).rcv = s.rcv := s.modPort_rcv n _
@[simp] theorem Sw.modCnt_kernels (n : Nat) (f : PortCnt → PortCnt) : (s.modCnt n f).kernels = s.kernels := s.modPort_kernels n _
@[simp] theorem Sw.modCnt_migQueues (n : Nat) (f : PortCnt → PortCnt) : (s.modCnt n f).migQueues = s.migQueues := s.modPort_migQueues n _
@[simp] theorem Sw.modCnt_outs (n : Nat) (f : PortCnt → PortCnt) : (s.modCnt n f).outs = s.outs := s.modPort_outs n _
@[simp] theorem Sw.modCnt_freeCtr (n : Nat) (f : PortCnt → PortCnt) : (s.modCnt n f).freeCtr = s.freeCtr := s.modPort_freeCtr n _
@[simp] theorem Sw.modLink_glb (n : Nat) (f : PortLink → PortLink) : (s.modLink n f).glb = s.glb := s.modPort_glb n _
@[simp] theorem Sw.modLink_pwr (n : Nat) (f : PortLink → PortLink) : (s.modLink n f).pwr = s.pwr := s.modPort_pwr n _
@[simp] theorem Sw.modLink_wear (n : Nat) (f : PortLink → PortLink) : (s.modLink n f).wear = s.wear := s.modPort_wear n _
@[simp] theorem Sw.modLink_sec (n : Nat) (f : PortLink → PortLink) : (s.modLink n f).sec = s.sec := s.modPort_sec n _
@[simp] theorem Sw.modLink_time (n : Nat) (f : PortLink → PortLink) : (s.modLink n f).time = s.time := s.modPort_time n _
@[simp] theorem Sw.modLink_sync (n : Nat) (f : PortLink → PortLink) : (s.modLink n f).sync = s.sync := s.modPort_sync n _
@[simp] theorem Sw.modLink_host (n : Nat) (f : PortLink → PortLink) : (s.modLink n f).host = s.host := s.modPort_host n _
@[simp] theorem Sw.modLink_quads (n : Nat) (f : PortLink → PortLink) : (s.modLink n f).quads = s.quads := s.modPort_quads n _
@[simp] theorem Sw.modLink_lanes (n : Nat) (f : PortLink → PortLink) : (s.modLink n f).lanes = s.lanes := s.modPort_lanes n _
@[simp] theorem Sw.modLink_engines (n : Nat) (f : PortLink → PortLink) : (s.modLink n f).engines = s.engines := s.modPort_engines n _
@[simp] theorem Sw.modLink_sites (n : Nat) (f : PortLink → PortLink) : (s.modLink n f).sites = s.sites := s.modPort_sites n _
@[simp] theorem Sw.modLink_tiles (n : Nat) (f : PortLink → PortLink) : (s.modLink n f).tiles = s.tiles := s.modPort_tiles n _
@[simp] theorem Sw.modLink_takeovers (n : Nat) (f : PortLink → PortLink) : (s.modLink n f).takeovers = s.takeovers := s.modPort_takeovers n _
@[simp] theorem Sw.modLink_hbm (n : Nat) (f : PortLink → PortLink) : (s.modLink n f).hbm = s.hbm := s.modPort_hbm n _
@[simp] theorem Sw.modLink_cxl (n : Nat) (f : PortLink → PortLink) : (s.modLink n f).cxl = s.cxl := s.modPort_cxl n _
@[simp] theorem Sw.modLink_cxlHoldMs (n : Nat) (f : PortLink → PortLink) : (s.modLink n f).cxlHoldMs = s.cxlHoldMs := s.modPort_cxlHoldMs n _
@[simp] theorem Sw.modLink_cxlGen (n : Nat) (f : PortLink → PortLink) : (s.modLink n f).cxlGen = s.cxlGen := s.modPort_cxlGen n _
@[simp] theorem Sw.modLink_pool (n : Nat) (f : PortLink → PortLink) : (s.modLink n f).pool = s.pool := s.modPort_pool n _
@[simp] theorem Sw.modLink_groveC (n : Nat) (f : PortLink → PortLink) : (s.modLink n f).groveC = s.groveC := s.modPort_groveC n _
@[simp] theorem Sw.modLink_ctxs (n : Nat) (f : PortLink → PortLink) : (s.modLink n f).ctxs = s.ctxs := s.modPort_ctxs n _
@[simp] theorem Sw.modLink_fab (n : Nat) (f : PortLink → PortLink) : (s.modLink n f).fab = s.fab := s.modPort_fab n _
@[simp] theorem Sw.modLink_rcv (n : Nat) (f : PortLink → PortLink) : (s.modLink n f).rcv = s.rcv := s.modPort_rcv n _
@[simp] theorem Sw.modLink_kernels (n : Nat) (f : PortLink → PortLink) : (s.modLink n f).kernels = s.kernels := s.modPort_kernels n _
@[simp] theorem Sw.modLink_migQueues (n : Nat) (f : PortLink → PortLink) : (s.modLink n f).migQueues = s.migQueues := s.modPort_migQueues n _
@[simp] theorem Sw.modLink_outs (n : Nat) (f : PortLink → PortLink) : (s.modLink n f).outs = s.outs := s.modPort_outs n _
@[simp] theorem Sw.modLink_freeCtr (n : Nat) (f : PortLink → PortLink) : (s.modLink n f).freeCtr = s.freeCtr := s.modPort_freeCtr n _
@[simp] theorem Sw.modQ_glb (n : Nat) (f : PortQ → PortQ) : (s.modQ n f).glb = s.glb := s.modPort_glb n _
@[simp] theorem Sw.modQ_pwr (n : Nat) (f : PortQ → PortQ) : (s.modQ n f).pwr = s.pwr := s.modPort_pwr n _
@[simp] theorem Sw.modQ_wear (n : Nat) (f : PortQ → PortQ) : (s.modQ n f).wear = s.wear := s.modPort_wear n _
@[simp] theorem Sw.modQ_sec (n : Nat) (f : PortQ → PortQ) : (s.modQ n f).sec = s.sec := s.modPort_sec n _
@[simp] theorem Sw.modQ_time (n : Nat) (f : PortQ → PortQ) : (s.modQ n f).time = s.time := s.modPort_time n _
@[simp] theorem Sw.modQ_sync (n : Nat) (f : PortQ → PortQ) : (s.modQ n f).sync = s.sync := s.modPort_sync n _
@[simp] theorem Sw.modQ_host (n : Nat) (f : PortQ → PortQ) : (s.modQ n f).host = s.host := s.modPort_host n _
@[simp] theorem Sw.modQ_quads (n : Nat) (f : PortQ → PortQ) : (s.modQ n f).quads = s.quads := s.modPort_quads n _
@[simp] theorem Sw.modQ_lanes (n : Nat) (f : PortQ → PortQ) : (s.modQ n f).lanes = s.lanes := s.modPort_lanes n _
@[simp] theorem Sw.modQ_engines (n : Nat) (f : PortQ → PortQ) : (s.modQ n f).engines = s.engines := s.modPort_engines n _
@[simp] theorem Sw.modQ_sites (n : Nat) (f : PortQ → PortQ) : (s.modQ n f).sites = s.sites := s.modPort_sites n _
@[simp] theorem Sw.modQ_tiles (n : Nat) (f : PortQ → PortQ) : (s.modQ n f).tiles = s.tiles := s.modPort_tiles n _
@[simp] theorem Sw.modQ_takeovers (n : Nat) (f : PortQ → PortQ) : (s.modQ n f).takeovers = s.takeovers := s.modPort_takeovers n _
@[simp] theorem Sw.modQ_hbm (n : Nat) (f : PortQ → PortQ) : (s.modQ n f).hbm = s.hbm := s.modPort_hbm n _
@[simp] theorem Sw.modQ_cxl (n : Nat) (f : PortQ → PortQ) : (s.modQ n f).cxl = s.cxl := s.modPort_cxl n _
@[simp] theorem Sw.modQ_cxlHoldMs (n : Nat) (f : PortQ → PortQ) : (s.modQ n f).cxlHoldMs = s.cxlHoldMs := s.modPort_cxlHoldMs n _
@[simp] theorem Sw.modQ_cxlGen (n : Nat) (f : PortQ → PortQ) : (s.modQ n f).cxlGen = s.cxlGen := s.modPort_cxlGen n _
@[simp] theorem Sw.modQ_pool (n : Nat) (f : PortQ → PortQ) : (s.modQ n f).pool = s.pool := s.modPort_pool n _
@[simp] theorem Sw.modQ_groveC (n : Nat) (f : PortQ → PortQ) : (s.modQ n f).groveC = s.groveC := s.modPort_groveC n _
@[simp] theorem Sw.modQ_ctxs (n : Nat) (f : PortQ → PortQ) : (s.modQ n f).ctxs = s.ctxs := s.modPort_ctxs n _
@[simp] theorem Sw.modQ_fab (n : Nat) (f : PortQ → PortQ) : (s.modQ n f).fab = s.fab := s.modPort_fab n _
@[simp] theorem Sw.modQ_rcv (n : Nat) (f : PortQ → PortQ) : (s.modQ n f).rcv = s.rcv := s.modPort_rcv n _
@[simp] theorem Sw.modQ_kernels (n : Nat) (f : PortQ → PortQ) : (s.modQ n f).kernels = s.kernels := s.modPort_kernels n _
@[simp] theorem Sw.modQ_migQueues (n : Nat) (f : PortQ → PortQ) : (s.modQ n f).migQueues = s.migQueues := s.modPort_migQueues n _
@[simp] theorem Sw.modQ_outs (n : Nat) (f : PortQ → PortQ) : (s.modQ n f).outs = s.outs := s.modPort_outs n _
@[simp] theorem Sw.modQ_freeCtr (n : Nat) (f : PortQ → PortQ) : (s.modQ n f).freeCtr = s.freeCtr := s.modPort_freeCtr n _
@[simp] theorem Sw.modPSec_glb (n : Nat) (f : PortSec → PortSec) : (s.modPSec n f).glb = s.glb := s.modPort_glb n _
@[simp] theorem Sw.modPSec_pwr (n : Nat) (f : PortSec → PortSec) : (s.modPSec n f).pwr = s.pwr := s.modPort_pwr n _
@[simp] theorem Sw.modPSec_wear (n : Nat) (f : PortSec → PortSec) : (s.modPSec n f).wear = s.wear := s.modPort_wear n _
@[simp] theorem Sw.modPSec_sec (n : Nat) (f : PortSec → PortSec) : (s.modPSec n f).sec = s.sec := s.modPort_sec n _
@[simp] theorem Sw.modPSec_time (n : Nat) (f : PortSec → PortSec) : (s.modPSec n f).time = s.time := s.modPort_time n _
@[simp] theorem Sw.modPSec_sync (n : Nat) (f : PortSec → PortSec) : (s.modPSec n f).sync = s.sync := s.modPort_sync n _
@[simp] theorem Sw.modPSec_host (n : Nat) (f : PortSec → PortSec) : (s.modPSec n f).host = s.host := s.modPort_host n _
@[simp] theorem Sw.modPSec_quads (n : Nat) (f : PortSec → PortSec) : (s.modPSec n f).quads = s.quads := s.modPort_quads n _
@[simp] theorem Sw.modPSec_lanes (n : Nat) (f : PortSec → PortSec) : (s.modPSec n f).lanes = s.lanes := s.modPort_lanes n _
@[simp] theorem Sw.modPSec_engines (n : Nat) (f : PortSec → PortSec) : (s.modPSec n f).engines = s.engines := s.modPort_engines n _
@[simp] theorem Sw.modPSec_sites (n : Nat) (f : PortSec → PortSec) : (s.modPSec n f).sites = s.sites := s.modPort_sites n _
@[simp] theorem Sw.modPSec_tiles (n : Nat) (f : PortSec → PortSec) : (s.modPSec n f).tiles = s.tiles := s.modPort_tiles n _
@[simp] theorem Sw.modPSec_takeovers (n : Nat) (f : PortSec → PortSec) : (s.modPSec n f).takeovers = s.takeovers := s.modPort_takeovers n _
@[simp] theorem Sw.modPSec_hbm (n : Nat) (f : PortSec → PortSec) : (s.modPSec n f).hbm = s.hbm := s.modPort_hbm n _
@[simp] theorem Sw.modPSec_cxl (n : Nat) (f : PortSec → PortSec) : (s.modPSec n f).cxl = s.cxl := s.modPort_cxl n _
@[simp] theorem Sw.modPSec_cxlHoldMs (n : Nat) (f : PortSec → PortSec) : (s.modPSec n f).cxlHoldMs = s.cxlHoldMs := s.modPort_cxlHoldMs n _
@[simp] theorem Sw.modPSec_cxlGen (n : Nat) (f : PortSec → PortSec) : (s.modPSec n f).cxlGen = s.cxlGen := s.modPort_cxlGen n _
@[simp] theorem Sw.modPSec_pool (n : Nat) (f : PortSec → PortSec) : (s.modPSec n f).pool = s.pool := s.modPort_pool n _
@[simp] theorem Sw.modPSec_groveC (n : Nat) (f : PortSec → PortSec) : (s.modPSec n f).groveC = s.groveC := s.modPort_groveC n _
@[simp] theorem Sw.modPSec_ctxs (n : Nat) (f : PortSec → PortSec) : (s.modPSec n f).ctxs = s.ctxs := s.modPort_ctxs n _
@[simp] theorem Sw.modPSec_fab (n : Nat) (f : PortSec → PortSec) : (s.modPSec n f).fab = s.fab := s.modPort_fab n _
@[simp] theorem Sw.modPSec_rcv (n : Nat) (f : PortSec → PortSec) : (s.modPSec n f).rcv = s.rcv := s.modPort_rcv n _
@[simp] theorem Sw.modPSec_kernels (n : Nat) (f : PortSec → PortSec) : (s.modPSec n f).kernels = s.kernels := s.modPort_kernels n _
@[simp] theorem Sw.modPSec_migQueues (n : Nat) (f : PortSec → PortSec) : (s.modPSec n f).migQueues = s.migQueues := s.modPort_migQueues n _
@[simp] theorem Sw.modPSec_outs (n : Nat) (f : PortSec → PortSec) : (s.modPSec n f).outs = s.outs := s.modPort_outs n _
@[simp] theorem Sw.modPSec_freeCtr (n : Nat) (f : PortSec → PortSec) : (s.modPSec n f).freeCtr = s.freeCtr := s.modPort_freeCtr n _

/-! ### Reading a unit after a change to one of its kind -/

theorem Sw.modQuad_at (n k : Nat) (f : QuadPort → QuadPort) : (s.modQuad n f).quad k = if k = n then f (s.quad n) else s.quad k :=
  SMap.getD_set n k _ _ _
@[simp] theorem Sw.modQuad_self (n : Nat) (f : QuadPort → QuadPort) : (s.modQuad n f).quad n = f (s.quad n) := by simp [Sw.modQuad_at]
theorem Sw.modQuad_others (n : Nat) (f : QuadPort → QuadPort) {k : Nat} (h : k ≠ n) : (s.modQuad n f).quad k = s.quad k := by simp [Sw.modQuad_at, h]
theorem Sw.modLane_at (n k : Nat) (f : Lane → Lane) : (s.modLane n f).lane k = if k = n then f (s.lane n) else s.lane k :=
  SMap.getD_set n k _ _ _
@[simp] theorem Sw.modLane_self (n : Nat) (f : Lane → Lane) : (s.modLane n f).lane n = f (s.lane n) := by simp [Sw.modLane_at]
theorem Sw.modLane_others (n : Nat) (f : Lane → Lane) {k : Nat} (h : k ≠ n) : (s.modLane n f).lane k = s.lane k := by simp [Sw.modLane_at, h]
theorem Sw.modEngine_at (n k : Nat) (f : Engine → Engine) : (s.modEngine n f).engine k = if k = n then f (s.engine n) else s.engine k :=
  SMap.getD_set n k _ _ _
@[simp] theorem Sw.modEngine_self (n : Nat) (f : Engine → Engine) : (s.modEngine n f).engine n = f (s.engine n) := by simp [Sw.modEngine_at]
theorem Sw.modEngine_others (n : Nat) (f : Engine → Engine) {k : Nat} (h : k ≠ n) : (s.modEngine n f).engine k = s.engine k := by simp [Sw.modEngine_at, h]
theorem Sw.modSite_at (n k : Nat) (f : Site → Site) : (s.modSite n f).site k = if k = n then f (s.site n) else s.site k :=
  SMap.getD_set n k _ _ _
@[simp] theorem Sw.modSite_self (n : Nat) (f : Site → Site) : (s.modSite n f).site n = f (s.site n) := by simp [Sw.modSite_at]
theorem Sw.modSite_others (n : Nat) (f : Site → Site) {k : Nat} (h : k ≠ n) : (s.modSite n f).site k = s.site k := by simp [Sw.modSite_at, h]
theorem Sw.modTile_at (n k : Nat) (f : Tile → Tile) : (s.modTile n f).tile k = if k = n then f (s.tile n) else s.tile k :=
  SMap.getD_set n k _ _ _
@[simp] theorem Sw.modTile_self (n : Nat) (f : Tile → Tile) : (s.modTile n f).tile n = f (s.tile n) := by simp [Sw.modTile_at]
theorem Sw.modTile_others (n : Nat) (f : Tile → Tile) {k : Nat} (h : k ≠ n) : (s.modTile n f).tile k = s.tile k := by simp [Sw.modTile_at, h]
theorem Sw.modStack_at (n k : Nat) (f : Stack → Stack) : (s.modStack n f).stack k = if k = n then f (s.stack n) else s.stack k :=
  SMap.getD_set n k _ _ _
@[simp] theorem Sw.modStack_self (n : Nat) (f : Stack → Stack) : (s.modStack n f).stack n = f (s.stack n) := by simp [Sw.modStack_at]
theorem Sw.modStack_others (n : Nat) (f : Stack → Stack) {k : Nat} (h : k ≠ n) : (s.modStack n f).stack k = s.stack k := by simp [Sw.modStack_at, h]
theorem Sw.modRoot_at (n k : Nat) (f : Cxl → Cxl) : (s.modRoot n f).root k = if k = n then f (s.root n) else s.root k :=
  SMap.getD_set n k _ _ _
@[simp] theorem Sw.modRoot_self (n : Nat) (f : Cxl → Cxl) : (s.modRoot n f).root n = f (s.root n) := by simp [Sw.modRoot_at]
theorem Sw.modRoot_others (n : Nat) (f : Cxl → Cxl) {k : Nat} (h : k ≠ n) : (s.modRoot n f).root k = s.root k := by simp [Sw.modRoot_at, h]
theorem Sw.modRing_at (n k : Nat) (f : Ring → Ring) : (s.modRing n f).ring k = if k = n then f (s.ring n) else s.ring k :=
  SMap.getD_set n k _ _ _
@[simp] theorem Sw.modRing_self (n : Nat) (f : Ring → Ring) : (s.modRing n f).ring n = f (s.ring n) := by simp [Sw.modRing_at]
theorem Sw.modRing_others (n : Nat) (f : Ring → Ring) {k : Nat} (h : k ≠ n) : (s.modRing n f).ring k = s.ring k := by simp [Sw.modRing_at, h]
theorem Sw.modEvq_at (n k : Nat) (f : Evq → Evq) : (s.modEvq n f).evq k = if k = n then f (s.evq n) else s.evq k :=
  SMap.getD_set n k _ _ _
@[simp] theorem Sw.modEvq_self (n : Nat) (f : Evq → Evq) : (s.modEvq n f).evq n = f (s.evq n) := by simp [Sw.modEvq_at]
theorem Sw.modEvq_others (n : Nat) (f : Evq → Evq) {k : Nat} (h : k ≠ n) : (s.modEvq n f).evq k = s.evq k := by simp [Sw.modEvq_at, h]
theorem Sw.modJob_at (n k : Nat) (f : Job → Job) : (s.modJob n f).job k = if k = n then f (s.job n) else s.job k :=
  SMap.getD_set n k _ _ _
@[simp] theorem Sw.modJob_self (n : Nat) (f : Job → Job) : (s.modJob n f).job n = f (s.job n) := by simp [Sw.modJob_at]
theorem Sw.modJob_others (n : Nat) (f : Job → Job) {k : Nat} (h : k ≠ n) : (s.modJob n f).job k = s.job k := by simp [Sw.modJob_at, h]

/-! ### Two changes to one unit are one change -/

theorem Sw.modQuad_twice (n : Nat) (f g : QuadPort → QuadPort) : (s.modQuad n f).modQuad n g = s.modQuad n (fun x => g (f x)) := by
  have h := s.modQuad_self n f
  unfold Sw.modQuad at *
  simp only [h, SMap.set_set]
theorem Sw.modLane_twice (n : Nat) (f g : Lane → Lane) : (s.modLane n f).modLane n g = s.modLane n (fun x => g (f x)) := by
  have h := s.modLane_self n f
  unfold Sw.modLane at *
  simp only [h, SMap.set_set]
theorem Sw.modEngine_twice (n : Nat) (f g : Engine → Engine) : (s.modEngine n f).modEngine n g = s.modEngine n (fun x => g (f x)) := by
  have h := s.modEngine_self n f
  unfold Sw.modEngine at *
  simp only [h, SMap.set_set]
theorem Sw.modSite_twice (n : Nat) (f g : Site → Site) : (s.modSite n f).modSite n g = s.modSite n (fun x => g (f x)) := by
  have h := s.modSite_self n f
  unfold Sw.modSite at *
  simp only [h, SMap.set_set]
theorem Sw.modTile_twice (n : Nat) (f g : Tile → Tile) : (s.modTile n f).modTile n g = s.modTile n (fun x => g (f x)) := by
  have h := s.modTile_self n f
  unfold Sw.modTile at *
  simp only [h, SMap.set_set]
theorem Sw.modStack_twice (n : Nat) (f g : Stack → Stack) : (s.modStack n f).modStack n g = s.modStack n (fun x => g (f x)) := by
  have h := s.modStack_self n f
  unfold Sw.modStack at *
  simp only [h, SMap.set_set]
theorem Sw.modRoot_twice (n : Nat) (f g : Cxl → Cxl) : (s.modRoot n f).modRoot n g = s.modRoot n (fun x => g (f x)) := by
  have h := s.modRoot_self n f
  unfold Sw.modRoot at *
  simp only [h, SMap.set_set]
theorem Sw.modRing_twice (n : Nat) (f g : Ring → Ring) : (s.modRing n f).modRing n g = s.modRing n (fun x => g (f x)) := by
  have h := s.modRing_self n f
  unfold Sw.modRing at *
  unfold Sw.modHost at *
  rw [h]; simp only [SMap.set_set]
theorem Sw.modEvq_twice (n : Nat) (f g : Evq → Evq) : (s.modEvq n f).modEvq n g = s.modEvq n (fun x => g (f x)) := by
  have h := s.modEvq_self n f
  unfold Sw.modEvq at *
  unfold Sw.modHost at *
  rw [h]; simp only [SMap.set_set]
theorem Sw.modJob_twice (n : Nat) (f g : Job → Job) : (s.modJob n f).modJob n g = s.modJob n (fun x => g (f x)) := by
  have h := s.modJob_self n f
  unfold Sw.modJob at *
  unfold Sw.modHost at *
  rw [h]; simp only [SMap.set_set]
@[simp] theorem Sw.setCtx_self (x : Nat) (c : Ctx) : (s.setCtx x c).ctx? x = some c := SMap.find?_set_same x c s.ctxs
theorem Sw.setCtx_others (x : Nat) (c : Ctx) {y : Nat} (h : y ≠ x) : (s.setCtx x c).ctx? y = s.ctx? y := SMap.find?_set_ne h c s.ctxs
theorem Sw.modPort_self {n : Nat} (f : Port → Port) (h : s.portActive n = true) : (s.modPort n f).port n = f (s.port n) := by
  simp [Sw.modPort, h, Sw.port]
theorem Sw.modPort_inactive {n : Nat} (f : Port → Port) (h : s.portActive n = false) : s.modPort n f = s := by
  simp [Sw.modPort, h]
theorem Sw.modPort_others {n k : Nat} (f : Port → Port) (h : k ≠ n) : (s.modPort n f).port k = s.port k := by
  unfold Sw.modPort; split
  · simp only [Sw.port, SMap.getD_set_ne h]; rfl
  · rfl

/-! ### The outcome of a command that acts on the switch -/

theorem lift_sw (f : Sw → Sw) (st : State) : lift f st = .next { st with sw := f st.sw } := rfl

end Sys2Proof.Machine
end

