-- ==== Sys2Proof/Machine/Contacts.lean ====
section
/-! DEFINITION. Where lanes, fibres, laser feeds and contacts lie: the maps of the module's edge and of its contact field (01 R28, R29;
13 R436, R438, R457; 19 R558 to R561). No command acts on them. -/
namespace Sys2Proof.Machine

/-! ### Lanes and fibres (01 R28; 13 R436, R438, R457; 19 R559) -/

/-- Where a global lane runs: its engine and engine lane, its fibre pair, its wavelength (13 R436). -/
structure LanePlace where
  /-- Engine, 0 to 31. -/
  engine : Nat
  /-- Lane of the engine, 0 to 15. -/
  lane : Nat
  /-- Fibre pair, numbered as the four-lane ports are. -/
  pair : Nat
  /-- Fibre of the engine in each direction, 0 to 3. -/
  fibre : Nat
  /-- Wavelength index, 0 to 3. -/
  wave : Nat
  deriving DecidableEq, Repr
/-- The place of lane l (13 R436). -/
def lanePlace (l : Nat) : LanePlace := { engine := l / 16, lane := l % 16, pair := l / 4, fibre := l / 4 % 4, wave := l % 4 }
/-- Centre wavelength of an index, nm (13 R436). -/
def waveNm (w : Nat) : Nat := 1271 + 20 * w
/-- Grove of an engine (01 R28). -/
def engineGrove (e : Nat) : Nat := e / 8
/-- Wavelength indices that port n transmits on in its split mode (13 R438). -/
def Sw.portWaves (s : Sw) (n : Nat) : List Nat := (s.lanesOf n).map (· % 4)
/-- A fibre connector of the module's edges (19 R559). -/
inductive Connector where
  | data (g c : Nat) | laser (g : Nat)
  deriving DecidableEq, Repr
/-- Connector and position of fibre i of engine e, transmit or receive (19 R559). -/
def fibrePosition (e i : Nat) (transmit : Bool) : Connector × Nat :=
  (.data (e / 8) (e % 8 / 2), 8 * (e % 2) + (if transmit then 0 else 4) + i + 1)
/-- Connector and position of the laser input from output o of site m (19 R559). -/
def laserPosition (m o : Nat) : Connector × Nat := (.laser (m / 4), 4 * (m % 4) + o + 1)
/-- A connector is fitted on a variant (19 R559). -/
def Connector.fitted (variant : Nat) : Connector → Bool
  | .data _ c => variant == 0 || decide (c < 2)
  | .laser _ => true

/-! ### The contact field (19 R558, R560, R561) -/

/-- A site of the 1.0 mm grid that carries a contact (R558). -/
def populated (x y : Nat) : Bool :=
  decide (20 ≤ x) && decide (x ≤ 99) && decide (20 ≤ y) && decide (y ≤ 99) &&
    !(decide (52 ≤ x) && decide (x ≤ 67) && decide (52 ≤ y) && decide (y ≤ 67))
/-- Groups of contacts (R560). -/
inductive ContactGroup where
  | vin48 | pcie | cxl0 | cxl1 | time | mref | mgmt | jtag | lasm | fp | las | gnd
  deriving DecidableEq, Repr
/-- Contacts of a group (R560). -/
def ContactGroup.count : ContactGroup → Nat
  | .vin48 => 256 | .pcie => 67 | .cxl0 => 67 | .cxl1 => 67 | .time => 8 | .mref => 2 | .mgmt => 4 | .jtag => 5 | .lasm => 2
  | .fp => 4 | .las => 96 | .gnd => 5566
/-- Origin of the pairs of a group, and how many it has (R560). -/
def ContactGroup.pairs : ContactGroup → Option (Nat × Nat × Nat)
  | .pcie => some (20, 20, 33) | .cxl0 => some (76, 56, 33) | .cxl1 => some (20, 56, 33) | .time => some (20, 90, 4)
  | .mref => some (32, 90, 1) | _ => none
/-- The P contact of pair j; the N contact lies one site east (R561). -/
def pairSite (x y j : Nat) : Nat × Nat := (x + 3 * (j % 8), y + 2 * (j / 8))
/-- First number k of a group in the single-ended sequence (R560). -/
def ContactGroup.first : ContactGroup → Option Nat
  | .mgmt => some 0 | .jtag => some 4 | .lasm => some 9 | .fp => some 11 | .las => some 15 | _ => none
/-- Site of single-ended contact k (R561). -/
def singleSite (k : Nat) : Nat × Nat := (20 + 2 * (k % 40), 94 + 2 * (k / 40))
/-- Site of contact i, from 1, of a group: a pair's P and N contacts take 2j + 1 and 2j + 2 (R560, R561); VIN48 is numbered row by row
as GND is (DEDUCED, log 134). GND: none, see `contactAt`. -/
def ContactGroup.site (g : ContactGroup) (i : Nat) : Option (Nat × Nat) :=
  match g.first, g.pairs with
  | some k, _ => if 1 ≤ i && i ≤ g.count then some (singleSite (k + i - 1)) else none
  | none, some (x, y, n) =>
    if i = 0 then none
    else if i ≤ 2 * n then (let p := pairSite x y ((i - 1) / 2); some (p.1 + (i - 1) % 2, p.2))
    else if i = 67 then (match g with
      | .pcie => some (43, 29) | .cxl0 => some (99, 65) | .cxl1 => some (43, 65) | _ => none)
    else none
  | none, none =>
    match g with
    | .vin48 => if 1 ≤ i && i ≤ 256 then some (44 + (i - 1) % 32, 44 + (i - 1) / 32) else none
    | _ => none
/-- The groups that the table names; every other populated site is GND (R560). -/
def namedGroups : List ContactGroup := [.vin48, .pcie, .cxl0, .cxl1, .time, .mref, .mgmt, .jtag, .lasm, .fp, .las]
/-- What a site carries: a contact of a group with its number; GND without its number; none where there is no contact (R560). -/
def contactAt (x y : Nat) : Option (ContactGroup × Option Nat) :=
  if !populated x y then none
  else match (namedGroups.flatMap (fun g => (List.range g.count).map (fun i => (g, i + 1)))).find? (fun e => e.1.site e.2 == some (x, y)) with
    | some e => some (e.1, some e.2)
    | none => some (.gnd, none)
/-- Contact of signal j of site m, 0 EN, 1 MUTE_N, 2 LATCH_N, 3 BTN_N, 4 LED_G, 5 LED_A (R560). -/
def siteContact (m j : Nat) : Nat := 6 * m + j + 1

end Sys2Proof.Machine
end

