-- ==== Sys2Proof/WellFormed.lean ====
section
/-! DEFINITION. When a command is well formed: unit numbers within the numbers the spec gives (01 R12; 03 R83; 12 R409,
R420; 13; 14), a descriptor of the row's own opcode (04, 05, 06, 07, 08, 09, 10, 12, 16). -/
namespace Sys2Proof

/-- A descriptor of opcode `code` from an existing function and ring (12 R404, R405, R409). -/
def subWf (code : Nat) (b : Sub) : Bool :=
  decide (b.func < 256) && decide (b.ring < 1024) && dfield b.desc 0 1 == code

/-- A management command comes from the BMC, or from a MGMT descriptor, opcode 0x93 (16 R528). -/
def viaWf (via : Option Sub) : Bool :=
  match via with
  | none => true
  | some b => subWf 0x93 b

/-- The command is well formed. -/
def Instr.wf (i : Instr) : Bool :=
  match i with
  | .tileQuarantine via tile => viaWf via && decide (tile < 144)
  | .takeOverComplete quad => decide (quad < 128)
  | .periodicSelfTest tile _ => decide (tile < 144)
  | .tileClear via tile _ => viaWf via && decide (tile < 144)
  | .frameReceive port _ _ _ _ => decide (port < 512)
  | .replayTimeout port => decide (port < 512)
  | .creditReceive port _ => decide (port < 512)
  | .creditTimer port => decide (port < 512)
  | .heartbeatPeriod port => decide (port < 512)
  | .heartbeatMiss port => decide (port < 512)
  | .linkIdReceive port _ => decide (port < 512)
  | .linkIdTimer port => decide (port < 512)
  | .identifyTimeout port => decide (port < 512)
  | .splitDarkTimeout quad => decide (quad < 128)
  | .splitRetry quad => decide (quad < 128)
  | .searchRateStep port => decide (port < 512)
  | .linkDownReceive port _ => decide (port < 512)
  | .lostRetryTimer port => decide (port < 512)
  | .adminUpWrite0 port => decide (port < 512)
  | .adminUpWrite1 port => decide (port < 512)
  | .memberCellReceive port _ => decide (port < 512)
  | .stagedContributionConvert ctx opnum port gcell => decide (ctx < 4096) && decide (opnum < 4294967296) && decide (port < 512) && decide (gcell < 16777216)
  | .recordReceive port _ => decide (port < 512)
  | .replayNoticeReceive port _ => decide (port < 512)
  | .anchorNoticeReceive port _ => decide (port < 512)
  | .p2pCellReceive port _ => decide (port < 512)
  | .congEchoReceive port _ => decide (port < 512)
  | .pacingRaiseTimer port cdst => decide (port < 512) && decide (cdst < 65536)
  | .memberEgressStall port tc => decide (port < 512) && tc < 7
  | .egressService port => decide (port < 512)
  | .ctxCreate sub => subWf 0x20 sub
  | .ctxDestroy sub => subWf 0x21 sub
  | .ctxRecanopy sub => subWf 0x22 sub
  | .portBind sub => subWf 0x23 sub
  | .opPost sub => subWf 0x24 sub
  | .opAbort sub => subWf 0x25 sub
  | .joinReceive port _ => decide (port < 512)
  | .joinStatusReceive port _ => decide (port < 512)
  | .countsReceive port _ => decide (port < 512)
  | .exchangeCellReceive port _ => decide (port < 512)
  | .barrierArriveReceive port _ => decide (port < 512)
  | .barrierReleaseReceive port _ => decide (port < 512)
  | .latenessExpiry ctx opnum gcell port => decide (ctx < 4096) && decide (opnum < 4294967296) && decide (gcell < 16777216) && decide (port < 512)
  | .stallTimeout ctx opnum port gcell _ => decide (ctx < 4096) && decide (opnum < 4294967296) && decide (port < 512) && decide (gcell < 16777216)
  | .memberLossTimeout port => decide (port < 512)
  | .abortNoticeReceive port _ => decide (port < 512)
  | .seedlingRebound => true
  | .seedlingRebindTimeout => true
  | .frameTick => true
  | .timingMessageReceive _ _ _ => true
  | .timingInputTimeout => true
  | .timingOutputMark => true
  | .syncReceive port _ _ _ => decide (port < 512)
  | .delayReqReceive port _ _ _ => decide (port < 512)
  | .delayRespReceive port _ _ _ => decide (port < 512)
  | .announceReceive port _ => decide (port < 512)
  | .syncInterval => true
  | .delayReqTimer => true
  | .delayReqTimeout => true
  | .announceTimeout port => decide (port < 512)
  | .holdoverExpired => true
  | .sourceWrite _ => true
  | .periodLog2Write _ => true
  | .framePeriodChanged => true
  | .frameQuota sub => subWf 0x70 sub
  | .launchInstant ctx opnum => decide (ctx < 4096) && decide (opnum < 4294967296)
  | .storeCreate sub => subWf 0x30 sub
  | .storeDestroy sub => subWf 0x31 sub
  | .storeLoad sub => subWf 0x32 sub
  | .storeRead sub => subWf 0x33 sub
  | .storeGather sub => subWf 0x34 sub
  | .storeUnpin sub => subWf 0x35 sub
  | .storeReshard sub => subWf 0x36 sub
  | .storeLogRead sub => subWf 0x37 sub
  | .gradientAreaFull ctx opnum gcell => decide (ctx < 4096) && decide (opnum < 4294967296) && decide (gcell < 16777216)
  | .mirrorRecordReceive port _ => decide (port < 512)
  | .waitPinResume ctx shard => decide (ctx < 4096) && decide (shard < 4294967296)
  | .reshardMoveStart ctx => decide (ctx < 4096)
  | .reshardDrainTimeout ctx => decide (ctx < 4096)
  | .moveCellReceive port _ => decide (port < 512)
  | .reshardResendTimeout ctx shard => decide (ctx < 4096) && decide (shard < 4294967296)
  | .kernelLoad sub => subWf 0x40 sub
  | .kernelFree sub => subWf 0x41 sub
  | .layerConfig sub => subWf 0x42 sub
  | .updateStart sub => subWf 0x43 sub
  | .updateAbort sub => subWf 0x44 sub
  | .normReceive port _ => decide (port < 512)
  | .normResendTimer ctx ugroup => decide (ctx < 4096) && decide (ugroup < 65536)
  | .updateGradWait ctx ugroup => decide (ctx < 4096) && decide (ugroup < 65536)
  | .normWaitTimeout ctx ugroup => decide (ctx < 4096) && decide (ugroup < 65536)
  | .layerPreComplete ctx ugroup layer => decide (ctx < 4096) && decide (ugroup < 65536) && decide (layer < 65536)
  | .shardCommit ctx ugroup shard => decide (ctx < 4096) && decide (ugroup < 65536) && decide (shard < 4294967296)
  | .idleCommit ctx ugroup shard => decide (ctx < 4096) && decide (ugroup < 65536) && decide (shard < 4294967296)
  | .migrationStart grove => decide (grove < 4)
  | .migrationCopyDone grove => decide (grove < 4)
  | .pruneCellReceive port _ => decide (port < 512)
  | .zeroRunReceive port _ => decide (port < 512)
  | .pruneConfig sub => subWf 0x50 sub
  | .actConfig sub => subWf 0x51 sub
  | .actRead sub => subWf 0x52 sub
  | .resultAckReceive port _ => decide (port < 512)
  | .reinjectReqReceive port _ => decide (port < 512)
  | .digestReceive port _ => decide (port < 512)
  | .digestCompare sub => subWf 0x82 sub
  | .digestCompareTimeout ctx opnum => decide (ctx < 4096) && decide (opnum < 4294967296)
  | .recConfig sub => subWf 0x80 sub
  | .recRead sub => subWf 0x81 sub
  | .stepAck sub => subWf 0x85 sub
  | .anchorCopy sub => subWf 0x86 sub
  | .graftTest sub => subWf 0x83 sub
  | .graftSelfTestDone => true
  | .graftLinkTestDone => true
  | .graftVectorsDone => true
  | .graftVectorTimeout => true
  | .graftCopy sub => subWf 0x84 sub
  | .graftCellReceive port _ => decide (port < 512)
  | .graftCopyTimeout ctx => decide (ctx < 4096)
  | .routeWrite sub => subWf 0x60 sub
  | .routeArm sub => subWf 0x61 sub
  | .epochFlip sub => subWf 0x62 sub
  | .routeRead sub => subWf 0x63 sub
  | .jobRoute sub => subWf 0x64 sub
  | .fabricConfig sub => subWf 0x65 sub
  | .flipTimer => true
  | .epochCellReceive port _ => decide (port < 512)
  | .epochDrained version => decide (version < 2)
  | .poolWaitServed cls _ => decide (cls < 7)
  | .sramScrub tile _ _ _ _ => decide (tile < 144)
  | .patrolScrub stack _ _ _ => decide (stack < 24)
  | .cxlEnable root => decide (root < 2)
  | .cxlLinkUp root _ _ _ => decide (root < 2)
  | .cxlLinkTimeout root _ => decide (root < 2)
  | .cxlLinkDown root _ => decide (root < 2)
  | .cxlHoldTimeout root => decide (root < 2)
  | .nop sub => subWf 0x00 sub
  | .signal sub => subWf 0x01 sub
  | .wait sub => subWf 0x02 sub
  | .jobOpen sub => subWf 0x08 sub
  | .jobClose sub => subWf 0x09 sub
  | .teardownComplete job => decide (job < 256)
  | .capsRead sub => subWf 0x0A sub
  | .hostConfig sub => subWf 0x0B sub
  | .ringEnable func ring => decide (func < 256) && decide (ring < 1024)
  | .ringDisable func ring => decide (func < 256) && decide (ring < 1024)
  | .descriptorFetch ring => decide (ring < 1024)
  | .fetchComplete ring _ _ => decide (ring < 1024)
  | .descriptorDispatch ring _ _ => decide (ring < 1024)
  | .tail func ring _ => decide (func < 256) && decide (ring < 1024)
  | .cancelWait func ring => decide (func < 256) && decide (ring < 1024)
  | .resume func ring => decide (func < 256) && decide (ring < 1024)
  | .evqDoorbell func evq _ => decide (func < 256) && decide (evq < 256)
  | .evqEnable func evq => decide (func < 256) && decide (evq < 256)
  | .evqDisable func evq => decide (func < 256) && decide (evq < 256)
  | .waitStall job _ => decide (job < 256)
  | .flr func => decide (func < 256)
  | .hostLinkReset _ => true
  | .registerWrite func _ _ _ _ => decide (func < 256)
  | .loReadLatch func _ _ size => decide (func < 256) && decide (0 < size)
  | .laneLock lane _ => decide (lane < 512)
  | .trainingFrameReceive lane _ _ _ _ _ => decide (lane < 512)
  | .trainTimeout lane => decide (lane < 512)
  | .laneLos lane _ => decide (lane < 512)
  | .laneLosClear lane _ => decide (lane < 512)
  | .laneLol lane _ => decide (lane < 512)
  | .aprEntered lane => decide (lane < 512)
  | .aprRestartPulse lane => decide (lane < 512)
  | .clear lane => decide (lane < 512)
  | .injectSingle lane => decide (lane < 512)
  | .injectPeriodic lane _ => decide (lane < 512)
  | .injectFecSymbols lane _ _ => decide (lane < 512)
  | .laneTestStart lane _ => decide (lane < 512)
  | .feedLost engine _ _ => decide (engine < 32)
  | .feedRestored engine _ _ => decide (engine < 32)
  | .latchClose site => decide (site < 16)
  | .latchOpen site => decide (site < 16)
  | .laserIdentityRead site _ _ => decide (site < 16)
  | .laserIdentityTimeout site => decide (site < 16)
  | .laserRampDone site => decide (site < 16)
  | .laserPoll site _ _ _ _ _ => decide (site < 16)
  | .prepRemove site => decide (site < 16)
  | .prepRemoveCancel site => decide (site < 16)
  | .mutingDone site => decide (site < 16)
  | .laserEnable site => decide (site < 16)
  | .laserDisable site => decide (site < 16)
  | .siteButton site _ => decide (site < 16)
  | .clockProfileWrite _ => true
  | .clockProfileChanged => true
  | .clockUnlock domain => decide (domain < 5)
  | .pllRelock domain => decide (domain < 5)
  | .pllRelockTimeout domain => decide (domain < 5)
  | .referenceLost => true
  | .referenceReturn => true
  | .referenceHoldover => true
  | .accessTimeout func _ _ => decide (func < 256)
  | .warm _ => true
  | .cold _ => true
  | .powerOff _ => true
  | .modResetN _ => true
  | .glbTileReset tile => decide (tile < 144)
  | .tileSelfTestDone tile _ => decide (tile < 144)
  | .glbPortReset quad => decide (quad < 128)
  | .startupStageDone _ _ => true
  | .auxWatchdog => true
  | .inputLow _ => true
  | .inputPowerLoss _ => true
  | .inputOvervoltage _ => true
  | .inputOvercurrent _ => true
  | .converterLost converter _ => decide (converter < 8)
  | .pwrProfileWrite _ => true
  | .profileLowerTick => true
  | .powerLimitSample _ => true
  | .thermalSample _ => true
  | .wearAfUpdate => true
  | .wearDailySample _ => true
  | .fwLoad sub => subWf 0x90 sub
  | .fwActivate sub => subWf 0x91 sub
  | .linkKey sub => subWf 0x92 sub
  | .updateSessionTimeout => true
  | .pldmFirmwareUpdate _ => true
  | .activateFirmware _ => true
  | .reset via _ => viaWf via
  | .profile via _ => viaWf via
  | .channelClear via stack channel => viaWf via && decide (stack < 24) && decide (channel < 32)
  | .mgmtFwActivate via => viaWf via
  | .svnAdvance via => viaWf via
  | .locate via _ => viaWf via
  | .debugUnlock via _ => viaWf via
  | .lifecycleReturn via _ => viaWf via
  | .regRead _ _ => true
  | .getVersion _ _ => true
  | .getCapabilities _ _ => true
  | .negotiateAlgorithms _ _ => true
  | .getDigests _ _ => true
  | .getCertificate _ _ => true
  | .challenge _ _ => true
  | .getMeasurements _ _ => true
  | .getSensorReading _ _ => true
  | .entdaa _ => true
  | .attnShortPress => true
  | .attnLongPress => true
  | .powerOnSequence _ => true
  | .railFaultRestart => true
  | .inputRestored => true
  | .shardAbandoned ctx ugroup shard stack _ => decide (ctx < 4096) && decide (ugroup < 65536) && decide (shard < 4294967296) && decide (stack < 26)
  | .migrationError grove unit _ => decide (grove < 4) && decide (unit < 26)
  | .pciePerstNDeassert => true
  | .modResetNRelease => true
  | .checkerLocked lane _ => decide (lane < 512)
  | .checkerLockLost lane => decide (lane < 512)
  | .tapEchoTimeout lane => decide (lane < 512)
  | .completionTimeout ring => decide (ring < 1024)
  | .removeBlockedLedTimeout site => decide (site < 16)

end Sys2Proof
end

