-- ==== Sys2Proof/Tests/Slice0.lean ====
section
/-! SUPPORT. Tests: ill-formed commands that the check refuses, and for every statement a state and operands that meet its
hypotheses. -/
-- One test after another: with all of them at once the process runs out of threads.
set_option Elab.async false
namespace Sys2Proof.Tests
open Sys2Proof.Machine

/-- The machine after reset with a change to the switch. -/
def at_ (f : Sw → Sw) : State := { State.reset with sw := f State.reset.sw }

/-- The worked example of 19 R561: PCIE_RX5 and LAS10_LATCH_N. -/
theorem test_contact_sites : ContactGroup.pcie.site 44 = some (36, 24) ∧ ContactGroup.las.site (siteContact 10 2) = some (94, 96) := by decide
/-- The worked example of 13 R461: global lane 301, and the feeds of its engine. -/
theorem test_lane_301 : lanePlace 301 = ⟨18, 13, 75, 3, 1⟩ ∧ waveNm 1 = 1291 ∧ engineOf 8 2 = 18 ∧ engineOf 9 2 = 18 ∧ engineGrove 18 = 2 := by decide

/-- A descriptor of function 0 in ring 0 whose fields, by byte, are as listed. -/
def subOf (fields : List (Nat × Nat)) : Sub :=
  { func := 0, ring := 0, desc := fields.foldl (fun d e => d ||| BitVec.ofNat 512 (e.2 * 256 ^ e.1)) 0, host := [], hostErr := none }

/-- A descriptor of opcode `code` from function 0, ring 0, whose other bytes are zero. -/
def descOf (code : Nat) : Sub := { func := 0, ring := 0, desc := BitVec.ofNat 512 code, host := [], hostErr := none }

/-- A cell of zeros. -/
def aCell : Cell := ⟨0, 0⟩

/-- A frame of zeros. -/
def aFrame : Frame := ⟨0, [], 0, true⟩

/-! For every check of every command: a command that fails this check alone, and is refused. -/

theorem test_ill_formed_via :
    ([.tileQuarantine (some (descOf 0x92)) 0, .tileClear (some (descOf 0x92)) 0 false, .reset (some (descOf 0x92)) 0, .profile (some (descOf 0x92)) 0,
     .channelClear (some (descOf 0x92)) 0 0, .mgmtFwActivate (some (descOf 0x92)), .svnAdvance (some (descOf 0x92)), .locate (some (descOf 0x92)) 0,
     .debugUnlock (some (descOf 0x92)) [], .lifecycleReturn (some (descOf 0x92)) []] : List Instr).all (fun i => i.wf == false) = true := by decide +kernel

theorem test_ill_formed_tile :
    ([.tileQuarantine none 144, .periodicSelfTest 144 false, .tileClear none 144 false, .sramScrub 144 0 0 0 false, .glbTileReset 144,
     .tileSelfTestDone 144 false] : List Instr).all (fun i => i.wf == false) = true := by decide +kernel

theorem test_ill_formed_quad :
    ([.takeOverComplete 128, .splitDarkTimeout 128, .splitRetry 128, .glbPortReset 128] : List Instr).all (fun i => i.wf == false) = true := by decide +kernel

theorem test_ill_formed_port_1 :
    ([.frameReceive 512 aFrame 0 0 0, .replayTimeout 512, .creditReceive 512 aCell, .creditTimer 512, .heartbeatPeriod 512, .heartbeatMiss 512,
     .linkIdReceive 512 aCell, .linkIdTimer 512, .identifyTimeout 512, .searchRateStep 512, .linkDownReceive 512 aCell, .lostRetryTimer 512,
     .adminUpWrite0 512, .adminUpWrite1 512, .memberCellReceive 512 aCell, .stagedContributionConvert 0 0 512 0, .recordReceive 512 aCell,
     .replayNoticeReceive 512 aCell, .anchorNoticeReceive 512 aCell, .p2pCellReceive 512 aCell, .congEchoReceive 512 aCell, .pacingRaiseTimer 512 0,
     .memberEgressStall 512 0, .egressService 512, .joinReceive 512 aCell, .joinStatusReceive 512 aCell, .countsReceive 512 aCell,
     .exchangeCellReceive 512 aCell, .barrierArriveReceive 512 aCell, .barrierReleaseReceive 512 aCell, .latenessExpiry 0 0 0 512,
     .stallTimeout 0 0 512 0 false, .memberLossTimeout 512, .abortNoticeReceive 512 aCell, .syncReceive 512 aCell 0 0,
     .delayReqReceive 512 aCell 0 0, .delayRespReceive 512 aCell 0 0, .announceReceive 512 aCell, .announceTimeout 512, .mirrorRecordReceive 512 aCell] : List Instr).all (fun i => i.wf == false) = true := by decide +kernel

theorem test_ill_formed_port_2 :
    ([.moveCellReceive 512 aCell, .normReceive 512 aCell, .pruneCellReceive 512 aCell, .zeroRunReceive 512 aCell, .resultAckReceive 512 aCell,
     .reinjectReqReceive 512 aCell, .digestReceive 512 aCell, .graftCellReceive 512 aCell, .epochCellReceive 512 aCell] : List Instr).all (fun i => i.wf == false) = true := by decide +kernel

theorem test_ill_formed_ctx :
    ([.stagedContributionConvert 4096 0 0 0, .latenessExpiry 4096 0 0 0, .stallTimeout 4096 0 0 0 false, .launchInstant 4096 0,
     .gradientAreaFull 4096 0 0, .waitPinResume 4096 0, .reshardMoveStart 4096, .reshardDrainTimeout 4096, .reshardResendTimeout 4096 0,
     .normResendTimer 4096 0, .updateGradWait 4096 0, .normWaitTimeout 4096 0, .layerPreComplete 4096 0 0, .shardCommit 4096 0 0,
     .idleCommit 4096 0 0, .digestCompareTimeout 4096 0, .graftCopyTimeout 4096, .shardAbandoned 4096 0 0 0 0] : List Instr).all (fun i => i.wf == false) = true := by decide +kernel

theorem test_ill_formed_opnum :
    ([.stagedContributionConvert 0 4294967296 0 0, .latenessExpiry 0 4294967296 0 0, .stallTimeout 0 4294967296 0 0 false,
     .launchInstant 0 4294967296, .gradientAreaFull 0 4294967296 0, .digestCompareTimeout 0 4294967296] : List Instr).all (fun i => i.wf == false) = true := by decide +kernel

theorem test_ill_formed_gcell :
    ([.stagedContributionConvert 0 0 0 16777216, .latenessExpiry 0 0 16777216 0, .stallTimeout 0 0 0 16777216 false, .gradientAreaFull 0 0 16777216] : List Instr).all (fun i => i.wf == false) = true := by decide +kernel

theorem test_ill_formed_cdst :
    ([.pacingRaiseTimer 0 65536] : List Instr).all (fun i => i.wf == false) = true := by decide +kernel

theorem test_ill_formed_tc :
    ([.memberEgressStall 0 7] : List Instr).all (fun i => i.wf == false) = true := by decide +kernel

theorem test_ill_formed_desc_1 :
    ([.ctxCreate (descOf 0x21), .ctxDestroy (descOf 0x22), .ctxRecanopy (descOf 0x23), .portBind (descOf 0x24), .opPost (descOf 0x25),
     .opAbort (descOf 0x26), .frameQuota (descOf 0x71), .storeCreate (descOf 0x31), .storeDestroy (descOf 0x32), .storeLoad (descOf 0x33),
     .storeRead (descOf 0x34), .storeGather (descOf 0x35), .storeUnpin (descOf 0x36), .storeReshard (descOf 0x37), .storeLogRead (descOf 0x38),
     .kernelLoad (descOf 0x41), .kernelFree (descOf 0x42), .layerConfig (descOf 0x43), .updateStart (descOf 0x44), .updateAbort (descOf 0x45),
     .pruneConfig (descOf 0x51), .actConfig (descOf 0x52), .actRead (descOf 0x53), .digestCompare (descOf 0x83), .recConfig (descOf 0x81),
     .recRead (descOf 0x82), .stepAck (descOf 0x86), .anchorCopy (descOf 0x87), .graftTest (descOf 0x84), .graftCopy (descOf 0x85),
     .routeWrite (descOf 0x61), .routeArm (descOf 0x62), .epochFlip (descOf 0x63), .routeRead (descOf 0x64), .jobRoute (descOf 0x65),
     .fabricConfig (descOf 0x66), .nop (descOf 0x01), .signal (descOf 0x02), .wait (descOf 0x03), .jobOpen (descOf 0x09)] : List Instr).all (fun i => i.wf == false) = true := by decide +kernel

theorem test_ill_formed_desc_2 :
    ([.jobClose (descOf 0x0A), .capsRead (descOf 0x0B), .hostConfig (descOf 0x0C), .fwLoad (descOf 0x91), .fwActivate (descOf 0x92),
     .linkKey (descOf 0x93)] : List Instr).all (fun i => i.wf == false) = true := by decide +kernel

theorem test_ill_formed_func_1 :
    ([.ctxCreate { descOf 0x20 with func := 256 }, .ctxDestroy { descOf 0x21 with func := 256 }, .ctxRecanopy { descOf 0x22 with func := 256 },
     .portBind { descOf 0x23 with func := 256 }, .opPost { descOf 0x24 with func := 256 }, .opAbort { descOf 0x25 with func := 256 },
     .frameQuota { descOf 0x70 with func := 256 }, .storeCreate { descOf 0x30 with func := 256 }, .storeDestroy { descOf 0x31 with func := 256 },
     .storeLoad { descOf 0x32 with func := 256 }, .storeRead { descOf 0x33 with func := 256 }, .storeGather { descOf 0x34 with func := 256 },
     .storeUnpin { descOf 0x35 with func := 256 }, .storeReshard { descOf 0x36 with func := 256 }, .storeLogRead { descOf 0x37 with func := 256 },
     .kernelLoad { descOf 0x40 with func := 256 }, .kernelFree { descOf 0x41 with func := 256 }, .layerConfig { descOf 0x42 with func := 256 },
     .updateStart { descOf 0x43 with func := 256 }, .updateAbort { descOf 0x44 with func := 256 }, .pruneConfig { descOf 0x50 with func := 256 },
     .actConfig { descOf 0x51 with func := 256 }, .actRead { descOf 0x52 with func := 256 }, .digestCompare { descOf 0x82 with func := 256 },
     .recConfig { descOf 0x80 with func := 256 }, .recRead { descOf 0x81 with func := 256 }, .stepAck { descOf 0x85 with func := 256 },
     .anchorCopy { descOf 0x86 with func := 256 }, .graftTest { descOf 0x83 with func := 256 }, .graftCopy { descOf 0x84 with func := 256 },
     .routeWrite { descOf 0x60 with func := 256 }, .routeArm { descOf 0x61 with func := 256 }, .epochFlip { descOf 0x62 with func := 256 },
     .routeRead { descOf 0x63 with func := 256 }, .jobRoute { descOf 0x64 with func := 256 }, .fabricConfig { descOf 0x65 with func := 256 },
     .nop { descOf 0x00 with func := 256 }, .signal { descOf 0x01 with func := 256 }, .wait { descOf 0x02 with func := 256 },
     .jobOpen { descOf 0x08 with func := 256 }] : List Instr).all (fun i => i.wf == false) = true := by decide +kernel

theorem test_ill_formed_func_2 :
    ([.jobClose { descOf 0x09 with func := 256 }, .capsRead { descOf 0x0A with func := 256 }, .hostConfig { descOf 0x0B with func := 256 },
     .ringEnable 256 0, .ringDisable 256 0, .tail 256 0 0, .cancelWait 256 0, .resume 256 0, .evqDoorbell 256 0 0, .evqEnable 256 0,
     .evqDisable 256 0, .flr 256, .registerWrite 256 .bar0 0 0 0, .loReadLatch 256 false 0 1, .accessTimeout 256 0 false,
     .fwLoad { descOf 0x90 with func := 256 }, .fwActivate { descOf 0x91 with func := 256 }, .linkKey { descOf 0x92 with func := 256 }] : List Instr).all (fun i => i.wf == false) = true := by decide +kernel

theorem test_ill_formed_ring_1 :
    ([.ctxCreate { descOf 0x20 with ring := 1024 }, .ctxDestroy { descOf 0x21 with ring := 1024 }, .ctxRecanopy { descOf 0x22 with ring := 1024 },
     .portBind { descOf 0x23 with ring := 1024 }, .opPost { descOf 0x24 with ring := 1024 }, .opAbort { descOf 0x25 with ring := 1024 },
     .frameQuota { descOf 0x70 with ring := 1024 }, .storeCreate { descOf 0x30 with ring := 1024 }, .storeDestroy { descOf 0x31 with ring := 1024 },
     .storeLoad { descOf 0x32 with ring := 1024 }, .storeRead { descOf 0x33 with ring := 1024 }, .storeGather { descOf 0x34 with ring := 1024 },
     .storeUnpin { descOf 0x35 with ring := 1024 }, .storeReshard { descOf 0x36 with ring := 1024 }, .storeLogRead { descOf 0x37 with ring := 1024 },
     .kernelLoad { descOf 0x40 with ring := 1024 }, .kernelFree { descOf 0x41 with ring := 1024 }, .layerConfig { descOf 0x42 with ring := 1024 },
     .updateStart { descOf 0x43 with ring := 1024 }, .updateAbort { descOf 0x44 with ring := 1024 }, .pruneConfig { descOf 0x50 with ring := 1024 },
     .actConfig { descOf 0x51 with ring := 1024 }, .actRead { descOf 0x52 with ring := 1024 }, .digestCompare { descOf 0x82 with ring := 1024 },
     .recConfig { descOf 0x80 with ring := 1024 }, .recRead { descOf 0x81 with ring := 1024 }, .stepAck { descOf 0x85 with ring := 1024 },
     .anchorCopy { descOf 0x86 with ring := 1024 }, .graftTest { descOf 0x83 with ring := 1024 }, .graftCopy { descOf 0x84 with ring := 1024 },
     .routeWrite { descOf 0x60 with ring := 1024 }, .routeArm { descOf 0x61 with ring := 1024 }, .epochFlip { descOf 0x62 with ring := 1024 },
     .routeRead { descOf 0x63 with ring := 1024 }, .jobRoute { descOf 0x64 with ring := 1024 }, .fabricConfig { descOf 0x65 with ring := 1024 },
     .nop { descOf 0x00 with ring := 1024 }, .signal { descOf 0x01 with ring := 1024 }, .wait { descOf 0x02 with ring := 1024 },
     .jobOpen { descOf 0x08 with ring := 1024 }] : List Instr).all (fun i => i.wf == false) = true := by decide +kernel

theorem test_ill_formed_ring_2 :
    ([.jobClose { descOf 0x09 with ring := 1024 }, .capsRead { descOf 0x0A with ring := 1024 }, .hostConfig { descOf 0x0B with ring := 1024 },
     .ringEnable 0 1024, .ringDisable 0 1024, .descriptorFetch 1024, .fetchComplete 1024 [] 0, .descriptorDispatch 1024 [] none, .tail 0 1024 0,
     .cancelWait 0 1024, .resume 0 1024, .fwLoad { descOf 0x90 with ring := 1024 }, .fwActivate { descOf 0x91 with ring := 1024 },
     .linkKey { descOf 0x92 with ring := 1024 }, .completionTimeout 1024] : List Instr).all (fun i => i.wf == false) = true := by decide +kernel

theorem test_ill_formed_shard :
    ([.waitPinResume 0 4294967296, .reshardResendTimeout 0 4294967296, .shardCommit 0 0 4294967296, .idleCommit 0 0 4294967296,
     .shardAbandoned 0 0 4294967296 0 0] : List Instr).all (fun i => i.wf == false) = true := by decide +kernel

theorem test_ill_formed_ugroup :
    ([.normResendTimer 0 65536, .updateGradWait 0 65536, .normWaitTimeout 0 65536, .layerPreComplete 0 65536 0, .shardCommit 0 65536 0,
     .idleCommit 0 65536 0, .shardAbandoned 0 65536 0 0 0] : List Instr).all (fun i => i.wf == false) = true := by decide +kernel

theorem test_ill_formed_layer :
    ([.layerPreComplete 0 0 65536] : List Instr).all (fun i => i.wf == false) = true := by decide +kernel

theorem test_ill_formed_grove :
    ([.migrationStart 4, .migrationCopyDone 4, .migrationError 4 0 0] : List Instr).all (fun i => i.wf == false) = true := by decide +kernel

theorem test_ill_formed_version :
    ([.epochDrained 2] : List Instr).all (fun i => i.wf == false) = true := by decide +kernel

theorem test_ill_formed_cls :
    ([.poolWaitServed 7 0] : List Instr).all (fun i => i.wf == false) = true := by decide +kernel

theorem test_ill_formed_stack :
    ([.patrolScrub 24 0 0 none, .channelClear none 24 0, .shardAbandoned 0 0 0 26 0, .migrationError 0 26 0] : List Instr).all (fun i => i.wf == false) = true := by decide +kernel

theorem test_ill_formed_root :
    ([.cxlEnable 2, .cxlLinkUp 2 0 0 0, .cxlLinkTimeout 2 0, .cxlLinkDown 2 0, .cxlHoldTimeout 2] : List Instr).all (fun i => i.wf == false) = true := by decide +kernel

theorem test_ill_formed_job :
    ([.teardownComplete 256, .waitStall 256 []] : List Instr).all (fun i => i.wf == false) = true := by decide +kernel

theorem test_ill_formed_evq :
    ([.evqDoorbell 0 256 0, .evqEnable 0 256, .evqDisable 0 256] : List Instr).all (fun i => i.wf == false) = true := by decide +kernel

theorem test_ill_formed_size :
    ([.loReadLatch 0 false 0 0] : List Instr).all (fun i => i.wf == false) = true := by decide +kernel

theorem test_ill_formed_lane :
    ([.laneLock 512 0, .trainingFrameReceive 512 0 0 false 0 0, .trainTimeout 512, .laneLos 512 0, .laneLosClear 512 0, .laneLol 512 0,
     .aprEntered 512, .aprRestartPulse 512, .clear 512, .injectSingle 512, .injectPeriodic 512 0, .injectFecSymbols 512 0 0, .laneTestStart 512 0,
     .checkerLocked 512 0, .checkerLockLost 512, .tapEchoTimeout 512] : List Instr).all (fun i => i.wf == false) = true := by decide +kernel

theorem test_ill_formed_engine :
    ([.feedLost 32 false 0, .feedRestored 32 false 0] : List Instr).all (fun i => i.wf == false) = true := by decide +kernel

theorem test_ill_formed_site :
    ([.latchClose 16, .latchOpen 16, .laserIdentityRead 16 0 0, .laserIdentityTimeout 16, .laserRampDone 16, .laserPoll 16 0 [] 0 0 false,
     .prepRemove 16, .prepRemoveCancel 16, .mutingDone 16, .laserEnable 16, .laserDisable 16, .siteButton 16 0, .removeBlockedLedTimeout 16] : List Instr).all (fun i => i.wf == false) = true := by decide +kernel

theorem test_ill_formed_domain :
    ([.clockUnlock 5, .pllRelock 5, .pllRelockTimeout 5] : List Instr).all (fun i => i.wf == false) = true := by decide +kernel

theorem test_ill_formed_converter :
    ([.converterLost 8 0] : List Instr).all (fun i => i.wf == false) = true := by decide +kernel

theorem test_ill_formed_channel :
    ([.channelClear none 0 32] : List Instr).all (fun i => i.wf == false) = true := by decide +kernel

theorem test_well_formed_1 :
    ([.tileQuarantine none 0, .takeOverComplete 0, .periodicSelfTest 0 false, .tileClear none 0 false, .frameReceive 0 aFrame 0 0 0, .replayTimeout 0,
     .creditReceive 0 aCell, .creditTimer 0, .heartbeatPeriod 0, .heartbeatMiss 0, .linkIdReceive 0 aCell, .linkIdTimer 0, .identifyTimeout 0,
     .splitDarkTimeout 0, .splitRetry 0, .searchRateStep 0, .linkDownReceive 0 aCell, .lostRetryTimer 0, .adminUpWrite0 0, .adminUpWrite1 0,
     .memberCellReceive 0 aCell, .stagedContributionConvert 0 0 0 0, .recordReceive 0 aCell, .replayNoticeReceive 0 aCell,
     .anchorNoticeReceive 0 aCell, .p2pCellReceive 0 aCell, .congEchoReceive 0 aCell, .pacingRaiseTimer 0 0, .memberEgressStall 0 0,
     .egressService 0, .ctxCreate (descOf 0x20), .ctxDestroy (descOf 0x21), .ctxRecanopy (descOf 0x22), .portBind (descOf 0x23),
     .opPost (descOf 0x24), .opAbort (descOf 0x25), .joinReceive 0 aCell, .joinStatusReceive 0 aCell, .countsReceive 0 aCell,
     .exchangeCellReceive 0 aCell] : List Instr).all (fun i => i.wf == true) = true := by decide +kernel

theorem test_well_formed_2 :
    ([.barrierArriveReceive 0 aCell, .barrierReleaseReceive 0 aCell, .latenessExpiry 0 0 0 0, .stallTimeout 0 0 0 0 false, .memberLossTimeout 0,
     .abortNoticeReceive 0 aCell, .syncReceive 0 aCell 0 0, .delayReqReceive 0 aCell 0 0, .delayRespReceive 0 aCell 0 0, .announceReceive 0 aCell,
     .announceTimeout 0, .frameQuota (descOf 0x70), .launchInstant 0 0, .storeCreate (descOf 0x30), .storeDestroy (descOf 0x31),
     .storeLoad (descOf 0x32), .storeRead (descOf 0x33), .storeGather (descOf 0x34), .storeUnpin (descOf 0x35), .storeReshard (descOf 0x36),
     .storeLogRead (descOf 0x37), .gradientAreaFull 0 0 0, .mirrorRecordReceive 0 aCell, .waitPinResume 0 0, .reshardMoveStart 0,
     .reshardDrainTimeout 0, .moveCellReceive 0 aCell, .reshardResendTimeout 0 0, .kernelLoad (descOf 0x40), .kernelFree (descOf 0x41),
     .layerConfig (descOf 0x42), .updateStart (descOf 0x43), .updateAbort (descOf 0x44), .normReceive 0 aCell, .normResendTimer 0 0,
     .updateGradWait 0 0, .normWaitTimeout 0 0, .layerPreComplete 0 0 0, .shardCommit 0 0 0, .idleCommit 0 0 0] : List Instr).all (fun i => i.wf == true) = true := by decide +kernel

theorem test_well_formed_3 :
    ([.migrationStart 0, .migrationCopyDone 0, .pruneCellReceive 0 aCell, .zeroRunReceive 0 aCell, .pruneConfig (descOf 0x50),
     .actConfig (descOf 0x51), .actRead (descOf 0x52), .resultAckReceive 0 aCell, .reinjectReqReceive 0 aCell, .digestReceive 0 aCell,
     .digestCompare (descOf 0x82), .digestCompareTimeout 0 0, .recConfig (descOf 0x80), .recRead (descOf 0x81), .stepAck (descOf 0x85),
     .anchorCopy (descOf 0x86), .graftTest (descOf 0x83), .graftCopy (descOf 0x84), .graftCellReceive 0 aCell, .graftCopyTimeout 0,
     .routeWrite (descOf 0x60), .routeArm (descOf 0x61), .epochFlip (descOf 0x62), .routeRead (descOf 0x63), .jobRoute (descOf 0x64),
     .fabricConfig (descOf 0x65), .epochCellReceive 0 aCell, .epochDrained 0, .poolWaitServed 0 0, .sramScrub 0 0 0 0 false, .patrolScrub 0 0 0 none,
     .cxlEnable 0, .cxlLinkUp 0 0 0 0, .cxlLinkTimeout 0 0, .cxlLinkDown 0 0, .cxlHoldTimeout 0, .nop (descOf 0x00), .signal (descOf 0x01),
     .wait (descOf 0x02), .jobOpen (descOf 0x08)] : List Instr).all (fun i => i.wf == true) = true := by decide +kernel

theorem test_well_formed_4 :
    ([.jobClose (descOf 0x09), .teardownComplete 0, .capsRead (descOf 0x0A), .hostConfig (descOf 0x0B), .ringEnable 0 0, .ringDisable 0 0,
     .descriptorFetch 0, .fetchComplete 0 [] 0, .descriptorDispatch 0 [] none, .tail 0 0 0, .cancelWait 0 0, .resume 0 0, .evqDoorbell 0 0 0,
     .evqEnable 0 0, .evqDisable 0 0, .waitStall 0 [], .flr 0, .registerWrite 0 .bar0 0 0 0, .loReadLatch 0 false 0 1, .laneLock 0 0,
     .trainingFrameReceive 0 0 0 false 0 0, .trainTimeout 0, .laneLos 0 0, .laneLosClear 0 0, .laneLol 0 0, .aprEntered 0, .aprRestartPulse 0,
     .clear 0, .injectSingle 0, .injectPeriodic 0 0, .injectFecSymbols 0 0 0, .laneTestStart 0 0, .feedLost 0 false 0, .feedRestored 0 false 0,
     .latchClose 0, .latchOpen 0, .laserIdentityRead 0 0 0, .laserIdentityTimeout 0, .laserRampDone 0, .laserPoll 0 0 [] 0 0 false] : List Instr).all (fun i => i.wf == true) = true := by decide +kernel

theorem test_well_formed_5 :
    ([.prepRemove 0, .prepRemoveCancel 0, .mutingDone 0, .laserEnable 0, .laserDisable 0, .siteButton 0 0, .clockUnlock 0, .pllRelock 0,
     .pllRelockTimeout 0, .accessTimeout 0 0 false, .glbTileReset 0, .tileSelfTestDone 0 false, .glbPortReset 0, .converterLost 0 0,
     .fwLoad (descOf 0x90), .fwActivate (descOf 0x91), .linkKey (descOf 0x92), .reset none 0, .profile none 0, .channelClear none 0 0,
     .mgmtFwActivate none, .svnAdvance none, .locate none 0, .debugUnlock none [], .lifecycleReturn none [], .shardAbandoned 0 0 0 0 0,
     .migrationError 0 0 0, .checkerLocked 0 0, .checkerLockLost 0, .tapEchoTimeout 0, .completionTimeout 0, .removeBlockedLedTimeout 0] : List Instr).all (fun i => i.wf == true) = true := by decide +kernel

/-! #### FrameRule -/

/-- Port 8 UP with one frame of FSEQ `q` kept, replayed k times. -/
def upPort8 (k : Nat) (q : BitVec 12) : State := at_ fun w =>
  (w.modReg 8 fun r => { r with state := .up, partnerRole := 2, detected := 3 }).modLink 8 fun l =>
    { l with replayBuf := [{ frame := { hdr := linkHdr q 0 false [], pos := [], trailer := 0, fecOk := true }, replays := k, sentAt := 0, marks := [] }], rxCredit := creditCells [1] 4 }
/-- A frame with its CRC. -/
def crcFrame (h : Quad) (c : List Cell) : Frame :=
  let f : Frame := { hdr := h, pos := c, trailer := 0, fecOk := true }
  { f with trailer := frameCrc 3 f }
theorem crcFrame_good (h : Quad) (c : List Cell) : frameCrc 3 (crcFrame h c) = (crcFrame h c).trailer := by
  unfold crcFrame frameCrc; rfl
theorem wit_FrameRule_bad : (upPort8 0 5).sw.portActive 8 = true ∧ (upPort8 0 5).sw.up 8 = true ∧
    (upPort8 0 5).sw.plainBad 8 { crcFrame 0 [] with fecOk := false } ∧ ((upPort8 0 5).sw.port 8).sec.engaged = false ∧
    (State.reset.sw.port 8).reg.state = .search := ⟨by decide, by decide, .inl rfl, by decide, by decide⟩
/-- Data frame FSEQ 0 with one REQ cell on channel 0, no ACKV. -/
def dataHdr : Quad := linkHdr 0 0 false [0] &&& ~~~ 0x8000000000
theorem wit_FrameRule_data : (upPort8 0 5).sw.plainGood 8 (crcFrame dataHdr [⟨0, 0⟩]) ∧ (crcFrame dataHdr [⟨0, 0⟩]).idle = false ∧
    (crcFrame dataHdr [⟨0, 0⟩]).ackv = false ∧ (crcFrame dataHdr [⟨0, 0⟩]).nak = false ∧
    (crcFrame dataHdr [⟨0, 0⟩]).fseq = ((upPort8 0 5).sw.port 8).link.rxExpect ∧ (crcFrame dataHdr [⟨0, 0⟩]).valid 0 = true ∧
    (crcFrame dataHdr [⟨0, 0⟩]).valid 1 = false ∧ (upPort8 0 5).sw.isMember 8 = false ∧
    nth 0 ((upPort8 0 5).sw.port 8).link.rxCredit 0 ≠ 0 ∧ (upPort8 0 5).sw.headerBad 8 ⟨0, 0⟩ = false ∧
    (crcFrame dataHdr [⟨0, 0⟩]).vc 0 ∈ vcsOf (wireTc 3 ⟨0, 0⟩) ∧ (upPort8 0 5).sw.headerBad 8 ⟨BitVec.ofNat 64 (7 * 2 ^ 61), 0⟩ = true ∧
    nth 0 (State.reset.sw.port 8).link.rxCredit 0 = 0 ∧ (crcFrame (linkHdr 9 0 false [0] &&& ~~~ 0x8000000000) []).fseq = 9 ∧
    (crcFrame (linkHdr 9 0 false [0] &&& ~~~ 0x8000000000) []).ackv = false :=
  ⟨⟨rfl, by decide, (show (upPort8 0 5).sw.pers 8 = 3 by decide) ▸ crcFrame_good _ _⟩, by decide, by decide, by decide, by decide, by decide, by decide, by decide, by decide, by decide, by decide, by decide, by decide, by decide, by decide⟩
theorem wit_FrameRule_ack : (crcFrame (linkHdr 0 5 false []) []).idle = true ∧ (crcFrame (linkHdr 0 5 false []) []).ackv = true ∧
    (crcFrame (linkHdr 0 5 false []) []).nak = false ∧ (crcFrame (linkHdr 0 5 false []) []).ackseq = 5 ∧
    (crcFrame (linkHdr 0 5 true [] &&& ~~~ 0x8000000000) []).nak = true ∧
    (crcFrame (linkHdr 0 5 true [] &&& ~~~ 0x8000000000) []).ackv = false ∧
    ((upPort8 8 5).sw.port 8).link.replayBuf.map (fun f => (f.frame.fseq, f.replays)) = [(5, 8)] := by decide

/-! #### LinkLossRule -/

/-- Port 8 in a state, with its registers changed. -/
def port8 (f : PortReg → PortReg) : State := at_ (Sw.modReg 8 f)
theorem wit_LinkLossRule :
    let up := at_ fun w => (w.modReg 8 fun r => { r with state := .up, detected := 3, partnerRole := 2 }).modLink 8 fun l => { l with deadPeriods := 3 }
    let lost := port8 fun r => { r with state := .lost }
    let dead := port8 fun r => { r with state := .lost, allow := 0 }
    let dis := port8 fun r => { r with state := .disabled }
    up.sw.portActive 8 = true ∧ up.sw.up 8 = true ∧ ((up.sw.port 8).link.alive = false ∧ (up.sw.port 8).link.deadPeriods = 3 ∧ up.sw.inService 2 = true) ∧
      up.sw.portLayerOf 8 ctLinkDown { hdr := ctrlHdr ctLinkDown 0 0 noMember 0 0, pay := 1 } ∧
      ¬ up.sw.portLayerOf 8 ctLinkDown { hdr := 0, pay := 1 } ∧ State.reset.sw.up 8 = false ∧
      (lost.sw.port 8).reg.state = .lost ∧ (lost.sw.port 8).reg.adminUp = true ∧ (lost.sw.port 8).reg.allow ≠ 0 ∧
      lost.sw.splitStands 8 ∧ (dead.sw.port 8).reg.allow = 0 ∧ (dis.sw.port 8).reg.state = .disabled ∧
      (dis.sw.port 8).reg.allow ≠ 0 ∧ dis.sw.splitStands 8 ∧ (State.reset.sw.port 8).reg.state = .search := by
  refine ⟨by decide, by decide, by decide, ⟨by decide, by decide⟩, fun h => absurd h.1 (by decide), by decide, by decide, by decide, by decide,
    .inr (by decide), by decide, by decide, by decide, .inr (by decide), by decide⟩

/-! #### CreditRule -/

theorem wit_CreditRule :
    let up := port8 fun r => { r with state := .up, detected := 3, partnerRole := 2 }
    let freed : State := at_ fun w => (w.modReg 8 fun r => { r with state := .up, detected := 3, partnerRole := 2 }).modLink 8 fun l =>
      { l with freedNew := [1], sentCell := true }
    up.sw.portActive 8 = true ∧ up.sw.up 8 = true ∧ up.sw.portLayerOf 8 ctCredit { hdr := ctrlHdr ctCredit 0 0 noMember 0 0, pay := 1 } ∧
      freed.sw.up 8 = true ∧ freed.sw.takingOver 2 = false ∧ (freed.sw.port 8).link.paced = [] ∧ (freed.sw.port 8).link.freedNew.any (fun k => k != 0) = true ∧
      (freed.sw.port 8).link.sentCell = true ∧ (up.sw.port 8).link.sentCell = false ∧
      (up.sw.port 8).link.freedNew.any (fun k => k != 0) = false ∧ State.reset.sw.up 8 = false := by
  refine ⟨by decide, by decide, ⟨by decide, by decide⟩, ?_⟩
  decide

/-! #### IdentityRule -/

/-- Port 8 in IDENTIFY with a NONCE sent now; its four-lane port in a split or in the AUTO trial. -/
def identify8 (split : Nat) : State := at_ fun w =>
  ((w.modReg 8 fun r => { r with state := .identify, detected := 3, lanes := (0, if split = 0 then 1 else 4) }).modLink 8 fun l => { l with nonces := [(7, 0)] }).modQuad 2 fun d => { d with splitNow := split, split := split }
/-- A LINK_ID of a switch that echoes NONCE 7. -/
def goodId (lanes : Nat) : Cell := { hdr := ctrlHdr ctLinkId 0 0 noMember 0 0, pay := word64 (le 8 99 ++ le 1 2 ++ le 1 3 ++ le 1 0 ++ le 1 lanes ++ le 1 2 ++ le 1 3 ++ le 1 2 ++ le 1 14 ++ le 2 8 ++ le 2 1 ++ le 2 7) }
theorem wit_IdentityRule_states : (identify8 1).sw.portActive 8 = true ∧ ((identify8 1).sw.port 8).reg.state = .identify ∧
    (State.reset.sw.port 8).reg.state ≠ .identify ∧ (State.reset.sw.port 8).reg.adminUp = true ∧ ((identify8 1).sw.port 8).reg.allow ≠ 0 ∧
    ((identify8 1).sw.quad 2).splitNow ≠ 0 ∧ ((identify8 1).sw.port 8).sec.modeNow = false := by decide
theorem wit_IdentityRule_cell : (identify8 1).sw.portLayerOf 8 ctLinkId (goodId 4) ∧
    portLayerForm ((identify8 1).sw.pers 8) (goodId 4) = goodId 4 ∧ (identify8 1).sw.echoedAt 8 (goodId 4) = some 0 ∧
    (goodId 4).f 22 2 % 2 ≠ 1 ∧ linkIdTest (identify8 1).sw 8 (goodId 4) 0 false = none ∧
    linkIdTest (identify8 1).sw 8 (goodId 2) 0 false = some 4 ∧ (identify8 1).sw.echoedAt 8 { goodId 4 with pay := 0 } = none :=
  ⟨⟨by decide +kernel, by decide +kernel⟩, by decide +kernel, by decide +kernel, by decide +kernel, by decide +kernel, by decide +kernel, by decide +kernel⟩
theorem wit_IdentityRule_trial : ((identify8 0).sw.quad 2).splitNow = 0 ∧ ((identify8 0).sw.quad 2).splitActive = 0 ∧
    linkIdTest (identify8 0).sw 8 (goodId 4) 0 true = none ∧ (identify8 0).sw.echoedAt 8 (goodId 4) = some 0 ∧
    ((at_ fun w => w.modLane 9 fun l => { l with los := false }).sw.splitDark 2 1) = false := by decide +kernel
theorem wit_IdentityRule_choice :
    let s (b : Bool) : Sw := State.reset.sw.modQuad 2 fun d => { d with ident := [(0, (7, 0)), (1, (7, 1)), (2, (7, 2)), (3, (if b then 7 else 8, 2))] }
    ((s true).quad 2).ident ≠ [] ∧ ((s true).quad 2).failedTrial = false ∧ (List.range 4).all (fun j => ((s true).quad 2).ident.mem j) = true ∧
      [1, 2, 3].find? (fun m => (splitPorts 2 m).all (fun e => (s true).groupPasses 2 e.2.1 e.2.2)) = none ∧
      [1, 2, 3].find? (fun m => (splitPorts 2 m).all (fun e => (State.reset.sw.modQuad 2 fun d => { d with ident := [(0, (7, 0))] }).groupPasses 2 e.2.1 e.2.2)) = some 3 ∧
      State.reset.sw.quadActive 2 = true ∧ (State.reset.sw.quad 2).failedTrial = false := by decide +kernel

/-! #### EgressRule -/

theorem wit_EgressRule_up :
    let it : TxItem := { cell := ⟨0, 0⟩, vc := 8, cls := .portLayer, unitLen := 1, src := selfPort, moved := false, mark := .none }
    let s (l : List TxItem) (r : Nat) (st : PortSt) : State := at_ fun w => ((w.modReg 8 fun r => { r with state := st, detected := 3, partnerRole := 1 }).modQ 8 fun q =>
      { q with txq := l }).modLink 8 fun k => { k with resend := r, replayBuf := List.replicate r ⟨⟨0, [], 0, true⟩, 0, 0, []⟩, linkDown := some (3, 0) }
    (s [] 0 .up).sw.portActive 8 = true ∧ ((s [] 0 .up).sw.port 8).link.txOn = true ∧ (s [] 0 .up).sw.up 8 = true ∧
      ((s [] 0 .up).sw.port 8).sec.modeNow = false ∧ ((s [] 0 .up).sw.port 8).sec.engaged = false ∧ pickItem (s [] 0 .up).sw 8 = none ∧
      pickItem (s [it] 0 .up).sw 8 = some (it, none) ∧ ((s [it] 0 .up).sw.port 8).link.replayBuf.length < (s [it] 0 .up).sw.replayCap 8 ∧
      ((s [] 1 .up).sw.port 8).link.resend = 1 ∧ ((s [it] 0 .identify).sw.port 8).reg.state = .identify ∧
      ((s [it] 0 .identify).sw.port 8).q.txq.find? (fun i => i.cls == .portLayer) = some it ∧ (s [] 0 .lost).sw.up 8 = false ∧
      ((s [] 0 .lost).sw.port 8).link.linkDown = some (3, 0) ∧ (s [] 0 .up).sw.isMember 8 = true ∧
      ((s [] 0 .up).sw.port 8).q.stalled.mem 2 = false ∧ nth 0 ((s [] 0 .up).sw.port 8).link.txCredit (firstVc 2) = 0 ∧
      (State.reset.sw.port 8).reg.state = .search ∧ State.reset.sw.isMember 8 = false := by decide +kernel
theorem wit_EgressRule_off : ((at_ (Sw.modLink 8 fun l => { l with txOn := false })).sw.port 8).link.txOn = false := by decide

/-! #### P2pRule -/

/-- Switch port 8 UP; member port 12 of personality k UP, bound to rank 5 of job 1; version 0 with one RANK entry of job 2. -/
def fabric8 (k : Nat) (l : List Limiter) : State := at_ fun w =>
  (((w.modReg 8 fun r => { r with state := .up, detected := 3, partnerRole := 2 }).modReg 12 fun r =>
    { r with state := .up, detected := k, partnerRole := 1, binding := some ⟨1, 5, false⟩ }).modReg 16 fun r =>
    { r with state := .up, detected := 3, partnerRole := 2 }).modQ 12 fun q => { q with limiters := l }
/-- A REQ cell of job j for rank d. -/
def reqCell (j d : Nat) : Cell := { hdr := BitVec.ofNat 64 (place j 50 + place d 34), pay := 0 }
theorem wit_P2pRule_member : (fabric8 3 []).sw.portActive 8 = true ∧ (fabric8 3 []).sw.up 8 = true ∧ (fabric8 3 []).sw.isMember 8 = false ∧
    (reqCell 1 5).badHeader = false ∧ (reqCell 1 5).tc ≤ 2 ∧ (fabric8 3 []).sw.pers 8 ≠ 1 ∧ ((fabric8 3 []).sw.ver 0).st ≠ .standby ∧
    (reqCell 1 5).ep = 0 ∧ (reqCell 1 5).mc = false ∧ (fabric8 3 []).sw.exchangeOf (reqCell 1 5) = none ∧
    (fabric8 3 []).sw.find 0 1 5 = .member 12 ∧ (fabric8 3 []).sw.up 12 = true ∧ (fabric8 3 []).sw.isMember 12 = true ∧
    (reqCell 1 5).ce = false ∧ ((fabric8 3 []).sw.port 12).q.spill = [] ∧ ((fabric8 3 []).sw.port 12).q.held < 1024 ∧
    0 < (fabric8 3 []).sw.fab.ceThresh ∧ (fabric8 3 []).sw.find 0 2 5 = .nowhere ∧ State.reset.sw.up 8 = false := by decide +kernel
theorem wit_P2pRule_cands :
    let s := (fabric8 3 []).sw.modFab fun b => { b with v0 := { b.v0 with rank := [(0, { job := 2, first := 0, last := 9, cands := [some 16, none, none, none] })] },
                                                        ranks := [(16, { inn := 0, out := 3, dlIn := false, dlOut := false })] }
    let e := (fabric8 3 []).sw.modFab fun b => { b with v0 := { b.v0 with rank := [(0, { job := 2, first := 0, last := 9, cands := [none, none, none, none] })] } }
    s.find 0 2 5 = .cands [16] ∧ s.qualify 8 (s.rxVc 8 (reqCell 2 5)) [16] = [(16, 0)] ∧ s.fab.adaptive.getLsbD 2 = false ∧
      s.isMember 16 = false ∧ e.find 0 2 5 = .cands [] ∧ e.qualify 8 0 [] = [] ∧ (e.ver 0).st ≠ .draining := by decide +kernel
theorem wit_P2pRule_echo :
    let e : Cell := { hdr := ctrlHdr ctEcho 0 0 5 0 1, pay := 7 }
    let m : Cell := { hdr := BitVec.ofNat 64 (place 2 61 + place 1 58), pay := 0 }
    let f : Sw := (fabric8 3 []).sw.modPool fun p => { p with bufs := [⟨3, 2, 4, none, .tile 2, 0⟩, ⟨4, 2, 1, none, .tile 2, 1⟩] }
    m.tc = 2 ∧ m.mc = true ∧ (fabric8 3 []).sw.fanFull 8 m = false ∧ f.fanFull 8 m = true ∧ f.up 8 = true ∧ m.badHeader = false ∧ SMap.find? m.dst ((fabric8 3 []).sw.ver 0).mcast = none ∧
    e.tc = 5 ∧ e.ctype = ctEcho ∧ e.badHeader = false ∧ (fabric8 1 []).sw.find e.ep (e.arg % 256) e.member = .member 12 ∧ (fabric8 1 []).sw.pers 12 = 1 ∧
      (fabric8 1 [{ cdst := 7, rate := 32, last := 0 - 0x1000000 }]).sw.fab.echoGap ≤ ((fabric8 1 []).sw.gtc - (0 - 0x1000000)).toNat ∧ e.f 0 2 = 7 ∧
      (fabric8 1 []).sw.up 12 = true ∧ (fabric8 1 []).sw.isMember 12 = true := by decide +kernel

/-! #### CellIntakeRule -/

/-- A COLL-UP cell of context 1 and rank 5. -/
def upCell (pay : BitVec 512) : Cell := { hdr := collHdr 3 0 0 1 5 0 0, pay := pay }
theorem wit_CellIntakeRule :
    (fabric8 3 []).sw.portActive 8 = true ∧ (fabric8 3 []).sw.up 8 = true ∧ (fabric8 3 []).sw.isMember 8 = false ∧ (fabric8 3 []).sw.isSwitch 8 = true ∧
    Cell.badHeader { hdr := 0xE000000000000000, pay := 0 } = true ∧ (upCell 0).badHeader = false ∧ (upCell 0).tc = 3 ∧
    (fabric8 3 []).sw.isMember 12 = true ∧ (fabric8 3 []).sw.pers 12 = 3 ∧ (fabric8 3 []).sw.binding 12 = some ⟨1, 5, false⟩ ∧
    (upCell 0).cmember = 5 ∧ Cell.cmember { hdr := collHdr 3 0 0 1 6 0 0, pay := 0 } = 6 ∧
    Cell.tc { hdr := ctrlHdr ctJoin 0 1 5 0 0, pay := 0 } = 5 ∧ Cell.member { hdr := ctrlHdr ctJoin 0 1 5 0 0, pay := 0 } = 5 ∧
    ((fabric8 3 []).sw.modReg 12 fun r => { r with binding := none }).binding 12 = none ∧
    ((fabric8 3 []).sw.ver (upCell 0).ep).st ≠ .standby ∧ (fabric8 3 []).sw.ctx? (upCell 0).anyCtx = none ∧
    (fabric8 3 []).sw.transitOf 0 1 8 = none ∧ State.reset.sw.up 8 = false := by decide +kernel
theorem wit_CellIntakeRule_transit :
    let s := (fabric8 3 []).sw.modFab fun b => { b with v0 := { b.v0 with transit := [(edgeKey 1 8, { ctx := 1, dn := 8, up := 16 })] },
                                                        ranks := [(16, { inn := 0, out := 3, dlIn := false, dlOut := false })] }
    s.transitOf 0 1 8 = some 16 ∧ s.up 16 = true ∧ s.isMember 16 = false ∧ s.permitted 8 (s.rxVc 8 (upCell 0)) 16 = some 6 := by decide +kernel

/-! #### MemberCellRule -/

/-- The block of ALL_REDUCE 0, one rank, 64 elements, SUM; or with PRUNE. -/
def blk64 (prune : Bool) : BitVec 256 := BitVec.ofNat 256 (place 64 64 + (if prune then place 1 43 else 0))
/-- Context 1 at a root: member child rank 5 on port 12 and switch child on port 16, operation 0 open. -/
def coll8 (f : Op → Op) : State := at_ fun w =>
  (((w.modReg 12 fun r => { r with state := .up, detected := 3, partnerRole := 1, binding := some ⟨1, 5, false⟩ }).modReg 16 fun r =>
    { r with state := .up, detected := 3, partnerRole := 2 }).setCtx 1
    { cfg := { job := 1 }, canopy := { members := 8, children := [⟨12, false, 5, 1, none, none⟩, ⟨16, true, 6, 2, none, none⟩] },
      nextOp := 1, ops := [(0, f { blk := blk64 false, st := .joined, grants := [(12, 8), (16, 8)], formats := [(12, 1)] })] })
/-- A test of where a cell arrives. -/
def arrives (s : State) (p : Nat) (c : Cell) (f : Nat → Nat → Cell → Sw → Ctx → Bool) : Bool :=
  match s.sw.arrival p c with | some (x, q, c', w, k) => f x q c' w k | none => false
theorem wit_MemberCellRule_staged : arrives (coll8 id) 12 (upCell 0) (fun x q c w k => x == 1 && q == 12 && c.tc == 3 && c.idx == 0 &&
      (match k.memberOf q, k.opOfSeq c.copseq, SMap.find? 0 k.ops with
       | some h, some (0, r), some r' => r == r' && c.le == k.leOf 0 && r.isOpen && decide (c.idx < r.grants.getD q 0) && !blkPrune r.blk &&
           r.launchAt.isNone && blkLaunch r.blk == 0 && r.once.isEmpty && !(k.gridsOf w r h q 0).isEmpty && !r.staging.mem (cellKey q 0) &&
           (k.gridsOf w r h q 0).any (fun g => !taken k 0 r h.port g)
       | _, _, _ => false)) = true := by decide +kernel
theorem wit_MemberCellRule_partial :
    let u := (coll8 id).sw.modOp 1 0 (fun e => { e with staging := e.staging.set (cellKey 12 0) 0 })
    (List.range 8).all (fun g => match u.ctx? 1, u.op? 1 0 with | some k, some r => !wholeCell u k r 12 5 g | _, _ => false) = true := by decide +kernel
theorem wit_MemberCellRule_discards : arrives (coll8 fun r => { r with st := .done }) 12 (upCell 0) (fun _ q _ _ k =>
      (k.memberOf q).isSome && (k.opOfSeq 9).isNone && (k.opOfSeq 0).any (fun e => !e.2.isOpen)) = true ∧
    arrives (coll8 fun r => { r with grants := [] }) 12 (upCell 0) (fun _ q c _ k => (k.opOfSeq 0).any (fun e => e.2.isOpen && decide (e.2.grants.getD q 0 ≤ c.idx))) = true ∧
    arrives (coll8 fun r => { r with staging := [(cellKey 12 0, 0)] }) 12 (upCell 0) (fun _ q _ _ k => (k.opOfSeq 0).any (fun e => e.2.staging.mem (cellKey q 0))) = true ∧
    arrives (coll8 id) 16 { hdr := collHdr 3 0 1 1 noMember 0 0, pay := 0 } (fun _ q c _ k => (k.memberOf q).isNone && c.le != k.leOf 0) = true := by decide +kernel
theorem wit_MemberCellRule_prune : arrives (coll8 fun r => { r with blk := blk64 true }) 12 (upCell 4) (fun x q c w k =>
      pruneOf x c w && (match k.memberOf q, k.opOfSeq 0 with
        | some h, some (_, r) => (pruneTest (elemBits (r.format q) / 8) (payBytes (w.pers q)) (pruneSW (r.format q) (w.pers q))
            (contribPart k r.blk h.rankFirst).2 c.idx (r.cursors.getD q Cursor.fresh) (bytes64 c.pay)).isSome
        | _, _ => false)) = true ∧ arrives (coll8 id) 12 (upCell 0) (fun x _ c w _ => !pruneOf x c w) = true := by decide +kernel
theorem wit_MemberCellRule_convert :
    let s₀ := coll8 fun r => { r with waiting := [(12, 0)] }
    let s : State := { s₀ with sw := s₀.sw.modRec fun r => { r with shadowLog2 := 0xFF } }
    s.sw.portActive (s.sw.physPort 1 12) = true ∧
    (match s.sw.ctx? 1, s.sw.op? 1 0 with
     | some k, some r => r.waiting.contains (12, 0) && !r.waiting.contains (12, 1) && !mustWait s.sw k r 0 0 && !taken k 0 r 12 0 && !sampled s.sw 1 0 0 && k.heldCells.isEmpty && (s.sw.op? 1 1).isNone
     | _, _ => false) = true := by decide +kernel

/-! #### RecordRule -/

/-- Context 1 below a parent on port 8. -/
def coll8up (f : Op → Op) : State :=
  { coll8 f with sw := ((coll8 f).sw.modCtx 1 fun k => { k with canopy := { k.canopy with role := 1, parent := some 8 } }).modReg 8 fun r => { r with state := .up, detected := 3, partnerRole := 2 } }
/-- A COLL-UP cell between switches with these first bytes. -/
def recCell (pay : BitVec 512) : Cell := { hdr := collHdr 3 0 0 1 noMember 0 0, pay := pay }
theorem wit_RecordRule_parts :
    let f (n : Nat) (x q : Nat) (c : Cell) (w : Sw) (k : Ctx) : Bool := (k.memberOf q).isNone && c.tc == 3 && (match k.opOfSeq 0 with
      | some (o, r) => o == 0 && decide (SMap.find? 0 k.ops = some r) && c.le == k.leOf 0 && r.isOpen && decide (c.idx < cellsOf r.blk) && !k.storeReduction r.blk &&
          decide (c.idx < r.grants.getD q 0) && (expected k r.blk 0).contains q && r.launchAt.isNone && blkLaunch r.blk == 0 && r.once.isEmpty && !blkPrune r.blk &&
          (w.port (w.physPort x q)).q.asm.isEmpty && !recordWaits w k 0 r q c && byteAt (bytes64 c.pay) 0 == n && w.portActive (w.physPort x q)
      | none => false)
    arrives (coll8 id) 16 (recCell 0x10) (f 0x10) = true ∧ arrives (coll8 id) 16 (recCell 0) (f 0) = true := by decide +kernel
theorem wit_RecordRule_decode : arrives (coll8 id) 16 (recCell 0) (fun _ _ c _ k => match k.opOfSeq 0 with
      | some (_, r) => (match decodeRecord k r true ((bytes64 c.pay).drop 1) with
        | .ok part => attemptStands k 0 (segOf k r.blk 0) part.attempt true
        | .error _ => false)
      | none => false) = true ∧
    arrives (coll8 id) 16 (recCell (0 - 0x100)) (fun _ _ c _ k => match k.opOfSeq 0 with
      | some (_, r) => (match decodeRecord k r true ((bytes64 c.pay).drop 1) with | .ok _ => false | .error _ => true)
      | none => false) = true := by decide +kernel
theorem wit_RecordRule_discards : arrives (coll8 fun r => { r with grants := [] }) 16 (recCell 0) (fun _ q c _ k =>
      (k.opOfSeq 9).isNone && (k.opOfSeq 0).any (fun e => decide (e.2.grants.getD q 0 ≤ c.idx))) = true ∧
    arrives (coll8 fun r => { r with st := .done }) 16 { recCell 0 with hdr := collHdr 3 0 1 1 noMember 0 0 } (fun _ _ c _ k =>
      (k.opOfSeq 0).any (fun e => !e.2.isOpen && c.le != k.leOf 0)) = true ∧
    arrives (coll8up id) 8 (recCell 0) (fun _ q _ _ k => (k.opOfSeq 0).any (fun e => !(expected k e.2.blk 0).contains q)) = true ∧
    arrives (coll8 id) 12 (upCell 0) (fun _ q _ _ k => (k.memberOf q).isSome) = true := by decide +kernel
theorem wit_RecordRule_zero : arrives (coll8 fun r => { r with blk := blk64 true }) 16 (recCell 0xF0) (fun x _ c w _ =>
      pruneOf x c w && byteAt (bytes64 c.pay) 0 == 0xF0) = true ∧ arrives (coll8 id) 16 (recCell 0) (fun x _ c w _ => !pruneOf x c w) = true := by decide +kernel
theorem wit_RecordRule_notice :
    let f (ct : Nat) (_x q : Nat) (c : Cell) (_w : Sw) (k : Ctx) : Bool := c.tc == 5 && c.ctype == ct && (match k.opOfSeq c.opseq with
      | some (_, r) => r.isOpen && coversSeg k r.blk (c.f 0 4) && upPort k r.blk (segCells k r.blk (c.f 0 4)).1 == some q
      | none => false)
    arrives (coll8up id) 8 (ctrlCell ctReplay 1 noMember 0 0 []) (f ctReplay) = true ∧
    arrives (coll8up id) 8 (ctrlCell ctAnchor 1 noMember 0 0 []) (f ctAnchor) = true ∧
    arrives (coll8up fun r => { r with st := .done }) 8 (ctrlCell ctReplay 1 noMember 0 0 []) (fun _ _ _ _ k => (k.opOfSeq 0).any (fun e => !e.2.isOpen)) = true ∧
    arrives (coll8up id) 8 (ctrlCell ctAnchor 1 noMember 9 0 []) (fun _ _ c _ k => (k.opOfSeq c.opseq).isNone) = true := by decide +kernel
theorem wit_RecordRule_anchor : (Anchor.setBy { cur := 0, isSet := true, setOp := 3 } 3) = true ∧ (Anchor.setBy { cur := 0 } 3) = false := by decide

/-! #### JoinRule -/

/-- A JOIN of rank 5 to context 1 with a block, its own signature or another, and an MEPOCH. -/
def joinCellOf (ct : Nat) (b : BitVec 256) (sig : Quad) (mepoch : Nat) : Cell :=
  ctrlCell ct 1 5 0 0 (le 32 b.toNat ++ le 8 sig.toNat ++ le 1 1 ++ le 1 0 ++ le 2 0 ++ le 4 mepoch)
/-- ALL_REDUCE o of 64 FP32 elements. -/
def blkNo (o : Nat) : BitVec 256 := blk64 false + BitVec.ofNat 256 o
/-- What a JOIN meets: its operation number, and a test. -/
def joinMeets (s : State) (b : BitVec 256) (sig : Quad) (m : Nat) (f : Nat → Sw → Ctx → Child → JoinBody → Bool) : Bool :=
  arrives s 12 (joinCellOf ctJoin b sig m) fun x q c w k => x == 1 && c.tc == 5 && c.ctype == ctJoin && !k.closing && !k.graftHolds && k.recanopy.isNone && k.reshard.isNone &&
    (match k.canopy.child q with | some h => f (blkOpnum (joinOf c).blk) w k h (joinOf c) | none => false)
theorem wit_JoinRule_accept : joinMeets (coll8 fun r => { r with st := .opening, blk := blkNo 0 }) (blkNo 0) (blkSignature (blkNo 0)) 0 (fun o w k h j =>
      o == 0 && j.mepoch == k.canopy.mepoch && (match SMap.find? 0 k.ops with
        | some r => r.st == .opening && joinVerdict w 1 k r.blk 12 h j 0 false == 0
        | none => false)) = true ∧
    joinMeets (coll8 fun r => { r with st := .opening, blk := blkNo 0 }) (blk64 true) (blkSignature (blk64 true)) 0 (fun o w k h j =>
      o == 0 && (match SMap.find? 0 k.ops with | some r => joinVerdict w 1 k r.blk 12 h j 0 false == stBad || joinVerdict w 1 k r.blk 12 h j 0 false == stMismatch | none => false)) = true := by decide +kernel
theorem wit_JoinRule_mismatch : joinMeets (coll8 fun r => { r with st := .opening, blk := blkNo 0 + BitVec.ofNat 256 (place 32 64) }) (blkNo 0) (blkSignature (blkNo 0)) 0 (fun _ w k h j =>
      match SMap.find? 0 k.ops with | some r => joinVerdict w 1 k r.blk 12 h j 0 false == stMismatch | none => false) = true := by decide +kernel
theorem wit_JoinRule_window : joinMeets (coll8 id) (blkNo 33) 0 0 (fun o _ k _ _ => decide (k.windowBase + 32 ≤ o) || o == 33) = true ∧
    joinMeets (coll8 fun r => { r with st := .done }) (blkNo 0) 0 0 (fun o _ k _ _ => decide (o < k.windowBase + 32) && (SMap.find? o k.ops).any (fun r => r.st == .done)) = true ∧
    joinMeets (coll8 fun r => { r with st := .done }) (blkNo 1) (blkSignature (blkNo 1)) 0 (fun o w k h j => decide (k.windowBase ≤ o) && decide (o < k.windowBase + 32) && (SMap.find? o k.ops).isNone &&
      (SMap.find? o k.gathers).isNone && joinVerdict w 1 k j.blk 12 h j 0 false == 0) = true ∧
    joinMeets (coll8 fun r => { r with st := .done }) (blkNo 1) 0 4 (fun _ _ k _ j => decide (k.canopy.mepoch < j.mepoch)) = true := by decide +kernel
theorem wit_JoinRule_others :
    let s (f : Ctx → Ctx) : State := { coll8 id with sw := (coll8 id).sw.modCtx 1 f }
    arrives (s fun k => { k with closing := true }) 12 (joinCellOf ctJoin (blkNo 0) 0 0) (fun _ q _ _ k => k.closing && (k.canopy.child q).isSome) = true ∧
    arrives (s fun k => { k with ops := [], nextOp := 5 }) 12 (joinCellOf ctArrive (blkNo 0) 0 0) (fun _ q c _ k => decide (0 < k.windowBase) && (SMap.find? 0 k.ops).isNone && (k.canopy.child q).isSome && c.ctype == ctArrive) = true ∧
    arrives (s fun k => { k with canopy := { k.canopy with mepoch := 3 } }) 12 (joinCellOf ctJoin (blkNo 0) 0 0) (fun _ _ c _ k => decide ((joinOf c).mepoch < k.canopy.mepoch)) = true ∧
    arrives (coll8up id) 8 (ctrlCell ctJoin 1 noMember 0 0 []) (fun _ q _ _ k => (k.canopy.child q).isNone && (k.canopy.primaryOf q).isNone) = true ∧
    arrives (coll8 id) 12 (upCell 0) (fun _ _ c _ _ => c.tc != 5) = true := by decide +kernel

/-! #### StatusRule -/

/-- A JOIN_STATUS or BARRIER_RELEASE of operation 0. -/
def statusCell (ct phase status : Nat) : Cell := ctrlCell ct 1 noMember 0 0 (statusBody 0 phase status 7 0 9)
theorem wit_StatusRule_parent : arrives (coll8up fun r => { r with st := .opening, upJoin := true }) 8 (statusCell ctStatus phJoined 0) (fun _ q c _ k =>
      k.leadsToSwitch q && c.f 4 1 == phJoined && k.canopy.parent == some q && (SMap.find? 0 k.ops).any (fun r => r.st == .opening && r.upJoin)) = true ∧
    arrives (coll8up id) 8 (statusCell ctStatus phJoined 0) (fun _ _ _ _ k => (SMap.find? 0 k.ops).any (fun r => r.st == .joined)) = true ∧
    arrives (coll8up id) 8 (statusCell ctStatus phGrant 0) (fun _ _ c _ _ => c.tc == 5 && c.ctype == ctStatus && c.f 4 1 == phGrant) = true ∧
    arrives (coll8up id) 8 (statusCell ctStatus phComplete 6) (fun _ _ c _ k => c.f 4 1 == phComplete && c.f 5 1 == 6 && (SMap.find? 0 k.ops).any (fun r => r.isOpen && r.st != .committed)) = true ∧
    arrives (coll8up fun r => { r with st := .committed, blk := 0 }) 8 (statusCell ctStatus phComplete 0) (fun _ _ c _ k => c.f 5 1 == 0 && (SMap.find? 0 k.ops).any (fun r => r.isOpen && r.st == .committed && cellsOf r.blk == 0)) = true := by decide +kernel
theorem wit_StatusRule_others : arrives (coll8up id) 16 (statusCell ctStatus phComplete 0) (fun _ q _ _ k => k.leadsToSwitch q && k.canopy.parent != some q) = true ∧
    arrives (coll8up id) 12 (ctrlCell ctStatus 1 5 0 0 []) (fun _ q _ _ k => !k.leadsToSwitch q) = true ∧
    arrives (coll8up id) 8 (statusCell ctRelease phComplete 0) (fun _ _ c _ _ => c.ctype == ctRelease && c.f 4 1 == phComplete && c.f 5 1 == 0) = true ∧
    arrives (coll8up id) 16 (statusCell ctRelease phComplete 0) (fun _ q _ _ k => k.canopy.parent != some q) = true ∧
    arrives (coll8up id) 8 (ctrlCell ctCounts 1 5 9 0 []) (fun _ _ c _ k => (k.opOfSeq c.opseq).isNone && c.arg / 4096 % 2 == 0 && !k.closing && c.ctype == ctCounts) = true ∧
    arrives (coll8up fun r => { r with blk := blk64 false + BitVec.ofNat 256 (place 6 32) }) 8 (ctrlCell ctCounts 1 5 0 0 []) (fun _ _ c _ k =>
      (k.opOfSeq c.opseq).any (fun e => e.2.isOpen && blkKind e.2.blk != kPermute)) = true ∧
    arrives (coll8up id) 8 (ctrlCell ctCounts 1 5 0 4096 []) (fun _ _ c _ _ => c.arg / 4096 % 2 != 0) = true ∧
    arrives (coll8up fun r => { r with blk := 0 }) 8 { statusCell ctStatus phComplete 6 with pay := word64 (statusBody 4 phComplete 6 0 0 0) } (fun _ _ c _ k => (SMap.find? (c.f 0 4) k.ops).isNone) = true := by decide +kernel
theorem wit_StatusRule_exchange :
    let s := coll8 fun r => { r with exch := { r.exch with counts := [(5 * 65536 + 5, 64)] } }
    ((s.sw.op? 1 0).any fun r => r.st != .opening && decide (r.exch.cells.getD (5 * 65536 + 5) 0 < memberCells (r.exch.counts.getD (5 * 65536 + 5) 0) (s.sw.ecOf r 12))) = true ∧
    (((coll8 id).sw.op? 1 0).any fun r => decide (memberCells (r.exch.counts.getD (5 * 65536 + 5) 0) ((coll8 id).sw.ecOf r 12) ≤ r.exch.cells.getD (5 * 65536 + 5) 0)) = true := by decide +kernel

/-! #### AbortRule -/

/-- An ABORT_NOTICE of operation 0 with a direction and a status. -/
def abortNote (dir status : Nat) : Cell := abortCell 1 0 dir status 3
theorem wit_AbortRule_request :
    let f (r : Op → Bool) (_x q : Nat) (c : Cell) (_w : Sw) (k : Ctx) : Bool := c.tc == 5 && c.ctype == ctAbort && c.f 0 4 == 0 && c.f 4 1 == 0 &&
      k.canopy.parent != some q && (k.canopy.child q).isSome && (SMap.find? 0 k.ops).any (fun e => !k.storeReduction e.blk && r e)
    arrives (coll8up id) 16 (abortNote 0 0) (f fun r => r.isOpen) = true ∧ arrives (coll8up fun r => { r with st := .done }) 16 (abortNote 0 0) (f fun r => !r.isOpen) = true ∧
    arrives (coll8 id) 16 (abortNote 0 0) (fun x q c w k => f (fun r => r.isOpen && r.st != .committed) x q c w k && k.canopy.parent.isNone) = true ∧
    arrives (coll8 fun r => { r with st := .committed }) 16 (abortNote 0 0) (fun x q c w k => f (fun r => r.isOpen && r.st == .committed) x q c w k && k.canopy.parent.isNone) = true := by decide +kernel
theorem wit_AbortRule_decision :
    let f (st : Nat) (_x q : Nat) (c : Cell) (_w : Sw) (k : Ctx) : Bool := c.tc == 5 && c.ctype == ctAbort && c.f 4 1 == 1 && c.f 5 1 == st && k.canopy.parent == some q
    arrives (coll8up id) 8 (abortNote 1 stAborted) (f stAborted) = true ∧ arrives (coll8up id) 8 (abortNote 1 stDone) (f stDone) = true ∧
    arrives (coll8 id) 16 (recCell 0) (fun _ _ c _ _ => c.tc != 5) = true ∧ (((coll8 id).sw.op? 1 0).any fun r => r.isOpen) = true := by decide +kernel
/-- Member child 12 of context 1, with a backup on port 13 or none, and the slot of grid cell 0 begun at tick 0. -/
def late8 (b : Option Nat) (l : Word) (f : Op → Op) : State :=
  { coll8 f with sw := (coll8 f).sw.modCtx 1 fun k => { k with
      canopy := { k.canopy with children := [⟨12, false, 5, 1, none, b⟩] }, cfg := { k.cfg with lateFrames := 0 }
      slots := [(0, { sst := 1, lstart := l })] } }
theorem wit_AbortRule_late :
    (match (late8 none 0 id).sw.ctx? 1 with
     | some c => (c.slot? 0 0).any (fun t => t.lstart != BitVec.allOnes 32 && c.cfg.lateFrames - t.late == 0) &&
         (c.memberAt 12).any (fun h => h.backup.isNone)
     | none => false) = true ∧
    (((late8 none (BitVec.allOnes 32) id).sw.ctx? 1).any fun c => (c.slot? 0 0).any fun t => t.lstart == BitVec.allOnes 32) = true := by decide +kernel
theorem wit_AbortRule_backup :
    let s := (late8 (some 13) 0 fun r => { r with staging := [(cellKey 13 0, 0)], formats := [(12, 1), (13, 1)], valid := setBit (setBit 0 12) 13, blk := BitVec.ofNat 256 (place 16 64) }).sw
    (match s.ctx? 1, s.op? 1 0 with
     | some c, some r => (c.memberAt 12).any (fun h => h.backup == some 13 && !taken c 0 r h.port 0 && !blkPrune r.blk && wholeCell s c r 13 h.rankFirst 0 && !mustWait s c r 0 0)
     | _, _ => false) = true := by decide +kernel
theorem wit_AbortRule_stall :
    (match (late8 none 0 fun r => { r with opened := true }).sw.ctx? 1, (late8 none 0 fun r => { r with opened := true }).sw.op? 1 0 with
     | some c, some r => r.isOpen && r.once.isEmpty && r.opened && !r.joined.getLsbD 12 && (expected c r.blk 0).contains 12 && !taken c 0 r 12 0 &&
         firstWaiting c 0 r 12 == some 0 && (c.memberAt 12).isSome
     | _, _ => false) = true ∧
    (((late8 none 0 fun r => { r with st := .done, joined := setBit 0 12 }).sw.op? 1 0).any fun r => !r.isOpen && r.joined.getLsbD 12) = true := by decide +kernel
theorem wit_AbortRule_loss : (coll8 id).sw.ctxs.keys = [1] ∧ ((coll8 id).sw.ctx? 1).isSome = true ∧ (coll8 id).sw.up 13 = false ∧
    (((coll8 id).sw.ctx? 1).any fun c => c.disturbed == []) = true ∧ State.reset.sw.ctxs = [] := by decide +kernel
/-- Context 0 with a change pending, member port 12 UP. -/
def seed8 (b : Bool) : State := at_ fun w =>
  ((w.modReg 12 fun r => { r with state := .up, detected := 3, partnerRole := 1 }).setCtx 0 { cfg := seedCfg, canopy := {}, changePending := b }).modGlb
    fun g => { g with rebound := b, firstMemberUp := some 5 }
theorem wit_AbortRule_seed : State.reset.sw.seedIdle = false ∧ (seed8 true).sw.seedIdle = true ∧ (seed8 false).sw.seedIdle = true ∧
    (((seed8 true).sw.ctx? 0).any fun c => c.changePending) = true ∧ (seed8 true).sw.glb.rebound = true ∧ (((seed8 false).sw.ctx? 0).any fun c => !c.changePending) = true ∧
    (seed8 false).sw.glb.rebound = false ∧ (seed8 false).sw.glb.firstMemberUp.isSome = true ∧ (seed8 true).sw.seedPorts = [12] := by decide +kernel

/-! #### ContextRule -/

/-- Context 1 of job 0, which function 0 owns. -/
def own8 (f : Ctx → Ctx) (g : Op → Op) : State := { coll8 g with sw := (coll8 g).sw.modCtx 1 fun k => f { k with cfg := { k.cfg with job := 0, minor := 2 } } }
/-- A descriptor with host bytes behind it. -/
def subWith (fields : List (Nat × Nat)) (host : List Byte) : Sub := { subOf fields with host := host }
/-- A canopy record of one member child, rank 0 on port 12. -/
def canopyBytes (mepoch : Nat) : List Byte :=
  le 1 2 ++ le 1 2 ++ le 2 0xFFFF ++ le 2 1 ++ le 2 0 ++ le 4 1 ++ le 4 mepoch ++ le 16 0 ++ le 2 12 ++ le 2 0 ++ le 2 0 ++ le 2 0 ++ le 4 1 ++ le 2 0xFFFF ++ le 2 0xFFFF
/-- Port 12 UP and bound to rank 0 of job 0, event queue 0 of function 0 in service. -/
def bound8 : State := at_ fun w => (w.modReg 12 fun r => { r with state := .up, detected := 3, partnerRole := 1, binding := some ⟨0, 0, false⟩ }).modEvq 0
  fun e => { e with active := true }
/-- A CTX_CREATE of context 2. -/
def createSub : Sub := subWith [(0, 0x20), (8, 2), (13, 16), (14, 1), (15, 16), (40, 48), (44, 65536)] (canopyBytes 0)
theorem wit_ContextRule_create :
    let w := descSw 0x20 createSub bound8.sw
    let r := parseCanopy (createSub.host.take (createSub.f 40 4))
    headerStatus w 0x20 createSub = none ∧ w.evqAssigned (createCfg createSub).evq 0 = true ∧ (createCfg createSub).chunkFlag = none ∧ (createCfg createSub).streaming = false ∧
    createBad createSub = false ∧ canopyForm createSub.host (createSub.f 40 4) = true ∧ canopyValid w 2 0 r = true ∧ shardsValid w (2 ^ (createCfg createSub).seglenLog2) r = true ∧
    outsideMap w 0 r = false ∧ slotsBelow (createCfg createSub) r.children.length = false ∧ w.owns 0 0 = true ∧ r.children.length ≤ w.maxChildren ∧
    partnerBelow w r createSub.cminor = false ∧ w.ctx? createSub.ctx = none ∧ (w.setCtx 2 { cfg := { job := 0 }, canopy := {} }).ctx? 2 ≠ none := by decide +kernel
theorem wit_ContextRule_reserved :
    let w := descSw 0x20 createSub bound8.sw
    ((List.range 4).all fun g => !limitRefuses w 6 (w.homeGrove g) (placeExtents (w.reservePlaces (createCfg createSub).slots w.activeTiles) g) 0) = true ∧
    (createCtx 2 (createCfg createSub) (parseCanopy createSub.host) w).isSome = true := by decide +kernel
theorem wit_ContextRule_recanopy :
    let d (e : Nat) := subWith [(0, 0x22), (8, 2), (12, e), (16, 3), (40, 48)] (canopyBytes 3)
    let s (b : Bool) := bound8.sw.setCtx 2 { cfg := { job := 0, seglenLog2 := 16 }, canopy := { role := 2, members := 1, children := [⟨12, false, 0, 1, none, none⟩] }, nextOp := if b then 9 else 0 }
    let w := descSw 0x22 (d 0) (s false)
    let r := parseCanopy ((d 0).host.take ((d 0).f 40 4))
    headerStatus w 0x22 (d 0) = none ∧ (d 0).ctx = 2 ∧ (d 0).only [lctx, by_ 12 8, by_ 32 12] = true ∧ canopyForm (d 0).host ((d 0).f 40 4) = true ∧
    outsideMap w 0 r = false ∧ canopyValid w 2 0 r = true ∧ shardsValid w (2 ^ 16) r = true ∧ r.mepoch = (d 0).f 16 4 ∧ (s false).owns 0 0 = true ∧
    ((s false).ctx? 2).any (fun c => !c.closing && decide (c.canopy.mepoch < 3) && !c.openedFrom 0 && c.recanopy.isNone) = true ∧
    ((s true).ctx? 2).any (fun c => c.openedFrom 0) = true := by decide +kernel
theorem wit_ContextRule_bind : headerStatus (descSw 0x23 (subOf [(0, 0x23), (8, 12), (12, 5)]) bound8.sw) 0x23 (subOf [(0, 0x23), (8, 12), (12, 5)]) = none ∧
    (subOf [(0, 0x23), (8, 12), (12, 5)]).f 8 2 = 12 ∧ (subOf [(0, 0x23), (8, 12), (12, 5)]).f 10 1 = 0 ∧ bound8.sw.inMap 0 12 = true ∧ bound8.sw.up 12 = true ∧ bound8.sw.up 13 = false ∧
    bound8.sw.inMap 0 13 = true ∧ (subOf [(0, 0x23), (8, 12), (12, 5)]).only [by_ 8 3, bi_ 11 0 2, by_ 12 2] = true ∧ bound8.sw.portActive 12 = true ∧
    bound8.sw.isMember 12 = true ∧ bound8.sw.ctxs = [] ∧ bound8.sw.owns 0 0 = true := by decide +kernel
theorem wit_ContextRule_destroy : headerStatus (descSw 0x21 (subOf [(0, 0x21), (8, 1)]) (own8 id id).sw) 0x21 (subOf [(0, 0x21), (8, 1)]) = none ∧
    (subOf [(0, 0x21), (8, 1)]).ctx = 1 ∧ (subOf [(0, 0x21), (8, 1), (10, 1)]).only [lctx, bi_ 10 0 1] = true ∧ (subOf [(0, 0x21), (8, 1), (10, 1)]).flag 10 0 = true ∧
    (((own8 id id).sw.ctx? 1).any fun c => !c.closing && c.store.isNone && c.anyOpen && (own8 id id).sw.owns 0 c.cfg.job) = true ∧
    (((own8 id fun r => { r with st := .done }).sw.ctx? 1).any fun c => !c.anyOpen) = true ∧ (((coll8 id).sw.ctx? 1).any fun c => !(coll8 id).sw.owns 0 c.cfg.job) = true ∧
    (((own8 (fun k => { k with closing := true }) id).sw.ctx? 1).any fun c => c.closing) = true ∧ (own8 id id).sw.ctx? 9 = none := by decide +kernel
theorem wit_ContextRule_post :
    let b (o e : Nat) : Sub := subOf [(0, 0x24), (8, 1), (16, o), (24, e)]
    let f (s : State) (d : Sub) (g : Ctx → BitVec 256 → Bool) : Bool := (headerStatus (descSw 0x24 d s.sw) 0x24 d).isNone && d.ctx == 1 && d.only [lctx, by_ 16 32] &&
      (let blk := BitVec.ofNat 256 (d.f 16 32); !blkReserved blk && decide (blkKind blk ≤ 7) && decide (blkRedop blk ≤ 6) &&
        (s.sw.ctx? 1).any fun c => s.sw.owns 0 c.cfg.job && g c blk)
    f (own8 id id) (b 0 64) (fun c k => (SMap.find? 0 c.ops).any fun p => p.blk == k && p.isOpen && decide (c.windowBase ≤ 0)) = true ∧
    f (own8 id id) (b 0 96) (fun c k => (SMap.find? 0 c.ops).any fun p => p.blk != k && p.isOpen) = true ∧
    f (own8 id id) (b 40 64) (fun c k => decide (c.windowBase + 32 ≤ blkOpnum k)) = true ∧
    f (own8 (fun k => { k with closing := true }) id) (b 0 64) (fun c _ => c.closing) = true ∧
    f (own8 (fun k => { k with nextOp := 0 }) fun r => { r with st := .done }) (b 0 64) (fun c k => (SMap.find? 0 c.ops).any fun p => p.blk == k && !p.isOpen && decide (c.windowBase ≤ 0)) = true ∧
    f (own8 id id) (b 1 64) (fun c k => decide (c.windowBase ≤ blkOpnum k) && decide (blkOpnum k < c.windowBase + 32) && (SMap.find? 1 c.ops).isNone && (SMap.find? 1 c.gathers).isNone && c.recanopy.isNone) = true := by decide +kernel
theorem wit_ContextRule_opens :
    let d := subOf [(0, 0x24), (8, 1), (16, 1), (24, 64)]
    let u := (openOp 1 1 (blkNo 1) false (descSw 0x24 d (own8 id id).sw)).modOp 1 1 fun p => { p with posts := [descTok 0x24 d (own8 id id).sw] }
    BitVec.ofNat 256 (d.f 16 32) = blkNo 1 ∧ (u.ctx? 1).any (fun c => c.recanopy.isNone && !blockBad u 1 c (blkNo 1) false) = true ∧ (u.op? 1 1).any (fun p => p.gather.isNone) = true := by decide +kernel
theorem wit_ContextRule_abort :
    let d (o : Nat) : Sub := subOf [(0, 0x25), (8, 1), (12, o)]
    headerStatus (descSw 0x25 (d 0) (own8 id id).sw) 0x25 (d 0) = none ∧ (d 0).ctx = 1 ∧ (d 0).only [lctx, by_ 12 4] = true ∧ (d 7).f 12 4 = 7 ∧
    ((own8 id id).sw.ctx? 1).any (fun c => (SMap.find? 0 c.ops).any Op.isOpen && c.ops.mem 0 && (SMap.find? 7 c.ops).isNone && !c.ops.mem 7 && decide (c.nextOp ≤ 7)) = true ∧
    ((own8 (fun k => { k with nextOp := 9 }) fun r => { r with st := .done }).sw.ctx? 1).any (fun c => (SMap.find? 0 c.ops).any (fun p => !p.isOpen) && (SMap.find? 7 c.ops).isNone && decide (7 < c.nextOp)) = true := by decide +kernel

/-! #### TimeSyncRule -/

/-- A TIME cell of a type in domain 0 with fields from byte 9 on. -/
def timeIn (ttype seqid : Nat) (fields : List Byte) : Cell := timeCell ttype 0 seqid fields
/-- Switch port 8 UP, the time parent. -/
def timed8 (f : Sync → Sync) : State := at_ fun w =>
  (w.modReg 8 fun r => { r with state := .up, detected := 3, partnerRole := 2 }).modSync fun y => f { y with src := .port 8, ann := [(8, { sourceId := 1, cls := 0, prio := 1, steps := 1, at_ := 0 })] }
/-- What a TIME cell from port 8 meets. -/
def timeMeets (s : State) (c : Cell) (g : Cell → Sw → Bool) : Bool :=
  match ingress 8 c s.sw with | (some c', w) => c'.tc == 6 && g c' w | _ => false
theorem wit_TimeSyncRule_input : timingGood State.reset.sw (timingMessage 0 1 (BitVec.ofNat 64 (2 ^ 20))) = true ∧ timingGood State.reset.sw 0 = false ∧
    State.reset.sw.sync.inValid = false ∧ State.reset.sw.sync.inBad = 0 ∧
    (at_ fun w => w.modSync fun y => { y with inValid := true, inBad := 2, src := .self }).sw.sync.inValid = true := by decide +kernel
theorem wit_TimeSyncRule_cells :
    timeMeets (timed8 id) (timeCell 0 7 1 []) (fun c w => c.domain != w.time.domain && w.portActive 8) = true ∧
    timeMeets (timed8 id) (timeIn 0 1 []) (fun c w => c.domain == w.time.domain && c.ttype == 0 && w.timeParent == some 8 && w.sync.pairs.isEmpty) = true ∧
    timeMeets (timed8 fun y => { y with pairs := [0] }) (timeIn 0 1 []) (fun c w => !w.sync.pairs.isEmpty &&
      decide (2 * (w.sync.pairs.length : Int) * 0 = 2 * w.sync.pairs.length * stampDiff (16 * ((0 : Quad).toNat : Int) + ((0 : BitVec 4).toNat : Int)) (stampAt c 0 8) - w.sync.pairs.foldl (· + ·) 0 - w.sync.pairs.length * (w.port 8).reg.timeAsym.toInt)) = true ∧
    timeMeets (timed8 id) (timeIn 1 1 []) (fun c _ => c.ttype == 1) = true ∧
    timeMeets (timed8 fun y => { y with req := some (1, 0), t12 := some (0, 0) }) (timeIn 2 1 []) (fun c w => c.ttype == 2 && c.seqid == 1 && w.sync.req.isSome && w.sync.t12.isSome) = true ∧
    timeMeets (timed8 id) (timeIn 2 3 []) (fun c _ => c.seqid != 1) = true ∧
    timeMeets (timed8 id) (timeIn 3 1 []) (fun c w => c.ttype == 3 && w.isSwitch 8 && decide (c.f 26 1 < 15)) = true ∧
    timeMeets (upPort8 0 0) (timeIn 3 1 []) (fun c w => c.ttype == 3 && w.timeParent != some 8) = true := by decide +kernel
theorem wit_TimeSyncRule_member : (match ingress 12 (timeIn 3 1 []) (coll8 id).sw with | (some c', w) => c'.tc == 6 && !w.isSwitch 12 | _ => true) = true := by decide +kernel
theorem wit_TimeSyncRule_select : (timed8 id).sw.wantSrc = .port 8 ∧ (timed8 id).sw.sync.src = .port 8 ∧ State.reset.sw.wantSrc = .self ∧
    (timed8 fun y => { y with state := .locked, ann := [] }).sw.wantSrc = .self ∧ (timed8 fun y => { y with src := .self }).sw.wantSrc ≠ .self ∧
    (timed8 id).sw.sync.ann.mem 8 = true ∧ State.reset.sw.sync.ann.mem 8 = false ∧ (timed8 id).sw.timeParent = some 8 ∧ State.reset.sw.timeParent = none ∧
    (timed8 fun y => { y with state := .holdover }).sw.sync.state = .holdover ∧ (timed8 fun y => { y with state := .acquire, good := 15 }).sw.sync.good = 15 := by decide +kernel

/-! #### TimeFrameRule -/

/-- A FRAME_QUOTA of context 1. -/
def quotaSub (up clear : Nat) : Sub := subOf [(0, 0x70), (8, 1), (11, clear), (12, up)]
theorem wit_TimeFrameRule_tick : State.reset.sw.rcv.outvoted = [] ∧ State.reset.sw.ctxs = [] ∧ State.reset.sw.upPorts = [] ∧ (timed8 id).sw.upPorts = [8] ∧ (timed8 id).sw.portActive 8 = true ∧
    ((timed8 id).sw.port 8).q.txq = [] ∧ State.reset.sw.time.outEnable = true ∧ (upPort8 0 0).sw.upPorts = [8] ∧ (upPort8 0 0).sw.timeParent ≠ some 8 ∧
    (timed8 fun y => { y with intervals := 3, src := .self }).sw.sync.intervals % 16 ≠ 0 := by decide +kernel
theorem wit_TimeFrameRule_period : State.reset.sw.time.period = State.reset.sw.time.active ∧ (timed8 id).sw.quotaInForce 8 ≤ (timed8 id).sw.schedCap 8 9 ∧
    (let s := ((coll8up id).sw.modCtx 1 fun c => { c with quota := (60000, 0, 0) }); s.schedCap 8 9 < s.quotaInForce 8 ∧ s.upPorts = [8, 12, 16]) := by decide +kernel
theorem wit_TimeFrameRule_quota :
    let f (s : State) (d : Sub) (g : Ctx → Sw → Bool) : Bool := (headerStatus (descSw 0x70 d s.sw) 0x70 d).isNone && d.f 8 2 % 4096 == 1 && d.only [by_ 8 2 &&& ~~~ bi_ 9 4 4, by_ 10 1, bi_ 11 0 1, by_ 12 6] &&
      (s.sw.ctx? 1).any fun c => g c (withPlan 1 (d.f 10 1) (d.f 12 2, d.f 14 2, d.f 16 2) (descSw 0x70 d s.sw))
    let t : State := { own8 id id with sw := (own8 id id).sw.modCtx 1 fun c => { c with canopy := { c.canopy with role := 1, parent := some 16 } } }
    f (own8 id id) (quotaSub 0 0) (fun c w => !c.closing && (own8 id id).sw.owns 0 c.cfg.job && !planMisfit w 1 (own8 id id).sw.time.active) = true ∧
    f t (quotaSub 60000 0) (fun _ w => planMisfit w 1 t.sw.time.active) = true ∧ f (coll8 id) (quotaSub 0 0) (fun c _ => !(coll8 id).sw.owns 0 c.cfg.job) = true ∧
    f (own8 (fun c => { c with closing := true }) id) (quotaSub 0 0) (fun c _ => c.closing) = true ∧ (quotaSub 5 1).flag 11 0 = true ∧ (quotaSub 5 1).f 12 2 = 5 := by decide +kernel
theorem wit_TimeFrameRule_launch : State.reset.sw.op? 1 0 = none ∧ ((coll8 id).sw.op? 1 0).any (fun p => p.launchAt.isNone) = true ∧
    ((coll8 fun r => { r with launchAt := some 0 }).sw.op? 1 0).any (fun p => p.launchAt == some 0 && p.waiting.isEmpty && (coll8 id).sw.launched p) = true ∧
    ((coll8 fun r => { r with launchAt := some 9 }).sw.op? 1 0).any (fun p => !(coll8 id).sw.launched p) = true := by decide +kernel

/-! #### StoreRule -/

/-- Shard 0 of 2^16 parameters of context 1: OWNER, READY at version 3 unless changed. -/
def shard8 (f : Ctx → Ctx) (g : Shard → Shard) : State :=
  own8 (fun c => f { c with canopy := { c.canopy with shards := [⟨0, 65536, none, none, 1, 0, 0⟩] }
                            store := some { m64 := false, nstate := 0, sfmt := [], splace := [], gpost := false, cacheMib := 0, ranges := [(0, 65536)]
                                            shards := [(0, g { st := .ready, bank0 := { ver := some 3 } })] } }) fun r => { r with st := .done }
theorem wit_StoreRule_create :
    let d : Sub := subOf [(0, 0x30), (8, 1), (10, 1)]
    let s := (shard8 (fun c => { c with store := none }) id).sw
    headerStatus (descSw 0x30 d s) 0x30 d = none ∧ d.ctx = 1 ∧ storeBad d = false ∧ d.flag 15 1 = false ∧ s.pool.jobLimit.getD 0 0 = 0 ∧ s.owns 0 0 = true ∧
    (s.ctx? 1).any (fun c => !c.closing && !c.canopy.shards.isEmpty && c.cfg.cls == 0 && c.store.isNone && c.cfg.job == 0 && (attachStore 1 c false (createStore d c.canopy) (descSw 0x30 d s)).isSome &&
      !(createStore d c.canopy).splace.any (fun p => p == 1)) = true := by decide +kernel
theorem wit_StoreRule_full :
    let s := (shard8 (fun c => { c with store := none, canopy := { c.canopy with shards := [⟨0, 2 ^ 40, none, none, 1, 0, 0⟩] } }) id).sw
    (s.ctx? 1).any (fun c => (attachStore 1 c false (createStore (subOf [(0, 0x30), (8, 1), (10, 1)]) c.canopy) s).isNone) = true := by decide +kernel
theorem wit_StoreRule_destroy :
    let d : Sub := subOf [(0, 0x31), (8, 1)]
    headerStatus (descSw 0x31 d (shard8 id id).sw) 0x31 d = none ∧ d.only [lctx] = true ∧ (coll8 id).sw.store? 1 = none ∧
    ((shard8 id id).sw.ctx? 1).any (fun c => c.reshard.isNone && !c.anyOpen && c.store.any fun d => !(d.shards.any fun e => d.anyPinned e.1 || e.2.st == .updating || e.2.st == .waitPin)) = true ∧
    ((shard8 id fun h => { h with st := .updating }).sw.ctx? 1).any (fun c => c.store.any fun d => d.shards.vals.any fun h => h.st == .updating) = true := by decide +kernel
/-- What a descriptor of the store meets: the header checks, its shard, a test. -/
def storeMeets (s : State) (code : Nat) (d : Sub) (g : Ctx → Store → Shard → ShardEnt → Bool) : Bool :=
  (headerStatus (descSw code d s.sw) code d).isNone && d.ctx == 1 && d.hostErr.isNone && (s.sw.ctx? 1).any fun c => s.sw.owns 0 c.cfg.job &&
    (match c.store, c.canopy.shard 0 with | some t, some e => (SMap.find? 0 t.shards).any fun h => g c t h e | _, _ => false)
theorem wit_StoreRule_load :
    let d (c : Nat) : Sub := subOf [(0, 0x32), (8, 1), (11, c), (16, 9 * c), (40, 64)]
    let f (c : Nat) (_k : Ctx) (t : Store) (h : Shard) (e : ShardEnt) : Bool := (d c).only [lctx, by_ 10 1, bi_ 11 0 1, by_ 12 8, by_ 24 16, by_ 40 4] &&
      !rangeBad t e ((d c).f 10 1) ((d c).f 32 8) ((d c).f 40 4) && t.shards.mem 0 && e.srole != 0 && (h.st == .ready && !h.bankPinned h.other || h.st == .empty || h.st == .updating)
    storeMeets (shard8 id id) 0x32 (d 0) (f 0) = true ∧ storeMeets (shard8 id id) 0x32 (d 1) (f 1) = true ∧ (d 1).flag 11 0 = true ∧ (d 1).f 16 4 = 9 ∧
    storeMeets (shard8 id fun h => { h with st := .updating }) 0x32 (d 0) (fun c t h e => f 0 c t h e && h.st == .updating) = true := by decide +kernel
theorem wit_StoreRule_read :
    let d (v : Nat) : Sub := subOf [(0, 0x33), (8, 1), (16, v), (40, 64)]
    storeMeets (shard8 id id) 0x33 (d 0) (fun _ t h e => (d 0).only [lctx, by_ 10 1, by_ 12 8, by_ 24 16, by_ 40 4] && !rangeBad t e 0 0 64 && h.version == some 3 && (h.bankOf 3).isSome) = true ∧
    storeMeets (shard8 id id) 0x33 (d 8) (fun _ t _ e => (d 8).f 16 4 == 8 && (d 8).f 10 1 == 0 && !rangeBad t e 0 0 64 && !t.holdsVersion 0 8) = true := by decide +kernel
theorem wit_StoreRule_gather :
    let d (o v n : Nat) : Sub := subOf [(0, 0x34), (8, 1), (12, o), (16, v), (24, n)]
    let f (o v n : Nat) (g : Ctx → Store → Shard → Bool) : Bool := storeMeets (shard8 id id) 0x34 (d o v n) fun c t h _ => (d o v n).only [lctx, bi_ 10 0 3, by_ 12 16] && (d o v n).f 12 4 == o &&
      (d o v n).f 24 4 == n && g c t h
    f 40 0 64 (fun c _ _ => decide (c.windowBase + 32 ≤ 40)) = true ∧
    f 1 0 0 (fun c _ _ => decide (c.windowBase ≤ 1) && (ownedIn c 0 0).isEmpty && (SMap.find? 1 c.ops).isNone && (SMap.find? 1 c.gathers).isNone) = true ∧
    f 1 9 64 (fun c t _ => (ownedIn c 0 64).map Prod.fst == [0] && (gatherVersion t 0 9).isNone) = true ∧
    f 1 0 64 (fun c t h => (ownedIn c 0 64).map Prod.fst == [0] && gatherVersion t 0 0 == some 3 && decide ((t.pinOf 0 3).1 < 65535) && decide ((t.pinOf 0 3).2 < 65535) && (h.bankOf 3).isSome) = true := by decide +kernel
theorem wit_StoreRule_others :
    let d : Sub := subOf [(0, 0x35), (8, 1), (16, 3), (20, 64)]
    let l (n : Nat) : Sub := subOf [(0, 0x37), (8, 1), (40, n)]
    let r : CommitRec := { lsn := 1, kind := 1, bank := 0, prevValid := false, version := 3, gtc := 0, step := 0, clip := (0, 0) }
    storeMeets (shard8 id id) 0x35 d (fun _ t _ e => d.only [lctx, by_ 12 12] && t.shards.keys == [0] && decide (e.first < d.f 12 4 + d.f 20 4) && decide (d.f 12 4 < e.first + e.count)) = true ∧
    storeMeets (shard8 id fun h => { h with recs := (some r, some r) }) 0x37 (l 128) (fun c _ h _ => (l 128).only [lctx, by_ 24 8, by_ 40 4] && (heldEntries c.canopy.shards).map Prod.fst == [0] &&
      h.recs == (some r, some r)) = true ∧ storeMeets (shard8 id id) 0x37 (l 64) (fun c _ _ _ => decide ((l 64).f 40 4 < 128 * (heldEntries c.canopy.shards).length)) = true := by decide +kernel

/-! #### MoveRule -/

/-- Context 1 with shard 0 in a re-shard that takes effect at operation 1 and moves it below port 16. -/
def moving8 (r : Reshard → Reshard) (f : Ctx → Ctx) : State :=
  shard8 (fun c => f { c with reshard := some (r { eff := 1, shards := [⟨0, 65536, some 16, none, 0, 0, 0⟩], outgoing := [0] }) }) id
theorem wit_MoveRule_reshard :
    let bytes : List Byte := le 1 2 ++ le 1 2 ++ le 2 0xFFFF ++ le 2 1 ++ le 2 1 ++ le 4 1 ++ le 4 0 ++ le 16 0 ++ le 2 12 ++ le 2 0 ++ le 2 0 ++ le 2 0 ++ le 4 1 ++ le 2 0xFFFF ++ le 2 0xFFFF ++
      le 4 0 ++ le 4 65536 ++ le 2 0xFFFF ++ le 2 0xFFFF ++ le 1 1 ++ le 1 0 ++ le 2 0 ++ le 2 0 ++ le 14 0
    let d : Sub := subWith [(0, 0x36), (8, 2), (12, 5), (40, 80)] bytes
    let k : Canopy := { role := 2, level := 2, members := 1, children := [⟨12, false, 0, 1, none, none⟩], shards := [⟨0, 65536, none, none, 1, 0, 0⟩] }
    let s : Sw := bound8.sw.setCtx 2 { cfg := { job := 0, seglenLog2 := 16 }, canopy := k, store := some { m64 := false, nstate := 0, sfmt := [], splace := [], gpost := false, cacheMib := 0 } }
    let w := descSw 0x36 d s
    let r := parseCanopy (d.host.take (d.f 40 4))
    headerStatus w 0x36 d = none ∧ d.ctx = 2 ∧ d.f 12 4 = 5 ∧ d.only [lctx, by_ 12 4, by_ 32 12] = true ∧ canopyForm d.host (d.f 40 4) = true ∧ canopyValid w 2 0 r = true ∧
    shardsValid w (2 ^ 16) r = true ∧ reshardDiffers k r = false ∧ reshardDiffers { k with members := 2 } r = true ∧ s.owns 0 0 = true ∧ s.pool.jobLimit.getD 0 0 = 0 ∧
    (s.ctx? 2).any (fun c => !c.closing && c.reshard.isNone && !c.openedFrom 5 && c.store.isSome && (takeIncoming 2 c r.shards w).isSome) = true := by decide +kernel
theorem wit_MoveRule_timers :
    let f (s : State) (g : Ctx → Reshard → Bool) : Bool := (s.sw.ctx? 1).any fun c => c.reshard.any fun r => g c r
    f (moving8 id id) (fun c r => !r.moving && decide (r.eff ≤ c.windowBase) && (c.waitingShards r).isEmpty && r.outgoing == [0] && r.incoming.isEmpty && !r.waited) = true ∧
    f (moving8 (fun r => { r with moving := true }) id) (fun _ r => r.moving && r.outgoing.contains 0 && !r.outgoing.contains 1) = true ∧
    ((shard8 id id).sw.ctx? 1).any (fun c => c.reshard.isNone) = true := by decide +kernel
theorem wit_MoveRule_cells :
    let s (t : Option Nat) := moving8 (fun r => { r with moving := true, shards := [⟨0, 65536, t, none, 0, 0, 0⟩] }) id
    let f (kind : Nat) (g : Ctx → List ShardEnt → List ShardEnt → Reshard → Bool) (_x q : Nat) (m : Cell) (_w : Sw) (k : Ctx) : Bool := m.tc == 4 && m.cmember == noMember && (k.memberOf q).isNone &&
      bytesAt (bytes64 m.pay) 0 2 == 0 && byteAt (bytes64 m.pay) 2 == kind && byteAt (bytes64 m.pay) 3 == 0 &&
      (match k.moveOf m, k.reshard with | some (_, _, old, new, _), some r => g k old new r && r.moving && r.outgoing.contains 0 | _, _ => false)
    arrives (s (some 16)) 16 (moveCell 1 1 1 0 mkData 0 []) (f 0 fun _ _ new _ => new[0]?.any fun e => e.toward == some 16) = true ∧
    arrives (s (some 16)) 16 (moveCell 1 1 1 0 mkOk 0 []) (f 1 fun _ old new _ => (old[0]?.any fun e => e.toward.isNone) && new[0]?.all fun e => e.srole != 2) = true ∧
    arrives (s (some 16)) 16 (moveCell 1 1 1 0 mkBad 0 []) (f 2 fun _ old _ _ => old[0]?.any fun e => e.toward.isNone) = true ∧ ((s none).sw.shard? 1 0).isSome = true ∧
    arrives (s (some 16)) 16 (moveCell 1 9 1 0 mkData 0 []) (fun _ _ m _ k => (k.moveOf m).isNone) = true := by decide +kernel
/-- A store reduction 0 of 64 elements in context 1, anchor known, the slot of grid cell 0 HELD. -/
def held8 (full : Bool) : State :=
  let s := shard8 (fun c => { c with nextOp := 1, slots := [(slotKey 0 0, { sst := 2 })] }) fun h =>
    { h with grad := [(0, { vals := [], nan := 0, pinf := 0, ninf := 0, full := full, ovf := false, avg := false, attempt := 0, anchor := 0, opnum := 0 })] }
  { s with sw := s.sw.modOp 1 0 fun p => { p with st := .joined, blk := BitVec.ofNat 256 (place 64 64 + place 1 32), segAnchor := [(0, 8)] } }
theorem wit_MoveRule_area :
    (match (held8 false).sw.ctx? 1, (held8 false).sw.op? 1 0 with
     | some c, some p => c.storeReduction p.blk && !(held8 false).sw.gradFull 1 c p.blk 0 && (c.slot? 0 0).any (fun t => t.sst == 2 && !(t.value (c.mode p) c.cfg.acc64).overflows c.cfg.g &&
         (gradWrite 1 0 0 (usedAnchor c p 0) { t.value (c.mode p) c.cfg.acc64 with attempt := c.attemptOf 0 0 } (held8 false).sw).1) && (upPort c p.blk 0).isNone && p.isOpen && p.segAnchor.mem (segOf c p.blk 0)
     | _, _ => false) = true ∧
    (match (held8 true).sw.ctx? 1, (held8 true).sw.op? 1 0 with | some c, some p => (held8 true).sw.gradFull 1 c p.blk 0 | _, _ => false) = true := by decide +kernel
theorem wit_MoveRule_pin : ((shard8 id fun h => { h with st := .waitPin }).sw.shard? 1 0).any (fun h => h.st == .waitPin && !h.bankPinned h.other) = true ∧
    ((shard8 id id).sw.shard? 1 0).any (fun h => h.st == .ready) = true ∧ ((shard8 id id).sw.ctx? 1).any (fun c => (c.canopy.shard 0).isSome) = true ∧
    ((shard8 (fun c => { c with canopy := { c.canopy with shards := [] } }) fun h => { h with st := .waitPin }).sw.ctx? 1).any (fun c => (c.canopy.shard 0).isNone) = true := by decide +kernel

/-! #### UpdateRule -/

/-- A kernel of one word: OUT of the master. -/
def kernelBytes : List Byte := le 4 0
/-- A kernel that multiplies nothing and writes nothing. -/
def anyKernel : Kernel := { job := 0, fp64 := false, pre := [], main := [0] }
theorem wit_UpdateRule_kernel :
    let d : Sub := subWith [(0, 0x40), (8, 5), (12, 1)] kernelBytes
    let bad : Sub := subWith [(0, 0x40), (8, 5), (12, 1)] (le 4 0xFFFFFFFF)
    headerStatus (descSw 0x40 d State.reset.sw) 0x40 d = none ∧ d.only [by_ 8 1, bi_ 10 0 1, by_ 11 2, by_ 24 8] = true ∧ d.f 11 1 = 0 ∧ d.f 12 1 = 1 ∧ d.f 24 8 % 64 = 0 ∧
    State.reset.sw.jobOfFunc 0 = some 0 ∧ (loadKernel d 0).valid = true ∧ (loadKernel bad 0).valid = false ∧ State.reset.sw.stepUses 5 = false ∧ State.reset.sw.kernelForeign 0 5 = false ∧
    State.reset.sw.layerUses 5 = false ∧ headerStatus (descSw 0x41 (subOf [(0, 0x41), (8, 5)]) State.reset.sw) 0x41 (subOf [(0, 0x41), (8, 5)]) = none ∧
    (subOf [(0, 0x41), (8, 5)]).only [by_ 8 1] = true := by decide +kernel
/-- A layer of kernel 5. -/
def layer5 : LayerCfg := parseLayer (le 1 5 ++ le 255 1)
/-- A step of group 0 with shard 0 left. -/
def step8 (f : Step → Step) (g : Shard → Shard) (h : Store → Store) : State :=
  let s := shard8 (fun c => { c with store := c.store.map fun t => h { t with layers := [(0, layer5)], steps := [(0, f { step := 7, global := false, resume := false, policy := 0, maxnorm := 0, hs := [0, 0, 0, 0], sig := 0, cfg := [(0, layer5)], left := [0] })] } }) g
  { s with sw := s.sw.modKernels (SMap.set 5 anyKernel) }
theorem wit_UpdateRule_used : (step8 id id id).sw.stepUses 5 = true ∧ (step8 id id id).sw.layerUses 5 = true := by decide +kernel
theorem wit_UpdateRule_layer :
    let d (c : Nat) (h : List Byte) : Sub := subWith [(0, 0x42), (8, 1), (12, c)] h
    storeMeets (step8 id id id) 0x42 (d 1 []) (fun _ _ _ _ => (d 1 []).only [lctx, by_ 10 2, bi_ 12 0 1, by_ 24 8] && (d 1 []).flag 12 0) = true ∧
    storeMeets (step8 id id id) 0x42 (d 0 (le 256 5)) (fun c t _ _ => !layerBad (step8 id id id).sw c.cfg.job t (le 256 5) && !(d 0 []).flag 12 0 &&
      (layerSpace 1 (step8 id id id).sw).isSome && t.layers.erase 0 == [] && t.layers.erase 1 != []) = true ∧
    storeMeets (step8 id id id) 0x42 (d 0 (le 256 6)) (fun c t _ _ => layerBad (step8 id id id).sw c.cfg.job t (le 256 6)) = true := by decide +kernel
theorem wit_UpdateRule_step :
    let d (u n : Nat) : Sub := subOf [(0, 0x43), (8, 1), (10, u), (12, n)]
    let f (u n : Nat) (s : State) (g : Ctx → Store → Bool) : Bool := storeMeets s 0x43 (d u n) fun c t _ _ => (d u n).only [lctx, by_ 10 6, bi_ 16 0 4, by_ 20 36] && (d u n).f 40 16 == 0 &&
      (d u n).bits 16 2 2 != 3 && !(d u n).flag 16 1 && g c t
    f 0 7 (step8 id id id) (fun c t => (c.groupShards 0).all (fun k => !shardRefused (step8 id id id).sw c t k) && c.groupShards 0 == [0] && (SMap.find? 0 t.steps).any fun st => st.st != .done) = true ∧
    f 0 7 (step8 (fun st => { st with st := .done }) id id) (fun _ t => (SMap.find? 0 t.steps).any fun st => st.st == .done) = true ∧
    f 9 7 (step8 id id id) (fun c t => (c.groupShards 9).isEmpty && (SMap.find? 9 t.steps).isNone) = true ∧
    f 0 7 (step8 id id fun t => { t with layers := [] }) (fun c t => (c.groupShards 0).any fun k => shardRefused (step8 id id id).sw c t k) = true := by decide +kernel
theorem wit_UpdateRule_abort :
    let d (n : Nat) : Sub := subOf [(0, 0x44), (8, 1), (12, n)]
    storeMeets (step8 id id id) 0x44 (d 7) (fun _ t _ _ => (d 7).only [lctx, by_ 10 6] && (d 7).f 12 4 == 7 && (d 8).f 12 4 == 8 && (SMap.find? 0 t.steps).any fun st => st.step == 7 && st.st != .done) = true ∧
    storeMeets (step8 (fun st => { st with st := .done }) id id) 0x44 (d 7) (fun _ t _ _ => (SMap.find? 0 t.steps).any fun st => st.st == .done) = true := by decide +kernel
theorem wit_UpdateRule_policy :
    let d : Sub := subOf [(1, 1), (0, 0x51), (8, 1), (10, 2), (11, 8), (12, 2), (13, 8)]
    let r (n : Nat) : Sub := subOf [(1, 1), (0, 0x52), (8, 1), (40, n)]
    storeMeets (shard8 id id) 0x50 (subOf [(1, 1), (0, 0x50), (8, 1), (10, 1)]) (fun c _ _ _ => !c.closing && (subOf [(1, 1), (0, 0x50), (8, 1), (10, 1)]).only [lctx, bi_ 10 0 1]) = true ∧
    storeMeets (shard8 (fun c => { c with closing := true }) id) 0x50 (subOf [(1, 1), (0, 0x50), (8, 1), (10, 1)]) (fun c _ _ _ => c.closing) = true ∧
    storeMeets (shard8 id id) 0x51 d (fun _ _ _ _ => d.only [lctx, bi_ 10 0 2, by_ 11 3] && d.f 11 1 == 8 && d.f 12 1 == 2 && d.f 13 1 == 8 && d.flag 10 1) = true ∧
    storeMeets (shard8 id id) 0x52 (r 16) (fun c _ _ _ => (r 16).only [lctx, by_ 24 8, by_ 40 4] && decide (16 * (heldEntries c.canopy.shards).length ≤ (r 16).f 40 4) &&
      decide ((r 8).f 40 4 < 16 * (heldEntries c.canopy.shards).length)) = true := by decide +kernel

/-! #### UpdateWorkRule -/

/-- A NORM cell between switches. -/
def normIn (kind : Nat) : Cell := normCell 1 (normBody 7 0 kind false false 5 0 0 1 0)
/-- Context 1 below a parent on port 8, with a store. -/
def normAt (p : Option Nat) : State := { shard8 id id with sw := ((shard8 id id).sw.modCtx 1 fun c => { c with canopy := { c.canopy with parent := p, children := if p.isSome then [] else c.canopy.children } }).modReg 8 fun r => { r with state := .up, detected := 3, partnerRole := 2 } }
theorem wit_UpdateWorkRule_norm :
    arrives (normAt none) 16 (normIn 0) (fun _ q m _ k => m.tc == 5 && m.ctype == ctNorm && k.canopy.switchPorts.contains q && m.f 6 1 == 0 && k.canopy.parent.isNone && k.store.any fun t =>
      ((t.norms.getD (m.f 4 2) {}).known 7).isNone && !(t.norms.getD (m.f 4 2) {}).contribs.mem (m.f 26 2)) = true ∧
    arrives (normAt (some 8)) 8 (normIn 1) (fun _ q m _ k => m.tc == 5 && m.ctype == ctNorm && k.canopy.parent == some q && m.f 6 1 == 1 && k.canopy.switchChildren.isEmpty) = true ∧
    arrives (shard8 (fun c => { c with canopy := { c.canopy with parent := some 8 } }) id) 16 (normIn 0) (fun _ q m _ k => m.tc == 5 && k.canopy.parent != some q && k.canopy.switchPorts.contains q) = true ∧
    arrives (normAt none) 16 (recCell 0) (fun _ _ m _ _ => m.tc != 5) = true := by decide +kernel
theorem wit_UpdateWorkRule_counted :
    let s := { normAt none with sw := (normAt none).sw.modStore 1 fun t => { t with norms := [(0, { step := 7 })] } }
    arrives s 16 (normCell 1 (normBody 7 0 0 false false 5 0 0 0 0)) (fun _ _ m _ k => k.store.any fun t => (t.norms.getD (m.f 4 2) {}).step == m.f 0 4 && m.f 28 4 == 0 &&
      decide (0 < (k.canopy.shards.filter fun e => e.ugroup == m.f 4 2).length)) = true := by decide +kernel
theorem wit_UpdateWorkRule_waits :
    let f (s : State) (g : Ctx → Store → Step → Bool) : Bool := (s.sw.ctx? 1).any fun c => c.store.any fun t => (s.sw.step? 1 0).any fun st => g c t st
    f (step8 id id id) (fun c t st => st.st == .gradWait && st.left.all fun k => match SMap.find? k t.shards, c.canopy.shard k with | some h, some e => !h.allFull e.count | _, _ => false) = true ∧
    f { step8 (fun st => { st with st := .normWait, snap := some {} }) id id with sw := (step8 (fun st => { st with st := .normWait, snap := some {} }) id id).sw.modCtx 1 fun c => { c with canopy := { c.canopy with parent := some 8, role := 1 } } }
      (fun c _ st => st.st == .normWait && st.snap.isSome && c.canopy.parent == some 8 && !c.isRoot && minOf ((c.groupShards 0).filter c.ownsShard) == some 0) = true := by decide +kernel
/-- Shard 0 of a running step, UPDATING. -/
def run8 (f : Step → Step) : State := step8 (fun st => f { st with st := .running, active := [0] }) (fun h => { h with st := .updating }) id
theorem wit_UpdateWorkRule_commit :
    let s (f : Step → Step) : Sw := (run8 f).sw
    let ok (s : Sw) : Bool := s.workingOn 1 0 0 && !s.idles 1 0 0 && !s.layerWaits 1 0 && (s.pass 1 0 0).any fun p => p.h.st == .updating && (s.rootDown p.h).isNone && p.h.lostTier2.isNone
    ok (s fun st => { st with skip := true }) = true ∧ ok (s id) = true ∧ (s id).workingOn 1 0 1 = false ∧ (s id).readsBank 1 0 1 = false ∧ (s id).readsBank 1 0 0 = true ∧ ((s id).step? 1 0).any (fun st => !st.skip && st.acc.isNone) = true ∧
    (s fun st => { st with active := [], idleSkip := true }).idles 1 0 0 = true ∧ (s fun st => { st with active := [], idleSkip := true }).workingOn 1 0 0 = true := by decide +kernel
/-- A shard of 32 parameters, so that its nest is short. -/
def run32 : Sw := (run8 id).sw.modCtx 1 fun c => { c with canopy := { c.canopy with shards := [⟨0, 32, none, none, 1, 0, 0⟩] } }
theorem wit_UpdateWorkRule_output : (run32.pass 1 0 0).any (fun p => (p.main [] 4).sat.isNone && p.ovfCell.isNone) = true := by decide +kernel
theorem wit_UpdateWorkRule_waiting :
    let l : LayerCfg := { layer5 with fact := 1, cols := 32 }
    let s : Sw := (step8 (fun st => { st with st := .running, active := [0], cfg := [(0, l)] }) (fun h => { h with st := .updating }) fun t => { t with nstate := 1, sfmt := [0], splace := [0] }).sw
    s.layerWaits 1 0 = true ∧ (s.ctx? 1).any (fun c => (s.step? 1 0).any fun st => st.st == .running && st.layer c == 0 && (st.now c).filter (fun k => !s.idles 1 0 k) == [0]) = true ∧
    (s.pass 1 0 0).any (fun p => ((s.modStep 1 0 fun st => { st with factors := p.allFactors.foldl (fun m e => m.set e.1 e.2) st.factors }).pass 1 0 0).isSome) = true := by decide +kernel
theorem wit_UpdateWorkRule_migrate :
    let f (g : Shard → Shard) : Sw := { shard8 id g with sw := (shard8 id g).sw.modMigs (SMap.set 0 [(1, 0)]) }.sw
    let ok (s : Sw) (t : Ctx → Store → Shard → ShardEnt → Bool) : Bool := s.migQueues.getD 0 [] == [(1, 0)] && (match s.ctx? 1, s.store? 1, s.shard? 1 0 with | some c, some d, some h => (c.canopy.shard 0).any fun e => t c d h e | _, _, _ => false)
    ok (f fun h => { h with mig := .queued, promote := true }) (fun c t h e => h.st == .ready && h.mig == .queued && h.promote && (poolTake 6 0 (t.autoExtents e.count) (some c.cfg.job) (.store 1) (f fun h => { h with mig := .queued, promote := true })).isSome) = true ∧
    ok (f fun h => { h with mig := .queued }) (fun _ t h e => !h.promote && (takeT2 (t2Extents t t.autos e.count) (0, 0) (f fun h => { h with mig := .queued })).isSome) = true ∧
    ok (f fun h => { h with mig := .copying, promote := true }) (fun _ _ h _ => h.mig == .copying && !h.migWait && h.promote && ((f id).rootDown h).isNone) = true ∧
    State.reset.sw.migQueues.getD 0 [] = [] ∧ ok (f id) (fun _ _ h _ => h.mig != .queued && h.mig != .copying) = true := by decide +kernel

/-! #### RepairRule -/

theorem wit_RepairRule_cells :
    let ack (d : Nat) := ctrlCell ctAck 1 noMember 0 0 (le 4 0 ++ le 1 d)
    arrives (coll8 id) 16 (ack 0) (fun _ q m _ k => m.tc == 5 && m.ctype == ctAck && m.f 4 1 == 0 && (k.canopy.child q).any fun h => h.isSwitch) = true ∧
    arrives (coll8up id) 8 (ack 1) (fun _ q m _ k => m.ctype == ctAck && m.f 4 1 == 1 && k.canopy.parent == some q) = true ∧
    arrives (coll8up id) 8 (reinjectCell 1 0 noMember 0 0 1 0) (fun _ q m _ k => m.ctype == ctReinject && k.leadsToSwitch q && m.arg % 4 == 0 && (SMap.find? 0 k.ops).any Op.isOpen) = true ∧
    arrives (coll8up id) 16 (reinjectCell 1 7 noMember 1 0 1 0) (fun _ q m _ k => m.arg % 4 == 1 && (SMap.find? (m.f 0 4) k.ops).isNone && k.canopy.parent == some 8 && q != 8 && k.leadsToSwitch q) = true ∧
    arrives (coll8up fun r => { r with st := .done }) 8 (reinjectCell 1 0 noMember 0 0 1 0) (fun _ _ _ _ k => (SMap.find? 0 k.ops).any fun r => !r.isOpen) = true ∧
    arrives (coll8 id) 16 (recCell 0) (fun _ _ m _ _ => m.tc != 5) = true := by decide +kernel
theorem wit_RepairRule_result : arrives (coll8 fun r => { r with sentTo := [(16, addSet 0 0)], retained := [(0, { bytes := [], float := false, kept := true })] }) 16 (reinjectCell 1 0 noMember 1 0 1 0) (fun _ q m _ k =>
      m.arg % 4 == 1 && (SMap.find? 0 k.ops).any fun r => r.isOpen && (List.range (cellsOf r.blk)).all fun i =>
        !(inSet (cellSet r (fun i => decide (m.f 4 4 ≤ i) && decide (i ≤ m.f 8 4) && inSet (r.sentTo.getD q 0) i && (targets k r.blk i).contains q)) i) || ((SMap.find? i r.retained).any fun e => e.kept)) = true := by decide +kernel
theorem wit_RepairRule_digest :
    let s (r : Rec → Rec) : State := own8 (fun c => { c with digests := [(0, [(2 * 65536 + 16, { dig := 5, cells := 1 })])] }) id |> fun s => { s with sw := s.sw.modRec r }
    let f (g : Digest → Bool) (_x q : Nat) (m : Cell) (w : Sw) (k : Ctx) : Bool := m.ctype == ctDigest && m.f 4 1 == 0 && m.f 20 1 == 0 && w.rcv.compares.isEmpty && (k.digest? 0 (counterpart 0) q).any g
    arrives (s id) 16 (digestCell 1 0 noMember 0 0 (some { dig := 5, cells := 1 })) (f fun d => d.agrees ⟨5, 1, false⟩) = true ∧
    arrives (s id) 16 (digestCell 1 0 noMember 0 0 (some { dig := 6, cells := 1 })) (f fun d => !d.agrees ⟨6, 1, false⟩) = true ∧
    arrives (s id) 16 (ctrlCell ctDigest 1 noMember 0 0 (le 4 0 ++ le 1 8)) (fun _ _ m _ _ => m.f 4 1 == 8) = true ∧
    arrives (own8 id id |> fun s => { s with sw := s.sw.modRec fun r => { r with compares := [{ ctx := 1, opnum := 0, ports := [16], answers := [], tok := descTok 0x82 (subOf []) s.sw }] } }) 16
      (digestCell 1 0 noMember 0 0 none) (fun x q m w k => m.f 4 1 == 0 && (w.rcv.compares.all fun e => e.ctx == x && e.opnum == 0 && e.ports.contains q) && w.rcv.compares.length == 1 && (k.digest? 0 2 q).isNone) = true := by decide +kernel
theorem wit_RepairRule_compare :
    let d (q : Nat) : Sub := subOf [(0, 0x82), (8, 1), (10, q)]
    storeMeets (shard8 id id) 0x82 (d 16) (fun c _ _ _ => (d 16).only [lctx, by_ 10 6] && !c.closing && c.canopy.ports.contains ((d 16).f 10 2) && !c.canopy.ports.contains ((d 9).f 10 2)) = true ∧
    State.reset.sw.rcv.compares.isEmpty = true ∧ (d 9).f 10 2 ≠ 0xFFFF := by decide +kernel
theorem wit_RepairRule_config :
    let d (l : Nat) : Sub := subOf [(0, 0x80), (8, l), (9, 1), (10, 1), (12, 1)]
    headerStatus (descSw 0x80 (d 16) State.reset.sw) 0x80 (d 16) = none ∧ (d 16).only [by_ 8 5, bi_ 13 0 2, by_ 16 4] = true ∧ (d 16).f 8 1 = 16 ∧ (d 17).f 8 1 = 17 ∧ (d 16).f 9 1 = 1 ∧ (d 16).f 10 2 = 1 ∧
    (d 16).f 12 1 = 1 ∧ (d 16).f 16 4 = 0 := by decide +kernel
theorem wit_RepairRule_read :
    let d (l n : Nat) : Sub := subOf [(0, 0x81), (8, 1), (10, l), (40, n)]
    let a (v : Nat) : Sub := subOf [(0, 0x85), (8, 1), (12, v)]
    let t : State := own8 (fun c => { c with canopy := { c.canopy with role := 2 } }) id
    storeMeets (shard8 id id) 0x81 (d 2 64) (fun c _ _ _ => (d 2 64).only [lctx, by_ 10 1, by_ 12 4, by_ 24 8, by_ 40 4] && (recReadBytes c 2 0 (shard8 id id).sw).length == 64 && (d 3 64).f 10 1 == 3 && (d 2 0).f 40 4 == 0) = true ∧
    headerStatus (descSw 0x85 (a 1) t.sw) 0x85 (a 1) = none ∧ (a 1).only [lctx, by_ 12 4] = true ∧ (t.sw.ctx? 1).any (fun c => c.isRoot && decide (c.stepAck ≤ 1) && decide (1 ≤ c.nextOp) && decide (c.nextOp < (a 9).f 12 4)) = true := by decide +kernel
theorem wit_RepairRule_anchor :
    let d (r n : Nat) : Sub := subOf [(0, 0x86), (1, 2), (8, 1), (10, r), (12, 5), (16, 9), (40, n)]
    let s (o : Nat) : State := own8 (fun c => { c with nextOp := 0, ops := [] }) id |> fun s => { s with sw := s.sw.modRec fun r => { r with anchors := [(5, [(0, { cur := 8, isSet := true, setOp := o })])] } }
    headerStatus (descSw 0x86 (d 0 0) (s 3).sw) 0x86 (d 0 0) = none ∧ (d 0 0).ctx = 1 ∧ (d 2 0).f 10 1 = 2 ∧ (d 0 0).only [lctx, by_ 10 1, bi_ 11 0 1, by_ 12 2 &&& ~~~ bi_ 13 4 4, by_ 16 4, by_ 24 8, by_ 40 4] = true ∧
    ((s 3).sw.ctx? 1).any (fun c => !c.closing && !c.openedFrom 0 && (anchorRun c.anchors).length == 0) = true ∧
    (SMap.find? 5 (s 3).sw.rcv.anchors).any (fun es => (anchorsAsOf es 9).isSome) = true ∧ (SMap.find? 5 (s 12).sw.rcv.anchors).any (fun es => (anchorsAsOf es 9).isNone) = true := by decide +kernel

/-! #### GraftRule -/

/-- The graft test as changed. -/
def graft8 (f : Graft → Graft) (s : State) : State := { s with sw := s.sw.modTestGraft f }
theorem wit_GraftRule_test :
    let d (p : Nat) : Sub := subOf [(0, 0x83), (8, p)]
    let s (g : GraftSt) : State := graft8 (fun r => { r with st := g }) State.reset
    headerStatus (descSw 0x83 (d 8) State.reset.sw) 0x83 (d 8) = none ∧ (d 8).only [by_ 8 3, by_ 16 16] = true ∧ State.reset.sw.portActive 8 = true ∧ State.reset.sw.portActive 512 = false ∧ (d 512).f 8 2 = 512 ∧
    State.reset.sw.rcv.graft.running = false ∧ (s .tested).sw.rcv.graft.running = false ∧ headerStatus (descSw 0x83 (d 8) (s .tested).sw) 0x83 (d 8) = none ∧
    (s .linkTest).sw.rcv.graft.running = true ∧ headerStatus (descSw 0x83 (d 8) (s .linkTest).sw) 0x83 (d 8) = none := by decide +kernel
theorem wit_GraftRule_steps :
    let s (g : Graft → Graft) : Sw := (graft8 g (upPort8 0 5)).sw
    let k : LinkBase := linkBase ((s id).port 8).cnt
    (bitsOf (1 : BitVec 512)).find? (at_ fun w => w.modReg 0 fun r => { r with state := .outOfService }).sw.portOut = some 0 ∧ (s fun g => { g with st := .selfTest }).rcv.graft.st = .selfTest ∧
    (bitsOf (1 : BitVec 512)).all (fun n => !(s id).portOut n) = true ∧ (List.range 24).all (fun k => !(s id).stackPopulated k || ((s id).stack k).state != .failed) = true ∧
    linkPass (s id) 8 k = true ∧ linkPass (s id) 8 { k with crc := k.crc + 1 } = false ∧ (s fun g => { g with st := .linkTest, base := [(8, k)] }).rcv.graft.base.all (fun e => linkPass (s id) e.1 e.2) = true ∧
    (s fun g => { g with st := .vectors }).rcv.graft.own = none ∧ (s fun g => { g with st := .vectors, peer := some 1 }).rcv.graft.peer = some 1 := by decide +kernel
theorem wit_GraftRule_tiles : State.reset.sw.logicalTiles.all State.reset.sw.inService = true := by decide +kernel
theorem wit_GraftRule_copy :
    let d : Sub := subOf [(0, 0x84), (8, 1), (10, 16), (12, 1), (16, 9)]
    let s : State := graft8 (fun r => { r with st := .tested }) (own8 id id)
    headerStatus (descSw 0x84 d s.sw) 0x84 d = none ∧ d.ctx = 1 ∧ d.bits 12 0 2 = 1 ∧ d.only [lctx, by_ 10 2, bi_ 12 0 2, by_ 16 4] = true ∧
    (s.sw.ctx? 1).any (fun c => !c.closing && c.leadsToSwitch 16 && !c.leadsToSwitch 9 && c.graft.st == .idle && c.graft.src != 16) = true ∧
    (graft8 id (own8 (fun c => { c with nextOp := 0, ops := [] }) id)).sw.ctx? 1 ≠ none ∧ ((own8 (fun c => { c with nextOp := 0, ops := [] }) id).sw.ctx? 1).any (fun c => !c.openedFrom 0 && c.leadsToSwitch 16) = true := by decide +kernel
theorem wit_GraftRule_vectors :
    let c (k : Nat) : Cell := graftCell 0 k 0xFFFF 0 (le 8 77)
    let f (s : State) (k : Nat) (g : Cell → Sw → Bool) : Bool := match ingress 16 (c k) s.sw with | (some m, w) => (c k).tc == 5 && (c k).ctype == ctGraft && decide ((c k).f 0 1 ≤ 1) && g m w | _ => false
    f (own8 id id) 0 (fun m w => w.isSwitch 16 && m.f 0 1 == 0 && (SMap.find? 16 w.rcv.graft.ran).isNone) = true ∧
    f (graft8 (fun g => { g with ran := [(16, 77)] }) (own8 id id)) 0 (fun m w => SMap.find? 16 w.rcv.graft.ran == some (m.q 8)) = true ∧
    f (graft8 (fun g => { g with st := .vectors, partner := 16 }) (own8 id id)) 1 (fun m w => m.f 0 1 == 1 && w.rcv.graft.st == .vectors && w.rcv.graft.partner == 16 && w.rcv.graft.own.isNone) = true ∧
    f (own8 id id) 1 (fun m w => m.f 0 1 == 1 && w.rcv.graft.st != .vectors) = true := by decide +kernel
theorem wit_GraftRule_cells :
    let g (f : GraftCtx → GraftCtx) : State := own8 (fun c => { c with graft := f c.graft }) id
    let src (r : GraftCtx) : GraftCtx := { r with st := .copying, src := 16, scope := 1, images := [(0, {})] }
    arrives (g id) 16 (graftCell 1 2 0xFFFF 0 (le 4 3)) (fun _ q m _ k => m.tc == 5 && m.ctype == ctGraft && k.leadsToSwitch q && m.f 0 1 == 2 && m.f 2 2 == 0xFFFF && (SMap.find? q k.graft.serving).isNone) = true ∧
    arrives (g src) 16 (graftCell 1 3 0xFFFF 0 (le 4 3)) (fun _ q m _ k => m.f 0 1 == 3 && k.graft.src == q && k.graft.st == .copying && !k.graft.anchorsDone && k.graft.scope % 2 == 1 &&
      m.f 4 4 == (k.graft.anchorBytes.length + 47) / 48 && !allZero (((m.bytes 64).drop 8).take 48)) = true ∧
    arrives (g src) 16 (graftCell 1 7 0 0 []) (fun _ q m _ k => m.f 0 1 == 7 && k.graft.src == q && k.graft.st == .copying && k.graft.images.mem (m.f 2 2)) = true ∧
    (graftCell 1 7 0 0 []).f 0 1 = 7 ∧ arrives (own8 id id) 16 (recCell 2) (fun _ _ m _ _ => m.tc != 5) = true ∧ (recCell 2).f 0 1 = 2 ∧ ((g src).sw.ctx? 1).any (fun c => c.graft.st == .copying) = true := by decide +kernel

/-! #### RouteRule -/

theorem wit_RouteRule_write :
    let f (h : List Byte) (v table n : Nat) (g : Sub → RouteVer → List (List Byte) → Bool) : Bool :=
      let b := subWith [(0, 0x60), (8, v), (9, table), (12, n), (40, n * routeBytes table)] h
      let es := chunks (routeBytes table) (b.host.take (n * routeBytes table))
      (headerStatus (descSw 0x60 b State.reset.sw) 0x60 b).isNone && b.only [bi_ 8 0 1, by_ 9 1, bi_ 10 0 1, by_ 12 4, by_ 24 8, by_ 40 4] && es.length == n && b.hostErr.isNone &&
        b.f 40 4 == n * routeBytes table && b.bits 8 0 1 == v && b.f 9 1 == table && !b.flag 10 0 && g b (State.reset.sw.ver v) es
    let edge (p : Nat) : List Byte := le 2 5 ++ le 2 8 ++ le 2 p ++ le 1 1 ++ le 1 0
    f (edge 9) 1 3 1 (fun _ v es => v.st == .standby && es.all (routeForm 3) && pathsGood (es.foldl (RouteVer.write 3) v) && (es.foldl (RouteVer.write 3) v).count 3 == 1 && (v.written 3 es).isSome) = true ∧
    f (edge 8) 1 3 1 (fun _ v es => v.st == .standby && (v.written 3 es).isNone) = true ∧
    f (edge 9) 0 3 1 (fun _ v _ => v.st != .standby) = true ∧ f [] 1 3 0 (fun _ _ es => es.isEmpty) = true ∧
    f (le 1 7 ++ le 1 1 ++ le 2 0 ++ le 2 3 ++ le 2 8 ++ le 6 0xFFFFFFFFFFFF ++ le 2 0) 1 0 1 (fun _ v es => es.all (routeForm 0) && ranksGood (es.foldl writeRank v.rank.vals) && (es.foldl writeRank v.rank.vals).length == 1) = true ∧
    f (le 2 8 ++ le 2 1 ++ le 2 2 ++ le 2 1) 0 4 1 (fun _ _ es => es.all (routeForm 4) && es.all fun e => !State.reset.sw.up (bytesAt e 0 2)) = true ∧
    (upPort8 0 5).sw.up 8 = true := by decide +kernel
theorem wit_RouteRule_read :
    let b : Sub := subOf [(0, 0x63), (8, 1)]
    headerStatus (descSw 0x63 b State.reset.sw) 0x63 b = none ∧ b.only [bi_ 8 0 1, by_ 9 1, by_ 24 8, by_ 40 4] = true ∧ b.f 9 1 = 0 ∧ (routeTable State.reset.sw 1 0).length = 0 ∧ b.f 40 4 = 0 ∧
    (routeTable (at_ fun w => w.modVer 1 fun v => { v with edge := [(1, { ctx := 0, lport := 1, pport := 2 })] }).sw 1 3).length = 8 := by decide +kernel
theorem wit_RouteRule_settings :
    let j : Sub := subOf [(0, 0x64), (8, 7), (9, 1)]
    let b (c n : Nat) : Sub := subOf [(0, 0x65), (8, c), (10, 64), (12, 1), (14, 10), (16, 1), (18, 1), (20, n)]
    headerStatus (descSw 0x64 j State.reset.sw) 0x64 j = none ∧ j.only [by_ 8 1, bi_ 9 0 1] = true ∧
    headerStatus (descSw 0x65 (b 16 0) State.reset.sw) 0x65 (b 16 0) = none ∧ (b 16 0).only [by_ 8 11, bi_ 19 0 1, by_ 20 4] = true ∧
    (b 16 0).f 8 2 = 16 ∧ (b 16 0).f 10 2 = 64 ∧ (b 16 0).f 12 2 = 1 ∧ (b 16 0).f 14 2 = 10 ∧ (b 16 0).f 16 2 = 1 ∧ (b 16 0).f 18 1 = 1 ∧ (b 15 0).f 8 2 = 15 ∧
    (List.range 4).all (fun g => decide (State.reset.sw.shareOn 0 g ≤ State.reset.sw.classFree 6 g + State.reset.sw.shareOn State.reset.sw.fab.spillMib g)) = true ∧
    (List.range 4).any (fun g => let w := (at_ fun w => w.modPool fun p => { p with bufs := [{ cls := 6, place := 0, count := 48304, job := none, owner := .store 1, id := 0 }] }).sw
      decide (w.classFree 6 g + w.shareOn w.fab.spillMib g < w.shareOn 65536 g)) = true := by decide +kernel

/-! #### EpochRule -/

/-- Version 1 ARMED with GEN 7. -/
def armed8 (f : Fabric → Fabric) : State := at_ fun w => ((upPort8 0 5).sw.modVer 1 fun r => { r with st := .armed }).modFab fun r => f { r with armedGen := 7, ranks := w.fab.ranks }
theorem wit_EpochRule_arm :
    let b (off gen v : Nat) : Sub := subOf [(0, 0x61), (8, v), (9, off), (12, gen)]
    let ok (b : Sub) (s : State) : Bool := (headerStatus (descSw 0x61 b s.sw) 0x61 b).isNone && b.only [bi_ 8 0 1, bi_ 9 0 1, by_ 12 4, by_ 24 8] && b.hostErr.isNone
    ok (b 0 7 1) State.reset = true ∧ (b 0 7 1).flag 9 0 = false ∧ (b 1 7 1).flag 9 0 = true ∧ (b 0 7 1).f 12 4 = 7 ∧ State.reset.sw.fab.gen = 0 ∧ (State.reset.sw.ver 1).st = .standby ∧ (State.reset.sw.ver 0).st = .active ∧
    ok (b 1 7 1) (armed8 id) = true ∧ ((armed8 id).sw.ver 1).st = .armed ∧ (b 0 0 1).f 12 4 = 0 ∧ (b 0 7 0).bits 8 0 1 = 0 := by decide +kernel
theorem wit_EpochRule_flip :
    let b (v at_ : Nat) : Sub := subOf [(0, 0x62), (8, v), (12, 7), (16, at_)]
    let ok (b : Sub) (s : State) : Bool := (headerStatus (descSw 0x62 b s.sw) 0x62 b).isNone && b.only [bi_ 8 0 1, bi_ 9 0 1, by_ 12 12] && b.f 12 4 == 7
    ok (b 1 0) (armed8 id) = true ∧ ok (b 1 0) State.reset = true ∧ (armed8 id).sw.armed = some 1 ∧ (armed8 id).sw.fab.armedGen = 7 ∧ (armed8 id).sw.fab.flip = none ∧ State.reset.sw.armed = none ∧
    (armed8 id).sw.flipDue ((b 1 0).q 16) = true ∧ (armed8 id).sw.flipDue ((b 1 (2 ^ 36)).q 16) = false ∧ gtcBeyond ((b 1 (2 ^ 36)).q 16) (armed8 id).sw.gtc (2 ^ 36) = false ∧
    gtcBeyond ((b 1 (2 ^ 60)).q 16) (armed8 id).sw.gtc (2 ^ 36) = true ∧ (b 0 0).bits 8 0 1 ≠ 1 ∧ ((armed8 id).sw.ver 0).st = .active ∧ State.reset.sw.fab.adopted.mem 7 = false ∧
    SMap.find? 9 (armed8 fun r => { r with adopted := [(9, (1, 0, 0, 0xFFFF))] }).sw.fab.adopted = some (1, 0, 0, 0xFFFF) ∧ (b 1 0).q 16 = 0 := by decide +kernel
theorem wit_EpochRule_drained : (State.reset.sw.ver 1).st ≠ .draining ∧ ((at_ fun w => w.modVer 1 fun r => { r with st := .draining }).sw.ver 1).st = .draining ∧
    (at_ fun w => w.modVer 1 fun r => { r with st := .draining }).sw.holdsEpoch 1 = false ∧ State.reset.sw.fab.flip = none ∧
    (at_ fun w => w.modFab fun f => { f with flip := some { gen := 7, at_ := 0, noprop := false, loss := false, lostId := 0, src := 0xFFFF, tok := none } }).sw.fab.flip ≠ none ∧ State.reset.sw.flipDue 0 = true ∧ State.reset.sw.flipDue (2 ^ 40) = false := by decide +kernel

/-! #### EpochCellRule -/

theorem wit_EpochCellRule :
    let f (s : State) (c : Cell) (g : Cell → Sw → Bool) : Bool := match ingress 8 c s.sw with | (some m, w) => m.tc == 5 && m.ctype == ctEpoch && w.isSwitch 8 && g m w | _ => false
    let e (gen kind rank : Nat) : Cell := epochCell gen kind 0 0 0 0 rank 0
    f (armed8 id) (e 7 0 0) (fun m w => m.f 4 1 == 0 && decide (w.fab.gen < m.f 0 4) && w.armed == some 1 && w.fab.armedGen == m.f 0 4 && w.fab.flip.isNone && w.flipDue (m.q 8)) = true ∧
    f (upPort8 0 5) (e 7 0 0) (fun m w => decide (w.fab.gen < m.f 0 4) && w.armed.isNone) = true ∧ f (upPort8 0 5) (e 0 0 0) (fun m w => decide (m.f 0 4 ≤ w.fab.gen)) = true ∧
    f (upPort8 0 5) (e 0 1 1) (fun m w => m.f 4 1 == 1 && (w.fab.ranks.getD 8 {}).inn == m.f 24 2) = true ∧ f (upPort8 0 5) (e 0 1 5) (fun m w => (w.fab.ranks.getD 8 {}).inn != m.f 24 2) = true := by decide +kernel
theorem wit_EpochCellRule_waiting :
    let o (at_ : Quad) : PendingFlip := { gen := 7, at_ := at_, noprop := false, loss := false, lostId := 0, src := 0xFFFF, tok := none }
    let f (at_ fgtc : Quad) (g : Cell → Sw → Bool) : Bool := match ingress 8 (epochCell 7 0 0 0 fgtc 0 0 0) (armed8 fun r => { r with flip := some (o at_) }).sw with
      | (some m, w) => m.tc == 5 && m.ctype == ctEpoch && w.isSwitch 8 && m.f 4 1 == 0 && decide (w.fab.gen < m.f 0 4) && w.armed == some 1 && w.fab.armedGen == m.f 0 4 &&
          w.fab.flip == some (o at_) && m.q 8 == fgtc && g m w
      | _ => false
    f (2 ^ 39) (2 ^ 40) (fun m w => gtcReached (m.q 8) (2 ^ 39) && !gtcReached w.gtc (2 ^ 39)) = true ∧ f (2 ^ 40) (2 ^ 40) (fun m _ => gtcReached (m.q 8) (2 ^ 40)) = true ∧
    f (2 ^ 40) (2 ^ 39) (fun m w => !gtcReached (m.q 8) (2 ^ 40) && !gtcReached w.gtc (m.q 8)) = true ∧ f (2 ^ 40) 0 (fun m _ => m.q 8 == 0) = true := by decide +kernel

/-! #### MemoryRule -/

theorem wit_MemoryRule_pool :
    let s (l : List PoolWait) : State := at_ fun w => w.modPool fun p => { p with waits := l }
    (s []).sw.pool.waits.isEmpty = true ∧ (poolTake 6 0 1 none (.store 1) (s [⟨none, 6, 0, 1, none, .store 1⟩]).sw).isSome = true ∧ (poolTake 6 0 1 (some 0) (.operation 1 0) (s [⟨some (1, 0), 6, 0, 1, some 0, .operation 1 0⟩]).sw).isSome = true ∧
    (poolTake 6 0 50000 none (.store 1) (s [⟨none, 6, 0, 50000, none, .store 1⟩]).sw).isNone = true := by decide +kernel
theorem wit_MemoryRule_sram :
    let f (n : Nat) (ok : Nat → Bool) : Bool := (State.reset.sw.tile 0).role == .active && (let ts := (State.reset.sw.tile 0).ceTimes.filter (fun e => State.reset.sw.inWindow e.1) ++ (if n = 0 then [] else [(State.reset.sw.now, n)])
      let w := State.reset.sw.modTile 0 fun t => { t with ce := t.ce + BitVec.ofNat 32 n, ceTimes := ts, ueTimes := t.ueTimes.filter State.reset.sw.inWindow }
      decide ((w.tile 0).ueTimes.length < 2) && (w.tile 0).role == .active && (w.tile 0).ceTimes == ts && ok (ts.map Prod.snd).sum)
    f 3 (fun k => decide (k < 4096)) = true ∧ f 4096 (fun k => decide (4096 ≤ k)) = true ∧ (at_ fun w => w.modTile 0 fun t => { t with role := .spare }).sw.tile 0 ≠ State.reset.sw.tile 0 ∧
    ((at_ fun w => w.modTile 0 fun t => { t with role := .spare }).sw.tile 0).role ≠ .active := by decide +kernel
/-- Grid cell 0 of the operation of context 1 held in a slot place of SRAM. -/
def slot8 : State := own8 (fun c => { c with slots := [(slotKey 0 0, {})] }) id
theorem wit_MemoryRule_slot :
    let w := slot8.sw.modTile 0 fun t => { t with ceTimes := t.ceTimes.filter (fun e => slot8.sw.inWindow e.1), ueTimes := t.ueTimes.filter slot8.sw.inWindow ++ [slot8.sw.now], ue := t.ue + 1, lastUe := BitVec.ofNat 32 0 }
    (List.range 144).any (fun p => (slot8.sw.tile p).role == .active && match (slot8.sw.tile p).logical with
      | some q => (match (slot8.sw.sramSlots q)[0]? with | some (x, key) => ((slot8.sw.ctx? x).bind fun c => c.slot? (key / 2 ^ 24) (key % 2 ^ 24)).any fun h => h.sst != 3 | none => false) | none => false) = true ∧
    (w.tile 0).ueTimes.length = 1 := by decide +kernel
theorem wit_MemoryRule_patrol : (State.reset.sw.stack 0).inServ = true ∧ (State.reset.sw.stack 24).inServ = false ∧ State.reset.sw.stackAt 0 0 = 0 ∧ State.reset.sw.stackAt 24 (2 ^ 42) = 24 ∧
    decodeOffset 1 [6, 7, 8, 9, 10, 11] (fun _ => List.range 32) 32 0x1234567800 = ⟨1, 7, 17, 0, 44, 3106, 0x800⟩ ∧
    decodeOffset 1 [6, 7, 8, 9, 10, 11] (fun _ => List.range 32) 31 0x1234567800 = ⟨1, 7, 20, 1, 38, 3207, 0x800⟩ ∧ (State.reset.sw.decodeTa 0x11234567800).isSome = true ∧ [6, 7, 8, 9, 10, 11].Nodup ∧
    ((hourCount 0 3 (own8 id id).sw).op? 1 0).any (fun r => r.isOpen) = true := by decide +kernel
theorem wit_MemoryRule_cxl :
    let s (f : Cxl → Cxl) : Sw := State.reset.sw.modRoot 1 f
    (s id).root 1 = State.reset.sw.root 1 ∧ (s id).ctxs.isEmpty = true ∧ (s fun r => { r with enable := true }).root 1 ≠ (s id).root 1 ∧ ((s fun r => { r with enable := true }).root 1).linkUp = false ∧ ((s fun r => { r with enable := true }).root 1).enable = true ∧
    ((s fun r => { r with linkUp := true }).root 1).linkUp = true ∧ ((s fun r => { r with holding := true }).root 1).holding = true ∧ ((s fun r => { r with holding := true }).migQueues.getD 3 []).isEmpty = true ∧
    ((s id).root 1).enable = false ∧ ((s id).root 1).holding = false := by decide +kernel
theorem wit_MemoryRule_hold :
    let s : Sw := ((shard8 id fun h => { h with mig := .copying, migT2 := (1, 0) }).sw.modMigs (SMap.set 3 [(1, 0)])).modRoot 0 fun r => { r with holding := true }
    (s.ctxs.length == 1 && s.ctxs.all fun e => e.1 == 1 && e.2.store.any fun t => t.steps.isEmpty) = true ∧ (s.shard? 1 0).any (fun h => h.mig == .copying && h.migUses 0) = true ∧ (s.root 0).holding = true ∧
    (s.migQueues.getD 3 []).head? = some (1, 0) ∧ (s.migQueues.getD 0 []).isEmpty = true ∧ (s.migQueues.getD 2 []).isEmpty = true := by decide +kernel

/-! #### JobRule -/

theorem wit_JobRule_flags :
    let s : State := at_ fun w => w.modJob 0 fun k => { k with flagFirst := 0, flagCount := 8 }
    let d (code op v : Nat) : Sub := subOf [(0, code), (8, 3), (10, op), (12, v)]
    let ok (b : Sub) (code : Nat) : Bool := (headerStatus (descSw code b s.sw) code b).isNone && b.only lflag
    headerStatus (descSw 0 (subOf []) s.sw) 0 (subOf []) = none ∧ (subOf []).only [] = true ∧ (subOf [(8, 1)]).only [] = false ∧
    ok (d 1 0 5) 1 = true ∧ s.sw.flagOwned 0 3 = true ∧ State.reset.sw.flagOwned 0 5000 = false ∧ (d 1 2 5).f 10 1 = 2 ∧ ok (d 2 1 0) 2 = true ∧ (s.sw.ring 0).wait = none ∧ s.sw.jobOfFlag 3 = some 0 ∧ s.sw.owns 0 0 = true ∧
    waitHolds true 0 (s.sw.flag 3) = true ∧ waitHolds true 5 (s.sw.flag 3) = false ∧
    ((at_ fun w => w.modRing 0 fun r => { r with wait := some { flag := 3, eq := true, value := 0, tok := descTok 2 (d 2 1 0) w } }).sw.ring 0).wait ≠ none := by decide +kernel
theorem wit_JobRule_stall :
    let s : State := at_ fun w => (w.modJob 0 fun k => { k with flagFirst := 0, flagCount := 8 }).modRing 0 fun r => { r with wait := some { flag := 3, eq := true, value := 1, tok := descTok 2 (subOf []) w } }
    (s.sw.waiters 0).length = 1 ∧ (s.sw.job 0).stalled = none ∧ (s.sw.stallEdges 0 []).length = 0 ∧ (State.reset.sw.waiters 0).isEmpty = true := by decide +kernel
theorem wit_JobRule_open :
    let b (n : Nat) : Sub := subOf [(0, 8), (8, 1), (12, 16), (14, n)]
    headerStatus (descSw 8 (b 4) bound8.sw) 8 (b 4) = none ∧ (b 4).only [by_ 8 1, bi_ 9 0 1, by_ 10 6, by_ 24 8] = true ∧ (b 4).f 8 1 = 1 ∧ (b 4).f 12 2 + (b 4).f 14 2 ≤ 4096 ∧ 4096 < (b 5000).f 12 2 + (b 5000).f 14 2 ∧
    (bound8.sw.job 1).state = .closed ∧ bound8.sw.evqAssigned 0 0 = true ∧ bound8.sw.evqAssigned 1 0 = false ∧ (bound8.sw.otherJobs 1).all (fun k => !rangesMeet 16 4 (bound8.sw.job k).flagFirst (bound8.sw.job k).flagCount) = true ∧
    bound8.sw.vfEnabled 1 = false := by decide +kernel
theorem wit_JobRule_close :
    let b (f j : Nat) : Sub := subOf [(0, 9), (8, j), (9, f)]
    headerStatus (descSw 9 (b 1 0) (own8 id id).sw) 9 (b 1 0) = none ∧ (b 1 0).only [by_ 8 1, bi_ 9 0 1] = true ∧ (b 1 0).flag 9 0 = true ∧ (b 0 0).flag 9 0 = false ∧ ((own8 id id).sw.job 0).state = .seedling ∧ ((own8 id id).sw.ctxsOf 0).isEmpty = false ∧
    (State.reset.sw.job 1).state = .closed ∧
    let s : State := { own8 (fun c => { c with ops := [] }) id with sw := (own8 (fun c => { c with ops := [] }) id).sw.modJob 0 fun k => { k with state := .closing } }
    (s.sw.job 0).state = .closing ∧ (s.sw.ctxsOf 0).all (fun x => (s.sw.ctx? x).all fun c => !c.anyOpen) = true ∧
    ((own8 id id).sw.ctxsOf 0).any (fun x => ((own8 id id).sw.ctx? x).any fun c => c.anyOpen) = true := by decide +kernel

/-! #### HostRule -/

/-- The module on and its host link up. -/
def linked8 (w : Sw) : Sw := { w with pwr := { w.pwr with mod := .on }, host := { w.host with linkUp := true } }
theorem wit_HostRule_desc :
    let c (n : Nat) : Sub := subOf [(0, 0x0A), (40, n)]
    let h (v : Nat) : Sub := subOf [(0, 0x0B), (9, v)]
    headerStatus (descSw 0x0A (c 128) State.reset.sw) 0x0A (c 128) = none ∧ (c 128).only [by_ 24 8, by_ 40 4] = true ∧ (c 128).f 40 4 = 128 ∧ (c 127).f 40 4 = 127 ∧
    headerStatus (descSw 0x0B (h 1) bound8.sw) 0x0B (h 1) = none ∧ (h 1).only [by_ 8 1, bi_ 9 0 1, by_ 10 2, bi_ 12 1 7, bi_ 13 0 5] = true ∧ (h 1).flag 9 0 = true ∧ (h 0).flag 9 0 = false ∧ bound8.sw.evqAssigned 0 0 = true ∧
    State.reset.sw.evqAssigned 0 0 = false := by decide +kernel
theorem wit_HostRule_queues :
    let s (f : Evq → Evq) : Sw := linked8 (at_ fun w => w.modEvq 0 f).sw
    (s id).evqReach 0 0 = true ∧ (s id).evqReach 0 256 = false ∧ ((s id).evq 0).active = false ∧ (s fun e => { e with sizeLog2 := 6 }).evqReady 0 = true ∧ (s fun e => { e with sizeLog2 := 5 }).evqReady 0 = false ∧
    bound8.sw.evqNamed 0 = false ∧ (bound8.sw.modJob 1 fun k => { k with state := .opened, jevq := some 0 }).evqNamed 0 = true ∧
    let e : Evq := (s fun e => { e with active := true, tail := 3 }).evq 0
    e.last0103 = none ∧ e.func = 0 ∧ e.lost = none ∧ e.active = true ∧ ((3 : BitVec 20) - e.head).toNat ≤ (e.tail - e.head).toNat ∧ (e.tail - e.head).toNat < ((4 : BitVec 20) - e.head).toNat ∧
    (0x80000003 : Word).getLsbD 31 = true ∧ (0x80000003 : Word).toNat / 2 ^ 20 % 2 ^ 11 = 0 ∧ (0x00100000 : Word).toNat / 2 ^ 20 % 2 ^ 11 ≠ 0 := by decide +kernel

/-! #### RingRule -/

/-- Ring 0 in service as changed, event queue 0 active. -/
def ring8 (f : Ring → Ring) : State := { bound8 with sw := linked8 (bound8.sw.modRing 0 f) }
theorem wit_RingRule_states :
    let s (f : Ring → Ring) : Sw := (ring8 f).sw
    (s id).ringReach 0 0 = true ∧ (s id).linked = true ∧ State.reset.sw.linked = false ∧ (s id).ringReach 0 1024 = false ∧ ((s id).ring 0).state = .disabled ∧ (s id).ringReady 0 = true ∧ (s fun r => { r with sizeLog2 := 5 }).ringReady 0 = false ∧ State.reset.sw.ringReady 0 = false ∧
    ((s fun r => { r with state := .draining }).ring 0).state = .draining ∧ ((s fun r => { r with state := .running }).ring 0).fetching = 0 ∧ ((s fun r => { r with state := .running, fetching := 3 }).ring 0).fetching = 3 ∧
    ((s fun r => { r with state := .halted }).ring 0).state = .halted ∧ ((s id).ring 0).last0103 = none ∧ ((s id).ring 0).func = 0 := by decide +kernel
theorem wit_RingRule_tail :
    let r : Ring := { state := .running }
    (((64 : Word).setWidth 20 : BitVec 20) - r.head).toNat ≤ 2 ^ r.sizeLog2 ∧ 2 ^ r.sizeLog2 < (((65 : Word).setWidth 20 : BitVec 20) - r.head).toNat ∧ ¬ (2 ^ 20 : Nat) ≤ (64 : Word).toNat ∧ 2 ^ 20 ≤ (0x100000 : Word).toNat := by decide +kernel
theorem wit_RingRule_dispatch :
    let go (d : Nat) : Bool :=
      let s := ring8 fun r => { r with state := .running, fetched := [BitVec.ofNat 512 d] }
      let r := s.sw.ring 0
      let b : Sub := { func := r.func, ring := 0, desc := BitVec.ofNat 512 d, host := [], hostErr := none }
      s.sw.linked && decide (r.state = .running) && decide (r.outst.length < 1024) && !b.flag 2 0 && (s.sw.evq r.cevq).room (recordsFor s.sw (b.f 0 1) b) && r.wait.isNone && b.f 0 1 == d && decide (b.cminor ≤ s.sw.sec.runMinor)
    descRows.all (fun e => go e.1) = true ∧ go 0xFE = true ∧ opcodes.all (fun o => o.code != 0xFE) = true ∧ descRows.length = 46 := by decide +kernel
theorem wit_RingRule_held :
    let s : Sw := (ring8 fun r => { r with state := .running, outst := [4], fetched := [BitVec.ofNat 512 (2 ^ 16)] }).sw
    (s.ring 0).outst ≠ [] ∧ ({ func := 0, ring := 0, desc := BitVec.ofNat 512 (2 ^ 16), host := [], hostErr := none } : Sub).flag 2 0 = true ∧
    ({ sizeLog2 := 6, tail := 63 } : Evq).room 1 = false := by decide +kernel
theorem wit_RingRule_wait :
    let s : Sw := (ring8 fun r => { r with state := .waiting, wait := some { flag := 3, eq := true, value := 1, tok := descTok 2 (subOf []) bound8.sw } }).sw
    (s.ring 0).wait.isSome = true ∧ State.reset.sw.jobOfFlag 5000 = none ∧ ((ring8 id).sw.ring 0).wait = none := by decide +kernel

/-! #### RegisterRule -/

/-- The module on and its host link up. -/
def host8 : Sw := { State.reset.sw with pwr := { State.reset.sw.pwr with mod := .on }, host := { State.reset.sw.host with linkUp := true }, glb := { State.reset.sw.glb with coreLock := 15, timeLock := true } }
theorem wit_RegisterRule_reach : host8.hostReach 0 = true ∧ host8.hostReach 1 = false ∧ (List.all [0x3C, 0x20, 0x0C, 0x1038, 0x80200, 0xA0100, 0xA04FC, 0x20818, 0x10, 0xF00] fun o => !stopped host8 o) = true := by decide +kernel
theorem wit_RegisterRule_kinds :
    let f := State.reset.fuses
    (regAt f host8 0xF00).isNone = true ∧ (regAt f host8 0x20).any (fun r => (8 : Word) &&& BitVec.ofNat 32 r.rsv != 0) = true ∧ (regAt f host8 0xA0100).any (fun r => (5 : Word) &&& BitVec.ofNat 32 r.rsv == 0) = true ∧
    (regAt f host8 0x20818).any (fun r => (5 : Word) &&& BitVec.ofNat 32 r.rsv == 0) = true ∧ host8.portActive 8 = true ∧
    (regAt f host8 0x10).any (fun r => !r.latched && r.hi.isNone && decide (r.val < 2 ^ 32)) = true ∧ (regAt f host8 0x08).any (fun r => r.latched) = true := by decide +kernel
theorem wit_RegisterRule_low : (regAt State.reset.fuses host8 0x2000).any (fun r => !r.latched && r.hi.isSome) = true ∧ stopped host8 0x2000 = false ∧ stopped host8 8 = false := by decide +kernel

/-! #### LaneLockRule -/

theorem wit_LaneLockRule_locks : State.reset.sw.portOfLane 511 = some 511 ∧
    ((at_ (Sw.modLane 511 fun x => { x with state := .search })).sw.lane 511).state = .search ∧
    3 ∈ allowedRates (State.reset.sw.port 511).reg.allowNow := by decide
theorem wit_LaneLockRule_refuses : (State.reset.sw.lane 0).state ≠ .search ∧ 4 ∉ allowedRates (State.reset.sw.port 0).reg.allowNow ∧
    State.reset.sw.portOfLane 512 = none := by decide

/-! #### TrainingFrameRule -/

/-- A good status word with RX_READY: bit 12 and its CRC-8. -/
def readyStatus : Word := crcWord 0x1000
theorem wit_TrainingFrameRule_words : crcGood readyStatus = true ∧ bit readyStatus 12 = true ∧ crcGood 0x01000000 = false := by decide +kernel
theorem wit_TrainingFrameRule_finish :
    let s := at_ fun w => (w.modLane 8 fun x => { x with state := .finish, finish := (31, 31) }).modReg 11 fun r =>
      { r with state := .identify }
    (s.sw.lane 8).state = .finish ∧ (s.sw.lane 8).finish = (31, 31) ∧ s.sw.portOfLane 8 = some 8 ∧
      (s.sw.port 11).reg.state ≠ .search := by decide

/-! #### LaneTimersRule -/

theorem wit_LaneTimersRule_train :
    let s := at_ fun w => (w.modLane 511 fun x => { x with state := .finish })
    s.sw.portOfLane 511 = some 511 ∧ (s.sw.lane 511).state = .finish ∧ (s.sw.port 511).reg.state = .search := by decide
theorem wit_LaneTimersRule_apr :
    let s := at_ fun w => (w.modLane 0 fun x => { x with state := .search, apr := true }).modEngine 0 fun e => { e with aOk := true, dark := false }
    (s.sw.lane 0).apr = true ∧ (s.sw.lane 0).lit = true ∧ (s.sw.engine (0 / 16)).dark = false ∧ (s.sw.lane 1).apr = false ∧
      ((at_ (Sw.modReg 7 fun r => { r with state := .disabled })).sw.port 7).reg.state ≠ .search := by decide

/-! #### LaneLossRule -/

theorem wit_LaneLossRule_up :
    let s := at_ fun w => (w.modReg 511 fun r => { r with state := .up }).modLane 511 fun x => { x with los := false, lol := false }
    s.sw.quadActive (511 / 4) = true ∧ s.sw.quadActive (512 / 4) = false ∧ (s.sw.lane 511).los = false ∧ (s.sw.lane 511).lol = false ∧ s.sw.portOfLane 511 = some 511 ∧ s.sw.up 511 = true := by decide
theorem wit_LaneLossRule_lost : (State.reset.sw.lane 0).los = true ∧ (State.reset.sw.lane 0).lol = true ∧
    (State.reset.sw.lane 0).apr = false := by decide

/-! #### LaneTestRule -/

theorem wit_LaneTestRule_fields :
    let s := at_ (Sw.modTest 0 fun t => { t with genEn := true, chkEn := true, chkLocked := true })
    (s.sw.lane 0).test.genEn = true ∧ (s.sw.lane 0).test.chkLocked = true ∧ (s.sw.lane 1).test.genEn = false := by decide
theorem wit_LaneTestRule_ports :
    let s := at_ fun w => (w.modReg 511 fun r => { r with state := .up }).modReg 7 fun r => { r with state := .disabled }
    s.sw.portOfLane 511 = some 511 ∧ s.sw.up 511 = true ∧ s.sw.portOfLane 7 = some 7 ∧
      (s.sw.port 7).reg.state = .disabled ∧ (s.sw.port 511).reg.state ≠ .disabled := by decide
theorem wit_LaneTestRule_value : let v : Word := 0x130
    bit v 10 = false ∧ field v 12 20 = 0 ∧ field v 8 2 ≠ 0 ∧ field v 6 2 ≤ 1 ∧ field v 0 3 ≤ 5 ∧ bit v 4 = true ∧ bit v 5 = true := by
  decide

/-! #### FeedRule -/

theorem wit_FeedRule :
    let s := at_ fun w => ((w.modEngine 0 fun e => { e with aOk := true, bOk := true, dark := false }).modEngine 1 fun e =>
      { e with aOk := true, dark := false }).modSite 1 fun x => { x with state := .on }
    (s.sw.engine 0).ok false = true ∧ (s.sw.engine 0).ok true = true ∧ (s.sw.engine 1).ok false = true ∧
      (s.sw.engine 1).ok true = false ∧ (s.sw.engine 1).dark = false ∧ (s.sw.site (siteOf 1 true)).lit = true ∧
      (s.sw.site (siteOf 1 true)).state ≠ .muting ∧ (s.sw.site (siteOf 0 true)).state ≠ .removeReady ∧
      1400 ≤ (BitVec.ofNat 16 1400).toInt ∧ (BitVec.ofNat 16 1399).toInt < 1400 ∧ (s.sw.engine 2).ok false = false := by
  decide +kernel

/-! #### LaserLatchRule -/

theorem wit_LaserLatchRule :
    let s := at_ (Sw.modSite 15 fun x => { x with state := .identify, enable := false })
    (s.sw.site 15).state = .identify ∧ (s.sw.site 15).lastSerial = none ∧ (s.sw.site 15).enable = false ∧
      (s.sw.site 0).enable = true ∧ (s.sw.site 0).state = .absent ∧ s.sw.siteUsed 15 = true := by decide

/-! #### LaserSiteRule -/

theorem wit_LaserSiteRule :
    let s := at_ fun w => (w.modSite 0 fun x => { x with state := .ramp, outPower := [1500, 1500, 1500, 1500] }).modSite 1 fun x =>
      { x with state := .off, enable := false }
    (s.sw.site 0).state = .ramp ∧ ((s.sw.site 0).outPower.all fun p => decide (1500 ≤ p.toInt)) = true ∧ (s.sw.site 1).enable = false ∧
      (s.sw.site 1).state ∉ [.absent, .unused, .identify, .on] ∧ (s.sw.site 1).state ∈ [.off, .fault, .refused] ∧
      (s.sw.site 0).state ∈ [.ramp, .on, .muting] ∧ (s.sw.site 2).state = .absent ∧
      (BitVec.ofNat 16 1199).toInt < 1200 := by decide +kernel

/-! #### LaserRemovalRule -/

theorem wit_LaserRemovalRule :
    let s := at_ fun w => ((each (List.range 4) (fun o => Sw.modEngine (engineOf 8 o) fun e => { e with bOk := true }) w).modSite 8
      fun x => { x with state := .on }).modSite 3 fun x => { x with state := .muting }
    (s.sw.site 8).state = .on ∧ (∀ o, o < 4 → (s.sw.engine (engineOf 8 o)).ok (8 % 2 == 0) = true ∧
      (s.sw.site (siteOf (engineOf 8 o) (8 % 2 == 0))).state ≠ .muting ∧
      (s.sw.site (siteOf (engineOf 8 o) (8 % 2 == 0))).state ≠ .removeReady) ∧
      (s.sw.site 3).state ∈ [.muting, .removeReady] ∧ State.reset.sw.lacking 8 = some 16 ∧
      s.sw.sec.btnEnable = true := by decide +kernel

/-! #### ClockProfileRule -/

theorem wit_ClockProfileRule :
    let s := at_ (Sw.modGlb fun g => { g with stage := 5, clockReq := 2, clockAt := some 0, coreLock := 0xF, unlockAt := [(4, 100)] })
    s.sw.glb.clockReq ≠ s.sw.glb.clockTaken ∧ s.sw.time.gtc.toNat + 16384 < 2 ^ 64 ∧ s.sw.glb.clockAt = some s.sw.gtc ∧ s.sw.glb.locked 3 = true ∧
      s.sw.glb.locked 4 = false ∧ SMap.find? 4 s.sw.glb.unlockAt = some 100 ∧ SMap.find? 0 s.sw.glb.unlockAt = none ∧
      s.sw.glb.stage = 5 ∧ State.reset.sw.glb.stage ≠ 5 ∧ State.reset.sw.glb.clockReq = State.reset.sw.glb.clockTaken := by decide

/-! #### ReferenceRule -/

theorem wit_ReferenceRule :
    let s := at_ (Sw.modGlb fun g => { g with stage := 6, kind := 2, refOk := false, refLostAt := some 5 })
    State.reset.sw.glb.refOk = true ∧ s.sw.glb.refOk = false ∧ s.sw.glb.stage = 6 ∧ s.sw.glb.refLostAt = some 5 ∧
      State.reset.sw.glb.refLostAt = none ∧ State.reset.sw.glb.stage ≠ 6 ∧ State.reset.sw.glb.kind ≠ 2 := by decide

/-! #### TileAndPortResetRule -/

theorem wit_TileAndPortResetRule :
    let s := at_ fun w => ((w.modTile 143 fun t => { t with role := .quarantined, inReset := true }).modTile 32 fun t =>
      { t with role := .spare, inReset := true }).modTakeovers (SMap.set 5 33)
    (s.sw.tile 143).role = .quarantined ∧ (s.sw.tile 143).inReset = true ∧ (s.sw.tile 32).role = .spare ∧
      (s.sw.tile 32).inReset = true ∧ s.sw.outOfServiceOf (32 / 36) = none ∧ (s.sw.tile 0).role = .active ∧
      (s.sw.tile 0).inReset = false ∧ s.sw.quadActive 5 = true ∧ s.sw.takingOver 5 = true ∧ s.sw.quadActive 127 = true ∧
      s.sw.takingOver 127 = false ∧ s.sw.quadActive 128 = false := by decide +kernel

/-! #### ResetCommandsRule -/

theorem wit_ResetCommandsRule :
    let s := at_ fun w => (w.modGlb fun g => { g with stage := 0, modResetN := false }).modPwr fun p => { p with mod := .offHeld }
    let t := at_ (Sw.modGlb fun g => { g with stage := 0, modResetN := false })
    (at_ (Sw.modGlb fun g => { g with stage := 5 })).sw.glb.stage = 5 ∧ State.reset.sw.glb.stage ≠ 5 ∧
      State.reset.sw.pwr.mod = .on ∧ State.reset.sw.glb.modResetN = true ∧ s.sw.pwr.mod = .offHeld ∧ s.sw.pwr.mod ≠ .on ∧
      s.sw.glb.modResetN = false ∧ 38000 ≤ s.sw.pwr.vin ∧ t.sw.glb.modResetN = false ∧ t.sw.pwr.mod = .on ∧
      t.sw.glb.stage = 0 := by decide

/-! #### ColdResetRule -/

theorem wit_ColdResetRule : State.reset.sw.pwr.mod = .on := by decide

/-! #### WarmResetRule -/

theorem wit_WarmResetRule : (at_ (Sw.modGlb fun g => { g with stage := 5 })).sw.glb.stage = 5 := by decide

/-! #### StartUpRule -/

theorem wit_StartUpRule :
    let g (k : Nat) := at_ (Sw.modGlb fun g => { g with stage := k })
    let bad : State := at_ (Sw.modSec fun c => { c with slotA := { c.slotA with valid := false }, slotB := { c.slotB with valid := false } })
    State.reset.sw.glb.stage = 1 ∧ (State.reset.sw.sec.slot State.reset.sw.sec.activeB).ok State.reset.fuses = true ∧
      State.reset.sw.sec.trial = false ∧ bad.sw.sec.slotA.ok bad.fuses = false ∧ bad.sw.sec.slotB.ok bad.fuses = false ∧
      bad.sw.glb.stage = 1 ∧ (g 6).sw.glb.stage = 6 ∧ (g 6).sw.glb.refOk = true ∧ (g 2).sw.glb.stage = 2 ∧
      (List.range 4).all (fun k => (g 2).sw.outOfServiceOf k == none) = true := by decide +kernel

/-! #### PowerSequenceRule -/

theorem wit_PowerSequenceRule :
    let p (m : ModSt) := at_ (Sw.modPwr fun p => { p with mod := m, inputGone := true })
    let q := at_ (Sw.modPwr fun p => { p with ibcOut := 0x0E, railFaults := [0, 0] })
    (p .sequencing).sw.pwr.mod = .sequencing ∧ (p .sequencing).sw.pwr.faultWait = false ∧ State.reset.sw.pwr.mod = .on ∧
      (p .offHeld).sw.pwr.inputGone = true ∧ q.sw.pwr.ibcOut.getLsbD 1 = true ∧ q.sw.pwr.ibcOut.getLsbD 7 = false ∧
      (bitsOf q.sw.pwr.ibcOut).length = 3 ∧
      2 ≤ (q.sw.pwr.railFaults.filter fun t => decide (q.sw.now - t ≤ 60000000000)).length ∧
      (State.reset.sw.pwr.railFaults.filter fun t => decide (State.reset.sw.now - t ≤ 60000000000)).length < 2 := by
  decide +kernel

/-! #### PowerProfileRule -/

theorem wit_PowerProfileRule :
    let s := at_ (Sw.modPwr fun p => { p with inForce := 2, overRun := 1, limit := 2, tripping := [7] })
    profileCap s.sw.glb.variant s.sw.pwr.inForce < 2001 ∧ 1 ≤ s.sw.pwr.overRun ∧ s.sw.pwr.limit < 3 ∧
      (at_ (Sw.modPwr fun p => { p with inForce := 3 })).sw.pwr.want < 3 ∧ State.reset.sw.pwr.inForce ≤ State.reset.sw.pwr.want ∧
      State.reset.sw.pwr.overRun = 0 ∧ State.reset.sw.pwr.underRun = 0 ∧ State.reset.sw.pwr.limit = 0 ∧ 7 ∈ s.sw.pwr.tripping ∧
      s.sw.pwr.mod = .on ∧ (at_ (Sw.modPwr fun p => { p with mod := .offHeld })).sw.pwr.mod ≠ .on ∧
      State.reset.sw.pwr.thermal = 0 ∧
      314 * (State.reset.sw.pwr.outlet.toInt - (BitVec.ofInt 8 (0 / 8)).toInt) ≤ (State.reset.sw.pwr.pin : Int) := by
  decide +kernel

/-! #### WearRule -/

theorem wit_WearRule : State.reset.sw.wearPresent 752 = true ∧ State.reset.sw.wearPresent 753 = false ∧
    State.reset.sw.wearPresent 0 = true := by decide +kernel

/-! #### ManagementRule -/

theorem wit_ManagementRule_states :
    let s := at_ (Sw.modTile 143 fun t => { t with role := .quarantined })
    s.sw.served = true ∧ (s.sw.tile 143).role = .quarantined ∧ (s.sw.tile 0).role = .active ∧ (s.sw.tile 32).role = .spare ∧
      s.sw.stackPopulated 23 = true ∧ s.sw.stackPopulated 24 = false ∧
      (at_ (Sw.modSec fun c => { c with recovery := true })).sw.served = false := by decide +kernel
theorem wit_ManagementRule_descriptor : headerStatus (descSw 0x93 (subOf [(0, 0x93), (8, 8), (9, 1)]) State.reset.sw) 0x93 (subOf [(0, 0x93), (8, 8), (9, 1)]) = none ∧
    (subOf [(0, 0x93), (8, 8), (9, 1)]).f 8 1 = 8 ∧ (subOf [(0, 0x93), (8, 8), (9, 1)]).f 9 1 = 1 ∧ (subOf [(0, 0x93), (8, 8), (9, 1)]).only [by_ 8 2] = true ∧ (subOf [(0, 0x93), (8, 7)]).f 8 1 ≠ 8 ∧
    (subOf [(0, 0x93), (8, 5), (9, 23), (10, 31)]).f 9 2 = 23 + 256 * 31 ∧ (subOf [(0, 0x93), (8, 5), (9, 23), (10, 31)]).only [by_ 8 3] = true := by decide +kernel

/-! #### QuarantineRule -/

theorem wit_QuarantineRule :
    let s := at_ fun w => (w.modTakeovers (SMap.set 1 33)).modTile 143 fun t => { t with role := .quarantined }
    (s.sw.tile 32).role = .spare ∧ (s.sw.tile 0).role = .active ∧ (s.sw.tile 0).logical = some 0 ∧
      s.sw.spareOf (0 / 36) = some 32 ∧ s.sw.takingOver 1 = true ∧ s.sw.takingOver 0 = false ∧ s.sw.ctxs = [] ∧
      (s.sw.quad 1).resetWaits = false ∧ (s.sw.tile 143).role = .quarantined ∧ s.sw.outOfServiceOf (143 / 36) = none := by
  decide +kernel

/-! #### FirmwareRule -/

theorem wit_FirmwareRule_load : let b := subOf [(0, 0x90), (8, 1), (12, 2 ^ 25 - 4096), (40, 4096)]
    headerStatus (descSw 0x90 b State.reset.sw) 0x90 b = none ∧ b.only [bi_ 8 0 2, by_ 12 4, by_ 24 8, by_ 40 4] = true ∧
      b.f 12 4 % 4096 = 0 ∧ b.f 12 4 + b.f 40 4 ≤ 2 ^ 25 ∧ b.flag 8 0 = true ∧ b.flag 8 1 = false ∧ b.hostErr = none ∧
      State.reset.sw.sec.session = none ∧ 2 ^ 25 < (subOf [(8, 1), (12, 2 ^ 25), (40, 1)]).f 12 4 + (subOf [(8, 1), (12, 2 ^ 25), (40, 1)]).f 40 4 ∧
      (subOf [(12, 1)]).f 12 4 % 4096 ≠ 0 := by decide +kernel
theorem wit_FirmwareRule_activate :
    let b := subOf [(0, 0x91)]
    let s := at_ fun w => (w.modGlb fun g => { g with stage := 5 }).modSec fun c =>
      { c with slotB := { c.slotB with valid := true, svn := 64 } }
    let o := at_ (Sw.modSec fun c => { c with session := some true })
    headerStatus (descSw 0x91 b s.sw) 0x91 b = none ∧ b.only [] = true ∧ s.sw.glb.stage = 5 ∧ s.sw.sec.session = none ∧
      s.sw.sec.other.ok s.fuses = true ∧ s.sw.served = true ∧ State.reset.sw.glb.stage ≠ 5 ∧
      State.reset.sw.sec.other.ok State.reset.fuses = false ∧ o.sw.sec.session = some true ∧ o.sw.served = true := by decide +kernel

/-! #### RootOfTrustRule -/

theorem wit_RootOfTrustRule :
    let s := at_ fun w => (w.modGlb fun g => { g with stage := 5 }).modSec fun c => { c with runSvn := 2 }
    s.sw.served = true ∧ s.sw.glb.stage = 5 ∧ State.reset.sw.glb.stage ≠ 5 ∧ s.sw.sec.trial = false ∧
      s.sw.sec.runRevoke.getLsbD s.sw.sec.runKey = false ∧ s.fuses.svnFloor ≠ s.sw.sec.runSvn ∧
      State.reset.fuses.svnFloor = State.reset.sw.sec.runSvn ∧ s.fuses.lifecycle = 1 ∧ s.sw.sec.badTokens < 3 ∧ s.sw.i3cServed = true ∧
      s.sw.sec.btnEnable = true ∧ s.sw.sec.btnPower = true ∧
      (at_ (Sw.modSec fun c => { c with badTokens := 3 })).sw.sec.badTokens = 3 ∧
      (at_ (Sw.modSec fun c => { c with recovery := true })).sw.served = false := by decide +kernel
theorem wit_RootOfTrustRule_descriptors :
    headerStatus (descSw 0x93 (subOf [(0, 0x93), (8, 1), (9, 2)]) State.reset.sw) 0x93 (subOf [(0, 0x93), (8, 1), (9, 2)]) = none ∧
      (subOf [(0, 0x93), (8, 1), (9, 2)]).f 9 1 = 2 ∧ (subOf [(0, 0x93), (8, 7)]).only [by_ 8 1] = true ∧
      (subOf [(0, 0x93), (8, 9), (24, 4096)]).only [by_ 8 1, by_ 24 8] = true ∧ (subOf [(8, 10)]).hostErr.isNone = true := by
  decide +kernel

/-! #### SpdmRule -/

theorem wit_SpdmRule :
    let m : List Byte := [0x12, 0, 0, 0xFF, 0, 0, 0, 0, 0x80, 0, 0, 0, 2, 0, 0, 0] ++ List.replicate 21 0
    let s (k : Nat) := at_ (modSpdm true fun c => { c with step := k, version := 0x12 })
    spdmServed true State.reset.sw = true ∧ spdmServed false State.reset.sw = false ∧ m.length = 37 ∧ byteAt m 0 = 0x12 ∧
      (bytesAt m 8 4).testBit 7 = true ∧ (bytesAt m 12 4).testBit 1 = true ∧ byteAt m 2 = 0 ∧ byteAt m 3 ∈ [0, 1, 0xFF] ∧
      ((s 3).sw.sec.spdm true).step = 3 ∧ ((s 2).sw.sec.spdm true).version = 0x12 ∧ ((s 1).sw.sec.spdm true).step = 1 ∧
      State.reset.fuses.lifecycle ≠ 2 ∧ byteAt [0x10] 0 = 0x10 := by decide +kernel

/-! #### LinkKeyRule -/

theorem wit_LinkKeyRule :
    let d (slot act : Nat) : Sub := subWith [(0, 0x92), (8, 8), (10, slot), (11, act)] (le 64 (2 ^ 250))
    let s (f : PortSec → PortSec) : State := at_ fun w => w.modPSec 8 f
    let ok (d : Sub) : Bool := (headerStatus (descSw 0x92 d State.reset.sw) 0x92 d).isNone && d.only ([by_ 8 2, bi_ 10 0 1, by_ 11 1] ++ (if d.f 11 1 = 0 then [by_ 24 8] else []))
    ok (d 1 0) = true ∧ ok (d 1 1) = true ∧ ok (d 0 2) = true ∧ allZero (((d 1 0).host.drop 36).take 28) = true ∧ allZero (((subWith [] (le 64 (2 ^ 290))).host.drop 36).take 28) = false ∧
    State.reset.sw.portActive 8 = true ∧ State.reset.sw.sec.debugOpen = false ∧ (State.reset.sw.port 8).sec.engaged = false ∧ ((State.reset.sw.port 8).sec.key? 1).isNone = true ∧
    (((s fun p => p.setKey 1 (some { key := 0, salt := 0, txCount := 0, x := 0, fails := 0 })).sw.port 8).sec.key? 1).isSome = true ∧ ((s fun p => { p with engaged := true }).sw.port 8).sec.engaged = true := by decide +kernel

/-! #### ReservedOffsetRule -/

theorem wit_ReservedOffsetRule : host8.hostReach 0 = true ∧ stopped host8 0xF00 = false ∧ (regAt State.reset.fuses host8 0xF00).isNone = true ∧ (SMap.find? 0xF00 host8.host.last0106).isNone = true ∧
    SMap.find? 0xF00 { host8.host with last0106 := [(0xF00, host8.now)] }.last0106 = some host8.now ∧ host8.now - host8.now < ms := by decide +kernel

/-! #### StepRule -/

theorem wit_StepRule : State.reset.pending = [] ∧ State.reset.sw.time.slew = 0 ∧ State.reset.sw.time.frac < 16 ∧ State.reset.sw.time.freq = (0, 0) ∧ (State.reset.sw.ring 0).wait = none := by decide +kernel

/-! #### ResetRule -/

theorem wit_ResetRule : Memory.wf [(3, 7), (5, 9)] = true ∧ Memory.wf [(5, 9), (3, 7)] = false ∧ Memory.wf [(3, 0xFF)] = false := by decide +kernel

/-! #### DescriptorRule -/

theorem wit_DescriptorRule_checks :
    let d (c m f fn : Nat) : Sub := { subOf [(0, c), (1, m), (2, f)] with func := fn }
    descRows.all (fun e => decide (State.reset.sw.sec.runMinor < (d e.1 3 0 0).cminor) && (d e.1 0 4 0).dflags == 4 && (d e.1 0 0 0).dflags == 0 && (State.reset.sw.ring 0).wait.isNone) = true ∧
    (d 8 0 0 1).func = 1 ∧ headerStatus (descSw 8 (d 8 0 0 1) State.reset.sw) 8 (d 8 0 0 1) = some stDenied := by decide +kernel
theorem wit_DescriptorRule_completion :
    let w : Sw := (bound8.sw.modRing 0 fun r => { r with outst := [5] }).modEvq 0 fun e => { e with res := 1 }
    let t : Tok := { descTok 0 (subOf []) w with id := 5 }
    5 ∈ (w.ring 0).outst ∧ (w.evq (w.ring 0).cevq).lost = none ∧ (w.evq (w.ring 0).cevq).armed = false ∧ (w.evq (w.ring 0).cevq).active = true ∧ t.quiet = false ∧ 6 ∉ (w.ring 0).outst := by decide +kernel

/-! #### EffectRule -/

theorem wit_EffectRule : mayBurn (.cxlEnable 0) = false := rfl

/-! #### NonVolatileRule -/

theorem wit_NonVolatileRule : State.reset.sw.imagesWf = true ∧ Memory.wf [(3, 7), (5, 9)] = true ∧
    (match step { State.reset with pending := [.cxlEnable 0] } with | .next t => t.sw.imagesWf | _ => false) = true := by decide +kernel

end Sys2Proof.Tests
end

section
/-! PROOFS. Registers, lane tests, clock profiles, tile and port resets, and reset commands (O29, O34, O39, O41, O42). -/
namespace Sys2Proof.Machine

/-! ### Commands that act on the switch -/

/-- A command whose row is `f` on the switch runs to `f` of it. -/
theorem runsTo_of_lift {c : Instr} {s : State} {ps : List Piece} {P : Sw → Prop} (f : Sw → Sw) (hc : exec c s = lift f s)
    (hk : Sw.keeps ps s.sw (f s.sw)) (hP : P (f s.sw)) : runsTo c s ps P := ⟨f s.sw, hc, hk, hP⟩
theorem becomes_of_lift {c : Instr} {s : State} {t : Sw} (f : Sw → Sw) (hc : exec c s = lift f s) (ht : f s.sw = t) :
    becomes c s t := by subst ht; exact hc
theorem stays_of_lift {c : Instr} {s : State} (f : Sw → Sw) (hc : exec c s = lift f s) (ht : f s.sw = s.sw) : stays c s := by
  rw [stays, hc, lift, ht]
theorem onlyIf_true {c : Bool} (h : c = true) (f : Sw → Sw) (s : Sw) : onlyIf c f s = f s := if_pos h
theorem onlyIf_false {c : Bool} (h : c = false) (f : Sw → Sw) (s : Sw) : onlyIf c f s = s := if_neg (by simp [h])

theorem runsTo_imp {c : Instr} {s : State} {ps : List Piece} {P Q : Sw → Prop} (h : runsTo c s ps P) (hPQ : ∀ t, P t → Q t) :
    runsTo c s ps Q := by
  obtain ⟨t, hc, hk, hP⟩ := h
  exact ⟨t, hc, hk, hPQ t hP⟩

/-! ### What a frame says of single fields -/

/-- GLB as a whole stands where both of its parts do. -/
theorem glb_of_keeps {ps : List Piece} {a b : Sw} (h : Sw.keeps ps a b) (hg : Piece.glb ∉ ps) (he : Piece.evTimes ∉ ps) :
    b.glb = a.glb := by
  have h1 : { a.glb with evTimes := [] } = { b.glb with evTimes := [] } := h .glb hg
  have h2 : a.glb.evTimes = b.glb.evTimes := h .evTimes he
  calc b.glb = { { b.glb with evTimes := [] } with evTimes := b.glb.evTimes } := rfl
    _ = a.glb := by rw [← h1, ← h2]
@[simp] theorem raiseSys_glb (code : Nat) (content : List Byte) (s : Sw) : (raiseSys code content s).glb = s.glb :=
  glb_of_keeps (raiseSys_keeps (ps := evParts) (by decide) (.refl _ s)) (by decide) (by decide)
@[simp] theorem raiseSys_tiles (code : Nat) (content : List Byte) (s : Sw) : (raiseSys code content s).tiles = s.tiles :=
  (raiseSys_keeps (ps := evParts) (by decide) (.refl _ s) .tiles (by decide)).symm
@[simp] theorem raiseSys_time (code : Nat) (content : List Byte) (s : Sw) : (raiseSys code content s).time = s.time :=
  (raiseSys_keeps (ps := evParts) (by decide) (.refl _ s) .time (by decide)).symm

/-! ### A register write that is discarded (00 R11) -/

/-- A discard counts one and records offset and cause; the rest of GLB stands. -/
@[simp] theorem regDiscard_glb (func off v cause : Nat) (s : Sw) :
    (regDiscard func off v cause s).glb =
      { s.glb with discards := s.glb.discards + 1, discardAddr := BitVec.ofNat 32 (off % 2 ^ 24 + place cause 24) } := by
  unfold regDiscard
  dsimp only
  split <;> split <;> simp [countDiscard]
/-- What a discarded write can change. -/
theorem regDiscard_frame (func off v cause : Nat) (s : Sw) :
    Sw.keeps [.glb, .last0106, .evqs, .msix, .outs] s (regDiscard func off v cause s) := regDiscard_keeps (by decide) (.refl _ s)
/-- A command that is a discarded write counts it, and raises its event. -/
theorem runsTo_of_regDiscard {c : Instr} {s : State} {P : Sw → Prop} (f : Sw → Sw) (func off v cause : Nat) (hc : exec c s = lift f s)
    (hf : f s.sw = regDiscard func off v cause s.sw) (hP : P (regDiscard func off v cause s.sw)) :
    runsTo c s [.glb, .last0106, .evqs, .msix, .outs] P :=
  runsTo_of_lift f hc (hf ▸ regDiscard_frame func off v cause s.sw) (hf ▸ hP)

/-! ### Reset commands (14 R472, R476; 19 R566, R568) -/

/-- MOD_RESET_N is held low. -/
def Sw.heldInReset (s : Sw) : Sw := s.modGlb fun g => { g with modResetN := false }
theorem heldInReset_keeps (s : Sw) : Sw.keeps [.glb] s s.heldInReset :=
  modGlb_keeps (by decide) (fun _ => rfl) (fun _ => rfl) (.refl _ s)

theorem modResetOp_short {n : Nat} (h : n < 500) (s : Sw) : modResetOp n s = s := by
  have : ¬ 500 ≤ n := by omega
  simp [modResetOp, h, this]
theorem modResetOp_long {n : Nat} (h : 1000 ≤ n) (s : Sw) :
    modResetOp n s = if s.pwr.mod == .on then coldReset 1 s.heldInReset else s.heldInReset := by
  have h1 : ¬ n < 1000 := by omega
  have h2 : ¬ n < 500 := by omega
  simp [modResetOp, h1, h2, Sw.heldInReset]
/-- Between 0.5 and 1 us a free value decides whether the line acts. -/
theorem modResetOp_between {n : Nat} (h : 500 ≤ n) (h' : n < 1000) (s : Sw) :
    modResetOp n s = if bit s.draw.1 0 then (if s.pwr.mod == .on then coldReset 1 s.draw.2.heldInReset else s.draw.2.heldInReset)
      else s.draw.2 := by
  have h2 : ¬ n < 500 := by omega
  have hp : s.draw.2.pwr = s.pwr := rfl
  cases hb : bit s.draw.1 0 <;> simp [modResetOp, h, h', h2, hb, hp, Sw.heldInReset]
theorem modResetRelease_high {s : Sw} (h : s.glb.modResetN = true) : modResetRelease s = s := if_pos h
theorem modResetRelease_on {s : Sw} (h : s.glb.modResetN = false) (hm : s.pwr.mod = .on) (hs : s.glb.stage = 0) :
    modResetRelease s = s.modGlb fun g => { g with modResetN := true, stage := 1, startAt := s.now } := by
  simp only [modResetRelease, h, Sw.modGlb_pwr, hm, Sw.modGlb_glb, hs, Bool.false_eq_true, if_false, if_true]
  rfl
theorem modResetRelease_offHeld {s : Sw} (h : s.glb.modResetN = false) (hm : s.pwr.mod = .offHeld) (hv : 38000 ≤ s.pwr.vin) :
    modResetRelease s = (s.modGlb fun g => { g with modResetN := true }).modPwr fun p =>
      { p with mod := .sequencing, inputGone := false } := by
  simp [modResetRelease, h, hm, hv]

theorem exec_warm (cause : Nat) (s : State) : exec (.warm cause) s =
    lift (fun w => if w.starting then regDiscard 0 0x200 (resetCtrl 1) 1 w else warmReset cause w) s := rfl

/-- Settles O42: the rows of the reset requests by the module's state, of MOD_RESET_N by how long it is low. -/
theorem resetCommandsRule : Obligations.ResetCommandsRule := by
  unfold Obligations.ResetCommandsRule
  refine ⟨?warm, ?warmDiscarded, ?on, ?off, ?short, ?longOn, ?longOff, ?between, ?high, ?releaseOn, ?releaseHeld⟩
  case warm =>
    intro s c h
    refine becomes_of_lift _ (exec_warm c s) ?_
    simp [Sw.starting, h]
  case warmDiscarded =>
    intro s c h
    refine runsTo_of_regDiscard _ 0 0x200 (resetCtrl 1) 1 (exec_warm c s) ?_ (by simp)
    simp [Sw.starting, h]
  case on =>
    intro s c h
    have hon : (s.sw.pwr.mod == .on) = true := by simp [h]
    exact ⟨becomes_of_lift _ rfl (onlyIf_true hon _ _), becomes_of_lift _ rfl (onlyIf_true hon _ _),
      becomes_of_lift _ rfl (onlyIf_true hon _ _)⟩
  case off =>
    intro s c h
    have hoff : (s.sw.pwr.mod == .on) = false := by simp [h]
    exact ⟨stays_of_lift _ rfl (onlyIf_false hoff _ _), stays_of_lift _ rfl (onlyIf_false hoff _ _),
      stays_of_lift _ rfl (onlyIf_false hoff _ _)⟩
  case short => exact fun s n h => stays_of_lift _ rfl (modResetOp_short h _)
  case longOn =>
    exact fun s n h hm => becomes_of_lift _ rfl ((modResetOp_long h _).trans (if_pos (by simp [hm])))
  case longOff =>
    intro s n h hm
    have hf : modResetOp n s.sw = s.sw.heldInReset := (modResetOp_long h _).trans (if_neg (by simp [hm]))
    exact runsTo_of_lift _ rfl (hf ▸ heldInReset_keeps _) (by rw [hf]; rfl)
  case between =>
    intro s n h h' hm
    have hf := modResetOp_between h h' s.sw
    have hd : Sw.keeps [.glb, .freeCtr] s.sw s.sw.draw.2 := draw_keeps (by decide) (.refl _ _)
    cases hb : bit s.sw.draw.1 0
    · have hs : modResetOp n s.sw = s.sw.draw.2 := hf.trans (if_neg (by simp [hb]))
      exact runsTo_of_lift _ rfl (hs ▸ hd) (by rw [hs]; exact .inl rfl)
    · have hs : modResetOp n s.sw = s.sw.draw.2.heldInReset :=
        (hf.trans (if_pos hb)).trans (if_neg (by simp [hm]))
      exact runsTo_of_lift _ rfl (hs ▸ hd.next (heldInReset_keeps _) (by decide)) (by rw [hs]; exact .inr rfl)
  case high => exact fun s h => stays_of_lift _ rfl (modResetRelease_high h)
  case releaseOn =>
    intro s h hm hs
    have hf := modResetRelease_on h hm hs
    exact runsTo_of_lift _ rfl (hf ▸ modGlb_keeps (by decide) (fun _ => rfl) (fun _ => rfl) (.refl _ _)) (by rw [hf]; rfl)
  case releaseHeld =>
    intro s h hm hv
    have hf := modResetRelease_offHeld h hm hv
    exact runsTo_of_lift _ rfl (hf ▸ modPwr_keeps (by decide) (modGlb_keeps (by decide) (fun _ => rfl) (fun _ => rfl) (.refl _ _)))
      (by rw [hf]; exact ⟨rfl, rfl⟩)

/-! ### Accesses that time out (14 R471) -/

/-- The count of an access that its domain does not finish, with its offset and function. -/
def Sw.timeoutCounted (func offset : Nat) (s : Sw) : Sw := s.modGlb fun g => { g with
  timeouts := g.timeouts + 1, timeoutAddr := BitVec.ofNat 32 (offset % 2 ^ 24 + place (func % 256) 24) }
/-- After the count come the event, at most once per ms, and the answer to a read. -/
theorem accessEnds_keeps_counted (func offset : Nat) (read : Bool) (s : Sw) :
    Sw.keeps parts1 (s.timeoutCounted func offset) (accessEnds func offset read s) := by
  have hev := limited_keeps (ps := parts1) (code := 0x0A10) (subject := offset / 4096 % 2 ^ 12) (gap := ms) (by decide)
    (fun _ _ h => raiseSys_keeps (code := 0x0A10) (content := le 4 offset ++ le 1 func ++ le 1 (domainOf offset)) (by decide) h)
    (.refl _ (s.timeoutCounted func offset))
  cases read
  · exact hev
  · exact out_keeps (by decide) hev
theorem accessEnds_counts (func offset : Nat) (read : Bool) (s : Sw) :
    (accessEnds func offset read s).glb.timeouts = s.glb.timeouts + 1 ∧
      (accessEnds func offset read s).glb.timeoutAddr = BitVec.ofNat 32 (offset % 2 ^ 24 + func % 256 * 2 ^ 24) := by
  have hg : { (s.timeoutCounted func offset).glb with evTimes := [] } = { (accessEnds func offset read s).glb with evTimes := [] } :=
    accessEnds_keeps_counted func offset read s .glb (by decide)
  refine ⟨(congrArg Glb.timeouts hg).symm, (congrArg Glb.timeoutAddr hg).symm.trans ?_⟩
  simp [Sw.timeoutCounted, place, Nat.shiftLeft_eq]

/-! ### Tile resets and self-tests (14 R472; 01 R15) -/

@[simp] theorem raiseSys_tile (code : Nat) (content : List Byte) (s : Sw) (p : Nat) : (raiseSys code content s).tile p = s.tile p := by
  simp [Sw.tile]
theorem tileResetWrite_resets {p : Nat} {s : Sw} (func : Nat) (hp : p < 144) (hr : (s.tile p).role = .spare ∨ (s.tile p).role = .quarantined) :
    tileResetWrite func p s = tileReset p 3 s := by
  have h256 : ¬ 256 ≤ p := by omega
  have h144 : ¬ 144 ≤ p := by omega
  rcases hr with hr | hr <;> simp [tileResetWrite, h256, h144, hr]
theorem tileResetWrite_discards {p : Nat} {s : Sw} (func : Nat)
    (hr : (s.tile p).role = .active ∨ (s.tile p).role = .fused ∨ 144 ≤ p) :
    ∃ cause, tileResetWrite func p s = regDiscard func 0x20C p cause s := by
  by_cases h256 : 256 ≤ p
  · exact ⟨0, if_pos h256⟩
  · refine ⟨1, (if_neg h256).trans (if_pos ?_)⟩
    rcases hr with hr | hr | hr <;> simp [hr]
/-- The tile leaves reset with its result; no other tile changes. -/
theorem selfTested_tile (p k : Nat) (pass : Bool) (s : Sw) : (selfTested p pass s).tile k =
    if k = p then { s.tile p with inReset := false, selfTest := pass } else s.tile k := by
  simp [selfTested, Sw.modTile_at]
/-- A logical tile's service depends on roles, logical numbers and the variant only. -/
theorem outOfServiceOf_congr {a b : Sw} (hv : b.glb.variant = a.glb.variant)
    (ht : ∀ p, (b.tile p).role = (a.tile p).role ∧ (b.tile p).logical = (a.tile p).logical) (g : Nat) :
    b.outOfServiceOf g = a.outOfServiceOf g := by
  simp [Sw.outOfServiceOf, Sw.quadActive, Sw.inService, Sw.physOf, hv, ht]
theorem selfTested_outOfServiceOf (p g : Nat) (pass : Bool) (s : Sw) :
    (selfTested p pass s).outOfServiceOf g = s.outOfServiceOf g := by
  refine outOfServiceOf_congr (by simp [selfTested]) (fun k => ?_) g
  rw [selfTested_tile]
  split
  · next hk => subst hk; exact ⟨rfl, rfl⟩
  · exact ⟨rfl, rfl⟩
/-- With no logical tile of the grove out of service a spare has nothing to serve. -/
theorem tileReturn_none {g : Nat} {s : Sw} (h : s.outOfServiceOf g = none) : tileReturn g s = s := by
  unfold tileReturn
  rw [h]
  split
  · next hq => cases hq
  · rfl
theorem tileTestDone_running {p : Nat} {s : Sw} (pass : Bool) (h : (s.tile p).inReset = false) : tileTestDone p pass s = s :=
  if_pos (by simp [h])
theorem tileTestDone_quarantined {p : Nat} {s : Sw} (pass : Bool) (h : (s.tile p).inReset = true) (hr : (s.tile p).role = .quarantined) :
    tileTestDone p pass s = selfTested p pass s := by
  simp [tileTestDone, h, selfTested_tile, hr]
theorem tileTestDone_sparePasses {p : Nat} {s : Sw} (h : (s.tile p).inReset = true) (hr : (s.tile p).role = .spare)
    (ho : s.outOfServiceOf (p / 36) = none) : tileTestDone p true s = selfTested p true s := by
  have hret := tileReturn_none ((selfTested_outOfServiceOf p (p / 36) true s).trans ho)
  simp [tileTestDone, h, selfTested_tile, hr, hret]
/-- A self-test whose end only records its result. -/
theorem tileSelfTestDone_runsTo {p : Nat} {pass : Bool} {s : State} (h : tileTestDone p pass s.sw = selfTested p pass s.sw) :
    runsTo (.tileSelfTestDone p pass) s [.tiles, .evqs, .msix, .outs] fun t =>
      t.tile p = { s.sw.tile p with inReset := false, selfTest := pass } ∧ othersSame Sw.tile p s.sw t := by
  refine runsTo_of_lift (tileTestDone p pass) rfl (h ▸ selfTested_keeps (by decide) (.refl _ _)) ?_
  rw [h]
  exact ⟨by simp [selfTested_tile], fun k hk => by simp [selfTested_tile, hk]⟩

/-! ### Port resets (14 R472, R476) -/

theorem quadActive_lt {s : Sw} {q : Nat} (h : s.quadActive q = true) : q < 128 := by
  simp only [Sw.quadActive, Bool.and_eq_true, decide_eq_true_eq] at h
  exact h.1
theorem portResetWrite_active {q : Nat} {s : Sw} (func : Nat) (h : s.quadActive q = true) : portResetWrite func q s =
    if s.takingOver q then s.modQuad q (fun d => { d with resetWaits := true }) else portReset4 q s := by
  have h128 : ¬ 128 ≤ q := by have := quadActive_lt h; omega
  simp [portResetWrite, h128, h]
theorem portResetWrite_inactive {q : Nat} {s : Sw} (func : Nat) (h : s.quadActive q = false) :
    ∃ cause, portResetWrite func q s = regDiscard func 0x210 q cause s := by
  by_cases h128 : 128 ≤ q
  · exact ⟨0, if_pos h128⟩
  · exact ⟨1, (if_neg h128).trans (if_pos (by simp [h]))⟩

/-- Settles O41: the rows of the reset tables, by the tile's role and by the port's take-over. -/
theorem tileAndPortResetRule : Obligations.TileAndPortResetRule := by
  unfold Obligations.TileAndPortResetRule
  refine ⟨?write, ?read, ?tile, ?tileDiscarded, ?running, ?quarantined, ?spare, ?waits, ?port, ?portDiscarded⟩
  case write =>
    exact fun s f off => runsTo_of_lift (accessEnds f off false) rfl (accessEnds_keeps (by decide) (.refl _ _)) (accessEnds_counts ..)
  case read =>
    intro s f off
    refine runsTo_of_lift (accessEnds f off true) rfl (accessEnds_keeps (by decide) (.refl _ _)) ⟨(accessEnds_counts ..).1, ?_⟩
    simp [accessEnds, Sw.out]
  case tile =>
    intro s p hp hr
    have hf := tileResetWrite_resets 0 hp hr
    refine runsTo_of_lift (tileResetWrite 0 p) rfl (hf ▸ tileReset_keeps (by decide) (.refl _ _)) ?_
    rw [hf]
    refine ⟨?_, ?_, ?_, ?_, ?_, fun k hk => (Sw.modTile_others _ _ _ hk).symm⟩ <;> simp [tileReset]
  case tileDiscarded =>
    intro s p hr
    obtain ⟨cause, hf⟩ := tileResetWrite_discards 0 hr
    exact runsTo_of_regDiscard _ _ _ _ _ rfl hf (by simp)
  case running => exact fun s p pass h => stays_of_lift _ rfl (tileTestDone_running pass h)
  case quarantined => exact fun s p pass h hr => tileSelfTestDone_runsTo (tileTestDone_quarantined pass h hr)
  case spare => exact fun s p h hr ho => tileSelfTestDone_runsTo (tileTestDone_sparePasses h hr ho)
  case waits =>
    intro s q ha ht
    have hf := (portResetWrite_active 0 ha).trans (if_pos ht)
    refine runsTo_of_lift (portResetWrite 0 q) rfl (hf ▸ modQuad_keeps (by decide) (.refl _ _)) ?_
    rw [hf]
    exact ⟨Sw.modQuad_self _ _ _, fun k hk => (Sw.modQuad_others _ _ _ hk).symm⟩
  case port => exact fun s q ha ht => becomes_of_lift _ rfl ((portResetWrite_active 0 ha).trans (if_neg (by simp [ht])))
  case portDiscarded =>
    intro s q ha
    obtain ⟨cause, hf⟩ := portResetWrite_inactive 0 ha
    exact runsTo_of_regDiscard _ _ _ _ _ rfl hf (by simp)

/-! ### Lane tests and error injection (13 R454 to R456) -/

theorem modTest_lane (l k : Nat) (f : LaneTest → LaneTest) (s : Sw) :
    (s.modTest l f).lane k = if k = l then { s.lane l with test := f (s.lane l).test } else s.lane k := Sw.modLane_at s l k _
theorem modTest_twice (l : Nat) (f g : LaneTest → LaneTest) (s : Sw) :
    (s.modTest l f).modTest l g = s.modTest l (fun t => g (f t)) := Sw.modLane_twice s l _ _
/-- A change of the test state of one lane leaves every other lane and every other part. -/
theorem runsTo_of_modTest {c : Instr} {s : State} {l : Nat} (f : Sw → Sw) (g : LaneTest → LaneTest) (hc : exec c s = lift f s)
    (hf : f s.sw = s.sw.modTest l g) :
    runsTo c s [.lanes] fun t => t.lane l = { s.sw.lane l with test := g (s.sw.lane l).test } ∧ othersSame Sw.lane l s.sw t := by
  refine runsTo_of_lift f hc (hf ▸ modTest_keeps (by decide) (.refl _ _)) ?_
  rw [hf]
  exact ⟨by simp [modTest_lane], fun k hk => by simp [modTest_lane, hk]⟩
/-- Sending one thing n times appends it n times. -/
theorem each_out_outs (n : Nat) (o : Out) (s : Sw) :
    (each (List.range n) (fun _ => Sw.out o) s).outs = s.outs ++ List.replicate n o := by
  induction n with
  | zero => simp [each]
  | succ n ih =>
    have hlast : each (List.range (n + 1)) (fun _ => Sw.out o) s = (each (List.range n) (fun _ => Sw.out o) s).out o := by
      simp [each, List.range_succ]
    rw [hlast, List.replicate_succ', ← List.append_assoc, ← ih]
    rfl
theorem each_out_lane (n l : Nat) (o : Out) (s : Sw) : (each (List.range n) (fun _ => Sw.out o) s).lane l = s.lane l := by
  have hk : Sw.keeps [.outs] s (each (List.range n) (fun _ => Sw.out o) s) :=
    each_keeps (fun _ _ _ h => out_keeps (by decide) h) (.refl _ s)
  exact congrArg (fun m => SMap.getD m l {}) (hk .lanes (by decide)).symm

/-- The fields that a write of LANE_INJECT leaves in the register (R456). -/
def LaneTest.injectFields (count period syms mode : Nat) (t : LaneTest) : LaneTest :=
  { t with injCount := count, injPeriod := period, injSyms := syms, injMode := mode }
theorem injectWrite_single {l count period syms : Nat} {s : Sw} (func : Nat) (h : (s.lane l).test.genEn = true) :
    injectWrite func l count period syms 1 s =
      s.modTest l (fun t => { t.injectFields count period syms 0 with injected := t.injected + 1 }) := by
  simp [injectWrite, h, modTest_twice, LaneTest.injectFields]
theorem injectWrite_periodic {l count period syms : Nat} {s : Sw} (func : Nat) (h : (s.lane l).test.genEn = true) (hp : 10 ≤ period) :
    injectWrite func l count period syms 2 s = s.modTest l (fun t => t.injectFields count period syms 2) := by
  simp [injectWrite, h, hp, LaneTest.injectFields]
theorem injectWrite_symbols {l n count period syms : Nat} {s : Sw} (func : Nat) (hn : s.portOfLane l = some n) (hu : s.up n = true)
    (hs : 1 ≤ syms) (hs' : syms ≤ 16) (hc : 1 ≤ count) :
    injectWrite func l count period syms 3 s =
      each (List.range count) (fun _ => Sw.out (.corrupt l syms)) (s.modTest l (fun t => t.injectFields count period syms 0)) := by
  simp [injectWrite, hn, hu, hs, hs', hc, LaneTest.injectFields]
/-- Modes 1 and 2 want the generator. -/
theorem injectWrite_discards {l count period syms : Nat} {s : Sw} (func : Nat) (h : (s.lane l).test.genEn = false) :
    injectWrite func l count period syms 1 s = regDiscard func (laneOffset l 0x1C) (injectValue count period syms 1) 1 s := by
  simp [injectWrite, h]

/-- The test state that a write of LANE_TEST_CTRL leaves (R462). -/
def LaneTest.started (v : Word) (t : LaneTest) : LaneTest :=
  { t with
    trate := field v 8 2, loopback := field v 6 2, chkEn := bit v 5, genEn := bit v 4, invert := bit v 3, pattern := field v 0 3
    chkLocked := t.chkLocked && bit v 5, bits := if bit v 11 then 0 else t.bits, errs := if bit v 11 then 0 else t.errs }
theorem testWrite_starts {l n : Nat} {v : Word} {s : Sw} (func : Nat) (hn : s.portOfLane l = some n)
    (hd : (s.port n).reg.state = .disabled) (h10 : bit v 10 = false) (h12 : field v 12 20 = 0) (hr : field v 8 2 ≠ 0)
    (hl : field v 6 2 ≤ 1) (hp : field v 0 3 ≤ 5) (ht : bit v 4 = true ∨ bit v 5 = true ∨ field v 6 2 = 1) :
    testWrite func l v s = s.modLane l fun x => { x with test := x.test.started v, state := .test } := by
  have hon : (bit v 4 || bit v 5 || field v 6 2 != 0) = true := by
    rcases ht with h | h | h <;> simp [h]
  have hl' : ¬ 1 < field v 6 2 := by omega
  have hp' : ¬ 5 < field v 0 3 := by omega
  simp only [testWrite, hn, hd, h10, h12, hr, hl', hp', hon]
  simp [LaneTest.started]
/-- A test field set on a lane of a port that is not DISABLED is discarded, whatever else the value breaks. -/
theorem testWrite_discards {l n : Nat} {v : Word} {s : Sw} (func : Nat) (hn : s.portOfLane l = some n)
    (hd : (s.port n).reg.state ≠ .disabled) (ht : bit v 4 = true ∨ bit v 5 = true ∨ field v 6 2 ≠ 0) :
    ∃ cause, testWrite func l v s = regDiscard func (laneOffset l 0x18) v.toNat cause s := by
  have hon : (bit v 4 || bit v 5 || field v 6 2 != 0) = true := by
    rcases ht with h | h | h <;> simp [h]
  by_cases hrsv : (bit v 10 || field v 12 20 != 0) = true
  · exact ⟨0, if_pos hrsv⟩
  · refine ⟨1, (if_neg hrsv).trans (if_pos ?_)⟩
    simp [hn, hd, hon]

theorem exec_injectSingle (l : Nat) (s : State) : exec (.injectSingle l) s =
    lift (fun w => injectWrite 0 l (w.lane l).test.injCount (w.lane l).test.injPeriod (w.lane l).test.injSyms 1 w) s := rfl
theorem exec_injectPeriodic (l p : Nat) (s : State) : exec (.injectPeriodic l p) s =
    lift (fun w => injectWrite 0 l (w.lane l).test.injCount (p % 32) (w.lane l).test.injSyms 2 w) s := rfl
theorem exec_injectFecSymbols (l syms count : Nat) (s : State) : exec (.injectFecSymbols l syms count) s =
    lift (fun w => injectWrite 0 l (count % 256) (w.lane l).test.injPeriod (syms % 32) 3 w) s := rfl

/-- Settles O34: a row of the lane tests changes the lane it names, or is a discarded write. -/
theorem laneTestRule : Obligations.LaneTestRule := by
  unfold Obligations.LaneTestRule
  refine ⟨?clear, ?locked, ?lost, ?single, ?periodic, ?symbols, ?start, ?singleDiscarded, ?startDiscarded⟩
  case clear => exact fun s l => runsTo_of_modTest (Sw.modTest l fun t => { t with bits := 0, errs := 0 }) _ rfl rfl
  case locked =>
    intro s l bits
    refine runsTo_imp (runsTo_of_modTest (l := l) _ _ rfl rfl) fun t ⟨hl, ho⟩ => ?_
    rw [hl]
    cases (s.sw.lane l).test.chkEn <;> simp [ho]
  case lost =>
    intro s l h
    refine runsTo_imp (runsTo_of_modTest (l := l) _ _ rfl rfl) fun t ⟨hl, ho⟩ => ?_
    rw [hl]
    exact ⟨if_pos h, rfl, ho⟩
  case single =>
    intro s l h
    refine runsTo_imp (runsTo_of_modTest _ _ (exec_injectSingle l s) (injectWrite_single 0 h)) fun t ⟨hl, ho⟩ => ?_
    rw [hl]
    exact ⟨rfl, rfl, ho⟩
  case periodic =>
    intro s l p h hp hp'
    have hexec := exec_injectPeriodic l p s
    rw [Nat.mod_eq_of_lt (by omega : p < 32)] at hexec
    refine runsTo_imp (runsTo_of_modTest _ _ hexec (injectWrite_periodic 0 h hp)) fun t ⟨hl, ho⟩ => ?_
    rw [hl]
    exact ⟨rfl, rfl, rfl, ho⟩
  case symbols =>
    intro s l n syms count hn hu hs hs' hc hc'
    have hexec := exec_injectFecSymbols l syms count s
    rw [Nat.mod_eq_of_lt (by omega : count < 256), Nat.mod_eq_of_lt (by omega : syms < 32)] at hexec
    have hf := injectWrite_symbols (period := (s.sw.lane l).test.injPeriod) 0 hn hu hs hs' hc
    refine runsTo_of_lift _ hexec (hf ▸ each_keeps (fun _ _ _ h => out_keeps (by decide) h) (modTest_keeps (by decide) (.refl _ _))) ?_
    rw [hf]
    refine ⟨?_, ?_, ?_, each_out_outs .., fun k hk => by simp [each_out_lane, modTest_lane, hk]⟩ <;>
      simp [each_out_lane, modTest_lane, LaneTest.injectFields]
  case start =>
    intro s l n v hn hd h10 h12 hr hl hp ht
    have hf := testWrite_starts 0 hn hd h10 h12 hr hl hp ht
    refine runsTo_of_lift (testWrite 0 l v) rfl (hf ▸ modLane_keeps (by decide) (.refl _ _)) ?_
    rw [hf]
    refine ⟨?_, ?_, ?_, ?_, ?_, ?_, ?_, fun k hk => (Sw.modLane_others _ _ _ hk).symm⟩ <;> simp [LaneTest.started]
  case singleDiscarded => exact fun s l h => runsTo_of_regDiscard _ _ _ _ _ (exec_injectSingle l s) (injectWrite_discards 0 h) (by simp)
  case startDiscarded =>
    intro s l n v hn hd ht
    obtain ⟨cause, hf⟩ := testWrite_discards 0 hn hd ht
    exact runsTo_of_regDiscard _ _ _ _ _ rfl hf (by simp)

/-! ### The clock profile at its tick (14 R466) -/

@[simp] theorem setClock_time (taken limit cause : Nat) (s : Sw) : (setClock taken limit cause s).time = s.time := by
  unfold setClock
  dsimp only
  split <;> simp
/-- A GTC that stands at a multiple, which no step led to and which is not the instant `past`, is at its tick. -/
theorem toTick_at {k : Nat} {past : Option Quad} {s : Sw} (h : s.gtc.toNat % 2 ^ k = 0) (hs : s.time.stepTo ≠ some s.gtc)
    (hp : past ≠ some s.gtc) : toTick k past s = s := if_pos (by simp [h, hs, hp])
/-- At its tick a request takes effect and time stands, its fraction too. -/
theorem clockChange_time_at {s : Sw} (hr : s.glb.clockReq ≠ s.glb.clockTaken) (h : s.gtc.toNat % 2 ^ 14 = 0)
    (hs : s.time.stepTo ≠ some s.gtc) (hp : s.glb.clockAt ≠ some s.gtc) : (clockChange s).time = s.time := by
  simp [clockChange, hr, toTick_at h hs hp]
/-- What a command runs to is what its row makes of the switch. -/
theorem sw_of_exec {c : Instr} {s : State} {f : Sw → Sw} {t : Sw} (hc : exec c s = lift f s) (h : exec c s = .next { s with sw := t }) :
    t = f s.sw := by
  rw [hc, lift] at h
  injection h with h
  exact (congrArg State.sw h).symm

/-- Refutes O39: the statement has CLOCK_PROFILE_CHANGED leave the GTC's fraction at 0. A request for profile 1 was written at GTC 0,
and the GTC has come to 16,384 + 1/16 ns. It stands at the multiple, so that no time passes and the sixteenth stands. -/
theorem not_clockProfileRule : ¬ Obligations.ClockProfileRule := by
  unfold Obligations.ClockProfileRule
  rintro ⟨-, -, hchange, -⟩
  obtain ⟨t, ht, -, -, -, -, hfrac, -⟩ := hchange
    { State.reset with sw := (State.reset.sw.modGlb fun g => { g with clockReq := 1, clockAt := some 0 }).modTime fun u =>
        { u with gtc := 16384, frac := 1 } } (by decide)
  rw [sw_of_exec (f := clockChange) rfl ht, clockChange_time_at (by decide) (by decide) (by decide) (by decide)] at hfrac
  exact absurd hfrac (by decide)

/-! ### Reading one word (18 R541, R543) -/

/-- A word in four bytes. -/
theorem le_ofNat (x : Nat) : le 4 (BitVec.ofNat 32 x).toNat = le 4 x := by
  refine List.map_congr_left fun i hi => BitVec.eq_of_toNat_eq ?_
  have hi4 : i < 4 := List.mem_range.1 hi
  simp only [BitVec.toNat_ofNat, Nat.shiftRight_eq_div_pow]
  obtain rfl | rfl | rfl | rfl : i = 0 ∨ i = 1 ∨ i = 2 ∨ i = 3 := by omega
  all_goals omega
/-- A read of one aligned word of a function that reaches the switch answers the word. -/
theorem readOp_word {func off : Nat} {s : Sw} (f : Fuses) (hr : s.hostReach func = true) (ha : off % 4 = 0) :
    readOp f false func off 4 s =
      (readAligned f false func off s).2.out (.regRead func off (le 4 (readAligned f false func off s).1.toNat)) := by
  have hoff : 4 * (off / 4) = off := by omega
  have hlen : (off + 4 + 3) / 4 - off / 4 = 1 := by omega
  have htake (x : Nat) : (le 4 x).take 4 = le 4 x := List.take_of_length_le (by simp [le])
  simp [readOp, hr, hoff, hlen, readSpan, ha, htake]
theorem readOp_unreached {func off n : Nat} {s : Sw} (f : Fuses) (h : s.hostReach func = false) : readOp f false func off n s = s :=
  if_pos (by simp [h])
theorem readAligned_bar0 {off : Nat} (f : Fuses) (h : off < 2 ^ 24) (s : Sw) :
    readAligned f false 0 off s = readWord f false off s := by
  rw [readAligned, if_neg (by simp), if_neg (by omega), if_pos rfl]
theorem readAligned_bar2 {off : Nat} (f : Fuses) (h : off < 2 ^ 24) (s : Sw) :
    readAligned f false 0 (2 ^ 24 + off) s = (BitVec.ofNat 32 (bar2Read s 0 off), s) := by
  rw [readAligned, if_neg (by simp), if_pos (by omega), if_pos (by omega), Nat.add_sub_cancel_left]
theorem readWord_reserved {off : Nat} {f : Fuses} {s : Sw} (hs : stopped s off = false) (hn : regAt f s off = none) :
    readWord f false off s = (0, s) := by simp [readWord, hs, hn]
theorem readWord_register {off : Nat} {f : Fuses} {s : Sw} {r : RegView} (hs : stopped s off = false) (hr : regAt f s off = some r) :
    readWord f false off s = readView 0 off r s := by simp [readWord, reqCode, hs, hr]
theorem readView_whole {req off : Nat} {r : RegView} (hl : r.latched = false) (hh : r.hi = none) (s : Sw) :
    readView req off r s = (BitVec.ofNat 32 r.val, s) := by simp [readView, hl, hh]
theorem readView_low {req off h : Nat} {r : RegView} (hl : r.latched = false) (hh : r.hi = some h) (s : Sw) :
    readView req off r s = (BitVec.ofNat 32 r.val,
      s.modGlb fun g => { g with latches := g.latches.set (latchKey req (off + 4)) (BitVec.ofNat 32 h) }) := by simp [readView, hl, hh]
theorem readView_high {req off : Nat} {r : RegView} (hl : r.latched = true) (s : Sw) :
    readView req off r s = (s.glb.latches.getD (latchKey req off) 0, s) := if_pos hl
theorem latchKey_pf (off : Nat) : latchKey 0 off = off := by simp [latchKey]

/-- LO_READ_LATCH of an aligned word of BAR0 of the PF. -/
theorem loReadLatch_bar0 {off : Nat} {s : State} {v : Word} {w : Sw} (hr : s.sw.hostReach 0 = true) (h : off < 2 ^ 24) (ha : off % 4 = 0)
    (hw : readWord s.fuses false off s.sw = (v, w)) : becomes (.loReadLatch 0 false off 4) s (w.out (.regRead 0 off (le 4 v.toNat))) := by
  refine becomes_of_lift (readOp s.fuses false 0 off 4) rfl ?_
  rw [readOp_word _ hr ha, readAligned_bar0 _ h, hw]
/-- LO_READ_LATCH of an aligned word of the doorbell pages of the PF. -/
theorem loReadLatch_bar2 {off : Nat} {s : State} (hr : s.sw.hostReach 0 = true) (h : off < 2 ^ 24) (ha : off % 4 = 0) :
    becomes (.loReadLatch 0 false (2 ^ 24 + off) 4) s (s.sw.out (.regRead 0 (2 ^ 24 + off) (le 4 (bar2Read s.sw 0 off)))) := by
  refine becomes_of_lift (readOp s.fuses false 0 (2 ^ 24 + off) 4) rfl ?_
  rw [readOp_word _ hr (by omega), readAligned_bar2 _ h, le_ofNat]
theorem bar2Read_ring {k at_ : Nat} (hk : k < 1024) (ha : at_ < 4096) (s : Sw) : bar2Read s 0 (4096 * k + at_) = (s.ring k).page at_ := by
  have hp : (4096 * k + at_) / 4096 = k := by omega
  have ho : (4096 * k + at_) % 4096 = at_ := by omega
  simp [bar2Read, hp, ho, hk]
theorem bar2Read_evq {q : Nat} (hq : q < 256) (s : Sw) : bar2Read s 0 (4096 * (1024 + q)) = (s.evq q).page 0 := by
  have hp : 4096 * (1024 + q) / 4096 = 1024 + q := by omega
  have ho : 4096 * (1024 + q) % 4096 = 0 := by omega
  simp only [bar2Read, hp, ho, if_true]
  rw [if_neg (by omega), if_pos (by omega), Nat.add_sub_cancel_left]

/-! ### Writing one word of BAR0 (00 R9, R11; 18 R541, R542) -/

theorem writeOp_unreached {func off n : Nat} {sp : RegSpace} {v : Word} {s : Sw} (f : Fuses) (h : s.hostReach func = false) :
    writeOp f func sp off n v s = s := if_pos (by simp [h])
theorem writeOp_bar0 {off n : Nat} {v : Word} {s : Sw} (f : Fuses) (h : s.hostReach 0 = true) :
    writeOp f 0 .bar0 off n v s = bar0Write f off n v s := by simp [writeOp, h]
theorem writeOp_bar2 {off n : Nat} {v : Word} {s : Sw} (f : Fuses) (h : s.hostReach 0 = true) :
    writeOp f 0 .bar2 off n v s = bar2Write 0 off n v s := by simp [writeOp, h]
theorem writeOp_bar4 {off n : Nat} {v : Word} {s : Sw} (f : Fuses) (h : s.hostReach 0 = true) :
    writeOp f 0 .bar4 off n v s = bar4Write 0 off n v s := by simp [writeOp, h]
theorem writeOp_sriov {off n : Nat} {v : Word} {s : Sw} (f : Fuses) (h : s.hostReach 0 = true) :
    writeOp f 0 .sriov off n v s = sriovWrite v s := by simp [writeOp, h]
theorem bar0Write_size {off n : Nat} {v : Word} (f : Fuses) (h : off < 2 ^ 24) (hn : n ≠ 4 ∨ off % 4 ≠ 0) (s : Sw) :
    bar0Write f off n v s = regDiscard 0 off v.toNat 3 s := by
  rw [bar0Write, if_neg (by omega), if_pos (by rcases hn with hn | hn <;> simp [hn])]
section Word
variable {f : Fuses} {off : Nat} {v : Word} {s : Sw} (h : off < 2 ^ 24) (ha : off % 4 = 0) (hs : stopped s off = false)
include h ha hs
theorem bar0Write_reserved (hn : regAt f s off = none) : bar0Write f off 4 v s = regDiscard 0 off v.toNat 2 s := by
  have h' : ¬ 16777216 ≤ off := by omega
  simp [bar0Write, h', ha, hs, hn]
theorem bar0Write_rsv {r : RegView} (hr : regAt f s off = some r) (hv : v &&& BitVec.ofNat 32 r.rsv ≠ 0) :
    bar0Write f off 4 v s = regDiscard 0 off v.toNat 0 s := by
  have h' : ¬ 16777216 ≤ off := by omega
  simpa [bar0Write, h', ha, hs, hr] using fun h0 => absurd h0 hv
theorem bar0Write_register {r : RegView} (hr : regAt f s off = some r) (hv : v &&& BitVec.ofNat 32 r.rsv = 0) :
    bar0Write f off 4 v s = setReg 0 off v s := by
  have h' : ¬ 16777216 ≤ off := by omega
  simp [bar0Write, h', ha, hs, hr, hv]
end Word
/-- A write of a register of the PF that R9 lets through has the register's effect. -/
theorem registerWrite_sets {off : Nat} {v : Word} {s : State} {r : RegView} {t : Sw} (hreach : s.sw.hostReach 0 = true) (h : off < 2 ^ 24)
    (ha : off % 4 = 0) (hs : stopped s.sw off = false) (hr : regAt s.fuses s.sw off = some r) (hv : v &&& BitVec.ofNat 32 r.rsv = 0)
    (ht : setReg 0 off v s.sw = t) : becomes (.registerWrite 0 .bar0 off 4 v) s t :=
  becomes_of_lift (writeOp s.fuses 0 .bar0 off 4 v) rfl
    ((writeOp_bar0 _ hreach).trans ((bar0Write_register h ha hs hr hv).trans ht))
/-- The RSV bits of a register with one field of `w` bits at bit 0 read 0 in a value below 2^w. -/
theorem and_rsv_of_lt {v : Word} {w : Nat} (hw : w ≤ 32) (h : v.toNat < 2 ^ w) : v &&& BitVec.ofNat 32 (2 ^ 32 - 2 ^ w) = 0 := by
  have hm : 2 ^ 32 - 2 ^ w = 2 ^ w * (2 ^ (32 - w) - 1) := by
    rw [Nat.mul_sub, ← Nat.pow_add, Nat.add_sub_cancel' hw, Nat.mul_one]
  rw [hm]
  refine BitVec.eq_of_getLsbD_eq fun i hi => ?_
  by_cases hiw : w ≤ i
  · have hv0 : v.getLsbD i = false := Nat.testBit_lt_two_pow (Nat.lt_of_lt_of_le h (Nat.pow_le_pow_right (by decide) hiw))
    simp [hv0]
  · simp [BitVec.getLsbD_ofNat, Nat.testBit_two_pow_mul, hiw]

/-! ### Registers that a write sets (11 R375, R397; 14 R483; 15 R496; 18 R547, R552) -/

theorem regAt_scratch (f : Fuses) (s : Sw) : regAt f s 0x3C = full s.glb.scratch.toNat := rfl
theorem regAt_version (f : Fuses) (s : Sw) : regAt f s 0x0C = full s.sec.runVersion := rfl
theorem regAt_level (f : Fuses) (s : Sw) : regAt f s 0x20 = view s.glb.level [(0, 3)] := rfl
theorem regAt_vinWarn (f : Fuses) (s : Sw) : regAt f s 0x1038 = view s.pwr.vinWarn [(0, 16)] := rfl
theorem regAt_holdMs (f : Fuses) (s : Sw) : regAt f s 0x80200 = view s.cxlHoldMs [(0, 16)] := rfl
theorem regAt_jobLimit {j : Nat} (hj : j < 256) (f : Fuses) (s : Sw) :
    regAt f s (0xA0100 + 4 * j) = view (s.pool.jobLimit.getD j 0) [(0, 22)] := by
  have hi : (0xA0100 + 4 * j - 0xA0000 - 0x100) / 4 = j := by omega
  simp (disch := omega) only [regAt, poolView, if_neg, if_pos, Bool.and_eq_true, decide_eq_true_eq, bne_iff_ne, hi]
theorem regAt_timeAsym {n : Nat} (hn : n < 512) (f : Fuses) (s : Sw) :
    regAt f s (0x20000 + 0x100 * n + 0x18) = full (s.port n).reg.timeAsym.toNat := by
  have hi : (0x20000 + 0x100 * n + 0x18 - 0x20000) / 0x100 = n := by omega
  have ho : (0x20000 + 0x100 * n + 0x18) % 0x100 = 0x18 := by omega
  simp (disch := omega) only [regAt, if_neg, if_pos, Bool.and_eq_true, decide_eq_true_eq, bne_iff_ne, hi, ho]
  rfl
theorem setReg_level (v : Word) (s : Sw) : setReg 0 0x20 v s =
    if v.toNat < 2 || 5 < v.toNat then regDiscard 0 0x20 v.toNat 1 s else s.modGlb fun g => { g with level := v.toNat } := rfl
theorem setReg_holdMs (v : Word) (s : Sw) :
    setReg 0 0x80200 v s = if v = 0 then regDiscard 0 0x80200 0 1 s else s.setHoldMs v.toNat := rfl
theorem setReg_jobLimit {j : Nat} (hj : j < 256) (v : Word) (s : Sw) :
    setReg 0 (0xA0100 + 4 * j) v s = s.modPool fun p => { p with jobLimit := p.jobLimit.set j v.toNat } := by
  have hi : (0xA0100 + 4 * j - 0xA0100) / 4 = j := by omega
  simp (disch := omega) only [setReg, setPool, if_neg, if_pos, Bool.and_eq_true, decide_eq_true_eq, hi]
theorem setReg_timeAsym {n : Nat} {s : Sw} (hn : n < 512) (ha : s.portActive n = true) (v : Word) :
    setReg 0 (0x20000 + 0x100 * n + 0x18) v s = s.modReg n fun r => { r with timeAsym := v } := by
  have hi : (0x20000 + 0x100 * n + 0x18 - 0x20000) / 0x100 = n := by omega
  have ho : (0x20000 + 0x100 * n + 0x18) % 0x100 = 0x18 := by omega
  simp (disch := omega) only [setReg, if_neg, if_pos, hi, ho]
  simp [setPort, ha]

/-! ### Writes of BAR2, BAR4 and the SR-IOV capability (12 R400, R406, R417, R419) -/

theorem exec_registerWrite (func : Nat) (sp : RegSpace) (off n : Nat) (v : Word) (s : State) :
    exec (.registerWrite func sp off n v) s = lift (fun w => writeOp s.fuses func sp off n v w) s := rfl
theorem bar2Write_ring {k at_ : Nat} (hk : k < 1024) (ha : at_ < 4096) (v : Word) (s : Sw) :
    bar2Write 0 (4096 * k + at_) 4 v s = ringPage 0 k at_ 4 v s := by
  have hp : (4096 * k + at_) / 4096 = k := by omega
  have ho : (4096 * k + at_) % 4096 = at_ := by omega
  simp [bar2Write, hp, ho, hk]
theorem cmdWrite_cancel (n : Nat) : cmdWrite n 1 = endWait n stAborted := by
  funext s
  simp [cmdWrite, onlyIf, bit]
theorem cmdWrite_resume (n : Nat) : cmdWrite n 2 = Sw.modRing n resumeRing := by
  funext s
  simp [cmdWrite, onlyIf, bit]
theorem bar2Write_evq {q : Nat} (hq : q < 256) (v : Word) (s : Sw) : bar2Write 0 (4096 * (1024 + q)) 4 v s = evqBell 0 q v s := by
  have hp : 4096 * (1024 + q) / 4096 = 1024 + q := by omega
  have ho : 4096 * (1024 + q) % 4096 = 0 := by omega
  simp only [bar2Write, hp, ho, if_true]
  rw [if_neg (by omega), if_pos (by omega), Nat.add_sub_cancel_left]
  rfl
theorem msixWrite_data (k : Nat) (v : Word) (s : Sw) : msixWrite 0 k 2 v s =
    s.modHost fun h => { h with msix := h.msix.set k { h.msix.getD k {} with data := v } } := by
  rw [msixWrite, Nat.zero_mul, Nat.zero_add]
  rfl
theorem bar4Write_data {k : Nat} (hk : k < 256) (v : Word) (s : Sw) : bar4Write 0 (16 * k + 8) 4 v s =
    s.modHost fun h => { h with msix := h.msix.set k { h.msix.getD k {} with data := v } } := by
  have hq : (16 * k + 8) / 16 = k := by omega
  have ha : (16 * k + 8) % 4 = 0 := by omega
  have hlt : ¬ 4096 ≤ 16 * k + 8 := by omega
  simp [bar4Write, hq, ha, hlt, msixWrite_data]
theorem sriovWrite_eq (v : Word) (s : Sw) : sriovWrite v s = s.modHost fun h =>
    { h with vfEnable := v.getLsbD 0, numVfs := if h.vfEnable then h.numVfs else min 255 (v.toNat / 2 ^ 16) } := by
  have hf : field v 16 16 = v.toNat / 2 ^ 16 := by
    rw [field, Nat.shiftRight_eq_div_pow, Nat.mod_eq_of_lt (by omega)]
  rw [sriovWrite, hf]
  rfl
/-- A write of the PF to a doorbell page is the command of that page. -/
theorem exec_doorbell {off : Nat} {v : Word} {s : State} {c : Instr} {f : Sw → Sw} (hr : s.sw.hostReach 0 = true)
    (hc : exec c s = .next { s with sw := f s.sw }) (hf : bar2Write 0 off 4 v s.sw = f s.sw) :
    exec (.registerWrite 0 .bar2 off 4 v) s = exec c s := by
  rw [exec_registerWrite, lift, writeOp_bar2 _ hr, hf, hc]

/-- Settles O29: register writes by the checks they pass and the register they name, and reads by what the word reads. -/
theorem registerRule : Obligations.RegisterRule := by
  unfold Obligations.RegisterRule
  refine ⟨?unreached, ?write, ?discard, ?read, ?page⟩
  case unreached =>
    exact fun s func h => ⟨fun sp off n v => stays_of_lift (writeOp s.fuses func sp off n v) rfl (writeOp_unreached _ h),
      fun off n => stays_of_lift (readOp s.fuses false func off n) rfl (readOp_unreached _ h)⟩
  case discard => exact fun w func off v cause => ⟨regDiscard_glb .., regDiscard_keeps (by decide) (.refl _ _)⟩
  case page =>
    intro s off k hr
    refine ⟨?_, ?_⟩
    · rintro hk rfl
      refine ⟨?_, ?_⟩
      · have h := loReadLatch_bar2 (off := 4096 * k + 0) hr (by omega) (by omega)
        rwa [bar2Read_ring hk (by decide)] at h
      · have h := loReadLatch_bar2 (off := 4096 * k + 4) hr (by omega) (by omega)
        rwa [bar2Read_ring hk (by decide)] at h
    · rintro hk rfl
      have h := loReadLatch_bar2 (off := 4096 * (1024 + k)) hr (by omega) (by omega)
      rwa [bar2Read_evq hk] at h
  case read =>
    intro s off hreach h ha hs
    have hreads {r : RegView} {x : Word} {w : Sw} (hr : regAt s.fuses s.sw off = some r) (hv : readView 0 off r s.sw = (x, w)) :=
      loReadLatch_bar0 hreach h ha ((readWord_register hs hr).trans hv)
    refine ⟨fun hn => loReadLatch_bar0 hreach h ha (readWord_reserved hs hn), ?_, ?_⟩
    · intro r hr hl _
      refine ⟨fun hhi => ?_, fun hi hhi => ?_⟩
      · rw [← le_ofNat r.val]
        exact hreads hr (readView_whole hl hhi _)
      · rw [← le_ofNat r.val, ← latchKey_pf (off + 4)]
        exact hreads hr (readView_low hl hhi _)
    · intro r hr hl
      have hlatch := hreads hr (readView_high hl _)
      rwa [latchKey_pf] at hlatch
  case write =>
    intro s off n v w hreach hw h
    obtain rfl : w = fun sp o => .registerWrite 0 sp o 4 v := funext fun sp => funext (hw sp)
    refine ⟨?size, ?reserved, ?rsv, ?scratch, ?level, ?version, ?vinWarn, ?holdMs, ?jobLimit, ?timeAsym, ?ring, ?evq, ?msix, ?sriov⟩
    case size =>
      intro hn
      exact becomes_of_lift (writeOp s.fuses 0 .bar0 off n v) rfl ((writeOp_bar0 _ hreach).trans (bar0Write_size _ h hn _))
    case reserved =>
      intro ha hs hn
      exact becomes_of_lift (writeOp s.fuses 0 .bar0 off 4 v) rfl ((writeOp_bar0 _ hreach).trans (bar0Write_reserved h ha hs hn))
    case rsv =>
      intro r ha hs hr hv
      exact becomes_of_lift (writeOp s.fuses 0 .bar0 off 4 v) rfl ((writeOp_bar0 _ hreach).trans (bar0Write_rsv h ha hs hr hv))
    case scratch => exact fun hs => registerWrite_sets hreach (by decide) rfl hs (regAt_scratch _ _) (by simp) rfl
    case version => exact fun hs => registerWrite_sets hreach (by decide) rfl hs (regAt_version _ _) (by simp) rfl
    case level =>
      intro hs h8
      have hsets {t : Sw} := registerWrite_sets (t := t) hreach (by decide) rfl hs (regAt_level _ _) (and_rsv_of_lt (w := 3) (by decide) h8)
      exact ⟨fun h2 h5 => hsets ((setReg_level _ _).trans (if_neg (by rw [Bool.or_eq_true, decide_eq_true_eq, decide_eq_true_eq]; omega))),
        fun hout => hsets ((setReg_level _ _).trans (if_pos (by simpa using hout)))⟩
    case vinWarn =>
      intro hs h16
      exact registerWrite_sets hreach (by decide) rfl hs (regAt_vinWarn _ _) (and_rsv_of_lt (w := 16) (by decide) h16) rfl
    case holdMs =>
      intro hs h16
      have hsets {t : Sw} := registerWrite_sets (t := t) hreach (by decide) rfl hs (regAt_holdMs _ _) (and_rsv_of_lt (w := 16) (by decide) h16)
      refine ⟨fun h0 => hsets ((setReg_holdMs _ _).trans (if_neg ?_)), fun h0 => hsets ((setReg_holdMs _ _).trans (if_pos h0))⟩
      rintro rfl
      exact absurd h0 (by decide)
    case jobLimit =>
      rintro j hj rfl hs hv
      have hr := regAt_jobLimit hj s.fuses s.sw
      exact registerWrite_sets hreach h (by omega) hs hr (hv _ hr) (setReg_jobLimit hj v _)
    case timeAsym =>
      rintro n hn ha rfl hs hv
      have hr := regAt_timeAsym hn s.fuses s.sw
      exact registerWrite_sets hreach h (by omega) hs hr (hv _ hr) (setReg_timeAsym hn ha v)
    case ring =>
      intro k hk
      have hcmd (u : Word) := bar2Write_ring (at_ := 4) hk (by decide) u s.sw
      refine ⟨exec_doorbell (f := ringBell 0 k v (tailWrite k v)) hreach rfl (bar2Write_ring (at_ := 0) hk (by decide) v _), ?_, ?_⟩
      · rintro rfl
        exact exec_doorbell (f := ringBell 0 k 1 (endWait k stAborted)) hreach rfl (cmdWrite_cancel k ▸ hcmd 1)
      · rintro rfl
        exact exec_doorbell (f := ringBell 0 k 2 (Sw.modRing k resumeRing)) hreach rfl (cmdWrite_resume k ▸ hcmd 2)
    case evq => exact fun q hq => exec_doorbell (f := evqBell 0 q v) hreach rfl (bar2Write_evq hq v _)
    case msix =>
      intro k hk
      exact becomes_of_lift (writeOp s.fuses 0 .bar4 (16 * k + 8) 4 v) rfl ((writeOp_bar4 _ hreach).trans (bar4Write_data hk v _))
    case sriov => exact becomes_of_lift (writeOp s.fuses 0 .sriov off 4 v) rfl ((writeOp_sriov _ hreach).trans (sriovWrite_eq v _))

end Sys2Proof.Machine
end

section
/-! PROOFS. Management commands from the BMC and in MGMT descriptors (O49). -/
namespace Sys2Proof.Machine

/-! ### The course of a management command (16 R528, R536) -/

theorem mgmtSw_none {checks : Sw → List (Bool × Nat)} {s : State} (f : Sw → Sw) (h : firstFail (checks s.sw) = none) :
    mgmtSw checks f s = (stOk, { s with sw := f s.sw }) := by simp [mgmtSw, h]
theorem mgmtSw_some {checks : Sw → List (Bool × Nat)} {s : State} {st : Nat} (f : Sw → Sw) (h : firstFail (checks s.sw) = some st) :
    mgmtSw checks f s = (st, s) := by simp [mgmtSw, h]

/-- While management is not served, a command of the BMC has no effect. -/
theorem mgmtBmc_unserved {s : State} (h : s.sw.served = false) (code : Nat) (act : MgmtAct) (after : MgmtAfter) :
    mgmtBmc code act after s = s := by
  have hns : (!s.sw.i3cServed || s.sw.sec.recovery) = !s.sw.served := by simp [Sw.served]
  exact if_pos (by rw [hns, h]; rfl)
/-- While it is served, the BMC's command acts, is recorded and answered. -/
theorem mgmtBmc_served {s : State} {code st : Nat} {act : MgmtAct} {w : Sw} (h : s.sw.served = true)
    (ha : act false s = (st, { s with sw := w })) :
    mgmtBmc code act noAfter s = { s with sw := (mgmtEvent false code st w).out (.reply true (le 1 code ++ le 1 st)) } := by
  rw [Sw.served, Bool.and_eq_true, Bool.not_eq_true'] at h
  obtain ⟨hi, hr⟩ := h
  simp [mgmtBmc, hi, hr, ha, noAfter]
/-- A descriptor that passes the header checks and names the code of its row, its arguments alone beside it, acts and completes. -/
theorem mgmtDesc_good {s : State} {b : Sub} {code n st : Nat} {act : MgmtAct} {w : Sw} (hh : headerGood 0x93 b s) (hc : b.f 8 1 = code)
    (ho : b.only [by_ 8 (1 + n)] = true) (ha : act true { s with sw := descSw 0x93 b s.sw } = (st, { s with sw := w })) :
    mgmtDesc code n false act noAfter b s = { s with sw := complete (descTok 0x93 b s.sw) st (mgmtEvent true code st w) } := by
  simp only [headerGood, descSw] at hh
  simp only [descSw] at ha
  simp [mgmtDesc, hh, hc, ho, ha, descTok, noAfter]
/-- Another code, or bits outside the arguments: nothing but the record and the completion. -/
theorem mgmtDesc_bad {s : State} {b : Sub} {code n : Nat} (act : MgmtAct) (hh : headerGood 0x93 b s)
    (hb : b.f 8 1 ≠ code ∨ b.only [by_ 8 (1 + n)] = false) : mgmtDesc code n false act noAfter b s =
      { s with sw := complete (descTok 0x93 b s.sw) stBad (mgmtEvent true (b.f 8 1) stBad (descSw 0x93 b s.sw)) } := by
  have hg : ¬ (b.f 8 1 = code ∧ b.only [by_ 8 (1 + n)] = true) := fun ⟨hc, ho⟩ => hb.elim (· hc) (by simp [ho])
  simp only [headerGood, descSw] at hh
  simp [mgmtDesc, hh, hg, descTok, descSw, noAfter]

/-- The two ways in of a command with one argument. -/
theorem mgmt_bmc (code n arg : Nat) (act : Nat → MgmtAct) (s : State) :
    mgmt none code n arg act s = mgmtBmc code (act arg) noAfter s := rfl
theorem mgmt_desc {n : Nat} (hn : 0 < n) (b : Sub) (code arg : Nat) (act : Nat → MgmtAct) (s : State) :
    mgmt (some b) code n arg act s = mgmtDesc code n false (act (b.f 9 n)) noAfter b s := by
  simp [mgmt, mgmtThen, Nat.max_eq_right hn]

/-- Dispatch changes nothing that a management command checks or acts on. -/
theorem descSw_keeps (code : Nat) (b : Sub) (s : Sw) : Sw.keeps descParts s (descSw code b s) :=
  dispatch_keeps (by decide) (.refl _ s)

section Ends
variable {c : Option Sub → Instr} {code n arg st : Nat} {act : Nat → MgmtAct} {s : State} {f : Sw → Sw}
  {checks : Bool → Sw → List (Bool × Nat)}

/-- A command ends alike from both sources where its action on what a dispatch can leave does. -/
theorem mgmtEnds_of_act (hn : 0 < n) (hc : ∀ via, exec (c via) s = .next (mgmt via code n arg act s))
    (ha : ∀ pf w, Sw.keeps descParts s.sw w → act arg pf { s with sw := w } = (st, { s with sw := f w })) :
    mgmtEnds c code n arg st s f := by
  refine ⟨fun hs => ?_, fun b hh hcode harg ho => ?_⟩
  · exact (hc none).trans (congrArg Host.Outcome.next (mgmtBmc_served hs (ha false s.sw (.refl _ _))))
  · have hact : act (b.f 9 n) true { s with sw := descSw 0x93 b s.sw } = (st, { s with sw := f (descSw 0x93 b s.sw) }) :=
      harg hn ▸ ha true _ (descSw_keeps 0x93 b s.sw)
    exact (hc (some b)).trans (congrArg Host.Outcome.next ((mgmt_desc hn b code arg act s).trans (mgmtDesc_good hh hcode ho hact)))
/-- Its checks pass: it ends OK with its effect. -/
theorem mgmtEnds_ok (hn : 0 < n) (hc : ∀ via, exec (c via) s = .next (mgmt via code n arg act s))
    (hact : ∀ pf t, act arg pf t = mgmtSw (checks pf) f t)
    (hk : ∀ pf w, Sw.keeps descParts s.sw w → firstFail (checks pf w) = none) : mgmtEnds c code n arg stOk s f := by
  refine mgmtEnds_of_act hn hc fun pf w hw => ?_
  rw [hact]
  exact mgmtSw_none (s := { s with sw := w }) f (hk pf w hw)
/-- A check fails: it ends with the status of that check and has no effect. -/
theorem mgmtEnds_fails (hn : 0 < n) (hc : ∀ via, exec (c via) s = .next (mgmt via code n arg act s))
    (hact : ∀ pf t, act arg pf t = mgmtSw (checks pf) f t)
    (hk : ∀ pf w, Sw.keeps descParts s.sw w → firstFail (checks pf w) = some st) : mgmtEnds c code n arg st s id := by
  refine mgmtEnds_of_act hn hc fun pf w hw => ?_
  rw [hact]
  exact mgmtSw_some (s := { s with sw := w }) f (hk pf w hw)
end Ends

/-! ### What the checks of the management commands read (16 R528) -/

theorem variant_of_keeps {ps : List Piece} {a b : Sw} (h : Sw.keeps ps a b) (hv : Piece.variant ∉ ps) : b.glb.variant = a.glb.variant :=
  (h .variant hv).symm
theorem tile_of_keeps {ps : List Piece} {a b : Sw} (h : Sw.keeps ps a b) (hv : Piece.variant ∉ ps) (ht : Piece.tiles ∉ ps) (p : Nat) :
    b.tile p = a.tile p := by
  have ht' : a.tiles = b.tiles := h .tiles ht
  rw [Sw.tile, Sw.tile, ht', variant_of_keeps h hv]
theorem stackPopulated_of_keeps {ps : List Piece} {a b : Sw} (h : Sw.keeps ps a b) (hv : Piece.variant ∉ ps) (k : Nat) :
    b.stackPopulated k = a.stackPopulated k := by rw [Sw.stackPopulated, Sw.stackPopulated, variant_of_keeps h hv]
theorem stackPopulated_lt {s : Sw} {k : Nat} (h : s.stackPopulated k = true) : k < 24 := by
  rw [Sw.stackPopulated, Bool.and_eq_true, decide_eq_true_eq] at h
  exact h.1
/-- The tile of a command is the one it was before the dispatch. -/
theorem tile_of_dispatched {a b : Sw} (h : Sw.keeps descParts a b) (p : Nat) : b.tile p = a.tile p :=
  tile_of_keeps h (by decide) (by decide) p

theorem tileQuarantine_ok {s : State} {p : Nat} (hp : p < 144) (hr : (s.sw.tile p).role = .active ∨ (s.sw.tile p).role = .spare) :
    mgmtEnds (.tileQuarantine · p) 0x03 1 p stOk s (quarantine p 4) := by
  refine mgmtEnds_ok (by decide) (fun _ => rfl) (fun _ _ => rfl) fun _ w hw => ?_
  have h144 : ¬ 144 ≤ p := by omega
  rw [tile_of_dispatched hw]
  rcases hr with hr | hr <;> simp [firstFail, hr, h144]
theorem tileQuarantine_denied {s : State} {p : Nat} (hp : p < 144)
    (hr : (s.sw.tile p).role = .fused ∨ (s.sw.tile p).role = .quarantined) : mgmtEnds (.tileQuarantine · p) 0x03 1 p stDenied s id := by
  refine mgmtEnds_fails (by decide) (fun _ => rfl) (fun _ _ => rfl) fun _ w hw => ?_
  have h144 : ¬ 144 ≤ p := by omega
  rw [tile_of_dispatched hw]
  rcases hr with hr | hr <;> simp [firstFail, hr, h144]
theorem tileQuarantine_bad {s : State} {p : Nat} (hp : 144 ≤ p) : mgmtEnds (.tileQuarantine · p) 0x03 1 p stBad s id :=
  mgmtEnds_fails (by decide) (fun _ => rfl) (fun _ _ => rfl) fun _ _ _ => by simp [firstFail, hp]
theorem tileClear_ok {s : State} {p : Nat} (pass : Bool) (hp : p < 144) (hr : (s.sw.tile p).role = .quarantined) :
    mgmtEnds (.tileClear · p pass) 0x04 1 p stOk s (clearTile p pass) := by
  refine mgmtEnds_ok (by decide) (fun _ => rfl) (fun _ _ => rfl) fun _ w hw => ?_
  have h144 : ¬ 144 ≤ p := by omega
  rw [tile_of_dispatched hw]
  simp [firstFail, hr, h144]
theorem tileClear_denied {s : State} {p : Nat} (pass : Bool) (hp : p < 144) (hr : (s.sw.tile p).role ≠ .quarantined) :
    mgmtEnds (.tileClear · p pass) 0x04 1 p stDenied s id := by
  refine mgmtEnds_fails (by decide) (fun _ => rfl) (fun _ _ => rfl) fun _ w hw => ?_
  have h144 : ¬ 144 ≤ p := by omega
  rw [tile_of_dispatched hw]
  simp [firstFail, hr, h144]
theorem tileClear_bad {s : State} {p : Nat} (pass : Bool) (hp : 144 ≤ p) : mgmtEnds (.tileClear · p pass) 0x04 1 p stBad s id :=
  mgmtEnds_fails (by decide) (fun _ => rfl) (fun _ _ => rfl) fun _ _ _ => by simp [firstFail, hp]

/-- The two bytes of arguments of CHANNEL_CLEAR are stack and channel. -/
theorem exec_channelClear {k : Nat} (hk : k < 256) (c : Nat) (s : State) (via : Option Sub) : exec (.channelClear via k c) s =
    .next (mgmt via 0x05 2 (k + 256 * c) (fun v => channelClearAct (v % 256) (v / 256)) s) := by
  have hmod : exec (.channelClear via k c) s =
      .next (mgmt via 0x05 2 (k % 256 + 256 * c) (fun v => channelClearAct (v % 256) (v / 256)) s) := rfl
  rwa [Nat.mod_eq_of_lt hk] at hmod
theorem channelClearAct_bytes {k : Nat} (hk : k < 256) (c : Nat) (pf : Bool) (s : State) :
    channelClearAct ((k + 256 * c) % 256) ((k + 256 * c) / 256) pf s = channelClearAct k c pf s := by
  rw [show (k + 256 * c) % 256 = k by omega, show (k + 256 * c) / 256 = c by omega]
theorem channelClear_ok {s : State} {k c : Nat} (hk : s.sw.stackPopulated k = true) (hc : c < 32) :
    mgmtEnds (.channelClear · k c) 0x05 2 (k + 256 * c) stOk s (Sw.modStack k fun t => { t with failed := clrBit t.failed c }) := by
  have hk256 : k < 256 := Nat.lt_trans (stackPopulated_lt hk) (by decide)
  have h31 : ¬ 31 < c := by omega
  refine mgmtEnds_ok (by decide) (exec_channelClear hk256 c s) (channelClearAct_bytes hk256 c) fun _ w hw => ?_
  simp [firstFail, stackPopulated_of_keeps hw (by decide), hk, h31]
theorem channelClear_bad {s : State} {k c : Nat} (hk : k < 256) (h : s.sw.stackPopulated k = false ∨ 31 < c) :
    mgmtEnds (.channelClear · k c) 0x05 2 (k + 256 * c) stBad s id := by
  refine mgmtEnds_fails (by decide) (exec_channelClear hk c s) (channelClearAct_bytes hk c) fun _ w hw => ?_
  rcases h with h | h <;> simp [firstFail, stackPopulated_of_keeps hw (by decide), h]

theorem locate_ok {v : Nat} (hv : v < 2) (s : State) :
    mgmtEnds (.locate · v) 0x08 1 v stOk s (Sw.modSec fun c => { c with locate := v == 1 }) := by
  have h1 : ¬ 1 < v := by omega
  exact mgmtEnds_ok (by decide) (fun _ => rfl) (fun _ _ => rfl) fun _ _ _ => by simp [firstFail, h1]
theorem locate_bad {v : Nat} (hv : 2 ≤ v) (s : State) : mgmtEnds (.locate · v) 0x08 1 v stBad s id := by
  have h1 : 1 < v := by omega
  exact mgmtEnds_fails (by decide) (fun _ => rfl) (fun _ _ => rfl) fun _ _ _ => by simp [firstFail, h1]
theorem profile_bad {v : Nat} (hv : 4 ≤ v) (s : State) : mgmtEnds (.profile · v) 0x02 1 v stBad s id := by
  have h3 : 3 < v := by omega
  exact mgmtEnds_fails (by decide) (fun _ => rfl) (fun _ _ => rfl) fun _ _ _ => by simp [firstFail, h3]
theorem exec_locate (via : Option Sub) (v : Nat) (s : State) : exec (.locate via v) s = .next (mgmt via 0x08 1 v locateAct s) := rfl
theorem exec_profile (via : Option Sub) (v : Nat) (s : State) : exec (.profile via v) s = .next (mgmt via 0x02 1 v profileAct s) := rfl
/-- PROFILE is the BMC's alone (R529). -/
theorem profileAct_bmc {v : Nat} (hv : v < 4) (s : State) :
    profileAct v false s = (stOk, { s with sw := profileAdjust (s.sw.modPwr fun p => { p with bmcProfile := v }) }) := by
  have h3 : ¬ 3 < v := by omega
  exact mgmtSw_none _ (by simp [firstFail, h3])
theorem profileAct_pf {v : Nat} (hv : v < 4) (s : State) : profileAct v true s = (stDenied, s) := by
  have h3 : ¬ 3 < v := by omega
  exact mgmtSw_some _ (by simp [firstFail, h3])

theorem profile_bmc {s : State} {v : Nat} (hv : v < 4) (hs : s.sw.served = true) :
    becomes (.profile none v) s ((mgmtEvent false 0x02 stOk
      (profileAdjust (s.sw.modPwr fun p => { p with bmcProfile := v }))).out (.reply true (le 1 0x02 ++ le 1 stOk))) := by
  rw [becomes, exec_profile, mgmt_bmc, mgmtBmc_served hs (profileAct_bmc hv s)]
theorem profile_denied {s : State} {v : Nat} {b : Sub} (hv : v < 4) (hh : headerGood 0x93 b s) (hc : b.f 8 1 = 2)
    (harg : b.f 9 1 = v) (ho : b.only [by_ 8 2] = true) :
    endsWith (.profile (some b) v) s 0x93 b stDenied (mgmtEvent true 0x02 stDenied) := by
  have hact : profileAct v true { s with sw := descSw 0x93 b s.sw } = (stDenied, { s with sw := descSw 0x93 b s.sw }) :=
    profileAct_pf hv _
  rw [endsWith, becomes, exec_profile, mgmt_desc (by decide), harg, mgmtDesc_good (n := 1) hh hc ho hact]
theorem locate_otherCode {s : State} {b : Sub} (v : Nat) (hh : headerGood 0x93 b s) (hb : b.f 8 1 ≠ 8 ∨ b.only [by_ 8 2] = false) :
    endsWith (.locate (some b) v) s 0x93 b stBad (mgmtEvent true (b.f 8 1) stBad) := by
  rw [endsWith, becomes, exec_locate, mgmt_desc (by decide), mgmtDesc_bad (n := 1) _ hh hb]

/-- A command of the BMC that I3C does not serve. -/
theorem stays_of_unserved {s : State} {c : Instr} {code n arg : Nat} {act : Nat → MgmtAct} {after : Nat → MgmtAfter}
    (h : s.sw.served = false) (hc : exec c s = .next (mgmtThen none code n arg act after s)) : stays c s :=
  hc.trans (congrArg Host.Outcome.next (mgmtBmc_unserved h code (act arg) (after arg)))
theorem unserved_stay {s : State} (p : Nat) (pass : Bool) (h : s.sw.served = false) :
    stays (.tileQuarantine none p) s ∧ stays (.tileClear none p pass) s ∧ stays (.channelClear none p p) s ∧
    stays (.locate none p) s ∧ stays (.profile none p) s ∧ stays (.reset none p) s ∧ stays (.mgmtFwActivate none) s ∧
    stays (.svnAdvance none) s :=
  ⟨stays_of_unserved h rfl, stays_of_unserved h rfl, stays_of_unserved h rfl, stays_of_unserved h rfl,
    stays_of_unserved h rfl, stays_of_unserved h rfl, stays_of_unserved h rfl, stays_of_unserved h rfl⟩

/-- Settles O49: each management command by what its checks read, from the BMC and in a descriptor alike. -/
theorem managementRule : Obligations.ManagementRule := by
  unfold Obligations.ManagementRule
  exact ⟨fun _ _ => tileQuarantine_ok, fun _ _ => tileQuarantine_denied,
    fun _ _ hp => ⟨tileQuarantine_bad hp, fun pass => tileClear_bad pass hp⟩, fun _ _ pass => tileClear_ok pass,
    fun _ _ pass => tileClear_denied pass, fun _ _ _ => channelClear_ok, fun _ _ _ hk _ => channelClear_bad hk,
    fun s _ hv => locate_ok hv s, fun s _ hv => locate_bad hv s, fun s _ hv => profile_bad hv s,
    fun _ _ hv => ⟨profile_bmc hv, fun _ => profile_denied hv⟩, fun _ p pass => unserved_stay p pass,
    fun _ _ v => locate_otherCode v⟩

end Sys2Proof.Machine
end

section
/-! PROOFS. Quarantine, take-over, self-tests and the clear of tiles (O50). -/
namespace Sys2Proof.Machine

/-! ### Quarantine and take-over (01 R15, R21; 09 R307) -/

/-- Tile p is QUARANTINED for a cause and carries no logical tile. -/
def Sw.retired (p cause : Nat) (s : Sw) : Sw := s.modTile p fun t => { t with role := .quarantined, logical := none, qcause := cause }
/-- What makes a tile serve: role, logical tile, and whether it is in reset. -/
def Tile.duty (t : Tile) : Role × Option Nat × Bool := (t.role, t.logical, t.inReset)

@[simp] theorem modTakeovers_tile (f : SMap Nat → SMap Nat) (s : Sw) (k : Nat) : (s.modTakeovers f).tile k = s.tile k := rfl
@[simp] theorem quarantineEvent_tile (p : Nat) (q : Option Nat) (cause what : Nat) (s : Sw) (k : Nat) :
    (quarantineEvent p q cause what s).tile k = s.tile k := raiseSys_tile ..
@[simp] theorem loseTile_tile (q : Nat) (s : Sw) (k : Nat) : (loseTile q s).tile k = s.tile k :=
  tile_of_keeps (loseTile_keeps (ps := [.portQ, .ctxs]) (by decide) (.refl _ s)) (by decide) (by decide) k

/-- A change of one tile that keeps its duty keeps the duty of every tile. -/
theorem modTile_duty {f : Tile → Tile} (hf : ∀ t, (f t).duty = t.duty) (n : Nat) (s : Sw) (k : Nat) :
    ((s.modTile n f).tile k).duty = (s.tile k).duty := by
  rw [Sw.modTile_at]
  split
  · next h => rw [h, hf]
  · rfl
theorem each_duty {α : Type} {f : α → Sw → Sw} (hf : ∀ x s k, ((f x s).tile k).duty = (s.tile k).duty) (l : List α) (s : Sw)
    (k : Nat) : ((each l f s).tile k).duty = (s.tile k).duty := by
  induction l generalizing s with
  | nil => rfl
  | cons x l ih => exact (ih (f x s)).trans (hf x s k)
theorem agStart_duty (g count : Nat) (l : LayerCfg) (s : Sw) (k : Nat) : ((agStart g count l s).tile k).duty = (s.tile k).duty :=
  each_duty (fun p => modTile_duty (by intro; rfl) p) _ s k
theorem agStop_duty (g : Nat) (s : Sw) (k : Nat) : ((agStop g s).tile k).duty = (s.tile k).duty :=
  each_duty (fun p => modTile_duty (by intro; rfl) p) _ s k
@[simp] theorem stepEvent_tile (x u step code : Nat) (content : List Byte) (s : Sw) (k : Nat) :
    (stepEvent x u step code content s).tile k = s.tile k :=
  tile_of_keeps (stepEvent_keeps (ps := evParts) (by decide) (.refl _ s)) (by decide) (by decide) k
/-- Passes that start again change address generators only. -/
theorem restartShards_duty (g tile : Nat) (s : Sw) (k : Nat) : ((restartShards g tile s).tile k).duty = (s.tile k).duty := by
  refine each_duty (fun x s k => ?_) _ s k
  split
  · rfl
  · refine each_duty (fun u s k => each_duty (fun h s k => ?_) _ s k) _ s k
    split
    · split
      · rw [stepEvent_tile]
        split
        · rw [agStart_duty, agStop_duty]
        · rfl
      · rfl
    · rfl

/-- The lowest spare of a grove depends on which tiles are spares only. -/
theorem spareOf_congr {a b : Sw} (h : ∀ k, (b.tile k).role = .spare ↔ (a.tile k).role = .spare) (g : Nat) :
    b.spareOf g = a.spareOf g := by
  unfold Sw.spareOf
  congr 1
  funext k
  exact Bool.eq_iff_iff.mpr (by simpa using h k)
theorem spare_of_spareOf {s : Sw} {g sp : Nat} (h : s.spareOf g = some sp) : (s.tile sp).role = .spare := by
  simpa using List.find?_some h
/-- Which logical tiles are out of service depends on what the active tiles carry only. -/
theorem outOfServiceOf_of_carried {a b : Sw} (hv : b.glb.variant = a.glb.variant)
    (h : ∀ k q, ((b.tile k).role = .active ∧ (b.tile k).logical = some q) ↔
      ((a.tile k).role = .active ∧ (a.tile k).logical = some q))
    (g : Nat) : b.outOfServiceOf g = a.outOfServiceOf g := by
  have hphys (q : Nat) : b.physOf q = a.physOf q := by
    unfold Sw.physOf
    congr 1
    funext k
    exact Bool.eq_iff_iff.mpr (by simpa using h k q)
  simp [Sw.outOfServiceOf, Sw.quadActive, Sw.inService, hphys, hv]

/-- Quarantine of a spare (01 R15). -/
theorem quarantine_spare {s : Sw} {p : Nat} (cause : Nat) (h : (s.tile p).role = .spare) :
    quarantine p cause s = quarantineEvent p none cause 0 (s.retired p cause) := by
  simp [quarantine, h, Sw.retired]
theorem quarantine_spare_keeps {s : Sw} {p : Nat} (cause : Nat) (h : (s.tile p).role = .spare) :
    Sw.keeps [.tiles, .evqs, .msix, .outs] s (quarantine p cause s) :=
  quarantine_spare cause h ▸ quarantineEvent_keeps (by decide) (modTile_keeps (by decide) (.refl _ _))
theorem quarantine_spare_tile {s : Sw} {p : Nat} (cause k : Nat) (h : (s.tile p).role = .spare) : (quarantine p cause s).tile k =
    if k = p then { s.tile p with role := .quarantined, logical := none, qcause := cause } else s.tile k := by
  rw [quarantine_spare cause h, quarantineEvent_tile, Sw.retired, Sw.modTile_at]

/-- Spare sp takes logical tile q over from p: p is retired and in reset, sp carries q, and the take-over is in progress. -/
def Sw.handedOver (p cause q sp : Nat) (s : Sw) : Sw :=
  carry sp q ((tileReset p 1 (s.retired p cause)).modTakeovers (SMap.set q sp))
theorem retired_spareOf {s : Sw} {p : Nat} (cause g : Nat) (h : (s.tile p).role = .active) :
    (tileReset p 1 (s.retired p cause)).spareOf g = s.spareOf g := by
  refine spareOf_congr (fun k => ?_) g
  by_cases hk : k = p
  · subst hk
    simp [tileReset, Sw.retired, h]
  · simp [tileReset, Sw.retired, Sw.modTile_others _ _ _ hk]
theorem quarantine_active {s : Sw} {p q sp : Nat} (cause : Nat) (hr : (s.tile p).role = .active) (hq : (s.tile p).logical = some q)
    (hsp : s.spareOf (p / 36) = some sp) : quarantine p cause s =
      quarantineEvent p (some q) cause 1 (restartShards (p / 36) p (loseTile q (s.handedOver p cause q sp))) := by
  have hsp' := (retired_spareOf cause (p / 36) hr).trans hsp
  unfold Sw.retired at hsp'
  simp [quarantine, hr, hq, hsp', Sw.handedOver, Sw.retired]
theorem quarantine_active_takeovers {s : Sw} {p q sp : Nat} (cause : Nat) (hr : (s.tile p).role = .active)
    (hq : (s.tile p).logical = some q) (hsp : s.spareOf (p / 36) = some sp) :
    (quarantine p cause s).takeovers = SMap.set q sp s.takeovers := by
  rw [quarantine_active cause hr hq hsp]
  have hk : Sw.keeps (parts11 ++ [.portQ, .ctxs]) (s.handedOver p cause q sp)
      (quarantineEvent p (some q) cause 1 (restartShards (p / 36) p (loseTile q (s.handedOver p cause q sp)))) :=
    quarantineEvent_keeps (by decide) (restartShards_keeps (by decide) (loseTile_keeps (by decide) (.refl _ _)))
  exact (hk .takeovers (by decide)).symm
theorem handedOver_duty {p sp : Nat} (hne : sp ≠ p) (cause q k : Nat) (s : Sw) : ((s.handedOver p cause q sp).tile k).duty =
    if k = sp then (.active, some q, (s.tile sp).inReset) else if k = p then (.quarantined, none, true) else (s.tile k).duty := by
  by_cases hs : k = sp
  · subst hs
    simp [Sw.handedOver, carry, Tile.duty, tileReset, Sw.retired, Sw.modTile_others _ _ _ hne]
  · rw [if_neg hs, Sw.handedOver, carry, Sw.modTile_others _ _ _ hs, modTakeovers_tile]
    by_cases hp : k = p
    · subst hp
      simp [tileReset, Sw.retired, Tile.duty]
    · rw [if_neg hp, tileReset, Sw.modTile_others _ _ _ hp, Sw.retired, Sw.modTile_others _ _ _ hp]

theorem spareOf_ne_active {s : Sw} {p g sp : Nat} (hr : (s.tile p).role = .active) (hsp : s.spareOf g = some sp) : p ≠ sp := by
  rintro rfl
  exact absurd ((spare_of_spareOf hsp).symm.trans hr) (by decide)
/-- Only events, passes and what was inside the tile follow a hand-over. -/
theorem quarantine_active_duty {s : Sw} {p q sp : Nat} (cause k : Nat) (hr : (s.tile p).role = .active) (hq : (s.tile p).logical = some q)
    (hsp : s.spareOf (p / 36) = some sp) : ((quarantine p cause s).tile k).duty =
      if k = sp then (.active, some q, (s.tile sp).inReset) else if k = p then (.quarantined, none, true) else (s.tile k).duty := by
  rw [quarantine_active cause hr hq hsp, quarantineEvent_tile, restartShards_duty, loseTile_tile,
    handedOver_duty (spareOf_ne_active hr hsp).symm]

/-! ### Self-tests, the end of a take-over, and the clear (01 R15, R21; 09 R290; 14 R476) -/

theorem selfTestSpare_other {s : Sw} {p : Nat} (pass : Bool) (h : (s.tile p).role ≠ .spare) : selfTestSpare p pass s = s :=
  if_pos (by simpa using h)
/-- The result of a periodic self-test is recorded. -/
def Sw.tested (p : Nat) (pass : Bool) (s : Sw) : Sw := s.modTile p fun t => { t with selfTest := pass }
theorem selfTestSpare_passes {s : Sw} {p : Nat} (h : (s.tile p).role = .spare) : selfTestSpare p true s = s.tested p true := by
  simp [selfTestSpare, h, Sw.tested]
theorem selfTestSpare_fails {s : Sw} {p : Nat} (h : (s.tile p).role = .spare) :
    selfTestSpare p false s = quarantine p 2 (s.tested p false) := by
  simp [selfTestSpare, h, Sw.tested]

theorem takeOverDone_none {q : Nat} {s : Sw} (h : s.takingOver q = false) : takeOverDone q s = s := if_pos (by simp [h])
/-- The take-over of q is over, and its ports return credit. -/
def Sw.creditReturned (q : Nat) (s : Sw) : Sw :=
  each ((s.modTakeovers (SMap.erase q)).portsPresent q) sendCredit (s.modTakeovers (SMap.erase q))
theorem creditReturned_keeps (q : Nat) (s : Sw) : Sw.keeps parts39 (s.modTakeovers (SMap.erase q)) (s.creditReturned q) :=
  each_keeps (fun _ _ _ h => sendCredit_keeps (by decide) h) (.refl _ _)
/-- With no context held only credit returns. -/
theorem takeOverDone_noCtxs {q : Nat} {s : Sw} (h : s.takingOver q = true) (hc : s.ctxs = []) (hw : (s.quad q).resetWaits = false) :
    takeOverDone q s = s.creditReturned q := by
  have hquad : ((s.creditReturned q).quad q).resetWaits = false := by
    rw [Sw.quad, ← creditReturned_keeps q s .quads (by decide)]
    exact hw
  have hend : takeOverDone q s =
      if ((s.creditReturned q).quad q).resetWaits then portReset4 q (s.creditReturned q) else s.creditReturned q := by
    simp only [takeOverDone, h, hc, Sw.modTakeovers_ctxs]
    rfl
  rw [hend, hquad]
  rfl

theorem clearTile_fails (p : Nat) (s : Sw) : clearTile p false s = selfTested p false (tileReset p 2 s) := rfl
/-- With no logical tile of the grove out of service a cleared tile is a spare and nothing more. -/
theorem clearTile_passes {s : Sw} {p : Nat} (hr : (s.tile p).role = .quarantined) (ho : s.outOfServiceOf (p / 36) = none) :
    clearTile p true s = (selfTested p true (tileReset p 2 s)).modTile p fun t => { t with role := .spare, qcause := 0 } := by
  refine tileReturn_none ((outOfServiceOf_of_carried ?_ (fun k q => ?_) _).trans ho)
  · simp [selfTested, tileReset]
  · by_cases hk : k = p
    · subst hk
      simp [hr]
    · simp [Sw.modTile_others _ _ _ hk, selfTested_tile, hk, tileReset]

/-- Settles O50: quarantine by the role it meets, self-tests, the end of a take-over, and the clear. -/
theorem quarantineRule : Obligations.QuarantineRule := by
  unfold Obligations.QuarantineRule
  refine ⟨?spare, ?active, ?test, ?noTest, ?noTakeOver, ?takeOver, ?clearFails, ?clearPasses⟩
  case spare =>
    intro s p cause h
    exact ⟨quarantine_spare_keeps cause h, fun k hk => by rw [quarantine_spare_tile cause k h, if_neg hk],
      by rw [quarantine_spare_tile cause p h, if_pos rfl]⟩
  case active =>
    intro s p q sp cause hr hq hsp
    have hne := spareOf_ne_active hr hsp
    have hp := quarantine_active_duty cause p hr hq hsp
    have hs := quarantine_active_duty cause sp hr hq hsp
    simp only [hne, if_false, if_true, Tile.duty, Prod.mk.injEq] at hp hs
    obtain ⟨hprole, hplogical, hpreset⟩ := hp
    obtain ⟨hsrole, hslogical, -⟩ := hs
    refine ⟨quarantine_active_takeovers cause hr hq hsp, hprole, hplogical, hpreset, hsrole, hslogical, fun k hkp hks => ?_⟩
    have hk := quarantine_active_duty cause k hr hq hsp
    rw [if_neg hks, if_neg hkp] at hk
    exact ⟨congrArg Prod.fst hk, congrArg (fun d => d.2.1) hk⟩
  case test =>
    intro s p h
    have hspare : ((s.sw.tested p false).tile p).role = .spare := by simpa [Sw.tested] using h
    refine ⟨runsTo_of_lift (selfTestSpare p true) rfl ?_ ?_, runsTo_of_lift (selfTestSpare p false) rfl ?_ ?_⟩
    · exact selfTestSpare_passes h ▸ modTile_keeps (by decide) (.refl _ _)
    · rw [selfTestSpare_passes h]
      exact ⟨Sw.modTile_self .., fun k hk => (Sw.modTile_others _ _ _ hk).symm⟩
    · rw [selfTestSpare_fails h]
      exact (modTile_keeps (ps := [.tiles, .evqs, .msix, .outs]) (by decide) (.refl _ _)).trans (quarantine_spare_keeps 2 hspare)
    · rw [selfTestSpare_fails h]
      refine ⟨?_, fun k hk => ?_⟩
      · rw [quarantine_spare_tile 2 p hspare, if_pos rfl, Sw.tested, Sw.modTile_self]
      · rw [quarantine_spare_tile 2 k hspare, if_neg hk, Sw.tested, Sw.modTile_others _ _ _ hk]
  case noTest => exact fun s p pass h => stays_of_lift (selfTestSpare p pass) rfl (selfTestSpare_other pass h)
  case noTakeOver => exact fun s q h => stays_of_lift (takeOverDone q) rfl (takeOverDone_none h)
  case takeOver =>
    intro s q h
    refine ⟨takeOverDone q s.sw, rfl, fun hc hw => ?_⟩
    have hk := creditReturned_keeps q s.sw
    rw [takeOverDone_noCtxs h hc hw]
    exact ⟨(hk .takeovers (by decide)).symm, (hk .tiles (by decide)).symm, (hk .lanes (by decide)).symm⟩
  case clearFails =>
    intro s p h
    refine ⟨?_, ?_, selfTested_keeps (by decide) (tileReset_keeps (by decide) (.refl _ _))⟩
    · simp [clearTile_fails, selfTested_tile, tileReset, h]
    · simp [clearTile_fails, selfTested_tile]
  case clearPasses =>
    intro s p h ho
    rw [clearTile_passes h ho]
    refine ⟨by simp, fun k hk => ?_, modTile_keeps (by decide) (selfTested_keeps (by decide) (tileReset_keeps (by decide) (.refl _ _)))⟩
    rw [Sw.modTile_others _ _ _ hk, selfTested_tile, if_neg hk, tileReset, Sw.modTile_others _ _ _ hk]

end Sys2Proof.Machine
end

section
/-! PROOFS. Cells that reach their context, member cells, prune cells and contributions into slots (O8). -/
namespace Sys2Proof.Machine

/-! ### Cells that reach their context (10 R340) -/

/-- A cell that arrives is handed to its context as it is then. -/
theorem toContext_arrival {s w : Sw} {p x q : Nat} {c c' : Cell} {k : Ctx} (h : s.arrival p c = some (x, q, c', w, k))
    (f : Nat → Nat → Cell → Sw → Sw) : toContext p c f s = f x q c' w := by
  unfold Sw.arrival at h
  rcases hi : ingress p c s with ⟨_ | c₁, s₁⟩
  · simp [hi] at h
  · simp only [hi, Option.bind_eq_some_iff, Option.ite_none_right_eq_some, Option.some.injEq, Prod.mk.injEq] at h
    obtain ⟨k', hk, hmine, rfl, rfl, rfl, rfl, rfl⟩ := h
    simp only [toContext, hi, hk, hmine, if_true]
/-- The context that a cell reaches is held. -/
theorem arrival_ctx {s w : Sw} {p x q : Nat} {c c' : Cell} {k : Ctx} (h : s.arrival p c = some (x, q, c', w, k)) :
    w.ctx? x = some k := by
  unfold Sw.arrival at h
  rcases hi : ingress p c s with ⟨_ | c₁, s₁⟩
  · simp [hi] at h
  · simp only [hi, Option.bind_eq_some_iff, Option.ite_none_right_eq_some, Option.some.injEq, Prod.mk.injEq] at h
    obtain ⟨k', hk, -, rfl, -, -, rfl, rfl⟩ := h
    exact hk
/-- A command whose row is `f` at the context becomes what `f` makes of the cell that arrived. -/
theorem becomes_of_arrival {i : Instr} {s : State} {p x q : Nat} {c c' : Cell} {w t : Sw} {k : Ctx} (f : Nat → Nat → Cell → Sw → Sw)
    (hi : exec i s = lift (toContext p c f) s) (h : s.sw.arrival p c = some (x, q, c', w, k)) (ht : f x q c' w = t) : becomes i s t :=
  becomes_of_lift (toContext p c f) hi ((toContext_arrival h f).trans ht)
/-- Two commands do the same with a cell that arrived where their rows do the same with it at its context. -/
theorem exec_eq_of_arrival {i j : Instr} {s : State} {p x q : Nat} {c c' : Cell} {w : Sw} {k : Ctx} (f g : Nat → Nat → Cell → Sw → Sw)
    (hi : exec i s = lift (toContext p c f) s) (hj : exec j s = lift (toContext p c g) s)
    (h : s.sw.arrival p c = some (x, q, c', w, k)) (hfg : f x q c' w = g x q c' w) : exec i s = exec j s := by
  rw [hi, hj, lift, lift, toContext_arrival h, toContext_arrival h, hfg]

/-! ### Operations and folds -/

theorem op?_of_ctx {w : Sw} {x : Nat} {k : Ctx} (hk : w.ctx? x = some k) (o : Nat) : w.op? x o = SMap.find? o k.ops := by
  simp [Sw.op?, hk]
/-- Nothing is owed for a quiet operation when its data comes (05 R186). -/
theorem earlyCheck_quiet {w : Sw} {x o : Nat} {r : Op} (hr : w.op? x o = some r) (hq : r.quiet) : earlyCheck x o w = w := by
  obtain ⟨hl, -, hb⟩ := hq
  simp [earlyCheck, hr, hl, hb]
/-- No stall is told of a quiet operation (04 R152). -/
theorem clearStall_quiet {w : Sw} {x o : Nat} {r : Op} (hr : w.op? x o = some r) (hq : r.quiet) (port : Nat) :
    clearStall x o port w = w := by
  obtain ⟨-, ho, -⟩ := hq
  simp [clearStall, hr, ho]
theorem each_of_fixed {α : Type} {f : α → Sw → Sw} {s : Sw} (h : ∀ a, f a s = s) (l : List α) : each l f s = s := by
  induction l with
  | nil => rfl
  | cons a l ih => exact (congrArg (each l f) (h a)).trans ih

/-! ### Discards (04 R140) -/

theorem idDiscard_cnt {w : Sw} {n : Nat} (h : w.portActive n = true) :
    ((idDiscard n w).port n).cnt.idDiscard = (w.port n).cnt.idDiscard + 1 := by
  rw [idDiscard, Sw.modCnt, port_modPort_same h]
/-- The event changes no counter of a port. -/
theorem grantViolation_frame (x q n i g : Nat) (w : Sw) :
    Sw.keeps (.evTimes :: evParts) (idDiscard (w.physPort x q) w) (grantViolation x q n i g w) :=
  limited_keeps (by decide) (fun _ _ h => raiseCtx_keeps (by decide) h) (.refl _ _)
theorem grantViolation_cnt {w : Sw} {x q : Nat} (n i g : Nat) (h : w.portActive (w.physPort x q) = true) :
    ((grantViolation x q n i g w).port (w.physPort x q)).cnt.idDiscard = (w.port (w.physPort x q)).cnt.idDiscard + 1 := by
  rw [← grantViolation_frame x q n i g w .portCnt (by decide), idDiscard_cnt h]

/-! ### A member's cells (02 R41; 04 R140; 08 R260, R261) -/

section MemberCell
variable {w : Sw} {x q o : Nat} {c : Cell} {k : Ctx} {h : Child} {r : Op}

theorem memberCellOp_idle (hk : w.ctx? x = some k) (hi : k.memberOf q = none ∨ c.tc ≠ 3) : memberCellOp x q c w = w := by
  cases hm : k.memberOf q with
  | none => simp [memberCellOp, hk, hm]
  | some h => simp [memberCellOp, hk, hm, hi.resolve_left (by simp [hm])]

variable (hk : w.ctx? x = some k) (hm : k.memberOf q = some h) (htc : c.tc = 3)
include hk hm htc

theorem memberCellOp_unknown (hs : k.opOfSeq c.copseq = none) :
    memberCellOp x q c w = grantViolation x q (k.opnumOf c.copseq) c.idx 0 w := by
  simp [memberCellOp, hk, hm, htc, hs]

variable (hs : k.opOfSeq c.copseq = some (o, r))
include hs

theorem memberCellOp_otherLayout (hle : c.le ≠ k.leOf o) : memberCellOp x q c w = layoutDiscard x q true c w := by
  simp [memberCellOp, hk, hm, htc, hs, hle]
theorem memberCellOp_ended (hle : c.le = k.leOf o) (ho : r.isOpen = false) : memberCellOp x q c w = w := by
  simp [memberCellOp, hk, hm, htc, hs, hle, ho]
theorem memberCellOp_aboveGrant (hle : c.le = k.leOf o) (ho : r.isOpen = true) (hg : r.grants.getD q 0 ≤ c.idx) :
    memberCellOp x q c w = grantViolation x q o c.idx (r.grants.getD q 0) w := by
  simp [memberCellOp, hk, hm, htc, hs, hle, ho, hg]
/-- Within the grant of a quiet operation the cell is taken as its kind of operation takes it. -/
theorem memberCellOp_granted (hle : c.le = k.leOf o) (ho : r.isOpen = true) (hg : c.idx < r.grants.getD q 0) (hr : w.op? x o = some r)
    (hq : r.quiet) : memberCellOp x q c w = settle x (if blkPrune r.blk then pruneCell x o q h c w else plainCell x o q h c w) := by
  have hg' : ¬ r.grants.getD q 0 ≤ c.idx := by omega
  simp [memberCellOp, hk, hm, htc, hs, hle, ho, hg', earlyCheck_quiet hr hq, clearStall_quiet hr hq]

omit hm htc hs
variable (hr : w.op? x o = some r)
include hr

/-- A member cell already staged is a duplicate (09 R282). -/
theorem plainCell_duplicate (hg : k.gridsOf w r h q c.idx ≠ []) (hd : r.staging.mem (cellKey q c.idx) = true) :
    plainCell x o q h c w = countDup x w := by
  simp only [Ctx.gridsOf] at hg
  simp only [plainCell, hk, hr, List.isEmpty_iff, hg, hd, Bool.true_or, if_false, if_true]
/-- A new member cell that makes no grid cell whole is staged (02 R41). -/
theorem plainCell_staged {u : Sw} (hg : k.gridsOf w r h q c.idx ≠ []) (hd : r.staging.mem (cellKey q c.idx) = false)
    (hn : ∃ g ∈ k.gridsOf w r h q c.idx, taken k o r h.port g = false)
    (hu : u = w.modOp x o (fun e => { e with staging := e.staging.set (cellKey q c.idx) c.pay }))
    (hw : ∀ k₁ r₁ g, u.ctx? x = some k₁ → u.op? x o = some r₁ → wholeCell u k₁ r₁ q h.rankFirst g = false) :
    plainCell x o q h c w = u := by
  have hall : (k.gridsOf w r h q c.idx).all (fun g => taken k o r h.port g) = false := by
    simpa [List.all_eq_false] using hn
  simp only [Ctx.gridsOf] at hg hall
  simp only [plainCell, hk, hr, List.isEmpty_iff, hg, hd, hall, Bool.or_self, Bool.false_eq_true, if_false, ← hu]
  refine each_of_fixed (fun g => ?_) _
  cases hc : u.ctx? x with
  | none => rfl
  | some k₁ =>
    cases hp : u.op? x o with
    | none => rfl
    | some r₁ => simp [hw k₁ r₁ g hc hp]
/-- A prune cell that breaks a test of R261 fails its operation. -/
theorem pruneCell_broken {t : Nat} (ht : pruneTest (elemBits (r.format q) / 8) (payBytes (w.pers q)) (pruneSW (r.format q) (w.pers q))
    (contribPart k r.blk h.rankFirst).2 c.idx (r.cursors.getD q Cursor.fresh) (bytes64 c.pay) = some t) :
    pruneCell x o q h c w = failHere x o stBad (raiseCtx x 0x0500 (le 4 o ++ le 2 q ++ le 4 c.idx ++ le 1 t) w) := by
  simp [pruneCell, hk, hr, ht]
end MemberCell

theorem pruneOf_names {w : Sw} {x o : Nat} {c : Cell} {k : Ctx} {r : Op} (hk : w.ctx? x = some k)
    (hs : k.opOfSeq c.copseq = some (o, r)) : pruneOf x c w = blkPrune r.blk := by
  simp [pruneOf, hk, hs]

/-! ### Staged contributions (02 R51; 09 R283) -/

section Convert
variable {w : Sw} {x o q g : Nat} {k : Ctx} {r : Op}

theorem convertOp_unknown (hr : w.op? x o = none) : convertOp x o q g w = w := by
  cases hk : w.ctx? x <;> simp [convertOp, hk, hr]

variable (hk : w.ctx? x = some k) (hr : w.op? x o = some r)
include hk hr

theorem convertOp_ready (hw : r.waiting.contains (q, g) = true) (hm : mustWait w k r o g = false) :
    convertOp x o q g w = settle x (gridCellWhole x o q g w) := by
  rw [List.contains_iff_mem] at hw
  simp [convertOp, hk, hr, hw, hm]
theorem convertOp_waits (hw : r.waiting.contains (q, g) = true) (hm : mustWait w k r o g = true) : convertOp x o q g w = w := by
  rw [List.contains_iff_mem] at hw
  simp [convertOp, hk, hr, hw, hm]
/-- Nothing of a member waits for the slot: the cells of a switch child that do are tried again. -/
theorem convertOp_held (hw : r.waiting.contains (q, g) = false) : convertOp x o q g w =
    if k.heldCells.any (fun e => e.1 == q && e.2.tc == 3 && e.2.copseq == o % 64 && e.2.idx == g) then
      settle x (recordResume x o (fun n e => n == q && e.idx == g) w) else w := by
  simp only [convertOp, hk, hr, hw, Bool.false_eq_true, if_false]
end Convert

/-! ### Contributions into slots (02 R53, R73; 04 R143; 09 R282) -/

/-- A contribution of child port q adds its bit, in every mode. -/
theorem Slot.combine_bitmap (t : Slot) (m : Mode) (redop : Nat) (acc64 : Bool) (q : Nat) (part : Part) :
    (t.combine m redop acc64 q part).bitmap = setBit t.bitmap q := by
  cases m <;> rfl

/-- The slots of context x. -/
def Sw.slotsOf (s : Sw) (x : Nat) : Option (SMap Slot) := (s.ctx? x).map Ctx.slots
theorem slotsOf_of_keeps {ps : List Piece} {a b : Sw} (h : Sw.keeps ps a b) (hc : Piece.ctxs ∉ ps) (x : Nat) :
    b.slotsOf x = a.slotsOf x := by
  have hctxs : a.ctxs = b.ctxs := h .ctxs hc
  rw [Sw.slotsOf, Sw.slotsOf, Sw.ctx?, Sw.ctx?, hctxs]
theorem setCtx_slotsOf (x : Nat) (c : Ctx) (s : Sw) : (s.setCtx x c).slotsOf x = some c.slots := by simp [Sw.slotsOf]
/-- A change of an operation leaves the slots. -/
theorem modOp_slotsOf (x o : Nat) (f : Op → Op) (s : Sw) : (s.modOp x o f).slotsOf x = s.slotsOf x := by
  unfold Sw.modOp Sw.modCtx
  split
  · next c hc =>
    rw [setCtx_slotsOf, Sw.slotsOf, hc]
    dsimp only
    split <;> rfl
  · rfl
theorem unstage_slotsOf (x o q rank : Nat) (s : Sw) : (unstage x o q rank s).slotsOf x = s.slotsOf x := by
  unfold unstage
  split
  · exact modOp_slotsOf ..
  · rfl
theorem each_slotsOf {α : Type} {f : α → Sw → Sw} {x : Nat} (hf : ∀ a s, (f a s).slotsOf x = s.slotsOf x) (l : List α) (s : Sw) :
    (each l f s).slotsOf x = s.slotsOf x := by
  induction l generalizing s with
  | nil => rfl
  | cons a l ih => exact (ih (f a s)).trans (hf a s)
theorem unstageBackups_slotsOf (x o g : Nat) (s : Sw) : (unstageBackups x o g s).slotsOf x = s.slotsOf x := by
  unfold unstageBackups
  split
  · rfl
  · refine each_slotsOf (fun h s => ?_) _ s
    split
    · rw [unstage_slotsOf, modOp_slotsOf]
    · rfl

/-- Which grid cells a shadow check samples is a matter of the settings of recovery alone (09 R302). -/
theorem sampled_of_keeps {ps : List Piece} {a b : Sw} (h : Sw.keeps ps a b) (hr : Piece.rcv ∉ ps) (x o g : Nat) :
    sampled b x o g = sampled a x o g := by
  have hrcv : a.rcv = b.rcv := h .rcv hr
  rw [sampled, sampled, hrcv]
theorem slotCheck_unsampled {s : Sw} {x o g : Nat} (h : sampled s x o g = false) : slotCheck x o g s = s := by
  unfold slotCheck
  split
  · rfl
  · simp [h]

/-- The slot of grid cell g with the contribution of child port q added, whether or not that completes it. -/
def Ctx.slotSum (c : Ctx) (x o : Nat) (p : Op) (q g : Nat) (part : Part) : Slot :=
  let t := (c.slot? o g).getD { attempt := c.attemptOf o (segOf c p.blk g), tier1 := slotTier1 c x g }
  let t := if t.bitmap == 0 then { t with lstart := BitVec.allOnes 32, late := 0 } else t
  t.combine (c.mode p) (blkRedop p.blk) c.cfg.acc64 q part
/-- Every expected child of grid cell g is in the slot. -/
def Ctx.slotFull (c : Ctx) (p : Op) (g : Nat) (t : Slot) : Bool := (expected c p.blk g).all (fun q => t.bitmap.getLsbD q)
/-- A complete slot is HELD; of DET-TREE it holds its sum (02 R73). -/
def Slot.closed (t : Slot) (m : Mode) (acc64 : Bool) : Slot :=
  { (if m == .tree then { t.put (t.value m acc64) with tree := [] } else t) with sst := 2 }
/-- The slot of grid cell g once the contribution of child port q is in it. -/
def Ctx.slotWith (c : Ctx) (x o : Nat) (p : Op) (q g : Nat) (part : Part) : Slot :=
  let t := c.slotSum x o p q g part
  if c.slotFull p g t then t.closed (c.mode p) c.cfg.acc64 else t
/-- What adding to slot t of grid cell g touches beside the slot: the anchor cache of its tile and the near memory. -/
def Ctx.slotTouch (c : Ctx) (x : Nat) (p : Op) (g : Nat) (full : Bool) (t : Slot) (s : Sw) : Sw :=
  let s := if c.mode p == .grid then anchorTouch (slotTile c.tiles x g) x (segOf c p.blk g) s else s
  if t.tier1 then nearMemory (slotTile c.tiles x g) (b2n (addsNearMemory (c.mode p) (blkRedop p.blk)) + b2n full) s else s

theorem Ctx.slotSum_bitmap (c : Ctx) (x o : Nat) (p : Op) (q g : Nat) (part : Part) :
    (c.slotSum x o p q g part).bitmap = setBit ((c.slot? o g).elim 0 Slot.bitmap) q := by
  have started (t : Slot) : (if t.bitmap == 0 then { t with lstart := BitVec.allOnes 32, late := 0 } else t).bitmap = t.bitmap := by
    split <;> rfl
  rw [Ctx.slotSum, Slot.combine_bitmap, started]
  cases c.slot? o g <;> rfl
theorem Slot.closed_bitmap (t : Slot) (m : Mode) (acc64 : Bool) : (t.closed m acc64).bitmap = t.bitmap := by
  unfold Slot.closed
  split <;> rfl
theorem Ctx.slotWith_bitmap (c : Ctx) (x o : Nat) (p : Op) (q g : Nat) (part : Part) :
    (c.slotWith x o p q g part).bitmap = setBit ((c.slot? o g).elim 0 Slot.bitmap) q := by
  rw [← c.slotSum_bitmap x o p q g part, Ctx.slotWith]
  split
  · exact Slot.closed_bitmap ..
  · rfl
theorem Ctx.slotWith_complete {c : Ctx} {x o : Nat} {p : Op} {q g : Nat} {part : Part}
    (h : c.slotFull p g (c.slotWith x o p q g part) = true) : (c.slotWith x o p q g part).sst = 2 := by
  rw [Ctx.slotFull, Ctx.slotWith_bitmap, ← c.slotSum_bitmap x o p q g part] at h
  rw [Ctx.slotWith, if_pos (by exact h)]
  rfl
theorem Ctx.slotTouch_keeps (c : Ctx) (x : Nat) (p : Op) (g : Nat) (full : Bool) (t : Slot) (s : Sw) :
    Sw.keeps [.tiles, .hbm, .freeCtr] s (c.slotTouch x p g full t s) :=
  have touched : Sw.keeps [.tiles, .hbm, .freeCtr] s
      (if c.mode p == .grid then anchorTouch (slotTile c.tiles x g) x (segOf c p.blk g) s else s) :=
    keeps_ite (anchorTouch_keeps (by decide) (.refl _ _)) (.refl _ _)
  keeps_ite (nearMemory_keeps (by decide) touched) touched

section Contribute
variable {s : Sw} {x o q g : Nat} {k : Ctx} {r : Op} (part : Part) (hk : s.ctx? x = some k) (hr : s.op? x o = some r) (ho : r.isOpen = true)
include hk hr ho

theorem contribute_taken (ht : taken k o r q g = true) : contribute x o q g part s = countDup x s := by
  simp [contribute, hk, hr, ho, ht]
/-- A contribution not taken yet enters its slot; a complete slot is checked. -/
theorem contribute_new (ht : taken k o r q g = false) : ∃ full t, contribute x o q g part s =
    (let u := k.slotTouch x r g full t (s.setCtx x { k with slots := k.slots.set (slotKey o g) (k.slotWith x o r q g part) })
     if full then slotCheck x o g (unstageBackups x o g u) else u) := by
  refine ⟨k.slotFull r g (k.slotSum x o r q g part), k.slotWith x o r q g part, ?_⟩
  rw [contribute, hk, hr]
  exact (if_neg (by simp [ho])).trans ((if_neg (by simp [ht])).trans rfl)
/-- Where no shadow check samples the cell the slot stays as the contribution left it. -/
theorem contribute_slotsOf (ht : taken k o r q g = false) (hs : sampled s x o g = false) :
    (contribute x o q g part s).slotsOf x = some (k.slots.set (slotKey o g) (k.slotWith x o r q g part)) := by
  obtain ⟨full, t, h⟩ := contribute_new part hk hr ho ht
  rw [h]
  have hu := k.slotTouch_keeps x r g full t (s.setCtx x { k with slots := k.slots.set (slotKey o g) (k.slotWith x o r q g part) })
  have hslots := (slotsOf_of_keeps hu (by decide) x).trans (setCtx_slotsOf ..)
  cases full
  · exact hslots
  · have hcheck : Sw.keeps [.tiles, .hbm, .freeCtr, .ctxs] s (unstageBackups x o g (k.slotTouch x r g true t
        (s.setCtx x { k with slots := k.slots.set (slotKey o g) (k.slotWith x o r q g part) }))) :=
      unstageBackups_keeps (by decide) ((setCtx_keeps (by decide) (.refl _ _)).trans (hu.mono (by decide)))
    exact (congrArg (Sw.slotsOf · x) (slotCheck_unsampled ((sampled_of_keeps hcheck (by decide) x o g).trans hs))).trans
      ((unstageBackups_slotsOf ..).trans hslots)
end Contribute
theorem ctx?_of_slotsOf {s : Sw} {x : Nat} {m : SMap Slot} (h : s.slotsOf x = some m) : ∃ k, s.ctx? x = some k ∧ k.slots = m := by
  simpa [Sw.slotsOf] using h

/-- Settles O8: a member cell by the checks it passes at its context, and a contribution by whether its slot has it. -/
theorem memberCellRule : Obligations.MemberCellRule := by
  unfold Obligations.MemberCellRule
  refine ⟨?arrives, ?counted, ?converts, ?noOp, ?enters⟩
  case arrives =>
    intro s p x q c c' w k h
    have hk := arrival_ctx h
    have member {t : Sw} : memberCellOp x q c' w = t → becomes (.memberCellReceive p c) s t := becomes_of_arrival _ rfl h
    have prune {t : Sw} : (if pruneOf x c' w then memberCellOp x q c' w else w) = t → becomes (.pruneCellReceive p c) s t :=
      becomes_of_arrival (fun x q c s => if pruneOf x c s then memberCellOp x q c s else s) rfl h
    refine ⟨fun hi => member (memberCellOp_idle hk hi), fun ch hm htc => ⟨?unknown, ?discards, ?plain, ?broken⟩,
      fun hp => exec_eq_of_arrival _ _ rfl rfl h (if_pos hp), fun hp => prune (if_neg (by simp [hp]))⟩
    case unknown => exact fun hs => member (memberCellOp_unknown hk hm htc hs)
    case discards =>
      exact fun o r hs => ⟨fun ho hle => member (memberCellOp_ended hk hm htc hs hle ho),
        fun hle => member (memberCellOp_otherLayout hk hm htc hs hle),
        fun ho hle hg => member (memberCellOp_aboveGrant hk hm htc hs hle ho hg)⟩
    case plain =>
      intro o r ⟨hs, hr, hle⟩ ho hg hq hb hgrids
      have hr := (op?_of_ctx hk o).trans hr
      have hcell : memberCellOp x q c' w = settle x (plainCell x o q ch c' w) := by
        rw [memberCellOp_granted hk hm htc hs hle ho hg hr hq, hb]
        rfl
      exact ⟨fun hd => member (hcell.trans (congrArg _ (plainCell_duplicate hk hr hgrids hd))),
        fun u hd hn hu hw => member (hcell.trans (congrArg _ (plainCell_staged hk hr hgrids hd hn hu hw)))⟩
    case broken =>
      intro o r t ⟨hs, hr, hle⟩ ho hg hq hb ht
      have hr := (op?_of_ctx hk o).trans hr
      refine prune ((if_pos ((pruneOf_names hk hs).trans hb)).trans ?_)
      rw [memberCellOp_granted hk hm htc hs hle ho hg hr hq, hb, if_pos rfl, pruneCell_broken hk hr ht]
  case counted => exact fun w x q n i g ha => grantViolation_cnt n i g ha
  case converts =>
    intro s x o q g k r hk hr
    have converts {t : Sw} : convertOp x o q g s.sw = t → becomes (.stagedContributionConvert x o q g) s t :=
      becomes_of_lift (convertOp x o q g) rfl
    refine ⟨fun hw hm => converts (convertOp_ready hk hr hw hm),
      fun hw hm => stays_of_lift (convertOp x o q g) rfl (convertOp_waits hk hr hw hm), fun b hb hw => ⟨fun h => ?_, fun h => ?_⟩⟩
    · exact converts ((convertOp_held hk hr hw).trans (if_pos (hb ▸ h)))
    · exact stays_of_lift (convertOp x o q g) rfl ((convertOp_held hk hr hw).trans (if_neg (by simp [← hb, h])))
  case noOp => exact fun s x o q g hr => stays_of_lift (convertOp x o q g) rfl (convertOp_unknown hr)
  case enters =>
    intro s x o q g part k r hk hr ho _
    refine ⟨fun ht hs => ?_, contribute_taken part hk hr ho⟩
    obtain ⟨k', hk', hslots⟩ := ctx?_of_slotsOf (contribute_slotsOf part hk hr ho ht hs)
    exact ⟨k', k.slotWith x o r q g part, hk', by rw [Ctx.slot?, hslots, SMap.find?_set_same], k.slotWith_bitmap x o r q g part,
      Ctx.slotWith_complete⟩
end Sys2Proof.Machine
end

section
/-! PROOFS. Records of switches, zero runs, mirror records and notices (O9). -/
namespace Sys2Proof.Machine

/-! ### A collective cell from a switch (02 R64, R65; 04 R140; 06 R195) -/

section Record
variable {w : Sw} {x q o : Nat} {c : Cell} {k : Ctx} {r : Op}

theorem recordOp_idle (hk : w.ctx? x = some k) (hi : k.memberOf q ≠ none ∨ (c.tc ≠ 3 ∧ c.tc ≠ 4)) : recordOp x q c w = w := by
  have hidle : ((k.memberOf q).isSome || !(c.tc == 3 || c.tc == 4)) = true := by
    simpa [Option.isSome_iff_ne_none] using hi
  simp only [recordOp, hk, hidle, if_true]

variable (hk : w.ctx? x = some k) (hm : k.memberOf q = none) (htc : c.tc = 3)
include hk hm htc

theorem recordOp_unknown (hs : k.opOfSeq c.copseq = none) : recordOp x q c w = grantViolation x q (k.opnumOf c.copseq) c.idx 0 w := by
  simp [recordOp, hk, hm, htc, hs]

variable (hs : k.opOfSeq c.copseq = some (o, r))
include hs

theorem recordOp_otherLayout (hle : c.le ≠ k.leOf o) : recordOp x q c w = layoutDiscard x q false c w := by
  simp [recordOp, hk, hm, htc, hs, hle]
theorem recordOp_ended (hle : c.le = k.leOf o) (ho : r.isOpen = false ∨ cellsOf r.blk ≤ c.idx) : recordOp x q c w = w := by
  simp [recordOp, hk, hm, htc, hs, hle, ho]

variable (hle : c.le = k.leOf o) (ho : r.isOpen = true) (hi : c.idx < cellsOf r.blk) (hst : k.storeReduction r.blk = false)
include hle ho hi hst

theorem recordOp_aboveGrant (hg : r.grants.getD q 0 ≤ c.idx) :
    recordOp x q c w = grantViolation x q o c.idx (r.grants.getD q 0) w := by
  simp [recordOp, hk, hm, htc, hs, hle, ho, Nat.not_le.mpr hi, hst, hg]
theorem recordOp_unexpected (hg : c.idx < r.grants.getD q 0) (he : (expected k r.blk c.idx).contains q = false) :
    recordOp x q c w = w := by
  have he' : q ∉ expected k r.blk c.idx := by simpa using he
  simp [recordOp, hk, hm, htc, hs, hle, ho, Nat.not_le.mpr hi, hst, Nat.not_le.mpr hg, he']
/-- Within the grant of a quiet operation a record that need not wait goes on. -/
theorem recordOp_granted (hg : c.idx < r.grants.getD q 0) (he : (expected k r.blk c.idx).contains q = true) (hr : w.op? x o = some r)
    (hq : r.quiet) (hw : recordWaits w k o r q c = false) : recordOp x q c w = settle x (switchCell x q o true c w) := by
  have hup : upRecord x q o c w = switchCell x q o true c w := by simp [upRecord, hk, hr, hw]
  have he' : q ∈ expected k r.blk c.idx := by simpa using he
  simp [recordOp, hk, hm, htc, hs, hle, ho, Nat.not_le.mpr hi, hst, Nat.not_le.mpr hg, he', earlyCheck_quiet hr hq,
    clearStall_quiet hr hq, hup]
end Record

/-! ### Records in parts (02 R64, R65) -/

theorem Sw.modPort_portActive (n m : Nat) (f : Port → Port) (s : Sw) : (s.modPort n f).portActive m = s.portActive m := by
  simp [Sw.portActive, Sw.quadActive]
theorem Sw.modPort_twice (n : Nat) (f g : Port → Port) (s : Sw) : (s.modPort n f).modPort n g = s.modPort n (fun p => g (f p)) := by
  cases ha : s.portActive n
  · simp only [Sw.modPort_inactive s _ ha]
  · have hp := port_modPort_same ha f
    have ha' := (Sw.modPort_portActive n n f s).trans ha
    rw [Sw.modPort, if_pos ha', hp]
    simp only [Sw.modPort, ha, if_true, SMap.set_set]
theorem Sw.modPort_congr {n : Nat} {f g : Port → Port} {s : Sw} (h : f (s.port n) = g (s.port n)) : s.modPort n f = s.modPort n g := by
  rw [Sw.modPort, Sw.modPort, h]
theorem Sw.modQ_twice (n : Nat) (f g : PortQ → PortQ) (s : Sw) : (s.modQ n f).modQ n g = s.modQ n (fun b => g (f b)) :=
  Sw.modPort_twice ..
theorem Sw.modQ_congr {n : Nat} {f g : PortQ → PortQ} {s : Sw} (h : f (s.port n).q = g (s.port n).q) : s.modQ n f = s.modQ n g :=
  Sw.modPort_congr (congrArg (fun b => { s.port n with q := b }) h)

section Parts
variable {w : Sw} {x q o : Nat} {c : Cell} {up : Bool} (hn : (w.port (w.physPort x q)).q.asm = [])
  (hi : byteAt (bytes64 c.pay) 0 % 16 = 0)
include hn hi

/-- The first of several parts begins the record on a port that assembles none. -/
theorem takePart_begins {n : Nat} (hc : byteAt (bytes64 c.pay) 0 / 16 = n + 1) : takePart x q o up c w =
    (none, w.modQ (w.physPort x q) (fun b => { b with asm := [⟨x, c.copseq, c.idx, n + 2, 1, (bytes64 c.pay).drop 1, up⟩] })) := by
  simp only [takePart, hn, hi, hc, List.find?_nil, beq_self_eq_true, Bool.not_true, Bool.false_and, Bool.false_eq_true, if_false,
    if_true, List.nil_append, dropAsm, Sw.modQ_twice]
  rw [if_neg (by omega)]
  exact congrArg (Prod.mk none) (Sw.modQ_congr (by simp [hn]))
/-- A record in one part is whole at once. -/
theorem takePart_whole (hc : byteAt (bytes64 c.pay) 0 / 16 = 0) :
    takePart x q o up c w = (some ((bytes64 c.pay).drop 1), dropAsm (w.physPort x q) x w) := by
  simp [takePart, hn, hi, hc]
end Parts

theorem dropAsm_asm {w : Sw} {n : Nat} (x : Nat) (ha : w.portActive n = true) (hn : (w.port n).q.asm = []) :
    ((dropAsm n x w).port n).q.asm = [] := by
  rw [dropAsm, Sw.modQ, port_modPort_same ha, hn]
  rfl

section Switch
variable {w u : Sw} {x q o : Nat} {c : Cell} {k : Ctx} {r : Op} {b : List Byte} (hk : w.ctx? x = some k) (hr : w.op? x o = some r)
  (hb : blkPrune r.blk = false)
include hk hr hb

theorem switchCell_begins (hp : takePart x q o true c w = (none, u)) : switchCell x q o true c w = u := by
  simp [switchCell, hk, hr, isZeroRun, hb, hp]
theorem switchCell_malformed {t : Nat} (hp : takePart x q o true c w = (some b, u)) (hd : decodeRecord k r true b = .error t) :
    switchCell x q o true c w = malformed x q o c.idx 1 t true u := by
  simp [switchCell, hk, hr, isZeroRun, hb, hp, hd]
theorem switchCell_contributes {part : Part} (hp : takePart x q o true c w = (some b, u)) (hd : decodeRecord k r true b = .ok part)
    (ha : attemptStands k o (segOf k r.blk c.idx) part.attempt true = true) :
    switchCell x q o true c w = takeContribution x o q c.idx [c.idx] part (recordParts b) u := by
  simp [switchCell, hk, hr, isZeroRun, hb, hp, hd, ha]
end Switch

/-! ### Notices (02 R58, R61) -/

section Notice
variable {w : Sw} {x q o : Nat} {c : Cell} {k : Ctx} {r : Op} (hk : w.ctx? x = some k)
include hk

theorem noticeOp_other {replay : Bool} (h : ¬ isCtrl c (if replay then ctReplay else ctAnchor)) : noticeOp replay x q c w = w := by
  simp only [isCtrl, Decidable.not_and_iff_not_or_not] at h
  simp [noticeOp, hk, h]
theorem noticeOp_unknown (replay : Bool) (hs : k.opOfSeq c.opseq = none) : noticeOp replay x q c w = w := by
  simp [noticeOp, hk, hs]

variable (hs : k.opOfSeq c.opseq = some (o, r)) (hc : coversSeg k r.blk (c.f 0 4) = true)
  (hu : upPort k r.blk (segCells k r.blk (c.f 0 4)).1 = some q)
include hs hc hu

theorem noticeOp_replay (ht : isCtrl c ctReplay) : noticeOp true x q c w =
    if r.isOpen then settle x (takeReplay x o (c.f 0 4) (c.f 4 1) (toS16 (c.f 6 2)) w) else w := by
  obtain ⟨htc, hct⟩ := ht
  simp [noticeOp, hk, hs, hc, hu, htc, hct]
theorem noticeOp_anchor {last : Nat} {told : List Nat} (ht : isCtrl c ctAnchor) (hl : last = (segCells k r.blk (c.f 0 4)).2 - 1)
    (hd : told = if k.storeReduction r.blk then [] else targets k r.blk last) : noticeOp false x q c w =
      settle x (takeAnchor x o (c.f 0 4) (c.f 4 1) (toS16 (c.f 6 2))
        (sendNotice ctAnchor x o ((downSwitches k r.blk last).filter fun n => !told.contains n)
          (noticeBody (c.f 0 4) (c.f 4 1) (toS16 (c.f 6 2))) w)) := by
  obtain ⟨htc, hct⟩ := ht
  subst hd hl
  simp [noticeOp, hk, hs, hc, hu, htc, hct]
end Notice

/-! ### The anchor table (09 R308) -/

/-- An entry written by operation o again keeps PREV; of another, CUR becomes PREV. -/
theorem anchor_writeAnchor_same (k : Ctx) (g o attempt : Nat) (a : Int) : (k.writeAnchor g o a attempt).anchor g =
    if (k.anchor g).setBy o then { k.anchor g with cur := a, attempt := attempt }
    else { k.anchor g with prev := (k.anchor g).cur, prevOp := if (k.anchor g).isSet then (k.anchor g).setOp else 4294967295,
                           cur := a, setOp := o, attempt := attempt, isSet := true, copied := false } :=
  SMap.getD_set_same ..
theorem anchor_writeAnchor_others (k : Ctx) {g j : Nat} (h : j ≠ g) (o attempt : Nat) (a : Int) :
    (k.writeAnchor g o a attempt).anchor j = k.anchor j := SMap.getD_set_ne h ..
theorem Anchor.setBy_iff (e : Anchor) (o : Nat) : e.setBy o = true ↔ e.isSet = true ∧ e.copied = false ∧ e.setOp = o := by
  simp [Anchor.setBy, and_assoc]

/-- Settles O9: a record and a notice by the checks they pass at their context, and what a write of an anchor leaves in the entry. -/
theorem recordRule : Obligations.RecordRule := by
  unfold Obligations.RecordRule
  refine ⟨?arrives, ?anchor⟩
  case arrives =>
    intro s p x q c c' w k h
    have hk := arrival_ctx h
    have record {t : Sw} : recordOp x q c' w = t → becomes (.recordReceive p c) s t := becomes_of_arrival _ rfl h
    have zero : exec (.zeroRunReceive p c) s = lift (toContext p c (fun x q c s =>
      if pruneOf x c s && byteAt (bytes64 c.pay) 0 == 0xF0 then recordOp x q c s else s)) s := rfl
    have replay {t : Sw} : noticeOp true x q c' w = t → becomes (.replayNoticeReceive p c) s t := becomes_of_arrival _ rfl h
    have anchor {t : Sw} : noticeOp false x q c' w = t → becomes (.anchorNoticeReceive p c) s t := becomes_of_arrival _ rfl h
    refine ⟨fun hi => record (recordOp_idle hk hi),
      fun hm htc => ⟨fun hs => record (recordOp_unknown hk hm htc hs),
        fun o r hs hle => record (recordOp_otherLayout hk hm htc hs hle), ?named⟩, rfl, ?zeroRun, ?noZeroRun, ?notices,
      fun hs => ⟨replay (noticeOp_unknown hk true hs), anchor (noticeOp_unknown hk false hs)⟩⟩
    case named =>
      intro o r ⟨hs, hr, hle⟩
      have hr := (op?_of_ctx hk o).trans hr
      refine ⟨fun ho => record (recordOp_ended hk hm htc hs hle ho), fun ho hi hst =>
        ⟨fun hg => record (recordOp_aboveGrant hk hm htc hs hle ho hi hst hg),
          fun hg he => record (recordOp_unexpected hk hm htc hs hle ho hi hst hg he), fun hg he hq hb hw hn h0 => ?granted⟩⟩
      have cell {t : Sw} (ht : switchCell x q o true c' w = t) : becomes (.recordReceive p c) s (settle x t) :=
        record ((recordOp_granted hk hm htc hs hle ho hi hst hg he hr hq hw).trans (congrArg _ ht))
      refine ⟨fun n hc => cell (switchCell_begins hk hr hb (takePart_begins hn h0 hc)), fun hc ha => ?_⟩
      have hp := takePart_whole (o := o) (up := true) hn h0 hc
      exact ⟨dropAsm (w.physPort x q) x w, modQ_keeps (by decide) (.refl _ _), dropAsm_asm x ha hn,
        fun t hd => cell (switchCell_malformed hk hr hb hp hd), fun part hd hat => cell (switchCell_contributes hk hr hb hp hd hat)⟩
    case zeroRun => exact fun hp h0 => exec_eq_of_arrival _ recordOp zero rfl h (if_pos (by simp [hp, h0]))
    case noZeroRun =>
      refine fun hp => becomes_of_arrival _ zero h (if_neg ?_)
      rw [Bool.and_eq_true, beq_iff_eq, Decidable.not_and_iff_not_or_not, Bool.not_eq_true]
      exact hp
    case notices =>
      intro o r hs hc hu
      exact ⟨fun ht ho => replay ((noticeOp_replay hk hs hc hu ht).trans (if_pos ho)),
        fun ht ho => replay ((noticeOp_replay hk hs hc hu ht).trans (if_neg (by simp [ho]))),
        fun last told ht hl hd => anchor (noticeOp_anchor hk hs hc hu ht hl hd),
        fun ht => replay (noticeOp_other hk ht), fun ht => anchor (noticeOp_other hk ht)⟩
  case anchor =>
    intro k g o attempt a
    rw [anchor_writeAnchor_same]
    cases hb : (k.anchor g).setBy o with
    | true =>
      obtain ⟨hset, -, hop⟩ := (Anchor.setBy_iff _ o).mp hb
      exact ⟨rfl, rfl, hop, hset, nofun, fun _ => rfl, fun j hj => anchor_writeAnchor_others k hj o attempt a⟩
    | false => exact ⟨rfl, rfl, rfl, rfl, fun _ => rfl, nofun, fun j hj => anchor_writeAnchor_others k hj o attempt a⟩
end Sys2Proof.Machine
end

section
/-! PROOFS. JOINs and arrivals at a barrier (O10). -/
namespace Sys2Proof.Machine

/-! ### What changes beside its operations leave of a context -/

/-- The settings, the canopy and the operations of a context. -/
def Ctx.core (c : Ctx) : CtxCfg × Canopy × Bool × SMap Op × Nat := (c.cfg, c.canopy, c.closing, c.ops, c.nextOp)
/-- The same of context x, where it is held. -/
def Sw.coreOf (s : Sw) (x : Nat) : Option (CtxCfg × Canopy × Bool × SMap Op × Nat) := (s.ctx? x).map Ctx.core

theorem ctx?_of_keeps {ps : List Piece} {a b : Sw} (h : Sw.keeps ps a b) (hc : Piece.ctxs ∉ ps) (x : Nat) : b.ctx? x = a.ctx? x := by
  have hctxs : a.ctxs = b.ctxs := h .ctxs hc
  rw [Sw.ctx?, Sw.ctx?, hctxs]
theorem coreOf_of_keeps {ps : List Piece} {a b : Sw} (h : Sw.keeps ps a b) (hc : Piece.ctxs ∉ ps) (x : Nat) :
    b.coreOf x = a.coreOf x := congrArg (Option.map Ctx.core) (ctx?_of_keeps h hc x)
theorem coreOf_of_ctx {s : Sw} {x : Nat} {c : Ctx} (h : s.ctx? x = some c) : s.coreOf x = some c.core := congrArg (Option.map Ctx.core) h
@[simp] theorem setCtx_coreOf (x : Nat) (c : Ctx) (s : Sw) : (s.setCtx x c).coreOf x = some c.core := coreOf_of_ctx (Sw.setCtx_self ..)
theorem modCtx_of_ctx {s : Sw} {x : Nat} {c : Ctx} (h : s.ctx? x = some c) (f : Ctx → Ctx) : s.modCtx x f = s.setCtx x (f c) := by
  rw [Sw.modCtx, h]
theorem modCtx_coreOf {f : Ctx → Ctx} (hf : ∀ c, (f c).core = c.core) (x : Nat) (s : Sw) : (s.modCtx x f).coreOf x = s.coreOf x := by
  unfold Sw.modCtx
  split
  · next c hc => rw [setCtx_coreOf, coreOf_of_ctx hc, hf]
  · rfl
theorem op?_of_coreOf {s : Sw} {x o : Nat} {k : CtxCfg × Canopy × Bool × SMap Op × Nat} (h : s.coreOf x = some k) :
    s.op? x o = SMap.find? o k.2.2.2.1 := by
  obtain ⟨c, hc, rfl⟩ := Option.map_eq_some_iff.mp h
  exact op?_of_ctx hc o

theorem each_coreOf {α : Type} {f : α → Sw → Sw} {x : Nat} (hf : ∀ a s, (f a s).coreOf x = s.coreOf x) (l : List α) (s : Sw) :
    (each l f s).coreOf x = s.coreOf x := by
  induction l generalizing s with
  | nil => rfl
  | cons a l ih => exact (ih (f a s)).trans (hf a s)

/-! ### An operation opens (04 R137, R156; 11 R368 to R371) -/

@[simp] theorem poolTakeOrWait_coreOf (x o c at_ n job : Nat) (owner : Owner) (s : Sw) (y : Nat) :
    (poolTakeOrWait x o c at_ n job owner s).coreOf y = s.coreOf y :=
  coreOf_of_keeps (poolTakeOrWait_keeps (ps := parts7) (by decide) (.refl _ s)) (by decide) y
@[simp] theorem lateLaunch_coreOf (x o : Nat) (l : Quad) (s : Sw) (y : Nat) : (lateLaunch x o l s).coreOf y = s.coreOf y :=
  coreOf_of_keeps (lateLaunch_keeps (ps := parts15) (by decide) (.refl _ s)) (by decide) y
theorem drawBuffers_coreOf (x o : Nat) (s : Sw) : (drawBuffers x o s).coreOf x = s.coreOf x := by
  unfold drawBuffers
  split
  · dsimp only
    split
    · simp [apply_ite (fun w : Sw => w.coreOf x), each_coreOf]
    · rw [modCtx_coreOf, each_coreOf]
      · simp [apply_ite (fun w : Sw => w.coreOf x), each_coreOf]
      · simp
      · exact fun _ => rfl
  · rfl
theorem graftAdmit_coreOf (x o : Nat) (s : Sw) : (graftAdmit x o s).coreOf x = s.coreOf x := by
  unfold graftAdmit
  split
  · rfl
  · split
    · rw [coreOf_of_keeps (graftStepEvent_keeps (ps := evParts) (by decide) (.refl _ _)) (by decide), modCtx_coreOf]
      exact fun _ => rfl
    · rfl
/-- The launch instant with which an operation of block b opens: that of LAUNCH 1, taken to a tick, or to the next one when it is
late (05 R187). -/
def Sw.openLaunch (s : Sw) (b : BitVec 256) : Option Quad :=
  let count := blkLaunch b == 1
  let at_ := s.tickAt (blkGtc b)
  let late := count && gtcReached s.gtc (BitVec.ofNat 64 at_)
  if count then some (BitVec.ofNat 64 (if late then s.tickAfter s.gtc.toNat else at_)) else none
/-- The record with which operation o of block b opens. -/
def Ctx.opened (c : Ctx) (o : Nat) (b : BitVec 256) (byJoin : Bool) (s : Sw) : Op :=
  { blk := b, opened := byJoin, firstJoin := s.now, launchAt := s.openLaunch b, sparse := c.sparse && blkPrune b,
    gather := SMap.find? o c.gathers, unmirrored := (c.canopy.shards.filterMap (fun e => e.mirror)).filter (fun q => !s.up q) }
/-- Opening adds the record of the operation to those held. -/
theorem openOp_coreOf {s : Sw} {x : Nat} {c : Ctx} (hc : s.ctx? x = some c) (o : Nat) (b : BitVec 256) (byJoin : Bool) :
    (openOp x o b byJoin s).coreOf x = some (c.cfg, c.canopy, c.closing, c.ops.set o (c.opened o b byJoin s),
      nextUnopened (c.ops.set o (c.opened o b byJoin s)) 64 c.nextOp) := by
  unfold openOp
  simp only [hc, graftAdmit_coreOf, apply_ite (fun w : Sw => w.coreOf x), lateLaunch_coreOf, ite_self, drawBuffers_coreOf, setCtx_coreOf]
  exact congrArg some ((apply_ite Ctx.core _ _ _).trans (ite_self _))
theorem openOp_op? {s : Sw} {x : Nat} {c : Ctx} (hc : s.ctx? x = some c) (o : Nat) (b : BitVec 256) (byJoin : Bool) :
    (openOp x o b byJoin s).op? x o = some (c.opened o b byJoin s) := by
  rw [op?_of_coreOf (openOp_coreOf hc o b byJoin), SMap.find?_set_same]

/-! ### A JOIN reaches its context (04 R122, R130, R131, R133, R137, R158) -/

theorem joinCell_other {ct x q : Nat} {c : Cell} {w : Sw} (h : ¬ isCtrl c ct) : joinCell ct x q c w = w :=
  if_neg (by simpa [isCtrl] using h)
theorem joinCell_reaches {ct x q : Nat} {c : Cell} {w : Sw} (h : isCtrl c ct) : joinCell ct x q c w = settle x (joinArrive x q c w) :=
  if_pos (by simpa [isCtrl] using h)

/-- What becomes of a JOIN from child h that nothing holds back: the window and the record of its operation decide. -/
def joinInWindow (x q : Nat) (h : Child) (c : Cell) (k : Ctx) (w : Sw) : Sw :=
  let o := blkOpnum (joinOf c).blk
  if k.windowBase + 32 ≤ o then joinReject x q o 1 (tellEnd x o q h.member stNoRes (c.ctype == ctArrive) w)
  else match SMap.find? o k.ops with
    | some p => if p.st == .opening || p.st == .joined || (p.isOpen && !p.valid.getLsbD q) then judgeJoin x o q h false c w else w
    | none => if o < k.windowBase then joinReject x q o 1 w else judgeJoin x o q h false c w

theorem changes_false {x : Nat} {b : Bool} (h : x ≠ 0 ∨ b = false) : (x == 0 && b) = false := by
  rcases h with h | h <;> simp [h]

section Arrive
variable {w : Sw} {x q : Nat} {c : Cell} {k : Ctx} {h : Child} (hk : w.ctx? x = some k)
include hk

theorem joinArrive_outside (hc : k.canopy.child q = none) (hp : k.canopy.primaryOf q = none) : joinArrive x q c w =
    if k.awaitsCanopy q (blkOpnum (joinOf c).blk) (joinOf c).mepoch then
      w.modCtx x (fun k => { k with heldJoins := k.heldJoins ++ [(q, c)] })
    else joinReject x q (blkOpnum (joinOf c).blk) 4 w := by
  simp only [joinArrive, hk, hc, hp, Option.map_none]

variable (hc : k.canopy.child q = some h)
include hc

theorem joinArrive_changing (hx : x = 0) (hp : k.changePending = true) : joinArrive x q c w = w := by
  subst hx
  simp [joinArrive, hk, hc, hp]

variable (hp : x ≠ 0 ∨ k.changePending = false)
include hp

theorem joinArrive_closing (hcl : k.closing = true) : joinArrive x q c w =
    tellEnd x (blkOpnum (joinOf c).blk) q h.member stAborted (c.ctype == ctArrive) w := by
  have hp' := changes_false hp
  simp [joinArrive, hk, hc, hp', hcl]

variable (hcl : k.closing = false)
include hcl

theorem joinArrive_held (hh : k.graftHolds = true ∨ (∃ r, k.recanopy = some r ∧ r.eff ≤ blkOpnum (joinOf c).blk) ∨
    k.canopy.mepoch < (joinOf c).mepoch) :
    joinArrive x q c w = w.modCtx x (fun k => { k with heldJoins := k.heldJoins ++ [(q, c)] }) := by
  have hp' := changes_false hp
  simp only [joinArrive, hk, hc, hp', hcl, Bool.false_eq_true, if_false]
  rcases hh with hg | ⟨r, hr, he⟩ | hm
  · simp [hg]
  · simp [hr, he]
  · simp [hm]
/-- A JOIN of an operation of the canopy and the layout epoch in force, which no graft holds. -/
theorem joinArrive_inWindow (hg : k.graftHolds = false) (hr : ∀ r, k.recanopy = some r → blkOpnum (joinOf c).blk < r.eff)
    (hm : (joinOf c).mepoch ≤ k.canopy.mepoch) (hs : ∀ r, k.reshard = some r → blkOpnum (joinOf c).blk < r.eff) :
    joinArrive x q c w = joinInWindow x q h c k w := by
  have hp' := changes_false hp
  have hm' : ¬ k.canopy.mepoch < (joinOf c).mepoch := by omega
  have hr' : (match k.recanopy with | some r => decide (r.eff ≤ blkOpnum (joinOf c).blk) | none => false) = false := by
    split
    · next r h => simpa using hr r h
    · rfl
  have hs' : (match k.reshard with | some r => decide (r.eff ≤ blkOpnum (joinOf c).blk) | none => false) = false := by
    split
    · next r h => simpa using hs r h
    · rfl
  simp only [joinArrive, hk, hc, hp', hcl, hg, hm', Bool.false_eq_true, if_false]
  exact (if_neg (ne_true_of_eq_false hr')).trans ((if_neg (ne_true_of_eq_false hs')).trans rfl)
end Arrive

section Window
variable {w : Sw} {x q o : Nat} {c : Cell} {k : Ctx} {h : Child} (ho : o = blkOpnum (joinOf c).blk)
include ho

theorem joinInWindow_beyond (hw : k.windowBase + 32 ≤ o) :
    joinInWindow x q h c k w = joinReject x q o 1 (tellEnd x o q h.member stNoRes (c.ctype == ctArrive) w) := by
  subst ho
  exact if_pos hw
theorem joinInWindow_gone (hw : o < k.windowBase) (hf : SMap.find? o k.ops = none) : joinInWindow x q h c k w = joinReject x q o 1 w := by
  subst ho
  simp [joinInWindow, hf, hw, Nat.not_le.mpr (Nat.lt_add_right 32 hw)]
theorem joinInWindow_fresh (hl : k.windowBase ≤ o) (hw : o < k.windowBase + 32) (hf : SMap.find? o k.ops = none) :
    joinInWindow x q h c k w = judgeJoin x o q h false c w := by
  subst ho
  simp [joinInWindow, hf, Nat.not_lt.mpr hl, Nat.not_le.mpr hw]

variable {r : Op} (hw : o < k.windowBase + 32) (hf : SMap.find? o k.ops = some r)
include hw hf

theorem joinInWindow_over (hr : r.isOpen = false ∨ (r.st = .committed ∧ r.valid.getLsbD q = true)) : joinInWindow x q h c k w = w := by
  subst ho
  have hst : (r.st == .opening || r.st == .joined || (r.isOpen && !r.valid.getLsbD q)) = false := by
    rcases hr with hr | ⟨hr, hv⟩
    · cases hs : r.st <;> simp_all [Op.isOpen]
    · simp [hr, hv]
  simp [joinInWindow, hf, Nat.not_le.mpr hw, hst]
theorem joinInWindow_open (hr : r.st = .opening ∨ r.st = .joined ∨ (r.isOpen = true ∧ r.valid.getLsbD q = false)) :
    joinInWindow x q h c k w = judgeJoin x o q h false c w := by
  subst ho
  have hst : (r.st == .opening || r.st == .joined || (r.isOpen && !r.valid.getLsbD q)) = true := by
    simpa [or_assoc] using hr
  simp [joinInWindow, hf, Nat.not_le.mpr hw, hst]
end Window

/-! ### A JOIN is judged (04 R131, R135, R137) -/

section Judge
variable {w : Sw} {x q o : Nat} {c : Cell} {k : Ctx} {h : Child} (hk : w.ctx? x = some k)
include hk

theorem judgeJoin_stale {r : Op} (hf : SMap.find? o k.ops = some r) (hm : (joinOf c).mepoch < k.canopy.mepoch) :
    judgeJoin x o q h false c w = failHere x o stStale w := by
  have hne : stStale ≠ stMismatch := by decide
  have hn0 : stStale ≠ 0 := by decide
  simp [judgeJoin, hk, hf, SMap.mem, hm, hne, hn0]

variable (hm : (joinOf c).mepoch = k.canopy.mepoch)
include hm

theorem judgeJoin_mismatch {r : Op} (hf : SMap.find? o k.ops = some r)
    (hv : joinVerdict w x k r.blk q h (joinOf c) c.arg (c.ctype == ctArrive) = stMismatch) (hs : (joinOf c).sig ≠ blkSignature r.blk) :
    judgeJoin x o q h false c w =
      failHere x o stMismatch (raiseCtx x 0x0201 (le 4 o ++ le 8 (joinOf c).sig.toNat ++ cList [le 2 q]) w) := by
  have hn0 : stMismatch ≠ 0 := by decide
  simp [judgeJoin, hk, hf, SMap.mem, hm, hv, hs, hn0]
theorem judgeJoin_accept {r : Op} (hf : SMap.find? o k.ops = some r)
    (hv : joinVerdict w x k r.blk q h (joinOf c) c.arg (c.ctype == ctArrive) = 0) :
    judgeJoin x o q h false c w = acceptJoin x o q h (joinOf c) w := by
  have hn0 : 0 ≠ stMismatch := by decide
  simp [judgeJoin, hk, hf, SMap.mem, hm, hv, hn0]
/-- The first JOIN of an operation that no STORE_GATHER names opens it. -/
theorem judgeJoin_opens (hf : SMap.find? o k.ops = none)
    (hv : joinVerdict w x k (joinOf c).blk q h (joinOf c) c.arg (c.ctype == ctArrive) = 0) (hg : SMap.find? o k.gathers = none) :
    judgeJoin x o q h false c w =
      replayCounts x o (acceptJoin x o q h (joinOf c) (openOp x o (joinOf c).blk true w)) := by
  have hn0 : 0 ≠ stMismatch := by decide
  have hgather : (k.opened o (joinOf c).blk true w).gather = none := hg
  simp [judgeJoin, hk, hf, SMap.mem, hm, hv, hn0, openOp_op? hk, hgather]
end Judge

/-- The rows of the two commands are one, but for the type of cell. -/
theorem exec_joinRow {e : (Nat → Cell → Instr) × Nat} (he : e ∈ ([(.joinReceive, ctJoin), (.barrierArriveReceive, ctArrive)] : List _))
    (p : Nat) (c : Cell) (s : State) : exec (e.1 p c) s = lift (toContext p c (joinCell e.2)) s := by
  simp only [List.mem_cons, List.not_mem_nil, or_false] at he
  obtain rfl | rfl := he <;> rfl

/-- Settles O10: a JOIN by the checks of R137 in their order, and what opening holds of the operation. -/
theorem joinRule : Obligations.JoinRule := by
  unfold Obligations.JoinRule
  refine ⟨?arrives, fun s x o b k hk => ⟨_, openOp_op? hk o b true, rfl, rfl, rfl, rfl, rfl, rfl⟩⟩
  intro e he s p x q o c c' w k h ho
  have hk := arrival_ctx h
  have joins {t : Sw} (hc : isCtrl c' e.2) (ht : joinArrive x q c' w = t) : becomes (e.1 p c) s (settle x t) :=
    becomes_of_arrival _ (exec_joinRow he p c s) h ((joinCell_reaches hc).trans (congrArg _ ht))
  refine ⟨fun hc => becomes_of_arrival _ (exec_joinRow he p c s) h (joinCell_other hc), ?outside, ?child⟩
  case outside =>
    intro hc hch hp
    have hout := joinArrive_outside (c := c') hk hch hp
    rw [← ho] at hout
    exact ⟨fun ha => joins hc (hout.trans (if_neg (by simp [ha]))), fun ha => joins hc (hout.trans (if_pos ha))⟩
  case child =>
    intro ch hc hch
    rw [show e.2 = c'.ctype from hc.2.symm, ho]
    refine ⟨fun hx hp => joins hc (joinArrive_changing hk hch hx hp), fun hp => ⟨fun hcl => joins hc (joinArrive_closing hk hch hp hcl),
      fun hcl => ⟨fun hh => joins hc (joinArrive_held hk hch hp hcl hh), fun hg hr hm hs => ?window⟩⟩⟩
    have window {t : Sw} (ht : joinInWindow x q ch c' k w = t) : becomes (e.1 p c) s (settle x t) :=
      joins hc ((joinArrive_inWindow hk hch hp hcl hg hr hm hs).trans ht)
    refine ⟨fun hw => window (joinInWindow_beyond rfl hw), fun hw hf => window (joinInWindow_gone rfl hw hf),
      fun r hw hf => ⟨fun hr => window (joinInWindow_over rfl hw hf hr), fun hr => ?recorded⟩,
      fun hl hw hf hm hv hg => window ((joinInWindow_fresh rfl hl hw hf).trans (judgeJoin_opens hk hm hf hv hg))⟩
    have judged {t : Sw} (ht : judgeJoin x (blkOpnum (joinOf c').blk) q ch false c' w = t) : becomes (e.1 p c) s (settle x t) :=
      window ((joinInWindow_open rfl hw hf hr).trans ht)
    exact ⟨fun hm => judged (judgeJoin_stale hk hf hm), fun hm hv hsig => judged (judgeJoin_mismatch hk hm hf hv hsig),
      fun hm hv => judged (judgeJoin_accept hk hm hf hv)⟩
end Sys2Proof.Machine
end

section
/-! PROOFS. Aborts, lateness, stalls, losses and the Seedling context (O12). -/
namespace Sys2Proof.Machine

/-! ### Renumbering over a port that is entered twice (04 R158) -/

/-- A member port that is UP. -/
def memberUp : Port := { reg := { state := .up, detected := 3, partnerRole := 1 } }
/-- Context 0 stands, and the list of ports enters port 12 twice, each time as a member port that is UP. -/
def portTwice : Sw := { State.reset.sw with ports := [(12, memberUp), (12, memberUp)], ctxs := [(0, { cfg := seedCfg, canopy := {} })] }
/-- The renumbering takes port 12 for rank 0 and for rank 1. -/
theorem portTwice_seedPorts : portTwice.seedPorts = [12, 12] := by decide +kernel

/-- Refutes O12: its last clause binds each port that is renumbered to its place in the list, whatever the list of ports. One that
enters port 12 twice gives it the ranks 0 and 1, and a port has one binding. -/
theorem not_abortRule : ¬ Obligations.AbortRule := by
  unfold Obligations.AbortRule
  rintro ⟨-, -, -, -, -, -, -, -, -, hrebind⟩
  obtain ⟨u, k, -, -, -, -, -, -, -, hbound⟩ := hrebind portTwice _ _ rfl portTwice_seedPorts
  have h0 : u.binding 12 = some { job := 0, rank := 0, backup := false } := hbound 0 (by decide)
  have h1 : u.binding 12 = some { job := 0, rank := 1, backup := false } := hbound 1 (by decide)
  exact absurd (h0.symm.trans h1) (by decide)

end Sys2Proof.Machine
end

section
/-! PROOFS. JOIN_STATUS, BARRIER_RELEASE, COUNTS and exchange cells (O11). -/
namespace Sys2Proof.Machine

/-! ### JOIN_STATUS from a canopy neighbour (04 R138) -/

section Status
variable {w : Sw} {x q o : Nat} {c : Cell} {k : Ctx} (hk : w.ctx? x = some k)
include hk

theorem statusArrive_other (h : ¬ isCtrl c ctStatus ∨ k.leadsToSwitch q = false) : statusArrive x q c w = w := by
  have hidle : (c.tc != 5 || c.ctype != ctStatus || !k.leadsToSwitch q) = true := by
    simpa [isCtrl, Decidable.imp_iff_not_or] using h
  simp only [statusArrive, hk, hidle, if_true]

variable (hc : isCtrl c ctStatus) (hl : k.leadsToSwitch q = true) (ho : o = c.f 0 4)
include hc hl ho

theorem statusArrive_grant (hp : c.f 4 1 = phGrant) : statusArrive x q c w = settle x (w.modOp x o fun r =>
    { r with upGrants := r.upGrants.set q (max (c.f 8 4 % 2 ^ 25) (r.upGrants.getD q 0)) }) := by
  obtain ⟨htc, hct⟩ := hc
  subst ho
  simp [statusArrive, hk, htc, hct, hl, hp]
/-- COMPLETE from the parent goes on by how the operation stands here, from a child it is noted. -/
theorem statusArrive_complete (hp : c.f 4 1 = phComplete) : statusArrive x q c w =
    if k.canopy.parent = some q then settle x (completeArrive x o (c.f 5 1) (c.f 12 4) w)
    else settle x (w.modOp x o fun r =>
      { r with completeFrom := setBit r.completeFrom q, overflow := r.overflow || c.f 5 1 == stOverflow }) := by
  obtain ⟨htc, hct⟩ := hc
  subst ho
  simp [statusArrive, hk, htc, hct, hl, hp, phComplete, phGrant, phJoined]

variable {r : Op} (hp : c.f 4 1 = phJoined) (hf : SMap.find? o k.ops = some r)
include hp hf

theorem statusArrive_joined (hq : k.canopy.parent = some q) (hst : r.st = .opening) (hu : r.upJoin = true) :
    statusArrive x q c w = settle x (enterJoined x o (w.modOp x o fun r' =>
      { r' with upGrants := r'.upGrants.set q (max (c.f 8 4 % 2 ^ 25) (r'.upGrants.getD q 0)),
                launchAt := if 2 ≤ blkLaunch r.blk then some (BitVec.ofNat 64 (c.f 16 8)) else r.launchAt })) := by
  obtain ⟨htc, hct⟩ := hc
  subst ho
  simp [statusArrive, hk, htc, hct, hl, hp, phGrant, phJoined, hf, hq, hst, hu]
theorem statusArrive_joined_idle (h : k.canopy.parent ≠ some q ∨ r.st ≠ .opening ∨ r.upJoin = false) : statusArrive x q c w = w := by
  obtain ⟨htc, hct⟩ := hc
  subst ho
  have hidle : (!(k.canopy.parent == some q) || r.st != .opening || !r.upJoin) = true := by simpa [or_assoc] using h
  simp only [statusArrive, hk, htc, hct, hl, hp, phGrant, phJoined, hf, hidle]
  simp
end Status

/-! ### COMPLETE and BARRIER_RELEASE from the parent (04 R137, R147, R148, R156) -/

section Complete
variable {w : Sw} {x q o status chunks : Nat} {k : Ctx} (hk : w.ctx? x = some k)
include hk

theorem completeArrive_unopened (hf : SMap.find? o k.ops = none) (h1 : status ≠ stOk) (h2 : status ≠ stOverflow) :
    completeArrive x o status chunks w = endUnopened x o status w := by
  simp [completeArrive, hk, hf, h1, h2]

variable {r : Op} (hf : SMap.find? o k.ops = some r) (ho : r.isOpen = true)
include hf ho

theorem completeArrive_failed (h1 : status ≠ stOk) (h2 : status ≠ stOverflow) : completeArrive x o status chunks w =
    if r.st = .committed then finishOp x o status w else endFromRoot x o status chunks w := by
  simp [completeArrive, hk, hf, ho, h1, h2]
theorem completeArrive_empty (hc : cellsOf r.blk = 0) : completeArrive x o stOk chunks w = finishOp x o stOk w := by
  simp [completeArrive, hk, hf, ho, hc]
/-- An operation that carries results down ends once they have left: the root's word is kept. -/
theorem completeArrive_kept (h : status = stOk ∨ status = stOverflow) (hc : cellsOf r.blk ≠ 0) (hs : k.storeReduction r.blk = false)
    (hg : k.storeGather r.blk = false) (he : blkExchange r.blk = false) (hr : hasResults k r.blk = true) :
    completeArrive x o status chunks w = w.modOp x o fun r => { r with overflow := r.overflow || status == stOverflow, rootEnd := true } := by
  simp [completeArrive, hk, hf, ho, h, hc, hs, hg, he, hr]
end Complete

section Release
variable {w : Sw} {x q o : Nat} {c : Cell} {k : Ctx} (hk : w.ctx? x = some k)
include hk

theorem releaseArrive_other (h : ¬ isCtrl c ctRelease ∨ k.canopy.parent ≠ some q) : releaseArrive x q c w = w := by
  have hidle : (c.tc != 5 || c.ctype != ctRelease || k.canopy.parent != some q) = true := by
    simpa [isCtrl, Decidable.imp_iff_not_or] using h
  simp only [releaseArrive, hk, hidle, Bool.true_or, if_true]
theorem releaseArrive_open {r : Op} (hc : isCtrl c ctRelease) (hq : k.canopy.parent = some q) (hp : c.f 4 1 = phComplete)
    (ho : o = c.f 0 4) (hf : SMap.find? o k.ops = some r) (hr : r.isOpen = true) : releaseArrive x q c w =
      settle x (if c.f 5 1 = stOk then finishOp x o stOk (w.modOp x o fun r => { r with launchAt := some (BitVec.ofNat 64 (c.f 16 8)) })
        else endFromRoot x o (c.f 5 1) 0 (w.modOp x o fun r => { r with launchAt := some (BitVec.ofNat 64 (c.f 16 8)) })) := by
  obtain ⟨htc, hct⟩ := hc
  subst ho
  simp [releaseArrive, hk, htc, hct, hq, hp, hf, hr]
end Release

/-! ### COUNTS under DIR 0 (04 R145, R146) -/

section Counts
variable {w : Sw} {x q : Nat} {c : Cell} {k : Ctx} (hk : w.ctx? x = some k)
include hk

theorem countsCellArrive_other (h : ¬ isCtrl c ctCounts ∨ c.arg / 4096 % 2 ≠ 0 ∨ k.closing = true) : countsCellArrive x q c w = w := by
  have hidle : (c.tc != 5 || c.ctype != ctCounts || c.arg / 4096 % 2 != 0 || k.closing) = true := by
    simpa [isCtrl, Decidable.imp_iff_not_or, or_assoc] using h
  simp only [countsCellArrive, hk, hidle, if_true]

variable (hc : isCtrl c ctCounts) (hd : c.arg / 4096 % 2 = 0) (hcl : k.closing = false)
include hc hd hcl

theorem countsCellArrive_unopened (hs : k.opOfSeq c.opseq = none) : countsCellArrive x q c w =
    settle x (forwardCounts x (k.opnumOf c.opseq) c.member (c.arg % 4096) (countsOf c) (k.canopy.parent == some q)
      (if countsTurn k (c.arg % 4096) (k.canopy.parent == some q) = true then w.setCtx x { k with heldCells := k.heldCells ++ [(q, c)] }
        else w)) := by
  obtain ⟨htc, hct⟩ := hc
  simp [countsCellArrive, countsArrive, hk, htc, hct, hd, hcl, hs]
theorem countsCellArrive_open {n : Nat} {r : Op} (hs : k.opOfSeq c.opseq = some (n, r)) (hr : r.isOpen = true)
    (hkd : blkKind r.blk ≠ kPermute) : countsCellArrive x q c w =
      settle x (joinGo x n (routeCounts x n c.member (c.arg % 4096) (countsOf c) (k.canopy.parent == some q) w)) := by
  obtain ⟨htc, hct⟩ := hc
  simp [countsCellArrive, countsArrive, hk, htc, hct, hd, hcl, hs, hr, hkd]
end Counts

/-! ### An exchange cell at its destination leaf (04 R147) -/

/-- What a change makes of the record held is all that counts. -/
theorem modOp_congr {s : Sw} {x o : Nat} {r : Op} {f g : Op → Op} (hr : s.op? x o = some r) (h : f r = g r) :
    s.modOp x o f = s.modOp x o g := by
  obtain ⟨c, hc, hf⟩ := Option.bind_eq_some_iff.mp hr
  simp only [Sw.modOp, modCtx_of_ctx hc, hf, h]

section Exchange
variable {s : Sw} {i p o x op : Nat} {c : Cell} {r : Op} (hr : s.op? x op = some r)
include hr

theorem exchangeHere_unexpected (h : r.st = .opening ∨ memberCells (r.exch.counts.getD (c.src * 65536 + c.dst) 0) (s.ecOf r o) ≤
    r.exch.cells.getD (c.src * 65536 + c.dst) 0) : exchangeHere i p o x op c s = unexpected x op p c s := by
  simp [exchangeHere, hr, h]
theorem exchangeHere_counted (hst : r.st ≠ .opening) (h : r.exch.cells.getD (c.src * 65536 + c.dst) 0 <
    memberCells (r.exch.counts.getD (c.src * 65536 + c.dst) 0) (s.ecOf r o)) :
    exchangeHere i p o x op c s = placeExchange i o (firstVc 2) x op c (s.modOp x op fun r =>
      { r with exch := { r.exch with
          cells := r.exch.cells.set (c.src * 65536 + c.dst) (r.exch.cells.getD (c.src * 65536 + c.dst) 0 + 1) } }) := by
  have hst' : (r.st == .opening) = false := by simpa using hst
  simp only [exchangeHere, hr, hst', Nat.not_le.mpr h, Bool.false_or, decide_false, Bool.false_eq_true, if_false]
  exact congrArg _ (modOp_congr hr rfl)
end Exchange

/-- Settles O11: each of the four commands by the checks it passes at its context, and an exchange cell by the count of its block. -/
theorem statusRule : Obligations.StatusRule := by
  unfold Obligations.StatusRule
  refine ⟨?arrives, fun _ _ _ => rfl, fun s i p o x op c r hr => ⟨exchangeHere_unexpected hr, exchangeHere_counted hr⟩⟩
  intro s p x q o c c' w k h ho
  have hk := arrival_ctx h
  have status {t : Sw} : statusArrive x q c' w = t → becomes (.joinStatusReceive p c) s t := becomes_of_arrival _ rfl h
  have release {t : Sw} : releaseArrive x q c' w = t → becomes (.barrierReleaseReceive p c) s t := becomes_of_arrival _ rfl h
  have counts {t : Sw} : countsCellArrive x q c' w = t → becomes (.countsReceive p c) s t := becomes_of_arrival _ rfl h
  refine ⟨fun hn => status (statusArrive_other hk hn), fun hc hl => ⟨fun hp => status (statusArrive_grant hk hc hl ho hp),
      fun r hp hf hq hst hu => status (statusArrive_joined hk hc hl ho hp hf hq hst hu),
      fun r hp hf hn => status (statusArrive_joined_idle hk hc hl ho hp hf hn),
      fun hp hq => status ((statusArrive_complete hk hc hl ho hp).trans (if_neg hq)), ?complete⟩,
    fun hn => release (releaseArrive_other hk hn), ?release, fun hn => counts (countsCellArrive_other hk hn),
    fun hc hd hcl => ⟨fun hs => counts (countsCellArrive_unopened hk hc hd hcl hs),
      fun n r hs hr hkd => counts (countsCellArrive_open hk hc hd hcl hs hr hkd)⟩⟩
  case complete =>
    intro st hp hq hst
    have completes {t : Sw} (ht : completeArrive x o st (c'.f 12 4) w = t) : becomes (.joinStatusReceive p c) s (settle x t) :=
      status ((statusArrive_complete hk hc hl ho hp).trans ((if_pos hq).trans (congrArg _ (hst ▸ ht))))
    refine ⟨fun hf h1 h2 => completes (completeArrive_unopened hk hf h1 h2), fun r hf hr h1 h2 => ?failed,
      fun r hf hr h0 hcells => ?empty, fun r hf hr h0 hcells hs hg he hres => completes (completeArrive_kept hk hf hr h0 hcells hs hg he hres)⟩
    case failed =>
      have hfail := completeArrive_failed (chunks := c'.f 12 4) hk hf hr h1 h2
      exact ⟨fun hcm => completes (hfail.trans (if_pos hcm)), fun hcm => completes (hfail.trans (if_neg hcm))⟩
    case empty =>
      subst h0
      exact completes (completeArrive_empty hk hf hr hcells)
  case release =>
    intro r st hc hq hp hf hr hst u hu
    subst hst hu
    have hopen := releaseArrive_open hk hc hq hp ho hf hr
    exact ⟨fun h0 => release (hopen.trans (congrArg _ (if_pos h0))), fun h0 => release (hopen.trans (congrArg _ (if_neg h0)))⟩
end Sys2Proof.Machine
end

section
/-! PROOFS. Context descriptors (O13). -/
namespace Sys2Proof.Machine

/-! ### The course of a descriptor (12 R412, R416) -/

/-- A descriptor that passes the header checks becomes what its row makes of the switch once it is dispatched. -/
theorem becomes_of_desc {c : Instr} {s : State} {code : Nat} {b : Sub} {t : Sw} (op : Sub → Tok → Sw → Sw)
    (hrow : exec c s = lift (runDesc code op b) s) (hh : headerGood code b s)
    (ht : op b (descTok code b s.sw) (descSw code b s.sw) = t) : becomes c s t := by
  refine becomes_of_lift (runDesc code op b) hrow ?_
  simp only [headerGood, descSw] at hh
  simp only [runDesc, hh]
  exact ht
theorem guardDesc_passes {checks : List (Bool × Nat)} (h : firstFail checks = none) (t : Tok) (f : Sw → Sw) (s : Sw) :
    guardDesc t checks f s = f s := by rw [guardDesc, h]
theorem guardDesc_fails {checks : List (Bool × Nat)} {status : Nat} (h : firstFail checks = some status) (t : Tok) (f : Sw → Sw) (s : Sw) :
    guardDesc t checks f s = complete t status s := by rw [guardDesc, h]
theorem hostGuard_good {b : Sub} (h : b.hostErr = none) (t : Tok) (f : Sw → Sw) (s : Sw) : hostGuard b t f s = f s := by
  rw [hostGuard, h]

/-! Dispatch touches rings, queues and the next handle alone. -/

@[simp] theorem descSw_ctxs (code : Nat) (b : Sub) (s : Sw) : (descSw code b s).ctxs = s.ctxs := rfl
@[simp] theorem descSw_ctx? (code : Nat) (b : Sub) (s : Sw) (x : Nat) : (descSw code b s).ctx? x = s.ctx? x := rfl
@[simp] theorem descSw_owns (code : Nat) (b : Sub) (s : Sw) (func j : Nat) : (descSw code b s).owns func j = s.owns func j := rfl
@[simp] theorem descSw_inMap (code : Nat) (b : Sub) (s : Sw) (j n : Nat) : (descSw code b s).inMap j n = s.inMap j n := rfl
@[simp] theorem descSw_port (code : Nat) (b : Sub) (s : Sw) (n : Nat) : (descSw code b s).port n = s.port n := rfl
@[simp] theorem descSw_up (code : Nat) (b : Sub) (s : Sw) (n : Nat) : (descSw code b s).up n = s.up n := rfl
@[simp] theorem descSw_isMember (code : Nat) (b : Sub) (s : Sw) (n : Nat) : (descSw code b s).isMember n = s.isMember n := rfl
@[simp] theorem descSw_portActive (code : Nat) (b : Sub) (s : Sw) (n : Nat) : (descSw code b s).portActive n = s.portActive n := rfl

theorem notOwner_of_ctx {w : Sw} {x : Nat} {c : Ctx} (h : w.ctx? x = some c) (b : Sub) : w.notOwner b x = !w.owns b.func c.cfg.job := by
  simp [Sw.notOwner, h]
theorem active_of_ctx {w : Sw} {x : Nat} {c : Ctx} (h : w.ctx? x = some c) : w.active x = !c.closing := by simp [Sw.active, h]

/-! ### CTX_CREATE (04 R121, R122) -/

theorem ctxSend_coreOf (x q : Nat) (items : List TxItem) (s : Sw) : (ctxSend x q items s).coreOf x = s.coreOf x := by
  unfold ctxSend
  split
  · rfl
  · next c hc =>
    split
    · rw [setCtx_coreOf, coreOf_of_ctx hc]
      rfl
    · dsimp only
      split
      · rfl
      · split
        · exact coreOf_of_keeps (dropRank_keeps (ps := parts18) (by decide) (.refl _ s)) (by decide) x
        · rw [each_coreOf fun it w => coreOf_of_keeps (enqueue_keeps (ps := parts32) (by decide) (.refl _ w)) (by decide) x]
          split
          · split
            · exact coreOf_of_keeps (placeUnit_keeps (ps := parts43) (by decide) (.refl _ s)) (by decide) x
            · rfl
          · rfl
theorem sendBound_coreOf (x : Nat) (h : Child) (s : Sw) : (sendBound x h s).coreOf x = s.coreOf x := by
  unfold sendBound
  split
  · rfl
  · split
    · rfl
    · exact each_coreOf (fun q w => ctxSend_coreOf x q _ w) _ s
/-- With no operation in it, a context whose parent is away keeps all but its paths. -/
theorem parentCheck_coreOf {x : Nat} {s : Sw} {c : Ctx} (hc : s.ctx? x = some c) (ho : c.ops = []) :
    (parentCheck x s).coreOf x = s.coreOf x := by
  have hpath (q : Nat) : (pathDisturbed x q s).coreOf x = s.coreOf x := by
    simp only [pathDisturbed, hc, ho, List.filter_nil]
    split
    · rfl
    · refine (coreOf_of_keeps (pathEvent_keeps (ps := evParts) (by decide) (.refl _ _)) (by decide) x).trans ?_
      rw [setCtx_coreOf, coreOf_of_ctx hc]
      simp [Ctx.core, ho]
  simp only [parentCheck, hc]
  split
  · split
    · rfl
    · exact hpath _
  · rfl
theorem createCtx_coreOf {x : Nat} {k : CtxCfg} {r : Canopy} {w u : Sw} (h : createCtx x k r w = some u) :
    u.coreOf x = some (k, r, false, [], 0) := by
  obtain ⟨⟨pl, v⟩, -, rfl⟩ := Option.map_eq_some_iff.mp h
  have hbound : (each r.memberChildren (sendBound x) (mapCtx x r
      (v.setCtx x { cfg := k, canopy := r, tiles := v.activeTiles, places := pl }))).coreOf x = some (k, r, false, [], 0) := by
    rw [each_coreOf (sendBound_coreOf x), coreOf_of_keeps (mapCtx_keeps (ps := [.portMap]) (by decide) (.refl _ _)) (by decide),
      setCtx_coreOf]
    rfl
  obtain ⟨c, hc, hcore⟩ := Option.map_eq_some_iff.mp hbound
  exact (parentCheck_coreOf hc (congrArg (fun e => e.2.2.2.1) hcore)).trans hbound
theorem placesLimit_none {x job slots : Nat} {w : Sw} (h : ∀ g < 4,
    limitRefuses w 6 (w.homeGrove g) (placeExtents (w.reservePlaces slots w.activeTiles) g) job = false) :
    placesLimit x job slots w = w := by
  have hnone : (List.range 4).find? (fun g => limitRefuses w 6 (w.homeGrove g) (placeExtents (w.reservePlaces slots w.activeTiles) g) job &&
      placeExtents (w.reservePlaces slots w.activeTiles) g != 0) = none := by
    rw [List.find?_eq_none]
    intro g hg
    simp [h g (List.mem_range.1 hg)]
  simp only [placesLimit, hnone]

/-- The settings, the record, the owner, the queue and the capacities of a CTX_CREATE stand, whether or not the context is FREE. -/
structure CreateStands (b : Sub) (r : Canopy) (w : Sw) : Prop where
  record : r = parseCanopy (b.host.take (b.f 40 4))
  host : b.hostErr = none
  queue : w.evqAssigned (createCfg b).evq b.func = true
  noFlag : (createCfg b).chunkFlag = none
  whole : (createCfg b).streaming = false
  settings : createBad b = false
  form : canopyForm b.host (b.f 40 4) = true
  canopy : canopyValid w b.ctx (createCfg b).job r = true
  shards : shardsValid w (2 ^ (createCfg b).seglenLog2) r = true
  ports : outsideMap w (createCfg b).job r = false
  slots : slotsBelow (createCfg b) r.children.length = false
  owner : w.owns b.func (createCfg b).job = true
  children : r.children.length ≤ w.maxChildren
  partners : partnerBelow w r b.cminor = false
  limit : ∀ g < 4, limitRefuses w 6 (w.homeGrove g) (placeExtents (w.reservePlaces (createCfg b).slots w.activeTiles) g)
    (createCfg b).job = false

section Create
variable {b : Sub} {r : Canopy} {w : Sw} (h : CreateStands b r w) (t : Tok)
include h

/-- What stands leaves the context itself to decide. -/
theorem ctxCreateOp_stands : ctxCreateOp b t w =
    if (w.ctx? b.ctx).isSome then complete t stDenied w
    else match createCtx b.ctx (createCfg b) r w with
      | some s => complete t stOk s
      | none => complete t stNoRes w := by
  obtain ⟨hr, hhost, hq, hf, hstr, hset, hform, hcan, hsh, hmap, hsl, hown, hch, hp, hlim⟩ := h
  subst hr
  have hfits := Nat.not_lt.mpr hch
  have hpl := placesLimit_none (x := b.ctx) hlim
  unfold ctxCreateOp
  refine (guardDesc_passes ?_ _ _ _).trans ((hostGuard_good hhost ..).trans ?_)
  · simp [firstFail, hq, hf]
  cases hx : w.ctx? b.ctx with
  | some c =>
    refine guardDesc_fails ?_ _ _ _
    simp [firstFail, hstr, hset, hform, hcan, hsh, hmap, hsl]
  | none =>
    refine (guardDesc_passes ?_ _ _ _).trans ?_
    · simp [firstFail, hstr, hset, hform, hcan, hsh, hmap, hsl, hown, hfits]
    rw [hpl]
    cases hc : createCtx b.ctx (createCfg b) (parseCanopy (b.host.take (b.f 40 4))) w with
    | none =>
      refine guardDesc_fails ?_ _ _ _
      simp [firstFail]
    | some u =>
      refine (guardDesc_passes ?_ _ _ _).trans ?_
      · simp [firstFail, hp]
      · simp [hc]
theorem ctxCreateOp_existing (hx : w.ctx? b.ctx ≠ none) : ctxCreateOp b t w = complete t stDenied w :=
  (ctxCreateOp_stands h t).trans (if_pos (Option.isSome_iff_ne_none.mpr hx))
theorem ctxCreateOp_creates {u : Sw} (hx : w.ctx? b.ctx = none) (hc : createCtx b.ctx (createCfg b) r w = some u) :
    ctxCreateOp b t w = complete t stOk u := by
  rw [ctxCreateOp_stands h t, hx, hc]
  rfl
end Create

/-! ### CTX_DESTROY (04 R122, R123) -/

theorem freeCtx_free (x : Nat) (w : Sw) : (freeCtx x w).ctx? x = none := by
  unfold freeCtx
  dsimp only
  split <;> exact SMap.find?_erase_same ..

section Destroy
variable {b : Sub} {w : Sw} (ho : b.only [lctx, bi_ 10 0 1] = true) (t : Tok)
include ho

theorem ctxDestroyOp_free (hc : w.ctx? b.ctx = none) : ctxDestroyOp b t w = complete t stBad w := by
  unfold ctxDestroyOp
  refine guardDesc_fails ?_ _ _ _
  simp [firstFail, ho, hc]

variable {c : Ctx} (hc : w.ctx? b.ctx = some c)
include hc

theorem ctxDestroyOp_foreign (hown : w.owns b.func c.cfg.job = false) : ctxDestroyOp b t w = complete t stDenied w := by
  unfold ctxDestroyOp
  refine guardDesc_fails ?_ _ _ _
  simp [firstFail, ho, hc, notOwner_of_ctx hc, hown]

variable (hown : w.owns b.func c.cfg.job = true)
include hown

/-- CTX_DESTROY by the context's owner. -/
theorem ctxDestroyOp_owned : ctxDestroyOp b t w =
    if c.closing then w.setCtx b.ctx { c with destroys := c.destroys ++ [t] }
    else if c.store.isSome || (c.anyOpen && !b.flag 10 0) then complete t stDenied w
    else if c.anyOpen then settle b.ctx (abortAll b.ctx (w.setCtx b.ctx { c with closing := true, destroys := [t] }))
    else complete t stOk (freeCtx b.ctx w) := by
  unfold ctxDestroyOp
  refine (guardDesc_passes ?_ _ _ _).trans ?_
  · simp [firstFail, ho, hc, notOwner_of_ctx hc, hown]
  · simp only [hc]
end Destroy

/-! ### CTX_RECANOPY (04 R130) -/

/-- The record of a CTX_RECANOPY of the ACTIVE context c and its MEPOCH stand. -/
structure RecanopyStands (b : Sub) (c : Ctx) (r : Canopy) (w : Sw) : Prop where
  record : r = parseCanopy (b.host.take (b.f 40 4))
  ctx : w.ctx? b.ctx = some c
  host : b.hostErr = none
  active : c.closing = false
  form : canopyForm b.host (b.f 40 4) = true
  layout : b.only [lctx, by_ 12 8, by_ 32 12] = true
  ports : outsideMap w c.cfg.job r = false
  canopy : canopyValid w b.ctx c.cfg.job r = true
  shards : shardsValid w (2 ^ c.cfg.seglenLog2) r = true
  higher : c.canopy.mepoch < b.f 16 4
  mepoch : r.mepoch = b.f 16 4
  owner : w.owns b.func c.cfg.job = true

theorem ctxRecanopyOp_stands {b : Sub} {c : Ctx} {r : Canopy} {w : Sw} (h : RecanopyStands b c r w) (t : Tok) :
    ctxRecanopyOp b t w =
      if c.openedFrom (b.f 12 4) || c.recanopy.isSome then complete t stDenied w
      else settle b.ctx (complete t stOk (w.modCtx b.ctx fun c => { c with recanopy := some { eff := b.f 12 4, canopy := r } })) := by
  obtain ⟨hr, hc, hhost, hcl, hform, hl, hmap, hcan, hsh, hhi, hme, hown⟩ := h
  subst hr
  have hhi' := Nat.not_le.mpr hhi
  have hact : w.active b.ctx = true := by rw [active_of_ctx hc, hcl]; rfl
  have hnot : w.notOwner b b.ctx = false := by rw [notOwner_of_ctx hc, hown]; rfl
  rw [ctxRecanopyOp, hostGuard_good hhost]
  cases hd : c.openedFrom (b.f 12 4) || c.recanopy.isSome
  · rw [if_neg Bool.false_ne_true]
    refine guardDesc_passes ?_ _ _ _
    simp [firstFail, hc, hform, hl, hmap, hcan, hsh, hhi', hme, hact, hnot, hd]
  · rw [if_pos rfl]
    refine guardDesc_fails ?_ _ _ _
    simp [firstFail, hc, hform, hl, hmap, hcan, hsh, hhi', hme, hact, hd]

/-! ### PORT_BIND (04 R127) -/

theorem portBindOp_down {b : Sub} {w : Sw} (hin : w.inMap (b.f 10 1) (b.f 8 2) = true) (hup : w.up (b.f 8 2) = false) (t : Tok) :
    portBindOp b t w = complete t stBad w := by
  unfold portBindOp
  refine guardDesc_fails ?_ _ _ _
  simp [firstFail, hin, hup]
theorem portBindOp_binds {b : Sub} {w : Sw} (hin : w.inMap (b.f 10 1) (b.f 8 2) = true) (hup : w.up (b.f 8 2) = true)
    (hl : b.only [by_ 8 3, bi_ 11 0 2, by_ 12 2] = true) (hmem : w.isMember (b.f 8 2) = true)
    (hfree : ∀ e ∈ w.ctxs, e.2.canopy.memberPorts.contains (b.f 8 2) = false) (hown : w.owns b.func (b.f 10 1) = true) (t : Tok) :
    portBindOp b t w = complete t stOk (w.setBinding (b.f 8 2)
      (if b.flag 11 0 then none else some { job := b.f 10 1, rank := b.f 12 2, backup := b.flag 11 1 })) := by
  have hany : w.ctxs.any (fun e => e.2.canopy.memberPorts.contains (b.f 8 2)) = false :=
    List.any_eq_false.mpr fun e he => Bool.eq_false_iff.mp (hfree e he)
  unfold portBindOp
  refine guardDesc_passes ?_ _ _ _
  simp only [firstFail, hin, hup, hl, hmem, hany, hown]
  rfl

/-- A port none of whose parts changed is the same. -/
theorem port_of_keeps {ps : List Piece} {a b : Sw} (h : Sw.keeps ps a b)
    (hps : ∀ p ∈ [Piece.portReg, .portMap, .portCnt, .portLink, .portQ, .portSec], p ∉ ps) (n : Nat) : b.port n = a.port n := by
  have hrest := h .portReg (hps _ (by simp)) n
  have hmaps := h .portMap (hps _ (by simp)) n
  have hcnt := h .portCnt (hps _ (by simp)) n
  have hlink := h .portLink (hps _ (by simp)) n
  have hq := h .portQ (hps _ (by simp)) n
  have hsec := h .portSec (hps _ (by simp)) n
  have hreg : (a.port n).reg = (b.port n).reg := by
    revert hrest hmaps
    cases (a.port n).reg
    cases (b.port n).reg
    simp_all [PortReg.rest, PortReg.maps]
  revert hreg hcnt hlink hq hsec
  cases a.port n
  cases b.port n
  rintro rfl rfl rfl rfl rfl
  rfl

/-- A binding written once the descriptor is dispatched reaches its port and no other; its completion touches no port. -/
theorem runsTo_of_portBind {c : Instr} {s : State} {code n : Nat} {b : Sub} {t : Tok} (hact : s.sw.portActive n = true)
    (bind : Option Binding) (h : becomes c s (complete t stOk ((descSw code b s.sw).setBinding n bind))) :
    runsTo c s (.portMap :: descParts) fun w => w.binding n = bind ∧ othersSame Sw.port n s.sw w := by
  have hports (k : Nat) : (complete t stOk ((descSw code b s.sw).setBinding n bind)).port k = ((descSw code b s.sw).setBinding n bind).port k :=
    port_of_keeps (complete_keeps (ps := parts13) (by decide) (.refl _ _)) (by decide) k
  refine ⟨_, h, ?_, ?_, fun k hk => ?_⟩
  · exact complete_keeps (by decide) (setBinding_keeps (by decide) (Sw.keeps.mono (descSw_keeps code b s.sw) (by decide)))
  · rw [Sw.binding, hports]
    exact congrArg (fun p : Port => p.reg.binding) (port_modPort_same (s := descSw code b s.sw) hact _)
  · rw [hports]
    exact (port_modPort_ne (s := descSw code b s.sw) hk _).symm

/-! ### OP_POST (04 R133 to R135) -/

/-- A block without a reserved bit or encoding, posted by the owner of the context c. -/
structure PostStands (b : Sub) (c : Ctx) (blk : BitVec 256) (w : Sw) : Prop where
  block : blk = BitVec.ofNat 256 (b.f 16 32)
  ctx : w.ctx? b.ctx = some c
  layout : b.only [lctx, by_ 16 32] = true
  reserved : blkReserved blk = false
  kind : blkKind blk ≤ 7
  redop : blkRedop blk ≤ 6
  owner : w.owns b.func c.cfg.job = true

/-- Judging a posted block once its form and its owner stand. -/
theorem opPostOp_stands {b : Sub} {c : Ctx} {blk : BitVec 256} {w : Sw} (h : PostStands b c blk w) (t : Tok) :
    opPostOp b t w =
      if c.closing then complete t stAborted w
      else if blkOpnum blk < c.windowBase ∨ c.windowBase + 32 ≤ blkOpnum blk then complete t stNoRes w
      else settle b.ctx (match SMap.find? (blkOpnum blk) c.ops with
        | some p => postOpened b.ctx (blkOpnum blk) p blk t w
        | none => postFresh b.ctx (blkOpnum blk) blk t w) := by
  obtain ⟨hb, hc, hl, hres, hk, hr, hown⟩ := h
  subst hb
  have hnot : w.notOwner b b.ctx = false := by rw [notOwner_of_ctx hc, hown]; rfl
  have hkind := Nat.not_lt.mpr hk
  have hredop := Nat.not_lt.mpr hr
  unfold opPostOp
  split
  · next hcl =>
    refine guardDesc_fails ?_ _ _ _
    simp [firstFail, hl, hres, hkind, hredop, hc, hnot, active_of_ctx hc, hcl]
  · next hcl =>
    split
    · next hw =>
      refine guardDesc_fails ?_ _ _ _
      simp [firstFail, hl, hres, hkind, hredop, hc, hnot, active_of_ctx hc, hcl, hw]
    · next hw =>
      rw [← op?_of_ctx hc]
      refine guardDesc_passes ?_ _ _ _
      simp [firstFail, hl, hres, hkind, hredop, hc, hnot, active_of_ctx hc, hcl]
      omega

section Post
variable {b : Sub} {c : Ctx} {blk : BitVec 256} {w : Sw} (h : PostStands b c blk w) (t : Tok)
include h

theorem opPostOp_closing (hcl : c.closing = true) : opPostOp b t w = complete t stAborted w :=
  (opPostOp_stands h t).trans (if_pos hcl)

variable (hcl : c.closing = false)
include hcl

theorem opPostOp_outside (hw : blkOpnum blk < c.windowBase ∨ c.windowBase + 32 ≤ blkOpnum blk) :
    opPostOp b t w = complete t stNoRes w := by
  rw [opPostOp_stands h t, if_neg (Bool.eq_false_iff.mp hcl), if_pos hw]

variable (hlo : c.windowBase ≤ blkOpnum blk) (hhi : blkOpnum blk < c.windowBase + 32)
include hlo hhi

theorem opPostOp_meets {p : Op} (hf : SMap.find? (blkOpnum blk) c.ops = some p) :
    opPostOp b t w = settle b.ctx (postOpened b.ctx (blkOpnum blk) p blk t w) := by
  have hin : ¬ (blkOpnum blk < c.windowBase ∨ c.windowBase + 32 ≤ blkOpnum blk) := by omega
  rw [opPostOp_stands h t, if_neg (Bool.eq_false_iff.mp hcl), if_neg hin, hf]
theorem opPostOp_fresh (hf : SMap.find? (blkOpnum blk) c.ops = none) :
    opPostOp b t w = settle b.ctx (postFresh b.ctx (blkOpnum blk) blk t w) := by
  have hin : ¬ (blkOpnum blk < c.windowBase ∨ c.windowBase + 32 ≤ blkOpnum blk) := by omega
  rw [opPostOp_stands h t, if_neg (Bool.eq_false_iff.mp hcl), if_neg hin, hf]
end Post

section PostOpened
variable {x o : Nat} {p : Op} {blk : BitVec 256} (t : Tok) (w : Sw)

theorem postOpened_waits (hb : p.blk = blk) (ho : p.isOpen = true) :
    postOpened x o p blk t w = w.modOp x o (fun p => { p with posts := p.posts ++ [t] }) := by
  simp [postOpened, hb, ho]
theorem postOpened_ended (hb : p.blk = blk) (ho : p.isOpen = false) :
    postOpened x o p blk t w = opComplete x o p.status (w.modOp x o (fun p => { p with posts := p.posts ++ [t] })) := by
  simp [postOpened, hb, ho]
theorem postOpened_mismatch (hb : p.blk ≠ blk) (ho : p.isOpen = true) :
    postOpened x o p blk t w = failHere x o stMismatch (raiseCtx x 0x0201 (le 4 o ++ le 8 (blkSignature blk).toNat ++ cList [])
      (w.modOp x o (fun p => { p with posts := p.posts ++ [t] }))) := by
  simp [postOpened, hb, ho]
end PostOpened

theorem postFresh_opens {x o : Nat} {blk : BitVec 256} {t : Tok} {w u : Sw} {c : Ctx} {p : Op}
    (hu : u = (openOp x o blk false w).modOp x o (fun p => { p with posts := [t] })) (hc : u.ctx? x = some c) (hp : u.op? x o = some p)
    (hr : c.recanopy = none) (hbad : blockBad u x c blk (blkKind blk == kBarrier) = false) (hg : p.gather = none) :
    postFresh x o blk t w = replayCounts x o u := by
  subst hu
  simp [postFresh, hc, hp, hr, hbad, hg]

/-! ### OP_ABORT (04 R154, R155) -/

section OpAbort
variable {b : Sub} {c : Ctx} {w : Sw} (hl : b.only [lctx, by_ 12 4] = true) (hc : w.ctx? b.ctx = some c)
  (hown : w.owns b.func c.cfg.job = true) (t : Tok)
include hl hc hown

theorem opAbortOp_never (hm : c.ops.mem (b.f 12 4) = false) (hn : c.nextOp ≤ b.f 12 4) : opAbortOp b t w = complete t stBad w := by
  unfold opAbortOp
  refine guardDesc_fails ?_ _ _ _
  simp [firstFail, hl, hc, notOwner_of_ctx hc, hown, hm, hn]
theorem opAbortOp_opened (h : c.ops.mem (b.f 12 4) = true ∨ b.f 12 4 < c.nextOp) : opAbortOp b t w =
    match SMap.find? (b.f 12 4) c.ops with
    | none => complete t stDone w
    | some p =>
      if !p.isOpen then complete t p.abortAnswer w
      else settle b.ctx (requestAbort b.ctx (b.f 12 4) 0xFFFF (w.modOp b.ctx (b.f 12 4) (fun p => { p with aborts := p.aborts ++ [t] }))) := by
  have hchk : (!c.ops.mem (b.f 12 4) && decide (c.nextOp ≤ b.f 12 4)) = false := by
    rcases h with h | h
    · simp [h]
    · simp [Nat.not_le.mpr h]
  unfold opAbortOp
  rw [← op?_of_ctx hc]
  refine (guardDesc_passes ?_ _ _ _).trans ?_
  · simp [firstFail, hl, hc, notOwner_of_ctx hc, hown, hchk]
  · rfl
end OpAbort

/-- Settles O13: each descriptor passes the header checks, so its row is its operation on the switch after the dispatch, and the
checks that the clause names decide what the operation comes to; the context that CTX_CREATE leaves is read off `createCtx_coreOf`. -/
theorem contextRule : Obligations.ContextRule := by
  unfold Obligations.ContextRule
  refine ⟨?_, ?_, ?_, fun w x => freeCtx_free x w, ?_, ?_, ?_, ?_⟩
  · intro s b w u r hh hhost hw hr hq hf hstr hset hform hcan hsh hmap hsl hown hch hp hlim
    have h : CreateStands b r w := ⟨hr, hhost, hq, hf, hstr, hset, hform, hcan, hsh, hmap, hsl, hown, hch, hp, hlim⟩
    subst hw
    exact ⟨fun hx hc => becomes_of_desc ctxCreateOp rfl hh (ctxCreateOp_creates h _ hx hc),
      fun hx => becomes_of_desc ctxCreateOp rfl hh (ctxCreateOp_existing h _ hx)⟩
  · intro w u x k r hu
    obtain ⟨c, hc, hcore⟩ := Option.map_eq_some_iff.mp (createCtx_coreOf hu)
    simp only [Ctx.core, Prod.mk.injEq] at hcore
    exact ⟨c, hc, hcore⟩
  · intro s b x hh hx ho
    subst hx
    refine ⟨fun hc => becomes_of_desc ctxDestroyOp rfl hh (ctxDestroyOp_free (w := descSw 0x21 b s.sw) ho _ hc),
      fun c hc hown => becomes_of_desc ctxDestroyOp rfl hh (ctxDestroyOp_foreign (w := descSw 0x21 b s.sw) ho _ hc hown), fun c hc hown => ?_⟩
    have hop := ctxDestroyOp_owned (w := descSw 0x21 b s.sw) ho (descTok 0x21 b s.sw) hc hown
    refine ⟨fun hcl => ?_, fun hcl hden => ?_, fun hcl hst hop' => ?_, fun hcl hst hop' hforce => ?_⟩
    all_goals refine becomes_of_desc ctxDestroyOp rfl hh (hop.trans ?_)
    · rw [if_pos hcl]
    · have hden' : (c.store.isSome || (c.anyOpen && !b.flag 10 0)) = true := by simpa using hden
      simp [hcl, hden']
    · simp [hcl, hst, hop']
    · simp [hcl, hst, hop', hforce]
  · intro s b x c r w hh hx hc hw hr hhost hcl hform hl hmap hcan hsh hhi hme hown
    subst hx hw
    have hop := ctxRecanopyOp_stands (w := descSw 0x22 b s.sw) ⟨hr, hc, hhost, hcl, hform, hl, hmap, hcan, hsh, hhi, hme, hown⟩
      (descTok 0x22 b s.sw)
    refine ⟨fun hno hre => ?_, fun hden => ?_⟩
    all_goals refine becomes_of_desc ctxRecanopyOp rfl hh (hop.trans ?_)
    · simp [hno, hre]
    · have hden' : (c.openedFrom (b.f 12 4) || c.recanopy.isSome) = true := by simpa [Option.isSome_iff_ne_none] using hden
      rw [if_pos hden']
      rfl
  · intro s b n hh hn hin
    subst hn
    refine ⟨fun hup => becomes_of_desc portBindOp rfl hh (portBindOp_down (w := descSw 0x23 b s.sw) hin hup _),
      fun hl hact hup hmem hfree hown => ?_⟩
    have hop := portBindOp_binds (w := descSw 0x23 b s.sw) hin hup hl hmem hfree hown (descTok 0x23 b s.sw)
    exact runsTo_of_portBind hact _ (becomes_of_desc (c := .portBind b) portBindOp rfl hh hop)
  · intro s b x o c blk w t hh hx hc hw ht hown hb ho hl hres hk hr
    subst hx hw ht ho
    have hst : PostStands b c blk (descSw 0x24 b s.sw) := ⟨hb, hc, hl, hres, hk, hr, hown⟩
    have posts {u : Sw} : opPostOp b (descTok 0x24 b s.sw) (descSw 0x24 b s.sw) = u → becomes (.opPost b) s u :=
      becomes_of_desc opPostOp rfl hh
    refine ⟨fun hcl => posts (opPostOp_closing hst _ hcl), fun hcl hout => posts (opPostOp_outside hst _ hcl hout),
      fun p hcl hlo hhi hf u hu => ?meets, fun hcl hlo hhi hf _ _ u hu c' hc' hr' hbad p hp hg => ?fresh⟩
    case meets =>
      subst hu
      have hmeet := opPostOp_meets hst (descTok 0x24 b s.sw) hcl hlo hhi hf
      exact ⟨fun hbk hopen => posts (hmeet.trans (congrArg _ (postOpened_waits _ _ hbk hopen))),
        fun hbk hopen => posts (hmeet.trans (congrArg _ (postOpened_ended _ _ hbk hopen))),
        fun hbk hopen => posts (hmeet.trans (congrArg _ (postOpened_mismatch _ _ hbk hopen)))⟩
    case fresh =>
      exact posts ((opPostOp_fresh hst _ hcl hlo hhi hf).trans (congrArg _ (postFresh_opens hu hc' hp hr' hbad hg)))
  · intro s b x o c hh hx ho hc hown hl
    subst hx ho
    have hop := opAbortOp_opened (w := descSw 0x25 b s.sw) hl hc hown (descTok 0x25 b s.sw)
    refine ⟨fun _ hm hn => becomes_of_desc opAbortOp rfl hh (opAbortOp_never (w := descSw 0x25 b s.sw) hl hc hown _ hm hn), fun hf hn => ?_,
      fun p hf hm => ⟨fun hopen => ?_, fun hopen => ?_⟩⟩
    · refine becomes_of_desc opAbortOp rfl hh ((hop (.inr hn)).trans ?_)
      rw [hf]
      rfl
    all_goals refine becomes_of_desc opAbortOp rfl hh ((hop (.inl hm)).trans ?_)
    · simp [hf, hopen, Op.abortAnswer]
    · simp [hf, hopen]
end Sys2Proof.Machine
end

section
/-! PROOFS. Sources of time, offsets and the cells and messages that measure them (O14). -/
namespace Sys2Proof.Machine

@[simp] theorem raiseSys_sync (code : Nat) (content : List Byte) (s : Sw) : (raiseSys code content s).sync = s.sync :=
  (raiseSys_keeps (ps := evParts) (by decide) (.refl _ s) .sync (by decide)).symm

/-! ### What the timing input holds (05 R171) -/

/-- Validity of the timing input, its good messages in a row and the mark of the last. -/
def Sync.input (y : Sync) : Bool × Nat × Option Quad := (y.inValid, y.inGood, y.inLast)

/-! ### Selection of the source (05 R164 to R166) -/

/-- A source is followed from a state on: nothing measured of the one before is kept. -/
def Sync.restart (src : TimeSrc) (st : SyncSt) (y : Sync) : Sync :=
  { y with state := st, src := src, good := 0, bad := 0, t12 := none, req := none, pairs := [] }
/-- The state that a change to a source leads to (05 R166, log 22). -/
def SyncSt.toward (st : SyncSt) (src : TimeSrc) : SyncSt :=
  if src = .self then (match st with | .locked => .holdover | .acquire => .freeRun | st => st) else .acquire

theorem SyncSt.toward_other {src : TimeSrc} (h : src ≠ .self) (st : SyncSt) : st.toward src = .acquire := if_neg h

section Select
variable {w : Sw} (k : Nat) (old : List Byte)

theorem reselect_stands (h : w.wantSrc = w.sync.src) : reselect k old w = w := by
  simp [reselect, h]
/-- Another source is followed from the state that the change leads to; HOLDOVER notes when it began. -/
theorem reselect_sync (h : w.wantSrc ≠ w.sync.src) : ∃ hold, (reselect k old w).sync =
    { w.sync.restart w.wantSrc (w.sync.state.toward w.wantSrc) with holdAt := hold } := by
  by_cases hs : w.wantSrc = .self
  · rw [hs] at h
    cases hst : w.sync.state
    case locked => exact ⟨w.now, by simp [reselect, h, hs, hst, SyncSt.toward, Sync.restart, Sw.draw, Sw.now]⟩
    all_goals exact ⟨w.sync.holdAt, by simp [reselect, h, hs, hst, SyncSt.toward, Sync.restart]⟩
  · exact ⟨w.sync.holdAt, by simp [reselect, h, hs, SyncSt.toward, Sync.restart]⟩
theorem reselect_input : (reselect k old w).sync.input = w.sync.input := by
  by_cases h : w.wantSrc = w.sync.src
  · rw [reselect_stands k old h]
  · obtain ⟨hold, hy⟩ := reselect_sync k old h
    rw [hy]
    rfl
/-- Only the way from LOCKED to HOLDOVER touches the correction of time and draws a value. -/
theorem reselect_keeps_unlocked (h : w.sync.state ≠ .locked) : Sw.keeps (.sync :: evParts) w (reselect k old w) := by
  have raised (c : Nat) (l : List Byte) (f : Sync → Sync) : Sw.keeps (.sync :: evParts) w (raiseSys c l (w.modSync f)) :=
    raiseSys_keeps (by decide) (modSync_keeps (by decide) (.refl _ _))
  unfold reselect
  dsimp only
  split
  · exact .refl _ _
  · split
    · exact raised _ _ _
    · split
      · next hl => exact absurd hl h
      · exact raised _ _ _
      · exact modSync_keeps (by decide) (.refl _ _)
end Select

/-- What is selected depends on SOURCE, PRIORITY, the validity of the input, the candidates and the class of the switch itself
beside the ports. -/
theorem wantSrc_of_keeps {ps : List Piece} {a b : Sw} (h : Sw.keeps ps a b)
    (hps : ∀ p ∈ [Piece.time, .portReg, .portMap, .portCnt, .portLink, .portQ, .portSec], p ∉ ps)
    (hin : b.sync.inValid = a.sync.inValid) (hann : b.sync.ann = a.sync.ann) (hown : b.ownClass = a.ownClass) :
    b.wantSrc = a.wantSrc := by
  have htime : b.time = a.time := (h .time (hps _ (by simp))).symm
  have hport := port_of_keeps h fun p hp => hps p (List.mem_cons_of_mem _ hp)
  simp only [Sw.wantSrc, Sw.bestInband, Sw.up, htime, hport, hin, hann, hown]

/-- A write of SOURCE ends at the source selected from FREE_RUN (05 R166, log 59). -/
theorem writeSource_selects (v : Nat) (s : Sw) : Sw.keeps (.sync :: .time :: evParts) s (writeSource v s) ∧
    (writeSource v s).time = { s.time with source := v % 4 } ∧ (writeSource v s).sync.src = (writeSource v s).wantSrc ∧
    (writeSource v s).sync.state = (if (writeSource v s).wantSrc = .self then .freeRun else .acquire) ∧
    (writeSource v s).sync.pairs = [] ∧ (writeSource v s).sync.good = 0 := by
  obtain ⟨u, hu⟩ : ∃ u, u = (s.modTime fun t => { t with source := v % 4 }).modSync (Sync.restart .self .freeRun) := ⟨_, rfl⟩
  have hw : writeSource v s = reselect 0 (s.srcContent s.sync.src) u := hu ▸ rfl
  have htime : u.time = { s.time with source := v % 4 } := hu ▸ rfl
  have hsync : u.sync = s.sync.restart .self .freeRun := hu ▸ rfl
  have hsu : Sw.keeps (.sync :: .time :: evParts) s u := hu ▸ modSync_keeps (by decide) (modTime_keeps (by decide) (.refl _ _))
  have hur : Sw.keeps (.sync :: evParts) u (writeSource v s) :=
    hw ▸ reselect_keeps_unlocked 0 _ (by rw [hsync]; exact nofun)
  refine ⟨hsu.next hur (by decide), (hur .time (by decide)).symm.trans htime, ?_⟩
  by_cases h : u.wantSrc = u.sync.src
  · rw [hw, reselect_stands _ _ h]
    rw [h, hsync]
    exact ⟨rfl, rfl, rfl, rfl⟩
  · have hself : u.wantSrc ≠ .self := by rwa [hsync] at h
    obtain ⟨hold, hy⟩ := reselect_sync 0 (s.srcContent s.sync.src) h
    rw [← hw, SyncSt.toward_other hself] at hy
    have hwant : (writeSource v s).wantSrc = u.wantSrc := by
      refine wantSrc_of_keeps hur (by decide) (by rw [hy]; rfl) (by rw [hy]; rfl) ?_
      simp [Sw.ownClass, hy, hsync, Sync.restart]
    rw [hwant, if_neg hself, hy]
    exact ⟨rfl, rfl, rfl, rfl⟩

/-! ### A measured offset (05 R166, R167) -/

/-- The GTC takes a value in sixteenths modulo 2^64 ns. -/
theorem setGtc16_gtc16 (v : Int) (s : Sw) : (setGtc16 v s).gtc16 = v % 2 ^ 68 := by
  have h0 : 0 ≤ v % 2 ^ 68 := Int.emod_nonneg _ (by decide)
  have hlt : v % 2 ^ 68 < 2 ^ 68 := Int.emod_lt_of_pos _ (by decide)
  have hq : (v % 2 ^ 68).toNat / 16 < 2 ^ 64 := by omega
  simp only [setGtc16, Sw.gtc16, Sw.gtc, Sw.modTime_time, BitVec.toNat_ofNat, Nat.mod_eq_of_lt hq]
  omega

section Offset
variable {w : Sw} {v : Int}

theorem offsetMeasured_input : (offsetMeasured v w).sync.input = w.sync.input := by
  unfold offsetMeasured
  dsimp only
  repeat' split
  all_goals simp [setGtc16, Sync.input]
theorem offsetMeasured_offset : (offsetMeasured v w).time.offset = v := by
  unfold offsetMeasured
  dsimp only
  repeat' split
  all_goals simp [setGtc16]

section Acquire
variable (hst : w.sync.state = .acquire)
include hst

/-- An offset above 1,000 ns steps the GTC. -/
theorem offsetMeasured_steps (hv : 16000 < v.natAbs) : (offsetMeasured v w).gtc16 = (w.gtc16 - v) % 2 ^ 68 ∧
    (offsetMeasured v w).sync = { w.sync with good := 0 } ∧ (offsetMeasured v w).time.steps = w.time.steps + 1 := by
  have hstep := setGtc16_gtc16 (w.gtc16 - v) (w.modTime fun t => { t with offset := v })
  refine ⟨?_, ?_, ?_⟩
  · rw [← hstep]
    simp [offsetMeasured, hst, hv, Sw.gtc16, Sw.gtc]
  all_goals simp [offsetMeasured, hst, hv, setGtc16]
/-- An offset of at most 4 ns counts towards the lock and is slewed. -/
theorem offsetMeasured_counts (hv : v.natAbs ≤ 64) : (offsetMeasured v w).time.slew = v ∧ (offsetMeasured v w).sync =
    if w.sync.good = 15 then { w.sync with good := 16, state := .locked, bad := 0 } else { w.sync with good := w.sync.good + 1 } := by
  have hnear : ¬ 16000 < v.natAbs := by omega
  by_cases hg : w.sync.good = 15 <;> simp [offsetMeasured, hst, hv, hnear, hg]
end Acquire

section Locked
variable (hst : w.sync.state = .locked)
include hst

theorem offsetMeasured_slews (hv : v.natAbs ≤ 16000) : (offsetMeasured v w).time.slew = v ∧
    (offsetMeasured v w).sync = { w.sync with bad := 0 } := by
  by_cases hr : 64 < v.natAbs <;> simp [offsetMeasured, hst, hv, hr]
/-- An offset above 1,000 ns is not corrected in LOCKED; the fourth in a row ends it. -/
theorem offsetMeasured_misses (hv : 16000 < v.natAbs) : (offsetMeasured v w).time.slew = w.time.slew ∧ (offsetMeasured v w).sync =
    if w.sync.bad = 3 then { w.sync with bad := 0, state := .acquire, good := 0 } else { w.sync with bad := w.sync.bad + 1 } := by
  have hfar : ¬ v.natAbs ≤ 16000 := by omega
  by_cases hb : w.sync.bad = 3 <;> simp [offsetMeasured, hst, hfar, hb]
end Locked
end Offset

theorem ite_offsetMeasured_input (c : Prop) [Decidable c] (v : Int) (u : Sw) :
    (if c then offsetMeasured v u else u).sync.input = u.sync.input := by
  split
  · exact offsetMeasured_input
  · rfl

/-! ### The timing input (05 R171) -/

section Input
variable {w : Sw} {m : BitVec 128} (g : Quad) (fr : BitVec 4)

/-- A good message on a valid input that is not followed is only counted. -/
theorem timingMessageOp_counts (hg : timingGood w m = true) (hv : w.sync.inValid = true) (hs : w.sync.src ≠ .input) :
    timingMessageOp m g fr w = w.modSync fun y => { y with inGood := y.inGood + 1, inBad := 0, inLast := some (m.extractLsb' 32 64) } := by
  simp [timingMessageOp, hg, hv, hs]
/-- A good message on an invalid input makes it valid when one came before it. -/
theorem timingMessageOp_input (hg : timingGood w m = true) (hv : w.sync.inValid = false) : (timingMessageOp m g fr w).sync.input =
    (decide (1 ≤ w.sync.inGood), w.sync.inGood + 1, some (m.extractLsb' 32 64)) := by
  rw [timingMessageOp, if_pos hg]
  refine (ite_offsetMeasured_input _ _ _).trans ?_
  by_cases h1 : 1 ≤ w.sync.inGood
  · rw [if_pos (by simp [hv, h1]), reselectNow, reselect_input]
    simp [inputEvent, Sync.input, h1]
  · rw [if_neg (by simp [h1])]
    simp [Sync.input, hv, h1]
theorem timingMessageOp_bad (hg : timingGood w m = false) (hb : w.sync.inBad < 2) :
    timingMessageOp m g fr w = w.modSync fun y => { y with inGood := 0, inBad := y.inBad + 1 } := by
  have h3 : ¬ 2 ≤ w.sync.inBad := by omega
  simp [timingMessageOp, hg, h3]
theorem inputInvalid_stands (hv : w.sync.inValid = false) : inputInvalid w = w := by
  simp [inputInvalid, hv]
theorem inputInvalid_ends (hv : w.sync.inValid = true) : (inputInvalid w).sync.input = (false, 0, w.sync.inLast) := by
  rw [inputInvalid, if_neg (by simp [hv]), reselect_input]
  simp [inputEvent, Sync.input]
theorem inputInvalid_inValid : (inputInvalid w).sync.inValid = false := by
  cases hv : w.sync.inValid
  · rw [inputInvalid_stands hv, hv]
  · exact congrArg Prod.fst (inputInvalid_ends hv)
theorem timingMessageOp_invalid (hg : timingGood w m = false) (hb : 2 ≤ w.sync.inBad) : (timingMessageOp m g fr w).sync.inValid = false := by
  simp [timingMessageOp, hg, hb, inputInvalid_inValid]
end Input

/-! ### TIME cells (05 R173 to R175) -/

/-- The way of a TIME cell in, up to its operation. -/
def timeRow (p : Nat) (c : Cell) (f : Cell → Sw → Sw) (s : Sw) : Sw := timeArrive p f (ingress p c s).1 (ingress p c s).2
/-- A cell of another DOMAIN is counted on its port and told of once in a second. -/
def domainDropped (p domain : Nat) (s : Sw) : Sw :=
  (s.modCnt p fun k => { k with domainDrop := k.domainDrop + 1 }).limited 0x030B p (1000 * ms)
    (raiseSys 0x030B (le 2 p ++ le 1 domain))

theorem domainDropped_keeps (p domain : Nat) (s : Sw) : Sw.keeps consumeParts s (domainDropped p domain s) :=
  limited_keeps (by decide) (fun _ _ h => raiseSys_keeps (by decide) h) (modCnt_keeps (by decide) (.refl _ _))
theorem domainDropped_counts {p : Nat} {s : Sw} (h : s.portActive p = true) (domain : Nat) :
    ((domainDropped p domain s).port p).cnt.domainDrop = (s.port p).cnt.domainDrop + 1 := by
  have hev : Sw.keeps (.evTimes :: evParts) (s.modCnt p fun k => { k with domainDrop := k.domainDrop + 1 }) (domainDropped p domain s) :=
    limited_keeps (by decide) (fun _ _ h => raiseSys_keeps (by decide) h) (.refl _ _)
  rw [← hev .portCnt (by decide), Sw.modCnt, port_modPort_same h]

section Arrive
variable {i : Instr} {s : State} {p : Nat} {c c' : Cell} {w : Sw} (f : Cell → Sw → Sw)
  (hi : exec i s = lift (timeRow p c f) s) (hin : ingress p c s.sw = (some c', w)) (htc : c'.tc = 6)
include hi hin htc

/-- A TIME cell of the switch's DOMAIN reaches its operation. -/
theorem becomes_of_timeCell {t : Sw} (hd : c'.domain = w.time.domain) (ht : f c' w = t) : becomes i s t := by
  refine becomes_of_lift _ hi ?_
  simp [timeRow, hin, timeArrive, htc, hd, ht]
theorem runsTo_of_otherDomain (hd : c'.domain ≠ w.time.domain) (ha : w.portActive p = true) :
    runsTo i s (.ctxs :: consumeParts) fun t => (t.port p).cnt.domainDrop = (w.port p).cnt.domainDrop + 1 := by
  have hrow : timeRow p c f s.sw = domainDropped p c'.domain w := by
    simp [timeRow, hin, timeArrive, htc, hd, domainDropped]
  have hw : Sw.keeps (.ctxs :: consumeParts) s.sw w := keeps_ofPair hin (ingress_keeps (by decide) (.refl _ _))
  refine runsTo_of_lift _ hi ?_ ?_ <;> rw [hrow]
  · exact hw.next (domainDropped_keeps _ _ _) (by decide)
  · exact domainDropped_counts ha _
end Arrive

theorem syncOp_elsewhere {p : Nat} {w : Sw} (h : w.timeParent ≠ some p) (stamp : Int) (c : Cell) : syncOp p stamp c w = w := by
  simp [syncOp, h]
/-- A division that leaves no remainder needs no free value. -/
theorem freeRound_exact {num v : Int} {den : Nat} (hden : den ≠ 0) (h : (den : Int) * v = num) (s : Sw) : freeRound num den s = (v, s) := by
  have hpos : (den : Int) ≠ 0 := Int.natCast_ne_zero.mpr hden
  subst h
  simp [freeRound, Int.mul_ediv_cancel_left v hpos]

section Sync
variable {p : Nat} {stamp : Int} {c : Cell} {w u : Sw} (ht : c.ttype = 0) (hp : w.timeParent = some p)
  (hu : u = w.modSync fun y => { y with t12 := some (stampAt c 0 8, stamp) })
include ht hp hu

theorem syncOp_stamps (hn : w.sync.pairs = []) : syncOp p stamp c w = u := by
  subst hu
  simp [syncOp, ht, hp, hn]
theorem syncOp_measures {v : Int} (hn : w.sync.pairs ≠ [])
    (hv : 2 * w.sync.pairs.length * v = 2 * w.sync.pairs.length * stampDiff stamp (stampAt c 0 8) -
      w.sync.pairs.foldl (· + ·) 0 - w.sync.pairs.length * (w.port p).reg.timeAsym.toInt) :
    syncOp p stamp c w = offsetMeasured v u := by
  subst hu
  have hlen : w.sync.pairs.length ≠ 0 := fun h => hn (List.length_eq_zero_iff.mp h)
  have hden : 2 * w.sync.pairs.length ≠ 0 := by omega
  have hround := freeRound_exact hden ((congrArg (· * v) (Int.natCast_mul 2 _)).trans hv)
    (w.modSync fun y => { y with t12 := some (stampAt c 0 8, stamp) })
  have hport : ((w.modSync fun y => { y with t12 := some (stampAt c 0 8, stamp) }).port p) = w.port p := rfl
  simp [syncOp, ht, hp, hn, hport, hround]
end Sync

theorem delayRespOp_elsewhere {p : Nat} {w : Sw} (h : w.timeParent ≠ some p) (c : Cell) : delayRespOp p c w = w := by
  unfold delayRespOp
  split
  · simp [h]
  · rfl
/-- A DELAY_RESP from the time parent, by its SEQID. -/
theorem delayRespOp_pending {p : Nat} {c : Cell} {w : Sw} {q : Half} {t3 t1 t2 : Int} (ht : c.ttype = 2) (hp : w.timeParent = some p)
    (hr : w.sync.req = some (q, t3)) (h12 : w.sync.t12 = some (t1, t2)) : delayRespOp p c w =
      if c.seqid = q.toNat then w.modSync fun y =>
        { y with req := none, pairs := ((stampDiff t2 t1 + stampDiff (stampAt c 16 24) t3) :: y.pairs).take 16 } else w := by
  by_cases hq : c.seqid = q.toNat <;> simp [delayRespOp, hr, h12, ht, hp, hq]

theorem delayReqTimerOp_none {w : Sw} (h : w.timeParent = none) : delayReqTimerOp w = w := by
  simp [delayReqTimerOp, h]
theorem delayReqTimerOp_sends {w : Sw} {p : Nat} (h : w.timeParent = some p) : delayReqTimerOp w =
    sendCtrl p (timeCell 1 w.time.domain (w.sync.reqSeq.getD p 0) []) (w.modSync fun y => { y with
      reqSeq := y.reqSeq.set p ((w.sync.reqSeq.getD p 0 + 1) % 65536)
      req := some (BitVec.ofNat 16 (w.sync.reqSeq.getD p 0), w.gtc16) }) := by
  simp [delayReqTimerOp, h]

/-- Settles O14: messages, cells and timers by what they leave of the input, the measurements and the candidates; selection by the
source it finds, and an offset by the state it meets. -/
theorem timeSyncRule : Obligations.TimeSyncRule := by
  unfold Obligations.TimeSyncRule
  refine ⟨?input, ?cells, ?select, ?timers, ?offset⟩
  case input =>
    intro s m g fr
    have frame := timingMessageOp_keeps (ps := .sync :: .time :: .freeCtr :: evParts) (msg := m) (mark := g) (frac := fr) (by decide)
      (.refl _ s.sw)
    have syncOnly (f : Sync → Sync) : Sw.keeps [.sync] s.sw (s.sw.modSync f) := modSync_keeps (by decide) (.refl _ _)
    refine ⟨fun hg hv hs => ?_, fun hg hv => ?_, fun hg hb => ?_, fun hg hb => ?_, fun hv => ?_, fun hv => ?_⟩
    · have hf := timingMessageOp_counts g fr hg hv hs
      exact runsTo_of_lift (timingMessageOp m g fr) rfl (hf ▸ syncOnly _) (by rw [hf]; rfl)
    · have hf := timingMessageOp_input g fr hg hv
      simp only [Sync.input, Prod.mk.injEq] at hf
      obtain ⟨hvalid, -, hlast⟩ := hf
      exact runsTo_of_lift (timingMessageOp m g fr) rfl frame ⟨hlast, hvalid⟩
    · have hf := timingMessageOp_bad g fr hg hb
      exact runsTo_of_lift (timingMessageOp m g fr) rfl (hf ▸ syncOnly _) (by rw [hf]; rfl)
    · exact runsTo_of_lift (timingMessageOp m g fr) rfl frame (timingMessageOp_invalid g fr hg hb)
    · have hf := inputInvalid_ends hv
      simp only [Sync.input, Prod.mk.injEq] at hf
      obtain ⟨hvalid, hgood, -⟩ := hf
      exact runsTo_of_lift inputInvalid rfl (inputInvalid_keeps (by decide) (.refl _ _)) ⟨hvalid, hgood⟩
    · exact stays_of_lift inputInvalid rfl (inputInvalid_stands hv)
  case cells =>
    intro s p c c' g fr w hin htc
    have sync {t : Sw} := becomes_of_timeCell (t := t) (s := s) (i := .syncReceive p c g fr) _ rfl hin htc
    have resp {t : Sw} := becomes_of_timeCell (t := t) (s := s) (i := .delayRespReceive p c g fr) (delayRespOp p) rfl hin htc
    have ann {t : Sw} := becomes_of_timeCell (t := t) (s := s) (i := .announceReceive p c) (announceOp p) rfl hin htc
    refine ⟨fun row hrow hd ha => ?_, fun hd => ⟨fun hp => ⟨sync hd (syncOp_elsewhere hp _ _), resp hd (delayRespOp_elsewhere hp _)⟩,
      fun u ht hp hu => ⟨fun hn => sync hd (syncOp_stamps ht hp hu hn), fun v hn hv => sync hd (syncOp_measures ht hp hu hn hv)⟩,
      fun ht => ?_, fun q t3 t1 t2 ht hp hr h12 => ?_, fun ht hs => ?_, fun ht hs => ?_⟩⟩
    · simp only [List.mem_cons, List.not_mem_nil, or_false] at hrow
      rcases hrow with rfl | rfl | rfl | rfl
      · exact runsTo_of_otherDomain (syncOp p _) rfl hin htc hd ha
      · exact runsTo_of_otherDomain (delayReqOp p g fr) rfl hin htc hd ha
      · exact runsTo_of_otherDomain (delayRespOp p) rfl hin htc hd ha
      · exact runsTo_of_otherDomain (announceOp p) rfl hin htc hd ha
    · exact becomes_of_timeCell (delayReqOp p g fr) rfl hin htc hd (by simp [delayReqOp, ht])
    · have hf := delayRespOp_pending ht hp hr h12
      exact ⟨fun hq => resp hd (hf.trans (if_pos hq)), fun hq => resp hd (hf.trans (if_neg hq))⟩
    · exact ann hd (by simp [announceOp, hs])
    · exact ann hd (by simp [announceOp, ht, hs])
  case select =>
    intro w k old
    refine ⟨reselect_stands k old, fun h => ?_⟩
    obtain ⟨hold, hy⟩ := reselect_sync k old h
    refine ⟨by rw [hy]; rfl, reselect_keeps (by decide) (.refl _ _), fun hs => ?_, fun hs hst => ?_, fun hs hst => ?_⟩ <;>
      simp [Sync.restart, SyncSt.toward, *]
  case timers =>
    intro s p v
    obtain ⟨hkeeps, hends⟩ := writeSource_selects v s.sw
    refine ⟨fun h => ?_, fun h => ?_, runsTo_of_lift (writeSource v) rfl hkeeps hends,
      fun h => stays_of_lift _ rfl (delayReqTimerOp_none h), fun h => becomes_of_lift _ rfl (delayReqTimerOp_sends h),
      runsTo_of_lift _ rfl (modSync_keeps (by decide) (.refl _ _)) rfl, fun h => ?_, fun h => ?_⟩
    · exact stays_of_lift (fun w => if w.sync.ann.mem p then dropAnnounce p 2 w else w) rfl (if_neg (by simp [h]))
    · exact becomes_of_lift (fun w => if w.sync.ann.mem p then dropAnnounce p 2 w else w) rfl (if_pos h)
    · exact becomes_of_lift holdoverOp rfl (if_pos (by simp [h]))
    · exact stays_of_lift holdoverOp rfl (if_neg (by simp [h]))
  case offset =>
    rintro w t v rfl
    refine ⟨offsetMeasured_offset, offsetMeasured_keeps (by decide) (.refl _ _), fun hst hv => ?_, fun hst hv => ?_, offsetMeasured_slews, fun hst hv => ?_⟩
    · obtain ⟨hgtc, hsync, hsteps⟩ := offsetMeasured_steps hst hv
      exact ⟨hgtc, by rw [hsync], hsteps⟩
    · obtain ⟨hslew, hsync⟩ := offsetMeasured_counts hst hv
      by_cases hg : w.sync.good = 15 <;> simp [hslew, hsync, hg, hst]
    · obtain ⟨hslew, hsync⟩ := offsetMeasured_misses hst hv
      by_cases hb : w.sync.bad = 3 <;> simp [hslew, hsync, hb]
end Sys2Proof.Machine
end

section
/-! PROOFS. Stores of contexts: what is attached, loaded, read, gathered and unpinned (O16). -/
namespace Sys2Proof.Machine

/-! ### Contexts, stores and shards after a change -/

theorem modCtx_ctx? (x : Nat) (f : Ctx → Ctx) (s : Sw) : (s.modCtx x f).ctx? x = (s.ctx? x).map f := by
  cases hc : s.ctx? x with
  | none => simp [Sw.modCtx, hc]
  | some c => simp [modCtx_of_ctx hc]
theorem store?_of_ctx {w : Sw} {x : Nat} {c : Ctx} (h : w.ctx? x = some c) : w.store? x = c.store := by simp [Sw.store?, h]
theorem store?_of_keeps {ps : List Piece} {a b : Sw} (h : Sw.keeps ps a b) (hc : Piece.ctxs ∉ ps) (x : Nat) :
    b.store? x = a.store? x := congrArg (Option.bind · Ctx.store) (ctx?_of_keeps h hc x)
theorem raiseCtx_store? (x code : Nat) (content : List Byte) (s : Sw) (y : Nat) :
    (raiseCtx x code content s).store? y = s.store? y :=
  store?_of_keeps (raiseCtx_keeps (ps := evParts) (by decide) (.refl _ s)) (by decide) y
theorem modStore_store? (x : Nat) (f : Store → Store) (s : Sw) : (s.modStore x f).store? x = (s.store? x).map f := by
  rw [Sw.store?, Sw.modStore, modCtx_ctx?, Sw.store?]
  cases s.ctx? x <;> rfl
theorem modShard_shard? (x k : Nat) (f : Shard → Shard) (s : Sw) : (s.modShard x k f).shard? x k = (s.shard? x k).map f := by
  rw [Sw.shard?, Sw.modShard, modStore_store?, Sw.shard?]
  cases s.store? x with
  | none => rfl
  | some d => exact SMap.find?_adjust_same k f d.shards

/-! ### STORE_CREATE and STORE_DESTROY (06 R199, R202) -/

/-- A job without a limit is refused nothing (11 R374). -/
theorem limitRefuses_unlimited {s : Sw} {j : Nat} (h : s.pool.jobLimit.getD j 0 = 0) (c at_ count : Nat) :
    limitRefuses s c at_ count j = false := by simp [limitRefuses, h]
theorem spaceLimit_unlimited {cfg : CtxCfg} {s : Sw} (h : s.pool.jobLimit.getD cfg.job 0 = 0) (t : Store) (es : List (Nat × ShardEnt)) :
    spaceLimit cfg t es s = s := by simp [spaceLimit, limitEvent, limitRefuses_unlimited h]

/-- A STORE_CREATE without RECOVER by the owner of the context c stands, but for the store that c may have and for the space. -/
structure StoreCreateStands (b : Sub) (c : Ctx) (w : Sw) : Prop where
  ctx : w.ctx? b.ctx = some c
  form : storeBad b = false
  fresh : b.flag 15 1 = false
  active : c.closing = false
  shards : c.canopy.shards ≠ []
  class0 : c.cfg.cls = 0
  owner : w.owns b.func c.cfg.job = true
  limit : w.pool.jobLimit.getD c.cfg.job 0 = 0
  tier1 : (createStore b c.canopy).splace.any (fun p => p == 1) = false

section Create
variable {b : Sub} {c : Ctx} {w : Sw} (h : StoreCreateStands b c w) (t : Tok)
include h

theorem storeCreateOp_attached (hs : c.store ≠ none) : storeCreateOp b t w = complete t stDenied w := by
  obtain ⟨hc, hform, hfresh, hact, hsh, hcls, -, -, -⟩ := h
  simp only [storeCreateOp, hc, hfresh, Bool.false_and]
  refine guardDesc_fails ?_ _ _ _
  simp [firstFail, hform, hact, hsh, hcls, Option.isSome_iff_ne_none.mpr hs]
/-- Without a store the space alone decides. -/
theorem storeCreateOp_fits (hs : c.store = none) : storeCreateOp b t w =
    (attachStore b.ctx c false (createStore b c.canopy) w).elim (complete t stNoRes w) fun u => settle b.ctx (complete t stOk u) := by
  obtain ⟨hc, hform, hfresh, hact, hsh, hcls, hown, hlim, ht1⟩ := h
  simp only [storeCreateOp, hc, hfresh, Bool.false_and]
  refine (guardDesc_passes ?_ _ _ _).trans ?_
  · simp [firstFail, hform, hact, hsh, hcls, hs, notOwner_of_ctx hc, hown]
  -- without RECOVER a store that a warm reset recovered plays no part
  cases SMap.find? b.ctx w.rcv.stores
  all_goals
    simp only [Bool.false_eq_true, if_false, ht1, Bool.false_and, Bool.false_or, spaceLimit_unlimited hlim]
    cases ha : attachStore b.ctx c false (createStore b c.canopy) w with
    | none => exact guardDesc_fails rfl ..
    | some u => exact (guardDesc_passes rfl ..).trans (by simp [ha])
theorem storeCreateOp_full (hs : c.store = none) (ha : attachStore b.ctx c false (createStore b c.canopy) w = none) :
    storeCreateOp b t w = complete t stNoRes w := by rw [storeCreateOp_fits h t hs, ha, Option.elim_none]
theorem storeCreateOp_attaches {u : Sw} (hs : c.store = none) (ha : attachStore b.ctx c false (createStore b c.canopy) w = some u) :
    storeCreateOp b t w = settle b.ctx (complete t stOk u) := by rw [storeCreateOp_fits h t hs, ha, Option.elim_some]
end Create

/-- What a store is from its STORE_CREATE on, whatever its shards hold. -/
def Store.params (t : Store) : Bool × List Nat × List Nat × List (Nat × Nat) × Nat := (t.m64, t.sfmt, t.splace, t.ranges, t.lsn)
theorem attachStore_params {x : Nat} {c c' : Ctx} {t : Store} {w u : Sw} (hc : w.ctx? x = some c') (h : attachStore x c false t w = some u) :
    (u.store? x).map Store.params = some t.params := by
  obtain ⟨⟨m, v⟩, hv, rfl⟩ := Option.map_eq_some_iff.mp h
  have hcv := (ctx?_of_keeps (takeShards_keeps (ps := [.evqs, .msix, .cxl, .pool, .outs]) hv (by decide) (.refl _ w)) (by decide) x).trans hc
  simp only [Bool.false_eq_true, if_false, raiseCtx_store?]
  rw [Sw.store?, modCtx_ctx?, hcv]
  rfl

section Destroy
variable {b : Sub} {w : Sw} (t : Tok)

theorem storeDestroyOp_none (hs : w.store? b.ctx = none) : storeDestroyOp b t w = complete t stBad w := by
  simp only [storeDestroyOp, hs]
  cases w.ctx? b.ctx <;> rfl

variable {c : Ctx} {d : Store} (ho : b.only [lctx] = true) (hc : w.ctx? b.ctx = some c) (hd : c.store = some d)
include ho hc hd

theorem storeDestroyOp_busy (hbusy : (d.shards.any fun e => d.anyPinned e.1 || e.2.st == .updating || e.2.st == .waitPin) = true ∨
    c.reshard ≠ none) : storeDestroyOp b t w = complete t stDenied w := by
  simp only [storeDestroyOp, hc, store?_of_ctx hc, hd]
  refine guardDesc_fails ?_ _ _ _
  obtain hbusy | hre := hbusy
  · simp only [firstFail, ho, hbusy, Bool.or_true, Bool.true_or, Bool.not_true, Bool.false_eq_true, if_false, if_true]
  · simp [firstFail, ho, Option.isSome_iff_ne_none.mpr hre]
theorem storeDestroyOp_idle (hown : w.owns b.func c.cfg.job = true)
    (hidle : (d.shards.any fun e => d.anyPinned e.1 || e.2.st == .updating || e.2.st == .waitPin) = false) (hre : c.reshard = none)
    (hopen : c.anyOpen = false) : storeDestroyOp b t w = settle b.ctx (complete t stOk (destroyStore b.ctx w)) := by
  have hops : c.ops.any (fun e => e.2.isOpen && (c.storeReduction e.2.blk || c.storeGather e.2.blk)) = false := by
    refine List.any_eq_false.mpr fun e he => ?_
    simp [Bool.eq_false_iff.mpr (List.any_eq_false.mp hopen e he)]
  simp only [storeDestroyOp, hc, store?_of_ctx hc, hd]
  refine guardDesc_passes ?_ _ _ _
  simp only [firstFail, ho, notOwner_of_ctx hc, hown, hops, hidle, hre]
  rfl
end Destroy

theorem modCtx_store?_none {f : Ctx → Ctx} (hf : ∀ c, (f c).store = none) (x : Nat) (s : Sw) : (s.modCtx x f).store? x = none := by
  rw [Sw.store?, modCtx_ctx?]
  cases s.ctx? x with
  | none => rfl
  | some c => exact hf c
theorem destroyStore_none (x : Nat) (w : Sw) : (destroyStore x w).store? x = none := by
  cases hs : w.store? x with
  | none => simp only [destroyStore, hs]
  | some d =>
    simp only [destroyStore, hs]
    exact modCtx_store?_none (fun _ => rfl) x _

/-! ### STORE_LOAD and STORE_READ (06 R202, R207, R209) -/

/-- Shard k of the store d of context c, as h, is held under entry e, and the owner of c names the range of array `arr` in it. -/
structure RangeStands (b : Sub) (c : Ctx) (d : Store) (e : ShardEnt) (h : Shard) (w : Sw) : Prop where
  ctx : w.ctx? b.ctx = some c
  store : c.store = some d
  entry : c.canopy.shard (b.f 12 4) = some e
  shard : SMap.find? (b.f 12 4) d.shards = some h
  range : rangeBad d e (b.f 10 1) (b.f 32 8) (b.f 40 4) = false
  owner : w.owns b.func c.cfg.job = true

/-- The load bank of shard h is emptied and takes the descriptor's bytes. -/
def loadShard (b : Sub) (d : Store) (h : Shard) (w : Sw) : Sw :=
  w.modShard b.ctx (b.f 12 4) (fun h' => (h'.setBank h.loadBank fun b => { b with ver := none, prevVer := none }).loadBytes d h.loadBank (b.f 10 1)
    (b.f 32 8 / fmtBytes (d.fmt (b.f 10 1))) (b.host.take (b.f 40 4)))
/-- The loaded bank of shard h is committed at the descriptor's version. -/
def loadCommits (b : Sub) (h : Shard) (w : Sw) : Sw :=
  migDecide b.ctx (b.f 12 4) (commitRecord b.ctx (b.f 12 4) 1 h.loadBank (h.st != .empty) (b.f 16 4) 0 (0, 0)
    (w.modShard b.ctx (b.f 12 4) (Shard.loadCommit (b.f 16 4))))

section Load
variable {b : Sub} {c : Ctx} {d : Store} {e : ShardEnt} {h : Shard} {w : Sw} (hs : RangeStands b c d e h w) (t : Tok)
  (ho : b.only [lctx, by_ 10 1, bi_ 11 0 1, by_ 12 8, by_ 24 16, by_ 40 4] = true)
include hs ho

theorem storeLoadOp_busy (hcm : b.flag 11 0 = false) (hbusy : h.st = .updating ∨ h.st = .waitPin) :
    storeLoadOp b t w = complete t stDenied w := by
  obtain ⟨hc, hd, he, hh, hr, -⟩ := hs
  simp only [storeLoadOp, hc, store?_of_ctx hc, hd, he, hh, Option.getD_some]
  refine guardDesc_fails ?_ _ _ _
  obtain hst | hst := hbusy
  · simp [firstFail, ho, hr, hcm, hst]
  · simp [firstFail, ho, hr, hcm, hst]
theorem storeLoadOp_loads (hhost : b.hostErr = none) (hrole : e.srole ≠ 0)
    (hst : (h.st = .ready ∧ h.bankPinned h.other = false) ∨ h.st = .empty) (hv : b.flag 11 0 = true → b.f 16 4 ≠ 0) :
    storeLoadOp b t w = settle b.ctx (complete t stOk
      (if b.flag 11 0 then loadCommits b h (loadShard b d h w) else loadShard b d h w)) := by
  obtain ⟨hc, hd, he, hh, hr, hown⟩ := hs
  have hmem : d.shards.mem (b.f 12 4) = true := by simp [SMap.mem, hh]
  have hver : (b.flag 11 0 && b.f 16 4 == 0) = false := by simpa using hv
  simp only [storeLoadOp, hc, store?_of_ctx hc, hd, he, hh, Option.getD_some]
  refine (guardDesc_passes ?_ _ _ _).trans ((hostGuard_good hhost ..).trans ?_)
  · obtain ⟨hst, hpin⟩ | hst := hst
    · simp [firstFail, ho, hr, hver, notOwner_of_ctx hc, hown, hrole, hmem, hst, hpin]
    · simp [firstFail, ho, hr, hver, notOwner_of_ctx hc, hown, hrole, hmem, hst]
  · cases b.flag 11 0 <;> rfl
end Load

section Read
variable {b : Sub} {c : Ctx} {d : Store} {e : ShardEnt} {h : Shard} {w : Sw} {v : Nat} (hs : RangeStands b c d e h w) (t : Tok)
  (ho : b.only [lctx, by_ 10 1, by_ 12 8, by_ 24 16, by_ 40 4] = true)
  (hv : if b.f 16 4 = 0 then h.version = some v else b.f 16 4 = v)
include hs ho hv

/-- STORE_READ of version v: held, its elements are written to the host; else it is GONE. -/
theorem storeReadOp_version (held : Bool) (hheld : (if b.f 10 1 = 0 then d.holdsVersion (b.f 12 4) v else (h.bankOf v).isSome) = held) :
    storeReadOp b t w =
      if held then hostGuard b t (fun s => complete t stOk (hostWrite t (b.q 24)
        ((span (b.f 32 8 / fmtBytes (d.fmt (b.f 10 1))) (b.f 40 4 / fmtBytes (d.fmt (b.f 10 1)))).map fun i =>
          le (fmtBytes (d.fmt (b.f 10 1))) (rawElem (d.fmt (b.f 10 1)) (readElem d h b.ctx (b.f 12 4) v (b.f 10 1) i))).flatten s)) w
      else complete t stGone (goneEvent b.ctx (b.f 12 4) t.tag.toNat (b.f 16 4) w) := by
  obtain ⟨hc, hd, he, hh, hr, hown⟩ := hs
  have hver : (if b.f 16 4 = 0 then h.version else some (b.f 16 4)) = some v := by
    split at hv
    · rwa [if_pos ‹_›]
    · rw [if_neg ‹_›, hv]
  simp only [storeReadOp, hc, store?_of_ctx hc, hd, he, hh, Option.getD_some, hver]
  refine (guardDesc_passes ?_ _ _ _).trans ?_
  · simp [firstFail, ho, hr, notOwner_of_ctx hc, hown]
  · cases held <;> simp [Option.filter, hheld]
theorem storeReadOp_held (hheld : (if b.f 10 1 = 0 then d.holdsVersion (b.f 12 4) v else (h.bankOf v).isSome) = true) (hhost : b.hostErr = none) :
    storeReadOp b t w = complete t stOk (hostWrite t (b.q 24)
      ((span (b.f 32 8 / fmtBytes (d.fmt (b.f 10 1))) (b.f 40 4 / fmtBytes (d.fmt (b.f 10 1)))).map fun i =>
        le (fmtBytes (d.fmt (b.f 10 1))) (rawElem (d.fmt (b.f 10 1)) (readElem d h b.ctx (b.f 12 4) v (b.f 10 1) i))).flatten w) := by
  rw [storeReadOp_version hs t ho hv true hheld, if_pos rfl, hostGuard_good hhost]
theorem storeReadOp_gone (hheld : (if b.f 10 1 = 0 then d.holdsVersion (b.f 12 4) v else (h.bankOf v).isSome) = false) :
    storeReadOp b t w = complete t stGone (goneEvent b.ctx (b.f 12 4) t.tag.toNat (b.f 16 4) w) := by
  rw [storeReadOp_version hs t ho hv false hheld, if_neg Bool.false_ne_true]
end Read
theorem holdsVersion_of_bank {d : Store} {k v : Nat} {h : Shard} (hh : SMap.find? k d.shards = some h) (hb : (h.bankOf v).isSome = true) :
    d.holdsVersion k v = true := by simp [Store.holdsVersion, hh, hb]

/-! ### STORE_GATHER (06 R208, R211, R212) -/

/-- A STORE_GATHER of the owner, within the window, for an operation that has neither opened nor been named before, is acted on. -/
theorem gatherChecks_pass {b : Sub} {c : Ctx} {w : Sw} (hc : w.ctx? b.ctx = some c) (ho : b.only [lctx, bi_ 10 0 3, by_ 12 16] = true)
    (hlo : c.windowBase ≤ b.f 12 4) (hhi : b.f 12 4 < c.windowBase + 32) (hown : w.owns b.func c.cfg.job = true) {owned : Bool} :
    firstFail [(!b.only [lctx, bi_ 10 0 3, by_ 12 16] || decide (b.f 12 4 < c.windowBase) || decide (c.windowBase + 32 ≤ b.f 12 4) || false, stBad),
      (owned && (false || false) || w.notOwner b b.ctx, stDenied)] = none := by
  simp [firstFail, ho, Nat.not_lt.mpr hlo, Nat.not_le.mpr hhi, notOwner_of_ctx hc, hown]

section Gather
variable {b : Sub} {c : Ctx} {d : Store} {w : Sw} (t : Tok) (hc : w.ctx? b.ctx = some c) (hd : c.store = some d)
include hc hd

theorem storeGatherOp_outside (hw : b.f 12 4 < c.windowBase ∨ c.windowBase + 32 ≤ b.f 12 4) :
    storeGatherOp b t w = complete t stBad w := by
  simp only [storeGatherOp, hc, store?_of_ctx hc, hd]
  refine guardDesc_fails ?_ _ _ _
  obtain hw | hw := hw
  · simp [firstFail, hw]
  · simp [firstFail, hw]

variable (ho : b.only [lctx, bi_ 10 0 3, by_ 12 16] = true) (hlo : c.windowBase ≤ b.f 12 4) (hhi : b.f 12 4 < c.windowBase + 32)
  (hop : SMap.find? (b.f 12 4) c.ops = none) (hg : SMap.find? (b.f 12 4) c.gathers = none) (hown : w.owns b.func c.cfg.job = true)
include ho hlo hhi hop hg hown

theorem storeGatherOp_unowned (hnone : ownedIn c (b.f 20 4) (b.f 24 4) = []) :
    storeGatherOp b t w = settle b.ctx (completeR t stOk 0 w) := by
  have hcheck : rangeCheck b.ctx (b.f 12 4) (b.f 20 4) (b.f 24 4) w = w := by simp [rangeCheck, op?_of_ctx hc, hop]
  simp only [storeGatherOp, hc, store?_of_ctx hc, hd, hop, hg, hnone]
  refine (guardDesc_passes (gatherChecks_pass hc ho hlo hhi hown) _ _ _).trans ?_
  simp [hcheck]

variable {k : Nat} {e : ShardEnt} (hone : ownedIn c (b.f 20 4) (b.f 24 4) = [(k, e)])
include hone

theorem storeGatherOp_gone (hv : gatherVersion d k (b.f 16 4) = none) :
    storeGatherOp b t w = settle b.ctx (complete t stGone (goneEvent b.ctx k (b.f 12 4) (b.f 16 4)
      (noteGather b.ctx (b.f 12 4) { resolved := [], unpin := false, first := b.f 20 4, count := b.f 24 4, gone := true } w))) := by
  simp only [storeGatherOp, hc, store?_of_ctx hc, hd, hop, hg, hone]
  refine (guardDesc_passes (gatherChecks_pass hc ho hlo hhi hown) _ _ _).trans ?_
  simp [hv]
/-- Of one owned shard the lowest and the highest version are the one resolved. -/
theorem storeGatherOp_pins {v : Nat} (hv : gatherVersion d k (b.f 16 4) = some v) (hp : (d.pinOf k v).1 < 65535)
    (hh : (d.pinOf k v).2 < 65535) (hkeep : b.flag 10 2 = false) :
    storeGatherOp b t w = settle b.ctx (completeR t stOk (BitVec.ofNat 64 (v + v * 2 ^ 32))
      (noteGather b.ctx (b.f 12 4) { resolved := [(k, v)], unpin := b.flag 10 1, first := b.f 20 4, count := b.f 24 4 }
        (w.modStore b.ctx (Store.addPin k v 1 (b2n (b.flag 10 0)))))) := by
  simp only [storeGatherOp, hc, store?_of_ctx hc, hd, hop, hg, hone]
  refine (guardDesc_passes (gatherChecks_pass hc ho hlo hhi hown) _ _ _).trans ?_
  have hroom : (decide (65535 < (d.pinOf k v).1 + 1) || (b.flag 10 0 && decide (65535 < (d.pinOf k v).2 + 1))) = false := by
    rw [decide_eq_false (Nat.not_lt.mpr hp), decide_eq_false (Nat.not_lt.mpr hh), Bool.and_false, Bool.or_false]
  simp only [List.map_cons, List.map_nil, hv, List.find?_cons, List.find?_nil, Option.isNone_some, List.filterMap_cons, List.filterMap_nil,
    Option.map_some, List.any_cons, List.any_nil, hroom, Bool.or_false, Bool.false_eq_true, if_false, List.isEmpty_cons, hkeep, takePins, each,
    List.foldl_cons, List.foldl_nil, SMap.vals, minOf, Option.getD_some, Nat.zero_max]
end Gather

theorem pin_setPin (h : Shard) (v : Nat) (p : Nat × Nat) : (h.setPin v p).pin v = p := by
  simp only [Shard.setPin, Shard.pin]
  split
  · next hz => simp [SMap.getD, eq_of_beq hz]
  · exact SMap.getD_set_same ..
theorem pinOf_addPin {d : Store} {k v : Nat} {h : Shard} (hh : SMap.find? k d.shards = some h) (hb : (h.bankOf v).isSome = true)
    (op held : Nat) : (d.addPin k v op held).pinOf k v = ((d.pinOf k v).1 + op, (d.pinOf k v).2 + held) := by
  have hin : d.inBank k v = true := by simp [Store.inBank, hh, hb]
  have hent : (d.addPin k v op held).entryOf k v = d.entryOf k v := by rw [Store.addPin, if_pos hin]; rfl
  have hsh : SMap.find? k (d.addPin k v op held).shards = some (h.setPin v ((h.pin v).1 + op, (h.pin v).2 + held)) := by
    rw [Store.addPin, if_pos hin, Store.modShard, SMap.find?_adjust_same, hh]
    rfl
  simp only [Store.pinOf, hent, hsh, hh, pin_setPin]
  ext <;> dsimp only <;> omega

/-! ### STORE_UNPIN and STORE_LOG_READ (06 R202, R208, R220) -/

section Unpin
variable {b : Sub} {c : Ctx} {d : Store} {w : Sw} (t : Tok) (hc : w.ctx? b.ctx = some c) (hd : c.store = some d)
  (hown : w.owns b.func c.cfg.job = true)
include hc hd hown

theorem storeUnpinOp_one {k : Nat} {e : ShardEnt} (ho : b.only [lctx, by_ 12 12] = true) (hk : d.shards.keys = [k])
    (he : c.canopy.shard k = some e) (hlo : e.first < b.f 12 4 + b.f 20 4) (hhi : b.f 12 4 < e.first + e.count) :
    storeUnpinOp b t w = settle b.ctx (complete t stOk (w.modStore b.ctx (Store.subPin k (b.f 16 4) 0 1))) := by
  simp only [storeUnpinOp, hc, store?_of_ctx hc, hd, hk]
  refine (guardDesc_passes ?_ _ _ _).trans ?_
  · simp [firstFail, ho, notOwner_of_ctx hc, hown]
  · simp [each, he, hlo, hhi]

variable (ho : b.only [lctx, by_ 24 8, by_ 40 4] = true)
include ho

theorem storeLogReadOp_short (hlen : b.f 40 4 < 128 * (heldEntries c.canopy.shards).length) :
    storeLogReadOp b t w = complete t stNoRes w := by
  simp only [storeLogReadOp, hc, store?_of_ctx hc, hd]
  refine guardDesc_fails ?_ _ _ _
  simp [firstFail, ho, notOwner_of_ctx hc, hown, hlen]
theorem storeLogReadOp_one {k : Nat} {e : ShardEnt} {h : Shard} {r1 r2 : CommitRec} (hone : heldEntries c.canopy.shards = [(k, e)])
    (hh : SMap.find? k d.shards = some h) (hrec : h.recs = (some r1, some r2)) (hlen : 128 ≤ b.f 40 4) (hhost : b.hostErr = none) :
    storeLogReadOp b t w = complete t stOk (hostWrite t (b.q 24) (r1.bytes k ++ r2.bytes k) w) := by
  simp only [storeLogReadOp, hc, store?_of_ctx hc, hd, hone]
  refine (guardDesc_passes ?_ _ _ _).trans ((hostGuard_good hhost ..).trans ?_)
  · simp [firstFail, ho, notOwner_of_ctx hc, hown, hlen]
  · simp [hh, hrec, recPlace]
end Unpin

/-- Settles O16: each descriptor passes the header checks, so its row is its operation on the switch after the dispatch, and the
checks that the clause names decide what the operation comes to. -/
theorem storeRule : Obligations.StoreRule := by
  unfold Obligations.StoreRule
  refine ⟨?create, ?attach, ?destroy, fun w x => destroyStore_none x w, ?load, ?read, ?gather, fun _ _ _ op held _ hh hb => pinOf_addPin hh hb op held,
    ?others⟩
  case create =>
    intro s b x c d w hh hx hc hw hd hform hfresh hact hsh hcls hown hlim ht1
    subst hx hw hd
    have hst : StoreCreateStands b c (descSw 0x30 b s.sw) := ⟨hc, hform, hfresh, hact, hsh, hcls, hown, hlim, ht1⟩
    have creates {u : Sw} : storeCreateOp b (descTok 0x30 b s.sw) (descSw 0x30 b s.sw) = u → becomes (.storeCreate b) s u :=
      becomes_of_desc storeCreateOp rfl hh
    exact ⟨fun hs => creates (storeCreateOp_attached hst _ hs),
      fun hs ha => creates (storeCreateOp_full hst _ hs ha), fun u hs ha => creates (storeCreateOp_attaches hst _ hs ha)⟩
  case attach =>
    intro w u x c t hc ha
    obtain ⟨t', ht', hpar⟩ := Option.map_eq_some_iff.mp (attachStore_params hc ha)
    simp only [Store.params, Prod.mk.injEq] at hpar
    exact ⟨t', ht', hpar⟩
  case destroy =>
    intro s b x hh hx ho
    subst hx
    have destroys {u : Sw} : storeDestroyOp b (descTok 0x31 b s.sw) (descSw 0x31 b s.sw) = u → becomes (.storeDestroy b) s u :=
      becomes_of_desc storeDestroyOp rfl hh
    exact ⟨fun hs => destroys (storeDestroyOp_none _ hs), fun c d hc hd => ⟨fun hbusy => destroys (storeDestroyOp_busy _ ho hc hd hbusy),
      fun hown hidle hre hopen => destroys (storeDestroyOp_idle _ ho hc hd hown hidle hre hopen)⟩⟩
  case load =>
    intro s b x k c d e h w hh hx hk hc hd he hsh _ hw ho hr hhost hown
    subst hx hk hw
    have hst : RangeStands b c d e h (descSw 0x32 b s.sw) := ⟨hc, hd, he, hsh, hr, hown⟩
    have loads {u : Sw} : storeLoadOp b (descTok 0x32 b s.sw) (descSw 0x32 b s.sw) = u → becomes (.storeLoad b) s u :=
      becomes_of_desc storeLoadOp rfl hh
    refine ⟨fun hcm hbusy => loads (storeLoadOp_busy hst _ ho hcm hbusy), fun u hrole hready hu => ?_⟩
    subst hu
    have hload := storeLoadOp_loads hst (descTok 0x32 b s.sw) ho hhost hrole hready
    refine ⟨fun hcm => loads ((hload (by simp [hcm])).trans ?_), fun hcm hv => loads ((hload fun _ => hv).trans ?_)⟩
    all_goals
      rw [hcm]
      rfl
  case read =>
    intro s b x k v c d e h w t hh hx hk hc hd he hsh hw ht ho hr hown hv
    subst hx hk hw ht
    have hst : RangeStands b c d e h (descSw 0x33 b s.sw) := ⟨hc, hd, he, hsh, hr, hown⟩
    have reads {u : Sw} : storeReadOp b (descTok 0x33 b s.sw) (descSw 0x33 b s.sw) = u → becomes (.storeRead b) s u :=
      becomes_of_desc storeReadOp rfl hh
    refine ⟨fun hb hhost => reads (storeReadOp_held hst _ ho hv ?_ hhost), fun harr hno => reads (storeReadOp_gone hst _ ho hv ?_)⟩
    · rw [holdsVersion_of_bank hsh hb, hb, ite_self]
    · rw [if_pos harr, hno]
  case gather =>
    intro s b x o c d w t hh hx ho hw ht hc hd hl
    subst hx ho hw ht
    have gathers {u : Sw} : storeGatherOp b (descTok 0x34 b s.sw) (descSw 0x34 b s.sw) = u → becomes (.storeGather b) s u :=
      becomes_of_desc storeGatherOp rfl hh
    refine ⟨fun hout => gathers (storeGatherOp_outside (w := descSw 0x34 b s.sw) _ hc hd hout), fun g hg hlo hhi hop hno hown => ?_⟩
    subst hg
    exact ⟨fun hnone => gathers (storeGatherOp_unowned (w := descSw 0x34 b s.sw) _ hc hd hl hlo hhi hop hno hown hnone),
      fun k e hone hv => gathers (storeGatherOp_gone (w := descSw 0x34 b s.sw) _ hc hd hl hlo hhi hop hno hown hone hv),
      fun k e v hone hv hp hp' hkeep => gathers (storeGatherOp_pins (w := descSw 0x34 b s.sw) _ hc hd hl hlo hhi hop hno hown hone hv hp hp' hkeep)⟩
  case others =>
    intro s b x c d hx hc hd hown
    subst hx
    have logs {u : Sw} (hh : headerGood 0x37 b s) : storeLogReadOp b (descTok 0x37 b s.sw) (descSw 0x37 b s.sw) = u →
        becomes (.storeLogRead b) s u := becomes_of_desc storeLogReadOp rfl hh
    exact ⟨fun k e hh ho hk he hlo hhi => becomes_of_desc storeUnpinOp rfl hh
        (storeUnpinOp_one (w := descSw 0x35 b s.sw) _ hc hd hown ho hk he hlo hhi),
      fun hh ho => ⟨fun hlen => logs hh (storeLogReadOp_short (w := descSw 0x37 b s.sw) _ hc hd hown ho hlen),
        fun k e h r1 r2 hone hsh hrec hlen hhost => logs hh (storeLogReadOp_one (w := descSw 0x37 b s.sw) _ hc hd hown ho hone hsh hrec hlen hhost)⟩⟩
end Sys2Proof.Machine
end

section
/-! PROOFS. Re-shards and move cells, gradient cells that were FULL, and shards that wait for pins (O17). -/
namespace Sys2Proof.Machine

/-! ### STORE_RESHARD (06 R217) -/

/-- A STORE_RESHARD of the ACTIVE context c, with its own fields alone, the new record read and no limit on its job. -/
structure ReshardRead (b : Sub) (c : Ctx) (r : Canopy) (w : Sw) : Prop where
  record : r = parseCanopy (b.host.take (b.f 40 4))
  host : b.hostErr = none
  ctx : w.ctx? b.ctx = some c
  active : c.closing = false
  layout : b.only [lctx, by_ 12 4, by_ 32 12] = true
  limit : w.pool.jobLimit.getD c.cfg.job 0 = 0
/-- Its E is not 0, and its record is valid and changes shards only. -/
structure ReshardStands (b : Sub) (c : Ctx) (r : Canopy) (w : Sw) : Prop extends ReshardRead b c r w where
  eff : b.f 12 4 ≠ 0
  form : canopyForm b.host (b.f 40 4) = true
  canopy : canopyValid w b.ctx c.cfg.job r = true
  shards : shardsValid w (2 ^ c.cfg.seglenLog2) r = true
  same : reshardDiffers c.canopy r = false
  store : c.store ≠ none

/-- The re-shard of context c to a record, in DRAINING from an instant on. -/
def Ctx.reshardTo (c : Ctx) (eff : Nat) (r : Canopy) (now : Nat) : Reshard :=
  { eff := eff, shards := r.shards, outgoing := ownedOnly c.canopy.shards r.shards,
    incoming := (ownedOnly r.shards c.canopy.shards).map (fun k => (k, ({} : ImgIn))), since := now }

section Reshard
variable {b : Sub} {c : Ctx} {r : Canopy} {w : Sw} (t : Tok)

theorem storeReshardOp_differs (h : ReshardRead b c r w) (hbad : b.f 12 4 = 0 ∨ reshardDiffers c.canopy r = true) :
    storeReshardOp b t w = complete t stBad w := by
  obtain ⟨hr, hhost, hc, hcl, ho, -⟩ := h
  subst hr
  simp only [storeReshardOp, hc, hostGuard_good hhost]
  refine guardDesc_fails ?_ _ _ _
  obtain h0 | hd := hbad
  · simp [firstFail, h0]
  · simp [firstFail, hd]

variable (h : ReshardStands b c r w)
include h

theorem storeReshardOp_late (hlate : c.reshard ≠ none ∨ c.openedFrom (b.f 12 4) = true) : storeReshardOp b t w = complete t stDenied w := by
  obtain ⟨⟨hr, hhost, hc, hcl, ho, -⟩, he, hform, hcan, hsh, hsame, hst⟩ := h
  subst hr
  simp only [storeReshardOp, hc, hostGuard_good hhost]
  refine guardDesc_fails ?_ _ _ _
  obtain hre | hop := hlate
  · simp [firstFail, ho, hcl, he, hform, hcan, hsh, hsame, hst, Option.isSome_iff_ne_none.mpr hre]
  · simp [firstFail, ho, hcl, he, hform, hcan, hsh, hsame, hst, hop]
theorem storeReshardOp_begins {u : Sw} (hre : c.reshard = none) (hop : c.openedFrom (b.f 12 4) = false)
    (hown : w.owns b.func c.cfg.job = true) (htake : takeIncoming b.ctx c r.shards w = some u) :
    storeReshardOp b t w = settle b.ctx (complete t stOk (raiseCtx b.ctx 0x0405 (le 4 (b.f 12 4))
      (u.modCtx b.ctx fun c' => { c' with reshard := some (c.reshardTo (b.f 12 4) r u.now) }))) := by
  obtain ⟨⟨hr, hhost, hc, hcl, ho, hlim⟩, he, hform, hcan, hsh, hsame, hst⟩ := h
  subst hr
  obtain ⟨d, hd⟩ := Option.ne_none_iff_exists'.mp hst
  simp only [storeReshardOp, hc, hostGuard_good hhost]
  refine (guardDesc_passes ?_ _ _ _).trans ?_
  · simp [firstFail, ho, hcl, he, hform, hcan, hsh, hsame, hd, hre, hop, notOwner_of_ctx hc, hown]
  · simp only [hd, spaceLimit_unlimited hlim]
    refine (guardDesc_passes ?_ _ _ _).trans ?_
    · simp [firstFail, htake]
    · simp only [htake]
      rfl
end Reshard

/-! ### The timers of a re-shard (06 R218; 14 R477) -/

section Timers
variable {w : Sw} {x : Nat} {c : Ctx} (hc : w.ctx? x = some c)
include hc

theorem moveStart_none (hn : c.reshard = none) : moveStart x w = w := by simp [moveStart, hc, hn]
theorem drainTimeout_none (hn : c.reshard = none) : drainTimeout x w = w := by simp [drainTimeout, hc, hn]
theorem resendImage_none (hn : c.reshard = none) (k : Nat) : resendImage x k w = w := by simp [resendImage, hc, hn]

variable {r : Reshard} (hr : c.reshard = some r)
include hr

theorem moveStart_waits (hw : r.moving = true ∨ c.windowBase < r.eff ∨ c.waitingShards r ≠ []) : moveStart x w = w := by
  have hw' : (r.moving || decide (c.windowBase < r.eff) || !(c.waitingShards r).isEmpty) = true := by
    simpa [or_assoc] using hw
  simp only [moveStart, hc, hr, hw', if_true]
theorem moveStart_sends {k : Nat} (hm : r.moving = false) (he : r.eff ≤ c.windowBase) (hw : c.waitingShards r = []) (hout : r.outgoing = [k])
    (hin : r.incoming = []) : moveStart x w =
      settle x (moveImage x k (w.setCtx x { c with reshard := some { r with moving := true, since := w.now } })) := by
  simp [moveStart, hc, hr, hm, Nat.not_lt.mpr he, hw, hout, hin, each, SMap.keys]
theorem drainTimeout_told (h : r.moving = true ∨ r.waited = true) : drainTimeout x w = w := by simp [drainTimeout, hc, hr, h]
theorem drainTimeout_tells (hm : r.moving = false) (hw : r.waited = false) : drainTimeout x w =
    raiseCtx x 0x0407 (cList ((c.openBelow r.eff).map (le 4)) ++ cList ((c.waitingShards r).map (le 4)))
      (w.setCtx x { c with reshard := some { r with waited := true } }) := by
  simp [drainTimeout, hc, hr, hm, hw]
theorem resendImage_sends {k : Nat} (hm : r.moving = true) (hk : k ∈ r.outgoing) : resendImage x k w = moveImage x k w := by
  simp [resendImage, hc, hr, hm, hk]
theorem resendImage_stands {k : Nat} (h : r.moving = false ∨ k ∉ r.outgoing) : resendImage x k w = w := by
  obtain hm | hk := h
  · simp [resendImage, hc, hr, hm]
  · simp [resendImage, hc, hr, hk]
end Timers

/-! ### Move cells (06 R218, R219) -/

section Move
variable {w : Sw} {x q : Nat} {m : Cell} {k : Ctx} (hk : w.ctx? x = some k)
include hk

theorem moveOp_idle (h : m.tc ≠ 4 ∨ k.moveOf m = none) : moveOp x q m w = w := by
  simp only [moveOp, hk]
  split
  · rfl
  · next hg =>
    obtain htc | hmv := h
    · simp [htc] at hg
    · simp only [hmv]

/-- A move cell of the canopy's switches, for shard j under the entry `ent` of the table that its kind follows. -/
structure MoveReaches (k : Ctx) (q : Nat) (m : Cell) (kind j e epoch : Nat) (old new : List ShardEnt) (ent : ShardEnt) : Prop where
  cls : m.tc = 4
  member : m.cmember = noMember
  port : k.memberOf q = none
  move : ∃ b, k.moveOf m = some (e, epoch, old, new, b)
  number : j = bytesAt (bytes64 m.pay) 0 2
  names : kind = byteAt (bytes64 m.pay) 2
  known : kind ≤ 2
  reserved : byteAt (bytes64 m.pay) 3 = 0
  entry : (if kind = mkData then new else old)[j]? = some ent

variable {kind j e epoch : Nat} {old new : List ShardEnt} {ent : ShardEnt} (h : MoveReaches k q m kind j e epoch old new ent)
include h

theorem moveOp_onward {up : Nat} (hup : ent.toward = some up) : moveOp x q m w = sendMove x up [m] w := by
  obtain ⟨htc, hcm, hq, ⟨b, hmv⟩, hj, hkind, hle, hres, hent⟩ := h
  subst hj hkind
  simp [moveOp, hk, htc, hcm, hq, hmv, Nat.not_lt.mpr hle, hres, hent, hup]
theorem moveOp_acks (hup : ent.toward = none) (hack : kind ≠ mkData) : moveOp x q m w = settle x (moveAck x j (kind == mkOk) new w) := by
  obtain ⟨htc, hcm, hq, ⟨b, hmv⟩, hj, hkind, hle, hres, hent⟩ := h
  subst hj hkind
  rw [if_neg hack] at hent
  simp [moveOp, hk, htc, hcm, hq, hmv, Nat.not_lt.mpr hle, hres, hent, hup, hack]
end Move

section Ack
variable {w : Sw} {x : Nat} {k : Ctx} {r : Reshard} (hk : w.ctx? x = some k) (hr : k.reshard = some r) (hm : r.moving = true) {j : Nat}
include hk hr hm

omit hm in
theorem moveAck_arrived (hj : j ∉ r.outgoing) (good : Bool) (new : List ShardEnt) : moveAck x j good new w = w := by
  simp [moveAck, hk, hr, hj]
theorem moveAck_bad (hj : j ∈ r.outgoing) (new : List ShardEnt) : moveAck x j false new w = moveImage x j w := by
  simp [moveAck, hk, hr, hm, hj]
/-- A good image of a shard of which nothing stays ends its move. -/
theorem moveAck_leaves (hj : j ∈ r.outgoing) {new : List ShardEnt} {h : Shard} (hh : w.shard? x j = some h)
    (hn : ∀ n, new[j]? = some n → n.srole ≠ 2) : moveAck x j true new w =
      (emptyShard x j (commitRecord x j 4 h.cur false 0 0 (0, 0) w)).modCtx x fun c' => { c' with
        reshard := some { r with outgoing := r.outgoing.filter (· != j), moved := r.moved ++ [j] } } := by
  cases hnew : new[j]? with
  | none => simp [moveAck, hk, hr, hm, hj, hh, hnew]
  | some n => simp [moveAck, hk, hr, hm, hj, hh, hnew, hn n hnew]
end Ack

/-! ### A gradient cell that was FULL (06 R205) -/

section Area
variable {w : Sw} {x o g : Nat}

theorem areaWrite_unknown (hp : w.op? x o = none) : areaWrite x o g w = w := by
  cases hc : w.ctx? x <;> simp [areaWrite, hc, hp]

variable {c : Ctx} {p : Op} (hc : w.ctx? x = some c) (hp : w.op? x o = some p)
include hc hp

theorem areaWrite_stands (h : c.storeReduction p.blk = false ∨ w.gradFull x c p.blk g = true) : areaWrite x o g w = w := by
  obtain h | h := h
  · simp [areaWrite, hc, hp, h]
  · simp [areaWrite, hc, hp, h]
theorem areaWrite_writes (hred : c.storeReduction p.blk = true) (hfree : w.gradFull x c p.blk g = false) {t : Slot}
    (ht : c.slot? o g = some t) (hst : t.sst = 2) (hup : upPort c p.blk g = none) (hop : p.isOpen = true)
    (han : p.segAnchor.mem (segOf c p.blk g) = true) (hov : (t.value (c.mode p) c.cfg.acc64).overflows c.cfg.g = false) {u : Sw}
    (hu : gradWrite x o g (usedAnchor c p (segOf c p.blk g))
      { t.value (c.mode p) c.cfg.acc64 with attempt := c.attemptOf o (segOf c p.blk g) } w = (true, u)) :
    areaWrite x o g w = settle x (commitStore x o (segOf c p.blk g)
      ((u.modCtx x fun c => { c with slots := c.slots.erase (slotKey o g) }).modOp x o fun p => { p with cbits := addSet p.cbits g })) := by
  simp [areaWrite, hc, hp, hred, hfree, ht, hst, hup, hop, han, hov, hu]
end Area

/-! ### WAIT_PIN (06 R209) -/

theorem bank_setBank (h : Shard) (i : Nat) (f : Bank → Bank) : (h.setBank i f).bank i = f (h.bank i) := by
  unfold Shard.setBank Shard.bank
  split <;> simp [*]
theorem cur_setBank (h : Shard) (i : Nat) (f : Bank → Bank) : (h.setBank i f).cur = h.cur := by
  unfold Shard.setBank
  split <;> rfl
theorem beginWrite_shard? {w : Sw} {x k : Nat} {h : Shard} (hh : w.shard? x k = some h) : ∃ h', (beginWrite x k w).shard? x k = some h' ∧
    h'.st = .updating ∧ (h'.bank h.other).ver = none ∧ (h'.bank h.other).prevVer = none ∧ h'.cur = h.cur := by
  refine ⟨_, (modShard_shard? x k _ w).trans (congrArg _ hh), rfl, ?_, ?_, ?_⟩
  · exact congrArg Bank.ver (bank_setBank h h.other _)
  · exact congrArg Bank.prevVer (bank_setBank h h.other _)
  · exact cur_setBank h h.other _
/-- No version of a bank without a pin is pinned. -/
theorem versions_unpinned {h : Shard} {i : Nat} (hp : h.bankPinned i = false) : (h.bank i).versions.filter h.pinned = [] := by
  refine List.filter_eq_nil_iff.mpr fun v hv => ?_
  unfold Shard.bankPinned at hp
  simp only [Bank.versions, List.mem_append, Option.mem_toList] at hv
  obtain hv | hv := hv
  all_goals
    rw [hv] at hp
    simp only [Bool.or_eq_false_iff] at hp
    simp [hp]

section Pin
variable {w : Sw} {x k : Nat} {c : Ctx} {h : Shard} (hc : w.ctx? x = some c) (hh : w.shard? x k = some h)
include hc hh

theorem pinResume_other (hst : h.st ≠ .waitPin) : pinResume x k w = w := by simp [pinResume, hc, hh, hst]

variable (hst : h.st = .waitPin) (hp : h.bankPinned h.other = false)
include hst hp

theorem pinResume_begins (he : c.canopy.shard k = none) : pinResume x k w = beginWrite x k w := by
  simp [pinResume, hc, hh, hst, versions_unpinned hp, he]
/-- Streams of a step may start with the write; contexts stay as it leaves them. -/
theorem pinResume_ctxs (e : ShardEnt) (he : c.canopy.shard k = some e) : (pinResume x k w).ctxs = (beginWrite x k w).ctxs := by
  simp only [pinResume, hc, hh, hst, versions_unpinned hp, he, bne_self_eq_false, Bool.false_eq_true, if_false, List.isEmpty_nil, if_true,
    Bool.not_true]
  split
  · split
    · rfl
    · exact (agStart_keeps (ps := [.tiles]) (by decide) (.refl _ _) .ctxs (by decide)).symm
  · rfl
end Pin

/-- Settles O17: STORE_RESHARD by its checks, the timers by the re-shard that stands, a move cell by the table that its kind
follows, and a shard in WAIT_PIN by the pins of its other bank. -/
theorem moveRule : Obligations.MoveRule := by
  unfold Obligations.MoveRule
  refine ⟨?reshard, ?timers, ?cells, ?area, ?pins, fun w x k h hh => beginWrite_shard? hh⟩
  case reshard =>
    intro s b x c r w hh hhost hx hc hcl hw hr ho hlim
    subst hx hw
    have hrd : ReshardRead b c r (descSw 0x36 b s.sw) := ⟨hr, hhost, hc, hcl, ho, hlim⟩
    have reshards {u : Sw} : storeReshardOp b (descTok 0x36 b s.sw) (descSw 0x36 b s.sw) = u → becomes (.storeReshard b) s u :=
      becomes_of_desc storeReshardOp rfl hh
    refine ⟨fun hbad => reshards (storeReshardOp_differs _ hrd hbad), fun he hform hcan hsh hsame hst => ?_⟩
    have hall : ReshardStands b c r (descSw 0x36 b s.sw) := ⟨hrd, he, hform, hcan, hsh, hsame, hst⟩
    exact ⟨fun hlate => reshards (storeReshardOp_late _ hall hlate),
      fun u hre hop hown htake => reshards (storeReshardOp_begins _ hall hre hop hown htake)⟩
  case timers =>
    intro s x c hc
    refine ⟨fun hn => ⟨stays_of_lift (moveStart x) rfl (moveStart_none hc hn), stays_of_lift (drainTimeout x) rfl (drainTimeout_none hc hn),
        fun k => stays_of_lift (resendImage x k) rfl (resendImage_none hc hn k)⟩, fun r hr => ⟨?_, ?_, ?_, ?_, fun k => ⟨?_, ?_⟩⟩⟩
    · exact fun hw => stays_of_lift (moveStart x) rfl (moveStart_waits hc hr hw)
    · exact fun k hm he hw hout hin => becomes_of_lift (moveStart x) rfl (moveStart_sends hc hr hm he hw hout hin)
    · exact fun h => stays_of_lift (drainTimeout x) rfl (drainTimeout_told hc hr h)
    · exact fun hm hw => becomes_of_lift (drainTimeout x) rfl (drainTimeout_tells hc hr hm hw)
    · exact fun hm hk => becomes_of_lift (resendImage x k) rfl (resendImage_sends hc hr hm hk)
    · exact fun h => stays_of_lift (resendImage x k) rfl (resendImage_stands hc hr h)
  case cells =>
    intro s p x q c m w k ha
    have hk := arrival_ctx ha
    have moves {t : Sw} : moveOp x q m w = t → becomes (.moveCellReceive p c) s t := becomes_of_arrival moveOp rfl ha
    refine ⟨fun hi => moves (moveOp_idle hk hi), fun e epoch old new b j kind ent htc hcm hq hmv hj hkind hres => ⟨?data, ?ack⟩⟩
    case data =>
      intro h0 hent up hup
      exact moves (moveOp_onward hk ⟨htc, hcm, hq, ⟨b, hmv⟩, hj, hkind, by omega, hres, (by rw [if_pos (by exact h0), hent])⟩ hup)
    case ack =>
      intro h12 hent
      have hn0 : kind ≠ mkData := by unfold mkData; omega
      have hreach : MoveReaches k q m kind j e epoch old new ent :=
        ⟨htc, hcm, hq, ⟨b, hmv⟩, hj, hkind, by omega, hres, by rw [if_neg hn0, hent]⟩
      refine ⟨fun up hup => moves (moveOp_onward hk hreach hup), fun r hup hr hm => ?_⟩
      have hack := moveOp_acks hk hreach hup hn0
      refine ⟨fun hj => moves ?_, fun hj h2 => moves ?_, fun h hj h1 hh hnew => moves ?_⟩
      · rw [hack, moveAck_arrived hk hr hj]
      · subst h2
        exact hack.trans (congrArg _ (moveAck_bad hk hr hm hj new))
      · subst h1
        exact hack.trans (congrArg _ (moveAck_leaves hk hr hm hj hh hnew))
  case area =>
    intro s x o g
    refine ⟨fun hp => stays_of_lift (areaWrite x o g) rfl (areaWrite_unknown hp), fun c p hc hp =>
      ⟨fun h => stays_of_lift (areaWrite x o g) rfl (areaWrite_stands hc hp h), fun t u v hred hfree ht hst hup hop han hv hov hu => ?_⟩⟩
    subst hv
    exact becomes_of_lift (areaWrite x o g) rfl (areaWrite_writes hc hp hred hfree ht hst hup hop han hov hu)
  case pins =>
    intro s x k c h hc hh
    exact ⟨fun hst => stays_of_lift (pinResume x k) rfl (pinResume_other hc hh hst),
      fun hst hp he => becomes_of_lift (pinResume x k) rfl (pinResume_begins hc hh hst hp he),
      fun e hst hp he => ⟨_, becomes_of_lift (pinResume x k) rfl rfl, pinResume_ctxs hc hh hst hp e he⟩⟩
end Sys2Proof.Machine
end

section
/-! PROOFS. Kernels, layer records, update steps, the prune form and the activation policy as their descriptors set them (O18). -/
namespace Sys2Proof.Machine

/-! Dispatch loads no kernel and begins no step. -/

@[simp] theorem descSw_jobOfFunc (code : Nat) (b : Sub) (s : Sw) (func : Nat) : (descSw code b s).jobOfFunc func = s.jobOfFunc func := by
  simp only [Sw.jobOfFunc, descSw_owns]
@[simp] theorem descSw_stepUses (code : Nat) (b : Sub) (s : Sw) (kid : Nat) : (descSw code b s).stepUses kid = s.stepUses kid := by
  simp only [Sw.stepUses, descSw_ctxs]
@[simp] theorem descSw_layerUses (code : Nat) (b : Sub) (s : Sw) (kid : Nat) : (descSw code b s).layerUses kid = s.layerUses kid := by
  simp only [Sw.layerUses, descSw_ctxs]
@[simp] theorem descSw_kernelForeign (code : Nat) (b : Sub) (s : Sw) (func kid : Nat) :
    (descSw code b s).kernelForeign func kid = s.kernelForeign func kid := rfl

/-! ### KERNEL_LOAD and KERNEL_FREE (07 R232, R233) -/

section Kernels
variable {b : Sub} {w : Sw} (t : Tok)

section Load
variable {j : Nat} (ho : b.only [by_ 8 1, bi_ 10 0 1, by_ 11 2, by_ 24 8] = true) (hpre : b.f 11 1 ≤ 64) (hmain : b.f 12 1 ≠ 0)
  (hlen : b.f 11 1 + b.f 12 1 ≤ 128) (halign : b.f 24 8 % 64 = 0) (hj : w.jobOfFunc b.func = some j)
include ho hpre hmain hlen halign hj

/-- A KERNEL_LOAD of a good form judges the kernel it reads, then the entry it names. -/
theorem kernelLoadOp_reads : kernelLoadOp b t w = hostGuard b t (guardDesc t [(!(loadKernel b j).valid, stBad),
    (w.kernelForeign b.func (b.f 8 1) || w.stepUses (b.f 8 1), stDenied)]
    (fun s => complete t stOk (s.modKernels (SMap.set (b.f 8 1) (loadKernel b j))))) w := by
  simp only [kernelLoadOp, hj, Option.getD_some, Option.isNone_some, Bool.false_or]
  refine guardDesc_passes ?_ _ _ _
  simp [firstFail, ho, Nat.not_lt.mpr hpre, hmain, Nat.not_lt.mpr hlen, halign]
theorem kernelLoadOp_unread {a : Quad} (hhost : b.hostErr = some a) : kernelLoadOp b t w = hostFail t a w := by
  rw [kernelLoadOp_reads t ho hpre hmain hlen halign hj, hostGuard, hhost]

variable (hhost : b.hostErr = none)
include hhost

theorem kernelLoadOp_invalid (hv : (loadKernel b j).valid = false) : kernelLoadOp b t w = complete t stBad w := by
  rw [kernelLoadOp_reads t ho hpre hmain hlen halign hj, hostGuard_good hhost]
  refine guardDesc_fails ?_ _ _ _
  simp [firstFail, hv]
theorem kernelLoadOp_used (hv : (loadKernel b j).valid = true) (hu : w.stepUses (b.f 8 1) = true) :
    kernelLoadOp b t w = complete t stDenied w := by
  rw [kernelLoadOp_reads t ho hpre hmain hlen halign hj, hostGuard_good hhost]
  refine guardDesc_fails ?_ _ _ _
  simp [firstFail, hv, hu]
theorem kernelLoadOp_stores (hv : (loadKernel b j).valid = true) (hu : w.stepUses (b.f 8 1) = false)
    (hf : w.kernelForeign b.func (b.f 8 1) = false) :
    kernelLoadOp b t w = complete t stOk (w.modKernels (SMap.set (b.f 8 1) (loadKernel b j))) := by
  rw [kernelLoadOp_reads t ho hpre hmain hlen halign hj, hostGuard_good hhost]
  refine guardDesc_passes ?_ _ _ _
  simp [firstFail, hv, hu, hf]
end Load

variable (ho : b.only [by_ 8 1] = true)
include ho

theorem kernelFreeOp_used (h : w.layerUses (b.f 8 1) = true ∨ w.stepUses (b.f 8 1) = true ∨ w.kernelForeign b.func (b.f 8 1) = true) :
    kernelFreeOp b t w = complete t stDenied w := by
  unfold kernelFreeOp
  refine guardDesc_fails ?_ _ _ _
  obtain h | h | h := h
  all_goals simp [firstFail, ho, h]
theorem kernelFreeOp_frees (hl : w.layerUses (b.f 8 1) = false) (hs : w.stepUses (b.f 8 1) = false)
    (hf : w.kernelForeign b.func (b.f 8 1) = false) :
    kernelFreeOp b t w = complete t stOk (w.modKernels (SMap.erase (b.f 8 1))) := by
  unfold kernelFreeOp
  refine guardDesc_passes ?_ _ _ _
  simp [firstFail, ho, hl, hs, hf]
end Kernels

/-! ### LAYER_CONFIG (07 R233, R235) -/

/-- A descriptor of the owner of context c, which holds the store d. -/
structure StoreOwned (b : Sub) (c : Ctx) (d : Store) (w : Sw) : Prop where
  ctx : w.ctx? b.ctx = some c
  store : c.store = some d
  owner : w.owns b.func c.cfg.job = true

section Layer
variable {b : Sub} {c : Ctx} {d : Store} {w : Sw} (t : Tok) (hs : StoreOwned b c d w)
  (ho : b.only [lctx, by_ 10 2, bi_ 12 0 1, by_ 24 8] = true) (halign : b.f 24 8 % 64 = 0)
include hs ho halign

theorem layerConfigOp_clears (hclear : b.flag 12 0 = true) : layerConfigOp b t w = complete t stOk (layerClear b.ctx (b.f 10 2) w) := by
  obtain ⟨hc, hd, hown⟩ := hs
  simp only [layerConfigOp, hc, store?_of_ctx hc, hd, hclear, if_true]
  refine guardDesc_passes ?_ _ _ _
  simp [firstFail, ho, halign, notOwner_of_ctx hc, hown]
/-- Without CLEAR the record that the descriptor reads is judged. -/
theorem layerConfigOp_reads (hset : b.flag 12 0 = false) (hhost : b.hostErr = none) : layerConfigOp b t w =
    guardDesc t [(layerBad w c.cfg.job d b.host, stBad)] (fun s => match layerSpace b.ctx s with
      | some s => complete t stOk (s.modStore b.ctx fun d => { d with layers := d.layers.set (b.f 10 2) (parseLayer b.host) })
      | none => complete t stNoRes (layerLimit b.ctx s)) w := by
  obtain ⟨hc, hd, hown⟩ := hs
  simp only [layerConfigOp, hc, store?_of_ctx hc, hd, hset, Bool.false_eq_true, if_false]
  refine (guardDesc_passes ?_ _ _ _).trans (hostGuard_good hhost ..)
  simp [firstFail, ho, halign, notOwner_of_ctx hc, hown]
theorem layerConfigOp_bad (hset : b.flag 12 0 = false) (hhost : b.hostErr = none) (hbad : layerBad w c.cfg.job d b.host = true) :
    layerConfigOp b t w = complete t stBad w := by
  rw [layerConfigOp_reads t hs ho halign hset hhost]
  exact guardDesc_fails (by simp [firstFail, hbad]) _ _ _

variable (hset : b.flag 12 0 = false) (hhost : b.hostErr = none) (hgood : layerBad w c.cfg.job d b.host = false)
include hset hhost hgood

theorem layerConfigOp_sets {u : Sw} (hu : layerSpace b.ctx w = some u) : layerConfigOp b t w =
    complete t stOk (u.modStore b.ctx fun d => { d with layers := d.layers.set (b.f 10 2) (parseLayer b.host) }) := by
  rw [layerConfigOp_reads t hs ho halign hset hhost, guardDesc_passes (by simp [firstFail, hgood]), hu]
theorem layerConfigOp_full (hu : layerSpace b.ctx w = none) : layerConfigOp b t w = complete t stNoRes (layerLimit b.ctx w) := by
  rw [layerConfigOp_reads t hs ho halign hset hhost, guardDesc_passes (by simp [firstFail, hgood]), hu]
end Layer

section Clear
variable {w : Sw} {x k : Nat} {d : Store} (hd : w.store? x = some d)
include hd

theorem layerClear_others (h : d.layers.erase k ≠ []) :
    layerClear x k w = w.modStore x fun d => { d with layers := d.layers.erase k } := by
  simp [layerClear, modStore_store?, hd, h]
/-- With the last record the extent of the store's records is free (11 R370). -/
theorem layerClear_last (h : d.layers.erase k = []) : layerClear x k w = poolFreeBy (.store x) d.layerBuf.toList
    ((w.modStore x fun d => { d with layers := d.layers.erase k }).modStore x fun d => { d with layerBuf := none }) := by
  simp [layerClear, modStore_store?, hd, h]
end Clear

/-- A change of a store depends on what it makes of the store that is held. -/
theorem modStore_congr {w : Sw} {x : Nat} {c : Ctx} {d : Store} {f g : Store → Store} (hc : w.ctx? x = some c) (hd : c.store = some d)
    (h : f d = g d) : w.modStore x f = w.modStore x g := by
  simp only [Sw.modStore, modCtx_of_ctx hc, hd, Option.map_some, h]

/-! ### UPDATE_START (07 R242 to R244) -/

/-- An UPDATE_START without RESUME by the owner of context c, for a STEP that is not 0, in a good form. -/
structure StartStands (b : Sub) (c : Ctx) (d : Store) (w : Sw) : Prop extends StoreOwned b c d w where
  layout : b.only [lctx, by_ 10 6, bi_ 16 0 4, by_ 20 36] = true
  policy : b.bits 16 2 2 ≠ 3
  step : b.f 12 4 ≠ 0
  anew : b.flag 16 1 = false
  unused : b.f 40 16 = 0

section Start
variable {b : Sub} {c : Ctx} {d : Store} {w : Sw} (t : Tok) (h : StartStands b c d w)
include h

theorem updateStartOp_refused (hr : ∃ k ∈ c.groupShards (b.f 10 2), shardRefused w c d k = true) :
    updateStartOp b t w = complete t stBad w := by
  obtain ⟨⟨hc, hd, -⟩, -⟩ := h
  simp only [updateStartOp, hc, store?_of_ctx hc, hd]
  refine guardDesc_fails ?_ _ _ _
  simp [firstFail, List.any_eq_true.mpr hr]

variable (hr : ∀ k ∈ c.groupShards (b.f 10 2), shardRefused w c d k = false)
include hr

theorem updateStartOp_running {st : Step} (hst : SMap.find? (b.f 10 2) d.steps = some st) (hrun : st.st ≠ .done) :
    updateStartOp b t w = complete t stDenied w := by
  obtain ⟨⟨hc, hd, hown⟩, ho, hpol, hstep, hnew, hun⟩ := h
  have hany := List.any_eq_false.mpr fun k hk => Bool.eq_false_iff.mp (hr k hk)
  simp only [updateStartOp, hc, store?_of_ctx hc, hd]
  refine guardDesc_fails ?_ _ _ _
  simp [firstFail, ho, hpol, hstep, hnew, hun, hany, hst, hrun]

variable (hst : ∀ st, SMap.find? (b.f 10 2) d.steps = some st → st.st = .done)
include hst

/-- While no step of the group runs, the shards of the group here decide. -/
theorem updateStartOp_free : updateStartOp b t w = if (c.groupShards (b.f 10 2)).isEmpty then complete t stOk w else
    settle b.ctx (w.modStore b.ctx fun d' => { d' with steps := d'.steps.set (b.f 10 2) (startStep w c d b t) }) := by
  obtain ⟨⟨hc, hd, hown⟩, ho, hpol, hstep, hnew, hun⟩ := h
  have hany := List.any_eq_false.mpr fun k hk => Bool.eq_false_iff.mp (hr k hk)
  simp only [updateStartOp, hc, store?_of_ctx hc, hd]
  refine (guardDesc_passes ?_ _ _ _).trans ?_
  · cases hf : SMap.find? (b.f 10 2) d.steps with
    | none => simp [firstFail, ho, hpol, hstep, hnew, hun, hany, notOwner_of_ctx hc, hown]
    | some st => simp [firstFail, ho, hpol, hstep, hnew, hun, hany, notOwner_of_ctx hc, hown, hst st hf]
  · simp only [hnew, Bool.false_eq_true, if_false]
    exact ite_congr rfl (fun _ => rfl) fun _ => congrArg (settle b.ctx) (modStore_congr hc hd rfl)
theorem updateStartOp_empty (hn : c.groupShards (b.f 10 2) = []) : updateStartOp b t w = complete t stOk w := by
  rw [updateStartOp_free t h hr hst, hn, List.isEmpty_nil, if_pos rfl]
theorem updateStartOp_begins (hn : c.groupShards (b.f 10 2) ≠ []) : updateStartOp b t w =
    settle b.ctx (w.modStore b.ctx fun d' => { d' with steps := d'.steps.set (b.f 10 2) (startStep w c d b t) }) := by
  rw [updateStartOp_free t h hr hst, if_neg (by simpa using hn)]
end Start

/-! ### UPDATE_ABORT and the end of a step (07 R251, R252) -/

section Abort
variable {b : Sub} {c : Ctx} {w : Sw} {st : Step} (t : Tok) (hst : w.step? b.ctx (b.f 10 2) = some st)
include hst

theorem updateAbortOp_other (h : st.step ≠ b.f 12 4) : updateAbortOp b t w = complete t stBad w := by
  unfold updateAbortOp
  refine guardDesc_fails ?_ _ _ _
  simp [firstFail, hst, h]

variable (hc : w.ctx? b.ctx = some c) (hown : w.owns b.func c.cfg.job = true) (ho : b.only [lctx, by_ 10 6] = true)
  (hstep : st.step = b.f 12 4)
include hc hown ho hstep

theorem updateAbortOp_named : updateAbortOp b t w =
    if st.st == .done then complete t stDone w else settle b.ctx (complete t stAborted (abortStep b.ctx (b.f 10 2) w)) := by
  unfold updateAbortOp
  refine (guardDesc_passes ?_ _ _ _).trans ?_
  · simp [firstFail, hst, hstep, ho, notOwner_of_ctx hc, hown]
  · simp only [hst]
theorem updateAbortOp_done (hd : st.st = .done) : updateAbortOp b t w = complete t stDone w := by
  rw [updateAbortOp_named t hst hc hown ho hstep, if_pos (by simp [hd])]
theorem updateAbortOp_aborts (hd : st.st ≠ .done) :
    updateAbortOp b t w = settle b.ctx (complete t stAborted (abortStep b.ctx (b.f 10 2) w)) := by
  rw [updateAbortOp_named t hst hc hown ho hstep, if_neg (by simpa using hd)]
end Abort

theorem step?_of_keeps {ps : List Piece} {a b : Sw} (h : Sw.keeps ps a b) (hc : Piece.ctxs ∉ ps) (x u : Nat) :
    b.step? x u = a.step? x u := congrArg (fun o : Option Store => o.bind fun d => SMap.find? u d.steps) (store?_of_keeps h hc x)
theorem modStep_step? (x u : Nat) (f : Step → Step) (s : Sw) : (s.modStep x u f).step? x u = (s.step? x u).map f := by
  rw [Sw.step?, Sw.modStep, modStore_store?, Sw.step?]
  cases s.store? x with
  | none => rfl
  | some d => exact SMap.find?_adjust_same u f d.steps
theorem stepEvent_step? (x u step code : Nat) (content : List Byte) (s : Sw) : (stepEvent x u step code content s).step? x u = s.step? x u :=
  step?_of_keeps (stepEvent_keeps (ps := evParts) (by decide) (.refl _ s)) (by decide) x u
theorem completeE_step? (t : Tok) (code status : Nat) (content : List Byte) (s : Sw) (x u : Nat) :
    (completeE t code status content s).step? x u = s.step? x u :=
  step?_of_keeps (completeE_keeps (ps := parts13) (by decide) (.refl _ s)) (by decide) x u
/-- Whether a descriptor waits for the step or not, its end leaves it DONE and without one. -/
theorem stepDone_step? {w : Sw} {x u : Nat} {st : Step} (h : w.step? x u = some st) (status : Nat) :
    ∃ now, (stepDone x u status w).step? x u = some { st with st := .done, tok := none, since := now } := by
  have hidle : (if st.idle ≠ 0 then stepEvent x u st.step 0x0515 (le 4 st.idle) w else w).step? x u = some st := by
    split
    · exact (stepEvent_step? ..).trans h
    · exact h
  simp only [stepDone, h]
  cases st.tok with
  | none => exact ⟨_, (stepEvent_step? ..).trans ((modStep_step? ..).trans (congrArg (Option.map _) hidle))⟩
  | some t => exact ⟨_, (completeE_step? ..).trans ((modStep_step? ..).trans (congrArg (Option.map _) hidle))⟩

/-! ### PRUNE_CONFIG, ACT_CONFIG and ACT_READ (08 R265, R269, R274) -/

/-- A store with the policy that an ACT_CONFIG brings. -/
def Store.takesPolicy (b : Sub) (t : Store) : Store :=
  { t with idleSkip := b.flag 10 0, migrate := b.flag 10 1, window := b.f 11 1, demoteMax := b.f 12 1, promoteMin := b.f 13 1 }

section Policy
variable {b : Sub} {c : Ctx} {w : Sw} (t : Tok) (hc : w.ctx? b.ctx = some c)
include hc

theorem pruneConfigOp_closing (hcl : c.closing = true) : pruneConfigOp b t w = complete t stBad w := by
  unfold pruneConfigOp
  refine guardDesc_fails ?_ _ _ _
  simp [firstFail, active_of_ctx hc, hcl]

variable (hown : w.owns b.func c.cfg.job = true)
include hown

theorem pruneConfigOp_sets (ho : b.only [lctx, bi_ 10 0 1] = true) (hcl : c.closing = false) :
    pruneConfigOp b t w = complete t stOk (w.modCtx b.ctx fun c => { c with sparse := b.flag 10 0 }) := by
  unfold pruneConfigOp
  refine guardDesc_passes ?_ _ _ _
  simp [firstFail, ho, active_of_ctx hc, hcl, notOwner_of_ctx hc, hown]

omit hown in
theorem actConfigOp_bad (h : c.store = none ∨ b.f 11 1 < 8 ∨ 64 < b.f 11 1 ∨ b.f 11 1 ≤ b.f 12 1 ∨ b.f 13 1 ≤ b.f 12 1 ∨ b.f 11 1 < b.f 13 1) :
    actConfigOp b t w = complete t stBad w := by
  unfold actConfigOp
  refine guardDesc_fails ?_ _ _ _
  rw [store?_of_ctx hc]
  obtain h | h | h | h | h | h := h
  all_goals simp [firstFail, h]
/-- The policy of a store without a migration to stop. -/
theorem actConfigOp_sets {d : Store} (ho : b.only [lctx, bi_ 10 0 2, by_ 11 3] = true) (hd : c.store = some d) (hlo : 8 ≤ b.f 11 1)
    (hhi : b.f 11 1 ≤ 64) (hdem : b.f 12 1 < b.f 11 1) (hord : b.f 12 1 < b.f 13 1) (hprom : b.f 13 1 ≤ b.f 11 1)
    (hstill : b.flag 10 1 = true ∨ d.shards = []) :
    actConfigOp b t w = settle b.ctx (complete t stOk (w.modStore b.ctx fun t => { t with
      idleSkip := b.flag 10 0, migrate := b.flag 10 1, window := b.f 11 1, demoteMax := b.f 12 1, promoteMin := b.f 13 1 })) := by
  unfold actConfigOp
  refine (guardDesc_passes ?_ _ _ _).trans ?_
  · simp [firstFail, ho, store?_of_ctx hc, hd, Nat.not_lt.mpr hlo, Nat.not_lt.mpr hhi, Nat.not_le.mpr hdem, Nat.not_le.mpr hord,
      Nat.not_lt.mpr hprom, notOwner_of_ctx hc, hown]
  · have hstore := modStore_store? b.ctx (Store.takesPolicy b) w
    rw [store?_of_ctx hc, hd] at hstore
    unfold Store.takesPolicy at hstore
    simp only [hstore, Option.map_some]
    -- no migration is stopped, so no group's engine goes on
    obtain hmig | hnone := hstill
    · simp only [hmig, if_true, List.filterMap_nil]
      split <;> rfl
    · simp only [hnone, SMap.keys, List.map_nil, List.filter_nil, ite_self, List.filterMap_nil, each, List.foldl_nil]
      split <;> rfl

variable {d : Store} (hd : c.store = some d) (ho : b.only [lctx, by_ 24 8, by_ 40 4] = true)
include hd ho

theorem actReadOp_short (hlen : b.f 40 4 < 16 * (heldEntries c.canopy.shards).length) : actReadOp b t w = complete t stNoRes w := by
  simp only [actReadOp, hc, store?_of_ctx hc, hd]
  refine guardDesc_fails ?_ _ _ _
  simp [firstFail, ho, notOwner_of_ctx hc, hown, hlen]
theorem actReadOp_writes (hlen : 16 * (heldEntries c.canopy.shards).length ≤ b.f 40 4) (hhost : b.hostErr = none) :
    actReadOp b t w = complete t stOk (hostWrite t (b.q 24)
      ((heldEntries c.canopy.shards).map fun e => actRecord d e.1 ((SMap.find? e.1 d.shards).getD {})).flatten w) := by
  simp only [actReadOp, hc, store?_of_ctx hc, hd]
  refine (guardDesc_passes ?_ _ _ _).trans (hostGuard_good hhost ..)
  simp [firstFail, ho, notOwner_of_ctx hc, hown, hlen]
end Policy

/-- Settles O18: each descriptor passes the header checks, so its row is its operation on the switch after the dispatch, and the
checks that the clause names decide what the operation comes to; a step that ends keeps its STEP and the shards it has done. -/
theorem updateRule : Obligations.UpdateRule := by
  unfold Obligations.UpdateRule
  refine ⟨?load, ?free, ?layer, fun _ _ _ _ hd => ⟨layerClear_others hd, layerClear_last hd⟩, ?start, ?abort, ?done, ?policy⟩
  case load =>
    intro s b j hh ho hpre hmain hlen halign hj
    have loads {u : Sw} : kernelLoadOp b (descTok 0x40 b s.sw) (descSw 0x40 b s.sw) = u → becomes (.kernelLoad b) s u :=
      becomes_of_desc kernelLoadOp rfl hh
    have hj' := (descSw_jobOfFunc 0x40 b s.sw b.func).trans hj
    exact ⟨fun a hhost => loads (kernelLoadOp_unread _ ho hpre hmain hlen halign hj' hhost),
      fun hhost hv => loads (kernelLoadOp_invalid _ ho hpre hmain hlen halign hj' hhost hv),
      fun hhost hv hu => loads (kernelLoadOp_used _ ho hpre hmain hlen halign hj' hhost hv (by rwa [descSw_stepUses])),
      fun hhost hv hu hf => loads (kernelLoadOp_stores _ ho hpre hmain hlen halign hj' hhost hv (by rwa [descSw_stepUses])
        (by rwa [descSw_kernelForeign]))⟩
  case free =>
    intro s b hh ho
    have frees {u : Sw} : kernelFreeOp b (descTok 0x41 b s.sw) (descSw 0x41 b s.sw) = u → becomes (.kernelFree b) s u :=
      becomes_of_desc kernelFreeOp rfl hh
    refine ⟨fun hu => frees (kernelFreeOp_used _ ho ?_), fun hl hst hf => frees (kernelFreeOp_frees _ ho ?_ ?_ ?_)⟩
    all_goals simpa
  case layer =>
    intro s b x c d hh hx hc hd hown ho halign
    subst hx
    have hst : StoreOwned b c d (descSw 0x42 b s.sw) := ⟨hc, hd, hown⟩
    have layers {u : Sw} : layerConfigOp b (descTok 0x42 b s.sw) (descSw 0x42 b s.sw) = u → becomes (.layerConfig b) s u :=
      becomes_of_desc layerConfigOp rfl hh
    exact ⟨fun hclear => layers (layerConfigOp_clears _ hst ho halign hclear),
      fun hset hhost hbad => layers (layerConfigOp_bad _ hst ho halign hset hhost hbad),
      fun hset hhost hgood => ⟨fun u hu => layers (layerConfigOp_sets _ hst ho halign hset hhost hgood hu),
        fun hu => layers (layerConfigOp_full _ hst ho halign hset hhost hgood hu)⟩⟩
  case start =>
    intro s b x u c d hh hx hu hc hd hown ho hpol hstep hnew hun
    subst hx hu
    have hst : StartStands b c d (descSw 0x43 b s.sw) := ⟨⟨hc, hd, hown⟩, ho, hpol, hstep, hnew, hun⟩
    have starts {u : Sw} : updateStartOp b (descTok 0x43 b s.sw) (descSw 0x43 b s.sw) = u → becomes (.updateStart b) s u :=
      becomes_of_desc updateStartOp rfl hh
    refine ⟨fun hr => starts (updateStartOp_refused _ hst hr), fun hr => ⟨fun st hf hrun => starts (updateStartOp_running _ hst hr hf hrun),
      fun hdone => ⟨fun hn => starts (updateStartOp_empty _ hst hr hdone hn), fun st w hn hw he => ?_⟩⟩⟩
    subst hw he
    exact ⟨starts (updateStartOp_begins _ hst hr hdone hn), rfl, rfl, rfl, rfl, rfl⟩
  case abort =>
    intro s b x u st c hh hx hu hc hown ho hst
    subst hx hu
    have aborts {u : Sw} : updateAbortOp b (descTok 0x44 b s.sw) (descSw 0x44 b s.sw) = u → becomes (.updateAbort b) s u :=
      becomes_of_desc updateAbortOp rfl hh
    exact ⟨fun hne => aborts (updateAbortOp_other (w := descSw 0x44 b s.sw) _ hst hne),
      fun he hd => aborts (updateAbortOp_done (w := descSw 0x44 b s.sw) _ hst hc hown ho he hd),
      fun he hd => aborts (updateAbortOp_aborts (w := descSw 0x44 b s.sw) _ hst hc hown ho he hd)⟩
  case done =>
    intro w x u status st hst
    obtain ⟨now, h⟩ := stepDone_step? hst status
    exact ⟨_, h, rfl, rfl, rfl, rfl⟩
  case policy =>
    intro s b x c hx hc hown
    subst hx
    refine ⟨fun hh ho => ⟨?_, ?_⟩, fun hh ho => ⟨?_, ?_⟩, fun d hh ho hd => ⟨?_, ?_⟩⟩
    · exact fun hcl => becomes_of_desc pruneConfigOp rfl hh (pruneConfigOp_closing (w := descSw 0x50 b s.sw) _ hc hcl)
    · exact fun hcl => becomes_of_desc pruneConfigOp rfl hh (pruneConfigOp_sets (w := descSw 0x50 b s.sw) _ hc hown ho hcl)
    · exact fun hbad => becomes_of_desc actConfigOp rfl hh (actConfigOp_bad (w := descSw 0x51 b s.sw) _ hc hbad)
    · exact fun d hd hlo hhi hdem hord hprom hstill => becomes_of_desc actConfigOp rfl hh
        (actConfigOp_sets (w := descSw 0x51 b s.sw) _ hc hown ho hd hlo hhi hdem hord hprom hstill)
    · exact fun hlen => becomes_of_desc actReadOp rfl hh (actReadOp_short (w := descSw 0x52 b s.sw) _ hc hown hd ho hlen)
    · exact fun hlen hhost => becomes_of_desc actReadOp rfl hh (actReadOp_writes (w := descSw 0x52 b s.sw) _ hc hown hd ho hlen hhost)
end Sys2Proof.Machine
end

section
/-! PROOFS. The work of a step: norms, waits, commits, abandoned shards, and migrations (O19). -/
namespace Sys2Proof.Machine

/-! ### The norm collective (07 R245, R246) -/

section Norm
variable {w : Sw} {x q : Nat} {m : Cell} {k : Ctx} (hk : w.ctx? x = some k)
include hk

theorem normOp_idle (h : ¬ isCtrl m ctNorm ∨ k.canopy.switchPorts.contains q = false) : normOp x q m w = w := by
  have hg : (m.tc != 5 || m.ctype != ctNorm || !k.canopy.switchPorts.contains q) = true := by
    obtain h | h := h
    · by_cases htc : m.tc = 5
      · have hct : m.ctype ≠ ctNorm := fun hct => h ⟨htc, hct⟩
        rw [bne_iff_ne.mpr hct, Bool.or_true, Bool.true_or]
      · rw [bne_iff_ne.mpr htc, Bool.true_or, Bool.true_or]
    · rw [h, Bool.not_false, Bool.or_true]
  simp only [normOp, hk, hg, if_true]

variable (hm : isCtrl m ctNorm)
include hm

/-- A CONTRIB from below goes up. -/
theorem normOp_upward {up : Nat} (hq : k.canopy.switchPorts.contains q = true) (hkind : m.f 6 1 = 0) (hne : k.canopy.parent ≠ some q)
    (hup : k.canopy.parent = some up) : normOp x q m w = ctxCtrl x up .none m w := by
  obtain ⟨htc, hct⟩ := hm
  have hbelow : (some up != some q) = true := by rw [← hup]; simpa using hne
  simp only [normOp, hk, htc, hct, hq, hkind, hup, hbelow, bne_self_eq_false, Bool.or_false, Bool.not_true, Bool.false_eq_true, if_false,
    decide_true, Bool.and_self, if_true]
/-- At the root a CONTRIB is counted. -/
theorem normOp_counted (hq : k.canopy.switchPorts.contains q = true) (hkind : m.f 6 1 = 0) (hroot : k.canopy.parent = none) :
    normOp x q m w = settle x (normCount x (m.f 4 2) (m.f 0 4) (m.f 26 2)
      (m.f 8 16, toS16 (m.f 24 2), (m.f 7 1).testBit 0, m.f 28 4, BitVec.ofNat 64 (m.f 32 8)) (some q) w) := by
  obtain ⟨htc, hct⟩ := hm
  have hbelow : ((none : Option Nat) != some q) = true := rfl
  simp only [normOp, hk, htc, hct, hq, hkind, hroot, hbelow, bne_self_eq_false, Bool.or_false, Bool.not_true, Bool.false_eq_true, if_false,
    decide_true, Bool.and_self, if_true]
/-- A RESULT comes from the parent, which is one of the canopy's switches. -/
theorem normOp_result (hup : k.canopy.parent = some q) (hkind : m.f 6 1 = 1) : normOp x q m w =
    settle x (normResultArrive x (m.f 4 2) (m.f 0 4) (m.f 8 16) (toS16 (m.f 24 2)) ((m.f 7 1).testBit 0) ((m.f 7 1).testBit 1) m w) := by
  obtain ⟨htc, hct⟩ := hm
  have hq : q ∈ k.canopy.switchPorts := by simp [Canopy.switchPorts, hup]
  simp [normOp, hk, htc, hct, hq, hkind, hup]

omit hm
variable {t : Store} (ht : k.store = some t) {u step : Nat}
include ht

/-- The count goes on while shards are missing. -/
theorem normCount_counts {first : Nat} {v : Contrib} {back : Nat} {r r' : NormRoot} (hr : r = t.norms.getD u {}) (hnew : r.known step = none)
    (hstep : r.step = step) (hfirst : r.contribs.mem first = false) (hr' : r' = { r with contribs := r.contribs.set first v })
    (hfew : r'.contribs.vals.foldl (fun a (e : Contrib) => a + e.2.2.2.1) 0 < (k.canopy.shards.filter fun e => e.ugroup == u).length) :
    normCount x u step first v (some back) w = w.modStore x fun t => { t with norms := t.norms.set u r' } := by
  subst hr'
  simp only [normCount, hk, store?_of_ctx hk, ht, ← hr, hnew, hstep, hfirst, if_true, Bool.false_eq_true, if_false]
  rw [if_pos hfew]
/-- Without switch children a RESULT new to the group is kept and acted on. -/
theorem normResultArrive_leaf {word : Nat} {an : Int} {nonfinite mismatch : Bool} (hleaf : k.canopy.switchChildren = [])
    (hnew : (t.norms.getD u {}).known step = none) : normResultArrive x u step word an nonfinite mismatch m w =
      stepResult x u step word an nonfinite mismatch [] (w.modStore x fun t => { t with
        norms := t.norms.set u ⟨[], step, some (step, word, an, nonfinite, mismatch)⟩ }) := by
  simp [normResultArrive, hk, store?_of_ctx hk, ht, hleaf, hnew, each]
end Norm

/-! ### What a step waits for (07 R246, R251) -/

section Waits
variable {w : Sw} {x u : Nat} {st : Step} (hst : w.step? x u = some st)
include hst

theorem normResend_stands (h : st.st ≠ .normWait) : normResend x u w = w := by simp [normResend, hst, h]

variable {c : Ctx} (hc : w.ctx? x = some c)
include hc

theorem normResend_sends {up i : Nat} {n : SumSq} (h : st.st = .normWait) (hup : c.canopy.parent = some up) (hn : st.snap = some n)
    (hi : minOf ((c.groupShards u).filter c.ownsShard) = some i) : normResend x u w = settle x (ctxCtrl x up .none (normCell x
      (normBody st.step u 0 n.nonfinite false n.word (n.an.getD 0) i ((c.groupShards u).filter c.ownsShard).length st.sig)) w) := by
  simp [normResend, sendContrib, hst, hc, h, hup, hn, hi]

variable {t : Store} (ht : c.store = some t)
include ht

theorem normWaitEvent_stands (h : st.st ≠ .normWait) : normWaitEvent x u w = w := by
  simp [normWaitEvent, hc, store?_of_ctx hc, ht, hst, h]
theorem normWaitEvent_below (h : st.st = .normWait) (hroot : c.isRoot = false) :
    normWaitEvent x u w = stepOnce x u 0x0422 0 (le 4 10) w := by
  simp [normWaitEvent, hc, store?_of_ctx hc, ht, hst, h, hroot]
theorem gradWaitEvent_stands (h : st.st ≠ .gradWait) : gradWaitEvent x u w = w := by
  simp [gradWaitEvent, hc, store?_of_ctx hc, ht, hst, h]
theorem gradWaitEvent_names (h : st.st = .gradWait)
    (hshort : ∀ k ∈ st.left, ∃ h e, SMap.find? k t.shards = some h ∧ c.canopy.shard k = some e ∧ h.allFull e.count = false) :
    gradWaitEvent x u w = stepOnce x u 0x0421 0 (cList (st.left.map (le 4))) w := by
  have hall : st.left.filter (fun k => match SMap.find? k t.shards, c.canopy.shard k with
      | some h, some e => !h.allFull e.count
      | _, _ => true) = st.left := by
    refine List.filter_eq_self.mpr fun k hk => ?_
    obtain ⟨h, e, hh, he, hf⟩ := hshort k hk
    simp [hh, he, hf]
  simp only [gradWaitEvent, hc, store?_of_ctx hc, ht, hst, h, beq_self_eq_true, if_true]
  exact congrArg (fun l : List Nat => stepOnce x u 0x0421 0 (cList (l.map (le 4))) w) hall
end Waits

/-! ### The factor passes and PRE sections of a layer (07 R231, R240, R249) -/

/-- A change of a step leaves the shards. -/
theorem modStep_shard? (x u : Nat) (f : Step → Step) (s : Sw) (k : Nat) : (s.modStep x u f).shard? x k = s.shard? x k := by
  rw [Sw.shard?, Sw.modStep, modStore_store?, Sw.shard?]
  cases s.store? x <;> rfl

section Layer
variable {w : Sw} {x u l : Nat} {c : Ctx} {st : Step} (hc : w.ctx? x = some c) (hst : w.step? x u = some st)
include hc hst

theorem layerPre_stands (h : st.st ≠ .running ∨ st.layer c ≠ l ∨ w.layerWaits x u = false) : layerPre x u l w = w := by
  simp only [layerPre, hc, hst]
  refine if_pos ?_
  obtain h | h | h := h
  all_goals simp [h]

/-- One shard of the layer runs its passes: its factors stand before its sums are taken. -/
theorem layerPre_one {k : Nat} {h : Shard} {p p' : Pass} {v : Sw} (hh : w.shard? x k = some h) (hrun : st.st = .running) (hl : st.layer c = l)
    (hw : w.layerWaits x u = true) (hone : (st.now c).filter (fun k => !w.idles x u k) = [k]) (hp : w.pass x u k = some p)
    (hv : v = w.modStep x u fun st => { st with factors := p.allFactors.foldl (fun m e => m.set e.1 e.2) st.factors })
    (hp' : v.pass x u k = some p') : layerPre x u l w = settle x (engineGo x u ((agStop h.grove v).modStep x u
      fun st => { st with acc := some (l, (List.zipWith (fadd fp64) [0, 0, 0, 0] p'.sums).map (BitVec.ofNat 64)) })) := by
  have hh' : v.shard? x k = some h := by rw [hv, modStep_shard?, hh]
  subst hl
  simp [layerPre, hc, hst, hrun, hw, hone, hp, ← hv, hp', hh', sortAsc, insSorted, dedup, each]
end Layer

/-! ### Commits (07 R248, R249, R251; 08 R271) -/

/-- A pass carries the step it belongs to. -/
theorem pass_st {w : Sw} {x u k : Nat} {p : Pass} {st : Step} (hp : w.pass x u k = some p) (hst : w.step? x u = some st) : p.st = st := by
  unfold Sw.pass at hp
  split at hp
  · next hst' =>
    obtain rfl := Option.some.inj (hst.symm.trans hst')
    split at hp
    · cases hp
    · obtain ⟨l, -, hp⟩ := Option.bind_eq_some_iff.mp hp
      obtain ⟨ker, -, rfl⟩ := Option.map_eq_some_iff.mp hp
      rfl
  · cases hp

/-- Shard k is worked on and its nest ends, with all it reads there. -/
structure NestEnds (x u k : Nat) (p : Pass) (w : Sw) : Prop where
  pass : w.pass x u k = some p
  working : w.workingOn x u k = true
  updating : p.h.st = .updating
  active : w.idles x u k = false
  preDone : w.layerWaits x u = false
  roots : w.rootDown p.h = none
  arrays : p.h.lostTier2 = none

/-- What the nest leaves in the other bank: under SKIP the current bank's arrays, else the output of a kernel without a sum, a
saturated write and a cell with OVF. -/
def Pass.leaves (p : Pass) (v : Nat) (o : List (SMap Quad)) : Prop :=
  p.st.skip = true ∧ o = p.exactCopy ∨
    p.st.skip = false ∧ p.st.acc = none ∧ o = (p.main [] v).arrays ∧ (p.main [] v).sat = none ∧ p.ovfCell = none

section Commit
variable {w : Sw} {x u k : Nat}

theorem commitShard_stands (h : w.workingOn x u k = false) : commitShard x u k w = w := by
  unfold commitShard
  split
  · simp [h]
  · rfl
theorem commitIdle_stands (h : w.workingOn x u k = false) : commitIdle x u k w = w := by
  unfold commitIdle
  split
  · simp [h]
  · rfl
theorem abandonShard_stands (h : w.readsBank x u k = false) (unit a : Nat) : abandonShard x u k unit a w = w := by
  unfold abandonShard
  split
  · simp [h]
  · rfl

/-- Where a shadow check outvotes a block the nest starts again (09 R303, R306), else its write is committed. -/
theorem commitShard_commits {c : Ctx} {p : Pass} {v : Nat} {o : List (SMap Quad)} {r : Bool × Sw} (hc : w.ctx? x = some c)
    (hn : NestEnds x u k p w) (hv : v = (p.h.version.getD 0 + 1) % 2 ^ 32) (ho : p.leaves v o)
    (hr : r = blockChecks x p.st.step k p.h.grove (List.range (if p.st.skip then 0 else ((p.l.addrs p.e.count).length + 4095) / 4096)) w) :
    commitShard x u k w = if r.1 = true
      then stepEvent x u p.st.step 0x0426 (le 4 k ++ le 1 2 ++ le 2 0xFFFF) (agStart p.h.grove p.e.count p.l (agStop p.h.grove r.2))
      else settle x (afterCommit x u k false (staleTell x k (commitRecord x k 2 p.h.other true v p.st.step p.st.factor (r.2.modShard x k fun h =>
        { (h.setBank h.other fun b => { b with ver := some v, prevVer := none, arrays := o }) with cur := h.other, st := .ready })))) := by
  obtain ⟨hp, hwork, hup, hact, hal, hroot, hlost⟩ := hn
  obtain ⟨voted, s⟩ := r
  simp only [commitShard, hc, hp, hwork, hup, hact, hal, hroot, hlost, ← hv, ← hr]
  cases voted with
  | true => simp
  | false =>
    obtain ⟨hskip, rfl⟩ | ⟨hskip, hacc, rfl, hsat, hovf⟩ := ho
    · simp [hskip]
    · simp [hskip, hacc, hsat, hovf]

variable {st : Step} (hst : w.step? x u = some st)
include hst

theorem abandonShard_ends {h : Shard} (hh : w.shard? x k = some h) (hr : w.readsBank x u k = true) (unit a : Nat) :
    abandonShard x u k unit a w = settle x (stepCheck x u (engineGo x u
      ((stepEvent x u st.step 0x0427 (le 4 k ++ le 2 (unitNo unit) ++ le 8 a) (poisoned unit a (agStop h.grove (abandonWrite x k w)))).modStep x u
        fun st => { st with left := st.left.filter (· != k), abandoned := true }))) := by
  simp [abandonShard, hst, hh, hr]
theorem commitIdle_commits {h : Shard} (hh : w.shard? x k = some h) (hw : w.workingOn x u k = true) (hup : h.st = .updating)
    (hi : w.idles x u k = true) {v : Nat} (hv : v = h.version.getD 0) : commitIdle x u k w = settle x (afterCommit x u k true
      (staleTell x k (commitRecord x k 2 h.cur true ((v + 1) % 2 ^ 32) st.step st.factor
        (w.modShard x k fun h => { (h.setBank h.cur fun b => { b with ver := some ((v + 1) % 2 ^ 32), prevVer := some v }) with st := .ready })))) := by
  subst hv
  simp [commitIdle, hst, hh, hw, hup, hi]
end Commit

/-! ### Migrations (08 R272, R273; 11 R395) -/

theorem migStart_empty {w : Sw} {g : Nat} (h : w.migQueues.getD g [] = []) : migStart g w = w := by simp only [migStart, h]
theorem migDone_empty {w : Sw} {g : Nat} (h : w.migQueues.getD g [] = []) : migDone g w = w := by simp only [migDone, h]
theorem migError_empty {w : Sw} {g : Nat} (h : w.migQueues.getD g [] = []) (i a : Nat) : migError g i a w = w := by simp only [migError, h]

/-- Stopping a migration leaves its context held. -/
theorem migStop_ctx?_isSome (x k : Nat) (w : Sw) : ((migStop x k w).ctx? x).isSome = (w.ctx? x).isSome := by
  unfold migStop
  split
  · rfl
  · next h hh =>
    dsimp only
    rw [Sw.modShard, Sw.modStore, modCtx_ctx?, Option.isSome_map]
    have hfreed := ctx?_of_keeps (freeT2_keeps (ps := [.cxl]) (n := h.migT2) (by decide) (.refl _
      (w.modMigs fun m => m.mapVals fun q => q.filter (· != (x, k))))) (by decide) x
    cases h.migBuf with
    | none => exact congrArg Option.isSome hfreed
    | some id => exact congrArg Option.isSome ((ctx?_of_keeps (poolFreeBy_keeps (ps := parts7) (by decide) (.refl _ _)) (by decide) x).trans hfreed)

/-- The head of grove g's queue is shard k of context c's store t, held as h under the entry e. -/
structure QueueHead (g x k : Nat) (c : Ctx) (t : Store) (h : Shard) (e : ShardEnt) (rest : List (Nat × Nat)) (w : Sw) : Prop where
  queue : w.migQueues.getD g [] = (x, k) :: rest
  ctx : w.ctx? x = some c
  store : c.store = some t
  shard : w.shard? x k = some h
  entry : c.canopy.shard k = some e

section Migrations
variable {w : Sw} {g x k : Nat} {c : Ctx} {t : Store} {h : Shard} {e : ShardEnt} {rest : List (Nat × Nat)} (hq : QueueHead g x k c t h e rest w)
include hq

theorem migStart_waits (hs : h.st ≠ .ready ∨ h.mig ≠ .queued) : migStart g w = w := by
  obtain ⟨hg, hc, ht, hh, he⟩ := hq
  have hs' : (h.mig != .queued || h.st != .ready) = true := by
    obtain hs | hs := hs
    all_goals simp [hs]
  simp only [migStart, hg, hc, store?_of_ctx hc, ht, hh, he, hs', if_true]
theorem migStart_promotes {u : Sw} (hmig : h.mig = .queued) (hst : h.st = .ready) (hp : h.promote = true)
    (hu : poolTake 6 g (t.autoExtents e.count) (some c.cfg.job) (.store x) w = some u) :
    migStart g w = u.modShard x k fun h => { h with mig := .copying, migBuf := some w.pool.next } := by
  obtain ⟨hg, hc, ht, hh, he⟩ := hq
  simp [migStart, hg, hc, store?_of_ctx hc, ht, hh, he, hmig, hst, hp, hu]
theorem migStart_demotes {u : Sw} {n : Nat × Nat} (hmig : h.mig = .queued) (hst : h.st = .ready) (hp : h.promote = false)
    (hu : takeT2 (t2Extents t t.autos e.count) (0, 0) w = some (n, u)) :
    migStart g w = u.modShard x k fun h => { h with mig := .copying, migT2 := n } := by
  obtain ⟨hg, hc, ht, hh, he⟩ := hq
  simp [migStart, hg, hc, store?_of_ctx hc, ht, hh, he, hmig, hst, hp, hu]
theorem migDone_stands (hm : h.mig ≠ .copying) : migDone g w = w := by
  obtain ⟨hg, hc, ht, hh, he⟩ := hq
  simp [migDone, hg, hc, store?_of_ctx hc, ht, hh, he, hm]
theorem migError_stands (hm : h.mig ≠ .copying) (i a : Nat) : migError g i a w = w := by
  obtain ⟨hg, -, -, hh, -⟩ := hq
  simp [migError, hg, hh, hm]

variable (hm : h.mig = .copying) (hwait : h.migWait = false)
include hm hwait

theorem migError_stops (i a : Nat) : migError g i a w =
    settle x (raiseCtx x 0x0514 (le 4 k ++ le 2 (unitNo i) ++ le 8 a) (migStop x k (poisoned i a w))) := by
  obtain ⟨hg, hc, -, hh, -⟩ := hq
  have hheld : ((raiseCtx x 0x0514 (le 4 k ++ le 2 (unitNo i) ++ le 8 a) (migStop x k (poisoned i a w))).ctx? x).isSome = true := by
    rw [ctx?_of_keeps (raiseCtx_keeps (ps := evParts) (by decide) (.refl _ _)) (by decide), migStop_ctx?_isSome,
      ctx?_of_keeps (poisoned_keeps (ps := parts4) (by decide) (.refl _ _)) (by decide), hc, Option.isSome_some]
  obtain ⟨c', hc'⟩ := Option.isSome_iff_exists.mp hheld
  simp only [migError, hg, hh, hm, hwait, bne_self_eq_false, Bool.false_eq_true, if_false, hc']
theorem migDone_promotes (hp : h.promote = true) (hroot : w.rootDown h = none) : migDone g w = settle x
    (raiseCtx x 0x0511 (le 4 k ++ le 8 (movedBytes t h e.count) ++ le 4 (t.activeIn h)) ((freeT2 h.autoT2 (w.modMigs (SMap.set g rest))).modShard x k
      fun h' => { h' with
        mig := .still, steps := 0, inTier2 := !h'.promote, migT2 := (0, 0), migBuf := none, migWait := false
        autoT2 := if h'.promote then (0, 0) else h'.migT2, bufs := if h'.promote then h'.bufs ++ h'.migBuf.toList else h'.bufs.take 1 })) := by
  obtain ⟨hg, hc, ht, hh, he⟩ := hq
  simp [migDone, hg, hc, store?_of_ctx hc, ht, hh, he, hm, hwait, hp, hroot]
end Migrations

/-- Settles O19: a NORM cell by its kind and port, a timer by the state of the step, a commit by what its nest left, and a migration
by the head of its grove's queue. -/
theorem updateWorkRule : Obligations.UpdateWorkRule := by
  unfold Obligations.UpdateWorkRule
  refine ⟨?norm, ?step, ?empty, ?migrations⟩
  case norm =>
    intro s p x q c m w k t ha ht
    have hk := arrival_ctx ha
    have norms {v : Sw} : normOp x q m w = v → becomes (.normReceive p c) s v := becomes_of_arrival normOp rfl ha
    refine ⟨fun hi => norms (normOp_idle hk hi), fun hm hq hkind hne => ?contrib, fun hm hup hkind hleaf hnew => ?result⟩
    case contrib =>
      exact ⟨fun up hup => norms (normOp_upward hk hm hq hkind hne hup), fun r hroot hr hnew hstep hfirst r' hr' hfew =>
        norms ((normOp_counted hk hm hq hkind hroot).trans (congrArg (settle x) (normCount_counts hk ht hr hnew hstep hfirst hr' hfew)))⟩
    case result =>
      exact norms ((normOp_result hk hm hup hkind).trans (congrArg (settle x) (normResultArrive_leaf hk ht hleaf hnew)))
  case step =>
    intro s x u c t st hc ht hst
    refine ⟨?resend, ?sends, ?below, ?gradStands, ?gradNames, ?layerStands, ?layerOne, ?idle, ?unread, ?abandon, ?idleCommit, ?commit⟩
    case resend =>
      exact fun h => ⟨stays_of_lift (normResend x u) rfl (normResend_stands hst h),
        stays_of_lift (normWaitEvent x u) rfl (normWaitEvent_stands hst hc ht h)⟩
    case sends =>
      exact fun up n i h hup hn hi => becomes_of_lift (normResend x u) rfl (normResend_sends hst hc h hup hn hi)
    case below => exact fun h hroot => becomes_of_lift (normWaitEvent x u) rfl (normWaitEvent_below hst hc ht h hroot)
    case gradStands => exact fun h => stays_of_lift (gradWaitEvent x u) rfl (gradWaitEvent_stands hst hc ht h)
    case gradNames => exact fun h hshort => becomes_of_lift (gradWaitEvent x u) rfl (gradWaitEvent_names hst hc ht h hshort)
    case layerStands => exact fun l h => stays_of_lift (layerPre x u l) rfl (layerPre_stands hc hst h)
    case layerOne =>
      exact fun l k h p p' v hh hrun hl hw hone hp hv hp' => becomes_of_lift (layerPre x u l) rfl
        (layerPre_one hc hst hh hrun hl hw hone hp hv hp')
    case idle =>
      exact fun k h => ⟨stays_of_lift (commitShard x u k) rfl (commitShard_stands h), stays_of_lift (commitIdle x u k) rfl (commitIdle_stands h)⟩
    case unread =>
      exact fun k i a h => stays_of_lift (fun w => abandonShard x u k (w.stackAt i a) a w) rfl (abandonShard_stands h _ a)
    case abandon =>
      exact fun k h i a hh hr => becomes_of_lift (fun w => abandonShard x u k (w.stackAt i a) a w) rfl (abandonShard_ends hst hh hr _ a)
    case idleCommit =>
      exact fun k h v hh hw hup hi hv => becomes_of_lift (commitIdle x u k) rfl (commitIdle_commits hst hh hw hup hi hv)
    case commit =>
      intro k p v o r hp hw hup hi hl hroot hlost hv ho hr
      have hps := pass_st hp hst
      subst hps
      exact becomes_of_lift (commitShard x u k) rfl (commitShard_commits hc ⟨hp, hw, hup, hi, hl, hroot, hlost⟩ hv ho hr)
  case empty =>
    exact fun s g h => ⟨stays_of_lift (migStart g) rfl (migStart_empty h), stays_of_lift (migDone g) rfl (migDone_empty h),
      fun i a => stays_of_lift (migError g i a) rfl (migError_empty h i a)⟩
  case migrations =>
    intro s g x k rest c t h e hg hc ht hh he
    have hq : QueueHead g x k c t h e rest s.sw := ⟨hg, hc, ht, hh, he⟩
    refine ⟨fun hs => ?_, fun u hm hst hp hu => ?_, fun u n hm hst hp hu => ?_, fun hm => ⟨?_, fun i a => ?_⟩, fun i a hm hw => ?_,
      fun hm hw hp hroot => ?_⟩
    · exact stays_of_lift (migStart g) rfl (migStart_waits hq hs)
    · exact becomes_of_lift (migStart g) rfl (migStart_promotes hq hm hst hp hu)
    · exact becomes_of_lift (migStart g) rfl (migStart_demotes hq hm hst hp hu)
    · exact stays_of_lift (migDone g) rfl (migDone_stands hq hm)
    · exact stays_of_lift (migError g i a) rfl (migError_stands hq hm i a)
    · exact becomes_of_lift (migError g i a) rfl (migError_stops hq hm hw i a)
    · exact becomes_of_lift (migDone g) rfl (migDone_promotes hq hm hw hp hroot)
end Sys2Proof.Machine
end

section
/-! PROOFS. Deliveries, re-injections, digests and the descriptors of recovery (O20). -/
namespace Sys2Proof.Machine

/-! ### Cells of neighbour switches (09 R286, R291, R292, R299) -/

theorem ctrlGuard_true {c : Cell} {ct : Nat} (h : ¬ isCtrl c ct) : (c.tc != 5 || c.ctype != ct) = true := by
  simpa [isCtrl, Decidable.imp_iff_not_or] using h
theorem ctrlGuard_false {c : Cell} {ct : Nat} (h : isCtrl c ct) : (c.tc != 5 || c.ctype != ct) = false := by
  obtain ⟨htc, hct⟩ := h
  simp [htc, hct]

section Ack
variable {w : Sw} {x q : Nat} {c : Cell} {k : Ctx} (hk : w.ctx? x = some k)
include hk

theorem ackArrive_other (h : ¬ isCtrl c ctAck) : ackArrive x q c w = w := by
  simp only [ackArrive, hk, ctrlGuard_true h, if_true]

variable (hc : isCtrl c ctAck)
include hc

theorem ackArrive_delivered {h : Child} (hkind : c.f 4 1 = 0) (hq : k.canopy.child q = some h) : ackArrive x q c w =
    if h.isSwitch then settle x (w.modOp x (c.f 0 4) fun r => { r with deliveredFrom := setBit r.deliveredFrom q }) else w := by
  simp only [ackArrive, hk, ctrlGuard_false hc, hkind, hq, Option.any_some, Bool.false_eq_true, if_false, if_true]
theorem ackArrive_release (hkind : c.f 4 1 = 1) (hq : k.canopy.parent = some q) : ackArrive x q c w = sendRelease x (c.f 8 4) w := by
  simp [ackArrive, hk, ctrlGuard_false hc, hkind, hq]
end Ack

section Reinject
variable {w : Sw} {x q : Nat} {c : Cell} {k : Ctx} (hk : w.ctx? x = some k)
include hk

theorem reinjectArrive_other (h : ¬ isCtrl c ctReinject ∨ k.leadsToSwitch q = false) : reinjectArrive x q c w = w := by
  have hidle : (c.tc != 5 || c.ctype != ctReinject || !k.leadsToSwitch q) = true := by
    obtain h | h := h
    · rw [ctrlGuard_true h, Bool.true_or]
    · rw [h, Bool.not_false, Bool.or_true]
  simp only [reinjectArrive, hk, hidle, if_true]

variable (hc : isCtrl c ctReinject) (hq : k.leadsToSwitch q = true)
include hc hq

/-- A request of an operation not open here goes to the parent, but back to where it came from. -/
theorem reinjectArrive_onward {up : Nat} (ho : SMap.find? (c.f 0 4) k.ops = none) (hkind : c.arg % 4 = 1)
    (hup : k.canopy.parent = some up) (hne : up ≠ q) : reinjectArrive x q c w =
      ctxCtrl x up .none (reinjectCell x (c.f 0 4) noMember 1 (c.f 4 4) (c.f 8 4) (c.f 12 1)) w := by
  simp [reinjectArrive, hk, ctrlGuard_false hc, hq, ho, hkind, hup, hne]

variable {r : Op} (hr : SMap.find? (c.f 0 4) k.ops = some r)
include hr

theorem reinjectArrive_ended (ho : r.isOpen = false) : reinjectArrive x q c w = w := by
  simp [reinjectArrive, hk, ctrlGuard_false hc, hq, hr, ho]

variable (ho : r.isOpen = true)
include ho

theorem reinjectArrive_contrib (hkind : c.arg % 4 = 0) : reinjectArrive x q c w = settle x (askContrib x (c.f 0 4)
    (cellSet r fun i => decide (c.f 4 4 ≤ i) && decide (i ≤ c.f 8 4) && upPort k r.blk i == some q) (c.f 12 1) none w) := by
  simp [reinjectArrive, contribRequest, hk, ctrlGuard_false hc, hq, hr, ho, hkind, op?_of_ctx hk]
/-- With every record asked for retained all of them go again. -/
theorem reinjectArrive_result {a : Nat} (hkind : c.arg % 4 = 1) (ha : a = cellSet r fun i =>
      decide (c.f 4 4 ≤ i) && decide (i ≤ c.f 8 4) && inSet (r.sentTo.getD q 0) i && (targets k r.blk i).contains q)
    (hkept : ∀ i < cellsOf r.blk, inSet a i = true → ∃ e, SMap.find? i r.retained = some e ∧ e.kept = true) :
    reinjectArrive x q c w = raiseCtx x 0x0602
      (le 4 (c.f 0 4) ++ le 2 q ++ le 4 ((List.range (cellsOf r.blk)).filter (inSet a)).length) (resend x (c.f 0 4) q a w) := by
  have hgone : (List.range (cellsOf r.blk)).filter (fun i => inSet a i &&
      (match SMap.find? i r.retained with | some e => !e.kept | none => true)) = [] := by
    refine List.filter_eq_nil_iff.mpr fun i hi hlost => ?_
    rw [Bool.and_eq_true] at hlost
    obtain ⟨e, he, hke⟩ := hkept i (List.mem_range.mp hi) hlost.1
    simp [he, hke] at hlost
  have hrequest : resultRequest x (c.f 0 4) q (c.f 4 4) (c.f 8 4) w = raiseCtx x 0x0602
      (le 4 (c.f 0 4) ++ le 2 q ++ le 4 ((List.range (cellsOf r.blk)).filter (inSet a)).length) (resend x (c.f 0 4) q a w) := by
    simp only [resultRequest, hk, op?_of_ctx hk, hr, ← ha]
    generalize hg : List.filter (fun i => inSet a i && _) _ = gone
    obtain rfl : gone = [] := hg.symm.trans hgone
    rfl
  simp [reinjectArrive, hk, ctrlGuard_false hc, hq, hr, ho, hkind, hrequest]
end Reinject

section Digest
variable {w : Sw} {x q : Nat} {c : Cell} {k : Ctx} (hk : w.ctx? x = some k)
include hk

theorem digestArrive_other (h : ¬ isCtrl c ctDigest) : digestArrive x q c w = w := by
  simp only [digestArrive, hk, ctrlGuard_true h, if_true]

variable (hc : isCtrl c ctDigest)
include hc

theorem digestArrive_request (hkind : c.f 4 1 = 8) : digestArrive x q c w = foldAccs x (c.f 0 4)
    (ctxCtrl x q .none (digestCell x (c.f 0 4) (k.memberField q) (k.linkKinds q).2 0 (k.digest? (c.f 0 4) (k.linkKinds q).2 q))
      (ctxCtrl x q .none (digestCell x (c.f 0 4) (k.memberField q) (k.linkKinds q).1 0 (k.digest? (c.f 0 4) (k.linkKinds q).1 q)) w)) := by
  simp only [digestArrive, hk, ctrlGuard_false hc, hkind, Bool.false_eq_true, if_false, if_true]
/-- A partner's digest is judged as its kind. -/
theorem digestArrive_takes (hkind : c.f 4 1 < 4) : digestArrive x q c w =
    digestTake x q (c.f 0 4) (c.f 4 1) (c.f 20 1 == 0) ⟨c.q 8, c.f 16 4, false⟩ w := by
  have h8 : c.f 4 1 ≠ 8 := by omega
  have h4 : c.f 4 1 ≠ 4 := by omega
  simp only [digestArrive, hk, ctrlGuard_false hc, h8, h4, hkind, Bool.false_eq_true, if_false, if_true]

omit hc
variable {o kind : Nat} {held : Bool} {d : Digest}

/-- While no DIGEST_COMPARE asks, a held digest is compared with its counterpart alone. -/
theorem digestTake_compares {own : Digest} (hn : w.rcv.compares = []) (ho : k.digest? o (counterpart kind) q = some own) :
    digestTake x q o kind true d w = if own.agrees d then w else raiseCtx x 0x0611 (le 4 o ++ le 2 q ++ le 1 (counterpart kind) ++
      le 1 kind ++ le 8 own.dig.toNat ++ le 8 d.dig.toNat ++ le 4 own.cells ++ le 4 d.cells) w := by
  have hsame : (w.modRec fun r => { r with compares := r.compares.map fun e => if e.ctx == x && e.opnum == o && e.ports.contains q then
      { e with answers := e.answers.set (q * 16 + kind) (d.dig, d.cells, true) } else e }) = w := by
    simp only [Sw.modRec, hn, List.map_nil]
    rw [← hn]
  simp only [digestTake, hk, hsame, ho, Bool.not_true, Bool.false_or]
/-- The DIGEST_COMPARE that asked keeps the digest. -/
theorem digestTake_answers {e : Compare} (hcmp : w.rcv.compares = [e]) (hx : e.ctx = x) (hop : e.opnum = o)
    (hp : e.ports.contains q = true) (ho : k.digest? o (counterpart kind) q = none) : digestTake x q o kind held d w =
      w.modRec fun r => { r with compares := [{ e with answers := e.answers.set (q * 16 + kind) (d.dig, d.cells, held) }] } := by
  simp only [digestTake, hk, ho, Sw.modRec, hcmp, List.map_cons, List.map_nil, hx, hop, hp, beq_self_eq_true, Bool.and_self, if_true]
end Digest

/-! ### DIGEST_COMPARE (09 R300) -/

section Compare
variable {b : Sub} {w : Sw} {c : Ctx} (t : Tok) (hc : w.ctx? b.ctx = some c) (hport : b.f 10 2 ≠ 0xFFFF)
include hc hport

/-- A DIGEST_COMPARE that does not name all ports names one. -/
theorem comparePorts_one : comparePorts w b = [b.f 10 2] := by
  have hc' : w.ctx? (b.f 8 2 % 4096) = some c := hc
  simp only [comparePorts, hc', if_neg hport]
theorem digestCompareOp_bad (h : c.canopy.ports.contains (b.f 10 2) = false) : digestCompareOp b t w = complete t stBad w := by
  have hout : b.f 10 2 ∉ c.canopy.ports := by simpa using h
  unfold digestCompareOp
  refine guardDesc_fails ?_ _ _ _
  simp [firstFail, hc, comparePorts_one hc hport, hout]
theorem digestCompareOp_asks (ho : b.only [lctx, by_ 10 6] = true) (hcl : c.closing = false) (hown : w.owns b.func c.cfg.job = true)
    (h : c.canopy.ports.contains (b.f 10 2) = true) : digestCompareOp b t w =
      ctxCtrl b.ctx (b.f 10 2) .none (ctrlCell ctDigest b.ctx (c.memberField (b.f 10 2)) (b.f 12 4) 0 (le 4 (b.f 12 4) ++ le 1 8))
        (w.modRec fun r => { r with
          compares := r.compares ++ [{ ctx := b.ctx, opnum := b.f 12 4, ports := [b.f 10 2], answers := [], tok := t }] }) := by
  unfold digestCompareOp
  refine (guardDesc_passes ?_ _ _ _).trans ?_
  · simp [firstFail, ho, hc, active_of_ctx hc, hcl, notOwner_of_ctx hc, hown, comparePorts_one hc hport, List.contains_iff_mem.mp h]
  · simp only [hc, comparePorts_one hc hport]
    rfl
end Compare

theorem digestCompareEnd_none {w : Sw} {x o : Nat} (h : ∀ e ∈ w.rcv.compares, e.ctx ≠ x ∨ e.opnum ≠ o) : digestCompareEnd x o w = w := by
  have hmine : ∀ e ∈ w.rcv.compares, (e.ctx == x && e.opnum == o) = false := fun e he => by
    simpa [Decidable.imp_iff_not_or] using h e he
  have hdue : w.rcv.compares.filter (fun e => e.ctx == x && e.opnum == o) = [] :=
    List.filter_eq_nil_iff.mpr fun e he => by simp [hmine e he]
  have hrest : w.rcv.compares.filter (fun e => !(e.ctx == x && e.opnum == o)) = w.rcv.compares :=
    List.filter_eq_self.mpr fun e he => by simp [hmine e he]
  simp only [digestCompareEnd, hdue, Sw.modRec, hrest]
  rfl
theorem digestCompareEnd_one {w : Sw} {x o : Nat} {e : Compare} (h : w.rcv.compares = [e]) (hx : e.ctx = x) (ho : e.opnum = o) :
    digestCompareEnd x o w = (foldAccs x o <| completeE e.tok 0x0610 stOk
      (le 2 x ++ le 4 o ++ cList (e.ports.map (compareOutcome (w.ctx? x) e))) (w.modRec fun r => { r with compares := [] })) := by
  subst hx ho
  have hnone : ([e].filter fun e' => !(e'.ctx == e.ctx && e'.opnum == e.opnum)) = [] := by simp
  have hone : ([e].filter fun e' => e'.ctx == e.ctx && e'.opnum == e.opnum) = [e] := by simp
  simp only [digestCompareEnd, Sw.modRec, h, hnone, hone]
  rfl

/-! ### REC_CONFIG and REC_READ (09 R325, R326) -/

section Config
variable {b : Sub} (t : Tok) (w : Sw)

theorem recConfigOp_bad (hlo : 16 < b.f 8 1) (hhi : b.f 8 1 ≠ 0xFF) : recConfigOp b t w = complete t stBad w := by
  unfold recConfigOp
  refine guardDesc_fails ?_ _ _ _
  simp [firstFail, hlo, hhi]
theorem recConfigOp_sets (ho : b.only [by_ 8 5, bi_ 13 0 2, by_ 16 4] = true) (hlog : b.f 8 1 ≤ 16 ∨ b.f 8 1 = 0xFF) (hcount : b.f 9 1 ≠ 0)
    (hwindow : b.f 10 2 ≠ 0) (hdepth : b.f 12 1 ≠ 0) (hmib : b.f 16 4 % 16 = 0) (hmax : b.f 16 4 ≤ 65536) :
    recConfigOp b t w = complete t stOk (poolWarnAll <| (w.modRec fun r => { r with
      shadowLog2 := b.f 8 1, quarCount := b.f 9 1, quarWindow := b.f 10 2, digestDepth := b.f 12 1, retain := b.flag 13 0
      autoQuar := b.flag 13 1, retMib := b.f 16 4 }).modCtxs fun m => m.mapVals fun c => { c with
        digests := c.digests.drop (c.digests.length - b.f 12 1) }) := by
  have hgood : (decide (16 < b.f 8 1) && b.f 8 1 != 0xFF) = false := by
    obtain h | h := hlog
    · rw [decide_eq_false (Nat.not_lt.mpr h), Bool.false_and]
    · rw [h]; rfl
  unfold recConfigOp
  refine guardDesc_passes ?_ _ _ _
  simp only [firstFail, ho, hgood]
  simp [hcount, hwindow, hdepth, hmib, Nat.not_lt.mpr hmax]
end Config

section Read
variable {b : Sub} {c : Ctx} {w : Sw} (t : Tok) (hc : w.ctx? b.ctx = some c)
include hc

theorem recReadOp_bad (h : 2 < b.f 10 1) : recReadOp b t w = complete t stBad w := by
  simp only [recReadOp, hc]
  refine guardDesc_fails ?_ _ _ _
  simp [firstFail, h]

variable (ho : b.only [lctx, by_ 10 1, by_ 12 4, by_ 24 8, by_ 40 4] = true) (hown : w.owns b.func c.cfg.job = true) (hsel : b.f 10 1 ≤ 2)
include ho hown hsel

theorem recReadOp_short (h : b.f 40 4 < (recReadBytes c (b.f 10 1) (b.f 12 4) w).length) : recReadOp b t w = complete t stNoRes w := by
  simp only [recReadOp, hc]
  refine guardDesc_fails ?_ _ _ _
  simp [firstFail, ho, Nat.not_lt.mpr hsel, notOwner_of_ctx hc, hown, h]
theorem recReadOp_writes (h : (recReadBytes c (b.f 10 1) (b.f 12 4) w).length ≤ b.f 40 4) (hhost : b.hostErr = none) :
    recReadOp b t w = complete t stOk (hostWrite t (b.q 24) (recReadBytes c (b.f 10 1) (b.f 12 4) w)
      (each c.digests.keys (foldAccs b.ctx) w)) := by
  simp only [recReadOp, hc]
  refine (guardDesc_passes ?_ _ _ _).trans (hostGuard_good hhost ..)
  simp [firstFail, ho, Nat.not_lt.mpr hsel, notOwner_of_ctx hc, hown, Nat.not_lt.mpr h]
end Read

/-! ### STEP_ACK and ANCHOR_COPY (09 R310, R327) -/

section Step
variable {b : Sub} {c : Ctx} {w : Sw} (t : Tok) (hc : w.ctx? b.ctx = some c)
include hc

theorem stepAckOp_bad (h : c.isRoot = false ∨ b.f 12 4 < c.stepAck ∨ c.nextOp < b.f 12 4) : stepAckOp b t w = complete t stBad w := by
  unfold stepAckOp
  refine guardDesc_fails ?_ _ _ _
  obtain h | h | h := h
  all_goals simp [firstFail, hc, h]
theorem stepAckOp_sets (ho : b.only [lctx, by_ 12 4] = true) (hown : w.owns b.func c.cfg.job = true) (hroot : c.isRoot = true)
    (hlo : c.stepAck ≤ b.f 12 4) (hhi : b.f 12 4 ≤ c.nextOp) :
    stepAckOp b t w = settle b.ctx (complete t stOk (w.modCtx b.ctx fun c => { c with stepAck := b.f 12 4 })) := by
  unfold stepAckOp
  refine guardDesc_passes ?_ _ _ _
  simp [firstFail, ho, hc, hroot, Nat.not_lt.mpr hlo, Nat.not_lt.mpr hhi, notOwner_of_ctx hc, hown]
end Step

section Anchors
variable {b : Sub} {c : Ctx} {w : Sw} (t : Tok) (hc : w.ctx? b.ctx = some c) (hown : w.owns b.func c.cfg.job = true)
  (ho : b.only [lctx, by_ 10 1, bi_ 11 0 1, by_ 12 2 &&& ~~~ bi_ 13 4 4, by_ 16 4, by_ 24 8, by_ 40 4] = true)
include hc hown ho

/-- DIR 0: a kept table that is not to be dropped is installed. -/
theorem anchorCopyOp_installs {es : List (Nat × Anchor)} (hdir : b.f 10 1 = 0) (hcl : c.closing = false) (hop : c.openedFrom 0 = false)
    (hdrop : b.flag 11 0 = false) (hes : SMap.find? (b.f 12 2) w.rcv.anchors = some es) :
    anchorCopyOp b t w = anchorInstall b.ctx 0 (b.f 16 4) es t id w := by
  simp only [anchorCopyOp, hc]
  refine (guardDesc_passes ?_ _ _ _).trans ?_
  · simp [firstFail, ho, hdir, notOwner_of_ctx hc, hown, hop, hcl, hes]
  · simp only [hdir, hes, hdrop, Option.getD_some, Bool.false_eq_true, if_true, if_false]
    rfl

variable (hdir : b.f 10 1 = 2)
include hdir

theorem anchorCopyOp_short (h : b.f 40 4 < (anchorRun c.anchors).length) : anchorCopyOp b t w = complete t stNoRes w := by
  simp only [anchorCopyOp, hc]
  refine guardDesc_fails ?_ _ _ _
  simp [firstFail, ho, hdir, notOwner_of_ctx hc, hown, h]
theorem anchorCopyOp_writes (h : (anchorRun c.anchors).length ≤ b.f 40 4) (hhost : b.hostErr = none) :
    anchorCopyOp b t w = complete t stOk (hostWrite t (b.q 24) (anchorRun c.anchors) w) := by
  simp only [anchorCopyOp, hc]
  refine (guardDesc_passes ?_ _ _ _).trans ?_
  · simp [firstFail, ho, hdir, notOwner_of_ctx hc, hown, Nat.not_lt.mpr h]
  · simp [hdir, hostGuard_good hhost]
end Anchors

theorem anchorInstall_gone {es : List (Nat × Anchor)} {o : Nat} (h : anchorsAsOf es o = none) (x dir : Nat) (t : Tok) (f : Sw → Sw)
    (w : Sw) : anchorInstall x dir o es t f w = complete t stGone w := by
  rw [anchorInstall, h]
theorem anchorInstall_table {es : List (Nat × Anchor)} {o : Nat} {m : SMap Anchor} (h : anchorsAsOf es o = some m) (x dir : Nat) (t : Tok)
    (f : Sw → Sw) (w : Sw) : anchorInstall x dir o es t f w = raiseCtx x 0x0660 (le 1 dir ++ le 4 o ++ le 4 m.length)
      (complete t stOk (f (w.modCtx x fun c => { c with anchors := m.foldl (fun a e => a.set e.1 e.2) c.anchors }))) := by
  rw [anchorInstall, h]

/-- Settles O20: a cell by its type and kind at the context it reaches, a descriptor by the first of its checks that fails or, where
all pass, by what its row makes of the switch after the dispatch. -/
theorem repairRule : Obligations.RepairRule := by
  unfold Obligations.RepairRule
  refine ⟨?cells, ?compare, ?timeout, ?config, ?context⟩
  case cells =>
    intro s p x q o c m w k ha ho
    subst ho
    have hk := arrival_ctx ha
    have acks {t : Sw} : ackArrive x q m w = t → becomes (.resultAckReceive p c) s t := becomes_of_arrival ackArrive rfl ha
    have reinjects {t : Sw} : reinjectArrive x q m w = t → becomes (.reinjectReqReceive p c) s t :=
      becomes_of_arrival reinjectArrive rfl ha
    have digests {t : Sw} : digestArrive x q m w = t → becomes (.digestReceive p c) s t := becomes_of_arrival digestArrive rfl ha
    refine ⟨fun h => acks (ackArrive_other hk h), fun h => reinjects (reinjectArrive_other hk h),
      fun h => digests (digestArrive_other hk h), fun h hc hkind hq => ⟨fun hm => ?_, fun hs => ?_⟩,
      fun hc hkind hq => acks (ackArrive_release hk hc hkind hq), ?open_, ?onward, ?request, ?judged, ?answers⟩
    · exact acks ((ackArrive_delivered hk hc hkind hq).trans (if_neg (by simp [hm])))
    · exact acks ((ackArrive_delivered hk hc hkind hq).trans (if_pos hs))
    case open_ =>
      exact fun r hc hq hr => ⟨fun ho => reinjects (reinjectArrive_ended hk hc hq hr ho),
        fun ho hkind => reinjects (reinjectArrive_contrib hk hc hq hr ho hkind),
        fun a n ho hkind hset hn hkept => hn ▸ reinjects (reinjectArrive_result hk hc hq hr ho hkind hset hkept)⟩
    case onward => exact fun up hc hq ho hkind hup hne => reinjects (reinjectArrive_onward hk hc hq ho hkind hup hne)
    case request => exact fun hc hkind => digests (digestArrive_request hk hc hkind)
    case judged =>
      intro d own hc hkind hheld hn hown hd
      subst hd
      have takes := digestArrive_takes (q := q) hk hc hkind
      rw [hheld] at takes
      have hcmp := takes.trans (digestTake_compares hk hn hown)
      exact ⟨fun h => digests (hcmp.trans (if_pos h)), fun h => digests (hcmp.trans (if_neg (by simp [h])))⟩
    case answers =>
      exact fun e hc hkind hcmp hx hop hp hown => digests ((digestArrive_takes hk hc hkind).trans
        (digestTake_answers hk hcmp hx hop hp hown))
  case compare =>
    intro s b x o c hh hx ho hc hcl hown hl hport
    subst hx ho
    have compares {u : Sw} : digestCompareOp b (descTok 0x82 b s.sw) (descSw 0x82 b s.sw) = u → becomes (.digestCompare b) s u :=
      becomes_of_desc digestCompareOp rfl hh
    exact ⟨fun h => compares (digestCompareOp_bad (w := descSw 0x82 b s.sw) _ hc hport h),
      fun h => compares (digestCompareOp_asks (w := descSw 0x82 b s.sw) _ hc hport hl hcl hown h)⟩
  case timeout =>
    exact fun s x o => ⟨fun h => stays_of_lift (digestCompareEnd x o) rfl (digestCompareEnd_none h),
      fun e h hx ho => becomes_of_lift (digestCompareEnd x o) rfl (digestCompareEnd_one h hx ho)⟩
  case config =>
    exact fun s b hh hl => ⟨fun hlo hhi => becomes_of_desc recConfigOp rfl hh (recConfigOp_bad _ _ hlo hhi),
      fun hlog hcount hwindow hdepth hmib hmax => becomes_of_desc recConfigOp rfl hh
        (recConfigOp_sets _ _ hl hlog hcount hwindow hdepth hmib hmax)⟩
  case context =>
    intro s b x c hx hc hown
    subst hx
    refine ⟨fun hh hl => ⟨fun h => ?_, fun bytes hsel hb => ?_⟩, fun hh hl => ⟨fun h => ?_, fun hroot hlo hhi => ?_⟩, fun es hh hl =>
      ⟨fun hdir hcl hop hdrop hes => ?install, fun hdir => ?read⟩⟩
    · exact becomes_of_desc recReadOp rfl hh (recReadOp_bad (w := descSw 0x81 b s.sw) _ hc h)
    · subst hb
      exact ⟨fun h => becomes_of_desc recReadOp rfl hh (recReadOp_short (w := descSw 0x81 b s.sw) _ hc hl hown hsel h),
        fun h hhost => becomes_of_desc recReadOp rfl hh (recReadOp_writes (w := descSw 0x81 b s.sw) _ hc hl hown hsel h hhost)⟩
    · exact becomes_of_desc stepAckOp rfl hh (stepAckOp_bad (w := descSw 0x85 b s.sw) _ hc h)
    · exact becomes_of_desc stepAckOp rfl hh (stepAckOp_sets (w := descSw 0x85 b s.sw) _ hc hl hown hroot hlo hhi)
    case install =>
      have hinstall := anchorCopyOp_installs (w := descSw 0x86 b s.sw) (descTok 0x86 b s.sw) hc hown hl hdir hcl hop hdrop hes
      exact ⟨fun h => becomes_of_desc anchorCopyOp rfl hh (hinstall.trans (anchorInstall_gone h ..)),
        fun m h => becomes_of_desc anchorCopyOp rfl hh (hinstall.trans (anchorInstall_table h ..))⟩
    case read =>
      exact ⟨fun h => becomes_of_desc anchorCopyOp rfl hh (anchorCopyOp_short (w := descSw 0x86 b s.sw) _ hc hown hl hdir h),
        fun h hhost => becomes_of_desc anchorCopyOp rfl hh (anchorCopyOp_writes (w := descSw 0x86 b s.sw) _ hc hown hl hdir h hhost)⟩
end Sys2Proof.Machine
end

section
/-! PROOFS. The tests of a switch that is grafted, and the copies that its contexts take from their sources (O21). -/
namespace Sys2Proof.Machine

/-! ### Fields of a payload and its bytes -/

theorem ofLe_le_from (x a n : Nat) : ofLe ((List.range' a n).map fun i => BitVec.ofNat 8 (x >>> (8 * i))) = (x >>> (8 * a)) % 2 ^ (8 * n) := by
  induction n generalizing a with
  | zero => simp [ofLe, Nat.mod_one]
  | succ n ih =>
    have hshift : x >>> (8 * (a + 1)) = x >>> (8 * a) / 256 := by rw [Nat.mul_succ, Nat.shiftRight_add, Nat.shiftRight_eq_div_pow _ 8]
    have hpow : 2 ^ (8 * (n + 1)) = 256 * 2 ^ (8 * n) := by rw [Nat.mul_succ, Nat.pow_add, Nat.mul_comm]
    rw [List.range'_succ, List.map_cons, ofLe, ih, hshift, hpow, Nat.mod_mul, BitVec.toNat_ofNat]
/-- Bytes of a cell's payload, read from those past an offset, are a field of it. -/
theorem bytesAt_payload (c : Cell) {a i n : Nat} (h : a + i + n ≤ 64) : bytesAt ((c.bytes 64).drop a) i n = c.f (a + i) n := by
  have hlen : n ≤ 64 - (a + i) := by omega
  rw [Cell.bytes, bytes64, le, List.take_of_length_le (by simp), bytesAt, List.drop_drop, List.range_eq_range', ← List.map_drop, ← List.map_take,
    List.drop_range', List.take_range'_of_length_ge hlen, ofLe_le_from]
  simp [Cell.f, dfield, field]

/-! ### GRAFT_TEST (09 R313, R314) -/

section Test
variable {b : Sub} (t : Tok) {w : Sw}

theorem graftTestOp_bad (h : w.portActive (b.f 8 2) = false) : graftTestOp b t w = complete t stBad w := by
  unfold graftTestOp
  refine guardDesc_fails ?_ _ _ _
  simp [firstFail, h]

variable (ho : b.only [by_ 8 3, by_ 16 16] = true) (hp : w.portActive (b.f 8 2) = true)
include ho hp

theorem graftTestOp_denied (h : w.rcv.graft.running = true) : graftTestOp b t w = complete t stDenied w := by
  unfold graftTestOp
  refine guardDesc_fails ?_ _ _ _
  simp [firstFail, ho, hp, h]
theorem graftTestOp_begins (h : w.rcv.graft.running = false) (hhost : b.hostErr = none) : graftTestOp b t w =
    raiseSys 0x0640 (le 1 2) (w.modRec fun r => { r with graft := {
      st := .selfTest, partner := b.f 8 2, linkMs := if b.f 10 1 = 0 then 100 else b.f 10 1, vseed := b.q 16
      mask := BitVec.ofNat 512 (ofLe (b.host.take 64)), ran := r.graft.ran, tok := some t } }) := by
  unfold graftTestOp
  refine (guardDesc_passes ?_ _ _ _).trans (hostGuard_good hhost ..)
  simp [firstFail, ho, hp, h]
end Test

theorem modTestGraft_eq (f : Graft → Graft) (w : Sw) : w.modTestGraft f = w.modRec fun r => { r with graft := f w.rcv.graft } := rfl
theorem modTestGraft_twice (f g : Graft → Graft) (w : Sw) : (w.modTestGraft f).modTestGraft g = w.modTestGraft fun a => g (f a) := rfl
theorem graftEnter_linkTest (w : Sw) :
    graftEnter .linkTest w = raiseSys 0x0640 (le 1 3) (w.modTestGraft fun g => { g with st := .linkTest }) := rfl

section Steps
variable {w : Sw}

theorem graftSelfTest_stands (h : w.rcv.graft.st ≠ .selfTest) : graftSelfTest w = w := by simp [graftSelfTest, h]
theorem graftLinkTest_stands (h : w.rcv.graft.st ≠ .linkTest) : graftLinkTest w = w := by simp [graftLinkTest, h]
theorem graftVectors_stands (h : w.rcv.graft.st ≠ .vectors) : graftVectors w = w := by simp [graftVectors, h]
theorem graftVectorEnd_stands (h : w.rcv.graft.st ≠ .vectors) : graftVectorEnd w = w := by simp [graftVectorEnd, h]

section SelfTest
variable (hst : w.rcv.graft.st = .selfTest)
include hst

theorem graftSelfTest_fails {n : Nat} (h : (bitsOf w.rcv.graft.mask).find? w.portOut = some n) :
    graftSelfTest w = graftFail 2 n stLost w := by
  simp only [graftSelfTest, hst, h, bne_self_eq_false, Bool.false_eq_true, if_false]
/-- With ports, stacks and tiles in service the counters of each port are taken for the link test. -/
theorem graftSelfTest_passes (hports : (bitsOf w.rcv.graft.mask).all (fun n => !w.portOut n) = true)
    (hstacks : (List.range 24).all (fun k => !w.stackPopulated k || (w.stack k).state != .failed) = true)
    (htiles : w.logicalTiles.all w.inService = true) : graftSelfTest w = raiseSys 0x0640 (le 1 3) (w.modRec fun r => { r with
      graft := { w.rcv.graft with
        st := .linkTest, base := (bitsOf w.rcv.graft.mask).map fun n => (n, linkBase (w.port n).cnt) } }) := by
  have hp : (bitsOf w.rcv.graft.mask).find? w.portOut = none := by
    simpa only [List.find?_eq_none, List.all_eq_true, Bool.not_eq_true', Bool.not_eq_true] using hports
  have hs : (List.range 24).find? (fun k => w.stackPopulated k && (w.stack k).state == .failed) = none := by
    simpa [List.find?_eq_none, List.all_eq_true, Decidable.imp_iff_not_or] using hstacks
  have ht : w.logicalTiles.find? (fun q => !w.inService q) = none := by
    simpa [List.find?_eq_none, List.all_eq_true] using htiles
  simp only [graftSelfTest, hst, hp, hs, ht, bne_self_eq_false, Bool.false_eq_true, if_false]
  rw [graftEnter_linkTest, modTestGraft_twice, modTestGraft_eq]
end SelfTest

section LinkTest
variable (hst : w.rcv.graft.st = .linkTest)
include hst

theorem graftLinkTest_fails {n : Nat} {k : LinkBase} {rest : List (Nat × LinkBase)} (hb : w.rcv.graft.base = (n, k) :: rest)
    (h : linkPass w n k = false) : graftLinkTest w = graftFail 3 n stLost w := by
  have hfind : List.find? (fun (e : Nat × LinkBase) => !linkPass w e.1 e.2) w.rcv.graft.base = some (n, k) := by
    rw [hb, List.find?_cons_of_pos (by simp [h])]
  simp only [graftLinkTest, hst, hfind, bne_self_eq_false, Bool.false_eq_true, if_false]
theorem graftLinkTest_passes (h : w.rcv.graft.base.all (fun e => linkPass w e.1 e.2) = true) : graftLinkTest w =
    sendGraftOn w.rcv.graft.partner [graftCell 0 0 0xFFFF 0 (le 8 w.rcv.graft.vseed.toNat)]
      (raiseSys 0x0640 (le 1 4) (w.modRec fun r => { r with graft := { w.rcv.graft with st := .vectors } })) := by
  have hfind : List.find? (fun (e : Nat × LinkBase) => !linkPass w e.1 e.2) w.rcv.graft.base = none :=
    List.find?_eq_none.mpr fun e he => by simp [List.all_eq_true.mp h e he]
  simp only [graftLinkTest, hst, hfind, bne_self_eq_false, Bool.false_eq_true, if_false]
  rfl
end LinkTest

/-- Cells that go out leave the test as it stands. -/
theorem sendGraftOn_rcv (o : Nat) (cells : List Cell) (w : Sw) : (sendGraftOn o cells w).rcv = w.rcv :=
  (sendGraftOn_keeps (ps := parts32) (by decide) (.refl _ w) .rcv (by decide)).symm

theorem graftJudge_waits (h : w.rcv.graft.own = none ∨ w.rcv.graft.peer = none) : graftJudge w = w := by
  unfold graftJudge
  cases ho : w.rcv.graft.own with
  | none => simp [ho]
  | some a => simp [h.resolve_left (by simp [ho]), ho]

section Judge
variable {d e : Quad} (hst : w.rcv.graft.st = .vectors) (ho : w.rcv.graft.own = some d) (hp : w.rcv.graft.peer = some e)
include hst ho hp

theorem graftJudge_equal (h : e = d) : graftJudge w = completeOpt w.rcv.graft.tok stOk
    (raiseSys 0x0640 (le 1 5) (w.modRec fun r => { r with graft := { r.graft with st := .tested, tok := none } })) := by
  subst h
  simp only [graftJudge, hst, ho, hp, bne_self_eq_false, beq_self_eq_true, Bool.false_eq_true, if_false, if_true]
  rfl
theorem graftJudge_unequal (h : e ≠ d) : graftJudge w = graftFail 4 w.rcv.graft.partner stMismatch w := by
  simp [graftJudge, hst, ho, hp, h.symm]
end Judge

/-- The vectors once reduced: the digest is kept and goes to the partner, then both are judged. -/
theorem graftVectors_sends {d : Quad} (hst : w.rcv.graft.st = .vectors) (ho : w.rcv.graft.own = none) (hd : d = vectorDigest w.rcv.graft.vseed) :
    graftVectors w = graftJudge (sendGraftOn w.rcv.graft.partner [graftCell 0 1 0xFFFF 0 (le 8 d.toNat)]
      (w.modRec fun r => { r with graft := { w.rcv.graft with own := some d } })) := by
  rw [hd]
  exact if_neg (by simp [hst, ho])
theorem graftVectorEnd_fails (hst : w.rcv.graft.st = .vectors) (hp : w.rcv.graft.peer = none) :
    graftVectorEnd w = graftFail 4 w.rcv.graft.partner stTimeout w := by
  simp [graftVectorEnd, hst, hp]
end Steps

/-! ### GRAFT_COPY (09 R313, R316) -/

theorem modGraft_ctx? {w : Sw} {x : Nat} {c : Ctx} (hc : w.ctx? x = some c) (f : GraftCtx → GraftCtx) :
    (w.modGraft x f).ctx? x = some { c with graft := f c.graft } := by
  rw [Sw.modGraft, modCtx_ctx?, hc, Option.map_some]
theorem modGraft_congr {w : Sw} {x : Nat} {c : Ctx} {f g : GraftCtx → GraftCtx} (hc : w.ctx? x = some c) (h : f c.graft = g c.graft) :
    w.modGraft x f = w.modGraft x g := by
  rw [Sw.modGraft, Sw.modGraft, modCtx_of_ctx hc, modCtx_of_ctx hc, h]
theorem raiseCtx_ctx? (x code : Nat) (content : List Byte) (w : Sw) (y : Nat) : (raiseCtx x code content w).ctx? y = w.ctx? y :=
  ctx?_of_keeps (raiseCtx_keeps (ps := evParts) (by decide) (.refl _ w)) (by decide) y
theorem sendGraft_ctx? (x q : Nat) (cells : List Cell) (w : Sw) (y : Nat) : (sendGraft x q cells w).ctx? y = w.ctx? y :=
  ctx?_of_keeps (sendGraft_keeps (ps := parts32) (by decide) (.refl _ w)) (by decide) y

theorem askCopy_of_ctx {w : Sw} {x : Nat} {c : Ctx} (hc : w.ctx? x = some c) (shard n : Nat) : askCopy x shard n w =
    sendGraft x c.graft.src [graftCell x 2 shard 0 (le 4 c.graft.firstOp ++ le 4 n)] (w.modGraft x fun g => { g with last := w.now }) := by
  rw [askCopy, hc]
  rfl
/-- Of a copy of the anchors alone they are left until they are here. -/
theorem copyLeft_anchors {c : Ctx} (hscope : c.graft.scope = 1) (hdone : c.graft.anchorsDone = false) : c.copyLeft = (true, []) := by
  simp [Ctx.copyLeft, hscope, hdone]
theorem copyDone_waits {w : Sw} {x : Nat} {c : Ctx} (hc : w.ctx? x = some c) (h : c.copyLeft.1 = true) : copyDone x w = w := by
  simp only [copyDone, hc, h, Bool.or_true, Bool.true_or, if_true]
/-- A request leaves what is left of the copy. -/
theorem copyDone_askCopy {w : Sw} {x : Nat} {c : Ctx} (hc : w.ctx? x = some c) (h : c.copyLeft.1 = true) (shard n : Nat) :
    copyDone x (askCopy x shard n w) = askCopy x shard n w := by
  rw [askCopy, hc]
  exact copyDone_waits ((sendGraft_ctx? ..).trans (modGraft_ctx? hc _)) h

/-- What a GRAFT_COPY of the anchors from another source than before makes of a context's copy. -/
def GraftCtx.beginAnchors (b : Sub) (t : Tok) (now : Nat) (g : GraftCtx) : GraftCtx :=
  { g with
    st := .copying, src := b.f 10 2, scope := 1, firstOp := b.f 16 4, anchorBytes := [], anchorsDone := false, images := [], stale := 0
    tok := some t, last := now }

section Copy
variable {b : Sub} (t : Tok) {w : Sw} {c : Ctx} (hc : w.ctx? b.ctx = some c)
include hc

theorem graftCopyOp_bad (h : c.leadsToSwitch (b.f 10 2) = false) : graftCopyOp b t w = complete t stBad w := by
  unfold graftCopyOp
  refine guardDesc_fails ?_ _ _ _
  simp [firstFail, hc, h]

variable (ho : b.only [lctx, by_ 10 2, bi_ 12 0 2, by_ 16 4] = true) (hcl : c.closing = false) (hsrc : c.leadsToSwitch (b.f 10 2) = true)
  (hscope : b.bits 12 0 2 = 1)
include ho hcl hsrc hscope

theorem graftCopyOp_denied (h : w.rcv.graft.st ≠ .tested) : graftCopyOp b t w = complete t stDenied w := by
  unfold graftCopyOp
  refine guardDesc_fails ?_ _ _ _
  simp [firstFail, ho, hc, active_of_ctx hc, hcl, hsrc, hscope, h]
/-- The anchors are asked for first, and the copy waits for them. -/
theorem graftCopyOp_begins {u : Sw} (hst : w.rcv.graft.st = .tested) (hidle : c.graft.st = .idle) (hnew : c.graft.src ≠ b.f 10 2)
    (hu : u = raiseCtx b.ctx 0x0640 (le 1 6) (w.modGraft b.ctx (GraftCtx.beginAnchors b t w.now))) :
    graftCopyOp b t w = settle b.ctx (rejoin b.ctx (sendGraft b.ctx (b.f 10 2) [graftCell b.ctx 2 0xFFFF 0 (le 4 (b.f 16 4) ++ le 4 0)]
      (u.modGraft b.ctx fun g => { g with last := u.now }))) := by
  have hcu : u.ctx? b.ctx = some { c with graft := c.graft.beginAnchors b t w.now } := by
    rw [hu, raiseCtx_ctx?, modGraft_ctx? hc]
  have hleft := copyLeft_anchors (c := { c with graft := c.graft.beginAnchors b t w.now }) rfl rfl
  have hbegin := modGraft_congr hc (g := GraftCtx.beginAnchors b t w.now) (f := fun g =>
    let keep := g.src == b.f 10 2 && g.firstOp == b.f 16 4
    { g with st := .copying, src := b.f 10 2, scope := b.bits 12 0 2, firstOp := b.f 16 4, anchorBytes := []
             anchorsDone := keep && g.anchorsDone, images := if keep then g.images else [], stale := if keep then g.stale else 0
             tok := some t, last := w.now }) (by simp [GraftCtx.beginAnchors, hnew, hscope])
  unfold graftCopyOp
  refine (guardDesc_passes ?_ _ _ _).trans ?_
  · simp [firstFail, ho, hc, active_of_ctx hc, hcl, hsrc, hscope, hst, hidle]
  · simp only [hbegin, graftStepEvent, ← hu, hcu, hleft, if_true, each, List.foldl_nil]
    rw [copyDone_askCopy hcu (by rw [hleft]), askCopy_of_ctx hcu]
    rfl
end Copy

/-! ### GRAFT cells (09 R315 to R317) -/

/-- Vectors belong to the switch, and travel only between switches. -/
theorem graftCellIn_vector {p : Nat} {c m : Cell} {s w : Sw} (hi : ingress p c s = (some m, w)) (hc : isCtrl c ctGraft) (hkind : c.f 0 1 ≤ 1) :
    graftCellIn p c s = if w.isSwitch p then vectorCell p m w else w := by
  obtain ⟨htc, hct⟩ := hc
  simp only [graftCellIn, htc, hct, hkind, hi, beq_self_eq_true, decide_true, Bool.and_self, if_true]
/-- A cell of another kind belongs to its context. -/
theorem graftCellIn_context {p : Nat} {c : Cell} {s : Sw} (hkind : 1 < c.f 0 1) :
    graftCellIn p c s = toContext p c (fun x q c s => settle x (rejoin x (copyCell x q c s))) s := by
  have h : ¬ c.f 0 1 ≤ 1 := by omega
  simp only [graftCellIn, h, decide_false, Bool.and_false, Bool.false_eq_true, if_false]

section Vector
variable {p : Nat} {c : Cell} {w : Sw}

theorem vectorCell_known (hkind : c.f 0 1 = 0) (h : SMap.find? p w.rcv.graft.ran = some (c.q 8)) : vectorCell p c w = w := by
  simp [vectorCell, gkVstart, hkind, h]
theorem vectorCell_answers (hkind : c.f 0 1 = 0) (h : SMap.find? p w.rcv.graft.ran = none) : vectorCell p c w =
    sendGraftOn p [graftCell 0 1 0xFFFF 0 (le 8 (vectorDigest (c.q 8)).toNat)]
      (w.modRec fun r => { r with graft := { r.graft with ran := r.graft.ran.set p (c.q 8) } }) := by
  simp only [vectorCell, gkVstart, hkind, h, if_true]
  rfl
theorem vectorCell_stands (hkind : c.f 0 1 = 1) (h : w.rcv.graft.st ≠ .vectors ∨ w.rcv.graft.partner ≠ p) : vectorCell p c w = w := by
  have hother : (w.rcv.graft.st == .vectors && w.rcv.graft.partner == p) = false := by
    simpa [Decidable.imp_iff_not_or] using h
  simp [vectorCell, gkVstart, hkind, hother]
/-- Before the own digest is there the partner's is kept. -/
theorem vectorCell_takes (hkind : c.f 0 1 = 1) (hst : w.rcv.graft.st = .vectors) (hp : w.rcv.graft.partner = p)
    (ho : w.rcv.graft.own = none) :
    vectorCell p c w = w.modRec fun r => { r with graft := { r.graft with peer := some (c.q 8) } } := by
  simp only [vectorCell, gkVstart, hkind, hst, hp, beq_self_eq_true, Bool.and_self, Nat.one_ne_zero, if_false, if_true]
  exact graftJudge_waits (.inl ho)
end Vector

section CopyCell
variable {w : Sw} {x q : Nat} {c : Cell} {k : Ctx} (hk : w.ctx? x = some k)
include hk

theorem copyCell_other (h : ¬ isCtrl c ctGraft ∨ k.leadsToSwitch q = false) : copyCell x q c w = w := by
  have hidle : (c.tc != 5 || c.ctype != ctGraft || !k.leadsToSwitch q) = true := by
    obtain h | h := h
    · rw [ctrlGuard_true h, Bool.true_or]
    · rw [h, Bool.not_false, Bool.or_true]
  simp only [copyCell, hk, hidle, if_true]

variable (hc : isCtrl c ctGraft) (hq : k.leadsToSwitch q = true)
include hc hq

/-- The anchors asked for are owed to a requester that nothing is served yet. -/
theorem copyCell_owes (hkind : c.f 0 1 = 2) (hshard : c.f 2 2 = 0xFFFF) (hnew : SMap.find? q k.graft.serving = none) :
    copyCell x q c w = w.modGraft x fun g => { g with serving := g.serving.set q (c.f 8 4, true, []) } := by
  have hfirst : bytesAt ((c.bytes 64).drop 8) 0 4 = c.f 8 4 := bytesAt_payload c (by omega)
  simp [copyCell, serveCopy, gkCopyReq, noShard, hk, ctrlGuard_false hc, hq, hkind, hshard, SMap.getD, hnew, hfirst]

variable (hsrc : k.graft.src = q) (hst : k.graft.st = .copying)
include hsrc hst

theorem copyCell_anchors (hkind : c.f 0 1 = 3) (hdone : k.graft.anchorsDone = false) (hscope : k.graft.scope % 2 = 1)
    (hblock : c.f 4 4 = (k.graft.anchorBytes.length + 47) / 48) (hdata : allZero (((c.bytes 64).drop 8).take 48) = false) :
    copyCell x q c w = (w.modGraft x fun g => { g with last := w.now }).modGraft x fun g => { g with
      anchorBytes := g.anchorBytes ++ ((c.bytes 64).drop 8).take 48 } := by
  simp [copyCell, takeAnchors, gkCopyReq, gkBad, gkAnchors, hk, ctrlGuard_false hc, hq, hkind, hsrc, modGraft_ctx? hk, hst, hdone, hscope,
    hblock, hdata]
theorem copyCell_stale {u : Sw} (hkind : c.f 0 1 = 7) (himg : k.graft.images.mem (c.f 2 2) = true)
    (hu : u = clearShard x (c.f 2 2) (w.modGraft x fun g => { g with last := w.now })) : copyCell x q c w =
      askCopy x (c.f 2 2) 1 (u.modGraft x fun g => { g with st := .copying, stale := g.stale + 1, images := g.images.erase (c.f 2 2) }) := by
  subst hu
  simp [copyCell, takeStale, gkCopyReq, gkBad, gkAnchors, gkImage, gkStale, hk, ctrlGuard_false hc, hq, hkind, hsrc, modGraft_ctx? hk, hst,
    himg]
end CopyCell

section Timeout
variable {w : Sw} {x : Nat} {c : Ctx} (hc : w.ctx? x = some c)
include hc

theorem copyTimeout_stands (h : c.graft.st ≠ .copying) : copyTimeout x w = w := by simp [copyTimeout, hc, h]
theorem copyTimeout_ends (h : c.graft.st = .copying) : copyTimeout x w = raiseCtx x 0x0640 (le 1 5) (completeOpt c.graft.tok stTimeout
    (w.modGraft x fun g => { g with st := .idle, tok := none, anchorBytes := [], images := g.images.filter fun e => e.2.done })) := by
  simp only [copyTimeout, hc, h, bne_self_eq_false, Bool.false_eq_true, if_false]
  rfl
end Timeout

/-- Settles O21: a command of the test by the state it meets and what it finds, a copy by its source, and a cell by its kind. -/
theorem graftRule : Obligations.GraftRule := by
  unfold Obligations.GraftRule
  refine ⟨?test, ?steps, ?copy, ?vector, ?cells, ?timeout⟩
  case test =>
    intro s b hh hl
    have tests {u : Sw} : graftTestOp b (descTok 0x83 b s.sw) (descSw 0x83 b s.sw) = u → becomes (.graftTest b) s u :=
      becomes_of_desc graftTestOp rfl hh
    exact ⟨fun hp => tests (graftTestOp_bad _ hp), fun hp hr => tests (graftTestOp_denied _ hl hp hr),
      fun hp hr hhost => tests (graftTestOp_begins _ hl hp hr hhost)⟩
  case steps =>
    intro s g failed hg hfailed
    subst hg
    have fails {step unit status : Nat} {w : Sw} (ht : w.rcv.graft.tok = s.sw.rcv.graft.tok) :
        graftFail step unit status w = failed step unit status w := by
      rw [hfailed, ← ht]
      rfl
    refine ⟨fun h => ?_, fun h => ?_, fun h => ⟨?_, ?_⟩, fun n hst h => ?_, fun hst hp hs ht => ?_, fun n k rest hst hb h => ?_,
      fun hst h => ?_, fun d w hst ho hd hw => ?vectors, ?_⟩
    · exact stays_of_lift graftSelfTest rfl (graftSelfTest_stands h)
    · exact stays_of_lift graftLinkTest rfl (graftLinkTest_stands h)
    · exact stays_of_lift graftVectors rfl (graftVectors_stands h)
    · exact stays_of_lift graftVectorEnd rfl (graftVectorEnd_stands h)
    · exact becomes_of_lift graftSelfTest rfl ((graftSelfTest_fails hst h).trans (fails rfl))
    · exact becomes_of_lift graftSelfTest rfl (graftSelfTest_passes hst hp hs ht)
    · exact becomes_of_lift graftLinkTest rfl ((graftLinkTest_fails hst hb h).trans (fails rfl))
    · exact becomes_of_lift graftLinkTest rfl (graftLinkTest_passes hst h)
    case vectors =>
      have hg : w.rcv.graft = { s.sw.rcv.graft with own := some d } := by
        rw [hw, sendGraftOn_rcv]
        rfl
      have hsend := graftVectors_sends hst ho hd
      rw [← hw] at hsend
      have hwst : w.rcv.graft.st = .vectors := by rw [hg]; exact hst
      have hown : w.rcv.graft.own = some d := by rw [hg]
      have hpeer : w.rcv.graft.peer = s.sw.rcv.graft.peer := by rw [hg]
      have htok : w.rcv.graft.tok = s.sw.rcv.graft.tok := by rw [hg]
      have hpart : w.rcv.graft.partner = s.sw.rcv.graft.partner := by rw [hg]
      refine ⟨fun hp => ?_, fun hp => ?_, fun e hp hne => ?_⟩
      · exact becomes_of_lift graftVectors rfl (hsend.trans (graftJudge_waits (.inr (hpeer.trans hp))))
      · exact becomes_of_lift graftVectors rfl (hsend.trans (htok ▸ graftJudge_equal hwst hown (hpeer.trans hp) rfl))
      · have hjudge := graftJudge_unequal hwst hown (hpeer.trans hp) hne
        rw [hpart] at hjudge
        exact becomes_of_lift graftVectors rfl ((hsend.trans hjudge).trans (fails htok))
    · exact fun hst hp => becomes_of_lift graftVectorEnd rfl ((graftVectorEnd_fails hst hp).trans (fails rfl))
  case copy =>
    intro s b x c hh hx hc hcl hl
    subst hx
    have copies {u : Sw} : graftCopyOp b (descTok 0x84 b s.sw) (descSw 0x84 b s.sw) = u → becomes (.graftCopy b) s u :=
      becomes_of_desc graftCopyOp rfl hh
    exact ⟨fun hsrc => copies (graftCopyOp_bad (w := descSw 0x84 b s.sw) _ hc hsrc), fun hsrc hscope =>
      ⟨fun hst => copies (graftCopyOp_denied (w := descSw 0x84 b s.sw) _ hc hl hcl hsrc hscope hst),
        fun u hst hidle hnew hu => copies (graftCopyOp_begins (w := descSw 0x84 b s.sw) _ hc hl hcl hsrc hscope hst hidle hnew hu)⟩⟩
  case vector =>
    intro s p v c m w hi hc hkind _
    have hin := graftCellIn_vector hi hc hkind
    have answers {t : Sw} (hs : w.isSwitch p = true) (ht : vectorCell p m w = t) : becomes (.graftCellReceive p c) s t :=
      becomes_of_lift (graftCellIn p c) rfl ((hin.trans (if_pos hs)).trans ht)
    refine ⟨fun hs => becomes_of_lift (graftCellIn p c) rfl (hin.trans (if_neg (by simp [hs]))), fun hs hm => ⟨fun h => ?_, fun h => ?_⟩,
      fun hs hm => ⟨fun h => ?_, fun hst hp ho => ?_⟩⟩
    · exact answers hs (vectorCell_known hm h)
    · exact answers hs (vectorCell_answers hm h)
    · exact answers hs (vectorCell_stands hm h)
    · exact answers hs (vectorCell_takes hm hst hp ho)
  case cells =>
    intro s p x q c m w k ha hkind
    have hk := arrival_ctx ha
    have copies {t : Sw} (ht : copyCell x q m w = t) : becomes (.graftCellReceive p c) s (settle x (rejoin x t)) :=
      becomes_of_lift (graftCellIn p c) rfl ((graftCellIn_context hkind).trans
        ((toContext_arrival ha _).trans (congrArg (fun u => settle x (rejoin x u)) ht)))
    refine ⟨fun h => copies (copyCell_other hk h), fun hc hq hm hshard hnew => ?_, fun hc hq hm hsrc hst hdone hscope hblock hdata => ?_,
      fun u hc hq hm hsrc hst himg hu => ?_⟩
    · exact copies (copyCell_owes hk hc hq hm hshard hnew)
    · exact copies (copyCell_anchors hk hc hq hsrc hst hm hdone hscope hblock hdata)
    · exact copies (copyCell_stale hk hc hq hsrc hst hm himg hu)
  case timeout =>
    exact fun s x c hc => ⟨fun h => stays_of_lift (copyTimeout x) rfl (copyTimeout_stands hc h),
      fun h => becomes_of_lift (copyTimeout x) rfl (copyTimeout_ends hc h)⟩
end Sys2Proof.Machine
end

section
/-! PROOFS. What the work of the contexts leaves of the wear entries (15 R498, R500): outvotes of shadow checks mark them, and
nothing else of them changes. One lemma per function on the way from a port that leaves UP to a shadow check. -/
namespace Sys2Proof.Machine

/-- A wear entry but for its mark that the tile was outvoted. -/
def Wear.unmarked (w : Wear) : Wear := { w with outvoted := false }
/-- Every wear entry stands but for that mark. -/
def Sw.wearStands (a b : Sw) : Prop := ∀ i, (b.wearOf i).unmarked = (a.wearOf i).unmarked
/-- The parts that a reset can change, the wear entries apart. -/
def unwornParts : List Piece := coldParts.filter (· ≠ .wear)

theorem Sw.wearStands.refl (s : Sw) : s.wearStands s := fun _ => rfl
theorem Sw.wearStands.trans {a s t : Sw} (h : a.wearStands s) (k : s.wearStands t) : a.wearStands t := fun i => (k i).trans (h i)
theorem wearStands_of_keeps {s t : Sw} (k : Sw.keeps unwornParts s t) : s.wearStands t := by
  have hwear : s.wear = t.wear := k .wear (by decide)
  intro i
  rw [Sw.wearOf, Sw.wearOf, hwear]
/-- A change that does not touch the entries. -/
theorem Sw.wearStands.next {a s t : Sw} (h : a.wearStands s) (k : Sw.keeps unwornParts s t) : a.wearStands t :=
  h.trans (wearStands_of_keeps k)
/-- A change that is made on a condition. -/
theorem Sw.wearStands.onlyIf {a s t : Sw} {c : Prop} [Decidable c] (h : a.wearStands s) (k : s.wearStands t) :
    a.wearStands (if c then t else s) := by
  split
  · exact h.trans k
  · exact h
theorem Sw.wearStands.unless {a s t : Sw} {c : Prop} [Decidable c] (h : a.wearStands s) (k : s.wearStands t) :
    a.wearStands (if c then s else t) := by
  split
  · exact h
  · exact h.trans k
theorem wearStands_ite {a s t : Sw} {c : Prop} [Decidable c] (h : a.wearStands s) (k : a.wearStands t) :
    a.wearStands (if c then s else t) := by
  split
  · exact h
  · exact k
theorem each_wearStands {α : Type} {a s : Sw} {f : α → Sw → Sw} {l : List α} (h : a.wearStands s) (hf : ∀ x (t : Sw), t.wearStands (f x t)) :
    a.wearStands (each l f s) := by
  induction l generalizing s with
  | nil => exact h
  | cons x l ih => exact ih (h.trans (hf x s))

/-! ### Shadow checks (09 R303 to R306) -/

theorem countFault_wearStands (q : Option Nat) (s : Sw) : s.wearStands (countFault q s) := by
  unfold countFault
  split
  · exact .refl s
  · next p _ =>
    intro i
    simp only [Sw.wearOf, Sw.modWear, Sw.modRec, Sw.modTile, SMap.getD_set]
    split
    · next hi => rw [hi]; rfl
    · rfl
theorem shadowMismatch_wearStands {kind x o cell q : Nat} {v : Vote} {s : Sw} : s.wearStands (shadowMismatch kind x o cell q v s) :=
  .next (.trans (.next (.refl s) (draw_keeps (by decide) (draw_keeps (by decide) (draw_keeps (by decide) (.refl _ _)))))
      (countFault_wearStands _ _))
    (limited_keeps (by decide) (fun _ _ h => raiseCtx_keeps (by decide) h)
      (modRec_keeps (by decide) (modCtx_keeps (by decide) (.refl _ _))))
theorem shadowCheck_wearStands {kind x o cell q : Nat} {s : Sw} : s.wearStands (shadowCheck kind x o cell q s).2 := by
  unfold shadowCheck
  dsimp only
  split
  · exact .next (.refl s) (draw_keeps (by decide) (modCtx_keeps (by decide) (.refl _ _)))
  · exact .trans (.next (.refl s) (draw_keeps (by decide) (modCtx_keeps (by decide) (.refl _ _)))) shadowMismatch_wearStands
/-- What a shadow check has left, whatever its vote. -/
theorem wearStands_ofCheck {kind x o cell q : Nat} {v : Vote} {s t : Sw} (h : shadowCheck kind x o cell q s = (v, t)) : s.wearStands t := by
  have ht : (shadowCheck kind x o cell q s).2 = t := by rw [h]
  exact ht ▸ shadowCheck_wearStands
theorem slotCheck_wearStands {x o k : Nat} {s : Sw} : s.wearStands (slotCheck x o k s) := by
  unfold slotCheck
  split
  · exact .refl s
  · refine .unless (.refl s) ?_
    dsimp only
    split
    · next hv => exact .next (wearStands_ofCheck hv) (trigger_keeps (by decide) (modCtx_keeps (by decide) (.refl _ _)))
    · next hv => exact wearStands_ofCheck hv
theorem egressChecks_wearStands {x o q : Nat} {cells : List Nat} {s : Sw} : s.wearStands (egressChecks x o q cells s) := by
  refine each_wearStands (.refl s) fun k t => ?_
  split
  · next hv => exact wearStands_ofCheck hv
  · next hv => exact .next (wearStands_ofCheck hv) (shadowAfter_keeps (by decide) (.refl _ _))

/-! ### Contributions and results (02 R42, R53; 04 R151) -/

theorem contribute_wearStands {x o q k : Nat} {part : Part} {s : Sw} : s.wearStands (contribute x o q k part s) := by
  unfold contribute
  split
  · refine .unless (.refl s) (wearStands_ite (.next (.refl s) (countDup_keeps (by decide) (.refl _ _))) ?_)
    refine .onlyIf (.onlyIf (.onlyIf (.next (.refl s) (setCtx_keeps (by decide) (.refl _ _))) ?_) ?_) ?_
    · exact .next (.refl _) (anchorTouch_keeps (by decide) (.refl _ _))
    · exact .next (.refl _) (nearMemory_keeps (by decide) (.refl _ _))
    · exact .trans (.next (.refl _) (unstageBackups_keeps (by decide) (.refl _ _))) slotCheck_wearStands
  · exact .refl s
theorem convertStaged_wearStands {x o q prim rank k : Nat} {s : Sw} : s.wearStands (convertStaged x o q prim rank k s) := by
  unfold convertStaged
  split
  · have began := wearStands_of_keeps (modOp_keeps (x := x) (o := o) (f := fun p => { p with waiting := p.waiting.filter fun e => e != (q, k) })
      (by decide) (.refl _ s))
    refine wearStands_ite (.next began (unstage_keeps (by decide) (countDup_keeps (by decide) (.refl _ _)))) ?_
    refine .next (.trans (wearStands_ite ?_ ?_) contribute_wearStands) (unstage_keeps (by decide) (.refl _ _))
    · exact .next began (foldWindow_keeps (by decide) (modOp_keeps (by decide) (.refl _ _)))
    · exact .next began (foldStaged_keeps (by decide) (.refl _ _))
  · exact .refl s
theorem takeBackup_wearStands {x o k : Nat} {h : Child} {s : Sw} : s.wearStands (takeBackup x o k h s) := by
  unfold takeBackup
  split
  · exact .unless (.refl s) (.next convertStaged_wearStands (markBackup_keeps (by decide) (.refl _ _)))
  · exact .refl s
theorem deliverMember_wearStands {x o q : Nat} {h : Child} {mine : List (Nat × Part)} {first_ : Bool} {s : Sw} :
    s.wearStands (deliverMember x o q h mine first_ s) := by
  unfold deliverMember
  split
  · refine .trans (.onlyIf (.refl s) (.trans (each_wearStands (.refl s) fun e t => ?_) egressChecks_wearStands))
      (wearStands_ite (each_wearStands (.refl _) fun e t => ?_) (each_wearStands (.refl _) fun j t => ?_))
    · exact .next (.refl t) (noteSaturation_keeps (by decide) (.refl _ _))
    · exact .next (.refl t) (sparseDeliver_keeps (by decide) (.refl _ _))
    · split
      · exact .refl t
      · exact .next (.onlyIf (.refl t) (.next (.refl t) (foldCell_keeps (by decide) (.refl _ _)))) (ctxSend_keeps (by decide) (.refl _ _))
  · exact .refl s
theorem emit_wearStands {x o : Nat} {cells : List (Nat × Part)} {only : Option Nat} {first_ : Bool} {s : Sw} :
    s.wearStands (emit x o cells only first_ s) := by
  unfold emit
  split
  · refine each_wearStands (.next (.onlyIf (.refl s) (each_wearStands (.refl s) fun e t => ?_)) (modOp_keeps (by decide) (.refl _ _)))
      fun q t => ?_
    · exact .next (.refl t) (retain_keeps (by decide) (.refl _ _))
    · dsimp only
      split
      · exact deliverMember_wearStands
      · refine each_wearStands (.refl t) fun u t => .next (.onlyIf (.refl t) (each_wearStands (.refl t) fun pay t => ?_))
          (ctxSend_keeps (by decide) (.refl _ _))
        exact .next (.refl t) (foldCell_keeps (by decide) (.refl _ _))
  · exact .refl s
theorem gatherEmit_wearStands {x o : Nat} {s : Sw} : s.wearStands (gatherEmit x o s) := by
  unfold gatherEmit
  split
  · refine .unless (.refl s) ?_
    dsimp only
    split
    · exact .next (.refl s) (modOp_keeps (by decide) (.refl _ _))
    · exact .trans (.next (.refl s) (modOp_keeps (by decide) (.refl _ _))) emit_wearStands
  · exact .refl s

/-! ### Release, joins and the end of operations (02 R55 to R60; 04 R136, R137, R148) -/

theorem releaseCells_wearStands {x o g : Nat} {cells : List (Nat × Part)} {fin : Bool} {s : Sw} :
    s.wearStands (releaseCells x o g cells fin s) := by
  unfold releaseCells
  split
  · refine .unless (wearStands_ite ?store ?children) ?told
    case store =>
      refine .next (each_wearStands (.next (.refl s) (modOp_keeps (by decide) (.refl _ _))) fun e t => ?_)
        (commitStore_keeps (by decide) (.refl _ _))
      have written {b : Bool} {u : Sw} {i : Int} (h : gradWrite x o e.1 i e.2 t = (b, u)) : Sw.keeps unwornParts t u :=
        keeps_ofPair h (gradWrite_keeps (by decide) (.refl _ t))
      dsimp only
      split
      · next hw => exact .next (.refl t) (modCtx_keeps (by decide) (written hw))
      · next hw => exact .next (.refl t) (modCtx_keeps (by decide) (modOp_keeps (by decide) (written hw)))
    case children =>
      refine .trans (each_wearStands (.next (.refl s) (modOp_keeps (by decide) (.refl _ _))) fun e t => ?_) emit_wearStands
      exact .next (.refl t) (modCtx_keeps (by decide) (.refl _ _))
    case told => exact .next (.refl _) (sendNotice_keeps (by decide) (takeAnchor_keeps (by decide) (.refl _ _)))
  · exact .refl s
theorem judgeSegment_wearStands {x o g : Nat} {s : Sw} : s.wearStands (judgeSegment x o g s) := by
  have saturated (l : List (Nat × Part)) (final : Bool) : s.wearStands (saturateCells x o g l final s).2 :=
    .next (.refl s) (saturateCells_keeps (by decide) (.refl _ _))
  unfold judgeSegment
  split
  · dsimp only
    refine .unless (.refl s) (wearStands_ite releaseCells_wearStands (wearStands_ite (.trans (saturated _ _) releaseCells_wearStands)
      (wearStands_ite releaseCells_wearStands (wearStands_ite ?_ (.trans (saturated _ _) releaseCells_wearStands)))))
    exact .next (.refl s) (replaySegment_keeps (by decide) (.refl _ _))
  · exact .refl s
theorem progress_wearStands {x o : Nat} {s : Sw} : s.wearStands (progress x o s) := by
  have sent : s.wearStands (sendUp x o s) := .next (.refl s) (sendUp_keeps (by decide) (.refl _ _))
  unfold progress
  split
  · refine .unless (.refl s) (wearStands_ite sent (.next (.trans sent ?_) (endCheck_keeps (by decide) (.refl _ _))))
    exact each_wearStands (.refl _) fun g t => judgeSegment_wearStands
  · exact .refl s
theorem enterJoined_wearStands {x o : Nat} {s : Sw} : s.wearStands (enterJoined x o s) := by
  unfold enterJoined
  split
  · refine .next (.trans (.trans (each_wearStands (.onlyIf (.next (.refl s) ?entered) ?late) fun h t => each_wearStands (.refl t) fun q t => ?tell)
      gatherEmit_wearStands) progress_wearStands) (exchCheck_keeps (by decide) (endCheck_keeps (by decide) (.refl _ _)))
    case entered => exact graftRelease_keeps (by decide) (earlyKnown_keeps (by decide) (modOp_keeps (by decide) (.refl _ _)))
    case late => exact .next (.refl _) (lateLaunch_keeps (by decide) (.refl _ _))
    case tell => exact .next (.refl t) (tellJoined_keeps (by decide) (.refl _ _))
  · exact .refl s
theorem rootJoined_wearStands {x o : Nat} {s : Sw} : s.wearStands (rootJoined x o s) := by
  unfold rootJoined
  split
  · exact .refl s
  · refine wearStands_ite (.next (.refl s) ?_) (.trans (.next (.refl s) ?_) enterJoined_wearStands)
    · exact finishOp_keeps (by decide) (modOp_keeps (by decide) (.refl _ _))
    · exact modOp_keeps (by decide) (.refl _ _)
theorem joinGo_wearStands {x o : Nat} {s : Sw} : s.wearStands (joinGo x o s) := by
  have counted : s.wearStands (countsCheck x o s) := .next (.refl s) (countsCheck_keeps (by decide) (.refl _ _))
  refine .trans counted ?_
  unfold joinGo
  dsimp only
  generalize countsCheck x o s = t
  split
  · next c p _ _ =>
    have gathered : t.wearStands (if c.storeGather p.blk then resolveGather x o t else (true, t)).2 := by
      split
      · exact .next (.refl t) (resolveGather_keeps (by decide) (.refl _ _))
      · exact .refl t
    refine .unless (.refl t) (wearStands_ite gathered (.trans gathered (wearStands_ite rootJoined_wearStands (.next (.refl _) ?_))))
    exact grantOp_keeps (by decide) (sendUpJoin_keeps (by decide) (.refl _ _))
  · exact .refl t
theorem replayCounts_wearStands {x o : Nat} {s : Sw} : s.wearStands (replayCounts x o s) := by
  unfold replayCounts
  split
  · exact .refl s
  · refine .trans (each_wearStands (.next (.refl s) (setCtx_keeps (by decide) (.refl _ _))) fun e t => ?_) joinGo_wearStands
    exact .next (.refl t) (takeCounts_keeps (by decide) (.refl _ _))
theorem acceptJoin_wearStands {x o q : Nat} {h : Child} {j : JoinBody} {s : Sw} : s.wearStands (acceptJoin x o q h j s) := by
  unfold acceptJoin
  split
  · extract_lets bar own clear first took
    have taken : s.wearStands took := .next (.refl s) (modOp_keeps (by decide) (clearStall_keeps (by decide) (.refl _ _)))
    refine wearStands_ite (.next taken (failHere_keeps (by decide) (.refl _ _)))
      (.trans (.onlyIf (.onlyIf (.onlyIf (.unless taken ?member) ?switch) ?counts) ?joined) joinGo_wearStands)
    case member =>
      dsimp only
      split
      · exact .next (.refl _) (ctxCtrl_keeps (by decide) (modOp_keeps (by decide) (modOp_keeps (by decide) (.refl _ _))))
      · exact .next (.refl _) (modOp_keeps (by decide) (.refl _ _))
    case switch => exact .next (.refl _) (grantOp_keeps (by decide) (.refl _ _))
    case counts => exact .next (.refl _) (routeCounts_keeps (by decide) (.refl _ _))
    case joined => exact .next (.refl _) (tellJoined_keeps (by decide) (.refl _ _))
  · exact .refl s
theorem judgeJoin_wearStands {x o q : Nat} {h : Child} {backup : Bool} {c : Cell} {s : Sw} :
    s.wearStands (judgeJoin x o q h backup c s) := by
  have failed (status : Nat) (t : Sw) : t.wearStands (failHere x o status t) := .next (.refl t) (failHere_keeps (by decide) (.refl _ _))
  unfold judgeJoin
  dsimp only
  split
  · exact .refl s
  · refine wearStands_ite (.next (.refl s) (joinReject_keeps (by decide) (.refl _ _)))
      (.trans (.onlyIf (.onlyIf (.refl s) ?opens) ?tells)
        (wearStands_ite (failed _ _) (wearStands_ite (failed _ _) (.onlyIf acceptJoin_wearStands replayCounts_wearStands))))
    case opens => exact .next (.refl _) (openOp_keeps (by decide) (.refl _ _))
    case tells => exact .next (.refl _) (raiseCtx_keeps (by decide) (.refl _ _))
theorem joinArrive_wearStands {x q : Nat} {c : Cell} {s : Sw} : s.wearStands (joinArrive x q c s) := by
  have held {f : Ctx → Ctx} : s.wearStands (s.modCtx x f) := .next (.refl s) (modCtx_keeps (by decide) (.refl _ _))
  have rejected {o cause : Nat} : s.wearStands (joinReject x q o cause s) := .next (.refl s) (joinReject_keeps (by decide) (.refl _ _))
  unfold joinArrive
  dsimp only
  split
  · exact .refl s
  · split
    · exact wearStands_ite held rejected
    · refine .unless (.refl s) (wearStands_ite ?ended (wearStands_ite held (wearStands_ite held (wearStands_ite held (wearStands_ite held
        (wearStands_ite ?full ?window))))))
      case ended => exact .next (.refl s) (tellEnd_keeps (by decide) (.refl _ _))
      case full => exact .next (.refl s) (joinReject_keeps (by decide) (tellEnd_keeps (by decide) (.refl _ _)))
      case window =>
        split
        · exact .onlyIf (.refl s) judgeJoin_wearStands
        · exact wearStands_ite rejected judgeJoin_wearStands

/-! ### A context goes on (04 R130; 06 R215, R218) -/

theorem rejoin_wearStands {x : Nat} {s : Sw} : s.wearStands (rejoin x s) := by
  unfold rejoin
  split
  · exact .refl s
  · exact each_wearStands (.next (.refl s) (setCtx_keeps (by decide) (.refl _ _))) fun e t => joinArrive_wearStands
theorem recanopyCheck_wearStands {x : Nat} {s : Sw} : s.wearStands (recanopyCheck x s) := by
  unfold recanopyCheck
  split
  · exact .refl s
  · split
    · exact .refl s
    · refine .unless (.refl s) (.trans (.next (.refl s) (raiseCtx_keeps (by decide) (each_keeps (fun h _ _ hs => ?_)
        (parentCheck_keeps (by decide) (mapCtx_keeps (by decide) (modCtx_keeps (by decide) (unmapCtx_keeps (by decide) (.refl _ _))))))))
        rejoin_wearStands)
      exact sendBound_keeps (by decide) hs
theorem reshardCheck_wearStands {x : Nat} {s : Sw} : s.wearStands (reshardCheck x s) := by
  unfold reshardCheck
  split
  · exact .refl s
  · split
    · exact .refl s
    · refine .unless (.refl s) (each_wearStands (.next (.refl s) (raiseCtx_keeps (by decide) (retile_keeps (by decide)
        (modCtx_keeps (by decide) (each_keeps (fun k _ _ hs => ?_) (.refl _ _)))))) fun h t => joinArrive_wearStands)
      exact emptyShard_keeps (by decide) hs
theorem settleOps_wearStands {x : Nat} {s : Sw} : s.wearStands (settleOps x s) := by
  unfold settleOps
  split
  · exact .refl s
  · refine each_wearStands (.refl s) fun o t => ?_
    have failed {status : Nat} {down : Bool} {u : Sw} (h : Sw.keeps unwornParts t u) : t.wearStands (failOp x o status down u) :=
      .next (.refl t) (failOp_keeps (by decide) h)
    split
    · exact .refl t
    · refine wearStands_ite (.next (.refl t) (deliveredCheck_keeps (by decide) (.refl _ _)))
        (wearStands_ite (failed (.refl _ _)) (wearStands_ite (failed (.refl _ _)) ?_))
      split
      · exact failed (raiseCtx_keeps (by decide) (.refl _ _))
      · split
        · exact failed (raiseCtx_keeps (by decide) (.refl _ _))
        · exact wearStands_ite (.trans progress_wearStands joinGo_wearStands)
            (.next progress_wearStands (deliveredCheck_keeps (by decide) (exchCheck_keeps (by decide) (.refl _ _))))
theorem settle_wearStands {x : Nat} {s : Sw} : s.wearStands (settle x s) :=
  .next (.trans (.trans (.trans settleOps_wearStands recanopyCheck_wearStands) reshardCheck_wearStands) settleOps_wearStands)
    (closeCheck_keeps (by decide) (freeRecords_keeps (by decide) (snapCtx_keeps (by decide) (grantCtx_keeps (by decide)
      (graftServe_keeps (by decide) (releaseCheck_keeps (by decide) (.refl _ _)))))))

/-! ### A port leaves UP (03 R107; 04 R151; 10 R345 to R349) -/

theorem pathsDisturbed_wearStands {x : Nat} {ports : List Nat} {s : Sw} : s.wearStands (each ports (pathDisturbed x) s) :=
  each_wearStands (.refl s) fun _ t => .next (.refl t) (pathDisturbed_keeps (by decide) (.refl _ _))
theorem ctxPortDown_wearStands {n x : Nat} {s : Sw} : s.wearStands (ctxPortDown n x s) := by
  unfold ctxPortDown
  split
  · exact .refl s
  · next c _ =>
    extract_lets disturbed copied mine alone mirrored changed ended
    have backup : disturbed.wearStands copied := by
      dsimp only [copied]
      split
      · exact each_wearStands (.refl _) fun e t => each_wearStands (.refl t) fun k t => takeBackup_wearStands
      · exact .refl _
    have mirror : copied.wearStands mirrored := by
      dsimp only [mirrored]
      split
      · refine wearStands_ite (.unless (.refl _) ?_) (each_wearStands (.next (.unless (.refl _) ?_) (modStore_keeps (by decide) (.refl _ _)))
          fun k t => .next (.refl t) (raiseCtx_keeps (by decide) (.refl _ _)))
        all_goals exact .next (.refl _) (modCtx_keeps (by decide) (.refl _ _))
      · exact .refl _
    have change : mirrored.wearStands changed := .onlyIf (.refl _) (.next (.refl _) (modCtx_keeps (by decide) (.refl _ _)))
    have source : changed.wearStands ended := .onlyIf (.refl _) (.next (.refl _) (copyTimeout_keeps (by decide) (.refl _ _)))
    exact .trans (.trans (.trans (.trans (.trans pathsDisturbed_wearStands backup) mirror) change) source) settle_wearStands
theorem portDownCtxs_wearStands {n : Nat} {s : Sw} : s.wearStands (portDownCtxs n s) :=
  each_wearStands (.refl s) fun _ _ => ctxPortDown_wearStands
theorem flipCtx_wearStands {loss : Bool} {x : Nat} {s : Sw} : s.wearStands (flipCtx loss x s) := by
  unfold flipCtx
  split
  · exact .refl s
  · exact .trans (.next (.onlyIf (.refl s) pathsDisturbed_wearStands) (pathCheck_keeps (by decide) (flipExchanges_keeps (by decide) (.refl _ _))))
      settle_wearStands
theorem flip_wearStands {src cause : Nat} {lostId fgtc : Quad} {noprop : Bool} {s : Sw} :
    s.wearStands (flip src cause lostId fgtc noprop s) := by
  unfold flip
  split
  · exact .refl s
  · extract_lets gen old active waits adopted raised told announced completed
    clear_value waits
    have began : s.wearStands raised := .next (.refl s) (raiseSys_keeps (by decide) (modFab_keeps (by decide)
      (modVer_keeps (by decide) (modVer_keeps (by decide) (.refl _ _)))))
    have tells : raised.wearStands told := .unless (.refl _)
      (each_wearStands (.refl _) fun n t => .next (.refl t) (sendCtrl_keeps (by decide) (.refl _ _)))
    have completes : announced.wearStands completed := by
      dsimp only [completed]
      split
      · exact .next (.refl _) (completeOpt_keeps (by decide) (.refl _ _))
      · exact .refl _
    have ends : s.wearStands completed := .trans (.next (.trans began tells) (announceAll_keeps (by decide) (.refl _ _))) completes
    exact each_wearStands ends fun x t => flipCtx_wearStands
theorem flipOnLoss_wearStands {n : Nat} {s : Sw} : s.wearStands (flipOnLoss n s) := by
  unfold flipOnLoss
  split
  · exact flip_wearStands
  · exact .refl s
theorem dropQueues_wearStands {n : Nat} {s : Sw} : s.wearStands (dropQueues n s).2 := by
  have lost {sent : Bool} {marks : List Mark} {a t : Sw} (h : Sw.keeps unwornParts a t) :
      Sw.keeps unwornParts a (each marks (lostMark sent) t) := each_keeps (fun _ _ _ h => lostMark_keeps (by decide) h) h
  refine .next (.refl s) (raiseSys_keeps (by decide) (each_keeps (fun _ _ _ h => lost h) (each_keeps (fun _ _ _ h => ?_)
    (modCnt_keeps (by decide) (modLink_keeps (by decide) (modQ_keeps (by decide) (.refl _ _)))))))
  exact lostMark_keeps (by decide) h
theorem leaveUp_wearStands {n : Nat} {s : Sw} : s.wearStands (leaveUp n s).2 := by
  have dropped : s.wearStands (dropQueues n s).2 := dropQueues_wearStands
  unfold leaveUp
  generalize dropQueues n s = q at dropped ⊢
  obtain ⟨frames, gone⟩ := q
  dsimp only at dropped ⊢
  refine .trans (.next (.trans (.next dropped ?_) flipOnLoss_wearStands) (dropAnnounce_keeps (by decide) (.refl _ _))) portDownCtxs_wearStands
  exact modPSec_keeps (by decide) (modReg_keeps (by decide) (fun _ => rfl) (fun _ => rfl) (.refl _ _))
theorem toLost_wearStands {n reason : Nat} {partner down : Option Nat} {s : Sw} : s.wearStands (toLost n reason partner down s) := by
  unfold toLost
  split
  · exact .refl s
  · extract_lets lost noted
    have began : s.wearStands noted :=
      .next (.refl s) (modReg_keeps (by decide) (fun _ => rfl) (fun _ => rfl) (setPortSt_keeps (by decide) (.refl _ _)))
    have left : s.wearStands (leaveUp n noted).2 := .trans began leaveUp_wearStands
    generalize leaveUp n noted = q at left ⊢
    obtain ⟨frames, gone⟩ := q
    dsimp only at left ⊢
    refine .next (.trans left ?_) (splitClear_keeps (by decide) (raiseSys_keeps (by decide) (.refl _ _)))
    split
    · exact .next (.refl _) (owesLinkDown_keeps (by decide) (.refl _ _))
    · exact .refl _

/-! ### LINK_DOWN frames (03 R116; 16 R518) -/

/-- A frame that uses up its key takes its port to LOST. -/
theorem transmit_wearStands {n : Nat} {f : Frame} {s : Sw} : s.wearStands (transmit n f s) := by
  unfold transmit
  dsimp only
  split
  · exact .unless (.refl s) (.next (.refl s) (out_keeps (by decide) (modLink_keeps (by decide) (.refl _ _))))
  · have sent {p : PortSec → PortSec} {l : PortLink → PortLink} {o : Out} : s.wearStands (((s.modLink n l).out o).modPSec n p) :=
      .next (.refl s) (modPSec_keeps (by decide) (out_keeps (by decide) (modLink_keeps (by decide) (.refl _ _))))
    exact wearStands_ite (.next sent (raiseHeld_keeps (by decide) (.refl _ _))) (.onlyIf sent toLost_wearStands)
theorem downFrames_wearStands {n reason : Nat} {s : Sw} : s.wearStands (downFrames n reason s) :=
  .trans (.trans transmit_wearStands transmit_wearStands) transmit_wearStands
theorem linkDownAll_wearStands {reason : Nat} {s : Sw} : s.wearStands (linkDownAll reason s) :=
  each_wearStands (.refl s) fun _ _ => .next downFrames_wearStands (modReg_keeps (by decide) (fun _ => rfl) (fun _ => rfl) (.refl _ _))
end Sys2Proof.Machine
end

section
/-! PROOFS. What a warm reset keeps and loses (14 R473, R474; 12 R407). -/
namespace Sys2Proof.Machine

/-! ### What a warm reset leaves of each unit -/

theorem SMap.find?_mapEntries {β γ : Type} (f : Nat → β → γ) (k : Nat) (m : SMap β) :
    SMap.find? k (m.map fun e => (e.1, f e.1 e.2)) = (SMap.find? k m).map (f k) := by
  induction m with
  | nil => rfl
  | cons e m ih =>
    obtain ⟨j, v⟩ := e
    by_cases hj : j = k
    · simp [SMap.find?, hj]
    · simpa [SMap.find?, hj] using ih

/-- A locked TIME domain draws its held correction; nothing else of the switch takes part. -/
theorem holdFreq_eq (s : Sw) : ∃ f n, holdFreq s = { s with time := { s.time with freq := f }, freeCtr := n } := by
  unfold holdFreq
  split
  · exact ⟨_, _, rfl⟩
  · exact ⟨s.time.freq, s.freeCtr, rfl⟩

theorem portReset_binding (active : Bool) (n : Nat) : (portReset active n).reg.binding = none := by
  cases active <;> rfl

/-- A port after a warm reset: a held one is carried over, any other one stands at its reset values. -/
theorem warmState_port (c n : Nat) (s : Sw) : (warmState c s).port n =
    match SMap.find? n s.ports with
    | some p => p.afterWarm n (s.portActive n)
    | none => portReset (s.portActive n) n := by
  have hp : SMap.find? n (warmState c s).ports = (SMap.find? n s.ports).map fun p => p.afterWarm n (s.portActive n) :=
    SMap.find?_mapEntries (fun k (p : Port) => p.afterWarm k (s.portActive k)) n s.ports
  rw [Sw.port, SMap.getD, hp]
  cases SMap.find? n s.ports <;> rfl

theorem warmState_port_allow (c n : Nat) (s : Sw) : ((warmState c s).port n).reg.allow = (s.port n).reg.allow := by
  rw [warmState_port, Sw.port, SMap.getD]
  cases SMap.find? n s.ports <;> rfl
theorem warmState_port_timeAsym (c n : Nat) (s : Sw) : ((warmState c s).port n).reg.timeAsym = (s.port n).reg.timeAsym := by
  rw [warmState_port, Sw.port, SMap.getD]
  cases SMap.find? n s.ports <;> rfl
theorem warmState_port_binding (c n : Nat) (s : Sw) : ((warmState c s).port n).reg.binding = none := by
  rw [warmState_port]
  cases SMap.find? n s.ports <;> exact portReset_binding _ n
theorem warmState_quad_split (c q : Nat) (s : Sw) : ((warmState c s).quad q).split = (s.quad q).split :=
  SMap.getD_mapVals_keep (fun d : QuadPort => { split := d.split, splitNow := d.split, lastMode := d.lastMode }) QuadPort.split
    (fun _ => rfl) q {} s.quads
theorem warmState_lane_txInit (c l : Nat) (s : Sw) : ((warmState c s).lane l).txInit = (s.lane l).txInit :=
  SMap.getD_mapVals_keep Lane.afterWarm Lane.txInit (fun _ => rfl) l {} s.lanes
theorem warmState_lane_trainMs (c l : Nat) (s : Sw) : ((warmState c s).lane l).trainMs = (s.lane l).trainMs :=
  SMap.getD_mapVals_keep Lane.afterWarm Lane.trainMs (fun _ => rfl) l {} s.lanes
theorem warmState_lane_conv (c l : Nat) (s : Sw) : ((warmState c s).lane l).conv = (s.lane l).conv :=
  SMap.getD_mapVals_keep Lane.afterWarm Lane.conv (fun _ => rfl) l {} s.lanes
theorem warmState_root_enable (c p : Nat) (s : Sw) : ((warmState c s).root p).enable = (s.root p).enable :=
  SMap.getD_mapVals_keep (fun r : Cxl => { enable := r.enable, use := r.use, total := r.total, used := r.used }) Cxl.enable
    (fun _ => rfl) p {} s.cxl
theorem warmState_tile_role (c p : Nat) (s : Sw) : ((warmState c s).tile p).role = (s.tile p).role :=
  SMap.getD_mapVals_keep Tile.afterReset Tile.role (fun _ => rfl) p _ s.tiles
theorem warmState_wear_samples (c i : Nat) (s : Sw) : ((warmState c s).wearOf i).samples = (s.wearOf i).samples :=
  SMap.getD_mapVals_keep Wear.afterReset Wear.samples (fun _ => rfl) i {} s.wear.entries
theorem warmState_sync_locked {c : Nat} {s : Sw} (h : s.sync.state = .locked) : (warmState c s).sync.state = .holdover :=
  if_pos (by simp [h])
theorem warmState_sync_unlocked {c : Nat} {s : Sw} (h : s.sync.state ≠ .locked) : (warmState c s).sync.state = .freeRun :=
  if_neg (by simp [h])

/-! ### The switch whose links are told and whose writes are given up -/

/-- The switch on which a warm reset takes hold, but for the correction a locked TIME domain holds. -/
def Sw.quiesced (s : Sw) : Sw := dropWrites (linkDownAll 2 s)

theorem quiesced_keeps (s : Sw) : Sw.keeps (parts44 ++ parts69) s s.quiesced :=
  dropWrites_keeps (by decide) (linkDownAll_keeps (by decide) (.refl _ s))
theorem quiesced_wear_samples (i : Nat) (s : Sw) : (s.quiesced.wearOf i).samples = (s.wearOf i).samples :=
  have stands : s.wearStands s.quiesced := .next linkDownAll_wearStands (dropWrites_keeps (by decide) (.refl _ _))
  (congrArg Wear.samples (stands i) :)

/-- Settles O44: the state of a warm reset is read unit by unit off the quiesced switch; what that switch shares with the one before
the command is untouched by LINK_DOWN frames and abandoned writes. -/
theorem warmResetRule : Obligations.WarmResetRule := by
  unfold Obligations.WarmResetRule
  intro s c hstage
  obtain ⟨f, n, hheld⟩ := holdFreq_eq s.sw.quiesced
  have keeps := quiesced_keeps s.sw
  have hsites : s.sw.sites = s.sw.quiesced.sites := keeps .sites (by decide)
  have hengines : s.sw.engines = s.sw.quiesced.engines := keeps .engines (by decide)
  have hhold : s.sw.cxlHoldMs = s.sw.quiesced.cxlHoldMs := keeps .cxlHoldMs (by decide)
  have hglb : { s.sw.glb with evTimes := [] } = { s.sw.quiesced.glb with evTimes := [] } := keeps .glb (by decide)
  have hrun : exec (.warm c) s = .next { s with sw := warmReset c s.sw } := by
    rw [exec_warm, lift]
    simp [Sw.starting, hstage]
  have hwarm : warmReset c s.sw = warmState c { s.sw.quiesced with
      time := { s.sw.quiesced.time with freq := f }, freeCtr := n } := congrArg (warmState c) hheld
  rw [hwarm] at hrun
  refine ⟨s.sw.quiesced, _, rfl, hrun, rfl, rfl, rfl, rfl, rfl, rfl, rfl, rfl,
    fun m => ⟨warmState_port_allow c m _, warmState_port_timeAsym c m _⟩, fun m => warmState_port_binding c m _,
    fun q => warmState_quad_split c q _,
    fun l => ⟨warmState_lane_txInit c l _, warmState_lane_trainMs c l _, warmState_lane_conv c l _⟩,
    fun p => warmState_root_enable c p _, fun p => warmState_tile_role c p _, rfl, rfl,
    warmState_sync_locked (c := c), warmState_sync_unlocked (c := c), hsites.symm, hengines.symm, hhold.symm,
    fun i => (warmState_wear_samples c i _).trans (quiesced_wear_samples i s.sw),
    (congrArg Glb.clockReq hglb).symm, (congrArg Glb.ssc hglb).symm,
    congrArg (· + 1) (congrArg Glb.warms hglb).symm, (congrArg Glb.colds hglb).symm, rfl⟩
end Sys2Proof.Machine
end

section
/-! PROOFS. EPOCH cells, and the flips they ask for (O24). -/
namespace Sys2Proof.Machine

/-! ### The flip that stands when one more is asked for (10 R346, R351) -/

/-- Of the flip that waits and the flip r asked for, the one at the earlier instant; it completes the descriptor that waits. -/
def Sw.earlierFlip (s : Sw) (r : PendingFlip) : PendingFlip :=
  match s.fab.flip with
  | some o => { (if r.at_ != 0 && gtcReached r.at_ o.at_ then o else r) with tok := o.tok.or r.tok }
  | none => r

section Ask
variable {w : Sw} {r f o : PendingFlip}

theorem earlierFlip_alone (h : w.fab.flip = none) : w.earlierFlip r = r := by simp only [Sw.earlierFlip, h]
theorem earlierFlip_waiting (h : w.fab.flip = some o) (ht : r.tok = none) (h0 : r.at_ ≠ 0) (hr : gtcReached r.at_ o.at_ = true) :
    w.earlierFlip r = o := by
  simp only [Sw.earlierFlip, h, ht, bne_iff_ne.mpr h0, hr, Bool.and_self, if_true, Option.or_none]
theorem earlierFlip_asked (h : w.fab.flip = some o) (ht : r.tok = none) (hr : r.at_ = 0 ∨ gtcReached r.at_ o.at_ = false) :
    w.earlierFlip r = { r with tok := o.tok } := by
  obtain hr | hr := hr
  all_goals simp [Sw.earlierFlip, h, ht, hr]
theorem askFlip_eq : askFlip r w =
    if w.flipDue (w.earlierFlip r).at_ then flipNow (w.earlierFlip r) w else w.modFab fun f => { f with flip := some (w.earlierFlip r) } := rfl
theorem askFlip_due (hf : w.earlierFlip r = f) (h : w.flipDue f.at_ = true) : askFlip r w = flipNow f w := by
  rw [askFlip_eq, hf, if_pos h]
theorem askFlip_waits (hf : w.earlierFlip r = f) (h : w.flipDue f.at_ = false) :
    askFlip r w = w.modFab fun e => { e with flip := some f } := by
  rw [askFlip_eq, hf, if_neg (by simp [h])]
end Ask

/-! ### EPOCH cells (10 R332, R347) -/

/-- EPOCH cells travel only between switches. -/
theorem epochIn_ingress {p : Nat} {c m : Cell} {s w : Sw} (hi : ingress p c s = (some m, w)) :
    epochIn p c s = if w.isSwitch p then epochTake p m w else w := by simp only [epochIn, hi]

theorem announceTake_equal {p : Nat} {c : Cell} {w : Sw} (h : (w.fab.ranks.getD p {}).inn = c.f 24 2 ∧
    b2n (w.fab.ranks.getD p {}).dlIn = c.f 26 1 % 2) : announceTake p c w = w := by simp [announceTake, h]
theorem announceTake_differs {p : Nat} {c : Cell} {w : Sw} (h : (w.fab.ranks.getD p {}).inn ≠ c.f 24 2 ∨
    b2n (w.fab.ranks.getD p {}).dlIn ≠ c.f 26 1 % 2) : announceTake p c w = raiseSys 0x0725 (le 2 p ++ le 2 (w.fab.ranks.getD p {}).inn ++
      le 1 (b2n (w.fab.ranks.getD p {}).dlIn) ++ le 2 (c.f 24 2) ++ le 1 (c.f 26 1 % 2)) w := by
  have hd := not_and_or.mpr h
  simp [announceTake, hd]

/-- The flip that a FLIP cell asks for: no descriptor waits for it. -/
def cellFlip (p : Nat) (c : Cell) : PendingFlip :=
  { gen := c.f 0 4, at_ := c.q 8, noprop := false, loss := c.f 5 1 == 1, lostId := c.q 16, src := p, tok := none }

/-- The GEN g is not that of an ARMED version. -/
theorem armedGen_not {w : Sw} {g : Nat} (h : w.armed = none ∨ w.fab.armedGen ≠ g) : (w.armed.isSome && w.fab.armedGen == g) = false := by
  obtain h | h := h
  all_goals simp [h]
theorem epochTake_other {p : Nat} {c : Cell} {w : Sw} (h : ¬ isCtrl c ctEpoch) : epochTake p c w = w := by
  simp only [epochTake, ctrlGuard_true h, if_true]

section Take
variable {p : Nat} {c : Cell} {w : Sw} (hc : isCtrl c ctEpoch)
include hc

theorem epochTake_announce (hkind : c.f 4 1 = 1) : epochTake p c w = announceTake p c w := by
  simp [epochTake, ctrlGuard_false hc, hkind]

variable (hkind : c.f 4 1 = 0)
include hkind

theorem epochTake_adopted (hg : c.f 0 4 ≤ w.fab.gen) : epochTake p c w = w := by
  simp [epochTake, ctrlGuard_false hc, hkind, hg]

variable (hg : w.fab.gen < c.f 0 4)
include hg

theorem epochTake_unknown (ha : w.armed = none ∨ w.fab.armedGen ≠ c.f 0 4) : epochTake p c w =
    raiseSys 0x0722 (le 2 p ++ le 4 (c.f 0 4) ++ le 4 (if w.armed.isSome then w.fab.armedGen else 0)) w := by
  simp [epochTake, ctrlGuard_false hc, hkind, Nat.not_le.mpr hg, armedGen_not ha]
theorem epochTake_asks {v : Nat} (ha : w.armed = some v) (hgen : w.fab.armedGen = c.f 0 4) :
    epochTake p c w = askFlip (cellFlip p c) w := by
  simp [epochTake, cellFlip, ctrlGuard_false hc, hkind, Nat.not_le.mpr hg, ha, hgen]
end Take

/-- Settles O24: a cell of a neighbour switch by its kind and, for a FLIP, by its GEN; the flip asked for meets the one that waits. -/
theorem epochCellRule : Obligations.EpochCellRule := by
  unfold Obligations.EpochCellRule
  intro s p c m w e hi he hs hc
  subst he
  have takes {t : Sw} (ht : epochTake p m w = t) : becomes (.epochCellReceive p c) s t :=
    becomes_of_lift (epochIn p c) rfl ((epochIn_ingress hi).trans ((if_pos hs).trans ht))
  refine ⟨fun hkind => ⟨fun hg => takes (epochTake_adopted hc hkind hg), fun hg ha => takes (epochTake_unknown hc hkind hg ha),
    fun v f hg ha hgen at_ o hf => ?flip⟩,
    fun hkind => ⟨fun h => ?equal, fun h => ?differs⟩⟩
  case flip =>
    obtain ⟨hstands, rfl⟩ : w.earlierFlip (cellFlip p m) = f ∧ at_ = f.at_ := by
      obtain ⟨rfl, hn, rfl⟩ | ⟨ho, hat, ⟨h0, hr, rfl⟩ | ⟨hr, rfl⟩⟩ := hf
      · exact ⟨earlierFlip_alone hn, rfl⟩
      · exact ⟨earlierFlip_waiting ho rfl h0 hr, hat⟩
      · exact ⟨earlierFlip_asked ho rfl hr, hat⟩
    have hask := epochTake_asks hc hkind hg ha hgen (p := p)
    refine ⟨fun h => takes (hask.trans (askFlip_due hstands ?_)), fun h0 hr => takes (hask.trans (askFlip_waits hstands ?_))⟩
    · simpa [Sw.flipDue] using h
    · exact Bool.or_eq_false_iff.mpr ⟨beq_eq_false_iff_ne.mpr h0, hr⟩
  case equal => exact takes ((epochTake_announce hc hkind).trans (announceTake_equal h))
  case differs => exact takes ((epochTake_announce hc hkind).trans (announceTake_differs h))
end Sys2Proof.Machine
end

section
/-! PROOFS. Route versions, generations and flips (O23). -/
namespace Sys2Proof.Machine

/-! ### ROUTE_ARM (10 R345) -/

section Arm
variable {b : Sub} (t : Tok) {w : Sw}

theorem routeArmOp_oldGen (hoff : b.flag 9 0 = false) (hg : b.f 12 4 ≤ w.fab.gen) : routeArmOp b t w = complete t stBad w := by
  unfold routeArmOp
  refine guardDesc_fails ?_ _ _ _
  simp [firstFail, hoff, hg]

variable (ho : b.only [bi_ 8 0 1, bi_ 9 0 1, by_ 12 4, by_ 24 8] = true)
include ho

theorem routeArmOp_denied (hoff : b.flag 9 0 = false) (hg : w.fab.gen < b.f 12 4)
    (hst : (w.ver (b.bits 8 0 1)).st ≠ .standby ∨ (w.ver (1 - b.bits 8 0 1)).st ≠ .active) : routeArmOp b t w = complete t stDenied w := by
  unfold routeArmOp
  refine guardDesc_fails ?_ _ _ _
  obtain hst | hst := hst
  all_goals simp [firstFail, ho, hoff, Nat.not_le.mpr hg, hst]
theorem routeArmOp_arms (hoff : b.flag 9 0 = false) (hg : w.fab.gen < b.f 12 4) (hst : (w.ver (b.bits 8 0 1)).st = .standby)
    (hother : (w.ver (1 - b.bits 8 0 1)).st = .active) (hhost : b.hostErr = none) :
    routeArmOp b t w = announceAll (complete t stOk ((w.modVer (b.bits 8 0 1) fun r => { r with st := .armed }).modFab fun f =>
      { f with armedGen := b.f 12 4, trigger := if b.f 24 8 = 0 then 0 else BitVec.ofNat 512 (ofLe (b.host.take 64)) })) := by
  unfold routeArmOp
  refine (guardDesc_passes ?_ _ _ _).trans ((if_neg (by simp [hoff])).trans (hostGuard_good hhost ..))
  simp [firstFail, ho, hoff, Nat.not_le.mpr hg, hst, hother]
theorem routeArmOp_notArmed (hoff : b.flag 9 0 = true) (hst : (w.ver (b.bits 8 0 1)).st ≠ .armed) :
    routeArmOp b t w = complete t stDenied w := by
  unfold routeArmOp
  refine guardDesc_fails ?_ _ _ _
  simp [firstFail, ho, hoff, hst]
theorem routeArmOp_disarms (hoff : b.flag 9 0 = true) (hst : (w.ver (b.bits 8 0 1)).st = .armed) :
    routeArmOp b t w = disarm (b.bits 8 0 1) t w := by
  unfold routeArmOp
  refine (guardDesc_passes ?_ _ _ _).trans (if_pos hoff)
  simp [firstFail, ho, hoff, hst]
end Arm

/-! ### EPOCH_FLIP (10 R351) -/

/-- An instant that is at once, or not beyond the reach of a flip. -/
theorem instantGood_of {q g : Quad} {n : Nat} (h : q = 0 ∨ gtcBeyond q g n = false) : (q != 0 && gtcBeyond q g n) = false := by
  obtain h | h := h
  · rw [h]; rfl
  · rw [h, Bool.and_false]

/-- The flip that EPOCH_FLIP b asks for. -/
def descFlip (b : Sub) (t : Tok) : PendingFlip :=
  { gen := b.f 12 4, at_ := b.q 16, noprop := b.flag 9 0, loss := false, lostId := 0, src := 0xFFFF, tok := some t }

section Ask
variable {b : Sub} (t : Tok) {w : Sw}

theorem epochFlipOp_otherVersion {v : Nat} (ha : w.armed = some v) (hgen : w.fab.armedGen = b.f 12 4) (hv : b.bits 8 0 1 ≠ v) :
    epochFlipOp b t w = complete t stBad w := by
  unfold epochFlipOp
  refine guardDesc_fails ?_ _ _ _
  simp [firstFail, ha, hgen, Ne.symm hv]
theorem epochFlipOp_tooFar (h0 : b.q 16 ≠ 0) (hfar : gtcBeyond (b.q 16) w.gtc (2 ^ 36) = true) : epochFlipOp b t w = complete t stBad w := by
  have hbad : (b.q 16 != 0 && gtcBeyond (b.q 16) w.gtc (2 ^ 36)) = true := by rw [bne_iff_ne.mpr h0, hfar]; rfl
  unfold epochFlipOp
  refine guardDesc_fails ?_ _ _ _
  simp only [firstFail, hbad, Bool.or_true, Bool.true_or, if_true]

variable (ho : b.only [bi_ 8 0 1, bi_ 9 0 1, by_ 12 12] = true) (hat : b.q 16 = 0 ∨ gtcBeyond (b.q 16) w.gtc (2 ^ 36) = false)
include ho hat

section NotArmed
variable (ha : w.armed = none ∨ w.fab.armedGen ≠ b.f 12 4)
include ha

theorem epochFlipOp_stale (hn : w.fab.adopted.mem (b.f 12 4) = false) : epochFlipOp b t w = complete t stStale w := by
  unfold epochFlipOp
  refine guardDesc_fails ?_ _ _ _
  simp only [firstFail, ho, instantGood_of hat, armedGen_not ha, hn]
  rfl
theorem epochFlipOp_adopted {v cause src : Nat} {lostId : Quad} (hf : SMap.find? (b.f 12 4) w.fab.adopted = some (v, cause, lostId, src)) :
    epochFlipOp b t w = completeE t 0x0720 stOk (flipContent (1 - v) v (b.f 12 4) cause lostId src true) w := by
  unfold epochFlipOp
  refine (guardDesc_passes ?_ _ _ _).trans ?_
  · simp only [firstFail, ho, instantGood_of hat, armedGen_not ha, SMap.mem, hf]
    rfl
  · simp only [armedGen_not ha, hf, Bool.false_eq_true, if_false]
end NotArmed

theorem epochFlipOp_asks {v : Nat} (ha : w.armed = some v) (hgen : w.fab.armedGen = b.f 12 4) (hv : b.bits 8 0 1 = v)
    (hn : w.fab.flip = none) : epochFlipOp b t w = askFlip (descFlip b t) w := by
  unfold epochFlipOp
  refine (guardDesc_passes ?_ _ _ _).trans (if_pos (by simp [ha, hgen]))
  simp only [firstFail, ho, instantGood_of hat, ha, hgen, hv, hn]
  simp
end Ask

/-! ### Flips (10 R345, R346, R350) -/

/-- The switch once the ARMED version v is ACTIVE, before anyone is told. -/
def Sw.flipped (v cause : Nat) (lostId : Quad) (src : Nat) (w : Sw) : Sw :=
  ((w.modVer v fun r => { r with st := .active }).modVer (1 - v) fun r =>
    { r with st := if r.st == .active then .draining else r.st }).modFab fun f =>
      { f with epoch := v, gen := w.fab.armedGen, armedGen := 0, trigger := 0, flip := none
               adopted := f.adopted.set w.fab.armedGen (v, cause, lostId, src) }
/-- FLIP of version v on every UP switch port, unless NOPROP forbids it. -/
def tellFlip (v gen cause : Nat) (at_ lostId : Quad) (noprop : Bool) (s : Sw) : Sw :=
  if noprop then s else each s.upSwitches (fun n s =>
    sendCtrl n (epochCell gen 0 cause v at_ lostId (s.fab.ranks.getD n {}).out (b2n (s.fab.ranks.getD n {}).dlOut)) s) s
/-- The descriptor of the flip that waited, if any, completes. -/
def endFlip (f : Option PendingFlip) (s : Sw) : Sw := completeOpt (f.bind fun e => e.tok) stOk s

theorem tellFlip_keeps (v gen cause : Nat) (at_ lostId : Quad) (noprop : Bool) (s : Sw) :
    Sw.keeps parts32 s (tellFlip v gen cause at_ lostId noprop s) :=
  keeps_ite (.refl _ s) (each_keeps (fun _ _ _ h => sendCtrl_keeps (by decide) h) (.refl _ s))

theorem ver_modVer_same (v : Nat) (f : RouteVer → RouteVer) (w : Sw) : (w.modVer v f).ver v = f (w.ver v) := by
  unfold Sw.ver Sw.modVer
  split <;> simp [*]
theorem ver_modVer_other {u v : Nat} (h : u = 0 ↔ v ≠ 0) (f : RouteVer → RouteVer) (w : Sw) : (w.modVer v f).ver u = w.ver u := by
  unfold Sw.ver Sw.modVer
  by_cases hv : v = 0
  · have hu : u ≠ 0 := fun h0 => h.mp h0 hv
    simp [hu, hv]
  · simp [h.mpr hv, hv]
theorem modVer_flip (v : Nat) (f : RouteVer → RouteVer) (w : Sw) : (w.modVer v f).fab.flip = w.fab.flip := by
  unfold Sw.modVer
  simp only [Sw.modFab_fab]
  split <;> rfl

section Flip
variable {w : Sw} {v : Nat} (cause : Nat) (lostId : Quad) (src : Nat)

theorem flipped_keeps : Sw.keeps [.fab] w (w.flipped v cause lostId src) :=
  modFab_keeps (by decide) (modVer_keeps (by decide) (modVer_keeps (by decide) (.refl _ w)))
theorem flipped_active (hv : v < 2) : (w.flipped v cause lostId src).ver v = { w.ver v with st := .active } :=
  (ver_modVer_other (by omega) _ _).trans (ver_modVer_same ..)
theorem flipped_draining (hv : v < 2) (h : (w.ver (1 - v)).st = .active) :
    (w.flipped v cause lostId src).ver (1 - v) = { w.ver (1 - v) with st := .draining } := by
  have hother := ver_modVer_other (u := 1 - v) (v := v) (by omega) (fun r => { r with st := .active }) w
  refine (ver_modVer_same (1 - v) _ (w.modVer v fun r => { r with st := .active })).trans ?_
  rw [hother, h]
  rfl
theorem flipped_adopted : (w.flipped v cause lostId src).fab.adopted = w.fab.adopted.set w.fab.armedGen (v, cause, lostId, src) := by
  unfold Sw.flipped Sw.modVer
  simp only [Sw.modFab_fab]
  split <;> split <;> rfl

/-- A flip of the ARMED version: it is ACTIVE, event 0x0720 tells of it, neighbours and the waiting descriptor follow, then each
context sees to its paths. -/
theorem flip_armed (ha : w.armed = some v) (at_ : Quad) (noprop : Bool) : flip src cause lostId at_ noprop w =
    each w.ctxs.keys (flipCtx (cause == 1)) (endFlip w.fab.flip (announceAll (tellFlip v w.fab.armedGen cause at_ lostId noprop
      (raiseSys 0x0720 (flipContent w.fab.epoch v w.fab.armedGen cause lostId src false) (w.flipped v cause lostId src))))) := by
  have hctxs : (endFlip w.fab.flip (announceAll (tellFlip v w.fab.armedGen cause at_ lostId noprop
      (raiseSys 0x0720 (flipContent w.fab.epoch v w.fab.armedGen cause lostId src false) (w.flipped v cause lostId src))))).ctxs = w.ctxs :=
    have raised : Sw.keeps (.fab :: .rings :: parts32) w _ :=
      raiseSys_keeps (by decide) ((flipped_keeps (v := v) cause lostId src).mono (by decide))
    have told := raised.next (tellFlip_keeps v w.fab.armedGen cause at_ lostId noprop _) (by decide)
    (completeOpt_keeps (by decide) (announceAll_keeps (by decide) told) .ctxs (by decide)).symm
  have hwaits (s : Sw) : (match w.fab.flip with | some e => completeOpt e.tok stOk s | none => s) = endFlip w.fab.flip s := by
    cases w.fab.flip <;> rfl
  rw [← hctxs, ← hwaits]
  simp only [flip, ha, modVer_flip]
  rfl
end Flip

theorem flipNow_waiting {w : Sw} {f : PendingFlip} (h : w.fab.flip = some f) :
    flipNow f w = flip f.src (b2n f.loss) f.lostId f.at_ f.noprop w := by
  have hw : (w.modFab fun e => { e with flip := some f }) = w := by
    rw [← h]
    rfl
  rw [flipNow, hw]
theorem flipTimerOp_none {w : Sw} (h : w.fab.flip = none) : flipTimerOp w = w := by simp only [flipTimerOp, h]
theorem flipTimerOp_some {w : Sw} {f : PendingFlip} (h : w.fab.flip = some f) : flipTimerOp w = flip f.src (b2n f.loss) f.lostId f.at_ f.noprop
    (if w.flipDue f.at_ then w else w.modTime fun u => { u with gtc := f.at_, frac := 0, elapsed := u.elapsed + (f.at_ - u.gtc).toNat }) := by
  simp only [flipTimerOp, h]
  refine flipNow_waiting ?_
  split <;> exact h

/-! ### The DRAINING version (10 R345) -/

theorem drained_stands {v : Nat} {w : Sw} (h : 1 < v ∨ (w.ver v).st ≠ .draining ∨ w.holdsEpoch v = true) : drained v w = w := by
  refine if_pos ?_
  obtain h | h | h := h
  all_goals simp [h]
theorem drained_ends {v : Nat} {w : Sw} (hv : v ≤ 1) (hst : (w.ver v).st = .draining) (hn : w.holdsEpoch v = false) :
    drained v w = announceAll (raiseSys 0x0721 (le 4 v) (w.modVer v fun r => { r with st := .standby })) :=
  if_neg (by simp [Nat.not_lt.mpr hv, hst, hn])

/-- Settles O23: a descriptor by its checks in order, a flip by the version that is ARMED, the timer by the flip that waits. -/
theorem epochRule : Obligations.EpochRule := by
  unfold Obligations.EpochRule
  refine ⟨?arm, ?ask, ?flip, ?timer, ?cell, ?drain⟩
  case arm =>
    intro s b v gen hh hv hgen ho
    subst hv hgen
    have arms {u : Sw} : routeArmOp b (descTok 0x61 b s.sw) (descSw 0x61 b s.sw) = u → becomes (.routeArm b) s u :=
      becomes_of_desc routeArmOp rfl hh
    exact ⟨fun hoff hg => arms (routeArmOp_oldGen _ hoff hg), fun hoff hg hst => arms (routeArmOp_denied _ ho hoff hg hst),
      fun hoff hg hst hother hhost => arms (routeArmOp_arms _ ho hoff hg hst hother hhost),
      fun hoff hst => arms (routeArmOp_notArmed _ ho hoff hst), fun hoff hst => arms (routeArmOp_disarms _ ho hoff hst)⟩
  case ask =>
    intro s b gen hh hgen ho
    subst hgen
    have asks {u : Sw} : epochFlipOp b (descTok 0x62 b s.sw) (descSw 0x62 b s.sw) = u → becomes (.epochFlip b) s u :=
      becomes_of_desc epochFlipOp rfl hh
    refine ⟨fun h0 hfar => asks (epochFlipOp_tooFar _ h0 hfar), fun hat => ⟨fun ha => ⟨fun hn => ?_, fun v cause lostId src hf => ?_⟩,
      fun v ha hg hv => asks (epochFlipOp_otherVersion _ ha hg hv), fun v f ha hg hv hn hf => ?_⟩⟩
    · exact asks (epochFlipOp_stale _ ho hat ha hn)
    · exact asks (epochFlipOp_adopted (w := descSw 0x62 b s.sw) _ ho hat ha hf)
    · subst hf
      have hask := epochFlipOp_asks (w := descSw 0x62 b s.sw) (descTok 0x62 b s.sw) ho hat ha hg hv hn
      have hstands := earlierFlip_alone (w := descSw 0x62 b s.sw) (r := descFlip b (descTok 0x62 b s.sw)) hn
      exact ⟨fun hdue => asks (hask.trans (askFlip_waits hstands hdue)), fun hdue => asks (hask.trans (askFlip_due hstands hdue))⟩
  case flip =>
    intro w v src cause lostId at_ ha hv hother
    refine ⟨w.flipped v cause lostId src, flipped_keeps _ _ _, rfl, rfl, rfl, rfl, rfl, flipped_adopted .., flipped_active _ _ _ hv,
      flipped_draining _ _ _ hv hother, fun noprop => (flip_armed _ _ _ ha _ _).trans ?_⟩
    cases noprop <;> cases w.fab.flip <;> rfl
  case timer =>
    refine fun s => ⟨fun h => stays_of_lift flipTimerOp rfl (flipTimerOp_none h), fun f h hdue => ?_, fun f h hdue => ?_⟩
    · exact becomes_of_lift flipTimerOp rfl ((flipTimerOp_some h).trans (by rw [if_pos hdue]))
    · exact becomes_of_lift flipTimerOp rfl ((flipTimerOp_some h).trans (by rw [if_neg (by simp [hdue])]))
  case cell =>
    intro s p c m w hi h
    refine becomes_of_lift (epochIn p c) rfl ((epochIn_ingress hi).trans ?_)
    obtain h | h := h
    · exact if_neg (by simp [h])
    · rw [epochTake_other h, ite_self]
  case drain =>
    exact fun s v => ⟨fun h => stays_of_lift (drained v) rfl (drained_stands h),
      fun hv hst hn => becomes_of_lift (drained v) rfl (drained_ends hv hst hn)⟩
end Sys2Proof.Machine
end

section
/-! PROOFS. Route tables, adaptive jobs and fabric settings (O22). -/
namespace Sys2Proof.Machine

/-! ### What writing entries leaves of a version (10 R335, R336) -/

theorem written_paths {v : RouteVer} {table : Nat} {es : List (List Byte)} (ht : table ≠ 0)
    (hg : pathsGood (es.foldl (RouteVer.write table) v) = true) : v.written table es = some (es.foldl (RouteVer.write table) v) :=
  (if_neg ht).trans (if_pos hg)
theorem written_ranks {v : RouteVer} {es : List (List Byte)} (hg : ranksGood (es.foldl writeRank v.rank.vals) = true) :
    v.written 0 es = some { v with
      rank := (es.foldl writeRank v.rank.vals).foldl (fun m r => SMap.set (r.job * 65536 + r.first) r m) [] } := if_pos hg

/-! ### ROUTE_WRITE (10 R362) -/

/-- The checks of ROUTE_WRITE before its entries are read. -/
def routeHeadChecks (b : Sub) (w : Sw) : List (Bool × Nat) := [
  (!b.only [bi_ 8 0 1, by_ 9 1, bi_ 10 0 1, by_ 12 4, by_ 24 8, by_ 40 4] || decide (4 < b.f 9 1) || (b.f 9 1 == 4 && b.bits 8 0 1 != 0), stBad),
  (decide (b.f 9 1 < 4) && (w.ver (b.bits 8 0 1)).st != .standby, stDenied),
  (b.f 40 4 != b.f 12 4 * routeBytes (b.f 9 1), stBad)]
/-- The entries of ROUTE_WRITE b. -/
def routeEntries (b : Sub) : List (List Byte) := chunks (routeBytes (b.f 9 1)) (b.host.take (b.f 12 4 * routeBytes (b.f 9 1)))
/-- The version that ROUTE_WRITE b begins with: its table is emptied first if asked. -/
def routeBase (b : Sub) (w : Sw) : RouteVer :=
  if b.flag 10 0 then (w.ver (b.bits 8 0 1)).clear (b.f 9 1) else w.ver (b.bits 8 0 1)

/-- The first check of ROUTE_WRITE and ROUTE_READ passes: no reserved bit, and a table that the switch has. -/
theorem tableNamed {b : Sub} {masks : List Desc} (ho : b.only masks = true) (ht : b.f 9 1 < 4 ∨ b.f 9 1 = 4 ∧ b.bits 8 0 1 = 0) :
    (!b.only masks || decide (4 < b.f 9 1) || (b.f 9 1 == 4 && b.bits 8 0 1 != 0)) = false := by
  obtain ht | ⟨ht, hv⟩ := ht
  · have h4 : ¬ 4 < b.f 9 1 := by omega
    have hne : b.f 9 1 ≠ 4 := by omega
    simp [ho, h4, hne]
  · simp [ho, ht, hv]

section Write
variable {b : Sub} (t : Tok) {w : Sw}

theorem routeWriteOp_head {status : Nat} (h : firstFail (routeHeadChecks b w) = some status) : routeWriteOp b t w = complete t status w :=
  guardDesc_fails h ..
theorem routeHead_noTable (h : 4 < b.f 9 1 ∨ b.f 9 1 = 4 ∧ b.bits 8 0 1 ≠ 0) : firstFail (routeHeadChecks b w) = some stBad := by
  refine if_pos ?_
  obtain h | ⟨h, hv⟩ := h
  · simp [h]
  · simp [h, hv]

variable (ho : b.only [bi_ 8 0 1, by_ 9 1, bi_ 10 0 1, by_ 12 4, by_ 24 8, by_ 40 4] = true)
include ho

theorem routeHead_denied (ht : b.f 9 1 < 4) (hst : (w.ver (b.bits 8 0 1)).st ≠ .standby) :
    firstFail (routeHeadChecks b w) = some stDenied := by
  simp [routeHeadChecks, firstFail, tableNamed ho (.inl ht), ht, hst]
theorem routeHead_length (ht : b.f 9 1 < 4) (hst : (w.ver (b.bits 8 0 1)).st = .standby)
    (hlen : b.f 40 4 ≠ b.f 12 4 * routeBytes (b.f 9 1)) : firstFail (routeHeadChecks b w) = some stBad := by
  simp [routeHeadChecks, firstFail, tableNamed ho (.inl ht), hst, hlen]
theorem routeHead_good (ht : b.f 9 1 < 4 ∧ (w.ver (b.bits 8 0 1)).st = .standby ∨ b.f 9 1 = 4 ∧ b.bits 8 0 1 = 0)
    (hlen : b.f 40 4 = b.f 12 4 * routeBytes (b.f 9 1)) : firstFail (routeHeadChecks b w) = none := by
  have hstands : (decide (b.f 9 1 < 4) && (w.ver (b.bits 8 0 1)).st != .standby) = false := by
    obtain ⟨-, hst⟩ | ⟨ht, -⟩ := ht
    · simp [hst]
    · simp [ht]
  simp [routeHeadChecks, firstFail, tableNamed ho (ht.imp_left And.left), hstands, hlen]
end Write

section Entries
variable {b : Sub} (t : Tok) {w : Sw} (hhead : firstFail (routeHeadChecks b w) = none) (hhost : b.hostErr = none)
include hhead hhost

section Tables
variable (ht : b.f 9 1 < 4)
include ht

theorem routeWriteOp_malformed
    (h : (routeEntries b).all (routeForm (b.f 9 1)) = false ∨ (routeBase b w).written (b.f 9 1) (routeEntries b) = none) :
    routeWriteOp b t w = complete t stBad w := by
  refine (guardDesc_passes hhead ..).trans ((hostGuard_good hhost ..).trans (guardDesc_fails ?_ ..))
  have hne : b.f 9 1 ≠ 4 := by omega
  simp only [routeEntries, routeBase] at h
  obtain h | h := h
  · simp only [firstFail, h]
    simp [hne]
  · simp only [firstFail, h]
    simp [hne, ht]

variable (hn : (routeEntries b).length = b.f 12 4) (hform : (routeEntries b).all (routeForm (b.f 9 1)) = true) {r : RouteVer}
  (hr : (routeBase b w).written (b.f 9 1) (routeEntries b) = some r)
include hn hform hr

theorem routeWriteOp_full (h : routeCapacity (b.f 9 1) < r.count (b.f 9 1)) : routeWriteOp b t w = complete t stNoRes w := by
  refine (guardDesc_passes hhead ..).trans ((hostGuard_good hhost ..).trans (guardDesc_fails ?_ ..))
  have hne : b.f 9 1 ≠ 4 := by omega
  simp only [routeEntries, routeBase] at hn hform hr
  simp only [firstFail, hn, hform, hr]
  simp [hne, ht, h]
theorem routeWriteOp_stores (h : r.count (b.f 9 1) ≤ routeCapacity (b.f 9 1)) :
    routeWriteOp b t w = complete t stOk (w.modVer (b.bits 8 0 1) fun _ => r) := by
  have hne : b.f 9 1 ≠ 4 := by omega
  simp only [routeEntries, routeBase] at hn hform hr
  refine (guardDesc_passes hhead ..).trans ((hostGuard_good hhost ..).trans ((guardDesc_passes ?_ ..).trans ((if_neg hne).trans ?_)))
  · simp only [firstFail, hn, hform, hr]
    simp [hne, Nat.not_lt.mpr h]
  · simp only [hr]
end Tables

section PortRanks
variable (ht : b.f 9 1 = 4)
include ht

theorem routeWriteOp_portUp (h : (routeEntries b).any (fun e => decide (bytesAt e 0 2 < 512) && w.up (bytesAt e 0 2)) = true) :
    routeWriteOp b t w = complete t stDenied w := by
  refine (guardDesc_passes hhead ..).trans ((hostGuard_good hhost ..).trans (guardDesc_fails ?_ ..))
  simp only [routeEntries] at h
  simp only [firstFail, h]
  simp [ht]
theorem routeWriteOp_portRanks (hn : (routeEntries b).length = b.f 12 4) (hform : (routeEntries b).all (routeForm 4) = true)
    (h : ∀ e ∈ routeEntries b, w.up (bytesAt e 0 2) = false) :
    routeWriteOp b t w = complete t stOk (writePortRanks (b.flag 10 0) (routeEntries b) w) := by
  have hdown : (routeEntries b).any (fun e => decide (bytesAt e 0 2 < 512) && w.up (bytesAt e 0 2)) = false := by
    simpa using fun e he _ => h e he
  refine (guardDesc_passes hhead ..).trans ((hostGuard_good hhost ..).trans ((guardDesc_passes ?_ ..).trans (if_pos ht)))
  simp only [routeEntries, ht] at hn hform hdown
  simp only [firstFail, ht, hn, hform, hdown]
  simp only [bne_self_eq_false, Bool.not_true, decide_eq_false (Nat.lt_irrefl 4), Bool.false_and, Bool.and_false, Bool.or_false,
    Bool.false_eq_true, if_false]
  split <;> rfl
end PortRanks
end Entries

/-! ### ROUTE_READ (10 R363) -/

section Read
variable {b : Sub} (t : Tok) {w : Sw}

theorem routeReadOp_noTable (h : 4 < b.f 9 1) : routeReadOp b t w = complete t stBad w := by
  unfold routeReadOp
  refine guardDesc_fails ?_ ..
  simp [firstFail, h]

variable (ho : b.only [bi_ 8 0 1, by_ 9 1, by_ 24 8, by_ 40 4] = true) (ht : b.f 9 1 < 4 ∨ b.f 9 1 = 4 ∧ b.bits 8 0 1 = 0)
include ho ht

theorem routeReadOp_short (h : b.f 40 4 < (routeTable w (b.bits 8 0 1) (b.f 9 1)).length) : routeReadOp b t w = complete t stNoRes w := by
  unfold routeReadOp
  refine guardDesc_fails ?_ ..
  simp [firstFail, tableNamed ho ht, h]
theorem routeReadOp_writes (h : (routeTable w (b.bits 8 0 1) (b.f 9 1)).length ≤ b.f 40 4) (hhost : b.hostErr = none) :
    routeReadOp b t w = complete t stOk (hostWrite t (b.q 24) (routeTable w (b.bits 8 0 1) (b.f 9 1)) w) := by
  unfold routeReadOp
  refine (guardDesc_passes ?_ ..).trans (hostGuard_good hhost ..)
  simp [firstFail, tableNamed ho ht, Nat.not_lt.mpr h]
end Read

/-! ### JOB_ROUTE (10 R343) -/

theorem getLsbD_setBit {n i : Nat} (v : BitVec n) (h : i < n) (j : Nat) : (setBit v i).getLsbD j = (v.getLsbD j || decide (j = i)) := by
  have hlt (e : j = i) : j < n := e ▸ h
  simp only [setBit, BitVec.getLsbD_or, BitVec.getLsbD_ofNat, Nat.one_shiftLeft, Nat.testBit_two_pow, eq_comm (a := i)]
  by_cases e : j = i
  · simp [e, h]
  · simp [e]
theorem getLsbD_clrBit {n : Nat} (v : BitVec n) (i j : Nat) : (clrBit v i).getLsbD j = (v.getLsbD j && decide (j ≠ i)) := by
  simp only [clrBit, BitVec.getLsbD_and, BitVec.getLsbD_not, BitVec.getLsbD_ofNat, Nat.one_shiftLeft, Nat.testBit_two_pow, eq_comm (a := i)]
  by_cases hj : j < n
  · simp [hj]
  · simp [BitVec.getLsbD_of_ge v j (Nat.not_lt.mp hj)]

/-- A bit that is set or cleared, and no other. -/
theorem getLsbD_put {n i : Nat} (v : BitVec n) (h : i < n) (on : Bool) (j : Nat) :
    (if on then setBit v i else clrBit v i).getLsbD j = if j = i then on else v.getLsbD j := by
  by_cases e : j = i <;> cases on <;> simp [getLsbD_setBit v h, getLsbD_clrBit, e]

theorem jobRouteOp_sets {b : Sub} (t : Tok) {w : Sw} (ho : b.only [by_ 8 1, bi_ 9 0 1] = true) : jobRouteOp b t w =
    complete t stOk (w.modFab fun f => { f with
      adaptive := if b.flag 9 0 then setBit f.adaptive (b.f 8 1) else clrBit f.adaptive (b.f 8 1) }) := by
  unfold jobRouteOp
  refine guardDesc_passes ?_ ..
  simp [firstFail, ho]

/-! ### FABRIC_CONFIG (10 R363) -/

theorem subField_lt (b : Sub) (i n : Nat) : b.f i n < 2 ^ (8 * n) := Nat.mod_lt _ (Nat.two_pow_pos _)

theorem outside_of {v lo hi : Nat} (h : v < lo ∨ hi < v) : outside v lo hi = true := by simpa [outside] using h
theorem outside_not {v lo hi : Nat} (hlo : lo ≤ v) (hhi : v ≤ hi) : outside v lo hi = false := by
  simp [outside, Nat.not_lt.mpr hlo, Nat.not_lt.mpr hhi]

section Config
variable {b : Sub} (t : Tok) {w : Sw}

theorem fabricConfigOp_bad (h : b.f 8 2 < 16 ∨ 4096 < b.f 8 2 ∨ b.f 10 2 < 64 ∨ b.f 12 2 < 1 ∨ 1000 < b.f 12 2 ∨ b.f 14 2 < 10 ∨
    b.f 16 2 < 1 ∨ b.f 18 1 < 1 ∨ b.f 20 4 % 16 ≠ 0 ∨ 65536 < b.f 20 4) : fabricConfigOp b t w = complete t stBad w := by
  unfold fabricConfigOp
  refine guardDesc_fails ?_ ..
  refine if_pos ?_
  simp only [outside, Bool.or_eq_true, decide_eq_true_eq, bne_iff_ne]
  omega

/-- Each field of FABRIC_CONFIG b lies in its range. -/
structure FabricFields (b : Sub) : Prop where
  only : b.only [by_ 8 11, bi_ 19 0 1, by_ 20 4] = true
  ceThresh : 16 ≤ b.f 8 2 ∧ b.f 8 2 ≤ 4096
  echoGap : 64 ≤ b.f 10 2
  raiseUs : 1 ≤ b.f 12 2 ∧ b.f 12 2 ≤ 1000
  stallUs : 10 ≤ b.f 14 2
  drainUs : 1 ≤ b.f 16 2
  quantum : 1 ≤ b.f 18 1
  spill : b.f 20 4 % 16 = 0 ∧ b.f 20 4 ≤ 65536

variable (hb : FabricFields b)
include hb

theorem FabricFields.inRange : (!b.only [by_ 8 11, bi_ 19 0 1, by_ 20 4] || outside (b.f 8 2) 16 4096 || outside (b.f 10 2) 64 65535 ||
    outside (b.f 12 2) 1 1000 || outside (b.f 14 2) 10 65535 || outside (b.f 16 2) 1 65535 || outside (b.f 18 1) 1 255 ||
    b.f 20 4 % 16 != 0 || decide (65536 < b.f 20 4)) = false := by
  obtain ⟨ho, hce, hgap, hraise, hstall, hdrain, hq, hspill⟩ := hb
  have h10 := subField_lt b 10 2
  have h14 := subField_lt b 14 2
  have h16 := subField_lt b 16 2
  have h18 := subField_lt b 18 1
  simp only [outside, ho, Bool.or_eq_false_iff, decide_eq_false_iff_not, bne_eq_false_iff_eq, Bool.not_true, true_and]
  omega
theorem fabricConfigOp_full (h : (b.f 20 4 ≠ 0 ∧ ∀ g < 4, w.stacksIn g = 0) ∨
    ∃ g < 4, w.classFree 6 g + w.shareOn w.fab.spillMib g < w.shareOn (b.f 20 4) g) : fabricConfigOp b t w = complete t stNoRes w := by
  unfold fabricConfigOp
  refine guardDesc_fails ?_ ..
  refine (if_neg (by simp [hb.inRange])).trans (if_pos ?_)
  obtain ⟨h0, h⟩ | ⟨g, hg, h⟩ := h
  · have hany : (List.range 4).any (fun g => w.stacksIn g != 0) = false := by simpa using h
    simp [h0, hany]
  · have hall : (List.range 4).all (fun g => decide (w.shareOn (b.f 20 4) g ≤ w.classFree 6 g + w.shareOn w.fab.spillMib g)) = false :=
      List.all_eq_false.mpr ⟨g, List.mem_range.mpr hg, by simpa using h⟩
    simp [hall]
theorem fabricConfigOp_sets (hin : b.f 20 4 = 0 ∨ ∃ g < 4, w.stacksIn g ≠ 0)
    (hfit : ∀ g < 4, w.shareOn (b.f 20 4) g ≤ w.classFree 6 g + w.shareOn w.fab.spillMib g) : fabricConfigOp b t w =
      complete t stOk (poolWarnAll <| w.modFab fun f => { f with
        ceThresh := b.f 8 2, echoGap := b.f 10 2, raiseUs := b.f 12 2, fwdStallUs := b.f 14 2, drainUs := b.f 16 2
        beQuantum := b.f 18 1, paceAll := b.flag 19 0, spillMib := b.f 20 4 }) := by
  have hany : (b.f 20 4 == 0 || (List.range 4).any fun g => w.stacksIn g != 0) = true := by simpa using hin
  have hall : (List.range 4).all (fun g => decide (w.shareOn (b.f 20 4) g ≤ w.classFree 6 g + w.shareOn w.fab.spillMib g)) = true := by
    simpa using hfit
  unfold fabricConfigOp
  refine guardDesc_passes ?_ ..
  refine (if_neg (by simp [hb.inRange])).trans (if_neg ?_)
  simp [hany, hall]
end Config

/-- Settles O22: a descriptor by the first of its checks that fails or, where all pass, by what its row makes of the switch after the
dispatch. -/
theorem routeRule : Obligations.RouteRule := by
  unfold Obligations.RouteRule
  refine ⟨?write, ?read, ?job, ?config⟩
  case write =>
    intro s b v table n es base hh hv ht hn hes hbase ho
    subst hv ht hn
    replace hes : es = routeEntries b := hes
    replace hbase : base = routeBase b (descSw 0x60 b s.sw) := hbase
    subst hes hbase
    have writes {u : Sw} : routeWriteOp b (descTok 0x60 b s.sw) (descSw 0x60 b s.sw) = u → becomes (.routeWrite b) s u :=
      becomes_of_desc routeWriteOp rfl hh
    refine ⟨fun h => writes (routeWriteOp_head _ (routeHead_noTable h)),
      fun ht hst => writes (routeWriteOp_head _ (routeHead_denied ho ht hst)),
      fun ht hst hlen => writes (routeWriteOp_head _ (routeHead_length ho ht hst hlen)),
      fun hlen hhost hn => ⟨fun ht hst => ?tables, fun ht hv => ?ranks⟩⟩
    case tables =>
      have hhead : firstFail (routeHeadChecks b (descSw 0x60 b s.sw)) = none := routeHead_good ho (.inl ⟨ht, hst⟩) hlen
      refine ⟨fun h => writes (routeWriteOp_malformed _ hhead hhost ht h), fun r hform hr => ⟨fun h => ?_, fun h => ?_⟩,
        fun r h0 hform hr hg h => ?_, fun l h0 hform hl hg _ m hm h => ?_⟩
      · exact writes (routeWriteOp_full _ hhead hhost ht hn hform hr h)
      · exact writes (routeWriteOp_stores _ hhead hhost ht hn hform hr h)
      · subst hr
        exact writes (routeWriteOp_stores _ hhead hhost ht hn hform (written_paths h0 hg) h)
      · subst hl hm
        have hr := written_ranks (v := routeBase b (descSw 0x60 b s.sw)) hg
        rw [← h0] at hform hr
        exact writes (routeWriteOp_stores _ hhead hhost ht hn hform hr (by rw [h0]; exact h))
    case ranks =>
      have hhead : firstFail (routeHeadChecks b (descSw 0x60 b s.sw)) = none := routeHead_good ho (.inr ⟨ht, hv⟩) hlen
      refine ⟨fun h => writes (routeWriteOp_portUp _ hhead hhost ht h), fun hform h hclear => ?_⟩
      refine writes ((routeWriteOp_portRanks _ hhead hhost ht hn hform h).trans ?_)
      rw [hclear]
      rfl
  case read =>
    intro s b bytes hh ho hbytes
    replace hbytes : bytes = routeTable (descSw 0x63 b s.sw) (b.bits 8 0 1) (b.f 9 1) := hbytes
    subst hbytes
    have reads {u : Sw} : routeReadOp b (descTok 0x63 b s.sw) (descSw 0x63 b s.sw) = u → becomes (.routeRead b) s u :=
      becomes_of_desc routeReadOp rfl hh
    exact ⟨fun h => reads (routeReadOp_noTable _ h), fun ht => ⟨fun h => reads (routeReadOp_short _ ho ht h),
      fun h hhost => reads (routeReadOp_writes _ ho ht h hhost)⟩⟩
  case job =>
    intro s b hh ho
    have hrun := becomes_of_desc (c := .jobRoute b) jobRouteOp rfl hh (jobRouteOp_sets (w := descSw 0x64 b s.sw) _ ho)
    have hfab : ∀ w : Sw, (complete (descTok 0x64 b s.sw) stOk w).fab = w.fab := fun w =>
      (complete_keeps (ps := parts13) (by decide) (.refl _ w) .fab (by decide)).symm
    refine ⟨_, hrun, complete_keeps (by decide) (modFab_keeps (by decide) ((descSw_keeps 0x64 b s.sw).mono (by decide))), ?_, ?_, fun j hj => ?_⟩
    · rw [hfab]; rfl
    · rw [hfab]
      exact (getLsbD_put _ (subField_lt b 8 1) _ _).trans (if_pos rfl)
    · rw [hfab]
      exact (getLsbD_put _ (subField_lt b 8 1) _ _).trans (if_neg hj)
  case config =>
    intro s b hh ho
    have configures {u : Sw} : fabricConfigOp b (descTok 0x65 b s.sw) (descSw 0x65 b s.sw) = u → becomes (.fabricConfig b) s u :=
      becomes_of_desc fabricConfigOp rfl hh
    refine ⟨fun h => configures (fabricConfigOp_bad _ h), fun hce hce' hgap hraise hraise' hstall hdrain hq hspill hspill' => ?_⟩
    have hb : FabricFields b := ⟨ho, ⟨hce, hce'⟩, hgap, ⟨hraise, hraise'⟩, hstall, hdrain, hq, ⟨hspill, hspill'⟩⟩
    exact ⟨fun h => configures (fabricConfigOp_full (w := descSw 0x65 b s.sw) _ hb h),
      fun hin hfit => configures (fabricConfigOp_sets (w := descSw 0x65 b s.sw) _ hb hin hfit)⟩
end Sys2Proof.Machine
end

section
/-! PROOFS. Point-to-point cells (O6). -/
namespace Sys2Proof.Machine

/-! ### Two ports of one binding, entered out of order (10 R338) -/

/-- A member port that is UP with FL3. -/
def farMember : Port := { reg := { state := .up, detected := 3, partnerRole := 1, binding := some ⟨1, 5, false⟩ } }
/-- A port to a switch that is UP with FL3, bound all the same. -/
def boundSwitch : Port := { farMember with reg := { farMember.reg with partnerRole := 2 } }
/-- Member port 12 and switch port 8 both stand for rank 5 of job 1, and the list of ports enters 12 before 8. -/
def portsCrossed : Sw := { State.reset.sw with ports := [(12, farMember), (8, boundSwitch)] }
/-- A REQ cell of job 1 for rank 5. -/
def crossedCell : Cell := { hdr := BitVec.ofNat 64 (place 1 50 + place 5 34), pay := 0 }

/-- The cell comes in on port 8 as R338 has it, and R338 names port 12 with room. -/
theorem crossedCell_arrives : portsCrossed.portActive 8 = true ∧ portsCrossed.up 8 = true ∧ portsCrossed.isMember 8 = false ∧
    crossedCell.badHeader = false ∧ crossedCell.tc ≤ 2 ∧ portsCrossed.pers 8 ≠ 1 ∧ (portsCrossed.ver crossedCell.ep).st ≠ .standby ∧
    crossedCell.mc = false ∧ portsCrossed.exchangeOf crossedCell = none := by decide +kernel
theorem crossedCell_finds : portsCrossed.find crossedCell.ep crossedCell.job crossedCell.dst = .member 12 ∧
    portsCrossed.portActive 12 = true ∧ portsCrossed.up 12 = true ∧ portsCrossed.isMember 12 = true ∧ portsCrossed.pers 12 = 3 ∧
    crossedCell.ce = false ∧ (portsCrossed.port 12).q.spill = [] ∧ (portsCrossed.port 12).q.held < 1024 ∧
    (portsCrossed.port 12).q.stalled = [] ∧ ((portsCrossed.port 12).q.txq.filter
      (fun i => (vcsOf crossedCell.tc).contains i.vc)).length < portsCrossed.fab.ceThresh := by decide +kernel
/-- Counting the cell in enters port 8 anew before port 12, and R338 then names port 8: the queue of port 12 stays empty. -/
theorem crossedCell_misses : ((p2pArrive 8 crossedCell portsCrossed).port 12).q.txq = [] := by decide +kernel

/-- Refutes O6: its second clause holds of any list of ports. In one that is out of order, with two ports bound to one rank, the count
of the cell that comes in changes which port R338 names, and the cell does not join the queue of the port it named before. -/
theorem not_p2pRule : ¬ Obligations.P2pRule := by
  unfold Obligations.P2pRule
  rintro ⟨-, hroute, -⟩
  obtain ⟨hact, hup, hmem, hhdr, htc, hpers, hver, hmc, hex⟩ := crossedCell_arrives
  obtain ⟨hfind, hactO, hupO, hmemO, hpersO, hce, hspill, hheld, hstalled, hroom⟩ := crossedCell_finds
  obtain ⟨hmember, -⟩ := hroute { State.reset with sw := portsCrossed } 8 crossedCell hact hup hmem hhdr htc hpers hver hmc hex
  obtain ⟨t, hrun, -, -, hjoins⟩ := hmember 12 hfind (by decide) hactO hupO hmemO hpersO hce hspill hheld hstalled hroom
  have ht : t = p2pArrive 8 crossedCell portsCrossed := sw_of_exec (f := p2pArrive 8 crossedCell) rfl hrun
  rw [ht, crossedCell_misses] at hjoins
  simp at hjoins
end Sys2Proof.Machine
end

section
/-! PROOFS. Tier-1 addresses and the units that hold them (O25). -/
namespace Sys2Proof.Machine

/-! ### Unit numbers from 24 name root ports, whatever the address (11 R377, R395) -/

/-- The address only decides among stacks: a unit that is no stack is a root port, and holds what it is asked for itself. -/
theorem Sw.stackAt_of_le {k : Nat} (h : 24 ≤ k) (s : Sw) (ta : Nat) : s.stackAt k ta = k := if_pos h
/-- The address of R378's worked example lies on stack 7 at reset. -/
theorem reset_decodeTa_stack : (State.reset.sw.decodeTa 0x11234567800).map TierAddr.stack = some 7 := by decide +kernel

/-- Refutes O25: its clause on addresses asks `stackAt` of unit 24, root port 0, for the stack of every address that decodes. The
answer is always 24, and the address of R378's worked example decodes to stack 7. -/
theorem not_memoryRule : ¬ Obligations.MemoryRule := by
  unfold Obligations.MemoryRule
  rintro ⟨-, -, -, -, haddress, -⟩
  obtain ⟨a, hdecode, hseven⟩ := Option.map_eq_some_iff.1 reset_decodeTa_stack
  obtain ⟨-, -, -, hstack⟩ := haddress State.reset.sw _ a hdecode
  rw [Sw.stackAt_of_le le_rfl, hseven] at hstack
  exact absurd hstack (by decide)
end Sys2Proof.Machine
end

section
/-! PROOFS. What every command leaves as it was (O59). -/
namespace Sys2Proof.Machine

/-! ### What a command leaves of a state -/

/-- From s to t the waiting commands stand, every part but those listed stands, and the fuses stand unless they may burn. -/
def State.leaves (ps : List Piece) (burn : Bool) (s t : State) : Prop :=
  t.pending = s.pending ∧ Sw.keeps ps s.sw t.sw ∧ (burn = false → t.fuses = s.fuses)
/-- Command c completes in s and leaves all but what is listed for it. -/
def framed (c : Instr) (s : State) : Prop := ∃ t, exec c s = .next t ∧ State.leaves (mayChange c) (mayBurn c) s t

theorem State.leaves.refl (ps : List Piece) (burn : Bool) (s : State) : State.leaves ps burn s s := ⟨rfl, .refl _ _, fun _ => rfl⟩
theorem State.leaves.trans {ps : List Piece} {burn : Bool} {a b c : State} (h : State.leaves ps burn a b)
    (g : State.leaves ps burn b c) : State.leaves ps burn a c := by
  obtain ⟨hq, hk, hf⟩ := h
  obtain ⟨gq, gk, gf⟩ := g
  exact ⟨gq.trans hq, hk.trans gk, fun hb => (gf hb).trans (hf hb)⟩
/-- A change of the switch alone. -/
theorem State.leaves_sw {ps : List Piece} {w : Sw} (burn : Bool) {s : State} (h : Sw.keeps ps s.sw w) :
    State.leaves ps burn s { s with sw := w } := ⟨rfl, h, fun _ => rfl⟩

theorem framed_of_lift {c : Instr} {s : State} (f : Sw → Sw) (hc : exec c s = lift f s) (hk : Sw.keeps (mayChange c) s.sw (f s.sw)) :
    framed c s := ⟨_, hc, State.leaves_sw _ hk⟩
/-- The same for an operation written out in its row. -/
theorem framed_of_map {c : Instr} {s : State} {f : Sw → Sw} (hc : exec c s = lift f s) (hk : ∀ w, Sw.keeps (mayChange c) w (f w)) :
    framed c s := framed_of_lift f hc (hk _)
theorem framed_of_next {c : Instr} {s t : State} (hc : exec c s = .next t) (hk : State.leaves (mayChange c) (mayBurn c) s t) :
    framed c s := ⟨t, hc, hk⟩
/-- A descriptor changes what its course and its opcode change. -/
theorem framed_of_desc {c : Instr} {s : State} {b : Sub} (code : Nat) (op : Sub → Tok → Sw → Sw) (hc : exec c s = lift (runDesc code op b) s)
    (hp : partsIn descParts (mayChange c) = true)
    (hop : ∀ b t a w, Sw.keeps (mayChange c) a w → Sw.keeps (mayChange c) a (op b t w)) : framed c s :=
  framed_of_lift _ hc (runDesc_keeps (partsIn_trans (by decide) hp) hop (.refl _ _))
/-- A cell of a context changes what its way to the context and its effect there change. -/
theorem framed_of_cell {c : Instr} {s : State} {p : Nat} {cell : Cell} (f : Nat → Nat → Cell → Sw → Sw)
    (hc : exec c s = lift (toContext p cell f) s) (hp : partsIn parts47 (mayChange c) = true)
    (hf : ∀ x q d a w, Sw.keeps (mayChange c) a w → Sw.keeps (mayChange c) a (f x q d w)) : framed c s :=
  framed_of_lift _ hc (toContext_keeps hp hf (.refl _ _))

/-! ### Management commands -/

/-- Parts that the course of a management command can change: a descriptor's, and its event. -/
def mgmtParts : List Piece := descParts ++ [.held]
/-- A relation of states that the course of a management command, apart from what the command does, stays within. -/
structure Course (R : State → State → Prop) : Prop where
  refl : ∀ s, R s s
  trans : ∀ {a b c}, R a b → R b c → R a c
  sw : ∀ {s w}, Sw.keeps mgmtParts s.sw w → R s { s with sw := w }
theorem State.leaves_course {ps : List Piece} (hp : partsIn mgmtParts ps = true) (burn : Bool) : Course (State.leaves ps burn) where
  refl := State.leaves.refl ps burn
  trans := State.leaves.trans
  sw h := State.leaves_sw burn (h.mono hp)

section
variable {R : State → State → Prop} {act : MgmtAct} {after : MgmtAfter}

theorem mgmtBmc_course (hR : Course R) (code : Nat) (s : State) (hact : ∀ pf s, R s (act pf s).2)
    (hafter : ∀ pf s, R s (after pf s)) : R s (mgmtBmc code act after s) := by
  unfold mgmtBmc
  split
  · exact hR.refl _
  · have hanswer : R s { (act false s).2 with sw :=
        (mgmtEvent false code (act false s).1 (act false s).2.sw).out (.reply true (le 1 code ++ le 1 (act false s).1)) } :=
      hR.trans (hact false s) (hR.sw (out_keeps (by decide) (mgmtEvent_keeps (by decide) (.refl _ _))))
    dsimp only
    split
    · exact hR.trans hanswer (hafter _ _)
    · exact hanswer
theorem mgmtDesc_course (hR : Course R) (code n : Nat) (token : Bool) (b : Sub) (s : State) (hact : ∀ pf s, R s (act pf s).2)
    (hafter : ∀ pf s, R s (after pf s)) : R s (mgmtDesc code n token act after b s) := by
  have hdesc : Sw.keeps mgmtParts s.sw (dispatch 0x93 b s.sw).2 := dispatch_keeps (by decide) (.refl _ _)
  have hdone (u : State) (st : Nat) (h : R s u) :
      R s { u with sw := complete (dispatch 0x93 b s.sw).1 st (mgmtEvent true (b.f 8 1) st u.sw) } :=
    hR.trans h (hR.sw (complete_keeps (by decide) (mgmtEvent_keeps (by decide) (.refl _ _))))
  have hrest (r : Nat × State) (h : R s r.2) : R s
      (if r.1 = stOk then after true { r.2 with sw := complete (dispatch 0x93 b s.sw).1 r.1 (mgmtEvent true (b.f 8 1) r.1 r.2.sw) }
        else { r.2 with sw := complete (dispatch 0x93 b s.sw).1 r.1 (mgmtEvent true (b.f 8 1) r.1 r.2.sw) }) := by
    split
    · exact hR.trans (hdone _ _ h) (hafter _ _)
    · exact hdone _ _ h
  have hargs (good : Bool) : R s
      (if good then act true { s with sw := (dispatch 0x93 b s.sw).2 } else (stBad, { s with sw := (dispatch 0x93 b s.sw).2 })).2 := by
    cases good
    · exact hR.sw hdesc
    · exact hR.trans (hR.sw hdesc) (hact _ _)
  unfold mgmtDesc
  dsimp only
  split
  · exact hR.sw (complete_keeps (by decide) hdesc)
  · split
    · exact hR.sw (hostFail_keeps (by decide) hdesc)
    · exact hrest _ (hargs _)
theorem mgmtThen_course {act : Nat → MgmtAct} {after : Nat → MgmtAfter} (hR : Course R) (via : Option Sub) (code n arg : Nat) (s : State)
    (hact : ∀ v pf s, R s (act v pf s).2) (hafter : ∀ v pf s, R s (after v pf s)) : R s (mgmtThen via code n arg act after s) := by
  unfold mgmtThen
  cases via with
  | none => exact mgmtBmc_course hR _ _ (hact _) (hafter _)
  | some b => exact mgmtDesc_course hR _ _ _ _ _ (hact _) (hafter _)
theorem mgmt_course {act : Nat → MgmtAct} (hR : Course R) (via : Option Sub) (code n arg : Nat) (s : State)
    (hact : ∀ v pf s, R s (act v pf s).2) : R s (mgmt via code n arg act s) :=
  mgmtThen_course hR _ _ _ _ _ hact fun _ _ _ => hR.refl _
theorem mgmtToken_course {act : List Byte → MgmtAct} (hR : Course R) (via : Option Sub) (code : Nat) (token : List Byte) (s : State)
    (hact : ∀ l pf s, R s (act l pf s).2) (hafter : ∀ pf s, R s (after pf s)) : R s (mgmtToken via code token act after s) := by
  cases via with
  | none => exact mgmtBmc_course hR _ _ (hact _) hafter
  | some b => exact mgmtDesc_course hR _ _ _ _ _ (hact _) hafter
/-- An act on the switch alone. -/
theorem mgmtSw_course {checks : Sw → List (Bool × Nat)} {f : Sw → Sw} (hR : Course R) (hf : ∀ s : State, R s { s with sw := f s.sw })
    (s : State) : R s (mgmtSw checks f s).2 := by
  unfold mgmtSw
  split
  · exact hR.refl _
  · exact hf s
end

/-- A management command leaves all but what is listed, from whatever source. -/
def MgmtAct.leaves (ps : List Piece) (burn : Bool) (act : MgmtAct) : Prop := ∀ pf s, State.leaves ps burn s (act pf s).2

section
variable {ps : List Piece} {burn : Bool} (hp : partsIn mgmtParts ps = true)
include hp

theorem mgmtThen_leaves {act : Nat → MgmtAct} {after : Nat → MgmtAfter} (via : Option Sub) (code n arg : Nat) (s : State)
    (hact : ∀ v, (act v).leaves ps burn) (hafter : ∀ v pf s, State.leaves ps burn s (after v pf s)) :
    State.leaves ps burn s (mgmtThen via code n arg act after s) :=
  mgmtThen_course (State.leaves_course hp burn) via code n arg s hact hafter
theorem mgmt_leaves {act : Nat → MgmtAct} (via : Option Sub) (code n arg : Nat) (s : State) (hact : ∀ v, (act v).leaves ps burn) :
    State.leaves ps burn s (mgmt via code n arg act s) := mgmt_course (State.leaves_course hp burn) via code n arg s hact
theorem mgmtToken_leaves {act : List Byte → MgmtAct} {after : MgmtAfter} (via : Option Sub) (code : Nat) (token : List Byte) (s : State)
    (hact : ∀ l, (act l).leaves ps burn) (hafter : ∀ pf s, State.leaves ps burn s (after pf s)) :
    State.leaves ps burn s (mgmtToken via code token act after s) :=
  mgmtToken_course (State.leaves_course hp burn) via code token s hact hafter
end
/-- An act on the switch alone leaves what its change leaves. -/
theorem mgmtSw_leaves {ps : List Piece} {burn : Bool} {checks : Sw → List (Bool × Nat)} {f : Sw → Sw} (hf : ∀ w, Sw.keeps ps w (f w))
    (s : State) : State.leaves ps burn s (mgmtSw checks f s).2 := by
  unfold mgmtSw
  split
  · exact .refl _ _ _
  · exact State.leaves_sw _ (hf _)

section
variable {ps : List Piece} {burn : Bool}

theorem resetAct_leaves (kind : Nat) : (resetAct kind).leaves ps burn := fun _ s => mgmtSw_leaves (fun _ => .refl _ _) s
theorem resetAfter_leaves (hp : partsIn coldParts ps = true) (kind : Nat) (pf : Bool) (s : State) :
    State.leaves ps burn s (resetAfter kind pf s) := by
  refine State.leaves_sw _ ?_
  split
  · exact warmReset_keeps (partsIn_trans (by decide) hp) (.refl _ _)
  · exact coldReset_keeps (partsIn_trans (by decide) hp) (.refl _ _)
  · exact powerOff_keeps (partsIn_trans (by decide) hp) (.refl _ _)
theorem profileAct_leaves (hp : partsIn [.glb, .pwr, .evqs, .msix, .outs] ps = true) (v : Nat) : (profileAct v).leaves ps burn :=
  fun _ s => mgmtSw_leaves (fun _ => profileAdjust_keeps (partsIn_trans (by decide) hp)
    (modPwr_keeps (partsIn_trans (by decide) hp) (.refl _ _))) s
theorem tileQuarantineAct_leaves (hp : partsIn parts70 ps = true) (v : Nat) : (tileQuarantineAct v).leaves ps burn :=
  fun _ s => mgmtSw_leaves (fun _ => quarantine_keeps hp (.refl _ _)) s
theorem tileClearAct_leaves (hp : partsIn parts68 ps = true) (pass : Bool) (v : Nat) : (tileClearAct pass v).leaves ps burn :=
  fun _ s => mgmtSw_leaves (fun _ => clearTile_keeps hp (.refl _ _)) s
theorem channelClearAct_leaves (hp : partsIn [.hbm] ps = true) (k c : Nat) : (channelClearAct k c).leaves ps burn :=
  fun _ s => mgmtSw_leaves (fun _ => modStack_keeps hp (.refl _ _)) s
theorem fwActivateAct_leaves (hp : partsIn [.sec] ps = true) : fwActivateAct.leaves ps burn :=
  fun _ s => mgmtSw_leaves (fun _ => activate_keeps hp (.refl _ _)) s
theorem locateAct_leaves (hp : partsIn [.sec] ps = true) (v : Nat) : (locateAct v).leaves ps burn :=
  fun _ s => mgmtSw_leaves (fun _ => modSec_keeps hp (.refl _ _)) s
/-- SVN_ADVANCE burns fuses. -/
theorem svnAdvanceAct_leaves (hp : partsIn parts6 ps = true) : svnAdvanceAct.leaves ps true := by
  intro pf s
  unfold svnAdvanceAct
  dsimp only
  split
  · exact .refl _ _ _
  · exact ⟨rfl, raiseHeld_keeps hp (.refl _ _), nofun⟩
/-- LIFECYCLE_RETURN burns fuses. -/
theorem lifecycleReturnAct_leaves (token : List Byte) : (lifecycleReturnAct token).leaves ps true := by
  intro pf s
  unfold lifecycleReturnAct
  split
  · exact ⟨rfl, .refl _ _, nofun⟩
  · exact .refl _ _ _
theorem debugUnlockAct_leaves (hp : partsIn [.sec, .held, .evqs, .msix, .outs] ps = true) (token : List Byte) :
    (debugUnlockAct token).leaves ps burn := by
  intro pf s
  unfold debugUnlockAct
  split
  · exact .refl _ _ _
  · split
    · exact State.leaves_sw _ (modSec_keeps (partsIn_trans (by decide) hp) (.refl _ _))
    · exact State.leaves_sw _ (raiseHeld_keeps (partsIn_trans (by decide) hp) (modSec_keeps (partsIn_trans (by decide) hp) (.refl _ _)))
theorem debugUnlockAfter_leaves (hp : partsIn coldParts ps = true) (pf : Bool) (s : State) : State.leaves ps burn s (debugUnlockAfter pf s) :=
  State.leaves_sw _ (coldReset_keeps (partsIn_trans (by decide) hp) (.refl _ _))
theorem warmAfter_leaves (hp : partsIn warmParts ps = true) (cause : Nat) (s : State) :
    State.leaves ps burn s { s with sw := warmReset cause s.sw } :=
  State.leaves_sw _ (warmReset_keeps (partsIn_trans (by decide) hp) (.refl _ _))
end
/-! ### Dispatch of the descriptors of a ring (12 R412) -/

/-- Parts that the descriptors but FW_LOAD and FW_ACTIVATE can change. -/
def plainParts : List Piece := lossParts ++ [.hostSet, .held, .kernels]
/-- Whatever its opcode, a descriptor changes no more than a warm reset and the dispatch; without FW_LOAD and FW_ACTIVATE, less. -/
theorem descOp_keeps {ps : List Piece} (hp : partsIn plainParts ps = true) (f : Fuses) (code : Nat) (b : Sub) (t : Tok) {a w : Sw}
    (hfw : code = 0x90 ∨ code = 0x91 → partsIn warmParts ps = true) (h : Sw.keeps ps a w) : Sw.keeps ps a (descOp f code b t w) := by
  have hps {qs : List Piece} (hq : partsIn qs plainParts = true) : partsIn qs ps = true := partsIn_trans hq hp
  unfold descOp
  split
  · exact nopOp_keeps (hps rfl) h
  · exact signalOp_keeps (hps rfl) h
  · exact waitOp_keeps (hps rfl) h
  · exact jobOpenOp_keeps (hps rfl) h
  · exact jobCloseOp_keeps (hps rfl) h
  · exact capsReadOp_keeps (hps rfl) h
  · exact hostConfigOp_keeps (hps rfl) h
  · exact ctxCreateOp_keeps (hps rfl) h
  · exact ctxDestroyOp_keeps (hps rfl) h
  · exact ctxRecanopyOp_keeps (hps rfl) h
  · exact portBindOp_keeps (hps rfl) h
  · exact opPostOp_keeps (hps rfl) h
  · exact opAbortOp_keeps (hps rfl) h
  · exact storeCreateOp_keeps (hps rfl) h
  · exact storeDestroyOp_keeps (hps rfl) h
  · exact storeLoadOp_keeps (hps rfl) h
  · exact storeReadOp_keeps (hps rfl) h
  · exact storeGatherOp_keeps (hps rfl) h
  · exact storeUnpinOp_keeps (hps rfl) h
  · exact storeReshardOp_keeps (hps rfl) h
  · exact storeLogReadOp_keeps (hps rfl) h
  · exact kernelLoadOp_keeps (hps rfl) h
  · exact kernelFreeOp_keeps (hps rfl) h
  · exact layerConfigOp_keeps (hps rfl) h
  · exact updateStartOp_keeps (hps rfl) h
  · exact updateAbortOp_keeps (hps rfl) h
  · exact pruneConfigOp_keeps (hps rfl) h
  · exact actConfigOp_keeps (hps rfl) h
  · exact actReadOp_keeps (hps rfl) h
  · exact routeWriteOp_keeps (hps rfl) h
  · exact routeArmOp_keeps (hps rfl) h
  · exact epochFlipOp_keeps (hps rfl) h
  · exact routeReadOp_keeps (hps rfl) h
  · exact jobRouteOp_keeps (hps rfl) h
  · exact fabricConfigOp_keeps (hps rfl) h
  · exact frameQuotaOp_keeps (hps rfl) h
  · exact recConfigOp_keeps (hps rfl) h
  · exact recReadOp_keeps (hps rfl) h
  · exact digestCompareOp_keeps (hps rfl) h
  · exact graftTestOp_keeps (hps rfl) h
  · exact graftCopyOp_keeps (hps rfl) h
  · exact stepAckOp_keeps (hps rfl) h
  · exact anchorCopyOp_keeps (hps rfl) h
  · exact fwLoadOp_keeps (partsIn_trans (by decide) (hfw (.inl rfl))) h
  · exact fwActivateOp_keeps (partsIn_trans (by decide) (hfw (.inr rfl))) h
  · exact linkKeyOp_keeps (hps rfl) h
  · exact complete_keeps (hps rfl) h
theorem mgmtByCode_leaves {ps : List Piece} (hp : partsIn (coldParts ++ [.nextTok]) ps = true) (b : Sub) (s : State) :
    State.leaves ps true s (mgmtByCode b s) := by
  have hps {qs : List Piece} (hq : partsIn qs (coldParts ++ [.nextTok]) = true) : partsIn qs ps = true := partsIn_trans hq hp
  unfold mgmtByCode
  split
  · exact mgmtThen_leaves (hps rfl) _ _ _ _ _ resetAct_leaves (resetAfter_leaves (hps rfl))
  · exact mgmt_leaves (hps rfl) _ _ _ _ _ (profileAct_leaves (hps rfl))
  · exact mgmt_leaves (hps rfl) _ _ _ _ _ (tileQuarantineAct_leaves (hps rfl))
  · exact (State.leaves_sw _ (draw_keeps (hps rfl) (.refl _ _))).trans (mgmt_leaves (hps rfl) _ _ _ _ _ (tileClearAct_leaves (hps rfl) _))
  · exact mgmt_leaves (hps rfl) _ _ _ _ _ fun _ => channelClearAct_leaves (hps rfl) _ _
  · exact mgmtThen_leaves (hps rfl) _ _ _ _ _ (fun _ => fwActivateAct_leaves (hps rfl)) fun _ _ => warmAfter_leaves (hps rfl) 4
  · exact mgmt_leaves (hps rfl) _ _ _ _ _ fun _ => svnAdvanceAct_leaves (hps rfl)
  · exact mgmt_leaves (hps rfl) _ _ _ _ _ (locateAct_leaves (hps rfl))
  · exact mgmtToken_leaves (hps rfl) _ _ _ _ (debugUnlockAct_leaves (hps rfl)) (debugUnlockAfter_leaves (hps rfl))
  · exact mgmtToken_leaves (hps rfl) _ _ _ _ lifecycleReturnAct_leaves fun _ => .refl _ _
  · exact mgmtDesc_course (State.leaves_course (hps rfl) true) _ _ _ _ _ (fun _ => .refl _ _) fun _ => .refl _ _
theorem dispatchNext_leaves {ps : List Piece} (hp : partsIn (coldParts ++ [.nextTok]) ps = true) (n : Nat) (host : List Byte)
    (err : Option Quad) (s : State) : State.leaves ps true s (dispatchNext n host err s) := by
  have hps {qs : List Piece} (hq : partsIn qs (coldParts ++ [.nextTok]) = true) : partsIn qs ps = true := partsIn_trans hq hp
  have htaken (ds : List Desc) : Sw.keeps ps s.sw (s.sw.modRing n fun r => { r with fetched := ds }) := modRing_keeps (hps rfl) (.refl _ _)
  unfold dispatchNext
  dsimp only
  split
  · exact .refl _ _ _
  · split
    · exact .refl _ _ _
    · split
      · exact (State.leaves_sw _ (htaken _)).trans (mgmtByCode_leaves hp _ _)
      · exact State.leaves_sw _ (runDesc_keeps (hps rfl) (fun _ _ _ _ h => descOp_keeps (hps rfl) _ _ _ _ (fun _ => hps rfl) h) (htaken _))
theorem hostTimeout_leaves {ps : List Piece} (hp : partsIn (coldParts ++ [.nextTok]) ps = true) (n : Nat) (s : State) :
    State.leaves ps true s (hostTimeout n s) := by
  unfold hostTimeout
  split
  · exact State.leaves_sw _ (fetchEnds_keeps (partsIn_trans (by decide) hp) (.refl _ _))
  · split
    · exact .refl _ _ _
    · exact dispatchNext_leaves hp _ _ _ _

/-! ### The host link -/

theorem exec_hostLinkReset (cause : Nat) (s : State) : exec (.hostLinkReset cause) s =
    lift (fun w => holdEvent 0x0A04 (le 1 cause) ((flrOf 0 w).modHost fun h => { h with
      vfEnable := false, numVfs := 0, linkUp := h.linkUp && cause != 1, perstN := h.perstN && cause != 1 })) s := rfl
theorem hostLinkReset_keeps (cause : Nat) (s : Sw) : Sw.keeps [.rings, .evqs, .hostSet, .hostLink, .msix, .held] s
    (holdEvent 0x0A04 (le 1 cause) ((flrOf 0 s).modHost fun h => { h with
      vfEnable := false, numVfs := 0, linkUp := h.linkUp && cause != 1, perstN := h.perstN && cause != 1 })) :=
  holdEvent_keeps (by decide) (modHost_keeps (by simp) (by simp) (by simp) (by simp) (by simp) (by simp) (by simp) (by simp) (by simp)
    (by simp) (flrOf_keeps (by decide) (.refl _ _)))
theorem perstRaised_keeps (up : Bool) (s : Sw) : Sw.keeps [.hostLink] s (s.modHost fun h => { h with perstN := true, linkUp := up }) :=
  modHost_keeps (by simp) (by simp) (by simp) (by simp) (by simp) (by simp) (by simp) (by simp) (by simp) (by simp) (.refl _ _)

/-! ### The rows that many commands share -/

theorem partsIn_more {a b : List Piece} (h : partsIn a b = true) (c : List Piece) : partsIn a (b ++ c) = true := by
  simp only [partsIn, List.all_eq_true, List.contains_iff_mem, List.mem_append] at *
  exact fun p hp => .inl (h p hp)
theorem settle_all : partsIn parts63 settleParts = true := by decide
theorem settle_more (c : List Piece) : partsIn parts63 (settleParts ++ c) = true := partsIn_more settle_all c
theorem cell_more (c : List Piece) : partsIn parts47 (settleParts ++ .portLink :: c) = true :=
  partsIn_trans (b := settleParts ++ [.portLink]) (by decide) (by
    simp only [partsIn, List.all_eq_true, List.contains_iff_mem, List.mem_append, List.mem_cons]
    rintro p (h | h | h)
    · exact .inl h
    · exact .inr (.inl h)
    · cases h)
theorem loss_all : partsIn parts68 lossParts = true := by decide
theorem warm_all : partsIn parts72 warmParts = true := by decide
theorem cold_all : partsIn parts74 coldParts = true := by decide
theorem power_all (cause : Nat) : partsIn parts73 (mayChange (.cold cause)) = true := rfl

/-! ### Commands whose operation is written in their row -/

/-- A cell of the TIME channel changes what its arrival and its effect change. -/
theorem framed_of_time {c : Instr} {s : State} {p : Nat} {cell : Cell} (f : Cell → Sw → Sw)
    (hc : exec c s = lift (fun w => timeArrive p f (ingress p cell w).1 (ingress p cell w).2) s)
    (hp : partsIn parts47 (mayChange c) = true) (hp' : partsIn parts18 (mayChange c) = true)
    (hf : ∀ d a w, Sw.keeps (mayChange c) a w → Sw.keeps (mayChange c) a (f d w)) : framed c s :=
  framed_of_lift _ hc (timeArrive_keeps hp' hf (ingress_keeps hp (.refl _ _)))
theorem exec_wait (b : Sub) (s : State) :
    exec (.wait b) s = lift (fun w => if (w.ring b.ring).wait.isSome then w else runDesc 0x02 waitOp b w) s := rfl
theorem exec_creditTimer (p : Nat) (s : State) : exec (.creditTimer p) s = lift (fun w =>
    if ((payPaced p w).port p).link.freedNew.any (fun k => k != 0) then sendCredit p (payPaced p w) else payPaced p w) s := rfl
theorem exec_patrolScrub (k ta corrected : Nat) (ue : Option MemRegion) (s : State) : exec (.patrolScrub k ta corrected ue) s =
    lift (fun w => patrolScrub (if ue.isSome then w.stackAt k ta else k) ta corrected ue w) s := rfl
theorem exec_shardAbandoned (x u k stack ta : Nat) (s : State) : exec (.shardAbandoned x u k stack ta) s =
    lift (fun w => abandonShard x u k (w.stackAt stack ta) ta w) s := rfl

/-! ### Every command -/

theorem variant_notMem_mayChange (c : Instr) : Piece.variant ∉ mayChange c := by
  have hnot : (mayChange c).contains .variant = false := by cases c <;> rfl
  exact fun hmem => Bool.false_ne_true (hnot.symm.trans (List.contains_iff_mem.2 hmem))
/-- Every command completes and leaves what its row of `mayChange` does not list. -/
theorem every_framed (c : Instr) (s : State) : framed c s := by
  cases c with
  | tileQuarantine via tile => exact framed_of_next rfl (mgmt_leaves rfl _ _ _ _ _ (tileQuarantineAct_leaves rfl))
  | takeOverComplete quad => exact framed_of_lift _ rfl (takeOverDone_keeps rfl (.refl _ _))
  | periodicSelfTest tile pass => exact framed_of_lift _ rfl (selfTestSpare_keeps rfl (.refl _ _))
  | tileClear via tile pass => exact framed_of_next rfl (mgmt_leaves rfl _ _ _ _ _ (tileClearAct_leaves rfl _))
  | frameReceive port frame codewords symbols uncorrectable => exact framed_of_lift _ rfl (frameOp_keeps rfl (.refl _ _))
  | replayTimeout port => exact framed_of_lift _ rfl (keeps_ite (startReplay_keeps loss_all (.refl _ _)) (.refl _ _))
  | creditReceive port cell => exact framed_of_lift _ rfl (portCell_keeps rfl (fun _ _ _ h => creditOp_keeps rfl h) (.refl _ _))
  | creditTimer port => exact framed_of_lift _ (exec_creditTimer _ _) (keeps_ite (sendCredit_keeps rfl (payPaced_keeps rfl (.refl _ _))) (payPaced_keeps rfl (.refl _ _)))
  | heartbeatPeriod port => exact framed_of_lift _ rfl (heartbeatOp_keeps rfl (.refl _ _))
  | heartbeatMiss port => exact framed_of_lift _ rfl (heartbeatMissOp_keeps loss_all (.refl _ _))
  | linkIdReceive port cell => exact framed_of_lift _ rfl (portCell_keeps rfl (fun _ _ _ h => linkIdOp_keeps rfl h) (.refl _ _))
  | linkIdTimer port => exact framed_of_lift _ rfl (keeps_ite (sendLinkId_keeps rfl (.refl _ _)) (.refl _ _))
  | identifyTimeout port => exact framed_of_lift _ rfl (identifyTimeoutOp_keeps loss_all (.refl _ _))
  | splitDarkTimeout quad => exact framed_of_lift _ rfl (splitDarkOp_keeps loss_all (.refl _ _))
  | splitRetry quad => exact framed_of_lift _ rfl (keeps_ite (splitTrial_keeps loss_all (.refl _ _)) (.refl _ _))
  | searchRateStep port => exact framed_of_lift _ rfl (keeps_ite (modLanes_keeps rfl (.refl _ _)) (.refl _ _))
  | linkDownReceive port cell => exact framed_of_lift _ rfl (portCell_keeps rfl (fun _ _ _ h => linkDownOp_keeps loss_all h) (.refl _ _))
  | lostRetryTimer port => exact framed_of_lift _ rfl (lostRetryOp_keeps loss_all (.refl _ _))
  | adminUpWrite0 port => exact framed_of_lift _ rfl (adminDown_keeps loss_all (.refl _ _))
  | adminUpWrite1 port => exact framed_of_lift _ rfl (adminUpOp_keeps loss_all (.refl _ _))
  | memberCellReceive port cell => exact framed_of_cell _ rfl (cell_more _) fun _ _ _ _ _ h => memberCellOp_keeps (settle_more _) h
  | stagedContributionConvert ctx opnum port gcell => exact framed_of_lift _ rfl (convertOp_keeps settle_all (.refl _ _))
  | recordReceive port cell => exact framed_of_cell _ rfl (cell_more _) fun _ _ _ _ _ h => recordOp_keeps (settle_more _) h
  | replayNoticeReceive port cell => exact framed_of_cell _ rfl (cell_more _) fun _ _ _ _ _ h => noticeOp_keeps (settle_more _) h
  | anchorNoticeReceive port cell => exact framed_of_cell _ rfl (cell_more _) fun _ _ _ _ _ h => noticeOp_keeps (settle_more _) h
  | p2pCellReceive port cell => exact framed_of_lift (p2pArrive port cell) rfl (p2pArrive_keeps rfl (.refl _ _))
  | congEchoReceive port cell => exact framed_of_lift _ rfl (echoArrive_keeps rfl (.refl _ _))
  | pacingRaiseTimer port cdst => exact framed_of_lift _ rfl (paceRaise_keeps rfl (.refl _ _))
  | memberEgressStall port tc => exact framed_of_lift _ rfl (memberStallOp_keeps settle_all (.refl _ _))
  | egressService port => exact framed_of_lift _ rfl (serveOp_keeps rfl (.refl _ _))
  | ctxCreate sub => exact framed_of_desc _ _ rfl rfl fun _ _ _ _ h => ctxCreateOp_keeps rfl h
  | ctxDestroy sub => exact framed_of_desc _ _ rfl rfl fun _ _ _ _ h => ctxDestroyOp_keeps (settle_more _) h
  | ctxRecanopy sub => exact framed_of_desc _ _ rfl rfl fun _ _ _ _ h => ctxRecanopyOp_keeps (settle_more _) h
  | portBind sub => exact framed_of_desc _ _ rfl rfl fun _ _ _ _ h => portBindOp_keeps rfl h
  | opPost sub => exact framed_of_desc _ _ rfl rfl fun _ _ _ _ h => opPostOp_keeps (settle_more _) h
  | opAbort sub => exact framed_of_desc _ _ rfl rfl fun _ _ _ _ h => opAbortOp_keeps (settle_more _) h
  | joinReceive port cell => exact framed_of_cell _ rfl (cell_more _) fun _ _ _ _ _ h => joinCell_keeps (settle_more _) h
  | joinStatusReceive port cell => exact framed_of_cell _ rfl (cell_more _) fun _ _ _ _ _ h => statusArrive_keeps (settle_more _) h
  | countsReceive port cell => exact framed_of_cell _ rfl (cell_more _) fun _ _ _ _ _ h => countsCellArrive_keeps (settle_more _) h
  | exchangeCellReceive port cell => exact framed_of_lift (p2pArrive port cell) rfl (p2pArrive_keeps rfl (.refl _ _))
  | barrierArriveReceive port cell => exact framed_of_cell _ rfl (cell_more _) fun _ _ _ _ _ h => joinCell_keeps (settle_more _) h
  | barrierReleaseReceive port cell => exact framed_of_cell _ rfl (cell_more _) fun _ _ _ _ _ h => releaseArrive_keeps (settle_more _) h
  | latenessExpiry ctx opnum gcell port => exact framed_of_lift _ rfl (latenessOp_keeps settle_all (.refl _ _))
  | stallTimeout ctx opnum port gcell contribution => exact framed_of_lift _ rfl (stallOp_keeps rfl (.refl _ _))
  | memberLossTimeout port => exact framed_of_lift _ rfl (each_keeps (fun _ _ _ h => lossOf_keeps settle_all h) (.refl _ _))
  | abortNoticeReceive port cell => exact framed_of_cell _ rfl (cell_more _) fun _ _ _ _ _ h => abortArrive_keeps (settle_more _) h
  | seedlingRebound => exact framed_of_lift _ rfl (reboundOp_keeps rfl (.refl _ _))
  | seedlingRebindTimeout => exact framed_of_lift _ rfl (keeps_ite (rebind_keeps rfl (.refl _ _)) (.refl _ _))
  | frameTick => exact framed_of_lift _ rfl (frameTickOp_keeps rfl (.refl _ _))
  | timingMessageReceive msg mark frac => exact framed_of_lift _ rfl (timingMessageOp_keeps rfl (.refl _ _))
  | timingInputTimeout => exact framed_of_lift _ rfl (inputInvalid_keeps rfl (.refl _ _))
  | timingOutputMark => exact framed_of_lift _ rfl (timingOutOp_keeps rfl (.refl _ _))
  | syncReceive port cell stamp frac => exact framed_of_time _ rfl rfl rfl fun _ _ _ h => syncOp_keeps rfl h
  | delayReqReceive port cell stamp frac => exact framed_of_time _ rfl rfl rfl fun _ _ _ h => delayReqOp_keeps rfl h
  | delayRespReceive port cell stamp frac => exact framed_of_time _ rfl rfl rfl fun _ _ _ h => delayRespOp_keeps rfl h
  | announceReceive port cell => exact framed_of_time _ rfl rfl rfl fun _ _ _ h => announceOp_keeps rfl h
  | syncInterval => exact framed_of_lift _ rfl (syncIntervalOp_keeps rfl (.refl _ _))
  | delayReqTimer => exact framed_of_lift _ rfl (delayReqTimerOp_keeps rfl (.refl _ _))
  | delayReqTimeout => exact framed_of_lift _ rfl (modSync_keeps rfl (.refl _ _))
  | announceTimeout port => exact framed_of_lift _ rfl (keeps_ite (dropAnnounce_keeps rfl (.refl _ _)) (.refl _ _))
  | holdoverExpired => exact framed_of_lift _ rfl (holdoverOp_keeps rfl (.refl _ _))
  | sourceWrite value => exact framed_of_lift _ rfl (writeSource_keeps rfl (.refl _ _))
  | periodLog2Write value => exact framed_of_lift _ rfl (writePeriod_keeps rfl (.refl _ _))
  | framePeriodChanged => exact framed_of_lift _ rfl (periodChangedOp_keeps rfl (.refl _ _))
  | frameQuota sub => exact framed_of_desc _ _ rfl rfl fun _ _ _ _ h => frameQuotaOp_keeps rfl h
  | launchInstant ctx opnum => exact framed_of_lift _ rfl (launchOp_keeps rfl (.refl _ _))
  | storeCreate sub => exact framed_of_desc _ _ rfl rfl fun _ _ _ _ h => storeCreateOp_keeps (settle_more _) h
  | storeDestroy sub => exact framed_of_desc _ _ rfl rfl fun _ _ _ _ h => storeDestroyOp_keeps (settle_more _) h
  | storeLoad sub => exact framed_of_desc _ _ rfl rfl fun _ _ _ _ h => storeLoadOp_keeps (settle_more _) h
  | storeRead sub => exact framed_of_desc _ _ rfl rfl fun _ _ _ _ h => storeReadOp_keeps rfl h
  | storeGather sub => exact framed_of_desc _ _ rfl rfl fun _ _ _ _ h => storeGatherOp_keeps (settle_more _) h
  | storeUnpin sub => exact framed_of_desc _ _ rfl rfl fun _ _ _ _ h => storeUnpinOp_keeps (settle_more _) h
  | storeReshard sub => exact framed_of_desc _ _ rfl rfl fun _ _ _ _ h => storeReshardOp_keeps (settle_more _) h
  | storeLogRead sub => exact framed_of_desc _ _ rfl rfl fun _ _ _ _ h => storeLogReadOp_keeps rfl h
  | gradientAreaFull ctx opnum gcell => exact framed_of_lift _ rfl (areaWrite_keeps settle_all (.refl _ _))
  | mirrorRecordReceive port cell => exact framed_of_cell _ rfl (cell_more _) fun _ _ _ _ _ h => recordOp_keeps (settle_more _) h
  | waitPinResume ctx shard => exact framed_of_lift _ rfl (pinResume_keeps rfl (.refl _ _))
  | reshardMoveStart ctx => exact framed_of_lift _ rfl (moveStart_keeps settle_all (.refl _ _))
  | reshardDrainTimeout ctx => exact framed_of_lift _ rfl (drainTimeout_keeps rfl (.refl _ _))
  | moveCellReceive port cell => exact framed_of_cell _ rfl (cell_more _) fun _ _ _ _ _ h => moveOp_keeps (settle_more _) h
  | reshardResendTimeout ctx shard => exact framed_of_lift _ rfl (resendImage_keeps rfl (.refl _ _))
  | kernelLoad sub => exact framed_of_desc _ _ rfl rfl fun _ _ _ _ h => kernelLoadOp_keeps rfl h
  | kernelFree sub => exact framed_of_desc _ _ rfl rfl fun _ _ _ _ h => kernelFreeOp_keeps rfl h
  | layerConfig sub => exact framed_of_desc _ _ rfl rfl fun _ _ _ _ h => layerConfigOp_keeps rfl h
  | updateStart sub => exact framed_of_desc _ _ rfl rfl fun _ _ _ _ h => updateStartOp_keeps (settle_more _) h
  | updateAbort sub => exact framed_of_desc _ _ rfl rfl fun _ _ _ _ h => updateAbortOp_keeps (settle_more _) h
  | normReceive port cell => exact framed_of_cell _ rfl (cell_more _) fun _ _ _ _ _ h => normOp_keeps (settle_more _) h
  | normResendTimer ctx ugroup => exact framed_of_lift _ rfl (normResend_keeps settle_all (.refl _ _))
  | updateGradWait ctx ugroup => exact framed_of_lift _ rfl (gradWaitEvent_keeps rfl (.refl _ _))
  | normWaitTimeout ctx ugroup => exact framed_of_lift _ rfl (normWaitEvent_keeps rfl (.refl _ _))
  | layerPreComplete ctx ugroup layer => exact framed_of_lift _ rfl (layerPre_keeps settle_all (.refl _ _))
  | shardCommit ctx ugroup shard => exact framed_of_lift _ rfl (commitShard_keeps settle_all (.refl _ _))
  | idleCommit ctx ugroup shard => exact framed_of_lift _ rfl (commitIdle_keeps settle_all (.refl _ _))
  | migrationStart grove => exact framed_of_lift _ rfl (migStart_keeps rfl (.refl _ _))
  | migrationCopyDone grove => exact framed_of_lift _ rfl (migDone_keeps settle_all (.refl _ _))
  | pruneCellReceive port cell => exact framed_of_cell _ rfl (cell_more _) fun _ _ _ _ _ h => keeps_ite (memberCellOp_keeps (settle_more _) h) h
  | zeroRunReceive port cell => exact framed_of_cell _ rfl (cell_more _) fun _ _ _ _ _ h => keeps_ite (recordOp_keeps (settle_more _) h) h
  | pruneConfig sub => exact framed_of_desc _ _ rfl rfl fun _ _ _ _ h => pruneConfigOp_keeps rfl h
  | actConfig sub => exact framed_of_desc _ _ rfl rfl fun _ _ _ _ h => actConfigOp_keeps (settle_more _) h
  | actRead sub => exact framed_of_desc _ _ rfl rfl fun _ _ _ _ h => actReadOp_keeps rfl h
  | resultAckReceive port cell => exact framed_of_cell _ rfl (cell_more _) fun _ _ _ _ _ h => ackArrive_keeps (settle_more _) h
  | reinjectReqReceive port cell => exact framed_of_cell _ rfl (cell_more _) fun _ _ _ _ _ h => reinjectArrive_keeps (settle_more _) h
  | digestReceive port cell => exact framed_of_cell _ rfl rfl fun _ _ _ _ _ h => digestArrive_keeps rfl h
  | digestCompare sub => exact framed_of_desc _ _ rfl rfl fun _ _ _ _ h => digestCompareOp_keeps rfl h
  | digestCompareTimeout ctx opnum => exact framed_of_lift _ rfl (digestCompareEnd_keeps rfl (.refl _ _))
  | recConfig sub => exact framed_of_desc _ _ rfl rfl fun _ _ _ _ h => recConfigOp_keeps rfl h
  | recRead sub => exact framed_of_desc _ _ rfl rfl fun _ _ _ _ h => recReadOp_keeps rfl h
  | stepAck sub => exact framed_of_desc _ _ rfl rfl fun _ _ _ _ h => stepAckOp_keeps (settle_more _) h
  | anchorCopy sub => exact framed_of_desc _ _ rfl rfl fun _ _ _ _ h => anchorCopyOp_keeps rfl h
  | graftTest sub => exact framed_of_desc _ _ rfl rfl fun _ _ _ _ h => graftTestOp_keeps rfl h
  | graftSelfTestDone => exact framed_of_lift _ rfl (graftSelfTest_keeps rfl (.refl _ _))
  | graftLinkTestDone => exact framed_of_lift _ rfl (graftLinkTest_keeps rfl (.refl _ _))
  | graftVectorsDone => exact framed_of_lift _ rfl (graftVectors_keeps rfl (.refl _ _))
  | graftVectorTimeout => exact framed_of_lift _ rfl (graftVectorEnd_keeps rfl (.refl _ _))
  | graftCopy sub => exact framed_of_desc _ _ rfl rfl fun _ _ _ _ h => graftCopyOp_keeps (settle_more _) h
  | graftCellReceive port cell => exact framed_of_lift _ rfl (graftCellIn_keeps rfl (.refl _ _))
  | graftCopyTimeout ctx => exact framed_of_lift _ rfl (copyTimeout_keeps rfl (.refl _ _))
  | routeWrite sub => exact framed_of_desc _ _ rfl rfl fun _ _ _ _ h => routeWriteOp_keeps rfl h
  | routeArm sub => exact framed_of_desc _ _ rfl rfl fun _ _ _ _ h => routeArmOp_keeps rfl h
  | epochFlip sub => exact framed_of_desc _ _ rfl rfl fun _ _ _ _ h => epochFlipOp_keeps rfl h
  | routeRead sub => exact framed_of_desc _ _ rfl rfl fun _ _ _ _ h => routeReadOp_keeps rfl h
  | jobRoute sub => exact framed_of_desc _ _ rfl rfl fun _ _ _ _ h => jobRouteOp_keeps rfl h
  | fabricConfig sub => exact framed_of_desc _ _ rfl rfl fun _ _ _ _ h => fabricConfigOp_keeps rfl h
  | flipTimer => exact framed_of_lift _ rfl (flipTimerOp_keeps rfl (.refl _ _))
  | epochCellReceive port cell => exact framed_of_lift _ rfl (epochIn_keeps rfl (.refl _ _))
  | epochDrained version => exact framed_of_lift _ rfl (drained_keeps rfl (.refl _ _))
  | poolWaitServed cls place => exact framed_of_lift _ rfl (poolServe_keeps settle_all (.refl _ _))
  | sramScrub tile region word corrected uncorrectable => exact framed_of_lift _ rfl (sramScrub_keeps rfl (.refl _ _))
  | patrolScrub stack ta corrected uncorrectable => exact framed_of_lift _ (exec_patrolScrub _ _ _ _ _) (patrolScrub_keeps settle_all (.refl _ _))
  | cxlEnable root => exact framed_of_lift _ rfl (onlyIf_keeps (fun _ _ h => modRoot_keeps rfl h) (.refl _ _))
  | cxlLinkUp root width speed extents => exact framed_of_lift _ rfl (cxlUp_keeps rfl (.refl _ _))
  | cxlLinkTimeout root cause => exact framed_of_lift _ rfl (onlyIf_keeps (fun _ _ h => raiseSys_keeps rfl h) (.refl _ _))
  | cxlLinkDown root cause => exact framed_of_lift _ rfl (cxlDown_keeps rfl (.refl _ _))
  | cxlHoldTimeout root => exact framed_of_lift _ rfl (cxlHoldEnds_keeps settle_all (.refl _ _))
  | nop sub => exact framed_of_desc _ _ rfl rfl fun _ _ _ _ h => nopOp_keeps rfl h
  | signal sub => exact framed_of_desc _ _ rfl rfl fun _ _ _ _ h => signalOp_keeps rfl h
  | wait sub => exact framed_of_lift _ (exec_wait _ _) (keeps_ite (.refl _ _) (runDesc_keeps rfl (fun _ _ _ _ h => waitOp_keeps rfl h) (.refl _ _)))
  | jobOpen sub => exact framed_of_desc _ _ rfl rfl fun _ _ _ _ h => jobOpenOp_keeps rfl h
  | jobClose sub => exact framed_of_desc _ _ rfl rfl fun _ _ _ _ h => jobCloseOp_keeps (settle_more _) h
  | teardownComplete job => exact framed_of_lift _ rfl (teardown_keeps rfl (.refl _ _))
  | capsRead sub => exact framed_of_desc _ _ rfl rfl fun _ _ _ _ h => capsReadOp_keeps rfl h
  | hostConfig sub => exact framed_of_desc _ _ rfl rfl fun _ _ _ _ h => hostConfigOp_keeps rfl h
  | ringEnable func ring => exact framed_of_lift _ rfl (onlyIf_keeps (fun _ _ h => ringStart_keeps rfl h) (.refl _ _))
  | ringDisable func ring => exact framed_of_lift _ rfl (onlyIf_keeps (fun _ _ h => ringStop_keeps rfl h) (.refl _ _))
  | descriptorFetch ring => exact framed_of_lift _ rfl (onlyIf_keeps (fun _ _ h => modRing_keeps rfl h) (.refl _ _))
  | fetchComplete ring descs error => exact framed_of_lift _ rfl (fetchEnds_keeps rfl (.refl _ _))
  | descriptorDispatch ring host hostErr => exact framed_of_next rfl (dispatchNext_leaves rfl _ _ _ s)
  | tail func ring value => exact framed_of_lift _ rfl (ringBell_keeps rfl (fun _ _ h => tailWrite_keeps rfl h) (.refl _ _))
  | cancelWait func ring => exact framed_of_lift _ rfl (ringBell_keeps rfl (fun _ _ h => endWait_keeps rfl h) (.refl _ _))
  | resume func ring => exact framed_of_lift _ rfl (ringBell_keeps rfl (fun _ _ h => modRing_keeps rfl h) (.refl _ _))
  | evqDoorbell func evq value => exact framed_of_lift _ rfl (evqBell_keeps rfl (.refl _ _))
  | evqEnable func evq => exact framed_of_lift _ rfl (onlyIf_keeps (fun _ _ h => evqStart_keeps rfl h) (.refl _ _))
  | evqDisable func evq => exact framed_of_lift _ rfl (onlyIf_keeps (fun _ _ h => evqStop_keeps rfl h) (.refl _ _))
  | waitStall job hostEdges => exact framed_of_lift (waitStall job hostEdges) rfl (waitStall_keeps rfl (.refl _ _))
  | flr func => exact framed_of_lift _ rfl (flrOf_keeps rfl (.refl _ _))
  | hostLinkReset cause => exact framed_of_lift _ (exec_hostLinkReset _ _) (hostLinkReset_keeps _ s.sw)
  | registerWrite func space offset size value => exact framed_of_lift _ rfl (writeOp_keeps cold_all (.refl _ _))
  | loReadLatch func bmc offset size => exact framed_of_lift _ rfl (readOp_keeps rfl (.refl _ _))
  | laneLock lane rate => exact framed_of_lift _ rfl (laneLockOp_keeps rfl (.refl _ _))
  | trainingFrameReceive lane control status ready snr skewNs => exact framed_of_lift _ rfl (trainingFrame_keeps rfl (.refl _ _))
  | trainTimeout lane => exact framed_of_lift _ rfl (trainTimeoutOp_keeps rfl (.refl _ _))
  | laneLos lane power => exact framed_of_lift _ rfl (laneLosOp_keeps loss_all (.refl _ _))
  | laneLosClear lane power => exact framed_of_lift _ rfl (onlyIf_keeps (fun _ _ h => modLane_keeps rfl h) (.refl _ _))
  | laneLol lane cause => exact framed_of_lift _ rfl (laneLolOp_keeps loss_all (.refl _ _))
  | aprEntered lane => exact framed_of_lift _ rfl (aprEnter_keeps rfl (.refl _ _))
  | aprRestartPulse lane => exact framed_of_lift _ rfl (modLane_keeps rfl (.refl _ _))
  | clear lane => exact framed_of_lift _ rfl (modTest_keeps rfl (.refl _ _))
  | injectSingle lane => exact framed_of_lift _ (exec_injectSingle _ _) (injectWrite_keeps rfl (.refl _ _))
  | injectPeriodic lane periodLog2 => exact framed_of_lift _ (exec_injectPeriodic _ _ _) (injectWrite_keeps rfl (.refl _ _))
  | injectFecSymbols lane syms count => exact framed_of_lift _ (exec_injectFecSymbols _ _ _ _) (injectWrite_keeps rfl (.refl _ _))
  | laneTestStart lane value => exact framed_of_lift _ rfl (testWrite_keeps rfl (.refl _ _))
  | feedLost engine feedB power => exact framed_of_lift _ rfl (feedLostOp_keeps rfl (.refl _ _))
  | feedRestored engine feedB power => exact framed_of_lift _ rfl (feedRestoredOp_keeps rfl (.refl _ _))
  | latchClose site => exact framed_of_lift _ rfl (latchCloseOp_keeps rfl (.refl _ _))
  | latchOpen site => exact framed_of_lift _ rfl (latchOpenOp_keeps rfl (.refl _ _))
  | laserIdentityRead site serial unfit => exact framed_of_lift _ rfl (identityRead_keeps rfl (.refl _ _))
  | laserIdentityTimeout site => exact framed_of_lift _ rfl (keeps_ite (siteRefused_keeps rfl (.refl _ _)) (.refl _ _))
  | laserRampDone site => exact framed_of_lift _ rfl (rampDone_keeps rfl (.refl _ _))
  | laserPoll site serial powers bias temp fault => exact framed_of_lift _ rfl (laserPollOp_keeps rfl (.refl _ _))
  | prepRemove site => exact framed_of_lift _ rfl (prepRemoveOp_keeps rfl (.refl _ _))
  | prepRemoveCancel site => exact framed_of_lift _ rfl (prepCancel_keeps rfl (.refl _ _))
  | mutingDone site => exact framed_of_lift _ rfl (mutingDoneOp_keeps rfl (.refl _ _))
  | laserEnable site => exact framed_of_lift _ rfl (laserOn_keeps rfl (.refl _ _))
  | laserDisable site => exact framed_of_lift _ rfl (laserOff_keeps rfl (.refl _ _))
  | siteButton site ms => exact framed_of_lift _ rfl (siteButtonOp_keeps rfl (.refl _ _))
  | clockProfileWrite value => exact framed_of_lift _ rfl (clockWrite_keeps rfl (.refl _ _))
  | clockProfileChanged => exact framed_of_lift _ rfl (clockChange_keeps rfl (.refl _ _))
  | clockUnlock domain => exact framed_of_lift _ rfl (unlockOp_keeps rfl (.refl _ _))
  | pllRelock domain => exact framed_of_lift _ rfl (relockOp_keeps rfl (.refl _ _))
  | pllRelockTimeout domain => exact framed_of_lift _ rfl (relockTimeout_keeps warm_all (.refl _ _))
  | referenceLost => exact framed_of_lift _ rfl (refLost_keeps rfl (.refl _ _))
  | referenceReturn => exact framed_of_lift _ rfl (refBack_keeps rfl (.refl _ _))
  | referenceHoldover => exact framed_of_lift _ rfl (refHoldover_keeps warm_all (.refl _ _))
  | accessTimeout func offset read => exact framed_of_lift _ rfl (accessEnds_keeps rfl (.refl _ _))
  | warm cause => exact framed_of_map rfl fun _ => (keeps_ite (regDiscard_keeps rfl (.refl _ _)) (warmReset_keeps rfl (.refl _ _)))
  | cold cause => exact framed_of_lift _ rfl (onlyIf_keeps (fun _ _ h => coldReset_keeps rfl h) (.refl _ _))
  | powerOff cause => exact framed_of_lift _ rfl (onlyIf_keeps (fun _ _ h => powerOff_keeps cold_all h) (.refl _ _))
  | modResetN lowNs => exact framed_of_lift _ rfl (modResetOp_keeps (power_all 0) (.refl _ _))
  | glbTileReset tile => exact framed_of_lift _ rfl (tileResetWrite_keeps rfl (.refl _ _))
  | tileSelfTestDone tile pass => exact framed_of_lift _ rfl (tileTestDone_keeps rfl (.refl _ _))
  | glbPortReset quad => exact framed_of_lift _ rfl (portResetWrite_keeps rfl (.refl _ _))
  | startupStageDone ms results => exact framed_of_lift _ rfl (stageDone_keeps rfl (.refl _ _))
  | auxWatchdog => exact framed_of_lift _ rfl (onlyIf_keeps (fun _ _ h => coldReset_keeps rfl h) (.refl _ _))
  | inputLow millivolts => exact framed_of_lift _ rfl (inputLow_keeps rfl (.refl _ _))
  | inputPowerLoss millivolts => exact framed_of_lift _ rfl (inputLoss_keeps (power_all 0) (.refl _ _))
  | inputOvervoltage millivolts => exact framed_of_map rfl fun _ => (faultIfPowered_keeps rfl (modPwr_keeps rfl (.refl _ _)))
  | inputOvercurrent current => exact framed_of_map rfl fun _ => (faultIfPowered_keeps rfl (modPwr_keeps rfl (.refl _ _)))
  | converterLost converter cause => exact framed_of_lift _ rfl (converterLost_keeps cold_all (.refl _ _))
  | pwrProfileWrite value => exact framed_of_lift _ rfl (profileWrite_keeps rfl (.refl _ _))
  | profileLowerTick => exact framed_of_lift _ rfl (profileLower_keeps rfl (.refl _ _))
  | powerLimitSample sample => exact framed_of_lift _ rfl (limitSample_keeps rfl (.refl _ _))
  | thermalSample sample => exact framed_of_lift _ rfl (thermalOp_keeps cold_all (.refl _ _))
  | wearAfUpdate => exact framed_of_lift _ rfl (wearSecond_keeps rfl (.refl _ _))
  | wearDailySample indicators => exact framed_of_lift (wearDaily indicators) rfl (wearDaily_keeps rfl (.refl _ _))
  | fwLoad sub => exact framed_of_desc _ _ rfl rfl fun _ _ _ _ h => fwLoadOp_keeps rfl h
  | fwActivate sub => exact framed_of_desc _ _ rfl rfl fun _ _ _ _ h => fwActivateOp_keeps rfl h
  | linkKey sub => exact framed_of_desc _ _ rfl rfl fun _ _ _ _ h => linkKeyOp_keeps rfl h
  | updateSessionTimeout => exact framed_of_lift _ rfl (modSec_keeps rfl (.refl _ _))
  | pldmFirmwareUpdate step => exact framed_of_lift _ rfl (onlyIf_keeps (fun _ _ h => pldmOp_keeps rfl h) (.refl _ _))
  | activateFirmware selfContained => exact framed_of_lift _ rfl (onlyIf_keeps (fun _ _ h => activateFirmwareOp_keeps warm_all h) (.refl _ _))
  | reset via kind => exact framed_of_next rfl (mgmtThen_leaves rfl _ _ _ _ _ resetAct_leaves (resetAfter_leaves rfl))
  | profile via value => exact framed_of_next rfl (mgmt_leaves rfl _ _ _ _ _ (profileAct_leaves rfl))
  | channelClear via stack channel => exact framed_of_next rfl (mgmt_leaves rfl _ _ _ _ _ fun _ => channelClearAct_leaves rfl _ _)
  | mgmtFwActivate via => exact framed_of_next rfl (mgmtThen_leaves rfl _ _ _ _ _ (fun _ => fwActivateAct_leaves rfl) fun _ _ => warmAfter_leaves rfl 4)
  | svnAdvance via => exact framed_of_next rfl (mgmt_leaves rfl _ _ _ _ _ fun _ => svnAdvanceAct_leaves rfl)
  | locate via value => exact framed_of_next rfl (mgmt_leaves rfl _ _ _ _ _ (locateAct_leaves rfl))
  | debugUnlock via token => exact framed_of_next rfl (mgmtToken_leaves rfl _ _ _ _ (debugUnlockAct_leaves rfl) (debugUnlockAfter_leaves rfl))
  | lifecycleReturn via token => exact framed_of_next rfl (mgmtToken_leaves rfl _ _ _ _ lifecycleReturnAct_leaves fun _ => .refl _ _)
  | regRead offset count => exact framed_of_lift _ rfl (regReadOp_keeps rfl (.refl _ _))
  | getVersion i3c msg => exact framed_of_lift _ rfl (getVersionOp_keeps rfl (.refl _ _))
  | getCapabilities i3c msg => exact framed_of_lift _ rfl (getCapabilitiesOp_keeps rfl (.refl _ _))
  | negotiateAlgorithms i3c msg => exact framed_of_lift _ rfl (negotiateOp_keeps rfl (.refl _ _))
  | getDigests i3c msg => exact framed_of_lift _ rfl (getDigestsOp_keeps rfl (.refl _ _))
  | getCertificate i3c msg => exact framed_of_lift _ rfl (getCertificateOp_keeps rfl (.refl _ _))
  | challenge i3c msg => exact framed_of_lift _ rfl (challengeOp_keeps rfl (.refl _ _))
  | getMeasurements i3c msg => exact framed_of_lift _ rfl (getMeasurementsOp_keeps rfl (.refl _ _))
  | getSensorReading i3c sensor => exact framed_of_lift _ rfl (sensorOp_keeps rfl (.refl _ _))
  | entdaa address => exact framed_of_lift _ rfl (onlyIf_keeps (fun _ _ h => modSec_keeps rfl h) (.refl _ _))
  | attnShortPress => exact framed_of_lift _ rfl (attnShortOp_keeps rfl (.refl _ _))
  | attnLongPress => exact framed_of_lift _ rfl (attnLongOp_keeps cold_all (.refl _ _))
  | powerOnSequence railsGood => exact framed_of_lift _ rfl (powerOn_keeps (power_all 0) (.refl _ _))
  | railFaultRestart => exact framed_of_lift _ rfl (modPwr_keeps rfl (.refl _ _))
  | inputRestored => exact framed_of_lift _ rfl (inputBack_keeps rfl (.refl _ _))
  | shardAbandoned ctx ugroup shard stack ta => exact framed_of_lift _ (exec_shardAbandoned _ _ _ _ _ _) (abandonShard_keeps settle_all (.refl _ _))
  | migrationError grove unit address => exact framed_of_map rfl fun _ => (migError_keeps settle_all (.refl _ _))
  | pciePerstNDeassert => exact framed_of_lift _ rfl (perstRaised_keeps _ s.sw)
  | modResetNRelease => exact framed_of_lift _ rfl (modResetRelease_keeps rfl (.refl _ _))
  | checkerLocked lane bits => exact framed_of_lift _ rfl (modTest_keeps rfl (.refl _ _))
  | checkerLockLost lane => exact framed_of_lift _ rfl (modTest_keeps rfl (.refl _ _))
  | tapEchoTimeout lane => exact framed_of_lift _ rfl (echoTimeout_keeps rfl (.refl _ _))
  | completionTimeout ring => exact framed_of_next rfl (hostTimeout_leaves rfl _ s)
  | removeBlockedLedTimeout site => exact framed_of_lift _ rfl (modSite_keeps rfl (.refl _ _))
/-- Settles O59: command by command, what its operation keeps. -/
theorem effectRule : Obligations.EffectRule := by
  unfold Obligations.EffectRule
  intro c s
  obtain ⟨t, ht, hpending, hkeeps, hfuses⟩ := every_framed c s
  exact ⟨t, ht, hpending, hkeeps, variant_of_keeps hkeeps (variant_notMem_mayChange c), hfuses⟩

end Sys2Proof.Machine
end


section
/-! PROOFS. A step runs the command at the front, and which operation each command is (O56). -/
namespace Sys2Proof.Machine

/-- WAIT runs its descriptor while its ring waits for nothing. -/
theorem becomes_wait (b : Sub) (s : State) (h : (s.sw.ring b.ring).wait = none) :
    becomes (.wait b) s (runDesc 0x02 (descOp s.fuses 0x02) b s.sw) := by
  refine becomes_of_lift _ (exec_wait b s) ?_
  simp only [h, Option.isSome_none, Bool.false_eq_true, if_false]
  rfl
/-- Every descriptor command is its opcode's descriptor. -/
theorem becomes_descRow (b : Sub) (s : State) (e : Nat × (Sub → Instr)) (he : e ∈ descRows)
    (hwait : e.1 = 2 → (s.sw.ring b.ring).wait = none) : becomes (e.2 b) s (runDesc e.1 (descOp s.fuses e.1) b s.sw) := by
  revert e
  simp only [descRows, List.forall_mem_cons, List.not_mem_nil, IsEmpty.forall_iff, implies_true, and_true]
  refine ⟨fun _ => rfl, fun _ => rfl, fun hwait => becomes_wait b s (hwait trivial), ?_⟩
  and_intros
  all_goals exact fun _ => rfl
/-- With no command waiting, one nanosecond passes. -/
theorem step_idle {s : State} (hs : s.pending = []) : step s = .next { s with sw := idleTick s.sw } := by
  unfold step
  rw [hs]
theorem step_front {s : State} {c : Instr} {rest : List Instr} (hs : s.pending = c :: rest) :
    step s = exec c { s with pending := rest } := by
  unfold step
  rw [hs]
/-- With nothing left to correct, an idle nanosecond advances the GTC by one. -/
theorem idleTick_gtc (s : Sw) (hslew : s.time.slew = 0) (hfrac : s.time.frac < 16) (hfreq : s.time.freq = (0, 0)) :
    (idleTick s).gtc = s.gtc + 1 ∧ (idleTick s).time.frac = s.time.frac := by
  have hsum : (16 * (s.time.gtc.toNat : Int) + s.time.frac + 16 : Int).toNat = 16 * (s.time.gtc.toNat + 1) + s.time.frac := by omega
  have hwhole : (16 * (s.time.gtc.toNat + 1) + s.time.frac) / 16 = s.time.gtc.toNat + 1 := by omega
  have hpart : (16 * (s.time.gtc.toNat + 1) + s.time.frac) % 16 = s.time.frac := by omega
  simp [idleTick, hslew, hfreq, Sw.gtc, hsum, hwhole, hpart, BitVec.ofNat_add]
/-- Settles O56: the rows are the operations by definition; an idle nanosecond is `idleTick`. -/
theorem stepRule : Obligations.StepRule := by
  unfold Obligations.StepRule
  refine ⟨?front, ?idle, ?descriptors, ?rows⟩
  case front => exact fun _ _ _ => rfl
  case idle =>
    intro s hs
    exact ⟨idleTick s.sw, step_idle hs, idleTick_keeps rfl (.refl _ _), rfl, idleTick_gtc s.sw⟩
  case descriptors => exact fun s b e he => becomes_descRow b s e he
  case rows =>
    intro s
    and_intros <;> intros <;> rfl

end Sys2Proof.Machine
end


section
/-! PROOFS. Every step keeps the image slots in canonical form and moves the fuses one way (O60). -/
namespace Sys2Proof.Machine

/-! ### The image slots -/

/-- Canonical image slots in a stay canonical in b. -/
def Sw.keepsImages (a b : Sw) : Prop := a.imagesWf = true → b.imagesWf = true

theorem Sw.keepsImages.refl (a : Sw) : Sw.keepsImages a a := id
theorem Sw.keepsImages.trans {a b c : Sw} (h : Sw.keepsImages a b) (g : Sw.keepsImages b c) : Sw.keepsImages a c := g ∘ h
/-- What leaves the bytes of both slots keeps their form. -/
theorem keepsImages_of_bytes {a b : Sw} (hA : b.sec.slotA.bytes = a.sec.slotA.bytes) (hB : b.sec.slotB.bytes = a.sec.slotB.bytes) :
    Sw.keepsImages a b := by
  unfold Sw.keepsImages Sw.imagesWf
  rw [hA, hB]
  exact id
theorem keepsImages_of_sec {a b : Sw} (h : b.sec = a.sec) : Sw.keepsImages a b := keepsImages_of_bytes (by rw [h]) (by rw [h])
/-- Every part but the root of trust. -/
def besideSec : List Piece :=
  [.variant, .glb, .evTimes, .pwr, .wear, .time, .sync, .rings, .evqs, .jobs, .flags, .hostSet, .hostLink, .msix, .held, .last0106,
   .nextTok, .portReg, .portMap, .portCnt, .portLink, .portQ, .portSec, .quads, .lanes, .engines, .sites, .tiles, .takeovers, .hbm, .cxl,
   .cxlHoldMs, .cxlGen, .pool, .groveC, .ctxs, .fab, .rcv, .kernels, .migQueues, .outs, .freeCtr]
/-- What leaves the root of trust keeps the images. -/
theorem keepsImages_of_keeps {a b : Sw} (h : Sw.keeps besideSec a b) : Sw.keepsImages a b :=
  keepsImages_of_sec (Eq.symm (h .sec (by decide)))
/-- A change of the root of trust that leaves both slots keeps the images. -/
theorem modSec_images {g : Sec → Sec} {a s : Sw} (hA : ∀ c, (g c).slotA = c.slotA) (hB : ∀ c, (g c).slotB = c.slotB)
    (h : Sw.keepsImages a s) : Sw.keepsImages a (s.modSec g) :=
  h.trans (keepsImages_of_bytes (by rw [Sw.modSec_sec, hA]) (by rw [Sw.modSec_sec, hB]))
theorem keeps_images {a s t : Sw} (hk : Sw.keeps besideSec s t) (h : Sw.keepsImages a s) : Sw.keepsImages a t :=
  h.trans (keepsImages_of_keeps hk)
theorem modGlb_images {f : Glb → Glb} {a s : Sw} (h : Sw.keepsImages a s) : Sw.keepsImages a (s.modGlb f) :=
  h.trans (keepsImages_of_sec (s.modGlb_sec f))
theorem modPwr_images {f : Pwr → Pwr} {a s : Sw} (h : Sw.keepsImages a s) : Sw.keepsImages a (s.modPwr f) :=
  h.trans (keepsImages_of_sec (s.modPwr_sec f))
theorem modHost_images {f : HostIf → HostIf} {a s : Sw} (h : Sw.keepsImages a s) : Sw.keepsImages a (s.modHost f) :=
  h.trans (keepsImages_of_sec (s.modHost_sec f))
theorem out_images {o : Out} {a s : Sw} (h : Sw.keepsImages a s) : Sw.keepsImages a (s.out o) :=
  h.trans (keepsImages_of_sec (s.out_sec o))
theorem images_ite {p : Prop} [Decidable p] {a b c : Sw} (hb : Sw.keepsImages a b) (hc : Sw.keepsImages a c) :
    Sw.keepsImages a (if p then b else c) := by
  split
  · exact hb
  · exact hc
theorem onlyIf_images {c : Bool} {f : Sw → Sw} {a s : Sw} (hf : ∀ w, Sw.keepsImages w (f w)) (h : Sw.keepsImages a s) :
    Sw.keepsImages a (onlyIf c f s) := by
  cases c
  · exact h
  · exact h.trans (hf s)

/-! ### Resets and rails (14 R472) -/

theorem coldReset_images (cause : Nat) (s : Sw) : Sw.keepsImages s (coldReset cause s) := keepsImages_of_bytes rfl rfl
theorem warmReset_images (cause : Nat) (s : Sw) : Sw.keepsImages s (warmReset cause s) := by
  have hbefore : Sw.keepsImages s (holdFreq (dropWrites (linkDownAll 2 s))) := keepsImages_of_keeps
    (holdFreq_keeps (by decide) (dropWrites_keeps (by decide) (linkDownAll_keeps (by decide) (.refl _ _))))
  exact hbefore.trans (keepsImages_of_bytes rfl rfl)
theorem railsOff_images (st : ModSt) (next : Nat) (s : Sw) : Sw.keepsImages s (railsOff st next s) := keepsImages_of_bytes rfl rfl
theorem powerOff_images (s : Sw) : Sw.keepsImages s (powerOff s) :=
  (keepsImages_of_keeps (linkDownAll_keeps (by decide) (.refl _ _))).trans (railsOff_images _ _ _)
theorem railFault_images (s : Sw) : Sw.keepsImages s (railFault s) := by
  unfold railFault
  dsimp only
  split
  · exact keepsImages_of_bytes rfl rfl
  · exact keepsImages_of_bytes rfl rfl
theorem warmUnlessStarting_images (cause : Nat) (s : Sw) : Sw.keepsImages s (warmUnlessStarting cause s) := by
  unfold warmUnlessStarting
  split
  · exact .refl s
  · exact warmReset_images _ _
theorem relockTimeout_images (d : Nat) (s : Sw) : Sw.keepsImages s (relockTimeout d s) := by
  unfold relockTimeout
  split
  · exact (keepsImages_of_keeps (raiseSys_keeps (by decide) (.refl _ _))).trans (warmUnlessStarting_images _ _)
  · exact .refl s
theorem refHoldover_images (s : Sw) : Sw.keepsImages s (refHoldover s) := by
  unfold refHoldover
  split
  · exact .refl s
  · exact (keepsImages_of_keeps (raiseSys_keeps (by decide) (.refl _ _))).trans (warmUnlessStarting_images _ _)
theorem modResetOp_images (lowNs : Nat) (s : Sw) : Sw.keepsImages s (modResetOp lowNs s) := by
  have hlow (w : Sw) : Sw.keepsImages w (if (w.modGlb fun g => { g with modResetN := false }).pwr.mod == .on then
      coldReset 1 (w.modGlb fun g => { g with modResetN := false }) else w.modGlb fun g => { g with modResetN := false }) := by
    split
    · exact keepsImages_of_bytes rfl rfl
    · exact keepsImages_of_sec rfl
  unfold modResetOp
  dsimp only
  split
  · split
    · exact keepsImages_of_sec rfl
    · exact (keepsImages_of_sec rfl).trans (hlow s.draw.2)
  · split
    · exact keepsImages_of_sec rfl
    · exact hlow s
theorem faultIfPowered_images (s : Sw) : Sw.keepsImages s (faultIfPowered s) := by
  unfold faultIfPowered
  split
  · exact railFault_images s
  · exact .refl s
theorem inputLoss_images (mv : Nat) (s : Sw) : Sw.keepsImages s (inputLoss mv s) := by
  unfold inputLoss
  dsimp only
  split
  · exact keepsImages_of_bytes rfl rfl
  · exact keepsImages_of_sec rfl
  · exact keepsImages_of_sec rfl
  · exact keepsImages_of_sec rfl
theorem converterLost_images (c cause : Nat) (s : Sw) : Sw.keepsImages s (converterLost c cause s) := by
  have hevent (l : List Byte) (w : Sw) : Sw.keepsImages w (raiseSys 0x0B04 l w) :=
    keepsImages_of_keeps (raiseSys_keeps (by decide) (.refl _ _))
  unfold converterLost
  dsimp only
  split
  · exact .refl s
  · split
    · exact (keepsImages_of_sec rfl).trans ((hevent _ (s.modPwr _)).trans (railFault_images _))
    · exact (keepsImages_of_sec rfl).trans ((hevent _ (s.modPwr _)).trans (keepsImages_of_keeps (profileRise_keeps (by decide) (.refl _ _))))
theorem thermalOp_images (l : List ThermalReading) (s : Sw) : Sw.keepsImages s (thermalOp l s) := by
  have hseen : Sw.keepsImages s (thermalStep l (coolantAlarm (each l warn (each l putReading s)))) :=
    keepsImages_of_keeps (thermalStep_keeps (by decide) (coolantAlarm_keeps (by decide)
      (each_keeps (fun _ _ _ h => warn_keeps (by decide) h) (each_keeps (fun _ _ _ h => putReading_keeps (by decide) h) (.refl _ _)))))
  unfold thermalOp tripCheck
  dsimp only
  split
  · exact .refl s
  · split
    · exact hseen.trans (keepsImages_of_bytes rfl rfl)
    · exact hseen.trans (keepsImages_of_sec rfl)
theorem powerOn_images (good : Bool) (s : Sw) : Sw.keepsImages s (powerOn good s) := by
  unfold powerOn
  split
  · exact .refl s
  · split
    · exact keepsImages_of_sec rfl
    · exact railFault_images s
theorem attnLongOp_images (s : Sw) : Sw.keepsImages s (attnLongOp s) := by
  unfold attnLongOp
  split
  · exact .refl s
  · exact onlyIf_images powerOff_images (keepsImages_of_keeps (buttonEvent_keeps (by decide) (.refl _ _)))

/-! ### Start-up (16 R507) -/

theorem holdEvent_images {code : Nat} {l : List Byte} {a s : Sw} (h : Sw.keepsImages a s) : Sw.keepsImages a (holdEvent code l s) :=
  h.trans (keepsImages_of_keeps (holdEvent_keeps (by decide) (.refl _ _)))
theorem startImage_images (f : Fuses) {a s : Sw} (h : Sw.keepsImages a s) : Sw.keepsImages a (startImage f s) := by
  unfold startImage
  exact holdEvent_images (modSec_images (fun _ => rfl) (fun _ => rfl) h)
theorem selectImage_images (f : Fuses) (s : Sw) : Sw.keepsImages s (selectImage f s) := by
  unfold selectImage
  extract_lets c tried chosen why
  have htried : Sw.keepsImages s tried := by
    unfold tried
    split
    · exact holdEvent_images (modSec_images (fun _ => rfl) (fun _ => rfl) (.refl s))
    · exact .refl s
  split
  · exact startImage_images f htried
  · split
    · exact startImage_images f (holdEvent_images (modSec_images (fun _ => rfl) (fun _ => rfl) htried))
    · exact modSec_images (fun _ => rfl) (fun _ => rfl) htried
theorem afterRoot_images (f : Fuses) (s : Sw) : Sw.keepsImages s (afterRoot f s) := by
  unfold afterRoot
  dsimp only
  split
  · exact selectImage_images f s
  · split
    · exact (selectImage_images f s).trans (keepsImages_of_keeps (enterSelfTest_keeps (by decide) (.refl _ _)))
    · exact (selectImage_images f s).trans (keepsImages_of_sec rfl)
theorem afterPorts_images (t : Nat) (s : Sw) : Sw.keepsImages s (afterPorts t s) := by
  unfold afterPorts
  extract_lets seeded up told committed
  have hcommitted : Sw.keepsImages s committed := by
    have htold : Sw.keepsImages s told :=
      holdEvent_images (modHost_images (keeps_images (seedCtx_keeps (by decide) (.refl _ _)) (modGlb_images (.refl s))))
    unfold committed
    split
    · exact holdEvent_images (modSec_images (fun _ => rfl) (fun _ => rfl) htold)
    · exact htold
  split
  · split
    · exact holdEvent_images (modPwr_images hcommitted)
    · exact hcommitted
  · exact hcommitted
theorem stageDone_images (f : Fuses) (t : Nat) (r : StageResults) (s : Sw) : Sw.keepsImages s (stageDone f t r s) := by
  have hlate (k : Nat) : Sw.keepsImages s (if stageLimit k < t then holdEvent 0x0A01 (le 1 k ++ le 4 (t - s.glb.stageMs)) s else s) := by
    split
    · exact keepsImages_of_keeps (holdEvent_keeps (by decide) (.refl _ _))
    · exact .refl s
  have htimed (w : Sw) : Sw.keepsImages w (w.modGlb fun g => { g with stageMs := t }) := keepsImages_of_sec rfl
  unfold stageDone
  dsimp only
  split
  · exact (hlate _).trans ((afterRoot_images f _).trans (htimed _))
  · exact (hlate _).trans ((keepsImages_of_keeps (afterSelfTest_keeps (by decide) (.refl _ _))).trans (htimed _))
  · exact (hlate _).trans ((keepsImages_of_keeps (afterMemory_keeps (by decide) (.refl _ _))).trans (htimed _))
  · exact (hlate _).trans ((afterPorts_images t _).trans (htimed _))
  · split
    · exact (keepsImages_of_keeps (enterSelfTest_keeps (by decide) (.refl _ _))).trans (htimed _)
    · exact .refl s
  · exact .refl s

/-! ### Update sessions and activation (16 R509, R510) -/

theorem openSession_images (bmc : Bool) (s : Sw) : Sw.keepsImages s (openSession bmc s) := by
  intro h
  have hwf := modSlot_wf (!s.sec.activeB) (fun _ => erasedSlot) s (fun _ _ => erasedSlot_wf) h
  exact keepsImages_of_bytes rfl rfl hwf
theorem writeImage_images (a : Nat) (l : List Byte) (s : Sw) : Sw.keepsImages s (writeImage a l s) := writeImage_wf a l
theorem raiseHeld_images {code : Nat} {l : List Byte} {a s : Sw} (h : Sw.keepsImages a s) : Sw.keepsImages a (raiseHeld code l s) :=
  keeps_images (raiseHeld_keeps (by decide) (.refl _ _)) h
theorem closeSession_images (f : Fuses) (bmc : Bool) (s : Sw) : Sw.keepsImages s (closeSession f bmc s) := by
  unfold closeSession
  extract_lets closed i slot
  have hclosed : Sw.keepsImages s closed := by
    intro h
    have hwf := modSlot_wf (!s.sec.activeB) (verifySlot f) s (fun _ hi => hi) h
    exact keepsImages_of_bytes rfl rfl hwf
  split
  · exact raiseHeld_images hclosed
  · exact raiseHeld_images (modSec_images (fun _ => rfl) (fun _ => rfl) hclosed)
theorem complete_images (t : Tok) (st : Nat) {a s : Sw} (h : Sw.keepsImages a s) : Sw.keepsImages a (complete t st s) :=
  h.trans (keepsImages_of_keeps (complete_keeps (by decide) (.refl _ _)))
theorem guardDesc_images {t : Tok} {checks : List (Bool × Nat)} {f : Sw → Sw} {s : Sw} (hf : Sw.keepsImages s (f s)) :
    Sw.keepsImages s (guardDesc t checks f s) := by
  unfold guardDesc
  split
  · exact complete_images t _ (.refl s)
  · exact hf
theorem hostGuard_images {b : Sub} {t : Tok} {f : Sw → Sw} {s : Sw} (hf : Sw.keepsImages s (f s)) :
    Sw.keepsImages s (hostGuard b t f s) := by
  unfold hostGuard
  split
  · exact keepsImages_of_keeps (hostFail_keeps (by decide) (.refl _ _))
  · exact hf
theorem fwLoadOp_images (f : Fuses) (b : Sub) (t : Tok) (s : Sw) : Sw.keepsImages s (fwLoadOp f b t s) := by
  unfold fwLoadOp
  extract_lets first off len
  refine guardDesc_images ?_
  have hwritten : Sw.keepsImages s (writeImage off (padTo len (b.host.take len)) (onlyIf first (openSession false) s)) :=
    (onlyIf_images (openSession_images false) (.refl s)).trans (writeImage_images _ _ _)
  have hdone : Sw.keepsImages s ((fun s =>
      let s := onlyIf first (openSession false) s
      let s := writeImage off (padTo len (b.host.take len)) s
      if b.flag 8 1 then
        let s := closeSession f false s
        complete t (if s.sec.other.ok f then stOk else stBad) s
      else complete t stOk s) s) :=
    images_ite (complete_images t _ (hwritten.trans (closeSession_images f false _))) (complete_images t _ hwritten)
  split
  · exact hdone
  · exact hostGuard_images hdone
theorem activate_images (s : Sw) : Sw.keepsImages s (activate s) := modSec_images (fun _ => rfl) (fun _ => rfl) (.refl s)
theorem fwActivateOp_images (f : Fuses) (b : Sub) (t : Tok) (s : Sw) : Sw.keepsImages s (fwActivateOp f b t s) :=
  guardDesc_images ((complete_images t _ (activate_images s)).trans (warmReset_images 4 _))
theorem activateFirmwareOp_images (f : Fuses) (self : Bool) (s : Sw) : Sw.keepsImages s (activateFirmwareOp f self s) := by
  unfold activateFirmwareOp
  extract_lets answer
  split
  · exact keepsImages_of_sec rfl
  · split
    · exact keepsImages_of_sec rfl
    · exact (out_images (activate_images s)).trans (warmReset_images 4 _)
theorem pldmOp_images (f : Fuses) (p : PldmStep) (s : Sw) : Sw.keepsImages s (pldmOp f p s) := by
  unfold pldmOp
  extract_lets answer
  cases p with
  | requestUpdate =>
    dsimp only
    split
    · exact out_images (.refl s)
    · exact out_images (openSession_images true s)
  | data offset bytes =>
    dsimp only
    split
    · exact out_images (.refl s)
    · split
      · exact out_images (.refl s)
      · exact out_images (writeImage_images _ _ s)
  | verify =>
    dsimp only
    have hclosed := closeSession_images f true s
    split
    · exact out_images (.refl s)
    · split
      · split
        · exact (out_images hclosed).trans (afterRoot_images f _)
        · exact out_images hclosed
      · exact out_images hclosed
  | cancel =>
    dsimp only
    split
    · exact out_images (.refl s)
    · exact out_images (modSec_images (fun _ => rfl) (fun _ => rfl) (.refl s))

/-! ### The SPDM responder (16 R512) -/

theorem spdmAnswer_images (i3c : Bool) (req resp : List Byte) (g : Spdm → Spdm) (s : Sw) :
    Sw.keepsImages s (spdmAnswer i3c req resp g s) := by
  cases i3c
  · exact keepsImages_of_bytes rfl rfl
  · exact keepsImages_of_bytes rfl rfl
theorem spdmDo_images {i3c : Bool} {step len : Nat} {msg : List Byte} {bad : Bool} {g : Sw → Sw} {s : Sw} (hg : Sw.keepsImages s (g s)) :
    Sw.keepsImages s (spdmDo i3c step len msg bad g s) := by
  have herror (code : Nat) : Sw.keepsImages s (spdmError i3c code s) := keepsImages_of_sec rfl
  unfold spdmDo
  split
  · exact .refl s
  · split
    · exact herror _
    · split
      · exact herror _
      · exact hg
theorem getVersionOp_images (i3c : Bool) (msg : List Byte) (s : Sw) : Sw.keepsImages s (getVersionOp i3c msg s) := by
  unfold getVersionOp
  split
  · exact .refl s
  · split
    · exact keepsImages_of_sec rfl
    · exact spdmAnswer_images _ _ _ _ _
theorem challengeOp_images (f : Fuses) (i3c : Bool) (msg : List Byte) (s : Sw) : Sw.keepsImages s (challengeOp f i3c msg s) :=
  spdmDo_images ((keepsImages_of_sec rfl).trans (spdmAnswer_images _ _ _ _ ((drawNonce s).2.drawn 1)))
theorem getMeasurementsOp_images (f : Fuses) (i3c : Bool) (msg : List Byte) (s : Sw) :
    Sw.keepsImages s (getMeasurementsOp f i3c msg s) :=
  spdmDo_images ((keepsImages_of_sec rfl).trans (spdmAnswer_images _ _ _ _ ((drawNonce s).2.drawn (b2n (byteAt msg 2 % 2 == 1)))))

/-! ### Register writes (18 R545) -/

theorem setGlb_images (func off : Nat) (v : Word) (s : Sw) : Sw.keepsImages s (setGlb func off v s) := by
  have hdiscard (off value cause : Nat) : Sw.keepsImages s (regDiscard func off value cause s) :=
    keepsImages_of_keeps (regDiscard_keeps (by decide) (.refl _ _))
  unfold setGlb
  dsimp only
  split
  · split
    · exact hdiscard _ _ _
    · exact keepsImages_of_sec rfl
  · exact keepsImages_of_sec rfl
  · split
    · exact hdiscard _ _ _
    · split
      · exact .refl s
      · split
        · exact hdiscard _ _ _
        · exact warmReset_images _ _
      · exact coldReset_images _ _
      · exact powerOff_images _
  · exact keepsImages_of_keeps (tileResetWrite_keeps (by decide) (.refl _ _))
  · exact keepsImages_of_keeps (portResetWrite_keeps (by decide) (.refl _ _))
  · exact keepsImages_of_keeps (clockWrite_keeps (by decide) (.refl _ _))
  · exact .refl s
theorem setSec_images (off : Nat) (v : Word) (s : Sw) : Sw.keepsImages s (setSec off v s) := by
  unfold setSec
  split
  · exact modSec_images (fun _ => rfl) (fun _ => rfl) (.refl s)
  · split
    · exact keepsImages_of_keeps (modPSec_keeps (by decide) (.refl _ _))
    · exact .refl s
theorem setReg_images (func off : Nat) (v : Word) (s : Sw) : Sw.keepsImages s (setReg func off v s) := by
  have hbeside {w : Sw} (h : Sw.keeps besideSec s w) : Sw.keepsImages s w := keepsImages_of_keeps h
  unfold setReg
  refine images_ite (setGlb_images _ _ _ _) ?_
  refine images_ite (hbeside (setPwr_keeps (by decide) (.refl _ _))) ?_
  refine images_ite (hbeside (setTime_keeps (by decide) (.refl _ _))) ?_
  refine images_ite (setSec_images _ _ _) ?_
  refine images_ite (hbeside (setRing_keeps (by decide) (.refl _ _))) ?_
  refine images_ite (hbeside (setEvq_keeps (by decide) (.refl _ _))) ?_
  refine images_ite (.refl s) ?_
  refine images_ite (hbeside (setPort_keeps (by decide) (.refl _ _))) ?_
  refine images_ite (hbeside (setLane_keeps (by decide) (.refl _ _))) ?_
  refine images_ite (images_ite (hbeside (regDiscard_keeps (by decide) (.refl _ _))) (modGlb_images (.refl s))) ?_
  refine images_ite (.refl s) ?_
  refine images_ite (hbeside (setSite_keeps (by decide) (.refl _ _))) ?_
  refine images_ite (images_ite (hbeside (modStack_keeps (by decide) (.refl _ _))) (.refl s)) ?_
  refine images_ite (hbeside (setCxl_keeps (by decide) (.refl _ _))) ?_
  exact images_ite (hbeside (setWear_keeps (by decide) (.refl _ _))) (hbeside (setPool_keeps (by decide) (.refl _ _)))
theorem bar0Write_images (f : Fuses) (off size : Nat) (v : Word) (s : Sw) : Sw.keepsImages s (bar0Write f off size v s) := by
  have hdiscard (cause : Nat) : Sw.keepsImages s (regDiscard 0 off v.toNat cause s) :=
    keepsImages_of_keeps (regDiscard_keeps (by decide) (.refl _ _))
  unfold bar0Write
  split
  · exact .refl s
  · split
    · exact hdiscard _
    · split
      · exact keepsImages_of_keeps (accessEnds_keeps (by decide) (.refl _ _))
      · split
        · exact hdiscard _
        · split
          · exact hdiscard _
          · exact setReg_images _ _ _ _
theorem writeOp_images (f : Fuses) (func : Nat) (space : RegSpace) (off size : Nat) (v : Word) (s : Sw) :
    Sw.keepsImages s (writeOp f func space off size v s) := by
  unfold writeOp
  split
  · exact .refl s
  · cases space with
    | bar0 =>
      dsimp only
      split
      · exact bar0Write_images _ _ _ _ _
      · exact keepsImages_of_keeps (vfWrite_keeps (by decide) (.refl _ _))
    | bar2 => exact keepsImages_of_keeps (bar2Write_keeps (by decide) (.refl _ _))
    | bar4 => exact keepsImages_of_keeps (bar4Write_keeps (by decide) (.refl _ _))
    | sriov =>
      dsimp only
      split
      · exact keepsImages_of_keeps (sriovWrite_keeps (by decide) (.refl _ _))
      · exact .refl s

/-! ### Fuses, management commands and descriptors (16 R511, R522, R528) -/

theorem Fuses.le.refl (f : Fuses) : Fuses.le f f := ⟨le_rfl, BitVec.and_self, id⟩
theorem Fuses.le.trans {a b c : Fuses} (h : Fuses.le a b) (g : Fuses.le b c) : Fuses.le a c := by
  obtain ⟨hfloor, hrevoked, hreturned⟩ := h
  obtain ⟨gfloor, grevoked, greturned⟩ := g
  refine ⟨hfloor.trans gfloor, ?_, greturned ∘ hreturned⟩
  calc a.revoked &&& c.revoked = (a.revoked &&& b.revoked) &&& c.revoked := by rw [hrevoked]
    _ = a.revoked &&& (b.revoked &&& c.revoked) := BitVec.and_assoc _ _ _
    _ = a.revoked := by rw [grevoked, hrevoked]
/-- From s to t the fuses move one way only, and canonical image slots stay canonical. -/
def State.lasts (s t : State) : Prop := Fuses.le s.fuses t.fuses ∧ Sw.keepsImages s.sw t.sw

theorem State.lasts.refl (s : State) : State.lasts s s := ⟨.refl _, .refl _⟩
theorem State.lasts.trans {a b c : State} (h : State.lasts a b) (g : State.lasts b c) : State.lasts a c :=
  ⟨h.1.trans g.1, h.2.trans g.2⟩
theorem State.lasts_sw {s : State} {w : Sw} (h : Sw.keepsImages s.sw w) : State.lasts s { s with sw := w } := ⟨.refl _, h⟩
theorem State.lasts_course : Course State.lasts where
  refl := State.lasts.refl
  trans := State.lasts.trans
  sw h := State.lasts_sw (keepsImages_of_keeps (h.mono (by decide)))

theorem mgmtSw_lasts {checks : Sw → List (Bool × Nat)} {f : Sw → Sw} (hf : ∀ w, Sw.keepsImages w (f w)) (s : State) :
    State.lasts s (mgmtSw checks f s).2 := mgmtSw_course State.lasts_course (fun _ => State.lasts_sw (hf _)) s
theorem resetAct_lasts (kind : Nat) (pf : Bool) (s : State) : State.lasts s (resetAct kind pf s).2 := mgmtSw_lasts (fun _ => .refl _) s
theorem resetAfter_lasts (kind : Nat) (pf : Bool) (s : State) : State.lasts s (resetAfter kind pf s) := by
  refine State.lasts_sw ?_
  split
  · exact warmReset_images _ _
  · exact coldReset_images _ _
  · exact powerOff_images _
theorem fwActivateAct_lasts (pf : Bool) (s : State) : State.lasts s (fwActivateAct pf s).2 := mgmtSw_lasts activate_images s
theorem warmAfter_lasts (cause : Nat) (s : State) : State.lasts s { s with sw := warmReset cause s.sw } :=
  State.lasts_sw (warmReset_images _ _)
theorem locateAct_lasts (v : Nat) (pf : Bool) (s : State) : State.lasts s (locateAct v pf s).2 := by
  refine mgmtSw_lasts (fun w => ?_) s
  exact modSec_images (fun _ => rfl) (fun _ => rfl) (.refl w)
/-- SVN_ADVANCE raises the floor and adds revocations. -/
theorem svnAdvanceAct_lasts (pf : Bool) (s : State) : State.lasts s (svnAdvanceAct pf s).2 := by
  unfold svnAdvanceAct
  dsimp only
  split
  · exact .refl s
  · refine ⟨⟨le_max_left _ _, ?_, id⟩, raiseHeld_images (.refl _)⟩
    ext i hi
    simp
    exact Or.inl
theorem debugUnlockAct_lasts (token : List Byte) (pf : Bool) (s : State) : State.lasts s (debugUnlockAct token pf s).2 := by
  unfold debugUnlockAct
  split
  · exact .refl s
  · split
    · exact State.lasts_sw (modSec_images (fun _ => rfl) (fun _ => rfl) (.refl s.sw))
    · exact State.lasts_sw (raiseHeld_images (modSec_images (fun _ => rfl) (fun _ => rfl) (.refl s.sw)))
theorem debugUnlockAfter_lasts (pf : Bool) (s : State) : State.lasts s (debugUnlockAfter pf s) := State.lasts_sw (coldReset_images _ _)
/-- LIFECYCLE_RETURN sets the state that stays. -/
theorem lifecycleReturnAct_lasts (token : List Byte) (pf : Bool) (s : State) : State.lasts s (lifecycleReturnAct token pf s).2 := by
  unfold lifecycleReturnAct
  split
  · exact ⟨⟨le_rfl, BitVec.and_self, fun _ => rfl⟩, .refl _⟩
  · exact .refl s
theorem runDesc_images {code : Nat} {op : Sub → Tok → Sw → Sw} {b : Sub} {s : Sw} (hop : ∀ b t w, Sw.keepsImages w (op b t w)) :
    Sw.keepsImages s (runDesc code op b s) := by
  have hdesc : Sw.keepsImages s (dispatch code b s).2 := keepsImages_of_keeps (dispatch_keeps (by decide) (.refl _ _))
  unfold runDesc
  dsimp only
  split
  · exact complete_images _ _ hdesc
  · exact hdesc.trans (hop _ _ _)
theorem descOp_images (f : Fuses) (code : Nat) (b : Sub) (t : Tok) (s : Sw) : Sw.keepsImages s (descOp f code b t s) := by
  by_cases hload : code = 0x90
  · rw [hload]
    exact fwLoadOp_images f b t s
  · by_cases hactivate : code = 0x91
    · rw [hactivate]
      exact fwActivateOp_images f b t s
    · exact keepsImages_of_keeps (descOp_keeps (by decide) f code b t (fun h => (h.elim hload hactivate).elim) (.refl _ _))
theorem mgmtByCode_lasts (b : Sub) (s : State) : State.lasts s (mgmtByCode b s) := by
  have hR := State.lasts_course
  have hact {f : Sw → Sw} {checks : Sw → List (Bool × Nat)} (hf : ∀ w, Sw.keeps besideSec w (f w)) (u : State) :
      State.lasts u (mgmtSw checks f u).2 := mgmtSw_lasts (fun w => keepsImages_of_keeps (hf w)) u
  unfold mgmtByCode
  split
  · exact mgmtThen_course hR _ _ _ _ _ resetAct_lasts resetAfter_lasts
  · exact mgmt_course hR _ _ _ _ _ fun v pf u =>
      hact (fun w => profileAdjust_keeps (by decide) (modPwr_keeps (by decide) (.refl _ w))) u
  · exact mgmt_course hR _ _ _ _ _ fun v pf u => hact (fun w => quarantine_keeps (by decide) (.refl _ w)) u
  · exact (State.lasts_sw (keepsImages_of_sec (Sw.drawn_sec _ _))).trans
      (mgmt_course hR _ _ _ _ _ fun v pf u => hact (fun w => clearTile_keeps (by decide) (.refl _ w)) u)
  · exact mgmt_course hR _ _ _ _ _ fun v pf u => hact (fun w => modStack_keeps (by decide) (.refl _ w)) u
  · exact mgmtThen_course hR _ _ _ _ _ (fun _ => fwActivateAct_lasts) fun _ _ => warmAfter_lasts 4
  · exact mgmt_course hR _ _ _ _ _ fun _ => svnAdvanceAct_lasts
  · exact mgmt_course hR _ _ _ _ _ locateAct_lasts
  · exact mgmtToken_course hR _ _ _ _ debugUnlockAct_lasts debugUnlockAfter_lasts
  · exact mgmtToken_course hR _ _ _ _ lifecycleReturnAct_lasts fun _ => .refl
  · exact mgmtDesc_course hR _ _ _ _ _ (fun _ => .refl) fun _ => .refl
theorem dispatchNext_lasts (n : Nat) (host : List Byte) (err : Option Quad) (s : State) : State.lasts s (dispatchNext n host err s) := by
  have htaken (ds : List Desc) : Sw.keepsImages s.sw (s.sw.modRing n fun r => { r with fetched := ds }) :=
    keepsImages_of_keeps (modRing_keeps (by decide) (.refl _ _))
  unfold dispatchNext
  dsimp only
  split
  · exact .refl s
  · split
    · exact .refl s
    · split
      · exact (State.lasts_sw (htaken _)).trans (mgmtByCode_lasts _ _)
      · exact State.lasts_sw ((htaken _).trans (runDesc_images fun _ _ _ => descOp_images _ _ _ _ _))
theorem hostTimeout_lasts (n : Nat) (s : State) : State.lasts s (hostTimeout n s) := by
  unfold hostTimeout
  split
  · exact State.lasts_sw (keepsImages_of_keeps (fetchEnds_keeps (by decide) (.refl _ _)))
  · split
    · exact .refl s
    · exact dispatchNext_lasts _ _ _ _

/-! ### Every command -/

/-- Command c completes in s, and its step lasts. -/
def lasting (c : Instr) (s : State) : Prop := ∃ t, exec c s = .next t ∧ State.lasts s t

theorem lasting_of_lift {c : Instr} {s : State} (f : Sw → Sw) (hc : exec c s = lift f s) (h : Sw.keepsImages s.sw (f s.sw)) :
    lasting c s := ⟨_, hc, State.lasts_sw h⟩
theorem lasting_of_next {c : Instr} {s t : State} (hc : exec c s = .next t) (h : State.lasts s t) : lasting c s := ⟨t, hc, h⟩
theorem lasting_of_framed {c : Instr} {s : State} (h : framed c s) (hsec : (mayChange c).contains .sec = false) (hburn : mayBurn c = false) :
    lasting c s := by
  obtain ⟨t, ht, -, hkeeps, hfuses⟩ := h
  have hmem : Piece.sec ∉ mayChange c := fun hin => Bool.false_ne_true (hsec.symm.trans (List.contains_iff_mem.2 hin))
  refine ⟨t, ht, ?_, keepsImages_of_sec (Eq.symm (hkeeps .sec hmem))⟩
  rw [hfuses hburn]
  exact .refl _
/-- The commands whose rows list the root of trust, or that may burn fuses. -/
theorem lasting_of_sec (c : Instr) (s : State) (hc : ((mayChange c).contains .sec || mayBurn c) = true) : lasting c s := by
  have hR := State.lasts_course
  cases c with
  | fwLoad b => exact lasting_of_lift _ rfl (runDesc_images fun _ _ _ => fwLoadOp_images _ _ _ _)
  | fwActivate b => exact lasting_of_lift _ rfl (runDesc_images fun _ _ _ => fwActivateOp_images _ _ _ _)
  | updateSessionTimeout => exact lasting_of_lift _ rfl (modSec_images (fun _ => rfl) (fun _ => rfl) (.refl _))
  | pldmFirmwareUpdate p => exact lasting_of_lift _ rfl (onlyIf_images (pldmOp_images _ _) (.refl _))
  | activateFirmware self => exact lasting_of_lift _ rfl (onlyIf_images (activateFirmwareOp_images _ _) (.refl _))
  | mgmtFwActivate via => exact lasting_of_next rfl (mgmtThen_course hR _ _ _ _ _ (fun _ => fwActivateAct_lasts) fun _ _ => warmAfter_lasts 4)
  | svnAdvance via => exact lasting_of_next rfl (mgmt_course hR _ _ _ _ _ fun _ => svnAdvanceAct_lasts)
  | locate via v => exact lasting_of_next rfl (mgmt_course hR _ _ _ _ _ locateAct_lasts)
  | debugUnlock via token => exact lasting_of_next rfl (mgmtToken_course hR _ _ _ _ debugUnlockAct_lasts debugUnlockAfter_lasts)
  | lifecycleReturn via token => exact lasting_of_next rfl (mgmtToken_course hR _ _ _ _ lifecycleReturnAct_lasts fun _ => .refl)
  | reset via kind => exact lasting_of_next rfl (mgmtThen_course hR _ _ _ _ _ resetAct_lasts resetAfter_lasts)
  | descriptorDispatch ring host err => exact lasting_of_next rfl (dispatchNext_lasts _ _ _ s)
  | completionTimeout ring => exact lasting_of_next rfl (hostTimeout_lasts _ s)
  | getVersion i3c msg => exact lasting_of_lift _ rfl (getVersionOp_images _ _ _)
  | getCapabilities i3c msg => exact lasting_of_lift _ rfl (spdmDo_images (spdmAnswer_images _ _ _ _ _))
  | negotiateAlgorithms i3c msg => exact lasting_of_lift _ rfl (spdmDo_images (spdmAnswer_images _ _ _ _ _))
  | getDigests i3c msg => exact lasting_of_lift _ rfl (spdmDo_images (spdmAnswer_images _ _ _ _ _))
  | getCertificate i3c msg => exact lasting_of_lift _ rfl (spdmDo_images (spdmAnswer_images _ _ _ _ _))
  | challenge i3c msg => exact lasting_of_lift _ rfl (challengeOp_images _ _ _ _)
  | getMeasurements i3c msg => exact lasting_of_lift _ rfl (getMeasurementsOp_images _ _ _ _)
  | entdaa address => exact lasting_of_lift _ rfl (onlyIf_images (fun w => modSec_images (fun _ => rfl) (fun _ => rfl) (.refl w)) (.refl _))
  | attnShortPress => exact lasting_of_lift _ rfl (onlyIf_images (fun w => keeps_images (buttonEvent_keeps (by decide) (.refl _ _))
      (modSec_images (fun _ => rfl) (fun _ => rfl) (.refl w))) (.refl _))
  | attnLongPress => exact lasting_of_lift _ rfl (attnLongOp_images _)
  | registerWrite func space off size v => exact lasting_of_lift _ rfl (writeOp_images _ _ _ _ _ _ _)
  | startupStageDone t r => exact lasting_of_lift _ rfl (stageDone_images _ _ _ _)
  | pllRelockTimeout d => exact lasting_of_lift _ rfl (relockTimeout_images _ _)
  | referenceHoldover => exact lasting_of_lift _ rfl (refHoldover_images _)
  | warm cause => exact lasting_of_lift _ (exec_warm _ _) (images_ite (keepsImages_of_keeps (regDiscard_keeps (by decide) (.refl _ _))) (warmReset_images _ _))
  | cold cause => exact lasting_of_lift _ rfl (onlyIf_images (coldReset_images _) (.refl _))
  | auxWatchdog => exact lasting_of_lift _ rfl (onlyIf_images (coldReset_images _) (.refl _))
  | powerOff cause => exact lasting_of_lift _ rfl (onlyIf_images powerOff_images (.refl _))
  | modResetN ns => exact lasting_of_lift _ rfl (modResetOp_images _ _)
  | inputPowerLoss mv => exact lasting_of_lift _ rfl (inputLoss_images _ _)
  | inputOvervoltage mv => exact lasting_of_next rfl (State.lasts_sw ((modPwr_images (.refl _)).trans (faultIfPowered_images _)))
  | inputOvercurrent i => exact lasting_of_next rfl (State.lasts_sw ((modPwr_images (.refl _)).trans (faultIfPowered_images _)))
  | converterLost c cause => exact lasting_of_lift _ rfl (converterLost_images _ _ _)
  | thermalSample l => exact lasting_of_lift _ rfl (thermalOp_images _ _)
  | powerOnSequence good => exact lasting_of_lift _ rfl (powerOn_images _ _)
  | _ => exact absurd hc Bool.false_ne_true
theorem every_lasting (c : Instr) (s : State) : lasting c s := by
  by_cases hc : ((mayChange c).contains .sec || mayBurn c) = true
  · exact lasting_of_sec c s hc
  · obtain ⟨hsec, hburn⟩ := Bool.or_eq_false_iff.1 (Bool.not_eq_true _ ▸ hc)
    exact lasting_of_framed (every_framed c s) hsec hburn
/-- Settles O60: an idle nanosecond changes only the time, and every command lasts. -/
theorem nonVolatileRule : Obligations.NonVolatileRule := by
  unfold Obligations.NonVolatileRule
  intro s t hstep
  cases hpending : s.pending with
  | nil =>
    obtain rfl := Host.Outcome.next.inj ((step_idle hpending).symm.trans hstep)
    exact ⟨.refl _, keepsImages_of_keeps (idleTick_keeps (by decide) (.refl _ _))⟩
  | cons c rest =>
    obtain ⟨u, hu, hlasts⟩ := every_lasting c { s with pending := rest }
    obtain rfl := Host.Outcome.next.inj (hu.symm.trans ((step_front hpending).symm.trans hstep))
    exact hlasts

end Sys2Proof.Machine
end


section
/-! PROOFS. What reset leaves (O57). -/
namespace Sys2Proof.Machine

/-- After reset job 0 alone is not CLOSED. -/
theorem reset_job_closed {j : Nat} (hj : j ≠ 0) : (State.reset.sw.job j).state = .closed := by
  have hfind : SMap.find? j State.reset.sw.host.jobs = none := if_neg fun h => hj h.symm
  have hjob : State.reset.sw.job j = {} := by rw [Sw.job, SMap.getD, hfind]; rfl
  rw [hjob]
/-- Settles O57: reset is a constant, and the bytes of an image are read back by `putBytes_read`. -/
theorem resetRule : Obligations.ResetRule := by
  unfold Obligations.ResetRule
  refine ⟨rfl, reset_imagesWf, fun n => ⟨rfl, rfl, rfl, rfl, rfl, rfl, rfl, rfl, rfl, rfl⟩, rfl, rfl, rfl, rfl, rfl, fun _ => reset_job_closed,
    rfl, rfl, rfl, rfl, rfl, rfl, rfl, ?bytes⟩
  case bytes => exact fun m a n l hm => ⟨putBytes_wf l a hm, putBytes_read l a n m⟩

end Sys2Proof.Machine
end

section
/-! PROOFS. Rings, queues and the course of a descriptor (O58). -/
namespace Sys2Proof.Machine

/-! ### Rings, queues and jobs stand apart -/

section
variable (s : Sw) (n k : Nat)

@[simp] theorem Sw.modRing_evq (f : Ring → Ring) : (s.modRing n f).evq k = s.evq k := rfl
@[simp] theorem Sw.modRing_job (f : Ring → Ring) : (s.modRing n f).job k = s.job k := rfl
@[simp] theorem Sw.modRing_flag (f : Ring → Ring) : (s.modRing n f).flag k = s.flag k := rfl
@[simp] theorem Sw.modEvq_ring (f : Evq → Evq) : (s.modEvq n f).ring k = s.ring k := rfl
@[simp] theorem Sw.modEvq_job (f : Evq → Evq) : (s.modEvq n f).job k = s.job k := rfl
@[simp] theorem Sw.modEvq_flag (f : Evq → Evq) : (s.modEvq n f).flag k = s.flag k := rfl
@[simp] theorem Sw.out_ring (o : Out) : (s.out o).ring k = s.ring k := rfl
@[simp] theorem Sw.out_evq (o : Out) : (s.out o).evq k = s.evq k := rfl
end

/-! ### Checks 1 to 5 of R416 -/

/-- The commands that check 3 of R416 leaves alone: neither introduced after 3.0 nor with fields that were. -/
def laterCodes : List Nat := [0x24, 0x34, 0x50, 0x51, 0x52, 0x86]
/-- The opcodes of descRows that only the PF submits. -/
def pfCodes : List Nat := [0x08, 0x09, 0x0B, 0x60, 0x61, 0x62, 0x63, 0x64, 0x65, 0x80, 0x83, 0x84, 0x90, 0x91, 0x92]

/-- The row of an opcode that check 3 leaves alone: it is of 3.0, and PF only where `pfCodes` lists it. -/
theorem opcodes_of_code : ∀ code ∈ descRows.map Prod.fst, code ∉ laterCodes →
    (opcodes.find? fun o => o.code == code).any (fun o => o.minor == 0 && o.pf == pfCodes.contains code) = true := by decide
/-- A descriptor of a minor version the firmware lacks fails check 1. -/
theorem headerStatus_contract {w : Sw} {code : Nat} {b : Sub} (h : w.sec.runMinor < b.cminor) : headerStatus w code b = some stContract := by
  simp [headerStatus, firstFail, h]
/-- Checks 2 to 5 of an opcode that check 3 leaves alone. -/
theorem headerStatus_plain {w : Sw} {b : Sub} {e : Nat × (Sub → Instr)} (he : e ∈ descRows) (hlater : e.1 ∉ laterCodes)
    (h : b.cminor ≤ w.sec.runMinor) :
    headerStatus w e.1 b = if 4 ≤ b.dflags then some stBad else if pfCodes.contains e.1 = true ∧ b.func ≠ 0 then some stDenied else none := by
  obtain ⟨o, ho, hrow⟩ := (Option.any_eq_true _ _).1 (opcodes_of_code e.1 (List.mem_map_of_mem he) hlater)
  obtain ⟨hminor, hpf⟩ : o.minor = 0 ∧ o.pf = pfCodes.contains e.1 := by simpa using hrow
  have hfeature : featureMinor b e.1 = 0 := by
    simp only [laterCodes, List.mem_cons, not_or] at hlater
    obtain ⟨h24, h34, -⟩ := hlater
    simp [featureMinor, h24, h34]
  simp [headerStatus, firstFail, ho, hminor, hpf, hfeature, Nat.not_lt.2 h]

/-! ### Dispatch -/

/-- A descriptor that fails a check of its header ends there. -/
theorem endsWith_of_header {c : Instr} {s : State} {code : Nat} {op : Sub → Tok → Sw → Sw} {b : Sub} {st : Nat}
    (hc : becomes c s (runDesc code op b s.sw)) (h : headerStatus (descSw code b s.sw) code b = some st) : endsWith c s code b st id := by
  have hrun : runDesc code op b s.sw = complete (descTok code b s.sw) st (descSw code b s.sw) := by
    unfold descSw at h
    simp only [runDesc, h]
    rfl
  rw [hrun] at hc
  exact hc

/-! ### Completion -/

theorem ring_of_keeps {ps : List Piece} {a b : Sw} (h : Sw.keeps ps a b) (hp : Piece.rings ∉ ps) (n : Nat) : b.ring n = a.ring n := by
  unfold Sw.ring
  rw [h .rings hp]
theorem evq_of_keeps {ps : List Piece} {a b : Sw} (h : Sw.keeps ps a b) (hp : Piece.evqs ∉ ps) (q : Nat) : b.evq q = a.evq q := by
  unfold Sw.evq
  rw [h .evqs hp]
theorem outs_of_keeps {ps : List Piece} {a b : Sw} (h : Sw.keeps ps a b) (hp : Piece.outs ∉ ps) : b.outs = a.outs := (h .outs hp).symm

section
variable {s : Sw} {q : Nat}

theorem writeLost_none (h : (s.evq q).lost = none) : writeLost q s = s := by simp [writeLost, h]
@[simp] theorem putRecord_evq (r : RawRec) : (putRecord q r s).evq q = { s.evq q with tail := (s.evq q).tail + 1 } := by simp [putRecord]
/-- One record for a queue that is not armed is written and wakes nobody. -/
theorem putRecords_one (h : (s.evq q).armed = false) (r : RawRec) : putRecords q [r] s = putRecord q r s := by
  have hevq : (each [r] (putRecord q) s).evq q = { s.evq q with tail := (s.evq q).tail + 1 } := putRecord_evq r
  simp [putRecords, hevq, h]
  rfl
/-- A record that fills its 29 bytes. -/
theorem putRecord_outs (r : RawRec) (h : r.rest.length = 29) : (putRecord q r s).outs = s.outs ++
    [.hostWrite (s.evq q).func ((s.evq q).addr (s.evq q).tail) (le 2 r.code ++ le 1 (r.eflags + (s.evq q).phase (s.evq q).tail) ++ r.rest)] := by
  simp [putRecord, padTo, h]
end

/-- The state of a completion before its record: the descriptor is no longer outstanding and its reservation is free. -/
def freed (t : Tok) (w : Sw) : Sw :=
  (w.modRing t.ring fun r => { r with outst := r.outst.filter (· != t.id) }).modEvq (w.ring t.ring).cevq fun e => { e with res := e.res - t.k }
@[simp] theorem freed_evq (t : Tok) (w : Sw) : (freed t w).evq (w.ring t.ring).cevq =
    { w.evq (w.ring t.ring).cevq with res := (w.evq (w.ring t.ring).cevq).res - t.k } := Sw.modEvq_self _ _ _
@[simp] theorem freed_ring (t : Tok) (w : Sw) : (freed t w).ring t.ring =
    { w.ring t.ring with outst := (w.ring t.ring).outst.filter (· != t.id) } := by
  unfold freed
  rw [Sw.modEvq_ring, Sw.modRing_self]
@[simp] theorem freed_outs (t : Tok) (w : Sw) : (freed t w).outs = w.outs := rfl
@[simp] theorem le_length (n x : Nat) : (le n x).length = n := by simp [le]
/-- The record of a completion with a RESULT. -/
def completionRecord (t : Tok) (st : Nat) (res : Quad) (w : Sw) : RawRec :=
  { code := 0x0100, eflags := efCmpl, rest := le 1 st ++ le 4 t.tag.toNat ++ le 8 w.gtc.toNat ++ le 2 t.ring ++ le 1 t.opcode.toNat ++
      le 1 0 ++ le 4 (w.ring t.ring).head.toNat ++ le 8 res.toNat }

section
variable {w : Sw} {t : Tok} {st : Nat} {res : Quad}

theorem completeR_gone (hid : t.id ∉ (w.ring t.ring).outst) : completeR t st res w = w := by
  simp [completeR, completeWith, hid]
theorem completeR_outst (hid : t.id ∈ (w.ring t.ring).outst) : completeR t st res w =
    (writeLost (w.ring t.ring).cevq
      (if (w.evq (w.ring t.ring).cevq).active && !(t.quiet && st == 0) then
        putRecords (w.ring t.ring).cevq [completionRecord t st res w] (freed t w) else freed t w)).modRing t.ring Ring.settle := by
  simp only [completeR, completeWith, hid, List.contains_eq_mem, decide_true, Bool.not_true, Bool.false_eq_true, if_false, Sw.modEvq_self,
    Sw.modRing_evq]
  rfl
/-- A ring whose descriptor ends: DISABLED when it drained and none is left. -/
theorem completeR_ring (hid : t.id ∈ (w.ring t.ring).outst) : (completeR t st res w).ring t.ring =
    (if (w.ring t.ring).state = .draining ∧ (w.ring t.ring).outst.filter (· != t.id) = [] then
      { w.ring t.ring with outst := [], state := .disabled, enable := false }
     else { w.ring t.ring with outst := (w.ring t.ring).outst.filter (· != t.id) }) := by
  have hkept : Sw.keeps [.evqs, .msix, .outs] (freed t w) (writeLost (w.ring t.ring).cevq
      (if (w.evq (w.ring t.ring).cevq).active && !(t.quiet && st == 0) then
        putRecords (w.ring t.ring).cevq [completionRecord t st res w] (freed t w) else freed t w)) :=
    writeLost_keeps (by decide) (keeps_ite (putRecords_keeps (by decide) (.refl _ _)) (.refl _ _))
  rw [completeR_outst hid, Sw.modRing_self, ring_of_keeps hkept (by decide), freed_ring]
  unfold Ring.settle
  by_cases hdone : (w.ring t.ring).state = .draining ∧ (w.ring t.ring).outst.filter (· != t.id) = []
  · simp [hdone]
  · rw [if_neg hdone, if_neg]
    simpa using hdone
variable (hlost : (w.evq (w.ring t.ring).cevq).lost = none)
include hlost

theorem completeR_silent (hid : t.id ∈ (w.ring t.ring).outst) (hquiet : t.quiet = true) (hst : st = 0) :
    completeR t st res w = (freed t w).modRing t.ring Ring.settle := by
  rw [completeR_outst hid, hquiet, hst]
  simp only [beq_self_eq_true, Bool.and_self, Bool.not_true, Bool.and_false, Bool.false_eq_true, if_false]
  rw [writeLost_none (by simpa using hlost)]
theorem completeR_recorded (hid : t.id ∈ (w.ring t.ring).outst) (harmed : (w.evq (w.ring t.ring).cevq).armed = false)
    (hactive : (w.evq (w.ring t.ring).cevq).active = true) (h : t.quiet = false ∨ st ≠ 0) :
    completeR t st res w = (putRecord (w.ring t.ring).cevq (completionRecord t st res w) (freed t w)).modRing t.ring Ring.settle := by
  have hwrite : (!(t.quiet && st == 0)) = true := by rcases h with h | h <;> simp [h]
  rw [completeR_outst hid, hactive, hwrite, Bool.and_self, if_pos rfl, putRecords_one (by simpa using harmed),
    writeLost_none (by simpa using hlost)]
end
/-- Settles O58: the header's checks in their order, the course of a dispatch, and the completion of what is outstanding. -/
theorem descriptorRule : Obligations.DescriptorRule := by
  unfold Obligations.DescriptorRule
  refine ⟨?header, ?dispatch, ?completion⟩
  case header =>
    intro s b e he hwait
    have hrow := becomes_descRow b s e he hwait
    have hminor : (descSw e.1 b s.sw).sec.runMinor = s.sw.sec.runMinor := rfl
    refine ⟨fun _ => endsWith_of_header hrow, fun h => endsWith_of_header hrow (headerStatus_contract h), fun hminor hlater => ?_⟩
    have hplain := headerStatus_plain (w := descSw e.1 b s.sw) he hlater hminor
    refine ⟨fun hflags => ?bad, fun hflags hfunc hpf => ?denied, fun hflags hfunc => ?good⟩
    case bad => exact endsWith_of_header hrow (hplain.trans (if_pos hflags))
    case denied =>
      exact endsWith_of_header hrow (hplain.trans ((if_neg (by omega)).trans (if_pos ⟨List.contains_iff_mem.2 hpf, hfunc⟩)))
    case good => exact hplain.trans ((if_neg (by omega)).trans (if_neg fun h => h.2 hfunc))
  case dispatch =>
    intro w code b
    refine ⟨rfl, rfl, ?outst, ?keeps, ?res⟩
    case outst =>
      unfold descSw dispatch
      simp only [Sw.modEvq_ring, Sw.modRing_self]
      rfl
    case keeps => exact modEvq_keeps (by decide) (modRing_keeps (by decide) (modHost_keeps (by simp) (by simp) (by simp) (by simp) (by simp) (by simp) (by simp) (by simp) (by simp) (by simp) (.refl _ _)))
    case res =>
      unfold descSw dispatch
      simp only [Sw.modRing_self]
      exact congrArg Evq.res (Sw.modEvq_self _ _ _)
  case completion =>
    intro w t st res r e hr he
    subst hr he
    refine ⟨completeR_gone, fun hid => ⟨completeR_ring hid, fun hlost harmed hactive => ⟨fun hquiet hst => ?silent, fun h => ?recorded⟩⟩⟩
    case silent =>
      rw [completeR_silent hlost hid hquiet hst]
      simp
    case recorded =>
      rw [completeR_recorded hlost hid harmed hactive h]
      refine ⟨by simp, ?_⟩
      rw [Sw.modRing_outs, putRecord_outs _ (by simp [completionRecord]), freed_evq, freed_outs]
      rfl

end Sys2Proof.Machine
end


section
/-! PROOFS. Lock, training and loss of the lanes (O30, O31, O32, O33). -/
namespace Sys2Proof.Machine

/-! ### Lanes and ports under operations on the other -/

theorem lane_of_keeps {ps : List Piece} {a b : Sw} (h : Sw.keeps ps a b) (hp : Piece.lanes ∉ ps) (l : Nat) : b.lane l = a.lane l := by
  unfold Sw.lane
  rw [h .lanes hp]
/-- The registers of a port but its maps stand where that part does. -/
theorem portRest_of_keeps {ps : List Piece} {a b : Sw} (h : Sw.keeps ps a b) (hp : Piece.portReg ∉ ps) (n : Nat) :
    (b.port n).reg.rest = (a.port n).reg.rest := (h .portReg hp n).symm
theorem portSt_of_keeps {ps : List Piece} {a b : Sw} (h : Sw.keeps ps a b) (hp : Piece.portReg ∉ ps) (n : Nat) :
    (b.port n).reg.state = (a.port n).reg.state := by
  have hrest := congrArg PortReg.state (portRest_of_keeps h hp n)
  exact hrest
theorem lanesOf_of_keeps {ps : List Piece} {a b : Sw} (h : Sw.keeps ps a b) (hp : Piece.portReg ∉ ps) (n : Nat) :
    b.lanesOf n = a.lanesOf n := by
  have hrest := congrArg PortReg.lanes (portRest_of_keeps h hp n)
  have hlanes : (b.port n).reg.lanes = (a.port n).reg.lanes := hrest
  unfold Sw.lanesOf
  rw [hlanes]
theorem portOfLane_of_keeps {ps : List Piece} {a b : Sw} (h : Sw.keeps ps a b) (hp : Piece.portReg ∉ ps) (l : Nat) :
    b.portOfLane l = a.portOfLane l := by
  unfold Sw.portOfLane
  simp only [portSt_of_keeps h hp, lanesOf_of_keeps h hp]
@[simp] theorem raiseSys_portOfLane (code : Nat) (content : List Byte) (s : Sw) (l : Nat) :
    (raiseSys code content s).portOfLane l = s.portOfLane l :=
  portOfLane_of_keeps (raiseSys_keeps (ps := evParts) (by decide) (.refl _ s)) (by decide) l
@[simp] theorem raiseSys_portSt (code : Nat) (content : List Byte) (s : Sw) (n : Nat) :
    ((raiseSys code content s).port n).reg.state = (s.port n).reg.state :=
  portSt_of_keeps (raiseSys_keeps (ps := evParts) (by decide) (.refl _ s)) (by decide) n
@[simp] theorem raiseSys_lane (code : Nat) (content : List Byte) (s : Sw) (l : Nat) : (raiseSys code content s).lane l = s.lane l :=
  lane_of_keeps (raiseSys_keeps (ps := evParts) (by decide) (.refl _ s)) (by decide) l
@[simp] theorem Sw.modLane_port (s : Sw) (l n : Nat) (f : Lane → Lane) : (s.modLane l f).port n = s.port n := rfl
@[simp] theorem Sw.modLane_portOfLane (s : Sw) (l k : Nat) (f : Lane → Lane) : (s.modLane l f).portOfLane k = s.portOfLane k := rfl
@[simp] theorem Sw.modLane_lanesOf (s : Sw) (l n : Nat) (f : Lane → Lane) : (s.modLane l f).lanesOf n = s.lanesOf n := rfl
/-- A change of one lane leaves the others. -/
theorem Sw.modLane_othersSame (s : Sw) (l : Nat) (f : Lane → Lane) : othersSame Sw.lane l s (s.modLane l f) :=
  fun _ hk => (s.modLane_others l f hk).symm
theorem othersSame.trans {α : Type} {unit : Sw → Nat → α} {n : Nat} {a b c : Sw} (h : othersSame unit n a b) (g : othersSame unit n b c) :
    othersSame unit n a c := fun k hk => (h k hk).trans (g k hk)
/-- A command that changes one lane, and nothing else. -/
theorem runsTo_of_modLane {c : Instr} {s : State} {l : Nat} {f : Lane → Lane} {ps : List Piece} {P : Sw → Prop} (g : Sw → Sw)
    (hc : exec c s = lift g s) (hg : g s.sw = s.sw.modLane l f) (hp : partsIn [.lanes] ps = true) (hP : P (s.sw.modLane l f)) :
    runsTo c s ps P := by
  refine runsTo_of_lift g hc ?_ ?_
  · rw [hg]
    exact modLane_keeps hp (.refl _ _)
  · rw [hg]
    exact hP

/-! ### Lock (R443, R446) -/

/-- What a lane becomes whose receiver locks. -/
def Lane.locked (rate : Nat) (taps : Taps) (now : Nat) (x : Lane) : Lane :=
  { x with
    state := .train, rate := rate, txRate := rate, lol := false, taps := taps, since := now, rxReady := false
    partnerReady := false, notSup := 0, applied := none, reqSeq := (0, false), ctl := 0, asked := 0, finish := (0, 0) }
theorem laneLockOp_noPort {s : Sw} {l rate : Nat} (h : s.portOfLane l = none) : laneLockOp l rate s = s := by simp [laneLockOp, h]
theorem laneLockOp_locks {s : Sw} {l n rate : Nat} (hn : s.portOfLane l = some n) (hst : (s.lane l).state = .search)
    (hrate : rate ∈ allowedRates (s.port n).reg.allowNow)
    (hothers : ∀ k ∈ s.lanesOf n, k ≠ l → (s.lane k).rate = 0 ∨ (s.lane k).rate = rate ∨ (s.lane k).state = .search ∨ (s.lane k).state = .idle) :
    laneLockOp l rate s = s.modLane l (Lane.locked rate (startTaps s n rate (s.lane l)) s.now) := by
  have helse : ((s.lanesOf n).filter fun k => k != l).any (fun k =>
      (s.lane k).rate != 0 && (s.lane k).rate != rate && (s.lane k).state != .search && (s.lane k).state != .idle) = false := by
    simp only [List.any_eq_false, List.mem_filter, bne_iff_ne, and_imp]
    intro k hk hne
    rcases hothers k hk hne with h | h | h | h <;> simp [h]
  simp only [laneLockOp, hn, hst, helse, List.contains_eq_mem, decide_eq_true hrate]
  rfl
theorem laneLockOp_refuses {s : Sw} {l rate : Nat}
    (h : (s.lane l).state ≠ .search ∨ ∃ n, s.portOfLane l = some n ∧ rate ∉ allowedRates (s.port n).reg.allowNow) :
    laneLockOp l rate s = s := by
  unfold laneLockOp
  split
  · rfl
  · next n hn =>
    rw [if_pos]
    rcases h with h | ⟨k, hk, hrate⟩
    · simp [h]
    · obtain rfl : n = k := Option.some.inj (hn.symm.trans hk)
      simp [hrate]
theorem startTaps_preset {s : Sw} {n rate : Nat} {x : Lane} (h : x.txInit ≠ 0) : startTaps s n rate x = preset x.txInit := by
  simp [startTaps, h]
theorem startTaps_fresh {s : Sw} {n rate : Nat} {x : Lane} (h : x.txInit = 0) (hc : x.conv = none) : startTaps s n rate x = preset 1 := by
  simp [startTaps, h, hc]
/-- Settles O30: `laneLockOp` locks or refuses. -/
theorem laneLockRule : Obligations.LaneLockRule := by
  unfold Obligations.LaneLockRule
  refine ⟨?locks, ?state, ?rate, ?port⟩
  case locks =>
    intro s l n rate hn hst hrate hothers
    refine runsTo_of_modLane (laneLockOp l rate) rfl (laneLockOp_locks hn hst hrate hothers) (by decide) ?_
    simp only [Sw.modLane_self]
    exact ⟨rfl, rfl, rfl, rfl, rfl, rfl, rfl, fun h => startTaps_preset h, fun h hc => startTaps_fresh h hc, Sw.modLane_othersSame _ _ _⟩
  case state => exact fun s l rate h => stays_of_lift (laneLockOp l rate) rfl (laneLockOp_refuses (.inl h))
  case rate => exact fun s l n rate hn h => stays_of_lift (laneLockOp l rate) rfl (laneLockOp_refuses (.inr ⟨n, hn, h⟩))
  case port => exact fun s l rate h => stays_of_lift (laneLockOp l rate) rfl (laneLockOp_noPort h)

/-! ### Training frames (R443, R445, R446) -/

/-- What a training frame makes of a lane before its next words go out. -/
def Lane.framed (control status : Word) (ready : Bool) (snr : Half) (x : Lane) : Lane :=
  applyStatus status (applyControl control { x with rxReady := ready, snr := snr })

theorem applyControl_bad {w : Word} {x : Lane} (h : crcGood w = false) : applyControl w x = x := by simp [applyControl, h]
theorem applyControl_known {w : Word} {x : Lane} {st : Half} (h : x.applied = some (field w 16 8, st)) : applyControl w x = x := by
  simp [applyControl, h]
theorem applyControl_new {w : Word} {x : Lane} (h : crcGood w = true) (hnew : ∀ q st, x.applied = some (q, st) → q ≠ field w 16 8) :
    applyControl w x = { x with
      taps := (answer x.ignoreReq w.toNat x.taps).2
      applied := some (field w 16 8, BitVec.ofNat 16 (answer x.ignoreReq w.toNat x.taps).1) } := by
  unfold applyControl
  cases happ : x.applied with
  | none => simp [h]
  | some e => simp [h, hnew e.1 e.2 happ]
/-- A control word changes taps and what was applied. -/
theorem applyControl_eq (w : Word) (x : Lane) : ∃ taps applied, applyControl w x = { x with taps := taps, applied := applied } := by
  by_cases h : crcGood w = true
  · by_cases hnew : ∀ q st, x.applied = some (q, st) → q ≠ field w 16 8
    · exact ⟨_, _, applyControl_new h hnew⟩
    · push Not at hnew
      obtain ⟨q, st, happ, rfl⟩ := hnew
      exact ⟨_, _, applyControl_known happ⟩
  · exact ⟨_, _, applyControl_bad (by simpa using h)⟩
/-- A status word changes the partner's RX_READY and the exchange. -/
theorem applyStatus_eq (w : Word) (x : Lane) : ∃ ready seq no,
    applyStatus w x = { x with partnerReady := ready, reqSeq := seq, notSup := no } ∧ (crcGood w = true → ready = bit w 12) := by
  unfold applyStatus
  split
  · next h => exact ⟨_, _, _, rfl, fun hg => absurd hg (by simpa using h)⟩
  · dsimp only
    split
    · exact ⟨_, _, _, rfl, fun _ => rfl⟩
    · exact ⟨_, _, _, rfl, fun _ => rfl⟩
theorem applyStatus_bad {w : Word} {x : Lane} (h : crcGood w = false) : applyStatus w x = x := by simp [applyStatus, h]
/-- What a training frame leaves of a lane, and what it records. -/
theorem Lane.framed_eq (control status : Word) (ready : Bool) (snr : Half) (x : Lane) : ∃ taps applied partner seq no,
    Lane.framed control status ready snr x = { x with
      rxReady := ready, snr := snr, taps := taps, applied := applied, partnerReady := partner, reqSeq := seq, notSup := no } ∧
    (crcGood status = true → partner = bit status 12) := by
  obtain ⟨taps, applied, hcontrol⟩ := applyControl_eq control { x with rxReady := ready, snr := snr }
  obtain ⟨partner, seq, no, hstatus, hready⟩ := applyStatus_eq status (applyControl control { x with rxReady := ready, snr := snr })
  refine ⟨taps, applied, partner, seq, no, ?_, hready⟩
  rw [Lane.framed, hstatus, hcontrol]
theorem Lane.framed_bad {control status : Word} {ready : Bool} {snr : Half} {x : Lane} (hc : crcGood control = false)
    (hs : crcGood status = false) : Lane.framed control status ready snr x = { x with rxReady := ready, snr := snr } := by
  rw [Lane.framed, applyControl_bad hc, applyStatus_bad hs]
theorem applyStatus_taps (w : Word) (x : Lane) : (applyStatus w x).taps = x.taps ∧ (applyStatus w x).applied = x.applied := by
  obtain ⟨ready, seq, no, hstatus, -⟩ := applyStatus_eq w x
  rw [hstatus]
  exact ⟨rfl, rfl⟩
theorem Lane.framed_new {control status : Word} {ready : Bool} {snr : Half} {x : Lane} (hc : crcGood control = true)
    (hnew : ∀ q st, x.applied = some (q, st) → q ≠ field control 16 8) :
    (Lane.framed control status ready snr x).taps = (answer x.ignoreReq control.toNat x.taps).2 ∧
    (Lane.framed control status ready snr x).applied.map Prod.fst = some (field control 16 8) := by
  have hcontrol := applyControl_new (x := { x with rxReady := ready, snr := snr }) hc hnew
  obtain ⟨htaps, happlied⟩ := applyStatus_taps status (applyControl control { x with rxReady := ready, snr := snr })
  rw [Lane.framed, htaps, happlied, hcontrol]
  exact ⟨rfl, rfl⟩
/-- The next control word changes the exchange of the lane that asks. -/
theorem nextControl_lane (l : Nat) (s : Sw) : ∃ seq ctl asked,
    (nextControl l s).lane l = { s.lane l with reqSeq := seq, ctl := ctl, asked := asked } := by
  unfold nextControl
  dsimp only
  split
  · exact ⟨_, _, _, rfl⟩
  · split
    · exact ⟨_, _, _, rfl⟩
    · exact ⟨_, _, _, Sw.modLane_self _ _ _⟩
theorem nextControl_othersSame (l : Nat) (s : Sw) : othersSame Sw.lane l s (nextControl l s) := by
  unfold nextControl
  dsimp only
  split
  · exact fun _ _ => rfl
  · split
    · exact fun _ _ => rfl
    · exact fun _ hk => (Sw.modLane_others s.draw.2 l _ hk).symm
theorem nextControl_ready {l : Nat} {s : Sw} (h : (s.lane l).rxReady = true) : nextControl l s = s := by simp [nextControl, h]
/-- The switch once a training frame is taken and the lane's next words have gone out. -/
def frameTaken (l : Nat) (control status : Word) (ready : Bool) (snr : Half) (s : Sw) : Sw :=
  let s := nextControl l (s.modLane l (Lane.framed control status ready snr))
  s.out (.training l (s.lane l).ctl (s.lane l).status)

section
variable {l : Nat} {control status : Word} {ready : Bool} {snr : Half} {skew : Nat} {s : Sw}

theorem trainingFrame_elsewhere (h₁ : (s.lane l).state ≠ .train) (h₂ : (s.lane l).state ≠ .finish) :
    trainingFrame l control status ready snr skew s = s := by simp [trainingFrame, h₁, h₂]
theorem trainingFrame_taken (h : (s.lane l).state = .train ∨ (s.lane l).state = .finish) :
    trainingFrame l control status ready snr skew s = trainAdvance l skew (frameTaken l control status ready snr s) := by
  have hin : ((s.lane l).state != .train && (s.lane l).state != .finish) = false := by rcases h with h | h <;> simp [h]
  simp only [trainingFrame, hin, Bool.false_eq_true, if_false]
  rfl
theorem frameTaken_keeps : Sw.keeps [.lanes, .freeCtr, .outs] s (frameTaken l control status ready snr s) :=
  out_keeps (by decide) (nextControl_keeps (by decide) (modLane_keeps (by decide) (.refl _ _)))
theorem frameTaken_outs : ∃ ctl st, (frameTaken l control status ready snr s).outs = s.outs ++ [.training l ctl st] := by
  have houts : (nextControl l (s.modLane l (Lane.framed control status ready snr))).outs = s.outs :=
    outs_of_keeps (nextControl_keeps (ps := [.lanes, .freeCtr]) (by decide) (modLane_keeps (by decide) (.refl _ _))) (by decide)
  unfold frameTaken
  rw [Sw.out_outs, houts]
  exact ⟨_, _, rfl⟩
theorem frameTaken_lane : ∃ seq ctl asked, (frameTaken l control status ready snr s).lane l =
    { Lane.framed control status ready snr (s.lane l) with reqSeq := seq, ctl := ctl, asked := asked } := by
  obtain ⟨seq, ctl, asked, hlane⟩ := nextControl_lane l (s.modLane l (Lane.framed control status ready snr))
  rw [Sw.modLane_self] at hlane
  exact ⟨seq, ctl, asked, hlane⟩
theorem frameTaken_othersSame : othersSame Sw.lane l s (frameTaken l control status ready snr s) :=
  (Sw.modLane_othersSame s l _).trans ((nextControl_othersSame l _).trans fun _ _ => rfl)
/-- What of the lane stands when a frame is taken, with the receiver's own readings and the partner's RX_READY. -/
theorem frameTaken_stands : ((frameTaken l control status ready snr s).lane l).state = (s.lane l).state ∧
    ((frameTaken l control status ready snr s).lane l).rxReady = ready ∧ ((frameTaken l control status ready snr s).lane l).snr = snr ∧
    ((frameTaken l control status ready snr s).lane l).finish = (s.lane l).finish ∧
    ((frameTaken l control status ready snr s).lane l).trainOk = (s.lane l).trainOk ∧
    (crcGood status = true → ((frameTaken l control status ready snr s).lane l).partnerReady = bit status 12) := by
  obtain ⟨seq, ctl, asked, hlane⟩ := frameTaken_lane (l := l) (control := control) (status := status) (ready := ready) (snr := snr) (s := s)
  obtain ⟨taps, applied, partner, seq', no, hframed, hready⟩ := Lane.framed_eq control status ready snr (s.lane l)
  rw [hlane, hframed]
  exact ⟨rfl, rfl, rfl, rfl, rfl, hready⟩
end
theorem trainAdvance_unready {l skew : Nat} {s : Sw} (h : (s.lane l).rxReady = false) :
    trainAdvance l skew s = s.modLane l fun x => { x with state := .train, finish := (0, 0) } := by simp [trainAdvance, h]
theorem trainAdvance_finish {l skew : Nat} {s : Sw} (h : (s.lane l).rxReady = true) (hst : (s.lane l).state = .train)
    (hp : (s.lane l).partnerReady = true) : trainAdvance l skew s = s.modLane l fun x => { x with state := .finish, finish := (0, 0) } := by
  simp [trainAdvance, h, hst, hp]
/-- The thirty-second frame each way, on a port that is not in SEARCH. -/
theorem trainAdvance_data {l skew n : Nat} {s : Sw} (h : (s.lane l).rxReady = true) (hst : (s.lane l).state = .finish)
    (hp : (s.lane l).partnerReady = true) (hfin : (s.lane l).finish = (31, 31)) (hn : s.portOfLane l = some n)
    (hport : (s.port n).reg.state ≠ .search) : ∃ content f, trainAdvance l skew s = raiseSys 0x0900 content (s.modLane l f) ∧
      (f (s.lane l)).state = .data ∧ (f (s.lane l)).trainOk = (s.lane l).trainOk + 1 := by
  simp only [trainAdvance, h, hst, hp, hfin, Sw.modLane_twice, Sw.modLane_self, Sw.modLane_portOfLane, raiseSys_portOfLane, hn,
    raiseSys_portSt, Sw.modLane_port, bne_iff_ne.2 hport]
  exact ⟨_, _, rfl, rfl, rfl⟩
/-- Settles O31: the frame is taken, then the lane advances by its state. -/
theorem trainingFrameRule : Obligations.TrainingFrameRule := by
  unfold Obligations.TrainingFrameRule
  refine ⟨?unready, ?finishes, ?data, ?elsewhere⟩
  case elsewhere =>
    exact fun s l control status ready snr skew h₁ h₂ =>
      stays_of_lift (trainingFrame l control status ready snr skew) rfl (trainingFrame_elsewhere h₁ h₂)
  case unready =>
    intro s l control status snr skew hst
    obtain ⟨-, hready, hsnr, -⟩ := frameTaken_stands (l := l) (control := control) (status := status) (ready := false) (snr := snr) (s := s.sw)
    have hrun : trainingFrame l control status false snr skew s.sw = (frameTaken l control status false snr s.sw).modLane l
        fun x => { x with state := .train, finish := (0, 0) } := (trainingFrame_taken hst).trans (trainAdvance_unready hready)
    refine runsTo_of_lift (trainingFrame l control status false snr skew) rfl ?_ ?_
    all_goals rw [hrun]
    · exact modLane_keeps (by decide) frameTaken_keeps
    · rw [Sw.modLane_self]
      refine ⟨rfl, rfl, hready, hsnr, fun hc hs => ?bad, fun hc hnew => ?new, frameTaken_outs, frameTaken_othersSame.trans (Sw.modLane_othersSame _ _ _)⟩
      case bad =>
        obtain ⟨seq, ctl, asked, hlane⟩ := frameTaken_lane (l := l) (control := control) (status := status) (ready := false) (snr := snr) (s := s.sw)
        rw [hlane, Lane.framed_bad hc hs]
        exact ⟨rfl, rfl, rfl⟩
      case new =>
        obtain ⟨seq, ctl, asked, hlane⟩ := frameTaken_lane (l := l) (control := control) (status := status) (ready := false) (snr := snr) (s := s.sw)
        rw [hlane]
        exact Lane.framed_new hc hnew
  case finishes =>
    intro s l control status snr skew hst hs hbit
    obtain ⟨hstate, hready, hsnr, -, -, hpartner⟩ :=
      frameTaken_stands (l := l) (control := control) (status := status) (ready := true) (snr := snr) (s := s.sw)
    have hrun : trainingFrame l control status true snr skew s.sw = (frameTaken l control status true snr s.sw).modLane l
        fun x => { x with state := .finish, finish := (0, 0) } :=
      (trainingFrame_taken (.inl hst)).trans (trainAdvance_finish hready (hstate.trans hst) ((hpartner hs).trans hbit))
    refine runsTo_of_lift (trainingFrame l control status true snr skew) rfl ?_ ?_
    all_goals rw [hrun]
    · exact modLane_keeps (by decide) frameTaken_keeps
    · rw [Sw.modLane_self]
      exact ⟨rfl, hready, (hpartner hs).trans hbit, hsnr, frameTaken_othersSame.trans (Sw.modLane_othersSame _ _ _)⟩
  case data =>
    intro s l n control status snr skew hst hfin hs hbit hn hport
    obtain ⟨hstate, hready, -, hfinish, hok, hpartner⟩ :=
      frameTaken_stands (l := l) (control := control) (status := status) (ready := true) (snr := snr) (s := s.sw)
    have hkeeps := frameTaken_keeps (l := l) (control := control) (status := status) (ready := true) (snr := snr) (s := s.sw)
    obtain ⟨content, f, hadvance, hdata, hcount⟩ := trainAdvance_data (skew := skew) hready (hstate.trans hst) ((hpartner hs).trans hbit)
      (hfinish.trans hfin) ((portOfLane_of_keeps hkeeps (by decide) l).trans hn)
      (fun h => hport ((portSt_of_keeps hkeeps (by decide) n).symm.trans h))
    have hrun := (trainingFrame_taken (skew := skew) (.inr hst)).trans hadvance
    refine runsTo_of_lift (trainingFrame l control status true snr skew) rfl ?_ ?_
    all_goals rw [hrun]
    · exact raiseSys_keeps (by decide) (modLane_keeps (by decide) (frameTaken_keeps.mono (by decide)))
    · rw [raiseSys_lane, Sw.modLane_self]
      exact ⟨hdata, hcount.trans (congrArg (· + 1) hok), frameTaken_othersSame.trans ((Sw.modLane_othersSame _ _ _).trans fun k _ => (raiseSys_lane _ _ _ k).symm)⟩

/-! ### Timers of the lanes (R443, R446, R450) -/

/-- A lane that gives up: it searches, and one more training has failed. -/
def Lane.timedOut (rate : Nat) (x : Lane) : Lane := { x.toSearch rate with trainBad := x.trainBad + 1 }
theorem trainTimeoutOp_fails {s : Sw} {l n : Nat} (hn : s.portOfLane l = some n)
    (h : (s.lane l).state = .train ∨ (s.lane l).state = .finish) : ∃ content, trainTimeoutOp l s =
      raiseSys 0x0901 content (s.modLane l (Lane.timedOut ((allowedRates (s.port n).reg.allowNow).headD 3))) := by
  have hin : ((s.lane l).state == .train || (s.lane l).state == .finish) = true := by rcases h with h | h <;> simp [h]
  simp only [trainTimeoutOp, hn, hin, if_true, Sw.modLane_twice]
  exact ⟨_, rfl⟩
/-- Every lane of a list is changed once. -/
theorem each_modLane (f : Lane → Lane) (k : Nat) : ∀ (ls : List Nat) (s : Sw), ls.Nodup →
    (each ls (fun l => Sw.modLane l f) s).lane k = if k ∈ ls then f (s.lane k) else s.lane k := by
  intro ls
  induction ls with
  | nil => exact fun _ _ => rfl
  | cons l ls ih =>
    intro s hnodup
    obtain ⟨hl, hls⟩ := List.nodup_cons.1 hnodup
    have hstep : (each (l :: ls) (fun l => Sw.modLane l f) s).lane k = if k ∈ ls then f ((s.modLane l f).lane k) else (s.modLane l f).lane k :=
      ih (s.modLane l f) hls
    rw [hstep]
    by_cases hk : k = l
    · subst hk
      simp [hl]
    · simp [hk, Sw.modLane_others]
theorem span_nodup (a n : Nat) : (span a n).Nodup := List.Nodup.map (fun _ _ h => Nat.add_left_cancel h) List.nodup_range
theorem modLanes_lane (n : Nat) (f : Lane → Lane) (k : Nat) (s : Sw) :
    (modLanes n f s).lane k = if k ∈ s.lanesOf n then f (s.lane k) else s.lane k := each_modLane f k _ s (span_nodup _ _)
theorem exec_searchRateStep (n : Nat) (s : State) : exec (.searchRateStep n) s = lift (fun w =>
    if (w.port n).reg.state == .search then modLanes n (Lane.nextRate (w.port n).reg.allowNow) w else w) s := rfl
theorem exec_aprRestartPulse (l : Nat) (s : State) : exec (.aprRestartPulse l) s = lift (fun w =>
    w.modLane l fun x => if x.apr && x.lit && !w.laneDark l then { x with pulse := some w.now } else x) s := rfl
theorem exec_laneLosClear (l : Nat) (power : Half) (s : State) : exec (.laneLosClear l power) s = lift (fun w =>
    onlyIf (w.quadActive (l / 4)) (Sw.modLane l fun x => { x with los := false, apr := false, pulse := none, rxPower := power }) w) s := rfl
/-- A command that maps one lane leaves the others and every other part. -/
theorem runsTo_of_laneMap {c : Instr} {s : State} {l : Nat} {f : Lane → Lane} {P : Sw → Prop} (hc : exec c s = .next { s with sw := s.sw.modLane l f })
    (hP : P (s.sw.modLane l f)) : runsTo c s [.lanes] P := ⟨_, hc, modLane_keeps (by decide) (.refl _ _), hP⟩
/-- Settles O32: each timer maps the lanes it names. -/
theorem laneTimersRule : Obligations.LaneTimersRule := by
  unfold Obligations.LaneTimersRule
  refine ⟨?timeout, ?echo, ?rate, ?rateElsewhere, ?pulse, ?noPulse, ?clear⟩
  case timeout =>
    intro s l n hn hst
    obtain ⟨content, hrun⟩ := trainTimeoutOp_fails hn hst
    refine runsTo_of_lift (trainTimeoutOp l) rfl ?_ ?_
    all_goals rw [hrun]
    · exact raiseSys_keeps (by decide) (modLane_keeps (by decide) (.refl _ _))
    · rw [raiseSys_lane, Sw.modLane_self]
      exact ⟨rfl, rfl, rfl, rfl, rfl, fun k hk => ((raiseSys_lane _ _ _ k).trans (Sw.modLane_others _ _ _ hk)).symm⟩
  case echo =>
    intro s l
    refine runsTo_of_laneMap rfl ?_
    rw [Sw.modLane_self]
    refine ⟨fun h => ?_, fun h => ?_, ?_, ?_, Sw.modLane_othersSame _ _ _⟩
    · rw [if_pos h]
      exact ⟨rfl, rfl⟩
    · rw [if_neg (by simp [h])]
    · split <;> rfl
    · split <;> rfl
  case rate =>
    intro s n hst
    refine runsTo_of_lift _ (exec_searchRateStep n s) ?_ ?_
    · exact keeps_ite (modLanes_keeps (by decide) (.refl _ _)) (.refl _ _)
    · rw [if_pos (by simp [hst])]
      exact ⟨fun l hl => (modLanes_lane n _ l s.sw).trans (if_pos hl), fun l hl => (modLanes_lane n _ l s.sw).trans (if_neg hl)⟩
  case rateElsewhere => exact fun s n hst => stays_of_lift _ (exec_searchRateStep n s) (if_neg (by simpa using hst))
  case pulse =>
    intro s l hapr hlit hdark
    refine runsTo_of_laneMap (exec_aprRestartPulse l s) ?_
    rw [Sw.modLane_self]
    exact ⟨if_pos (by simp [hapr, hlit, Sw.laneDark, hdark]), Sw.modLane_othersSame _ _ _⟩
  case noPulse =>
    intro s l hapr
    refine runsTo_of_laneMap (exec_aprRestartPulse l s) fun k => ?_
    rw [Sw.modLane_at]
    split
    · next hk => rw [if_neg (by simp [hapr]), hk]
    · rfl
  case clear =>
    intro s l power hactive
    refine runsTo_of_lift _ (exec_laneLosClear l power s) ?_ ?_
    all_goals rw [onlyIf_true hactive]
    · exact modLane_keeps (by decide) (.refl _ _)
    · exact ⟨Sw.modLane_self _ _ _, Sw.modLane_othersSame _ _ _⟩

/-! ### Loss of signal and of lock (R447 to R450) -/

theorem limited_port {f : Sw → Sw} {ps : List Piece} (hf : ∀ a s, Sw.keeps ps a s → Sw.keeps ps a (f s)) (he : partsIn [.evTimes] ps = true)
    (hp : Piece.portReg ∉ ps) (code subject gap l n : Nat) (s : Sw) : (s.limited code subject gap f).portOfLane l = s.portOfLane l ∧
      ((s.limited code subject gap f).port n).reg.state = (s.port n).reg.state :=
  have hkeeps := limited_keeps (code := code) (subject := subject) (gap := gap) he hf (.refl ps s)
  ⟨portOfLane_of_keeps hkeeps hp l, portSt_of_keeps hkeeps hp n⟩
/-- A lost lane of an UP port takes the port to LOST with reason 2. -/
theorem laneFailed_up {s : Sw} {l n : Nat} (hn : s.portOfLane l = some n) (hup : (s.port n).reg.state = .up) :
    laneFailed l s = splitChoose (l / 4) (toLost n 2 none none (s.modLane l fun x => { x with rxReady := false })) := by
  simp [laneFailed, hn, hup]
theorem laneFailed_event {s : Sw} {code l n : Nat} {content : List Byte} (hn : s.portOfLane l = some n) (hup : s.up n = true) :
    laneFailed l (s.limited code l ms (raiseSys code content)) = splitChoose (l / 4) (toLost n 2 none none
      ((s.limited code l ms (raiseSys code content)).modLane l fun x => { x with rxReady := false })) := by
  have hstand := limited_port (ps := .evTimes :: evParts) (f := raiseSys code content) (fun _ _ h => raiseSys_keeps (by decide) h) (by decide) (by decide)
    code l ms l n s
  have hst : (s.port n).reg.state = .up := by simpa [Sw.up] using hup
  exact laneFailed_up (hstand.1.trans hn) (hstand.2.trans hst)
theorem quadInactive_laneOps {s : Sw} {l : Nat} (h : s.quadActive (l / 4) = false) (power : Half) (cause : Nat) :
    laneLosOp l power s = s ∧ laneLolOp l cause s = s ∧ aprEnter l s = s := by
  simp [laneLosOp, laneLolOp, aprEnter, h]
/-- A lane enters APR: beside the lane only event state changes. -/
theorem aprEnter_event {s : Sw} {l : Nat} (hactive : s.quadActive (l / 4) = true) (hlos : (s.lane l).los = true) (hapr : (s.lane l).apr = false) :
    Sw.keeps [.evTimes, .evqs, .msix, .outs] (s.modLane l fun x => { x with apr := true, aprCount := x.aprCount + 1 }) (aprEnter l s) := by
  have hon : (!s.quadActive (l / 4) || !(s.lane l).los || (s.lane l).apr) = false := by simp [hactive, hlos, hapr]
  simp only [aprEnter, hon, Bool.false_eq_true, if_false]
  split
  · exact .refl _ _
  · exact limited_keeps (by decide) (fun _ _ h => raiseSys_keeps (by decide) h) (.refl _ _)
/-- Settles O33: `laneLosOp`, `laneLolOp` and `aprEnter` by the condition the lane has. -/
theorem laneLossRule : Obligations.LaneLossRule := by
  unfold Obligations.LaneLossRule
  refine ⟨?los, ?lol, ?inactive, ?losAgain, ?lolAgain, ?apr, ?noApr⟩
  case los =>
    intro s l n power hactive hlos hn hup
    refine becomes_of_lift (laneLosOp l power) rfl ?_
    have hown : ((s.sw.modLane l fun x => { x with rxPower := power }).lane l).los = false := by rw [Sw.modLane_self]; exact hlos
    simp only [laneLosOp, hactive, hown, Bool.not_true, Bool.false_eq_true, if_false, Sw.modLane_twice]
    exact laneFailed_event hn hup
  case lol =>
    intro s l n cause hactive hlol hn hup
    refine becomes_of_lift (laneLolOp l cause) rfl ?_
    simp only [laneLolOp, hactive, hlol, Bool.not_true, Bool.or_self, Bool.false_eq_true, if_false]
    exact laneFailed_event hn hup
  case inactive =>
    intro s l power hq
    have hstand := quadInactive_laneOps hq power
    refine ⟨stays_of_lift (laneLosOp l power) rfl (hstand 0).1, stays_of_lift _ (exec_laneLosClear l power s) ?_,
      fun cause => stays_of_lift (laneLolOp l cause) rfl (hstand cause).2.1, stays_of_lift (aprEnter l) rfl (hstand 0).2.2⟩
    rw [onlyIf_false hq]
  case losAgain =>
    intro s l power hactive hlos
    have hown : ((s.sw.modLane l fun x => { x with rxPower := power }).lane l).los = true := by rw [Sw.modLane_self]; exact hlos
    have hrun : laneLosOp l power s.sw = s.sw.modLane l fun x => { x with rxPower := power } := by
      simp only [laneLosOp, hactive, hown, Bool.not_true, Bool.false_eq_true, if_false, if_true]
    refine runsTo_of_modLane (laneLosOp l power) rfl hrun (by decide) ⟨Sw.modLane_self _ _ _, Sw.modLane_othersSame _ _ _⟩
  case lolAgain => exact fun s l cause hlol => stays_of_lift (laneLolOp l cause) rfl (by simp [laneLolOp, hlol])
  case apr =>
    intro s l hactive hlos hapr
    refine ⟨aprEnter l s.sw, rfl, aprEnter_keeps (by decide) (.refl _ _), ?_⟩
    have hevent := aprEnter_event hactive hlos hapr
    refine ⟨(lane_of_keeps hevent (by decide) l).trans (Sw.modLane_self _ _ _), fun k hk => ?_⟩
    exact ((lane_of_keeps hevent (by decide) k).trans (Sw.modLane_others _ _ _ hk)).symm
  case noApr =>
    intro s l h
    refine stays_of_lift (aprEnter l) rfl (if_pos ?_)
    rcases h with h | h <;> simp [h]

end Sys2Proof.Machine
end


section
/-! PROOFS. Feeds of the engines and the laser sites (O35, O36, O37, O38). -/
namespace Sys2Proof.Machine

/-! ### Engines and sites under operations on the other -/

theorem engine_of_keeps {ps : List Piece} {a b : Sw} (h : Sw.keeps ps a b) (hp : Piece.engines ∉ ps) (e : Nat) : b.engine e = a.engine e := by
  unfold Sw.engine
  rw [h .engines hp]
theorem site_of_keeps {ps : List Piece} {a b : Sw} (h : Sw.keeps ps a b) (hp : Piece.sites ∉ ps) (m : Nat) : b.site m = a.site m := by
  unfold Sw.site
  rw [h .sites hp]
theorem Sw.modEngine_othersSame (s : Sw) (e : Nat) (f : Engine → Engine) : othersSame Sw.engine e s (s.modEngine e f) :=
  fun _ hk => (s.modEngine_others e f hk).symm
theorem Sw.modSite_othersSame (s : Sw) (m : Nat) (f : Site → Site) : othersSame Sw.site m s (s.modSite m f) :=
  fun _ hk => (s.modSite_others m f hk).symm
@[simp] theorem Sw.modEngine_site (s : Sw) (e m : Nat) (f : Engine → Engine) : (s.modEngine e f).site m = s.site m := rfl
@[simp] theorem Sw.modSite_engine (s : Sw) (m e : Nat) (f : Site → Site) : (s.modSite m f).engine e = s.engine e := rfl
@[simp] theorem raiseSys_engine (code : Nat) (content : List Byte) (s : Sw) (e : Nat) : (raiseSys code content s).engine e = s.engine e :=
  engine_of_keeps (raiseSys_keeps (ps := evParts) (by decide) (.refl _ s)) (by decide) e
@[simp] theorem raiseSys_site (code : Nat) (content : List Byte) (s : Sw) (m : Nat) : (raiseSys code content s).site m = s.site m :=
  site_of_keeps (raiseSys_keeps (ps := evParts) (by decide) (.refl _ s)) (by decide) m
@[simp] theorem raiseHeld_site (code : Nat) (content : List Byte) (s : Sw) (m : Nat) : (raiseHeld code content s).site m = s.site m :=
  site_of_keeps (raiseHeld_keeps (ps := .held :: evParts) (by decide) (.refl _ s)) (by decide) m
@[simp] theorem raiseHeld_sec (code : Nat) (content : List Byte) (s : Sw) : (raiseHeld code content s).sec = s.sec :=
  (raiseHeld_keeps (ps := .held :: evParts) (by decide) (.refl _ s) .sec (by decide)).symm
/-- A command that changes one site, and then at most raises events. -/
theorem runsTo_of_modSite {c : Instr} {s : State} {m : Nat} {f : Site → Site} {ps : List Piece} {P : Sw → Prop} (g : Sw → Sw)
    (hc : exec c s = lift g s) (hg : g s.sw = s.sw.modSite m f) (hp : partsIn [.sites] ps = true) (hP : P (s.sw.modSite m f)) :
    runsTo c s ps P := by
  refine runsTo_of_lift g hc ?_ ?_
  · rw [hg]
    exact modSite_keeps hp (.refl _ _)
  · rw [hg]
    exact hP

/-! ### Feeds (R457, R458) -/

section
variable (b ok : Bool) (p : Half) (e : Engine)

@[simp] theorem Engine.setFeed_ok_same : (e.setFeed b ok p).ok b = ok := by cases b <;> rfl
@[simp] theorem Engine.setFeed_ok_other : (e.setFeed b ok p).ok (!b) = e.ok (!b) := by cases b <;> rfl
@[simp] theorem Engine.setFeed_dark : (e.setFeed b ok p).dark = e.dark := by cases b <;> rfl
end

theorem siteResumes_stands {s : Sw} {m e : Nat} (h₁ : (s.site m).state ≠ .muting) (h₂ : (s.site m).state ≠ .removeReady) :
    siteResumes m e s = s := by simp [siteResumes, h₁, h₂]
theorem feedLostOp_lost {s : Sw} {e : Nat} {b : Bool} {p : Half} (h : (s.engine e).ok b = false) :
    feedLostOp e b p s = s.modEngine e (Engine.setFeed b false p) := by simp [feedLostOp, h]
/-- The loss of a feed whose partner site prepares no removal. -/
theorem feedLostOp_ok {s : Sw} {e : Nat} {b : Bool} {p : Half} (h : (s.engine e).ok b = true)
    (h₁ : (s.site (siteOf e (!b))).state ≠ .muting) (h₂ : (s.site (siteOf e (!b))).state ≠ .removeReady) :
    feedLostOp e b p s = (if !(s.engine e).ok (!b) && !(s.engine e).dark then
        engineDark e (raiseSys 0x0910 (le 1 e ++ le 1 (if b then 2 else 1) ++ le 1 (siteOf e b)) (s.modEngine e (Engine.setFeed b false p)))
      else raiseSys 0x0910 (le 1 e ++ le 1 (if b then 2 else 1) ++ le 1 (siteOf e b)) (s.modEngine e (Engine.setFeed b false p))) := by
  have hresume := siteResumes_stands (e := e) (s := raiseSys 0x0910 (le 1 e ++ le 1 (if b then 2 else 1) ++ le 1 (siteOf e b))
    (s.modEngine e (Engine.setFeed b false p))) (m := siteOf e (!b)) (by simpa using h₁) (by simpa using h₂)
  simp only [feedLostOp, h, Bool.not_true, Bool.false_eq_true, if_false, hresume, raiseSys_engine, Sw.modEngine_self,
    Engine.setFeed_ok_other, Engine.setFeed_dark]
/-- Settles O35: `feedLostOp` and `feedRestoredOp` by the engine's feeds and the states of its sites. -/
theorem feedRule : Obligations.FeedRule := by
  unfold Obligations.FeedRule
  refine ⟨?one, ?last, ?again, ?restored, ?stays, rfl, rfl⟩
  case one =>
    intro s e b p hok hother h₁ h₂
    have hrun := feedLostOp_ok (p := p) hok h₁ h₂
    rw [hother, Bool.not_true, Bool.false_and, if_neg Bool.false_ne_true] at hrun
    refine runsTo_of_lift (feedLostOp e b p) rfl ?_ ?_
    all_goals rw [hrun]
    · exact raiseSys_keeps (by decide) (modEngine_keeps (by decide) (.refl _ _))
    · have hengine := (raiseSys_engine 0x0910 (le 1 e ++ le 1 (if b then 2 else 1) ++ le 1 (siteOf e b)) (s.sw.modEngine e (Engine.setFeed b false p)) e).trans
        (Sw.modEngine_self _ _ _)
      refine ⟨hengine, ?_, ?_, fun k hk => ?_⟩
      · rw [hengine, Engine.setFeed_ok_same]
      · rw [hengine, Engine.setFeed_ok_other, hother]
      · rw [raiseSys_engine, Sw.modEngine_others _ _ _ hk]
  case last =>
    intro s e b p hok hother hdark h₁ h₂
    refine becomes_of_lift (feedLostOp e b p) rfl ?_
    rw [feedLostOp_ok hok h₁ h₂, hother, hdark]
    rfl
  case again =>
    intro s e b p hok
    refine runsTo_of_lift (feedLostOp e b p) rfl ?_ ?_
    all_goals rw [feedLostOp_lost hok]
    · exact modEngine_keeps (by decide) (.refl _ _)
    · exact ⟨Sw.modEngine_self _ _ _, Sw.modEngine_othersSame _ _ _⟩
  case restored =>
    intro s e b p hlit hp hok hdark
    have hlow : ¬ p.toInt < 1400 := by omega
    have hrun : feedRestoredOp e b p s.sw = raiseSys 0x0911 (le 1 e ++ le 1 (if b then 2 else 1) ++ le 1 (siteOf e b))
        (s.sw.modEngine e (Engine.setFeed b true p)) := by
      simp [feedRestoredOp, hlit, hok, hlow, hdark]
    refine runsTo_of_lift (feedRestoredOp e b p) rfl ?_ ?_
    all_goals rw [hrun]
    · exact raiseSys_keeps (by decide) (modEngine_keeps (by decide) (.refl _ _))
    · simp only [raiseSys_engine, Sw.modEngine_self, Engine.setFeed_ok_same, true_and]
      exact fun k hk => by rw [raiseSys_engine, Sw.modEngine_others _ _ _ hk]
  case stays =>
    intro s e b p h
    refine stays_of_lift (feedRestoredOp e b p) rfl (if_pos ?_)
    rcases h with h | h | h <;> simp [h]

/-! ### Latch and identity (R459, R460) -/

/-- A site whose latch opens. -/
def Site.opened (x : Site) : Site :=
  { x with state := .absent, latched := false, prepRemove := false, removeBlocked := false, blockedAt := none, en := false, muteN := false }
theorem latchOpenOp_opens {s : Sw} {m : Nat} (h : (s.site m).state ≠ .absent) :
    latchOpenOp m s = raiseSys 0x0914 (le 1 m ++ le 1 (s.site m).state.code) (siteFeedsLost m (s.modSite m Site.opened)) := by
  simp only [latchOpenOp, beq_eq_false_iff_ne.2 h, Bool.false_eq_true, if_false, siteDark, Sw.modSite_twice]
  rfl
theorem identityRead_elsewhere {s : Sw} {m unfit : Nat} {serial : Quad} (h : (s.site m).state ≠ .identify) :
    identityRead m serial unfit s = s := by simp [identityRead, h]
/-- The switch once the identity of a module is read: the serial is stored, and that of another module restarts the wear entry. -/
def identityTaken (m : Nat) (serial : Quad) (s : Sw) : Sw :=
  match (s.site m).lastSerial with
  | some k => if k != serial then wearRestart m 1 (s.modSite m fun x => { x with serial := serial, lastSerial := some serial })
      else s.modSite m fun x => { x with serial := serial, lastSerial := some serial }
  | none => s.modSite m fun x => { x with serial := serial, lastSerial := some serial }
theorem identityTaken_keeps (m : Nat) (serial : Quad) (s : Sw) : Sw.keeps [.wear, .evqs, .msix, .outs]
    (s.modSite m fun x => { x with serial := serial, lastSerial := some serial }) (identityTaken m serial s) := by
  unfold identityTaken
  split
  · exact keeps_ite (wearRestart_keeps (by decide) (.refl _ _)) (.refl _ _)
  · exact .refl _ _
theorem identityTaken_same {m : Nat} {serial : Quad} {s : Sw} (h : ∀ k, (s.site m).lastSerial = some k → k = serial) :
    identityTaken m serial s = s.modSite m fun x => { x with serial := serial, lastSerial := some serial } := by
  unfold identityTaken
  split
  · next k hk => rw [h k hk, if_neg (by simp)]
  · rfl
theorem identityRead_taken {s : Sw} {m unfit : Nat} {serial : Quad} (h : (s.site m).state = .identify) : identityRead m serial unfit s =
    (if unfit != 0 then siteRefused m unfit (identityTaken m serial s)
     else if ((identityTaken m serial s).site m).enable then (identityTaken m serial s).modSite m fun x => { (x.drive true) with state := .ramp }
     else (identityTaken m serial s).modSite m fun x => { x with state := .off }) := by
  have hin : ((s.site m).state != .identify) = false := by simp [h]
  simp only [identityRead, hin, Bool.false_eq_true, if_false]
  rfl
theorem exec_laserIdentityTimeout (m : Nat) (s : State) : exec (.laserIdentityTimeout m) s =
    lift (fun w => if (w.site m).state == .identify then siteRefused m 1 w else w) s := rfl
/-- Settles O36: the latch and the identity by the state of the site. -/
theorem laserLatchRule : Obligations.LaserLatchRule := by
  unfold Obligations.LaserLatchRule
  refine ⟨?closes, ?closed, ?opens, ?opened, ?same, ?unfit, ?timeout, ?elsewhere⟩
  case closes =>
    intro s m h
    refine runsTo_of_modSite (latchCloseOp m) rfl (if_neg (by simp [h])) (by decide) ?_
    rw [Sw.modSite_self]
    exact ⟨rfl, rfl, rfl, rfl, rfl, Sw.modSite_othersSame _ _ _⟩
  case closed => exact fun s m h => stays_of_lift (latchCloseOp m) rfl (if_pos (by simp [h]))
  case opens => exact fun s m h => becomes_of_lift (latchOpenOp m) rfl (latchOpenOp_opens h)
  case opened => exact fun s m h => stays_of_lift (latchOpenOp m) rfl (if_pos (by simp [h]))
  case same =>
    intro s m serial hst hlast
    have htaken := identityTaken_same hlast
    have hrun := identityRead_taken (unfit := 0) (serial := serial) hst
    rw [htaken, Sw.modSite_twice, Sw.modSite_twice, Sw.modSite_self] at hrun
    by_cases hen : (s.sw.site m).enable = true
    · refine runsTo_of_modSite (identityRead m serial 0) rfl (hrun.trans ((if_neg (by decide)).trans (if_pos hen))) (by decide) ?_
      rw [Sw.modSite_self]
      exact ⟨rfl, rfl, fun _ => ⟨rfl, rfl, rfl⟩, fun h => absurd (hen.symm.trans h) (by decide), Sw.modSite_othersSame _ _ _⟩
    · rw [Bool.not_eq_true] at hen
      refine runsTo_of_modSite (identityRead m serial 0) rfl (hrun.trans ((if_neg (by decide)).trans (if_neg (by simp [hen])))) (by decide) ?_
      rw [Sw.modSite_self]
      exact ⟨rfl, rfl, fun h => absurd (hen.symm.trans h) (by decide), fun _ => ⟨rfl, rfl⟩, Sw.modSite_othersSame _ _ _⟩
  case unfit =>
    intro s m serial unfit hst hunfit
    have hkeeps := identityTaken_keeps m serial s.sw
    have hrun := (identityRead_taken (unfit := unfit) (serial := serial) hst).trans (if_pos (by simpa using hunfit))
    have hsite (k : Nat) : (siteRefused m unfit (identityTaken m serial s.sw)).site k =
        ((identityTaken m serial s.sw).modSite m fun x => { x with state := .refused }).site k := raiseSys_site _ _ _ k
    refine runsTo_of_lift (identityRead m serial unfit) rfl ?_ ?_
    all_goals rw [hrun]
    · exact siteRefused_keeps (by decide) ((modSite_keeps (by decide) (.refl _ _)).trans (hkeeps.mono (by decide)))
    · have hserial : ((identityTaken m serial s.sw).site m).serial = serial := by
        rw [site_of_keeps hkeeps (by decide), Sw.modSite_self]
      refine ⟨?_, ?_, fun k hk => ?_⟩
      · rw [hsite, Sw.modSite_self]
      · rw [hsite, Sw.modSite_self]
        exact hserial
      · rw [hsite, Sw.modSite_others _ _ _ hk, site_of_keeps hkeeps (by decide), Sw.modSite_others _ _ _ hk]
  case timeout =>
    intro s m hst
    refine runsTo_of_lift _ (exec_laserIdentityTimeout m s) ?_ ?_
    all_goals rw [if_pos (by simp [hst])]
    · exact siteRefused_keeps (by decide) (.refl _ _)
    · refine ⟨(raiseSys_site _ _ _ m).trans (Sw.modSite_self _ _ _), fun k hk => ?_⟩
      exact ((raiseSys_site _ _ _ k).trans (Sw.modSite_others _ _ _ hk)).symm
  case elsewhere =>
    exact fun s m serial unfit h => ⟨stays_of_lift (identityRead m serial unfit) rfl (identityRead_elsewhere h),
      stays_of_lift _ (exec_laserIdentityTimeout m s) (if_neg (by simpa using h))⟩

/-! ### Ramp, polls and ENABLE (R459) -/

/-- A poll's readings. -/
def Site.polled (serial : Quad) (powers : List Half) (bias : Half) (temp : Byte) (x : Site) : Site :=
  { x with serial := if x.state == .identify then x.serial else serial, outPower := powers, bias := bias, temp := temp }
section
variable {s : Sw} {m : Nat} {serial : Quad} {p0 p1 p2 p3 bias : Half} {temp : Byte} {fault : Bool}

/-- The four powers of a poll. -/
theorem range_nth_four {α : Type} (d a b c e : α) : (List.range 4).map (fun i => nth d [a, b, c, e] i) = [a, b, c, e] := rfl
theorem laserPollOp_fault (hst : (s.site m).state = .ramp ∨ (s.site m).state = .on)
    (hbad : fault = true ∨ ∃ p ∈ [p0, p1, p2, p3], p.toInt < 1200) : laserPollOp m serial [p0, p1, p2, p3] bias temp fault s =
      raiseSys 0x0916 (le 1 m ++ le 1 (if fault then 1 else 2) ++ (le 2 p0.toNat ++ le 2 p1.toNat ++ le 2 p2.toNat ++ le 2 p3.toNat))
        (siteFeedsLost m (s.modSite m fun x => { x with
          serial := serial, outPower := [p0, p1, p2, p3], bias := bias, temp := temp, state := .fault, en := false, muteN := false })) := by
  have hin : ((s.site m).state == .absent || (s.site m).state == .unused) = false := by rcases hst with h | h <;> simp [h]
  have hread : ((s.site m).state == .identify) = false := by rcases hst with h | h <;> simp [h]
  have hlit : ((s.site m).state == .ramp || (s.site m).state == .on) = true := by rcases hst with h | h <;> simp [h]
  have hfails : (fault || [p0, p1, p2, p3].any fun p => decide (p.toInt < 1200)) = true := by
    rcases hbad with h | ⟨p, hp, hlow⟩
    · simp [h]
    · rw [List.any_eq_true.2 ⟨p, hp, decide_eq_true hlow⟩, Bool.or_true]
  simp only [laserPollOp, hin, Bool.false_eq_true, if_false, range_nth_four, Sw.modSite_self, Site.lit, hread, hlit, hfails, Bool.and_self,
    if_true, siteDark, Sw.modSite_twice]
  simp only [List.map_cons, List.map_nil, List.flatten_cons, List.flatten_nil, List.append_nil, List.append_assoc]
  rfl
theorem laserPollOp_records (hst : (s.site m).state ∉ [.absent, .unused, .identify, .on])
    (hgood : (s.site m).state = .ramp → ∀ p ∈ [p0, p1, p2, p3], 1200 ≤ p.toInt) : laserPollOp m serial [p0, p1, p2, p3] bias temp false s =
      s.modSite m fun x => { x with serial := serial, outPower := [p0, p1, p2, p3], bias := bias, temp := temp } := by
  simp only [List.mem_cons, List.not_mem_nil, or_false, not_or] at hst
  obtain ⟨habsent, hunused, hidentify, hon⟩ := hst
  have hfine : ((s.site m).state == .ramp && [p0, p1, p2, p3].any fun p => decide (p.toInt < 1200)) = false := by
    by_cases hramp : (s.site m).state = .ramp
    · have hhigh := hgood hramp
      rw [Bool.and_eq_false_iff]
      right
      rw [List.any_eq_false]
      exact fun p hp => by simpa using hhigh p hp
    · simp [hramp]
  have hin : ((s.site m).state == .absent || (s.site m).state == .unused) = false := by simp [habsent, hunused]
  have hread : ((s.site m).state == .identify) = false := by simp [hidentify]
  have hnoton : ((s.site m).state == .on) = false := by simp [hon]
  simp only [laserPollOp, hin, Bool.false_eq_true, if_false, range_nth_four, Sw.modSite_self, Site.lit, hread, hnoton, Bool.or_false,
    Bool.false_or, hfine]
end
theorem laserPollOp_empty {s : Sw} {m : Nat} (hst : (s.site m).state = .absent ∨ (s.site m).state = .unused) (serial : Quad) (ps : List Half)
    (bias : Half) (temp : Byte) (fault : Bool) : laserPollOp m serial ps bias temp fault s = s :=
  if_pos (by rcases hst with h | h <;> simp [h])
theorem laserOff_lit {s : Sw} {m : Nat} (h : (s.site m).state ∈ [SiteSt.ramp, .on, .muting]) : laserOff m s = siteFeedsLost m (s.modSite m fun x =>
    { x with enable := false, state := .off, en := false, muteN := false }) := by
  have hlit : ((s.site m).state == .ramp || (s.site m).state == .on || (s.site m).state == .muting) = true := by
    simpa [or_assoc] using h
  simp only [laserOff, Sw.modSite_self, hlit, if_true, siteDark, Sw.modSite_twice]
  rfl
theorem laserOff_dark {s : Sw} {m : Nat} (h : (s.site m).state ∉ [SiteSt.ramp, .on, .muting]) :
    laserOff m s = s.modSite m fun x => { x with enable := false } := by
  have hdark : ((s.site m).state == .ramp || (s.site m).state == .on || (s.site m).state == .muting) = false := by
    simpa [and_assoc] using h
  simp only [laserOff, Sw.modSite_self, hdark, Bool.false_eq_true, if_false]
/-- Settles O37: each command by the state of the site. -/
theorem laserSiteRule : Obligations.LaserSiteRule := by
  unfold Obligations.LaserSiteRule
  refine ⟨?ramp, ?rampElsewhere, ?fault, ?records, ?empty, ?enable, ?off, ?dark⟩
  case ramp =>
    intro s m hst hp
    exact becomes_of_lift (rampDone m) rfl (if_neg (by simpa [hst] using hp))
  case rampElsewhere =>
    intro s m h
    refine stays_of_lift (rampDone m) rfl (if_pos ?_)
    rcases h with h | ⟨p, hp, hlow⟩
    · simp [h]
    · simp
      exact .inr ⟨p, hp, hlow⟩
  case fault => exact fun s m serial p0 p1 p2 p3 bias temp fault hst hbad => becomes_of_lift (laserPollOp m serial [p0, p1, p2, p3] bias temp fault) rfl (laserPollOp_fault hst hbad)
  case records =>
    intro s m serial p0 p1 p2 p3 bias temp hst hgood
    exact runsTo_of_modSite (laserPollOp m serial [p0, p1, p2, p3] bias temp false) rfl (laserPollOp_records hst hgood) (by decide)
      ⟨Sw.modSite_self _ _ _, Sw.modSite_othersSame _ _ _⟩
  case empty => exact fun s m serial ps bias temp fault hst => stays_of_lift (laserPollOp m serial ps bias temp fault) rfl (laserPollOp_empty hst _ _ _ _ _)
  case enable =>
    intro s m
    refine runsTo_of_modSite (laserOn m) rfl rfl (by decide) ?_
    rw [Sw.modSite_self]
    refine ⟨rfl, fun hen hst => if_pos ?_, fun h => if_neg ?_, rfl, rfl, Sw.modSite_othersSame _ _ _⟩
    · simpa [hen, or_assoc] using hst
    · rcases h with h | h
      · simp [h]
      · simp at h
        simp [h]
  case off => exact fun s m h => becomes_of_lift (laserOff m) rfl (laserOff_lit h)
  case dark =>
    exact fun s m h => runsTo_of_modSite (laserOff m) rfl (laserOff_dark h) (by decide) ⟨Sw.modSite_self _ _ _, Sw.modSite_othersSame _ _ _⟩

/-! ### Removal (R459, R533) -/

theorem lacking_none {s : Sw} {m : Nat} (h : ∀ o, o < 4 → (s.engine (engineOf m o)).ok (m % 2 == 0) = true ∧
    (s.site (siteOf (engineOf m o) (m % 2 == 0))).state ≠ .muting ∧ (s.site (siteOf (engineOf m o) (m % 2 == 0))).state ≠ .removeReady) :
    s.lacking m = none := by
  refine List.find?_eq_none.2 fun e he => ?_
  obtain ⟨o, ho, rfl⟩ := List.mem_map.1 he
  obtain ⟨hok, hmuting, hready⟩ := h o (List.mem_range.1 ho)
  simp [hok, hmuting, hready]
theorem prepRemoveOp_muting {s : Sw} {m : Nat} (hst : (s.site m).state = .on) (h : s.lacking m = none) :
    prepRemoveOp m s = s.modSite m fun x => { x with prepRemove := true, state := .muting } := by simp [prepRemoveOp, hst, h]
theorem prepRemoveOp_blocked {s : Sw} {m e : Nat} (hst : (s.site m).state = .on) (h : s.lacking m = some e) :
    prepRemoveOp m s = raiseSys 0x0918 (le 1 m ++ le 1 2 ++ le 1 e)
      (s.modSite m fun x => { x with prepRemove := false, removeBlocked := true, blockedAt := some s.now }) := by
  simp [prepRemoveOp, hst, h, removeEvent]
theorem mutingDoneOp_ready {s : Sw} {m : Nat} (hst : (s.site m).state = .muting) :
    mutingDoneOp m s = raiseSys 0x0918 (le 1 m ++ le 1 1 ++ le 1 0xFF) (siteFeedsLost m
      (s.modSite m fun x => { x with state := .removeReady, en := false, muteN := false })) := by
  simp [mutingDoneOp, hst, removeEvent, siteDark, Site.drive]
section
variable {s : Sw} {m p : Nat}

theorem siteButtonOp_short (h₁ : 50 ≤ p) (h₂ : p ≤ 2000) (hb : s.sec.btnEnable = true) : siteButtonOp m p s =
    (if (s.site m).state == .on then prepRemoveOp m (raiseHeld 0x0C31 (le 1 m ++ le 1 1) s)
     else if (s.site m).state == .muting || (s.site m).state == .removeReady then prepCancel m (raiseHeld 0x0C31 (le 1 m ++ le 1 1) s)
     else raiseHeld 0x0C31 (le 1 m ++ le 1 1) s) := by
  simp [siteButtonOp, h₁, h₂, hb, buttonEvent]
theorem siteButtonOp_long (h : 5000 ≤ p) : siteButtonOp m p s = raiseHeld 0x0C31 (le 1 m ++ le 1 2) s := by
  have hshort : ¬ p ≤ 2000 := by omega
  simp [siteButtonOp, h, hshort, buttonEvent]
theorem siteButtonOp_neither (h : p < 50 ∨ (2000 < p ∧ p < 5000)) : siteButtonOp m p s = s := by
  have hshort : ¬ (50 ≤ p ∧ p ≤ 2000) := by omega
  have hlong : ¬ 5000 ≤ p := by omega
  simp [siteButtonOp, hshort, hlong]
end
theorem prepCancel_resumes {s : Sw} {m : Nat} (h : (s.site m).state ∈ [SiteSt.muting, .removeReady]) :
    (prepCancel m s).site m = { (s.site m).drive true with prepRemove := false, state := .ramp } := by
  unfold prepCancel
  rw [Sw.modSite_self, if_pos]
  simpa using h
/-- Settles O38: each command by the state of the site, the button by the length of the press. -/
theorem laserRemovalRule : Obligations.LaserRemovalRule := by
  unfold Obligations.LaserRemovalRule
  refine ⟨?muting, ?blocked, ?notOn, ?cancel, ?ready, ?notMuting, ?pressOn, ?pressCancel, ?long, ?neither, ?led⟩
  case muting =>
    intro s m hst h
    exact runsTo_of_modSite (prepRemoveOp m) rfl (prepRemoveOp_muting hst (lacking_none h)) (by decide)
      ⟨Sw.modSite_self _ _ _, Sw.modSite_othersSame _ _ _⟩
  case blocked => exact fun s m e hst h => becomes_of_lift (prepRemoveOp m) rfl (prepRemoveOp_blocked hst h)
  case notOn =>
    exact fun s m hst => runsTo_of_modSite (prepRemoveOp m) rfl (if_pos (by simp [hst])) (by decide)
      ⟨Sw.modSite_self _ _ _, Sw.modSite_othersSame _ _ _⟩
  case cancel =>
    intro s m
    refine runsTo_of_modSite (prepCancel m) rfl rfl (by decide) ⟨?_, fun h => ?_, fun h => ?_, Sw.modSite_othersSame _ _ _⟩
    · rw [Sw.modSite_self]
      split <;> rfl
    · have hsite := prepCancel_resumes h
      unfold prepCancel at hsite
      rw [hsite]
      exact ⟨rfl, rfl, rfl⟩
    · rw [Sw.modSite_self, if_neg]
      simpa using h
  case ready => exact fun s m hst => becomes_of_lift (mutingDoneOp m) rfl (mutingDoneOp_ready hst)
  case notMuting => exact fun s m hst => stays_of_lift (mutingDoneOp m) rfl (if_pos (by simp [hst]))
  case pressOn =>
    intro s m p h₁ h₂ hb hst
    refine ⟨_, rfl, becomes_of_lift (siteButtonOp m p) rfl ?_⟩
    rw [siteButtonOp_short h₁ h₂ hb, if_pos (by simp [hst])]
  case pressCancel =>
    intro s m p h₁ h₂ hb hst
    have hrun : siteButtonOp m p s.sw = prepCancel m (raiseHeld 0x0C31 (le 1 m ++ le 1 1) s.sw) := by
      rw [siteButtonOp_short h₁ h₂ hb, if_neg, if_pos]
      · simpa using hst
      · simp at hst
        rcases hst with h | h <;> simp [h]
    refine runsTo_of_lift (siteButtonOp m p) rfl ?_ ?_
    all_goals rw [hrun]
    · exact modSite_keeps (by decide) (raiseHeld_keeps (by decide) (.refl _ _))
    · rw [prepCancel_resumes (by rw [raiseHeld_site]; exact hst)]
      exact ⟨rfl, rfl, fun k hk => ((Sw.modSite_others _ _ _ hk).trans (raiseHeld_site _ _ _ k)).symm⟩
  case long => exact fun s m p h => becomes_of_lift (siteButtonOp m p) rfl (siteButtonOp_long h)
  case neither => exact fun s m p h => stays_of_lift (siteButtonOp m p) rfl (siteButtonOp_neither h)
  case led =>
    exact fun s m => runsTo_of_modSite (Sw.modSite m fun x => { x with blockedAt := none }) rfl rfl (by decide)
      ⟨Sw.modSite_self _ _ _, Sw.modSite_othersSame _ _ _⟩

end Sys2Proof.Machine
end


section
/-! PROOFS. The module reference, cold reset and start-up (O40, O43, O45). -/
namespace Sys2Proof.Machine

/-! ### The module reference (14 R467) -/

theorem enterSelfTest_glb (s : Sw) : (enterSelfTest s).glb =
    { s.glb with stage := 2, timeLock := true, coreLock := BitVec.allOnes 4, unlockAt := [] } := by
  dsimp only [enterSelfTest]
  split <;> rfl
theorem enterSelfTest_locked (s : Sw) {d : Nat} (hd : d ≤ 4) : (enterSelfTest s).glb.locked d = true := by
  rw [enterSelfTest_glb, Glb.locked]
  by_cases h4 : d = 4
  · rw [if_pos h4]
  · rw [if_neg h4, BitVec.getLsbD_allOnes]
    exact decide_eq_true (by omega)
theorem enterSelfTest_time_warm {s : Sw} (h : s.glb.kind = 2) : (enterSelfTest s).time = s.time := by simp [enterSelfTest, h]
theorem enterSelfTest_gtc {s : Sw} (h : s.glb.kind ≠ 2) : (enterSelfTest s).time.gtc = 0 := by simp [enterSelfTest, h]
/-- The events of a reference that returns. -/
def refBackTold (s : Sw) : Sw :=
  match s.glb.refLostAt with
  | some t => raiseSys 0x0A13 (le 4 ((s.now - t) / 1000) ++ le 1 1) (raiseSys 0x0920 (le 1 1) s)
  | none => raiseSys 0x0920 (le 1 1) s
theorem refBackTold_keeps (s : Sw) : Sw.keeps evParts s (refBackTold s) := by
  have htold : Sw.keeps evParts s (raiseSys 0x0920 (le 1 1) s) := raiseSys_keeps (by decide) (.refl _ s)
  unfold refBackTold
  split
  · exact raiseSys_keeps (by decide) htold
  · exact htold
@[simp] theorem refBackTold_glb (s : Sw) : (refBackTold s).glb = s.glb := by
  unfold refBackTold
  split <;> simp
@[simp] theorem refBackTold_time (s : Sw) : (refBackTold s).time = s.time := by
  unfold refBackTold
  split <;> simp
/-- The switch whose reference is back. -/
def refBackSet (s : Sw) : Sw := (refBackTold s).modGlb fun g => { g with refOk := true, refLostAt := none }
theorem refBackSet_keeps (s : Sw) : Sw.keeps [.glb, .evqs, .msix, .outs] s (refBackSet s) :=
  modGlb_keeps (by decide) (fun _ => rfl) (fun _ => rfl) ((refBackTold_keeps s).mono (by decide))
@[simp] theorem refBackSet_glb (s : Sw) : (refBackSet s).glb = { s.glb with refOk := true, refLostAt := none } := by
  simp [refBackSet]
@[simp] theorem refBackSet_time (s : Sw) : (refBackSet s).time = s.time := refBackTold_time s
theorem refBack_sets {s : Sw} (h : s.glb.refOk = false) :
    refBack s = if s.glb.stage = 6 then enterSelfTest (refBackSet s) else refBackSet s := by
  have hset : refBack s = if (refBackSet s).glb.stage = 6 then enterSelfTest (refBackSet s) else refBackSet s := by
    cases ht : s.glb.refLostAt <;> simp [refBack, refBackSet, refBackTold, h, ht, Sw.now]
  simpa using hset
theorem refHoldover_lost {s : Sw} {t : Nat} (h : s.glb.refLostAt = some t) :
    refHoldover s = warmUnlessStarting 6 (raiseSys 0x0A13 (le 4 ((s.now - t) / 1000) ++ le 1 2) s) := by
  simp [refHoldover, h]
/-- Settles O40: `refLost`, `refBack` and `refHoldover` by what the reference was and by the stage of start-up. -/
theorem referenceRule : Obligations.ReferenceRule := by
  unfold Obligations.ReferenceRule
  refine ⟨?lost, ?lostAgain, ?back, ?backWaiting, ?backAgain, ?holdover, ?holdoverStarting, ?holdoverNone⟩
  case lost => exact fun s h => becomes_of_lift refLost rfl (by simp [refLost, h, Sw.quadActive])
  case lostAgain => exact fun s h => stays_of_lift refLost rfl (by simp [refLost, h])
  case back =>
    intro s h h6
    have hrun := (refBack_sets h).trans (if_neg h6)
    refine runsTo_of_lift refBack rfl ?_ ?_
    all_goals rw [hrun]
    · exact refBackSet_keeps _
    · exact refBackSet_glb _
  case backWaiting =>
    intro s h h6
    have hrun := (refBack_sets h).trans (if_pos h6)
    refine runsTo_of_lift refBack rfl ?_ ?_
    all_goals rw [hrun]
    · exact enterSelfTest_keeps (by decide) ((refBackSet_keeps _).mono (by decide))
    · refine ⟨by simp [enterSelfTest_glb], by simp [enterSelfTest_glb], fun d hd => enterSelfTest_locked _ hd, fun hk => enterSelfTest_gtc ?_,
        fun hk => (enterSelfTest_time_warm ?_).trans (refBackSet_time _)⟩
      all_goals simpa using hk
  case backAgain => exact fun s h => stays_of_lift refBack rfl (if_pos h)
  case holdover =>
    exact fun s t h h5 => becomes_of_lift refHoldover rfl (by simp [refHoldover_lost h, warmUnlessStarting, Sw.starting, h5])
  case holdoverStarting =>
    exact fun s t h h5 => becomes_of_lift refHoldover rfl (by simp [refHoldover_lost h, warmUnlessStarting, Sw.starting, h5])
  case holdoverNone => exact fun s h => stays_of_lift refHoldover rfl (by simp [refHoldover, h])

/-! ### Cold reset (14 R472, R473, R479) -/

theorem shippedTile_inReset (variant p : Nat) : (shippedTile variant p).inReset = false := by
  simp only [shippedTile, apply_ite Tile.inReset, ite_self]
theorem coldReset_tile (c p : Nat) (s : Sw) : ((coldReset c s).tile p).role = (s.tile p).role ∧
    ((coldReset c s).tile p).logical = (s.tile p).logical ∧ ((coldReset c s).tile p).inReset = false := by
  have hp : SMap.find? p (coldReset c s).tiles = (SMap.find? p s.tiles).map Tile.afterReset := SMap.find?_mapVals _ p s.tiles
  rw [Sw.tile, Sw.tile, SMap.getD, SMap.getD, hp]
  cases SMap.find? p s.tiles with
  | none => exact ⟨rfl, rfl, shippedTile_inReset _ p⟩
  | some t => exact ⟨rfl, rfl, rfl⟩
/-- A stack after a cold reset: its channels train again. -/
def Stack.afterCold (t : Stack) : Stack := t.records (if t.state == .absent then .absent else .training)
theorem coldReset_hbm (c : Nat) (s : Sw) : (coldReset c s).hbm = s.hbm.mapVals Stack.afterCold := rfl
theorem coldReset_stack (c k : Nat) (s : Sw) : ((coldReset c s).stack k).mapout = (s.stack k).mapout ∧
    ((coldReset c s).stack k).failed = (s.stack k).failed ∧ ((coldReset c s).stack k).repair = (s.stack k).repair := by
  rw [Sw.stack, Sw.stack, SMap.getD, SMap.getD, coldReset_hbm, SMap.find?_mapVals]
  cases SMap.find? k s.hbm <;> exact ⟨rfl, rfl, rfl⟩
theorem coldReset_wearOf (c i : Nat) (s : Sw) : ((coldReset c s).wearOf i).samples = (s.wearOf i).samples ∧
    ((coldReset c s).wearOf i).age = (s.wearOf i).age :=
  ⟨SMap.getD_mapVals_keep Wear.afterReset Wear.samples (fun _ => rfl) i {} s.wear.entries,
    SMap.getD_mapVals_keep Wear.afterReset Wear.age (fun _ => rfl) i {} s.wear.entries⟩
theorem coldReset_site (c m : Nat) (s : Sw) : (coldReset c s).site m = (s.site m).afterCold :=
  SMap.getD_mapVals Site.afterCold m {} s.sites
/-- Settles O43: the state of a cold reset, read unit by unit. -/
theorem coldResetRule : Obligations.ColdResetRule := by
  unfold Obligations.ColdResetRule
  intro s c hon
  have hrun : becomes (.cold c) s (coldReset c s.sw) := becomes_of_lift _ rfl (onlyIf_true (by simp [hon]) _ _)
  refine ⟨_, hrun, rfl, rfl, rfl, rfl, rfl, rfl, rfl, rfl, rfl, rfl, rfl, rfl, rfl, rfl, rfl, rfl, rfl, rfl,
    fun p => coldReset_tile c p s.sw, fun k => coldReset_stack c k s.sw, rfl, rfl, rfl, fun i => coldReset_wearOf c i s.sw,
    fun m => ?_⟩
  rw [coldReset_site]
  exact ⟨rfl, rfl, rfl⟩

/-! ### Start-up (14 R478 to R480; 16 R507) -/

/-- Event 0x0A01 of a stage that ends after its limit. -/
def stageTold (t : Nat) (s : Sw) : Sw :=
  if stageLimit s.glb.stage < t then holdEvent 0x0A01 (le 1 s.glb.stage ++ le 4 (t - s.glb.stageMs)) s else s
theorem stageTold_keeps (t : Nat) (s : Sw) : Sw.keeps [.held] s (stageTold t s) := by
  unfold stageTold
  split
  · exact holdEvent_keeps (by decide) (.refl _ s)
  · exact .refl _ s
@[simp] theorem stageTold_glb (t : Nat) (s : Sw) : (stageTold t s).glb = s.glb := by
  unfold stageTold
  split <;> rfl
@[simp] theorem stageTold_sec (t : Nat) (s : Sw) : (stageTold t s).sec = s.sec := ((stageTold_keeps t s) .sec (by decide)).symm
/-- The end of a stage is recorded in ms from time 0. -/
def stageTimed (t : Nat) (s : Sw) : Sw := s.modGlb fun g => { g with stageMs := t }
theorem stageTimed_keeps {ps : List Piece} {t : Nat} {a s : Sw} (hk : partsIn [.glb] ps = true) (h : Sw.keeps ps a s) :
    Sw.keeps ps a (stageTimed t s) := modGlb_keeps hk (fun _ => rfl) (fun _ => rfl) h

section
variable {f : Fuses} {t : Nat} {r : StageResults} {s : Sw}

theorem stageDone_root (h : s.glb.stage = 1) : stageDone f t r s = stageTimed t (afterRoot f (stageTold t s)) := by
  simp only [stageDone, stageTold, h]
  rfl
theorem stageDone_selfTest (h : s.glb.stage = 2) : stageDone f t r s = stageTimed t (afterSelfTest r (stageTold t s)) := by
  simp only [stageDone, stageTold, h]
  rfl
theorem stageDone_memory (h : s.glb.stage = 3) : stageDone f t r s = stageTimed t (afterMemory r (stageTold t s)) := by
  simp only [stageDone, stageTold, h]
  rfl
theorem stageDone_ports (h : s.glb.stage = 4) : stageDone f t r s = stageTimed t (afterPorts t (stageTold t s)) := by
  simp only [stageDone, stageTold, h]
  rfl
theorem stageDone_waitRef (h : s.glb.stage = 6) :
    stageDone f t r s = if s.glb.refOk then stageTimed t (enterSelfTest s) else s := by
  simp only [stageDone, h]
  rfl
theorem stageDone_stands (h : s.glb.stage = 0 ∨ s.glb.stage = 5 ∨ (s.glb.stage = 6 ∧ s.glb.refOk = false)) : stageDone f t r s = s := by
  rcases h with h | h | ⟨h, href⟩
  · simp only [stageDone, h]
  · simp only [stageDone, h]
  · simp [stageDone_waitRef h, href]

/-! The image that starts (16 R507) -/

theorem startImage_sec (f : Fuses) (s : Sw) : (startImage f s).sec.recovery = false ∧
    (startImage f s).sec.runVersion = (s.sec.slot s.sec.activeB).version ∧ (startImage f s).sec.activeB = s.sec.activeB ∧
    (startImage f s).sec.tries = (if s.sec.trial then s.sec.tries + 1 else s.sec.tries) := ⟨rfl, rfl, rfl, rfl⟩
theorem startImage_glb (f : Fuses) (s : Sw) : (startImage f s).glb = s.glb := rfl
/-- A valid ACTIVE image that is not in its third trial starts. -/
theorem selectImage_active (h : (s.sec.slot s.sec.activeB).ok f = true) (htrial : s.sec.trial = true → s.sec.tries ≠ 2) :
    selectImage f s = startImage f s := by
  cases ht : s.sec.trial with
  | false => simp [selectImage, ht, h]
  | true => simp [selectImage, ht, h, htrial ht]
/-- With neither image valid recovery begins. -/
theorem selectImage_recovers (hA : s.sec.slotA.ok f = false) (hB : s.sec.slotB.ok f = false) :
    (selectImage f s).sec.recovery = true ∧ (selectImage f s).glb = s.glb := by
  have hslot (c : Sec) (hcA : c.slotA = s.sec.slotA) (hcB : c.slotB = s.sec.slotB) (b : Bool) : (c.slot b).ok f = false := by
    cases b <;> simp [Sec.slot, hcA, hcB, hA, hB]
  by_cases ht : (s.sec.trial && decide (s.sec.tries = 2)) = true <;> simp [selectImage, ht, hslot, holdEvent]
theorem afterRoot_starts (h : (s.sec.slot s.sec.activeB).ok f = true) (htrial : s.sec.trial = true → s.sec.tries ≠ 2) :
    afterRoot f s = if s.glb.refOk then enterSelfTest (startImage f s) else (startImage f s).modGlb fun g => { g with stage := 6 } := by
  simp only [afterRoot, selectImage_active h htrial, (startImage_sec f s).1, startImage_glb, Bool.false_eq_true, if_false]
theorem afterRoot_recovers (hA : s.sec.slotA.ok f = false) (hB : s.sec.slotB.ok f = false) : afterRoot f s = selectImage f s :=
  if_pos (selectImage_recovers hA hB).1
theorem enterSelfTest_sec (s : Sw) : (enterSelfTest s).sec = s.sec := by
  dsimp only [enterSelfTest]
  split <;> rfl
end

/-! The tiles that pass their test (01 R15) -/

theorem SMap.find?_mapKeys {β : Type} (f : Nat → β) (k : Nat) (l : List Nat) :
    SMap.find? k (l.map fun p => (p, f p)) = if k ∈ l then some (f k) else none := by
  induction l with
  | nil => rfl
  | cons j l ih =>
    rw [List.map_cons, SMap.find?, ih]
    by_cases hj : j = k
    · simp [hj]
    · simp [hj, Ne.symm hj]
theorem each_of_fixed_mem {α : Type} {f : α → Sw → Sw} {s : Sw} (l : List α) (h : ∀ a ∈ l, f a s = s) : each l f s = s := by
  induction l with
  | nil => rfl
  | cons a l ih => exact (congrArg (each l f) (h a List.mem_cons_self)).trans (ih fun b hb => h b (List.mem_cons_of_mem a hb))
/-- The result of the self-test, before what failed is quarantined. -/
def Sw.tilesTested (r : StageResults) (s : Sw) : Sw := s.setTiles ((List.range 144).map fun p => (p, { s.tile p with
  selfTest := (s.tile p).role != .fused && !r.tilesFailed.contains p }))
theorem Sw.tilesTested_tile {p : Nat} (r : StageResults) (s : Sw) (hp : p < 144) : (s.tilesTested r).tile p =
    { s.tile p with selfTest := (s.tile p).role != .fused && !r.tilesFailed.contains p } := by
  have hfind : SMap.find? p (s.tilesTested r).tiles = some { s.tile p with
      selfTest := (s.tile p).role != .fused && !r.tilesFailed.contains p } :=
    (SMap.find?_mapKeys _ p _).trans (if_pos (List.mem_range.2 hp))
  rw [Sw.tile, SMap.getD, hfind]
  rfl
theorem Sw.tilesTested_outOfServiceOf (r : StageResults) (s : Sw) (g : Nat) : (s.tilesTested r).outOfServiceOf g = s.outOfServiceOf g := by
  have hphys (q : Nat) : (s.tilesTested r).physOf q = s.physOf q := by
    refine List.find?_congr fun p hp => ?_
    rw [Sw.tilesTested_tile r s (List.mem_range.1 hp)]
  have hactive (q : Nat) : (s.tilesTested r).quadActive q = s.quadActive q := rfl
  simp only [Sw.outOfServiceOf, Sw.inService, hphys, hactive]
/-- With no tile failed and every logical tile in service the test moves no tile. -/
theorem afterSelfTest_passes {r : StageResults} {s : Sw} (hr : r.tilesFailed = []) (ho : ∀ g, g < 4 → s.outOfServiceOf g = none) :
    afterSelfTest r s = (s.tilesTested r).modGlb fun g => { g with stage := 3 } := by
  have hreturn : each (List.range 4) (fun g s => each (List.range 4) (fun _ s => tileReturn g s) s) (s.tilesTested r) = s.tilesTested r :=
    each_of_fixed_mem _ fun g hg => each_of_fixed_mem _ fun _ _ =>
      tileReturn_none ((s.tilesTested_outOfServiceOf r g).trans (ho g (List.mem_range.1 hg)))
  have hquarantine : each r.tilesFailed (fun p s => quarantine p 2 s) (s.tilesTested r) = s.tilesTested r := by
    rw [hr]
    rfl
  dsimp only [afterSelfTest]
  rw [← Sw.tilesTested, hquarantine, hreturn]

/-! The end of PORTS (14 R478, R484) -/

/-- The switch on which start-up creates context 0. -/
def portsEnded (t : Nat) (s : Sw) : Sw := s.modGlb fun g => { g with stage := 5, startTime := BitVec.ofNat 16 t }
/-- The switch with context 0: the host link rises with PERST_N and event 0x0A00 waits. -/
def seedingTold (t : Nat) (s : Sw) : Sw :=
  let s := s.modHost fun h => { h with linkUp := h.perstN }
  holdEvent 0x0A00 (le 1 s.glb.kind ++ le 1 s.glb.cause ++ le 4 t ++ le 4 s.sec.runVersion) s
/-- A trial image is committed (16 R507). -/
def trialCommitted (s : Sw) : Sw :=
  if s.sec.trial then
    holdEvent 0x0C04 (le 1 (b2n s.sec.activeB) ++ le 4 s.sec.runVersion) (s.modSec fun c => { c with trial := false, tries := 0 })
  else s
/-- The event of the trip that turned the module off. -/
def tripTold (s : Sw) : Sw :=
  match s.pwr.trip with
  | some (k, v, g) =>
    if s.glb.cause = 8 then
      holdEvent 0x0B14 (le 1 (k / 256) ++ le 2 (k % 256) ++ le 1 v.toNat ++ le 8 g.toNat) (s.modPwr fun p => { p with trip := none })
    else s
  | none => s
theorem afterPorts_eq (t : Nat) (s : Sw) :
    afterPorts t s = tripTold (trialCommitted (seedingTold t (seedCtx (portsEnded t s)))) := rfl
theorem modLinkUp_keeps {ps : List Piece} (p u : HostIf → Bool) {a s : Sw} (hk : partsIn [.hostLink] ps = true) (h : Sw.keeps ps a s) :
    Sw.keeps ps a (s.modHost fun x => { x with perstN := p x, linkUp := u x }) :=
  modHost_keeps (.inr fun _ => rfl) (.inr fun _ => rfl) (.inr fun _ => rfl) (.inr fun _ => rfl) (.inr fun _ => rfl)
    (.inl (partsIn_mem hk (by decide))) (.inr fun _ => rfl) (.inr fun _ => rfl) (.inr fun _ => rfl) (.inr fun _ => rfl) h
theorem seedingTold_keeps {ps : List Piece} {t : Nat} {a s : Sw} (hk : partsIn [.hostLink, .held] ps = true) (h : Sw.keeps ps a s) :
    Sw.keeps ps a (seedingTold t s) :=
  holdEvent_keeps (partsIn_trans (by decide) hk) (modLinkUp_keeps HostIf.perstN HostIf.perstN (partsIn_trans (by decide) hk) h)
theorem trialCommitted_keeps {ps : List Piece} {a s : Sw} (hk : partsIn [.sec, .held] ps = true) (h : Sw.keeps ps a s) :
    Sw.keeps ps a (trialCommitted s) := by
  unfold trialCommitted
  split
  · exact holdEvent_keeps (partsIn_trans (by decide) hk) (modSec_keeps (partsIn_trans (by decide) hk) h)
  · exact h
theorem tripTold_keeps {ps : List Piece} {a s : Sw} (hk : partsIn [.pwr, .held] ps = true) (h : Sw.keeps ps a s) :
    Sw.keeps ps a (tripTold s) := by
  unfold tripTold
  split
  · split
    · exact holdEvent_keeps (partsIn_trans (by decide) hk) (modPwr_keeps (partsIn_trans (by decide) hk) h)
    · exact h
  · exact h
theorem afterPorts_keeps_seeded (t : Nat) (s : Sw) :
    Sw.keeps [.hostLink, .held, .sec, .pwr] (seedCtx (portsEnded t s)) (afterPorts t s) :=
  afterPorts_eq t s ▸ tripTold_keeps (by decide) (trialCommitted_keeps (by decide) (seedingTold_keeps (by decide) (.refl _ _)))
theorem stageTimed_stage (t : Nat) (s : Sw) : (stageTimed t s).glb.stage = s.glb.stage := rfl
theorem stageTimed_stageMs (t : Nat) (s : Sw) : (stageTimed t s).glb.stageMs = t := rfl
theorem afterSelfTest_stage (r : StageResults) (s : Sw) : (afterSelfTest r s).glb.stage = 3 := by
  dsimp only [afterSelfTest, Sw.modGlb_glb]
theorem afterMemory_stage (r : StageResults) (s : Sw) : (afterMemory r s).glb.stage = 4 := by
  dsimp only [afterMemory, enterPorts, Sw.modGlb_glb]
/-- The general block but for the times of the events. -/
theorem glb_of_keeps_upto {ps : List Piece} {a b : Sw} (h : Sw.keeps ps a b) (hg : Piece.glb ∉ ps) :
    b.glb = { a.glb with evTimes := b.glb.evTimes } := by
  have h1 : { a.glb with evTimes := [] } = { b.glb with evTimes := [] } := h .glb hg
  calc b.glb = { { b.glb with evTimes := [] } with evTimes := b.glb.evTimes } := rfl
    _ = { a.glb with evTimes := b.glb.evTimes } := by rw [← h1]
/-- What the end of PORTS may change beside the general block. -/
def seedParts : List Piece := [.evTimes, .time, .rings, .evqs, .msix, .portMap, .portCnt, .portQ, .pool, .ctxs, .outs, .freeCtr,
  .hostLink, .held, .sec, .pwr]
/-- Settles O45: `stageDone` by the stage that ends. -/
theorem startUpRule : Obligations.StartUpRule := by
  unfold Obligations.StartUpRule
  refine ⟨?root, ?recovery, ?waitRef, ?stands, ?selfTest, ?memory, ?ports, ?perst⟩
  case root =>
    intro s m r h hok htrial
    have hrun : stageDone s.fuses m r s.sw = stageTimed m (afterRoot s.fuses (stageTold m s.sw)) := stageDone_root h
    refine runsTo_of_lift (stageDone s.fuses m r) rfl ?_ ?_
    all_goals rw [hrun]
    · exact stageTimed_keeps (by decide) (afterRoot_keeps (by decide) ((stageTold_keeps m s.sw).mono (by decide)))
    · obtain ⟨hrec, hver, hact, htries⟩ := startImage_sec s.fuses (stageTold m s.sw)
      rw [stageTold_sec] at hver hact htries
      rw [afterRoot_starts (by simpa using hok) (by simpa using htrial), stageTold_glb]
      cases hr : s.sw.glb.refOk
      · exact ⟨rfl, rfl, hrec, hver, hact, htries⟩
      · rw [if_pos rfl]
        refine ⟨?_, rfl, ?_, ?_, ?_, ?_⟩
        · rw [stageTimed, Sw.modGlb_glb, enterSelfTest_glb, if_pos rfl]
        all_goals rw [stageTimed, Sw.modGlb_sec, enterSelfTest_sec]
        exacts [hrec, hver, hact, htries]
  case recovery =>
    intro s m r h hA hB
    have hrun : stageDone s.fuses m r s.sw = stageTimed m (afterRoot s.fuses (stageTold m s.sw)) := stageDone_root h
    obtain ⟨hrec, hglb⟩ := selectImage_recovers (f := s.fuses) (s := stageTold m s.sw) (by simpa using hA) (by simpa using hB)
    refine runsTo_of_lift (stageDone s.fuses m r) rfl ?_ ?_
    all_goals rw [hrun]
    · exact stageTimed_keeps (by decide) (afterRoot_keeps (by decide) ((stageTold_keeps m s.sw).mono (by decide)))
    · rw [afterRoot_recovers (by simpa using hA) (by simpa using hB), stageTimed, Sw.modGlb_glb, Sw.modGlb_sec, hglb, stageTold_glb]
      exact ⟨h, hrec⟩
  case waitRef =>
    intro s m r h href
    have hrun : stageDone s.fuses m r s.sw = stageTimed m (enterSelfTest s.sw) := (stageDone_waitRef h).trans (if_pos href)
    refine runsTo_of_lift (stageDone s.fuses m r) rfl ?_ ?_
    all_goals rw [hrun]
    · exact stageTimed_keeps (by decide) (enterSelfTest_keeps (by decide) (.refl _ _))
    · rw [stageTimed, Sw.modGlb_glb, enterSelfTest_glb]
      exact ⟨rfl, rfl, rfl⟩
  case stands => exact fun s m r h => stays_of_lift (stageDone s.fuses m r) rfl (stageDone_stands h)
  case selfTest =>
    intro s m r h
    refine ⟨_, becomes_of_lift (stageDone s.fuses m r) rfl (stageDone_selfTest h),
      (stageTimed_stage m _).trans (afterSelfTest_stage r _), stageTimed_stageMs m _, fun hr ho p hp => ?_⟩
    have htile (k : Nat) : (stageTold m s.sw).tile k = s.sw.tile k := tile_of_keeps (stageTold_keeps m s.sw) (by decide) (by decide) k
    have hserved (g : Nat) (hg : g < 4) : (stageTold m s.sw).outOfServiceOf g = none :=
      (outOfServiceOf_congr (by simp) (fun k => by simp [htile]) g).trans (ho g hg)
    have hp' : (stageTimed m (afterSelfTest r (stageTold m s.sw))).tile p = ((stageTold m s.sw).tilesTested r).tile p := by
      rw [afterSelfTest_passes hr hserved]
      rfl
    rw [hp', Sw.tilesTested_tile _ _ hp, htile, hr]
    exact ⟨rfl, Bool.and_true _⟩
  case memory => exact fun s m r h => ⟨_, becomes_of_lift (stageDone s.fuses m r) rfl (stageDone_memory h),
    (stageTimed_stage m _).trans (afterMemory_stage r _), stageTimed_stageMs m _⟩
  case ports =>
    intro s m r h
    have htold := stageTold_keeps m s.sw
    have hkeeps := afterPorts_keeps_seeded m (stageTold m s.sw)
    have hall := (seedCtx_keeps (ps := seedParts) (by decide) (.refl _ (portsEnded m (stageTold m s.sw)))).trans
      (hkeeps.mono (qs := seedParts) (by decide))
    have hrun : becomes (.startupStageDone m r) s (stageTimed m (afterPorts m (stageTold m s.sw))) :=
      becomes_of_lift (stageDone s.fuses m r) rfl (stageDone_ports h)
    generalize afterPorts m (stageTold m s.sw) = t at hrun hkeeps hall
    have hglb := glb_of_keeps_upto hall (by decide)
    refine ⟨_, portsEnded m (stageTold m s.sw), hrun, (stageTimed_stage m t).trans (congrArg Glb.stage hglb), congrArg Glb.startTime hglb,
      (htold .ctxs (by decide)).symm, (htold .pool (by decide)).symm, (hkeeps .ctxs (by decide)).symm,
      ((htold .jobs (by decide)).trans (hall .jobs (by decide))).symm⟩
  case perst =>
    intro s
    refine runsTo_of_lift _ rfl (modLinkUp_keeps (fun _ => true) (fun _ => s.sw.glb.pwrgd && !s.sw.sec.recovery) (by decide) (.refl _ _)) ?_
    exact ⟨rfl, by simp⟩
end Sys2Proof.Machine
end


section
/-! PROOFS. The power sequence and wear (O46, O48). -/
namespace Sys2Proof.Machine

/-! ### Rails (14 R472; 19 R567, R568) -/

theorem railsOff_off (st : ModSt) (next : Nat) (s : Sw) : (railsOff st next s).glb.pwrgd = false ∧ (railsOff st next s).glb.stage = 0 ∧
    (railsOff st next s).glb.colds = s.glb.colds ∧ (railsOff st next s).ctxs = [] ∧ (railsOff st next s).pwr.mod = st ∧
    (railsOff st next s).pwr.nextCause = next ∧ (railsOff st next s).pwr.vin = s.pwr.vin := ⟨rfl, rfl, rfl, rfl, rfl, rfl, rfl⟩
/-- The rail faults within the last 60 s (19 R568). -/
def Sw.recentFaults (s : Sw) : List Nat := s.pwr.railFaults.filter fun t => decide (s.now - t ≤ 60000000000)
theorem railFault_early {s : Sw} (h : s.recentFaults.length < 2) : railFault s =
    (railsOff .sequencing 7 (s.modPwr fun p => { p with railFaults := s.recentFaults ++ [s.now] })).modPwr fun p => { p with faultWait := true } := by
  have hlen : ¬ 3 ≤ (s.recentFaults ++ [s.now]).length := by
    rw [List.length_append, List.length_singleton]
    omega
  exact if_neg hlen
theorem railFault_third {s : Sw} (h : 2 ≤ s.recentFaults.length) :
    railFault s = railsOff .offHeld 7 (s.modPwr fun p => { p with railFaults := s.recentFaults ++ [s.now] }) := by
  have hlen : 3 ≤ (s.recentFaults ++ [s.now]).length := by
    rw [List.length_append, List.length_singleton]
    omega
  exact if_pos hlen
theorem railFault_off (s : Sw) : (railFault s).glb.pwrgd = false ∧ (railFault s).glb.stage = 0 ∧ (railFault s).pwr.nextCause = 7 ∧
    (railFault s).ctxs = [] := by
  rcases Nat.lt_or_ge s.recentFaults.length 2 with h | h
  · rw [railFault_early h]
    exact ⟨rfl, rfl, rfl, rfl⟩
  · rw [railFault_third h]
    exact ⟨rfl, rfl, rfl, rfl⟩
theorem faultIfPowered_on {s : Sw} (h : s.pwr.mod = .on ∨ s.pwr.mod = .sequencing) : faultIfPowered s = railFault s := by
  rcases h with h | h <;> simp [faultIfPowered, h]

/-! ### The profile in force (15 R489) -/

theorem raiseSys_pwr (code : Nat) (content : List Byte) (s : Sw) : (raiseSys code content s).pwr = s.pwr :=
  ((raiseSys_keeps (ps := evParts) (by decide) (.refl _ s)) .pwr (by decide)).symm
theorem setClock_pwr (taken limit cause : Nat) (s : Sw) : (setClock taken limit cause s).pwr = s.pwr :=
  ((setClock_keeps (ps := parts12) (by decide) (.refl _ s)) .pwr (by decide)).symm
theorem setProfile_pwr (w : Nat) (s : Sw) : (setProfile w s).pwr = { s.pwr with inForce := w } := by
  rw [setProfile, raiseSys_pwr, setClock_pwr]
  rfl
/-- The profile rises to the highest-numbered candidate when that lies above it. -/
theorem profileRise_pwr (s : Sw) : (profileRise s).pwr = { s.pwr with inForce := max s.pwr.inForce s.pwr.want } := by
  unfold profileRise
  split
  · next h => rw [setProfile_pwr, Nat.max_eq_right h.le]
  · next h => rw [Nat.max_eq_left (Nat.not_lt.1 h)]
theorem ibcFloor_le_want (p : Pwr) : ibcFloor p.ibcOut ≤ p.want := (Nat.le_max_right _ _).trans (Nat.le_max_right _ _)

/-! ### Converters (15 R486) -/

/-- One more converter out of service is at most one more bit. -/
theorem bitsOf_setBit_length {n : Nat} (v : BitVec n) {c : Nat} (h : c < n) : (bitsOf (setBit v c)).length ≤ (bitsOf v).length + 1 := by
  have hsub : bitsOf (setBit v c) ⊆ c :: bitsOf v := by
    intro i hi
    simp only [bitsOf, List.mem_filter, getLsbD_setBit v h, Bool.or_eq_true, decide_eq_true_eq] at hi
    rcases hi with ⟨hn, hv | rfl⟩
    · exact List.mem_cons_of_mem _ (List.mem_filter.2 ⟨hn, hv⟩)
    · exact List.mem_cons_self
  exact ((List.nodup_range.filter _).subperm hsub).length_le
/-- A converter lost with at least four left raises the event and the profile. -/
theorem converterLost_profile {s : Sw} {c cause : Nat} (hc : c < 8) (hout : s.pwr.ibcOut.getLsbD c = false) (hon : s.pwr.mod = .on)
    (hlen : (bitsOf s.pwr.ibcOut).length ≤ 3) : ∃ k, converterLost c cause s =
      profileRise (raiseSys 0x0B04 (le 1 c ++ le 1 cause ++ le 4 k) (s.modPwr fun p => { p with ibcOut := setBit p.ibcOut c })) := by
  have hserv : (8 ≤ c || s.pwr.ibcOut.getLsbD c || s.pwr.mod != .on) = false := by
    rw [hout, hon, Bool.or_false]
    simpa using hc
  have hleft : ¬ 8 - (bitsOf (setBit s.pwr.ibcOut c)).length ≤ 3 := by
    have := bitsOf_setBit_length s.pwr.ibcOut hc
    omega
  refine ⟨8 - (bitsOf (setBit s.pwr.ibcOut c)).length, ?_⟩
  simp only [converterLost, hserv, Bool.false_eq_true, if_false, Sw.modPwr_pwr, hleft]
/-- Settles O46: each row of the power sequence by the module's state. -/
theorem powerSequenceRule : Obligations.PowerSequenceRule := by
  unfold Obligations.PowerSequenceRule
  refine ⟨?up, ?waits, ?bad, ?restart, ?restored, ?low, ?lossOn, ?lossSeq, ?excess, ?fault, ?converter, ?again⟩
  case up =>
    intro s hseq hwait
    have hrun : powerOn true s.sw = railsUp s.sw := by simp [powerOn, hseq, hwait]
    refine runsTo_of_lift (powerOn true) rfl ?_ ?_
    all_goals rw [hrun]
    · exact railsUp_keeps (by decide) (.refl _ _)
    · exact ⟨rfl, rfl, rfl, rfl, rfl, rfl⟩
  case waits =>
    intro s g h
    refine stays_of_lift (powerOn g) rfl (if_pos ?_)
    rcases h with h | h <;> simp [h]
  case bad => exact fun s hseq hwait => becomes_of_lift (powerOn false) rfl (by simp [powerOn, hseq, hwait])
  case restart => exact fun s => runsTo_of_lift _ rfl (modPwr_keeps (by decide) (.refl _ _)) rfl
  case restored =>
    intro s
    refine runsTo_of_lift inputBack rfl (inputBack_keeps (by decide) (.refl _ _)) ?_
    cases hm : s.sw.pwr.mod <;> cases hg : s.sw.pwr.inputGone <;> simp [inputBack, hm, hg]
  case low =>
    intro s mv
    have hkeeps : Sw.keeps [.evTimes, .evqs, .msix, .outs] (s.sw.modPwr fun p => { p with vin := mv }) (inputLow mv s.sw) := by
      unfold inputLow
      exact keeps_ite (limited_keeps (by decide) (fun _ _ h => raiseSys_keeps (by decide) h) (.refl _ _)) (.refl _ _)
    exact runsTo_of_lift (inputLow mv) rfl (inputLow_keeps (by decide) (.refl _ _)) (hkeeps .pwr (by decide)).symm
  case lossOn =>
    intro s mv hon
    have hrun : inputLoss mv s.sw = railsOff .offInput 0 (s.sw.modPwr fun p => { p with vin := mv }) := by simp [inputLoss, hon]
    exact ⟨_, becomes_of_lift (inputLoss mv) rfl hrun, rfl, rfl, rfl, rfl, rfl, rfl, rfl⟩
  case lossSeq =>
    intro s mv hseq
    have hrun : inputLoss mv s.sw = (s.sw.modPwr fun p => { p with vin := mv }).modPwr fun p =>
        { p with mod := .offInput, faultWait := false } := by simp [inputLoss, hseq]
    refine runsTo_of_lift (inputLoss mv) rfl ?_ ?_
    all_goals rw [hrun]
    · exact modPwr_keeps (by decide) (modPwr_keeps (by decide) (.refl _ _))
    · exact ⟨rfl, rfl⟩
  case excess =>
    intro s x h
    exact ⟨becomes_of_lift (fun w => faultIfPowered (w.modPwr fun p => { p with vin := x })) rfl (faultIfPowered_on h),
      becomes_of_lift (fun w => faultIfPowered (w.modPwr fun p => { p with iin := x })) rfl (faultIfPowered_on h)⟩
  case fault =>
    intro s
    obtain ⟨hpwrgd, hstage, hcause, hctxs⟩ := railFault_off s
    refine ⟨hpwrgd, hstage, hcause, hctxs, fun h => ?_, fun h => ?_⟩
    · rw [railFault_early h]
      exact ⟨rfl, rfl⟩
    · rw [railFault_third h]
      rfl
  case converter =>
    intro s c cause hc hout hon hlen
    obtain ⟨k, hrun⟩ := converterLost_profile (cause := cause) hc hout hon hlen
    refine runsTo_of_lift (converterLost c cause) rfl ?_ ?_
    all_goals rw [hrun]
    · exact profileRise_keeps (by decide) (raiseSys_keeps (by decide) (modPwr_keeps (by decide) (.refl _ _)))
    · rw [profileRise_pwr, raiseSys_pwr]
      exact ⟨rfl, hon, Nat.le_max_left _ _, (ibcFloor_le_want _).trans (Nat.le_max_right _ _)⟩
  case again => exact fun s c cause h => stays_of_lift (converterLost c cause) rfl (if_pos (by simp [h]))

/-! ### Wear (15 R497 to R500) -/

theorem Sw.modEntry_wearOf (s : Sw) (i k : Nat) (f : Wear → Wear) : (s.modEntry i f).wearOf k = if k = i then f (s.wearOf i) else s.wearOf k :=
  SMap.getD_set i k _ _ _
/-- A second of entry i: its age and its day's sum grow by the factor of its kind and temperature. -/
def ageEntry (i : Nat) (s : Sw) : Sw := s.modEntry i (Wear.second (accel (wearKind i) (s.wearTemp i)))
/-- A second of each of several entries: it is counted once, and no other register of the block changes. -/
theorem ageEntries (l : List Nat) (hl : l.Nodup) (s : Sw) : (each l ageEntry s).wear.secs = s.wear.secs ∧
    (each l ageEntry s).wear.poh = s.wear.poh ∧ ∀ k, (each l ageEntry s).wearOf k =
      if k ∈ l then Wear.second (accel (wearKind k) (s.wearTemp k)) (s.wearOf k) else s.wearOf k := by
  induction l generalizing s with
  | nil => exact ⟨rfl, rfl, fun _ => rfl⟩
  | cons i l ih =>
    obtain ⟨hi, hl⟩ := List.nodup_cons.1 hl
    obtain ⟨hsecs, hpoh, hage⟩ := ih hl (ageEntry i s)
    refine ⟨hsecs, hpoh, fun k => (hage k).trans ?_⟩
    have htemp : (ageEntry i s).wearTemp k = s.wearTemp k := rfl
    rw [htemp, ageEntry, Sw.modEntry_wearOf]
    by_cases hk : k = i
    · subst hk
      simp [hi]
    · simp [hk]
/-- The entries of the components that are present. -/
def Sw.wearing (s : Sw) : List Nat := (List.range 753).filter s.wearPresent
theorem wearSecond_eq (s : Sw) : wearSecond s = (each s.wearing ageEntry s).modWear fun w => { w with
    secs := w.secs + 1, utc := if w.utcSet then w.utc + 1 else w.utc, poh := if (w.secs + 1) % 3600 = 0 then w.poh + 1 else w.poh } := rfl
/-- At 55 C the exponent is 0. -/
theorem accel_reference (kind : Nat) : accel kind (8 * 55) = 2 ^ 20 := by
  have hexp (den : Int) : expFixed 0 den = expFixed 0 1 := by simp [expFixed]
  have hone : expFixed 0 1 = 2 ^ 20 := by decide
  have hnum : (wearEa kind : Int) * 2000000000 * (25 * (8 * 55) + 54630 - 65630) = 0 := by omega
  have hpos : ¬ (25 * (8 * 55) + 54630 : Int) ≤ 0 := by decide
  simp only [accel, hpos, if_false, hnum, hexp, hone]
/-- The event of an entry whose state has changed. -/
def sampleTold (i old : Nat) (s : Sw) : Sw := if (s.wearOf i).state = old then s else wearEvent i (s.wearOf i) s
theorem sampleTold_wear (i old : Nat) (s : Sw) : (sampleTold i old s).wear = s.wear :=
  have hkeeps : Sw.keeps evParts s (sampleTold i old s) := keeps_ite (.refl _ _) (wearEvent_keeps (by decide) (.refl _ _))
  (hkeeps .wear (by decide)).symm
/-- The daily sample of one present entry. -/
theorem wearDaily_one {s : Sw} {i : Nat} (ind : Int) (h : s.wearPresent i = true) :
    (wearDaily [(i, ind)] s).wear = { (s.modEntry i (Wear.sample i ind)).wear with secs := 0 } := by
  have hl : [(i, ind)].filter (fun e => s.wearPresent e.1) = [(i, ind)] := by simp [h]
  have hrun : wearDaily [(i, ind)] s =
      (sampleTold i (s.wearOf i).state (s.modEntry i (Wear.sample i ind))).modWear fun w => { w with secs := 0 } := by
    unfold wearDaily
    rw [hl]
    rfl
  rw [hrun, Sw.modWear_wear, sampleTold_wear]
/-- Settles O48: each entry in its turn; a sample is the head of the list it joins. -/
theorem wearRule : Obligations.WearRule := by
  unfold Obligations.WearRule
  refine ⟨?second, accel_reference, ?daily⟩
  case second =>
    intro s
    have hmem (i : Nat) : i ∈ s.sw.wearing ↔ i < 753 ∧ s.sw.wearPresent i = true := by
      rw [Sw.wearing, List.mem_filter, List.mem_range]
    obtain ⟨hsecs, hpoh, hage⟩ := ageEntries s.sw.wearing (List.nodup_range.filter _) s.sw
    refine runsTo_of_lift wearSecond rfl (wearSecond_keeps (by decide) (.refl _ _)) ?_
    rw [wearSecond_eq]
    generalize each s.sw.wearing ageEntry s.sw = t at hsecs hpoh hage
    refine ⟨congrArg (· + 1) hsecs, ?_, fun i hi hp => ?_, fun i hi => ?_⟩
    · rw [← hsecs, ← hpoh]
      rfl
    · exact (hage i).trans (if_pos ((hmem i).2 ⟨hi, hp⟩))
    · refine (hage i).trans (if_neg fun h => ?_)
      obtain ⟨hlt, hpres⟩ := (hmem i).1 h
      rcases hi with hi | hi
      · exact Bool.false_ne_true (hi.symm.trans hpres)
      · omega
  case daily =>
    intro s i ind hp
    have hwear := wearDaily_one ind hp
    have hentry (k : Nat) : (wearDaily [(i, ind)] s.sw).wearOf k = if k = i then Wear.sample i ind (s.sw.wearOf i) else s.sw.wearOf k := by
      rw [Sw.wearOf, hwear]
      exact Sw.modEntry_wearOf _ _ _ _
    have hself := (hentry i).trans (if_pos rfl)
    refine runsTo_of_lift (wearDaily [(i, ind)]) rfl (wearDaily_keeps (by decide) (.refl _ _)) ?_
    rw [hself, hwear]
    refine ⟨rfl, ?_, rfl, rfl, rfl, rfl, rfl, fun k hk => ((hentry k).trans (if_neg hk)).symm⟩
    exact List.length_take
end Sys2Proof.Machine
end


section
/-! PROOFS. Offsets without a register, and the keys of a port (O55, O54). -/
namespace Sys2Proof.Machine

/-! ### Offsets without a register (18 R542) -/

@[simp] theorem countDiscard_host (off cause : Nat) (s : Sw) : (countDiscard off cause s).host = s.host := rfl
@[simp] theorem countDiscard_now (off cause : Nat) (s : Sw) : (countDiscard off cause s).now = s.now := rfl
/-- A write discarded within a millisecond of the last event for its offset is counted only. -/
theorem regDiscard_counted {off t : Nat} {s : Sw} (h : SMap.find? off s.host.last0106 = some t) (hlt : s.now - t < ms) (func v cause : Nat) :
    regDiscard func off v cause s = countDiscard off cause s := by
  simp [regDiscard, h, Nat.not_le.2 hlt]
/-- Any other is told. -/
theorem regDiscard_told {off : Nat} {s : Sw} (h : ∀ t, SMap.find? off s.host.last0106 = some t → ms ≤ s.now - t) (func v cause : Nat) :
    regDiscard func off v cause s = raiseSys 0x0106 (le 4 off ++ le 4 v ++ le 1 func)
      ((countDiscard off cause s).modHost fun h => { h with last0106 := h.last0106.set off s.now }) := by
  cases ht : SMap.find? off s.host.last0106 with
  | none => simp [regDiscard, ht]
  | some t => simp [regDiscard, ht, h t ht]
/-- Settles O55: a read of such an offset is 0, a write is discarded with cause 2. -/
theorem reservedOffsetRule : Obligations.ReservedOffsetRule := by
  unfold Obligations.ReservedOffsetRule
  rintro s off v u hreach hoff halign hruns hnone rfl
  have hcount : countDiscard off 2 s.sw = s.sw.modGlb fun g =>
      { g with discards := g.discards + 1, discardAddr := BitVec.ofNat 32 (off + 2 * 2 ^ 24) } := by
    rw [countDiscard, Nat.mod_eq_of_lt hoff]
    rfl
  have hrun (t : Sw) (ht : regDiscard 0 off v.toNat 2 s.sw = t) : becomes (.registerWrite 0 .bar0 off 4 v) s t :=
    becomes_of_lift (writeOp s.fuses 0 .bar0 off 4 v) rfl
      ((writeOp_bar0 _ hreach).trans ((bar0Write_reserved hoff halign hruns hnone).trans ht))
  refine ⟨loReadLatch_bar0 hreach hoff halign (readWord_reserved hruns hnone), fun t ht hlt => hrun _ ?_, fun h => hrun _ ?_⟩
  · rw [regDiscard_counted ht hlt, hcount]
  · rw [regDiscard_told h, hcount]
    rfl

/-! ### The keys of a port (16 R521) -/

theorem complete_port (t : Tok) (status : Nat) (s : Sw) (k : Nat) : (complete t status s).port k = s.port k :=
  port_of_keeps (complete_keeps (ps := parts13) (by decide) (.refl _ s)) (by decide) k
theorem hostFail_port (t : Tok) (a : Quad) (s : Sw) (k : Nat) : (hostFail t a s).port k = s.port k :=
  port_of_keeps (hostFail_keeps (ps := parts13) (by decide) (.refl _ s)) (by decide) k
theorem raiseHeld_port (code : Nat) (content : List Byte) (s : Sw) (k : Nat) : (raiseHeld code content s).port k = s.port k :=
  port_of_keeps (raiseHeld_keeps (ps := .held :: evParts) (by decide) (.refl _ s)) (by decide) k
theorem keyAct_othersSame {n k : Nat} (h : k ≠ n) (slot action : Nat) (rec : List Byte) (s : Sw) :
    (keyAct n slot action rec s).port k = s.port k := (raiseHeld_port _ _ _ k).trans (Sw.modPort_others s _ h)
/-- Checks that lead to an operation change what it changes. -/
theorem guardDesc_port {f : Sw → Sw} {s : Sw} {k : Nat} (h : (f s).port k = s.port k) (t : Tok) (checks : List (Bool × Nat)) :
    (guardDesc t checks f s).port k = s.port k := by
  unfold guardDesc
  split
  · exact complete_port _ _ _ k
  · exact h
theorem hostGuard_port {f : Sw → Sw} {s : Sw} {k : Nat} (h : (f s).port k = s.port k) (b : Sub) (t : Tok) :
    (hostGuard b t f s).port k = s.port k := by
  unfold hostGuard
  split
  · exact hostFail_port _ _ _ k
  · exact h

section
variable {b : Sub} {t : Tok} {w : Sw}

theorem linkKeyOp_othersSame {k : Nat} (h : k ≠ b.f 8 2) : (linkKeyOp b t w).port k = w.port k := by
  have hact := guardDesc_port (f := fun s => complete t stOk (keyAct (b.f 8 2) (b.bits 10 0 1) (b.f 11 1) b.host s)) (s := w)
    ((complete_port t stOk _ k).trans (keyAct_othersSame h _ _ _ w)) t
    [(b.f 11 1 == 0 && !allZero ((b.host.drop 36).take 28), stBad), (keyDenied w (b.f 8 2) (b.bits 10 0 1) (b.f 11 1), stDenied)]
  refine guardDesc_port ?_ t _
  by_cases hi : (b.f 11 1 == 0) = true
  · rw [if_pos hi]
    exact hostGuard_port hact b t
  · rw [if_neg hi]
    exact hact
/-- The checks of the fields. -/
theorem linkKeyOp_bad (h : w.portActive (b.f 8 2) = false ∨ 2 < b.f 11 1 ∨ b.f 11 1 = 1 ∧ (w.port (b.f 8 2)).sec.key? (b.bits 10 0 1) = none) :
    linkKeyOp b t w = complete t stBad w := by
  refine guardDesc_fails ?_ _ _ _
  rcases h with h | h | ⟨ha, hk⟩
  · simp [firstFail, h]
  · simp [firstFail, h]
  · simp [firstFail, ha, hk]
/-- With fields that pass, the record and the state of the slot decide. -/
theorem linkKeyOp_named {a : Nat} (ha : b.f 11 1 = a)
    (hform : b.only ([by_ 8 2, bi_ 10 0 1, by_ 11 1] ++ (if a = 0 then [by_ 24 8] else [])) = true)
    (hactive : w.portActive (b.f 8 2) = true) (haction : a ≤ 2)
    (hkey : a = 1 → (w.port (b.f 8 2)).sec.key? (b.bits 10 0 1) ≠ none) (hhost : a = 0 → b.hostErr = none) :
    linkKeyOp b t w = guardDesc t [
        (a == 0 && !allZero ((b.host.drop 36).take 28), stBad), (keyDenied w (b.f 8 2) (b.bits 10 0 1) a, stDenied)]
      (fun w => complete t stOk (keyAct (b.f 8 2) (b.bits 10 0 1) a b.host w)) w := by
  subst ha
  have hpass : firstFail [(!b.only ([by_ 8 2, bi_ 10 0 1, by_ 11 1] ++ (if b.f 11 1 == 0 then [by_ 24 8] else [])) ||
      !w.portActive (b.f 8 2) || decide (2 < b.f 11 1) ||
      (b.f 11 1 == 1 && ((w.port (b.f 8 2)).sec.key? (b.bits 10 0 1)).isNone), stBad)] = none := by
    simp only [beq_iff_eq, hform, hactive, firstFail]
    simpa [haction] using hkey
  refine (guardDesc_passes hpass _ _ _).trans ?_
  by_cases h0 : b.f 11 1 = 0
  · simp [h0, hostGuard_good (hhost h0)]
  · simp [h0]
/-- What denies an action on a slot. -/
theorem keyDenied_debug (n slot a : Nat) (h : w.sec.debugOpen = true) : keyDenied w n slot a = true := by simp [keyDenied, h]
theorem keyDenied_activate (n slot : Nat) (h : w.sec.debugOpen = false) : keyDenied w n slot 1 = false := by simp [keyDenied, h]
theorem keyDenied_inUse {n slot a : Nat} (ha : a ≠ 1) (h : w.sec.debugOpen = true ∨ (w.port n).sec.engaged = true ∧
    ((w.port n).sec.txSlot = slot ∨ (w.port n).sec.partnerKp = slot)) : keyDenied w n slot a = true := by
  rcases h with h | ⟨he, h | h⟩
  · exact keyDenied_debug n slot a h
  · simp [keyDenied, ha, he, h]
  · simp [keyDenied, ha, he, h]
theorem keyDenied_free {n slot : Nat} (a : Nat) (h : w.sec.debugOpen = false) (hs : (w.port n).sec.engaged = false ∨
    (w.port n).sec.txSlot ≠ slot ∧ (w.port n).sec.partnerKp ≠ slot) : keyDenied w n slot a = false := by
  rcases hs with he | ⟨ht, hp⟩
  · simp [keyDenied, h, he]
  · simp [keyDenied, h, ht, hp]
end
/-- Settles O54: the fields of the descriptor, then the record and the slot. -/
theorem linkKeyRule : Obligations.LinkKeyRule := by
  unfold Obligations.LinkKeyRule
  rintro s b n slot hh rfl rfl hform
  have hends (status : Nat) (f : Sw → Sw) (h : linkKeyOp b (descTok 0x92 b s.sw) (descSw 0x92 b s.sw) =
      complete (descTok 0x92 b s.sw) status (f (descSw 0x92 b s.sw))) : endsWith (.linkKey b) s 0x92 b status f :=
    becomes_of_desc linkKeyOp rfl hh h
  have hruns (a : Nat) := linkKeyOp_named (a := a) (b := b) (t := descTok 0x92 b s.sw) (w := descSw 0x92 b s.sw)
  refine ⟨fun h => hends _ id (linkKeyOp_bad h), fun hactive hhost => ?_, fun hactive t ht k hk => ?others⟩
  case others =>
    have hrun := becomes_of_desc (c := .linkKey b) linkKeyOp rfl hh rfl
    injection ht.symm.trans hrun with hst
    exact ((congrArg (fun u : State => u.sw.port k) hst).trans (linkKeyOp_othersSame hk)).symm
  refine ⟨fun h0 hz => hends _ id ?badRecord, fun h0 hz => ⟨fun h => hends _ id ?installDenied, fun h h' => hends _ _ ?install⟩,
    fun h1 hk => ⟨fun h => hends _ id ?activateDenied, fun h => hends _ _ ?activate⟩,
    fun h2 => ⟨fun h => hends _ id ?eraseDenied, fun h h' => hends _ _ ?erase⟩⟩
  case badRecord =>
    have hrun := hruns 0 h0 (by rwa [h0] at hform) hactive (by omega) (by simp) fun _ => hhost h0
    exact hrun.trans (guardDesc_fails (by simp [firstFail, hz]) _ _ _)
  case installDenied =>
    have hrun := hruns 0 h0 (by rwa [h0] at hform) hactive (by omega) (by simp) fun _ => hhost h0
    exact hrun.trans (guardDesc_fails (by simp [firstFail, hz, keyDenied_inUse (w := descSw 0x92 b s.sw) (a := 0) (by decide) h]) _ _ _)
  case install =>
    have hrun := hruns 0 h0 (by rwa [h0] at hform) hactive (by omega) (by simp) fun _ => hhost h0
    exact hrun.trans (guardDesc_passes (by simp [firstFail, hz, keyDenied_free (w := descSw 0x92 b s.sw) 0 h h']) _ _ _)
  case activateDenied =>
    have hrun := hruns 1 h1 (by rwa [h1] at hform) hactive (by omega) (fun _ => hk) (by simp)
    exact hrun.trans (guardDesc_fails (by simp [firstFail, keyDenied_debug (w := descSw 0x92 b s.sw) _ _ _ h]) _ _ _)
  case activate =>
    have hrun := hruns 1 h1 (by rwa [h1] at hform) hactive (by omega) (fun _ => hk) (by simp)
    exact hrun.trans (guardDesc_passes (by simp [firstFail, keyDenied_activate (w := descSw 0x92 b s.sw) _ _ h]) _ _ _)
  case eraseDenied =>
    have hrun := hruns 2 h2 (by rwa [h2] at hform) hactive (by omega) (by simp) (by simp)
    exact hrun.trans (guardDesc_fails (by simp [firstFail, keyDenied_inUse (w := descSw 0x92 b s.sw) (a := 2) (by decide) h]) _ _ _)
  case erase =>
    have hrun := hruns 2 h2 (by rwa [h2] at hform) hactive (by omega) (by simp) (by simp)
    exact hrun.trans (guardDesc_passes (by simp [firstFail, keyDenied_free (w := descSw 0x92 b s.sw) 2 h h']) _ _ _)
end Sys2Proof.Machine
end


section
/-! PROOFS. The SPDM responder (O53). -/
namespace Sys2Proof.Machine

theorem le_one (x : Nat) : le 1 x = [BitVec.ofNat 8 x] := rfl

/-! ### Connections (16 R512) -/

section
variable {i3c : Bool} {req resp : List Byte} {g : Spdm → Spdm} {s : Sw}

theorem modSpdm_same (g : Spdm → Spdm) (s : Sw) : (modSpdm i3c g s).sec.spdm i3c = g (s.sec.spdm i3c) := by cases i3c <;> rfl
theorem modSpdm_other (g : Spdm → Spdm) (s : Sw) : (modSpdm i3c g s).sec.spdm (!i3c) = s.sec.spdm (!i3c) := by cases i3c <;> rfl
theorem spdmAnswer_same : (spdmAnswer i3c req resp g s).sec.spdm i3c =
    { g (s.sec.spdm i3c) with transcript := (g (s.sec.spdm i3c)).transcript ++ req ++ resp } := by
  cases i3c <;> rfl
theorem spdmAnswer_other : (spdmAnswer i3c req resp g s).sec.spdm (!i3c) = s.sec.spdm (!i3c) := by
  cases i3c <;> rfl
theorem spdmAnswer_outs : (spdmAnswer i3c req resp g s).outs = s.outs ++ [.reply i3c resp] := rfl
theorem spdmError_outs (e : Nat) :
    (spdmError i3c e s).outs = s.outs ++ [.reply i3c [BitVec.ofNat 8 (s.sec.spdm i3c).ver, 0x7F, BitVec.ofNat 8 e, 0]] := rfl

/-! ### Checks -/

variable {step len : Nat} {msg : List Byte} {f : Sw → Sw}

theorem spdmDo_unserved (h : spdmServed i3c s = false) (bad : Bool) : spdmDo i3c step len msg bad f s = s := if_pos (by simp [h])
/-- A request in its turn, of the version negotiated. -/
theorem spdmDo_inTurn {bad : Bool} (h : spdmServed i3c s = true) (hlen : len ≤ msg.length) (hstep : (s.sec.spdm i3c).step = step)
    (hver : if step = 1 then byteAt msg 0 = 0x11 ∨ byteAt msg 0 = 0x12 else byteAt msg 0 = (s.sec.spdm i3c).version) (hbad : bad = false) :
    spdmDo i3c step len msg bad f s = f s := by
  have hcheck : spdmCheck i3c step len msg s = none := by
    by_cases h1 : step = 1
    · rw [if_pos h1] at hver
      rcases hver with hver | hver <;> simp [spdmCheck, firstFail, hlen, hstep, h1, hver]
    · rw [if_neg h1] at hver
      simp [spdmCheck, firstFail, hlen, hstep, h1, hver]
  simp [spdmDo, h, hcheck, hbad]
/-- A request out of its turn. -/
theorem spdmDo_outOfTurn (h : spdmServed i3c s = true) (hlen : len ≤ msg.length) (hstep : (s.sec.spdm i3c).step ≠ step) (bad : Bool) :
    spdmDo i3c step len msg bad f s = spdmError i3c 4 s := by
  simp [spdmDo, h, spdmCheck, firstFail, Nat.not_lt.2 hlen, hstep]
end

/-! ### Nonces (16 R513) -/

theorem drawNonce_sec (s : Sw) : (drawNonce s).2.sec = s.sec := rfl
theorem drawNonce_outs (s : Sw) : (drawNonce s).2.outs = s.outs := rfl

/-- What a CHALLENGE in its turn answers, before its signature. -/
def challengeBody (f : Fuses) (msg : List Byte) (s : Sw) : List Byte :=
  spdmHead (byteAt msg 0) 0x03 0 1 ++ sha384 (certChain (drawNonce s).2) ++ (drawNonce s).1 ++ summaryHash f (drawNonce s).2 (byteAt msg 3) ++ le 2 0
/-- A CHALLENGE in its turn. -/
def challengeAnswer (f : Fuses) (i3c : Bool) (msg : List Byte) (s : Sw) : Sw :=
  spdmAnswer i3c msg (challengeBody f msg s ++
    aliasSign (drawNonce s).2 (((drawNonce s).2.sec.spdm i3c).transcript ++ msg ++ challengeBody f msg s)) id ((drawNonce s).2.drawn 1)
/-- What a CHALLENGE must not ask for. -/
def challengeBad (f : Fuses) (msg : List Byte) : Bool :=
  byteAt msg 2 != 0 || !chainHeld f || (byteAt msg 3 != 0 && byteAt msg 3 != 1 && byteAt msg 3 != 0xFF)
theorem challengeOp_eq (f : Fuses) (i3c : Bool) (msg : List Byte) (s : Sw) :
    challengeOp f i3c msg s = spdmDo i3c 3 36 msg (challengeBad f msg) (challengeAnswer f i3c msg) s := rfl
/-- What GET_MEASUREMENTS in its turn answers, before its signature. -/
def measurementsBody (f : Fuses) (msg : List Byte) (s : Sw) : List Byte :=
  spdmHead (byteAt msg 0) 0x60 (if byteAt msg 3 = 0 then 4 else 0) 0 ++ le 1 ((measureIndexes (byteAt msg 3)).map (measureOf f s)).length ++
    le 3 ((measureIndexes (byteAt msg 3)).map (measureOf f s)).flatten.length ++
    ((measureIndexes (byteAt msg 3)).map (measureOf f s)).flatten ++ (drawNonce s).1 ++ le 2 0
/-- GET_MEASUREMENTS asks for a signature. -/
def asksSigned (msg : List Byte) : Bool := byteAt msg 2 % 2 == 1
/-- GET_MEASUREMENTS in its turn. -/
def measurementsAnswer (f : Fuses) (i3c : Bool) (msg : List Byte) (s : Sw) : Sw :=
  spdmAnswer i3c msg (measurementsBody f msg s ++ (if asksSigned msg then
    aliasSign (drawNonce s).2 (((drawNonce s).2.sec.spdm i3c).transcript ++ msg ++ measurementsBody f msg s) else [])) id
    ((drawNonce s).2.drawn (b2n (asksSigned msg)))
/-- What GET_MEASUREMENTS must not ask for. -/
def measurementsBad (f : Fuses) (msg : List Byte) : Bool :=
  (byteAt msg 3 != 0xFF && decide (4 < byteAt msg 3)) || (asksSigned msg && (byteAt msg 36 % 16 != 0 || !chainHeld f))
theorem getMeasurementsOp_eq (f : Fuses) (i3c : Bool) (msg : List Byte) (s : Sw) : getMeasurementsOp f i3c msg s =
    spdmDo i3c 3 (if asksSigned msg then 37 else 4) msg (measurementsBad f msg) (measurementsAnswer f i3c msg) s := rfl
theorem measurements_size {msg : List Byte} (h : 37 ≤ msg.length) : (if asksSigned msg then 37 else 4) ≤ msg.length := by
  split <;> omega
/-- A request in its turn is answered once, its transcript grown. -/
theorem runsTo_of_spdmAnswer {c : Instr} {s : State} {i3c : Bool} {msg resp : List Byte} {g : Spdm → Spdm} {f : Sw → Sw} {P : Sw → Prop}
    (hc : exec c s = lift f s) (hf : f s.sw = spdmAnswer i3c msg resp g s.sw) (hP : P (spdmAnswer i3c msg resp g s.sw)) :
    runsTo c s [.sec, .outs] P := by
  refine runsTo_of_lift f hc ?_ (hf ▸ hP)
  rw [hf]
  exact spdmAnswer_keeps (by decide) (.refl _ _)
/-- A request answered after a nonce is drawn, and perhaps a signature. -/
theorem runsTo_of_nonceAnswer {c : Instr} {s : State} {i3c : Bool} {msg resp : List Byte} {n : Nat} {f : Sw → Sw} (hc : exec c s = lift f s)
    (hf : f s.sw = spdmAnswer i3c msg resp id ((drawNonce s.sw).2.drawn n)) (hstep : (s.sw.sec.spdm i3c).step = 3) :
    runsTo c s [.sec, .outs, .freeCtr] fun t => (t.sec.spdm i3c).step = 3 ∧
      ∃ r, t.outs = s.sw.outs ++ [.reply i3c r] ∧ (t.sec.spdm i3c).transcript = (s.sw.sec.spdm i3c).transcript ++ msg ++ r := by
  refine runsTo_of_lift f hc ?_ ?_
  all_goals rw [hf]
  · exact spdmAnswer_keeps (by decide) (drawn_keeps (by decide) (drawNonce_keeps (by decide) (.refl _ _)))
  · rw [spdmAnswer_same]
    exact ⟨hstep, resp, spdmAnswer_outs, rfl⟩
/-- A request out of its turn is answered with ERROR. -/
theorem runsTo_of_spdmError {c : Instr} {s : State} {i3c : Bool} {f : Sw → Sw} (hc : exec c s = lift f s) (hf : f s.sw = spdmError i3c 4 s.sw) :
    runsTo c s [.outs] fun t => t.outs = s.sw.outs ++ [.reply i3c [BitVec.ofNat 8 (s.sw.sec.spdm i3c).ver, 0x7F, 4, 0]] := by
  refine runsTo_of_lift f hc ?_ (hf ▸ spdmError_outs 4)
  rw [hf]
  exact out_keeps (by decide) (.refl _ _)
/-- Settles O53: each request by the step of its connection. -/
theorem spdmRule : Obligations.SpdmRule := by
  unfold Obligations.SpdmRule
  refine ⟨?version, ?capabilities, ?algorithms, ?negotiated, ?order, ?sensor, ?unserved⟩
  case version =>
    intro s i3c msg h h10
    refine runsTo_of_spdmAnswer (f := getVersionOp i3c msg) rfl (by simp [getVersionOp, h, h10]; rfl) ?_
    rw [spdmAnswer_same]
    exact ⟨rfl, rfl, spdmAnswer_other, rfl⟩
  case capabilities =>
    intro s i3c msg h hlen hstep hver
    refine runsTo_of_spdmAnswer (f := getCapabilitiesOp i3c msg) rfl (spdmDo_inTurn h hlen hstep (by simpa using hver) rfl) ?_
    rw [spdmAnswer_same]
    exact ⟨rfl, rfl, spdmAnswer_other, _, spdmAnswer_outs, rfl⟩
  case algorithms =>
    intro s i3c msg h hlen hstep hver hasym hhash
    refine runsTo_of_spdmAnswer (f := negotiateOp i3c msg) rfl (spdmDo_inTurn h hlen hstep hver (by simp [hasym, hhash])) ?_
    rw [spdmAnswer_same]
    exact ⟨rfl, rfl, spdmAnswer_other, _, spdmAnswer_outs, rfl⟩
  case negotiated =>
    intro s i3c msg h hstep hver hlen hlife hslot
    have hchain : chainHeld s.fuses = true := by simpa [chainHeld] using hlife
    refine ⟨?digests, fun hoff => ?certificate, fun hkind => ?challenge, fun hop => ?measurements⟩
    case digests =>
      refine runsTo_of_spdmAnswer (f := getDigestsOp s.fuses i3c msg) rfl (spdmDo_inTurn h (by omega) hstep hver rfl) ?_
      rw [spdmAnswer_same, spdmAnswer_outs, hchain]
      exact ⟨hstep, rfl⟩
    case certificate =>
      refine runsTo_of_spdmAnswer (f := getCertificateOp s.fuses i3c msg) rfl
        (spdmDo_inTurn h (by omega) hstep hver (by simpa [hslot, hchain] using hoff)) ?_
      rw [spdmAnswer_same]
      exact ⟨hstep, _, spdmAnswer_outs, rfl⟩
    case challenge =>
      have hbad : challengeBad s.fuses msg = false := by
        simp only [List.mem_cons, List.not_mem_nil, or_false] at hkind
        rcases hkind with hk | hk | hk <;> simp [challengeBad, hslot, hchain, hk]
      exact runsTo_of_nonceAnswer (f := challengeOp s.fuses i3c msg) rfl
        ((challengeOp_eq ..).trans (spdmDo_inTurn h (by omega) hstep hver hbad)) hstep
    case measurements =>
      have hbad : measurementsBad s.fuses msg = false := by
        simp only [List.mem_cons, List.not_mem_nil, or_false] at hop
        rcases hop with ho | ho | ho | ho | ho | ho <;> simp [measurementsBad, asksSigned, hslot, ho]
      exact runsTo_of_nonceAnswer (f := getMeasurementsOp s.fuses i3c msg) rfl
        ((getMeasurementsOp_eq ..).trans (spdmDo_inTurn h (measurements_size hlen) hstep hver hbad)) hstep
  case order =>
    intro s i3c msg h hlen hstep c hc
    simp only [List.mem_cons, List.not_mem_nil, or_false] at hc
    rcases hc with rfl | rfl | rfl | rfl
    · exact runsTo_of_spdmError (f := getDigestsOp s.fuses i3c msg) rfl (spdmDo_outOfTurn h (by omega) hstep _)
    · exact runsTo_of_spdmError (f := getCertificateOp s.fuses i3c msg) rfl (spdmDo_outOfTurn h (by omega) hstep _)
    · exact runsTo_of_spdmError (f := challengeOp s.fuses i3c msg) rfl ((challengeOp_eq ..).trans (spdmDo_outOfTurn h (by omega) hstep _))
    · exact runsTo_of_spdmError (f := getMeasurementsOp s.fuses i3c msg) rfl
        ((getMeasurementsOp_eq ..).trans (spdmDo_outOfTurn h (measurements_size hlen) hstep _))
  case sensor =>
    intro s i3c id h
    have hrun : sensorOp i3c id s.sw = s.sw.out (.reply i3c (match sensorValue s.sw id with
        | some v => le 1 0 ++ leInt 4 v
        | none => le 1 0x80)) := by
      cases hv : sensorValue s.sw id <;> simp [sensorOp, h, hv]
    refine runsTo_of_lift (sensorOp i3c id) rfl ?_ ?_
    all_goals rw [hrun]
    · exact out_keeps (by decide) (.refl _ _)
    · rfl
  case unserved =>
    intro s i3c msg id h c hc
    simp only [List.mem_cons, List.not_mem_nil, or_false] at hc
    rcases hc with rfl | rfl | rfl | rfl | rfl | rfl | rfl | rfl
    · exact stays_of_lift (getVersionOp i3c msg) rfl (if_pos (by simp [h]))
    · exact stays_of_lift (getCapabilitiesOp i3c msg) rfl (spdmDo_unserved h _)
    · exact stays_of_lift (negotiateOp i3c msg) rfl (spdmDo_unserved h _)
    · exact stays_of_lift (getDigestsOp s.fuses i3c msg) rfl (spdmDo_unserved h _)
    · exact stays_of_lift (getCertificateOp s.fuses i3c msg) rfl (spdmDo_unserved h _)
    · exact stays_of_lift (challengeOp s.fuses i3c msg) rfl ((challengeOp_eq ..).trans (spdmDo_unserved h _))
    · exact stays_of_lift (getMeasurementsOp s.fuses i3c msg) rfl ((getMeasurementsOp_eq ..).trans (spdmDo_unserved h _))
    · exact stays_of_lift (sensorOp i3c id) rfl (if_pos (by simp [h]))
end Sys2Proof.Machine
end


section
/-! PROOFS. The management commands of the root of trust (O52). -/
namespace Sys2Proof.Machine

/-! ### The course of a management command (16 R528) -/

/-- While management is served, the BMC's command acts, is recorded and answered, and what follows it follows. -/
theorem mgmtBmc_follows {s t : State} {st : Nat} {act : MgmtAct} (h : s.sw.served = true) (code : Nat) (after : MgmtAfter)
    (ha : act false s = (st, t)) : mgmtBmc code act after s =
      if st = stOk then after false { t with sw := (mgmtEvent false code st t.sw).out (.reply true (le 1 code ++ le 1 st)) }
      else { t with sw := (mgmtEvent false code st t.sw).out (.reply true (le 1 code ++ le 1 st)) } := by
  rw [Sw.served, Bool.and_eq_true, Bool.not_eq_true'] at h
  obtain ⟨hi, hr⟩ := h
  simp [mgmtBmc, hi, hr, ha]
/-- A descriptor that names the code of its row, its arguments and its token alone beside it, acts, completes, and what follows it
follows. -/
theorem mgmtDesc_follows {s t : State} {b : Sub} {code n st : Nat} {token : Bool} {act : MgmtAct} (after : MgmtAfter) (hh : headerGood 0x93 b s)
    (hc : b.f 8 1 = code) (ho : b.only ([by_ 8 (1 + n)] ++ (if token then [by_ 24 8] else [])) = true) (hhost : token = true → b.hostErr = none)
    (ha : act true { s with sw := descSw 0x93 b s.sw } = (st, t)) : mgmtDesc code n token act after b s =
      if st = stOk then after true { t with sw := complete (descTok 0x93 b s.sw) st (mgmtEvent true code st t.sw) }
      else { t with sw := complete (descTok 0x93 b s.sw) st (mgmtEvent true code st t.sw) } := by
  have hgot : (if token then b.hostErr else none) = none := by
    split
    · next ht => exact hhost ht
    · rfl
  simp only [headerGood, descSw] at hh
  simp only [descSw] at ha
  simp only [mgmtDesc, hh, hgot, hc, ho, ha, descTok, beq_self_eq_true, Bool.and_self, if_true]
/-- A command without arguments of its own, or with one, that ends with a status other than OK and has no effect. -/
theorem mgmtEnds_refused {c : Option Sub → Instr} {code n arg st : Nat} {act : Nat → MgmtAct} {after : Nat → MgmtAfter} {s : State}
    (hc : ∀ via, exec (c via) s = .next (mgmtThen via code n arg act after s)) (hst : st ≠ stOk)
    (ha : ∀ v, (0 < n → v = arg) → ∀ pf w, Sw.keeps descParts s.sw w → act v pf { s with sw := w } = (st, { s with sw := w })) :
    mgmtEnds c code n arg st s id := by
  refine ⟨fun hs => ?_, fun b hh hcode harg ho => ?_⟩
  · have hrun := (mgmtBmc_follows hs code (after arg) (ha arg (fun _ => rfl) false s.sw (.refl _ _))).trans (if_neg hst)
    exact (hc none).trans (congrArg Host.Outcome.next hrun)
  · have hrun := (mgmtDesc_follows (token := false) (after (b.f 9 (max 1 n))) hh hcode (by simpa using ho) (by simp)
      (ha (b.f 9 (max 1 n)) (fun hn => by rw [Nat.max_eq_right hn]; exact harg hn) true _ (descSw_keeps 0x93 b s.sw))).trans (if_neg hst)
    exact (hc (some b)).trans (congrArg Host.Outcome.next hrun)
/-- A command of the BMC that ends OK. -/
theorem becomes_of_mgmtBmc {c : Instr} {s : State} {w u : Sw} {code : Nat} {act : MgmtAct} {after : MgmtAfter} (hs : s.sw.served = true)
    (hc : exec c s = .next (mgmtBmc code act after s)) (ha : act false s = (stOk, { s with sw := w }))
    (hu : after false { s with sw := (mgmtEvent false code stOk w).out (.reply true (le 1 code ++ le 1 stOk)) } = { s with sw := u }) :
    becomes c s u :=
  hc.trans (congrArg Host.Outcome.next ((mgmtBmc_follows hs code after ha).trans ((if_pos rfl).trans hu)))
/-- A MGMT descriptor that ends OK. -/
theorem becomes_of_mgmtDesc {c : Instr} {s : State} {b : Sub} {w u : Sw} {code n : Nat} {token : Bool} {act : MgmtAct} {after : MgmtAfter}
    (hh : headerGood 0x93 b s) (hcode : b.f 8 1 = code) (ho : b.only ([by_ 8 (1 + n)] ++ (if token then [by_ 24 8] else [])) = true)
    (hhost : token = true → b.hostErr = none) (hc : exec c s = .next (mgmtDesc code n token act after b s))
    (ha : act true { s with sw := descSw 0x93 b s.sw } = (stOk, { s with sw := w }))
    (hu : after true { s with sw := complete (descTok 0x93 b s.sw) stOk (mgmtEvent true code stOk w) } = { s with sw := u }) :
    becomes c s u :=
  hc.trans (congrArg Host.Outcome.next ((mgmtDesc_follows after hh hcode ho hhost ha).trans ((if_pos rfl).trans hu)))

/-! ### What a management command leaves -/

section
variable {ps : List Piece} {a s : Sw}

theorem mgmtAnswer_keeps (hk : partsIn (.held :: evParts) ps = true) (pf : Bool) (code st : Nat) (h : Sw.keeps ps a s) :
    Sw.keeps ps a ((mgmtEvent pf code st s).out (.reply true (le 1 code ++ le 1 st))) :=
  out_keeps (partsIn_trans (by decide) hk) (raiseHeld_keeps (partsIn_trans (by decide) hk) h)
theorem mgmtComplete_keeps (hk : partsIn (.held :: descParts) ps = true) (pf : Bool) (code st : Nat) (t : Tok) (h : Sw.keeps ps a s) :
    Sw.keeps ps a (complete t st (mgmtEvent pf code st s)) :=
  complete_keeps (partsIn_trans (by decide) hk) (raiseHeld_keeps (partsIn_trans (by decide) hk) h)
theorem sec_of_keeps {u : Sw} (h : Sw.keeps ps a u) (hp : Piece.sec ∉ ps) : u.sec = a.sec := (h .sec hp).symm
end

/-! ### RESET (16 R528) -/

theorem resetAct_passes {k : Nat} {t : State} (hk : k = 1 ∨ k = 2 ∨ k = 3) (hwarm : k = 1 → t.sw.glb.stage = 5) (pf : Bool) :
    resetAct k pf t = (stOk, t) := by
  refine mgmtSw_none id ?_
  rcases hk with rfl | rfl | rfl
  · simp [firstFail, Sw.starting, hwarm rfl]
  · simp [firstFail]
  · simp [firstFail]
theorem resetAfter_eq {k : Nat} (hk : k = 1 ∨ k = 2 ∨ k = 3) (pf : Bool) (t : State) : resetAfter k pf t = { t with sw :=
    (if k = 1 then warmReset (if pf then 2 else 3) else if k = 2 then coldReset (if pf then 2 else 3) else powerOff) t.sw } := by
  rcases hk with rfl | rfl | rfl <;> rfl
theorem resetAct_bad {k : Nat} (hk : k = 0 ∨ 3 < k) (pf : Bool) (t : State) : resetAct k pf t = (stBad, t) := by
  refine mgmtSw_some id ?_
  rcases hk with hk | hk <;> simp [firstFail, hk]
theorem resetAct_starting {t : State} (h : t.sw.glb.stage ≠ 5) (pf : Bool) : resetAct 1 pf t = (stDenied, t) :=
  mgmtSw_some id (by simp [firstFail, Sw.starting, h])

/-! ### SVN_ADVANCE (16 R511) -/

/-- The fuses once the floor is at the running SVN and the keys named are revoked. -/
def Fuses.advanced (f : Fuses) (c : Sec) : Fuses := { f with svnFloor := max f.svnFloor c.runSvn, revoked := f.revoked ||| c.runRevoke }
theorem svnAdvanceAct_ok {t : State} (h₁ : t.sw.sec.trial = false) (h₂ : t.sw.sec.runRevoke.getLsbD t.sw.sec.runKey = false)
    (h₃ : t.fuses.svnFloor ≠ t.sw.sec.runSvn) (pf : Bool) : svnAdvanceAct pf t = (stOk, { t with
      fuses := t.fuses.advanced t.sw.sec
      sw := raiseHeld 0x0C05 (le 4 (t.fuses.advanced t.sw.sec).svnFloor ++ le 1 t.sw.sec.runRevoke.toNat) t.sw }) := by
  have hpass : firstFail [(t.sw.sec.trial || t.sw.sec.runRevoke.getLsbD t.sw.sec.runKey || t.fuses.svnFloor == t.sw.sec.runSvn, stDenied)] = none := by
    rw [h₁, h₂, beq_false_of_ne h₃]
    rfl
  simp only [svnAdvanceAct, hpass]
  rfl
theorem svnAdvanceAct_denied {t : State} (h : t.sw.sec.trial = true ∨ t.sw.sec.runRevoke.getLsbD t.sw.sec.runKey = true ∨
    t.fuses.svnFloor = t.sw.sec.runSvn) (pf : Bool) : svnAdvanceAct pf t = (stDenied, t) := by
  have hfail : (t.sw.sec.trial || t.sw.sec.runRevoke.getLsbD t.sw.sec.runKey || t.fuses.svnFloor == t.sw.sec.runSvn) = true := by
    rcases h with h | h | h
    · rw [h, Bool.true_or, Bool.true_or]
    · rw [h, Bool.or_true, Bool.true_or]
    · rw [h, beq_self_eq_true, Bool.or_true]
  simp only [svnAdvanceAct, firstFail, hfail, if_true]

/-! ### DEBUG_UNLOCK (16 R524) -/

/-- One more invalid token, and its event. -/
def tokenCounted (s : Sw) : Sw :=
  raiseHeld 0x0C21 (le 4 (s.sec.badTokens + 1)) (s.modSec fun c => { c with badTokens := c.badTokens + 1 })

section
variable {t : State} {tok : List Byte}

theorem debugUnlockAct_valid (h : t.sw.sec.badTokens < 3) (hv : ecdsaOk Config.debugKey (debugMessage t.sw) tok = true) (pf : Bool) :
    debugUnlockAct tok pf t = (stOk, { t with sw := t.sw.modSec fun c => { c with unlockNext := true } }) := by
  simp only [debugUnlockAct, Nat.not_le.2 h, hv, if_false, if_true]
theorem debugUnlockAct_invalid (h : t.sw.sec.badTokens < 3) (hv : ecdsaOk Config.debugKey (debugMessage t.sw) tok = false) (pf : Bool) :
    debugUnlockAct tok pf t = (stDenied, { t with sw := tokenCounted t.sw }) := by
  simp only [debugUnlockAct, Nat.not_le.2 h, hv, if_false, Bool.false_eq_true]
  rfl
theorem debugUnlockAct_exhausted (h : 3 ≤ t.sw.sec.badTokens) (pf : Bool) : debugUnlockAct tok pf t = (stDenied, t) := if_pos h
end
/-! ### LIFECYCLE_RETURN (16 R522) -/

/-- The fuses after a token. -/
def Fuses.returned (f : Fuses) (tok : List Byte) : Fuses :=
  if Config.returnToken Config.deviceId tok then { f with lifecycle := 2 } else f
theorem lifecycleReturnAct_eq (tok : List Byte) (pf : Bool) (t : State) : lifecycleReturnAct tok pf t =
    (if Config.returnToken Config.deviceId tok then stOk else stDenied, { t with fuses := t.fuses.returned tok }) := by
  unfold lifecycleReturnAct Fuses.returned
  split <;> rfl
/-- Settles O52: each command by what its action answers; the completion and what follows it are those of every management command. -/
theorem rootOfTrustRule : Obligations.RootOfTrustRule := by
  unfold Obligations.RootOfTrustRule
  refine ⟨?reset, ?resetDesc, ?resetBad, ?resetStarting, ?svn, ?svnDesc, ?svnDenied, ?unlock, ?unlockDesc, ?unlockInvalid, ?unlockExhausted,
    ?life, ?lifeDesc, ?entdaa, ?attnShort, ?attnLong, ?attnUnserved, ?port⟩
  case reset =>
    exact fun s k hs hk hwarm => becomes_of_mgmtBmc hs rfl (resetAct_passes hk hwarm false) (resetAfter_eq hk false _)
  case resetDesc =>
    rintro s b k hh hcode rfl ho hk hwarm
    exact becomes_of_mgmtDesc (token := false) (n := 1) hh hcode (by simpa using ho) (by simp) rfl
      (resetAct_passes (t := { s with sw := descSw 0x93 b s.sw }) hk hwarm true) (resetAfter_eq hk true _)
  case resetBad =>
    exact fun s k hk => mgmtEnds_refused (fun _ => rfl) (by decide) fun v hv pf w _ => resetAct_bad (hv (by decide) ▸ hk) pf _
  case resetStarting =>
    refine fun s h => mgmtEnds_refused (fun _ => rfl) (by decide) fun v hv pf w hw => ?_
    rw [hv (by decide)]
    exact resetAct_starting (by simpa [glb_of_keeps hw (by decide) (by decide)] using h) pf
  case svn =>
    intro s hs h₁ h₂ h₃
    have hrun := (mgmtBmc_follows hs 0x07 noAfter (svnAdvanceAct_ok h₁ h₂ h₃ false)).trans (if_pos rfl)
    exact ⟨_, congrArg Host.Outcome.next hrun, rfl,
      mgmtAnswer_keeps (by decide) false 0x07 stOk (raiseHeld_keeps (by decide) (.refl _ s.sw)), rfl⟩
  case svnDesc =>
    intro s b hh hcode ho h₁ h₂ h₃
    have hrun := (mgmtDesc_follows (token := false) (n := 0) noAfter hh hcode (by simpa using ho) (by simp)
      (svnAdvanceAct_ok (t := { s with sw := descSw 0x93 b s.sw }) h₁ h₂ h₃ true)).trans (if_pos rfl)
    exact ⟨_, congrArg Host.Outcome.next hrun, rfl,
      mgmtComplete_keeps (by decide) true 0x07 stOk _ (raiseHeld_keeps (by decide) ((descSw_keeps 0x93 b s.sw).mono (by decide))), rfl⟩
  case svnDenied =>
    refine fun s h => mgmtEnds_refused (fun _ => rfl) (by decide) fun v _ pf w hw => svnAdvanceAct_denied ?_ pf
    simpa [sec_of_keeps hw (by decide)] using h
  case unlock =>
    intro s tok hs hbad hv
    have hkeeps := mgmtAnswer_keeps (ps := .held :: evParts) (by decide) false 0x09 stOk (.refl _ (s.sw.modSec fun c => { c with unlockNext := true }))
    have hsec := sec_of_keeps hkeeps (by decide)
    refine ⟨_, hsec, (modSec_keeps (by decide) (.refl _ s.sw)).trans (hkeeps.mono (by decide)),
      becomes_of_mgmtBmc hs rfl (debugUnlockAct_valid hbad hv false) rfl, congrArg Sec.unlockNext hsec⟩
  case unlockDesc =>
    intro s b tok hh hcode ho hhost hbad hv
    have hkeeps := mgmtComplete_keeps (ps := .held :: descParts) (by decide) true 0x09 stOk (descTok 0x93 b s.sw)
      (.refl _ ((descSw 0x93 b s.sw).modSec fun c => { c with unlockNext := true }))
    refine ⟨_, sec_of_keeps hkeeps (by decide),
      (modSec_keeps (by decide) ((descSw_keeps 0x93 b s.sw).mono (by decide))).trans (hkeeps.mono (by decide)),
      becomes_of_mgmtDesc (token := true) (n := 0) hh hcode ho (fun _ => hhost) rfl
        (debugUnlockAct_valid (t := { s with sw := descSw 0x93 b s.sw }) hbad hv true) rfl⟩
  case unlockInvalid =>
    intro s tok hs hbad hv
    have hrun := (mgmtBmc_follows hs 0x09 debugUnlockAfter (debugUnlockAct_invalid hbad hv false)).trans (if_neg (by decide))
    have htold : Sw.keeps (.held :: evParts) (s.sw.modSec fun c => { c with badTokens := c.badTokens + 1 }) (tokenCounted s.sw) :=
      raiseHeld_keeps (by decide) (.refl _ _)
    have hkeeps := mgmtAnswer_keeps (by decide) false 0x09 stDenied htold
    exact ⟨_, congrArg Host.Outcome.next hrun, (modSec_keeps (by decide) (.refl _ s.sw)).trans (hkeeps.mono (by decide)),
      sec_of_keeps hkeeps (by decide), List.getLast?_concat⟩
  case unlockExhausted =>
    intro s tok hs hbad
    have hrun := (mgmtBmc_follows hs 0x09 debugUnlockAfter (debugUnlockAct_exhausted (tok := tok) hbad false)).trans (if_neg (by decide))
    exact ⟨_, congrArg Host.Outcome.next hrun, mgmtAnswer_keeps (by decide) false 0x09 stDenied (.refl _ s.sw), List.getLast?_concat⟩
  case life =>
    intro s tok hs
    have hrun := (mgmtBmc_follows hs 0x0A noAfter (lifecycleReturnAct_eq tok false s)).trans (ite_self _)
    exact ⟨_, congrArg Host.Outcome.next hrun, rfl, mgmtAnswer_keeps (by decide) false 0x0A _ (.refl _ s.sw), rfl⟩
  case lifeDesc =>
    intro s b tok hh hcode ho hhost
    have hrun := (mgmtDesc_follows (token := true) (n := 0) noAfter hh hcode ho (fun _ => hhost)
      (lifecycleReturnAct_eq b.host true { s with sw := descSw 0x93 b s.sw })).trans (ite_self _)
    exact ⟨_, congrArg Host.Outcome.next hrun, rfl,
      mgmtComplete_keeps (by decide) true 0x0A _ _ ((descSw_keeps 0x93 b s.sw).mono (by decide)), rfl⟩
  case entdaa =>
    intro s a h
    refine runsTo_of_lift (fun w => onlyIf w.i3cServed (Sw.modSec fun c => { c with i3cAddr := some (a % 128) }) w) rfl ?_ ?_
    all_goals rw [onlyIf_true h]
    · exact modSec_keeps (by decide) (.refl _ _)
    · rfl
  case attnShort =>
    intro s h
    refine runsTo_of_lift attnShortOp rfl ?_ ?_
    all_goals rw [attnShortOp, onlyIf_true h]
    · exact raiseHeld_keeps (by decide) (modSec_keeps (by decide) (.refl _ _))
    · rw [buttonEvent, raiseHeld_sec]
      rfl
  case attnLong =>
    intro s hs hbtn hpower
    rw [Sw.served, Bool.and_eq_true, Bool.not_eq_true'] at hs
    refine becomes_of_lift attnLongOp rfl ?_
    simp [attnLongOp, hs.1, hs.2, buttonEvent, hbtn, hpower, onlyIf]
  case attnUnserved =>
    intro s hs
    have hoff : (s.sw.sec.recovery || !s.sw.i3cServed) = !s.sw.served := by simp [Sw.served, Bool.or_comm]
    exact stays_of_lift attnLongOp rfl (if_pos (by rw [hoff, hs, Bool.not_false]))
  case port =>
    intro s
    refine ⟨fun h => by simp [debugOffers, h], fun a ha => ?_⟩
    cases a <;> simp [debugOffers] at ha ⊢
end Sys2Proof.Machine
end


section
/-! PROOFS. Firmware images, update sessions and activation (O51). -/
namespace Sys2Proof.Machine

/-! ### Slots (16 R504, R505) -/

/-- A slot changes: which is active, who holds the session and the other slot stand. -/
theorem Sec.modSlot_inactive (c : Sec) (g : ImgSlot → ImgSlot) : (c.modSlot (!c.activeB) g).activeB = c.activeB ∧
    (c.modSlot (!c.activeB) g).session = c.session ∧ (c.modSlot (!c.activeB) g).slot c.activeB = c.slot c.activeB ∧
    (c.modSlot (!c.activeB) g).slot (!c.activeB) = g c.other := by
  unfold Sec.modSlot Sec.other
  cases c.activeB <;> exact ⟨rfl, rfl, rfl, rfl⟩
theorem erasedSlot_byte (a : Nat) : erasedSlot.byte a = 0xFF := rfl
/-- Bytes written to an erased slot read back; every other byte is erased. -/
theorem erasedSlot_write_byte (a n : Nat) (l : List Byte) :
    (erasedSlot.write a l).byte n = if a ≤ n ∧ n < a + l.length then l.getD (n - a) 0 else 0xFF :=
  putBytes_read l a n []
/-- The bytes of a part that its LEN covers: those fetched, and 0 beyond them. -/
theorem padTo_take_getD {n k : Nat} (h : k < n) (l : List Byte) : (padTo n (l.take n)).getD k 0 = l.getD k 0 := by
  simp only [padTo, List.getD_eq_getElem?_getD, List.getElem?_append, List.getElem?_replicate, List.getElem?_take, List.length_take]
  by_cases hk : k < l.length
  · rw [if_pos (by omega), if_pos h]
  · rw [if_neg (by omega), List.getElem?_eq_none (Nat.not_lt.1 hk), if_pos (by omega)]
    rfl
theorem padTo_take_length (n : Nat) (l : List Byte) : (padTo n (l.take n)).length = n := by
  simp only [padTo, List.length_append, List.length_replicate, List.length_take]
  omega

/-! ### FW_LOAD (16 R509) -/

section
variable {f : Fuses} {b : Sub} {t : Tok} {w : Sw}

/-- FW_LOAD whose fields pass. -/
def loadFieldsGood (b : Sub) : Prop :=
  b.only [bi_ 8 0 2, by_ 12 4, by_ 24 8, by_ 40 4] = true ∧ b.f 12 4 % 4096 = 0 ∧ b.f 12 4 + b.f 40 4 ≤ 2 ^ 25
/-- The checks of the fields of FW_LOAD. -/
def loadFieldsBad (b : Sub) : Bool :=
  !b.only [bi_ 8 0 2, by_ 12 4, by_ 24 8, by_ 40 4] || b.f 12 4 % 4096 != 0 || decide (slotSize < b.f 12 4 + b.f 40 4)
theorem loadFieldsBad_place (h : b.f 12 4 % 4096 ≠ 0 ∨ 2 ^ 25 < b.f 12 4 + b.f 40 4) : loadFieldsBad b = true := by
  rcases h with h | h
  · rw [loadFieldsBad, bne_iff_ne.2 h, Bool.or_true, Bool.true_or]
  · rw [loadFieldsBad, decide_eq_true (show slotSize < b.f 12 4 + b.f 40 4 from h), Bool.or_true]
theorem loadFieldsBad_good (h : loadFieldsGood b) : loadFieldsBad b = false := by
  obtain ⟨hform, halign, hfits⟩ := h
  have hfits' : ¬ slotSize < b.f 12 4 + b.f 40 4 := Nat.not_lt.2 hfits
  simp [loadFieldsBad, hform, halign, hfits']
/-- Who may write: FIRST opens a session, a further part belongs to the PF's. -/
def loadRefused (b : Sub) (w : Sw) : Bool := if b.flag 8 0 then w.sec.session.isSome else w.sec.session != some false
/-- FW_LOAD once its checks pass. -/
def loadPart (f : Fuses) (b : Sub) (t : Tok) (w : Sw) : Sw :=
  (if b.f 40 4 = 0 then id else hostGuard b t) (fun s =>
    let s := writeImage (b.f 12 4) (padTo (b.f 40 4) (b.host.take (b.f 40 4))) (onlyIf (b.flag 8 0) (openSession false) s)
    if b.flag 8 1 then complete t (if (closeSession f false s).sec.other.ok f then stOk else stBad) (closeSession f false s)
    else complete t stOk s) w
theorem fwLoadOp_eq : fwLoadOp f b t w = guardDesc t [(loadFieldsBad b, stBad), (loadRefused b w, stDenied)] (loadPart f b t) w := rfl
theorem fwLoadOp_bad (h : loadFieldsBad b = true) : fwLoadOp f b t w = complete t stBad w :=
  fwLoadOp_eq.trans (guardDesc_fails (by simp [firstFail, h]) _ _ _)
theorem fwLoadOp_denied (hb : loadFieldsGood b) (h : (b.flag 8 0 = true ∧ w.sec.session ≠ none) ∨ (b.flag 8 0 = false ∧ w.sec.session ≠ some false)) :
    fwLoadOp f b t w = complete t stDenied w := by
  have hrefused : loadRefused b w = true := by
    rcases h with ⟨hfirst, hs⟩ | ⟨hfirst, hs⟩
    · rw [loadRefused, hfirst, if_pos rfl, Option.isSome_iff_ne_none.2 hs]
    · rw [loadRefused, hfirst, if_neg Bool.false_ne_true, bne_iff_ne.2 hs]
  exact fwLoadOp_eq.trans (guardDesc_fails (by simp [firstFail, loadFieldsBad_good hb, hrefused]) _ _ _)
/-- The first part opens the session and is written. -/
theorem fwLoadOp_first (hb : loadFieldsGood b) (hfirst : b.flag 8 0 = true) (hlast : b.flag 8 1 = false) (hhost : b.hostErr = none)
    (hs : w.sec.session = none) : fwLoadOp f b t w =
      complete t stOk (writeImage (b.f 12 4) (padTo (b.f 40 4) (b.host.take (b.f 40 4))) (openSession false w)) := by
  have hgranted : loadRefused b w = false := by
    rw [loadRefused, hfirst, if_pos rfl, hs]
    rfl
  have hguard (g : Sw → Sw) : (if b.f 40 4 = 0 then id else hostGuard b t) g w = g w := by
    split
    · rfl
    · exact hostGuard_good hhost t g w
  refine fwLoadOp_eq.trans ((guardDesc_passes (by simp [firstFail, loadFieldsBad_good hb, hgranted]) _ _ _).trans ((hguard _).trans ?_))
  simp [hfirst, hlast, onlyIf]
end

/-! ### Activation (16 R510) -/

section
variable {f : Fuses} {w : Sw}

theorem activateChecks_pass (h5 : w.glb.stage = 5) (hs : w.sec.session = none) (hok : w.sec.other.ok f = true) :
    firstFail (activateChecks f w) = none := by simp [activateChecks, firstFail, Sw.starting, h5, hs, hok]
theorem activateChecks_denied (h : w.sec.session ≠ none ∨ w.glb.stage ≠ 5) : firstFail (activateChecks f w) = some stDenied := by
  have hd : (w.starting || w.sec.session.isSome) = true := by
    rcases h with h | h
    · rw [Option.isSome_iff_ne_none.2 h, Bool.or_true]
    · rw [Sw.starting, bne_iff_ne.2 h, Bool.true_or]
  simp [activateChecks, firstFail, hd]
theorem activateChecks_bad (h5 : w.glb.stage = 5) (hs : w.sec.session = none) (hok : w.sec.other.ok f = false) :
    firstFail (activateChecks f w) = some stBad := by simp [activateChecks, firstFail, Sw.starting, h5, hs, hok]
end
/-- The root of trust once a session is open. -/
def Sec.opened (c : Sec) (bmc : Bool) : Sec := { c.modSlot (!c.activeB) (fun _ => erasedSlot) with session := some bmc }
theorem Sec.opened_slots (c : Sec) (bmc : Bool) : (c.opened bmc).activeB = c.activeB ∧ (c.opened bmc).slot c.activeB = c.slot c.activeB ∧
    (c.opened bmc).other = erasedSlot := by
  obtain ⟨hactive, -, hslot, hother⟩ := c.modSlot_inactive fun _ => erasedSlot
  have hactive' : (c.opened bmc).activeB = c.activeB := hactive
  refine ⟨hactive', hslot, ?_⟩
  rw [Sec.other, hactive']
  exact hother
theorem openSession_sec (bmc : Bool) (w : Sw) : (openSession bmc w).sec = w.sec.opened bmc := rfl
theorem writeImage_sec (a : Nat) (l : List Byte) (w : Sw) : (writeImage a l w).sec = w.sec.modSlot (!w.sec.activeB) (ImgSlot.write a l) := rfl
/-- The first part of an image: the session, the slot that is active, and what is written over the erased slot. -/
theorem firstPart_sec (a : Nat) (l : List Byte) (w : Sw) :
    (writeImage a l (openSession false w)).sec.session = some false ∧ (writeImage a l (openSession false w)).sec.activeB = w.sec.activeB ∧
    (writeImage a l (openSession false w)).sec.slot w.sec.activeB = w.sec.slot w.sec.activeB ∧
    (writeImage a l (openSession false w)).sec.other = erasedSlot.write a l := by
  obtain ⟨hactive, hslot, hother⟩ := w.sec.opened_slots false
  obtain ⟨hactive', hsession, hslot', hother'⟩ := (w.sec.opened false).modSlot_inactive (ImgSlot.write a l)
  rw [writeImage_sec, openSession_sec]
  refine ⟨hsession, hactive'.trans hactive, ?_, ?_⟩
  · rw [← hactive, hslot', hactive, hslot]
  · rw [Sec.other, hactive', hother', hother]
theorem complete_sec (t : Tok) (st : Nat) (w : Sw) : (complete t st w).sec = w.sec :=
  ((complete_keeps (ps := parts13) (by decide) (.refl _ w)) .sec (by decide)).symm
/-- The warm reset that follows an activation. -/
def warmAfter (cause : Nat) : MgmtAfter := fun _ s => { s with sw := warmReset cause s.sw }
/-- Settles O51: sessions by who holds them, the image by the bytes written over an erased slot, activation by its checks. -/
theorem firmwareRule : Obligations.FirmwareRule := by
  unfold Obligations.FirmwareRule
  refine ⟨?first, ?denied, ?bad, ?timeout, ?request, ?requestOpen, ?cancel, ?activate, ?activateDenied, ?activateBad, ?activateBmc, ?activateDesc,
    ?pldmDenied⟩
  case first =>
    intro s b hh hform halign hfits hfirst hlast hhost hs
    have hload := fwLoadOp_first (f := s.fuses) (b := b) (t := descTok 0x90 b s.sw) (w := descSw 0x90 b s.sw) ⟨hform, halign, hfits⟩ hfirst hlast hhost hs
    refine ⟨_, becomes_of_desc (fwLoadOp s.fuses) rfl hh hload, ?_, ?_⟩
    · exact complete_keeps (by decide) (modSec_keeps (by decide) (modSec_keeps (by decide) ((descSw_keeps 0x90 b s.sw).mono (by decide))))
    · obtain ⟨hsession, hactive, hslot, hother⟩ :=
        firstPart_sec (b.f 12 4) (padTo (b.f 40 4) (b.host.take (b.f 40 4))) (descSw 0x90 b s.sw)
      rw [complete_sec, hother]
      refine ⟨hsession, hactive, hslot, rfl, fun a ha => ?_, fun k hk => ?_⟩
      · rw [erasedSlot_write_byte, padTo_take_length, if_neg (by omega)]
      · rw [erasedSlot_write_byte, padTo_take_length, if_pos (by omega), Nat.add_sub_cancel_left, padTo_take_getD hk]
  case denied =>
    exact fun s b hh hform halign hfits h => becomes_of_desc (fwLoadOp s.fuses) rfl hh (fwLoadOp_denied ⟨hform, halign, hfits⟩ h)
  case bad => exact fun s b hh h => becomes_of_desc (fwLoadOp s.fuses) rfl hh (fwLoadOp_bad (loadFieldsBad_place h))
  case timeout => exact fun s => runsTo_of_lift _ rfl (modSec_keeps (by decide) (.refl _ _)) rfl
  case request =>
    intro s h hs
    have hrun : pldmOp s.fuses .requestUpdate s.sw = (openSession true s.sw).out (.reply true (le 1 0)) := by simp [pldmOp, hs]
    obtain ⟨hactive, hslot, hother⟩ := s.sw.sec.opened_slots true
    refine runsTo_of_lift (fun w => onlyIf w.i3cServed (pldmOp s.fuses .requestUpdate) w) rfl ?_ ?_
    all_goals rw [onlyIf_true h, hrun]
    · exact out_keeps (by decide) (modSec_keeps (by decide) (.refl _ _))
    · rw [Sw.out_sec, openSession_sec, hother]
      exact ⟨rfl, erasedSlot_byte, hslot, rfl⟩
  case requestOpen =>
    intro s h hs
    have hrun : pldmOp s.fuses .requestUpdate s.sw = s.sw.out (.reply true (le 1 0x81)) := by simp [pldmOp, Option.isSome_iff_ne_none.2 hs]
    refine runsTo_of_lift (fun w => onlyIf w.i3cServed (pldmOp s.fuses .requestUpdate) w) rfl ?_ ?_
    all_goals rw [onlyIf_true h, hrun]
    · exact out_keeps (by decide) (.refl _ _)
    · rfl
  case cancel =>
    intro s h hs
    have hrun : pldmOp s.fuses .cancel s.sw = (s.sw.modSec fun c => { c with session := none }).out (.reply true (le 1 0)) := by simp [pldmOp, hs]
    refine runsTo_of_lift (fun w => onlyIf w.i3cServed (pldmOp s.fuses .cancel) w) rfl ?_ ?_
    all_goals rw [onlyIf_true h, hrun]
    · exact out_keeps (by decide) (modSec_keeps (by decide) (.refl _ _))
    · rfl
  case activate =>
    intro s b hh ho h5 hs hok
    refine becomes_of_desc (fwActivateOp s.fuses) rfl hh (guardDesc_passes ?_ _ _ _)
    simpa [firstFail, ho] using activateChecks_pass (w := descSw 0x91 b s.sw) h5 hs hok
  case activateDenied =>
    intro s b hh ho h
    refine becomes_of_desc (fwActivateOp s.fuses) rfl hh (guardDesc_fails ?_ _ _ _)
    simpa [firstFail, ho] using activateChecks_denied (w := descSw 0x91 b s.sw) h
  case activateBad =>
    refine fun s h5 hs hok => mgmtEnds_refused (fun _ => rfl) (by decide) fun v _ pf w hw => mgmtSw_some activate (activateChecks_bad ?_ ?_ ?_)
    · exact (congrArg Glb.stage (glb_of_keeps hw (by decide) (by decide))).trans h5
    · exact (congrArg Sec.session (sec_of_keeps hw (by decide))).trans hs
    · exact (congrArg (fun c : Sec => c.other.ok s.fuses) (sec_of_keeps hw (by decide))).trans hok
  case activateBmc =>
    intro s hserved h5 hs hok
    have hpass := activateChecks_pass h5 hs hok
    refine ⟨becomes_of_mgmtBmc (code := 0x06) (act := fwActivateAct) (after := warmAfter 4) hserved rfl (mgmtSw_none activate hpass) rfl, ?_⟩
    rw [Sw.served, Bool.and_eq_true] at hserved
    refine becomes_of_lift (fun w => onlyIf w.i3cServed (activateFirmwareOp s.fuses true) w) rfl ((onlyIf_true hserved.1 _ _).trans ?_)
    simp [activateFirmwareOp, hpass]
  case activateDesc =>
    intro s b hh hcode ho h5 hs hok
    exact becomes_of_mgmtDesc (token := false) (n := 0) (act := fwActivateAct) (after := warmAfter 4) hh hcode (by simpa using ho) (by simp) rfl
      (mgmtSw_none (s := { s with sw := descSw 0x93 b s.sw }) activate (activateChecks_pass h5 hs hok)) rfl
  case pldmDenied =>
    intro s hserved hs
    rw [Sw.served, Bool.and_eq_true] at hserved
    have hrun : activateFirmwareOp s.fuses true s.sw = s.sw.out (.reply true (le 1 stDenied)) := by
      simp [activateFirmwareOp, activateChecks_denied (f := s.fuses) (.inl hs)]
    refine runsTo_of_lift (fun w => onlyIf w.i3cServed (activateFirmwareOp s.fuses true) w) rfl ?_ ?_
    all_goals rw [onlyIf_true hserved.1, hrun]
    · exact out_keeps (by decide) (.refl _ _)
    · rfl
end Sys2Proof.Machine
end


section
/-! PROOFS. Host settings, event queues and resets of functions (O27). -/
namespace Sys2Proof.Machine

/-! ### Dispatch and the queues -/

/-- Dispatch reserves records and leaves every queue assigned as it was. -/
@[simp] theorem descSw_evqAssigned (code : Nat) (b : Sub) (s : Sw) (q func : Nat) :
    (descSw code b s).evqAssigned q func = s.evqAssigned q func := by
  have hq : ((descSw code b s).evq q).active = (s.evq q).active ∧ ((descSw code b s).evq q).func = (s.evq q).func := by
    unfold descSw dispatch
    simp only [Sw.modEvq_at]
    split
    · next h =>
      subst h
      exact ⟨rfl, rfl⟩
    · exact ⟨rfl, rfl⟩
  simp only [Sw.evqAssigned, hq]

/-! ### HOST_CONFIG (12 R427) -/

section
variable {b : Sub} {t : Tok} {w : Sw}

/-- What HOST_CONFIG sets, with the events that stay held. -/
def hostSettings (b : Sub) (h : HostIf) (held : List HeldEvent) : HostIf :=
  { h with sysEvq := b.f 8 1, sysValid := b.flag 9 0, watchdogMs := if b.f 10 2 = 0 then 10 else b.f 10 2, areaMask := BitVec.ofNat 16 (b.f 12 2),
           held := held }
theorem hostConfigOp_denied (hv : b.flag 9 0 = true) (hq : w.evqAssigned (b.f 8 1) b.func = false) : hostConfigOp b t w = complete t stDenied w := by
  unfold hostConfigOp
  exact guardDesc_fails (by simp [firstFail, hv, hq]) _ _ _
variable (hform : b.only [by_ 8 1, bi_ 9 0 1, by_ 10 2, bi_ 12 1 7, bi_ 13 0 5] = true)
include hform
theorem hostConfigOp_invalid (hv : b.flag 9 0 = false) :
    hostConfigOp b t w = complete t stOk (w.modHost fun h => hostSettings b h h.held) := by
  unfold hostConfigOp
  refine (guardDesc_passes (by simp [firstFail, hv, hform]) _ _ _).trans ?_
  simp only [hv, hostSettings, Bool.false_eq_true, if_false]
theorem hostConfigOp_valid (hv : b.flag 9 0 = true) (hq : w.evqAssigned (b.f 8 1) b.func = true) :
    hostConfigOp b t w = each w.host.held (fun e => raiseSys e.code e.content) (complete t stOk (w.modHost fun h => hostSettings b h [])) := by
  unfold hostConfigOp
  refine (guardDesc_passes (by simp [firstFail, hv, hq, hform]) _ _ _).trans ?_
  simp only [hv, hostSettings, if_true]
end

/-! ### Event queues (12 R419, R420, R424, R426) -/

section
variable {w : Sw} {func q cause : Nat} {v : Word}

theorem evqReady_bad (h : (w.evq q).sizeLog2 < 6 ∨ 16 < (w.evq q).sizeLog2 ∨ (w.evq q).func ≠ 0 ∧ 32 ≤ (w.evq q).vector) : w.evqReady q = false := by
  rcases h with h | h | ⟨hf, hv⟩
  · simp [Sw.evqReady, Nat.not_le.2 h]
  · simp [Sw.evqReady, Nat.not_le.2 h]
  · simp [Sw.evqReady, hf, Nat.not_lt.2 hv]
/-- The first bad write to a queue's page is told. -/
theorem evqDoorbellBad_told (h : (w.evq q).last0103 = none) : evqDoorbellBad q cause v w =
    raiseSys 0x0103 (le 2 q ++ le 4 v.toNat ++ le 1 cause) (w.modEvq q fun e => { e with last0103 := some w.now }) := by
  simp [evqDoorbellBad, due0103, h]
theorem evqBell_foreign (hr : w.evqReach func q = true) (hf : (w.evq q).func ≠ func) : evqBell func q v w = evqDoorbellBad q 1 v w := by
  simp [evqBell, hr, hf]
theorem evqBell_owner (hr : w.evqReach func q = true) (hf : (w.evq q).func = func) : evqBell func q v w = evqDoorbellWrite q v w := by
  simp [evqBell, hr, hf]
theorem evqDoorbellWrite_reserved (h : v.toNat / 2 ^ 20 % 2 ^ 11 ≠ 0) : evqDoorbellWrite q v w = evqDoorbellBad q 3 v w :=
  if_pos (bne_iff_ne.2 h)
variable (hv : v.toNat / 2 ^ 20 % 2 ^ 11 = 0)
include hv
theorem evqDoorbellWrite_inactive (h : (w.evq q).active = false) : evqDoorbellWrite q v w = evqDoorbellBad q 1 v w := by
  simp only [evqDoorbellWrite, hv, h, bne_self_eq_false, Bool.not_false, Bool.false_eq_true, if_false, if_true]
variable (ha : (w.evq q).active = true)
include ha
theorem evqDoorbellWrite_beyond (h : ((w.evq q).tail - (w.evq q).head).toNat < ((v.setWidth 20 : BitVec 20) - (w.evq q).head).toNat) :
    evqDoorbellWrite q v w = evqDoorbellBad q 0 v w := by
  simp only [evqDoorbellWrite, hv, ha, h, bne_self_eq_false, Bool.not_true, Bool.false_eq_true, if_false, if_true]
theorem evqDoorbellWrite_taken (h : ((v.setWidth 20 : BitVec 20) - (w.evq q).head).toNat ≤ ((w.evq q).tail - (w.evq q).head).toNat) :
    evqDoorbellWrite q v w = evqHead q (v.setWidth 20) (v.getLsbD 31) w := by
  simp only [evqDoorbellWrite, hv, ha, Nat.not_lt.2 h, bne_self_eq_false, Bool.not_true, Bool.false_eq_true, if_false]
end

section
variable {w : Sw} {q : Nat} (h : BitVec 20) (hlost : (w.evq q).lost = none)
include hlost

/-- HEAD of a queue that lost nothing is set, and nothing is written. -/
theorem evqHead_eq (arm : Bool) : evqHead q h arm w =
    (if !arm then w.modEvq q fun e => { e with head := h }
     else if h ≠ (w.evq q).tail then sendMsix (w.evq q).func (w.evq q).vector (w.modEvq q fun e => { e with head := h, armed := false })
     else w.modEvq q fun e => { e with head := h, armed := true }) := by
  have hset : writeLost q (w.modEvq q fun e => { e with head := h }) = w.modEvq q fun e => { e with head := h } :=
    writeLost_none ((congrArg Evq.lost (Sw.modEvq_self _ _ _)).trans hlost)
  simp only [evqHead, hset, Sw.modEvq_self, Sw.modEvq_twice, bne_iff_ne]
end

/-! ### FLR and the host link (12 R403; 14 R472) -/

theorem SMap.find?_keep {β : Type} (p : Nat → Bool) (k : Nat) (m : SMap β) : SMap.find? k (SMap.keep p m) = if p k then SMap.find? k m else none := by
  induction m with
  | nil => simp [SMap.keep]
  | cons e m ih =>
    unfold SMap.keep at ih ⊢
    by_cases hk : e.1 = k
    · by_cases hp : p k = true
      · simp [SMap.find?, hk, hp]
      · simp [hk, hp, ih]
    · by_cases hp : p e.1 = true
      · simp [SMap.find?, hk, hp, ih]
      · simp [SMap.find?, hk, hp, ih]

section
variable (func : Nat) (w : Sw)

theorem flrOf_ring (n : Nat) : (flrOf func w).ring n = if func = 0 ∨ (w.ring n).func = func then (w.ring n).flr else w.ring n := by
  have hdefault : (if (func == 0 || ({} : Ring).func == func) then ({} : Ring).flr else {}) = {} := ite_self _
  have hget := SMap.getD_mapVals (fun r : Ring => if func == 0 || r.func == func then r.flr else r) n {} w.host.rings
  rw [hdefault] at hget
  refine hget.trans ?_
  simp only [Bool.or_eq_true, beq_iff_eq]
  rfl
theorem flrOf_evq (q : Nat) : (flrOf func w).evq q = if func = 0 ∨ (w.evq q).func = func then (w.evq q).flr else w.evq q := by
  have hdefault : (if (func == 0 || ({} : Evq).func == func) then ({} : Evq).flr else {}) = {} := ite_self _
  have hget := SMap.getD_mapVals (fun e : Evq => if func == 0 || e.func == func then e.flr else e) q {} w.host.evqs
  rw [hdefault] at hget
  refine hget.trans ?_
  simp only [Bool.or_eq_true, beq_iff_eq]
  rfl
theorem flrOf_msix (k : Nat) : SMap.find? k (flrOf func w).host.msix = if func = 0 ∨ k / 256 = func then none else SMap.find? k w.host.msix := by
  refine (SMap.find?_keep (fun k => !(func == 0 || k / 256 == func)) k w.host.msix).trans ?_
  simp only [Bool.not_eq_true', Bool.or_eq_false_iff, beq_eq_false_iff_ne, ne_eq, ← not_or, ite_not]
end
/-- Settles O27: settings and queues by the checks of their writes; a reset of a function maps its rings, queues and vectors. -/
theorem hostRule : Obligations.HostRule := by
  unfold Obligations.HostRule
  refine ⟨?caps, ?config, ?queues, ?doorbell, ?flr, ?link⟩
  case caps =>
    intro s b hh hform
    refine ⟨fun hlen => becomes_of_desc capsReadOp rfl hh (guardDesc_fails ?short _ _ _),
      fun hlen hhost => becomes_of_desc capsReadOp rfl hh ((guardDesc_passes ?long _ _ _).trans (hostGuard_good hhost _ _ _))⟩
    case short => simp [firstFail, hform, hlen]
    case long => simp [firstFail, hform, Nat.not_lt.2 hlen]
  case config =>
    intro s b hh
    refine ⟨fun hv hq => becomes_of_desc hostConfigOp rfl hh (hostConfigOp_denied hv (by simpa using hq)), fun f hform hf => ?_⟩
    obtain rfl : f = hostSettings b := funext fun h => funext (hf h)
    exact ⟨fun hv => becomes_of_desc hostConfigOp rfl hh (hostConfigOp_invalid hform hv),
      fun hv hq => becomes_of_desc hostConfigOp rfl hh (hostConfigOp_valid hform hv (by simpa using hq))⟩
  case queues =>
    intro s func q
    have henable {t : Sw} (h : onlyIf (s.sw.evqReach func q) (evqStart func q) s.sw = t) : becomes (.evqEnable func q) s t :=
      becomes_of_lift (fun w => onlyIf (w.evqReach func q) (evqStart func q) w) rfl h
    have hdisable {t : Sw} (h : onlyIf (s.sw.evqReach func q) (evqStop func q) s.sw = t) : becomes (.evqDisable func q) s t :=
      becomes_of_lift (fun w => onlyIf (w.evqReach func q) (evqStop func q) w) rfl h
    refine ⟨fun hr => ⟨henable (onlyIf_false hr _ _), hdisable (onlyIf_false hr _ _), fun v => stays_of_lift (evqBell func q v) rfl ?_⟩,
      fun hr => ⟨fun ha => henable ?_, fun ha hok => henable ?_, evqReady_bad, fun ha hok => henable ?_, fun hn => hdisable ?_,
        fun hn => hdisable ?_⟩⟩
    · simp [evqBell, hr]
    all_goals rw [onlyIf_true hr]
    · simp [evqStart, ha]
    · simp [evqStart, ha, hok]
    · simp [evqStart, ha, hok]
    · simp [evqStop, hn]
    · simp [evqStop, hn]
  case doorbell =>
    rintro s func q cause v e h hr rfl htold rfl
    have hruns {t : Sw} (ht : evqBell func q v s.sw = t) : becomes (.evqDoorbell func q v) s t := becomes_of_lift (evqBell func q v) rfl ht
    refine ⟨fun hbad => hruns (Eq.trans ?_ (evqDoorbellBad_told htold)), fun hf hv ha hle hlost => ?_⟩
    · rcases hbad with ⟨rfl, hf⟩ | ⟨hf, ⟨rfl, hv⟩ | ⟨hv, ⟨rfl, ha⟩ | ⟨rfl, ha, hlt⟩⟩⟩
      · exact evqBell_foreign hr hf
      · exact (evqBell_owner hr hf).trans (evqDoorbellWrite_reserved hv)
      · exact (evqBell_owner hr hf).trans (evqDoorbellWrite_inactive hv ha)
      · exact (evqBell_owner hr hf).trans (evqDoorbellWrite_beyond hv ha hlt)
    · have hhead := (evqBell_owner hr hf).trans ((evqDoorbellWrite_taken hv ha hle).trans (evqHead_eq _ hlost _))
      refine ⟨fun harm => hruns (hhead.trans ?_), fun harm htail => hruns (hhead.trans ?_), fun harm htail => hruns (hhead.trans ?_)⟩
      · simp only [harm, Bool.not_false, if_true]
      · simp [harm, htail]
      · simp [harm, htail, hf]
  case flr =>
    exact fun s func => ⟨_, becomes_of_lift (flrOf func) rfl rfl, flrOf_keeps (by decide) (.refl _ _), flrOf_ring func s.sw, flrOf_evq func s.sw,
      flrOf_msix func s.sw⟩
  case link =>
    intro s cause w hw
    have hflr : flrOf 0 s.sw = w := by
      injection (becomes_of_lift (c := .flr 0) (flrOf 0) rfl rfl).symm.trans hw with hst
      exact congrArg State.sw hst
    subst hflr
    exact becomes_of_lift (fun w => holdEvent 0x0A04 (le 1 cause) ((flrOf 0 w).modHost fun h =>
      { h with vfEnable := false, numVfs := 0, linkUp := h.linkUp && cause != 1, perstN := h.perstN && cause != 1 })) rfl rfl
end Sys2Proof.Machine
end


section
/-! PROOFS. Flags, waits and jobs (O26). -/
namespace Sys2Proof.Machine

/-! ### SIGNAL and WAIT (12 R429, R431) -/

/-- A descriptor that passes the header checks does what its opcode does. -/
theorem runDesc_good {code : Nat} {b : Sub} {s : State} (hh : headerGood code b s) (op : Sub → Tok → Sw → Sw) :
    runDesc code op b s.sw = op b (descTok code b s.sw) (descSw code b s.sw) := by
  simp only [headerGood, descSw] at hh
  simp only [runDesc, hh]
  rfl
/-- WAIT of a ring that waits for nothing. -/
theorem becomes_of_waitOp {b : Sub} {s : State} {t : Sw} (hh : headerGood 2 b s) (hwait : (s.sw.ring b.ring).wait = none)
    (ht : waitOp b (descTok 2 b s.sw) (descSw 2 b s.sw) = t) : becomes (.wait b) s t := by
  have hrun := becomes_wait b s hwait
  rwa [show descOp s.fuses 0x02 = waitOp from rfl, runDesc_good hh, ht] at hrun

section
variable {b : Sub} {t : Tok} {w : Sw}

/-- The value a SIGNAL gives its flag. -/
def signalled (b : Sub) (w : Sw) : Word :=
  if b.f 10 1 = 0 then w.flag (b.f 8 2 % 4096) + BitVec.ofNat 32 (b.f 12 4) else BitVec.ofNat 32 (b.f 12 4)
theorem flagChecks_denied (h : w.flagOwned b.func (b.f 8 2 % 4096) = false) : firstFail (flagChecks w b) = some stDenied := by
  simp [flagChecks, firstFail, Sub.flagNo, h]
theorem flagChecks_bad (h : w.flagOwned b.func (b.f 8 2 % 4096) = true) (hop : 1 < b.f 10 1) : firstFail (flagChecks w b) = some stBad := by
  simp [flagChecks, firstFail, Sub.flagNo, h, hop]
theorem flagChecks_pass (h : w.flagOwned b.func (b.f 8 2 % 4096) = true) (hform : b.only lflag = true) (hop : b.f 10 1 ≤ 1) :
    firstFail (flagChecks w b) = none := by simp [flagChecks, firstFail, Sub.flagNo, h, hform, hop]
theorem signalOp_refused {status : Nat} (h : firstFail (flagChecks w b) = some status) : signalOp b t w = complete t status w := by
  unfold signalOp
  exact guardDesc_fails h t _ w
theorem waitOp_refused {status : Nat} (h : firstFail (flagChecks w b) = some status) : waitOp b t w = complete t status w := by
  unfold waitOp
  exact guardDesc_fails h t _ w
theorem flagOwned_of_job {func f j : Nat} (hj : w.jobOfFlag f = some j) (ho : w.owns func j = true) : w.flagOwned func f = true := by
  rw [Sw.flagOwned, hj]
  exact ho

/-- SIGNAL of an owned flag adds or sets. -/
theorem signalOp_taken (h : w.flagOwned b.func (b.f 8 2 % 4096) = true) (hform : b.only lflag = true) (hop : b.f 10 1 ≤ 1) : signalOp b t w =
    completeR t stOk (BitVec.ofNat 64 (signalled b w).toNat) (setFlag (b.f 8 2 % 4096) (signalled b w) w) := by
  unfold signalOp
  exact guardDesc_passes (flagChecks_pass h hform hop) t _ w

variable {j : Nat} (hj : w.jobOfFlag (b.f 8 2 % 4096) = some j) (ho : w.owns b.func j = true) (hform : b.only lflag = true) (hop : b.f 10 1 ≤ 1)
include hj ho hform hop

/-- WAIT on an owned flag completes where its condition holds, and waits elsewhere. -/
theorem waitOp_owned : waitOp b t w =
    if waitHolds (b.f 10 1 == 1) (BitVec.ofNat 32 (b.f 12 4)) (w.flag (b.f 8 2 % 4096)) then
      flagProgress j (completeR t stOk (BitVec.ofNat 64 (w.flag (b.f 8 2 % 4096)).toNat) w)
    else (w.modRing b.ring fun r => { r with
        wait := some { flag := b.f 8 2 % 4096, eq := b.f 10 1 == 1, value := BitVec.ofNat 32 (b.f 12 4), tok := t }
        state := if r.state == .running then .waiting else r.state }).modJob j fun k => { k with wdStart := w.now } := by
  unfold waitOp
  refine (guardDesc_passes (flagChecks_pass (flagOwned_of_job hj ho) hform hop) _ _ _).trans ?_
  simp only [Sub.flagNo, Sub.value, hj]
  rfl
end

/-- The watchdog of a job reports waits and edges that fit its event. -/
theorem waitStall_reports {j : Nat} {host : List (Nat × Nat)} {w : Sw} (hws : w.waiters j ≠ []) (hst : (w.job j).stalled = none)
    (hw : (w.waiters j).length ≤ 256) (he : (w.stallEdges j host).length ≤ 1024) : waitStall j host w =
      raiseJob j 0x0120 (le 2 (w.waiters j).length ++ le 2 (w.stallEdges j host).length ++ le 1 (b2n (stallCycle (w.waiters j) (w.stallEdges j host))) ++
        ((w.waiters j).map fun e => le 2 e.1 ++ le 2 e.2.flag ++ le 4 e.2.value.toNat ++ le 4 (w.flag e.2.flag).toNat).flatten ++
        ((w.stallEdges j host).map fun e => le 2 e.1 ++ le 2 e.2).flatten) (w.modJob j fun k => { k with stalled := some w.now }) := by
  simp only [waitStall, List.isEmpty_eq_false_iff.2 hws, hst, List.take_of_length_le hw, List.take_of_length_le he, Nat.not_lt.2 hw, Nat.not_lt.2 he]
  rfl

/-! ### JOB_OPEN and JOB_CLOSE (12 R406, R407) -/

theorem bitsOf_zero (n : Nat) : bitsOf (0#n) = [] := by simp [bitsOf]

section
variable {b : Sub} {t : Tok} {w : Sw}

/-- The checks of the fields of a JOB_OPEN that does not keep. -/
theorem jobOpenOp_bad (h : 4096 < b.f 12 2 + b.f 14 2 ∨ b.f 10 1 ≠ 0 ∧ w.vfEnabled (b.f 10 1) = false) : jobOpenOp b t w = complete t stBad w := by
  unfold jobOpenOp
  refine guardDesc_fails ?_ _ _ _
  rcases h with h | ⟨h, hv⟩
  · simp [firstFail, h]
  · simp [firstFail, h, hv]
variable (hform : b.only [by_ 8 1, bi_ 9 0 1, by_ 10 6, by_ 24 8] = true) (hrange : b.f 12 2 + b.f 14 2 ≤ 4096)
  (hfunc : b.f 10 1 = 0 ∨ w.vfEnabled (b.f 10 1) = true) (hkeep : b.flag 9 0 = false)
include hform hrange hfunc hkeep
theorem jobOpenOp_denied (h : (w.job (b.f 8 1)).state ≠ .closed ∨ w.evqAssigned (b.f 11 1) (b.f 10 1) = false) :
    jobOpenOp b t w = complete t stDenied w := by
  unfold jobOpenOp
  refine guardDesc_fails ?_ _ _ _
  have hfunc' : (b.f 10 1 != 0 && !w.vfEnabled (b.f 10 1)) = false := by
    rcases hfunc with h | h <;> simp [h]
  rcases h with h | h
  · simp [firstFail, hform, hfunc', Nat.not_lt.2 hrange, hkeep, h]
  · simp [firstFail, hform, hfunc', Nat.not_lt.2 hrange, hkeep, h]
/-- JOB_OPEN of a closed job without a port map. -/
theorem jobOpenOp_opens (hst : (w.job (b.f 8 1)).state = .closed) (hq : w.evqAssigned (b.f 11 1) (b.f 10 1) = true)
    (hmeet : ∀ k ∈ w.otherJobs (b.f 8 1), rangesMeet (b.f 12 2) (b.f 14 2) (w.job k).flagFirst (w.job k).flagCount = false) (hmap : b.f 24 8 = 0) :
    jobOpenOp b t w = raiseJob (b.f 8 1) 0x0110 (le 1 (b.f 8 1) ++ le 1 (b.f 10 1) ++ le 2 (b.f 12 2) ++ le 2 (b.f 14 2) ++ le 1 0) (complete t stOk
      ((w.modJob (b.f 8 1) fun k => { k with
          state := .opened, owner := b.f 10 1, flagFirst := b.f 12 2, flagCount := b.f 14 2, jevq := some (b.f 11 1), wdStart := w.now, stalled := none, portMap := 0 }).modHost
        fun h => { h with flags := h.flags.keep fun f => !(decide (b.f 12 2 ≤ f) && decide (f < b.f 12 2 + b.f 14 2)) })) := by
  unfold jobOpenOp
  have hfunc' : (b.f 10 1 != 0 && !w.vfEnabled (b.f 10 1)) = false := by
    rcases hfunc with h | h <;> simp [h]
  refine (guardDesc_passes ?_ _ _ _).trans ?_
  · simpa [firstFail, hform, hfunc', Nat.not_lt.2 hrange, hkeep, hst, hq] using hmeet
  · simp only [hmap, hst, hkeep, bne_self_eq_false, Bool.false_eq_true, if_false, id]
    refine (guardDesc_passes ?_ _ _ _).trans rfl
    simp [firstFail, Sw.mapTaken, bitsOf_zero]
end

section
variable {b : Sub} {t : Tok} {w : Sw} (hform : b.only [by_ 8 1, bi_ 9 0 1] = true)
include hform

theorem jobCloseOp_denied (h : (w.job (b.f 8 1)).state = .closed ∨ (w.job (b.f 8 1)).state = .closing ∨ w.ctxsOf (b.f 8 1) ≠ [] ∧ b.flag 9 0 = false) :
    jobCloseOp b t w = complete t stDenied w := by
  unfold jobCloseOp
  refine guardDesc_fails ?_ _ _ _
  rcases h with h | h | ⟨h, hf⟩
  · simp [firstFail, hform, h]
  · simp [firstFail, hform, h]
  · simp [firstFail, hform, h, hf]
theorem jobCloseOp_closes (hopen : (w.job (b.f 8 1)).state ≠ .closed) (hlive : (w.job (b.f 8 1)).state ≠ .closing)
    (h : w.ctxsOf (b.f 8 1) = [] ∨ b.flag 9 0 = true) : jobCloseOp b t w =
      each (w.ctxsOf (b.f 8 1)) (fun x w => settle x (abortAll x (w.modCtx x fun c => { c with closing := true })))
        (w.modJob (b.f 8 1) fun k => { k with
          state := .closing, closing := some t
          torn := ((w.ctxsOf (b.f 8 1)).length, ((w.ctxsOf (b.f 8 1)).filter fun x => (w.store? x).isSome).length) }) := by
  unfold jobCloseOp
  refine guardDesc_passes ?_ _ _ _
  have hctxs : (!(w.ctxsOf (b.f 8 1)).isEmpty && !b.flag 9 0) = false := by rcases h with h | h <;> simp [h]
  simp [firstFail, hform, hopen, hlive, hctxs]
end

/-! ### TEARDOWN_COMPLETE (12 R407, R408) -/

/-- A warning of the pool changes what was warned of alone. -/
theorem poolWarn_waits (c at_ : Nat) (w : Sw) : (poolWarn c at_ w).pool.waits = w.pool.waits := by
  simp only [poolWarn]
  split
  · rfl
  · split
    · have hpool (u : Sw) : (raiseSys 0x0808 (le 2 c ++ le 2 at_ ++ le 4 (w.poolFree c)) u).pool = u.pool :=
        (raiseSys_keeps (ps := evParts) (by decide) (.refl _ u) .pool (by decide)).symm
      rw [hpool]
      rfl
    · split <;> rfl
theorem poolFreeIf_waits (f : PoolBuf → Bool) (w : Sw) : (poolFreeIf f w).pool.waits = w.pool.waits := by
  have hwarned (l : List (Nat × Nat)) (u : Sw) : (each l (fun e => poolWarn e.1 e.2) u).pool.waits = u.pool.waits := by
    induction l generalizing u with
    | nil => rfl
    | cons e l ih => exact (ih _).trans (poolWarn_waits e.1 e.2 u)
  exact hwarned _ _

/-- Stores and contexts of the job are gone, and its ports unbound (R408). -/
def jobUnbound (j : Nat) (w : Sw) : Sw :=
  unbindJob j (each ((each (w.ctxsOf j) destroyStore w).ctxsOf j) freeCtx (each (w.ctxsOf j) destroyStore w))
/-- The waits of rings on the job's flags end as well. -/
def jobEmptied (j : Nat) (w : Sw) : Sw :=
  each (jobUnbound j w).host.rings (fun e s => match (s.ring e.1).wait with
    | some x => if s.jobOfFlag x.flag == some j then endWait e.1 stAborted s else s
    | none => s) (jobUnbound j w)
/-- Flags, kernels and waiting requests of the job are no more. -/
def jobForgotten (j : Nat) (b : Job) (w : Sw) : Sw :=
  ((w.modHost fun h => { h with flags := h.flags.keep fun f => !(decide (b.flagFirst ≤ f) && decide (f < b.flagFirst + b.flagCount)) }).modKernels fun m =>
    m.filter fun e => e.2.job != j).modPool fun p => { p with waits := p.waits.filter fun e => e.job != some j }
/-- Its buffers are freed, and the closing is completed and told. -/
def jobReported (j : Nat) (b : Job) (w : Sw) : Sw :=
  raiseJob j 0x0111 (le 1 j ++ le 4 b.torn.1 ++ le 4 b.torn.2) (completeOpt b.closing stOk (poolFreeIf (fun k => k.job == some j) w))
theorem teardown_eq (j : Nat) (w : Sw) : teardown j w =
    if (w.job j).state != .closing || (w.ctxsOf j).any (fun x => match w.ctx? x with | some c => c.anyOpen | none => false) then w
    else (jobReported j (w.job j) (jobForgotten j (w.job j) (jobEmptied j w))).modJob j fun _ => {} := rfl
theorem teardown_done {j : Nat} {w : Sw} (hst : (w.job j).state = .closing)
    (hops : ∀ x ∈ w.ctxsOf j, ∀ c, w.ctx? x = some c → c.anyOpen = false) :
    teardown j w = (jobReported j (w.job j) (jobForgotten j (w.job j) (jobEmptied j w))).modJob j fun _ => {} := by
  rw [teardown_eq]
  refine if_neg ?_
  simp only [hst, bne_self_eq_false, Bool.false_or, List.any_eq_true, not_exists, not_and]
  intro x hx
  cases hc : w.ctx? x with
  | none => simp
  | some c => simp [hops x hx c hc]
theorem teardown_waits {j : Nat} {w : Sw} (h : (w.job j).state ≠ .closing ∨ ∃ x ∈ w.ctxsOf j, ∃ c, w.ctx? x = some c ∧ c.anyOpen = true) :
    teardown j w = w := by
  unfold teardown
  refine if_pos ?_
  rcases h with h | ⟨x, hx, c, hc, ho⟩
  · simp [h]
  · rw [Bool.or_eq_true, List.any_eq_true]
    exact .inr ⟨x, hx, by simp [hc, ho]⟩

section
variable (j : Nat) (b : Job) (w : Sw)

theorem jobReported_keeps : Sw.keeps [.rings, .evqs, .msix, .pool, .outs] w (jobReported j b w) :=
  raiseJob_keeps (by decide) (completeOpt_keeps (by decide) (poolFreeIf_keeps (by decide) (.refl _ w)))
theorem jobReported_waits : (jobReported j b w).pool.waits = w.pool.waits := by
  have hkept : Sw.keeps parts13 (poolFreeIf (fun k => k.job == some j) w) (jobReported j b w) :=
    raiseJob_keeps (by decide) (completeOpt_keeps (by decide) (.refl _ _))
  rw [← hkept .pool (by decide)]
  exact poolFreeIf_waits _ w
@[simp] theorem Sw.modJob_flag (n f : Nat) (g : Job → Job) (s : Sw) : (s.modJob n g).flag f = s.flag f := rfl
@[simp] theorem Sw.modJob_port (n k : Nat) (g : Job → Job) (s : Sw) : (s.modJob n g).port k = s.port k := rfl
theorem flag_of_keeps {ps : List Piece} {a b : Sw} (h : Sw.keeps ps a b) (hp : Piece.flags ∉ ps) (f : Nat) : b.flag f = a.flag f := by
  unfold Sw.flag
  rw [h .flags hp]
theorem jobForgotten_flag {f : Nat} (h : b.flagFirst ≤ f) (h' : f < b.flagFirst + b.flagCount) : (jobForgotten j b w).flag f = 0 := by
  have hfind : SMap.find? f (jobForgotten j b w).host.flags = none :=
    (SMap.find?_keep (fun f => !(decide (b.flagFirst ≤ f) && decide (f < b.flagFirst + b.flagCount))) f w.host.flags).trans (if_neg (by simp [h, h']))
  rw [Sw.flag, SMap.getD, hfind]
  rfl
theorem jobForgotten_port (n : Nat) : (jobForgotten j b w).port n = w.port n := rfl
theorem jobForgotten_kernels {e : Nat × Kernel} (h : e ∈ (jobForgotten j b w).kernels) : e.2.job ≠ j := by
  simpa using (List.mem_filter.1 h).2
theorem jobForgotten_waits {e : PoolWait} (h : e ∈ (jobForgotten j b w).pool.waits) : e.job ≠ some j := by
  simpa using (List.mem_filter.1 h).2
/-- A port that is bound to no context of job j. -/
def portUnbound (j : Nat) (p : Port) : Port :=
  match p.reg.binding with
  | some b => if b.job = j then { p with reg := { p.reg with binding := none } } else p
  | none => p
theorem unbindJob_binding {n : Nat} {k : Binding} (h : ((unbindJob j w).port n).reg.binding = some k) : k.job ≠ j := by
  have hport : SMap.find? n (unbindJob j w).ports = (SMap.find? n w.ports).map (portUnbound j) := SMap.find?_mapVals (portUnbound j) n w.ports
  rw [Sw.port, SMap.getD, hport] at h
  cases hp : SMap.find? n w.ports with
  | none =>
    rw [hp] at h
    exact absurd ((portReset_binding _ n).symm.trans h) (by simp)
  | some p =>
    rw [hp] at h
    simp only [Option.map_some, Option.getD_some, portUnbound] at h
    split at h
    · next b hb =>
      split at h
      · simp at h
      · next hjob =>
        obtain rfl : b = k := Option.some.inj (hb.symm.trans h)
        exact hjob
    · next hb => exact absurd (hb.symm.trans h) (by simp)
theorem jobEmptied_binding {n : Nat} {k : Binding} (h : ((jobEmptied j w).port n).reg.binding = some k) : k.job ≠ j := by
  have hwaits : Sw.keeps parts25 (jobUnbound j w) (jobEmptied j w) := by
    refine each_keeps (fun e a s hk => ?_) (.refl _ _)
    split
    · exact keeps_ite (endWait_keeps (by decide) hk) hk
    · exact hk
  rw [port_of_keeps hwaits (by decide)] at h
  exact unbindJob_binding j _ h
end
/-- Settles O26: each command by its checks, the teardown by what `jobForgotten` and `jobUnbound` take away and what follows keeps. -/
theorem jobRule : Obligations.JobRule := by
  unfold Obligations.JobRule
  refine ⟨?nop, ?signal, ?busy, ?wait, ?stall, ?opens, ?closes, ?tears⟩
  case nop =>
    refine fun s b hh => ⟨fun hform => becomes_of_desc nopOp rfl hh (guardDesc_passes ?_ _ _ _), fun hform => becomes_of_desc nopOp rfl hh (guardDesc_fails ?_ _ _ _)⟩
    all_goals simp [firstFail, hform]
  case signal =>
    rintro s b f u w hh rfl rfl rfl
    exact ⟨fun h => becomes_of_desc signalOp rfl hh (signalOp_refused (flagChecks_denied h)),
      fun h hop => becomes_of_desc signalOp rfl hh (signalOp_refused (flagChecks_bad h hop)),
      fun h hform hop => becomes_of_desc signalOp rfl hh (signalOp_taken h hform hop)⟩
  case busy =>
    exact fun s b hw => stays_of_lift _ (exec_wait b s) (if_pos (Option.isSome_iff_ne_none.2 hw))
  case wait =>
    rintro s b f j hh hwait rfl
    refine ⟨fun h => becomes_of_waitOp hh hwait (waitOp_refused (flagChecks_denied h)), fun hj ho hform hop => ?_⟩
    have hrun := waitOp_owned (t := descTok 2 b s.sw) (w := descSw 2 b s.sw) hj ho hform hop
    exact ⟨fun h => becomes_of_waitOp hh hwait (hrun.trans (if_pos h)), fun h => becomes_of_waitOp hh hwait (hrun.trans (if_neg (ne_true_of_eq_false h)))⟩
  case stall =>
    refine fun s j host => ⟨fun h => stays_of_lift (waitStall j host) rfl ?_, ?_⟩
    · rcases h with h | h
      · simp [waitStall, h]
      · simp [waitStall, Option.isSome_iff_ne_none.2 h]
    · rintro ws es rfl hws hst hw rfl he
      exact becomes_of_lift (waitStall j host) rfl (waitStall_reports hws hst hw he)
  case opens =>
    rintro s b j func q first n hh rfl rfl rfl rfl rfl hform
    refine ⟨fun h => becomes_of_desc jobOpenOp rfl hh (jobOpenOp_bad (w := descSw 8 b s.sw) h), fun hrange hfunc hkeep =>
      ⟨fun h => becomes_of_desc jobOpenOp rfl hh (jobOpenOp_denied (w := descSw 8 b s.sw) hform hrange hfunc hkeep (h.imp_right (descSw_evqAssigned ..).trans)),
        fun hst hq hmeet hmap => becomes_of_desc jobOpenOp rfl hh (jobOpenOp_opens (w := descSw 8 b s.sw) hform hrange hfunc hkeep hst (by simpa using hq) hmeet hmap)⟩⟩
  case closes =>
    rintro s b j hh rfl hform
    exact ⟨fun h => becomes_of_desc jobCloseOp rfl hh (jobCloseOp_denied (w := descSw 9 b s.sw) hform h),
      fun hopen hlive h => becomes_of_desc jobCloseOp rfl hh (jobCloseOp_closes (w := descSw 9 b s.sw) hform hopen hlive h)⟩
  case tears =>
    refine fun s j => ⟨fun h => stays_of_lift (teardown j) rfl (teardown_waits h), fun hst hops => ⟨_, becomes_of_lift (teardown j) rfl (teardown_done hst hops), ?_⟩⟩
    have hkept := jobReported_keeps j (s.sw.job j) (jobForgotten j (s.sw.job j) (jobEmptied j s.sw))
    have hwaits := jobReported_waits j (s.sw.job j) (jobForgotten j (s.sw.job j) (jobEmptied j s.sw))
    generalize jobReported j (s.sw.job j) (jobForgotten j (s.sw.job j) (jobEmptied j s.sw)) = t at hkept hwaits ⊢
    refine ⟨Sw.modJob_self _ _ _, fun f hlo hhi => ?flags, fun n k hk => ?ports, fun e he => ?kernels, fun e he => ?waits⟩
    case flags =>
      rw [Sw.modJob_flag, flag_of_keeps hkept (by decide)]
      exact jobForgotten_flag j _ _ hlo hhi
    case ports =>
      rw [Sw.modJob_port, port_of_keeps hkept (by decide), jobForgotten_port] at hk
      exact jobEmptied_binding j _ hk
    case kernels =>
      rw [Sw.modJob_kernels, ← hkept .kernels (by decide)] at he
      exact jobForgotten_kernels j _ _ he
    case waits =>
      rw [Sw.modJob_pool, hwaits] at he
      exact jobForgotten_waits j _ _ he
end Sys2Proof.Machine
end


section
/-! PROOFS. Rings: their states, their doorbells and the dispatch of descriptors (O28). -/
namespace Sys2Proof.Machine

/-! ### Changes to one ring -/

/-- What a change makes of ring n is all that counts of it. -/
theorem Sw.modRing_congr {n : Nat} {f g : Ring → Ring} {w : Sw} (h : f (w.ring n) = g (w.ring n)) : w.modRing n f = w.modRing n g := by
  unfold Sw.modRing
  simp only [h]
theorem Ring.settle_eq : Ring.settle = fun r => if r.state = .draining ∧ r.outst = [] then { r with state := .disabled, enable := false } else r := by
  funext r
  simp [Ring.settle]

/-! ### Start and stop (12 R409, R411) -/

section
variable {w : Sw} {func n : Nat}

theorem ringReady_bad (h : (w.ring n).sizeLog2 < 6 ∨ 16 < (w.ring n).sizeLog2 ∨ (w.evq (w.ring n).cevq).active = false ∨
    (w.evq (w.ring n).cevq).func ≠ (w.ring n).func) : w.ringReady n = false := by
  rcases h with h | h | h | h
  · simp [Sw.ringReady, Nat.not_le.2 h]
  · simp [Sw.ringReady, Nat.not_le.2 h]
  · simp [Sw.ringReady, h]
  · simp [Sw.ringReady, h]
theorem ringStart_ready (h : (w.ring n).state = .disabled) (hr : w.ringReady n = true) : ringStart func n w =
    w.modRing n fun r => { r with enable := true, state := .running, cause := 0, head := 0, tail := 0, fetching := 0, fetched := [], wait := none } := by
  simp [ringStart, h, hr]
theorem ringStart_refused (h : (w.ring n).state = .disabled ∧ w.ringReady n = false ∨ (w.ring n).state = .draining) :
    ringStart func n w = regDiscard func (ringOffset n 8) ((w.ring n).ctrl true) 1 w := by
  rcases h with ⟨h, hr⟩ | h
  · simp [ringStart, h, hr]
  · simp [ringStart, h]
/-- A ring in service. -/
def RingSt.serving (t : RingSt) : Prop := t = .running ∨ t = .waiting ∨ t = .halted
theorem ringStart_serving (h : (w.ring n).state.serving) : ringStart func n w = w := by
  rcases h with h | h | h <;> simp [ringStart, h]
theorem ringStop_idle (h : (w.ring n).state = .disabled ∨ (w.ring n).state = .draining) : ringStop n w = w := by
  rcases h with h | h <;> simp [ringStop, h]
theorem ringStop_serving (h : (w.ring n).state.serving) : ringStop n w =
    (raiseSys 0x0102 (le 2 n ++ le 4 (w.ring n).fetched.length ++ le 1 (b2n (w.ring n).wait.isSome))
      (endWait n stAborted (w.modRing n fun r => { r with state := .draining, enable := false, cause := 0, fetching := 0, fetched := [] }))).modRing n
        Ring.settle := by
  rcases h with h | h | h <;> simp [ringStop, h]
end

/-! ### Reads of descriptors (12 R411, R412) -/

/-- A read of descriptors starts where the link is up, the ring in service and no other read outstanding. -/
def fetchStart (n : Nat) (w : Sw) : Sw :=
  onlyIf (w.linked && ((w.ring n).state == .running || (w.ring n).state == .waiting) && (w.ring n).fetching == 0)
    (Sw.modRing n fun r => { r with fetching := r.readable }) w

section
variable {w : Sw} {n : Nat} (hf : (w.ring n).fetching ≠ 0)
include hf

theorem fetchEnds_taken {ds : List Desc} (hlen : ds.length ≤ (w.ring n).fetching) : fetchEnds n ds 0 w =
    w.modRing n fun r => { r with fetching := 0, head := r.head + BitVec.ofNat 20 ds.length, fetched := r.fetched ++ ds } := by
  simp only [fetchEnds, hf, if_false, if_true, List.take_of_length_le hlen, Sw.modRing_twice]
theorem fetchEnds_failed {ds : List Desc} {e : Nat} (he : e ≠ 0) (hst : (w.ring n).state = .running ∨ (w.ring n).state = .waiting) : fetchEnds n ds e w =
    raiseSys 0x0101 (le 2 n ++ le 1 e ++ le 4 (w.ring n).head.toNat ++
        le 8 ((w.ring n).base + BitVec.ofNat 64 (64 * ((w.ring n).head.toNat % 2 ^ (w.ring n).sizeLog2))).toNat)
      (w.modRing n fun r => { r with fetching := 0, state := .halted, cause := e }) := by
  have hread : ((w.ring n).state == .running || (w.ring n).state == .waiting) = true := by simpa using hst
  simp only [fetchEnds, hf, he, hread, if_false, if_true, Sw.modRing_twice]
end

/-! ### Dispatch (12 R412, R416, R424) -/

/-- Ring n once its oldest descriptor is taken, and the rest is left. -/
def ringTook (n : Nat) (ds : List Desc) (w : Sw) : Sw := w.modRing n fun r => { r with fetched := ds }
theorem ringTook_wait (n : Nat) (ds : List Desc) (w : Sw) : ((ringTook n ds w).ring n).wait = (w.ring n).wait := by
  simp [ringTook]
/-- A descriptor may be taken from its ring after its dispatch as well as before. -/
theorem descSw_ringTook (code : Nat) (b : Sub) (ds : List Desc) (w : Sw) : descSw code b (ringTook b.ring ds w) = ringTook b.ring ds (descSw code b w) := by
  unfold descSw dispatch ringTook
  have hevq (u : Sw) (q : Nat) (f : Evq → Evq) (g : Ring → Ring) : (u.modEvq q f).modRing b.ring g = (u.modRing b.ring g).modEvq q f := rfl
  have hhost (g : Ring → Ring) : (w.modRing b.ring g).modHost (fun h => { h with nextTok := h.nextTok + 1 }) =
      (w.modHost fun h => { h with nextTok := h.nextTok + 1 }).modRing b.ring g := rfl
  simp only [hevq, hhost, Sw.modRing_twice, Sw.modRing_self]
  rfl
theorem runDesc_refused {code : Nat} {b : Sub} {w : Sw} {st : Nat} (h : headerStatus (descSw code b w) code b = some st) (op : Sub → Tok → Sw → Sw) :
    runDesc code op b w = complete (descTok code b w) st (descSw code b w) := by
  unfold descSw at h
  simp only [runDesc, h]
  rfl

section
variable {s : State} {n : Nat} {host : List Byte} {err : Option Quad} {d : Desc} {ds : List Desc} {b : Sub}
  (hd : (s.sw.ring n).fetched = d :: ds) (hb : b = { func := (s.sw.ring n).func, ring := n, desc := d, host := host, hostErr := err })
include hd hb

theorem dispatchNext_waits (h : mayDispatch n b s.sw = false) : dispatchNext n host err s = s := by
  subst hb
  simp [dispatchNext, hd, h]
theorem dispatchNext_runs (h : mayDispatch n b s.sw = true) {code : Nat} (hcode : b.f 0 1 = code) (hmgmt : code ≠ 0x93) :
    dispatchNext n host err s = { s with sw := runDesc code (descOp s.fuses code) b (ringTook n ds s.sw) } := by
  subst hb hcode
  simp only [dispatchNext, hd, h, hmgmt, Bool.not_true, Bool.false_eq_true, if_false]
  rfl
end
/-- No row of a ring is the management descriptor. -/
theorem descRows_code {e : Nat × (Sub → Instr)} (he : e ∈ descRows) : e.1 ≠ 0x93 := by
  have hnone : 0x93 ∉ descRows.map Prod.fst := by decide
  exact fun h => hnone (h ▸ List.mem_map_of_mem he)
theorem opcodes_mgmt : ∃ o ∈ opcodes, o.code = 0x93 := ⟨⟨0x93, true, 0⟩, by decide, rfl⟩
theorem headerStatus_unassigned {w : Sw} {code : Nat} {b : Sub} (h : ∀ o ∈ opcodes, o.code ≠ code) (hm : b.cminor ≤ w.sec.runMinor) :
    headerStatus w code b = some stBad := by
  have hfind : opcodes.find? (fun o => o.code == code) = none := by
    rw [List.find?_eq_none]
    simpa using h
  simp [headerStatus, firstFail, hfind, Nat.not_lt.2 hm]

/-! ### Doorbells (12 R417, R418, R435) -/

section
variable {w : Sw} {func n cause : Nat} {v : Word}

theorem ringDoorbellBad_told (h : (w.ring n).last0103 = none) : ringDoorbellBad n cause v w =
    raiseSys 0x0103 (le 2 n ++ le 4 v.toNat ++ le 1 cause) (w.modRing n fun r => { r with last0103 := some w.now }) := by
  simp [ringDoorbellBad, due0103, h]
theorem ringBell_unreached (hr : w.ringReach func n = false) (f : Sw → Sw) : ringBell func n v f w = w := by simp [ringBell, hr]
theorem ringBell_foreign (hr : w.ringReach func n = true) (hf : (w.ring n).func ≠ func) (f : Sw → Sw) :
    ringBell func n v f w = ringDoorbellBad n 1 v w := by simp [ringBell, hr, hf]
theorem ringBell_owner (hr : w.ringReach func n = true) (hf : (w.ring n).func = func) (f : Sw → Sw) : ringBell func n v f w = f w := by
  simp [ringBell, hr, hf]
theorem tailWrite_reserved (h : 2 ^ 20 ≤ v.toNat) : tailWrite n v w = ringDoorbellBad n 3 v w := if_pos h
variable (hv : v.toNat < 2 ^ 20)
include hv
theorem tailWrite_idle (h : (w.ring n).state = .disabled ∨ (w.ring n).state = .draining) : tailWrite n v w = ringDoorbellBad n 1 v w := by
  have hidle : ((w.ring n).state == .disabled || (w.ring n).state == .draining) = true := by simpa using h
  simp only [tailWrite, Nat.not_le.2 hv, hidle, if_false, if_true]
variable (hd : (w.ring n).state ≠ .disabled) (hdr : (w.ring n).state ≠ .draining)
include hd hdr
theorem tailWrite_beyond (h : 2 ^ (w.ring n).sizeLog2 < ((v.setWidth 20 : BitVec 20) - (w.ring n).head).toNat) :
    tailWrite n v w = ringDoorbellBad n 0 v w := by
  have hserves : ((w.ring n).state == .disabled || (w.ring n).state == .draining) = false := by simp [hd, hdr]
  simp only [tailWrite, Nat.not_le.2 hv, hserves, h, decide_true, Bool.true_or, Bool.false_eq_true, if_false, if_true]
theorem tailWrite_taken (hh : ((v.setWidth 20 : BitVec 20) - (w.ring n).head).toNat ≤ 2 ^ (w.ring n).sizeLog2)
    (ht : ((v.setWidth 20 : BitVec 20) - (w.ring n).tail).toNat ≤ 2 ^ (w.ring n).sizeLog2) :
    tailWrite n v w = w.modRing n fun r => { r with tail := v.setWidth 20 } := by
  have hserves : ((w.ring n).state == .disabled || (w.ring n).state == .draining) = false := by simp [hd, hdr]
  simp only [tailWrite, Nat.not_le.2 hv, hserves, Nat.not_lt.2 hh, Nat.not_lt.2 ht, decide_false, Bool.or_self, Bool.false_eq_true, if_false]
end

/-! ### Waits -/

theorem endWait_none {n status : Nat} {w : Sw} (h : (w.ring n).wait = none) : endWait n status w = w := by simp [endWait, h]
theorem jobOfFlag_of_keeps {ps : List Piece} {a b : Sw} (h : Sw.keeps ps a b) (hp : Piece.jobs ∉ ps) (f : Nat) : b.jobOfFlag f = a.jobOfFlag f := by
  unfold Sw.jobOfFlag Sw.job
  rw [h .jobs hp]
/-- A WAIT on a flag of no job ends and is completed. -/
theorem endWait_jobless {n status : Nat} {w : Sw} {x : WaitRec} (hx : (w.ring n).wait = some x) (hj : w.jobOfFlag x.flag = none) :
    endWait n status w = completeR x.tok status (BitVec.ofNat 64 (w.flag x.flag).toNat)
      (w.modRing n fun r => { r with wait := none, state := if r.state = .waiting then .running else r.state }) := by
  have hjob (u : Sw) (hu : u.jobOfFlag x.flag = none) (res : Quad) : (completeR x.tok status res u).jobOfFlag x.flag = none :=
    (jobOfFlag_of_keeps (completeR_keeps (ps := parts13) (by decide) (.refl _ u)) (by decide) _).trans hu
  simp only [endWait, hx, Sw.modRing_flag, beq_iff_eq]
  rw [hjob _ (by exact hj)]
/-- Settles O28: each command by the state of its ring; a dispatch by the row of its opcode. -/
theorem ringRule : Obligations.RingRule := by
  unfold Obligations.RingRule
  refine ⟨?unreached, ?service, ?fetch, ?dispatch, ?bells, fun w n status x => endWait_jobless⟩
  case unreached =>
    intro s func n hr
    exact ⟨stays_of_lift (fun w => onlyIf (w.ringReach func n) (ringStart func n) w) rfl (onlyIf_false hr _ _),
      stays_of_lift (fun w => onlyIf (w.ringReach func n) (ringStop n) w) rfl (onlyIf_false hr _ _),
      stays_of_lift (ringBell func n 1 (endWait n stAborted)) rfl (ringBell_unreached hr _),
      stays_of_lift (ringBell func n 2 (Sw.modRing n resumeRing)) rfl (ringBell_unreached hr _),
      fun v => stays_of_lift (ringBell func n v (tailWrite n v)) rfl (ringBell_unreached hr _)⟩
  case service =>
    rintro s func n r hr rfl
    have hstart {t : Sw} (h : ringStart func n s.sw = t) : becomes (.ringEnable func n) s t :=
      becomes_of_lift (fun w => onlyIf (w.ringReach func n) (ringStart func n) w) rfl ((onlyIf_true hr _ _).trans h)
    have hstop {t : Sw} (h : ringStop n s.sw = t) : becomes (.ringDisable func n) s t :=
      becomes_of_lift (fun w => onlyIf (w.ringReach func n) (ringStop n) w) rfl ((onlyIf_true hr _ _).trans h)
    rw [← Ring.settle_eq]
    exact ⟨fun h hok => hstart (ringStart_ready h hok), fun h => hstart (ringStart_refused h), ringReady_bad, fun h => hstart (ringStart_serving h),
      fun h => hstop (ringStop_idle h), fun h => hstop (ringStop_serving h)⟩
  case fetch =>
    rintro s n r rfl
    have hends {ds : List Desc} {e : Nat} {t : Sw} (h : fetchEnds n ds e s.sw = t) : becomes (.fetchComplete n ds e) s t :=
      becomes_of_lift (fetchEnds n ds e) rfl h
    refine ⟨fun h => stays_of_lift (fetchStart n) rfl ?_, fun hl hst hf => becomes_of_lift (fetchStart n) rfl ?_, fun hf ds e => hends (if_pos hf),
      fun ds hf hlen => hends (fetchEnds_taken hf hlen), fun ds e hf he hst => hends (fetchEnds_failed hf he hst)⟩
    · rcases h with h | h | h | h | h <;> simp [fetchStart, onlyIf, h]
    · rcases hst with h | h <;> simp [fetchStart, onlyIf, hl, h, hf, Ring.readable]
  case dispatch =>
    rintro s n host err r rfl
    refine ⟨fun h => congrArg Host.Outcome.next ?stopped, ?one, fun hf => congrArg Host.Outcome.next ?fetching, fun hf hd => congrArg Host.Outcome.next ?none,
      fun d ds hf hd => congrArg Host.Outcome.next ?next⟩
    case fetching => simp only [hostTimeout, bne_iff_ne.2 hf, if_true]
    case none => simp [hostTimeout, hf, hd]
    case next => simp [hostTimeout, hf, hd]
    case stopped =>
      cases hd : (s.sw.ring n).fetched with
      | nil => simp [dispatchNext, hd]
      | cons d ds =>
        refine dispatchNext_waits hd rfl ?_
        rcases h with h | h | h | h
        · simp [mayDispatch, h]
        · simp [h] at hd
        · simp [mayDispatch, h]
        · simp [mayDispatch, Nat.not_lt.2 h]
    case one =>
      rintro d ds b u hd hb rfl
      refine ⟨fun hfence hout => congrArg Host.Outcome.next (dispatchNext_waits hd hb ?_),
        fun hroom => congrArg Host.Outcome.next (dispatchNext_waits hd hb ?_), fun hl hst hlen hfence hroom hwait => ?_⟩
      · simp [mayDispatch, hfence, hout]
      · simp [mayDispatch, hroom]
      have hmay : mayDispatch n b s.sw = true := by
        have hfence' : (!b.flag 2 0 || (s.sw.ring n).outst.isEmpty) = true := by rcases hfence with h | h <;> simp [h]
        simp [mayDispatch, hl, hst, hlen, hfence', hroom]
      refine ⟨fun e he hcode => ?_, fun hnone hminor => ?_⟩
      · have hrow := becomes_descRow b { s with sw := ringTook n ds s.sw } e he fun _ => by
          rw [hb]
          exact (ringTook_wait n ds s.sw).trans hwait
        exact (congrArg Host.Outcome.next (dispatchNext_runs hd hb hmay hcode (descRows_code he))).trans hrow.symm
      · obtain ⟨o, ho, hmgmt⟩ := opcodes_mgmt
        refine (congrArg Host.Outcome.next (dispatchNext_runs hd hb hmay rfl fun h => hnone o ho (hmgmt.trans h.symm))).trans ?_
        have hrun := runDesc_refused (headerStatus_unassigned (w := descSw (b.f 0 1) b (ringTook n ds s.sw)) hnone hminor) (descOp s.fuses (b.f 0 1))
        obtain rfl : b.ring = n := congrArg Sub.ring hb
        rw [hrun, descSw_ringTook]
        rfl
  case bells =>
    rintro s func n r hr rfl
    have htail {v : Word} {t : Sw} (h : ringBell func n v (tailWrite n v) s.sw = t) : becomes (.tail func n v) s t :=
      becomes_of_lift (ringBell func n v (tailWrite n v)) rfl h
    refine ⟨fun v cause htold hbad => htail (Eq.trans ?_ (ringDoorbellBad_told htold)), fun hf => ⟨?_, fun hw => ?_, fun hw => ?_, fun hst => ?_⟩⟩
    · rcases hbad with ⟨hf, rfl⟩ | ⟨hf, ⟨hv, rfl⟩ | ⟨hv, hst, rfl⟩ | ⟨hv, hd, hdr, hlt, rfl⟩⟩
      · exact ringBell_foreign hr hf _
      · exact (ringBell_owner hr hf _).trans (tailWrite_reserved hv)
      · exact (ringBell_owner hr hf _).trans (tailWrite_idle hv hst)
      · exact (ringBell_owner hr hf _).trans (tailWrite_beyond hv hd hdr hlt)
    · rintro v t hv rfl hd hdr hh ht
      exact htail ((ringBell_owner hr hf _).trans (tailWrite_taken hv hd hdr hh ht))
    · exact stays_of_lift (ringBell func n 1 (endWait n stAborted)) rfl ((ringBell_owner hr hf _).trans (endWait_none hw))
    · exact becomes_of_lift (ringBell func n 1 (endWait n stAborted)) rfl (ringBell_owner hr hf _)
    · exact becomes_of_lift (ringBell func n 2 (Sw.modRing n resumeRing)) rfl
        ((ringBell_owner hr hf _).trans (Sw.modRing_congr (by simp [resumeRing, hst])))
end Sys2Proof.Machine
end
